-- ==== Sys2Proof/Word.lean ====
section
/-!
DEFINITION. The words of the FN-24 model: bytes, 32-bit registers (R4), 64-bit quantities (R5), and the little-endian
reading and writing of byte strings (R8).
-/

namespace Sys2Proof

/-- One byte. -/
abbrev Byte := BitVec 8
/-- One 32-bit register (R4), or one FP32 encoding (R48). -/
abbrev Word := BitVec 32
/-- One 64-bit quantity (R5). -/
abbrev DWord := BitVec 64

/-- Little-endian value of a byte string (R8). -/
def leVal : List Byte → Nat
  | [] => 0
  | b :: bs => b.toNat + 256 * leVal bs

/-- The `n` little-endian bytes of `v` (R8). -/
def leBytes : Nat → Nat → List Byte
  | 0, _ => []
  | n + 1, v => BitVec.ofNat 8 v :: leBytes n (v / 256)

/-- Bit `i` of a natural number. -/
def bitOf (v i : Nat) : Bool := v / 2 ^ i % 2 == 1

/-- Bits `[lo + n - 1 : lo]` of a natural number. -/
def bitsOf (v lo n : Nat) : Nat := v / 2 ^ lo % 2 ^ n

/-- 1 for true, 0 for false. -/
def b2n (b : Bool) : Nat := if b then 1 else 0

/-- Division rounded up. A divisor of 0 gives 0. -/
def ceilDiv (a b : Nat) : Nat := (a + b - 1) / b

/-- A counter that stops at 0xFFFF_FFFF. -/
def satAdd32 (w : Word) (n : Nat) : Word := BitVec.ofNat 32 (min (w.toNat + n) 0xFFFFFFFF)

/-- Inserts before the first element that is not below. -/
def insertBy {α : Type} (le : α → α → Bool) (a : α) : List α → List α
  | [] => [a]
  | b :: bs => if le a b then a :: b :: bs else b :: insertBy le a bs

/-- The order of numbers. -/
def leNat (a b : Nat) : Bool := decide (a ≤ b)

/-- A stable sort. -/
def sortBy {α : Type} (le : α → α → Bool) (l : List α) : List α := l.foldr (insertBy le) []

/-- A list cut into pieces of `n`, the last one shorter. -/
def chunksFuel {α : Type} (n : Nat) : Nat → List α → List (List α)
  | 0, _ => []
  | _ + 1, [] => []
  | k + 1, x :: xs => (x :: xs).take n :: chunksFuel n k ((x :: xs).drop n)

def chunks {α : Type} (n : Nat) (l : List α) : List (List α) := chunksFuel n l.length l

end Sys2Proof
end

