-- ==== Sys2Proof/Machine/Assoc.lean ====
section
/-!
DEFINITION. Tables as association lists, in the order their keys were first put, and byte memory as a sorted list of
cells (R255: memory is written through the encoders; an unlisted byte reads 0, Log 2).
-/

namespace Sys2Proof

/-- A table. -/
abbrev AL (κ α : Type) := List (κ × α)

variable {κ α : Type} [DecidableEq κ]

def AL.get (k : κ) : AL κ α → Option α
  | [] => none
  | (j, v) :: t => if j = k then some v else AL.get k t

def AL.getD (k : κ) (d : α) (t : AL κ α) : α := (AL.get k t).getD d

/-- Replaces the entry of `k`, or adds one at the end. -/
def AL.put (k : κ) (v : α) : AL κ α → AL κ α
  | [] => [(k, v)]
  | (j, w) :: t => if j = k then (k, v) :: t else (j, w) :: AL.put k v t

def AL.del (k : κ) (t : AL κ α) : AL κ α := t.filter (fun p => p.1 ≠ k)

def AL.has (k : κ) (t : AL κ α) : Bool := (AL.get k t).isSome

/-- Applies `f` to the entry of `k`, if there is one. -/
def AL.upd (k : κ) (f : α → α) (t : AL κ α) : AL κ α :=
  match AL.get k t with
  | none => t
  | some v => AL.put k (f v) t

/-! ### Byte memory -/

/-- The memory of cells: strictly rising addresses, no cell that holds 0. -/
abbrev Mem := List Host.Cell

/-- Canonical form. -/
def Mem.wf : Mem → Bool
  | [] => true
  | [(_, b)] => b != 0
  | (a, b) :: (c, d) :: t => b != 0 && decide (a < c) && Mem.wf ((c, d) :: t)

def Mem.read (a : Nat) : Mem → Byte
  | [] => 0
  | (c, b) :: t => if c = a then b else if a < c then 0 else Mem.read a t

/-- Writes one byte; writing 0 removes the cell. -/
def Mem.write (a : Nat) (v : Byte) : Mem → Mem
  | [] => if v = 0 then [] else [(a, v)]
  | (c, b) :: t =>
    if a < c then (if v = 0 then (c, b) :: t else (a, v) :: (c, b) :: t)
    else if a = c then (if v = 0 then t else (a, v) :: t)
    else (c, b) :: Mem.write a v t

/-- `n` bytes from address `a`. -/
def Mem.readN (a : Nat) : Nat → Mem → List Byte
  | 0, _ => []
  | n + 1, m => m.read a :: Mem.readN (a + 1) n m

/-- Writes bytes at rising addresses. -/
def Mem.writeN (a : Nat) : List Byte → Mem → Mem
  | [], m => m
  | b :: bs, m => Mem.writeN (a + 1) bs (m.write a b)

/-- Little-endian number of `n` bytes at `a`. -/
def Mem.readLE (a n : Nat) (m : Mem) : Nat := leVal (m.readN a n)

/-- Removes every cell of [a, a + n): the bytes read 0. -/
def Mem.zero (a n : Nat) (m : Mem) : Mem := m.filter (fun c => c.1 < a || a + n ≤ c.1)

/-- The bytes of [a, a + n) become those of `src`. -/
def Mem.graft (a n : Nat) (src m : Mem) : Mem :=
  (src.filter (fun c => decide (a ≤ c.1) && decide (c.1 < a + n))).foldl (fun m c => m.write c.1 c.2) (m.zero a n)

end Sys2Proof
end

