-- ==== Sys2Proof/Machine/Types.lean ====
section
/-!
DEFINITION. The records of the spec as plain data: pages and frames (04), sequences, page-table entries, scale units,
partial-result records (07), checkpoint content (17). Offsets and widths are rendered in Machine/Render.lean.
-/

namespace Sys2Proof

/-- The two Turura links (R458). -/
inductive Link where | a | b
  deriving DecidableEq, Repr

/-- Who makes a register access: the host over one link, or a firmware core by its number (Table 2-11). -/
inductive Agent where
  | host (l : Link)
  | core (c : Nat)
  deriving DecidableEq, Repr

/-- Where a command comes from (R41): a submission ring, or a request message of a connection. -/
inductive Source where
  | ring (n : Nat)
  | conn (c : Nat) (msgId : Nat)
  deriving DecidableEq, Repr

/-- Frame states (Table 4-9). -/
inductive FState where | free | opened | sealing | sealed | filling | retired | poisoned
  deriving DecidableEq, Repr

/-- An HS scale-unit entry (Table 4-3). -/
structure HsUnit where
  scale : Word
  amax : Word
  clip : Nat
  isOpen : Bool
  closed : Bool
  whole : Bool
  deriving DecidableEq, Repr

/-- A page: its page record (Table 4-2) and its payload (R83). `mx`, `imp` and `payload` list the bytes that are not 0. -/
structure Page where
  shapeId : Nat
  st : FState
  domain : Nat
  fSealed : Bool
  fPacked : Bool
  fKeyed : Bool        -- FLAGS[2] PREFIX
  fCompacted : Bool
  fCkptCurrent : Bool
  fPoison : Bool
  share : Nat
  filled : Nat
  seq : Nat
  vpn : Nat
  firstPos : Nat
  keyHi : DWord
  sealTime : DWord
  crumbLoc : Bool
  loc : Nat
  clipPage : Nat
  gen : Nat
  ckptObj : Nat
  valid : BitVec 1024
  crumbHdr : List Byte
  kept : BitVec 1024
  mx : Mem
  units : List (Nat × HsUnit)
  imp : Mem
  payload : Mem
  deriving DecidableEq, Repr

/-- An empty page in state FREE. -/
def Page.blank : Page :=
  ⟨0, .free, 0, false, false, false, false, false, false, 0, 0, 0, 0, 0, 0, 0, false, 0, 0, 0, 0, 0, [], 0, [], [], [], []⟩

/-- A frame (R82): the page as the node's units see it, the copy that Rack holds (R241), the pins (R104) and the
correctable-error bucket (R262). -/
structure Frame where
  num : Nat
  cur : Page
  rack : Page
  old : Option (Nat × Page) -- source payload chunk and form, kept until PIN_OLD = 0 (Table 4-10)
  pinCur : Nat
  pinOld : Nat
  bktLevel : Nat
  bktStamp : Nat
  deriving DecidableEq, Repr

/-- Page-table entry state (Table 4-6). -/
inductive PteState where | invalid | bench | rack | ckpt | peer
  deriving DecidableEq, Repr

/-- Level-0 page-table entry (Table 4-6). -/
structure Pte where
  st : PteState
  shared : Bool
  r : Bool
  a : Bool
  fSealed : Bool
  packed : Bool
  fill : Bool
  poison : Bool
  loc : Nat
  deriving DecidableEq, Repr

def Pte.invalid : Pte := ⟨.invalid, false, false, false, false, false, false, false, 0⟩

/-- Sequence states (Table 4-5). -/
inductive SeqState where | free | active | parked | migrating | moved | destroying
  deriving DecidableEq, Repr

/-- Sequence record (Table 4-4). `history` is indexed by scale stream, oldest amax first (R55). -/
structure SeqRec where
  st : SeqState
  shapeId : Nat
  layers : Nat
  kvHeads : Nat
  pmaxLog2 : Nat
  histN : Nat
  headroom : Nat
  baseVpn : Nat
  policy : Nat
  sealLog : List (Nat × Nat)
  posStart : Nat
  ckptRegion : Nat
  clipTotal : Nat
  recordBytes : Nat
  parent : Nat
  peerSlot : Nat
  changeSeq : Nat
  lastSet : Nat
  nextStore : Nat
  nextPos : List Nat
  history : List (Nat × List Word)
  parkTime : DWord
  deriving DecidableEq, Repr

/-- One row of a partial: o, m, l (R171). -/
structure RowPart where
  o : List Word
  m : Word
  l : Word
  deriving DecidableEq, Repr

/-- Partial-result record (Table 7-1). -/
structure PartialRec where
  tag : Word
  status : Nat
  final : Bool
  obf16 : Bool
  sum : Bool
  degraded : Bool
  localMissing : Bool
  level : Nat
  targetLevel : Nat
  epoch : Word
  contrib : Nat
  expect : Nat
  rows : Nat
  dv : Nat
  deadlineUs : Nat
  tokens : Nat
  pages : Nat
  domain : Nat
  merged : Nat
  originAddr : Nat
  originPort : Nat
  missing : BitVec 256
  body : List RowPart
  msgLen : Nat
  deriving DecidableEq, Repr

/-- Key of a merge context (R178). -/
structure MergeKey where
  originAddr : Nat
  originPort : Nat
  domain : Nat
  tag : Word
  epoch : Word
  level : Nat
  deriving DecidableEq, Repr

/-- Completion record (Table 2-20), less PHASE and TIME, which the writer adds. -/
structure Completion where
  tag : Word
  status : Nat
  opcode : Nat
  context : Nat
  c0 : Nat
  c1 : Nat
  covE : Nat
  covG : Nat
  clip : Nat
  deriving DecidableEq, Repr

/-- A local region by handle, or a peer entry of a domain by index (R337, R339). -/
inductive RegionRef where
  | handle (h : Nat)
  | peer (domain index : Nat)
  deriving DecidableEq, Repr

end Sys2Proof
end

