-- ==== Sys2Proof/Machine/RegMap.lean ====
section
/-!
DEFINITION. The control-space map (R24, Table 2-1), the page types (R28, Table 2-3) and the registers of each page with
their fields, access classes and reset values, transcribed from the register tables of the spec. A bit that no field
covers is reserved (R7).
-/

namespace Sys2Proof

/-- Access classes (Table 2-9). -/
inductive Acc where | ro | rwl | rws | rwq | w1c | wo
  deriving DecidableEq, Repr

/-- A field: lowest bit, width, access class and reset value. -/
structure RField where
  lo : Nat
  w : Nat
  acc : Acc
  rst : Nat
  deriving DecidableEq, Repr

/-- A run of `cnt` registers of the same fields, `stride` bytes apart, from offset `off`. -/
structure RegDef where
  off : Nat
  stride : Nat
  cnt : Nat
  fields : List RField
  deriving DecidableEq, Repr

/-- Page types (Table 2-3). -/
inductive PgType where
  | node | secc | pmgt | schp | cctl | mbox | port | xprt | egrs | ingp | hlnk | dbel | strt | xlat
  | tile | aten | bnch | mrgu | ttlb | cbar | tsch | nbun | mchn | apnd | crmb | scrb
  deriving DecidableEq, Repr

/-- TYPE of PG_ID (Table 2-3). -/
def PgType.code : PgType → Nat
  | .node => 0x01 | .secc => 0x02 | .pmgt => 0x03 | .schp => 0x04 | .cctl => 0x05 | .mbox => 0x06
  | .port => 0x10 | .xprt => 0x11 | .egrs => 0x12 | .ingp => 0x13 | .hlnk => 0x18 | .dbel => 0x19
  | .strt => 0x20 | .xlat => 0x21 | .tile => 0x30 | .aten => 0x31 | .bnch => 0x32 | .mrgu => 0x33 | .ttlb => 0x34
  | .cbar => 0x35 | .tsch => 0x36 | .nbun => 0x37 | .mchn => 0x38 | .apnd => 0x39 | .crmb => 0x3A | .scrb => 0x3B

/-! ### Page numbers: control-space address divided by 4,096 (Table 2-1) -/

def pgNode : Nat := 0x0
def pgSecc : Nat := 0x100
def pgPmgt : Nat := 0x101
def pgSchp : Nat := 0x102
def pgCctl (q : Nat) : Nat := 0x103 + q
def pgMbox : Nat := 0x107
def pgPort (n : Nat) : Nat := 0x200 + n
def pgXprt : Nat := 0x208
def pgEgrs (n : Nat) : Nat := 0x209 + n
def pgIngp : Nat := 0x211
def pgHlnk : Link → Nat | .a => 0x300 | .b => 0x301
def pgDbel : Nat := 0x302
def pgStrt (b : Nat) : Nat := 0x400 + b
def pgXlat : Nat := 0x500
/-- Page `p` of tile `t`. -/
def pgTile (t p : Nat) : Nat := 0x1000 + t * 0x40 + p
def pgAten (t e : Nat) : Nat := pgTile t (1 + e)
def pgBnch (t : Nat) : Nat := pgTile t 3
def pgMrgu (t : Nat) : Nat := pgTile t 4
def pgTtlb (t : Nat) : Nat := pgTile t 5
def pgCbar (t : Nat) : Nat := pgTile t 6
def pgTsch (t : Nat) : Nat := pgTile t 7
/-- NBU and MCH of the node-wide channel number `ch` (tile × 16 + channel). -/
def pgNbun (ch : Nat) : Nat := pgTile (ch / 16) (8 + ch % 16)
def pgMchn (ch : Nat) : Nat := pgTile (ch / 16) (24 + ch % 16)
def pgApnd (t : Nat) : Nat := pgTile t 40
def pgCrmb (t : Nat) : Nat := pgTile t 41
def pgScrb (t : Nat) : Nat := pgTile t 42

/-- Type and instance index of a page of a tile (Table 2-3). -/
def tilePageType (p : Nat) : Option (PgType × Nat) :=
  if p = 0 then some (.tile, 0) else if p < 3 then some (.aten, p - 1) else if p = 3 then some (.bnch, 0)
  else if p = 4 then some (.mrgu, 0) else if p = 5 then some (.ttlb, 0) else if p = 6 then some (.cbar, 0)
  else if p = 7 then some (.tsch, 0) else if p < 24 then some (.nbun, p - 8) else if p < 40 then some (.mchn, p - 24)
  else if p = 40 then some (.apnd, 0) else if p = 41 then some (.crmb, 0) else if p = 42 then some (.scrb, 0) else none

/-- Type and index of a page; none where Table 2-1 assigns no page (R25). -/
def pageType (pg : Nat) : Option (PgType × Nat) :=
  if pg = 0 then some (.node, 0) else if pg = 0x100 then some (.secc, 0) else if pg = 0x101 then some (.pmgt, 0)
  else if pg = 0x102 then some (.schp, 0) else if 0x103 ≤ pg ∧ pg ≤ 0x106 then some (.cctl, pg - 0x103)
  else if pg = 0x107 then some (.mbox, 0) else if 0x200 ≤ pg ∧ pg ≤ 0x207 then some (.port, pg - 0x200)
  else if pg = 0x208 then some (.xprt, 0) else if 0x209 ≤ pg ∧ pg ≤ 0x210 then some (.egrs, pg - 0x209)
  else if pg = 0x211 then some (.ingp, 0) else if pg = 0x300 then some (.hlnk, 0) else if pg = 0x301 then some (.hlnk, 1)
  else if pg = 0x302 then some (.dbel, 0) else if 0x400 ≤ pg ∧ pg ≤ 0x407 then some (.strt, pg - 0x400)
  else if pg = 0x500 then some (.xlat, 0)
  else if 0x1000 ≤ pg ∧ pg < 0x1000 + 24 * 0x40 then tilePageType (pg % 0x40) else none

/-- The bits of IRQ_STAT, IRQ_EN and IRQ_FORCE that a page defines: the four common ones (Table 2-12) and its block's (R491, Tables 3-10,
4-13, 4-17, 5-13, 6-11, 7-7, 10-10, 10-13, 10-15, 11-8, 13-10, 13-13, 15-5, 16-13, 17-13, 18-13, 18-16, 18-18, 18-20, 19-10
and 19-13). The others are reserved (R7). -/
def irqBits (pg : Nat) : Nat :=
  0xF0000000 + match (pageType pg).map (·.1) with
    | some .node => 0xF | some .secc => 0xF | some .pmgt => 0xF | some .schp => 1 | some .cctl => 3 | some .mbox => 0xFF7F
    | some .port => 7 | some .xprt => 0xF | some .ingp => 1 | some .hlnk => 0xF | some .dbel => 3 | some .strt => 3
    | some .xlat => 7 | some .aten => 3 | some .bnch => 3 | some .mrgu => 7 | some .cbar => 1 | some .nbun => 3
    | some .mchn => 1 | some .apnd => 3 | some .crmb => 3 | some .scrb => 0xF
    | some .egrs => 0 | some .tile => 0 | some .ttlb => 0 | some .tsch => 0 | none => 0

/-- The tile of a tile page. -/
def pageTile (pg : Nat) : Option Nat := if 0x1000 ≤ pg ∧ pg < 0x1000 + 24 * 0x40 then some ((pg - 0x1000) / 0x40) else none

/-- The quadrant's firmware core that owns a page from reset (R36): the SECC, PMGT, SCHP and CCTL pages. -/
def corePage (pg : Nat) : Option Nat :=
  if pg = 0x100 then some 0 else if pg = 0x101 then some 1 else if pg = 0x102 then some 2
  else if 0x103 ≤ pg ∧ pg ≤ 0x106 then some (pg - 0x100) else none

/-! ### Registers -/

/-- The common page header (Table 2-2): PG_ID and PG_VER are answered by `pgId` and `pgVer`. -/
def regsHeader : List RegDef := [
  ⟨0x000, 4, 1, [⟨0, 32, .ro, 0⟩]⟩,
  ⟨0x004, 4, 1, [⟨8, 8, .ro, 1⟩, ⟨0, 8, .ro, 0⟩]⟩,
  ⟨0x008, 4, 4, [⟨0, 32, .ro, 0⟩]⟩,
  ⟨0x018, 4, 1, [⟨3, 1, .wo, 0⟩, ⟨2, 1, .wo, 0⟩, ⟨1, 1, .rwl, 0⟩, ⟨0, 1, .rwl, 0⟩]⟩,
  ⟨0x01C, 4, 1, [⟨7, 1, .ro, 0⟩, ⟨6, 1, .w1c, 0⟩, ⟨5, 1, .ro, 0⟩, ⟨4, 1, .ro, 0⟩, ⟨0, 4, .ro, 0⟩]⟩,
  ⟨0x020, 4, 1, [⟨0, 32, .w1c, 0⟩]⟩,
  ⟨0x024, 4, 1, [⟨0, 32, .rwl, 0⟩]⟩,
  ⟨0x028, 4, 1, [⟨0, 32, .wo, 0⟩]⟩,
  ⟨0x02C, 4, 1, [⟨31, 1, .rwl, 0⟩, ⟨28, 3, .rwl, 7⟩, ⟨0, 11, .rwl, 0⟩]⟩,
  ⟨0x030, 4, 1, [⟨31, 1, .w1c, 0⟩, ⟨30, 1, .ro, 0⟩, ⟨16, 8, .ro, 0⟩, ⟨0, 16, .ro, 0⟩]⟩,
  ⟨0x034, 4, 3, [⟨0, 32, .ro, 0⟩]⟩,
  ⟨0x040, 4, 1, [⟨0, 32, .ro, 0⟩]⟩,
  ⟨0x044, 4, 1, [⟨24, 8, .rws, 0x10⟩, ⟨16, 8, .rws, 0⟩, ⟨0, 8, .ro, 0⟩]⟩,
  ⟨0x048, 4, 1, [⟨4, 3, .rwl, 0⟩, ⟨0, 2, .rwl, 0⟩]⟩,
  ⟨0x04C, 4, 1, [⟨1, 1, .ro, 0⟩, ⟨0, 1, .wo, 0⟩]⟩,
  ⟨0x050, 4, 1, [⟨31, 1, .rwq, 1⟩, ⟨30, 1, .w1c, 0⟩, ⟨0, 24, .rwq, 0x1000⟩]⟩]

/-- Tables 1-13, 17-12, 20-7. -/
def regsNode : List RegDef := [
  ⟨0x100, 4, 1, [⟨0, 32, .ro, 0⟩]⟩,
  ⟨0x104, 4, 1, [⟨0, 32, .ro, 0⟩]⟩,
  ⟨0x108, 4, 1, [⟨16, 16, .ro, 0xf24⟩, ⟨8, 8, .ro, 2⟩, ⟨4, 4, .ro, 1⟩, ⟨0, 4, .ro, 1⟩]⟩,
  ⟨0x10c, 4, 1, [⟨0, 32, .ro, 0⟩]⟩,
  ⟨0x110, 4, 12, [⟨0, 32, .ro, 0⟩]⟩,
  ⟨0x140, 4, 1, [⟨0, 24, .ro, 0⟩]⟩,
  ⟨0x144, 4, 1, [⟨16, 7, .ro, 0⟩, ⟨12, 4, .ro, 0⟩, ⟨8, 2, .ro, 0⟩, ⟨0, 8, .ro, 0⟩]⟩,
  ⟨0x200, 4, 1, [⟨30, 2, .ro, 0⟩, ⟨20, 4, .ro, 0⟩]⟩,
  ⟨0x204, 4, 1, [⟨16, 10, .rwl, 0xa⟩, ⟨0, 10, .rwl, 0x32⟩]⟩,
  ⟨0x208, 4, 1, [⟨0, 32, .ro, 0⟩]⟩,
  ⟨0x20c, 4, 1, [⟨0, 32, .rwl, 0⟩]⟩,
  ⟨0x210, 4, 1, [⟨16, 10, .rwl, 0⟩, ⟨0, 16, .rwl, 0⟩]⟩,
  ⟨0x214, 4, 1, [⟨0, 32, .rwl, 0⟩]⟩,
  ⟨0x218, 4, 1, [⟨0, 11, .rwl, 0x64⟩]⟩,
  ⟨0x21c, 4, 1, [⟨31, 1, .rwl, 0⟩, ⟨0, 16, .rwl, 0⟩]⟩,
  ⟨0x220, 4, 1, [⟨4, 2, .wo, 0⟩, ⟨3, 1, .wo, 0⟩, ⟨2, 1, .wo, 0⟩, ⟨1, 1, .wo, 0⟩, ⟨0, 1, .wo, 0⟩]⟩,
  ⟨0x224, 4, 1, [⟨0, 32, .ro, 0⟩]⟩,
  ⟨0x228, 4, 1, [⟨0, 32, .ro, 0⟩]⟩,
  ⟨0x22c, 4, 1, [⟨26, 1, .ro, 1⟩, ⟨16, 10, .ro, 0⟩, ⟨0, 16, .ro, 0⟩]⟩,
  ⟨0x230, 4, 1, [⟨0, 32, .ro, 0⟩]⟩,
  ⟨0x234, 4, 1, [⟨0, 32, .ro, 0⟩]⟩,
  ⟨0x238, 4, 1, [⟨0, 7, .rwl, 0x19⟩]⟩,
  ⟨0x23c, 4, 1, [⟨0, 32, .ro, 0⟩]⟩,
  ⟨0x240, 4, 1, [⟨0, 24, .ro, 0⟩]⟩,
  ⟨0x244, 4, 1, [⟨0, 4, .ro, 0⟩]⟩,
  ⟨0x260, 4, 1, [⟨28, 4, .ro, 0⟩, ⟨16, 8, .ro, 0⟩, ⟨8, 8, .ro, 0⟩, ⟨0, 8, .ro, 0⟩]⟩,
  ⟨0x264, 4, 1, [⟨31, 1, .rwl, 0⟩, ⟨8, 5, .rwl, 0⟩, ⟨0, 3, .rwl, 0⟩]⟩,
  ⟨0x268, 4, 1, [⟨2, 1, .wo, 0⟩, ⟨1, 1, .wo, 0⟩, ⟨0, 1, .wo, 0⟩]⟩,
  ⟨0x26c, 4, 1, [⟨0, 32, .ro, 0⟩]⟩,
  ⟨0x270, 4, 1, [⟨0, 3, .rwl, 0⟩]⟩,
  ⟨0x274, 4, 1, [⟨24, 8, .ro, 0⟩, ⟨16, 8, .ro, 0⟩, ⟨8, 8, .ro, 0⟩, ⟨0, 8, .ro, 0⟩]⟩,
  ⟨0x278, 4, 1, [⟨0, 1, .wo, 0⟩]⟩]

/-- Table 16-12. -/
def regsSecc : List RegDef := [
  ⟨0x100, 4, 1, [⟨31, 1, .ro, 0⟩, ⟨30, 1, .ro, 0⟩, ⟨29, 1, .ro, 0⟩, ⟨0, 2, .ro, 0⟩]⟩,
  ⟨0x104, 4, 1, [⟨0, 8, .ro, 0⟩]⟩,
  ⟨0x108, 4, 1, [⟨0, 11, .ro, 1⟩]⟩,
  ⟨0x10c, 4, 1, [⟨0, 17, .ro, 0⟩]⟩,
  ⟨0x110, 4, 1, [⟨0, 17, .ro, 0⟩]⟩,
  ⟨0x114, 4, 4, [⟨31, 1, .ro, 0⟩, ⟨16, 10, .ro, 0⟩, ⟨0, 12, .ro, 0⟩]⟩,
  ⟨0x124, 4, 1, [⟨0, 12, .rwl, 0x3c⟩]⟩,
  ⟨0x128, 4, 1, [⟨0, 32, .ro, 0⟩]⟩,
  ⟨0x12c, 4, 1, [⟨0, 32, .ro, 0⟩]⟩,
  ⟨0x130, 4, 1, [⟨0, 32, .ro, 0⟩]⟩,
  ⟨0x134, 4, 1, [⟨0, 32, .ro, 0⟩]⟩,
  ⟨0x138, 4, 1, [⟨0, 32, .ro, 0⟩]⟩,
  ⟨0x140, 4, 12, [⟨0, 32, .ro, 0⟩]⟩,
  ⟨0x200, 4, 1, [⟨31, 1, .ro, 0⟩, ⟨0, 16, .ro, 0⟩]⟩,
  ⟨0x800, 4, 256, [⟨0, 32, .ro, 0⟩]⟩]

/-- Tables 18-15, 20-8. -/
def regsPmgt : List RegDef := [
  ⟨0x100, 4, 1, [⟨28, 4, .ro, 3⟩, ⟨26, 2, .ro, 0⟩, ⟨25, 1, .ro, 0⟩]⟩,
  ⟨0x104, 4, 1, [⟨0, 16, .rwl, 0x4b0⟩]⟩,
  ⟨0x108, 4, 1, [⟨0, 16, .ro, 0⟩]⟩,
  ⟨0x10c, 4, 1, [⟨0, 16, .ro, 0⟩]⟩,
  ⟨0x110, 4, 1, [⟨0, 16, .ro, 0⟩]⟩,
  ⟨0x114, 4, 1, [⟨16, 8, .ro, 0⟩, ⟨8, 8, .ro, 0⟩, ⟨0, 8, .ro, 0⟩]⟩,
  ⟨0x118, 4, 1, [⟨0, 32, .ro, 0⟩]⟩,
  ⟨0x11c, 4, 1, [⟨0, 32, .ro, 0⟩]⟩,
  ⟨0x120, 4, 1, [⟨30, 2, .ro, 0⟩, ⟨28, 2, .ro, 0⟩]⟩,
  ⟨0x124, 4, 1, [⟨0, 11, .ro, 0⟩]⟩,
  ⟨0x128, 4, 1, [⟨0, 32, .ro, 0⟩]⟩]

/-- Table 18-17. -/
def regsSchp : List RegDef := [
  ⟨0x100, 4, 1, [⟨0, 12, .rwl, 0⟩]⟩,
  ⟨0x104, 4, 1, [⟨0, 32, .ro, 0⟩]⟩,
  ⟨0x108, 4, 1, [⟨0, 32, .ro, 0⟩]⟩,
  ⟨0x10c, 4, 1, [⟨0, 13, .ro, 0⟩]⟩,
  ⟨0x110, 4, 1, [⟨10, 1, .rwl, 0⟩, ⟨0, 10, .rwl, 0⟩]⟩,
  ⟨0x114, 4, 1, [⟨31, 1, .ro, 0⟩, ⟨30, 1, .ro, 0⟩, ⟨0, 5, .ro, 1⟩]⟩,
  ⟨0x118, 4, 10, [⟨0, 32, .ro, 0⟩]⟩]

/-- Table 18-19. -/
def regsCctl : List RegDef := [
  ⟨0x100, 4, 1, [⟨31, 1, .ro, 0⟩, ⟨24, 6, .ro, 0⟩, ⟨8, 8, .ro, 0⟩, ⟨0, 8, .ro, 0⟩]⟩,
  ⟨0x104, 4, 1, [⟨0, 32, .ro, 0⟩]⟩,
  ⟨0x108, 4, 1, [⟨0, 10, .ro, 0⟩]⟩]

/-- Table 18-12. -/
def regsMbox : List RegDef := [
  ⟨0x100, 32, 7, [⟨31, 1, .ro, 0⟩, ⟨30, 1, .ro, 0⟩, ⟨29, 1, .ro, 0⟩, ⟨16, 8, .ro, 0⟩, ⟨8, 8, .ro, 0⟩, ⟨0, 8, .ro, 0⟩]⟩,
  ⟨0x104, 32, 7, [⟨0, 32, .wo, 0⟩]⟩,
  ⟨0x108, 32, 7, [⟨0, 32, .ro, 0⟩]⟩,
  ⟨0x10c, 32, 7, [⟨0, 11, .ro, 0⟩]⟩,
  ⟨0x110, 32, 7, [⟨0, 32, .ro, 0⟩]⟩,
  ⟨0x200, 4, 1, [⟨0, 5, .ro, 0⟩]⟩]

/-- Table 13-9. -/
def regsPort : List RegDef := [
  ⟨0x100, 4, 1, [⟨2, 1, .rwq, 0⟩, ⟨1, 1, .rwq, 0⟩, ⟨0, 1, .rwq, 0⟩]⟩,
  ⟨0x104, 4, 1, [⟨4, 2, .ro, 0⟩, ⟨2, 2, .ro, 0⟩, ⟨1, 1, .ro, 0⟩]⟩,
  ⟨0x108, 4, 1, [⟨0, 14, .rwq, 0x2328⟩]⟩,
  ⟨0x10c, 4, 1, [⟨12, 3, .rwq, 0⟩, ⟨0, 12, .rwq, 0⟩]⟩,
  ⟨0x110, 4, 1, [⟨0, 1, .rwl, 0⟩]⟩,
  ⟨0x114, 4, 4, [⟨0, 32, .rwq, 0⟩]⟩,
  ⟨0x124, 4, 1, [⟨0, 32, .rwq, 0⟩]⟩,
  ⟨0x128, 4, 4, [⟨0, 32, .rwq, 0⟩]⟩,
  ⟨0x138, 4, 1, [⟨0, 32, .rwq, 0⟩]⟩,
  ⟨0x13c, 4, 1, [⟨16, 6, .rwl, 0x30⟩, ⟨8, 6, .rwl, 0x1a⟩, ⟨0, 6, .rwl, 0xa⟩]⟩,
  ⟨0x140, 4, 1, [⟨0, 32, .ro, 0⟩]⟩,
  ⟨0x144, 4, 1, [⟨0, 32, .ro, 0⟩]⟩,
  ⟨0x148, 4, 1, [⟨0, 32, .ro, 0⟩]⟩,
  ⟨0x14c, 4, 1, [⟨0, 32, .ro, 0⟩]⟩,
  ⟨0x150, 4, 1, [⟨0, 32, .ro, 0⟩]⟩,
  ⟨0x154, 4, 1, [⟨0, 32, .ro, 0⟩]⟩,
  ⟨0x158, 4, 1, [⟨0, 32, .ro, 0⟩]⟩,
  ⟨0x15c, 4, 1, [⟨0, 32, .ro, 0⟩]⟩,
  ⟨0x160, 4, 1, [⟨0, 1, .wo, 0⟩]⟩,
  ⟨0x168, 4, 1, [⟨0, 32, .ro, 0⟩]⟩,
  ⟨0x16c, 4, 1, [⟨0, 16, .ro, 0⟩]⟩]

/-- Tables 13-12, 14-12. -/
def regsXprt : List RegDef := [
  ⟨0x100, 4, 1, [⟨0, 16, .rwq, 0⟩]⟩,
  ⟨0x104, 4, 1, [⟨0, 16, .rwl, 0x32⟩]⟩,
  ⟨0x108, 4, 1, [⟨16, 8, .rwl, 7⟩, ⟨0, 16, .rwl, 0x64⟩]⟩,
  ⟨0x10c, 4, 1, [⟨8, 8, .rwl, 0x10⟩, ⟨0, 8, .rwl, 8⟩]⟩,
  ⟨0x110, 4, 1, [⟨24, 8, .rwl, 1⟩, ⟨16, 8, .rwl, 0xa⟩, ⟨0, 8, .rwl, 0x20⟩]⟩,
  ⟨0x114, 4, 1, [⟨0, 16, .rwl, 0xa⟩]⟩,
  ⟨0x118, 4, 1, [⟨16, 16, .rwl, 0x64⟩, ⟨0, 9, .rwl, 0x100⟩]⟩,
  ⟨0x11c, 4, 1, [⟨0, 16, .rwl, 0x14⟩]⟩,
  ⟨0x120, 4, 1, [⟨0, 19, .ro, 0⟩]⟩,
  ⟨0x124, 4, 1, [⟨0, 14, .ro, 0⟩]⟩,
  ⟨0x128, 4, 1, [⟨0, 14, .ro, 0⟩]⟩,
  ⟨0x12c, 4, 1, [⟨16, 16, .ro, 0x8000⟩, ⟨0, 16, .ro, 0x6000⟩]⟩,
  ⟨0x130, 4, 1, [⟨0, 32, .ro, 0⟩]⟩,
  ⟨0x134, 4, 1, [⟨0, 32, .ro, 0⟩]⟩,
  ⟨0x138, 4, 1, [⟨0, 32, .ro, 0⟩]⟩,
  ⟨0x13c, 4, 1, [⟨0, 32, .ro, 0⟩]⟩,
  ⟨0x140, 4, 1, [⟨0, 32, .ro, 0⟩]⟩,
  ⟨0x144, 4, 1, [⟨0, 32, .ro, 0⟩]⟩,
  ⟨0x148, 4, 1, [⟨0, 32, .ro, 0⟩]⟩,
  ⟨0x14c, 4, 1, [⟨0, 32, .ro, 0⟩]⟩,
  ⟨0x150, 4, 1, [⟨0, 32, .ro, 0⟩]⟩,
  ⟨0x154, 4, 1, [⟨0, 1, .wo, 0⟩]⟩,
  ⟨0x180, 4, 1, [⟨0, 16, .rwl, 0x3e8⟩]⟩,
  ⟨0x184, 4, 1, [⟨0, 16, .rwl, 0x3e8⟩]⟩,
  ⟨0x188, 4, 1, [⟨0, 10, .rwl, 0⟩]⟩,
  ⟨0x18c, 4, 1, [⟨0, 17, .rwl, 0⟩]⟩,
  ⟨0x190, 4, 1, [⟨0, 17, .ro, 0⟩]⟩,
  ⟨0x194, 4, 1, [⟨16, 16, .ro, 0⟩, ⟨0, 16, .ro, 0⟩]⟩,
  ⟨0x198, 4, 1, [⟨0, 13, .ro, 0⟩]⟩,
  ⟨0x19c, 4, 1, [⟨0, 16, .rwl, 0⟩]⟩,
  ⟨0x1a0, 4, 1, [⟨29, 3, .ro, 0⟩, ⟨27, 2, .ro, 0⟩, ⟨24, 3, .ro, 0⟩, ⟨0, 10, .ro, 0⟩]⟩,
  ⟨0x1a4, 4, 1, [⟨16, 16, .ro, 1⟩, ⟨0, 16, .ro, 0⟩]⟩,
  ⟨0x1a8, 4, 1, [⟨0, 32, .ro, 0⟩]⟩,
  ⟨0x1ac, 4, 1, [⟨0, 32, .ro, 0⟩]⟩,
  ⟨0x1b0, 4, 1, [⟨0, 32, .ro, 0⟩]⟩,
  ⟨0x1b4, 4, 1, [⟨0, 1, .wo, 0⟩]⟩]

/-- Table 15-3. -/
def regsEgrs : List RegDef := [
  ⟨0x100, 4, 1, [⟨0, 12, .rwl, 0⟩]⟩,
  ⟨0x104, 4, 1, [⟨31, 1, .rws, 0⟩, ⟨30, 1, .rws, 0⟩, ⟨0, 8, .rws, 0x10⟩]⟩,
  ⟨0x108, 4, 1, [⟨0, 16, .rws, 0x1f40⟩]⟩,
  ⟨0x10c, 4, 1, [⟨0, 24, .rws, 0x10000⟩]⟩,
  ⟨0x110, 4, 1, [⟨0, 32, .ro, 0⟩]⟩,
  ⟨0x114, 4, 1, [⟨0, 32, .ro, 0⟩]⟩,
  ⟨0x118, 4, 1, [⟨0, 24, .rwl, 0x40000⟩]⟩,
  ⟨0x11c, 4, 1, [⟨8, 16, .rws, 0x40⟩, ⟨0, 8, .rws, 0xc0⟩]⟩,
  ⟨0x120, 4, 1, [⟨0, 32, .ro, 0⟩]⟩,
  ⟨0x124, 4, 1, [⟨0, 32, .ro, 0⟩]⟩,
  ⟨0x128, 4, 1, [⟨0, 32, .ro, 0⟩]⟩,
  ⟨0x12c, 4, 1, [⟨0, 32, .ro, 0⟩]⟩,
  ⟨0x130, 4, 1, [⟨0, 32, .ro, 0⟩]⟩,
  ⟨0x134, 4, 1, [⟨0, 32, .ro, 0⟩]⟩,
  ⟨0x138, 4, 1, [⟨0, 32, .ro, 0⟩]⟩,
  ⟨0x13c, 4, 1, [⟨0, 1, .wo, 0⟩]⟩]

/-- Table 15-4. -/
def regsIngp : List RegDef := [
  ⟨0x100, 4, 1, [⟨0, 10, .rwl, 0⟩]⟩,
  ⟨0x104, 4, 1, [⟨31, 1, .rws, 0⟩, ⟨0, 16, .rws, 0xfa00⟩]⟩,
  ⟨0x108, 4, 1, [⟨0, 32, .rws, 0x100000⟩]⟩,
  ⟨0x10c, 4, 1, [⟨0, 32, .ro, 0⟩]⟩,
  ⟨0x110, 4, 1, [⟨0, 32, .ro, 0⟩]⟩,
  ⟨0x114, 4, 1, [⟨0, 32, .ro, 0⟩]⟩,
  ⟨0x118, 4, 1, [⟨0, 32, .ro, 0⟩]⟩,
  ⟨0x11c, 4, 1, [⟨0, 32, .ro, 0⟩]⟩,
  ⟨0x120, 4, 1, [⟨0, 1, .wo, 0⟩]⟩]

/-- Table 19-9. -/
def regsHlnk : List RegDef := [
  ⟨0x100, 4, 1, [⟨1, 1, .wo, 0⟩, ⟨0, 1, .wo, 0⟩]⟩,
  ⟨0x104, 4, 1, [⟨28, 4, .ro, 0⟩, ⟨27, 1, .ro, 0⟩, ⟨26, 1, .ro, 0⟩, ⟨25, 1, .ro, 0⟩, ⟨16, 8, .ro, 0⟩]⟩,
  ⟨0x108, 4, 1, [⟨0, 32, .ro, 0⟩]⟩,
  ⟨0x10c, 4, 1, [⟨0, 16, .ro, 0⟩]⟩,
  ⟨0x110, 4, 1, [⟨0, 32, .ro, 0⟩]⟩,
  ⟨0x114, 4, 1, [⟨0, 32, .ro, 0⟩]⟩,
  ⟨0x118, 4, 1, [⟨0, 32, .ro, 0⟩]⟩,
  ⟨0x11c, 4, 1, [⟨0, 32, .ro, 0⟩]⟩,
  ⟨0x120, 4, 1, [⟨0, 32, .ro, 0⟩]⟩,
  ⟨0x124, 4, 1, [⟨0, 32, .ro, 0⟩]⟩,
  ⟨0x128, 4, 1, [⟨0, 32, .ro, 0⟩]⟩,
  ⟨0x12c, 4, 1, [⟨0, 32, .ro, 0⟩]⟩,
  ⟨0x130, 4, 1, [⟨0, 32, .ro, 0⟩]⟩,
  ⟨0x134, 4, 1, [⟨0, 32, .ro, 0⟩]⟩,
  ⟨0x138, 4, 1, [⟨0, 1, .wo, 0⟩]⟩]

/-- Table 19-12. -/
def regsDbel : List RegDef := [
  ⟨0x100, 4, 1, [⟨16, 12, .wo, 0⟩, ⟨0, 16, .wo, 0⟩]⟩,
  ⟨0x104, 4, 1, [⟨16, 12, .wo, 0⟩, ⟨0, 16, .wo, 0⟩]⟩,
  ⟨0x108, 4, 1, [⟨0, 12, .rwl, 0⟩]⟩,
  ⟨0x10c, 4, 1, [⟨31, 1, .rwl, 0⟩, ⟨30, 1, .rwl, 0⟩, ⟨16, 10, .rwl, 0⟩, ⟨8, 4, .rwl, 0⟩, ⟨4, 4, .rwl, 0⟩]⟩,
  ⟨0x110, 4, 1, [⟨0, 15, .rwl, 0⟩]⟩,
  ⟨0x114, 4, 1, [⟨0, 15, .rwl, 0⟩]⟩,
  ⟨0x118, 4, 1, [⟨0, 15, .rwl, 0⟩]⟩,
  ⟨0x11c, 4, 1, [⟨0, 14, .rwl, 0⟩]⟩,
  ⟨0x120, 4, 1, [⟨31, 1, .rwl, 0⟩, ⟨16, 11, .rwl, 0⟩, ⟨8, 8, .rwl, 1⟩, ⟨0, 8, .rwl, 8⟩]⟩,
  ⟨0x124, 4, 1, [⟨0, 16, .rwl, 0⟩]⟩,
  ⟨0x128, 4, 1, [⟨29, 3, .ro, 0⟩, ⟨28, 1, .ro, 0⟩, ⟨0, 16, .ro, 0⟩]⟩,
  ⟨0x12c, 4, 1, [⟨16, 16, .ro, 0⟩, ⟨0, 16, .ro, 0⟩]⟩,
  ⟨0x130, 4, 1, [⟨0, 32, .ro, 0⟩]⟩,
  ⟨0x134, 4, 1, [⟨0, 32, .ro, 0⟩]⟩,
  ⟨0x138, 4, 1, [⟨0, 32, .ro, 0⟩]⟩,
  ⟨0x13c, 4, 1, [⟨0, 32, .ro, 0⟩]⟩,
  ⟨0x140, 4, 1, [⟨0, 16, .ro, 0⟩]⟩,
  ⟨0x144, 4, 1, [⟨0, 32, .ro, 0⟩]⟩]

/-- Table 5-12. -/
def regsStrt : List RegDef := [
  ⟨0x100, 4, 1, [⟨0, 20, .ro, 0⟩]⟩,
  ⟨0x104, 4, 1, [⟨0, 32, .ro, 0⟩]⟩,
  ⟨0x108, 4, 1, [⟨0, 32, .ro, 0⟩]⟩,
  ⟨0x10c, 4, 1, [⟨0, 32, .ro, 0⟩]⟩,
  ⟨0x110, 4, 1, [⟨0, 32, .ro, 0⟩]⟩,
  ⟨0x114, 4, 1, [⟨0, 32, .ro, 0⟩]⟩,
  ⟨0x118, 4, 1, [⟨0, 32, .ro, 0⟩]⟩,
  ⟨0x11c, 4, 1, [⟨0, 32, .ro, 0⟩]⟩,
  ⟨0x120, 4, 1, [⟨0, 32, .ro, 0⟩]⟩,
  ⟨0x124, 4, 1, [⟨0, 1, .wo, 0⟩]⟩,
  ⟨0x130, 4, 1, [⟨0, 10, .rwl, 0⟩]⟩,
  ⟨0x134, 4, 1, [⟨0, 23, .rwl, 0⟩]⟩,
  ⟨0x138, 4, 1, [⟨0, 23, .ro, 0⟩]⟩]

/-- Table 4-12. -/
def regsXlat : List RegDef := [
  ⟨0x100, 4, 1, [⟨1, 1, .wo, 0⟩, ⟨0, 1, .rwq, 1⟩]⟩,
  ⟨0x104, 4, 1, [⟨0, 14, .rwl, 0x64⟩]⟩,
  ⟨0x108, 4, 1, [⟨0, 7, .rwl, 0x40⟩]⟩,
  ⟨0x10c, 4, 1, [⟨16, 10, .rwl, 0⟩, ⟨0, 6, .rwl, 0⟩]⟩,
  ⟨0x110, 4, 1, [⟨0, 32, .rwl, 0⟩]⟩,
  ⟨0x114, 4, 1, [⟨0, 32, .rwl, 0⟩]⟩,
  ⟨0x118, 4, 1, [⟨1, 1, .wo, 0⟩, ⟨0, 1, .wo, 0⟩]⟩,
  ⟨0x11c, 4, 1, [⟨0, 32, .ro, 0⟩]⟩,
  ⟨0x120, 4, 1, [⟨0, 32, .ro, 0⟩]⟩,
  ⟨0x124, 4, 1, [⟨0, 32, .ro, 0⟩]⟩,
  ⟨0x128, 4, 1, [⟨16, 16, .ro, 0⟩, ⟨0, 16, .ro, 0⟩]⟩]

/-- Table 6-10. -/
def regsAten : List RegDef := [
  ⟨0x100, 4, 1, [⟨4, 4, .rwq, 4⟩, ⟨0, 1, .rwq, 1⟩]⟩,
  ⟨0x104, 4, 1, [⟨31, 1, .ro, 0⟩, ⟨16, 12, .ro, 0⟩]⟩,
  ⟨0x108, 4, 1, [⟨0, 32, .ro, 0⟩]⟩,
  ⟨0x10c, 4, 1, [⟨0, 32, .ro, 0⟩]⟩,
  ⟨0x110, 4, 1, [⟨0, 32, .ro, 0⟩]⟩,
  ⟨0x114, 4, 1, [⟨0, 32, .ro, 0⟩]⟩,
  ⟨0x118, 4, 1, [⟨0, 32, .ro, 0⟩]⟩,
  ⟨0x11c, 4, 1, [⟨0, 32, .ro, 0⟩]⟩,
  ⟨0x120, 4, 1, [⟨0, 32, .ro, 0⟩]⟩,
  ⟨0x124, 4, 1, [⟨0, 32, .ro, 0⟩]⟩,
  ⟨0x128, 4, 1, [⟨0, 1, .wo, 0⟩]⟩]

/-- Table 10-9. -/
def regsBnch : List RegDef := [
  ⟨0x100, 4, 1, [⟨0, 20, .rws, 0x3e8⟩]⟩,
  ⟨0x104, 4, 1, [⟨31, 1, .rwl, 1⟩, ⟨8, 8, .rwl, 0x20⟩, ⟨0, 8, .rwl, 0x10⟩]⟩,
  ⟨0x108, 4, 1, [⟨0, 14, .rwq, 0x800⟩]⟩,
  ⟨0x10c, 4, 1, [⟨0, 4, .rwl, 0⟩]⟩,
  ⟨0x110, 4, 1, [⟨0, 16, .rwl, 0xffff⟩]⟩,
  ⟨0x114, 4, 1, [⟨0, 15, .rwl, 0⟩]⟩,
  ⟨0x118, 4, 1, [⟨0, 15, .ro, 0⟩]⟩,
  ⟨0x11c, 4, 1, [⟨0, 15, .ro, 0⟩]⟩,
  ⟨0x130, 4, 1, [⟨0, 10, .rwl, 0⟩]⟩,
  ⟨0x134, 4, 1, [⟨0, 20, .rwl, 0⟩]⟩,
  ⟨0x138, 4, 1, [⟨0, 20, .ro, 0⟩]⟩,
  ⟨0x13c, 4, 1, [⟨0, 32, .rwl, 0⟩]⟩,
  ⟨0x140, 4, 1, [⟨0, 32, .ro, 0⟩]⟩,
  ⟨0x144, 4, 1, [⟨0, 16, .rwl, 0x400⟩]⟩,
  ⟨0x150, 4, 1, [⟨0, 32, .ro, 0⟩]⟩,
  ⟨0x154, 4, 1, [⟨0, 32, .ro, 0⟩]⟩,
  ⟨0x158, 4, 1, [⟨0, 32, .ro, 0⟩]⟩,
  ⟨0x15c, 4, 1, [⟨0, 32, .ro, 0⟩]⟩,
  ⟨0x160, 4, 1, [⟨0, 32, .ro, 0⟩]⟩,
  ⟨0x164, 4, 1, [⟨0, 32, .ro, 0⟩]⟩,
  ⟨0x168, 4, 1, [⟨0, 32, .ro, 0⟩]⟩,
  ⟨0x16c, 4, 1, [⟨0, 1, .wo, 0⟩]⟩]

/-- Table 7-6. -/
def regsMrgu : List RegDef := [
  ⟨0x100, 4, 1, [⟨0, 24, .rwl, 0xf4240⟩]⟩,
  ⟨0x104, 4, 1, [⟨0, 16, .rwl, 0x2710⟩]⟩,
  ⟨0x108, 4, 1, [⟨20, 10, .ro, 0⟩, ⟨10, 10, .ro, 0⟩, ⟨0, 10, .ro, 0⟩]⟩,
  ⟨0x10c, 4, 1, [⟨0, 32, .ro, 0⟩]⟩,
  ⟨0x110, 4, 1, [⟨0, 32, .ro, 0⟩]⟩,
  ⟨0x114, 4, 1, [⟨0, 32, .ro, 0⟩]⟩,
  ⟨0x118, 4, 1, [⟨0, 32, .ro, 0⟩]⟩,
  ⟨0x11c, 4, 1, [⟨0, 32, .ro, 0⟩]⟩,
  ⟨0x120, 4, 1, [⟨0, 32, .ro, 0⟩]⟩,
  ⟨0x124, 4, 1, [⟨0, 32, .ro, 0⟩]⟩,
  ⟨0x128, 4, 1, [⟨0, 32, .ro, 0⟩]⟩,
  ⟨0x12c, 4, 1, [⟨0, 1, .wo, 0⟩]⟩]

/-- Table 4-15. -/
def regsTtlb : List RegDef := [
  ⟨0x100, 4, 1, [⟨0, 1, .wo, 0⟩]⟩,
  ⟨0x104, 4, 1, [⟨0, 32, .ro, 0⟩]⟩,
  ⟨0x108, 4, 1, [⟨0, 32, .ro, 0⟩]⟩,
  ⟨0x10c, 4, 1, [⟨0, 32, .ro, 0⟩]⟩,
  ⟨0x110, 4, 1, [⟨0, 32, .ro, 0⟩]⟩,
  ⟨0x114, 4, 1, [⟨0, 13, .ro, 0⟩]⟩]

/-- Table 10-14. -/
def regsCbar : List RegDef := [
  ⟨0x100, 4, 1, [⟨1, 1, .rwl, 1⟩, ⟨0, 1, .rwl, 0⟩]⟩,
  ⟨0x104, 4, 1, [⟨0, 16, .rwq, 0x1000⟩]⟩,
  ⟨0x108, 4, 1, [⟨31, 1, .ro, 0⟩, ⟨24, 5, .ro, 0x1f⟩, ⟨0, 18, .ro, 0⟩]⟩,
  ⟨0x10c, 4, 1, [⟨0, 32, .ro, 0⟩]⟩,
  ⟨0x110, 4, 1, [⟨0, 32, .ro, 0⟩]⟩,
  ⟨0x114, 4, 1, [⟨0, 32, .ro, 0⟩]⟩,
  ⟨0x118, 4, 1, [⟨0, 32, .ro, 0⟩]⟩,
  ⟨0x11c, 4, 1, [⟨0, 1, .wo, 0⟩]⟩]

/-- Tables 6-14, 12-9. -/
def regsTsch : List RegDef := [
  ⟨0x100, 4, 1, [⟨0, 12, .rws, 0x7d0⟩]⟩,
  ⟨0x104, 4, 1, [⟨16, 16, .ro, 0⟩, ⟨0, 16, .ro, 0⟩]⟩,
  ⟨0x108, 4, 1, [⟨0, 32, .ro, 0⟩]⟩,
  ⟨0x10c, 4, 1, [⟨0, 32, .ro, 0⟩]⟩,
  ⟨0x110, 4, 1, [⟨0, 32, .ro, 0⟩]⟩,
  ⟨0x114, 4, 8, [⟨0, 32, .ro, 0⟩]⟩,
  ⟨0x134, 4, 1, [⟨0, 32, .ro, 0⟩]⟩,
  ⟨0x138, 4, 1, [⟨0, 1, .wo, 0⟩]⟩,
  ⟨0x140, 4, 1, [⟨8, 16, .rws, 0x40⟩, ⟨0, 8, .rws, 0xc0⟩]⟩,
  ⟨0x144, 4, 1, [⟨0, 24, .rws, 0x4000⟩]⟩,
  ⟨0x148, 4, 1, [⟨0, 4, .rwl, 0⟩]⟩,
  ⟨0x14c, 4, 1, [⟨0, 16, .rwl, 0xffff⟩]⟩,
  ⟨0x150, 4, 1, [⟨0, 32, .ro, 0⟩]⟩,
  ⟨0x154, 4, 1, [⟨0, 32, .ro, 0⟩]⟩,
  ⟨0x158, 4, 1, [⟨0, 32, .ro, 0⟩]⟩,
  ⟨0x15c, 4, 1, [⟨0, 32, .ro, 0⟩]⟩,
  ⟨0x160, 4, 1, [⟨0, 1, .wo, 0⟩]⟩]

/-- Table 6-13. -/
def regsNbun : List RegDef := [
  ⟨0x100, 4, 1, [⟨0, 1, .rwq, 1⟩]⟩,
  ⟨0x104, 4, 1, [⟨31, 1, .ro, 0⟩, ⟨16, 12, .ro, 0⟩]⟩,
  ⟨0x108, 4, 1, [⟨0, 32, .ro, 0⟩]⟩,
  ⟨0x10c, 4, 1, [⟨0, 32, .ro, 0⟩]⟩,
  ⟨0x110, 4, 1, [⟨0, 32, .ro, 0⟩]⟩,
  ⟨0x114, 4, 1, [⟨0, 32, .ro, 0⟩]⟩,
  ⟨0x118, 4, 1, [⟨0, 32, .ro, 0⟩]⟩,
  ⟨0x11c, 4, 1, [⟨0, 32, .ro, 0⟩]⟩,
  ⟨0x120, 4, 1, [⟨0, 32, .ro, 0⟩]⟩,
  ⟨0x124, 4, 1, [⟨0, 32, .ro, 0⟩]⟩,
  ⟨0x128, 4, 1, [⟨0, 32, .ro, 0⟩]⟩,
  ⟨0x12c, 4, 1, [⟨0, 1, .wo, 0⟩]⟩]

/-- Tables 10-12, 11-5. -/
def regsMchn : List RegDef := [
  ⟨0x100, 4, 1, [⟨0, 16, .rwl, 0xffff⟩]⟩,
  ⟨0x104, 4, 1, [⟨8, 8, .rwl, 8⟩, ⟨0, 8, .rwl, 0x40⟩]⟩,
  ⟨0x108, 4, 1, [⟨0, 16, .ro, 0x8000⟩]⟩,
  ⟨0x10c, 4, 1, [⟨0, 16, .rwl, 0x100⟩]⟩,
  ⟨0x110, 4, 1, [⟨0, 15, .ro, 0⟩]⟩,
  ⟨0x114, 4, 1, [⟨0, 32, .ro, 0⟩]⟩,
  ⟨0x118, 4, 1, [⟨0, 32, .ro, 0⟩]⟩,
  ⟨0x11c, 4, 1, [⟨0, 32, .ro, 0⟩]⟩,
  ⟨0x120, 4, 1, [⟨0, 32, .ro, 0⟩]⟩,
  ⟨0x124, 4, 1, [⟨0, 32, .ro, 0⟩]⟩,
  ⟨0x128, 4, 1, [⟨0, 32, .ro, 0⟩]⟩,
  ⟨0x12c, 4, 1, [⟨0, 32, .ro, 0⟩]⟩,
  ⟨0x130, 4, 1, [⟨0, 1, .wo, 0⟩]⟩,
  ⟨0x140, 4, 18, [⟨0, 32, .rwl, 0⟩]⟩,
  ⟨0x188, 4, 1, [⟨2, 1, .ro, 0⟩, ⟨1, 1, .rwl, 0⟩, ⟨0, 1, .wo, 0⟩]⟩,
  ⟨0x18c, 4, 1, [⟨31, 1, .ro, 0⟩, ⟨17, 1, .wo, 0⟩, ⟨16, 1, .wo, 0⟩, ⟨0, 15, .ro, 0⟩]⟩,
  ⟨0x190, 4, 1, [⟨0, 32, .ro, 0⟩]⟩,
  ⟨0x194, 4, 1, [⟨0, 32, .ro, 0⟩]⟩,
  ⟨0x198, 4, 1, [⟨0, 32, .ro, 0⟩]⟩,
  ⟨0x19c, 4, 1, [⟨0, 9, .rwl, 0⟩]⟩,
  ⟨0x1a0, 4, 1, [⟨31, 1, .ro, 0⟩, ⟨30, 1, .ro, 0⟩, ⟨0, 16, .ro, 0⟩]⟩,
  ⟨0x1a4, 4, 1, [⟨8, 8, .ro, 0⟩, ⟨0, 4, .ro, 0⟩]⟩,
  ⟨0x1a8, 4, 1, [⟨0, 16, .rwl, 0x40⟩]⟩,
  ⟨0x1ac, 4, 1, [⟨0, 1, .wo, 0⟩]⟩]

/-- Table 4-16. -/
def regsApnd : List RegDef := [
  ⟨0x100, 4, 1, [⟨0, 8, .rws, 0⟩]⟩,
  ⟨0x104, 4, 1, [⟨0, 6, .ro, 0⟩]⟩,
  ⟨0x108, 4, 1, [⟨0, 32, .ro, 0⟩]⟩,
  ⟨0x10c, 4, 1, [⟨0, 32, .ro, 0⟩]⟩,
  ⟨0x110, 4, 1, [⟨0, 32, .ro, 0⟩]⟩,
  ⟨0x114, 4, 1, [⟨0, 32, .ro, 0⟩]⟩,
  ⟨0x118, 4, 1, [⟨0, 32, .ro, 0⟩]⟩,
  ⟨0x11c, 4, 1, [⟨0, 32, .ro, 0⟩]⟩,
  ⟨0x120, 4, 1, [⟨0, 32, .ro, 0⟩]⟩,
  ⟨0x124, 4, 1, [⟨0, 1, .wo, 0⟩]⟩]

/-- Table 3-9. -/
def regsCrmb : List RegDef := [
  ⟨0x100, 4, 1, [⟨0, 1, .rws, 1⟩]⟩,
  ⟨0x104, 4, 1, [⟨0, 7, .ro, 0⟩]⟩,
  ⟨0x108, 4, 1, [⟨0, 32, .ro, 0⟩]⟩,
  ⟨0x10c, 4, 1, [⟨0, 32, .ro, 0⟩]⟩,
  ⟨0x110, 4, 1, [⟨0, 32, .ro, 0⟩]⟩,
  ⟨0x114, 4, 1, [⟨0, 32, .ro, 0⟩]⟩,
  ⟨0x118, 4, 1, [⟨0, 32, .ro, 0⟩]⟩,
  ⟨0x11c, 4, 1, [⟨0, 32, .ro, 0⟩]⟩,
  ⟨0x120, 4, 1, [⟨0, 1, .wo, 0⟩]⟩]

/-- Table 11-7. -/
def regsScrb : List RegDef := [
  ⟨0x100, 4, 1, [⟨2, 1, .rwl, 1⟩, ⟨1, 1, .rwl, 1⟩, ⟨0, 1, .rwl, 1⟩]⟩,
  ⟨0x104, 4, 1, [⟨0, 12, .rws, 0x708⟩]⟩,
  ⟨0x108, 4, 1, [⟨0, 12, .rws, 0x12c⟩]⟩,
  ⟨0x10c, 4, 1, [⟨0, 12, .rws, 0x3c⟩]⟩,
  ⟨0x110, 4, 1, [⟨24, 8, .rws, 0x10⟩, ⟨16, 8, .rws, 0⟩]⟩,
  ⟨0x114, 4, 1, [⟨31, 1, .ro, 0⟩, ⟨0, 28, .ro, 0⟩]⟩,
  ⟨0x118, 4, 1, [⟨31, 1, .w1c, 0⟩, ⟨0, 5, .ro, 0⟩]⟩,
  ⟨0x11c, 4, 1, [⟨0, 32, .ro, 0⟩]⟩,
  ⟨0x120, 4, 1, [⟨0, 32, .ro, 0⟩]⟩,
  ⟨0x124, 4, 1, [⟨0, 32, .ro, 0⟩]⟩,
  ⟨0x128, 4, 1, [⟨0, 32, .ro, 0⟩]⟩,
  ⟨0x12c, 4, 1, [⟨0, 32, .ro, 0⟩]⟩,
  ⟨0x130, 4, 1, [⟨0, 1, .wo, 0⟩]⟩,
  ⟨0x140, 4, 8, [⟨0, 32, .rwl, 0⟩]⟩,
  ⟨0x160, 4, 1, [⟨0, 16, .rwl, 0⟩]⟩,
  ⟨0x164, 4, 1, [⟨2, 1, .ro, 0⟩, ⟨1, 1, .rwl, 0⟩, ⟨0, 1, .wo, 0⟩]⟩,
  ⟨0x168, 4, 1, [⟨31, 1, .ro, 0⟩, ⟨17, 1, .wo, 0⟩, ⟨16, 1, .wo, 0⟩, ⟨0, 15, .ro, 0⟩]⟩]

/-- The block-specific registers of a page type. The TILE page has none. -/
def regsOf : PgType → List RegDef
  | .node => regsNode | .secc => regsSecc | .pmgt => regsPmgt | .schp => regsSchp | .cctl => regsCctl
  | .mbox => regsMbox | .port => regsPort | .xprt => regsXprt | .egrs => regsEgrs | .ingp => regsIngp
  | .hlnk => regsHlnk | .dbel => regsDbel | .strt => regsStrt | .xlat => regsXlat | .tile => []
  | .aten => regsAten | .bnch => regsBnch | .mrgu => regsMrgu | .ttlb => regsTtlb | .cbar => regsCbar
  | .tsch => regsTsch | .nbun => regsNbun | .mchn => regsMchn | .apnd => regsApnd | .crmb => regsCrmb
  | .scrb => regsScrb

/-- The fields of the register at offset `off` of a page of type `t`; none for a reserved register. -/
def regFields (t : PgType) (off : Nat) : List RField :=
  ((if off < 0x100 then regsHeader else regsOf t).find? (fun d =>
    d.off ≤ off && (off - d.off) % d.stride == 0 && (off - d.off) / d.stride < d.cnt)).elim [] (·.fields)

/-- The word whose fields are all at reset. -/
def fieldsReset (fs : List RField) : Word := BitVec.ofNat 32 (fs.foldl (fun a f => a + f.rst * 2 ^ f.lo) 0)

/-- The reset value of a register by the tables. -/
def regReset (pg off : Nat) : Word :=
  match pageType pg with
  | none => 0
  | some (t, _) => fieldsReset (regFields t off)

/-- Bits of the fields of class `a`. -/
def accMask (fs : List RField) (a : Acc) : Nat :=
  fs.foldl (fun m f => if f.acc = a then m + (2 ^ f.w - 1) * 2 ^ f.lo else m) 0

/-- PG_ID (Table 2-4). -/
def pgId (pg : Nat) : Word :=
  match pageType pg with
  | none => 0
  | some (t, i) => BitVec.ofNat 32 (t.code * 2 ^ 24 + ((pageTile pg).getD 0xFF) * 2 ^ 16 + i * 2 ^ 8 + 1)

end Sys2Proof
end

