-- ==== Sys2Proof/Machine/Descriptors.lean ====
section
/-!
DEFINITION. The descriptors of the commands (R41, R42): the common header of Table 2-17 and, for each opcode, the fields
of its descriptor table. A field is a number; its width is checked in WellFormed.lean.
-/

namespace Sys2Proof

/-- Common descriptor header (Table 2-17) less OPCODE and UNITS. `flags` are FLAGS[5:0]. -/
structure Hdr where
  context : Nat
  lc : Bool
  suppressOk : Bool
  flags : Nat
  domain : Nat
  tag : Word
  epoch : Word
  deriving DecidableEq, Repr

/-- Bit `i` of the opcode-specific flags. -/
def Hdr.flag (h : Hdr) (i : Nat) : Bool := bitOf h.flags i

/-- A command as it reaches the request engine: its source, its header and, over the Poris transport, the data that
follow the descriptor. -/
structure Req where
  src : Source
  hdr : Hdr
  data : List Byte
  deriving DecidableEq, Repr

/-- APPEND (Table 4-8). -/
structure AppendD where
  seq : Nat
  layerFirst : Nat
  layerCount : Nat
  infmt : Nat
  posFirst : Nat
  tokens : Nat
  rowAddr : Nat
  rowBytes : Nat
  deriving DecidableEq, Repr

/-- ATTN_FWD (Table 6-3) and ATTN_BWD (Table 8-1): `addr` and `bytes` are QUERY_ADDR and QUERY_BYTES, or INPUT_ADDR and
INPUT_BYTES; `partialAddr` is PARTIAL_ADDR; `gradHeadroom` is of ATTN_BWD only. `kvCount`, `positions` and `groupSize`
are KV_COUNT, P and G. -/
structure AttnD where
  seq : Nat
  layer : Nat
  kvFirst : Nat
  kvCount : Nat
  positions : Nat
  groupSize : Nat
  tokFirst : Nat
  tokEnd : Nat
  qpos : Nat
  qfmt : Nat
  mask : Nat
  qheadFirst : Nat
  ofmt : Nat
  addr : Nat
  bytes : Nat
  scale : Word
  softcap : Word
  proj : Nat
  maskA : Nat
  maskB : Nat
  mergeConn : Nat
  level : Nat
  targetLevel : Nat
  contrib : Nat
  expect : Nat
  partialAddr : Nat
  deadlineUs : Nat
  gradHeadroom : Nat
  originAddr : Nat
  originPort : Nat
  deriving DecidableEq, Repr

/-- GRAD_DRAIN (Table 8-5). -/
structure DrainD where
  seq : Nat
  layerFirst : Nat
  layerCount : Nat
  addr : Nat
  bytes : Nat
  deriving DecidableEq, Repr

/-- PAGE_READ (Table 10-4). -/
structure PageReadD where
  seq : Nat
  layer : Nat
  kvFirst : Nat
  kvCount : Nat
  tokFirst : Nat
  tokEnd : Nat
  addr : Nat
  bytes : Nat
  deriving DecidableEq, Repr

/-- FORK (Table 5-8). -/
structure ForkD where
  srcSeq : Nat
  dstSeq : Nat
  srcDomain : Nat
  policy : Nat
  posEnd : Nat
  baseVpn : Nat
  checkVpn : Nat
  checkGen : Nat
  ckptRegion : Nat
  deriving DecidableEq, Repr

/-- COMPACT (Table 9-2). -/
structure CompactD where
  seq : Nat
  layerFirst : Nat
  layerCount : Nat
  threshold : Nat
  sinkTokens : Nat
  recentTokens : Nat
  posFirst : Nat
  posEnd : Nat
  minDrop : Nat
  deriving DecidableEq, Repr

/-- PREFIX_LOOKUP and PREFIX_STEP (Table 5-6); `cursor` is of PREFIX_STEP only. -/
structure LookupD where
  keyLo : DWord
  keyHi : DWord
  shapeId : Nat
  cursor : Nat
  resultAddr : Nat
  deriving DecidableEq, Repr

/-- PREFIX_INSERT and PREFIX_REMOVE (Table 5-6). -/
structure PrefixD where
  keyLo : DWord
  keyHi : DWord
  seq : Nat
  vpn : Nat
  deriving DecidableEq, Repr

/-- RMA_READ, RMA_WRITE, RMA_ADD, RMA_CAS and RMA_FLUSH (Table 14-4). -/
structure RmaD where
  conn : Nat
  handle : Nat
  offset : Nat
  localAddr : Nat
  length : Nat
  operand : DWord
  compare : DWord
  deriving DecidableEq, Repr

/-- WAIT_COUNT (Table 14-10). -/
structure WaitCountD where
  watch : Nat
  skip : Nat
  target : Nat
  timeoutUs : Nat
  deriving DecidableEq, Repr

/-- WAIT_WORD (Table 14-10). -/
structure WaitWordD where
  handle : Nat
  cond : Nat
  skip : Nat
  offset : Nat
  timeoutUs : Nat
  mask : DWord
  value : DWord
  deriving DecidableEq, Repr

/-- REGION_REGISTER (Table 14-2). -/
structure RegisterD where
  kind : Nat
  rights : Nat
  peerIndex : Nat
  bindConn : Nat
  base : Nat
  length : Nat
  peerHandle : Nat
  notifyRing : Nat
  deriving DecidableEq, Repr

/-- REGION_REVOKE (Table 14-2). FLAGS[0] selects `peerIndex`. -/
structure RevokeD where
  peerIndex : Nat
  handle : Nat
  deriving DecidableEq, Repr

/-- SEQ_CREATE (Table 4-11). `layers` and `kvHeads` are counts. -/
structure SeqCreateD where
  seq : Nat
  shapeId : Nat
  layers : Nat
  kvHeads : Nat
  pmaxLog2 : Nat
  baseVpn : Nat
  posStart : Nat
  histN : Nat
  headroom : Nat
  policy : Nat
  ckptRegion : Nat
  deriving DecidableEq, Repr

/-- SEQ_MIGRATE (Table 4-11). -/
structure MigrateD where
  seq : Nat
  conn : Nat
  targetSlot : Nat
  deriving DecidableEq, Repr

/-- CKPT_EXPORT (Table 17-6). -/
structure ExportD where
  seq : Nat
  peerIndex : Nat
  storeOffset : Nat
  recipient : List Byte
  deriving DecidableEq, Repr

/-- CKPT_IMPORT (Table 17-9). -/
structure ImportD where
  dstSeq : Nat
  peerIndex : Nat
  nEnv : Nat
  manifestOffset : Nat
  baseVpn : Nat
  dataAddr : Nat
  deriving DecidableEq, Repr

/-- ABORT (Table 12-4). -/
structure AbortD where
  scope : Nat
  targetTag : Word
  targetContext : Nat
  targetDomain : Nat
  targetPartition : Nat
  deriving DecidableEq, Repr

/-- A command's opcode with its descriptor fields (R42). `bad` is a descriptor that fails the first admission check: an
unassigned opcode, UNITS that do not match it, or a reserved bit that is set (Table 2-19 step 1). -/
inductive Op where
  | append (d : AppendD)
  | sealOp (seq : Nat)
  | attnFwd (d : AttnD)
  | attnBwd (d : AttnD)
  | gradDrain (d : DrainD)
  | pageRead (d : PageReadD)
  | fork (d : ForkD)
  | compact (d : CompactD)
  | prefixLookup (d : LookupD)
  | prefixStep (d : LookupD)
  | prefixInsert (d : PrefixD)
  | prefixRemove (d : PrefixD)
  | rmaRead (d : RmaD)
  | rmaWrite (d : RmaD)
  | rmaAdd (d : RmaD)
  | rmaCas (d : RmaD)
  | rmaFlush (d : RmaD)
  | waitCount (d : WaitCountD)
  | waitWord (d : WaitWordD)
  | regionRegister (d : RegisterD)
  | regionRevoke (d : RevokeD)
  | seqCreate (d : SeqCreateD)
  | seqPark (seq : Nat)
  | seqResume (seq : Nat)
  | seqDestroy (seq : Nat)
  | seqMigrate (d : MigrateD)
  | ckptExport (d : ExportD)
  | ckptImport (d : ImportD)
  | abort (d : AbortD)
  | fence
  | nop
  | bad (opcode : Nat)
  deriving DecidableEq, Repr

/-- The opcode value (Table 2-18). -/
def Op.code : Op → Nat
  | .append _ => 0x01 | .sealOp _ => 0x02 | .attnFwd _ => 0x03 | .attnBwd _ => 0x04 | .gradDrain _ => 0x05
  | .pageRead _ => 0x06 | .fork _ => 0x07 | .compact _ => 0x08 | .prefixLookup _ => 0x09 | .prefixStep _ => 0x0A
  | .prefixInsert _ => 0x0B | .prefixRemove _ => 0x0C | .rmaRead _ => 0x10 | .rmaWrite _ => 0x11 | .rmaAdd _ => 0x12
  | .rmaCas _ => 0x13 | .rmaFlush _ => 0x14 | .waitCount _ => 0x15 | .waitWord _ => 0x16 | .regionRegister _ => 0x18
  | .regionRevoke _ => 0x19 | .seqCreate _ => 0x20 | .seqPark _ => 0x21 | .seqResume _ => 0x22 | .seqDestroy _ => 0x23
  | .seqMigrate _ => 0x24 | .ckptExport _ => 0x28 | .ckptImport _ => 0x29 | .abort _ => 0x30 | .fence => 0x31
  | .nop => 0x32 | .bad o => o

/-- The opcode-specific flag bits that the opcode's chapter defines; the others of FLAGS[5:0] are reserved. -/
def Op.flagMask : Op → Nat
  | .append _ => 0b1 | .attnFwd _ => 0b11111 | .attnBwd _ => 0b10111 | .gradDrain _ => 0b1 | .fork _ => 0b1
  | .compact _ => 0b1 | .prefixLookup _ => 0b1 | .waitCount _ => 0b11 | .regionRevoke _ => 0b1 | .seqResume _ => 0b1
  | .ckptExport _ => 0b1 | .ckptImport _ => 0b11
  | _ => 0

/-- The remote operations that the node serves as target, and the other opcodes allowed on an unbound connection
(R311: 0x10 to 0x19 and NOP). -/
def Op.unboundOk (o : Op) : Bool := (0x10 ≤ o.code && o.code ≤ 0x19) || o.code == 0x32

/-- The sequences, with their domains, that a command of domain `d` mutates (R90): a FORK counts for its source and its new
sequence. -/
def Op.mutates (d : Nat) : Op → List (Nat × Nat)
  | .append a => [(d, a.seq)] | .sealOp q => [(d, q)] | .compact a => [(d, a.seq)] | .seqPark q => [(d, q)]
  | .seqResume q => [(d, q)] | .seqDestroy q => [(d, q)] | .seqMigrate a => [(d, a.seq)] | .ckptExport a => [(d, a.seq)]
  | .fork a => [(d, a.dstSeq), (a.srcDomain, a.srcSeq)]
  | _ => []

/-- The sequences whose records a command of domain `d` needs (R252). DEDUCED: Log 65. -/
def Op.needs (d : Nat) : Op → List (Nat × Nat)
  | .append a => [(d, a.seq)] | .sealOp q => [(d, q)] | .compact a => [(d, a.seq)] | .seqPark q => [(d, q)]
  | .seqResume q => [(d, q)] | .seqMigrate a => [(d, a.seq)] | .ckptExport a => [(d, a.seq)] | .fork a => [(a.srcDomain, a.srcSeq)]
  | .attnFwd a => [(d, a.seq)] | .attnBwd a => [(d, a.seq)] | .pageRead a => [(d, a.seq)]
  | .prefixInsert a => [(d, a.seq)] | .prefixRemove a => [(d, a.seq)]
  | _ => []

/-! ### Statuses (Table 2-22) -/

def stOk : Nat := 0x00
def stOkClipped : Nat := 0x01
def stPartial : Nat := 0x02
def stOkFallback : Nat := 0x03
def stAborted : Nat := 0x10
def stTimeout : Nat := 0x11
def stRerunLimit : Nat := 0x12
def stAccess : Nat := 0x20
def stRegionRevoked : Nat := 0x21
def stAuthFailed : Nat := 0x22
def stNotBound : Nat := 0x23
def stStaleEpoch : Nat := 0x30
def stReroute : Nat := 0x31
def stFenced : Nat := 0x32
def stNoCapacity : Nat := 0x40
def stBusy : Nat := 0x41
def stPoisoned : Nat := 0x50
def stHwFault : Nat := 0x51
def stBadDescriptor : Nat := 0x60
def stUnsupported : Nat := 0x61
def stWaitOrder : Nat := 0x62
def stDeferred : Nat := 0x70

end Sys2Proof
end

