-- ==== Sys2Proof/Machine/TypesLink.lean ====
section
/-!
DEFINITION. State of the host link (19), of the rings (R466 to R470), of admitted commands (12), of connections (13), of
regions, waits and outbound operations (14).
-/

namespace Sys2Proof

/-! ### Host link (19) -/

/-- A transaction of the node towards the host (Table 19-3). -/
inductive HostTxn where
  | push (mapId off : Nat) (data : List Byte)
  | msg (vector : Nat)
  | cpl (tag : Nat) (ok : Bool) (data : List Byte)
  deriving DecidableEq, Repr

/-- What a sequenced flit carries (Table 19-2): a transaction, a session message, or the status of an image. -/
inductive FlitBody where
  | txn (t : HostTxn)
  | session (msg : Nat) (bytes : List Byte)
  | image (kind status : Nat)
  deriving DecidableEq, Repr

/-- Host session of a link (R381): none, an LS_HELLO that waits out a refusal, a challenge sent, or a session open. -/
inductive SessPhase where
  | none
  | waiting (nonceH : BitVec 256) (till : Nat)
  | challenged (nonceH nonceN : BitVec 256)
  | opened (id : Word)
  deriving DecidableEq, Repr

/-- LSTATE (Table 19-4). -/
inductive LState where | down | training | init | up
  deriving DecidableEq, Repr

/-- One Turura link. -/
structure LinkRec where
  ls : LState
  lanes : Nat
  rstreq : Bool
  rstAt : Nat              -- time RSTREQ_N was last asserted (R473)
  trainAt : Nat            -- time the present training began, or the time of the next attempt
  session : SessPhase
  refusedTill : Nat        -- LS_HELLOs are answered from this time on (R381)
  fseqTx : Nat             -- FSEQ of the next sequenced flit
  fseqRx : Nat             -- next FSEQ expected
  ackRx : Bool             -- a sequenced flit has been received (ACK_VALID)
  lastRx : Nat             -- time of the last flit received
  replay : List (Nat × FlitBody)
  failSeq : Nat            -- FSEQ of the last replay, and how many in a row
  failCnt : Nat
  stalled : List FlitBody  -- sequenced flits that wait for room in the replay buffer
  pCred : Nat
  waiting : List HostTxn   -- pushes and messages that wait for P units (R460)
  imgKind : Nat
  imgBytes : List Byte     -- image being received (Table 19-6)
  deriving DecidableEq, Repr

/-- A link after power-on. -/
def LinkRec.blank : LinkRec :=
  ⟨.down, 0, false, 0, 0, .none, 0, 0, 0, false, 0, [], 0, 0, [], 0, [], 0xFF, []⟩

/-! ### Rings (R466 to R470) -/

/-- Ring states (RSTAT.STATE); BLOCKED is read where a RUNNING ring is held (R505). -/
inductive RingState where | disabled | running | draining | lost
  deriving DecidableEq, Repr

structure Ring where
  st : RingState
  sqHead : Nat
  tail : Nat
  cqHead : Nat
  cqTail : Nat
  phase : Bool
  done : DWord
  fail : DWord
  inflight : Nat           -- fetched and not completed
  unsig : Nat              -- records written since the last MSG (R469)
  unsigAt : Nat            -- time of the first of them
  skip : Nat               -- descriptors to be fetched and completed with ST_ABORTED (R355)
  rrTurn : Nat             -- turn of its last fetch, for the round-robin (R468)
  blocked : Bool           -- held for a reason of R505
  rvec : Word              -- RVEC as it stood when the newest record was written (R466)
  deriving DecidableEq, Repr

def Ring.blank : Ring := ⟨.disabled, 0, 0, 0, 0, false, 0, 0, 0, 0, 0, 0, 0, false, 0⟩

/-! ### Admitted commands (12) -/

/-- A frame reserved (R101): its number, and its payload: a chunk of its channel, or, for a packed payload of `slot` bytes, the
256 B unit at which its Crumb slot begins (R82). -/
structure Got where
  vpn : Nat
  frame : Nat
  chunk : Nat
  slot : Nat
  deriving DecidableEq, Repr

/-- Space reserved for a command and not yet used: frames, and level tables by (domain, level, index). -/
structure Space where
  frames : List Got
  tables : List (Nat × Nat × Nat)
  deriving DecidableEq, Repr

def Space.none : Space := ⟨[], []⟩

/-- What an admitted command waits for. -/
inductive Wait where
  | none
  | turn                                   -- earlier mutating commands of its sequence (R90)
  | fills (pages : List (Nat × Nat)) (since : Nat)   -- demand fills of (domain, VPN) (R108, R287)
  | victim (tile : Nat) (since : Nat) (raised : Bool) (held : Space)   -- a victim line's write-back (R228), NOLINE raised or not
  | unit (page : Nat) (held : Space)       -- a unit that takes no work now (R29), or an append unit whose queue is full (R120)
  | slots                                  -- fragment slots (R296) or engines
  | frags                                  -- its fragments, or its tile partials
  | anchor                                 -- its anchored merge context
  | sent                                   -- the merge target's answer to its partial (R502)
  | batches (todo : List (Nat × Nat × Nat)) -- the batches of a COMPACT (R221): (layer, head group, ordinal) still to consider
  | remote                                 -- an outbound operation
  | count (target f0 : DWord) (till : Nat) -- WAIT_COUNT; till = 0 for no timeout
  | word (till : Nat) (met : Option DWord) -- WAIT_WORD; the value that has met its condition
  | fence (ids : List Nat)                 -- commands a FENCE waits for
  | drain                                  -- a region's drain count
  | migration
  | exporting
  | aborting (ids : List Nat) (deadline : Nat)   -- an ABORT's covered commands that hold units
  | dying (status : Nat)                   -- aborted; its units have not yet quiesced (R293)
  deriving DecidableEq, Repr

/-- The space that a waiting command holds. -/
def Wait.space : Wait → Space
  | .victim _ _ _ x => x
  | .unit _ x => x
  | _ => .none

/-- An admitted command. -/
structure Cmd where
  id : Nat
  src : Source
  hdr : Hdr
  op : Op
  data : List Byte
  admitted : Nat
  wait : Wait
  effected : Bool          -- a mutating command that has taken effect (R90)
  c0 : Nat
  c1 : Nat
  clip : Nat
  nextAt : List Nat        -- NEXT_POS of a COMPACT's sequence at its admission (R216)
  fallback : Bool          -- an ATTN_FWD answered as a PAGE_READ (R156)
  seeds : List Nat         -- SEED of each tile's append unit at the admission of an APPEND (R119)
  deriving DecidableEq, Repr

/-! ### Regions, waits, outbound operations (14) -/

/-- States of a region or a peer entry (Table 14-8). -/
inductive RegState where | free | active | revoking | revoked
  deriving DecidableEq, Repr

/-- A local region (R337). `chunks` are the LOCAL_RACK chunks as (channel, chunk), in order. -/
structure Region where
  st : RegState
  gen : Nat
  kind : Nat
  domain : Nat
  rights : Nat
  bindConn : Nat
  base : Nat
  length : Nat
  chunks : List (Nat × Nat)
  notify : Nat
  context : Nat
  drain : Nat
  drained : Nat            -- operations drained since the revoke
  refused : Nat            -- refusals while REVOKING
  deriving DecidableEq, Repr

/-- A peer entry of a domain (R339). -/
structure PeerEntry where
  st : RegState
  conn : Nat
  handle : Nat
  length : Nat
  rights : Nat
  drain : Nat
  drained : Nat
  refused : Nat
  deriving DecidableEq, Repr

/-- Refusals of one (region, status) within a notice interval (R349). -/
structure Notice where
  opcode : Nat
  conn : Nat
  count : Nat
  first : Nat              -- time of the first refusal counted
  till : Nat               -- end of the interval
  deriving DecidableEq, Repr

/-- Who started an outbound operation. -/
inductive Initiator where
  | cmd (id : Nat)         -- a command of a ring
  | fill (domain vpn : Nat)
  | job (id : Nat)         -- an export, overflow export or migration
  deriving DecidableEq, Repr

/-- An outbound remote operation (R341, R360). -/
structure Outbound where
  who : Initiator
  conn : Nat
  sent : Bool
  msgId : Nat
  slots : Nat              -- response slots it needs (R323)
  peer : Option (Nat × Nat)   -- peer entry (domain, index) it names
  body : List Byte         -- request message
  abandoned : Bool
  deriving DecidableEq, Repr

/-! ### Connections (13) -/

/-- A path (R330). -/
structure Path where
  port : Nat
  sub : Nat
  peerAddr : Nat
  udpPort : Nat
  up : Bool
  probes : Nat             -- probes unanswered
  probeAt : Nat
  deriving DecidableEq, Repr

/-- An end in the network: a sublink of the node, and the address and UDP source port of a peer (R330). -/
structure NetEnd where
  port : Nat
  sub : Nat
  addr : Nat
  udp : Nat
  deriving DecidableEq, Repr

/-- Lanes (Table 13-1). -/
inductive Lane where | request | response | control
  deriving DecidableEq, Repr

/-- A message of the node towards a peer (Table 13-8), with the bytes not yet acknowledged. -/
structure OutMsg where
  lane : Lane
  msgId : Nat
  epoch : Word
  bytes : List Byte
  next : Nat               -- offset of the next packet to send first
  acked : List Nat         -- offsets acknowledged
  heldTill : Nat           -- sending stopped by RECV_BUSY until then (R322)
  queuedAt : Nat
  deriving DecidableEq, Repr

/-- A DATA packet sent and not acknowledged (R328). -/
structure SentPkt where
  psn : Nat
  lane : Lane
  msgId : Nat
  offset : Nat
  len : Nat
  path : Nat
  sentAt : Nat
  retx : Bool
  higher : Nat             -- higher PSNs acknowledged since
  deriving DecidableEq, Repr

/-- A message being received (R321). -/
structure InMsg where
  lane : Lane
  msgId : Nat
  npkt : Nat
  epoch : Word
  bitmap : BitVec 256
  length : Option Nat
  chunks : List (Nat × List Byte)
  lastAt : Nat
  complete : Bool
  deriving DecidableEq, Repr

/-- A packet of control class that the node has sent: acknowledgements, refusals, probes, handshakes (Table 13-2). -/
inductive CtlPkt where
  | ack (base : Nat) (ranges : List (Nat × Nat)) (ce : Nat) (echo : Bool) (path : Nat)
  | recvBusy (msgId : Nat) (lane : Lane) (reason hint : Nat)
  | abandon (msgId : Nat) (lane : Lane) (reason : Nat)
  | probe (path : Nat)
  | probeReply (path via : Nat)    -- the path that the prober named, and the node's path on which the answer goes
  | reset (peer : NetEnd) (token : BitVec 128)
  | hsReply (peer : NetEnd) (npkt offset : Nat) (bytes : List Byte)
  | hsDone (peer : NetEnd) (bytes : List Byte)
  | hsReject (peer : NetEnd) (reason hint : Nat) (range : Option (Nat × Nat))   -- with the node's VER_MIN and VER_MAX
  deriving DecidableEq, Repr

/-- A half-open handshake (R309). -/
structure HalfOpen where
  key : Nat                -- number of the handshake
  conn : Nat               -- index reserved for it
  peerConn : Nat
  domain : Nat
  composition : Nat
  credType : Nat
  credId : Nat
  peer : NetEnd            -- where its HS_INIT came from
  th : BitVec 384          -- TH
  z : BitVec 384           -- Z (R308)
  bornAt : Nat
  deriving DecidableEq, Repr

/-- An open connection. -/
structure Conn where
  index : Nat
  gen : Nat
  peerConn : Nat
  domain : Nat
  composition : Nat        -- 0xFFFF for none
  credId : Nat
  secret : BitVec 384      -- PRK of the handshake (R308)
  genTx : Nat              -- key generations (R315)
  genRx : Nat
  prevRxTill : Nat         -- the previous receive generation is kept until then
  psnTx : Nat
  ctlTx : Nat
  nextMsg : List (Lane × Nat)     -- MSG_ID of the next message, by lane
  genMsg : List (Lane × Nat)      -- MSG_IDs used within the generation
  nextReq : Nat            -- N, the next request MSG_ID to be admitted (R324)
  skipped : List (Lane × Nat)     -- abandoned MSG_IDs not yet passed
  resend : List (Lane × Nat × Nat)  -- packets to be sent again: lane, MSG_ID, offset
  msgs : List OutMsg
  unacked : List SentPkt
  inMsgs : List InMsg
  rxBase : Nat             -- every DATA PSN below it has been received
  rxAbove : List Nat       -- PSNs received above it
  rxSince : Nat            -- DATA packets received since the last ACK
  rxOldest : Nat           -- time of the oldest of them
  ceSince : Nat
  rxPath : Nat             -- path of the newest DATA packet
  rate : Nat               -- RATE in units of 100 Mb/s (R329)
  srtt : Nat               -- in ticks of 10 ns; 0 before the first sample
  rttvar : Nat
  backoff : Nat            -- consecutive timeouts
  rateAt : Nat             -- start of the present SRTT interval
  rateCut : Bool           -- RATE has fallen in it
  paths : List Path
  closing : Bool
  ownClose : Bool          -- the node sent CLOSE
  closeAck : Option Nat    -- MSG_ID of the CLOSE_ACK sent
  closeTries : Nat
  cached : Bool
  fetching : Bool
  usedAt : Nat
  held : List Nat          -- message numbers held behind a FENCE or an ABORT entry (R289, R295)
  pacedAt : Nat            -- time of the next release
  deriving DecidableEq, Repr

/-- A DATA packet as it arrives (Table 13-1), with the key generation under which its GCM
tag verifies; none when it verifies under no key that the node holds (Table 13-7 step 3). -/
structure DataPkt where
  port : Nat
  sub : Nat
  vid : Option Nat         -- VID of its 802.1Q tag (R301)
  ipFrag : Bool            -- an IP fragment (R302)
  sumOk : Bool             -- its UDP checksum is right
  dstPort : Nat
  typ : Nat                -- TYPE
  rsvd : Bool              -- a reserved bit of the header is 1
  version : Nat
  lane : Nat
  retx : Bool
  phase : Nat
  last : Bool
  first : Bool
  gen : Nat
  index : Nat
  path : Nat
  psn : Nat
  msgId : Nat
  npkt : Nat
  offset : Nat
  epoch : Word
  payload : List Byte
  lowPsn : Nat
  keyGen : Option Nat
  ce : Bool
  peerAddr : Nat
  udpPort : Nat
  deriving DecidableEq, Repr

end Sys2Proof
end

