-- ==== Sys2Proof/Machine/Groups.lean ====
section
/-!
DEFINITION. The groups of the machine's state: register file, host links and rings, admitted commands and contexts,
transport and remote operations.
-/

namespace Sys2Proof

/-- The registers. A register that the map does not list holds its reset value (`regReset`). `idx` of a key is the value
of the page's select register for a register that a select register addresses, and 0 otherwise. -/
structure RegFile where
  vals : AL (Nat × Nat × Nat) Word          -- (page, offset, idx)
  shadow : AL (Nat × Nat × Nat) Word        -- pending RW-S values (R33)
  held : AL (Agent × Nat) Word              -- _LO writes held (R6), by address
  latched : AL (Agent × Nat) Word           -- _HI halves latched (R5), by address
  fenced : List Nat                         -- pages of fenced blocks
  failed : List Nat                         -- fenced blocks that failed their self-check (R30)
  coreMsgs : List (Nat × Nat)               -- interrupts sent to firmware cores: (core, page) (R37)
  deriving DecidableEq, Repr

def RegFile.blank : RegFile := ⟨[], [], [], [], [], [], []⟩

/-- The host's side of the node. -/
structure HostState where
  a : LinkRec
  b : LinkRec
  active : Option Link                      -- the link that carries pushes and messages (R471)
  activeWant : Option Link                  -- a role move that waits for acknowledgements (R471)
  rings : AL Nat Ring
  turn : Nat                                -- turns of the round-robin (R468)
  deriving DecidableEq, Repr

def HostState.blank : HostState := ⟨.blank, .blank, none, none, [], 0⟩

/-- A context entry (Table 12-1) and its save area and finish tags. -/
structure Ctx where
  domain : Nat
  partition : Nat
  lcEn : Bool
  weight : Nat
  fragMax : Nat
  gradPages : Nat
  deriving DecidableEq, Repr

/-- A hold on admission by an ABORT of DOMAIN, PARTITION or NODE scope (R292). -/
structure Hold where
  cmd : Nat
  scope : Nat
  target : Nat
  till : Nat
  deriving DecidableEq, Repr

structure CmdState where
  nextId : Nat
  list : List Cmd                           -- admitted commands, in admission order
  ctxs : AL Nat Ctx                         -- VALID context entries
  holds : List Hold
  deriving DecidableEq, Repr

def CmdState.blank : CmdState := ⟨1, [], [], []⟩

/-- Transport and remote operations. -/
structure NetState where
  conns : AL Nat Conn
  gens : AL Nat Nat                         -- generation of each index once freed (R312)
  half : List HalfOpen
  nextHs : Nat
  ctl : List (Nat × CtlPkt)                 -- control-class packets sent: (connection or handshake, packet)
  lost : List Nat                           -- connection IDs whose state was lost (R318)
  parked : List DataPkt                     -- packets that wait for a connection's state (R317)
  respReserved : Nat                        -- response slots reserved for outbound requests (R323)
  regions : AL Nat Region                   -- local regions by index
  peers : AL (Nat × Nat) PeerEntry          -- peer entries by (domain, index)
  notices : AL (Nat × Nat) Notice           -- refusals counted, by (handle, status)
  outbound : List Outbound
  deriving DecidableEq, Repr

def NetState.blank : NetState := ⟨[], [], [], 1, [], [], [], 0, [], [], [], []⟩

end Sys2Proof
end

