-- ==== Sys2Proof/Config.lean ====
section
/-!
DEFINITION. What the spec leaves to the device: free values. Each constant here is opaque, so that nothing can be proved
of its value; log entries name them. A fresh free value is the constant applied to the counter `State.fresh`.
-/

namespace Sys2Proof

/-- exp2 of an FP32 argument (R146: a fixed function of the node's own). DESIGN CHOICE: Log 4. `f32Exp2` holds it to the bound that R146
states. -/
opaque Config.exp2 : Word → Word
/-- tanh of an FP32 argument (R146). DESIGN CHOICE: Log 4. `f32Tanh` holds it to the bound that R146 states. -/
opaque Config.tanh : Word → Word
/-- A 32-bit value drawn from the TRNG (R376, R381, R65). DESIGN CHOICE: Log 5. -/
opaque Config.random : Nat → Word
/-- A 256-bit key or nonce drawn from the TRNG (R376). DESIGN CHOICE: Log 5. -/
opaque Config.randomKey : Nat → BitVec 256
/-- The identity hash of the node (R378, Table 1-13 "Fixed"). DESIGN CHOICE: Log 6. -/
opaque Config.deviceId : BitVec 384
/-- The MAC address of a port's sublink 0 (Table 13-9 "Fixed"). DESIGN CHOICE: Log 6. -/
opaque Config.macAddr : Nat → BitVec 48
/-- SHA-384 of a byte string (R377, R401), a hash whose value the model does not compute. DESIGN CHOICE: Log 6. -/
opaque Config.sha384 : List Byte → BitVec 384
/-- HMAC-SHA-384, HKDF-Extract and HKDF-Expand to at most 48 bytes (R307, R308), not computed. DESIGN CHOICE: Log 6. -/
opaque Config.hmac : List Byte → List Byte → BitVec 384
opaque Config.hkdfExtract : List Byte → List Byte → BitVec 384
opaque Config.hkdfExpand : BitVec 384 → List Byte → Nat → BitVec 384
/-- The public point X ‖ Y of an ephemeral P-384 key, and the shared secret of the key and a peer's point (R308). DESIGN CHOICE: Log 6. -/
opaque Config.ecPoint : BitVec 256 → BitVec 768
opaque Config.ecdh : BitVec 256 → List Byte → BitVec 384
/-- Byte `i` of what AES-256-GCM makes of a payload under a key and nonce, the header being authenticated; the tag is its last 16 bytes
(R304). DESIGN CHOICE: Log 6. -/
opaque Config.gcmByte : BitVec 256 → BitVec 96 → List Byte → List Byte → Nat → Byte
/-- The measurement of image kind `k`: 0 ROM, 1 SEC, 2 PMC, 3 SCH, 4 CCC, 5 CONFIG (Table 16-2). DESIGN CHOICE: Log 6. -/
opaque Config.measurement : Nat → Nat → BitVec 384
/-- A signature made by the alias key over a byte string (R379, R452). DESIGN CHOICE: Log 6. -/
opaque Config.signature : Nat → List Byte → BitVec 768
/-- The DXK public key (Table 16-3). DESIGN CHOICE: Log 6. -/
opaque Config.dxkPub : List Byte
/-- The certificate chain (R378), at most 8,192 B. DESIGN CHOICE: Log 6. -/
opaque Config.certChain : Nat → List Byte
/-- A retry hint or time estimate the spec bounds but does not fix (R297, R322). DESIGN CHOICE: Log 7. -/
opaque Config.hintUs : Nat → Nat
/-- The number the node chooses for a thing whose choice the spec leaves to it. DESIGN CHOICE: Log 7. -/
opaque Config.pick : Nat → Nat
/-- A count or a wait that the timing of a unit fixes and the spec does not state: cycles of a MAC array that waits, burst boundaries that
yield, a wait of a host access. DESIGN CHOICE: Log 76. -/
opaque Config.waited : Nat → Nat
/-- A rounding choice of a stochastic rounding step (R65): the uniform 16-bit value. DESIGN CHOICE: Log 5. -/
opaque Config.rand16 : Nat → BitVec 16
/-- An FP32 result that IEEE 754 leaves to the implementer: the payload of a NaN result. DESIGN CHOICE: Log 8. -/
opaque Config.nanBits : Nat → Word
/-- The finite magnitude written where the rounded result is above every finite number and R49 bars an infinity: a scale (R56, R63), an
error figure (R73), an AMAX, an element of o. DESIGN CHOICE: Log 9. -/
opaque Config.bigValue : Word → Nat
/-- What a core logs where the spec leaves it to the firmware: the point that it passes, the event, the arguments and the level of an entry
(R440, R441). DESIGN CHOICE: Log 58. -/
opaque Config.logWord : Nat → Nat → Nat
/-- The finite E4M3 code, and the E8M0 code below 0xFF, that a NaN code counts as where the node encodes it again (R48, R49). DESIGN
CHOICE: Log 9. -/
opaque Config.nanCode : Nat → Nat
/-- SEXP of a Crumb block whose step exponent is below −127 or above 128, or whose residuals are all 0 (R70, R72). DESIGN
CHOICE: Log 9. -/
opaque Config.lowStep : Int → BitVec 8

/-- A byte of free Rack memory as a domain's key left it (R385): by how often the chunk was returned, and its address. DESIGN CHOICE: Log 6. -/
opaque Config.formerByte : Nat → Nat → Byte

/-- Byte `i` of what AES-256-GCM makes of a body, as object `index` of a checkpoint set, tag included (R421); of a KEY object, byte `i`
of the envelope (R396). DESIGN CHOICE: Log 6. -/
opaque Config.cipherByte : Nat → Nat → List Byte → Nat → Byte
/-- The DRAM row of a codeword of a channel, which R252 counts by and the spec does not place. DESIGN CHOICE: Log 10. -/
opaque Config.dramRow : Nat → Nat → Nat
/-- Errors that a CCC counts as handled, by quadrant and time; the spec does not say which count (Table 18-19). DESIGN CHOICE: Log 70. -/
opaque Config.handledErrors : Nat → Nat → Word

end Sys2Proof
end

