-- ==== Sys2Proof/Machine/Float.lean ====
section
/-!
DEFINITION. Exact binary arithmetic: dyadic numbers, the element encodings of Table 3-2 (R48), their rounding (R49,
R56, R65) and FP32 arithmetic as IEEE 754 gives it (R48, R147).
-/

namespace Sys2Proof

/-- A dyadic number m · 2^e. -/
structure Dy where
  m : Int
  e : Int
  deriving DecidableEq, Repr

def Dy.zero : Dy := ⟨0, 0⟩
def Dy.ofInt (i : Int) : Dy := ⟨i, 0⟩
/-- 2^k. -/
def Dy.pow2 (k : Int) : Dy := ⟨1, k⟩
/-- The mantissa of `a` at exponent `e`, which is at most `a.e`. -/
def Dy.at (a : Dy) (e : Int) : Int := a.m * 2 ^ (a.e - e).toNat
def Dy.add (a b : Dy) : Dy := let e := min a.e b.e; ⟨a.at e + b.at e, e⟩
def Dy.neg (a : Dy) : Dy := ⟨-a.m, a.e⟩
def Dy.sub (a b : Dy) : Dy := a.add b.neg
def Dy.mul (a b : Dy) : Dy := ⟨a.m * b.m, a.e + b.e⟩
def Dy.abs (a : Dy) : Dy := ⟨a.m.natAbs, a.e⟩
def Dy.lt (a b : Dy) : Bool := let e := min a.e b.e; decide (a.at e < b.at e)
def Dy.le (a b : Dy) : Bool := !b.lt a
def Dy.eq (a b : Dy) : Bool := a.le b && b.le a
def Dy.max (a b : Dy) : Dy := if a.lt b then b else a
def Dy.isZero (a : Dy) : Bool := a.m == 0
/-- Multiplied by 2^k. -/
def Dy.scale (a : Dy) (k : Int) : Dy := ⟨a.m, a.e + k⟩
def Dy.sum (l : List Dy) : Dy := l.foldl Dy.add Dy.zero
def Dy.maxAbs (l : List Dy) : Dy := l.foldl (fun a b => Dy.max a b.abs) Dy.zero

/-- floor(log2 |a|) of a number that is not 0. -/
def Dy.ilog2 (a : Dy) : Int := (Nat.log2 a.m.natAbs : Int) + a.e

/-- The smallest integer k with a ≤ q · 2^k, for a > 0 and an integer q > 0 (R53, R71, R72). -/
def Dy.ceilLog2Div (a : Dy) (q : Nat) : Int :=
  let k := a.ilog2 - (Nat.log2 q : Int) - 1
  if a.le ⟨q, k⟩ then k else if a.le ⟨q, k + 1⟩ then k + 1 else k + 2

/-- Rounding direction. -/
inductive Rnd where | nearest | up
  deriving DecidableEq, Repr

/-- A binary format: exponent bits are implied by `top`, `mbits` fraction bits, `emin` the exponent of the least
subnormal, `top` the exponent-and-fraction field of the largest finite value (Table 3-2). -/
structure Fmt where
  mbits : Nat
  emin : Int
  top : Nat
  deriving DecidableEq, Repr

def Fmt.fp32 : Fmt := ⟨23, -149, 0x7F7FFFFF⟩
def Fmt.fp16 : Fmt := ⟨10, -24, 0x7BFF⟩
def Fmt.bf16 : Fmt := ⟨7, -133, 0x7F7F⟩
def Fmt.e4m3 : Fmt := ⟨3, -9, 0x7E⟩
def Fmt.e5m2 : Fmt := ⟨2, -16, 0x7B⟩
def Fmt.e2m1 : Fmt := ⟨1, -1, 0x7⟩

/-- The magnitude of an exponent-and-fraction field. -/
def Fmt.mag (f : Fmt) (x : Nat) : Dy :=
  let ex := x / 2 ^ f.mbits
  let fr := x % 2 ^ f.mbits
  if ex = 0 then ⟨fr, f.emin⟩ else ⟨2 ^ f.mbits + fr, f.emin + ex - 1⟩

/-- Exponent-and-fraction field of the magnitude n · 2^e, rounded; `sticky` says that the true magnitude is above
n · 2^e by less than 2^e. `away` rounds every inexact magnitude upwards, `toward` downwards. -/
def Fmt.roundMag (f : Fmt) (away toward : Bool) (n : Nat) (e : Int) (sticky : Bool) : Nat :=
  if n = 0 then (if sticky && away then 1 else 0) else
  let q := max f.emin (e + Nat.log2 n - f.mbits)
  let base := ((q - f.emin).toNat) * 2 ^ f.mbits
  if q ≤ e then
    let v := n * 2 ^ (e - q).toNat
    base + v + (if sticky && away then 1 else 0)
  else
    let sh := (q - e).toNat
    let v := n / 2 ^ sh
    let r := n % 2 ^ sh
    let half := 2 ^ (sh - 1)
    let up :=
      if away then decide (r ≠ 0) || sticky
      else if toward then false
      else decide (half < r) || (r == half && (sticky || v % 2 == 1))
    base + v + b2n up

/-- Rounds a dyadic number. Answers the sign and the exponent-and-fraction field, not limited to the largest finite. -/
def Fmt.round (f : Fmt) (r : Rnd) (a : Dy) : Bool × Nat :=
  let neg := decide (a.m < 0)
  (neg, f.roundMag (r == .up && !neg) (r == .up && neg) a.m.natAbs a.e false)

/-- Rounds the quotient a / b, b ≠ 0. -/
def Fmt.roundDiv (f : Fmt) (r : Rnd) (a b : Dy) : Bool × Nat :=
  let neg := decide ((a.m < 0) ≠ (b.m < 0))
  let k := f.mbits + 4 + Nat.log2 b.m.natAbs
  let num := a.m.natAbs * 2 ^ k
  let q := num / b.m.natAbs
  let s := decide (num % b.m.natAbs ≠ 0)
  (neg, f.roundMag (r == .up && !neg) (r == .up && neg) q (a.e - b.e - k) s)

/-! ### FP32 -/

def f32Inf : Word := 0x7F800000
def f32NegInf : Word := 0xFF800000
def f32One : Word := 0x3F800000
/-- A NaN result; its sign and payload are free (Log 8). -/
def f32NaN (seed : Nat) : Word := 0x7FC00000 ||| (Config.nanBits seed &&& 0x803FFFFF)

def f32IsNaN (w : Word) : Bool := 0x7F800000 < w.toNat % 2 ^ 31
def f32IsInf (w : Word) : Bool := w.toNat % 2 ^ 31 == 0x7F800000
def f32Finite (w : Word) : Bool := w.toNat % 2 ^ 31 < 0x7F800000
def f32Neg (w : Word) : Bool := 2 ^ 31 ≤ w.toNat

/-- The value of a finite FP32 number. -/
def f32Dy (w : Word) : Dy :=
  let d := Fmt.fp32.mag (w.toNat % 2 ^ 31)
  if f32Neg w then d.neg else d

/-- An FP32 number of a sign and an exponent-and-fraction field; beyond the largest finite it is an infinity. -/
def f32Pack (p : Bool × Nat) : Word :=
  BitVec.ofNat 32 (b2n p.1 * 2 ^ 31 + min p.2 0x7F800000)

/-- A dyadic number rounded to FP32; an exact 0 is +0. -/
def f32Of (r : Rnd) (a : Dy) : Word := f32Pack (Fmt.fp32.round r a)

def f32Negate (w : Word) : Word := w ^^^ 0x80000000

def f32Mul (r : Rnd) (a b : Word) : Word :=
  if f32IsNaN a || f32IsNaN b then f32NaN 0
  else
    let neg := f32Neg a != f32Neg b
    if f32IsInf a || f32IsInf b then
      if (f32Finite a && (f32Dy a).isZero) || (f32Finite b && (f32Dy b).isZero) then f32NaN 1
      else if neg then f32NegInf else f32Inf
    else
      let p := Fmt.fp32.round r ((f32Dy a).mul (f32Dy b))
      f32Pack (neg, p.2)

def f32Add (a b : Word) : Word :=
  if f32IsNaN a || f32IsNaN b then f32NaN 2
  else if f32IsInf a then (if f32IsInf b && f32Neg a != f32Neg b then f32NaN 3 else a)
  else if f32IsInf b then b
  else
    let d := (f32Dy a).add (f32Dy b)
    if d.isZero then (if f32Neg a && f32Neg b then 0x80000000 else 0) else f32Of .nearest d

def f32Sub (a b : Word) : Word := f32Add a (f32Negate b)

def f32Div (r : Rnd) (a b : Word) : Word :=
  if f32IsNaN a || f32IsNaN b then f32NaN 4
  else
    let neg := f32Neg a != f32Neg b
    if f32IsInf a then (if f32IsInf b then f32NaN 5 else if neg then f32NegInf else f32Inf)
    else if f32IsInf b then (if neg then 0x80000000 else 0)
    else if (f32Dy b).isZero then
      (if (f32Dy a).isZero then f32NaN 6 else if neg then f32NegInf else f32Inf)
    else f32Pack (neg, (Fmt.fp32.roundDiv r (f32Dy a) (f32Dy b)).2)

/-- A number that the node writes: R49 bars an infinity and a NaN, in whose place a finite number is written. DESIGN CHOICE:
Log 9. -/
def f32Written (w : Word) : Word :=
  if f32Finite w then w else BitVec.ofNat 32 (b2n (f32Neg w) * 2 ^ 31 + 1 + Config.bigValue w % 0x7F7FFFFF)

/-- a < b. False when either is a NaN. -/
def f32Lt (a b : Word) : Bool :=
  if f32IsNaN a || f32IsNaN b then false
  else if f32IsInf a then f32Neg a && !(f32IsInf b && f32Neg b)
  else if f32IsInf b then !f32Neg b
  else (f32Dy a).lt (f32Dy b)

/-- The larger of two numbers; the first when they are equal. -/
def f32Max (a b : Word) : Word := if f32Lt a b then b else a

/-- |w|. -/
def f32Abs (w : Word) : Word := w &&& 0x7FFFFFFF

/-- FP32 of a BF16 or FP16 element, exact (R50). Infinities and NaNs keep their kind. -/
def f32OfBF16 (x : Nat) : Word := BitVec.ofNat 32 (x % 65536 * 65536)
def f32OfFP16 (x : Nat) : Word :=
  let ef := x % 2 ^ 15
  if ef < 0x7C00 then f32Pack (bitOf x 15, (Fmt.fp32.round .nearest (Fmt.fp16.mag ef)).2)
  else BitVec.ofNat 32 (b2n (bitOf x 15) * 2 ^ 31 + 0x7F800000 + ef % 2 ^ 10 * 2 ^ 13)

/-- BF16 rounded from FP32 (R66). -/
def bf16OfF32 (w : Word) : Nat :=
  if f32Finite w then b2n (f32Neg w) * 2 ^ 15 + min (Fmt.bf16.round .nearest (f32Dy w)).2 0x7F80
  else w.toNat / 65536

/-- BF16 of a number that the node writes: never an infinity or a NaN (R49). DESIGN CHOICE: Log 9. -/
def bf16Written (w : Word) : Nat :=
  let x := bf16OfF32 w
  if x % 2 ^ 15 < 0x7F80 then x else b2n (f32Neg w) * 2 ^ 15 + 1 + Config.bigValue w % 0x7F7F

/-! ### exp2 and tanh (R146) -/

/-- 2^48 · 2^(f / 2^48) for f < 2^48, by its power series; the error is below 2^-40 of it. -/
def exp2Frac (f : Nat) : Nat :=
  let y := f * 195103586505167 / 2 ^ 48
  ((List.range 20).foldl (fun (a : Nat × Nat) k => let t := a.2 * y / ((k + 1) * 2 ^ 48); (a.1 + t, t)) (2 ^ 48, 2 ^ 48)).1

/-- 2^x for a dyadic x, to within 2^-40 of it. -/
def Dy.exp2 (x : Dy) : Dy :=
  let n : Int := if x.e + 48 < 0 then x.m / (2 ^ (-(x.e + 48)).toNat : Nat) else x.m * 2 ^ (x.e + 48).toNat
  ⟨exp2Frac (n % 2 ^ 48).toNat, n / 2 ^ 48 - 48⟩

/-- tanh of |x| for a dyadic x, to within 2^-30 of it. -/
def Dy.tanhAbs (x : Dy) : Dy :=
  let a := x.abs
  if a.lt (Dy.pow2 (-12)) then
    let n := a.mul ((Dy.ofInt 3).sub (a.mul a))
    ⟨n.m * 2 ^ 40 / 3, n.e - 40⟩
  else if (Dy.pow2 4).le a then Dy.pow2 0
  else
    let y := (Dy.exp2 (a.mul ⟨2 * 406082553034799, -48⟩))
    let e := y.at (min y.e (-60))
    let one : Int := 2 ^ (-(min y.e (-60))).toNat
    ⟨(e - one) * 2 ^ 60 / (e + one), -60⟩

/-- Whether a number is within the relative error of 2^-20 of one that is itself good to 2^-30. -/
def Dy.near (x a : Dy) : Bool := ((x.sub a).abs).le ((a.abs.scale (-20)).add (a.abs.scale (-30)))

/-- A fixed function of the node's own where it keeps the bound of R146, and the nearest number where it does not. -/
def held (w : Word) (a : Dy) : Word := if f32Finite w && (f32Dy w).near a then w else f32Of .nearest a

/-- exp2 (R146): exp2 of −∞ is 0. The bound of 2^-20 holds where the result is a normal number. exp2 of 0 is 1, without which a row
with one visible slot would not have l ≥ 1 (R160). DESIGN CHOICE: Log 4. -/
def f32Exp2 (w : Word) : Word :=
  if w = f32NegInf then 0
  else if f32Abs w = 0 then 0x3F800000
  else if f32Finite w && (Dy.ofInt (-126)).le (f32Dy w) && (f32Dy w).lt (Dy.ofInt 128) then held (Config.exp2 w) (f32Dy w).exp2
  else Config.exp2 w

/-- tanh (R146). The bound of 2^-20 holds where the result is a normal number. DESIGN CHOICE: Log 4. -/
def f32Tanh (w : Word) : Word :=
  if f32Finite w && (Dy.pow2 (-126)).le (f32Dy w).abs then
    held (Config.tanh w) (if f32Neg w then (f32Dy w).tanhAbs.neg else (f32Dy w).tanhAbs)
  else Config.tanh w

/-! ### Narrow elements -/

/-- The value of a one-byte or half-byte element: E4M3, E5M2, E2M1. -/
def Fmt.elemDy (f : Fmt) (signBit : Nat) (x : Nat) : Dy :=
  let d := f.mag (x % 2 ^ signBit)
  if bitOf x signBit then d.neg else d

/-- S.1111.111 of E4M3 (Table 3-2). -/
def e4m3IsNaN (x : Nat) : Bool := x % 128 == 127
/-- The value of an E4M3 code. The node writes no NaN (R49): where a NaN code is encoded again it counts as a free code. DESIGN CHOICE:
Log 9. -/
def e4m3Dy (x : Nat) : Dy := Fmt.e4m3.elemDy 7 (if e4m3IsNaN x then Config.nanCode x % 127 else x)
def e5m2Dy (x : Nat) : Dy := Fmt.e5m2.elemDy 7 x
/-- An E5M2 code as FP32: its infinities and NaNs are IEEE's (Table 3-2). -/
def f32OfE5M2 (x : Nat) : Word :=
  if x % 128 < 0x7C then f32Of .nearest (e5m2Dy x)
  else if x % 4 = 0 then (if bitOf x 7 then f32NegInf else f32Inf) else f32NaN 8
def e2m1Dy (x : Nat) : Dy := Fmt.e2m1.elemDy 3 x

/-- INT4 in two's complement; 0b1000 reads as −7 (R49). -/
def int4Val (x : Nat) : Int :=
  let v := x % 16
  if v = 8 then -7 else if v < 8 then v else (v : Int) - 16

/-- 0xFF of E8M0 (Table 3-2). -/
def e8m0IsNaN (x : Nat) : Bool := x == 255
/-- E8M0 as a power of two. The node writes no 0xFF (R49): where it is encoded again it counts as a free code. DESIGN CHOICE: Log 9. -/
def e8m0Exp (x : Nat) : Int := ((if e8m0IsNaN x then Config.nanCode x % 255 else x : Nat) : Int) - 127

/-- Element of format `f` for the quotient x / 2^k, nearest even, limited to the largest finite. The sign of `x` is
kept by an underflow (R49). -/
def Fmt.elemShift (f : Fmt) (signBit : Nat) (neg : Bool) (x : Dy) (k : Int) : Nat :=
  b2n neg * 2 ^ signBit + min (f.round .nearest (x.abs.scale (-k))).2 f.top

/-- Element of format `f` for the quotient x / s of two FP32 numbers (R57: one rounding, nearest even). -/
def Fmt.elemDiv (f : Fmt) (signBit : Nat) (x s : Word) : Nat :=
  b2n (f32Neg x) * 2 ^ signBit + min (f.roundDiv .nearest (f32Dy x).abs (f32Dy s)).2 f.top

/-- The integer nearest to a / b, ties to even, for b > 0. -/
def roundIntDiv (a b : Dy) : Int :=
  let e := min a.e b.e
  let n := a.at e
  let d := b.at e
  if d ≤ 0 then 0 else
  let q := n.natAbs / d.natAbs
  let r := n.natAbs % d.natAbs
  let v := if d.natAbs < 2 * r ∨ (2 * r = d.natAbs ∧ q % 2 = 1) then q + 1 else q
  if n < 0 then -v else v

/-- |x| > q · s (R57, R64: the element is clipped). -/
def exceeds (x s : Word) (q : Nat) : Bool := (Dy.mul ⟨q, 0⟩ (f32Dy s)).lt (f32Dy x).abs

/-- floor(65,536 · a / b) of two dyadic numbers, 0 for b = 0. -/
def floor16 (a b : Dy) : Nat :=
  let e := min a.e b.e
  if b.at e = 0 then 0 else (a.at e * 65536 / b.at e).toNat

/-- Stochastic rounding of v / s to E5M2 (R65): between adjacent representable values a < b, b is taken when
u < floor((v − a) / (b − a) · 65,536), and a otherwise. Saturation comes first. -/
def e5m2Stochastic (v s : Word) (u : Nat) : Nat :=
  let x := (f32Dy v).abs
  let d := f32Dy s
  let lo := min (Fmt.e5m2.top) (Fmt.e5m2.roundMag false true
    (x.m.natAbs * 2 ^ (64 + Nat.log2 d.m.natAbs) / d.m.natAbs) (x.e - d.e - (64 + Nat.log2 d.m.natAbs : Nat)) false)
  let a := (Fmt.e5m2.mag lo).mul d
  let gap := ((Fmt.e5m2.mag (lo + 1)).mul d).sub a
  let fr := x.sub a
  let up := if f32Neg v then decide (floor16 (gap.sub fr) gap ≤ u) else decide (u < floor16 fr gap)
  let z := if lo = Fmt.e5m2.top || fr.isZero then lo else if up then lo + 1 else lo
  b2n (f32Neg v) * 128 + z

end Sys2Proof
end

