-- ==== Sys2Proof/Machine/Formats.lean ====
section
/-!
DEFINITION. Page shapes (R80, R81), the places of elements and scale units in a page (R83, R86), and the arithmetic that
writes appended rows: microscaling (R52, R53) and history scaling (R55 to R61).
-/

namespace Sys2Proof

/-- A decoded page-shape descriptor (Table 4-1). `tok` is TOKENS, `heads` is H, `width` and `posw` are in units of 32. -/
structure Shape where
  fmt : Nat
  crumb : Nat
  latent : Bool
  tok : Nat
  heads : Nat
  width : Nat
  posw : Nat
  deriving DecidableEq, Repr

def shapeValid (d : DWord) : Bool := bitOf d.toNat 63

def Shape.ofWord (d : DWord) : Shape :=
  let n := d.toNat
  ⟨bitsOf n 56 4, bitsOf n 54 2, bitOf n 53, bitsOf n 50 3, bitsOf n 48 2 + 1, bitsOf n 40 8, bitsOf n 37 3⟩

/-- Tokens per page, T. -/
def Shape.T (s : Shape) : Nat := 64 * 2 ^ s.tok
/-- Parts, Q: keys and values, or one latent part. -/
def Shape.Q (s : Shape) : Nat := if s.latent then 1 else 2
/-- Elements of one row, W. -/
def Shape.W (s : Shape) : Nat := (s.width + s.posw) * 32
/-- Elements of a page, N. -/
def Shape.N (s : Shape) : Nat := s.T * s.heads * s.Q * s.W
/-- 32-dimension groups of a part, G. -/
def Shape.G (s : Shape) : Nat := s.width + s.posw
/-- The MX formats: MXFP8 and MXFP4. -/
def Shape.isMx (s : Shape) : Bool := s.fmt < 2
/-- Half-byte elements: MXFP4 and HS4. -/
def Shape.half (s : Shape) : Bool := s.fmt == 1 || s.fmt == 3
/-- Scale groups of a part, G′ (R86). -/
def Shape.Gp (s : Shape) : Nat := if s.fmt = 3 then s.G else 1
/-- Slices of a page, U (R86). -/
def Shape.U (s : Shape) : Nat := s.T / 64 + 1
/-- qmax of the format: 448, 6, 448 or 7 (R53, R56). -/
def Shape.qmax (s : Shape) : Nat := match s.fmt with | 1 => 6 | 3 => 7 | _ => 448
/-- Crumb rate in bits: 3 or 4. -/
def Shape.rate (s : Shape) : Nat := s.crumb + 2
/-- Bytes of an unpacked payload. -/
def Shape.payloadBytes (s : Shape) : Nat := if s.half then s.N / 2 else s.N
/-- Bytes of a Crumb block stream, and P, the bytes of a Crumb slot (R68). -/
def Shape.streamBytes (s : Shape) : Nat := s.N * s.rate / 8
def Shape.slotBytes (s : Shape) : Nat := ceilDiv s.streamBytes 256 * 256

/-- The rules of R81 on the descriptor alone; a POSW above the range of Table 4-1 is refused too. DESIGN CHOICE: Log 74. -/
def shapeOk (d : DWord) : Bool :=
  let s := Shape.ofWord d
  let n := d.toNat
  decide (s.fmt ≤ 3) && decide (s.crumb ≤ 2) && decide (s.tok ≤ 4) && bitsOf n 60 3 == 0 && bitsOf n 0 37 == 0 &&
  (if s.latent then decide (8 ≤ s.width ∧ s.width ≤ 32) && s.heads == 1 else decide (2 ≤ s.width ∧ s.width ≤ 8) && s.posw == 0) &&
  decide (s.posw ≤ 4) && (s.crumb == 0 || s.fmt == 0 || s.fmt == 2) && decide (s.N ≤ 65536)

/-- Element offset of head `h`, part `q`, slot `t`, dimension `d` (R83). -/
def Shape.elem (s : Shape) (h q t d : Nat) : Nat := ((h * s.Q + q) * s.T + t) * s.W + d

/-- Index of the scale unit of head `h`, part `q`, group `g`, slice `u` of the page (R86). -/
def Shape.unit (s : Shape) (h q g u : Nat) : Nat := ((h * s.Q + q) * s.Gp + g) * s.U + u

/-- Slice `u` of the page to which slot `t` belongs, for a page whose slot 0 holds position `first` (R86). -/
def sliceOf (first t : Nat) : Nat := (first + t) / 64 - first / 64

/-- Offset from FIRST_POS of the position that slot `t` holds (R84, R220). DEDUCED: Log 14. -/
def Page.off (p : Page) (t : Nat) : Nat :=
  if p.fCompacted then ((List.range 1024).filter p.kept.getLsbD).getD t 0 else t

/-- Slot of the position at offset `o` from FIRST_POS that is written next: its own slot, or the next slot of a compacted
page (DEDUCED: Log 14). -/
def Page.slotFor (p : Page) (o : Nat) : Nat :=
  if p.fCompacted then ((List.range o).filter p.kept.getLsbD).length else o

/-- Stores element code `c` at element offset `e` (R51, R83). -/
def putElem (half : Bool) (e c : Nat) (m : Mem) : Mem :=
  if half then
    let b := (m.read (e / 2)).toNat
    let b' := if e % 2 = 0 then b / 16 * 16 + c % 16 else b % 16 + c % 16 * 16
    m.write (e / 2) (BitVec.ofNat 8 b')
  else m.write e (BitVec.ofNat 8 c)

/-- Element code at element offset `e`. -/
def getElem (half : Bool) (e : Nat) (m : Mem) : Nat :=
  if half then (m.read (e / 2)).toNat / (if e % 2 = 0 then 1 else 16) % 16 else (m.read e).toNat

/-- Stores a run of element codes. -/
def putElems (half : Bool) (e : Nat) : List Nat → Mem → Mem
  | [], m => m
  | c :: cs, m => putElems half (e + 1) cs (putElem half e c m)

/-- The largest |x| of FP32 values, as FP32. -/
def amaxOf (xs : List Word) : Word := xs.foldl (fun a x => f32Max a (f32Abs x)) 0

/-- Shared exponent of an MX block (R53). -/
def mxExp (qmax : Nat) (xs : List Word) : Int :=
  let a := f32Dy (amaxOf xs)
  if a.isZero then -127 else max (-127) (min 127 (a.ceilLog2Div qmax))

/-- Element code of an MX block (R53): E4M3 or E2M1 of x / 2^X. -/
def mxCode (fmt : Nat) (k : Int) (x : Word) : Nat :=
  if fmt = 1 then Fmt.e2m1.elemShift 3 (f32Neg x) (f32Dy x) k else Fmt.e4m3.elemShift 7 (f32Neg x) (f32Dy x) k

/-- Element code under a unit's scale (R57), and whether it is clipped. -/
def hsCode (fmt : Nat) (scale x : Word) : Nat × Bool :=
  if fmt = 3 then
    let c := exceeds x scale 7
    let v := roundIntDiv (f32Dy x) (f32Dy scale)
    let v := if c then (if f32Neg x then -7 else 7) else v
    ((v % 16).toNat, c)
  else (Fmt.e4m3.elemDiv 7 x scale, exceeds x scale 448)

/-- basis · 2^HEADROOM / qmax, or basis / qmax for a whole unit: the scale of R56. DESIGN CHOICE: Log 9. -/
def hsScale (qmax : Nat) (headroom : Nat) (basis : Word) : Word :=
  if (f32Dy basis).isZero then f32One
  else
    f32Written (f32Div .up (f32Mul .up basis (f32Of .nearest (Dy.pow2 headroom))) (f32Of .nearest ⟨qmax, 0⟩))

/-- A new scale unit (R56): `whole` is the exact amax when the append writes the whole slice (R58), `hist` the stream's
history, `first` the amax of the unit's first token. -/
def newUnit (qmax headroom : Nat) (whole : Option Word) (hist : List Word) (first : Word) : HsUnit :=
  match whole with
  | some a => ⟨hsScale qmax 0 a, 0, 0, true, false, true⟩
  | none =>
    let basis := if hist.isEmpty then first else amaxOf hist
    ⟨hsScale qmax headroom basis, 0, 0, true, false, false⟩

/-- What a row needs to open a scale unit, for each group: the exact amax of a whole slice, and the stream's history. -/
structure UnitInit where
  whole : Option Word
  hist : List Word
  deriving DecidableEq, Repr

/-- Writes one row of one head and part into slot `t` of a page, for the position at offset `off`: the elements, the block exponents or the scale unit, AMAX
and the clip counter (R52 to R61). Answers the number of elements clipped. -/
def Page.putRow (sh : Shape) (headroom : Nat) (p : Page) (h q t off : Nat) (xs : List Word) (init : Nat → UnitInit) : Page × Nat :=
  let e := sh.elem h q t 0
  if sh.isMx then
    (((chunks 32 xs).zipIdx).foldl (fun p (blk, b) =>
      let k := mxExp sh.qmax blk
      { p with
        mx := p.mx.write (e / 32 + b) (BitVec.ofNat 8 (k + 127).toNat)
        payload := putElems sh.half (e + 32 * b) (blk.map (mxCode sh.fmt k)) p.payload }) p, 0)
  else
    let gs := if sh.fmt = 3 then chunks 32 xs else [xs]
    (gs.zipIdx).foldl (fun (p, n) (blk, g) =>
      let ui := sh.unit h q g (sliceOf p.firstPos off)
      let u := (AL.get ui p.units).getD (newUnit sh.qmax headroom (init g).whole (init g).hist (amaxOf blk))
      let cs := blk.map (hsCode sh.fmt u.scale)
      let c := cs.countP (·.2)
      let u := { u with amax := f32Max u.amax (amaxOf blk), clip := min 65535 (u.clip + c) }
      ({ p with
        units := AL.put ui u p.units
        payload := putElems sh.half (e + 32 * g * b2n (sh.fmt == 3)) (cs.map (·.1)) p.payload
        clipPage := min 0xFFFFFFFF (p.clipPage + c) }, n + c)) (p, 0)

/-- The decoded value of an element of an unpacked payload (R48, R52, R57): the code's value times its scale. -/
def Page.elemDy (sh : Shape) (p : Page) (h q t d : Nat) : Dy :=
  let e := sh.elem h q t d
  let c := getElem sh.half e p.payload
  match sh.fmt with
  | 0 => (e4m3Dy c).scale (e8m0Exp (p.mx.read (e / 32)).toNat)
  | 1 => (e2m1Dy c).scale (e8m0Exp (p.mx.read (e / 32)).toNat)
  | 2 => (e4m3Dy c).mul (f32Dy ((AL.get (sh.unit h q 0 (sliceOf p.firstPos (p.off t))) p.units).elim 0 (·.scale)))
  | _ => (Dy.ofInt (int4Val c)).mul (f32Dy ((AL.get (sh.unit h q (d / 32) (sliceOf p.firstPos (p.off t))) p.units).elim 0 (·.scale)))

end Sys2Proof
end

