-- ==== Sys2Proof/Machine/Crumb.lean ====
section
/-!
DEFINITION. Crumb, the fixed-rate compressed page format: block encoding and decoding (R69 to R75), the header (R73) and
CRC-32C.
-/

namespace Sys2Proof

/-- One CRC-32C step over a byte (reflected polynomial 0x82F63B78). -/
def crc32cByte (c : Nat) (b : Byte) : Nat :=
  (List.range 8).foldl (fun c _ => if c % 2 = 1 then (c / 2) ^^^ 0x82F63B78 else c / 2) (c ^^^ b.toNat)

/-- CRC-32C of a byte string. -/
def crc32c (bs : List Byte) : Nat := (bs.foldl crc32cByte 0xFFFFFFFF) ^^^ 0xFFFFFFFF

/-- L of Table 3-5. -/
def crumbL (rate : Nat) : Nat := if rate = 3 then 1 else 3

/-- step = max(2^ceil(log2(R9 / (L + 0.5))), 2^ceil(log2(Rmax / 448))) (R72), as an exponent; none when every residual is 0. -/
def crumbStepExp (rate : Nat) (rs : List Dy) : Option Int :=
  let mags := sortBy (fun a b => b.le a) (rs.map Dy.abs)
  let rmax := mags.getD 0 Dy.zero
  let r9 := mags.getD 8 Dy.zero
  if rmax.isZero then none
  else
    let k2 := rmax.ceilLog2Div 448
    if r9.isZero then some k2 else some (max (r9.ceilLog2Div (2 * crumbL rate + 1) + 1) k2)

/-- SEXP of a step exponent (R70): the spec gives no case for one below −127, and none for one above 128, where the field is a free
value too. DESIGN CHOICE: Log 9. -/
def crumbSexp (k : Option Int) : Nat :=
  match k with
  | none => (Config.lowStep (-128)).toNat
  | some k => if k < -127 ∨ 128 < k then (Config.lowStep k).toNat else (k + 127).toNat

/-- Magnitude of escape code E · 4 + F in steps (R70). -/
def escMag (c : Nat) : Dy := ⟨4 + c % 4, (c / 4 : Nat) - 1⟩

/-- The escape code of the nearest magnitude; a tie goes to the even code (R49, R72). -/
def escCode (r step : Dy) : Nat :=
  (List.range 32).foldl (fun best c =>
    let d := ((escMag c).mul step |>.sub r.abs).abs
    let db := ((escMag best).mul step |>.sub r.abs).abs
    if d.lt db || (d.eq db && c % 2 == 0 && best % 2 == 1) then c else best) 0

/-- One element of a block: its code bits and, for an escape, the escape slot (Table 3-4, Table 3-5). -/
def crumbCode (rate : Nat) (step r : Dy) : Nat × Option Nat :=
  let L := crumbL rate
  if (r.abs).le (Dy.mul ⟨2 * L + 1, -1⟩ step) then
    let v := max (-(L : Int)) (min (L : Int) (roundIntDiv r step))
    (if rate = 3 then (v % 4).toNat else (v % 8).toNat, none)
  else (if rate = 3 then 0b10 else 0b100, some (b2n (decide (r.m < 0)) * 32 + escCode r step))

/-- Level of a code that is no escape. -/
def crumbLevel (rate c : Nat) : Int :=
  if rate = 3 then (if c = 0 then 0 else if c = 1 then 1 else -1) else (if c < 4 then c else (c : Int) - 8)

/-- A block as a number, bit 0 first (R70). -/
def crumbBits (rate mode sexp : Nat) (codes : List (Nat × Option Nat)) : Nat :=
  let escs := codes.filterMap (·.2)
  let w := rate - 1
  let cs := (codes.map (·.1)).foldr (fun c a => c + a * 2 ^ w) 0
  let es := escs.foldr (fun c a => c + a * 64) 0
  mode + escs.length * 4 + sexp * 64 + cs * 2 ^ 16 + es * 2 ^ (16 + 64 * w)

/-- What the expander gives for a half block: the E8M0 exponent and the E4M3 codes (R71). -/
structure HalfBlock where
  xout : Int
  codes : List Nat
  deriving DecidableEq, Repr

def HalfBlock.ofDy (ds : List Dy) : HalfBlock :=
  let a := Dy.maxAbs ds
  let k := if a.isZero then -127 else max (-127) (a.ceilLog2Div 448)
  ⟨k, ds.map (fun d => Fmt.e4m3.elemShift 7 (decide (d.m < 0)) d k)⟩

def HalfBlock.values (h : HalfBlock) : List Dy := h.codes.map (fun c => (e4m3Dy c).scale h.xout)

/-- Decodes a block (R71); none is a decode error (R74). `prev` holds the decoded elements of the block before it in the
same (h, q, g) stream, or is none for the first. -/
def crumbDecode (rate : Nat) (prev : Option (List Dy)) (bits : Nat) : Option (List HalfBlock) :=
  let mode := bitsOf bits 0 2
  let nesc := bitsOf bits 2 4
  let w := rate - 1
  if mode = 2 then some ((chunks 32 (List.replicate 64 Dy.zero)).map HalfBlock.ofDy)
  else
    let codes := (List.range 64).map (fun j => bitsOf bits (16 + w * j) w)
    let escCodeVal := if rate = 3 then 0b10 else 0b100
    if mode = 3 || (mode == 1 && prev.isNone) || decide (8 < nesc) || codes.count escCodeVal ≠ nesc || bitsOf bits 14 2 ≠ 0
    then none
    else
      let step := Dy.pow2 ((bitsOf bits 6 8 : Nat) - 127)
      let ps := if mode = 1 then prev.getD [] else List.replicate 64 Dy.zero
      let d := (codes.zip ps).foldl (fun (ds, e) (c, p) =>
        if c = escCodeVal then
          let x := bitsOf bits (16 + 64 * w + 6 * e) 6
          let r := (escMag (x % 32)).mul step
          (ds ++ [if 32 ≤ x then p.sub r else p.add r], e + 1)
        else (ds ++ [p.add ((Dy.ofInt (crumbLevel rate c)).mul step)], e)) (([], 0) : List Dy × Nat)
      some ((chunks 32 d.1).map HalfBlock.ofDy)

/-- An encoded block (R72): its bits, its escapes and the decoded values that predict the next block. -/
structure CrumbBlock where
  bits : Nat
  nesc : Nat
  zero : Bool
  values : List Dy
  deriving DecidableEq, Repr

/-- Encodes a block in one mode. -/
def crumbEncodeMode (rate mode : Nat) (src pred : List Dy) : Option Int × CrumbBlock :=
  let rs := (src.zip pred).map (fun (x, p) => x.sub p)
  let k := crumbStepExp rate rs
  let sexp := crumbSexp k
  let step := Dy.pow2 ((sexp : Int) - 127)
  let codes := rs.map (crumbCode rate step)
  let bits := crumbBits rate mode sexp codes
  let vals := match crumbDecode rate (some pred) bits with
    | none => []
    | some hs => hs.flatMap HalfBlock.values
  (k, ⟨bits, codes.countP (·.2.isSome), false, vals⟩)

/-- Encodes a block (R72): ZERO when every source element is 0; otherwise the mode with the smaller step, PREDICTED on a tie. -/
def crumbEncode (rate : Nat) (predEn : Bool) (prev : Option (List Dy)) (src : List Dy) : CrumbBlock :=
  if src.all Dy.isZero then ⟨2, 0, true, List.replicate 64 Dy.zero⟩
  else
    let d := crumbEncodeMode rate 0 src (List.replicate 64 Dy.zero)
    match predEn, prev with
    | true, some pv =>
      let p := crumbEncodeMode rate 1 src pv
      match p.1, d.1 with
      | none, _ => p.2
      | some kp, some kd => if kp ≤ kd then p.2 else d.2
      | some _, none => d.2
    | _, _ => d.2

/-- Lane cycles of a block (R75). -/
def crumbCycles (b : CrumbBlock) : Nat := if b.zero then 1 else 1 + ceilDiv (b.nesc - 2) 2

/-- A page packed to Crumb. -/
structure CrumbPage where
  stream : List Byte
  header : List Byte
  escapes : Nat
  maxErr : Word
  deriving DecidableEq, Repr

/-- Source value of an element for packing: MXFP8 with its block exponent, HS8 without its slice scale (R71). Slots not
filled are 0 (R69). -/
def crumbSource (sh : Shape) (p : Page) (h q t d : Nat) : Dy :=
  if !p.valid.getLsbD t then Dy.zero
  else
    let e := sh.elem h q t d
    let c := getElem false e p.payload
    if sh.fmt = 0 then (e4m3Dy c).scale (e8m0Exp (p.mx.read (e / 32)).toNat) else e4m3Dy c

/-- The 64 source elements of block (h, q, pair t, g) (R69). -/
def crumbBlockSource (src : Nat → Nat → Nat → Nat → Dy) (h q t g : Nat) : List Dy :=
  (List.range 64).map (fun j => src h q (2 * t + j / 32) (32 * g + j % 32))

/-- The blocks of one (h, q, g) stream, in token-pair order. -/
def crumbStream (sh : Shape) (predEn : Bool) (src : Nat → Nat → Nat → Nat → Dy) (h q g : Nat) : List CrumbBlock :=
  ((List.range (sh.T / 2)).foldl (fun (bs, prev) t =>
    let b := crumbEncode sh.rate predEn prev (crumbBlockSource src h q t g)
    (bs ++ [b], some b.values)) (([], none) : List CrumbBlock × Option (List Dy))).1

/-- Packs the elements that `src` gives for (head, part, slot, dimension) (R69, R72, R73). MAX_ERR and SUM_SQ_ERR are those of the
values that the blocks encode, so without the slice scale of an HS8 source; SUM_SQ_ERR is summed exactly and rounded once. DESIGN
CHOICE: Log 74. -/
def crumbPackOf (sh : Shape) (shapeId : Nat) (predEn : Bool) (src : Nat → Nat → Nat → Nat → Dy) : CrumbPage :=
  let parts := (List.range (sh.heads * sh.Q)).map (fun hq =>
    (List.range sh.G).map (fun g => crumbStream sh predEn src (hq / sh.Q) (hq % sh.Q) g))
  let blocks := parts.flatMap (fun gs => (List.range (sh.T / 2)).flatMap (fun t =>
    gs.map (fun l => (l[t]?).getD ⟨2, 0, true, []⟩)))
  let stream := blocks.flatMap (fun b => leBytes (8 * sh.rate) b.bits)
  let esc := blocks.foldl (fun n b => n + b.nesc) 0
  let cyc := blocks.foldl (fun n b => n + crumbCycles b) 0
  let errs := (List.range (sh.heads * sh.Q)).flatMap (fun hq => (List.range sh.G).flatMap (fun g =>
    ((parts.getD hq []).getD g []).zipIdx.flatMap (fun (b, t) =>
      ((crumbBlockSource src (hq / sh.Q) (hq % sh.Q) t g).zip b.values).map (fun (x, v) => (v.sub x).abs))))
  let mxe := f32Written (f32Of .nearest (Dy.maxAbs errs))
  let sq := f32Written (f32Of .nearest (Dy.sum (errs.map (fun d => d.mul d))))
  let hd := leBytes 2 1 ++ leBytes 1 sh.rate ++ leBytes 1 (if sh.fmt = 0 then 0 else 1) ++ leBytes 1 shapeId ++
    leBytes 1 sh.heads ++ leBytes 1 sh.Q ++ leBytes 1 sh.G ++ leBytes 2 sh.T ++ leBytes 2 0 ++
    leBytes 4 blocks.length ++ leBytes 4 (crc32c stream) ++ leBytes 4 esc ++ leBytes 4 cyc ++
    leBytes 4 mxe.toNat ++ leBytes 4 sq.toNat ++ leBytes 220 0
  ⟨stream, hd, esc, mxe⟩

/-- Packs the source form of a page. -/
def crumbPack (sh : Shape) (shapeId : Nat) (predEn : Bool) (p : Page) : CrumbPage := crumbPackOf sh shapeId predEn (crumbSource sh p)

/-- Block (h, q, pair t, g) of a packed payload as a number (R69). -/
def crumbBlockAt (sh : Shape) (m : Mem) (h q t g : Nat) : Nat :=
  m.readLE ((((h * sh.Q + q) * (sh.T / 2) + t) * sh.G + g) * (8 * sh.rate)) (8 * sh.rate)

/-- Decodes the (h, q, g) stream of a packed payload: for each token pair its two half blocks. None is a decode error. -/
def crumbDecodeStream (sh : Shape) (m : Mem) (h q g : Nat) : Option (List (List HalfBlock)) :=
  ((List.range (sh.T / 2)).foldl (fun acc t => match acc with
    | none => none
    | some (bs, prev) => match crumbDecode sh.rate prev (crumbBlockAt sh m h q t g) with
      | none => none
      | some hb => some (bs ++ [hb], some (hb.flatMap HalfBlock.values)))
    (some (([], none) : List (List HalfBlock) × Option (List Dy)))).map (·.1)

/-- Token pair of the first malformed block of the (h, q, g) stream of a packed payload (R74). -/
def crumbBadPair (sh : Shape) (m : Mem) (h q g : Nat) : Option Nat :=
  ((List.range (sh.T / 2)).foldl (fun (acc : Option Nat × Option (List Dy)) t => match acc.1 with
    | some _ => acc
    | none => match crumbDecode sh.rate acc.2 (crumbBlockAt sh m h q t g) with
      | none => (some t, acc.2)
      | some hb => (none, some (hb.flatMap HalfBlock.values))) (none, none)).1

/-- The first malformed block of a packed payload, or a stream CRC that does not match its header (R74): the block's stream
index, or none for the CRC. -/
def crumbError (sh : Shape) (p : Page) : Option (Option Nat) :=
  let bad := (List.range (sh.heads * sh.Q)).flatMap (fun hq => (List.range sh.G).filterMap (fun g =>
    (crumbBadPair sh p.payload (hq / sh.Q) (hq % sh.Q) g).map (fun t => (hq * (sh.T / 2) + t) * sh.G + g)))
  match bad with
  | b :: bs => some (some (bs.foldl min b))
  | [] =>
    if crc32c (p.payload.readN 0 sh.streamBytes) = leVal (p.crumbHdr.drop 16 |>.take 4) then none else some none

/-- Decoded element of a packed page, before the slice scale of an HS8 source: its E4M3 code and exponent (R71). -/
def crumbElem (sh : Shape) (p : Page) (h q t d : Nat) : Nat × Int :=
  match crumbDecodeStream sh p.payload h q (d / 32) with
  | none => (0, -127)
  | some bs =>
    let hb := ((bs.getD (t / 2) []).getD (t % 2) ⟨-127, []⟩)
    (hb.codes.getD (d % 32) 0, hb.xout)

/-- The value of an element of a page in either form (R48, R71). -/
def Page.valueDy (sh : Shape) (p : Page) (h q t d : Nat) : Dy :=
  if p.fPacked then
    let (c, k) := crumbElem sh p h q t d
    let v := (e4m3Dy c).scale k
    if sh.fmt = 2 then v.mul (f32Dy ((AL.get (sh.unit h q 0 (sliceOf p.firstPos (p.off t))) p.units).elim 0 (·.scale))) else v
  else p.elemDy sh h q t d

end Sys2Proof
end

