-- ==== Sys2Proof/Machine/TypesInteg.lean ====
section
/-!
DEFINITION. State of memory integrity (11): narrow writes in merge buffers, stored codewords that do not decode clean, lane
counters, hot frames, recent uncorrectable reads.
-/

namespace Sys2Proof

/-- A merge-buffer entry (R257): the codeword at bulk-window address `addr`, the bytes written of it, since when, and the
writer: 0 the host, 1 a remote operation. Reads return merged values, so the bytes themselves are in memory already. DEDUCED: Log 28. -/
structure PendWrite where
  addr : Nat
  mask : BitVec 64
  since : Nat
  writer : Nat
  deriving DecidableEq, Repr

/-- A stored codeword that is not as encoded: with the poison marker (R260), or with a flip mask XORed into its data and check
bytes (R265). -/
inductive CodeSt where
  | poison
  | flipped (mask : List Byte)
  deriving DecidableEq, Repr

/-- What the decoder finds when it reads a codeword (R251). -/
inductive ReadOutcome where
  | clean
  | corrected (lanes : List Nat)
  | poison
  | uncorrectable
  deriving DecidableEq, Repr

structure IntegState where
  pend : List PendWrite
  hot : AL Nat (List Nat)               -- by tile: frames whose bucket overflowed, oldest first
  lanes : AL (Nat × Nat) Nat            -- corrections by (channel, lane)
  repaired : AL (Nat × Nat) Nat         -- by (channel, lane): the spare lane that replaces it, 288 to 295
  ues : AL Nat (List (Nat × Nat))       -- by channel: (row, time) of UNCORRECTABLE reads of the last 1 ms
  passes : AL (Nat × Nat) Nat           -- start of the current scrub pass of (tile, kind)
  seen : AL (Nat × Nat) (List Nat)      -- places that the current scrub pass of (tile, kind) has read
  bus : AL Nat Nat                      -- by tile: the last owner of its channel bus (R243)
  deriving DecidableEq, Repr

def IntegState.blank : IntegState := ⟨[], [], [], [], [], [], [], []⟩

end Sys2Proof
end

