-- ==== Sys2Proof/Machine/TypesKv.lean ====
section
/-!
DEFINITION. State of the KV store: chunks and Crumb regions of Rack (R233), Bench lines (R224, R225), demand fills (R108)
and the tables of 04.
-/

namespace Sys2Proof

/-- What a 64 KiB chunk of a channel is used for (R233, R266, R337). A chunk not listed is free. -/
inductive ChunkUse where
  | payload (frame : Nat)
  | metadata (owner : Nat) (used : List Nat)   -- 2 KiB halves in use, 0 to 31; owner is a domain, or 1024 for none
  | run (owner : Nat)                          -- part of a record longer than one chunk
  | crumb (region : Nat)
  | region (index : Nat)
  | block (domain handle : Nat)                -- part of a projection block (R394)
  | test
  deriving DecidableEq, Repr

/-- Free Rack memory that has been a domain's: what it holds is enciphered under that domain's key (R385, R387), but for the codewords
written since. -/
structure Stale where
  times : Nat              -- how often the chunk has been returned
  live : List Nat          -- codewords written since, by index
  deriving DecidableEq, Repr

/-- A Crumb region (R233): 64 slots of `slotBytes`. -/
structure CrumbRegion where
  channel : Nat
  base : Nat
  count : Nat              -- chunks
  domain : Nat
  slotBytes : Nat
  used : List Nat
  deriving DecidableEq, Repr

/-- Use of a Bench line (R225). CLEAN and DIRTY are told apart by the dirty bits. -/
inductive LineUse where | copy | opened | source | grad | staging | test
  deriving DecidableEq, Repr

/-- A Bench cache line in use (R224, R230). `frame` is a frame number, or a gradient page's number for GRAD. -/
structure Line where
  tile : Nat
  set : Nat
  way : Nat
  frame : Nat
  form : Nat
  use : LineUse
  age : Nat
  dirty : Nat              -- one bit for each 16 KiB quarter
  dirtyRec : Bool
  part : Nat
  domain : Nat
  wb : Option (Nat × Bool) -- dirty bits that a write-back under way has copied
  draining : Bool          -- outside its partition's new way mask (R229)
  deriving DecidableEq, Repr

def Line.isDirty (l : Line) : Bool := l.dirty != 0 || l.dirtyRec

/-- A demand fill in flight (R108), or a page object of an import or a migration in flight. -/
structure Fill where
  domain : Nat
  vpn : Nat
  frame : Nat
  since : Nat
  line : Bool              -- a STAGING line is held
  obj : Nat                -- LOC of the CHECKPOINT entry it fills from
  deriving DecidableEq, Repr

/-- A starter-table entry with VALID = 1 (Table 5-1). -/
structure StEntry where
  tagHi : Nat
  domain : Nat
  shapeId : Nat
  frame : Nat
  fp : DWord               -- FINGERPRINT, KEY_LO
  deriving DecidableEq, Repr

/-- The KV store. -/
structure KvState where
  shapes : AL (Nat × Nat) DWord              -- (domain, shape ID)
  seqs : AL (Nat × Nat) SeqRec               -- (domain, sequence)
  seqLoc : AL (Nat × Nat) (Nat × Nat)        -- channel and first 2 KiB half of each sequence record
  ptes : AL (Nat × Nat) Pte                  -- (domain, VPN)
  tables : AL (Nat × Nat × Nat) (Nat × Nat)  -- (domain, level, VPN / 256^(level+1)): channel and 2 KiB half
  frames : AL Nat Frame
  chunks : AL (Nat × Nat) ChunkUse           -- (channel, chunk)
  crumbs : AL Nat CrumbRegion
  nextCrumb : Nat
  ttlb : AL (Nat × Nat) Pte                  -- entries of all TTLBs, by (domain, VPN)
  walkCache : List (Nat × Nat)               -- (domain, VPN / 256)
  lines : List Line
  fills : List Fill
  fetches : List Nat                         -- frames that are being fetched into Bench (R106, R107)
  packQ : List Nat                           -- frames that wait for packing, in seal order
  packing : AL Nat CrumbPage                 -- packed forms not yet committed, by frame
  starter : AL (Nat × Nat × Nat) StEntry     -- by (bank, set, way)
  rused : AL Nat Nat                         -- RUSED of each domain, in 256 B units
  codes : AL Nat CodeSt                      -- codewords of Rack and Bench that are not as encoded, by bulk-window address
  walked : List (Nat × Nat)                  -- translations that FAULTS has counted for the command that runs now (R116)
  draining : List Nat                        -- tiles whose BNCH.DRAIN.PEND has not come back to 0 (R229)
  stale : AL (Nat × Nat) Stale               -- by (channel, chunk)
  deriving DecidableEq, Repr

def KvState.blank : KvState := ⟨[], [], [], [], [], [], [], [], 0, [], [], [], [], [], [], [], [], [], [], [], [], []⟩

end Sys2Proof
end

