-- ==== Sys2Proof/Machine/Events.lean ====
section
/-!
DEFINITION. Operands of the commands that are events rather than descriptors: what arrives, and what a check that the model
does not compute has found (Log 3).
-/

namespace Sys2Proof

/-- A mailbox request (Table 18-2): the core, the link that wrote the buffer, the version, length and sequence number. -/
structure MReq where
  core : Nat
  link : Link
  major : Nat
  minor : Nat
  seq : Word
  deriving DecidableEq, Repr

/-- A checkpoint manifest with what its verification found (R427, R428). -/
structure Manifest where
  status : Nat             -- 0 verified; otherwise the status of the failed check
  seqRec : SeqRec
  pages : List (Nat × Nat) -- (VPN, store offset in 4 KiB units)
  lost : List Nat          -- VPNs with LOST = 1
  sets : List (Nat × List Nat)  -- set list (Table 17-5): SET_ID, and the VPNs whose entry names the set
  deriving DecidableEq, Repr

/-- An entry of an SRAM array (R254), by what it holds, in the order of Table 11-2. Engines 0 and 1 of a tile are its AEs, engine
2 + n its NBU n. -/
inductive SramEntry where
  | scratchpad (tile engine : Nat)
  | nbuBuffer (tile channel : Nat)
  | staging (tile : Nat)
  | portBuffer (port : Nat)
  | starter (bank set way : Nat) (fingerprint : Bool)   -- one of the two words of an entry (R134)
  | tlb (domain vpn : Nat)
  | walkCache (domain group : Nat)
  | expander (tile engine : Nat)
  | connCache (conn : Nat)
  | mergeCache (key : MergeKey)
  | queueState (tile : Option Nat) (cmds : List Nat)    -- with the commands that the entry holds; none: the request engine
  | policer (domain : Nat)                               -- policer state of a domain (R374)
  | coreMemory (core : Nat)
  deriving DecidableEq, Repr

/-- What a scrub read addresses (R267, R268): a codeword of Rack or of Bench by its byte address in the channel or the tile; the
tile tables' entry of a Bench line (Table 10-11); a codeword of Rack that holds a connection's state (R316), an entry of SEC's key table
(R397) or of the audit ring (R401); an entry of the tile's key store (R385); an SRAM entry with its index. -/
inductive ScrubTarget where
  | rack (channel addr : Nat)
  | bench (addr : Nat)
  | tables (set way : Nat)
  | connState (channel addr conn : Nat)
  | keyTable (channel addr set : Nat)
  | auditRing (channel addr seq : Nat)
  | keyStore (domain : Nat)
  | sram (entry : SramEntry) (index : Nat)
  deriving DecidableEq, Repr

/-- What the decoder found (R250 to R254). -/
inductive ScrubOutcome where
  | clean
  | corrected (lane : Nat)
  | uncorrectable
  deriving DecidableEq, Repr

/-- A clock island (Table 1-4). -/
inductive Island where
  | tile (t : Nat)
  | port (n : Nat)
  | hlnk (l : Link)
  | bench (q : Nat)
  | core (c : Nat)
  | channel (c : Nat)   -- the interface of a Rack channel (R252), no island of its own
  deriving DecidableEq, Repr

/-- The bytes that a register read asks for: its control-space byte address and its length (R4). -/
structure RegSpan where
  addr : Nat
  bytes : Nat
  deriving DecidableEq, Repr

/-- The transfer that a bridge abandons (R17): a register read of an agent, or one that no agent waits for (a write, or a
transfer inside the node). -/
inductive Abandoned where
  | read (ag : Agent) (span : RegSpan) (tag : Nat)
  | unanswered
  deriving DecidableEq, Repr

/-- A bridge transfer without a handshake: the far island and what was under way (R17). -/
structure BridgeLoss where
  island : Island
  lost : Abandoned
  deriving DecidableEq, Repr

/-- A unit whose control is duplicated (R408). -/
inductive CtlUnit where
  | page (pg : Nat)
  | node
  deriving DecidableEq, Repr

/-- A rail (R410). -/
inductive Rail where
  | quadrant (q : Nat)
  | node
  deriving DecidableEq, Repr

/-- What the verification of a firmware image finds (R443 to R446). DESIGN CHOICE: Log 3. -/
structure ImageInfo where
  ok : Bool
  version : Nat
  arb : Nat
  deriving DecidableEq, Repr

/-- DOMAIN_CREATE (Table 18-4). -/
structure DomainD where
  domain : Nat
  rquota : Nat
  bquota : Nat
  squota : Nat
  regions : Nat
  creds : Nat
  projs : Nat
  deriving DecidableEq, Repr

/-- PROJ_INSTALL (Table 18-4). -/
structure ProjD where
  domain : Nat
  source : Nat
  addr : Nat
  handle : Nat
  offset : Nat
  length : Nat
  status : Nat             -- what SEC finds of the block (Table 16-9): ST_OK, ST_BAD_DESCRIPTOR, ST_NOT_BOUND or ST_AUTH_FAILED
  layers : Nat
  heads : Nat
  dn : Nat
  latentWidth : Nat
  plain : List Byte        -- the plaintext of its chunks (R393)
  deriving DecidableEq, Repr

/-- EVACUATE (Table 18-4). -/
structure EvacD where
  mode : Nat
  conn : Nat
  targetSlot : Nat
  deriving DecidableEq, Repr

/-- HS_INIT (Table 13-3). -/
structure HsInitD where
  verMin : Nat
  verMax : Nat
  credType : Nat
  sconn : Nat
  domain : Nat
  composition : Nat
  credId : Nat
  nonceC : BitVec 256
  ephC : List Byte
  peerAddr : Nat
  udpPort : Nat
  deriving DecidableEq, Repr

/-- What a peer's HS_FINISH proves (Table 13-4): the proof as it came, and whether it verifies under the credential. DESIGN CHOICE: Log 3. -/
structure PeerProof where
  proof : List Byte
  ok : Bool
  deriving DecidableEq, Repr

/-- What an LS_PROOF brings (Table 16-4): the operator's public key, and whether SIG verifies under it. DESIGN CHOICE: Log 3. -/
structure OperatorProof where
  opk : List Byte
  ok : Bool
  deriving DecidableEq, Repr

/-- Where a frame comes in (R301, R303): the sublink, and the VLAN ID of its 802.1Q tag. -/
structure Inlet where
  sub : Nat
  vid : Option Nat
  deriving DecidableEq, Repr

/-- The outcome of a boot step (R484). DESIGN CHOICE: Log 3. -/
structure BootOutcome where
  ok : Bool
  code : Nat
  detail : Nat
  badTiles : List Nat              -- tiles that fail steps 4 to 6
  badQuads : List Nat := []        -- quadrants whose rail group (step 3) or CCC (step 7) fails
  badLanes : List (Nat × Nat) := []   -- lanes that fail training in step 4: channel, lane
  deriving DecidableEq, Repr

/-- An object of an incoming migration (R115). -/
inductive MigObj where
  | record (domain seq : Nat) (ok : Bool) (r : SeqRec)
  | page (domain seq vpn : Nat) (ok : Bool) (p : Page)
  deriving DecidableEq, Repr

end Sys2Proof
end

