-- ==== Sys2Proof/Syntax.lean ====
section
/-!
DEFINITION. The commands of the node: one constructor for each row of the table of operations and events, in its order.
-/

namespace Sys2Proof

/-- A command. Its operands are the row's: what is written or read, what arrives, or what elapsed. -/
inductive Instr where
  | append (q : Req) (d : AppendD)
  | sealOp (q : Req) (seq : Nat)
  | attnFwd (q : Req) (d : AttnD)
  | attnBwd (q : Req) (d : AttnD)
  | gradDrain (q : Req) (d : DrainD)
  | pageRead (q : Req) (d : PageReadD)
  | fork (q : Req) (d : ForkD)
  | compact (q : Req) (d : CompactD)
  | compactBatch (cmd : Nat)
  | prefixLookup (q : Req) (d : LookupD)
  | prefixStep (q : Req) (d : LookupD)
  | prefixInsert (q : Req) (d : PrefixD)
  | prefixRemove (q : Req) (d : PrefixD)
  | rmaRead (q : Req) (d : RmaD)
  | rmaWrite (q : Req) (d : RmaD)
  | rmaAdd (q : Req) (d : RmaD)
  | rmaCas (q : Req) (d : RmaD)
  | rmaFlush (q : Req) (d : RmaD)
  | rmaReadServe (q : Req) (d : RmaD) (ue : Bool)
  | rmaWriteServe (q : Req) (d : RmaD)
  | rmaAddServe (q : Req) (d : RmaD) (ue : Bool)
  | rmaCasServe (q : Req) (d : RmaD) (ue : Bool)
  | rmaFlushServe (q : Req) (d : RmaD)
  | targetNoticeIntervalEnd (handle status : Nat)
  | rmaResponse (conn msgId status c0 c1 : Nat) (data : List Byte)
  | waitCount (q : Req) (d : WaitCountD)
  | waitCountMet (cmd : Nat)
  | waitWord (q : Req) (d : WaitWordD)
  | waitWordMet (cmd : Nat)
  | waitTimeout (cmd : Nat)
  | regionRegister (q : Req) (d : RegisterD)
  | regionRevoke (q : Req) (d : RevokeD)
  | regionDrained (ref : RegionRef)
  | seqCreate (q : Req) (d : SeqCreateD)
  | seqPark (q : Req) (seq : Nat)
  | seqResume (q : Req) (seq : Nat)
  | seqDestroy (q : Req) (seq : Nat)
  | seqMigrate (q : Req) (d : MigrateD)
  | migratePageAck (job vpn : Nat)
  | ckptExport (q : Req) (d : ExportD)
  | exportManifestPlaced (job : Nat)
  | overflowRelease (job : Nat)
  | ckptImport (q : Req) (d : ImportD) (manifest : Manifest)
  | abort (q : Req) (d : AbortD)
  | fence (q : Req)
  | nop (q : Req)
  | ringFetch (ring : Nat)
  | demandFillLands (domain vpn : Nat) (content : Option Page)
  | demandFillFails (domain vpn : Nat)
  | fillTimeout (cmd : Nat)
  | windowClose (tile queue : Nat)
  | preemptStop (tile engine : Nat)
  | contextSaveDone (ctx : Nat)
  | fragmentKill (frag : Nat)
  | fragmentPageDone (frag : Nat) (residueOk : Bool)
  | fragmentComplete (frag : Nat)
  | tilePartialRelease (cmd tile : Nat)
  | promotionLands (frame : Nat)
  | partialReceive (conn msgId : Nat) (r : PartialRec)
  | mergeDeadline (key : MergeKey)
  | lingerExpire (key : MergeKey)
  | partialStatusReceive (conn msgId status hint : Nat)
  | partialResend (cmd : Nat)
  | crumbPackStart (tile : Nat)
  | crumbPackCommit (frame : Nat)
  | pinRelease (frame : Nat) (old : Bool)
  | benchAgeSweep (tile : Nat)
  | writebackComplete (tile set way : Nat)
  | mergeBufferFlush (channel addr : Nat) (ue : Bool)
  | scrubRead (tile : Nat) (target : ScrubTarget) (outcome : ScrubOutcome)
  | scrubPassLate (tile kind : Nat)
  | bucketLeakTick (page : Nat)
  | watchdogFire (page : Nat)
  | busWatchdogBite (tile requester beats : Nat)
  | bridgeTimeout (x : BridgeLoss)
  | controlMismatch (unit : CtlUnit)
  | coreLockstepRestart (core : Nat)
  | railFault (rail : Rail)
  | trngFail (test : Nat)
  | registerWrite (ag : Agent) (addr bytes value : Nat)
  | regPairHiWrite (ag : Agent) (addr value : Nat)
  | regLoRead (ag : Agent) (span : RegSpan) (tag : Nat)
  | pgCtlEnable (ag : Agent) (page : Nat) (on : Bool)
  | pgCtlFreeze (ag : Agent) (page : Nat)
  | softReset (ag : Agent) (page : Nat) (pass : Bool)
  | pgCtlAbort (ag : Agent) (page : Nat) (stuck : List Nat)
  | pgLockWrite (ag : Agent) (page value : Nat)
  | shadowCommit (ag : Agent) (page : Nat)
  | errLogClear (ag : Agent) (page : Nat)
  | counterClear (ag : Agent) (page offset : Nat)
  | invalAll (ag : Agent)
  | ttlbInval (ag : Agent) (tile : Nat)
  | shapeRead (ag : Agent)
  | shapeWrite (ag : Agent)
  | flipArm (ag : Agent) (page : Nat)
  | testAlloc (ag : Agent) (page : Nat)
  | testRelease (ag : Agent) (page : Nat)
  | hotRead (ag : Agent) (tile tag : Nat)
  | lreqRead (ag : Agent) (tag : Nat)
  | renew (ag : Agent)
  | grant (ag : Agent)
  | forcedFence (ag : Agent)
  | release (ag : Agent)
  | rejoinDiscard (ag : Agent)
  | rejoinReinstate (ag : Agent)
  | leaseExpire
  | leaseLow
  | graceEnd
  | restart (ag : Agent)
  | clearFails (ag : Agent)
  | forceUnleavened (ag : Agent)
  | locate (ag : Agent)
  | locateEnd
  | activeReq (ag : Agent) (link : Link)
  | retrain (ag : Agent) (link : Link)
  | ringCreate (ag : Agent) (value : Nat)
  | ringDisable (ag : Agent) (value : Nat)
  | sqDb (ag : Agent) (value : Nat)
  | cqDb (ag : Agent) (value : Nat)
  | cqIrqDelay (ring : Nat)
  | ringLost (quarter : Nat)
  | bulkRead (link : Link) (tag addr length : Nat) (ring ue : Bool)
  | bulkWrite (link : Link) (addr : Nat) (data : List Byte)
  | ringWindowWrite (link : Link) (addr : Nat) (data : List Byte)
  | retryReq (link : Link) (fseq : Nat)
  | flitAckCredit (link : Link) (ackSeq : Option Nat) (crClass crUnits : Nat)
  | flitTimeout (link : Link)
  | linkDown (link : Link) (cause : Nat)
  | linkTrained (link : Link)
  | linkTrainTimeout (link : Link) (lane : Nat)
  | rstreqAssert (link : Link)
  | rstreqRelease (link : Link)
  | imageFlit (link : Link) (kind : Nat) (last absent : Bool) (offset : Nat) (data : List Byte) (info : ImageInfo)
  | lsHello (link : Link) (nonceHi nonceLo : BitVec 128)
  | lsChallengeDeferred (link : Link)
  | lsProof (link : Link) (p : OperatorProof)
  | lsEnd (link : Link)
  | hello (m : MReq) (minMajor maxMajor : Nat)
  | traceSet (m : MReq) (first count enable : Nat)
  | attest (m : MReq) (nonce : BitVec 256)
  | domainCreate (m : MReq) (d : DomainD)
  | domainDestroy (m : MReq) (domain : Nat)
  | credAdd (m : MReq) (credId domain type purpose : Nat) (data : List Byte) (ok : Bool)
  | credRemove (m : MReq) (credId : Nat) (close : Bool)
  | projInstall (m : MReq) (d : ProjD)
  | projRemove (m : MReq) (domain handle : Nat)
  | inspectOpen (m : MReq) (domain : Nat)
  | inspectClose (m : MReq) (grant : Nat)
  | inspectExpire (grant : Nat)
  | auditExcerpt (m : MReq) (domain count seqFirst : Nat) (nonce : BitVec 256)
  | opkProgram (m : MReq) (slot : Nat) (key : List Byte)
  | opkRevoke (m : MReq) (slot : Nat)
  | fwStage (m : MReq) (kind addr length : Nat) (info : ImageInfo)
  | fwActivate (m : MReq) (kind : Nat)
  | activationStartTimeout (kind : Nat)
  | deferredActivationResume (kind : Nat)
  | fwStatus (m : MReq) (kind : Nat)
  | antiRollbackRaise (kind : Nat)
  | meterSnapshot (m : MReq) (composition : Nat) (nonce : BitVec 256)
  | evacuate (m : MReq) (d : EvacD)
  | powerCap (m : MReq) (capW : Nat)
  | ctxCreate (m : MReq) (ctx : Nat) (c : Ctx)
  | ctxModify (m : MReq) (ctx : Nat) (c : Ctx)
  | ctxDestroy (m : MReq) (ctx : Nat)
  | quadStatus (m : MReq)
  | laneLog (m : MReq) (clear : Bool) (channel lane : Nat)
  | reportResign
  | auditHeadFlush
  | hsInit (port sub : Nat) (h : HsInitD)
  | hsFinish (hs : Nat) (p : PeerProof)
  | hsTimeout (hs : Nat)
  | data (p : DataPkt)
  | ack (conn : Nat) (path base : Nat) (ranges : List (Nat × Nat)) (ce : Nat) (echo : Bool)
  | ackDelay (conn : Nat)
  | recvBusy (conn msgId : Nat) (lane : Lane) (hint : Nat)
  | recvBusyRetry (conn msgId : Nat) (lane : Lane)
  | abandon (conn msgId : Nat) (lane : Lane) (reason : Nat)
  | pathProbe (conn path : Nat) (src : Path)
  | pathReply (conn path : Nat)
  | probeTimer (conn path : Nat)
  | rtoExpire (conn psn : Nat)
  | reasmTimeout (conn msgId : Nat) (lane : Lane)
  | close (conn : Nat)
  | closeAck (conn : Nat)
  | connFetchDone (conn : Nat)
  | sublinkLinkLoss (port sub : Nat)
  | pacerRelease (conn : Nat)
  | egressSelect (port sub : Nat)
  | creditRefill
  | powerOn (mv : Nat)
  | inputTrip (cause : Nat)
  | overvoltageReclose
  | enAssert
  | enDeassert
  | bootStepDone (outcome : BootOutcome)
  | bootStepTimeout
  | startRetry
  | imageWindowExpire
  | powerSample (pin vin iin : Nat)
  | brownOut (mv ma : Nat)
  | powerEmergencyEnd
  | thermalSample (logic rack inlet : Nat)
  | thermalEmergencyEnd
  | incomingMigration (conn msgId : Nat) (obj : MigObj)
  | victimWaitTimeout (cmd : Nat)
  | quiesceTimeout (cmd : Nat) (units : List Nat)
  | contextRestoreDone (frag : Nat)
  | coreReachesUp (core : Nat)
  | portLinkUp (port sub : Nat)
  | benchFetchLands (frame : Nat)
  | arpNsEchoRequest (port : Nat) (inlet : Inlet) (kind : Nat) (dst src : Nat) (data : List Byte)
  deriving DecidableEq, Repr

end Sys2Proof
end

