-- ==== Sys2Proof/Decode.lean ====
section
/-!
DEFINITION. The commands of this block are not words of an instruction stream: spec/opcode_table.json gives no row any bits,
so no word spells a command. The descriptors that rings and messages carry are read by Machine/Operands.lean.
-/

namespace Sys2Proof

/-- The command that a word spells by the table's bits: no row gives any. -/
def decodeTableWord (_nbits _w : Nat) : Option Instr := none

end Sys2Proof
end

