-- ==== Sys2Proof/Machine/LinkOps.lean ====
section
/-!
DEFINITION. Sizes and credits of host-link transactions and flits (R459, R460).
-/

namespace Sys2Proof

def Link.other : Link → Link | .a => .b | .b => .a
def Link.num : Link → Nat | .a => 0 | .b => 1

def LinkRec.sessionOpen (r : LinkRec) : Bool := match r.session with | .opened _ => true | _ => false
/-- Bytes of a transaction with its header (R460, Table 19-3). -/
def HostTxn.bytes : HostTxn → Nat
  | .push _ _ d => 16 + d.length
  | .msg _ => 16
  | .cpl _ _ d => 16 + d.length

/-- Credit units of class P that a push or message costs (R460). A completion costs none of them. -/
def HostTxn.pCost : HostTxn → Nat
  | .cpl _ _ _ => 0
  | t => ceilDiv t.bytes 16

/-- Flits that a body occupies; a transaction is not packed with another (DESIGN CHOICE: Log 11). -/
def FlitBody.flits : FlitBody → Nat
  | .txn t => ceilDiv t.bytes 244
  | .session _ b => max 1 (ceilDiv b.length 240)
  | .image _ _ => 1

/-- Flits held for replay. -/
def LinkRec.replayFlits (r : LinkRec) : Nat := r.replay.foldl (fun n p => n + p.2.flits) 0

/-- The same ring, or the same connection (R295). -/
def Source.same : Source → Source → Bool
  | .ring a, .ring b => a == b
  | .conn a _, .conn b _ => a == b
  | _, _ => false

end Sys2Proof
end

