-- ==== Sys2Proof/Machine/TypesCkpt.lean ====
section
/-!
DEFINITION. State of checkpoints and migration (17, R115, R236): exports, overflow exports, imports and migrations under way.
-/

namespace Sys2Proof

inductive JobKind where | store | overflow | load | migrate
  deriving DecidableEq, Repr

/-- A page object sent: its frame, the valid map it was read with, its place in the store, and whether it is acknowledged. -/
structure JobPage where
  vpn : Nat
  frame : Nat
  packed : Bool            -- the payload form that its pin was taken on (R104)
  valid : BitVec 1024
  unit : Nat
  acked : Bool
  deriving DecidableEq, Repr

/-- An export, import or migration of a sequence. `cmd` is its command, or 0 for an overflow export. -/
structure Job where
  id : Nat
  kind : JobKind
  cmd : Nat
  domain : Nat
  seq : Nat
  peer : Nat               -- PEER_INDEX, or the fabric slot of a migration's target
  set : Nat                -- SET_ID
  recipient : List Byte
  pages : List JobPage
  kept : Nat               -- pages referenced unchanged
  lost : Bool
  manifest : List Byte     -- the MANIFEST object, until it is sent
  mUnit : Nat              -- its place
  nextUnit : Nat           -- the unit after it
  placed : Bool            -- step 6 is done
  c0 : Nat
  c1 : Nat
  deriving DecidableEq, Repr

/-- An overflow export of a domain (R236): frames still to release, and the sequences still to save. -/
structure Overflow where
  need : Nat
  todo : List Nat
  job : Nat
  deriving DecidableEq, Repr

structure CkptState where
  next : Nat
  jobs : AL Nat Job
  overflow : AL Nat Overflow   -- by domain
  deriving DecidableEq, Repr

def CkptState.blank : CkptState := ⟨1, [], []⟩

end Sys2Proof
end

