-- ==== Sys2Proof/Machine/TypesEgress.lean ====
section
/-!
DEFINITION. State of the egress schedulers and the ingress policer (15): queues with their tags and credits, virtual times,
and the frames that have left by a port.
-/

namespace Sys2Proof

/-- A packet in an egress queue (R362, R368): what it carries, its IP bytes, its start and finish tags. -/
structure EgPkt where
  conn : Nat
  lane : Lane
  msgId : Nat
  offset : Nat
  path : Nat
  psn : Nat
  gen : Nat
  retx : Bool
  payload : List Byte
  bytes : Nat
  start : Nat
  finish : Nat
  head : List Byte         -- the Poris header (Table 13-1)
  cipher : List Byte       -- the payload as it is encrypted, then the tag (R304)
  peerAddr : Nat
  deriving DecidableEq, Repr

/-- One copy of an egress queue. Credits are signed bytes (R366). -/
structure EgQueue where
  pkts : List EgPkt
  credit : Int
  fLast : Nat
  deriving DecidableEq, Repr

def EgQueue.blank : EgQueue := ⟨[], 0, 0⟩

/-- How a frame is addressed (R301, R302): its 802.1Q tag as PCP and VID, its next hop (none where it answers a neighbour), its IP
destination, and for a Poris datagram, which goes with ECT(0), its UDP destination port and DSCP. -/
structure NetHead where
  vlan : Option (Nat × Nat)
  hop : Option Nat
  dst : Nat
  udp : Option (Nat × Nat)
  deriving DecidableEq, Repr

/-- A frame that has left the node by a sublink. A packet of control class goes out as its Poris header and the bytes behind it. -/
inductive WireFrame where
  | data (p : EgPkt)
  | ctl (conn : Nat) (head body : List Byte) (p : CtlPkt)
  | answer (kind dst : Nat) (data : List Byte)   -- ARP, Neighbor Solicitation and echo answers (R301)
  deriving DecidableEq, Repr

/-- Per sublink: virtual time, LC credit and control credit. -/
structure SubState where
  v : Nat
  lc : Int
  ctl : Int
  deriving DecidableEq, Repr

def SubState.blank : SubState := ⟨0, 0, 0⟩

structure EgressState where
  queues : AL (Nat × Nat × Nat) EgQueue   -- (port, sublink, queue)
  subs : AL (Nat × Nat) SubState
  doms : AL Nat Int                       -- policer credits, by domain
  node : Int                              -- credit of the cap of R425
  wire : List (Nat × Nat × NetHead × WireFrame)     -- (port, sublink, addressing, frame), oldest first
  deriving DecidableEq, Repr

def EgressState.blank : EgressState := ⟨[], [], [], 0, []⟩

end Sys2Proof
end

