-- ==== Sys2Proof/Machine/TypesEng.lean ====
section
/-!
DEFINITION. State of the attention engines and of merging: fragments and their queues (R161 to R164, R278 to R286), the
partials of a command in the node (R176), merge contexts (R178 to R181) and gradient pages (R198, R199).
-/

namespace Sys2Proof

/-- A row of an attention command: the row record, the 16-bit query as FP32, and, for ATTN_BWD, D, the 16-bit dO and the 8-bit forms of
both (R196). -/
structure RowIn where
  kv : Nat
  pos : Nat
  temp : Word
  slope : Word
  sink : Word
  m : Word
  l : Word
  dsum : Word
  q : List Word
  dO : List Word
  qx : List Word
  dOx : List Word
  deriving DecidableEq, Repr

/-- What a row carries while its engine runs (R159): m_ref, m_max, l and o; for ATTN_BWD `o` is dQ. -/
structure RowAcc where
  mref : Word
  mmax : Word
  l : Word
  o : List Word
  deriving DecidableEq, Repr

/-- A page of a fragment as it was pinned (R104, R162). `packed` is the payload form pinned. -/
structure FragPage where
  layer : Nat
  hg : Nat
  k : Nat
  vpn : Nat
  frame : Nat
  packed : Bool
  gen : Nat
  committed : Bool         -- its commit bit was set before the fragment was made (R203, Table 17-2)
  deriving DecidableEq, Repr

/-- Where a fragment stands. -/
inductive FragSt where
  | waiting                -- in a window, open or closed
  | running (engine : Nat)
  | stopping (engine : Nat)  -- an AE victim that runs to its next page boundary (R283)
  | killing (engine : Nat)   -- to be killed (R285)
  | saving (engine : Nat)    -- stopped; its state is being copied to the save area
  | saved
  | restoring (engine : Nat)
  deriving DecidableEq, Repr

/-- A query fragment (R161). Queue 16 is the tile's AE queue, 0 to 15 an NBU's. -/
structure Frag where
  id : Nat
  cmd : Nat
  ctx : Nat
  part : Nat
  lc : Bool
  bwd : Bool
  tile : Nat
  queue : Nat
  pages : List FragPage
  st : FragSt
  arrived : Nat
  tag : Nat                -- start tag S (R279)
  demoted : Bool
  ahead : Bool             -- goes ahead of its class and bucket (R280)
  next : Nat               -- next page
  commit : List Nat        -- pages whose commit bit is set (R203)
  reruns : Nat
  rows : List RowAcc
  tokens : Nat
  status : Nat
  seen : BitVec 1024       -- slots that were valid when the engine started the page (R149)
  read : Nat               -- pages read to their end in this run (R155)
  deriving DecidableEq, Repr

/-- Scheduling of one queue of a tile. -/
structure QueueRec where
  window : List Nat        -- waiting fragments not yet in a closed window
  opened : Nat
  len : Nat                -- WINDOW_NS of the open window (R170)
  drain : List (List Nat)  -- closed windows, each in dispatch order
  v : Nat                  -- virtual time V
  fLast : AL Nat Nat
  deriving DecidableEq, Repr

/-- The LC credit of an engine in 1/256 cycles, and when it was last brought up to date (R278). -/
structure CreditRec where
  level : Int
  stamp : Nat
  deriving DecidableEq, Repr

/-- A partial while the node merges it. -/
structure PartAcc where
  rows : List RowPart
  sum : Bool
  tokens : Nat
  pages : Nat
  status : Nat             -- of the first failed input, else ST_OK
  deriving DecidableEq, Repr

/-- Pages that still wait for a fragment slot (R296): tile, queue, pages. -/
structure FragPlan where
  tile : Nat
  queue : Nat
  pages : List FragPage
  reruns : Nat             -- rerun count of the fragments that it replaces (R286)
  deriving DecidableEq, Repr

/-- A page that a fenced tile has taken from a command's fragments: where it is, whether its commit bit was set, and the rerun count
of its fragment (Table 17-2, R203, R286). DEDUCED: Log 34. -/
structure Redo where
  layer : Nat
  hg : Nat
  k : Nat
  committed : Bool
  reruns : Nat
  deriving DecidableEq, Repr

/-- An attention command that is admitted: its rows, its fragments not yet released to a tile, and its partials. It outlives a command
whose merge context closed while fragments ran (R176). -/
structure AttnJob where
  cmd : Nat
  hdr : Hdr
  d : AttnD
  bound : Nat              -- min(TOK_END, the layer's NEXT_POS at admission) (R154)
  doneEarly : Bool           -- the command has ended; its fragments still run to their end
  redo : List Redo
  clip : Nat               -- gradient elements that saturated (R64)
  bwd : Bool
  domain : Nat
  ctx : Nat
  epoch : Word
  dv : Nat
  tree : List DWord        -- ANC of a TREE mask
  node : List Nat          -- NODE
  rowsIn : List RowIn
  todo : List FragPlan
  tiles : AL Nat (PartAcc × Bool)  -- tile partials, and whether each has been released
  acc : PartAcc                -- the node partial
  committed : Nat          -- pages whose gradients were committed (R195)
  originAddr : Nat
  originPort : Nat
  anchored : Option MergeKey  -- the context that it anchors (R177)
  covE : Nat
  covG : Nat
  failC0 : Nat             -- COUNT0 of a walk outcome (Table 4-7)
  firstSend : Nat          -- when its partial was first sent (R183)
  sentOn : Nat             -- connection index and MSG_ID of the PARTIAL message
  sentMsg : Nat
  resendAt : Nat           -- 0 when no resend waits
  record : Option PartialRec
  deriving DecidableEq, Repr

/-- States of a merge context (Table 7-4). -/
inductive CtxSt where | opened | anchored | closed
  deriving DecidableEq, Repr

/-- A merge context: all contexts of one query (R179). -/
structure MergeCtx where
  st : CtxSt
  numbers : List Nat
  anchor : Option Nat      -- the anchor command
  expect : Option Nat
  rows : Nat
  dv : Nat
  sum : Bool
  openAt : Nat
  deadline : Nat
  arrived : List Nat       -- contributor numbers
  failed : List (Nat × Nat)  -- (contributor, status) of those that arrived with 0x10 or above
  merged : Nat
  degraded : Bool
  acc : PartAcc
  localDone : Bool
  localStatus : Nat
  cause : Nat              -- ST_POISONED or ST_ABORTED when an error or an ABORT closed it, else ST_OK
  closedAt : Nat
  linger : Nat
  deriving DecidableEq, Repr

/-- A gradient page (R199). -/
structure GradPage where
  tile : Nat
  set : Nat
  way : Nat
  num : Nat
  shape : DWord
  shapeId : Nat
  layer : Nat
  hg : Nat
  k : Nat
  firstPos : Nat
  poison : Bool
  units : List (Nat × HsUnit)
  payload : Mem
  deriving DecidableEq, Repr

/-- The engines and the merging units. -/
structure EngState where
  nextFrag : Nat
  frags : AL Nat Frag
  queues : AL (Nat × Nat) QueueRec
  credits : AL (Nat × Nat) CreditRec        -- (tile, engine): AE 0 and 1, NBU n as 2 + n
  busy : AL (Nat × Nat) Nat                 -- the fragment of a busy engine
  ways : AL (Nat × Nat) Nat                 -- the stopped fragment whose state is in an AE's BE ways
  save : AL Nat Nat                         -- the fragment in a context's save area
  residue : AL (Nat × Nat) Nat              -- time of an engine's last residue fault
  jobs : AL Nat AttnJob
  merge : AL MergeKey MergeCtx
  grads : AL (Nat × Nat × Nat) GradPage     -- (context, SEQ, VPN)
  nextGrad : Nat
  headroom : AL Nat Nat                     -- GRAD_HEADROOM of a context's region
  promos : List (Nat × Nat)                 -- promotions under way: (frame, partition)
  promoted : List Nat                       -- frames promoted since they were last evicted
  deriving DecidableEq, Repr

def EngState.blank : EngState := ⟨1, [], [], [], [], [], [], [], [], [], [], 1, [], [], []⟩

end Sys2Proof
end

