-- ==== Sys2Proof/Machine/TypesSec.lean ====
section
/-!
DEFINITION. State of security (16) and of the firmware cores (18): domains, credentials, projection blocks, grants, the audit
log, key sets, operator keys; the cores, their mailboxes, images, meters and an evacuation.
-/

namespace Sys2Proof

/-- Domain states (R384, R387); a domain that is not listed is FREE. -/
inductive DomSt where | active | destroying
  deriving DecidableEq, Repr

/-- A tenant domain and the two quotas that DOMAIN_CREATE alone sets (Table 16-6). -/
structure DomainRec where
  st : DomSt
  creds : Nat
  projs : Nat
  root : Option (Nat × Nat)   -- channel and 2 KiB half of the root table (R499)
  deriving DecidableEq, Repr

/-- A credential (R389). `typ` is 1 for a PSK and 2 for a public key. -/
structure Cred where
  domain : Nat
  typ : Nat
  data : List Byte
  deriving DecidableEq, Repr

/-- A projection block (R158, R393, R394). `bound` is false where no envelope names this node. -/
structure Proj where
  bound : Bool
  layers : Nat
  heads : Nat
  dn : Nat
  lw : Nat
  chunks : List (Nat × Nat)
  units : Nat
  data : List Byte            -- BF16 matrices in (layer, query head) order
  removing : Bool             -- freed once the commands that use it have completed (R395)
  deriving DecidableEq, Repr

/-- An inspection grant (R400). -/
structure Grant where
  domain : Nat
  openedAt : Nat
  read : Nat                  -- bytes read under it
  wrote : List (Nat × Nat)    -- chunks written under it
  deriving DecidableEq, Repr

/-- An audit entry (Table 16-10). -/
structure AuditEntry where
  seq : Nat
  time : Nat
  typ : Nat
  domain : Option Nat
  agent : Nat
  arg0 : Nat
  prev : BitVec 384
  deriving DecidableEq, Repr

/-- A checkpoint key set of the key table (R397): its domain, the recipient of its envelope, the objects under its key, and of a set
that this node sealed what its objects hold: the pages by store unit, without the fields that a fill rewrites, and the record (R77). -/
structure KeySet where
  domain : Nat
  recipient : List Byte
  objs : List Nat
  made : AL Nat Page
  record : Option SeqRec
  lost : Bool                 -- its entry met an uncorrectable error; CKPT_IMPORT supplies the key again (Table 16-14)
  deriving DecidableEq, Repr

/-- What SEC holds. -/
structure SecState where
  domains : AL Nat DomainRec
  creds : AL Nat Cred
  projs : AL (Nat × Nat) Proj              -- by (domain, handle)
  grants : AL Nat Grant
  audit : List AuditEntry                  -- oldest first, at most 65,536
  auditLost : List Nat                     -- SEQ of entries that met an uncorrectable error (Table 16-14)
  auditSeq : Nat                           -- SEQ of the next entry
  auditHead : BitVec 384
  flushed : Nat × BitVec 384               -- SEQ and HASH last written to flash (R402)
  flushedAt : Nat
  opk : AL Nat (BitVec 384 × Bool)         -- operator key slots in use: hash, revoked (R382)
  keySets : AL Nat KeySet                  -- by SET_ID
  debug : Nat                              -- DEBUG of the report (Table 16-3)
  trngBad : Bool                           -- a health test has failed (R376)
  sessions : List Word                     -- SESSION_IDs issued since the start (R381)
  report : List Byte                       -- the window report (R380)
  reportAt : Nat
  reportHead : BitVec 384                  -- AUDIT_HEAD when it was signed
  deriving DecidableEq, Repr

def SecState.blank : SecState :=
  ⟨[(0, ⟨.active, 0, 0, none⟩)], [], [], [], [], [], 0, 0, (0, 0), 0, [], [], 0, false, [], [], 0, 0⟩

/-! ### Firmware cores (18) -/

/-- A mailbox request less its header (Table 18-4). -/
inductive Msg where
  | hello (minMajor maxMajor : Nat)
  | traceSet (first count enable : Nat)
  | attest (nonce : BitVec 256)
  | domainCreate (d : DomainD)
  | domainDestroy (domain : Nat)
  | credAdd (credId domain typ purpose : Nat) (data : List Byte) (ok : Bool)
  | credRemove (credId : Nat) (close : Bool)
  | projInstall (d : ProjD)
  | projRemove (domain handle : Nat)
  | inspectOpen (domain : Nat)
  | inspectClose (grant : Nat)
  | auditExcerpt (domain count seqFirst : Nat) (nonce : BitVec 256)
  | opkProgram (slot : Nat) (key : List Byte)
  | opkRevoke (slot : Nat)
  | fwStage (kind addr length : Nat) (info : ImageInfo)
  | fwActivate (kind : Nat)
  | fwStatus (kind : Nat)
  | meterSnapshot (composition : Nat) (nonce : BitVec 256)
  | evacuate (d : EvacD)
  | powerCap (capW : Nat)
  | ctxCreate (ctx : Nat) (c : Ctx)
  | ctxModify (ctx : Nat) (c : Ctx)
  | ctxDestroy (ctx : Nat)
  | quadStatus
  | laneLog (clear : Bool) (channel lane : Nat)
  deriving DecidableEq, Repr

/-- A request that waits: its core is down (R448), or it is one that is answered later (Continued in Table 18-4). -/
structure HeldMsg where
  m : MReq
  msg : Msg
  begun : Bool
  count : Nat                 -- commands aborted by a CTX_DESTROY
  till : Nat                  -- the bound of its ABORT (R277, R293)
  deriving DecidableEq, Repr

/-- A firmware core and its mailbox (R433, R435, R436). -/
structure CoreRec where
  up : Bool
  busy : Bool
  helloOk : Bool
  major : Nat
  minor : Nat
  restarts : Nat
  respSeq : Word
  trace : BitVec 256
  version : Nat               -- VERSION and ARB of the image that it runs
  arb : Nat
  downAt : Nat
  runAt : Nat
  logged : Nat                -- entries of its log since its start (R440)
  deriving DecidableEq, Repr

def CoreRec.blank : CoreRec := ⟨false, false, false, 0, 0, 0, 0, 0, 0, 0, 0, 0, 0⟩

/-- The two flash slots of an image kind (R442 to R446). -/
structure ImgKind where
  active : Nat                -- 0 A, 1 B
  slots : AL Nat (Nat × Nat)  -- slot: (VERSION, ARB) of a valid image
  staged : Bool
  last : Nat                  -- Table 18-8
  fuse : Nat                  -- anti-rollback counter
  host : Bool                 -- the image run came from the host
  deriving DecidableEq, Repr

def ImgKind.blank : ImgKind := ⟨0, [(0, (0, 0))], false, 0, 0, false⟩

/-- An activation under way (Table 18-7): the cores still to restart, the first one being down. -/
structure Activation where
  kind : Nat
  req : Option MReq           -- the request to be answered; none once ST_DEFERRED has been returned
  cores : List Nat
  old : Nat                   -- the slot active before
  startedAt : Nat
  deriving DecidableEq, Repr

/-- A meter set (R450, R451). -/
structure MeterSet where
  firstTime : Nat
  counts : List Nat           -- PART_HOLD, CTX_ACTIVE, AE_BUSY, NBU_BUSY, RACK_FRAME
  snapSeq : Nat
  snapped : Bool              -- a snapshot was taken after it was last held
  deriving DecidableEq, Repr

/-- An EVACUATE under way (R453). -/
structure Evac where
  m : MReq
  d : EvacD
  todo : List (Nat × Nat)     -- sequences still to save, in order
  current : Option (Nat × Nat)
  before : Nat                -- LAST_SET of the current sequence before its export
  saved : Nat
  failed : List (Nat × Nat)
  deriving DecidableEq, Repr

structure FwState where
  cores : AL Nat CoreRec
  kinds : AL Nat ImgKind
  held : List HeldMsg
  activation : Option Activation
  deferred : List (Nat × Nat) -- activations that wait for the end of an emergency: kind and time of the request (R449)
  hostImgs : AL Nat ImageInfo -- images accepted from the host in this start (R444)
  meters : AL Nat MeterSet    -- by composition; 0xFFFF is the UNLEASED set
  evac : Option Evac
  bootCount : Nat
  laneLog : List (Nat × Nat)  -- lanes recorded in flash (R270): channel, lane
  deriving DecidableEq, Repr

def FwState.blank : FwState := ⟨[], [], [], none, [], [], [(0xFFFF, ⟨0, [0, 0, 0, 0, 0], 0, false⟩)], none, 0, []⟩

end Sys2Proof
end

