-- ==== Sys2Proof/Machine/TypesSys.lean ====
section
/-!
DEFINITION. State of the lease (R411 to R420) and of power and start.
-/

namespace Sys2Proof

/-- LSTAT.STATE. -/
inductive LeaseSt where | unleased | leased | fenced
  deriving DecidableEq, Repr

/-- Lease, epochs and composition. -/
structure LeaseState where
  st : LeaseSt
  cause : Nat
  serials : List (Word × Nat)   -- the two serials most recently issued, newest first, with T0 (R412)
  issued : Nat                  -- serials issued
  held : Option Word            -- serial of the grant it holds
  heldIdx : Nat                 -- its place in the order of issue
  expiry : Nat
  cur : Word                    -- CUR_EPOCH
  prev : Option Word            -- previous epoch within its grace window
  graceTill : Nat
  comp : Option (Nat × Nat)     -- composition and fabric slot held
  last : List Word              -- epochs the node last held (R416)
  lowSent : Bool                -- LEASE_LOW raised for this lease
  rejoined : Bool               -- no grant since the last rejoin: the next one needs a new epoch (R416)
  deriving DecidableEq, Repr

def LeaseState.blank : LeaseState := ⟨.unleased, 0, [], 0, none, 0, 0, 0, none, 0, none, [], false, false⟩

/-- Power states (R478, R479). -/
inductive PowerSt where | off | standby | starting | active | capped | unleavened
  deriving DecidableEq, Repr

/-- A start-log entry (Table 20-7). -/
structure StartLog where
  boot : Nat               -- BOOT_COUNT of the start
  step : Nat
  code : Nat               -- Table 20-5
  detail : Nat
  isOpen : Bool
  deriving DecidableEq, Repr

/-- Power, start and clocks (20). -/
structure PowerState where
  st : PowerSt
  mhz : Nat                -- clock of the tile and Bench-controller islands (R480)
  -- input
  en : Bool                -- the EN contact
  enAt : Nat               -- time it last changed
  latched : Bool           -- the breaker has tripped and is latched (Table 20-1)
  overV : Bool              -- tripped by overvoltage
  -- start
  step : Nat               -- SSTAT.STEP
  stepAt : Nat             -- start of the step, later by the length of each emergency during it
  startAt : Nat            -- EN assertion, or the RESTART, of this run
  retryAt : Option Nat     -- the rails are off until then, and stage 1 follows
  startMs : Nat            -- STIME
  cause : Nat
  detail : Nat
  imgTill : Option Nat     -- end of the window for host images (R444)
  -- flash
  fails : Nat              -- failed-start count C (R485)
  scfg : Word              -- SCFG as stored
  runCfg : Word            -- SCFG of this run
  forced : Bool            -- the next start enters unleavened mode
  log : List StartLog      -- newest first, at most 8
  trips : Nat              -- stage 3 trips since manufacture
  tripHeld : Option Nat    -- sensor of a trip not yet recorded
  -- supply and temperature
  samples : List Nat       -- input power of the last 1 ms, newest first
  vin : Nat
  iin : Nat
  lowerAt : Nat            -- times of the last steps down and up, by power and by temperature
  raiseAt : Nat
  tlowerAt : Nat
  belowSince : Option Nat  -- since when the 1 ms average is at or below 0.95 CAP
  temps : Nat × Nat × Nat  -- LOGIC, RACK, INLET
  brown : Bool             -- a power emergency holds
  brownAt : Nat
  goodSince : Option Nat   -- since when the input is within the limits that end it
  hot : Bool               -- a thermal emergency holds
  hotAt : Nat
  coolSince : Option Nat
  locateTill : Nat
  deriving DecidableEq, Repr

/-- Before power is first applied. SCFG holds its defaults: MIN_TILES 12, FAIL_LIMIT 3 (Table 20-7). DESIGN CHOICE: Log 16.
DESIGN CHOICE: Log 17. -/
def PowerState.blank : PowerState where
  st := .off
  mhz := 1200
  en := false
  enAt := 0
  latched := false
  overV := false
  step := 0
  stepAt := 0
  startAt := 0
  retryAt := none
  startMs := 0
  cause := 0
  detail := 0
  imgTill := none
  fails := 0
  scfg := 0xC03
  runCfg := 0xC03
  forced := false
  log := []
  trips := 0
  tripHeld := none
  samples := []
  vin := 0
  iin := 0
  lowerAt := 0
  raiseAt := 0
  tlowerAt := 0
  belowSince := none
  temps := (0, 0, 0)
  brown := false
  brownAt := 0
  goodSince := none
  hot := false
  hotAt := 0
  coolSince := none
  locateTill := 0

end Sys2Proof
end

