-- ==== Sys2Proof/Machine/State.lean ====
section
/-!
DEFINITION. The state of the node, the reasons a step can stop, and the state after reset.
-/

namespace Sys2Proof.Machine

/-- Reasons for a fault. No command of this model raises one. -/
inductive Fault where
  /-- Raised by no meaning: every command of the spec has an effect, or none (R106, R180, R350). Safe. -/
  | unreachable
  deriving DecidableEq, Repr

/-- Reasons for a refusal. -/
inductive Refusal where
  /-- A command that the model does not give a meaning. Raised by exec's arm of that command. Safe. -/
  | notModelled (mnemonic : String)
  deriving DecidableEq, Repr

/-- The node, and the commands that wait for it, first in, first out. -/
structure State where
  pending : List Instr
  nrt : Nat
  fresh : Nat
  mem : Mem
  rf : RegFile
  host : HostState
  cmds : CmdState
  net : NetState
  egress : EgressState
  kv : KvState
  eng : EngState
  lease : LeaseState
  sec : SecState
  fw : FwState
  integ : IntegState
  ckpt : CkptState
  pw : PowerState
  deriving DecidableEq, Repr

/-- The node before power is applied: no time has passed, nothing is stored but what flash and fuses hold. DESIGN CHOICE: Log 16
and Log 17. DESIGN CHOICE: Log 2. -/
def State.reset : State where
  pending := []
  nrt := 0
  fresh := 0
  mem := []
  rf := .blank
  host := .blank
  cmds := .blank
  net := .blank
  egress := .blank
  kv := .blank
  eng := .blank
  lease := .blank
  sec := .blank
  fw := .blank
  integ := .blank
  ckpt := .blank
  pw := .blank

end Sys2Proof.Machine
end

