-- ==== Sys2Proof/Machine/Ops.lean ====
section
/-!
DEFINITION. The named operations over registers, interrupts, error logs, host transactions and memory that every family
uses. Times are in ticks of 10 ns (R9).
-/

namespace Sys2Proof.Machine

def usTicks (n : Nat) : Nat := n * 100
def msTicks (n : Nat) : Nat := n * 100000

/-! ### Registers -/

/-- Where a register's value is held: a register that a select register of its page addresses is held once for each value
of the select register, and a quota is held once for the node (R475, R334, R145, Tables 10-9, 12-9, 11-5, 15-3, 15-4). -/
def regKeyAt (pg off idx : Nat) : Nat × Nat × Nat :=
  match pageType pg with
  | some (.bnch, _) => if off = 0x134 ∨ off = 0x13C ∨ off = 0x144 then (pgBnch 0, off, idx) else (pg, off, idx)
  | some (.strt, _) => if off = 0x134 then (pgStrt 0, off, idx) else (pg, off, idx)
  | _ => (pg, off, idx)

/-- Offset of the select register that addresses a register, if one does. -/
def selOf (t : PgType) (off : Nat) : Option Nat :=
  match t with
  | .dbel => if 0x10C ≤ off ∧ off ≤ 0x124 then some 0x108 else none
  | .port => if 0x114 ≤ off ∧ off ≤ 0x138 then some 0x110 else none
  | .bnch => if off = 0x110 ∨ off = 0x114 then some 0x10C else if off = 0x134 ∨ off = 0x13C then some 0x130 else none
  | .strt => if off = 0x134 then some 0x130 else none
  | .tsch => if off = 0x14C then some 0x148 else none
  | .mchn => if off = 0x1A0 then some 0x19C else none
  | .egrs => if off = 0x104 ∨ off = 0x108 ∨ off = 0x10C then some 0x100 else none
  | .ingp => if 0x104 ≤ off ∧ off ≤ 0x110 then some 0x100 else none
  | .xprt => if off = 0x18C then some 0x188 else none
  | _ => none

/-- The register `off` of page `pg` for index `idx`. -/
def State.regI (s : State) (pg off idx : Nat) : Word := AL.getD (regKeyAt pg off idx) (regReset pg off) s.rf.vals

def State.setRegI (s : State) (pg off idx : Nat) (w : Word) : State :=
  { s with rf := { s.rf with vals := AL.put (regKeyAt pg off idx) w s.rf.vals } }

/-- A register that no select register addresses. -/
def State.reg (s : State) (pg off : Nat) : Word := s.regI pg off 0
def State.setReg (s : State) (pg off : Nat) (w : Word) : State := s.setRegI pg off 0 w

/-- A field of a register. -/
def State.fld (s : State) (pg off lo n : Nat) : Nat := bitsOf (s.reg pg off).toNat lo n
def State.fldI (s : State) (pg off idx lo n : Nat) : Nat := bitsOf (s.regI pg off idx).toNat lo n

/-- The index with which a register access addresses a register: the value of its page's select register. -/
def State.selIdx (s : State) (pg off : Nat) : Nat :=
  match pageType pg with
  | none => 0
  | some (t, _) => match selOf t off with
    | none => 0
    | some o => (s.reg pg o).toNat

/-- Replaces a field. -/
def setBits (w : Word) (lo n v : Nat) : Word :=
  BitVec.ofNat 32 (w.toNat - bitsOf w.toNat lo n * 2 ^ lo + v % 2 ^ n * 2 ^ lo)

def State.setFld (s : State) (pg off lo n v : Nat) : State := s.setReg pg off (setBits (s.reg pg off) lo n v)

/-- Adds to a counter that stops at 0xFFFF_FFFF. -/
def State.bump (s : State) (pg off n : Nat) : State := s.setReg pg off (satAdd32 (s.reg pg off) n)

/-- Adds to a 64-bit counter held as a _LO/_HI pair (R5). -/
def State.bump64 (s : State) (pg lo n : Nat) : State :=
  let v := (s.reg pg lo).toNat + (s.reg pg (lo + 4)).toNat * 2 ^ 32 + n
  (s.setReg pg lo (BitVec.ofNat 32 v)).setReg pg (lo + 4) (BitVec.ofNat 32 (v / 2 ^ 32))

/-- Bits of the RW-S fields of a register (Table 2-9). -/
def shadowMask (pg off : Nat) : Word := match pageType pg with
  | none => 0
  | some (t, _) => BitVec.ofNat 32 (accMask (regFields t off) .rws)

/-- Applies every pending RW-S value of a page (R33). DEDUCED: Log 54. -/
def State.commitShadow (s : State) (pg : Nat) : State :=
  { s with rf := { s.rf with
    vals := s.rf.shadow.foldl (fun v (k, w) =>
      if k.1 = pg then
        let m := shadowMask k.1 k.2.1
        AL.put k ((AL.getD k (regReset k.1 k.2.1) v &&& ~~~m) ||| (w &&& m)) v
      else v) s.rf.vals
    shadow := s.rf.shadow.filter (fun p => p.1.1 != pg) } }

/-- Applies the pending RW-S value of one register, at a boundary of its own (R33). -/
def State.commitReg (s : State) (pg off : Nat) : State :=
  let k := regKeyAt pg off 0
  match AL.get k s.rf.shadow with
  | none => s
  | some w =>
    let m := shadowMask pg off
    { s with rf := { s.rf with
      vals := AL.put k ((AL.getD k (regReset pg off) s.rf.vals &&& ~~~m) ||| (w &&& m)) s.rf.vals, shadow := AL.del k s.rf.shadow } }

/-! ### Locks (R34 to R36) -/

/-- A word of bit fields: (lowest bit, width, value). -/
def packBits (fs : List (Nat × Nat × Nat)) : Word := BitVec.ofNat 32 (fs.foldl (fun n f => n + f.2.2 % 2 ^ f.2.1 * 2 ^ f.1) 0)

/-- The host is one agent whichever link it uses (Table 2-11). -/
def Agent.same : Agent → Agent → Bool
  | .host _, .host _ => true
  | .core a, .core b => a == b
  | _, _ => false

/-- The owner in PG_LOCK: a page of a firmware core belongs to it from reset (R36). -/
def State.lockWord (s : State) (pg : Nat) : Word :=
  match AL.get (pg, 0x48, 0) s.rf.vals, corePage pg with
  | some w, _ => w
  | none, some c => packBits [(4, 3, c), (0, 2, 2)]
  | none, none => 0

/-- The owner of a page. -/
def State.lockOwner (s : State) (pg : Nat) : Option Agent :=
  let w := (s.lockWord pg).toNat
  if bitsOf w 0 2 = 1 then some (.host .a) else if bitsOf w 0 2 = 2 then some (.core (bitsOf w 4 3)) else none

/-- Another agent than `ag` holds the page (R35). -/
def State.heldByOther (s : State) (ag : Agent) (pg : Nat) : Bool :=
  match s.lockOwner pg with
  | some o => !Agent.same o ag
  | none => false

/-! ### Power and clocks (20) -/

/-- Every unit that is not fenced runs: ACTIVE or CAPPED (Table 20-2). -/
def State.running (s : State) : Bool := s.pw.st == .active || s.pw.st == .capped

/-- SEC, PMC and the host links run. -/
def State.awake (s : State) : Bool := s.running || s.pw.st == .unleavened

/-- A power or thermal emergency holds (R482, R483). -/
def State.emergency (s : State) : Bool := s.pw.brown || s.pw.hot

/-- The safe clamp of Table 18-9 is in force: PMC is down while the node runs. -/
def State.clamped (s : State) : Bool := s.awake && !(AL.get 1 s.fw.cores).any (·.up)

/-- Clock of the tile and Bench-controller islands. PRESUMED: Log 56. -/
def State.clockMhz (s : State) : Nat := if s.clamped then min 800 s.pw.mhz else s.pw.mhz

/-! ### Fences -/

def State.pageFenced (s : State) (pg : Nat) : Bool := s.rf.fenced.contains pg
def State.tileFenced (s : State) (t : Nat) : Bool := s.pageFenced (pgTile t 0)
def State.nodeFenced (s : State) : Bool := s.lease.st == .fenced
def State.fencePage (s : State) (pg : Nat) : State :=
  if s.rf.fenced.contains pg then s else { s with rf := { s.rf with fenced := s.rf.fenced ++ [pg] } }

/-- The page lets its block take new work (R29). DEDUCED: Log 15. -/
def State.pageAdmits (s : State) (pg : Nat) : Bool := s.fld pg 0x18 0 1 == 1 && s.fld pg 0x18 1 1 == 0 && !s.pageFenced pg

/-- A block takes new work: in ACTIVE every unit runs unless it is fenced (Table 20-2), and once software has written its PG_CTL that
decides (R29). DEDUCED: Log 15. -/
def State.unitAdmits (s : State) (pg : Nat) : Bool :=
  if AL.has (regKeyAt pg 0x18 0) s.rf.vals then s.pageAdmits pg else !s.pageFenced pg

/-- A channel that may be used: its tile and its controller are not fenced. -/
def State.channelOk (s : State) (ch : Nat) : Bool := !s.tileFenced (ch / 16) && !s.pageFenced (pgMchn ch)

/-! ### Host link -/

def State.link (s : State) : Link → LinkRec | .a => s.host.a | .b => s.host.b
def State.setLink (s : State) (l : Link) (r : LinkRec) : State :=
  match l with
  | .a => { s with host := { s.host with a := r } }
  | .b => { s with host := { s.host with b := r } }
def State.anySession (s : State) : Bool := s.host.a.sessionOpen || s.host.b.sessionOpen

/-- Sends a sequenced body if the replay buffer of 1,024 flits has room, else holds it behind those already held (R459).
DESIGN CHOICE: Log 11. -/
def State.emitFlit (s : State) (l : Link) (b : FlitBody) : State :=
  let r := s.link l
  if r.stalled.isEmpty && decide (r.replayFlits + b.flits ≤ 1024) then
    (s.setLink l { r with replay := r.replay ++ [((r.fseqTx + b.flits - 1) % 4096, b)], fseqTx := (r.fseqTx + b.flits) % 4096 }).bump64
      (pgHlnk l) 0x128 b.flits
  else s.setLink l { r with stalled := r.stalled ++ [b] }

/-- Sends the waiting pushes and messages that the P units allow, in issue order (R460). -/
def State.drainWaiting (s : State) (l : Link) : Nat → State
  | 0 => s
  | n + 1 =>
    let r := s.link l
    match r.waiting with
    | [] => s
    | t :: ts =>
      if t.pCost ≤ r.pCred && s.host.activeWant.isNone then
        State.drainWaiting ((s.setLink l { r with waiting := ts, pCred := r.pCred - t.pCost }).emitFlit l (.txn t)) l n
      else s

/-- Issues a push or a message on the active link; with no session on any link it is discarded (R465, R471). -/
def State.hostSend (s : State) (t : HostTxn) : State :=
  match s.host.active with
  | none => s
  | some l =>
    let r := s.link l
    (s.setLink l { r with waiting := r.waiting ++ [t] }).drainWaiting l (r.waiting.length + 1)

/-- A link carries flits in INIT and UP (R460). -/
def State.linkTalks (s : State) (l : Link) : Bool := (s.link l).ls == .init || (s.link l).ls == .up

/-- Sends a completion on a link (R462, R464): it waits for no credit. -/
def State.hostCpl (s : State) (l : Link) (tag : Nat) (ok : Bool) (data : List Byte) : State :=
  s.emitFlit l (.txn (.cpl tag ok data))

/-! ### Interrupts (R37) -/

/-- Sends a page's interrupt to the destinations of IRQ_ROUTE. -/
def State.raiseIrq (s : State) (pg : Nat) : State :=
  let core := s.fld pg 0x2C 28 3
  let s := if core = 7 then s else { s with rf := { s.rf with coreMsgs := s.rf.coreMsgs ++ [(core, pg)] } }
  if s.fld pg 0x2C 31 1 = 1 then s.hostSend (.msg (s.fld pg 0x2C 0 11)) else s

/-- Sets IRQ_STAT bits, reserved ones apart (R7); an interrupt is raised when (IRQ_STAT AND IRQ_EN) changes from zero (R37). -/
def State.setIrq (s : State) (pg : Nat) (bits : Nat) : State :=
  let old := s.reg pg 0x20
  let new := old ||| (BitVec.ofNat 32 bits &&& BitVec.ofNat 32 (irqBits pg))
  let en := s.reg pg 0x24
  let s' := s.setReg pg 0x20 new
  if old &&& en = 0 ∧ new &&& en ≠ 0 then s'.raiseIrq pg else s'

/-- After a write of IRQ_STAT or IRQ_EN that leaves (IRQ_STAT AND IRQ_EN) non-zero. -/
def State.irqAgain (s : State) (pg : Nat) : State :=
  if s.reg pg 0x20 &&& s.reg pg 0x24 ≠ 0 then s.raiseIrq pg else s

/-! ### Errors (R32, R38, R39) -/

/-- Records a refused write. -/
def State.cfgRej (s : State) (pg : Nat) : State :=
  if s.fld pg 0x1C 6 1 = 1 then s else (s.setFld pg 0x1C 6 1 1).setIrq pg (2 ^ 29)

/-- Captures an uncorrectable or protocol error. -/
def State.logErr (s : State) (pg code unit detail : Nat) : State :=
  let s := s.bump pg 0x40 1
  if s.fld pg 0x30 31 1 = 1 then s.setFld pg 0x30 30 1 1
  else
    ((((s.setReg pg 0x30 (BitVec.ofNat 32 (2 ^ 31 + code % 256 * 2 ^ 16 + unit % 65536))).setReg pg 0x34
      (BitVec.ofNat 32 s.nrt)).setReg pg 0x38 (BitVec.ofNat 32 (s.nrt / 2 ^ 32))).setReg pg 0x3C
      (BitVec.ofNat 32 detail)).setIrq pg (2 ^ 31)

/-- Counts a correctable error in the page's leaky bucket. -/
def State.corrErr (s : State) (pg : Nat) : State :=
  let s := s.bump pg 0x40 1
  let level := s.fld pg 0x44 0 8
  if level = s.fld pg 0x44 24 8 then (s.setFld pg 0x44 0 8 0).setIrq pg (2 ^ 30) else s.setFld pg 0x44 0 8 (level + 1)

/-! ### Free values -/

/-- Takes the next number of the counter to which a free value is applied. DESIGN CHOICE: Log 5. -/
def State.nextFresh (s : State) : State := { s with fresh := s.fresh + 1 }

/-! ### Memory -/

/-- Bulk-window address of byte `b` of Bench of tile `t`, and of Rack channel `c` (Table 19-5). -/
def benchAddr (t b : Nat) : Nat := 2 ^ 44 + t * 2 ^ 31 + b
def rackAddr (c b : Nat) : Nat := c * 2 ^ 31 + b

/-- Byte of the ring window at control-space address `a`: quarter q lies in the ring region of tile 6q (Tables 10-1, 19-5). -/
def ringAddr (a : Nat) : Nat :=
  let o := a - 0x08000000
  benchAddr (o / 0x02000000 * 6) (1972 * 2 ^ 20 + o % 0x02000000)

def State.ringRead (s : State) (a n : Nat) : List Byte := s.mem.readN (ringAddr a) n
def State.ringWrite (s : State) (a : Nat) (d : List Byte) : State := { s with mem := s.mem.writeN (ringAddr a) d }

end Sys2Proof.Machine
end

