-- ==== Sys2Proof/Machine/Rings.lean ====
section
/-!
DEFINITION. Submission rings: areas, creation, doorbells, completion records and state block (R466 to R470, R505).
-/

namespace Sys2Proof.Machine

def State.ring (s : State) (n : Nat) : Ring := AL.getD n .blank s.host.rings
def State.setRing (s : State) (n : Nat) (r : Ring) : State :=
  { s with host := { s.host with rings := AL.put n r s.host.rings } }

/-- A field of a ring's register in the DBEL page (Table 19-12). -/
def State.rcfg (s : State) (n off lo w : Nat) : Nat := s.fldI pgDbel off n lo w
def State.ringDomain (s : State) (n : Nat) : Nat := s.rcfg n 0x10C 16 10
def State.ringMirror (s : State) (n : Nat) : Bool := s.rcfg n 0x10C 30 1 == 1
/-- Submission entries, and completion records (R466). -/
def State.sqSize (s : State) (n : Nat) : Nat := 64 * 2 ^ s.rcfg n 0x10C 8 4
def State.cqSize (s : State) (n : Nat) : Nat := 64 * 2 ^ s.rcfg n 0x10C 4 4
/-- Control-space addresses of the three areas. -/
def State.sqBase (s : State) (n : Nat) : Nat := 0x08000000 + s.rcfg n 0x110 0 15 * 4096
def State.cqBase (s : State) (n : Nat) : Nat := 0x08000000 + s.rcfg n 0x114 0 15 * 4096
def State.dataBase (s : State) (n : Nat) : Nat := 0x08000000 + s.rcfg n 0x118 0 15 * 4096
def State.dataLen (s : State) (n : Nat) : Nat := s.rcfg n 0x11C 0 14 * 4096

/-- The areas of ring n as (first byte, bytes): submission, completion with the state block, data. -/
def State.ringAreas (s : State) (n : Nat) : List (Nat × Nat) :=
  [(s.sqBase n, s.sqSize n * 64), (s.cqBase n, s.cqSize n * 32 + 64), (s.dataBase n, s.dataLen n)]

def overlaps (a b : Nat × Nat) : Bool := decide (a.1 < b.1 + b.2) && decide (b.1 < a.1 + a.2)

/-- The quarter of the ring window in which a control-space address lies. -/
def quarterOf (a : Nat) : Nat := (a - 0x08000000) / 0x02000000

/-- An area that lies wholly in one quarter of the ring window. -/
def areaQuarter (a : Nat × Nat) : Option Nat :=
  if 0x08000000 ≤ a.1 ∧ a.1 + a.2 ≤ 0x10000000 ∧ quarterOf a.1 = quarterOf (a.1 + a.2 - 1) then some (quarterOf a.1) else none

/-- The quarter in which all three areas of ring n lie. -/
def State.ringQuarter (s : State) (n : Nat) : Option Nat :=
  match (s.ringAreas n).map areaQuarter with
  | [some a, some b, some c] => if a = b ∧ b = c then some a else none
  | _ => none

/-- RSTAT.STATE (Table 19-12). -/
def Ring.stateNum (r : Ring) : Nat :=
  match r.st with
  | .disabled => 0 | .running => if r.blocked then 2 else 1 | .draining => 3 | .lost => 4

/-- Ring state block (Table 19-7). -/
def State.stateBlock (s : State) (r : Ring) : List Byte :=
  leBytes 2 r.sqHead ++ leBytes 2 r.cqTail ++ leBytes 1 (b2n r.phase) ++ leBytes 1 (Ring.stateNum r) ++ leBytes 2 0 ++
    leBytes 8 r.done.toNat ++ leBytes 8 r.fail.toNat ++ leBytes 8 s.nrt ++ leBytes 32 0

/-- Completion record (Table 2-20). -/
def recordBytes (c : Completion) (phase : Bool) (time : Nat) : List Byte :=
  leBytes 4 c.tag.toNat ++ leBytes 1 c.status ++ leBytes 1 c.opcode ++ leBytes 2 (c.context + b2n phase * 2 ^ 15) ++
    leBytes 4 c.c0 ++ leBytes 4 c.c1 ++ leBytes 2 c.covG ++ leBytes 2 c.covE ++ leBytes 4 (min c.clip 0xFFFFFFFF) ++ leBytes 8 time

/-- Updates the state block, and pushes it when MIRROR_EN = 1 (R469 steps 2 and 3). DEDUCED: Log 71. -/
def State.postBlock (s : State) (n : Nat) : State :=
  let r := s.ring n
  let blk := s.stateBlock r
  let s := if r.st = .lost then s else s.ringWrite (s.cqBase n + s.cqSize n * 32) blk
  if s.ringMirror n then s.hostSend (.push (s.rcfg n 0x124 0 16) (s.cqSize n * 32) blk) else s

/-- Records per MSG and delay of an RVEC value, with 0 treated as 1 (Table 19-12). -/
def rvecCount (v : Word) : Nat := max 1 (bitsOf v.toNat 8 8)
def rvecDelay (v : Word) : Nat := max 1 (bitsOf v.toNat 0 8)

/-- Sends the ring's interrupt message, with the RVEC that its newest record was written under (R466). -/
def State.ringMsg (s : State) (n : Nat) : State :=
  (s.setRing n { s.ring n with unsig := 0 }).hostSend (.msg (bitsOf (s.ring n).rvec.toNat 16 11))

/-- R469 step 4: counts a written record towards the ring's interrupt message. -/
def State.ringIrq (s : State) (n : Nat) : State :=
  let r := s.ring n
  let v := s.regI pgDbel 0x120 n
  if bitsOf v.toNat 31 1 = 0 then s
  else
    let s := s.setRing n { r with unsig := r.unsig + 1, unsigAt := if r.unsig = 0 then s.nrt else r.unsigAt, rvec := v }
    if rvecCount v ≤ r.unsig + 1 then s.ringMsg n else s

/-- Writes a record at CQ_TAIL, advances it and pushes the record (R469 steps 1 and 3). -/
def State.writeRecord (s : State) (n : Nat) (c : Completion) (time : Nat) : State :=
  let r := s.ring n
  let b := recordBytes c r.phase time
  let s := if r.st = .lost then s else s.ringWrite (s.cqBase n + r.cqTail * 32) b
  let wrap := r.cqTail + 1 == s.cqSize n
  let s := s.setRing n { r with cqTail := if wrap then 0 else r.cqTail + 1, phase := if wrap then !r.phase else r.phase }
  if s.ringMirror n then s.hostSend (.push (s.rcfg n 0x124 0 16) (r.cqTail * 32) b) else s

/-- The completion of a command of ring n (R469): record, counters, state block, mirror, interrupt. A suppressed record is
not written but counts in DONE (R354, R501). A DRAINING ring whose last command this was becomes DISABLED (R470). -/
def State.ringComplete (s : State) (n : Nat) (c : Completion) (suppressed : Bool) : State :=
  let s := if suppressed then s else s.writeRecord n c s.nrt
  let r := s.ring n
  let left := r.inflight - 1
  let s := s.setRing n { r with
    done := r.done + 1
    fail := if 0x10 ≤ c.status then r.fail + 1 else r.fail
    inflight := left
    st := if r.st = .draining ∧ left = 0 then .disabled else r.st }
  let s := s.postBlock n
  if suppressed then s else s.ringIrq n

/-- Free completion records (R469). -/
def State.freeRecords (s : State) (n : Nat) : Nat :=
  let r := s.ring n
  s.cqSize n - 1 - (r.cqTail + s.cqSize n - r.cqHead) % s.cqSize n

/-- A completion record of ring n is free beyond those that its fetched commands need (R469). DEDUCED: Log 71. -/
def State.noticeRoom (s : State) (n : Nat) : Bool :=
  ((s.ring n).st == .running || (s.ring n).st == .draining) && decide ((s.ring n).inflight < s.freeRecords n)

/-- An address range that lies wholly in the data area of a ring of the domain that is RUNNING, BLOCKED or DRAINING (R467). -/
def State.inDataArea (s : State) (domain addr len : Nat) : Bool :=
  s.host.rings.any (fun (n, r) =>
    (r.st == .running || r.st == .draining) && s.ringDomain n == domain &&
    decide (s.dataBase n ≤ addr ∧ addr + len ≤ s.dataBase n + s.dataLen n))

/-! ### Creation and doorbells -/

/-- The conditions on which a write of ENABLE = 1 is refused (R466), given that the domain is ACTIVE or not. -/
def State.ringRefused (s : State) (n : Nat) (domainActive : Bool) : Bool :=
  let r := s.ring n
  r.st == .draining || r.st == .lost || !domainActive || decide (s.rcfg n 0x11C 0 14 = 0) ||
  (match s.ringQuarter n with
   | none => true
   | some q => s.tileFenced (6 * q)) ||
  s.host.rings.any (fun (m, o) => m != n && o.st != .disabled &&
    (s.ringAreas m).any (fun a => (s.ringAreas n).any (overlaps a)))

/-- Creates ring n (R466): areas zeroed, heads and counters 0, PHASE 1, RUNNING. -/
def State.ringStart (s : State) (n : Nat) : State :=
  let s := { s with mem := Mem.zero (ringAddr (s.cqBase n)) (s.cqSize n * 32 + 64) s.mem }
  s.setRing n { Ring.blank with st := .running, phase := true }

/-- Stops fetching (R470). -/
def State.ringStop (s : State) (n : Nat) : State :=
  let r := s.ring n
  match r.st with
  | .disabled => s
  | .draining => s
  | _ => s.setRing n { r with st := if r.inflight = 0 then .disabled else .draining }

/-- A discarded doorbell write (R468, R469). -/
def State.dbRej (s : State) (ring value : Nat) : State :=
  ((s.bump pgDbel 0x144 1).logErr pgDbel 1 ring value).setIrq pgDbel 1

/-- SQ_DB (R468). -/
def State.sqDoorbell (s : State) (value : Nat) : State :=
  let n := bitsOf value 16 12
  let tail := bitsOf value 0 16
  let r := s.ring n
  if r.st = .disabled ∨ r.st = .lost ∨ s.sqSize n ≤ tail then s.dbRej n value
  else s.setRing n { r with tail := tail }

/-- CQ_DB (R469). -/
def State.cqDoorbell (s : State) (value : Nat) : State :=
  let n := bitsOf value 16 12
  let head := bitsOf value 0 16
  let r := s.ring n
  let size := s.cqSize n
  if r.st = .disabled ∨ r.st = .lost ∨ size ≤ head ∨
      (r.cqTail + size - r.cqHead) % size < (head + size - r.cqHead) % size then s.dbRej n value
  else s.setRing n { r with cqHead := head }

/-- CQ_IRQ_DELAY (R469 step 4): DELAY_US after the first record not yet signalled, the message is sent. -/
def State.cqDelay (s : State) (n : Nat) : State :=
  let r := s.ring n
  if 0 < r.unsig ∧ r.unsigAt + usTicks (rvecDelay r.rvec) ≤ s.nrt then s.ringMsg n else s

end Sys2Proof.Machine
end

