-- ==== Sys2Proof/Machine/HostLink.lean ====
section
/-!
DEFINITION. The Turura links: replay, credits, link states, sessions' ends, fail-over, and the access rules of the three
address spaces (R459 to R465, R471 to R474).
-/

namespace Sys2Proof.Machine

/-! ### Active role (R471) -/

/-- Link `l` becomes active, which FAILOVERS counts (Table 19-9). -/
def State.takeActive (s : State) (l : Link) : State :=
  ({ s with host := { s.host with active := some l, activeWant := none } } : State).bump (pgHlnk l) 0x134 1

/-- The active role moves to link `l`: FAILOVER is set too. -/
def State.becomeActive (s : State) (l : Link) : State :=
  ((s.takeActive l).setIrq (pgHlnk l) 8).drainWaiting l ((s.link l).waiting.length + 1)

/-- Pushes and messages of a link that its host has not acknowledged, in order, then those not yet sent. -/
def LinkRec.unsent (r : LinkRec) : List HostTxn :=
  (r.replay.filterMap (fun p => match p.2 with | .txn (.cpl _ _ _) => none | .txn t => some t | _ => none)) ++
  (r.stalled.filterMap (fun b => match b with | .txn (.cpl _ _ _) => none | .txn t => some t | _ => none)) ++ r.waiting

/-- Link `l` stops being active. The other link takes the role if it holds a session, and sends again what `l` had not had
acknowledged; otherwise what is not yet sent is discarded (R471). -/
def State.loseActive (s : State) (l : Link) : State :=
  if s.host.active ≠ some l then s
  else
    let u := LinkRec.unsent (s.link l)
    let keep (b : FlitBody) : Bool := match b with | .txn (.push _ _ _) => false | .txn (.msg _) => false | _ => true
    let s := s.setLink l { s.link l with waiting := [], stalled := (s.link l).stalled.filter keep }
    let s := { s with host := { s.host with active := none, activeWant := none } }
    let o := l.other
    if (s.link o).sessionOpen then (s.setLink o { s.link o with waiting := u ++ (s.link o).waiting }).becomeActive o else s

/-- HOST locks return to NONE when no link holds a session (R36, R383). -/
def State.dropHostLocks (s : State) : State :=
  if s.anySession then s
  else { s with rf := { s.rf with vals := s.rf.vals.map (fun (k, w) =>
    if k.2.1 = 0x48 ∧ bitsOf w.toNat 0 2 = 1 then (k, 0) else (k, w)) } }

/-- The session of link `l` ends (R383, R461): an UP link returns to INIT. DEDUCED: Log 44. -/
def State.endSession (s : State) (l : Link) : State :=
  let r := s.link l
  if r.sessionOpen then
    let s := s.setLink l { r with session := .none, ls := if r.ls = .up then .init else r.ls }
    ((s.loseActive l).setIrq (pgHlnk l) 4).dropHostLocks
  else s.setLink l { r with session := .none }

/-! ### Link states (R461, R473) -/

/-- Power is good for the links (R461): the node has begun to start. -/
def State.powerGood (s : State) : Bool := s.pw.st != .off && s.pw.st != .standby

/-- A DOWN link starts training when power is good, RSTREQ_N is released and the 1 ms hold has passed (R461, R473). -/
def State.tryTrain (s : State) (l : Link) : State :=
  let r := s.link l
  if r.ls = .down ∧ s.powerGood ∧ r.rstreq = false ∧ r.rstAt + msTicks 1 ≤ s.nrt ∧ r.trainAt ≤ s.nrt then
    s.setLink l { r with ls := .training, trainAt := s.nrt }
  else s

/-- A link goes DOWN: its session ends, and what it had not had acknowledged is moved or lost (R459, R471). -/
def State.linkGoesDown (s : State) (l : Link) : State :=
  let s := s.endSession l
  let r := s.link l
  let was := r.ls
  let s := s.setLink l { r with
    ls := .down, lanes := 0, replay := [], stalled := [], waiting := [], failCnt := 0, pCred := 0, ackRx := false
    fseqTx := 0, fseqRx := 0, trainAt := s.nrt, imgKind := 0xFF, imgBytes := [] }
  if was = .down then s else s.setIrq (pgHlnk l) 2

/-- A trained link reaches INIT: all 8 lanes, credits advertised (R460, R461). -/
def State.linkInit (s : State) (l : Link) : State :=
  let r := s.link l
  if r.ls = .training then
    ((s.setLink l { r with ls := .init, lanes := 0xFF, lastRx := s.nrt }).bump (pgHlnk l) 0x130 1).setIrq (pgHlnk l) 1
  else s

/-- Training that does not reach INIT within 100 ms returns the link to DOWN; it is tried again after 100 ms (R461). -/
def State.trainFailed (s : State) (l : Link) (lane : Nat) : State :=
  let r := s.link l
  if r.ls = .training then
    (s.setLink l { r with ls := .down, lanes := 0, trainAt := s.nrt + msTicks 100 }).logErr (pgHlnk l) 3 lane 0
  else s

/-- RSTREQ_N asserted (R473). -/
def State.rstAsserted (s : State) (l : Link) : State :=
  let s := s.linkGoesDown l
  s.setLink l { s.link l with rstreq := true, rstAt := s.nrt }

/-- RSTREQ_N released: the link trains at the later of the release and 1 ms after the assertion (R473). -/
def State.rstReleased (s : State) (l : Link) : State :=
  let r := s.link l
  (s.setLink l { r with rstreq := false, trainAt := max s.nrt (r.rstAt + msTicks 1) }).tryTrain l

/-- RETRAIN (R474): the session ends and the link retrains. -/
def State.doRetrain (s : State) (l : Link) : State := (s.linkGoesDown l).tryTrain l

/-! ### Flits (R459, R460) -/

/-- Flits wait while the replay buffer is full; as room frees they are sent in order. -/
def State.drainStalled (s : State) (l : Link) : Nat → State
  | 0 => s
  | n + 1 =>
    let r := s.link l
    match r.stalled with
    | [] => s
    | b :: bs =>
      if r.replayFlits + b.flits ≤ 1024 then
        let s := (s.setLink l { r with stalled := [] }).emitFlit l b
        State.drainStalled (s.setLink l { s.link l with stalled := bs }) l n
      else s

/-- Entries of the replay buffer that an ACK_SEQ frees: all up to and including it, in the window of 4,096. -/
def ackReplay (ackSeq next : Nat) (r : List (Nat × FlitBody)) : List (Nat × FlitBody) :=
  r.filter (fun p => (next + 4096 - ackSeq - 1) % 4096 > (next + 4096 - p.1 - 1) % 4096)

/-- A role move that waited for the old link's acknowledgements is made when there are none left (R471). -/
def State.finishMove (s : State) : State :=
  match s.host.activeWant, s.host.active with
  | some w, some o =>
    if (s.link o).replay.isEmpty ∧ (s.link o).stalled.isEmpty ∧ (s.link w).sessionOpen then
      let moved := (s.link o).waiting
      let s := s.setLink o { s.link o with waiting := [] }
      (s.setLink w { s.link w with waiting := moved ++ (s.link w).waiting }).becomeActive w
    else s
  | _, _ => s

/-- Acknowledgement and credits of a received flit (R459, R460). -/
def State.flitAck (s : State) (l : Link) (ackSeq : Option Nat) (crClass crUnits : Nat) : State :=
  let r := s.link l
  if r.ls = .down ∨ r.ls = .training then s
  else
    let r := { r with
      lastRx := s.nrt
      replay := match ackSeq with | none => r.replay | some a => ackReplay (a % 4096) r.fseqTx r.replay
      failCnt := match ackSeq with
        | none => r.failCnt
        | some a => if (r.fseqTx + 8191 - a % 4096) % 4096 ≤ (r.fseqTx + 8191 - r.failSeq) % 4096 then 0 else r.failCnt
      pCred := if crClass = 0 then min 65535 (r.pCred + crUnits) else r.pCred }
    let s := (s.setLink l r).bump64 (pgHlnk l) 0x120 1
    let s := s.drainStalled l (r.stalled.length + 1)
    (s.drainWaiting l ((s.link l).waiting.length + 1)).finishMove

/-- RETRY_REQ (R459): replay from FSEQ; the eighth failed replay in a row of one FSEQ takes the link DOWN. -/
def State.retry (s : State) (l : Link) (fseq : Nat) : State :=
  let r := s.link l
  if r.ls = .down ∨ r.ls = .training then s
  else
    let cnt := if r.failCnt ≠ 0 ∧ r.failSeq = fseq then r.failCnt + 1 else 1
    let s := (s.setLink l { r with failSeq := fseq, failCnt := cnt, lastRx := s.nrt }).bump (pgHlnk l) 0x118 1
    let n := ((r.replay.filter (fun p => (p.1 + 4096 - fseq) % 4096 < 2048)).foldl (fun n p => n + p.2.flits) 0)
    let s := s.bump64 (pgHlnk l) 0x128 n
    if 9 ≤ cnt then (s.logErr (pgHlnk l) 1 0 fseq).linkGoesDown l |>.tryTrain l else s

/-- No flit for 10 µs (R459). -/
def State.flitSilence (s : State) (l : Link) : State :=
  let r := s.link l
  if (r.ls = .init ∨ r.ls = .up) ∧ r.lastRx + usTicks 10 ≤ s.nrt then (s.linkGoesDown l).tryTrain l else s

/-! ### Access rules (R26, R462, Table 19-5) -/

/-- A refused access of a host link: counted and captured as ACCESS. -/
def State.access (s : State) (l : Link) (unit addr : Nat) : State :=
  (s.bump (pgHlnk l) 0x11C 1).logErr (pgHlnk l) 2 unit (addr % 2 ^ 32)

/-- A refused READ: a completion error with LENGTH bytes of 0xFF. -/
def State.readError (s : State) (l : Link) (tag len unit addr : Nat) : State :=
  (s.access l unit addr).hostCpl l tag false (List.replicate len 0xFF)

/-- ACTIVE_REQ on link `l` (R471): refused without a session, without effect on the active link. -/
def State.doActiveReq (s : State) (l : Link) : State :=
  if !(s.link l).sessionOpen then s.cfgRej (pgHlnk l)
  else if s.host.active = some l then s
  else match s.host.active with
    | none => s.becomeActive l
    | some _ => State.finishMove { s with host := { s.host with activeWant := some l } }

/-- Completion area of a ring that is not DISABLED (Table 19-5). -/
def State.inCompletionArea (s : State) (addr len : Nat) : Bool :=
  s.host.rings.any (fun (n, r) => r.st != .disabled && overlaps (addr, len) (s.cqBase n, s.cqSize n * 32 + 64))

/-- What forbids an access of the ring window, if anything (Table 19-5): the UNIT of the ACCESS capture. -/
def State.ringWindowBad (s : State) (l : Link) (addr len : Nat) (isWrite : Bool) : Option Nat :=
  if !(s.link l).sessionOpen then some 3
  else if len < 4 ∨ 4096 < len ∨ addr % 4 ≠ 0 ∨ len % 4 ≠ 0 ∨ addr / 4096 ≠ (addr + len - 1) / 4096 then some 2
  else if addr < 0x08000000 ∨ 0x10000000 < addr + len then some 1
  else if s.tileFenced (6 * quarterOf addr) then some 5
  else if isWrite && s.inCompletionArea addr len then some 6
  else none

/-- A posted write into the ring window (R463). -/
def State.ringWindowPut (s : State) (l : Link) (addr : Nat) (d : List Byte) : State :=
  match s.ringWindowBad l addr d.length true with
  | some u => s.access l u addr
  | none => s.ringWrite addr d

/-- A READ of the ring window (R463, Table 19-5): the data, or a completion error. -/
def State.ringWindowRead (s : State) (l : Link) (tag addr len : Nat) : State :=
  match s.ringWindowBad l addr len false with
  | some u => s.readError l tag len u addr
  | none => s.hostCpl l tag true (s.ringRead addr len)

end Sys2Proof.Machine
end

