-- ==== Sys2Proof/Machine/Finish.lean ====
section
/-!
DEFINITION. Messages of the node on a connection (R319, Table 13-8) and the end of an admitted command: its output, its
record or its response (R44, R45, R61, R467, R469, R501).
-/

namespace Sys2Proof.Machine

/-! ### Connections -/

/-- An open connection by index, or by ID. Numbers from 2^24 on name no connection (`nodeSource`). -/
def State.conn (s : State) (c : Nat) : Option Conn :=
  if 2 ^ 24 ≤ c then none else (AL.get (c % 2 ^ 18) s.net.conns).map (fun k => { k with index := c % 2 ^ 18 })
def State.setConn (s : State) (c : Conn) : State := { s with net := { s.net with conns := AL.put c.index c s.net.conns } }
/-- The source of the commands that the node gives itself (R453): its completions go nowhere. -/
def nodeSource : Source := .conn (2 ^ 24) 0
/-- Connection ID: generation and index (Table 13-1). -/
def connId (c : Conn) : Nat := c.gen * 2 ^ 18 + c.index
/-- The open connection that a 24-bit connection ID names. -/
def State.connOf (s : State) (id : Nat) : Option Conn :=
  match s.conn id with
  | none => none
  | some c => if c.gen = id / 2 ^ 18 then some c else none

/-- Queues a message on a lane of a connection under the next MSG_ID (R324); it leaves by the pacer. -/
def State.sendMsg (s : State) (c : Conn) (lane : Lane) (epoch : Word) (bytes : List Byte) : State :=
  let id := AL.getD lane 0 c.nextMsg
  s.setConn { c with
    nextMsg := AL.put lane ((id + 1) % 2 ^ 24) c.nextMsg
    genMsg := AL.put lane (AL.getD lane 0 c.genMsg + 1) c.genMsg
    msgs := c.msgs ++ [⟨lane, id, epoch, bytes, 0, [], 0, s.nrt⟩] }

/-- A control-class packet (Table 13-2). -/
def State.sendCtl (s : State) (conn : Nat) (p : CtlPkt) : State := { s with net := { s.net with ctl := s.net.ctl ++ [(conn, p)] } }

/-- Response header (Table 13-8). -/
def respHeader (reqMsg kind dataBytes : Nat) (tagValid : Bool) : List Byte :=
  leBytes 3 reqMsg ++ leBytes 1 (kind * 16 + b2n tagValid) ++ leBytes 4 dataBytes ++ leBytes 8 0

/-- A COMPLETION response (Table 13-8). A fenced node sends nothing on the fabric (R414). -/
def State.respond (s : State) (conn reqMsg : Nat) (epoch : Word) (c : Completion) (tagValid : Bool) (out : List Byte) : State :=
  if s.nodeFenced then s
  else match s.conn conn with
    | none => s
    | some k => s.sendMsg k .response epoch
        (respHeader reqMsg 0 (32 + out.length) tagValid ++ recordBytes c false s.nrt ++ out)

/-- Frees the slots of a request message (R326). -/
def State.freeReq (s : State) (conn msgId : Nat) : State :=
  match s.conn conn with
  | none => s
  | some k => s.setConn { k with inMsgs := k.inMsgs.filter (fun m => !(m.lane == .request && m.msgId == msgId)) }

/-! ### The end of a command -/

/-- What a command leaves when it ends: status, counts, coverage and output. -/
structure Result where
  status : Nat
  c0 : Nat := 0
  c1 : Nat := 0
  covE : Nat := 0
  covG : Nat := 0
  addr : Nat := 0
  out : List Byte := []
  clip : Nat := 0
  deriving DecidableEq, Repr

/-- What the run of a command answers: it ends, or it waits. -/
inductive OpRes where
  | done (s : State) (r : Result)
  | wait (s : State) (w : Wait) (c0 : Nat)   -- `c0` is added to the command's COUNT0
  deriving DecidableEq, Repr

/-- ST_OK with clipped values is ST_OK_CLIPPED (R61). -/
def okStatus (status clip : Nat) : Nat := if status = stOk ∧ 1 ≤ clip then stOkClipped else status

/-- The completion record of a command. -/
def completionOf (h : Hdr) (opcode : Nat) (r : Result) : Completion :=
  ⟨h.tag, okStatus r.status r.clip, opcode, h.context, r.c0, r.c1, r.covE, r.covG, r.clip⟩

/-- A remote operation that the node serves as target (R341, R501): it always gets its response. -/
def servedRemote (src : Source) (opcode : Nat) : Bool :=
  match src with | .ring _ => false | .conn _ _ => decide (0x10 ≤ opcode ∧ opcode ≤ 0x14)

/-- Delivers the end of a command to its source: output, then record or response (R467, R469, R501). -/
def State.deliver (s : State) (src : Source) (h : Hdr) (opcode : Nat) (r : Result) : State :=
  let c := completionOf h opcode r
  let sup := h.suppressOk && c.status == stOk
  match src with
  | .ring n =>
    let s := if r.out.isEmpty then s else s.ringWrite r.addr r.out
    s.ringComplete n c sup
  | .conn k m =>
    let s := s.freeReq k m
    if sup && r.out.isEmpty && !servedRemote src opcode then s else s.respond k m h.epoch c true r.out

def State.cmd (s : State) (id : Nat) : Option Cmd := s.cmds.list.find? (·.id == id)
def State.setCmd (s : State) (c : Cmd) : State :=
  { s with cmds := { s.cmds with list := s.cmds.list.map (fun d => if d.id = c.id then c else d) } }
def State.dropCmd (s : State) (id : Nat) : State :=
  { s with cmds := { s.cmds with list := s.cmds.list.filter (·.id != id) } }

/-- After a wait of a ring that ends with another status than ST_OK, the next SKIP descriptors of the ring are completed with
ST_ABORTED (R355). -/
def State.skipAfter (s : State) (src : Source) (op : Op) (status : Nat) : State :=
  let go (k : Nat) : State := match src with
    | .ring n => if status = stOk then s else s.setRing n { s.ring n with skip := k }
    | .conn _ _ => s
  match op with
  | .waitCount d => go d.skip
  | .waitWord d => go d.skip
  | _ => s

/-- Ends an admitted command. -/
def State.finish (s : State) (c : Cmd) (r : Result) : State :=
  ((s.dropCmd c.id).deliver c.src c.hdr c.op.code r).skipAfter c.src c.op r.status

/-- Ends the command of number `id`, if it is admitted. -/
def State.finishId (s : State) (id : Nat) (r : Result) : State :=
  match s.cmd id with
  | none => s
  | some c => s.finish c r

/-- A retry hint of R297: at least 10 µs and at most 1,000 µs. DESIGN CHOICE: Log 7. -/
def hint (n : Nat) : Nat := 10 + Config.hintUs n % 991

/-! ### Admission checks (R43) -/

/-- What a check answers: go on, refuse with a status and COUNT0, or leave the command where it is (R297). -/
inductive Verdict where
  | ok
  | refuse (status c0 : Nat)
  | stay
  deriving DecidableEq, Repr

/-- Step 4: whether an epoch is accepted (R418); on a connection with no composition it is 0 (R332). -/
def State.epochOk (s : State) (unbound : Bool) (e : Word) : Bool :=
  if unbound then e == 0
  else match s.lease.st with
    | .unleased => e == 0
    | _ => e == s.lease.cur || (match s.lease.prev with | some p => e == p && decide (s.nrt < s.lease.graceTill) | none => false)

/-- Status and COUNT0 of a refusal by epoch (R418). -/
def State.epochRefusal (s : State) : Nat × Nat :=
  if s.fld pgNode 0x21C 31 1 = 1 then (stReroute, s.fld pgNode 0x21C 0 16) else (stStaleEpoch, s.lease.cur.toNat)

/-- Steps 1 to 4 of Table 2-19; a domain that is not ACTIVE fails step 3 (R384). -/
def State.admit14 (s : State) (src : Source) (h : Hdr) (op : Op) : Verdict :=
  let bad := match op with | .bad _ => true | _ => h.flags &&& op.flagMask != h.flags
  if bad then .refuse stBadDescriptor 0
  else if s.nodeFenced then .refuse stFenced 0
  else
    let active := match AL.get h.domain s.sec.domains with | some d => d.st == .active | none => false
    let ctxOk := active && (match AL.get h.context s.cmds.ctxs with | some c => c.domain == h.domain | none => false)
    let (domOk, unbound) := match src with
      | .ring n => (s.ringDomain n == h.domain, false)
      | .conn k _ => match s.conn k with
        | none => (false, false)
        | some c => (c.domain == h.domain && (c.composition != 0xFFFF || op.unboundOk), c.composition == 0xFFFF)
    if !(ctxOk && domOk) then .refuse stAccess 0
    else if !s.epochOk unbound h.epoch then .refuse s.epochRefusal.1 s.epochRefusal.2
    else .ok

def State.inPartition (s : State) (ctx part : Nat) : Bool :=
  match AL.get ctx s.cmds.ctxs with | some c => c.partition == part | none => false

/-- The context of the region that a remote operation served by the node targets. -/
def State.targetContext (s : State) (src : Source) (op : Op) : Option Nat :=
  match src, op with
  | .conn _ _, .rmaRead d | .conn _ _, .rmaWrite d | .conn _ _, .rmaAdd d | .conn _ _, .rmaCas d =>
    (AL.get (d.handle % 65536) s.net.regions).bind (fun g => if g.st != .free && g.gen == d.handle / 65536 then some g.context else none)
  | _, _ => none

/-- Whether an ABORT's hold covers a command of header `h`, or a remote operation on a region of its scope (R292). -/
def State.holdCovers (s : State) (src : Source) (h : Hdr) (op : Op) (k : Hold) : Bool :=
  match k.scope with
  | 2 => h.domain == k.target
  | 3 => s.inPartition h.context k.target || (s.targetContext src op).any (fun c => s.inPartition c k.target)
  | _ => true

def isRemoteOp (op : Op) : Bool := decide (0x10 ≤ op.code ∧ op.code ≤ 0x14)

/-- A remote operation of a ring, which counts among the outbound ones; one that comes in counts among the admitted commands (R296,
R360). -/
def outward (src : Source) (op : Op) : Bool := (match src with | .ring _ => true | .conn _ _ => false) && isRemoteOp op

/-- Admitted commands of a sequence that wait to take effect (R91). -/
def State.mutatingWaits (s : State) (k : Nat × Nat) : Nat :=
  s.cmds.list.countP (fun c => !c.effected && (c.op.mutates c.hdr.domain).contains k)

/-- `XLAT.SEQ_QDEPTH` (R91): 0 is treated as 1, and values above 64 as 64. -/
def State.seqDepth (s : State) : Nat := max 1 (min 64 (s.fld pgXlat 0x108 0 7))

/-- Step 5 as far as it does not depend on the opcode's chapter: ABORT holds (R292), waiting FENCEs (R295), the admission
entries (R289, R296) and the commands of a sequence (R91). A ring's command stays; a connection's is answered ST_BUSY. An ABORT
behind a waiting FENCE of its own ring stays in the ring (R295). -/
def State.admit5 (s : State) (src : Source) (h : Hdr) (op : Op) : Verdict :=
  let busy (n : Nat) : Verdict := match src with | .ring _ => .stay | .conn _ _ => .refuse stBusy n
  let kind (o : Nat) := s.cmds.list.countP (fun c => c.op.code == o)
  let fenced := s.cmds.list.any (fun c => c.op == .fence && c.src.same src && c.hdr.context == h.context)
  match op with
  | .abort _ =>
    let behindFence := match src with
      | .ring _ => s.cmds.list.any (fun c => c.op == .fence && c.src.same src)
      | .conn _ _ => false
    if behindFence || decide (64 ≤ kind 0x30) then .stay else .ok
  | .fence => if fenced || decide (64 ≤ kind 0x31) then .stay else .ok
  | _ =>
    match s.cmds.holds.find? (s.holdCovers src h op) with
    | some k => busy ((k.till - s.nrt) / 100)
    | none =>
      if fenced then .stay
      else if !outward src op && decide (16384 ≤ s.cmds.list.countP (fun c => !outward c.src c.op && c.op.code != 0x30 && c.op.code != 0x31))
      then busy (hint s.fresh)
      else if (op.mutates h.domain).any (fun k => decide (s.seqDepth ≤ s.mutatingWaits k)) then busy (hint s.fresh)
      else .ok

end Sys2Proof.Machine
end

