-- ==== Sys2Proof/Machine/Codes.lean ====
section
/-!
DEFINITION. Codewords of Rack and Bench (R249, R253, R260, R261, R265): where they lie, what the decoder finds in one, and what the
encoder does when one is written.
-/

namespace Sys2Proof.Machine

def State.setKv (s : State) (k : KvState) : State := { s with kv := k }

/-! ### Places -/

/-- Data bytes of a codeword at a bulk-window address: 64 in Rack, 32 in Bench (R249, R253). -/
def wordSize (a : Nat) : Nat := if a < 2 ^ 44 then 64 else 32
def wordBase (a : Nat) : Nat := a / wordSize a * wordSize a
/-- Channel, or tile, and the byte within it, of a bulk-window address (Table 19-5). -/
def placeIdx (a : Nat) : Nat := bitsOf a 31 9
def placeByte (a : Nat) : Nat := a % 2 ^ 31
def isBench (a : Nat) : Bool := bitOf a 44
/-- The page that counts errors of an address: MCHN of its channel, or SCRB of its tile (Tables 11-5, 11-7). -/
def errPage (a : Nat) : Nat := if isBench a then pgScrb (placeIdx a) else pgMchn (placeIdx a)

/-! ### What the decoder finds -/

/-- Lanes that a byte of a flip mask puts in error: byte 2g + h holds bits 8h of symbol g (Table 11-1). -/
def maskLanes (m : List Byte) : List Nat :=
  (m.zipIdx.flatMap (fun x => ((List.range 8).filter (fun b => x.1.getLsbD b)).map (fun b => x.2 / 2 * 8 + b))).eraseDups

/-- What the poison marker changes of a codeword: 0x5A5A in each check symbol (R260). -/
def poisonMask (bench : Bool) : List Byte := List.replicate (if bench then 32 else 64) 0 ++ List.replicate (if bench then 2 else 8) 0x5A
def maskXor (a b : List Byte) : List Byte := a.zipWith (· ^^^ ·) b
/-- Symbols of a Rack mask that are not 0, and bits of a Bench mask that are set. -/
def badParts (bench : Bool) (m : List Byte) : Nat :=
  if bench then m.foldl (fun n b => n + (List.range 8).countP b.getLsbD) 0
  else (((m.zipIdx.filter (fun x => x.1 != 0)).map (fun x => x.2 / 2)).eraseDups).length

/-- What the decoder finds in a codeword whose stored bits differ from the encoded ones. Rack corrects one symbol, Bench one bit (R249,
R253); the poison marker is reported as such, in Rack with one further symbol in error too (R260). -/
def flipOutcome (bench : Bool) (m : List Byte) : ReadOutcome :=
  if badParts bench (maskXor m (poisonMask bench)) ≤ (if bench then 0 else 1) then .poison
  else match badParts bench m with
    | 0 => .clean
    | 1 => .corrected (if bench then [] else maskLanes m)
    | _ => .uncorrectable

/-- The outcome of reading the codeword at base `a` (R251). -/
def State.wordOutcome (s : State) (a : Nat) : ReadOutcome :=
  match AL.get a s.kv.codes with
  | none => .clean
  | some .poison => .poison
  | some (.flipped m) => flipOutcome (isBench a) m

/-- Whether a codeword that is not as encoded has lost its content. -/
def codeLost (bench : Bool) : CodeSt → Bool
  | .poison => true
  | .flipped m => flipOutcome bench m == .uncorrectable || flipOutcome bench m == .poison

/-- Whether a range holds a codeword whose content is lost. -/
def State.lostIn (s : State) (a n : Nat) : Bool :=
  s.kv.codes.any (fun c => decide (a ≤ c.1 ∧ c.1 < a + n) && codeLost (isBench c.1) c.2)

/-! ### What the encoder does -/

/-- The 72 or 34 mask bytes of the flip registers of a page (R265). DEDUCED: Log 29. -/
def State.flipMask (s : State) (pg : Nat) (bench : Bool) : List Byte :=
  ((List.range (if bench then 9 else 18)).flatMap (fun i => leBytes 4 (s.reg pg (0x140 + 4 * i)).toNat)).take (if bench then 34 else 72)
def flipCtl (bench : Bool) : Nat := if bench then 0x164 else 0x188

/-- The encoder has written a whole codeword, as it is or with the poison marker (R255, R260, R261): what it was before is gone, an entry
of a merge buffer for it has been merged and is dropped (R258), and an armed mask that matches is applied once (R265). DEDUCED: Log 29. -/
def State.encode (s : State) (a : Nat) (host poison : Bool) : State :=
  let b := isBench a
  let pg := errPage a
  let c := flipCtl b
  let armed := s.fld pg c 2 1 == 1 && (host || s.fld pg c 1 1 == 1)
  let m := s.flipMask pg b
  let clean := AL.del a s.kv.codes
  let s := { s with
    kv := { s.kv with codes :=
      if armed then AL.put a (.flipped (if poison then maskXor m (poisonMask b) else m)) clean
      else if poison then AL.put a .poison clean else clean }
    integ := { s.integ with pend := s.integ.pend.filter (·.addr != a) } }
  if armed then (List.range (if b then 9 else 18)).foldl (fun s i => s.setReg pg (0x140 + 4 * i) 0) (s.setFld pg c 2 1 0) else s

/-- A codeword with valid content. DEDUCED: Log 29. -/
def State.encoded (s : State) (a : Nat) (host : Bool) : State := s.encode a host false

/-- Space that is taken into use is written through the encoder before anything reads it (R255, R258, R261). DEDUCED: Log 29. -/
def State.cleared (s : State) (a n : Nat) : State :=
  { s with
    kv := { s.kv with codes := s.kv.codes.filter (fun c => !decide (a ≤ c.1 ∧ c.1 < a + n)) }
    integ := { s.integ with pend := s.integ.pend.filter (fun e => !decide (a ≤ e.addr ∧ e.addr < a + n)) } }

/-- The node has written `n` bytes from `a`, whole codewords (R255, R261): they are as encoded, but that an armed mask with
MATCH = 1 is applied to the first. DEDUCED: Log 29. -/
def State.rewrote (s : State) (a n : Nat) : State :=
  if n = 0 then s
  else (s.cleared a n).encoded (wordBase a) false

end Sys2Proof.Machine
end

