-- ==== Sys2Proof/Machine/Pool.lean ====
section
/-!
DEFINITION. The Rack pool (R233 to R235, R499), quotas (R234), page-table entries (R93 to R97) and Bench lines (R224 to R231).
-/

namespace Sys2Proof.Machine

/-! ### Quotas (R234) -/

def State.rquota (s : State) (d : Nat) : Nat := (s.regI (pgBnch 0) 0x13C d).toNat
def State.rused (s : State) (d : Nat) : Nat := AL.getD d 0 s.kv.rused
def State.charge (s : State) (d n : Nat) : State := s.setKv { s.kv with rused := AL.put d (s.rused d + n) s.kv.rused }
def State.refund (s : State) (d n : Nat) : State := s.setKv { s.kv with rused := AL.put d (s.rused d - n) s.kv.rused }
/-- Units of an unpacked frame, and of a packed one (R234). -/
def frameUnits : Nat := 272
def packedUnits (sh : Shape) : Nat := 16 + sh.slotBytes / 256

/-! ### Chunks (R233) -/

/-- Chunks of a channel in use. -/
def State.usedChunks (s : State) (ch : Nat) : List Nat :=
  (s.kv.chunks.filter (fun p => p.1.1 == ch)).map (fun p => p.1.2)
/-- `MCHN.FREE`. -/
def State.freeChunks (s : State) (ch : Nat) : Nat := 32768 - (s.usedChunks ch).length

/-- The lowest number not in a list. DESIGN CHOICE: Log 12. -/
def firstFree (l : List Nat) : Nat := ((List.range (l.length + 1)).find? (fun i => !l.contains i)).getD l.length

/-- The lowest start of `n` consecutive free chunks (DESIGN CHOICE: Log 12). -/
def firstRun (l : List Nat) (n : Nat) : Option Nat :=
  let c := sortBy leNat ((0 :: l.map (· + 1)).filter (fun b => decide (b + n ≤ 32768) && (List.range n).all (fun i => !l.contains (b + i))))
  c.head?

def State.putChunk (s : State) (ch k : Nat) (u : ChunkUse) : State :=
  let s' := s.setKv { s.kv with chunks := AL.put (ch, k) u s.kv.chunks }
  let low := s.fld (pgMchn ch) 0x10C 0 16
  if low ≤ s.freeChunks ch ∧ s'.freeChunks ch < low then s'.setIrq (pgMchn ch) 1 else s'
/-- A chunk goes back to the pool. -/
def State.giveChunk (s : State) (ch k : Nat) : State := s.setKv { s.kv with chunks := AL.del (ch, k) s.kv.chunks }

/-- A chunk of a domain goes back: what it holds stays enciphered under the domain's key (R385). -/
def State.dropChunk (s : State) (ch k : Nat) : State :=
  (s.giveChunk ch k).setKv { (s.giveChunk ch k).kv with stale := AL.put (ch, k) ⟨(AL.getD (ch, k) ⟨0, []⟩ s.kv.stale).times + 1, []⟩ s.kv.stale }

/-- A chunk is rewritten as zero. -/
def State.zeroRack (s : State) (ch k : Nat) : State :=
  let s := { s with mem := Mem.zero (rackAddr ch (k * 65536)) 65536 s.mem }
  match AL.get (ch, k) s.kv.stale with
  | none => s
  | some x => s.setKv { s.kv with stale := AL.put (ch, k) { x with live := List.range 1024 } s.kv.stale }

/-- A free chunk of a channel, lowest first (DESIGN CHOICE: Log 12). -/
def State.newChunk (s : State) (ch : Nat) : Option Nat :=
  let k := firstFree (s.usedChunks ch)
  if k < 32768 then some k else none

/-- Free places for `n` 2 KiB halves in a metadata chunk, aligned to `n` of 1 or 2 halves or more (R233). -/
def halvesFree (used : List Nat) (n : Nat) : Option Nat :=
  (List.range 32).find? (fun h => h % (min n 2) == 0 && decide (h + n ≤ 32) && (List.range n).all (fun i => !used.contains (h + i)))

/-- Takes `n` halves of metadata for `owner` in channel `ch` (R499): a free unit of a chunk held for the same owner, else a
new chunk; more than 32 halves take a run of chunks. Answers the first half's number within the channel. DESIGN CHOICE: Log 12. -/
def State.allocMeta (s : State) (ch owner n : Nat) : Option (State × Nat) :=
  if 32 < n then
    let k := ceilDiv n 32
    match firstRun (s.usedChunks ch) k with
    | none => none
    | some b => some (((List.range k).foldl (fun s i => s.putChunk ch (b + i) (.run owner)) s).cleared (rackAddr ch (b * 65536)) (n * 2048), b * 32)
  else
    match s.kv.chunks.findSome? (fun p => match p.2 with
        | .metadata o u => if p.1.1 = ch ∧ o = owner then (halvesFree u n).map (fun h => (p.1.2, u, h)) else none
        | _ => none) with
    | some (k, u, h) => some ((s.putChunk ch k (.metadata owner (u ++ (List.range n).map (h + ·)))).cleared
        (rackAddr ch ((k * 32 + h) * 2048)) (n * 2048), k * 32 + h)
    | none => match s.newChunk ch with
      | none => none
      | some k => some ((s.putChunk ch k (.metadata owner (List.range n))).cleared (rackAddr ch (k * 65536)) (n * 2048), k * 32)

/-- Returns `n` halves; a chunk with none left in use is free again. -/
def State.freeMeta (s : State) (ch half n : Nat) : State :=
  (List.range (ceilDiv n 32)).foldl (fun s i =>
    let k := half / 32 + i
    match AL.get (ch, k) s.kv.chunks with
    | some (.metadata o u) =>
      let u := u.filter (fun x => !(decide (half % 32 ≤ x ∧ x < half % 32 + n)))
      if u.isEmpty then s.dropChunk ch k else s.putChunk ch k (.metadata o u)
    | some (.run _) => s.dropChunk ch k
    | _ => s) s

/-! ### Frames -/

def frameChannel (f : Nat) : Nat := f / 2 ^ 19
def frameTile (f : Nat) : Nat := f / 2 ^ 19 / 16
def State.frame (s : State) (f : Nat) : Option Frame := AL.get f s.kv.frames
def State.putFrame (s : State) (f : Frame) : State := s.setKv { s.kv with frames := AL.put f.num f s.kv.frames }
def State.updFrame (s : State) (f : Nat) (g : Frame → Frame) : State := s.setKv { s.kv with frames := AL.upd f g s.kv.frames }

/-- A change of a frame's record by the node: both the working view and, where Bench does not hold the record dirty, Rack's
copy. -/
def Page.bumpGen (p : Page) : Page := { p with gen := (p.gen + 1) % 2 ^ 32 }

/-- The lowest free Crumb slot of a domain for a slot size in a channel, in an existing region or a new one (R233). Answers the
256 B unit at which it begins. -/
def State.allocCrumb (s : State) (ch domain slotBytes : Nat) : Option (State × Nat) :=
  let slotIn (i : Nat) (c : CrumbRegion) : State × Nat :=
    let k := firstFree c.used
    ((s.setKv { s.kv with crumbs := AL.put i { c with used := c.used ++ [k] } s.kv.crumbs }).cleared
      (rackAddr ch (c.base * 65536 + k * c.slotBytes)) c.slotBytes, (c.base * 65536 + k * c.slotBytes) / 256)
  match s.kv.crumbs.find? (fun (p : Nat × CrumbRegion) =>
      p.2.channel == ch && p.2.domain == domain && p.2.slotBytes == slotBytes && decide (p.2.used.length < 64)) with
  | some (i, c) => some (slotIn i c)
  | none =>
    let n := ceilDiv (64 * slotBytes) 65536
    match firstRun (s.usedChunks ch) n with
    | none => none
    | some b =>
      let i := s.kv.nextCrumb
      let s := (List.range n).foldl (fun s k => s.putChunk ch (b + k) (.crumb i)) s
      some ((s.setKv { s.kv with nextCrumb := i + 1, crumbs := AL.put i ⟨ch, b, n, domain, slotBytes, [0]⟩ s.kv.crumbs }).cleared
        (rackAddr ch (b * 65536)) slotBytes, b * 65536 / 256)

/-- Frees a Crumb slot; its region returns to the pool with its last slot (R233). -/
def State.freeCrumb (s : State) (ch loc : Nat) : State :=
  match s.kv.crumbs.find? (fun p => p.2.channel == ch && decide (p.2.base * 65536 ≤ loc * 256 ∧ loc * 256 < (p.2.base + p.2.count) * 65536)) with
  | none => s
  | some (i, c) =>
    let slot := (loc * 256 - c.base * 65536) / c.slotBytes
    let c := { c with used := c.used.filter (· != slot) }
    if c.used.isEmpty then
      (List.range c.count).foldl (fun s k => s.dropChunk ch (c.base + k)) (s.setKv { s.kv with crumbs := AL.del i s.kv.crumbs })
    else s.setKv { s.kv with crumbs := AL.put i c s.kv.crumbs }

/-- Space for the frame of a VPN in channel `ch` (R82, R233): a record unit, and a payload chunk or a Crumb slot of `slot` bytes. -/
def State.allocFrame (s : State) (ch domain vpn slot : Nat) : Option (State × Got) :=
  match s.allocMeta ch domain 2 with
  | none => none
  | some (s, h) =>
    let f := ch * 2 ^ 19 + h / 2
    let s := s.cleared (rackAddr ch (f % 2 ^ 19 * 4096)) 4096
    if slot = 0 then (s.newChunk ch).map (fun k =>
      ((s.putChunk ch k (.payload f)).cleared (rackAddr ch (k * 65536)) 65536, ⟨vpn, f, k, 0⟩))
    else (s.allocCrumb ch domain slot).map (fun x => (x.1, ⟨vpn, f, x.2, slot⟩))

/-- The place of a reserved frame's payload as its page record names it (Table 4-2). -/
def placeAt (g : Got) (p : Page) : Page := { p with crumbLoc := g.slot != 0, loc := if g.slot = 0 then g.chunk * 16 else g.chunk }

/-- The walk of R235: channels from `start` upward, those that admit the partition (none: any) and are not fenced. -/
def State.walkChannels (s : State) (start : Nat) (part : Option Nat) : List Nat :=
  ((List.range 384).map (fun i => (start + i) % 384)).filter (fun ch =>
    !s.tileFenced (ch / 16) && !s.pageFenced (pgMchn ch) && s.unitAdmits (pgMchn ch) &&
    (match part with | none => true | some p => s.fld (pgMchn ch) 0x100 p 1 == 1))

/-- Start of the walk for a frame (R235). -/
def frameStart (seq layer hg HG ordinal : Nat) : Nat := (seq * 0x9E37 + (layer * HG + hg) * 97 + ordinal) % 384

/-- The partition of a context. -/
def State.partOf (s : State) (ctx : Nat) : Nat := (AL.get ctx s.cmds.ctxs).elim 0 (·.partition)

/-- Level tables that a VPN needs and the domain does not have: levels 2, 1 and 0 (R93, R499). -/
def State.missingTables (s : State) (d vpn : Nat) : List Nat :=
  [2, 1, 0].filter (fun l => !AL.has (d, l, vpn / 256 ^ (l + 1)) s.kv.tables)

/-- Places one level table, in channel `ch` or upward from it (R499). -/
def State.allocTable (s : State) (d vpn level ch : Nat) (part : Option Nat) : Option State :=
  (s.walkChannels ch part).findSome? (fun c => (s.allocMeta c d 1).map (fun (s, h) =>
    s.setKv { s.kv with tables := AL.put (d, level, vpn / 256 ^ (level + 1)) (c, h) s.kv.tables }))

/-- What a reservation is for: a frame for a VPN, with the channel at which its walk starts and the channel of the frame that
it replaces, which is tried first (R235), and with the Crumb slot of a packed payload (0: an unpacked one); or, without a frame,
the level tables of a VPN whose frame lies in channel `start` (R499). -/
structure Want where
  vpn : Nat
  start : Nat
  first : Option Nat
  frame : Bool
  slot : Nat
  deriving DecidableEq, Repr

/-- Units that a frame is charged (R234). -/
def slotUnits (slot : Nat) : Nat := if slot = 0 then frameUnits else 16 + slot / 256

/-- Channels tried for a frame, in order (R235): that of the frame it replaces, if that one is admitted, then the walk. -/
def State.channelsFor (s : State) (w : Want) (part : Option Nat) : List Nat :=
  let l := s.walkChannels w.start part
  match w.first with
  | some c => (if l.contains c then [c] else []) ++ l
  | none => l

/-- Places one frame and the level tables that its VPN needs. -/
def State.placeTables (s : State) (d : Nat) (part : Option Nat) (vpn ch : Nat) : Option State :=
  (s.missingTables d vpn).foldl (fun o l => o.bind (fun s => s.allocTable d vpn l ch part)) (some s)

def State.placeOne (s : State) (d : Nat) (part : Option Nat) (w : Want) : Option (State × List Got) :=
  if w.frame then
    match (s.channelsFor w part).findSome? (fun c => s.allocFrame c d w.vpn w.slot) with
    | none => none
    | some (s, g) => (s.placeTables d part w.vpn (frameChannel g.frame)).map (fun s => (s, [g]))
  else (s.placeTables d part w.vpn w.start).map (fun s => (s, []))

/-- Units that the frames and level tables of a list of VPNs are charged (R234). -/
def State.wantUnits (s : State) (d : Nat) (ws : List Want) : Nat :=
  let keys := ws.flatMap (fun w => (s.missingTables d w.vpn).map (fun l => (l, w.vpn / 256 ^ (l + 1))))
  (ws.filter (·.frame)).foldl (fun n w => n + slotUnits w.slot) 0 + 8 * keys.eraseDups.length

/-- The reservation of R101: all or nothing. A failure answers U, the units that could not be charged or placed. -/
def State.reserve (s : State) (d : Nat) (part : Option Nat) (ws : List Want) : Except Nat (State × List Got) :=
  let units := s.wantUnits d ws
  if s.rquota d < s.rused d + units then .error (s.rused d + units - s.rquota d)
  else
    let r := ws.foldl (fun (acc : State × List Got × Nat) w =>
      match acc.1.placeOne d part w with
      | some (s, g) => (s, acc.2.1 ++ g, acc.2.2)
      | none => (acc.1, acc.2.1, acc.2.2 + (if w.frame then slotUnits w.slot else 8))) (s, [], 0)
    if r.2.2 = 0 then .ok (r.1.charge d units, r.2.1) else .error r.2.2

/-- Level tables that a reservation placed: those of `s'` that `s` does not have. -/
def newTables (s s' : State) : List (Nat × Nat × Nat) := (s'.kv.tables.map (·.1)).filter (fun k => !AL.has k s.kv.tables)

/-- A reserved frame that was not used goes back, with its charge. -/
def State.dropGot (s : State) (d : Nat) (g : Got) : State :=
  if (s.frame g.frame).isSome then s
  else
    let ch := frameChannel g.frame
    let s := if g.slot = 0 then s.dropChunk ch g.chunk else s.freeCrumb ch g.chunk
    (s.freeMeta ch (g.frame % 2 ^ 19 * 2) 2).refund d (slotUnits g.slot)

/-- A level table placed for a reservation goes back, if nothing lies under it. -/
def State.dropTable (s : State) (k : Nat × Nat × Nat) : State :=
  let under (d v : Nat) : Bool := d == k.1 && v / 256 ^ (k.2.1 + 1) == k.2.2
  let used := s.kv.ptes.any (fun p => under p.1.1 p.1.2) ||
    s.cmds.list.any (fun c => c.wait.space.frames.any (fun g => under c.hdr.domain g.vpn))
  match AL.get k s.kv.tables with
  | some (ch, half) => if used then s else ((s.setKv { s.kv with tables := AL.del k s.kv.tables }).freeMeta ch half 1).refund k.1 8
  | none => s

/-- Gives back what is left of a reservation (R101): the frames that no page has taken, and the tables placed for them. -/
def State.dropSpace (s : State) (d : Nat) (x : Space) : State :=
  x.tables.foldl (fun (s : State) k => s.dropTable k) (x.frames.foldl (fun (s : State) g => s.dropGot d g) s)

/-- Ends an admitted command; what its wait held goes back. -/
def State.finishHeld (s : State) (c : Cmd) (r : Result) : State := (s.finish c r).dropSpace c.hdr.domain c.wait.space

/-- What of a wait's space a later wait does not hold. -/
def spaceLess (old new : Space) : Space :=
  ⟨old.frames.filter (fun g => !new.frames.any (fun h => h.frame == g.frame)), old.tables.filter (fun t => !new.tables.contains t)⟩

/-! ### Page-table entries (R94, R96, R97) -/

def State.pte (s : State) (d v : Nat) : Pte := AL.getD (d, v) .invalid s.kv.ptes

/-- One PTE change: the entry in its home TTLB goes with it (R97). -/
def State.setPte (s : State) (d v : Nat) (p : Pte) : State :=
  s.setKv { s.kv with
    ptes := if p = .invalid then AL.del (d, v) s.kv.ptes else AL.put (d, v) p s.kv.ptes
    ttlb := AL.del (d, v) s.kv.ttlb }

/-- PTEs that name a frame. -/
def State.ptesOf (s : State) (f : Nat) : List (Nat × Nat) :=
  (s.kv.ptes.filter (fun p => (p.2.st == .bench || p.2.st == .rack) && p.2.loc == f)).map (·.1)

/-- Changes every PTE that names a frame. -/
def State.mapPtes (s : State) (f : Nat) (g : Pte → Pte) : State :=
  (s.ptesOf f).foldl (fun s k => s.setPte k.1 k.2 (g (s.pte k.1 k.2))) s

/-- Home TTLB's tile of a translation (R96). -/
def homeTile (d v : Nat) : Nat := (d * 0x9E37 + v / 64) % 24

/-! ### Level tables and sequence records in Rack (R252) -/

/-- Whether a channel can be read. -/
def State.chanLive (s : State) (ch : Nat) : Bool := !s.tileFenced (ch / 16) && !s.pageFenced (pgMchn ch)

/-- Whether `n` bytes from byte `b` of a channel are lost: with the channel, or with a codeword. -/
def State.rackLost (s : State) (ch b n : Nat) : Bool := !s.chanLive ch || s.lostIn (wordBase (rackAddr ch b)) (n + b % 64)

/-- The root table of a domain (R93). -/
def State.rootTable (s : State) (d : Nat) : Option (Nat × Nat) := (AL.get d s.sec.domains).bind (·.root)

/-- The walk cache answers for a VPN (R96, R116). -/
def State.inWalkCache (s : State) (d v : Nat) : Bool := s.fld pgXlat 0x100 0 1 == 1 && s.kv.walkCache.contains (d, v / 256)

/-- Whether a walk for a VPN meets a lost entry of a level table (R252, Table 4-7): the walk cache holds what lies above
level 0. DEDUCED: Log 65. -/
def State.walkLost (s : State) (d v : Nat) : Bool :=
  let gone (t : Option (Nat × Nat)) (l : Nat) : Bool := t.any (fun (x : Nat × Nat) => s.rackLost x.1 (x.2 * 2048 + v / 256 ^ l % 256 * 8) 8)
  gone (AL.get (d, 0, v / 256) s.kv.tables) 0 ||
  (!s.inWalkCache d v && (gone (s.rootTable d) 3 || [2, 1].any (fun l => gone (AL.get (d, l, v / 256 ^ (l + 1)) s.kv.tables) l)))

/-- Whether the record of a sequence is lost (R252). DEDUCED: Log 65. -/
def State.recordLost (s : State) (d q : Nat) : Bool :=
  match AL.get (d, q) s.kv.seqLoc, AL.get (d, q) s.kv.seqs with
  | some (ch, half), some r => s.rackLost ch (half * 2048) r.recordBytes
  | _, _ => false

/-- What a walk answers that has met a lost entry: POISON, and no frame. -/
def Pte.lost : Pte := ⟨.rack, false, true, true, false, false, false, true, 2 ^ 28⟩

/-- The entry that a full TTLB gives up for another is a free value: the spec names none. DESIGN CHOICE: Log 72. -/
def State.ttlbPut (s : State) (d v : Nat) (p : Pte) : AL (Nat × Nat) Pte :=
  let t := homeTile d v
  let mine := s.kv.ttlb.filter (fun e => homeTile e.1.1 e.1.2 == t)
  if !s.unitAdmits (pgTtlb t) then s.kv.ttlb
  else AL.put (d, v) p (if mine.length < 4096 then s.kv.ttlb
    else match mine[Config.pick s.fresh % 4096]? with | some v => AL.del v.1 s.kv.ttlb | none => s.kv.ttlb)

/-- A translation (R96): by the home TTLB, or by a walk that fills it, or that meets a lost table (TABLE_UE). FAULTS counts an
outcome that is no usable frame for a reader or, with `alloc`, for an APPEND, where an INVALID entry is none of them; once for
each VPN of a command (R116, Table 4-7). DESIGN CHOICE: Log 72. -/
def State.translate (s : State) (alloc : Bool) (d v : Nat) : State × Pte :=
  let t := homeTile d v
  let usable (p : Pte) := (p.st == .bench || p.st == .rack) && !p.poison && (if alloc then p.a else p.r)
  let fault (s : State) (p : Pte) :=
    if usable p || (alloc && p.st == .invalid) || s.kv.walked.contains (d, v) then s else s.bump pgXlat 0x124 1
  match AL.get (d, v) s.kv.ttlb with
  | some p => (fault (s.bump64 (pgTtlb t) 0x104 1) p, p)
  | none =>
    let s := (s.bump64 (pgTtlb t) 0x10C 1).bump64 pgXlat 0x11C 1
    let p := s.pte d v
    if s.walkLost d v then ((fault s Pte.lost).logErr pgXlat 1 d v, Pte.lost)
    else if !AL.has (d, 0, v / 256) s.kv.tables then (fault s .invalid, .invalid)
    else
      let wc := if s.fld pgXlat 0x100 0 1 = 1 ∧ !s.kv.walkCache.contains (d, v / 256) then s.kv.walkCache ++ [(d, v / 256)] else s.kv.walkCache
      (fault (s.setKv { s.kv with ttlb := s.ttlbPut d v p, walkCache := wc }).nextFresh p, p)

/-! ### Bench lines (R224 to R231) -/

/-- The set of a frame (R224). -/
def frameSet (f : Nat) : Nat := (f % 2 ^ 19 * 0x9E37 + f / 2 ^ 19) % 1728

def State.linesOf (s : State) (tile set : Nat) : List Line := s.kv.lines.filter (fun l => l.tile == tile && l.set == set)
def Line.same (a b : Line) : Bool := a.tile == b.tile && a.set == b.set && a.way == b.way
def State.setLine (s : State) (l : Line) : State :=
  s.setKv { s.kv with lines := (s.kv.lines.filter (fun x => !Line.same x l)) ++ [l] }
def State.dropLine (s : State) (l : Line) : State := s.setKv { s.kv with lines := s.kv.lines.filter (fun x => !Line.same x l) }
/-- The lines that hold a frame. -/
def State.frameLines (s : State) (f : Nat) : List Line :=
  s.kv.lines.filter (fun l => l.frame == f && (l.use == .copy || l.use == .opened || l.use == .source || l.use == .staging))
def State.frameLine (s : State) (f form : Nat) : Option Line := (s.frameLines f).find? (fun l => l.form == form)

/-- BENCH_USED and BENCH_QUOTA of a domain (R227). -/
def State.bused (s : State) (d : Nat) : Nat := s.kv.lines.countP (fun l => l.domain == d)
def State.bquota (s : State) (d : Nat) : Nat := (s.regI (pgBnch 0) 0x134 d).toNat % 2 ^ 20
/-- Way mask, minimum and lines held of a partition in a tile. -/
def State.pways (s : State) (tile p : Nat) : Nat := (s.regI (pgBnch tile) 0x110 p).toNat
def State.pmin (s : State) (tile p : Nat) : Nat := s.fldI (pgBnch tile) 0x114 p 0 15
def State.pused (s : State) (tile p : Nat) : Nat := s.kv.lines.countP (fun l => l.tile == tile && l.part == p)

def newLine (tile set way frame form : Nat) (use : LineUse) (part domain : Nat) : Line :=
  ⟨tile, set, way, frame, form, use, 0, 0, false, part, domain, none, false⟩

end Sys2Proof.Machine
end

