-- ==== Sys2Proof/Machine/Frames.lean ====
section
/-!
DEFINITION. Frames: state changes, shares, pins, sealing and freeing (R104 to R106, Table 4-10), and where positions of a
sequence lie (R87, R88).
-/

namespace Sys2Proof.Machine

/-! ### Sequences -/

def State.seqRec (s : State) (d q : Nat) : Option SeqRec := AL.get (d, q) s.kv.seqs
def State.putSeq (s : State) (d q : Nat) (r : SeqRec) : State := s.setKv { s.kv with seqs := AL.put (d, q) r s.kv.seqs }
def State.shapeW (s : State) (d id : Nat) : DWord := AL.getD (d, id) 0 s.kv.shapes
def State.shape (s : State) (d id : Nat) : Shape := Shape.ofWord (s.shapeW d id)

/-- Bursts of 512 bytes that carry a page from Rack to Bench or into Rack (R232, R239): its record, and its stream or its
engine tiles. DEDUCED: Log 64. -/
def State.fillBursts (s : State) (p : Page) : Nat :=
  8 + (if p.fPacked then ceilDiv (s.shape p.domain p.shapeId).streamBytes 512 else 128)

/-- HG, head groups (R87). -/
def hgOf (r : SeqRec) (sh : Shape) : Nat := ceilDiv r.kvHeads sh.heads
/-- VPN of page ordinal k of a stream (R87). -/
def vpnOf (r : SeqRec) (sh : Shape) (layer hg k : Nat) : Nat := r.baseVpn + (layer * hgOf r sh + hg) * 2 ^ r.pmaxLog2 + k
/-- The seal-log entry that governs a position (R88). -/
def logEntry (log : List (Nat × Nat)) (p : Nat) : Nat × Nat := log.foldl (fun a e => if e.2 ≤ p then e else a) (log.headD (0, 0))
/-- Page ordinal and slot of a position (R88). -/
def locate (r : SeqRec) (T p : Nat) : Nat × Nat :=
  let e := logEntry r.sealLog p
  (e.1 + (p - e.2) / T, (p - e.2) % T)
/-- FIRST_POS of ordinal k (R88). -/
def firstPosOf (r : SeqRec) (T k : Nat) : Nat :=
  let e := r.sealLog.foldl (fun a e => if e.1 ≤ k then e else a) (r.sealLog.headD (0, 0))
  e.2 + (k - e.1) * T
/-- Index of a scale stream (Table 4-4, HISTORY). -/
def streamIdx (r : SeqRec) (sh : Shape) (layer kv q g : Nat) : Nat := ((layer * r.kvHeads + kv) * sh.Q + q) * sh.Gp + g
/-- Scale streams (R89). -/
def streamCount (layers kvHeads : Nat) (sh : Shape) : Nat := if sh.isMx then 0 else layers * kvHeads * sh.Q * sh.Gp
/-- RECORD_BYTES (R89). -/
def recordSize (layers kvHeads histN : Nat) (sh : Shape) : Nat :=
  ceilDiv (0x680 + streamCount layers kvHeads sh * (4 + 4 * histN)) 4096 * 4096

/-- A history with a new entry; the oldest is dropped when it is full (R59). -/
def histPush (n : Nat) (h : List Word) (a : Word) : List Word := (if n ≤ h.length then h.drop (h.length + 1 - n) else h) ++ [a]

def SeqRec.pushHist (r : SeqRec) (i : Nat) (a : Word) : SeqRec :=
  { r with history := AL.put i (histPush r.histN (AL.getD i [] r.history) a) r.history }

/-- Sequences' PTEs: VPNs of a sequence's range that are not INVALID, in VPN order. -/
def State.seqPtes (s : State) (d : Nat) (r : SeqRec) (sh : Shape) : List (Nat × Pte) :=
  let n := r.layers * hgOf r sh * 2 ^ r.pmaxLog2
  sortBy (fun a b => leNat a.1 b.1)
    ((s.kv.ptes.filter (fun p => p.1.1 == d && decide (r.baseVpn ≤ p.1.2 ∧ p.1.2 < r.baseVpn + n))).map (fun p => (p.1.2, p.2)))

/-! ### Changing a page -/

/-- A change of a page by the node: in Bench when a line holds it, which makes the record dirty, also where a write-back under way
has read it (R230); else in Rack. -/
def State.updPage (s : State) (f : Nat) (g : Page → Page) : State :=
  match (s.frameLines f).find? (fun l => l.use != .staging) with
  | some l => (s.updFrame f (fun x => { x with cur := g x.cur })).setLine { l with dirtyRec := true, wb := l.wb.map (fun w => (w.1, false)) }
  | none => s.updFrame f (fun x => { x with cur := g x.cur, rack := g x.cur })

def State.page (s : State) (f : Nat) : Page := (s.frame f).elim Page.blank (·.cur)

/-- A state change of a frame: STATE and GEN (Table 4-2). -/
def State.setFState (s : State) (f : Nat) (st : FState) : State :=
  s.updPage f (fun p => { p with st := st, gen := (p.gen + 1) % 2 ^ 32 })

/-- A frame returns to FREE (R105): its Bench copy is dropped without write-back, its space and charge are returned. -/
def State.freeFrame (s : State) (f : Nat) : State :=
  match s.frame f with
  | none => s
  | some x =>
    let p := x.cur
    let ch := frameChannel f
    let s := (s.frameLines f).foldl (fun s l => s.dropLine l) s
    let s := if p.crumbLoc then s.freeCrumb ch p.loc else s.dropChunk ch (p.loc / 16)
    let s := match x.old with | some k => s.dropChunk ch k.1 | none => s
    let s := s.freeMeta ch (f % 2 ^ 19 * 2) 2
    let s := s.refund p.domain (if p.crumbLoc then packedUnits (s.shape p.domain p.shapeId) else frameUnits)
    s.setKv { s.kv with
      frames := AL.del f s.kv.frames, packQ := s.kv.packQ.filter (· != f), packing := AL.del f s.kv.packing
      fetches := s.kv.fetches.filter (· != f) }

/-- A frame whose SHARE and pins are all 0 is FREE; with SHARE 0 and pins it is RETIRED (R105, Table 4-10). -/
def State.settleFrame (s : State) (f : Nat) : State :=
  match s.frame f with
  | none => s
  | some x =>
    if x.cur.st = .filling then s
    else if x.cur.share ≠ 0 then s
    else if x.pinCur = 0 ∧ x.pinOld = 0 then s.freeFrame f
    else if x.cur.st = .retired ∨ x.cur.st = .poisoned then s
    else s.setFState f .retired

/-- SHARE − 1 (R106). -/
def State.lowerShare (s : State) (f : Nat) : State :=
  (s.updPage f (fun p => { p with share := p.share - 1 })).settleFrame f

/-- SHARE + 1. -/
def State.raiseShare (s : State) (f : Nat) : State := s.updPage f (fun p => { p with share := p.share + 1 })

/-- Takes a pin (R104). -/
def State.pin (s : State) (f : Nat) : State := s.updFrame f (fun x => { x with pinCur := x.pinCur + 1 })

/-- Removes a starter entry; its three steps each take a slot of the bank (R130, R131). -/
def State.dropEntry (s : State) (k : Nat × Nat × Nat) : State :=
  (s.setKv { s.kv with starter := AL.del k s.kv.starter }).bump (pgStrt k.1) 0x11C 3

/-- Starter entries that name a frame. -/
def State.entriesFor (s : State) (f : Nat) : List (Nat × Nat × Nat) := (s.kv.starter.filter (fun p => p.2.frame == f)).map (·.1)

/-- A POISONED frame with a current checkpoint copy and no pins: its PTEs become CHECKPOINT and its starter entries go with
it (Table 4-10). -/
def State.recoverPoisoned (s : State) (f : Nat) : State :=
  match s.frame f with
  | none => s
  | some x =>
    if x.cur.st = .poisoned ∧ x.cur.fCkptCurrent ∧ x.pinCur = 0 ∧ x.pinOld = 0 then
      let s := (s.ptesOf f).foldl (fun s k => (s.setPte k.1 k.2
        { (s.pte k.1 k.2) with st := .ckpt, loc := x.cur.ckptObj, poison := false, fill := false, a := false, shared := false }).updPage f
          (fun p => { p with share := p.share - 1 })) s
      let es := s.entriesFor f
      ((es.foldl (fun s k => s.dropEntry k) s).updPage f (fun p => { p with share := p.share - es.length })).settleFrame f
    else s

/-- Releases a pin from the counter it was taken on (R104 to R106): PIN_OLD at 0 frees the source area; a frame that meets the
free condition is freed. -/
def State.unpin (s : State) (f : Nat) (old : Bool) : State :=
  match s.frame f with
  | none => s
  | some x =>
    let x' := if old then { x with pinOld := x.pinOld - 1 } else { x with pinCur := x.pinCur - 1 }
    let s := s.putFrame x'
    let s := match x.old with
      | some k =>
        if x'.pinOld = 0 then
          let s := (s.putFrame { x' with old := none }).dropChunk (frameChannel f) k.1
          (s.frameLines f).foldl (fun (s : State) (l : Line) => if l.use = LineUse.source then s.dropLine l else s) s
        else s
      | none => s
    (s.settleFrame f).recoverPoisoned f

/-- Releases a pin that was taken on the packed or the unpacked form: the counter it now stands on is PIN_OLD once the other
form is committed (R104, Table 4-10). -/
def State.unpinForm (s : State) (f : Nat) (packed : Bool) : State :=
  s.unpin f (match s.frame f with
    | some x => x.cur.fPacked != packed && x.old.isSome
    | none => false)

/-- A frame leaves the Crumb unit: the pin of a pack under way is released (R104). -/
def State.dropPack (s : State) (f : Nat) : State :=
  let had := AL.has f s.kv.packing
  let s := s.setKv { s.kv with packQ := s.kv.packQ.filter (· != f), packing := AL.del f s.kv.packing }
  if had then s.unpinForm f false else s

/-- A line's dirty units begin to be copied to Rack: the write-back takes a pin on the frame (R104, R230). -/
def State.beginBack (s : State) (l : Line) (q : Nat) (rec' : Bool) : State :=
  (if l.wb.isSome then s else s.pin l.frame).setLine { l with wb := some (q, rec') }

/-! ### Opening and sealing pages -/

/-- A reserved frame becomes an OPEN page of a sequence (Table 4-10): SHARE 1, PTE BENCH with R and A. Its line is taken by
the caller. -/
def State.openFrame (s : State) (d q vpn firstPos shapeId : Nat) (g : Got) : State :=
  let p := placeAt g { Page.blank with
    shapeId := shapeId, st := .opened, domain := d, share := 1, seq := q, vpn := vpn, firstPos := firstPos, gen := 1 }
  let s := s.putFrame ⟨g.frame, p, Page.blank, none, 0, 0, 0, 0⟩
  (s.setPte d vpn ⟨.bench, false, true, true, false, false, false, false, g.frame⟩).bump (pgApnd (frameTile g.frame)) 0x11C 1

/-- Closes a page's open units, in unit order, and enters their AMAX into the histories of a sequence (R59). -/
def closeUnits (r : SeqRec) (sh : Shape) (layer hg : Nat) (p : Page) : SeqRec × Page :=
  (sortBy (fun a b => leNat a.1 b.1) p.units).foldl (fun (r, p) (i, u) =>
    if u.isOpen then
      let hqg := i / sh.U
      let g := hqg % sh.Gp
      let q := hqg / sh.Gp % sh.Q
      let h := hqg / sh.Gp / sh.Q
      (SeqRec.pushHist r (streamIdx r sh layer (hg * sh.heads + h) q g) u.amax,
       { p with units := AL.put i { u with isOpen := false, closed := true } p.units })
    else (r, p)) (r, p)

/-- Seals the page of frame `f` in place (R103, Table 4-10): units closed, SEAL_TIME set, the PTE not appendable; a shape with
Crumb queues it for packing, any other is written back. -/
def State.sealFrame (s : State) (d q : Nat) (sh : Shape) (layer hg vpn f : Nat) : State :=
  match s.seqRec d q with
  | none => s
  | some r =>
    let (r, p) := closeUnits r sh layer hg (s.page f)
    let crumb := sh.crumb != 0
    let p := { p with
      st := if crumb then .sealing else .sealed, fSealed := true, sealTime := BitVec.ofNat 64 s.nrt, gen := (p.gen + 1) % 2 ^ 32 }
    let s := (s.putSeq d q r).updPage f (fun _ => p)
    let s := s.setPte d vpn { (s.pte d vpn) with a := false, fSealed := true, shared := false }
    let s := (s.frameLines f).foldl (fun s l =>
      if l.use = .opened then (if crumb then s.setLine { l with use := .source } else s.beginBack { l with use := .copy } l.dirty true) else s) s
    let s := s.bump (pgApnd (frameTile f)) 0x120 1
    if crumb then
      let s := s.setKv { s.kv with packQ := s.kv.packQ ++ [f] }
      let depth := s.kv.packQ.countP (fun x => frameTile x == frameTile f)
      if depth = 64 then s.setIrq (pgCrmb (frameTile f)) 2 else s
    else s

/-- Copies a shared open page into frame `g` of the writer (R143, R503, Table 5-10 steps 1 to 3). -/
def State.copyPage (s : State) (d q vpn f : Nat) (g : Got) : State :=
  let p' := placeAt g { s.page f with
    seq := q, vpn := vpn, share := 1, domain := d, gen := 1, ckptObj := 0, fCkptCurrent := false, st := .opened }
  let s := s.putFrame ⟨g.frame, p', Page.blank, none, 0, 0, 0, 0⟩
  let s := s.setPte d vpn ⟨.bench, false, true, true, false, false, false, false, g.frame⟩
  (s.lowerShare f).bump (pgApnd (frameTile g.frame)) 0x118 1

/-- The uncorrectable-error event of a frame (Table 4-10): OPEN, SEALING and SEALED become POISONED and their entries carry
POISON. A frame that waits for packing is not packed any more, and its lines hold nothing that must be kept. -/
def State.poisonFrame (s : State) (f : Nat) : State :=
  match s.frame f with
  | none => s
  | some x =>
    if x.cur.st = .opened ∨ x.cur.st = .sealing ∨ x.cur.st = .sealed then
      let s := s.dropPack f
      let s := s.updPage f (fun p => { p with st := .poisoned, fPoison := true, gen := (p.gen + 1) % 2 ^ 32 })
      let s := (s.frameLines f).foldl (fun s l => if l.use = .staging then s else s.setLine { l with use := .copy }) s
      (s.mapPtes f (fun p => { p with poison := true })).recoverPoisoned f
    else s

/-! ### Decode errors (R74) -/

/-- Slot of its Crumb region that a packed frame's stream lies in (R68). -/
def State.crumbSlot (s : State) (f : Nat) : Nat :=
  let b := (s.page f).loc * 256
  (s.kv.crumbs.findSome? (fun (p : Nat × CrumbRegion) =>
    if p.2.channel = frameChannel f ∧ p.2.base * 65536 ≤ b ∧ b < (p.2.base + p.2.count) * 65536
    then some ((b - p.2.base * 65536) / p.2.slotBytes) else none)).getD 0

/-- A decode error of a packed page (R74, Table 3-11): counted and captured in the CRMB page of a tile for a unit, with the malformed
block's stream index, or the Crumb region slot for a CRC mismatch; the frame is POISONED. -/
def State.decodeFault (s : State) (tile unit f : Nat) (block : Option Nat) : State :=
  let pg := pgCrmb tile
  let s := (s.bump pg 0x118 1).setIrq pg 1
  (match block with
    | some b => s.logErr pg 1 unit b
    | none => s.logErr pg 2 unit (s.crumbSlot f)).poisonFrame f

/-- Decodes a packed page for a command that runs on no engine: whether its stream is malformed, which Table 3-11 gives no UNIT for: a
free value. DESIGN CHOICE: Log 74. -/
def State.decodePage (s : State) (f : Nat) : State × Bool :=
  let p := s.page f
  match if p.fPacked then crumbError (s.shape p.domain p.shapeId) p else none with
  | none => (s, false)
  | some b => ((s.decodeFault (frameTile f) (Config.pick s.fresh % 65536) f b).nextFresh, true)

end Sys2Proof.Machine
end

