-- ==== Sys2Proof/Machine/Integ.lean ====
section
/-!
DEFINITION. Memory integrity (11): what reads of codewords count and report, merge buffers, poison, correctable-error counting,
lanes, channel failure, the checker test.
-/

namespace Sys2Proof.Machine

def State.setInteg (s : State) (i : IntegState) : State := { s with integ := i }

/-! ### Uncorrectable errors of frames, and channel failure -/

/-- A channel is declared failed (R252): fenced, and every frame homed in it takes the uncorrectable-error event. -/
def State.failChannel (s : State) (ch cause : Nat) : State :=
  if s.pageFenced (pgMchn ch) then s
  else
    let s := (s.logErr (pgMchn ch) 4 cause 0).fencePage (pgMchn ch)
    (s.kv.frames.filter (fun p => frameChannel p.1 == ch)).foldl (fun s p => s.poisonFrame p.1) s

/-- Counts an UNCORRECTABLE Rack read towards the failure of its channel: 8 in distinct rows within 1 ms (R252). DESIGN
CHOICE: Log 10. -/
def State.countUe (s : State) (ch b : Nat) : State :=
  let row := Config.dramRow ch (b / 64)
  let old := (AL.getD ch [] s.integ.ues).filter (fun e => s.nrt < e.2 + msTicks 1 && e.1 != row)
  let l := old ++ [(row, s.nrt)]
  let s := s.setInteg { s.integ with ues := AL.put ch l s.integ.ues }
  if 8 ≤ l.length then s.failChannel ch 0 else s

/-! ### Correctable errors (R262 to R264, R270) -/

/-- A lane is flagged once its counter has reached LANE_TH (R270). -/
def State.laneTh (s : State) (ch : Nat) : Nat := max 1 (s.fld (pgMchn ch) 0x1A8 0 16)
def State.laneFlagged (s : State) (ch lane : Nat) : Bool := bitOf (AL.getD (ch, lane) 0 s.integ.lanes) 16
/-- A counter stops at 0xFFFF; bit 16 holds the flag. -/
def State.countLane (s : State) (ch lane : Nat) : State :=
  let v := AL.getD (ch, lane) 0 s.integ.lanes
  let n := min 0xFFFF (v % 65536 + 1)
  let flag := v / 65536 == 1 || decide (s.laneTh ch ≤ n)
  let s := s.setInteg { s.integ with lanes := AL.put (ch, lane) (n + b2n flag * 65536) s.integ.lanes }
  if flag && v / 65536 != 1 then
    let s := s.setIrq (pgScrb (ch / 16)) 4
    -- the quadrant's CCC records the lane in the module flash if it runs (R270)
    if (AL.get (3 + ch / 16 / 6) s.fw.cores).any (·.up) then
      { s with fw := { s.fw with laneLog := s.fw.laneLog ++ [(ch, lane)] } } else s
  else s

/-- A push into SCRB.HOT (R263). -/
def State.pushHot (s : State) (t f : Nat) : State :=
  let q := AL.getD t [] s.integ.hot
  let s := s.setIrq (pgScrb t) 1
  if 16 ≤ q.length then s.setFld (pgScrb t) 0x118 31 1 1
  else s.setInteg { s.integ with hot := AL.put t (q ++ [f]) s.integ.hot }

/-- A corrected codeword of a frame (R262). What an 8-bit LEVEL of 255 becomes that THRESH has passed by, the spec does not say: a free
value. DEDUCED: Log 59. -/
def State.frameCe (s : State) (f : Nat) : State :=
  let t := frameTile f
  let n := s.nrt / msTicks (s.fld (pgScrb t) 0x110 16 8 + 1)
  match s.frame f with
  | none => s
  | some x =>
    let level := x.bktLevel - (n - x.bktStamp)
    if level = s.fld (pgScrb t) 0x110 24 8 then (s.putFrame { x with bktLevel := 0, bktStamp := n }).pushHot t f
    else if level = 255 then (s.putFrame { x with bktLevel := Config.pick s.fresh % 256, bktStamp := n }).nextFresh
    else s.putFrame { x with bktLevel := level + 1, bktStamp := n }

/-! ### What a codeword belongs to -/

/-- The Bench line at a byte of a tile's cache region: sets of 16 lines of 68 KiB (Table 10-1). -/
def State.lineAt (s : State) (t b : Nat) : Option Line :=
  let i := b / 69632
  if i < 27648 then s.kv.lines.find? (fun (l : Line) => l.tile == t && l.set == i / 16 && l.way == i % 16) else none

/-- The frame whose Crumb slot holds byte `b` of a channel, with the slot's first byte. -/
def crumbAt (s : State) (ch b : Nat) : Option (Frame × Nat) :=
  (s.kv.frames.find? (fun (p : Nat × Frame) => frameChannel p.1 == ch && p.2.rack.crumbLoc &&
    decide (p.2.rack.loc * 256 ≤ b ∧ b < p.2.rack.loc * 256 + (s.shape p.2.rack.domain p.2.rack.shapeId).slotBytes))).map
      (fun p => (p.2, p.2.rack.loc * 256))

/-- The frame whose payload, record or line lies at a bulk-window address. -/
def State.frameAt (s : State) (a : Nat) : Option Nat :=
  let p := placeIdx a
  let b := placeByte a
  if isBench a then
    match s.lineAt p b with
    | some l => if l.use = .copy ∨ l.use = .opened ∨ l.use = .source ∨ l.use = .staging then some l.frame else none
    | none => none
  else match AL.get (p, b / 65536) s.kv.chunks with
    | some (.payload f) => some f
    | some (.crumb _) => (crumbAt s p b).map (·.1.num)
    | some (.metadata _ _) => let f := p * 2 ^ 19 + b / 4096; if (s.frame f).isSome then some f else none
    | _ => none

/-- Counts a correction (R262 to R264): per lane in Rack; then, unless its only lane is flagged, in the frame's bucket or the
page's ERR_BUCKET. -/
def State.corrected (s : State) (a : Nat) (lanes : List Nat) : State :=
  let ch := placeIdx a
  let s := if isBench a then s.bump (errPage a) 0x128 1 else s.bump (errPage a) 0x190 1
  let known := !isBench a && lanes.length == 1 && lanes.all (s.laneFlagged ch)
  let s := if isBench a then s else lanes.foldl (fun s l => s.countLane ch l) s
  if known then s else match s.frameAt a with
    | some f => s.frameCe f
    | none => s.corrErr (errPage a)

/-- The poison marker is written over an UNCORRECTABLE codeword that belongs to a frame (R260). -/
def State.markWord (s : State) (a : Nat) : State :=
  if (s.frameAt a).isSome then s.setKv { s.kv with codes := AL.put a .poison s.kv.codes } else s

/-- An UNCORRECTABLE or POISON read: counted and captured; its frame takes the uncorrectable-error event (Table 11-3). -/
def State.lostWord (s : State) (a cls : Nat) (marker : Bool) : State :=
  let pg := errPage a
  let b := placeByte a
  let s :=
    if isBench a then (if marker then s else s.bump pg 0x12C 1)
    else if marker then (s.bump pg 0x198 1).logErr pg 2 cls (b / 64)
    else ((s.bump pg 0x194 1).logErr pg 1 cls (b / 64)).countUe (placeIdx a) b
  let s := if marker then s else s.markWord a
  match s.frameAt a with
  | some f => s.poisonFrame f
  | none => s

/-! ### Merge buffers (R257 to R259) -/

/-- Writers of a merge buffer: the channel's, or the tile's Bench controller's. -/
def sameBuffer (a b : Nat) : Bool := isBench a == isBench b && placeIdx a == placeIdx b

/-- What the read of a read-modify-write counts (R251, R262): a correction, or a lost codeword in the counters of Tables 11-5 and 11-7.
Answers whether the codeword was lost. -/
def State.countRead (s : State) (a : Nat) (o : ReadOutcome) : State × Bool :=
  match o with
  | .clean => (s, false)
  | .corrected l => (s.corrected a l, false)
  | .poison => (if isBench a then s else s.bump (errPage a) 0x198 1, true)
  | .uncorrectable =>
    (if isBench a then s.bump (errPage a) 0x12C 1 else (s.bump (errPage a) 0x194 1).countUe (placeIdx a) (placeByte a), true)

/-- Writes back an entry: read, merged and written as one. A read that meets an error or poison leaves the poison marker and
captures MB_UE (R259). -/
def State.flushEntry (s : State) (a : Nat) (ue : Bool) : State :=
  match s.integ.pend.find? (·.addr == a) with
  | none => s
  | some e =>
    let r := s.countRead a (if ue then .uncorrectable else s.wordOutcome a)
    if r.2 then
      let s := r.1.encode a (e.writer == 0) true
      let s := if isBench a then s else s.logErr (errPage a) 3 e.writer (placeByte a / 64)
      match s.frameAt a with
      | some f => s.poisonFrame f
      | none => s
    else r.1.encoded a (e.writer == 0)

/-- A write of part of a codeword: into its entry, or a new one. A covered codeword is written at once; a full buffer flushes
its oldest entry (R258). DEDUCED: Log 28. -/
def State.narrowWrite (s : State) (a n writer : Nat) : State :=
  let base := wordBase a
  let bits : BitVec 64 := BitVec.ofNat 64 ((2 ^ n - 1) * 2 ^ (a - base))
  let full : BitVec 64 := BitVec.ofNat 64 (2 ^ wordSize a - 1)
  match s.integ.pend.find? (·.addr == base) with
  | some e =>
    let m := e.mask ||| bits
    if m = full then s.encoded base (writer == 0)
    else s.setInteg { s.integ with pend := s.integ.pend.map (fun x => if x.addr = base then { x with mask := m } else x) }
  | none =>
    let mine := s.integ.pend.filter (fun e => sameBuffer e.addr a)
    let s := if (if isBench a then 32 else 64) ≤ mine.length then
        (match mine with | e :: _ => s.flushEntry e.addr false | [] => s) else s
    s.setInteg { s.integ with pend := s.integ.pend ++ [⟨base, bits, s.nrt, writer⟩] }

/-- Notes that `n` bytes at `a` have been written: whole codewords through the encoder, parts through the merge buffer.
DEDUCED: Log 28. -/
def State.noteWrite (s : State) (a n writer : Nat) : State :=
  if n = 0 then s
  else
    let w := wordSize a
    let k0 := a / w
    let k1 := (a + n - 1) / w
    (List.range (k1 + 1 - k0)).foldl (fun s i =>
      let b := (k0 + i) * w
      let lo := max a b
      let hi := min (a + n) (b + w)
      if hi - lo = w then s.encoded b (writer == 0)
      else s.narrowWrite lo (hi - lo) writer) s

/-- Writes bytes of plain memory (the ring region, the log region, region and test chunks). -/
def State.putBytes (s : State) (a : Nat) (d : List Byte) (writer : Nat) : State :=
  ({ s with mem := s.mem.writeN a d } : State).noteWrite a d.length writer

/-- Codewords of a range. -/
def wordsOf (a n : Nat) : List Nat :=
  let w := wordSize a
  if n = 0 then [] else (List.range ((a + n - 1) / w + 1 - a / w)).map (fun i => (a / w + i) * w)

/-- Reads codewords through the decoder: corrections are counted, and the lost codewords are answered. `cls` is the access class
of Table 10-6. -/
def State.readList (s : State) (ws : List Nat) (cls : Nat) : State × List Nat :=
  ws.foldl (fun (acc : State × List Nat) w => match acc.1.wordOutcome w with
    | .clean => acc
    | .corrected l => (acc.1.corrected w l, acc.2)
    | .poison => (acc.1.lostWord w cls true, acc.2 ++ [w])
    | .uncorrectable => (acc.1.lostWord w cls false, acc.2 ++ [w])) (s, [])

/-- Reads the codewords of a range. -/
def State.readWords (s : State) (a n cls : Nat) : State × List Nat := s.readList (wordsOf a n) cls

/-- Codewords of a frame that are not as encoded: those of its Bench lines, or those of its record and payload in Rack. -/
def State.badWords (s : State) (f : Nat) (bench : Bool) : List Nat :=
  (s.kv.codes.filter (fun c => isBench c.1 == bench && s.frameAt c.1 == some f)).map (·.1)

/-- Reads a frame where it lies, and answers whether content was lost (R251, R262, Table 11-3). A reader that finds every codeword
as encoded changes nothing. DEDUCED: Log 65. -/
def State.readFrame (s : State) (f : Nat) (bench : Bool) (cls : Nat) : State × Bool :=
  let r := s.readList (s.badWords f bench) cls
  (r.1, !r.2.isEmpty)

/-- Whether a codeword of a frame belongs to its page record (R82, R224). DESIGN CHOICE: Log 27. -/
def inRecord (f a : Nat) : Bool :=
  if isBench a then decide (placeByte a % 69632 < 4096)
  else decide (rackAddr (frameChannel f) (f % 2 ^ 19 * 4096) ≤ a ∧ a < rackAddr (frameChannel f) (f % 2 ^ 19 * 4096) + 4096)

/-- Whether the node's readers find a frame in Bench. -/
def State.inBench (s : State) (f : Nat) : Bool := (s.frameLines f).any (fun l => l.use != .staging)

/-- Reads the page record of a frame, and answers whether it was lost. DEDUCED: Log 65. -/
def State.readRecord (s : State) (f : Nat) : State × Bool :=
  let r := s.readList ((s.badWords f (s.inBench f)).filter (inRecord f)) 2
  (r.1, !r.2.isEmpty)

/-- MERGE_BUFFER_FLUSH (R258): 256 ns after an entry's first write. Channels 384 and up are the tiles' Bench controllers.
DEDUCED: Log 28. -/
def State.mergeFlush (s : State) (channel addr : Nat) (ue : Bool) : State :=
  let a := wordBase (if channel < 384 then rackAddr channel addr else benchAddr (channel - 384) addr)
  match s.integ.pend.find? (·.addr == a) with
  | none => s
  | some e => if e.since + 26 ≤ s.nrt then s.flushEntry a ue else s

/-! ### The channel bus (R243, R244) -/

/-- The arbiter of a tile's channel bus makes grants: FREEZE is clear, and its page lets it work. DESIGN CHOICE: Log 61. -/
def State.busOpen (s : State) (t : Nat) : Bool := s.fld (pgCbar t) 0x100 0 1 == 0 && s.unitAdmits (pgCbar t)

/-- A transfer of a requester on the bus: on the grant that is parked on it, or on an arbitrated one; the bus stays parked on it (R243,
R248). A transfer takes no time of the model. DESIGN CHOICE: Log 61. -/
def State.busGrant (s : State) (t requester : Nat) : State :=
  let parked := s.fld (pgCbar t) 0x100 1 1 == 1 && AL.get t s.integ.bus == some requester
  let s := if parked then s.bump (pgCbar t) 0x114 1 else s.bump64 (pgCbar t) 0x10C 1
  s.setInteg { s.integ with bus := AL.put t requester s.integ.bus }

/-! ### The checker test (R265, R266) -/

/-- Takes a free chunk of a channel, or a free Bench line of a tile, out of the pool. -/
def State.testAlloc (s : State) (pg : Nat) : State :=
  match pageType pg, pageTile pg with
  | some (.mchn, c), some t =>
    let ch := t * 16 + c
    if s.fld pg 0x18C 31 1 = 1 ∨ s.pageFenced pg then s
    else match s.newChunk ch with
      | none => s
      | some k => (s.putChunk ch k .test).setReg pg 0x18C (BitVec.ofNat 32 (2 ^ 31 + k))
  | some (.scrb, _), some t =>
    if s.fld pg 0x168 31 1 = 1 then s
    else match (List.range 27648).find? (fun i => !s.kv.lines.any (fun (l : Line) => l.tile == t && l.set == i / 16 && l.way == i % 16)) with
      | none => s
      | some i =>
        (s.setLine (newLine t (i / 16) (i % 16) 0 0 .test 0 1024)).setReg pg 0x168 (BitVec.ofNat 32 (2 ^ 31 + i))
  | _, _ => s

/-- Returns it, rewritten as zero. -/
def State.testRelease (s : State) (pg : Nat) : State :=
  let clean (s : State) (a n : Nat) : State :=
    (({ s with mem := Mem.zero a n s.mem } : State).setKv { s.kv with codes := s.kv.codes.filter (fun c => c.1 < a || a + n ≤ c.1) }).setInteg
      { s.integ with pend := s.integ.pend.filter (fun e => e.addr < a || a + n ≤ e.addr) }
  match pageType pg, pageTile pg with
  | some (.mchn, c), some t =>
    if s.fld pg 0x18C 31 1 = 0 then s
    else
      let ch := t * 16 + c
      let k := s.fld pg 0x18C 0 15
      (((clean s (rackAddr ch (k * 65536)) 65536).zeroRack ch k).giveChunk ch k).setReg pg 0x18C 0
  | some (.scrb, _), some t =>
    if s.fld pg 0x168 31 1 = 0 then s
    else
      let i := s.fld pg 0x168 0 15
      let s := clean s (benchAddr t (i * 69632)) 69632
      (s.setKv { s.kv with lines := s.kv.lines.filter (fun (l : Line) => !(l.tile == t && l.set == i / 16 && l.way == i % 16)) }).setReg pg 0x168 0
  | _, _ => s

end Sys2Proof.Machine
end

