-- ==== Sys2Proof/Machine/Lines.lean ====
section
/-!
DEFINITION. Bench lines: victims and allocation (R227), write-back (R230) and eviction.
-/

namespace Sys2Proof.Machine

/-! ### Write-back (R230) -/

/-- First byte of a line in the bulk window: a 4 KiB record slot, then four 16 KiB quarters (R224). DESIGN CHOICE: Log 27. -/
def lineAddr (l : Line) : Nat := benchAddr l.tile ((l.set * 16 + l.way) * 69632)

/-- The parts of a line that a write-back copies, as (offset in the line, address in Rack, bytes): dirty quarters and the record. -/
def backParts (l : Line) (p : Page) (len q : Nat) (rec' : Bool) : List (Nat × Nat × Nat) :=
  let ch := frameChannel l.frame
  let pay := rackAddr ch (if p.crumbLoc then p.loc * 256 else p.loc * 4096)
  (if rec' then [(0, rackAddr ch (l.frame % 2 ^ 19 * 4096), 4096)] else []) ++
  ((List.range 4).filter (fun i => bitOf q i && decide (i * 16384 < len))).map (fun i =>
    (4096 + i * 16384, pay + i * 16384, min 16384 (len - i * 16384)))

/-- A write-back met lost content (Table 11-3): the Rack codewords that it should have filled are poisoned, the frame takes the
uncorrectable-error event, and WB_FAIL is captured (Table 10-11). -/
def State.backLost (s : State) (l : Line) (parts : List (Nat × Nat × Nat)) : State :=
  let bad := parts.flatMap (fun x => (s.kv.codes.filter (fun c => codeLost true c.2 &&
    decide (lineAddr l + x.1 ≤ c.1 ∧ c.1 < lineAddr l + x.1 + x.2.2))).map (fun c => wordBase (x.2.1 + (c.1 - (lineAddr l + x.1)))))
  let s := s.setKv { s.kv with codes := bad.foldl (fun m a => AL.put a .poison m) s.kv.codes }
  (s.logErr (pgBnch l.tile) 2 (frameChannel l.frame) l.frame).poisonFrame l.frame

/-- Rack's copy of a page once the quarters `q`, and the record if `rec'`, of the node's view are copied to it; what is not dirty
stays as Rack has it (R109, R230). -/
def copiedPage (cur rack : Page) (q : Nat) (rec' : Bool) : Page :=
  { (if rec' then cur else rack) with
    payload := ((List.range 4).filter (fun i => bitOf q i)).foldl (fun m i => Mem.graft (i * 16384) 16384 cur.payload m) rack.payload }

/-- Copies the quarters `q`, and the record if `rec'`, of a line to Rack (R109, R230). DEDUCED: Log 40. DEDUCED: Log 64. -/
def State.copyBack (s : State) (l : Line) (q : Nat) (rec' : Bool) : State :=
  let n := (List.range 4).countP (fun i => bitOf q i)
  let p := s.page l.frame
  let parts := backParts l p (if p.crumbLoc then (s.shape p.domain p.shapeId).slotBytes else 65536) q rec'
  let lost := parts.any (fun x => s.lostIn (lineAddr l + x.1) x.2.2)
  let s := parts.foldl (fun (s : State) x => s.rewrote x.2.1 x.2.2) s
  let s := if lost then s.backLost l parts else s
  let s := s.updFrame l.frame (fun f => { f with rack := copiedPage f.cur f.rack q rec' })
  (s.bump (pgBnch l.tile) 0x160 n).bump (pgMchn (frameChannel l.frame)) 0x124 (32 * n + 8 * b2n rec')

/-- Writes back what is dirty in a line. A line whose content was lost is an ordinary copy of a POISONED frame afterwards, unless
it went with its frame. DEDUCED: Log 40. -/
def State.writeBack (s : State) (l : Line) : State :=
  if !l.isDirty then s
  else
    let s := s.copyBack l l.dirty l.dirtyRec
    let s := match s.kv.lines.find? (fun x => Line.same x l) with
      | none => s
      | some x => s.setLine { x with dirty := 0, dirtyRec := false, age := 0, wb := none }
    if l.wb.isSome then s.unpinForm l.frame (l.form == 1) else s

/-! ### Allocation (R227) -/

/-- Drops a CLEAN line: when Bench holds no other form of its frame, the node sees Rack's copy (R242), and the frame's PTEs become
RACK. DEDUCED: Log 40. -/
def State.evict (s : State) (l : Line) : State :=
  let s := (s.dropLine l).bump (pgBnch l.tile) 0x15C 1
  if (s.frameLines l.frame).isEmpty then
    (s.updFrame l.frame (fun x => { x with cur := x.rack })).mapPtes l.frame (fun p => { p with st := .rack })
  else s

/-- Lines that an allocation may reuse (R227). -/
def State.victims (s : State) (tile set part domain : Nat) : List Line :=
  let c := (s.linesOf tile set).filter (fun l =>
    bitOf (s.pways tile part) l.way && l.use == .copy &&
    (match s.frame l.frame with | some f => f.pinCur == 0 && f.pinOld == 0 | none => true) &&
    (l.part == part || decide (s.pmin tile l.part < s.pused tile l.part)))
  if s.bquota domain ≤ s.bused domain then c.filter (fun l => l.domain == domain) else c

/-- The victim: highest age, then lowest way (R227). -/
def pickVictim (c : List Line) : Option Line :=
  c.foldl (fun b l => match b with
    | none => some l
    | some v => if v.age < l.age ∨ (v.age = l.age ∧ l.way < v.way) then some l else some v) none

/-- What an allocation needs before it can be made. -/
inductive LineRes where
  | way (w : Nat)              -- a free way
  | victim (l : Line)          -- a line to be reused
  | fail
  deriving DecidableEq, Repr

/-- Choice of a line for a frame's set (R227); none while the tile's Bench controller takes no work (R29). -/
def State.chooseLine (s : State) (tile set part domain : Nat) : LineRes :=
  if !s.unitAdmits (pgBnch tile) then .fail
  else
  let free := (List.range 16).find? (fun w => bitOf (s.pways tile part) w && !(s.linesOf tile set).any (fun l => l.way == w))
  match free with
  | some w => if s.bquota domain ≤ s.bused domain
    then (match pickVictim (s.victims tile set part domain) with | some v => .victim v | none => .fail) else .way w
  | none => match pickVictim (s.victims tile set part domain) with
    | some v => .victim v
    | none => .fail

/-- A failed allocation raises NOLINE (R228). -/
def State.noLine (s : State) (tile : Nat) : State := (s.bump (pgBnch tile) 0x168 1).setIrq (pgBnch tile) 1

/-- A line is taken and written whole, which replaces what its codewords held (R261). DEDUCED: Log 29. -/
def State.fillLine (s : State) (l : Line) : State := (s.rewrote (lineAddr l) 69632).setLine l

/-- Whether a write-back that an allocation waits for is under way in the ways that it may use. -/
def State.backUnderWay (s : State) (tile set part : Nat) : Bool :=
  (s.linesOf tile set).any (fun l => bitOf (s.pways tile part) l.way && l.wb.isSome)

/-- Allocates a line at once, writing a dirty victim back first; none when the allocation fails. DEDUCED: Log 40. -/
def State.takeLine (s : State) (tile set frame form : Nat) (use : LineUse) (part domain : Nat) : Option State :=
  match s.chooseLine tile set part domain with
  | .fail => none
  | .way w => some (s.fillLine (newLine tile set w frame form use part domain))
  | .victim v => some (((s.writeBack v).evict v).fillLine (newLine tile set v.way frame form use part domain))

/-- Marks a line's units dirty and its age 0; a unit dirtied while it is being copied stays dirty (R230). -/
def State.touchLine (s : State) (l : Line) (quarters : Nat) (rec : Bool) : State :=
  s.setLine { l with
    dirty := l.dirty ||| quarters, dirtyRec := l.dirtyRec || rec, age := 0
    wb := l.wb.map (fun w => (w.1 &&& (15 ^^^ quarters % 16), w.2 && !rec)) }

end Sys2Proof.Machine
end

