-- ==== Sys2Proof/Machine/Append.lean ====
section
/-!
DEFINITION. APPEND and SEAL (R99 to R103, R143, R503): checks, reservation, Bench lines, the writing of rows and the seals.
-/

namespace Sys2Proof.Machine

/-! ### Refusals -/

/-- The result of the first check that fails. -/
def firstFail (l : List (Bool × Result)) : Option Result := (l.find? (·.1)).map (·.2)

/-- The retry hint of R100, R113 and Table 5-9 for a MIGRATING sequence. -/
def migratingBusy : Result := { status := stBusy, c0 := 1000 }
def rerouteTo (slot : Nat) : Result := { status := stReroute, c0 := slot % 65536 }
def badDescriptor : Result := { status := stBadDescriptor }

/-- Whether a sequence accepts APPEND, SEAL and COMPACT (R100, R111). -/
def seqRefusal : Option SeqRec → Option Result
  | none => some badDescriptor
  | some r => match r.st with
    | .active => none
    | .parked => some { status := stUnsupported }
    | .migrating => some migratingBusy
    | .moved => some (rerouteTo r.peerSlot)
    | .free => some badDescriptor
    | .destroying => some badDescriptor

/-- Commands that R135 takes for domain 0 from a submission ring only. -/
def publicRefused (src : Source) (domain : Nat) : Bool :=
  match src with | .ring _ => false | .conn _ _ => domain == 0

/-- Input of a command (R467, Table 13-8): from the ring data area, or the data that follow the descriptor. DEDUCED: Log 13. -/
def State.input (s : State) (src : Source) (domain addr len : Nat) (data : List Byte) : Except Result (List Byte) :=
  match src with
  | .ring _ => if s.inDataArea domain addr len then .ok (s.ringRead addr len) else .error { status := stAccess }
  | .conn _ _ => if addr ≠ 0 ∨ data.length ≠ len then .error badDescriptor else .ok data

/-- Whether a command's output area is refused (R467). -/
def State.outputRefused (s : State) (src : Source) (domain addr len : Nat) : Option Result :=
  match src with
  | .ring _ => if s.inDataArea domain addr len then none else some { status := stAccess }
  | .conn _ _ => if addr ≠ 0 then some badDescriptor else none

/-- Input elements as FP32 (R50): 0 BF16, 1 FP16, 2 FP32. -/
def elemSize (fmt : Nat) : Nat := if fmt = 2 then 4 else 2
def f32List (fmt : Nat) (l : List Byte) : List Word :=
  (chunks (elemSize fmt) l).map (fun b =>
    match fmt with
    | 0 => f32OfBF16 (leVal b)
    | 1 => f32OfFP16 (leVal b)
    | _ => BitVec.ofNat 32 (leVal b))

/-! ### Append points -/

/-- What the start of a demand fill answers (R108, R353): it runs, it fails at once, or there is no space for its frame. -/
inductive FillRes where
  | runs (s : State)
  | fails (s : State)
  | noSpace (s : State) (units : Nat)
  deriving DecidableEq, Repr

/-- Starts the fills of a list of (VPN, start channel) in order. The first that cannot run gives the command's status. -/
def State.fillAll (s : State) (fill : State → Nat → Nat → FillRes) (vs : List (Nat × Nat)) : State × Option (Nat × Nat) :=
  vs.foldl (fun (acc : State × Option (Nat × Nat)) v => match acc.2 with
    | some _ => acc
    | none => match fill acc.1 v.1 v.2 with
      | .runs s => (s, none)
      | .fails s => (s, some (stPoisoned, 0))
      | .noSpace s u => (s, some (stNoCapacity, u))) (s, none)

/-- A page that a command opens, writes or seals. -/
structure Point where
  layer : Nat
  hg : Nat
  k : Nat
  deriving DecidableEq, Repr

/-- What a page needs. -/
inductive Task where
  | new                      -- no page yet
  | write (frame : Nat)      -- an OPEN page, in place
  | copy (frame : Nat)       -- an OPEN page with SHARE above 1 through a SHARED entry (R143, R503)
  | fill
  | fetch (frame : Nat)      -- an OPEN page that is not in Bench (R107)
  | stop (r : Result)
  deriving DecidableEq, Repr

/-- The task of a page by its entry (Table 4-7, R107, R143). -/
def State.taskOf (s : State) (p : Pte) : Task :=
  match p.st with
  | .invalid => .new
  | .ckpt => .fill
  | .peer => .stop (rerouteTo p.loc)
  | _ =>
    if p.poison then .stop { status := stPoisoned }
    else if !p.a then .stop { status := stAccess }
    else if p.shared && decide (1 < (s.page p.loc).share) then .copy p.loc
    else if p.st == .rack then .fetch p.loc
    else .write p.loc

/-- Walks the pages of a command and finds the task of each. -/
def State.tasks (s : State) (d : Nat) (r : SeqRec) (sh : Shape) (ps : List Point) : State × List (Point × Task) :=
  ps.foldl (fun acc p =>
    let t := acc.1.translate true d (vpnOf r sh p.layer p.hg p.k)
    (t.1, acc.2 ++ [(p, t.1.taskOf t.2)])) (s, [])

/-- The channel at which the walk for a page's frame starts (R235). -/
def startOf (q : Nat) (r : SeqRec) (sh : Shape) (p : Point) : Nat := frameStart q p.layer p.hg (hgOf r sh) p.k

/-- Frames to be reserved. -/
def wantsOf (q : Nat) (r : SeqRec) (sh : Shape) (ts : List (Point × Task)) : List Want :=
  ts.filterMap (fun pt => match pt.2 with
    | .new => some ⟨vpnOf r sh pt.1.layer pt.1.hg pt.1.k, startOf q r sh pt.1, none, true, 0⟩
    | .copy f => some ⟨vpnOf r sh pt.1.layer pt.1.hg pt.1.k, startOf q r sh pt.1, some (frameChannel f), true, 0⟩
    | _ => none)

/-- What taking OPEN lines for reserved frames answers: the lines are taken; or a tile has none to give now, with NOLINE raised or
a victim's write-back under way (R227, R228). -/
inductive Lines where
  | taken (s : State)
  | wait (s : State) (tile : Nat) (raised : Bool)
  deriving DecidableEq, Repr

/-- Takes an OPEN line for every frame reserved (R227). At the first that cannot have one now no line is taken: a failed
allocation raises NOLINE, unless it has been raised for the command (R228); a dirty victim is written back, one at a time in the
ways that may be used. DEDUCED: Log 40. -/
def State.openLines (s : State) (d part : Nat) (raised : Bool) (gs : List Got) : Lines :=
  gs.foldl (fun acc g => match acc with
    | .wait s t b => .wait s t b
    | .taken s' =>
      let t := frameTile g.frame
      match s'.chooseLine t (frameSet g.frame) part d with
      | .fail => .wait (if raised then s else s.noLine t) t true
      | .way w => .taken (s'.fillLine (newLine t (frameSet g.frame) w g.frame 0 .opened part d))
      | .victim v =>
        if v.isDirty then .wait (if s.backUnderWay t (frameSet g.frame) part then s else s.beginBack v v.dirty v.dirtyRec) t raised
        else .taken ((s'.evict v).fillLine (newLine t (frameSet g.frame) v.way g.frame 0 .opened part d))) (.taken s)

/-- The result of a failed reservation (R101): U / 272 rounded up in COUNT0, the domain's unused quota / 272 in COUNT1. -/
def State.noCapacity (s : State) (d u : Nat) : Result :=
  { status := stNoCapacity, c0 := max 1 (ceilDiv u frameUnits), c1 := (s.rquota d - s.rused d) / frameUnits }

/-- What a command's pages need before it can write: fills and fetches to wait for, a refusal, or a reservation. -/
inductive Prep where
  | refuse (s : State) (r : Result)
  | short (s : State) (r : Result)      -- a failed reservation (R236)
  | await (s : State) (w : Wait)
  | ready (s : State) (ts : List (Point × Task)) (gs : List Got)
  deriving DecidableEq, Repr

/-- Marks an OPEN page's frame as being fetched into Bench (R107). -/
def State.startFetch (s : State) (f : Nat) : State :=
  if s.kv.fetches.contains f then s else s.setKv { s.kv with fetches := s.kv.fetches ++ [f] }

/-- What an APPEND reads of the pages it has: the record of a page that it writes, and the slots of a page that it copies. A loss is
captured (Table 4-18) and ends the command with ST_POISONED and no effect (Tables 4-7, 5-11). DEDUCED: Log 65. -/
def State.readTasks (s : State) (ts : List (Point × Task)) : State × Bool :=
  ts.foldl (fun (acc : State × Bool) (pt : Point × Task) =>
    match pt.2 with
    | .write f =>
      let r := acc.1.readRecord f
      if r.2 then (r.1.logErr (pgApnd (frameTile f)) 1 (frameChannel f) f, true) else (r.1, acc.2)
    | .copy f =>
      let r := acc.1.readFrame f (acc.1.inBench f) 2
      if r.2 then (r.1.logErr (pgApnd (frameTile f)) 2 (frameChannel f) f, true) else (r.1, acc.2)
    | _ => acc) (s, false)

/-- Whether a command is an APPEND queued at a tile's append unit (R119). -/
def queuedAt (t : Nat) (c : Cmd) : Bool :=
  match c.op, c.wait with
  | .append _, .victim k _ _ _ => k == t
  | _, _ => false

/-- APPENDs queued at a tile's append unit, a given command apart. -/
def State.unitQueue (s : State) (t id : Nat) : Nat := s.cmds.list.countP (fun (c : Cmd) => c.id != id && queuedAt t c)

/-- A command waits at a tile's append unit for a line. At most 32 APPENDs queue there; a further one waits in the request engine,
and QFULL is raised when the queue reaches 32 (R120). -/
def State.awaitLine (s : State) (c : Cmd) (t : Nat) (raised : Bool) (x : Space) : State × Wait :=
  let app := match c.op with | .append _ => true | _ => false
  let there := match c.wait with | .victim k _ _ _ => k == t | _ => false
  let n := s.unitQueue t c.id
  if app && !there && decide (32 ≤ n) then (s, .unit (pgApnd t) x)
  else (if app && !there && n == 31 then s.setIrq (pgApnd t) 2 else s, .victim t s.nrt raised x)

/-- What of a waiting command's space its pages still take: frames of channels that can be used. -/
def State.keepHeld (s : State) (ws : List Want) (x : Space) : List Got :=
  x.frames.filter (fun g => s.channelOk (frameChannel g.frame) && ws.any (fun w => w.vpn == g.vpn))

/-- A tile that holds a page of a command and whose append unit takes no work now (R29), or finds no grant of the channel bus (R244).
A unit that has taken the command in goes on with it. -/
def State.busyUnit (s : State) (w : Wait) (ts : List (Point × Task)) (gs : List Got) : Option Nat :=
  let there (t : Nat) : Bool := match w with | .victim k _ _ _ => k == t | _ => false
  ((gs.map (·.frame) ++ ts.filterMap (fun (pt : Point × Task) => match pt.2 with | .write f => some f | _ => none)).map frameTile).find?
    (fun t => !s.busOpen t || (!s.unitAdmits (pgApnd t) && !there t))

/-- Walks, reserves and takes lines (R101, R107, R108, R228). `fill` starts the demand fill of a VPN from a channel. What an earlier
run reserved is kept (R235). -/
def State.prepare (s : State) (fill : State → Nat → Nat → FillRes) (c : Cmd) (q : Nat) (r : SeqRec) (sh : Shape)
    (ps : List Point) : Prep :=
  let d := c.hdr.domain
  let (s, ts) := s.tasks d r sh ps
  match ts.findSome? (fun pt => match pt.2 with | .stop r => some r | _ => none) with
  | some r => .refuse s r
  | none =>
    let need := ts.filter (fun pt => match pt.2 with | .fill => true | .fetch _ => true | _ => false)
    if !need.isEmpty then
      let s := need.foldl (fun s (pt : Point × Task) => match pt.2 with | .fetch f => s.startFetch f | _ => s) s
      let f := s.fillAll fill ((need.filter (fun pt => pt.2 == .fill)).map (fun pt =>
        (vpnOf r sh pt.1.layer pt.1.hg pt.1.k, startOf q r sh pt.1)))
      match f.2 with
      | some (st, u) => if st = stNoCapacity then .short f.1 (f.1.noCapacity d u) else .refuse f.1 { status := st }
      | none => .await f.1 (.fills (need.map (fun pt => (d, vpnOf r sh pt.1.layer pt.1.hg pt.1.k))) s.nrt)
    else
      let part := s.partOf c.hdr.context
      let (s, lost) := if c.wait.space.frames.isEmpty then s.readTasks ts else (s, false)
      if lost then .refuse s { status := stPoisoned }
      else
        let ws := wantsOf q r sh ts
        let kept := s.keepHeld ws c.wait.space
        match s.reserve d (some part) (ws.filter (fun w => !kept.any (fun g => g.vpn == w.vpn))) with
        | .error u => .short s (s.noCapacity d u)
        | .ok (s', gs) =>
          let all := kept ++ gs
          let x : Space := ⟨all, c.wait.space.tables ++ newTables s s'⟩
          match s'.busyUnit c.wait ts all with
          | some t => .await s' (.unit (pgApnd t) x)
          | none => match s'.openLines d part (match c.wait with | .victim _ _ b _ => b | _ => false) all with
            | .taken s' => .ready s' ts all
            | .wait s' t b => let w := s'.awaitLine c t b x; .await w.1 w.2

/-- Opens new pages and copies shared ones into the frames reserved for them; SHARED is cleared where the share has fallen
to 1 (R143, R503). -/
def State.openPages (s : State) (d q : Nat) (r : SeqRec) (sh : Shape) (ts : List (Point × Task)) (gs : List Got) : State :=
  ts.foldl (fun s (pt : Point × Task) =>
    let v := vpnOf r sh pt.1.layer pt.1.hg pt.1.k
    match pt.2, gs.find? (·.vpn == v) with
    | .new, some g => s.openFrame d q v (firstPosOf r sh.T pt.1.k) r.shapeId g
    | .copy f, some g =>
      let s := s.copyPage d q v f g
      match s.frameLine g.frame 0 with
      | some l => s.touchLine l 15 true
      | none => s
    | .write f, _ =>
      let s := s.setPte d v { (s.pte d v) with shared := false }
      match s.frameLine f 0 with
      | some l => s.setLine { l with use := .opened }
      | none => s
    | _, _ => s) s

/-! ### Writing rows -/

/-- Quarters of a line that `n` bytes from byte `b` of the payload touch. -/
def quarters (b n : Nat) : Nat := (List.range 4).foldl (fun m i => if b < (i + 1) * 16384 ∧ i * 16384 < b + n then m + 2 ^ i else m) 0

/-- A stream while an APPEND writes it: the open page, the histories, and counts. -/
structure Pen where
  r : SeqRec
  page : Page
  clip : Nat
  dirty : Nat
  deriving DecidableEq, Repr

/-- The rows of an APPEND, in the order of R99: row of (layer index, token, KV head, part). -/
structure Rows where
  first : Nat
  tokens : Nat
  kvHeads : Nat
  Q : Nat
  rows : List (List Word)
  deriving DecidableEq, Repr

def Rows.row (a : Rows) (li i kv q : Nat) : List Word :=
  (a.rows[((li * a.tokens + i) * a.kvHeads + kv) * a.Q + q]?).getD []

/-- The exact amax of the scale unit of slice `u` of a page, when the APPEND writes the whole slice (R58): over the tokens of
the slice that lie in the page. -/
def Rows.whole (a : Rows) (sh : Shape) (li kv q g slice firstPos : Nat) : Option Word :=
  if a.first ≤ slice * 64 ∧ slice * 64 + 64 ≤ a.first + a.tokens then
    some (amaxOf (((List.range 64).filter (fun j => decide (firstPos ≤ slice * 64 + j ∧ slice * 64 + j < firstPos + sh.T))).flatMap
      (fun j => let row := a.row li (slice * 64 + j - a.first) kv q
        if sh.fmt = 3 then (row.drop (32 * g)).take 32 else row)))
  else none

/-- Writes one token into a page: every head and part, the valid bit and the importance counter last; the units of a slice
close with its last token (R59, R102). -/
def Pen.token (sh : Shape) (a : Rows) (layer hg li i seed : Nat) (w : Pen) : Pen :=
  let pos := a.first + i
  let o := pos - w.page.firstPos
  let t := w.page.slotFor o
  let heads := (List.range sh.heads).filter (fun h => decide (hg * sh.heads + h < a.kvHeads))
  let w := (heads.flatMap (fun h => (List.range a.Q).map (fun q => (h, q)))).foldl (fun w (hq : Nat × Nat) =>
    let kv := hg * sh.heads + hq.1
    let init (g : Nat) : UnitInit :=
      ⟨a.whole sh li kv hq.2 g (pos / 64) w.page.firstPos, AL.getD (streamIdx w.r sh layer kv hq.2 g) [] w.r.history⟩
    let (p, n) := w.page.putRow sh w.r.headroom hq.1 hq.2 t o (a.row li i kv hq.2) init
    let b := sh.elem hq.1 hq.2 t 0
    let m := if sh.half then quarters (b / 2) (sh.W / 2) else quarters b sh.W
    { w with page := p, clip := w.clip + n, dirty := w.dirty ||| m }) w
  let p := { w.page with
    valid := w.page.valid ||| (1#1024 <<< t), filled := max w.page.filled (t + 1)
    imp := w.page.imp.write t (BitVec.ofNat 8 seed), fCkptCurrent := false
    kept := if w.page.fCompacted then w.page.kept ||| (1#1024 <<< o) else w.page.kept }
  if (pos + 1) % 64 = 0 then
    let c := closeUnits w.r sh layer hg p
    { w with r := c.1, page := c.2 }
  else { w with page := p }

/-- SEED as an APPEND that is admitted now takes it for a tile: a value that waits for this boundary, or the one in force (R119). -/
def State.seedOf (s : State) (t : Nat) : Nat :=
  match AL.get (regKeyAt (pgApnd t) 0x100 0) s.rf.shadow with
  | some w => w.toNat % 256
  | none => s.fld (pgApnd t) 0x100 0 8

/-- Writes the rows that an APPEND has for one page (R52 to R61), under the SEED of its admission. DESIGN CHOICE: Log 61. -/
def State.writePage (s : State) (d q : Nat) (sh : Shape) (a : Rows) (seeds : List Nat) (layer hg li k : Nat) : State :=
  match s.seqRec d q with
  | none => s
  | some r =>
    let f := (s.pte d (vpnOf r sh layer hg k)).loc
    let seed := seeds.getD (frameTile f) 0
    let p := s.page f
    let here := (List.range a.tokens).filter (fun i => decide (p.firstPos ≤ a.first + i ∧ a.first + i < p.firstPos + sh.T))
    let w := here.foldl (fun w i => w.token sh a layer hg li i seed) (⟨r, p, 0, 0⟩ : Pen)
    let heads := ((List.range sh.heads).countP (fun h => decide (hg * sh.heads + h < a.kvHeads)))
    let s := s.putSeq d q { w.r with clipTotal := w.r.clipTotal + w.clip }
    let s := s.updFrame f (fun x => { x with cur := w.page })
    let s := match s.frameLine f 0 with
      | some l => s.touchLine l w.dirty true
      | none => s
    let s := (s.busGrant (frameTile f) 17).bump64 (pgApnd (frameTile f)) 0x108 (here.length * heads * a.Q)
    if w.clip = 0 then s else (s.bump64 (pgApnd (frameTile f)) 0x110 w.clip).setIrq (pgApnd (frameTile f)) 1

/-! ### Seals -/

/-- The open page of a stream, if it has one: its ordinal and frame. -/
def State.openPage (s : State) (d : Nat) (r : SeqRec) (sh : Shape) (layer hg : Nat) : Option Nat :=
  let k := (locate r sh.T (r.nextPos.getD layer 0)).1
  if 2 ^ r.pmaxLog2 ≤ k then none
  else match (s.pte d (vpnOf r sh layer hg k)).st with
    | .invalid => none
    | _ => some k

/-- Every stream of a sequence. -/
def streamsOf (r : SeqRec) (sh : Shape) : List (Nat × Nat) :=
  (List.range r.layers).flatMap (fun l => (List.range (hgOf r sh)).map (fun h => (l, h)))

/-- The open pages of a sequence. -/
def State.openPoints (s : State) (d : Nat) (r : SeqRec) (sh : Shape) : List Point :=
  (streamsOf r sh).filterMap (fun lh => (s.openPage d r sh lh.1 lh.2).map (fun k => ⟨lh.1, lh.2, k⟩))

/-- Whether every layer has the same NEXT_POS. -/
def evenPos (r : SeqRec) : Bool := r.nextPos.all (· == r.nextPos.headD 0)

/-- The seal-log entry that an early seal at position `p` adds (R88), if the seal leaves slots unwritten. -/
def sealEntry (r : SeqRec) (T p : Nat) : Option (Nat × Nat) :=
  let ks := locate r T p
  if ks.2 = 0 then none else some (ks.1 + 1, p)

/-- Seals the pages of a list, in order. -/
def State.sealPoints (s : State) (d q : Nat) (sh : Shape) (ps : List Point) : State :=
  ps.foldl (fun s p => match s.seqRec d q with
    | none => s
    | some r =>
      let v := vpnOf r sh p.layer p.hg p.k
      s.sealFrame d q sh p.layer p.hg v (s.pte d v).loc) s

/-- Seals every open page (R103): one log entry for all streams. -/
def State.sealAll (s : State) (d q : Nat) (sh : Shape) : State × Nat :=
  match s.seqRec d q with
  | none => (s, 0)
  | some r =>
    let ps := s.openPoints d r sh
    let s := s.sealPoints d q sh ps
    match ps, s.seqRec d q with
    | [], _ => (s, 0)
    | _, none => (s, ps.length)
    | _, some r' => match sealEntry r sh.T (r.nextPos.headD 0) with
      | none => (s, ps.length)
      | some e => (s.putSeq d q { r' with sealLog := r'.sealLog ++ [e] }, ps.length)

def State.bumpChange (s : State) (d q : Nat) : State :=
  match s.seqRec d q with
  | none => s
  | some r => s.putSeq d q { r with changeSeq := (r.changeSeq + 1) % 2 ^ 64 }

/-! ### SEAL -/

/-- SEAL (R103, R503). -/
def State.doSeal (s : State) (fill : State → Nat → Nat → FillRes) (c : Cmd) (q : Nat) : OpRes :=
  let d := c.hdr.domain
  if publicRefused c.src d then .done s { status := stAccess }
  else match s.seqRec d q with
  | none => .done s badDescriptor
  | some r => match seqRefusal (some r) with
    | some x => .done s x
    | none =>
      let sh := s.shape d r.shapeId
      let ps := s.openPoints d r sh
      if !evenPos r then .done s badDescriptor
      else if ps.isEmpty then .done (s.bumpChange d q) { status := stOk }
      else if (sealEntry r sh.T (r.nextPos.headD 0)).isSome ∧ 64 ≤ r.sealLog.length then .done s { status := stNoCapacity }
      else match s.prepare fill c q r sh ps with
        | .refuse s x => .done s x
        | .short s x => .done s x
        | .await s w => .wait s w 0
        | .ready s ts gs =>
          let s := s.openPages d q r sh ts gs
          let (s, n) := s.sealAll d q sh
          .done (s.bumpChange d q) { status := stOk, c0 := n }

/-! ### APPEND -/

/-- Pages that an APPEND writes, in stream order. -/
def appendPoints (r : SeqRec) (sh : Shape) (a : AppendD) : List Point :=
  let k0 := (locate r sh.T a.posFirst).1
  let k1 := (locate r sh.T (a.posFirst + a.tokens - 1)).1
  (List.range a.layerCount).flatMap (fun l => (List.range (hgOf r sh)).flatMap (fun hg =>
    (List.range (k1 + 1 - k0)).map (fun i => ⟨a.layerFirst + l, hg, k0 + i⟩)))

/-- Bytes of the rows of an APPEND (R99). -/
def rowBytes (r : SeqRec) (sh : Shape) (a : AppendD) : Nat :=
  a.layerCount * a.tokens * r.kvHeads * sh.Q * sh.W * elemSize a.infmt

/-- The checks of an APPEND on its descriptor and its sequence, in order (R88, R99, R100, R103). One whose end
position passes 2^32 has no capacity. DESIGN CHOICE: Log 74. -/
def appendRefusal (r : SeqRec) (shOk : Bool) (sh : Shape) (sealAfter : Bool) (a : AppendD) : Option Result :=
  let endPos := a.posFirst + a.tokens
  let np (l : Nat) := r.nextPos.getD l 0
  let covered (l : Nat) := decide (a.layerFirst ≤ l ∧ l < a.layerFirst + a.layerCount)
  firstFail [
    (!shOk, badDescriptor),
    (decide (2 < a.infmt ∨ a.tokens = 0 ∨ 1024 < a.tokens ∨ a.layerCount = 0 ∨ r.layers < a.layerFirst + a.layerCount), badDescriptor),
    (decide (a.rowBytes ≠ rowBytes r sh a ∨ 1048512 < a.rowBytes), badDescriptor),
    ((List.range r.layers).any (fun l => covered l && np l != a.posFirst), { status := stBadDescriptor, c0 := np a.layerFirst }),
    (sealAfter && (List.range r.layers).any (fun l => !covered l && np l != endPos), badDescriptor),
    (decide (2 ^ r.pmaxLog2 ≤ (locate r sh.T (endPos - 1)).1 ∨ 2 ^ 32 < endPos), { status := stNoCapacity }),
    (sealAfter && (sealEntry r sh.T endPos).isSome && decide (64 ≤ r.sealLog.length), { status := stNoCapacity })]

/-- The pages that an APPEND fills to their last slot. -/
def fullPoints (r : SeqRec) (sh : Shape) (a : AppendD) : List Point :=
  (appendPoints r sh a).filter (fun p => decide (firstPosOf r sh.T p.k + sh.T ≤ a.posFirst + a.tokens))

/-- The rows of an APPEND, cut from its data. -/
def rowsOf (r : SeqRec) (sh : Shape) (a : AppendD) (words : List Word) : Rows :=
  ⟨a.posFirst, a.tokens, r.kvHeads, sh.Q, chunks sh.W words⟩

/-- Writes an APPEND whose pages are ready: R102, R103. A SEED that waited for this APPEND is now in force in the tiles that it
writes into (R119). Answers the state, the clipped elements and the pages sealed. -/
def State.appendWrite (s : State) (d q : Nat) (r : SeqRec) (sh : Shape) (sealAfter : Bool) (a : AppendD) (seeds : List Nat)
    (words : List Word) : State × Nat × Nat :=
  let rows := rowsOf r sh a words
  let ps := appendPoints r sh a
  let tiles := (ps.map (fun p => frameTile (s.pte d (vpnOf r sh p.layer p.hg p.k)).loc)).eraseDups
  let s := tiles.foldl (fun (s : State) t => if s.seedOf t = seeds.getD t 0 then s.commitShadow (pgApnd t) else s) s
  let full := fullPoints r sh a
  let s := ps.foldl (fun (s : State) (p : Point) =>
    let s := s.writePage d q sh rows seeds p.layer p.hg (p.layer - a.layerFirst) p.k
    if full.contains p then s.sealPoints d q sh [p] else s) s
  let clip := match s.seqRec d q with | some r' => r'.clipTotal - r.clipTotal | none => 0
  let s := match s.seqRec d q with
    | none => s
    | some r' => s.putSeq d q { r' with nextPos := r'.nextPos.zipIdx.map (fun (p, l) =>
        if a.layerFirst ≤ l ∧ l < a.layerFirst + a.layerCount then a.posFirst + a.tokens else p) }
  let (s, n) := if sealAfter then s.sealAll d q sh else (s, 0)
  (s.bumpChange d q, clip, full.length + n)

/-- Open pages of the layers that an APPEND with SEAL_AFTER does not cover, and that it seals too (R103). -/
def State.otherOpen (s : State) (d : Nat) (r : SeqRec) (sh : Shape) (a : AppendD) : List Point :=
  (s.openPoints d r sh).filter (fun p => !(decide (a.layerFirst ≤ p.layer ∧ p.layer < a.layerFirst + a.layerCount)))

/-- APPEND. -/
def State.doAppend (s : State) (fill : State → Nat → Nat → FillRes) (short : State → Nat → Nat → Result → State)
    (c : Cmd) (a : AppendD) : OpRes :=
  let h := c.hdr
  let d := h.domain
  if publicRefused c.src d then .done s { status := stAccess }
  else match s.seqRec d a.seq with
  | none => .done s badDescriptor
  | some r => match seqRefusal (some r) with
    | some x => .done s x
    | none =>
      let sh := s.shape d r.shapeId
      match appendRefusal r (shapeValid (s.shapeW d r.shapeId)) sh (h.flag 0) a with
      | some x => .done s x
      | none => match s.input c.src d a.rowAddr a.rowBytes c.data with
        | .error x => .done s x
        | .ok bytes =>
          let words := f32List a.infmt bytes
          if !words.all f32Finite then .done s badDescriptor
          else
            let ps := appendPoints r sh a ++ (if h.flag 0 then s.otherOpen d r sh a else [])
            match s.prepare fill c a.seq r sh ps with
            | .refuse s x => .done s x
            | .short s x => .done (short s d a.seq x) x
            | .await s w => .wait s w 0
            | .ready s ts gs =>
              let s := s.openPages d a.seq r sh ts gs
              let (s, clip, n) := s.appendWrite d a.seq r sh (h.flag 0) a c.seeds words
              .done s { status := stOk, c0 := a.tokens, c1 := n, clip := clip }

end Sys2Proof.Machine
end

