-- ==== Sys2Proof/Machine/Transport.lean ====
section
/-!
DEFINITION. The Poris transport: checks and placement of packets, acknowledgement, retransmission, rate, paths, key
generations and the life of a connection (R302 to R333).
-/

namespace Sys2Proof.Machine

/-! ### Settings of the XPRT page (Table 13-12), with the values that the table treats 0 and others as -/

def State.rtoMin (s : State) : Nat := usTicks (max 50 (s.fld pgXprt 0x104 0 16))
def State.retxMax (s : State) : Nat := max 1 (s.fld pgXprt 0x108 16 8)
def State.rtoMax (s : State) : Nat := msTicks (max 1 (s.fld pgXprt 0x108 0 16))
def State.ackEvery (s : State) : Nat := max 1 (s.fld pgXprt 0x10C 8 8)
def State.ackDelay (s : State) : Nat := usTicks (max 1 (s.fld pgXprt 0x10C 0 8))
/-- In units of 100 Mb/s. -/
def State.minRate (s : State) : Nat := 10 * max 1 (s.fld pgXprt 0x110 24 8)
def State.reasmMs (s : State) : Nat := msTicks (max 1 (s.fld pgXprt 0x114 0 16))
def State.hsMs (s : State) : Nat := msTicks (max 1 (s.fld pgXprt 0x118 16 16))
def State.halfOpenMax (s : State) : Nat := max 1 (s.fld pgXprt 0x118 0 9)
def State.probeUs (s : State) : Nat := usTicks (max 1 (s.fld pgXprt 0x11C 0 16))
/-- `PORT.MTU`: values below 4,192 are treated as 4,192. -/
def State.mtu (s : State) (port : Nat) : Nat := max 4192 (s.fld (pgPort port) 0x108 0 14)

/-- XPRT admits from the fabric while it is ACTIVE and not frozen (R500). -/
def State.xprtAdmits (s : State) : Bool := s.fld pgXprt 0x18 0 1 == 1 && s.fld pgXprt 0x18 1 1 == 0 && !s.pageFenced pgXprt

/-! ### Slots (R320, R321) -/

def laneSlots (ls : List Lane) (s : State) : Nat :=
  s.net.conns.foldl (fun n (_, c) => c.inMsgs.foldl (fun n m => if ls.contains m.lane then n + m.npkt + 1 else n) n) 0
def State.reqFree (s : State) : Nat := 32768 - laneSlots [.request] s

/-- Whether a response message of `n` + 1 packets takes slots that were reserved when a request was sent (R321, R323): the
request is the one that its first packet names, or, while that packet has not come, any that is out on the connection and has
as many slots. DEDUCED: Log 68. -/
def State.slotsHeld (s : State) (c : Conn) (n : Nat) (head : Option (List Byte)) : Bool :=
  s.net.outbound.any (fun o => o.sent && o.conn == connId c && decide (n + 1 ≤ o.slots) && (match head with
    | some b => bitsOf (leVal (b.drop 3 |>.take 1)) 4 4 == 0 && o.msgId == leVal (b.take 3)
    | none => true))

/-- The bytes of a message's first packet, when it has come. -/
def InMsg.head (m : InMsg) : Option (List Byte) := (m.chunks.find? (fun k => k.1 == 0)).map (·.2)

/-- Response slots that messages take out of the unreserved share. DEDUCED: Log 68. -/
def State.respUse (s : State) : Nat :=
  s.net.conns.foldl (fun n (_, c) => c.inMsgs.foldl (fun n m =>
    if m.lane = .request ∨ (m.lane = .response ∧ s.slotsHeld c m.npkt (InMsg.head m)) then n else n + m.npkt + 1) n) 0

/-- Free response slots, unreserved. DEDUCED: Log 68. -/
def State.respFree (s : State) : Nat := 24576 - s.respUse - s.net.respReserved

/-- POOL_LOW is set when REQ_FREE or RESP_FREE has fallen to 0 (Table 13-13). DEDUCED: Log 68. -/
def State.poolLow (s t : State) : State :=
  if (s.reqFree ≠ 0 ∧ t.reqFree = 0) ∨ (s.respFree ≠ 0 ∧ t.respFree = 0) then t.setIrq pgXprt 2 else t

/-- Reassembly contexts in use. -/
def State.reasmUse (s : State) : Nat :=
  s.net.conns.foldl (fun n (_, c) => n + c.inMsgs.countP (fun m => m.npkt != 0 && !m.complete)) 0

/-! ### Keys (R305, R308, R315) -/

/-- The bytes of a label of Table 13-4. -/
def keyLabel (t : String) : List Byte := t.toList.map (fun c => BitVec.ofNat 8 c.toNat)

/-- The secret of a key generation; that of generation 0 is PRK (R308, R315). -/
def genSecret (prk : BitVec 384) : Nat → BitVec 384
  | 0 => prk
  | g + 1 => Config.hkdfExpand (genSecret prk g) (keyLabel "poris ku") 48

/-- Key and IV of the node-to-peer direction in a generation (Table 13-4). -/
def sendKey (c : Conn) : BitVec 256 := BitVec.setWidth 256 (Config.hkdfExpand (genSecret c.secret c.genTx) (keyLabel "poris n2c k") 32)
def sendIv (c : Conn) : BitVec 96 := BitVec.setWidth 96 (Config.hkdfExpand (genSecret c.secret c.genTx) (keyLabel "poris n2c iv") 12)

/-- The GCM nonce of a packet the node sends: CLASS is 0 for DATA and 1 for the other encrypted types (R305). -/
def sendNonce (c : Conn) (cls psn : Nat) : BitVec 96 := sendIv c ^^^ BitVec.ofNat 96 (cls * 2 ^ 64 + psn)

/-- What is sent behind the header of an encrypted packet: the payload encrypted, then the 16-byte tag (R304). -/
def sealBytes (c : Conn) (cls psn : Nat) (head payload : List Byte) : List Byte :=
  (List.range (payload.length + 16)).map (Config.gcmByte (sendKey c) (sendNonce c cls psn) head payload)

/-! ### Acknowledgement (R327) -/

/-- Sorted PSNs as ranges of consecutive ones, at most 32. -/
def rangesOf (l : List Nat) : List (Nat × Nat) :=
  ((sortBy leNat l).foldl (fun acc p => match acc with
    | [] => [(p, 1)]
    | (a, n) :: t => if p = a + n then (a, n + 1) :: t else if p < a + n then acc else (p, 1) :: (a, n) :: t) []).reverse.take 32

def State.sendAck (s : State) (c : Conn) : State :=
  (s.setConn { c with rxSince := 0, ceSince := 0, rxOldest := 0 }).sendCtl c.index
    (.ack c.rxBase (rangesOf c.rxAbove) c.ceSince (c.ceSince != 0) c.rxPath)

/-- Raises `base` past every PSN that `above` holds. -/
def advanceBase (base : Nat) (above : List Nat) : Nat → Nat
  | 0 => base
  | n + 1 => if above.contains base then advanceBase (base + 1) above n else base

/-- The node's path of an end. -/
def pathOf (c : Conn) (port sub peerAddr udpPort : Nat) : Nat :=
  (c.paths.findIdx? (fun q => q.port == port && q.sub == sub && q.peerAddr == peerAddr && q.udpPort == udpPort)).getD 0

/-- Records a DATA PSN as received and sends an ACK when R327 asks for one at once. A PSN of the previous key generation belongs to a
counter that is over. DEDUCED: Log 42. -/
def State.ackPsn (s : State) (c : Conn) (p : DataPkt) : State :=
  if p.keyGen ≠ some c.genRx then s.setConn c else
  let above := if p.psn < c.rxBase ∨ c.rxAbove.contains p.psn then c.rxAbove else p.psn :: c.rxAbove
  let base := advanceBase (max c.rxBase p.lowPsn) above (above.length + 1)
  let above := above.filter (fun x => base ≤ x)
  let c := { c with
    rxBase := base, rxAbove := above, rxSince := c.rxSince + 1
    rxOldest := if c.rxSince = 0 then s.nrt else c.rxOldest
    ceSince := c.ceSince + b2n p.ce, rxPath := pathOf c p.port p.sub p.peerAddr p.udpPort, usedAt := s.nrt }
  if base ≤ p.psn ∨ p.ce ∨ s.ackEvery ≤ c.rxSince then s.sendAck c else s.setConn c

/-! ### Abandoned messages (R319, R325, R333) -/

/-- Discards a message being received, counts it and answers it with ABANDON. A request MSG_ID abandoned counts as admitted
(R325). DEDUCED: Log 38. -/
def State.abandonMsg (s : State) (c : Conn) (lane : Lane) (msgId reason : Nat) : State :=
  ((s.bump pgXprt 0x144 1).setConn { c with
    inMsgs := c.inMsgs.filter (fun m => !(m.lane == lane && m.msgId == msgId))
    skipped := c.skipped ++ [(lane, msgId)] }).sendCtl c.index (.abandon msgId lane reason)

/-- N passes every abandoned request MSG_ID (R324, R325). -/
def passSkipped (n : Nat) (sk : List (Lane × Nat)) : Nat → Nat × List (Lane × Nat)
  | 0 => (n, sk)
  | k + 1 => if sk.contains (.request, n) then passSkipped ((n + 1) % 2 ^ 24) (sk.erase (.request, n)) k else (n, sk)

def Conn.settleN (c : Conn) : Conn :=
  let r := passSkipped c.nextReq c.skipped (c.skipped.length + 1)
  { c with nextReq := r.1, skipped := r.2 }

/-! ### A DATA packet (Table 13-7) -/

/-- Lane of a header (Table 13-1). -/
def laneOf (n : Nat) : Lane := if n = 0 then .request else if n = 1 then .response else .control

/-- The message rules of R319 for a packet, given the message's packets so far. -/
def pktRules (c : Conn) (p : DataPkt) : Bool :=
  decide (p.offset % 4096 = 0 ∧ p.offset / 4096 ≤ p.npkt ∧ p.npkt ≤ 255) &&
  (p.last == decide (p.offset = p.npkt * 4096)) && (p.first == decide (p.offset = 0)) &&
  (p.last || p.payload.length == 4096) &&
  c.inMsgs.all (fun m => !(m.lane == laneOf p.lane && m.msgId == p.msgId) || (m.npkt == p.npkt && m.epoch == p.epoch)) &&
  (c.composition != 0xFFFF || p.epoch == 0)

/-- Whether the connection accepts the epoch of a packet (R332). -/
def State.connEpochOk (s : State) (c : Conn) (e : Word) : Bool :=
  if c.composition = 0xFFFF then e == 0
  else (match s.lease.comp with | some h => h.1 == c.composition && s.lease.st == .leased | none => false) && s.epochOk false e

/-- A packet whose epoch is refused (R333). The response carries the tag when the packet at offset 0 has come, now or before.
DEDUCED: Log 38. -/
def State.staleMsg (s : State) (c : Conn) (p : DataPkt) : State :=
  let lane := laneOf p.lane
  let s := (s.bump pgXprt 0x13C 1).abandonMsg c lane p.msgId 4
  if lane = .request then
    let here := c.inMsgs.find? (fun m => m.lane == lane && m.msgId == p.msgId)
    let first := if p.offset = 0 then some p.payload
      else here.bind InMsg.head
    let tagged := first.isSome
    let r := if (match s.lease.comp with | some h => h.1 == c.composition | none => false) then s.epochRefusal else (stStaleEpoch, 0)
    let pl := first.getD []
    s.respond c.index p.msgId p.epoch
      ⟨BitVec.ofNat 32 (leVal (pl.drop 8 |>.take 4)), r.1, leVal (pl.take 1), leVal (pl.take 4) / 2 ^ 20 % 4096, r.2, 0, 0, 0, 0⟩ tagged []
  else s

/-- Places a packet in its message (R321). -/
def placePkt (now : Nat) (c : Conn) (p : DataPkt) : Conn :=
  let lane := laneOf p.lane
  let bit := p.offset / 4096
  let m := (c.inMsgs.find? (fun m => m.lane == lane && m.msgId == p.msgId)).getD
    ⟨lane, p.msgId, p.npkt, p.epoch, 0, none, [], now, false⟩
  if m.bitmap.getLsbD bit then c
  else
    let bm := m.bitmap ||| (1#256 <<< bit)
    let m := { m with
      bitmap := bm, chunks := m.chunks ++ [(p.offset, p.payload)], lastAt := now
      length := if p.last then some (p.offset + p.payload.length) else m.length
      complete := decide (bm.toNat = 2 ^ (p.npkt + 1) - 1) }
    { c with inMsgs := (c.inMsgs.filter (fun x => !(x.lane == lane && x.msgId == p.msgId))) ++ [m] }

/-- The bytes of a complete message, in order of offset. -/
def InMsg.bytes (m : InMsg) : List Byte :=
  ((sortBy (fun a b => leNat a.1 b.1) m.chunks).map (·.2)).flatten

/-- Steps 4 to 7 of Table 13-7 for a packet that has passed its GCM check on connection `c`. DEDUCED: Log 67. DEDUCED: Log 68. -/
def State.dataPlaced (s : State) (c : Conn) (p : DataPkt) : State :=
  let lane := laneOf p.lane
  if !pktRules c p then
    let s := s.ackPsn c p
    let c := (s.conn c.index).getD c
    ((s.logErr pgXprt 2 1 (connId c)).setIrq pgXprt 1).abandonMsg c lane p.msgId 2
  else if c.skipped.contains (lane, p.msgId) then s.ackPsn c p
  else if lane = .request ∧ 8192 ≤ (p.msgId + 2 ^ 24 - c.nextReq) % 2 ^ 24 then s.ackPsn c p
  else if lane = .request ∧ c.closing then
    let s := s.ackPsn c p
    s.abandonMsg ((s.conn c.index).getD c) lane p.msgId 3
  else if !s.connEpochOk c p.epoch then
    let s := s.ackPsn c p
    s.staleMsg ((s.conn c.index).getD c) p
  else
    let fresh := !c.inMsgs.any (fun m => m.lane == lane && m.msgId == p.msgId)
    let head := if p.offset = 0 then some p.payload else none
    let short := if lane = .request then decide (s.reqFree < p.npkt + 1)
      else !(lane == .response && s.slotsHeld c p.npkt head) && decide (s.respFree < p.npkt + 1)
    if fresh && short then
      (s.bump pgXprt 0x140 1).sendCtl c.index (.recvBusy p.msgId lane 1 (hint s.fresh))
    else if fresh && p.npkt != 0 && decide (8192 ≤ s.reasmUse) then
      (s.bump pgXprt 0x140 1).sendCtl c.index (.recvBusy p.msgId lane 2 (hint s.fresh))
    else
      let c := placePkt s.nrt c p
      s.poolLow ((s.setConn c).ackPsn c p)

/-- The generation check of R315: the present generation, the previous one while it is kept, or the next one, to which the
receiver then moves. -/
def State.rxGeneration (s : State) (c : Conn) (g : Nat) : Option Conn :=
  if g = c.genRx then some c
  else if g + 1 = c.genRx ∧ s.nrt < c.prevRxTill then some c
  else if g = c.genRx + 1 then
    some { c with genRx := g, prevRxTill := s.nrt + 2 * s.rtoMax, rxBase := 0, rxAbove := [] }
  else none

/-- A path of the connection: an authenticated packet from a new address adds one, up to 16 (R330). -/
def addPath (c : Conn) (port sub peerAddr udpPort now : Nat) : Conn :=
  if c.paths.any (fun q => q.port == port && q.sub == sub && q.peerAddr == peerAddr && q.udpPort == udpPort) then c
  else if 16 ≤ c.paths.length then c
  else { c with paths := c.paths ++ [⟨port, sub, peerAddr, udpPort, true, 0, now⟩] }

/-- A DATA packet whose connection's state is at hand: steps 3 to 7. -/
def State.dataCached (s : State) (c : Conn) (p : DataPkt) : State :=
  match p.keyGen.bind (s.rxGeneration c) with
  | none => s.bump pgXprt 0x138 1
  | some c => s.dataPlaced (addPath c p.port p.sub p.peerAddr p.udpPort s.nrt) p

/-- Bytes of a port's packets that wait for a connection's state (R317). -/
def State.parkedBytes (s : State) (port : Nat) : Nat :=
  s.net.parked.foldl (fun n p => if p.port = port then n + p.payload.length + 48 else n) 0

/-- Fetches in flight for a port: those of connections whose oldest waiting packet came by it. -/
def State.fetches (s : State) (port : Nat) : Nat :=
  s.net.conns.countP (fun (k : Nat × Conn) => k.2.fetching && (s.net.parked.find? (fun p => p.index == k.1)).any (fun p => p.port == port))

/-- Starts the fetches that waiting packets need, in order of arrival, at most 64 at a time for each port (R317). -/
def State.startFetches (s : State) : State :=
  s.net.parked.foldl (fun (s : State) p => match s.conn p.index with
    | none => s
    | some c => if c.cached || c.fetching || decide (64 ≤ s.fetches p.port) then s else s.setConn { c with fetching := true }) s

/-- A packet of a connection whose state was lost is answered with RESET (R318); any other is discarded. -/
def State.orReset (s : State) (p : DataPkt) : State :=
  let id := p.gen * 2 ^ 18 + p.index
  if s.net.lost.contains id then
    (s.bump pgXprt 0x150 1).sendCtl id (.reset ⟨p.port, p.sub, p.peerAddr, p.udpPort⟩ (BitVec.setWidth 128 (Config.randomKey id)))
  else s

/-- IP bytes of a datagram (R303); an address below 2^32 is an IPv4 one. DEDUCED: Log 42. -/
def ipBytes (peerAddr n : Nat) : Nat := (if peerAddr < 2 ^ 32 then 20 else 40) + 8 + n

/-- Whether a port accepts a frame with this 802.1Q tag (R301). -/
def State.vidOk (s : State) (port : Nat) (vid : Option Nat) : Bool :=
  s.fld (pgPort port) 0x100 2 1 == 0 || vid == some (s.fld (pgPort port) 0x10C 0 12)

/-- What the port discards and counts in DROP (R302, R303, Table 13-7 step 1). -/
def State.frameBad (s : State) (p : DataPkt) : Bool :=
  p.ipFrag || !p.sumOk || p.dstPort != s.fld pgXprt 0x100 0 16 || decide (s.mtu p.port < ipBytes p.peerAddr (48 + p.payload.length)) ||
    p.version != 1 || decide (3 ≤ p.lane) || p.typ != 1 || p.rsvd || decide (4096 < p.payload.length)

/-- A DATA packet: the checks of the port and steps 1 and 2, then the rest, at once or after the fetch of the connection's state
(R317). -/
def State.dataIn (s : State) (p : DataPkt) : State :=
  let s := s.bump64 (pgPort p.port) 0x140 1
  let s := if p.ce then s.bump (pgPort p.port) 0x158 1 else s
  if !s.vidOk p.port p.vid then s
  else if s.frameBad p then s.bump (pgPort p.port) 0x15C 1
  else match s.conn p.index with
    | none => s.orReset p
    | some c =>
      if c.gen ≠ p.gen then s.orReset p
      else if c.cached then s.dataCached c p
      else if 4 * 2 ^ 20 < s.parkedBytes p.port + p.payload.length + 48 then s.bump (pgPort p.port) 0x15C 1
      else
        let s := if s.net.parked.any (fun x => x.index == p.index) then s else s.bump pgXprt 0x130 1
        ({ s with net := { s.net with parked := s.net.parked ++ [p] } }).startFetches

/-! ### Retransmission, rate and paths (R328 to R331) -/

/-- RTO of a connection (R328). -/
def State.rto (s : State) (c : Conn) : Nat :=
  min (s.rtoMax) (max s.rtoMin (c.srtt + 4 * c.rttvar) * 2 ^ c.backoff)

/-- SRTT and RTTVAR with a new sample, as RFC 6298 keeps them. -/
def rttSample (c : Conn) (r : Nat) : Conn :=
  if c.srtt = 0 then { c with srtt := r, rttvar := r / 2 }
  else
    let d := if c.srtt ≤ r then r - c.srtt else c.srtt - r
    { c with rttvar := (3 * c.rttvar + d) / 4, srtt := (7 * c.srtt + r) / 8 }

/-- RATE after an ACK (R329): it has risen once for each SRTT that passed without ECN_ECHO, and falls once in one with it. -/
def State.rateAck (s : State) (c : Conn) (echo : Bool) : Conn :=
  let n := if c.srtt = 0 then 0 else (s.nrt - c.rateAt) / c.srtt
  let c := if n = 0 then c else { c with
    rate := min 8000 (c.rate + (n - b2n c.rateCut) * s.fld pgXprt 0x110 16 8), rateAt := c.rateAt + n * c.srtt, rateCut := false }
  if echo && !c.rateCut then { c with rate := max s.minRate (c.rate - c.rate * s.fld pgXprt 0x110 0 8 / 256), rateCut := true }
  else c

/-- Moves unacknowledged packets to the resend queue; they leave under new PSNs with RETX = 1 (R328). -/
def resendPkts (c : Conn) (which : SentPkt → Bool) : Conn × Nat :=
  let ps := c.unacked.filter which
  ({ c with unacked := c.unacked.filter (fun p => !which p), resend := c.resend ++ ps.map (fun p => (p.lane, p.msgId, p.offset)) }, ps.length)

/-- Offsets of a message of `len` bytes. -/
def offsetsOf (len : Nat) : List Nat := (List.range (max 1 (ceilDiv len 4096))).map (· * 4096)

/-- An ACK (R328): frees packets, samples the RTT, resends a packet with three higher PSNs acknowledged, moves RATE. DESIGN
CHOICE: Log 49. -/
def State.ackIn (s : State) (c : Conn) (base : Nat) (ranges : List (Nat × Nat)) (echo : Bool) : State :=
  let isAcked (p : SentPkt) := decide (p.psn < base) || ranges.any (fun r => decide (r.1 ≤ p.psn ∧ p.psn < r.1 + r.2))
  let got := c.unacked.filter isAcked
  let c := (got.filter (fun p => !p.retx)).foldl (fun c p => rttSample c (s.nrt - p.sentAt)) c
  let rest := (c.unacked.filter (fun p => !isAcked p)).map (fun p => { p with higher := p.higher + got.countP (fun g => p.psn < g.psn) })
  let msgs := c.msgs.map (fun m =>
    { m with acked := m.acked ++ (got.filter (fun p => p.lane == m.lane && p.msgId == m.msgId)).map (·.offset) })
  let msgs := msgs.filter (fun m => !(offsetsOf m.bytes.length).all (m.acked.contains ·))
  let c := { c with unacked := rest, msgs := msgs, backoff := 0, usedAt := s.nrt }
  let (c, n) := resendPkts (s.rateAck c echo) (fun p => decide (3 ≤ p.higher))
  (s.setConn c).bump pgXprt 0x134 n

/-- Frees a connection: its index's generation rises by 1, 62 being followed by 0 (R312). -/
def State.freeConn (s : State) (c : Conn) : State :=
  { s with net := { s.net with
    conns := AL.del c.index s.net.conns
    gens := AL.put c.index (if c.gen = 62 then 0 else c.gen + 1) s.net.gens
    parked := s.net.parked.filter (fun p => p.index != c.index) } }

/-- Marks a path DOWN and its packets for resending (R330, R331). -/
def downPath (c : Conn) (i now : Nat) : Conn × Nat :=
  let c := { c with paths := c.paths.zipIdx.map (fun (q, j) => if j = i then { q with up := false, probeAt := now } else q) }
  resendPkts c (fun p => p.path == i)

/-- The UP path with the fewest unacknowledged bytes (R330). -/
def Conn.bestPath (c : Conn) : Option Nat :=
  let load (i : Nat) := c.unacked.foldl (fun n p => if p.path = i then n + p.len else n) 0
  (c.paths.zipIdx.filter (fun q => q.1.up)).foldl (fun b q => match b with
    | none => some q.2
    | some i => if load q.2 < load i then some q.2 else some i) none

end Sys2Proof.Machine
end

