-- ==== Sys2Proof/Machine/Outbound.lean ====
section
/-!
DEFINITION. Outbound remote operations of rings and of the node itself: their request messages, response slots and order
(R323, R341, R342, R351, R360), and the peer entries they name (R339).
-/

namespace Sys2Proof.Machine

def State.setNet (s : State) (n : NetState) : State := { s with net := n }

/-- A remote operation's descriptor unit as the node sends it (Tables 2-17, 14-4, R341): CONNECTION 0xFF_FFFF, LOCAL_ADDR 0
and SUPPRESS_OK 0. -/
def rmaDesc (opcode context domain : Nat) (lc : Bool) (tag epoch : Word) (handle offset length : Nat) (operand compare : DWord) :
    List Byte :=
  leBytes 4 (opcode + b2n lc * 2 ^ 16 + context * 2 ^ 20) ++ leBytes 4 domain ++ leBytes 4 tag.toNat ++ leBytes 4 epoch.toNat ++
    leBytes 4 0xFFFFFF ++ leBytes 4 handle ++ leBytes 8 offset ++ leBytes 8 0 ++ leBytes 4 length ++ leBytes 4 0 ++
    leBytes 8 operand.toNat ++ leBytes 8 compare.toNat

/-- Response slots of a request whose response carries `n` bytes of data (R323, Table 13-8). -/
def respSlots (n : Nat) : Nat := if n = 0 then 0 else ceilDiv (48 + n) 4096

/-- Whether the initiator of an operation is a command of ring `n`. -/
def State.ringOfInitiator (s : State) (w : Initiator) : Option Nat :=
  match w with
  | .cmd i => match s.cmd i with
    | some c => match c.src with | .ring n => some n | .conn _ _ => none
    | none => none
  | _ => none

/-- Outbound operations of rings, and of the node. -/
def outOfRing (o : Outbound) : Bool := match o.who with | .cmd _ => true | _ => false
def State.outRing (s : State) : Nat := s.net.outbound.countP outOfRing
def State.outNode (s : State) : Nat := s.net.outbound.countP (fun o => !outOfRing o)

def State.peer (s : State) (d i : Nat) : Option PeerEntry := AL.get (d, i) s.net.peers
def State.setPeer (s : State) (d i : Nat) (e : PeerEntry) : State := s.setNet { s.net with peers := AL.put (d, i) e s.net.peers }

/-- The epoch of the node's own operations on a connection: the current epoch, or 0 on an unbound connection (R341). -/
def State.ownEpoch (s : State) (c : Conn) : Word := if c.composition = 0xFFFF then 0 else s.lease.cur

/-- Queues an outbound operation (R360): it counts in its peer entry's drain from now on (R351). -/
def State.queueOutbound (s : State) (o : Outbound) : State :=
  let s := s.setNet { s.net with outbound := s.net.outbound ++ [o] }
  match o.peer with
  | none => s
  | some (d, i) => match s.peer d i with
    | none => s
    | some e => s.setPeer d i { e with drain := e.drain + 1 }

/-- Whether an operation of the same ring for the same connection waits unsent before this one (R342). -/
def State.behind (s : State) (before : List Outbound) (o : Outbound) : Bool :=
  match s.ringOfInitiator o.who with
  | none => before.any (fun p => !p.sent && p.conn == o.conn && p.who == o.who)
  | some n => before.any (fun p => !p.sent && p.conn == o.conn && s.ringOfInitiator p.who == some n)

/-- Outbound operations of the node at a time; one that finds no slot waits inside the node (R21, R360). -/
def nodeOps : Nat := 16384

/-- Sends what can be sent, in order: the response slots are reserved and the request message is queued on its connection.
DEDUCED: Log 68. -/
def State.pumpOutbound (s : State) : State :=
  let step (acc : State × List Outbound) (o : Outbound) : State × List Outbound :=
    let s := acc.1
    if o.sent || s.behind acc.2 o || decide (s.respFree < o.slots) || s.nodeFenced ||
        (!outOfRing o && decide (nodeOps ≤ acc.2.countP (fun p => !outOfRing p))) then (s, acc.2 ++ [o])
    else match s.connOf o.conn with
      | none => (s, acc.2 ++ [o])
      | some c =>
        let id := AL.getD Lane.request 0 c.nextMsg
        let e : Word := BitVec.ofNat 32 (leVal (o.body.drop 12 |>.take 4))
        let s := s.sendMsg c .request e o.body
        (s.setNet { s.net with respReserved := s.net.respReserved + o.slots }, acc.2 ++ [{ o with sent := true, msgId := id }])
  let r := s.net.outbound.foldl step (s, [])
  s.poolLow (r.1.setNet { r.1.net with outbound := r.2 })

/-- Takes an outbound operation off: its slots are free, and its peer entry's drain count falls (R351). -/
def State.dropOutbound (s : State) (o : Outbound) : State :=
  let s := s.setNet { s.net with
    outbound := s.net.outbound.erase o
    respReserved := if o.sent then s.net.respReserved - o.slots else s.net.respReserved }
  match o.peer with
  | none => s
  | some (d, i) => match s.peer d i with
    | none => s
    | some e => s.setPeer d i { e with drain := e.drain - 1, drained := if e.st = .revoking then e.drained + 1 else e.drained }

/-- The outbound operation that a response on a connection answers. -/
def State.outboundOf (s : State) (conn msgId : Nat) : Option Outbound :=
  s.net.outbound.find? (fun o => o.sent && o.conn == conn && o.msgId == msgId)

/-- A read or write of a peer region by the node itself (R339, R360), as operations of at most 1,048,512 B. -/
def State.queueNodeOp (s : State) (who : Initiator) (d idx : Nat) (e : PeerEntry) (opcode offset length : Nat) (data : List Byte) : State :=
  match s.connOf e.conn with
  | none => s
  | some c =>
    (List.range (max 1 (ceilDiv length 1048512))).foldl (fun s i =>
      let n := min 1048512 (length - i * 1048512)
      s.queueOutbound ⟨who, e.conn, false, 0, if opcode = 0x10 then respSlots n else 0, some (d, idx),
        rmaDesc opcode 0 d false 0 (s.ownEpoch c) e.handle (offset + i * 1048512) n 0 0 ++ (data.drop (i * 1048512)).take n, false⟩) s

end Sys2Proof.Machine
end

