-- ==== Sys2Proof/Machine/Seq.lean ====
section
/-!
DEFINITION. Demand fills and fetches into Bench (R107, R108, R429), and the life of sequences (R110 to R114).
-/

namespace Sys2Proof.Machine

/-! ### Demand fills -/

/-- Store-region index and byte offset of a CHECKPOINT entry (Table 4-6). -/
def ckptIndex (loc : Nat) : Nat := bitsOf loc 40 8
def ckptOffset (loc : Nat) : Nat := bitsOf loc 0 40 * 4096
def ckptLoc (idx unit : Nat) : Nat := idx % 256 * 2 ^ 40 + unit % 2 ^ 40

/-- Payload bytes of a page as stored. -/
def storedBytes (sh : Shape) (packed : Bool) : Nat := if packed then sh.streamBytes else sh.payloadBytes
/-- Bytes of a checkpoint object of `n` body bytes (R421): header, body and tag, padded to 4 KiB. -/
def objectBytes (n : Nat) : Nat := ceilDiv (64 + n + 16) 4096 * 4096

/-- A demand fill that fails: counted, reported, and captured (R108, Tables 4-12 to 4-14). -/
def State.fillFailed (s : State) (d v : Nat) : State :=
  ((s.setFld pgXlat 0x128 16 16 (min 65535 (s.fld pgXlat 0x128 16 16 + 1))).setIrq pgXlat 1).logErr pgXlat 3 d v

/-- The sequence of a domain whose range holds a VPN, and its stream and ordinal there (R87). -/
def State.seqAt (s : State) (d v : Nat) : Option (Nat × SeqRec) :=
  (s.kv.seqs.find? (fun (p : (Nat × Nat) × SeqRec) => p.1.1 == d &&
    decide (p.2.baseVpn ≤ v ∧ v < p.2.baseVpn + p.2.layers * hgOf p.2 (s.shape d p.2.shapeId) * 2 ^ p.2.pmaxLog2))).map (fun p => (p.1.2, p.2))

/-- Layer, head group and ordinal of a VPN in its sequence. -/
def placeOf (r : SeqRec) (sh : Shape) (v : Nat) : Point :=
  let o := v - r.baseVpn
  let st := o / 2 ^ r.pmaxLog2
  ⟨st / max 1 (hgOf r sh), st % max 1 (hgOf r sh), o % 2 ^ r.pmaxLog2⟩

/-- Starts the demand fill of a CHECKPOINT entry, unless one runs: a frame is reserved, FILL is set and the object is read
through the peer entry that LOC names (R108, R339, R353, R429). A STAGING line is taken when one can be had (Table 10-2).
At 4,096 fills in flight the command waits and the fill starts when it walks again (R296). DEDUCED: Log 40. -/
def State.startFill (s : State) (d part : Nat) (v start : Nat) : FillRes :=
  let p := s.pte d v
  if p.fill then .runs s
  else if 4096 ≤ s.kv.fills.length then .runs s
  else match s.peer d (ckptIndex p.loc) with
  | none => .fails (s.fillFailed d v)
  | some e =>
    if e.st ≠ .active then .fails (s.fillFailed d v)
    else
    let owner := s.seqAt d v
    let sh := match owner with | some (_, r) => s.shape d r.shapeId | none => Shape.ofWord 0
    match s.reserve d (some part) [⟨v, start, none, true, if p.packed then sh.slotBytes else 0⟩] with
    | .error u => .noSpace s u
    | .ok (s, gs) => match gs with
      | [] => .runs s
      | g :: _ =>
        let blank := placeAt g { Page.blank with
          st := FState.filling, domain := d, vpn := v, gen := 1, seq := (owner.elim 0 (·.1)), shapeId := owner.elim 0 (·.2.shapeId) }
        let s := s.putFrame ⟨g.frame, blank, blank, none, 0, 0, 0, 0⟩
        let t := frameTile g.frame
        let (s, line) := match s.takeLine t (frameSet g.frame) g.frame (b2n p.packed) .staging part d with
          | some s => (s, true)
          | none => (s.noLine t, false)
        let s := s.setPte d v { p with fill := true }
        let s := s.setKv { s.kv with fills := s.kv.fills ++ [⟨d, v, g.frame, s.nrt, line, p.loc⟩] }
        .runs (s.queueNodeOp (.fill d v) d (ckptIndex p.loc) e 0x10 (ckptOffset p.loc) (objectBytes (4096 + storedBytes sh p.packed)) [])

def State.fillOf (s : State) (d v : Nat) : Option Fill := s.kv.fills.find? (fun f => f.domain == d && f.vpn == v)
def State.dropFill (s : State) (d v : Nat) : State :=
  let s := s.setKv { s.kv with fills := s.kv.fills.filter (fun f => !(f.domain == d && f.vpn == v)) }
  (s.net.outbound.filter (fun o => o.who == .fill d v)).foldl (fun s o => s.dropOutbound o) s

/-- Lines held for a frame are released. -/
def State.dropFrameLines (s : State) (f : Nat) : State := (s.frameLines f).foldl (fun s l => s.dropLine l) s

/-- The place of an arriving page's payload: that of its frame, or, when the object has the other form (R421, R429), a Crumb slot in
place of the chunk or a chunk in place of the slot (R82), within the quota (R234). None: there is no such place. -/
def State.placeForm (s : State) (f : Nat) (packed : Bool) : Option State :=
  let p := s.page f
  let ch := frameChannel f
  let slot := (s.shape p.domain p.shapeId).slotBytes
  let at' (s : State) (crumb : Bool) (loc : Nat) : State := s.updFrame f (fun x =>
    { x with cur := { x.cur with crumbLoc := crumb, loc := loc }, rack := { x.rack with crumbLoc := crumb, loc := loc } })
  if p.crumbLoc = packed then some s
  else if packed then (s.allocCrumb ch p.domain slot).map (fun x =>
    (((at' x.1 true x.2).dropChunk ch (p.loc / 16)).refund p.domain frameUnits).charge p.domain (slotUnits slot))
  else if s.rquota p.domain < s.rused p.domain + frameUnits - slotUnits slot then none
  else (s.newChunk ch).map (fun k =>
    (((((at' s false (k * 16)).putChunk ch k (.payload f)).cleared (rackAddr ch (k * 65536)) 65536).freeCrumb ch p.loc).refund p.domain
      (slotUnits slot)).charge p.domain frameUnits)

/-- Gives arrived content to a FILLING frame (R429, Table 4-10): its record keeps the object's fields but for its place, its
sequence, its VPN and its share. The entry becomes BENCH if a line was held, RACK otherwise; an OPEN page takes a Bench hold. None: the
page cannot be placed. -/
def State.landContent (s : State) (d v q part f : Nat) (content : Page) : Option State :=
  (s.placeForm f content.fPacked).map (fun s =>
    let old := s.page f
    let st : FState := if content.fSealed then .sealed else .opened
    let p := { content with
      domain := d, seq := q, vpn := v, share := 1, loc := old.loc, crumbLoc := old.crumbLoc, st := st, gen := (old.gen + 1) % 2 ^ 32 }
    let s := s.updFrame f (fun x => { x with cur := p, rack := p })
    let held := (s.frameLines f).find? (fun l => l.use == .staging)
    let (s, inBench) := match held with
      | some l => (s.setLine { l with use := if st = FState.opened then LineUse.opened else LineUse.copy, form := b2n p.fPacked, age := 0 }, true)
      | none => (s, false)
    let s := if inBench || st != FState.opened then (s, inBench)
      else match s.takeLine (frameTile f) (frameSet f) f 0 .opened part d with
        | some s => (s, true)
        | none => (s.noLine (frameTile f), false)
    s.1.setPte d v ⟨if s.2 then .bench else .rack, false, true, st == FState.opened, p.fSealed, p.fPacked, false, false, f⟩)

/-- A page without the fields that are rewritten for a new frame, SEQ and VPN (R77). -/
def carried (p : Page) : Page :=
  { p with st := .free, share := 0, gen := 0, seq := 0, vpn := 0, loc := 0, crumbLoc := false, ckptObj := 0, fCkptCurrent := false }

/-- Whether content is what the object at a location verifies to (R62, R77, R429): of an object that this node sealed, the page that it
sealed. -/
def State.sealedAs (s : State) (d obj : Nat) (content : Page) : Bool :=
  match s.sec.keySets.findSome? (fun (k : Nat × KeySet) => if k.2.domain = d ∧ k.2.objs.contains obj then AL.get (obj % 2 ^ 40) k.2.made else none) with
  | some p => carried content == p
  | none => true

/-- The key of an object's set is lost (Table 16-14). -/
def State.keyLost (s : State) (d obj : Nat) : Bool :=
  s.sec.keySets.any (fun (k : Nat × KeySet) => k.2.domain == d && k.2.objs.contains obj && k.2.lost)

/-- DEMAND_FILL_LANDS (Table 4-10). A fill whose entry is gone returns its frame. None: the fill fails, because the content is not that
of its object (R429), the key of its set is lost, or it cannot be placed. -/
def State.landFill (s : State) (d v : Nat) (content : Page) : Option State :=
  match s.fillOf d v with
  | none => some s
  | some f =>
    let p := s.pte d v
    if p.st = .ckpt ∧ p.fill ∧ p.loc = f.obj then
      if content.domain ≠ d ∨ !s.sealedAs d f.obj content ∨ s.keyLost d f.obj then none
      else
        let s := s.dropFill d v
        let q := (s.seqAt d v).elim 0 (·.1)
        let part := ((s.frameLines f.frame).head?).elim 0 (·.part)
        let s := s.bump (pgMchn (frameChannel f.frame)) 0x120 (s.fillBursts content)
        s.landContent d v q part f.frame { content with ckptObj := f.obj, fCkptCurrent := true }
    else some ((s.dropFill d v).freeFrame f.frame)

/-- DEMAND_FILL_FAILS (Table 4-10): the frame is FREE, the entry stays CHECKPOINT with FILL = 0. -/
def State.failFill (s : State) (d v : Nat) : State :=
  match s.fillOf d v with
  | none => s
  | some f =>
    let s := (s.dropFill d v).freeFrame f.frame
    let p := s.pte d v
    let s := if p.st = .ckpt then s.setPte d v { p with fill := false } else s
    s.fillFailed d v

/-- Whether a page that a command waits for is still on its way (R107, R108). -/
def State.pagePending (s : State) (d v : Nat) : Bool :=
  let p := s.pte d v
  (p.st == .ckpt && p.fill) || (p.st == .rack && s.kv.fetches.contains p.loc)

/-- BENCH_FETCH_LANDS (R107, Table 4-10): the page is in Bench, and an OPEN page takes a Bench hold again. -/
def State.landFetch (s : State) (f : Nat) : State :=
  if !s.kv.fetches.contains f then s
  else
    let s := s.setKv { s.kv with fetches := s.kv.fetches.filter (· != f) }
    match s.frame f with
    | none => s
    | some x =>
      let t := frameTile f
      let part := 0
      let use : LineUse := if x.cur.st = .opened then .opened else .copy
      let (s, lost) := s.readFrame f false 3
      if lost then s
      else match s.takeLine t (frameSet f) f (b2n x.cur.fPacked) use part x.cur.domain with
      | none => s.noLine t
      | some s => ((s.mapPtes f (fun p => { p with st := .bench })).bump (pgBnch t) 0x158 1).bump (pgMchn (frameChannel f)) 0x120 (s.fillBursts x.cur)

/-! ### SEQ_CREATE (R110) -/

/-- Number of pages of a sequence's range (R87). -/
def rangeLen (layers kvHeads pmaxLog2 : Nat) (sh : Shape) : Nat := layers * ceilDiv kvHeads sh.heads * 2 ^ pmaxLog2

/-- Whether a range obeys R87. -/
def State.rangeOk (s : State) (d base len pmaxLog2 : Nat) : Bool :=
  decide (pmaxLog2 ≤ 24 ∧ base % 2 ^ pmaxLog2 = 0 ∧ base + len ≤ 2 ^ 32) &&
  s.kv.seqs.all (fun (p : (Nat × Nat) × SeqRec) => p.1.1 != d ||
    decide (base + len ≤ p.2.baseVpn ∨ p.2.baseVpn + p.2.layers * hgOf p.2 (s.shape d p.2.shapeId) * 2 ^ p.2.pmaxLog2 ≤ base))

/-- The partition and channel walk of a sequence record, and its placement (R89, R499). -/
def State.placeRecord (s : State) (d q ctx bytes : Nat) : Option State :=
  let n := bytes / 2048
  match (s.walkChannels ((q * 0x9E37 + d) % 384) (some (s.partOf ctx))).findSome? (fun c =>
      (s.allocMeta c d n).map (fun r => (r.1, c, r.2))) with
  | none => none
  | some (s, c, h) => some (s.setKv { s.kv with seqLoc := AL.put (d, q) (c, h) s.kv.seqLoc })

/-- A new sequence record. -/
def newSeq (a : SeqCreateD) (histN bytes : Nat) : SeqRec where
  st := .active
  shapeId := a.shapeId
  layers := a.layers
  kvHeads := a.kvHeads
  pmaxLog2 := a.pmaxLog2
  histN := histN
  headroom := a.headroom
  baseVpn := a.baseVpn
  policy := a.policy
  sealLog := [(0, a.posStart)]
  posStart := a.posStart
  ckptRegion := a.ckptRegion
  clipTotal := 0
  recordBytes := bytes
  parent := 0xFFFFFFFF
  peerSlot := 0
  changeSeq := 0
  lastSet := 0
  nextStore := 0
  nextPos := List.replicate a.layers a.posStart
  history := []
  parkTime := 0

def histOf (n : Nat) : Nat := if n = 0 then 4 else n

/-- The checks of SEQ_CREATE (R55, R81, R87, R110). -/
def State.createRefusal (s : State) (d : Nat) (src : Source) (a : SeqCreateD) : Option Result :=
  let sh := s.shape d a.shapeId
  firstFail [
    (publicRefused src d, { status := stAccess }),
    ((s.seqRec d a.seq).isSome, badDescriptor),
    (!shapeValid (s.shapeW d a.shapeId), badDescriptor),
    (decide (a.layers = 0 ∨ 256 < a.layers ∨ a.kvHeads = 0 ∨ 64 < a.kvHeads ∨ 16 < a.histN ∨ 3 < a.headroom ∨ 7 < a.policy ∨ 255 < a.ckptRegion), badDescriptor),
    (sh.latent && a.kvHeads != 1, badDescriptor),
    (!s.rangeOk d a.baseVpn (rangeLen a.layers a.kvHeads a.pmaxLog2 sh) a.pmaxLog2, badDescriptor),
    (bitOf a.policy 0 && bitOf a.policy 1, { status := stUnsupported })]

def State.doSeqCreate (s : State) (h : Hdr) (src : Source) (a : SeqCreateD) : OpRes :=
  let d := h.domain
  match s.createRefusal d src a with
  | some r => .done s r
  | none =>
    let sh := s.shape d a.shapeId
    let bytes := recordSize a.layers a.kvHeads (histOf a.histN) sh
    if s.rquota d < s.rused d + bytes / 256 then .done s { status := stNoCapacity }
    else match s.placeRecord d a.seq h.context bytes with
      | none => .done s { status := stNoCapacity }
      | some s => .done ((s.charge d (bytes / 256)).putSeq d a.seq (newSeq a (histOf a.histN) bytes)) { status := stOk, c0 := bytes }

/-! ### SEQ_PARK, SEQ_RESUME, SEQ_DESTROY (R111 to R114) -/

/-- What R113 answers for a sequence that is in no state these commands act on. -/
def lifeRefusal (destroy : Bool) : Option SeqRec → Option Result
  | none => some badDescriptor
  | some r => match r.st with
    | .free => some badDescriptor
    | .destroying => some badDescriptor
    | .migrating => some migratingBusy
    | .moved => if destroy then none else some (rerouteTo r.peerSlot)
    | _ => none

/-- Writes an OPEN page back and releases its Bench hold (R111). -/
def State.releaseHold (s : State) (f : Nat) : State :=
  match s.frameLine f 0 with
  | none => s
  | some l =>
    let s := s.writeBack l
    match s.frameLine f 0 with
    | none => s
    | some l => s.setLine { l with use := .copy, age := 0 }

def State.doSeqPark (s : State) (h : Hdr) (q : Nat) : OpRes :=
  let d := h.domain
  match s.seqRec d q with
  | none => .done s badDescriptor
  | some r => match lifeRefusal false (some r) with
    | some x => .done s x
    | none =>
      if r.st = .parked then .done s { status := stOk }
      else
        let sh := s.shape d r.shapeId
        let fs := ((s.openPoints d r sh).map (fun p => s.pte d (vpnOf r sh p.layer p.hg p.k))).filterMap (fun (p : Pte) =>
          if p.st = .bench ∨ p.st = .rack then some p.loc else none)
        let held := fs.filter (fun f => (s.frameLine f 0).any (fun l => l.use == .opened))
        let s := held.foldl (fun s f => s.releaseHold f) s
        .done ((s.putSeq d q { r with st := .parked, parkTime := BitVec.ofNat 64 s.nrt }).bumpChange d q)
          { status := stOk, c0 := held.length }

/-- VPNs of a sequence whose entries are CHECKPOINT. -/
def State.ckptPages (s : State) (d : Nat) (r : SeqRec) (sh : Shape) : List Nat :=
  ((s.seqPtes d r sh).filter (fun p => p.2.st == .ckpt && !p.2.poison)).map (·.1)

/-- Starts the fills of every CHECKPOINT page of a sequence. -/
def State.prefetch (s : State) (d part q : Nat) (r : SeqRec) (sh : Shape) : State × Option (Nat × Nat) × List Nat :=
  let vs := s.ckptPages d r sh
  let f := s.fillAll (fun s v c => s.startFill d part v c) (vs.map (fun v =>
    let p := placeOf r sh v
    (v, frameStart q p.layer p.hg (hgOf r sh) p.k)))
  (f.1, f.2, vs)

/-- The fills of SEQ_RESUME with PREFETCH = 1 (R112): it waits for those under way; when there are none left it ends. COUNT0 takes each
page once, when its fill runs for the command; past 4,096 fills in flight the others follow (R296). -/
def State.resumeFills (s : State) (c : Cmd) (q : Nat) : OpRes :=
  let d := c.hdr.domain
  match s.seqRec d q with
  | none => .done s { status := stOk }
  | some r =>
    let f := s.prefetch d (s.partOf c.hdr.context) q r (s.shape d r.shapeId)
    match f.2.1 with
    | some (st, u) => .done f.1 (if st = stNoCapacity then f.1.noCapacity d u else { status := st })
    | none =>
      let vs := f.2.2.filter (fun v => (f.1.pte d v).fill)
      if f.2.2.isEmpty then .done f.1 { status := stOk }
      else .wait f.1 (.fills (vs.map (fun v => (d, v))) s.nrt) vs.length

/-- SEQ_RESUME (R112, R113). It has taken effect on the order of R90 once the sequence is ACTIVE: a run after its fills only goes on
with them. DESIGN CHOICE: Log 74. -/
def State.doSeqResume (s : State) (c : Cmd) (q : Nat) : OpRes :=
  let d := c.hdr.domain
  if c.effected then s.resumeFills c q
  else match s.seqRec d q with
  | none => .done s badDescriptor
  | some r => match lifeRefusal false (some r) with
    | some x => .done s x
    | none =>
      let s := if r.st = .active then s else (s.putSeq d q { r with st := .active }).bumpChange d q
      if c.hdr.flag 0 then s.resumeFills c q else .done s { status := stOk }

/-- Invalidates every entry of a sequence and lowers the shares of its frames. Answers the frames freed and those left. -/
def State.dropPages (s : State) (d : Nat) (r : SeqRec) (sh : Shape) : State × Nat × Nat :=
  (s.seqPtes d r sh).foldl (fun acc vp =>
    let s := acc.1.setPte d vp.1 .invalid
    if vp.2.st = .bench ∨ vp.2.st = .rack then
      let s := s.lowerShare vp.2.loc
      if (s.frame vp.2.loc).isNone then (s, acc.2.1 + 1, acc.2.2) else (s, acc.2.1, acc.2.2 + 1)
    else (s, acc.2)) (s, 0, 0)

/-- Removes a sequence: pages, record and charge (R114). -/
def State.destroySeq (s : State) (d q : Nat) (r : SeqRec) : State × Nat × Nat :=
  let (s, a, b) := s.dropPages d r (s.shape d r.shapeId)
  let s := match AL.get (d, q) s.kv.seqLoc with
    | some (c, half) => s.freeMeta c half (r.recordBytes / 2048)
    | none => s
  let s := s.refund d (r.recordBytes / 256)
  (s.setKv { s.kv with seqs := AL.del (d, q) s.kv.seqs, seqLoc := AL.del (d, q) s.kv.seqLoc }, a, b)

def State.doSeqDestroy (s : State) (h : Hdr) (q : Nat) : OpRes :=
  let d := h.domain
  match s.seqRec d q with
  | none => .done s badDescriptor
  | some r => match lifeRefusal true (some r) with
    | some x => .done s x
    | none =>
      let x := s.destroySeq d q r
      .done x.1 { status := stOk, c0 := x.2.1, c1 := x.2.2 }

end Sys2Proof.Machine
end

