-- ==== Sys2Proof/Machine/Starter.lean ====
section
/-!
DEFINITION. The starter table (R123 to R137): keys, search with verification, insert, remove and loss.
-/

namespace Sys2Proof.Machine

/-! ### Keys and entries -/

/-- Match tag of a key in a domain (R124). -/
def matchTag (d : Nat) (keyLo : DWord) : Nat :=
  ((keyLo.toNat % 2 ^ 32) ^^^ (keyLo.toNat / 2 ^ 32) ^^^ (d * 0x9E3779B9 % 2 ^ 32)) % 2 ^ 32
def tagBank (t : Nat) : Nat := bitsOf t 0 3
def tagSet (t : Nat) : Nat := bitsOf t 3 16
def tagHi (t : Nat) : Nat := bitsOf t 19 13

def State.entry (s : State) (t way : Nat) : Option StEntry := AL.get (tagBank t, tagSet t, way) s.kv.starter
/-- Entries of a domain (STRT.QUSED). -/
def State.entriesOf (s : State) (d : Nat) : Nat := s.kv.starter.countP (fun p => p.2.domain == d)
def State.strtQuota (s : State) (d : Nat) : Nat := s.fldI (pgStrt 0) 0x134 d 0 23

/-- Whether a way is a candidate (R125). -/
def isCandidate (d shapeId : Nat) (keyLo : DWord) (e : StEntry) : Bool :=
  e.tagHi == tagHi (matchTag d keyLo) && e.domain == d && e.shapeId == shapeId && e.fp == keyLo
/-- A way that matches on tag and domain and differs in fingerprint (R125). -/
def isAlias (d : Nat) (keyLo : DWord) (e : StEntry) : Bool :=
  e.tagHi == tagHi (matchTag d keyLo) && e.domain == d && e.fp != keyLo

/-- Whether a candidate passes the check of its page record (R126). -/
def State.verified (s : State) (keyHi : DWord) (e : StEntry) : Bool :=
  match s.frame e.frame with
  | none => false
  | some f => f.cur.fKeyed && f.cur.keyHi == keyHi && !f.cur.fPoison && f.cur.st != .poisoned

/-! ### Search -/

/-- The answer of a search within one phase: the way found or the last way examined, and whether candidates remain. -/
structure Probe where
  hit : Option (Nat × StEntry)
  last : Nat
  multi : Bool
  deriving DecidableEq, Repr

/-- Reads the page records of candidates up to the first that passes (R126). A record that is lost is captured as RECORD_UE, and its
frame, now POISONED, does not pass. DEDUCED: Log 65. -/
def State.readCands (s : State) (t : Nat) (keyHi : DWord) (l : List (Nat × StEntry)) : State :=
  (l.foldl (fun (acc : State × Bool) c =>
    if acc.2 then acc
    else
      let r := acc.1.readRecord c.2.frame
      let s := if r.2 then r.1.logErr (pgStrt (tagBank t)) 3 (tagSet t) c.2.frame else r.1
      (s, s.verified keyHi c.2)) (s, false)).1

/-- One probe from way `w` upwards (R125, R126): counts aliases and candidates that fail verification. MULTI looks at the candidates of
the phase of the hit alone, not at those of a public phase that is still to be searched. DESIGN CHOICE: Log 74. -/
def State.probe (s : State) (d shapeId : Nat) (keyLo keyHi : DWord) (w : Nat) : State × Probe :=
  let t := matchTag d keyLo
  let pg := pgStrt (tagBank t)
  let ways := (List.range 8).filterMap (fun i => (s.entry t i).map (fun e => (i, e)))
  let s := (s.bump64 pg 0x104 1).bump pg 0x110 (ways.countP (fun p => isAlias d keyLo p.2))
  let cands := ways.filter (fun p => decide (w ≤ p.1) && isCandidate d shapeId keyLo p.2)
  let s := s.readCands t keyHi cands
  let bad := cands.takeWhile (fun p => !s.verified keyHi p.2)
  let rest := cands.drop bad.length
  let s := if bad.isEmpty then s else (s.bump pg 0x114 bad.length).setIrq pg 1
  match rest with
  | [] => (s, ⟨none, (bad.getLast?).elim 0 (·.1), false⟩)
  | c :: cs => (s.bump pg 0x10C 1, ⟨some c, c.1, !cs.isEmpty⟩)

/-- Cursor (Table 5-4). -/
def cursorOf (more : Bool) (phase : Nat) (pubEn : Bool) (way : Nat) : Nat :=
  b2n more * 2 ^ 31 + phase % 2 * 16 + b2n pubEn * 8 + way % 8

/-- Match record (Table 5-5). -/
def State.matchRecord (s : State) (f : Nat) : List Byte :=
  let p := s.page f
  leBytes 4 p.seq ++ leBytes 4 p.vpn ++ leBytes 4 p.firstPos ++ leBytes 2 p.filled ++ leBytes 1 p.shapeId ++ leBytes 1 0 ++
    leBytes 2 p.domain ++ leBytes 2 p.share ++ leBytes 4 p.gen ++ leBytes 8 0

/-- A search from way `w` of a phase on (R128, R129): phase 0 is the caller's domain, phase 1 the public domain. -/
def State.search (s : State) (caller shapeId : Nat) (keyLo keyHi : DWord) (phase w : Nat) (pubEn : Bool) (addr : Nat) : State × Result :=
  let first := if phase = 0 then s.probe caller shapeId keyLo keyHi w else s.probe 0 shapeId keyLo keyHi w
  let (s, ph, p) := match first.2.hit, decide (phase = 0) && pubEn with
    | none, true => let r := first.1.probe 0 shapeId keyLo keyHi 0; (r.1, 1, r.2)
    | _, _ => (first.1, phase, first.2)
  match p.hit with
  | none => (s, { status := stOk, c0 := cursorOf false ph pubEn p.last })
  | some (way, e) =>
    let more := decide (way < 7) || (ph == 0 && pubEn)
    (s, { status := stOk, c0 := cursorOf more ph pubEn way, c1 := 1 + 2 * b2n p.multi + 4 * b2n (e.domain == 0)
          addr := addr, out := s.matchRecord e.frame })

/-- PREFIX_LOOKUP and PREFIX_STEP. -/
def State.doLookup (s : State) (h : Hdr) (src : Source) (a : LookupD) (step : Bool) : OpRes :=
  let d := h.domain
  match firstFail [
      (!shapeValid (s.shapeW d a.shapeId), badDescriptor),
      (step && !bitOf a.cursor 31, badDescriptor)] with
  | some r => .done s r
  | none => match s.outputRefused src d a.resultAddr 32 with
    | some r => .done s r
    | none =>
      let pub := if step then bitOf a.cursor 3 else h.flag 0
      let phase := if step then bitsOf a.cursor 4 1 else 0
      let w := if step then bitsOf a.cursor 0 3 + 1 else 0
      let r := s.search d a.shapeId a.keyLo a.keyHi phase w pub a.resultAddr
      .done r.1 r.2

/-! ### Updates -/

/-- Completes an update of an entry: its three steps each take a slot of the bank (R130, R131). -/
def State.updated (s : State) (t : Nat) (e : Option (Nat × StEntry)) (way : Nat) : State :=
  let s := match e with
    | some (w, x) => (s.setKv { s.kv with starter := AL.put (tagBank t, tagSet t, w) x s.kv.starter }).bump (pgStrt (tagBank t)) 0x11C 3
    | none => s.dropEntry (tagBank t, tagSet t, way)
  s.bump (pgStrt (tagBank t)) 0x118 1

/-- The frame that (SEQ, VPN) of the caller's domain names, or the status of the walk (Table 4-7, R132). DEDUCED: Log 40. -/
def State.walkFrame (s : State) (d q v : Nat) : State × Except Result Nat :=
  match s.seqRec d q with
  | none => (s, .error badDescriptor)
  | some r =>
    let sh := s.shape d r.shapeId
    if v < r.baseVpn ∨ r.baseVpn + rangeLen r.layers r.kvHeads r.pmaxLog2 sh ≤ v then (s, .error badDescriptor)
    else
      let (s, p) := s.translate false d v
      match p.st with
      | .invalid => (s, .error badDescriptor)
      | .ckpt => (s, .error badDescriptor)
      | .peer => (s, .error (rerouteTo p.loc))
      | _ => if p.poison then (s, .error { status := stPoisoned }) else (s, .ok p.loc)

/-- The lowest way of a set with VALID = 0. -/
def State.freeWay (s : State) (t : Nat) : Option Nat := (List.range 8).find? (fun w => (s.entry t w).isNone)

/-- The refusals of Table 5-7, in order. -/
def State.insertRefusal (s : State) (d t f : Nat) : Option Result :=
  let p := s.page f
  firstFail [
    ((p.st != .sealing && p.st != .sealed && p.st != .poisoned) || p.fCompacted || p.fKeyed, badDescriptor),
    (decide (p.domain ≠ d), { status := stAccess }),
    (p.fPoison || p.st == .poisoned, { status := stPoisoned }),
    (decide (65535 ≤ p.share), { status := stNoCapacity, c0 := 3 }),
    (decide (s.strtQuota d ≤ s.entriesOf d), { status := stNoCapacity, c0 := 2 }),
    ((s.freeWay t).isNone, { status := stNoCapacity, c0 := 1 })]

def State.doInsert (s : State) (h : Hdr) (src : Source) (a : PrefixD) : OpRes :=
  let d := h.domain
  if publicRefused src d then .done s { status := stAccess }
  else match s.walkFrame d a.seq a.vpn with
  | (s, .error r) => .done s r
  | (s, .ok f) =>
    let t := matchTag d a.keyLo
    match s.insertRefusal d t f with
    | some r => .done s r
    | none =>
      let s := (s.raiseShare f).updPage f (fun p => { p with fKeyed := true, keyHi := a.keyHi })
      .done (s.updated t ((s.freeWay t).map (fun w => (w, ⟨tagHi t, d, (s.page f).shapeId, f, a.keyLo⟩))) 0) { status := stOk }

/-- Clears PREFIX and KEY_HI of a frame and lowers its share (R133, R134). -/
def State.releaseKey (s : State) (f : Nat) : State :=
  (s.updPage f (fun p => { p with fKeyed := false, keyHi := 0 })).lowerShare f

def State.doRemove (s : State) (h : Hdr) (src : Source) (a : PrefixD) : OpRes :=
  let d := h.domain
  if publicRefused src d then .done s { status := stAccess }
  else match s.walkFrame d a.seq a.vpn with
  | (s, .error r) => .done s r
  | (s, .ok f) =>
    let t := matchTag d a.keyLo
    match (List.range 8).find? (fun w => (s.entry t w).any (fun e => e.domain == d && e.fp == a.keyLo && e.frame == f)) with
    | some w => .done ((s.updated t none w).releaseKey f) { status := stOk }
    | none =>
      if (s.page f).fKeyed ∧ (s.page f).keyHi = a.keyHi then .done (s.releaseKey f) { status := stOk, c1 := 1 }
      else .done s badDescriptor

/-! ### Losses (R134) and poisoned frames (Table 4-10) -/

/-- An uncorrectable error in the FINGERPRINT word of an entry: the entry goes, and the frame's reference with it. -/
def State.loseFp (s : State) (bank set way : Nat) : State :=
  match AL.get (bank, set, way) s.kv.starter with
  | none => s
  | some e =>
    ((s.dropEntry (bank, set, way)).logErr (pgStrt bank) 1 set (way * 2 ^ 28 + e.frame)).releaseKey e.frame

/-- An uncorrectable error in the other word: the entry goes and its frame keeps the share. -/
def State.loseMeta (s : State) (bank set way : Nat) : State :=
  match AL.get (bank, set, way) s.kv.starter with
  | none => s
  | some _ =>
    (((s.dropEntry (bank, set, way)).logErr (pgStrt bank) 2 set way).bump (pgStrt bank) 0x120 1).setIrq (pgStrt bank) 2

end Sys2Proof.Machine
end

