-- ==== Sys2Proof/Machine/Fork.lean ====
section
/-!
DEFINITION. FORK (R138 to R142): refusals, shared and copied pages, and the new record.
-/

namespace Sys2Proof.Machine

/-- The refusals of Table 5-9 that are found before FORK runs, in table order. -/
def State.forkRefusal (s : State) (caller : Nat) (checkEn : Bool) (a : ForkD) : Option Result :=
  if a.srcDomain ≠ caller ∧ a.srcDomain ≠ 0 then some { status := stAccess }
  else match s.seqRec a.srcDomain a.srcSeq with
  | none => some badDescriptor
  | some r =>
    let sh := s.shape a.srcDomain r.shapeId
    let low := r.nextPos.foldl min (r.nextPos.headD 0)
    let p := s.pte a.srcDomain a.checkVpn
    let gen := if p.st = .bench ∨ p.st = .rack then some (s.page p.loc).gen else none
    firstFail [
      (r.st == .migrating, migratingBusy),
      (r.st == .moved, rerouteTo r.peerSlot),
      (r.st != .active && r.st != .parked, badDescriptor),
      ((s.seqRec caller a.dstSeq).isSome, badDescriptor),
      (decide (a.posEnd ≤ r.posStart ∨ low < a.posEnd), badDescriptor),
      (!s.rangeOk caller a.baseVpn (rangeLen r.layers r.kvHeads r.pmaxLog2 sh) r.pmaxLog2 || decide (7 < a.policy ∨ 255 < a.ckptRegion), badDescriptor),
      (bitOf a.policy 0 && bitOf a.policy 1, { status := stUnsupported }),
      (decide (a.srcDomain = 0 ∧ s.shapeW caller r.shapeId ≠ s.shapeW 0 r.shapeId), badDescriptor),
      (checkEn && gen != some a.checkGen, badDescriptor)]

/-- What FORK does with a source page (R140). -/
inductive ForkWay where
  | share (a : Bool)       -- shared; `a` for an OPEN page that ends at POS_END
  | copy
  deriving DecidableEq, Repr

/-- A source page of a FORK with its entry and treatment. -/
structure ForkPage where
  pt : Point
  pte : Pte
  way : ForkWay
  deriving DecidableEq, Repr

/-- Pages of a sequence up to a position, in (layer, head group) order and then by ordinal. -/
def pagesTo (r : SeqRec) (sh : Shape) (posEnd : Nat) : List Point :=
  let n := (locate r sh.T (posEnd - 1)).1 + 1
  (streamsOf r sh).flatMap (fun lh => (List.range n).map (fun k => ⟨lh.1, lh.2, k⟩))

/-- The treatment of a page (R140). A page that ends by an early seal at or before POS_END lies wholly before it. -/
def State.forkWay (s : State) (r : SeqRec) (sh : Shape) (posEnd : Nat) (pt : Point) (p : Pte) : ForkWay :=
  if firstPosOf r sh.T (pt.k + 1) ≤ posEnd then .share false
  else if posEnd = r.nextPos.getD pt.layer 0 ∧ (s.page p.loc).st = .opened then .share true
  else .copy

/-- Outcome of a reader's walk over its pages in range order (Table 4-7, R108). -/
inductive Walk where
  | refuse (r : Result)
  | fill (vs : List (Nat × Nat))                    -- VPNs to be filled, with the channel each starts from
  | pages (l : List (Point × Pte))
  deriving DecidableEq, Repr

/-- Walks the pages of a range for reading: the first missing page, a page without R, a PEER or POISON page refuse the
command; CHECKPOINT pages are to be filled. -/
def State.walkRead (s : State) (d q : Nat) (r : SeqRec) (sh : Shape) (ps : List Point) : State × Walk :=
  let acc := ps.foldl (fun (acc : State × List (Point × Pte)) p =>
    let t := acc.1.translate false d (vpnOf r sh p.layer p.hg p.k)
    (t.1, acc.2 ++ [(p, t.2)])) (s, [])
  let l := acc.2
  let bad (p : Pte) : Option Result :=
    match p.st with
    | .invalid => some { status := stBadDescriptor }
    | .peer => some (rerouteTo p.loc)
    | _ => if p.poison then some { status := stPoisoned } else if p.st = .ckpt then none else if p.r then none else some { status := stAccess }
  let miss := l.findIdx? (fun x => x.2.st == .invalid)
  match miss with
  | some n => (acc.1, .refuse { status := stBadDescriptor, c0 := n })
  | none => match l.findSome? (fun x => bad x.2) with
    | some x => (acc.1, .refuse x)
    | none =>
      let need := l.filter (fun x => x.2.st == .ckpt)
      if need.isEmpty then (acc.1, .pages l)
      else (acc.1, .fill (need.map (fun x => (vpnOf r sh x.1.layer x.1.hg x.1.k, frameStart q x.1.layer x.1.hg (hgOf r sh) x.1.k))))

/-- Starts the fills that a walk asks for: the command waits, or ends with the status of a fill that cannot run. -/
def State.awaitFills (s : State) (d part : Nat) (vs : List (Nat × Nat)) : OpRes :=
  let f := s.fillAll (fun s v c => s.startFill d part v c) vs
  match f.2 with
  | some (st, u) => .done f.1 (if st = stNoCapacity then f.1.noCapacity d u else { status := st })
  | none => .wait f.1 (.fills (vs.map (fun v => (d, v.1))) s.nrt) 0

/-! ### Copied pages (R140, R142) -/

/-- A value decoded from a packed page, encoded in the open format under its unit's existing scale (R140). -/
def reencode (sh : Shape) (p : Page) (h q t d : Nat) : Nat :=
  let (c, k) := crumbElem sh p h q t d
  let v := (e4m3Dy c).scale k
  if sh.fmt = 0 then Fmt.e4m3.elemShift 7 (bitOf c 7) v (e8m0Exp (p.mx.read (sh.elem h q t d / 32)).toNat)
  else Fmt.e4m3.elemShift 7 (bitOf c 7) v 0

/-- Slots of a page that hold positions below `posEnd`. -/
def slotsBelow (p : Page) (T posEnd : Nat) : List Nat :=
  (List.range T).filter (fun t => p.valid.getLsbD t && decide (p.firstPos + p.off t < posEnd))

/-- A page cut at POS_END: only slots below it, their elements, scales, units and importance counters (R140, R142). -/
def cutPage (sh : Shape) (p : Page) (posEnd : Nat) : Page :=
  let ts := slotsBelow p sh.T posEnd
  let hqs := (List.range (sh.heads * sh.Q)).map (fun i => (i / sh.Q, i % sh.Q))
  let payload := hqs.foldl (fun m hq => ts.foldl (fun m t =>
    (List.range sh.W).foldl (fun m d =>
      let e := sh.elem hq.1 hq.2 t d
      putElem sh.half e (if p.fPacked then reencode sh p hq.1 hq.2 t d else getElem sh.half e p.payload) m) m) m) ([] : Mem)
  let mx := if sh.isMx then
      hqs.foldl (fun (m : Mem) hq => ts.foldl (fun (m : Mem) t => (List.range sh.G).foldl (fun (m : Mem) g =>
        let b := sh.elem hq.1 hq.2 t (32 * g) / 32
        m.write b (p.mx.read b)) m) m) ([] : Mem)
    else []
  -- a unit of slice u, cut by POS_END or whole
  let sliceStart (i : Nat) := (p.firstPos / 64 + i % sh.U) * 64
  let units := (p.units.filter (fun u => decide (sliceStart u.1 < posEnd))).map (fun u =>
    if sliceStart u.1 + 64 ≤ posEnd ∨ sh.isMx then u
    else
      let g := u.1 / sh.U % sh.Gp
      let q := u.1 / sh.U / sh.Gp % sh.Q
      let h := u.1 / sh.U / sh.Gp / sh.Q
      let vals := (ts.filter (fun t => decide (sliceStart u.1 ≤ p.firstPos + p.off t))).flatMap (fun t =>
        ((List.range sh.W).filter (fun d => sh.fmt != 3 || d / 32 == g)).map (fun d => p.valueDy sh h q t d))
      (u.1, { u.2 with amax := f32Of .nearest (Dy.maxAbs vals), isOpen := true, closed := false }))
  { p with
    st := .opened, fSealed := false, fPacked := false, fKeyed := false, fCkptCurrent := false, fPoison := false
    share := 1, sealTime := 0, keyHi := 0, gen := 1, ckptObj := 0, crumbHdr := [], crumbLoc := false
    filled := ts.foldl (fun m t => max m (t + 1)) 0
    valid := ts.foldl (fun v t => v ||| (1#1024 <<< t)) 0
    kept := if p.fCompacted then ts.foldl (fun v t => v ||| (1#1024 <<< p.off t)) 0 else p.kept
    imp := ts.foldl (fun (m : Mem) t => m.write t (p.imp.read t)) []
    clipPage := min 0xFFFFFFFF (units.foldl (fun n u => n + u.2.clip) 0)
    mx := mx, units := units, payload := payload }

/-- A stream's history as it stood at POS_END (R142): the AMAX of its last HIST_N units that closed before it. -/
def State.historyAt (s : State) (d : Nat) (r : SeqRec) (sh : Shape) (posEnd layer hg h q g : Nat) : List Word :=
  let n := (locate r sh.T (posEnd - 1)).1 + 1
  let all := (List.range n).flatMap (fun k =>
    let p := s.page (s.pte d (vpnOf r sh layer hg k)).loc
    let pageEnd := firstPosOf r sh.T (k + 1)
    (List.range sh.U).filterMap (fun u => match AL.get (sh.unit h q g u) p.units with
      | some x => if x.closed ∧ min ((p.firstPos / 64 + u + 1) * 64) pageEnd ≤ posEnd then some x.amax else none
      | none => none))
  all.drop (all.length - r.histN)

/-- The record of the new sequence (R138, R142). -/
def State.forkRecord (s : State) (r : SeqRec) (sh : Shape) (a : ForkD) : SeqRec :=
  let streams := if sh.isMx then [] else (List.range r.layers).flatMap (fun l => (List.range r.kvHeads).flatMap (fun kv =>
    (List.range sh.Q).flatMap (fun q => (List.range sh.Gp).map (fun g => (l, kv, q, g)))))
  { r with
    st := .active, baseVpn := a.baseVpn, policy := a.policy, ckptRegion := a.ckptRegion
    sealLog := r.sealLog.filter (fun e => decide (e.2 < a.posEnd))
    clipTotal := 0, parent := a.srcSeq, peerSlot := 0, changeSeq := 1
    lastSet := 0, nextStore := 0, nextPos := r.nextPos.map (fun _ => a.posEnd), parkTime := 0
    history := streams.map (fun x =>
      (streamIdx r sh x.1 x.2.1 x.2.2.1 x.2.2.2,
       s.historyAt a.srcDomain r sh a.posEnd x.1 (x.2.1 / sh.heads) (x.2.1 % sh.heads) x.2.2.1 x.2.2.2)) }

/-! ### FORK -/

/-- Maps the pages of a fork whose space is reserved: shares raised, copies made, entries written (R140). -/
def State.forkMap (s : State) (caller : Nat) (r r' : SeqRec) (sh : Shape) (a : ForkD) (ps : List ForkPage) (gs : List Got) : State :=
  ps.foldl (fun (s : State) (x : ForkPage) =>
    let sv := vpnOf r sh x.pt.layer x.pt.hg x.pt.k
    let dv := vpnOf r' sh x.pt.layer x.pt.hg x.pt.k
    match x.way with
    | .share ap =>
      let s := s.raiseShare x.pte.loc
      let s := s.setPte a.srcDomain sv { (s.pte a.srcDomain sv) with shared := true }
      s.setPte caller dv { x.pte with shared := true, r := true, a := ap }
    | .copy => match gs.find? (·.vpn == dv) with
      | none => s
      | some g =>
        let p := { cutPage sh (s.page x.pte.loc) a.posEnd with seq := a.dstSeq, vpn := dv, domain := caller }
        let s := s.putFrame ⟨g.frame, placeAt g p, Page.blank, none, 0, 0, 0, 0⟩
        let s := s.setPte caller dv ⟨.bench, false, true, true, false, false, false, false, g.frame⟩
        match s.frameLine g.frame 0 with
        | some l => s.touchLine l 15 true
        | none => s) s

/-- Reads and decodes the pages that a FORK copies, and answers whether content was lost (R74, R251). DEDUCED: Log 65. -/
def State.readCopies (s : State) (ps : List ForkPage) : State × Bool :=
  ps.foldl (fun (acc : State × Bool) x => match x.way with
    | .share _ => acc
    | .copy =>
      let r := acc.1.readFrame x.pte.loc (acc.1.inBench x.pte.loc) 5
      let e := if r.2 then r else r.1.decodePage x.pte.loc
      (e.1, acc.2 || e.2)) (s, false)

/-- What a fork reserves: frames for copied pages, and level tables in the channels of shared frames (R499). -/
def forkWants (r' : SeqRec) (sh : Shape) (a : ForkD) (ps : List ForkPage) : List Want :=
  ps.map (fun x =>
    let dv := vpnOf r' sh x.pt.layer x.pt.hg x.pt.k
    match x.way with
    | .share _ => ⟨dv, frameChannel x.pte.loc, none, false, 0⟩
    | .copy => ⟨dv, frameStart a.dstSeq x.pt.layer x.pt.hg (hgOf r' sh) x.pt.k, none, true, 0⟩)

/-- The step of a FORK whose space and lines are there: a frame at its share limit ends it (R141), with the shares lowered again, the
space returned and the SHARED bits set staying; otherwise the pages are mapped and the record is written. `s0` is the state before the
reservation, and `s` the one that holds it. -/
def State.forkCommit (s0 s : State) (h : Hdr) (a : ForkD) (r r' : SeqRec) (sh : Shape) (ps : List ForkPage) (gs : List Got) : OpRes :=
  let d := h.domain
  match ps.findIdx? (fun x => x.way != .copy && decide (65535 ≤ (s.page x.pte.loc).share)) with
  | some n =>
    let s := (ps.take n).foldl (fun (s : State) (x : ForkPage) => match x.way with
      | .share _ =>
        let v := vpnOf r sh x.pt.layer x.pt.hg x.pt.k
        s.setPte a.srcDomain v { (s.pte a.srcDomain v) with shared := true }
      | .copy => s) s0
    match ps[n]? with
    | some x => .done s { status := stNoCapacity, c0 := 0x80000000 + x.pt.layer * hgOf r sh + x.pt.hg, c1 := x.pt.k }
    | none => .done s { status := stNoCapacity }
  | none =>
    let s := (s.charge d (r'.recordBytes / 256)).putSeq d a.dstSeq r'
    let s := (s.forkMap d r r' sh a ps gs).bumpChange a.srcDomain a.srcSeq
    .done s { status := stOk, c0 := ps.countP (fun x => x.way != .copy), c1 := ps.countP (fun x => x.way == .copy) }

/-- FORK with its pages walked: content read, space reserved or kept from an earlier run (R235), the record's place found, lines taken
(R227, R228). -/
def State.forkPages (s : State) (c : Cmd) (a : ForkD) (r : SeqRec) (sh : Shape) (ps : List ForkPage) : OpRes :=
  let d := c.hdr.domain
  let part := s.partOf c.hdr.context
  let (s, lost) := if c.wait.space.frames.isEmpty then s.readCopies ps else (s, false)
  let bytes := recordSize r.layers r.kvHeads r.histN sh
  let r' := { s.forkRecord r sh a with recordBytes := bytes }
  let ws := forkWants r' sh a ps
  let kept := s.keepHeld (ws.filter (·.frame)) c.wait.space
  if lost then .done s { status := stPoisoned }
  else match s.reserve d (some part) (ws.filter (fun w => !(w.frame && kept.any (fun g => g.vpn == w.vpn)))) with
    | .error u => .done s (s.noCapacity d u)
    | .ok (s1, gs) =>
      let all := kept ++ gs
      if s1.rquota d < s1.rused d + bytes / 256 then .done s (s.noCapacity d (s1.rused d + bytes / 256 - s1.rquota d))
      else if (s1.placeRecord d a.dstSeq c.hdr.context bytes).isNone then .done s (s.noCapacity d (bytes / 256))
      else match s1.openLines d part (match c.wait with | .victim _ _ b _ => b | _ => false) all with
        | .wait s' t b => .wait s' (.victim t s'.nrt b ⟨all, c.wait.space.tables ++ newTables s s1⟩) 0
        | .taken s' => match s'.placeRecord d a.dstSeq c.hdr.context bytes with
          | none => .done s (s.noCapacity d (bytes / 256))
          | some s' => s.forkCommit s' c.hdr a r r' sh ps all

/-- FORK (Table 5-9, R139 to R142). -/
def State.doFork (s : State) (c : Cmd) (a : ForkD) : OpRes :=
  match s.forkRefusal c.hdr.domain (c.hdr.flag 0) a, s.seqRec a.srcDomain a.srcSeq with
  | some x, _ => .done s x
  | none, none => .done s badDescriptor
  | none, some r =>
    let sh := s.shape a.srcDomain r.shapeId
    match s.walkRead a.srcDomain a.srcSeq r sh (pagesTo r sh a.posEnd) with
    | (s, .refuse x) => .done s x
    | (s, .fill vs) => s.awaitFills a.srcDomain (s.partOf c.hdr.context) vs
    | (s, .pages l) => s.forkPages c a r sh (l.map (fun x => ⟨x.1, x.2, s.forkWay r sh a.posEnd x.1 x.2⟩))

end Sys2Proof.Machine
end

