-- ==== Sys2Proof/Machine/Attn.lean ====
section
/-!
DEFINITION. The arithmetic of the attention engines: scores, masks, the online softmax, importance (R146 to R151, R159,
R209, R210), the backward pass and gradient additions (R63 to R65, R196, R201), and merging and finalising (R172, R173, R188).
-/

namespace Sys2Proof

/-! ### Functions of the node -/

/-- log2(e) in FP32. -/
def f32Log2e : Word := 0x3FB8AA3B
/-- An integer in FP32. -/
def f32OfInt (i : Int) : Word := f32Of .nearest ⟨i, 0⟩
/-- Rounded to BF16 and widened again. -/
def viaBF16 (w : Word) : Word := f32OfBF16 (bf16OfF32 w)

/-! ### Operands -/

/-- An element as the expander delivers it (R71, R147): the 8-bit element's value and its group's MX exponent. -/
def Page.rawElem (sh : Shape) (p : Page) (h q t d : Nat) : Dy × Int :=
  if p.fPacked then
    let (c, k) := crumbElem sh p h q t d
    (e4m3Dy c, k)
  else
    let e := sh.elem h q t d
    let c := getElem sh.half e p.payload
    match sh.fmt with
    | 0 => (e4m3Dy c, e8m0Exp (p.mx.read (e / 32)).toNat)
    | 1 => (e2m1Dy c, e8m0Exp (p.mx.read (e / 32)).toNat)
    | 2 => (e4m3Dy c, 0)
    | _ => (Dy.ofInt (int4Val c), 0)

/-- The scale unit of an element of an HS page. -/
def Page.unitOf (sh : Shape) (p : Page) (h q t g : Nat) : Nat :=
  sh.unit h q (if sh.fmt = 3 then g else 0) (sliceOf p.firstPos (p.off t))

/-- The FP32 scale of a unit. -/
def Page.unitScale (p : Page) (u : Nat) : Word := (AL.get u p.units).elim 0 (·.scale)

/-- Whether an element, or the E8M0 exponent of its block, holds a NaN code (Table 3-2). A packed page decodes to none. -/
def Page.elemNaN (sh : Shape) (p : Page) (h q t d : Nat) : Bool :=
  let e := sh.elem h q t d
  !p.fPacked && ((!sh.half && e4m3IsNaN (getElem false e p.payload)) || (sh.isMx && e8m0IsNaN (p.mx.read (e / 32)).toNat))

/-- An FP32 number times 2^k, rounded once. -/
def f32Scale (w : Word) (k : Int) : Word := if f32Finite w then (if (f32Dy w).isZero then w else f32Of .nearest ((f32Dy w).scale k)) else w

/-- One group's partial dot product (R147 steps 1 to 3): exact, rounded once, then scaled. A sum with an infinite or NaN operand is
IEEE 754's. -/
def groupDot (sh : Shape) (p : Page) (h q t g : Nat) (x : List Word) : Word :=
  let es := (List.range 32).map (fun i => p.rawElem sh h q t (32 * g + i))
  let k := (es.head?).elim 0 (·.2)
  let s :=
    if (List.range 32).any (fun i => p.elemNaN sh h q t (32 * g + i)) then f32NaN 7
    else if x.all f32Finite then f32Of .nearest (Dy.sum ((es.zip x).map (fun (e, w) => e.1.mul (f32Dy w))))
    else (es.zip x).foldl (fun z (e, w) => f32Add z (f32Mul .nearest w (f32Of .nearest e.1))) 0
  let s := f32Scale s k
  if sh.isMx then s else f32Mul .nearest s (p.unitScale (p.unitOf sh h q t g))

/-- The dot product of a 16-bit row and a stored row (R147 step 4). -/
def rowDot (sh : Shape) (p : Page) (h q t : Nat) (x : List Word) : Word :=
  ((chunks 32 x).zipIdx).foldl (fun z (b, g) => f32Add z (groupDot sh p h q t g b)) 0

/-! ### Scores and masks -/

/-- What R146 needs of the command. -/
structure ScoreArg where
  scale : Word
  softcap : Word
  bias : Bool
  deriving DecidableEq, Repr

/-- z before the bias, and its cap's tanh. -/
def capScore (a : ScoreArg) (z0 : Word) : Word :=
  if f32Lt 0 a.softcap then f32Mul .nearest a.softcap (f32Tanh (f32Div .nearest z0 a.softcap)) else z0

/-- The base-2 score of a row against the key in slot `t` (R146). -/
def score (sh : Shape) (a : ScoreArg) (p : Page) (h t : Nat) (r : RowIn) : Word :=
  let z := capScore a (f32Mul .nearest (rowDot sh p h 0 t r.q) a.scale)
  let j : Int := p.firstPos + p.off t
  let z := if a.bias then f32Add z (f32Mul .nearest r.slope (f32OfInt (j - r.pos))) else z
  f32Div .nearest (f32Mul .nearest z f32Log2e) r.temp

/-- Whether a mask admits (i, j) (Table 6-2). `anc` is ANC[NODE[p]] of the row. -/
def maskAdmits (mask maskA maskB : Nat) (anc : DWord) (i j : Nat) : Bool :=
  match mask with
  | 0 => true
  | 1 => decide (j ≤ i)
  | 2 => decide (j ≤ i ∧ i - j < maskA)
  | 3 => decide (j ≤ i ∧ j / max 1 maskA = i / max 1 maskA)
  | 4 => decide (j < maskA ∨ j ≤ i)
  | _ => decide (j < maskA) || (decide (maskA ≤ j ∧ j < maskA + maskB) && anc.getLsbD (j - maskA))

/-- Visible slots of a block of 64 (R149) for a row whose KV head is the page's head `h`. -/
def visibleSlots (sh : Shape) (d : AttnD) (anc : DWord) (p : Page) (pos blk : Nat) : List Nat :=
  (List.range 64).filterMap (fun i =>
    let t := blk * 64 + i
    let j := p.firstPos + p.off t
    if decide (t < sh.T) && p.valid.getLsbD t && decide (d.tokFirst ≤ j ∧ j < d.tokEnd) && maskAdmits d.mask d.maskA d.maskB anc pos j
    then some t else none)

/-! ### The online softmax (R148, R159) -/

/-- A 16-bit weight times an element of a slot with its MX scale (R148). -/
def Page.weighted (sh : Shape) (p : Page) (h q dim : Nat) (x : Nat × Word) : Word :=
  let (e, k) := p.rawElem sh h q x.1 dim
  if p.elemNaN sh h q x.1 dim then f32NaN 7
  else if f32Finite x.2 then f32Of .nearest (((f32Dy x.2).mul e).scale k)
  else f32Mul .nearest x.2 (f32Of .nearest (e.scale k))

/-- Adds Σ p·v over the visible slots of a block to one dimension of o (R148). -/
def pvDim (sh : Shape) (p : Page) (h q dim : Nat) (ps : List (Nat × Word)) (o : Word) : Word :=
  if sh.isMx then ps.foldl (fun o x => f32Add o (p.weighted sh h q dim x)) o
  else
    let us := (ps.map (fun x => p.unitOf sh h q x.1 (dim / 32))).eraseDups
    us.foldl (fun o u =>
      let s := (ps.filter (fun x => p.unitOf sh h q x.1 (dim / 32) == u)).foldl (fun s x => f32Add s (p.weighted sh h q dim x)) 0
      f32Add o (f32Mul .nearest s (p.unitScale u))) o

/-- What one block does to a row: the accumulators, the importance weights of its slots (R209), and whether it rescaled. -/
structure BlockOut where
  acc : RowAcc
  mass : List (Nat × Word)
  rescaled : Bool
  deriving DecidableEq, Repr

/-- One softmax block of one row (R159). The value part of a latent shape is part 0. -/
def softmaxBlock (sh : Shape) (a : ScoreArg) (p : Page) (h : Nat) (r : RowIn) (vis : List Nat) (w : RowAcc) : BlockOut :=
  match vis.map (fun t => (t, score sh a p h t r)) with
  | [] => ⟨w, [], false⟩
  | s0 :: ss =>
    let bmax := ss.foldl (fun b x => f32Max b x.2) s0.2
    let far := f32Lt (f32Add w.mref (f32OfInt 8)) bmax
    let first := w.mref == f32NegInf
    let f := f32Exp2 (f32Sub w.mref bmax)
    let mref := if first || far then bmax else w.mref
    let l := if !first && far then f32Mul .nearest w.l f else w.l
    let o := if !first && far then w.o.map (fun x => f32Mul .nearest x f) else w.o
    let mmax := f32Max w.mmax bmax
    let ps := (s0 :: ss).map (fun x => (x.1, viaBF16 (f32Exp2 (f32Sub x.2 mref))))
    let g := f32Exp2 (f32Sub mref mmax)
    ⟨⟨mref, mmax, ps.foldl (fun l x => f32Add l x.2) l,
      o.zipIdx.map (fun (x, d) => pvDim sh p h (if sh.latent then 0 else 1) d ps x)⟩,
     ps.map (fun x => (x.1, f32Mul .nearest x.2 g)), !first && far⟩

def RowAcc.blank (dv : Nat) : RowAcc := ⟨f32NegInf, f32NegInf, 0, List.replicate dv 0⟩

/-- The final step of R159: the reference moves to the true maximum. -/
def RowAcc.emit (w : RowAcc) : RowPart :=
  if w.mref = f32NegInf then ⟨w.o.map (fun _ => 0), f32NegInf, 0⟩
  else if f32Lt w.mref w.mmax then
    let f := f32Exp2 (f32Sub w.mref w.mmax)
    ⟨w.o.map (fun x => f32Mul .nearest x f), w.mmax, f32Mul .nearest w.l f⟩
  else ⟨w.o, w.mmax, w.l⟩

/-- A page of a forward fragment: every block for every row whose KV head lies in the page (R149, R159). -/
structure PageOut where
  rows : List RowAcc
  mass : List (Nat × Word)
  rescales : Nat
  deriving DecidableEq, Repr

/-- Adds weights to the masses of slots, in FP32. -/
def addMass (m : List (Nat × Word)) (xs : List (Nat × Word)) : List (Nat × Word) :=
  xs.foldl (fun m x => AL.put x.1 (f32Add (AL.getD x.1 0 m) x.2) m) m

/-- Rows with their ancestor words (R150). -/
def ancOf (j : AttnJob) (positions i : Nat) : DWord := j.tree.getD (j.node.getD (i % max 1 positions) 0) 0

def forwardPage (sh : Shape) (d : AttnD) (j : AttnJob) (a : ScoreArg) (p : Page) (hg : Nat) (rows : List RowAcc) : PageOut :=
  let step (out : PageOut) (x : (RowIn × RowAcc) × Nat) : PageOut :=
    let r := x.1.1
    if r.kv / sh.heads ≠ hg then { out with rows := out.rows ++ [x.1.2] }
    else
      let b := (List.range (sh.T / 64)).foldl (fun (b : BlockOut × Nat) blk =>
        let o := softmaxBlock sh a p (r.kv % sh.heads) r (visibleSlots sh d (ancOf j d.positions x.2) p r.pos blk) b.1.acc
        (⟨o.acc, b.1.mass ++ o.mass, false⟩, b.2 + b2n o.rescaled)) (⟨x.1.2, [], false⟩, 0)
      ⟨out.rows ++ [b.1.acc], addMass out.mass b.1.mass, out.rescales + b.2⟩
  (((j.rowsIn.zip rows).zipIdx).foldl step ⟨[], [], 0⟩)

/-! ### Importance (R208 to R210) -/

/-- Value of a counter code. -/
def impDecode (c : Nat) : Dy := let e := c / 16; let m := c % 16; if e = 0 then ⟨m, -12⟩ else ⟨16 + m, (e : Int) - 13⟩

/-- The largest code whose value is at most `v`, saturating at 124. -/
def impEncode (v : Dy) : Nat := (List.range 256).foldl (fun b c => if (impDecode c).le v then c else b) 0

/-- A counter after one read (R210), in FP32 steps. -/
def impStep (c : Nat) (mass : Word) : Nat :=
  let v := f32Of .nearest (impDecode c)
  let v := f32Add (f32Div .nearest (f32Mul .nearest v (f32OfInt 15)) (f32OfInt 16)) mass
  if f32Finite v then impEncode (f32Dy v) else 255

/-- The counters of every valid slot of a page after a command has read it. -/
def Page.impUpdate (sh : Shape) (p : Page) (mass : List (Nat × Word)) : Page :=
  let f (m : Mem) (t : Nat) : Mem := m.write t (BitVec.ofNat 8 (impStep (p.imp.read t).toNat (AL.getD t 0 mass)))
  { p with imp := ((List.range sh.T).filter p.valid.getLsbD).foldl f p.imp }

/-! ### Backward (R196) -/

/-- The 8-bit operand form of a row (R53): MXFP8 values. -/
def mxForm (x : List Word) : List Word :=
  (chunks 32 x).flatMap (fun b =>
    let k := mxExp 448 b
    b.map (fun w => f32Of .nearest ((e4m3Dy (mxCode 0 k w)).scale k)))

/-- p, g and the two 8-bit rows of one visible (r, j). -/
structure BwdTerm where
  slot : Nat
  p : Word
  g : Word
  deriving DecidableEq, Repr

/-- p and g of a row against slot `t` (R196). -/
def bwdTerm (sh : Shape) (a : ScoreArg) (p : Page) (h t : Nat) (r : RowIn) : BwdTerm :=
  let z0 := f32Mul .nearest (rowDot sh p h 0 t r.q) a.scale
  let pr := viaBF16 (f32Div .nearest (f32Exp2 (f32Sub (score sh a p h t r) r.m)) r.l)
  let dP := rowDot sh p h 1 t r.dO
  let dS := f32Mul .nearest pr (f32Sub dP r.dsum)
  let g := f32Mul .nearest (f32Div .nearest dS r.temp) a.scale
  let g := if f32Lt 0 a.softcap then
      let th := f32Tanh (f32Div .nearest z0 a.softcap)
      f32Mul .nearest g (f32Sub f32One (f32Mul .nearest th th))
    else g
  ⟨t, pr, viaBF16 g⟩

/-- dQ of a row after the terms of a block of 64 slots: g times the key, as values are accumulated in R148. -/
def dqAdd (sh : Shape) (p : Page) (h : Nat) (ts : List BwdTerm) (o : List Word) : List Word :=
  o.zipIdx.map (fun (x, d) => pvDim sh p h 0 d (ts.map (fun t => (t.slot, t.g))) x)

/-- A page of a backward fragment: dQ rows, and the dK and dV sums of the page by (head, part, slot). -/
structure BwdOut where
  rows : List RowAcc
  sums : List ((Nat × Nat × Nat) × List Word)
  deriving DecidableEq, Repr

/-- Adds f · x to a sum held for a slot, in FP32. -/
def addScaled (f : Word) (x : List Word) (s : Option (List Word)) : List Word :=
  match s with
  | none => x.map (fun w => f32Mul .nearest f w)
  | some s => (s.zip x).map (fun (a, w) => f32Add a (f32Mul .nearest f w))

def backwardPage (sh : Shape) (d : AttnD) (j : AttnJob) (a : ScoreArg) (p : Page) (hg : Nat) (rows : List RowAcc) : BwdOut :=
  let step (out : BwdOut) (x : (RowIn × RowAcc) × Nat) : BwdOut :=
    let r := x.1.1
    if r.kv / sh.heads ≠ hg ∨ r.m = f32NegInf then { out with rows := out.rows ++ [x.1.2] }
    else
      let h := r.kv % sh.heads
      let blocks := (List.range (sh.T / 64)).map (fun b =>
        (visibleSlots sh d (ancOf j d.positions x.2) p r.pos b).map (fun t => bwdTerm sh a p h t r))
      let sums := blocks.flatten.foldl (fun (m : List ((Nat × Nat × Nat) × List Word)) t =>
        let m := AL.put (h, 0, t.slot) (addScaled t.g r.qx (AL.get (h, 0, t.slot) m)) m
        AL.put (h, 1, t.slot) (addScaled t.p r.dOx (AL.get (h, 1, t.slot) m)) m) out.sums
      ⟨out.rows ++ [{ x.1.2 with o := blocks.foldl (fun o ts => dqAdd sh p h ts o) x.1.2.o }], sums⟩
  (((j.rowsIn.zip rows).zipIdx).foldl step ⟨[], []⟩)

/-! ### Gradient additions (R63 to R65, R201) -/

/-- The unit of (head, part, slot) in a gradient page: G′ is 1. -/
def gradUnit (sh : Shape) (firstPos h q t : Nat) : Nat := (h * sh.Q + q) * sh.U + sliceOf firstPos t

/-- The scale of a cleared unit (R63): amax · 2^GRAD_HEADROOM / 57,344, rounded toward +∞. An amax that is no finite number, and a scale
above every finite FP32 number, give a free scale (R49). DESIGN CHOICE: Log 9. -/
def gradScale (headroom : Nat) (amax : Word) : Word :=
  if !f32Finite amax then f32Written f32Inf
  else if (f32Dy amax).isZero then f32One
  else f32Written (f32Pack (Fmt.fp32.roundDiv .up ((f32Dy amax).scale headroom) ⟨57344, 0⟩))

/-- E5M2 code of v under a scale, and whether it is clipped (R64, R65). `seed` picks the 16-bit value of stochastic rounding. -/
def gradCode (sr : Bool) (seed : Nat) (scale v : Word) : Nat × Bool :=
  let clipped := exceeds v scale 57344
  if clipped then (b2n (f32Neg v) * 128 + Fmt.e5m2.top, true)
  else if sr then (e5m2Stochastic v scale (Config.rand16 seed).toNat, false)
  else (Fmt.e5m2.elemDiv 7 v scale, false)

/-- Adds one row of sums to a gradient page. -/
def GradPage.addRow (sh : Shape) (sr : Bool) (seed headroom : Nat) (off : Nat → Nat) (g : GradPage) (hqt : Nat × Nat × Nat)
    (amax : Word) (xs : List Word) : GradPage × Nat :=
  let (h, q, t) := hqt
  let ui := gradUnit sh g.firstPos h q (off t)
  let u := (AL.get ui g.units).getD ⟨gradScale headroom amax, 0, 0, true, false, false⟩
  let e := sh.elem h q t 0
  let r := (xs.zipIdx).foldl (fun (acc : Mem × Nat × Word) (x, d) =>
    let v := f32Add (f32Mul .nearest (f32OfE5M2 (acc.1.read (e + d)).toNat) u.scale) x
    let c := gradCode sr (seed + e + d) u.scale v
    (acc.1.write (e + d) (BitVec.ofNat 8 c.1), acc.2.1 + b2n c.2, f32Max acc.2.2 (f32Abs v))) (g.payload, 0, u.amax)
  ({ g with payload := r.1, units := AL.put ui { u with amax := f32Written r.2.2, clip := min 65535 (u.clip + r.2.1) } g.units }, r.2.1)

/-- Adds the sums of a page, unit by unit: the first addition's amax over a unit fixes its scale. Answers the elements clipped. -/
def GradPage.addAll (sh : Shape) (sr : Bool) (seed headroom : Nat) (off : Nat → Nat) (g : GradPage)
    (sums : List ((Nat × Nat × Nat) × List Word)) : GradPage × Nat :=
  let am (h q t : Nat) := (sums.filter (fun s => s.1.1 == h && s.1.2.1 == q &&
    gradUnit sh g.firstPos h q (off s.1.2.2) == gradUnit sh g.firstPos h q (off t))).foldl (fun a s => f32Max a (amaxOf s.2)) 0
  sums.foldl (fun (acc : GradPage × Nat) s =>
    let r := acc.1.addRow sh sr (seed + 65536 * acc.2) headroom off s.1 (am s.1.1 s.1.2.1 s.1.2.2) s.2
    (r.1, acc.2 + r.2)) (g, 0)

/-! ### Merging (R172, R173) -/

/-- Two rows merged (R172). The empty partial changes no row (R173). -/
def mergeRow (a b : RowPart) : RowPart :=
  let m := f32Max a.m b.m
  if m = f32NegInf then ⟨a.o.map (fun _ => 0), f32NegInf, 0⟩
  else if a.m = f32NegInf then b
  else if b.m = f32NegInf then a
  else
    let f1 := f32Exp2 (f32Sub a.m m)
    let f2 := f32Exp2 (f32Sub b.m m)
    ⟨(a.o.zip b.o).map (fun (x, y) => f32Add (f32Mul .nearest f1 x) (f32Mul .nearest f2 y)), m,
     f32Add (f32Mul .nearest f1 a.l) (f32Mul .nearest f2 b.l)⟩

/-- Partials with SUM = 1 add o alone. -/
def sumRow (a b : RowPart) : RowPart := { a with o := (a.o.zip b.o).map (fun (x, y) => f32Add x y) }

/-- Rows merged in order. -/
def mergeRows (sum : Bool) (a b : List RowPart) : List RowPart :=
  (a.zip b).map (fun (x, y) => if sum then sumRow x y else mergeRow x y)

/-- The identity of R173 for `n` rows. -/
def emptyRows (n dv : Nat) (sum : Bool) : List RowPart :=
  List.replicate n ⟨List.replicate dv 0, if sum then 0 else f32NegInf, 0⟩

def PartAcc.blank (n dv : Nat) (sum : Bool) : PartAcc := ⟨emptyRows n dv sum, sum, 0, 0, stOk⟩

/-- One input merged into a partial of the node (R176): counts add, and the first status of 0x10 or above stays. -/
def PartAcc.merge (a : PartAcc) (b : PartAcc) : PartAcc :=
  ⟨if 0x10 ≤ b.status then a.rows else mergeRows a.sum a.rows b.rows, a.sum, a.tokens + b.tokens, a.pages + b.pages,
   if 0x10 ≤ a.status then a.status else if 0x10 ≤ b.status then b.status else a.status⟩

/-- FINALISE of one row (R188). -/
def finaliseRow (sink : Word) (r : RowPart) : RowPart :=
  let m' := if sink = f32NegInf then r.m else f32Max r.m sink
  let f := if r.m = f32NegInf then 0 else f32Exp2 (f32Sub r.m m')
  let l' := if sink = f32NegInf then r.l
    else f32Add (if r.m = f32NegInf then 0 else f32Mul .nearest r.l f) (f32Exp2 (f32Sub sink m'))
  ⟨r.o.map (fun x => if (f32Finite l' && (f32Dy l').isZero) then 0 else f32Div .nearest (f32Mul .nearest x f) l'), m', l'⟩

end Sys2Proof
end

