-- ==== Sys2Proof/Machine/Sched.lean ====
section
/-!
DEFINITION. The tile schedulers: classes and credit (R278), weighted fair queueing (R279), windows and dispatch (R163, R280),
pre-emption, save, kill and rerun (R282 to R286). Queue 16 of a tile is its AE queue and 0 to 15 its NBU queues; engines 0
and 1 are its AEs and engine 2 + n its NBU n.
-/

namespace Sys2Proof

/-- Length bucket (Table 6-6). -/
def bucketOf (n : Nat) : Nat :=
  if n ≤ 1 then 0 else if n ≤ 2 then 1 else if n ≤ 4 then 2 else if n ≤ 8 then 3 else if n ≤ 16 then 4
  else if n ≤ 32 then 5 else if n ≤ 63 then 6 else 7

/-- LC in the dispatch order. -/
def Frag.asLc (f : Frag) : Bool := f.lc && !f.demoted
/-- Rank in a window: class, then bucket; lower is earlier. -/
def Frag.rank (f : Frag) : Nat := (if f.asLc then 0 else 8) + (7 - bucketOf f.pages.length)

/-- Bytes of a fragment's accumulators: o or dQ, and the statistics of its rows (Table 12-2). -/
def Frag.accBytes (f : Frag) : Nat := f.rows.foldl (fun n r => n + 4 * r.o.length + 12) 0

/-- The engine of a fragment that runs or is being stopped. -/
def Frag.engine (f : Frag) : Option Nat :=
  match f.st with
  | .running e => some e | .stopping e => some e | .killing e => some e | .restoring e => some e | _ => none

end Sys2Proof

namespace Sys2Proof.Machine

def State.setEng (s : State) (e : EngState) : State := { s with eng := e }
def State.frag (s : State) (i : Nat) : Option Frag := AL.get i s.eng.frags
def State.putFrag (s : State) (f : Frag) : State := s.setEng { s.eng with frags := AL.put f.id f s.eng.frags }
def State.queue (s : State) (t q : Nat) : QueueRec := AL.getD (t, q) ⟨[], 0, 0, [], 0, []⟩ s.eng.queues
def State.putQueue (s : State) (t q : Nat) (r : QueueRec) : State := s.setEng { s.eng with queues := AL.put (t, q) r s.eng.queues }

/-- Engines of a queue. -/
def enginesOf (q : Nat) : List Nat := if q = 16 then [0, 1] else [2 + q]
/-- Control page of an engine. -/
def enginePage (t e : Nat) : Nat := if e < 2 then pgAten t e else pgNbun (t * 16 + (e - 2))

/-- An engine that runs nothing and may take a fragment. -/
def State.engineIdle (s : State) (t e : Nat) : Bool :=
  s.unitAdmits (enginePage t e) && !s.tileFenced t && !AL.has (t, e) s.eng.busy

/-! ### Credit (R278) -/

def State.lcCap (s : State) (t : Nat) : Nat := s.fld (pgTsch t) 0x140 0 8
/-- LC_BURST · 256 cycles. -/
def State.lcBurst (s : State) (t : Nat) : Nat := max 1 (s.fld (pgTsch t) 0x140 8 16) * 256
/-- The credit of an engine now, in 1/256 cycles: LC_CAP a cycle, less 256 a cycle of an LC fragment, within ± LC_BURST.
DEDUCED: Log 41. -/
def State.creditNow (s : State) (t e : Nat) : Int :=
  let c := AL.getD (t, e) ⟨0, 0⟩ s.eng.credits
  let cycles : Int := ((s.nrt - c.stamp) * s.clockMhz / 100 : Nat)
  let lc := match AL.get (t, e) s.eng.busy with
    | some i => (match s.frag i with | some f => f.lc | none => false)
    | none => false
  let lim : Int := (s.lcBurst t * 256 : Nat)
  max (-lim) (min lim (c.level + cycles * ((s.lcCap t : Int) - (if lc then 256 else 0))))

/-- Island cycles since an engine's account was last brought up to date, if it runs a fragment (Tables 6-10, 6-13). -/
def State.busyCycles (s : State) (t e : Nat) : Nat :=
  if AL.has (t, e) s.eng.busy then (s.nrt - (AL.getD (t, e) ⟨0, 0⟩ s.eng.credits).stamp) * s.clockMhz / 100 else 0

/-- Brings an engine's credit and its BUSY counter up to date; done at every change of what it runs, of TSCH.CLASS and of the clock.
DEDUCED: Log 41. -/
def State.syncCredit (s : State) (t e : Nat) : State :=
  let n := s.busyCycles t e
  let s := s.setEng { s.eng with credits := AL.put (t, e) ⟨s.creditNow t e, s.nrt⟩ s.eng.credits }
  if n = 0 then s else s.bump64 (enginePage t e) 0x110 n

/-- The same for every engine of a tile, and of the node. -/
def State.syncTile (s : State) (t : Nat) : State := (List.range 18).foldl (fun s e => s.syncCredit t e) s
def State.syncNode (s : State) : State := (List.range 24).foldl State.syncTile s

/-- PMC goes down or comes up while the islands run faster than its clamp allows: their clock changes (Table 18-9). -/
def State.syncClamp (s : State) (core : Nat) : State :=
  if core = 1 ∧ s.running ∧ 800 < s.pw.mhz then s.syncNode else s

/-- The same for the engine of a page, if it is one. -/
def State.syncEngine (s : State) (pg : Nat) : State :=
  match pageType pg, pageTile pg with
  | some (.aten, e), some t => s.syncCredit t e
  | some (.nbun, c), some t => s.syncCredit t (2 + c)
  | _, _ => s

/-- Applies the pending values of a page, the accounts that the old values govern brought up to date first (R33, R278). -/
def State.commitPage (s : State) (pg : Nat) : State :=
  match pageType pg, pageTile pg with
  | some (.tsch, _), some t => (s.syncTile t).commitShadow pg
  | _, _ => s.commitShadow pg

/-- WINDOW_NS: values above 2,000 are treated as 2,000. -/
def State.windowNs (s : State) (t : Nat) : Nat := min 2000 (s.fld (pgTsch t) 0x100 0 12)

/-! ### Order (R163, R279, R280) -/

/-- Inserts a fragment into a window in dispatch order: behind its equals, or ahead of them (R280). -/
def State.insertRanked (s : State) (ahead : Bool) (f : Frag) : List Nat → List Nat
  | [] => [f.id]
  | i :: is =>
    let r := (s.frag i).elim 0 Frag.rank
    if f.rank < r ∨ (ahead ∧ f.rank = r) then f.id :: i :: is else i :: State.insertRanked s ahead f is

/-- Weight of a context (Table 12-1). -/
def State.weight (s : State) (c : Nat) : Nat := max 1 ((AL.get c s.cmds.ctxs).elim 1 (·.weight))
def State.horizon (s : State) (t : Nat) : Nat := max 256 (s.fld (pgTsch t) 0x144 0 24)

/-- When V exceeds 2^31 it is subtracted from itself and from every tag of its queue (R279). -/
def State.rebaseQueue (s : State) (t q : Nat) : State :=
  let r := s.queue t q
  if r.v ≤ 2 ^ 31 then s
  else
    let low (p : Nat × Frag) : Nat × Frag := if p.2.tile = t ∧ p.2.queue = q then (p.1, { p.2 with tag := p.2.tag - r.v }) else p
    (s.setEng { s.eng with frags := s.eng.frags.map low }).putQueue t q { r with
      v := 0, fLast := r.fLast.map (fun (p : Nat × Nat) => (p.1, p.2 - r.v)) }

/-- Tags of a BE fragment on arrival; they saturate (R279). -/
def State.tagArrival (s : State) (f : Frag) : State × Nat :=
  let r := s.queue f.tile f.queue
  let st := max r.v (AL.getD f.ctx 0 r.fLast)
  let r := { r with fLast := AL.put f.ctx (min (2 ^ 32 - 1) (st + f.pages.length * 256 / s.weight f.ctx)) r.fLast }
  (s.putQueue f.tile f.queue r, st)

/-! ### Pages under an engine -/

/-- The page in the form a fragment pinned (R162): an AE reads the node's view, an NBU the Rack copy (R241, R299). -/
def pinnedPage (x : Frame) (queue : Nat) (packed : Bool) : Page :=
  let b := if queue = 16 then x.cur else x.rack
  if b.fPacked = packed then b
  else match x.old with
    | some (_, p) => { p with valid := b.valid, fPoison := b.fPoison, st := b.st }
    | none => b

/-- The engine starts the fragment's next page: the slots that are valid now are those that it sees (R149). -/
def State.onPage (s : State) (f : Frag) : Frag :=
  match f.pages[f.next]? with
  | none => f
  | some p => { f with seen := (s.frame p.frame).elim 0 (fun x => (pinnedPage x f.queue p.packed).valid) }

/-! ### Dispatch -/

/-- Whether an engine is copying a stopped fragment's state to the save area. -/
def State.savingOn (s : State) (t e : Nat) : Bool :=
  s.eng.frags.any (fun (p : Nat × Frag) => p.2.tile == t && p.2.st == .saving e)

/-- Whether a fragment on an engine uses its BE ways: every BE fragment, and an LC fragment whose accumulators need more than the
LC_WAYS MiB of the LC set (R281). DEDUCED: Log 41. -/
def State.usesBeWays (s : State) (t e : Nat) (f : Frag) : Bool :=
  decide (e < 2) && (!f.lc || decide (max 1 (s.fld (enginePage t e) 0x100 4 4) * 2 ^ 20 < f.accBytes))

/-- Whether a fragment of the draining window can be dispatched on an engine (R281, R283). -/
def State.canStart (s : State) (t e : Nat) (f : Frag) : Bool :=
  match f.st with
  | .waiting => !(s.usesBeWays t e f && s.savingOn t e)
  | .saving e' => e' == e
  | .saved => !s.savingOn t e
  | _ => false

/-- Starts a fragment on an engine: counters, V, the credit account, and the resume of a stopped one. Its lines are those of its
context's partition now (R276). -/
def State.startOn (s : State) (t e : Nat) (f : Frag) : State :=
  let f := { f with part := s.partOf f.ctx }
  let s := s.syncCredit t e
  let pg := pgTsch t
  let s := (s.bump64 pg 0x108 1).bump pg (0x114 + 4 * bucketOf f.pages.length) 1
  let s := if f.ahead then s
    else s.setReg pg 0x134 (BitVec.ofNat 32 (max (s.reg pg 0x134).toNat (min (s.nrt - f.arrived) 0xFFFFFFFF)))
  let r := s.queue t f.queue
  let s := if f.asLc then s else (s.putQueue t f.queue { r with v := max r.v f.tag }).rebaseQueue t f.queue
  let f := { f with tag := (s.frag f.id).elim f.tag (·.tag) }
  let s := s.setEng { s.eng with busy := AL.put (t, e) f.id s.eng.busy }
  let same := AL.get (t, e) s.eng.ways == some f.id
  match f.st with
  | .waiting =>
    let s := if s.usesBeWays t e f then s.setEng { s.eng with ways := AL.del (t, e) s.eng.ways } else s
    s.putFrag (s.onPage { f with st := .running e })
  | _ =>
    if same then
      -- the ways are untouched: the copy is cancelled and nothing is restored (R283)
      (s.setEng { s.eng with save := AL.del f.ctx s.eng.save, ways := AL.del (t, e) s.eng.ways }).putFrag (s.onPage { f with st := .running e })
    else (s.setEng { s.eng with ways := AL.del (t, e) s.eng.ways }).putFrag { f with st := .restoring e }

/-- Dispatches what the head window of a queue allows to its idle engines. -/
def State.pumpQueue (s : State) (t q : Nat) : Nat → State
  | 0 => s
  | n + 1 =>
    let r := s.queue t q
    match r.drain with
    | [] => s
    | [] :: ws => State.pumpQueue (s.putQueue t q { r with drain := ws }) t q n
    | w :: ws =>
      let es := (enginesOf q).filter (fun e => s.engineIdle t e)
      match es.findSome? (fun e => (w.findSome? (fun i => (s.frag i).bind (fun f => if s.canStart t e f then some f else none))).map (fun f => (e, f))) with
      | none => s
      | some (e, f) => State.pumpQueue ((s.putQueue t q { r with drain := w.erase f.id :: ws }).startOn t e f) t q n

def State.pump (s : State) (t q : Nat) : State :=
  let r := s.queue t q
  s.pumpQueue t q (2 * r.drain.length + 4)

/-- Frees the engine of a fragment. -/
def State.freeEngine (s : State) (f : Frag) : State :=
  match f.engine with
  | none => s
  | some e =>
    let s := s.syncCredit f.tile e
    s.setEng { s.eng with busy := AL.del (f.tile, e) s.eng.busy }

/-- Whether a pre-empted fragment can be saved (R284): rows · DV is at most 64,512 FP32 values. -/
def State.canSave (s : State) (f : Frag) : Bool :=
  !AL.has f.ctx s.eng.save && !s.tileFenced (f.ctx % 24) && decide (4 * (f.rows.foldl (fun n r => n + r.o.length) 0) ≤ 258048)

/-- Chooses and marks a victim when a window closes with an LC fragment first and no engine free (R282, R284, R286). A window is first
in dispatch order when none is draining before it. DEDUCED: Log 41. -/
def State.preempt (s : State) (t q : Nat) : State :=
  match (s.queue t q).drain with
  | (i :: _) :: _ =>
    match s.frag i with
    | none => s
    | some f =>
      if !f.asLc || (enginesOf q).any (fun e => s.engineIdle t e) then s
      else
        let run := (enginesOf q).filterMap (fun e => (AL.get (t, e) s.eng.busy).bind (fun i => (s.frag i).bind (fun g =>
          if !g.lc && decide (g.reruns < 2) && g.st == .running e then some (e, g) else none)))
        match run.foldl (fun b x => match b with
            | none => some x
            | some y => if y.2.tag < x.2.tag then some x else some y) (none : Option (Nat × Frag)) with
        | none => s
        | some (e, g) =>
          let s := s.bump (pgTsch t) 0x154 1
          s.putFrag { g with st := if q = 16 ∧ s.canSave g then .stopping e else .killing e }
  | _ => s

/-- An LC fragment without credit is ordered with the BE fragments: start tag V, and its context's weight (R278). DEDUCED: Log 41. -/
def State.demote (s : State) (i : Nat) : State :=
  match s.frag i with
  | none => s
  | some f =>
    if !f.lc || f.demoted then s
    else
      let r := s.queue f.tile f.queue
      let last := max (AL.getD f.ctx 0 r.fLast) (min (2 ^ 32 - 1) (r.v + f.pages.length * 256 / s.weight f.ctx))
      ((s.putQueue f.tile f.queue { r with fLast := AL.put f.ctx last r.fLast }).putFrag { f with demoted := true, tag := r.v }).bump
        (pgTsch f.tile) 0x150 1

/-- A window has closed and its fragments are in the drain; `first` tells that none drains before it. -/
def State.windowClosed (s : State) (t q : Nat) (first : Bool) : State := (if first then s.preempt t q else s).pump t q

/-- Closes a queue's window (R163, R278, R279): demotes LC fragments without credit, admits BE fragments within the horizon,
and sorts those admitted into the drain. -/
def State.closeWindow (s : State) (t q : Nat) : State :=
  let r := s.queue t q
  if r.window.isEmpty then s
  else
    let s := s.bump (pgTsch t) 0x110 1
    let credit := (enginesOf q).any (fun e => decide (0 < s.creditNow t e))
    let s := if credit then s else r.window.foldl (fun s i => s.demote i) s
    let r := s.queue t q
    let ok (i : Nat) : Bool := match s.frag i with | some f => f.lc || decide (f.tag ≤ r.v + s.horizon t) | none => false
    let admitted := r.window.filter ok
    let held := r.window.filter (fun i => !ok i)
    let w := admitted.foldl (fun w i => match s.frag i with | some f => s.insertRanked false f w | none => w) ([] : List Nat)
    let s := s.bump (pgTsch t) 0x15C held.length
    let s := if held.isEmpty then s else s.commitPage (pgTsch t)
    let s := s.putQueue t q { r with window := held, opened := s.nrt, len := s.windowNs t, drain := if w.isEmpty then r.drain else r.drain ++ [w] }
    s.windowClosed t q (r.drain.all List.isEmpty)

/-- A fragment arrives at its tile scheduler (R163). A window keeps the length that it opened with (R170). -/
def State.arrive (s : State) (f : Frag) : State :=
  let t := f.tile
  let q := f.queue
  let (s, st) := if f.lc then (s, 0) else s.tagArrival f
  let f := { f with tag := st, arrived := s.nrt }
  let r := s.queue t q
  match (enginesOf q).find? (fun e => s.engineIdle t e), r.window, r.drain with
  | some e, [], [] => if s.canStart t e f then (s.putFrag f).startOn t e f else
      (s.putFrag f).putQueue t q { r with window := [f.id], opened := s.nrt, len := s.windowNs t }
  | _, _, _ =>
    let s := if r.window.isEmpty then s.commitPage (pgTsch t) else s
    let len := if r.window.isEmpty then s.windowNs t else r.len
    let s := (s.putFrag f).putQueue t q { r with
      window := r.window ++ [f.id], opened := if r.window.isEmpty then s.nrt else r.opened, len := len }
    if len = 0 then s.closeWindow t q else s

/-- A fragment goes back to the draining window, ahead of its class and bucket (R280). -/
def State.rejoin (s : State) (f : Frag) : State :=
  let s := s.putFrag { f with ahead := true }
  let r := s.queue f.tile f.queue
  let s := match r.drain with
    | [] => s.putQueue f.tile f.queue { r with drain := [[f.id]] }
    | w :: ws => s.putQueue f.tile f.queue { r with drain := s.insertRanked true { f with ahead := true } w :: ws }
  s.pump f.tile f.queue

/-- A fragment that fails reruns from its first page, keeping its commit mask; the fifth failure ends it (R286). -/
def State.rerun (s : State) (f : Frag) : State :=
  if 4 ≤ f.reruns then s.putFrag { f with status := stRerunLimit, next := f.pages.length }
  else
    let s := s.freeEngine f
    let clear (r : RowAcc) : RowAcc := RowAcc.mk 0xFF800000 0xFF800000 0 (r.o.map (fun _ => 0))
    s.rejoin { f with st := .waiting, next := 0, reruns := f.reruns + 1, tokens := 0, read := 0, rows := f.rows.map clear }

/-! ### Events -/

/-- PREEMPT_STOP (R283): the victim's state stays in its ways while it is copied to its context's save area. -/
def State.preemptStop (s : State) (t e : Nat) : State :=
  match (AL.get (t, e) s.eng.busy).bind s.frag with
  | none => s
  | some f =>
    if f.st ≠ .stopping e then s
    else if !s.canSave f then s.putFrag { f with st := .killing e }
    else
      let s := (s.freeEngine f).bump (enginePage t e) 0x120 1
      let s := s.setEng { s.eng with ways := AL.put (t, e) f.id s.eng.ways, save := AL.put f.ctx f.id s.eng.save }
      s.rejoin { f with st := .saving e }

/-- CONTEXT_SAVE_DONE (R283): the copy ends and the BE ways are free. -/
def State.saveDone (s : State) (ctx : Nat) : State :=
  match (AL.get ctx s.eng.save).bind s.frag with
  | none => s
  | some f => match f.st with
    | .saving _ => ((s.putFrag { f with st := .saved }).bump (pgTsch f.tile) 0x158 1).pump f.tile f.queue
    | _ => s

/-- CONTEXT_RESTORE_DONE (R283): the fragment runs again, and the save area is empty. -/
def State.restoreDone (s : State) (i : Nat) : State :=
  match s.frag i with
  | none => s
  | some f => match f.st with
    | .restoring e => (s.setEng { s.eng with save := AL.del f.ctx s.eng.save }).putFrag (s.onPage { f with st := .running e })
    | _ => s

/-- FRAGMENT_KILL (R285). -/
def State.killFrag (s : State) (i : Nat) : State :=
  match s.frag i with
  | none => s
  | some f => match f.st with
    | .killing e => ((if 2 ≤ e then s.bump (enginePage f.tile e) 0x120 1 else s).rerun f).pump f.tile f.queue
    | _ => s

/-- Takes a fragment out of the scheduler: of its window, its engine and its save area. -/
def State.removeFrag (s : State) (f : Frag) : State :=
  let s := s.freeEngine f
  let r := s.queue f.tile f.queue
  let s := s.putQueue f.tile f.queue { r with window := r.window.filter (· != f.id), drain := (r.drain.map (fun w => w.filter (· != f.id))).filter (fun w => !w.isEmpty) }
  (s.setEng { s.eng with
    frags := AL.del f.id s.eng.frags
    save := s.eng.save.filter (fun p => p.2 != f.id)
    ways := s.eng.ways.filter (fun p => p.2 != f.id) }).pump f.tile f.queue

end Sys2Proof.Machine
end

