-- ==== Sys2Proof/Machine/Merge.lean ====
section
/-!
DEFINITION. Partial-result records (R171), merge contexts (R177 to R182, R504) and the sending of a command's partial (R155,
R183, R189, R502).
-/

namespace Sys2Proof

/-! ### Records (Table 7-1) -/

/-- Length of a record's message. -/
def PartialRec.lenOf (r : PartialRec) : Nat :=
  128 + (if r.sum then 0 else 8 * r.rows) + r.rows * r.dv * (if r.obf16 then 2 else 4)

/-- The record as bytes. -/
def PartialRec.bytes (r : PartialRec) : List Byte :=
  leBytes 4 r.tag.toNat ++ leBytes 1 r.status ++
  leBytes 1 (b2n r.final * 128 + b2n r.obf16 * 64 + b2n r.sum * 32 + b2n r.degraded * 16 + b2n r.localMissing * 8) ++
  leBytes 1 (r.level * 4 + r.targetLevel) ++ leBytes 1 0 ++ leBytes 4 r.epoch.toNat ++ leBytes 2 r.contrib ++ leBytes 2 r.expect ++
  leBytes 2 r.rows ++ leBytes 2 r.dv ++ leBytes 4 r.deadlineUs ++ leBytes 8 r.tokens ++ leBytes 8 r.pages ++ leBytes 2 r.domain ++
  leBytes 2 r.merged ++ leBytes 4 0 ++ leBytes 16 r.originAddr ++ leBytes 2 r.originPort ++ leBytes 30 0 ++ leBytes 32 r.missing.toNat ++
  (if r.sum then [] else r.body.flatMap (fun x => leBytes 4 x.m.toNat ++ leBytes 4 x.l.toNat)) ++
  r.body.flatMap (fun x => x.o.flatMap (fun w => if r.obf16 then leBytes 2 (bf16OfF32 w) else leBytes 4 w.toNat))

/-- The key under which an aggregator files a contributor's record (R178). -/
def PartialRec.key (r : PartialRec) : MergeKey := ⟨r.originAddr, r.originPort, r.domain, r.tag, r.epoch, r.targetLevel⟩

/-- The form of a record that R181 refuses before any context is looked at. -/
def PartialRec.formBad (r : PartialRec) : Bool :=
  r.expect == 0 || decide (256 < r.expect) || r.rows == 0 || decide (128 < r.rows) || decide (r.expect ≤ r.contrib) || r.msgLen != r.lenOf

/-- A record as one input of a merge. -/
def PartialRec.acc (r : PartialRec) : PartAcc := ⟨r.body, r.sum, r.tokens, r.pages, r.status⟩

/-! ### Contexts -/

/-- Contexts that a query takes (R179). DESIGN CHOICE: Log 12. -/
def contextsFor (rows dv : Nat) : Nat := ceilDiv rows (30720 / max 1 dv)

/-- Contributors merged. -/
def MergeCtx.mergedSet (c : MergeCtx) : List Nat := c.arrived.filter (fun n => !(c.failed.any (fun f => f.1 == n)))
def MergeCtx.localMerged (c : MergeCtx) : Bool := c.localDone && decide (c.localStatus < 0x10)
def MergeCtx.missing (c : MergeCtx) : BitVec 256 :=
  match c.expect with
  | none => 0
  | some e => (List.range e).foldl (fun b n => if c.mergedSet.contains n then b else b ||| (1#256 <<< n)) 0

/-- The status of a merged partial (Table 7-2, R504), in the order of its rows. -/
def MergeCtx.outStatus (c : MergeCtx) : Nat :=
  if c.cause ≠ stOk then c.cause
  else if c.mergedSet.isEmpty && !c.localMerged then
    (match (sortBy (fun (a b : Nat × Nat) => leNat a.1 b.1) c.failed).head? with
     | some f => f.2
     | none => if c.localDone then c.localStatus else stTimeout)
  else if !c.localMerged || (match c.expect with | none => true | some e => c.mergedSet.length != e) then stPartial
  else if c.degraded then stPartial
  else stOk

/-- Whether an anchored context has all its inputs (Table 7-4). -/
def MergeCtx.isComplete (c : MergeCtx) : Bool :=
  c.st == .anchored && c.localDone && c.expect == some c.arrived.length

end Sys2Proof

namespace Sys2Proof.Machine

/-- The fields of a forward or backward attention command. -/
def attnOf : Op → Option AttnD
  | .attnFwd d => some d
  | .attnBwd d => some d
  | _ => none

def State.mctx (s : State) (k : MergeKey) : Option MergeCtx := AL.get k s.eng.merge
def State.putMctx (s : State) (k : MergeKey) (c : MergeCtx) : State := s.setEng { s.eng with merge := AL.put k c s.eng.merge }
def State.job (s : State) (i : Nat) : Option AttnJob := AL.get i s.eng.jobs
def State.putJob (s : State) (j : AttnJob) : State := s.setEng { s.eng with jobs := AL.put j.cmd j s.eng.jobs }

/-- The MRGU page that governs a context (R179, R190). -/
def ctxPage (c : MergeCtx) : Nat := pgMrgu (c.numbers.foldl min 16383 % 24)
/-- The MRGU page that counts what no context counts (R190). -/
def State.firstMrgu (s : State) : Nat := pgMrgu (((List.range 24).find? (fun t => !s.tileFenced t)).getD 0)
def State.holdUs (s : State) (pg : Nat) : Nat := max 1 (s.fld pg 0x100 0 24)
def State.lingerUs (s : State) (pg : Nat) : Nat := max 1 (s.fld pg 0x104 0 16)

/-- The lowest `n` free context numbers whose home tiles are not fenced and whose merge units take work (R29, R179, Log 12). -/
def State.freeContexts (s : State) (n : Nat) : Option (List Nat) :=
  let used := s.eng.merge.flatMap (fun (p : MergeKey × MergeCtx) => p.2.numbers)
  let l := ((List.range (min 16384 (24 * (used.length + n)))).filter (fun i => !used.contains i && !s.tileFenced (i % 24) &&
    s.unitAdmits (pgMrgu (i % 24)))).take n
  if l.length = n then some l else none

/-- The time until the next context reaches its deadline, as the hint of R183. DESIGN CHOICE: Log 7. -/
def State.busyHint (s : State) : Nat :=
  let l := s.eng.merge.filterMap (fun (p : MergeKey × MergeCtx) => if p.2.st = .closed then none else some (p.2.deadline - s.nrt))
  max 10 (min (s.holdUs s.firstMrgu) (l.foldl min (l.headD 0) / 100))

/-- A new context. -/
def newMctx (st : CtxSt) (nums : List Nat) (rows dv : Nat) (sum : Bool) (now deadline : Nat) : MergeCtx :=
  ⟨st, nums, none, none, rows, dv, sum, now, deadline, [], [], 0, false, PartAcc.blank rows dv sum, false, stOk, stOk, 0, 0⟩

/-- A partial refused under R181. -/
def State.mismatch (s : State) (pg unit : Nat) (r : PartialRec) : State :=
  ((s.bump pg 0x128 1).setIrq pg 1).logErr pg 2 unit (r.contrib * 65536 + r.expect)

/-- Takes a contributor's partial into a context that accepts it (Table 7-4, Table 7-2). -/
def mergeInto (c : MergeCtx) (r : PartialRec) : MergeCtx :=
  let ok := decide (r.status < 0x10)
  { c with
    expect := some r.expect
    deadline := if c.expect.isNone then min c.deadline (c.openAt + usTicks r.deadlineUs) else c.deadline
    arrived := c.arrived ++ [r.contrib]
    failed := if ok then c.failed else c.failed ++ [(r.contrib, r.status)]
    merged := c.merged + b2n ok
    degraded := c.degraded || (ok && (r.degraded || r.status == stPartial))
    acc := if ok then { c.acc.merge r.acc with status := stOk } else c.acc }

/-- What a home MRGU decides on a partial (R180, R181, R183, R502): the status of the PARTIAL_STATUS answer, its COUNT0, and
the context that this partial completes. -/
structure Taken where
  s : State
  status : Nat
  hint : Nat
  full : Option MergeKey
  deriving DecidableEq, Repr

def State.takePartial (s : State) (r : PartialRec) : Taken :=
  let k := r.key
  match s.mctx k with
  | none =>
    if r.formBad then ⟨s.mismatch s.firstMrgu 0xFFFF r, stBadDescriptor, 0, none⟩
    else match s.freeContexts (contextsFor r.rows r.dv) with
      | none => ⟨(s.bump s.firstMrgu 0x124 1).setIrq s.firstMrgu 4, stBusy, s.busyHint, none⟩
      | some ns =>
        let c := newMctx .opened ns r.rows r.dv r.sum s.nrt 0
        let c := { c with deadline := s.nrt + usTicks (s.holdUs (ctxPage c)) }
        ⟨s.putMctx k (mergeInto c r), stOk, 0, none⟩
  | some c =>
    let bad := r.formBad || (match c.expect with | some e => e != r.expect | none => false) || c.arrived.contains r.contrib ||
      r.rows != c.rows || r.dv != c.dv || r.sum != c.sum
    if r.formBad then ⟨s.mismatch (ctxPage c) (c.numbers.foldl min 16383) r, stBadDescriptor, 0, none⟩
    else if c.st = .closed then ⟨s.bump (ctxPage c) 0x120 1, stTimeout, 0, none⟩
    else if bad then ⟨s.mismatch (ctxPage c) (c.numbers.foldl min 16383) r, stBadDescriptor, 0, none⟩
    else
      let c := mergeInto c r
      ⟨s.putMctx k c, stOk, 0, if c.isComplete then some k else none⟩

/-! ### Anchors (R177 to R180) -/

/-- The key that an anchor command names. -/
def anchorKey (h : Hdr) (d : AttnD) (addr port : Nat) : MergeKey := ⟨addr, port, h.domain, h.tag, h.epoch, d.level⟩

/-- Why an anchor is refused at admission, if it is (Table 7-4, R183). -/
def State.anchorRefusal (s : State) (k : MergeKey) (rows dv : Nat) (sum : Bool) : Option Nat :=
  match s.mctx k with
  | none => if (s.freeContexts (contextsFor rows dv)).isNone then some stBusy else none
  | some c => if c.st = .opened ∧ c.rows = rows ∧ c.dv = dv ∧ c.sum = sum then none else some stBadDescriptor

/-- An anchor that is refused after all leaves its context as it was: with no contributor in it, the context is free again. -/
def State.detachAnchor (s : State) (j : AttnJob) : State :=
  match j.anchored with
  | none => s
  | some k => match s.mctx k with
    | none => s
    | some c =>
      if c.st ≠ .anchored then s
      else if c.expect.isNone then s.setEng { s.eng with merge := AL.del k s.eng.merge }
      else s.putMctx k { c with st := .opened, anchor := none }

/-- Attaches an anchor to its context, or opens one for it. -/
def State.attachAnchor (s : State) (k : MergeKey) (cmd rows dv : Nat) (sum : Bool) : State :=
  match s.mctx k with
  | some c => s.putMctx k { c with st := .anchored, anchor := some cmd }
  | none => match s.freeContexts (contextsFor rows dv) with
    | none => s
    | some ns =>
      let c := newMctx .anchored ns rows dv sum s.nrt 0
      s.putMctx k { c with anchor := some cmd, deadline := s.nrt + usTicks (s.holdUs (ctxPage c)) }

/-! ### A command's partial (R155, R171, R188) -/

/-- The record of a command's result, its own or its context's. -/
def recordOf (c : Cmd) (d : AttnD) (j : AttnJob) (a : PartAcc) (status merged : Nat) (degraded localMissing : Bool)
    (missing : BitVec 256) : PartialRec :=
  let fin := !j.bwd && c.hdr.flag 0 && d.targetLevel == 3 && decide (status < 0x10)
  let rows := if fin then ((a.rows.zip j.rowsIn).map (fun (x : RowPart × RowIn) => finaliseRow x.2.sink x.1)) else a.rows
  let bf := d.ofmt == 1
  let r : PartialRec :=
    ⟨c.hdr.tag, status, fin, bf, j.bwd, degraded, localMissing, d.level, d.targetLevel, c.hdr.epoch, d.contrib, d.expect, rows.length, j.dv,
     d.deadlineUs, a.tokens, a.pages, c.hdr.domain, merged, j.originAddr, j.originPort, missing,
     rows.map (fun x => { x with o := x.o.map (fun w => if bf then f32OfBF16 (bf16Written w) else f32Written w) }), 0⟩
  { r with msgLen := r.lenOf }

/-- The completion of an attention command (R64, R155, R195). -/
def attnResult (j : AttnJob) (status : Nat) : Result :=
  { status := status, c0 := j.acc.tokens + j.failC0, c1 := if j.bwd ∧ 0x10 ≤ status then j.committed else j.acc.pages, covE := j.covE, covG := j.covG,
    clip := j.clip }

/-- Whether fragments of a command run, wait or are still to be released. -/
def State.fragsLeft (s : State) (j : AttnJob) : Bool := !j.todo.isEmpty || s.eng.frags.any (fun (p : Nat × Frag) => p.2.cmd == j.cmd)

/-- A command is done with its job: fragments that are left run to their end without it (R176). -/
def State.dropJob (s : State) (i : Nat) : State :=
  match s.job i with
  | none => s
  | some j => if s.fragsLeft j then s.putJob { j with doneEarly := true, redo := [], record := none } else s.setEng { s.eng with jobs := AL.del i s.eng.jobs }

/-- Ends an attention command; ST_STALE_EPOCH carries the node's epoch (R45). DEDUCED: Log 36. -/
def State.endAttn (s : State) (c : Cmd) (j : AttnJob) (status : Nat) : State :=
  let r := attnResult j status
  (s.dropJob c.id).finish c (if status = stStaleEpoch then { r with c0 := s.lease.cur.toNat, c1 := 0 } else r)

/-- The target's decision on the partial of a command (R183, R502). -/
def State.decided (s : State) (cmd status hintUs : Nat) : State :=
  match s.cmd cmd, s.job cmd with
  | some c, some j => match j.record with
    | none => s
    | some r =>
      if status = stOk then s.endAttn c j r.status
      else if status = stBusy then s.putJob { j with resendAt := s.nrt + usTicks hintUs }
      else s.endAttn c j status
  | _, _ => s

/-- PARTIAL message on the response lane (Table 13-8). -/
def partialMsg (r : PartialRec) : List Byte := respHeader 0 1 r.lenOf false ++ r.bytes

/-- Sends a command's partial to another node; a connection that is gone ends the command (R502). DEDUCED: Log 36. -/
def State.sendPartial (s : State) (c : Cmd) (d : AttnD) (j : AttnJob) (r : PartialRec) : State :=
  match s.connOf d.mergeConn with
  | none => s.endAttn c j stTimeout
  | some k =>
    let id := AL.getD Lane.response 0 k.nextMsg
    let j := { j with record := some r, resendAt := 0, sentOn := k.index, sentMsg := id, firstSend := if j.record.isNone then s.nrt else j.firstSend }
    ((s.putJob j).setCmd { c with wait := .sent }).sendMsg k .response r.epoch (partialMsg r)

/-- Sends a partial to its merge target: the requester, this node, or another. Answers the context of this node that it
completes. -/
def State.emitPartial (s : State) (c : Cmd) (d : AttnD) (j : AttnJob) (r : PartialRec) : State × Option MergeKey :=
  if d.mergeConn = 0xFFFFFF then
    (((s.dropJob c.id).finish c { attnResult j r.status with addr := d.partialAddr, out := r.bytes }), none)
  else if d.mergeConn = 0xFFFFFE then
    let s := (s.putJob { j with record := some r, resendAt := 0, firstSend := if j.record.isNone then s.nrt else j.firstSend }).setCmd { c with wait := .sent }
    let t := s.takePartial r
    (t.s.decided c.id t.status t.hint, t.full)
  else (s.sendPartial c d j r, none)

/-- Closes a context and forwards its result if it is anchored (R182, Table 7-4); a result for this node can complete a
context one level up. The argument bounds the levels. -/
def State.forwardCtx : Nat → State → MergeKey → State
  | 0, s, _ => s
  | n + 1, s, k => match s.mctx k with
    | none => s
    | some c =>
      let pg := ctxPage c
      let c' := { c with st := .closed, closedAt := s.nrt, linger := s.lingerUs pg }
      let s := s.putMctx k c'
      match c.anchor.bind s.cmd, c.anchor.bind s.job with
      | some a, some j => match attnOf a.op with
        | none => s
        | some d =>
          let status := c.outStatus
          let s := s.bump pg (if status = stOk then 0x114 else 0x118) 1
          let acc := c.acc
          let j := { j with covE := c.expect.getD 0, covG := c.mergedSet.length }
          let r := recordOf a d j acc status c.mergedSet.length c.degraded (!c.localMerged) c.missing
          let out := s.emitPartial a d j r
          match out.2 with
          | some k' => State.forwardCtx n out.1 k'
          | none => out.1
      | _, _ => s

/-- Levels of a tree: no chain of merges is longer than three (R185). -/
def levels : Nat := 4

/-- The local part of an anchored context is complete. -/
def State.localPart (s : State) (k : MergeKey) (a : PartAcc) : State :=
  match s.mctx k with
  | none => s
  | some c =>
    if c.st ≠ .anchored then s
    else
      let c := { c with localDone := true, localStatus := a.status, acc := if a.status < 0x10 then { c.acc.merge a with status := stOk } else c.acc }
      let s := s.putMctx k c
      if c.isComplete then s.forwardCtx levels k else s

/-- The node partial of a command is complete (R176, R164): it becomes the local part of the command's context, or leaves. -/
def State.attnDone (s : State) (cmd : Nat) : State :=
  match s.cmd cmd, s.job cmd with
  | some c, some j => match attnOf c.op with
    | none => s
    | some d =>
      match j.anchored with
      | some k => ((s.setCmd { c with wait := .anchor }).localPart k j.acc)
      | none =>
        let ok := b2n (decide (j.acc.status < 0x10))
        let j := if d.targetLevel = 3 then { j with covE := d.expect, covG := ok } else j
        let r := recordOf c d j j.acc j.acc.status ok false false 0
        let out := s.emitPartial c d j r
        match out.2 with
        | some k => out.1.forwardCtx levels k
        | none => out.1
  | _, _ => s

/-- A command ends with a status that its node partial carries (R155). -/
def State.attnEnd (s : State) (cmd status : Nat) : State :=
  match s.job cmd with
  | none => s
  | some j => (s.putJob { j with acc := { j.acc with status := status } }).attnDone cmd

/-- Whether nothing of a command is left but its node partial. -/
def State.attnIdle (s : State) (j : AttnJob) : Bool :=
  !s.fragsLeft j && j.redo.isEmpty && j.tiles.all (fun (p : Nat × PartAcc × Bool) => p.2.2)

/-- The node partial leaves when every tile has released its part (R164, R176). -/
def State.attnSettle (s : State) (cmd : Nat) : State :=
  match s.job cmd with
  | none => s
  | some j => if s.attnIdle j then s.attnDone cmd else s

/-- A failure of a command in its walk (a walk outcome, a failed fill): its partial carries the first failure's status (R155, R176), once
the fragments that run have come to their end. -/
def State.attnFail (s : State) (cmd status : Nat) : State :=
  match s.cmd cmd, s.job cmd with
  | some c, some j =>
    ((s.setCmd { c with wait := .frags }).putJob { j with
      redo := [], acc := if j.acc.status < 0x10 then { j.acc with status := status } else j.acc }).attnSettle cmd
  | _, _ => s

/-! ### Events -/

/-- Sends the PARTIAL_STATUS answer (R502, Table 13-8). -/
def State.answerPartial (s : State) (conn msgId : Nat) (r : PartialRec) (status hintUs : Nat) : State :=
  if s.nodeFenced then s
  else match s.conn conn with
    | none => s
    | some k => s.sendMsg k .response r.epoch
        (respHeader msgId 2 32 true ++ recordBytes ⟨r.tag, status, 0, 0, hintUs, 0, 0, 0, 0⟩ false s.nrt)

/-- PARTIAL_RECEIVE. -/
def State.partialIn (s : State) (conn msgId : Nat) (r : PartialRec) : State :=
  let t := s.takePartial r
  let s := t.s.answerPartial conn msgId r t.status t.hint
  match t.full with
  | some k => s.forwardCtx levels k
  | none => s

/-- MERGE_DEADLINE (Table 7-4). -/
def State.mergeDeadline (s : State) (k : MergeKey) : State :=
  match s.mctx k with
  | none => s
  | some c =>
    if s.nrt < c.deadline then s
    else match c.st with
      | .opened => ((s.setEng { s.eng with merge := AL.del k s.eng.merge }).bump (ctxPage c) 0x11C 1).setIrq (ctxPage c) 2
      | .anchored => s.forwardCtx levels k
      | .closed => s

/-- LINGER_EXPIRE (Table 7-4). -/
def State.lingerExpire (s : State) (k : MergeKey) : State :=
  match s.mctx k with
  | none => s
  | some c => if c.st = .closed ∧ c.closedAt + usTicks c.linger ≤ s.nrt then s.setEng { s.eng with merge := AL.del k s.eng.merge } else s

/-- An ABORT or an uncorrectable error closes a context (Table 7-4): an OPEN one is freed after its linger with nothing
forwarded, an anchored one forwards the status. -/
def State.killCtx (s : State) (k : MergeKey) (status : Nat) : State :=
  match s.mctx k with
  | none => s
  | some c =>
    if c.st = .closed then s
    else (s.putMctx k { c with cause := status }).forwardCtx levels k

/-- PARTIAL_STATUS_RECEIVE (R502). -/
def State.partialStatus (s : State) (conn msgId status hintUs : Nat) : State :=
  match s.eng.jobs.find? (fun (p : Nat × AttnJob) => p.2.record.isSome && p.2.sentOn == conn && p.2.sentMsg == msgId && p.2.resendAt == 0) with
  | none => s
  | some p => s.decided p.1 status hintUs

/-- PARTIAL_RESEND (R183, R502): after the hint the partial goes again; after DEADLINE_US the command ends. -/
def State.partialAgain (s : State) (cmd : Nat) : State :=
  match s.cmd cmd, s.job cmd with
  | some c, some j => match attnOf c.op, j.record with
    | some d, some r =>
      if j.firstSend + usTicks d.deadlineUs ≤ s.nrt then s.endAttn c j stTimeout
      else if j.resendAt = 0 ∨ s.nrt < j.resendAt then s
      else
        let out := s.emitPartial c d j r
        (match out.2 with
         | some k => out.1.forwardCtx levels k
         | none => out.1)
    | _, _ => s
  | _, _ => s

end Sys2Proof.Machine
end

