-- ==== Sys2Proof/Machine/AttnCmd.lean ====
section
/-!
DEFINITION. ATTN_FWD and ATTN_BWD up to the release of their fragments: payloads (Tables 6-4, 8-2), refusals (Tables 6-5, 8-3),
latent absorption (R157), the walk and its fragments (R154, R161, R162, R299), and gradient pages (R198 to R200).
-/

namespace Sys2Proof

/-! ### Payloads -/

/-- Rows of a command (R153). -/
def AttnD.rows (d : AttnD) : Nat := d.kvCount * d.groupSize * d.positions
def AttnD.isTree (d : AttnD) : Bool := d.mask == 5
def AttnD.treeBytes (d : AttnD) : Nat := if d.isTree then 520 else 0
def qSize (fmt : Nat) : Nat := if fmt = 2 then 4 else 2

/-- Elements of a query row as sent: the head dimension, or DN with the positional part (R153, R157). -/
def queryWidth (sh : Shape) (dn : Nat) : Nat := if sh.latent then dn + sh.posw * 32 else sh.width * 32

/-- QUERY_BYTES (Table 6-4), and INPUT_BYTES (Table 8-2). -/
def AttnD.fwdBytes (d : AttnD) (qw : Nat) : Nat := 16 * d.rows + d.treeBytes + d.rows * qw * qSize d.qfmt
def AttnD.bwdBytes (d : AttnD) (w : Nat) (fromO : Bool) : Nat :=
  16 * d.rows + d.treeBytes + (if fromO then d.rows * w * qSize d.qfmt else 4 * d.rows) + 2 * (d.rows * w * qSize d.qfmt)

/-- 32-bit and 64-bit words of a payload. -/
def wordAt (b : List Byte) (o : Nat) : Word := BitVec.ofNat 32 (leVal ((b.drop o).take 4))
def dwordAt (b : List Byte) (o : Nat) : DWord := BitVec.ofNat 64 (leVal ((b.drop o).take 8))

/-- ANC and NODE of a TREE payload. -/
def AttnD.tree (d : AttnD) (b : List Byte) : List DWord × List Nat :=
  if d.isTree then
    ((List.range 64).map (fun i => dwordAt b (16 * d.rows + 8 * i)), (List.range 8).map (fun i => ((b.getD (16 * d.rows + 512 + i) 0).toNat)))
  else ([], [])

/-- KV head and position of row `r` (R150, R153). -/
def AttnD.kvOf (d : AttnD) (r : Nat) : Nat := d.kvFirst + r / max 1 (d.groupSize * d.positions)
def AttnD.posOf (d : AttnD) (node : List Nat) (r : Nat) : Nat :=
  let p := r % max 1 d.positions
  if d.isTree then d.maskA + node.getD p 0 else d.qpos + p
/-- Query head of row `r` within its KV head. -/
def AttnD.qheadOf (d : AttnD) (r : Nat) : Nat := r / max 1 d.positions % max 1 d.groupSize

/-- A 16-bit operand: an FP32 element is rounded to BF16 at admission (R146). -/
def operand16 (fmt : Nat) (x : List Word) : List Word := if fmt = 2 then x.map viaBF16 else x

/-- Elements of a payload as FP32 (R50: 0 BF16, 1 FP16, 2 FP32). -/
def elems (fmt : Nat) (b : List Byte) (o n : Nat) : List Word :=
  (chunks (qSize fmt) ((b.drop o).take (n * qSize fmt))).map (fun x =>
    match fmt with
    | 0 => f32OfBF16 (leVal x)
    | 1 => f32OfFP16 (leVal x)
    | _ => BitVec.ofNat 32 (leVal x))

/-- An FP32 value, finite and above 0. -/
def positive (w : Word) : Bool := f32Finite w && f32Lt 0 w

/-- Element (i, j) of W_UK of (layer, head) (R158). -/
def Proj.elem (p : Proj) (layer head i j : Nat) : Word :=
  f32OfBF16 (leVal ((p.data.drop (2 * ((((layer * p.heads + head) * p.dn) + i) * p.lw + j))).take 2))

/-- Latent absorption of a row (R157): q_nope with W_UK in FP32, in ascending order, rounded to BF16. -/
def Proj.absorb (p : Proj) (layer head : Nat) (q : List Word) : List Word :=
  (List.range p.lw).map (fun j => viaBF16 (q.zipIdx.foldl (fun a (x, i) => f32Add a (f32Mul .nearest x (p.elem layer head i j))) 0))

/-- The rows of an ATTN_FWD. -/
def AttnD.fwdRows (d : AttnD) (sh : Shape) (proj : Option Proj) (b : List Byte) : List RowIn :=
  let node := (d.tree b).2
  let qw := queryWidth sh (proj.elim 0 (·.dn))
  (List.range d.rows).map (fun r =>
    let q := operand16 d.qfmt (elems d.qfmt b (16 * d.rows + d.treeBytes + r * qw * qSize d.qfmt) qw)
    let q := match proj with
      | some p => if sh.latent then p.absorb d.layer (d.qheadFirst + d.qheadOf r) (q.take p.dn) ++ q.drop p.dn else q
      | none => q
    ⟨d.kvOf r, d.posOf node r, wordAt b (16 * r), wordAt b (16 * r + 4), wordAt b (16 * r + 8), f32NegInf, 0, 0, q, [], [], []⟩)

/-- The rows of an ATTN_BWD; D is summed in FP32 in ascending order when it is given through o (R196). -/
def AttnD.bwdRows (d : AttnD) (w : Nat) (fromO : Bool) (b : List Byte) : List RowIn :=
  let node := (d.tree b).2
  let es := w * qSize d.qfmt
  let o1 := 16 * d.rows + d.treeBytes
  let oq := o1 + (if fromO then d.rows * es else 4 * d.rows)
  let od := oq + d.rows * es
  (List.range d.rows).map (fun r =>
    let q := elems d.qfmt b (oq + r * es) w
    let dO := elems d.qfmt b (od + r * es) w
    let dsum := if fromO then
        ((dO.zip (elems d.qfmt b (o1 + r * es) w)).foldl (fun a (x, y) => f32Add a (f32Mul .nearest x y)) 0)
      else wordAt b (o1 + 4 * r)
    ⟨d.kvOf r, d.posOf node r, wordAt b (16 * r), wordAt b (16 * r + 4), f32NegInf, wordAt b (16 * r + 8), wordAt b (16 * r + 12), dsum,
     operand16 d.qfmt q, operand16 d.qfmt dO, mxForm q, mxForm dO⟩)

/-- What Table 6-4 and R50 ask of a forward payload. -/
def AttnD.fwdPayloadOk (d : AttnD) (b : List Byte) : Bool :=
  (List.range d.rows).all (fun r => positive (wordAt b (16 * r)) && f32Finite (wordAt b (16 * r + 4)) &&
    (f32Finite (wordAt b (16 * r + 8)) || wordAt b (16 * r + 8) == f32NegInf) && wordAt b (16 * r + 12) == 0) &&
  (d.tree b).2.zipIdx.all (fun (n, i) => if i < d.positions then decide (n < d.maskB) else n == 0) &&
  (elems d.qfmt b (16 * d.rows + d.treeBytes) ((b.length - 16 * d.rows - d.treeBytes) / qSize d.qfmt)).all f32Finite

/-- What Table 8-2, R50 and R193 ask of a backward payload. -/
def AttnD.bwdPayloadOk (d : AttnD) (fromO : Bool) (b : List Byte) : Bool :=
  (List.range d.rows).all (fun r =>
    let m := wordAt b (16 * r + 8)
    let l := wordAt b (16 * r + 12)
    positive (wordAt b (16 * r)) && f32Finite (wordAt b (16 * r + 4)) &&
    (if m = f32NegInf then l == 0 else f32Finite m && positive l)) &&
  (d.tree b).2.zipIdx.all (fun (n, i) => if i < d.positions then decide (n < d.maskB) else n == 0) &&
  (let o1 := 16 * d.rows + d.treeBytes
   if fromO then (elems d.qfmt b o1 ((b.length - o1) / qSize d.qfmt)).all f32Finite
   else (List.range d.rows).all (fun r => f32Finite (wordAt b (o1 + 4 * r))) &&
     (elems d.qfmt b (o1 + 4 * d.rows) ((b.length - o1 - 4 * d.rows) / qSize d.qfmt)).all f32Finite)

/-- Mask arguments (Table 6-2). -/
def AttnD.maskOk (d : AttnD) : Bool :=
  decide (d.mask ≤ 5) && (if d.mask = 2 ∨ d.mask = 3 then decide (1 ≤ d.maskA ∧ d.maskA ≤ 2 ^ 31) else true) &&
  (if d.mask = 5 then decide (1 ≤ d.maskB ∧ d.maskB ≤ 64) else true)

/-- SOFTCAP is 0, or finite and above 0. -/
def AttnD.numbersOk (d : AttnD) : Bool := positive d.scale && (d.softcap == 0 || positive d.softcap)

/-- Whether the command takes PARTIAL_ADDR and the origin as its source must give them (Table 6-3). -/
def AttnD.placesOk (d : AttnD) (ring fallback : Bool) : Bool :=
  if ring then (d.partialAddr != 0) == (d.mergeConn == 0xFFFFFF || fallback)
  else d.partialAddr == 0 && d.originAddr == 0 && d.originPort == 0

end Sys2Proof

namespace Sys2Proof.Machine

def isRing : Source → Bool | .ring _ => true | .conn _ _ => false

/-- An IPv6 address, an IPv4 one in its mapped form (Table 7-1). DEDUCED: Log 42. -/
def mappedAddr (a : Nat) : Nat := if a < 2 ^ 32 then 0xFFFF * 2 ^ 32 + a else a

/-- The origin of a query (R178): the handshake address of the connection, or the descriptor's. -/
def State.originOf (s : State) (src : Source) (d : AttnD) : Nat × Nat :=
  match src with
  | .ring _ => (d.originAddr, d.originPort)
  | .conn k _ => match s.conn k with
    | some c => (mappedAddr ((c.paths.head?).elim 0 (·.peerAddr)), (c.paths.head?).elim 0 (·.udpPort))
    | none => (0, 0)

/-! ### Refusals -/

/-- Width of o per row: the head dimension, or LW (Table 7-1). -/
def attnDv (sh : Shape) : Nat := sh.width * 32

/-- Whether a command anchors and too few merge contexts are free (R43 step 5, R183). -/
def State.anchorShort (s : State) (src : Source) (h : Hdr) (op : Op) : Bool :=
  match attnOf op with
  | none => false
  | some d => match s.seqRec h.domain d.seq with
    | none => false
    | some r =>
      let o := s.originOf src d
      decide (1 ≤ d.level ∧ d.rows ≤ 128) && (s.mctx (anchorKey h d o.1 o.2)).isNone &&
        (s.freeContexts (contextsFor d.rows (attnDv (s.shape h.domain r.shapeId)))).isNone

/-- Table 6-5 rows 1 to 3 for both commands, as far as the descriptor alone decides them. -/
def attnFieldsOk (h : Hdr) (bwd : Bool) (ring : Bool) (r : SeqRec) (d : AttnD) : Bool :=
  decide (d.layer < r.layers ∧ 1 ≤ d.kvCount ∧ d.kvFirst + d.kvCount ≤ r.kvHeads ∧ 1 ≤ d.positions ∧ d.positions ≤ 8 ∧
    1 ≤ d.groupSize ∧ d.groupSize ≤ 16 ∧ d.tokFirst < d.tokEnd ∧ d.rows ≤ 128 ∧ d.qfmt ≤ 2 ∧ d.ofmt ≤ 1 ∧ d.level ≤ 2 ∧
    1 ≤ d.targetLevel ∧ d.targetLevel ≤ 3 ∧ d.contrib < d.expect ∧ d.expect ≤ 256 ∧ d.gradHeadroom ≤ 15) &&
  d.maskOk && d.numbersOk && d.placesOk ring (!bwd && h.flag 1) &&
  (if bwd then d.proj == 0 && d.qheadFirst == 0 else
    (h.flag 2 || (d.proj == 0 && d.qheadFirst == 0)) && !(h.flag 0 && d.targetLevel == 3 && decide (1 < d.expect)))

/-- Rows 1 to 3 of Table 6-5 as far as the descriptor decides them. A latent shape whose DN is not known gives no size to compare with. -/
def State.attnFields (s : State) (h : Hdr) (src : Source) (bwd : Bool) (d : AttnD) (r : SeqRec) : Option Result :=
  let sh := s.shape h.domain r.shapeId
  let proj := AL.get (h.domain, d.proj) s.sec.projs
  let limit := if isRing src then 1048512 else 1048448
  let size := if bwd then d.bwdBytes (sh.width * 32) (h.flag 0) else d.fwdBytes (queryWidth sh (proj.elim 0 (·.dn)))
  let sizeKnown := !sh.latent || (!bwd && proj.any (·.bound))
  firstFail [
    (r.st == .parked, { status := stUnsupported }),
    (r.st == .moved, rerouteTo r.peerSlot),
    (r.st == .free || r.st == .destroying || !attnFieldsOk h bwd (isRing src) r d || decide (limit < d.bytes) ||
      (sizeKnown && d.bytes != size), badDescriptor)]

/-- Rows 4 to 7 of Table 6-5, with the exception of R194. -/
def State.attnForms (s : State) (h : Hdr) (bwd : Bool) (d : AttnD) (r : SeqRec) : Option Result :=
  let sh := s.shape h.domain r.shapeId
  let proj := AL.get (h.domain, d.proj) s.sec.projs
  firstFail [
    (bwd && sh.latent, { status := stUnsupported }),
    (!bwd && (h.flag 2 != sh.latent || (sh.latent && (match proj with
      | none => true
      | some p => p.bound && (decide (p.lw ≠ sh.width * 32 ∨ p.heads < d.qheadFirst + d.groupSize ∨ p.layers ≤ d.layer))))), badDescriptor),
    (decide (d.targetLevel ≤ d.level), badDescriptor),
    (d.isTree && h.flag 4, { status := stUnsupported }),
    (!bwd && sh.latent && proj.any (fun p => !p.bound), { status := stNotBound })]

/-- The refusals of Table 6-5, in its order, the payload with the fields of row 3 (R50, R154, R193, R194). Answers the sequence record and
the payload of a command that passes. -/
def State.attnCheck (s : State) (h : Hdr) (src : Source) (bwd : Bool) (d : AttnD) (data : List Byte) : Except Result (SeqRec × List Byte) :=
  match s.seqRec h.domain d.seq with
  | none => .error badDescriptor
  | some r => match s.attnFields h src bwd d r, s.input src h.domain d.addr d.bytes data with
    | some x, _ => .error x
    | none, .error x => .error x
    | none, .ok b =>
      if !(if bwd then d.bwdPayloadOk (h.flag 0) b else d.fwdPayloadOk b) then .error badDescriptor
      else match s.attnForms h bwd d r with
        | some x => .error x
        | none => .ok (r, b)

/-- The job of an attention command whose payload is good. -/
def State.newJob (s : State) (c : Cmd) (bwd : Bool) (d : AttnD) (r : SeqRec) (bytes : List Byte) : AttnJob :=
  let sh := s.shape c.hdr.domain r.shapeId
  let rows := if bwd then d.bwdRows (sh.width * 32) (c.hdr.flag 0) bytes else d.fwdRows sh (AL.get (c.hdr.domain, d.proj) s.sec.projs) bytes
  let t := d.tree bytes
  let o := s.originOf c.src d
  ⟨c.id, c.hdr, d, min d.tokEnd (r.nextPos.getD d.layer 0), false, [], 0, bwd, c.hdr.domain, c.hdr.context, c.hdr.epoch, attnDv sh, t.1, t.2, rows, [], [], PartAcc.blank d.rows (attnDv sh) bwd, 0, o.1, o.2,
   none, 0, 0, 0, 0, 0, 0, 0, none⟩

/-! ### The walk (R154, R161) -/

/-- Pages of a range of a layer for a run of KV heads, below the layer's NEXT_POS. -/
def rangePoints (r : SeqRec) (sh : Shape) (layer kvFirst kvCount tokFirst tokEnd : Nat) : List Point :=
  let lo := max tokFirst r.posStart
  let hi := min tokEnd (r.nextPos.getD layer 0)
  if hi ≤ lo then []
  else
    let k0 := (locate r sh.T lo).1
    let k1 := (locate r sh.T (hi - 1)).1
    let g0 := kvFirst / sh.heads
    let g1 := (kvFirst + kvCount - 1) / sh.heads
    (List.range (g1 + 1 - g0)).flatMap (fun g => (List.range (k1 + 1 - k0)).map (fun k => ⟨layer, g0 + g, k0 + k⟩))

/-- A BE partition that has no scratchpad way above the LC set of a tile (R299). -/
def State.noWays (s : State) (t part : Nat) : Bool :=
  [0, 1].all (fun e => (s.regI (pgTsch t) 0x14C part).toNat % 65536 / 2 ^ max 1 (s.fld (pgAten t e) 0x100 4 4) == 0)

/-- Queue of a walked page: its tile's AEs or its channel's NBU (R161, R299). -/
def State.queueOf (s : State) (lc : Bool) (part : Nat) (p : Pte) : Nat × Nat :=
  let t := frameTile p.loc
  if p.st = .bench ∧ (lc ∨ !s.noWays t part) then (t, 16) else (t, frameChannel p.loc % 16)

/-- Puts a page at the end of its queue's last plan, or into a new plan (R161). The plan takes the highest rerun count of its pages. -/
def addPlan (ps : List FragPlan) (t q reruns : Nat) (p : FragPage) : List FragPlan :=
  match ps.reverse.find? (fun x => x.tile == t && x.queue == q) with
  | some x =>
    if x.pages.length < 64 then
      -- the last plan of the queue is the only one that is not full
      ps.map (fun y => if y.tile = t ∧ y.queue = q ∧ y.pages.length < 64 then { y with pages := y.pages ++ [p], reruns := max y.reruns reruns } else y)
    else ps ++ [⟨t, q, [p], reruns⟩]
  | none => ps ++ [⟨t, q, [p], reruns⟩]

/-- Pins the walked pages and splits them into fragments; pages of R299 are written back first. `redo` says of pages that a fenced tile has
taken from a fragment what they carry over. -/
def State.planPages (s : State) (lc : Bool) (part : Nat) (r : SeqRec) (sh : Shape) (l : List (Point × Pte)) (redo : List Redo) :
    State × List FragPlan :=
  l.foldl (fun (acc : State × List FragPlan) x =>
    let (s, ps) := acc
    let f := x.2.loc
    let tq := s.queueOf lc part x.2
    let s := if x.2.st = .bench ∧ tq.2 ≠ 16 then ((s.frameLines f).foldl (fun s l => s.writeBack l) s) else s
    let pg := s.page f
    let old := redo.find? (fun y => y.layer == x.1.layer && y.hg == x.1.hg && y.k == x.1.k)
    let fp : FragPage := ⟨x.1.layer, x.1.hg, x.1.k, vpnOf r sh x.1.layer x.1.hg x.1.k, f, pg.fPacked, pg.gen,
      old.any (·.committed)⟩
    (s.pin f, addPlan ps tq.1 tq.2 (old.elim 0 (·.reruns)) fp)) (s, [])

/-! ### Gradient pages (R198 to R200) -/

def State.gradsOf (s : State) (ctx : Nat) : List ((Nat × Nat × Nat) × GradPage) := s.eng.grads.filter (fun p => p.1.1 == ctx)
def State.gradLines (s : State) (t : Nat) : Nat := s.kv.lines.countP (fun l => l.tile == t && l.use == .grad)

/-- One gradient page for a walked page, with its line (R199, R226). -/
def State.newGrad (s : State) (ctx part domain q vpn : Nat) (r : SeqRec) (sh : Shape) (pt : Point) (f : Nat) : Option State :=
  let t := frameTile f
  let n := s.eng.nextGrad
  if s.fld (pgBnch t) 0x108 0 14 ≤ s.gradLines t then none
  else match s.takeLine t (frameSet f) n 0 .grad part domain with
    | none => none
    | some s =>
      let w := (s.kv.lines.find? (fun (l : Line) => l.use == .grad && l.frame == n)).elim 0 (·.way)
      some (s.setEng { s.eng with
        nextGrad := n + 1
        grads := AL.put (ctx, q, vpn)
          ⟨t, frameSet f, w, n, s.shapeW domain r.shapeId, r.shapeId, pt.layer, pt.hg, pt.k, firstPosOf r sh.T pt.k, false, [], []⟩ s.eng.grads })

/-- Pages of a list of VPNs that have no gradient page in a context's region. -/
def State.gradsNeeded (s : State) (ctx q : Nat) (vs : List Nat) : List Nat := vs.filter (fun v => !AL.has (ctx, q, v) s.eng.grads)

/-- Table 8-3 as far as the region and its limit decide it (R198): a limit of 0 refuses every command that adds gradients. -/
def State.gradRefusal (s : State) (h : Hdr) (d : AttnD) (vs : List Nat) : Option Result :=
  let mine := (s.gradsOf h.context).length
  let limit := (AL.get h.context s.cmds.ctxs).elim 0 (·.gradPages)
  let all := mine + (s.gradsNeeded h.context d.seq vs).length
  firstFail [
    (mine != 0 && AL.getD h.context 0 s.eng.headroom != d.gradHeadroom, badDescriptor),
    (limit == 0 || decide (limit < all), { status := stNoCapacity, c0 := all - limit })]

/-- The reservation of R200: all gradient pages or none. A failed allocation raises NOLINE (R228). -/
def State.reserveGrads (s : State) (h : Hdr) (d : AttnD) (r : SeqRec) (sh : Shape) (l : List (Point × Pte)) : State × Option Result :=
  let vpn (p : Point) := vpnOf r sh p.layer p.hg p.k
  let need := l.filter (fun x => !AL.has (h.context, d.seq, vpn x.1) s.eng.grads)
  let part := s.partOf h.context
  let out := need.foldl (fun (acc : State × List Nat) x =>
    match acc.1.newGrad h.context part h.domain d.seq (vpn x.1) r sh x.1 x.2.loc with
    | some s => (s, acc.2)
    | none => (acc.1, acc.2 ++ [frameTile x.2.loc])) (s, [])
  if !out.2.isEmpty then (out.2.eraseDups.foldl State.noLine s, some { status := stNoCapacity, c0 := out.2.length })
  else
    let e := out.1.eng
    (out.1.setEng { e with
      headroom := if (s.gradsOf h.context).isEmpty && !need.isEmpty then AL.put h.context d.gradHeadroom e.headroom else e.headroom }, none)

/-! ### Fragments -/

/-- Fragments of a context in flight, and whether one more may be (R296). -/
def State.fragsOf (s : State) (ctx : Nat) : Nat := s.eng.frags.countP (fun (p : Nat × Frag) => p.2.ctx == ctx)
def State.fragSlot (s : State) (ctx : Nat) : Bool :=
  let m := (AL.get ctx s.cmds.ctxs).elim 0 (·.fragMax)
  decide (s.eng.frags.length < 32768) && (m == 0 || decide (s.fragsOf ctx < m))

/-- The fragment that a plan becomes. Commit bits set before stay set (R203). -/
def State.newFrag (s : State) (j : AttnJob) (p : FragPlan) : Frag :=
  { id := s.eng.nextFrag, cmd := j.cmd, ctx := j.hdr.context, part := s.partOf j.hdr.context, lc := j.hdr.lc, bwd := j.bwd, tile := p.tile,
    queue := p.queue, pages := p.pages, st := .waiting, arrived := s.nrt, tag := 0, demoted := false, ahead := false, next := 0,
    commit := (List.range p.pages.length).filter (fun i => (p.pages[i]?).any (·.committed)), reruns := p.reruns,
    rows := List.replicate j.rowsIn.length (RowAcc.blank j.dv), tokens := 0, status := stOk, seen := 0, read := 0 }

/-- Releases the planned fragments of a command for which there are slots, to schedulers that take work (R29, R161, R296). -/
def State.releaseFrags (s : State) (i : Nat) : State :=
  match s.job i with
  | none => s
  | some j =>
    let (s, rest) := j.todo.foldl (fun (acc : State × List FragPlan) p =>
      if !acc.2.isEmpty || !acc.1.fragSlot j.hdr.context || !acc.1.unitAdmits (pgTsch p.tile) then (acc.1, acc.2 ++ [p])
      else
        let s := acc.1
        ((s.setEng { s.eng with nextFrag := s.eng.nextFrag + 1 }).arrive (s.newFrag j p), acc.2)) (s, [])
    match s.job i with
    | none => s
    | some j => s.putJob { j with todo := rest }

/-- A command that goes on by itself keeps whatever it now waits for. -/
def keepWaiting (s : State) (id : Nat) : OpRes := .wait s ((s.cmd id).elim .frags (·.wait)) 0

/-! ### The walk -/

/-- The projection block of a latent ATTN_FWD, if a codeword of it, or a channel that holds it, is lost (Table 6-12).
DEDUCED: Log 65. -/
def State.projLost (s : State) (domain : Nat) (bwd : Bool) (sh : Shape) (d : AttnD) : Bool :=
  !bwd && sh.latent && (AL.get (domain, d.proj) s.sec.projs).any (fun p => p.chunks.any (fun k => s.rackLost k.1 (k.2 * 65536) 65536))

/-- ABSORB (R157, Table 6-12): captured by an AE of the tile that holds the first page; the spec does not say which. DESIGN CHOICE:
Log 65. -/
def State.absorbFails (s : State) (h : Hdr) (d : AttnD) (frame : Nat) : State :=
  (s.logErr (pgAten (frameTile frame) (Config.pick s.fresh % 2)) 3 h.context d.proj).nextFresh

/-- Whether a GRAD_DRAIN of the context was admitted before a command and has not ended (R206). -/
def State.drainAhead (s : State) (h : Hdr) (id : Nat) : Bool :=
  s.cmds.list.any (fun k => match k.op with | .gradDrain _ => k.hdr.context == h.context && decide (k.id < id) | _ => false)

/-- The planned fragments join the job, whose tiles each owe a partial, and go to their tiles as far as there are slots. -/
def State.dispatchPlans (s : State) (j : AttnJob) (plans : List FragPlan) : OpRes :=
  let tiles := (plans.map (·.tile)).eraseDups.foldl (fun m t =>
    AL.put t ((AL.getD t (PartAcc.blank j.rowsIn.length j.dv j.bwd, true) m).1, false) m) j.tiles
  let j := { j with todo := j.todo ++ plans, redo := [], tiles := tiles }
  let s := s.putJob j
  if s.attnIdle j then keepWaiting (s.attnDone j.cmd) j.cmd else .wait (s.releaseFrags j.cmd) .frags 0

/-- The walk of an attention command and all that follows it up to the release of its fragments (R154, R157, R161, R200, R206); after a
tile's fence, the walk of the pages that its fragments lost there. A refusal of Table 8-3 has no effect. -/
def State.attnWalk (s : State) (j : AttnJob) : OpRes :=
  let dom := j.hdr.domain
  let d := j.d
  let part := s.partOf j.hdr.context
  let adds := j.bwd && !j.hdr.flag 2 && j.redo.isEmpty
  let fail (s : State) (x : Result) : OpRes := keepWaiting ((s.putJob { j with failC0 := x.c0 }).attnFail j.cmd x.status) j.cmd
  let refuse (s : State) (x : Result) : OpRes := .done ((s.detachAnchor j).dropJob j.cmd) x
  match s.seqRec dom d.seq with
  | none => fail s { status := if j.redo.isEmpty then stBadDescriptor else stPoisoned }
  | some r =>
    let sh := s.shape dom r.shapeId
    let pts := if j.redo.isEmpty then rangePoints r sh d.layer d.kvFirst d.kvCount d.tokFirst j.bound else j.redo.map (fun x => ⟨x.layer, x.hg, x.k⟩)
    if s.recordLost dom d.seq then fail s { status := stPoisoned }
    else if adds && s.drainAhead j.hdr j.cmd then .wait s .turn 0
    else match if adds then s.gradRefusal j.hdr d (pts.map (fun p => vpnOf r sh p.layer p.hg p.k)) else none with
    | some x => refuse s x
    | none =>
      -- the pool, as far as the pages are resident, before anything is filled
      let here := (pts.map (fun p => (p, s.pte dom (vpnOf r sh p.layer p.hg p.k)))).filter (fun x => x.2.st == .bench || x.2.st == .rack)
      match if adds then s.reserveGrads j.hdr d r sh here else (s, none) with
      | (t, some x) => refuse t x
      | (_, none) => match s.walkRead dom d.seq r sh pts with
        | (s, .refuse x) => fail s x
        | (s, .fill vs) => match s.awaitFills dom part vs with
          | .done s x => fail s x
          | .wait s w n => .wait s w n
        | (s, .pages l) => match l.head?, s.projLost dom j.bwd sh d with
          | some x, true => fail (s.absorbFails j.hdr d x.2.loc) { status := stPoisoned }
          | _, _ => match if adds then s.reserveGrads j.hdr d r sh l else (s, none) with
            | (s, some x) => refuse s x
            | (s, none) =>
              let p := s.planPages j.hdr.lc part r sh l j.redo
              p.1.dispatchPlans j p.2

/-- ATTN_FWD and ATTN_BWD. A run after a wait walks again. -/
def State.doAttn (s : State) (c : Cmd) (bwd : Bool) (d : AttnD) : OpRes :=
  match s.job c.id with
  | some j => s.attnWalk j
  | none => match s.attnCheck c.hdr c.src bwd d c.data with
    | .error x => .done s x
    | .ok (r, bytes) =>
      let j := s.newJob c bwd d r bytes
      let outLen := if !bwd && c.hdr.flag 1 then 1048512 else 128 + 8 * d.rows + d.rows * j.dv * (if d.ofmt = 1 then 2 else 4)
      match if d.partialAddr = 0 then none else s.outputRefused c.src c.hdr.domain d.partialAddr outLen with
      | some x => .done s x
      | none =>
        if d.level = 0 then (s.putJob j).attnWalk j
        else
          let k := anchorKey c.hdr d j.originAddr j.originPort
          match s.anchorRefusal k d.rows j.dv bwd with
          | some st => .done s { status := st, c0 := if st = stBusy then hint s.fresh else 0 }
          | none =>
            let j := { j with anchored := some k }
            ((s.attachAnchor k c.id d.rows j.dv bwd).putJob j).attnWalk j

end Sys2Proof.Machine
end

