-- ==== Sys2Proof/Machine/AttnRun.lean ====
section
/-!
DEFINITION. Fragments while they run: a page and its commit (R148, R196, R203, R210, R407), the end of a fragment and of a
tile partial (R159, R164, R176), promotion (R231), and GRAD_DRAIN (R204 to R206).
-/

namespace Sys2Proof.Machine

/-! ### Pages -/

/-- Slots that a page's map marks valid. -/
def validCount (sh : Shape) (p : Page) : Nat := (List.range sh.T).countP p.valid.getLsbD

/-- Unit of an engine in the CRMB error log (Table 3-11), and of OPERAND_UE (Table 6-12). -/
def engineUnit (e : Nat) : Nat := if e < 2 then e else 0x10 + (e - 2)

/-- A fragment ends where it stands: with ST_POISONED, and what it has read so far (R155). -/
def State.fragLost (s : State) (f : Frag) : State := s.putFrag { f with status := stPoisoned, next := f.pages.length }

/-- Brings a frame into Bench at once, when a line can be had (R225) and its content in Rack can be read. -/
def State.benchFill (s : State) (f part : Nat) : State :=
  match s.frame f with
  | none => s
  | some x =>
    if !(s.frameLines f).isEmpty then s
    else
      let (s, lost) := s.readFrame f false 3
      if lost then s
      else match s.takeLine (frameTile f) (frameSet f) f (b2n x.cur.fPacked) (if x.cur.st = .opened then .opened else .copy) part x.cur.domain with
      | none => s.noLine (frameTile f)
      | some s => ((s.mapPtes f (fun p => { p with st := .bench })).bump (pgBnch (frameTile f)) 0x158 1).bump (pgMchn (frameChannel f)) 0x120 (s.fillBursts x.cur)

/-- Fences an engine (R245, R407). The fragments of a fenced NBU rerun on the tile's AEs, their pages filled into Bench; that of
a fenced AE reruns in its queue. -/
def State.fenceEngine (s : State) (t e : Nat) : State :=
  let s := s.fencePage (enginePage t e)
  if e < 2 then
    match (AL.get (t, e) s.eng.busy).bind s.frag with
    | some f => s.rerun f
    | none => s
  else
    let q := e - 2
    let fs := s.eng.frags.filter (fun (p : Nat × Frag) => p.2.tile == t && p.2.queue == q)
    fs.foldl (fun s p =>
      let f := p.2
      let ran := f.engine.isSome
      let s := s.freeEngine f
      let r := s.queue t q
      let s := s.putQueue t q { r with window := r.window.filter (· != f.id), drain := r.drain.map (fun w => w.filter (· != f.id)) }
      let s := f.pages.foldl (fun s g => s.benchFill g.frame f.part) s
      let g := { f with queue := 16, st := .waiting }
      if ran then s.rerun g else s.rejoin g) s

/-- A residue fault (R407): the fragment reruns; the second within 1 s fences the engine. -/
def State.residueFault (s : State) (h : Hdr) (f : Frag) (e : Nat) : State :=
  let pg := enginePage f.tile e
  let s := ((s.bump pg 0x124 1).setIrq pg 1).logErr pg 1 h.context h.tag.toNat
  let twice := match AL.get (f.tile, e) s.eng.residue with
    | some t => decide (s.nrt < t + msTicks 1000)
    | none => false
  let s := s.setEng { s.eng with residue := AL.put (f.tile, e) s.nrt s.eng.residue }
  if twice then (s.setIrq pg 2).fenceEngine f.tile e else s.rerun f

/-- First byte of the line of a gradient page (Table 10-1, R199). -/
def gradAddr (g : GradPage) : Nat := benchAddr g.tile ((g.set * 16 + g.way) * 69632)

/-- Reads the line of a gradient page, and marks the page POISON when content of it is lost (Table 8-4). -/
def State.readGrad (s : State) (k : Nat × Nat × Nat) (g : GradPage) : State × GradPage :=
  let r := s.readList ((s.kv.codes.filter (fun c => decide (gradAddr g ≤ c.1 ∧ c.1 < gradAddr g + 69632))).map (·.1)) 2
  let g := { g with poison := g.poison || !r.2.isEmpty }
  (r.1.setEng { r.1.eng with grads := AL.put k g r.1.eng.grads }, g)

/-- Commits a backward page's sums to its gradient page (R201, R203), once per command; what saturates counts in CLIP (R64). A page
marked POISON takes none, and the fragment carries ST_POISONED (Table 8-4). -/
def State.commitGrads (s : State) (j : AttnJob) (sh : Shape) (f : Frag) (fp : FragPage) (p : Page)
    (sums : List ((Nat × Nat × Nat) × List Word)) : State × Frag :=
  let k := (j.hdr.context, j.d.seq, fp.vpn)
  match AL.get k s.eng.grads with
  | none => (s, f)
  | some g =>
    let (s, g) := s.readGrad k g
    if g.poison then (s, { f with status := stPoisoned })
    else
      let r := g.addAll sh (j.hdr.flag 1) (s.fresh * 2 ^ 40) (AL.getD j.hdr.context 0 s.eng.headroom) p.off sums
      let s := ((s.setEng { s.eng with grads := AL.put k r.1 s.eng.grads }).noteWrite (gradAddr g) 69632 2).nextFresh
      match s.job j.cmd with
      | none => (s, f)
      | some j => (s.putJob { j with committed := j.committed + 1, clip := j.clip + r.2 }, f)

/-- UNIT of OPERAND_UE (Table 6-12): the channel, or on an AE the quarter of the line in which a lost word of the frame lies; where no
word of a line is at fault the spec gives none: a free value. DESIGN CHOICE: Log 65. -/
def State.operandUnit (s : State) (e frame : Nat) (lost : List Nat) : Nat :=
  if 2 ≤ e then e - 2
  else match s.frameLines frame, lost with
    | l :: _, a :: _ => 0x10 + (a - lineAddr l) % 69632 / 17408
    | _, _ => 0x10 + Config.pick s.fresh % 16

/-- OPERAND_UE (Table 6-12): the fragment ends with ST_POISONED (Table 11-3). -/
def State.operandLost (s : State) (f : Frag) (e frame : Nat) (lost : List Nat) : State :=
  ((s.logErr (enginePage f.tile e) 2 (s.operandUnit e frame lost) frame).nextFresh).fragLost f

/-- Waits and yields within a page, which timing fixes: of the MAC array for the expander, which only a packed page can cause (R75), and of
an NBU's stream to other traffic of the channel (Tables 6-10, 6-13). DESIGN CHOICE: Log 76. -/
def State.countWaits (s : State) (f : Frag) (e : Nat) (packed : Bool) : State :=
  let pg := enginePage f.tile e
  let s := if packed then (s.bump pg 0x11C (Config.waited s.fresh)).nextFresh else s
  if 2 ≤ e then (s.bump pg 0x128 (Config.waited s.fresh)).nextFresh else s

/-- One page of a fragment whose residue check has passed and whose operands could be read. The slots are those that were valid when the
engine started the page (R149). DEDUCED: Log 64. DESIGN CHOICE: Log 76. -/
def State.usePage (s : State) (j : AttnJob) (f : Frag) (e : Nat) (fp : FragPage) (x : Frame) : State :=
  let p := { pinnedPage x f.queue fp.packed with valid := f.seen }
  let d := j.d
  let sh := s.shape j.hdr.domain p.shapeId
  let err := if p.fPacked then crumbError sh p else none
  if p.fPoison ∨ p.st = .poisoned then s.operandLost f e fp.frame []
  else match err with
  | some w => (s.decodeFault f.tile (engineUnit e) fp.frame w).fragLost f
  | none =>
    let a : ScoreArg := ⟨d.scale, d.softcap, j.hdr.flag 4⟩
    let done := f.commit.contains f.next
    let pg := enginePage f.tile e
    let s := (s.bump64 pg 0x108 1).countWaits f e p.fPacked
    let s := if f.queue = 16 then
        (s.frameLines fp.frame).foldl (fun s l => s.setLine { l with age := 0 }) (s.bump64 (pgBnch f.tile) 0x150 1)
      else s.bump64 (pgMchn (frameChannel fp.frame)) 0x114 (8 + ceilDiv (if fp.packed then sh.streamBytes else sh.payloadBytes) 512)
    let f' := { f with
      next := f.next + 1, read := f.read + 1, commit := if done then f.commit else f.commit ++ [f.next], tokens := f.tokens + validCount sh p }
    if f.bwd then
      let o := backwardPage sh d j a p fp.hg f.rows
      let f' := { f' with rows := o.rows }
      if j.hdr.flag 2 || done then s.putFrag (s.onPage f')
      else
        let r := s.commitGrads j sh f' fp p o.sums
        r.1.putFrag (r.1.onPage r.2)
    else
      let o := forwardPage sh d j a p fp.hg f.rows
      let s := s.bump pg 0x118 o.rescales
      let s := if j.hdr.flag 3 && !done then s.updPage fp.frame (fun q => q.impUpdate sh o.mass) else s
      s.putFrag (s.onPage { f' with rows := o.rows })

/-- One page of a fragment whose residue check has passed: its operands are read where the fragment takes them (R241, R299). -/
def State.runPage (s : State) (j : AttnJob) (f : Frag) (e : Nat) (fp : FragPage) (x : Frame) : State :=
  let r := s.readList (s.badWords fp.frame (f.queue == 16)) 4
  if r.2.isEmpty then r.1.usePage j f e fp ((r.1.frame fp.frame).getD x) else r.1.operandLost f e fp.frame r.2

/-- FRAGMENT_PAGE_DONE. DESIGN CHOICE: Log 76. -/
def State.pageDone (s : State) (i : Nat) (residueOk : Bool) : State :=
  match s.frag i with
  | none => s
  | some f => match f.engine, s.job f.cmd, f.pages[f.next]? with
    | some e, some j, some fp => match s.frame fp.frame with
      | some x =>
        if f.st ≠ .running e ∧ f.st ≠ .stopping e then s
        else if !residueOk && s.fld (enginePage f.tile e) 0x100 0 1 == 1 then s.residueFault j.hdr f e
        else s.runPage j f e fp x
      | none => s
    | _, _, _ => s

/-! ### The end of fragments -/

/-- Releases a fragment's pins, each from the counter it now stands on (R104, Table 4-10). -/
def State.unpinPages (s : State) (f : Frag) : State := f.pages.foldl (fun s p => s.unpinForm p.frame p.packed) s

/-- Whether a frame is one to be promoted: PROMOTE_EN, not in Bench, and no promotion of it under way (R231). -/
def State.promoWanted (s : State) (f : Nat) : Bool :=
  match s.frame f with
  | none => false
  | some x =>
    s.fld (pgBnch (frameTile f)) 0x104 31 1 == 1 && (s.frameLines f).isEmpty && !(s.eng.promos.any (fun p => p.1 == f)) &&
    (x.cur.st == .sealed || x.cur.st == .opened)

/-- Whether a promotion can be made: a free allowed way, or a victim of at least PROMOTE_AGE (R231). -/
def State.promotable (s : State) (f part : Nat) : Bool :=
  match s.frame f with
  | none => false
  | some x =>
    let t := frameTile f
    s.promoWanted f &&
    (match s.chooseLine t (frameSet f) part x.cur.domain with
     | .way _ => true
     | .victim v => decide (s.fld (pgBnch t) 0x104 8 8 ≤ v.age)
     | .fail => false)

/-- Starts the promotions that an NBU fragment earns: of the pages that it read to their end (R231). One that finds no line is not made,
which raises NOLINE (R228). -/
def State.startPromos (s : State) (f : Frag) : State :=
  if f.queue = 16 then s
  else (f.pages.take f.read).foldl (fun s p =>
    if s.promotable p.frame f.part then s.setEng { s.eng with promos := s.eng.promos ++ [(p.frame, f.part)] }
    else if s.promoWanted p.frame then s.noLine (frameTile p.frame) else s) s

/-- PROMOTION_LANDS. -/
def State.promotionLands (s : State) (f : Nat) : State :=
  match s.eng.promos.find? (fun p => p.1 == f) with
  | none => s
  | some (_, part) =>
    let s := s.setEng { s.eng with promos := s.eng.promos.filter (fun p => p.1 != f) }
    if s.promotable f part then
      let n := s.kv.lines.length
      let s := s.benchFill f part
      if s.kv.lines.length = n ∧ (s.frameLines f).isEmpty then s else s.bump (pgBnch (frameTile f)) 0x164 1
    else s

/-- A fragment's partial as the merge unit takes it (R159). -/
def fragAcc (f : Frag) : PartAcc :=
  ⟨if f.bwd then f.rows.map (fun r => (⟨r.o, 0, 0⟩ : RowPart)) else f.rows.map RowAcc.emit, f.bwd, f.tokens, f.read, f.status⟩

/-- The partial of a fragment enters its tile's partial (R176); the first fragment to complete with 0x10 or above gives the node partial
its status. -/
def takeFrag (j : AttnJob) (f : Frag) : AttnJob :=
  let a := (AL.getD f.tile (PartAcc.blank j.rowsIn.length j.dv j.bwd, false) j.tiles).1
  let bad := decide (j.acc.status < 0x10 ∧ 0x10 ≤ f.status)
  { j with tiles := AL.put f.tile (a.merge (fragAcc f), false) j.tiles, acc := if bad then { j.acc with status := f.status } else j.acc }

/-- A job whose command has ended goes with its last fragment. -/
def State.settleOver (s : State) (i : Nat) : State :=
  match s.job i with
  | none => s
  | some j => if j.doneEarly && !s.fragsLeft j then s.setEng { s.eng with jobs := AL.del i s.eng.jobs } else s

/-- FRAGMENT_COMPLETE: the tile's merge unit merges the fragment's partial, which an NBU sends on the channel bus (R243), and the engine is
free. A fragment at its rerun limit completes where it stands (R286). DESIGN CHOICE: Log 61. -/
def State.fragDone (s : State) (i : Nat) : State :=
  match s.frag i with
  | none => s
  | some f =>
      let onEngine := match f.st with | .running _ => true | .stopping _ => true | _ => false
      let viaBus := f.queue != 16
      if (!onEngine ∧ f.status < 0x10) ∨ f.next < f.pages.length ∨ (viaBus && !s.busOpen f.tile) then s
      else
        let s := if viaBus then s.busGrant f.tile f.queue else s
        let s := (s.unpinPages f).startPromos f
        let s := (s.bump64 (pgMrgu f.tile) 0x10C 1).removeFrag f
        match s.job f.cmd with
        | none => s
        | some j => (s.putJob (takeFrag j f)).settleOver j.cmd

/-- Whether every fragment of a command in a tile has completed. -/
def State.tileReady (s : State) (cmd t : Nat) : Bool :=
  !(s.eng.frags.any (fun (p : Nat × Frag) => p.2.cmd == cmd && p.2.tile == t)) &&
  (match s.job cmd with | some j => !(j.todo.any (fun p => p.tile == t)) | none => true)

/-- TILE_PARTIAL_RELEASE (R164, R176): a tile's partial leaves it once; fragments that come to the tile later owe another. -/
def State.releaseTile (s : State) (cmd t : Nat) : State :=
  match s.job cmd with
  | none => s
  | some j => match AL.get t j.tiles with
    | some (a, false) =>
      if !s.tileReady cmd t then s
      else
        (s.putJob { j with
          tiles := AL.put t (PartAcc.blank j.rowsIn.length j.dv j.bwd, true) j.tiles, acc := j.acc.merge a }).attnSettle cmd
    | _ => s

/-! ### GRAD_DRAIN -/

/-- A unit entry (Table 4-3). -/
def unitBytes (u : HsUnit) : List Byte :=
  leBytes 4 u.scale.toNat ++ leBytes 4 u.amax.toNat ++ leBytes 2 u.clip ++
    leBytes 1 (b2n u.isOpen + 2 * b2n u.closed + 4 * b2n u.whole) ++ leBytes 5 0

/-- Unit entries of a gradient page. -/
def gradUnits (sh : Shape) : Nat := sh.heads * sh.Q * sh.U

/-- A drained gradient page (Table 8-6). -/
def drainRecord (q vpn : Nat) (g : GradPage) : List Byte :=
  let sh := Shape.ofWord g.shape
  let n := gradUnits sh
  let us := (List.range n).map (fun i => AL.getD i ⟨0, 0, 0, false, false, false⟩ g.units)
  leBytes 4 q ++ leBytes 4 vpn ++ leBytes 1 g.layer ++ leBytes 1 g.hg ++ leBytes 1 g.shapeId ++ leBytes 1 (b2n g.poison) ++
  leBytes 4 g.k ++ leBytes 4 g.firstPos ++ leBytes 2 n ++ leBytes 2 0 ++ leBytes 4 (us.foldl (fun a u => a + u.clip) 0) ++
  leBytes 4 sh.N ++ leBytes 32 0 ++ us.flatMap unitBytes ++ (if g.poison then List.replicate sh.N 0 else g.payload.readN 0 sh.N)

/-- Reads the gradient pages that are about to be drained; one whose content is lost goes out with POISON set (Tables 8-4, 8-6). -/
def State.readGrads (s : State) (l : List ((Nat × Nat × Nat) × GradPage)) : State :=
  l.foldl (fun (s : State) p => (s.readGrad p.1 p.2).1) s

/-- Clears a gradient page and returns its line. -/
def State.dropGrad (s : State) (k : Nat × Nat × Nat) : State :=
  match AL.get k s.eng.grads with
  | none => s
  | some g =>
    let s := s.setKv { s.kv with lines := s.kv.lines.filter (fun l => !(l.use == .grad && l.frame == g.num)) }
    let s := s.setEng { s.eng with grads := AL.del k s.eng.grads }
    if (s.gradsOf k.1).isEmpty then s.setEng { s.eng with headroom := AL.del k.1 s.eng.headroom } else s

/-- Selected gradient pages, in VPN order (R204). -/
def State.selectGrads (s : State) (ctx : Nat) (d : DrainD) : List ((Nat × Nat × Nat) × GradPage) :=
  sortBy (fun (a b : (Nat × Nat × Nat) × GradPage) => leNat a.1.2.2 b.1.2.2)
    ((s.gradsOf ctx).filter (fun p => p.1.2.1 == d.seq && decide (d.layerFirst ≤ p.2.layer ∧ p.2.layer < d.layerFirst + d.layerCount)))

/-- Pages whose records fit one after another. -/
def drainFit (room : Nat) : List ((Nat × Nat × Nat) × GradPage) → List ((Nat × Nat × Nat) × GradPage)
  | [] => []
  | p :: ps =>
    let n := (drainRecord p.1.2.1 p.1.2.2 p.2).length
    if n ≤ room then p :: drainFit (room - n) ps else []

/-- Whether an earlier ATTN_BWD of the context has not ended (R206). -/
def State.bwdBefore (s : State) (c : Cmd) : Bool :=
  s.cmds.list.any (fun k => match k.op with | .attnBwd _ => k.hdr.context == c.hdr.context && decide (k.id < c.id) | _ => false)

def State.doGradDrain (s : State) (c : Cmd) (d : DrainD) : OpRes :=
  let discard := c.hdr.flag 0
  if d.layerCount = 0 ∨ (!discard ∧ 1048512 < d.bytes) then .done s badDescriptor
  else match if discard then none else s.outputRefused c.src c.hdr.domain d.addr d.bytes with
  | some x => .done s x
  | none =>
    if s.bwdBefore c then .wait s .turn 0
    else
      let s := if discard then s else s.readGrads (drainFit d.bytes (s.selectGrads c.hdr.context d))
      let sel := s.selectGrads c.hdr.context d
      let take := if discard then sel else drainFit d.bytes sel
      let s := take.foldl (fun s p => s.dropGrad p.1) s
      .done s { status := stOk, c0 := take.length, c1 := sel.length - take.length, addr := d.addr
                out := if discard then [] else take.flatMap (fun p => drainRecord p.1.2.1 p.1.2.2 p.2) }

end Sys2Proof.Machine
end

