-- ==== Sys2Proof/Machine/Render.lean ====
section
/-!
DEFINITION. The bytes of the records the node keeps in Rack: page record (Table 4-2), sequence record (Table 4-4), page-table
entries (R94, Table 4-6), payloads; and what a Rack address holds.
-/

namespace Sys2Proof.Machine

def FState.num : FState → Nat
  | .free => 0 | .opened => 1 | .sealing => 2 | .sealed => 3 | .filling => 4 | .retired => 5 | .poisoned => 6

/-- The 16-byte entries of a page's units, one for each unit of its shape (R86, Table 4-3). -/
def scalesBytes (sh : Shape) (p : Page) : List Byte :=
  if sh.isMx then p.mx.readN 0 2048
  else
    let b := (List.range 64).flatMap (fun i => match AL.get i p.units with | some u => unitBytes u | none => leBytes 16 0)
    (b ++ leBytes 1024 0).take 2048

/-- The page record (Table 4-2). -/
def pageRecord (sh : Shape) (p : Page) : List Byte :=
  let flags := b2n p.fSealed + 2 * b2n p.fPacked + 4 * b2n p.fKeyed + 8 * b2n p.fCompacted + 16 * b2n p.fCkptCurrent + 32 * b2n p.fPoison
  let clip := if sh.isMx then p.clipPage else min 0xFFFFFFFF (p.units.foldl (fun n u => n + u.2.clip) 0)
  leBytes 2 1 ++ leBytes 1 p.shapeId ++ leBytes 1 (FState.num p.st) ++ leBytes 2 p.domain ++ leBytes 2 flags ++
  leBytes 2 p.share ++ leBytes 2 p.filled ++ leBytes 4 p.seq ++ leBytes 4 p.vpn ++ leBytes 4 p.firstPos ++
  leBytes 8 p.keyHi.toNat ++ leBytes 8 p.sealTime.toNat ++ leBytes 4 (b2n p.crumbLoc * 2 ^ 31 + p.loc) ++ leBytes 4 clip ++
  leBytes 4 p.gen ++ leBytes 8 p.ckptObj ++ leBytes 4 0 ++ leBytes 128 p.valid.toNat ++ leBytes 64 0 ++
  (p.crumbHdr ++ leBytes (256 - p.crumbHdr.length) 0).take 256 ++
  leBytes 512 (if p.fCompacted then p.kept.toNat else 0) ++ scalesBytes sh p ++ p.imp.readN 0 1024

/-- Bytes of a page's payload as stored: its source form (Table 3-3), or the Crumb stream. -/
def payloadOf (sh : Shape) (p : Page) : List Byte := p.payload.readN 0 (storedBytes sh p.fPacked)

/-- A raw page record of PAGE_READ (Table 10-5). -/
def rawRecord (sh : Shape) (q vpn : Nat) (pt : Point) (p : Page) : List Byte :=
  leBytes 4 q ++ leBytes 4 vpn ++ leBytes 1 pt.layer ++ leBytes 1 pt.hg ++ leBytes 1 (b2n p.fPacked) ++ leBytes 1 0 ++
  leBytes 4 pt.k ++ leBytes 4 (storedBytes sh p.fPacked) ++ leBytes 44 0 ++ pageRecord sh p ++ payloadOf sh p

def SeqState.num : SeqState → Nat
  | .free => 0 | .active => 1 | .parked => 2 | .migrating => 3 | .moved => 4 | .destroying => 5

/-- The sequence record (Table 4-4). -/
def seqRecord (s : State) (d q : Nat) (r : SeqRec) : List Byte :=
  let sh := s.shape d r.shapeId
  let frames := (s.seqPtes d r sh).countP (fun (x : Nat × Pte) => x.2.st == .bench || x.2.st == .rack)
  let hist := (List.range (streamCount r.layers r.kvHeads sh)).flatMap (fun i =>
    let h := AL.getD i [] r.history
    leBytes 4 h.length ++ (h.flatMap (fun w => leBytes 4 w.toNat) ++ leBytes (4 * r.histN) 0).take (4 * r.histN))
  leBytes 2 1 ++ leBytes 1 (SeqState.num r.st) ++ leBytes 1 r.shapeId ++ leBytes 4 q ++ leBytes 2 d ++ leBytes 1 (r.layers - 1) ++
  leBytes 1 (r.kvHeads - 1) ++ leBytes 1 (hgOf r sh) ++ leBytes 1 r.pmaxLog2 ++ leBytes 1 r.histN ++ leBytes 1 r.headroom ++
  leBytes 4 r.baseVpn ++ leBytes 2 r.policy ++ leBytes 1 r.sealLog.length ++ leBytes 1 0 ++ leBytes 4 r.posStart ++
  leBytes 4 r.ckptRegion ++ leBytes 8 r.clipTotal ++ leBytes 4 frames ++ leBytes 4 r.recordBytes ++ leBytes 4 r.parent ++
  leBytes 2 r.peerSlot ++ leBytes 2 0 ++ leBytes 8 r.changeSeq ++ leBytes 16 r.lastSet ++ leBytes 8 r.nextStore ++ leBytes 40 0 ++
  (r.sealLog.flatMap (fun e => leBytes 4 e.1 ++ leBytes 4 e.2) ++ leBytes 512 0).take 512 ++
  (r.nextPos.flatMap (leBytes 4) ++ leBytes 1024 0).take 1024 ++ hist

def PteState.num : PteState → Nat
  | .invalid => 0 | .bench => 1 | .rack => 2 | .ckpt => 3 | .peer => 4

/-- A level-0 entry (Table 4-6). -/
def pteWord (p : Pte) : Nat :=
  if p.st = .invalid then 0
  else PteState.num p.st * 2 ^ 61 + b2n p.shared * 2 ^ 60 + b2n p.r * 2 ^ 59 + b2n p.a * 2 ^ 58 + b2n p.fSealed * 2 ^ 57 +
    b2n p.packed * 2 ^ 56 + b2n p.fill * 2 ^ 55 + b2n p.poison * 2 ^ 54 + (if p.st = .peer then p.loc * 2 ^ 32 else p.loc)

/-- The 256 entries of a level table (R93, R94). -/
def tableBytes (s : State) (d level idx : Nat) : List Byte :=
  (List.range 256).flatMap (fun i =>
    let k := idx * 256 + i
    leBytes 8 (if level = 0 then pteWord (s.pte d k)
      else match AL.get (d, level - 1, k) s.kv.tables with
        | some (ch, half) => 7 * 2 ^ 61 + ch * 2 ^ 20 + half
        | none => 0))

/-- The table entry of a domain's root table (R499). -/
def rootOf (s : State) (ch half : Nat) : Option Nat := (s.sec.domains.find? (fun p => p.2.root == some (ch, half))).map (·.1)

/-- The 2 KiB half `half` of a metadata chunk: half of a page record, a level table, or a part of a sequence record. -/
def metaHalf (s : State) (ch half : Nat) : List Byte :=
  match s.frame (ch * 2 ^ 19 + half / 2) with
  | some f => ((pageRecord (s.shape f.rack.domain f.rack.shapeId) f.rack).drop (half % 2 * 2048)).take 2048
  | none => match rootOf s ch half with
    | some d => tableBytes s d 3 0
    | none => match s.kv.tables.find? (fun t => t.2 == (ch, half)) with
      | some ((d, l, i), _) => tableBytes s d l i
      | none => match s.kv.seqLoc.find? (fun e => e.2.1 == ch && decide (e.2.2 ≤ half) &&
          (match s.seqRec e.1.1 e.1.2 with | some r => decide (half < e.2.2 + ceilDiv r.recordBytes 2048) | none => false)) with
        | some ((d, q), (_, h0)) => match s.seqRec d q with
          | some r => (((seqRecord s d q r) ++ leBytes 2048 0).drop ((half - h0) * 2048)).take 2048
          | none => leBytes 2048 0
        | none => leBytes 2048 0

/-- The 64 bytes of a codeword of Rack that no domain owns: what was written there, or what a domain's key has left (R385, R387). -/
def plainWord (s : State) (ch b : Nat) : List Byte :=
  match AL.get (ch, b / 65536) s.kv.stale with
  | some x =>
    if x.live.contains (b % 65536 / 64) then s.mem.readN (rackAddr ch b) 64
    else (List.range 64).map (fun i => Config.formerByte x.times (rackAddr ch b + i))
  | none => s.mem.readN (rackAddr ch b) 64

/-- The 64 bytes of a codeword of Rack (R241): what the encoders last stored there. -/
def rackWord (s : State) (ch b : Nat) : List Byte :=
  match AL.get (ch, b / 65536) s.kv.chunks with
  | some (.payload f) => match s.frame f with
    | some x =>
      let p := match x.old with | some k => if k.1 = b / 65536 then k.2 else x.rack | none => x.rack
      p.payload.readN (b % 65536) 64
    | none => s.mem.readN (rackAddr ch b) 64
  | some (.metadata _ _) => ((metaHalf s ch (b / 2048)).drop (b % 2048)).take 64
  | some (.run _) => ((metaHalf s ch (b / 2048)).drop (b % 2048)).take 64
  | some (.crumb _) => match crumbAt s ch b with
    | some (x, b0) => x.rack.payload.readN (b - b0) 64
    | none => s.mem.readN (rackAddr ch b) 64
  | some (.block _ _) | some (.region _) => s.mem.readN (rackAddr ch b) 64
  | some .test | none => plainWord s ch b

/-- `n` bytes from byte `b` of a channel. -/
def rackBytes (s : State) (ch b n : Nat) : List Byte :=
  let w0 := b / 64
  let ws := (List.range (ceilDiv (b % 64 + n) 64)).flatMap (fun i => rackWord s ch ((w0 + i) * 64))
  (ws.drop (b % 64)).take n

end Sys2Proof.Machine
end

