-- ==== Sys2Proof/Machine/PageRead.lean ====
section
/-!
DEFINITION. PAGE_READ (R237, R238), the packing of sealed pages (R69 to R79, R225), the sweep and write-back of Bench lines
(R229, R230), and pin releases.
-/

namespace Sys2Proof.Machine

/-! ### PAGE_READ -/

/-- The refusals of PAGE_READ: the sequence-state and range cases of Table 6-5, and R237. -/
def State.readRefusal (s : State) (h : Hdr) (d : PageReadD) : Option Result :=
  match s.seqRec h.domain d.seq with
  | none => some badDescriptor
  | some r => firstFail [
      (r.st == .parked, { status := stUnsupported }),
      (r.st == .moved, rerouteTo r.peerSlot),
      (r.st == .free || r.st == .destroying || decide (r.layers ≤ d.layer ∨ d.kvCount = 0 ∨ r.kvHeads < d.kvFirst + d.kvCount ∨
        d.tokEnd ≤ d.tokFirst ∨ 1048512 < d.bytes), badDescriptor)]

/-- The pages that fit whole in a room of bytes as raw page records (Table 10-5), and the pages left over. -/
def fitPages (s : State) (sh : Shape) : Nat → List (Point × Pte) → List (Point × Pte) × List (Point × Pte)
  | _, [] => ([], [])
  | room, x :: xs =>
    let n := 64 + 4096 + storedBytes sh (s.page x.2.loc).fPacked
    if n ≤ room then let t := fitPages s sh (room - n) xs; (x :: t.1, t.2) else ([], x :: xs)

/-- Reads the frames of a walk, and answers whether content was lost. DEDUCED: Log 65. -/
def State.readAll (s : State) (fs : List Nat) (cls : Nat) : State × Bool :=
  fs.foldl (fun (acc : State × Bool) f => let r := acc.1.readFrame f (acc.1.inBench f) cls; (r.1, acc.2 || r.2)) (s, false)

/-- Walks a range and answers with its raw pages as far as they fit, or waits for its fills (R237). Only the pages that go out are
read. -/
def State.readPages (s : State) (h : Hdr) (d : PageReadD) (status : Nat) : OpRes :=
  match s.seqRec h.domain d.seq with
  | none => .done s badDescriptor
  | some r =>
    let sh := s.shape h.domain r.shapeId
    match s.walkRead h.domain d.seq r sh (rangePoints r sh d.layer d.kvFirst d.kvCount d.tokFirst d.tokEnd) with
    | (s, .refuse x) => .done s x
    | (s, .fill vs) => s.awaitFills h.domain (s.partOf h.context) vs
    | (s, .pages l) =>
      let f := fitPages s sh d.bytes l
      let (s, lost) := s.readAll (f.1.map (·.2.loc)) 5
      if lost then .done s { status := stPoisoned }
      else .done s { status := status, c0 := f.1.length, c1 := (match f.2 with | [] => d.tokEnd | x :: _ => (s.page x.2.loc).firstPos), addr := d.addr
                     out := f.1.flatMap (fun x => rawRecord sh d.seq (vpnOf r sh x.1.layer x.1.hg x.1.k) x.1 (s.page x.2.loc)) }

def State.doPageRead (s : State) (h : Hdr) (src : Source) (d : PageReadD) : OpRes :=
  match s.readRefusal h d with
  | some x => .done s x
  | none => match s.outputRefused src h.domain d.addr d.bytes with
    | some x => .done s x
    | none => s.readPages h d stOk

/-- The raw-page answer of an ATTN_FWD that FALLBACK_OK allows (R156, R238): of a command that nothing but the fragment bound turns away. -/
def State.doFallback (s : State) (c : Cmd) (d : AttnD) : OpRes :=
  let h := c.hdr
  match s.attnCheck h c.src false d c.data with
  | .error x => .done s x
  | .ok (r, _) =>
    let o := s.originOf c.src d
    match if d.level = 0 then none else s.anchorRefusal (anchorKey h d o.1 o.2) d.rows (attnDv (s.shape h.domain r.shapeId)) false with
    | some st => .done s { status := st }
    | none => match s.outputRefused c.src h.domain d.partialAddr 1048512 with
      | some x => .done s x
      | none => s.readPages h ⟨d.seq, d.layer, d.kvFirst, d.kvCount, d.tokFirst, d.tokEnd, d.partialAddr, 1048512⟩ stOkFallback

/-! ### The Crumb unit (R68 to R79, R225) -/

/-- CRUMB_PACK_START: the tile's Crumb unit takes the sealed page that has waited longest (R79), pins it (R104) and packs its source
form (R72, Table 3-7) under the PRED_EN of this moment. A page whose content is lost is not packed. -/
def State.packStart (s : State) (t : Nat) : State :=
  if s.tileFenced t || !s.unitAdmits (pgCrmb t) then s
  else match s.kv.packQ.find? (fun f => frameTile f == t) with
    | none => s
    | some f =>
      let s := s.commitShadow (pgCrmb t)
      let (s, lost) := s.readFrame f (s.inBench f) 3
      if lost then s
      else
      let p := s.page f
      let c := crumbPack (s.shape p.domain p.shapeId) p.shapeId (s.fld (pgCrmb t) 0x100 0 1 == 1) p
      (s.setKv { s.kv with packQ := s.kv.packQ.filter (· != f), packing := AL.put f c s.kv.packing }).pin f

/-- Counts a page that a tile's Crumb unit has packed into a channel (R78, R247). -/
def State.countPack (s : State) (t ch : Nat) (c : CrumbPage) : State :=
  let s := ((s.bump64 (pgCrmb t) 0x108 1).bump64 (pgCrmb t) 0x110 c.escapes).bump (pgMchn ch) 0x120 (ceilDiv c.stream.length 512)
  if f32Lt (s.reg (pgCrmb t) 0x11C) c.maxErr then s.setReg (pgCrmb t) 0x11C c.maxErr else s

/-- The PTEs of a frame whose packed form is committed: PACKED := 1, and RACK where Bench has no line for the stream (R225). -/
def State.packedPtes (s : State) (f : Nat) (inBench : Bool) : State :=
  s.mapPtes f (fun p => { p with packed := true, st := if inBench then .bench else .rack })

/-- CRUMB_PACK_COMMIT (Table 4-10, R225): the stream goes to a Crumb slot of the frame's channel and, if a victim exists in the
same step, to a FORM 1 line. The pack's pin is released; the other pins become pins of the source form, whose chunk and line stay until
the last is released. With no Crumb slot to be had the commit does not happen, and the page stays in its source form: the spec does not
say what then becomes of it. DESIGN CHOICE: Log 74. -/
def State.packCommit (s : State) (f : Nat) : State :=
  match AL.get f s.kv.packing, s.frame f with
  | some c, some x =>
    if x.cur.st ≠ .sealing then s.dropPack f
    else
      let t := frameTile f
      let ch := frameChannel f
      let sh := s.shape x.cur.domain x.cur.shapeId
      match s.allocCrumb ch x.cur.domain sh.slotBytes with
      | none => s
      | some (s, loc) =>
        let s := (s.setKv { s.kv with packing := AL.del f s.kv.packing }).rewrote (rackAddr ch (loc * 256)) c.stream.length
        let q := { x.cur with
          st := .sealed, fPacked := true, crumbLoc := true, loc := loc, crumbHdr := c.header
          gen := (x.cur.gen + 1) % 2 ^ 32, payload := Mem.writeN 0 c.stream [] }
        let srcLine := (s.frameLines f).find? (fun l => l.use == .source)
        let part := srcLine.elim 0 (·.part)
        let pins := x.pinCur - 1
        let s := s.putFrame { x with cur := q, rack := q, old := some (x.cur.loc / 16, x.cur), pinOld := pins, pinCur := 0 }
        let s := (s.charge x.cur.domain (packedUnits sh)).refund x.cur.domain frameUnits
        let (s, inBench) := match s.takeLine t (frameSet f) f 1 .copy part x.cur.domain with
          | some s => (s, true)
          | none => (s.noLine t, false)
        let s := s.packedPtes f inBench
        let s := if pins = 0 then
            let s := (s.updFrame f (fun y => { y with old := none })).dropChunk ch (x.cur.loc / 16)
            (s.frameLines f).foldl (fun (s : State) (l : Line) => if l.use = LineUse.source then s.dropLine l else s) s
          else s
        (s.countPack t ch c).settleFrame f
  | _, _ => s

/-! ### Bench lines (R229 to R231) -/

/-- A line that its partition's way mask leaves out is released once it is clean and unpinned (R229). -/
def State.linePinned (s : State) (l : Line) : Bool :=
  match s.frame l.frame with
  | some f => decide (0 < f.pinCur ∨ 0 < f.pinOld)
  | none => false

/-- DRAIN.PEND: lines that wait for release after a mask change. -/
def State.drainPend (s : State) (t : Nat) : Nat := s.kv.lines.countP (fun (l : Line) => l.tile == t && l.draining)

/-- Releases the draining CLEAN lines of a tile that no pin holds; DRAINED is raised when PEND has come back to 0 (R229). -/
def State.releaseDrained (s : State) (t : Nat) : State :=
  let s := (s.kv.lines.filter (fun (l : Line) => l.tile == t && l.draining && l.use == .copy)).foldl (fun (s : State) (l : Line) =>
    if s.linePinned l then s
    else match (s.linesOf t l.set).find? (fun x => x.way == l.way) with
      | none => s
      | some l => ((s.writeBack l).evict { l with dirty := 0, dirtyRec := false })) s
  if s.kv.draining.contains t ∧ s.drainPend t = 0 then (s.setKv { s.kv with draining := s.kv.draining.filter (· != t) }).setIrq (pgBnch t) 2
  else s

/-- Tiles whose lines wait for release are looked at whenever a pin or a line may have gone (R229). -/
def State.drainTiles (s : State) : State := s.kv.draining.foldl (fun (s : State) t => s.releaseDrained t) s

/-- A new way mask of a partition in a tile: its lines outside it wait for release, those inside no longer do (R229). -/
def State.markDraining (s : State) (t p mask : Nat) : State :=
  let s := s.setKv { s.kv with lines := s.kv.lines.map (fun (l : Line) =>
    if l.tile = t ∧ l.part = p then { l with draining := !bitOf mask l.way } else l) }
  let s := if s.drainPend t ≠ 0 ∧ !s.kv.draining.contains t then s.setKv { s.kv with draining := s.kv.draining ++ [t] } else s
  s.releaseDrained t

/-- A background write-back starts: the line's dirty units are being copied, under a pin (R104, R230). -/
def State.startWriteback (s : State) (l : Line) : State := s.beginBack l l.dirty l.dirtyRec

/-- BENCH_AGE_SWEEP (R230): ages rise to at most 255; an unpinned DIRTY line that reaches WB_AGE is written back. The period
in its shadow takes effect for the next sweep. -/
def State.ageSweep (s : State) (t : Nat) : State :=
  let wbAge := s.fld (pgBnch t) 0x104 0 8
  let s := s.setKv { s.kv with lines := s.kv.lines.map (fun (l : Line) => if l.tile = t then { l with age := min 255 (l.age + 1) } else l) }
  let due := s.kv.lines.filter (fun (l : Line) =>
    l.tile == t && l.use == .copy && l.isDirty && l.wb.isNone && decide (wbAge ≤ l.age) && !s.linePinned l)
  (due.foldl (fun s l => s.startWriteback l) s).commitShadow (pgBnch t)

/-- WRITEBACK_COMPLETE (R230): the dirty bits that were set when the line was read are cleared; a unit dirtied since stays
dirty. A line that was waiting for it can be reused. -/
def State.writebackDone (s : State) (t set way : Nat) : State :=
  match (s.linesOf t set).find? (fun l => l.way == way) with
  | none => s
  | some l => match l.wb with
    | none => s
    | some (q, rec') =>
      let s := s.copyBack l q rec'
      let left := (List.range 4).foldl (fun m i => if bitOf l.dirty i && !bitOf q i then m + 2 ^ i else m) 0
      let s := match s.kv.lines.find? (fun x => Line.same x l) with
        | none => s
        | some x => s.setLine { x with dirty := left, dirtyRec := l.dirtyRec && !rec', age := 0, wb := none }
      (s.unpinForm l.frame (l.form == 1)).releaseDrained t

end Sys2Proof.Machine
end

