-- ==== Sys2Proof/Machine/Compact.lean ====
section
/-!
DEFINITION. COMPACT (R214 to R222).
-/

namespace Sys2Proof.Machine

/-- A gradient page of a sequence exists in some context (R202). -/
def State.hasGrad (s : State) (d q : Nat) : Bool :=
  s.eng.grads.any (fun g => g.1.2.1 == q && (AL.get g.1.1 s.cmds.ctxs).any (fun c => c.domain == d))

/-- Table 9-3 but for its last row. -/
def State.compactRefusal (s : State) (h : Hdr) (a : CompactD) : Option Result :=
  match s.seqRec h.domain a.seq with
  | none => some badDescriptor
  | some r => firstFail [
      (r.st == .moved, rerouteTo r.peerSlot),
      (r.st == .migrating, migratingBusy),
      (r.st == .free || r.st == .destroying || decide (a.layerCount = 0 ∨ r.layers < a.layerFirst + a.layerCount ∨ a.posEnd ≤ a.posFirst),
        badDescriptor),
      (r.st == .parked, { status := stUnsupported }),
      (bitOf r.policy 0 || !bitOf r.policy 1, { status := stUnsupported }),
      (s.hasGrad h.domain a.seq, { status := stUnsupported })]

/-- Pages that a COMPACT considers (R214), in order. -/
def compactPoints (r : SeqRec) (sh : Shape) (a : CompactD) : List (Nat × Nat × Nat) :=
  (List.range a.layerCount).flatMap (fun i =>
    let l := a.layerFirst + i
    let n := r.nextPos.getD l 0
    let ks := if n ≤ r.posStart then 0 else (locate r sh.T (n - 1)).1 + 1
    let in' := (List.range ks).filter (fun k => decide (a.posFirst ≤ firstPosOf r sh.T k ∧ firstPosOf r sh.T (k + 1) ≤ a.posEnd))
    (List.range (hgOf r sh)).flatMap (fun g => in'.map (fun k => (l, g, k))))

/-- Slots of a page that are kept, in slot order (R216). -/
def keptSlots (r : SeqRec) (T nextPos : Nat) (a : CompactD) (p : Page) : List Nat :=
  (List.range T).filter (fun t => p.valid.getLsbD t &&
    (let pos := p.firstPos + p.off t
     decide (pos < r.posStart + a.sinkTokens ∨ nextPos ≤ pos + a.recentTokens) || decide (a.threshold ≤ (p.imp.read t).toNat)))

/-- The frame of a page that is to be rewritten, with its kept and dropped slots; none when it is skipped (R217). -/
def State.compactTask (s : State) (d : Nat) (r : SeqRec) (sh : Shape) (next : Nat) (a : CompactD) (pt : Nat × Nat × Nat) :
    Option (Nat × Nat × List Nat × Nat) :=
  let v := vpnOf r sh pt.1 pt.2.1 pt.2.2
  let e := s.pte d v
  if (e.st ≠ .bench ∧ e.st ≠ .rack) ∨ e.poison ∨ s.walkLost d v then none
  else
    let p := s.page e.loc
    if p.st ≠ .sealed ∨ 1 < p.share ∨ p.domain ≠ d then none
    else
      let k := keptSlots r sh.T next a p
      let n := (List.range sh.T).countP p.valid.getLsbD - k.length
      if n < max 1 a.minDrop then none else some (v, e.loc, k, n)

/-- Element of slot `i` of a rewritten packed page: that of kept slot `ts[i]` as R71 decodes it, without an HS8 source's slice scale. -/
def keptElem (sh : Shape) (p : Page) (ts : List Nat) (h q i d : Nat) : Dy :=
  match ts[i]? with
  | none => Dy.zero
  | some t => let x := crumbElem sh p h q t d; (e4m3Dy x.1).scale x.2

/-- Elements, scales and counters of the kept slots, moved to slots 0 to K − 1 (R218 step 2). A packed MXFP8 page takes the block
exponents of its decoded form; its payload is packed from `keptElem`. DEDUCED: Log 23. -/
def rewritten (sh : Shape) (p : Page) (ts : List Nat) : Page :=
  let hqs := (List.range (sh.heads * sh.Q)).map (fun i => (i / sh.Q, i % sh.Q))
  let payload := if p.fPacked then [] else hqs.foldl (fun m hq => ts.zipIdx.foldl (fun m ti =>
    (List.range sh.W).foldl (fun m d =>
      putElem sh.half (sh.elem hq.1 hq.2 ti.2 d) (getElem sh.half (sh.elem hq.1 hq.2 ti.1 d) p.payload) m) m) m) ([] : Mem)
  let blockExp (hq : Nat × Nat) (t g : Nat) : Byte := if p.fPacked then BitVec.ofNat 8 ((crumbElem sh p hq.1 hq.2 t (32 * g)).2 + 127).toNat
    else p.mx.read (sh.elem hq.1 hq.2 t (32 * g) / 32)
  let mx := if sh.isMx then
      hqs.foldl (fun (m : Mem) hq => ts.zipIdx.foldl (fun (m : Mem) ti => (List.range sh.G).foldl (fun (m : Mem) g =>
        m.write (sh.elem hq.1 hq.2 ti.2 (32 * g) / 32) (blockExp hq ti.1 g)) m) m) ([] : Mem)
    else []
  { p with
    payload := payload, mx := mx
    imp := ts.zipIdx.foldl (fun (m : Mem) ti => m.write ti.2 (p.imp.read ti.1)) []
    valid := (List.range ts.length).foldl (fun v i => v ||| (1#1024 <<< i)) 0
    filled := ts.length
    fCompacted := true
    kept := ts.foldl (fun v t => v ||| (1#1024 <<< p.off t)) 0 }

/-- Rewrites one page into its reserved frame (R218): the PTE moves to the new frame, and the old frame's share falls. A packed page is
packed again by the Crumb unit of the new frame's tile, under the PRED_EN of this moment (R72, R78). DEDUCED: Log 23. -/
def State.compactPage (s : State) (d q : Nat) (sh : Shape) (v f : Nat) (ks : List Nat) (g : Got) : State :=
  let p := s.page f
  let t := frameTile g.frame
  let s := s.pin f
  let u := rewritten sh p ks
  let base := placeAt g { u with
    st := .sealed, domain := d, fSealed := true, fKeyed := false, fCkptCurrent := false, fPoison := false, share := 1
    seq := q, vpn := v, keyHi := 0, gen := 1, ckptObj := 0
    clipPage := min 0xFFFFFFFF (u.units.foldl (fun n x => n + x.2.clip) 0) }
  let (s, new) := if p.fPacked then
      let s := s.commitShadow (pgCrmb t)
      let c := crumbPackOf sh p.shapeId (s.fld (pgCrmb t) 0x100 0 1 == 1) (keptElem sh p ks)
      (s.countPack t (frameChannel g.frame) c, { base with crumbHdr := c.header, payload := Mem.writeN 0 c.stream [] })
    else (s, base)
  let s := s.putFrame ⟨g.frame, new, new, none, 0, 0, 0, 0⟩
  let s := s.setPte d v ⟨.rack, false, true, false, true, p.fPacked, false, false, g.frame⟩
  ((s.lowerShare f).unpinForm f p.fPacked)

/-- Pages of the next batch, at most 64, and the points after them (R221). -/
def State.compactBatch (s : State) (d : Nat) (r : SeqRec) (sh : Shape) (next : List Nat) (a : CompactD) :
    List (Nat × Nat × Nat) → Nat → List (Nat × Nat × List Nat × Nat) × List (Nat × Nat × Nat)
  | [], _ => ([], [])
  | pts, 0 => ([], pts)
  | pt :: pts, n + 1 => match s.compactTask d r sh (next.getD pt.1 0) a pt with
    | none => State.compactBatch s d r sh next a pts (n + 1)
    | some x => let b := State.compactBatch s d r sh next a pts n; (x :: b.1, b.2)

/-- The frames that a batch reserves: each first tries the channel of the frame it replaces (R218, R235), with a Crumb slot for a packed
page (R82). -/
def State.compactWants (s : State) (q : Nat) (r : SeqRec) (sh : Shape) (b : List (Nat × Nat × List Nat × Nat)) : List Want :=
  b.map (fun x =>
    let p := placeOf r sh x.1
    ⟨x.1, frameStart q p.layer p.hg (hgOf r sh) p.k, some (frameChannel x.2.1), true, if (s.page x.2.1).fPacked then sh.slotBytes else 0⟩)

/-- How far a batch has come: the pages rewritten and their dropped slots, and whether content was lost. -/
structure Batch where
  s : State
  pages : Nat
  slots : Nat
  lost : Bool
  deriving DecidableEq, Repr

/-- The next page of a batch: read, decoded if it is packed, and rewritten. Lost content ends the batch there (R221). -/
def Batch.page (b : Batch) (d q : Nat) (sh : Shape) (gs : List Got) (x : Nat × Nat × List Nat × Nat) : Batch :=
  if b.lost then b
  else
    let (s, gone) := b.s.readFrame x.2.1 (b.s.inBench x.2.1) 5
    let (s, gone) := if gone then (s, true) else s.decodePage x.2.1
    match gs.find? (·.vpn == x.1) with
    | some g => if gone then { b with s := s, lost := true }
        else ⟨s.compactPage d q sh x.1 x.2.1 x.2.2.1 g, b.pages + 1, b.slots + x.2.2.2, false⟩
    | none => { b with s := s, lost := true }

/-- One batch of a COMPACT: its frames are reserved first (R215, R221), then its pages are rewritten in order; what stays unused of its
space goes back. `c0` and `c1` count the batches before it. Answers the result, or the points that are left and the counts so far. -/
def State.compactOnce (s : State) (c : Cmd) (a : CompactD) (pts : List (Nat × Nat × Nat)) (c0 c1 : Nat) :
    State × Result × Option (List (Nat × Nat × Nat)) :=
  let d := c.hdr.domain
  match s.seqRec d a.seq with
  | none => (s, { badDescriptor with c0 := c0, c1 := c1 }, none)
  | some r =>
    let sh := s.shape d r.shapeId
    let b := s.compactBatch d r sh c.nextAt a pts 64
    match s.reserve d (some (s.partOf c.hdr.context)) (s.compactWants a.seq r sh b.1) with
    | .error _ => (s, { status := stNoCapacity, c0 := c0, c1 := c1 }, none)
    | .ok (s, gs) =>
      let e := b.1.foldl (fun (e : Batch) x => e.page d a.seq sh gs x) ⟨s, 0, 0, false⟩
      let x : Result := { status := if e.lost then stPoisoned else stOk, c0 := c0 + e.pages, c1 := c1 + e.slots }
      if e.lost then (e.s.dropSpace d ⟨gs, []⟩, x, none)
      else if b.2.isEmpty then (e.s.bumpChange d a.seq, x, none)
      else (e.s, x, some b.2)

/-- Runs one batch of a COMPACT and goes on waiting, or ends. DEDUCED: Log 24. -/
def State.compactRun (s : State) (c : Cmd) (a : CompactD) (pts : List (Nat × Nat × Nat)) : OpRes :=
  match s.compactOnce c a pts c.c0 c.c1 with
  | (s, x, none) => .done s x
  | (s, x, some rest) => .wait (s.setCmd { c with c1 := x.c1 }) (.batches rest) (x.c0 - c.c0)

/-- What a COMPACT that starts now comes to, batch by batch: DRY_RUN answers it and writes nothing (R221). `n` bounds the batches.
DEDUCED: Log 24. -/
def State.compactDry (s : State) (c : Cmd) (a : CompactD) : Nat → List (Nat × Nat × Nat) → Nat → Nat → Result
  | 0, _, c0, c1 => { status := stOk, c0 := c0, c1 := c1 }
  | n + 1, pts, c0, c1 => match s.compactOnce c a pts c0 c1 with
    | (_, x, none) => x
    | (s, x, some rest) => State.compactDry s c a n rest x.c0 x.c1

/-- COMPACT: its checks and its first batch, or the answer of a DRY_RUN. -/
def State.doCompact (s : State) (c : Cmd) (a : CompactD) : OpRes :=
  match s.compactRefusal c.hdr a, s.seqRec c.hdr.domain a.seq with
  | some x, _ => .done s x
  | none, none => .done s badDescriptor
  | none, some r =>
    let pts := compactPoints r (s.shape c.hdr.domain r.shapeId) a
    if c.hdr.flag 0 then .done s (s.compactDry c a (pts.length + 1) pts 0 0) else s.compactRun c a pts

end Sys2Proof.Machine
end

