-- ==== Sys2Proof/Machine/Audit.lean ====
section
/-!
DEFINITION. The audit log (R401, R402).
-/

namespace Sys2Proof.Machine

/-- Bytes 0 to 79 of an audit entry (Table 16-10). -/
def auditBytes (e : AuditEntry) : List Byte :=
  leBytes 8 e.seq ++ leBytes 8 e.time ++ leBytes 2 e.typ ++ leBytes 2 (match e.domain with | some d => d % 1024 | none => 2 ^ 15) ++
    leBytes 2 e.agent ++ leBytes 2 0 ++ leBytes 8 e.arg0 ++ leBytes 48 e.prev.toNat

/-- AGENT of a host link or a firmware core (Table 16-10). -/
def auditAgent : Agent → Nat
  | .host l => Link.num l
  | .core c => 2 + c

/-- Entries that the audit ring holds (R401), or SEC's memory in unleavened mode (R489). -/
def State.auditRoom (s : State) : Nat := if s.pw.st = .unleavened then 256 else 65536

/-- Appends an entry; a full ring loses its oldest one (R401). -/
def State.audit (s : State) (typ : Nat) (domain : Option Nat) (agent arg0 : Nat) : State :=
  let e : AuditEntry := ⟨s.sec.auditSeq, s.nrt, typ, domain, agent, arg0, s.sec.auditHead⟩
  let full := decide (s.auditRoom ≤ s.sec.audit.length)
  let s := { s with sec := { s.sec with
    audit := (if full then s.sec.audit.drop 1 else s.sec.audit) ++ [e]
    auditSeq := s.sec.auditSeq + 1
    auditHead := Config.sha384 (auditBytes e) } }
  if full then (s.bump pgSecc 0x138 1).setIrq pgSecc 2 else s

end Sys2Proof.Machine
end

