-- ==== Sys2Proof/Machine/Remote.lean ====
section
/-!
DEFINITION. Remote operations (14): regions and peer entries, operations sent and served, target notices, revocation, waits.
-/

namespace Sys2Proof.Machine

/-! ### Regions (R337 to R339) -/

def State.region (s : State) (i : Nat) : Option Region := AL.get i s.net.regions
def State.setRegion (s : State) (i : Nat) (g : Region) : State := s.setNet { s.net with regions := AL.put i g s.net.regions }
/-- GEN of an index (R337). -/
def State.regionGen (s : State) (i : Nat) : Nat := (s.region i).elim 1 (·.gen)
/-- The allocated region that a handle names (Table 14-5 step 1). -/
def State.byHandle (s : State) (h : Nat) : Option (Nat × Region) :=
  match s.region (h % 65536) with
  | some g => if g.st != .free && g.gen == h / 65536 then some (h % 65536, g) else none
  | none => none
def State.regionsOf (s : State) (d : Nat) : Nat := s.net.regions.countP (fun (p : Nat × Region) => p.2.st != .free && p.2.domain == d)
def State.regionCount (s : State) : Nat := s.net.regions.countP (fun (p : Nat × Region) => p.2.st != .free)

/-- Bulk-window address of byte `o` of a region. -/
def regionAddr (g : Region) (o : Nat) : Nat :=
  if g.kind = 0 then ringAddr (g.base + o)
  else match g.chunks[o / 65536]? with
    | some (ch, k) => rackAddr ch (k * 65536 + o % 65536)
    | none => 0
/-- The parts of [o, o + n) that lie in one chunk each: address and length. -/
def regionSpans (g : Region) (o n : Nat) : List (Nat × Nat) :=
  if n = 0 then []
  else if g.kind = 0 then [(regionAddr g o, n)]
  else (List.range ((o + n - 1) / 65536 + 1 - o / 65536)).map (fun i =>
    let lo := max o ((o / 65536 + i) * 65536)
    let hi := min (o + n) ((o / 65536 + i + 1) * 65536)
    (regionAddr g lo, hi - lo))

/-- Reads region memory; the second part tells whether a codeword was lost (R347). -/
def State.regionRead (s : State) (g : Region) (o n : Nat) : State × List Byte × Bool :=
  let r := (regionSpans g o n).foldl (fun (acc : State × Bool) p => let w := acc.1.readWords p.1 p.2 1; (w.1, acc.2 || !w.2.isEmpty)) (s, false)
  (r.1, (regionSpans g o n).flatMap (fun p => s.mem.readN p.1 p.2), r.2)
/-- Places data in region memory through the encoders (R344). -/
def State.regionWrite (s : State) (g : Region) (o : Nat) (data : List Byte) : State :=
  ((regionSpans g o data.length).foldl (fun (acc : State × List Byte) p => (acc.1.putBytes p.1 (acc.2.take p.2) 1, acc.2.drop p.2)) (s, data)).1

/-- The word of a region at an offset. -/
def State.regionWord (s : State) (g : Region) (o : Nat) : DWord := BitVec.ofNat 64 (leVal ((regionSpans g o 8).flatMap (fun p => s.mem.readN p.1 p.2)))

/-! ### Word watches (R357) -/

/-- COND of a WAIT_WORD on a value. -/
def wordMeets (d : WaitWordD) (w : DWord) : Bool :=
  let m := (w &&& d.mask).toNat
  match d.cond with
  | 0 => m == d.value.toNat | 1 => m != d.value.toNat | 2 => decide (d.value.toNat ≤ m) | _ => decide (m < d.value.toNat)

def isWordWait (c : Cmd) : Bool := match c.wait with | .word _ _ => true | _ => false
def State.watches (s : State) : Nat := s.cmds.list.countP isWordWait

/-- Evaluates the watches of a region after a placement over [o, o + n): the first value that meets a wait's condition is kept
for its completion (R357). -/
def State.evalWatches (s : State) (i : Nat) (g : Region) (o n : Nat) : State :=
  { s with cmds := { s.cmds with list := s.cmds.list.map (fun c =>
    match c.op, c.wait with
    | .waitWord d, .word till none =>
      if d.handle = g.gen * 65536 + i ∧ o < d.offset + 8 ∧ d.offset < o + n ∧ wordMeets d (s.regionWord g d.offset) then
        { c with wait := .word till (some (s.regionWord g d.offset)) }
      else c
    | _, _ => c) } }

/-! ### REGION_REGISTER (R338) -/

def blankRegion (gen : Nat) : Region := ⟨.free, gen, 0, 0, 0, 0xFFFFFF, 0, 0, [], 0xFFFF, 0, 0, 0, 0⟩

/-- The chunks of a LOCAL_RACK region, or none when the quota or the pool lacks them (Table 14-1). -/
def State.regionChunks (s : State) (d part index n : Nat) : Option (State × List (Nat × Nat)) :=
  if s.rquota d < s.rused d + 256 * n then none
  else
    (List.range n).foldl (fun (o : Option (State × List (Nat × Nat))) k => match o with
      | none => none
      | some (s, l) => match (s.walkChannels ((index + k) % 384) (some part)).findSome? (fun c => (s.newChunk c).map (fun j => (c, j))) with
        | none => none
        | some (c, j) => some ((s.putChunk c j (.region index)).cleared (rackAddr c (j * 65536)) 65536, l ++ [(c, j)])) (some (s, []))

/-- The peer's connection that a PEER registration names (Table 14-2). -/
def State.peerConnOf (s : State) (src : Source) (bind : Nat) : Option Conn :=
  match src with
  | .ring _ => s.connOf bind
  | .conn k _ => if bind = 0xFFFFFF then s.conn k else none

/-- Table 14-3 up to its third row, and the peer row. -/
def State.registerRefusal (s : State) (d : Nat) (src : Source) (a : RegisterD) : Option Result :=
  let isConn := match src with | .conn _ _ => true | .ring _ => false
  let len := if a.kind = 2 then 2 ^ 52 else 2 ^ 30
  let bindOk :=
    if a.kind = 2 then (s.peerConnOf src a.bindConn).any (fun c => c.domain == d)
    else a.bindConn == 0xFFFFFF || (s.connOf a.bindConn).any (fun c => c.domain == d)
  let baseOk := a.kind != 0 || s.inDataArea d a.base a.length
  let ringOk := a.notifyRing == 0xFFFF || (decide (a.notifyRing < 4096) && (s.ring a.notifyRing).st != .disabled && s.ringDomain a.notifyRing == d)
  let reservedOk := (a.kind == 2 || (a.peerIndex == 0 && a.peerHandle == 0)) && (a.kind == 0 || a.base == 0) && (a.kind != 0 || a.base % 4096 == 0)
  firstFail [
    (decide (3 ≤ a.kind ∨ a.rights = 0 ∨ 8 ≤ a.rights ∨ a.length = 0 ∨ a.length % 4096 ≠ 0 ∨ len < a.length ∨
      (a.kind = 2 ∧ (a.peerIndex = 0 ∨ 255 < a.peerIndex))) || !reservedOk, badDescriptor),
    (isConn && (a.kind == 0 || a.notifyRing != 0xFFFF), { status := stUnsupported }),
    (!(bindOk && baseOk && ringOk), { status := stAccess }),
    (a.kind == 2 && (match s.peer d a.peerIndex with | some e => e.st == .active || e.st == .revoking | none => false), badDescriptor)]

def State.doRegister (s : State) (h : Hdr) (src : Source) (a : RegisterD) : OpRes :=
  let d := h.domain
  match s.registerRefusal d src a with
  | some r => .done s r
  | none =>
    if a.kind = 2 then
      match s.peerConnOf src a.bindConn with
      | none => .done s { status := stAccess }
      | some c => .done (s.setPeer d a.peerIndex ⟨.active, connId c, a.peerHandle, a.length, a.rights, 0, 0, 0⟩)
          { status := stOk, c0 := a.peerIndex, c1 := a.length % 2 ^ 32 }
    else if 65536 ≤ s.regionCount ∨ (s.regI pgXprt 0x18C d).toNat % 2 ^ 17 ≤ s.regionsOf d then .done s { status := stNoCapacity, c0 := 1 }
    else
      let i := firstFree ((s.net.regions.filter (fun (p : Nat × Region) => p.2.st != .free)).map (·.1))
      let g : Region := { blankRegion (s.regionGen i) with
        st := .active, kind := a.kind, domain := d, rights := a.rights, bindConn := a.bindConn, base := a.base, length := a.length
        notify := a.notifyRing, context := h.context }
      let ok (s : State) (g : Region) : OpRes :=
        .done (s.setRegion i g) { status := stOk, c0 := g.gen * 65536 + i, c1 := a.length % 2 ^ 32 }
      if a.kind = 0 then ok s g
      else match s.regionChunks d (s.partOf h.context) i (ceilDiv a.length 65536) with
        | none => .done s { status := stNoCapacity, c0 := 2 }
        | some (s, l) =>
          let s := l.foldl (fun (s : State) c => s.zeroRack c.1 c.2) s
          ok (s.charge d (256 * l.length)) { g with chunks := l }

/-! ### Operations that the node sends (R340 to R342, R360) -/

/-- Fields of Table 14-4. -/
def rmaFieldsOk (op : Op) (d : RmaD) : Bool :=
  match op with
  | .rmaRead _ => decide (1 ≤ d.length ∧ d.length ≤ 1048512) && d.operand == 0 && d.compare == 0
  | .rmaWrite _ => decide (1 ≤ d.length ∧ d.length ≤ 1048512) && d.operand == 0 && d.compare == 0
  | .rmaAdd _ => d.length == 8 && d.offset % 8 == 0 && d.localAddr == 0 && d.compare == 0
  | .rmaCas _ => d.length == 8 && d.offset % 8 == 0 && d.localAddr == 0
  | _ => d.handle == 0 && d.offset == 0 && d.localAddr == 0 && d.length == 0 && d.operand == 0 && d.compare == 0

/-- A remote operation of a ring: sent as a request message; the command waits for its response. -/
def State.sendRma (s : State) (c : Cmd) (d : RmaD) : OpRes :=
  let read := match c.op with | .rmaRead _ => true | _ => false
  let write := match c.op with | .rmaWrite _ => true | _ => false
  if !rmaFieldsOk c.op d then .done s badDescriptor
  else match s.connOf d.conn with
    | none => .done s { status := stAccess }
    | some k =>
      if (k.domain != c.hdr.domain || ((read || write) && !s.inDataArea c.hdr.domain d.localAddr d.length)) then .done s { status := stAccess }
      else
        let e : Word := if k.composition = 0xFFFF then 0 else c.hdr.epoch
        let body := rmaDesc c.op.code c.hdr.context c.hdr.domain c.hdr.lc c.hdr.tag e d.handle d.offset d.length d.operand d.compare ++
          (if write then s.ringRead d.localAddr d.length else [])
        let s := s.queueOutbound ⟨.cmd c.id, connId k, false, 0, if read then respSlots d.length else 0, none, body, false⟩
        .wait s.pumpOutbound .remote 0

/-! ### Operations that the node serves (R343 to R347) -/

/-- Table 14-5. DEDUCED: Log 26. -/
def State.targetCheck (s : State) (domain : Nat) (conn : Option Nat) (right : Nat) (handle offset length : Nat) : Nat :=
  match s.byHandle handle with
  | none => stRegionRevoked
  | some (_, g) =>
    if g.st ≠ .active then stRegionRevoked
    else if g.domain ≠ domain then stAccess
    else if (match conn with | some k => g.bindConn != 0xFFFFFF && g.bindConn != k | none => false) then stAccess
    else if !bitOf g.rights right then stAccess
    else if g.length < offset + length then stAccess
    else stOk

/-- Counts a refusal and notifies the region's ring: at once after a quiet interval if the ring has a free
record (R469), else when the interval ends (R349). DEDUCED: Log 26. DEDUCED: Log 71. -/
def State.targetRefused (s : State) (opcode conn handle status : Nat) : State :=
  let s := s.bump pgXprt (if status = stAccess then 0x1A8 else 0x1AC) 1
  match s.byHandle handle with
  | none => s
  | some (i, g) =>
    let s := if g.st = .revoking then s.setRegion i { g with refused := g.refused + 1 } else s
    if g.notify = 0xFFFF then s
    else match AL.get (handle, status) s.net.notices with
      | some n =>
        let n' := if n.count = 0 then { n with opcode := opcode, conn := conn, count := 1, first := s.nrt } else { n with count := n.count + 1 }
        s.setNet { s.net with notices := AL.put (handle, status) n' s.net.notices }
      | none =>
        let room := s.noticeRoom g.notify
        let s := if room then (s.writeRecord g.notify ⟨BitVec.ofNat 32 handle, status, opcode, g.context, conn, 1, 0, 0, 0⟩ s.nrt).ringIrq g.notify
          else s
        let n : Notice := ⟨opcode, conn, if room then 0 else 1, s.nrt, s.nrt + usTicks (max 1 (s.fld pgXprt 0x184 0 16))⟩
        s.setNet { s.net with notices := AL.put (handle, status) n s.net.notices }

/-- TARGET_NOTICE_INTERVAL_END (R349): one notice covers the refusals counted, and they stay counted
while the ring has no free record (R469); a quiet interval ends the counting. DEDUCED: Log 71. -/
def State.noticeEnd (s : State) (handle status : Nat) : State :=
  match AL.get (handle, status) s.net.notices with
  | none => s
  | some n =>
    if s.nrt < n.till then s
    else if n.count = 0 then s.setNet { s.net with notices := AL.del (handle, status) s.net.notices }
    else match s.byHandle handle with
      | none => s.setNet { s.net with notices := AL.del (handle, status) s.net.notices }
      | some (_, g) =>
        let room := s.noticeRoom g.notify
        let s := if room then (s.writeRecord g.notify ⟨BitVec.ofNat 32 handle, status, n.opcode, g.context, n.conn, n.count, 0, 0, 0⟩ n.first).ringIrq
            g.notify
          else s
        let n := { n with count := if room then 0 else n.count, till := s.nrt + usTicks (max 1 (s.fld pgXprt 0x184 0 16)) }
        s.setNet { s.net with notices := AL.put (handle, status) n s.net.notices }

/-- RMA_UE (Table 14-13). -/
def State.rmaUe (s : State) (i offset : Nat) : State := s.logErr pgXprt 4 i (offset / 8)

/-- Serves an admitted remote operation: it is placed, and answered, in the step of its admission (R344, R345). `ue` tells that
the region memory it reads is lost. DEDUCED: Log 13. DEDUCED: Log 25. -/
def State.serve (s : State) (h : Hdr) (conn : Nat) (op : Op) (d : RmaD) (data : List Byte) (ue : Bool) : OpRes :=
  let cid := (s.conn conn).elim conn connId
  if !rmaFieldsOk op d ∨ d.conn ≠ 0xFFFFFF ∨ d.localAddr ≠ 0 then .done s badDescriptor
  else
    let right := match op with | .rmaRead _ => 0 | .rmaWrite _ => 1 | _ => 2
    match op with
    | .rmaFlush _ => .done s { status := stOk }
    | _ =>
      let st := s.targetCheck h.domain (some cid) right d.handle d.offset d.length
      if st ≠ stOk then .done (s.targetRefused op.code cid d.handle st) { status := st }
      else match s.byHandle d.handle with
        | none => .done s { status := stRegionRevoked }
        | some (i, g) =>
          match op with
          | .rmaWrite _ =>
            if data.length ≠ d.length then .done s badDescriptor
            else .done ((s.regionWrite g d.offset data).evalWatches i g d.offset d.length) { status := stOk, c0 := d.length }
          | .rmaRead _ =>
            let r := s.regionRead g d.offset d.length
            if ue || r.2.2 then .done (r.1.rmaUe i d.offset) { status := stPoisoned }
            else .done r.1 { status := stOk, c0 := d.length, out := r.2.1 }
          | _ =>
            let r := s.regionRead g d.offset 8
            if ue || r.2.2 then .done (r.1.rmaUe i d.offset) { status := stPoisoned }
            else
              let old := BitVec.ofNat 64 (leVal r.2.1)
              let new := match op with | .rmaCas _ => if old = d.compare then some d.operand else none | _ => some (old + d.operand)
              let s := match new with
                | some w => (r.1.regionWrite g d.offset (leBytes 8 w.toNat)).evalWatches i g d.offset 8
                | none => r.1
              .done s { status := stOk, c0 := old.toNat % 2 ^ 32, c1 := old.toNat / 2 ^ 32 }

/-! ### Waits (R354 to R359) -/

/-- A watched queue of a WAIT_COUNT: lower-numbered, of the same domain, existing (R356). -/
def State.watchOk (s : State) (n : Nat) (d : WaitCountD) : Bool :=
  decide (d.watch < n) && (s.ring d.watch).st != .disabled && s.ringDomain d.watch == s.ringDomain n

/-- What a WAIT_COUNT answers when its condition holds. -/
def State.countResult (s : State) (h : Hdr) (d : WaitCountD) (target f0 : DWord) : Option Result :=
  let q := s.ring d.watch
  if q.done.toNat < target.toNat then none
  else if h.flag 0 && decide (f0.toNat < q.fail.toNat) then
    some { status := stAborted, c0 := q.done.toNat % 2 ^ 32, c1 := (q.fail - f0).toNat % 2 ^ 32 }
  else if h.flag 0 && q.fail != f0 then none
  else some { status := stOk, c0 := q.done.toNat % 2 ^ 32 }

def State.doWaitCount (s : State) (h : Hdr) (src : Source) (d : WaitCountD) : OpRes :=
  match src with
  | .conn _ _ => .done s { status := stUnsupported }
  | .ring n =>
    if !s.watchOk n d then .done s { status := stWaitOrder }
    else
      let q := s.ring d.watch
      let target := if h.flag 1 then q.done + BitVec.ofNat 64 d.target else BitVec.ofNat 64 d.target
      match s.countResult h d target q.fail with
      | some r => .done s r
      | none => .wait s (.count target q.fail (if d.timeoutUs = 0 then 0 else s.nrt + usTicks d.timeoutUs)) 0

/-- WAIT_COUNT_MET. -/
def State.waitCountMet (s : State) (id : Nat) : State :=
  match s.cmd id with
  | none => s
  | some c => match c.op, c.wait with
    | .waitCount d, .count target f0 _ => match s.countResult c.hdr d target f0 with
      | some r => s.finish c r
      | none => s
    | _, _ => s

def State.waitMax (s : State) : Nat := min 60000 (max 1 (s.fld pgXprt 0x180 0 16)) * 1000

def wordResult (status : Nat) (w : DWord) : Result := { status := status, c0 := w.toNat % 2 ^ 32, c1 := w.toNat / 2 ^ 32 }

/-- WAIT_WORD: a watch raises the region's drain count (R351); a lost word completes it as R347 says. DEDUCED: Log 26. -/
def State.doWaitWord (s : State) (h : Hdr) (src : Source) (d : WaitWordD) : OpRes :=
  let conn := match src with | .conn k _ => some ((s.conn k).elim k connId) | .ring _ => none
  if 3 < d.cond ∨ d.offset % 8 ≠ 0 ∨ d.timeoutUs = 0 ∨ s.waitMax < d.timeoutUs ∨ (conn.isSome ∧ d.skip ≠ 0) then .done s badDescriptor
  else
    let st := s.targetCheck h.domain conn 0 d.handle d.offset 8
    if st ≠ stOk then .done s { status := st }
    else match s.byHandle d.handle with
      | none => .done s { status := stRegionRevoked }
      | some (i, g) =>
        let w := s.regionWord g d.offset
        let r := s.regionRead g d.offset 8
        let s := r.1
        if r.2.2 then .done (s.rmaUe i d.offset) { status := stPoisoned }
        else if wordMeets d w then .done s (wordResult stOk w)
        else .wait (s.setRegion i { g with drain := g.drain + 1 }) (.word (s.nrt + usTicks d.timeoutUs) none) 0

/-- Releases a watch: the drain count falls (R351). -/
def State.releaseWatch (s : State) (handle : Nat) : State :=
  match s.byHandle handle with
  | none => s
  | some (i, g) => s.setRegion i { g with drain := g.drain - 1, drained := if g.st = .revoking then g.drained + 1 else g.drained }

/-- Ends a WAIT_WORD. -/
def State.endWord (s : State) (c : Cmd) (d : WaitWordD) (r : Result) : State := (s.releaseWatch d.handle).finish c r

/-- WAIT_WORD_MET: completes with the value that met the condition. -/
def State.waitWordMet (s : State) (id : Nat) : State :=
  match s.cmd id with
  | none => s
  | some c => match c.op, c.wait with
    | .waitWord d, .word _ (some w) => s.endWord c d (wordResult stOk w)
    | _, _ => s

/-- WAIT_TIMEOUT. A wait whose condition was met first completes as met (R356, R357). -/
def State.waitTimeout (s : State) (id : Nat) : State :=
  match s.cmd id with
  | none => s
  | some c => match c.op, c.wait with
    | .waitWord d, .word till met =>
      if s.nrt < till then s
      else if met.isSome then s.waitWordMet id
      else
        let w := match s.byHandle d.handle with | some (_, g) => s.regionWord g d.offset | none => 0
        (s.bump pgXprt 0x1B0 1).endWord c d (wordResult stTimeout w)
    | .waitCount d, .count target f0 till =>
      if till = 0 ∨ s.nrt < till then s
      else match s.countResult c.hdr d target f0 with
        | some r => s.finish c r
        | none => (s.bump pgXprt 0x1B0 1).finish c { status := stTimeout, c0 := (s.ring d.watch).done.toNat % 2 ^ 32 }
    | _, _ => s

/-! ### Revocation (R350 to R353) -/

/-- Commands that wait for the drain of a region or a peer entry, in admission order. -/
def State.revokesOf (s : State) (ref : RegionRef) : List Cmd :=
  s.cmds.list.filter (fun c => c.wait == .drain && (match c.op with
    | .regionRevoke a => (match ref with
      | .handle h => !c.hdr.flag 0 && a.handle == h
      | .peer d i => c.hdr.flag 0 && c.hdr.domain == d && a.peerIndex == i)
    | _ => false))

/-- Every revoke of a region completes: the first with what was drained, the others with COUNT0 0 (Table 14-8). DEDUCED: Log 35. -/
def State.endRevokes (s : State) (ref : RegionRef) (drained refused : Nat) : State :=
  (s.revokesOf ref).zipIdx.foldl (fun (s : State) x =>
    s.finish x.1 { status := stOk, c0 := if x.2 = 0 then drained else 0, c1 := refused }) s

/-- A drained local region is FREE again: its chunks zeroed and returned, its GEN raised (Table 14-8, R337). -/
def State.freeRegion (s : State) (i : Nat) (g : Region) : State :=
  let s := g.chunks.foldl (fun (s : State) c => (s.zeroRack c.1 c.2).giveChunk c.1 c.2) s
  let s := s.refund g.domain (256 * g.chunks.length)
  s.setRegion i (blankRegion (if g.gen = 65535 then 1 else g.gen + 1))

/-- REGION_DRAINED: the drain count of a REVOKING region or entry is 0. DEDUCED: Log 35. -/
def State.drained (s : State) (ref : RegionRef) : State :=
  match ref with
  | .handle h => match s.byHandle h with
    | some (i, g) =>
      if g.st = .revoking ∧ g.drain = 0 then (s.endRevokes ref g.drained g.refused).freeRegion i g else s
    | none => s
  | .peer d i => match s.peer d i with
    | some e =>
      if e.st = .revoking ∧ e.drain = 0 then (s.endRevokes ref e.drained e.refused).setPeer d i { e with st := .revoked } else s
    | none => s

/-- A local region becomes REVOKING: its WAIT_WORDs complete at once. DEDUCED: Log 35. -/
def State.startRevoke (s : State) (i : Nat) (g : Region) : State :=
  let h := g.gen * 65536 + i
  let s := s.setRegion i { g with st := .revoking, drained := 0, refused := 0 }
  (s.cmds.list.filter (fun c => isWordWait c && (match c.op with | .waitWord d => d.handle == h | _ => false))).foldl (fun (s : State) c =>
    match c.op with
    | .waitWord d => s.endWord c d { status := stRegionRevoked }
    | _ => s) s

/-- REGION_REVOKE: completes in this step when nothing is left to drain, else when the count reaches 0. DEDUCED: Log 35. -/
def State.doRevoke (s : State) (c : Cmd) (a : RevokeD) : OpRes :=
  let d := c.hdr.domain
  let finishOr (s : State) (ref : RegionRef) : OpRes :=
    let s := (s.setCmd { c with wait := .drain }).drained ref
    if (s.cmd c.id).isSome then .wait s .drain 0 else .wait s .none 0
  if c.hdr.flag 0 then
    if a.handle ≠ 0 ∨ a.peerIndex = 0 ∨ 255 < a.peerIndex then .done s badDescriptor
    else match s.peer d a.peerIndex with
      | none => .done s { status := stRegionRevoked }
      | some e => match e.st with
        | .active => finishOr (s.setPeer d a.peerIndex { e with st := .revoking, drained := 0, refused := 0 }) (.peer d a.peerIndex)
        | .revoking => .wait s .drain 0
        | _ => .done s { status := stRegionRevoked }
  else if a.peerIndex ≠ 0 then .done s badDescriptor
  else match s.byHandle a.handle with
    | none => .done s { status := stRegionRevoked }
    | some (i, g) =>
      if g.domain ≠ d then .done s { status := stAccess }
      else match g.st with
        | .active => finishOr (s.startRevoke i g) (.handle a.handle)
        | .revoking => .wait s .drain 0
        | _ => .done s { status := stRegionRevoked }

end Sys2Proof.Machine
end

