-- ==== Sys2Proof/Machine/Ckpt.lean ====
section
/-!
DEFINITION. Checkpoints (R421 to R429), overflow export (R236) and migration (R115).
-/

namespace Sys2Proof.Machine

def State.setCkpt (s : State) (c : CkptState) : State := { s with ckpt := c }
def State.jobRec (s : State) (i : Nat) : Option Job := AL.get i s.ckpt.jobs
def State.putJobRec (s : State) (j : Job) : State := s.setCkpt { s.ckpt with jobs := AL.put j.id j s.ckpt.jobs }
def State.dropJobRec (s : State) (i : Nat) : State := s.setCkpt { s.ckpt with jobs := AL.del i s.ckpt.jobs }
def State.jobOfCmd (s : State) (cmd : Nat) : Option Job := (s.ckpt.jobs.find? (fun (p : Nat × Job) => p.2.cmd == cmd)).map (·.2)

/-! ### Objects (R421) -/

/-- An object: its header in clear, its body as AES-256-GCM makes it, the tag, and zeros to a multiple of 4 KiB. A KEY object's
body is the envelope and has no tag. `plain` is the length of `body`. -/
def objectOf (typ form set index domain seq vpn plain : Nat) (body : List Byte) : List Byte :=
  let n := if typ = 4 then plain else plain + 16
  let size := ceilDiv (64 + n) 4096 * 4096
  let head := leBytes 2 1 ++ leBytes 1 typ ++ leBytes 1 form ++ leBytes 16 set ++ leBytes 4 index ++ leBytes 2 domain ++ leBytes 2 0 ++
    leBytes 4 seq ++ leBytes 4 vpn ++ leBytes 4 plain ++ leBytes 4 size ++ leBytes 20 0
  head ++ (List.range n).map (Config.cipherByte set index body) ++ leBytes (size - 64 - n) 0

/-- 4 KiB units of an object with a body of `n` bytes. -/
def unitsOf (n : Nat) : Nat := objectBytes n / 4096
def keyUnits : Nat := 1

/-- The set that an object's location belongs to (R397). -/
def State.setOfObj (s : State) (d loc : Nat) : Nat :=
  ((s.sec.keySets.find? (fun (k : Nat × KeySet) => k.2.domain == d && k.2.objs.contains loc)).map (·.1)).getD 0

/-- Key sets that are not released: a page of the domain has an object of the set, or an export or a migration makes it now
(R397). DEDUCED: Log 69. -/
def State.liveSets (s : State) : AL Nat KeySet :=
  let names (d o : Nat) : Bool :=
    s.kv.ptes.any (fun (p : (Nat × Nat) × Pte) => p.1.1 == d && ((p.2.st == .ckpt && p.2.loc == o) ||
      ((p.2.st == .bench || p.2.st == .rack) && (s.page p.2.loc).ckptObj == o)))
  s.sec.keySets.filter (fun (k : Nat × KeySet) => k.2.objs.any (names k.2.domain) || s.ckpt.jobs.any (fun (j : Nat × Job) => j.2.set == k.1))

/-- Drops the sets that are released. DEDUCED: Log 69. -/
def State.sweepSets (s : State) : State :=
  { s with sec := { s.sec with keySets := s.liveSets } }

/-! ### CKPT_EXPORT -/

/-- What an export does with a page: writes it, references the object it has, or reports it lost. -/
inductive ExportWay where
  | write (frame : Nat)
  | keep (loc : Nat)
  | lost
  deriving DecidableEq, Repr

def State.exportWay (s : State) (full : Bool) (p : Pte) : ExportWay :=
  match p.st with
  | .ckpt => if p.poison then .lost else .keep p.loc
  | _ =>
    let x := s.page p.loc
    if p.poison ∨ x.st = .poisoned then .lost
    else if !full ∧ x.fCkptCurrent then .keep x.ckptObj else .write p.loc

/-- Page list of a snapshot (Table 17-8 step 1): with the set list of the pages that are only referenced; a page of a set that
would be the 17th is written if it is in the node. DEDUCED: Log 30. -/
def State.pageList (s : State) (d : Nat) (r : SeqRec) (sh : Shape) (full : Bool) : List (Nat × ExportWay) × List Nat :=
  (s.seqPtes d r sh).foldl (fun (acc : List (Nat × ExportWay) × List Nat) vp =>
    if vp.2.st = .invalid ∨ vp.2.st = .peer then acc
    else match if s.walkLost d vp.1 then .lost else s.exportWay full vp.2 with
      | .keep loc =>
        let set := s.setOfObj d loc
        if acc.2.contains set then (acc.1 ++ [(vp.1, .keep loc)], acc.2)
        else if acc.2.length < 15 then (acc.1 ++ [(vp.1, .keep loc)], acc.2 ++ [set])
        else (acc.1 ++ [(vp.1, if vp.2.st = .ckpt then .keep loc else .write vp.2.loc)], acc.2)
      | w => (acc.1 ++ [(vp.1, w)], acc.2)) ([], [])

/-- The checks of Table 17-7 up to the key table. -/
def State.exportRefusal (s : State) (d q idx : Nat) : Option Result :=
  match s.seqRec d q with
  | none => some badDescriptor
  | some r =>
    let e := s.peer d idx
    firstFail [
      (r.st == .moved, rerouteTo r.peerSlot),
      (r.st == .migrating, migratingBusy),
      (r.st != .active && r.st != .parked, badDescriptor),
      (!(e.any (fun e => e.st == .active)), { status := stRegionRevoked }),
      (!(e.any (fun e => bitOf e.rights 1)), { status := stAccess }),
      (decide (65536 ≤ s.liveSets.length), { status := stNoCapacity })]

/-- The objects of an export laid out in the store: (VPN, way, unit) of each page, the unit of the manifest, the unit after
it. DEDUCED: Log 30. -/
def State.layObjects (s : State) (sh : Shape) (r : SeqRec) (offset : Nat) (l : List (Nat × ExportWay)) :
    List (Nat × ExportWay × Nat) × Nat × Nat :=
  let p := l.foldl (fun (acc : List (Nat × ExportWay × Nat) × Nat) x => match x.2 with
    | .write f => (acc.1 ++ [(x.1, x.2, acc.2)], acc.2 + unitsOf (4096 + storedBytes sh (s.page f).fPacked))
    | .keep loc => (acc.1 ++ [(x.1, x.2, loc % 2 ^ 40)], acc.2)
    | .lost => (acc.1 ++ [(x.1, x.2, 0)], acc.2)) ([], offset + keyUnits + unitsOf r.recordBytes)
  (p.1, p.2, p.2 + unitsOf (512 + 16 * l.length))

/-- The MANIFEST object of an export (Table 17-5): its header, its set list with this export's set first, and one entry for each page of
the list. `sets` are the sets of the pages that are only referenced. -/
def State.manifestObject (s : State) (set index d q recordUnit : Nat) (r : SeqRec) (l : List (Nat × ExportWay × Nat)) (sets : List Nat) : List Byte :=
  let all := set :: sets
  let setAt (w : ExportWay) : Nat := match w with | .keep loc => all.idxOf (s.setOfObj d loc) | _ => 0
  let body := leBytes 4 q ++ leBytes 2 d ++ leBytes 1 all.length ++ leBytes 1 0 ++ leBytes 4 l.length ++
    leBytes 4 (r.nextPos.foldl min (r.nextPos.headD 0)) ++ leBytes 8 r.changeSeq ++ leBytes 8 recordUnit ++ leBytes 224 0 ++
    (all.flatMap (leBytes 16) ++ leBytes 256 0).take 256 ++
    l.flatMap (fun x => leBytes 4 x.1 ++ leBytes 1 (b2n (x.2.1 == .lost)) ++ leBytes 1 (setAt x.2.1) ++ leBytes 2 0 ++ leBytes 8 x.2.2)
  objectOf 3 0 set index d q 0 (512 + 16 * l.length) body

/-- What an export or a migration reads of a page in Rack goes in WB bursts (Table 10-6). -/
def State.sendBursts (s : State) (f : Nat) : State :=
  if s.inBench f then s else s.bump (pgMchn (frameChannel f)) 0x124 (s.fillBursts (s.page f))

/-- The PAGE object of a frame, as object `index` of a set (R421). -/
def State.pageObject (s : State) (set index d q vpn f : Nat) (sh : Shape) : List Byte :=
  let p := s.page f
  objectOf 2 (b2n p.fPacked) set index d q vpn (4096 + storedBytes sh p.fPacked) (pageRecord sh p ++ payloadOf sh p)

/-- The pins that a job still holds on its pages are released (R104). -/
def State.unpinJob (s : State) (j : Job) : State :=
  j.pages.foldl (fun (s : State) (p : JobPage) => if p.acked then s else s.unpinForm p.frame p.packed) s

/-- One write of an export: an RMA_WRITE of an object at a store unit. -/
def State.storeWrite (s : State) (j : Nat) (d idx unit : Nat) (obj : List Byte) : State :=
  match s.peer d idx with
  | none => s
  | some e => s.queueNodeOp (.job j) d idx e 0x11 (unit * 4096) obj.length obj
def State.storeFlush (s : State) (j : Nat) (d idx : Nat) : State :=
  match s.peer d idx with
  | none => s
  | some e => s.queueNodeOp (.job j) d idx e 0x14 0 0 []

/-- Snapshot of a sequence and the queueing of its KEY, RECORD and PAGE objects and the flush (Table 17-8 steps 1 to 4), or the
units that the region lacks. DEDUCED: Log 30. -/
def State.startExport (s : State) (kind : JobKind) (cmd d q idx offset : Nat) (recipient : List Byte) (full : Bool) : Except Nat (State × Job) :=
  match s.seqRec d q, s.peer d idx with
  | some r, some e =>
    let sh := s.shape d r.shapeId
    let s := (s.readAll ((s.pageList d r sh full).1.filterMap (fun x => match x.2 with | .write f => some f | _ => none)) 5).1
    let l := s.pageList d r sh full
    let o := s.layObjects sh r offset l.1
    if e.length < o.2.2 * 4096 then .error (o.2.2 - e.length / 4096)
    else
      let id := s.ckpt.next
      let set := (Config.randomKey s.fresh).toNat % 2 ^ 128
      let s := s.nextFresh.setCkpt { s.ckpt with next := id + 1 }
      let writes := o.1.filterMap (fun x => match x.2.1 with | .write f => some (x.1, f, x.2.2) | _ => none)
      let n := writes.length
      let j : Job := ⟨id, kind, cmd, d, q, idx, set, recipient,
        writes.map (fun w => ⟨w.1, w.2.1, (s.page w.2.1).fPacked, (s.page w.2.1).valid, w.2.2, false⟩),
        l.1.countP (fun x => match x.2 with | .keep _ => true | _ => false), l.1.any (fun x => x.2 == .lost),
        s.manifestObject set (n + 2) d q (offset + keyUnits) r o.1 l.2, o.2.1, o.2.2, false, 0, 0⟩
      let s := { s with sec := { s.sec with keySets := AL.put set ⟨d, recipient, [],
        writes.map (fun (w : Nat × Nat × Nat) => (w.2.2, carried (s.page w.2.1))), some r, false⟩ s.liveSets } }
      let s := s.audit 0x0023 (some d) 2 (set % 2 ^ 64)
      let s := s.putJobRec j
      let s := s.storeWrite id d idx offset (objectOf 4 0 set 0 d q 0 256 recipient)
      let s := s.storeWrite id d idx (offset + keyUnits) (objectOf 1 0 set 1 d q 0 r.recordBytes (seqRecord s d q r))
      let s := writes.zipIdx.foldl (fun (s : State) w =>
        ((s.sendBursts w.1.2.1).pin w.1.2.1).storeWrite id d idx w.1.2.2 (s.pageObject set (w.2 + 2) d q w.1.1 w.1.2.1 sh)) s
      .ok ((s.storeFlush id d idx).pumpOutbound, j)
  | _, _ => .error 0

/-- CKPT_EXPORT: its snapshot, then its writes go on without it (R90, R424). -/
def State.doExport (s : State) (c : Cmd) (a : ExportD) : OpRes :=
  match s.exportRefusal c.hdr.domain a.seq a.peerIndex with
  | some x => .done s x
  | none => match s.startExport .store c.id c.hdr.domain a.seq a.peerIndex a.storeOffset a.recipient (c.hdr.flag 0) with
    | .error n => .done s { status := stNoCapacity, c0 := n }
    | .ok (s, _) => .wait (s.bumpChange c.hdr.domain a.seq) .exporting 0

/-- Operations of a job that are not yet answered. -/
def State.jobOps (s : State) (id : Nat) : List Outbound := s.net.outbound.filter (fun o => o.who == .job id)

/-- A job's operations have all been answered: the MANIFEST object is written, with its flush (Table 17-8 step 5). -/
def State.jobProgress (s : State) (id : Nat) : State :=
  match s.jobRec id with
  | none => s
  | some j =>
    if (j.kind = .store ∨ j.kind = .overflow) ∧ (s.jobOps id).isEmpty ∧ !j.manifest.isEmpty then
      let s := s.putJobRec { j with manifest := [] }
      ((s.storeWrite id j.domain j.peer j.mUnit j.manifest).storeFlush id j.domain j.peer).pumpOutbound
    else s

/-- Step 6 of Table 17-8 for one page: Table 4-10 has the event for OPEN and SEALED frames. -/
def State.markCkpt (s : State) (j : Job) (p : JobPage) : State :=
  let e := s.pte j.domain p.vpn
  if (e.st = .bench ∨ e.st = .rack) ∧ e.loc = p.frame ∧ ((s.page p.frame).st = .opened ∨ (s.page p.frame).st = .sealed) then
    s.updPage p.frame (fun x => { x with ckptObj := ckptLoc j.peer p.unit, fCkptCurrent := x.valid == p.valid })
  else s

/-- Table 17-8 step 6. DEDUCED: Log 69. -/
def State.exportPlaced (s : State) (j : Job) : State :=
  let s := (j.pages.foldl (fun s p => s.markCkpt j p) s).unpinJob j
  let new := j.pages.map (fun (p : JobPage) => ckptLoc j.peer p.unit)
  let s := { s with sec := { s.sec with keySets := s.sec.keySets.map (fun (k : Nat × KeySet) =>
    if k.1 = j.set then (k.1, { k.2 with objs := new })
    else if k.2.domain = j.domain then (k.1, { k.2 with objs := k.2.objs.filter (fun o => !new.contains o) })
    else k) } }
  match s.seqRec j.domain j.seq with
  | none => s
  | some r => s.putSeq j.domain j.seq { r with lastSet := j.set, nextStore := j.nextUnit }

/-! ### Overflow export (R236) -/

/-- Domains' PARKED sequences that an overflow export takes, oldest first. -/
def State.overflowSeqs (s : State) (d : Nat) : List Nat :=
  let l := s.kv.seqs.filter (fun (p : (Nat × Nat) × SeqRec) => p.1.1 == d && p.2.st == .parked && p.2.ckptRegion % 256 != 0 && p.2.lastSet != 0 &&
    (s.peer d (p.2.ckptRegion % 256)).any (fun e => e.st == .active))
  (sortBy (fun a b => decide (a.2.parkTime.toNat ≤ b.2.parkTime.toNat)) l).map (·.1.2)

/-- Starts the export of the next sequence that fits its region; none left ends the overflow export. -/
def State.nextOverflow (s : State) (d : Nat) (o : Overflow) : List Nat → State
  | [] => s.setCkpt { s.ckpt with overflow := AL.del d s.ckpt.overflow }
  | q :: qs =>
    match s.seqRec d q with
    | none => State.nextOverflow s d o qs
    | some r => match AL.get r.lastSet s.liveSets with
      | none => State.nextOverflow s d o qs
      | some k => match s.startExport .overflow 0 d q (r.ckptRegion % 256) r.nextStore k.recipient false with
        | .error _ => State.nextOverflow s d o qs
        | .ok (s, j) => s.setCkpt { s.ckpt with overflow := AL.put d { o with todo := qs, job := j.id } s.ckpt.overflow }

/-- An APPEND has failed its reservation: an overflow export starts for its domain when the sequence's policy asks for it.
DEDUCED: Log 32. -/
def State.startOverflow (s : State) (d q : Nat) (x : Result) : State :=
  match s.seqRec d q with
  | none => s
  | some r =>
    if !bitOf r.policy 2 ∨ AL.has d s.ckpt.overflow ∨ x.status ≠ stNoCapacity then s
    else s.nextOverflow d ⟨x.c0 + s.fld (pgBnch 0) 0x144 0 16, [], 0⟩ (s.overflowSeqs d)

/-- Frames of a placed export that may be released: PARKED sequence, SHARE 1, CKPT_CURRENT, no pins (Table 4-10, R107). -/
def State.releasable (s : State) (j : Job) : List (Nat × Nat) :=
  match s.seqRec j.domain j.seq with
  | none => []
  | some r =>
    if r.st ≠ .parked then []
    else (s.seqPtes j.domain r (s.shape j.domain r.shapeId)).filterMap (fun vp =>
      if vp.2.st ≠ .bench ∧ vp.2.st ≠ .rack then none
      else match s.frame vp.2.loc with
        | none => none
        | some x =>
          if (x.cur.st = .opened ∨ x.cur.st = .sealed) ∧ x.cur.share = 1 ∧ x.cur.fCkptCurrent ∧ x.pinCur = 0 ∧ x.pinOld = 0
          then some (vp.1, vp.2.loc) else none)

/-- Overflow release of one page. -/
def State.releaseToStore (s : State) (d vpn f : Nat) : State :=
  let p := s.pte d vpn
  let loc := (s.page f).ckptObj
  (s.setPte d vpn { p with st := .ckpt, loc := loc, shared := false, a := false, fill := false }).lowerShare f

/-- OVERFLOW_RELEASE: every frame of the exported sequence that may be released is; then the next sequence is taken, unless enough are
(R236). -/
def State.overflowRelease (s : State) (id : Nat) : State :=
  match s.jobRec id with
  | none => s
  | some j =>
    if j.kind ≠ .overflow ∨ !j.placed then s
    else match AL.get j.domain s.ckpt.overflow with
      | none => s.dropJobRec id
      | some o =>
        let l := s.releasable j
        let s := l.foldl (fun s x => s.releaseToStore j.domain x.1 x.2) (s.dropJobRec id)
        let o := { o with need := o.need - l.length }
        if o.need = 0 then s.setCkpt { s.ckpt with overflow := AL.del j.domain s.ckpt.overflow }
        else s.nextOverflow j.domain o o.todo

/-- EXPORT_MANIFEST_PLACED: every operation of the job has been answered, the manifest's flush the last. -/
def State.manifestPlaced (s : State) (id : Nat) : State :=
  match s.jobRec id with
  | none => s
  | some j =>
    if (j.kind ≠ .store ∧ j.kind ≠ .overflow) ∨ !(s.jobOps id).isEmpty ∨ !j.manifest.isEmpty ∨ j.placed then s
    else
      let s := s.exportPlaced j
      if j.kind = .overflow then s.putJobRec { j with placed := true }
      else (s.dropJobRec id).finishId j.cmd { status := if j.lost then stPoisoned else stOk, c0 := j.pages.length, c1 := j.kept }

/-- What a job leaves when it ends without success: its operations are taken off and its pins released. A migration's sequence becomes
ACTIVE again (R115); an import leaves its sequence FREE (R428). -/
def State.closeJob (s : State) (j : Job) : State :=
  let s := ((s.jobOps j.id).foldl (fun s o => s.dropOutbound o) (s.dropJobRec j.id)).unpinJob j
  let s := { s with sec := { s.sec with keySets := if j.kind = .store ∨ j.kind = .overflow then AL.del j.set s.sec.keySets else s.sec.keySets } }
  match j.kind with
  | .overflow => (match AL.get j.domain s.ckpt.overflow with
    | some o => s.nextOverflow j.domain o o.todo
    | none => s)
  | .store => s
  | .migrate => match s.seqRec j.domain j.seq with
    | some r => if r.st = SeqState.migrating then s.putSeq j.domain j.seq { r with st := .active } else s
    | none => s
  | .load => match s.seqRec j.domain j.seq with
    | some r => (s.destroySeq j.domain j.seq r).1.sweepSets
    | none => s

/-- A job ends with a status, and so does the command that it serves. -/
def State.failJob (s : State) (id status : Nat) : State :=
  match s.jobRec id with
  | none => s
  | some j =>
    let s := s.closeJob j
    match j.kind with
    | .overflow => s
    | .migrate => s.finishId j.cmd { status := status, c0 := j.pages.countP (fun (p : JobPage) => p.acked) }
    | _ => s.finishId j.cmd { status := status }

/-! ### CKPT_IMPORT (R427, R428) -/

/-- The VPNs of the pages that a record shows OPEN. -/
def openVpns (r : SeqRec) (sh : Shape) : List Nat :=
  (List.range r.layers).flatMap (fun l =>
    let n := r.nextPos.getD l 0
    if n ≤ r.posStart then []
    else
      let k := (locate r sh.T (n - 1)).1
      if (locate r sh.T n).1 = k then (List.range (hgOf r sh)).map (fun g => vpnOf r sh l g k) else [])

/-- Whether the RECORD of a manifest verifies to what its set holds (R62, R77): of a set that this node sealed, the record that it
sealed. -/
def State.recordAs (s : State) (d : Nat) (m : Manifest) : Bool :=
  match (m.sets.head?).bind (fun x => AL.get x.1 s.sec.keySets) with
  | some k => k.domain != d || k.record.all (fun r => { m.seqRec with st := r.st, parkTime := r.parkTime } == r)
  | none => true

/-- The refusals of CKPT_IMPORT (R428). -/
def State.importRefusal (s : State) (d : Nat) (a : ImportD) (m : Manifest) (r : SeqRec) : Option Result :=
  let sh := s.shape d r.shapeId
  let e := s.peer d a.peerIndex
  firstFail [
    (decide (a.nEnv = 0 ∨ 16 < a.nEnv), badDescriptor),
    (!(e.any (fun e => e.st == .active)), { status := stRegionRevoked }),
    (!(e.any (fun e => bitOf e.rights 0)), { status := stAccess }),
    (m.status != stOk, { status := m.status }),
    (!s.recordAs d m, { status := stAuthFailed }),
    ((s.seqRec d a.dstSeq).isSome || !s.rangeOk d r.baseVpn (rangeLen r.layers r.kvHeads r.pmaxLog2 sh) r.pmaxLog2 ||
      !shapeValid (s.shapeW d r.shapeId), badDescriptor),
    (decide (65536 < s.liveSets.length + m.sets.countP (fun x => !AL.has x.1 s.liveSets)), { status := stNoCapacity })]

/-- Creates the sequence of a manifest: record, level tables, one CHECKPOINT entry for each page (R428). PACKED follows the record and the
shape until a fill brings the form of the object (R429). -/
def State.importMap (s : State) (d ctx : Nat) (a : ImportD) (m : Manifest) (r : SeqRec) : Option State :=
  let sh := s.shape d r.shapeId
  let part := s.partOf ctx
  let vpn (v : Nat) := v - m.seqRec.baseVpn + r.baseVpn
  if s.rquota d < s.rused d + r.recordBytes / 256 then none
  else match s.placeRecord d a.dstSeq ctx r.recordBytes with
    | none => none
    | some s =>
      let s := (s.charge d (r.recordBytes / 256)).putSeq d a.dstSeq r
      match s.reserve d (some part) (m.pages.map (fun p =>
          let pt := placeOf r sh (vpn p.1)
          ⟨vpn p.1, frameStart a.dstSeq pt.layer pt.hg (hgOf r sh) pt.k, none, false, 0⟩)) with
      | .error _ => none
      | .ok (s, _) => some (m.pages.foldl (fun (s : State) p =>
          let shut := !(openVpns r sh).contains (vpn p.1)
          s.setPte d (vpn p.1) ⟨.ckpt, false, true, false, shut, shut && sh.crumb != 0, false, m.lost.contains p.1, ckptLoc a.peerIndex p.2⟩) s)

/-- The end of an import: the least NEXT_POS, and the pages mapped. -/
def importResult (r : SeqRec) (n : Nat) : Result := { status := stOk, c0 := r.nextPos.foldl min (r.nextPos.headD 0), c1 := n }

/-- Enters a set of a manifest in the key table (R428); a set that the node has keeps its recipient. DEDUCED: Log 69. -/
def State.enterSet (d peer : Nat) (m : Manifest) (x : Nat × List Nat) (l : AL Nat KeySet) : AL Nat KeySet :=
  let objs := (m.pages.filter (fun p => x.2.contains p.1)).map (fun p => ckptLoc peer p.2)
  AL.put x.1 (match AL.get x.1 l with
    | some k => { k with objs := k.objs ++ objs, lost := false }
    | none => ⟨d, [], objs, [], none, false⟩) l

/-- CKPT_IMPORT. A second run, after its fills, ends it. -/
def State.doImport (s : State) (c : Cmd) (a : ImportD) (m : Manifest) : OpRes :=
  let d := c.hdr.domain
  match s.jobOfCmd c.id with
  | some j => .done (s.dropJobRec j.id) { status := stOk, c0 := j.c0, c1 := j.c1 }
  | none => match s.input c.src d a.dataAddr (a.nEnv * 256) c.data with
    | .error x => .done s x
    | .ok _ =>
      let r := { m.seqRec with
        st := if c.hdr.flag 1 then .parked else .active
        baseVpn := if a.baseVpn = 0xFFFFFFFF then m.seqRec.baseVpn else a.baseVpn
        parkTime := if c.hdr.flag 1 then BitVec.ofNat 64 s.nrt else m.seqRec.parkTime }
      match s.importRefusal d a m r with
      | some x => .done s x
      | none => match s.importMap d c.hdr.context a m r with
        | none => .done s { status := stNoCapacity }
        | some s1 =>
          let sh := s1.shape d r.shapeId
          let s1 := { s1 with sec := { s1.sec with keySets := m.sets.foldl (fun l x => State.enterSet d a.peerIndex m x l) s.liveSets } }
          let part := s1.partOf c.hdr.context
          let wanted := if c.hdr.flag 0 then s1.ckptPages d r sh
            else (openVpns r sh).filter (fun v => (s1.pte d v).st == .ckpt && !(s1.pte d v).poison)
          let f := s1.fillAll (fun s v k => s.startFill d part v k) (wanted.map (fun v =>
            let p := placeOf r sh v
            (v, frameStart a.dstSeq p.layer p.hg (hgOf r sh) p.k)))
          match f.2 with
          | some (st, u) => .done s (if st = stNoCapacity then s.noCapacity d u else { status := st })
          | none =>
            let x := importResult r m.pages.length
            if wanted.isEmpty then .done f.1 x
            else
              let id := f.1.ckpt.next
              let s := f.1.setCkpt { f.1.ckpt with next := id + 1 }
              .wait (s.putJobRec ⟨id, .load, c.id, d, a.dstSeq, a.peerIndex, 0, [], [], 0, false, [], 0, 0, false, x.c0, x.c1⟩)
                (.fills (wanted.map (fun v => (d, v))) s.nrt) 0

/-! ### SEQ_MIGRATE (R115) -/

/-- The pages of a sequence that a migration sends: those that are not at a peer already. -/
def State.movePages (s : State) (d : Nat) (r : SeqRec) (sh : Shape) : List (Nat × Pte) :=
  (s.seqPtes d r sh).filter (fun vp => vp.2.st != .invalid && vp.2.st != .peer)

/-- Whether a page of a list cannot be sent: its entry or its frame is lost. -/
def State.movesLost (s : State) (d : Nat) (l : List (Nat × Pte)) : Bool :=
  l.any (fun vp => vp.2.poison || s.walkLost d vp.1 || ((vp.2.st == .bench || vp.2.st == .rack) && (s.page vp.2.loc).st == .poisoned))

/-- Queues the record and every page of a sequence for its target, each page pinned (R104), and completes a migration without pages. -/
def State.sendMoves (s : State) (j : Job) (k : Conn) (r : SeqRec) (l : List (Nat × Pte)) : OpRes :=
  let d := j.domain
  let sh := s.shape d r.shapeId
  let pages : List JobPage := l.map (fun vp => ⟨vp.1, vp.2.loc, (s.page vp.2.loc).fPacked, (s.page vp.2.loc).valid, 0, false⟩)
  let e := s.ownEpoch k
  let send (s : State) (b : List Byte) : State := s.queueOutbound ⟨.job j.id, connId k, false, 0, 0, none, leBytes 12 0 ++ leBytes 4 e.toNat ++ b, false⟩
  let s := send (s.putJobRec { j with pages := pages }) (objectOf 1 0 j.set 0 d j.seq 0 r.recordBytes (seqRecord s d j.seq r))
  let s := pages.zipIdx.foldl (fun (s : State) p =>
    send ((s.sendBursts p.1.frame).pin p.1.frame) (s.pageObject j.set (p.2 + 1) d j.seq p.1.vpn p.1.frame sh)) s
  if pages.isEmpty then .done ((s.putSeq d j.seq { r with st := .moved, peerSlot := j.peer }).dropJobRec j.id).pumpOutbound { status := stOk }
  else .wait s.pumpOutbound .migration 0

/-- Goes on with a migration whose sequence is MIGRATING: CHECKPOINT pages are filled, the others are read, and all are sent. Lost content
ends it. DEDUCED: Log 31. -/
def State.goMigrate (s : State) (c : Cmd) (j : Job) (conn : Nat) : OpRes :=
  let d := j.domain
  match s.seqRec d j.seq, s.connOf conn with
  | some r, some k =>
    let sh := s.shape d r.shapeId
    let l := s.movePages d r sh
    let need := l.filter (fun vp => vp.2.st == .ckpt)
    if s.movesLost d l then .done s { status := stPoisoned }
    else if !need.isEmpty then s.awaitFills d (s.partOf c.hdr.context) (need.map (fun vp =>
      let p := placeOf r sh vp.1
      (vp.1, frameStart j.seq p.layer p.hg (hgOf r sh) p.k)))
    else
      let (s, lost) := s.readAll (l.map (·.2.loc)) 5
      if lost || s.movesLost d l then .done s { status := stPoisoned } else s.sendMoves j k r l
  | some _, none => .done s { status := stTimeout }
  | none, _ => .done s badDescriptor

/-- SEQ_MIGRATE (R115): the sequence is MIGRATING from its first run on, while its CHECKPOINT pages are filled and its pages travel. A
page that is lost beforehand ends it with no effect. DEDUCED: Log 31. -/
def State.doMigrate (s : State) (c : Cmd) (a : MigrateD) : OpRes :=
  let d := c.hdr.domain
  match s.jobOfCmd c.id with
  | some j => s.goMigrate c j a.conn
  | none => match s.seqRec d a.seq with
    | none => .done s badDescriptor
    | some r => match lifeRefusal false (some r), s.connOf a.conn with
      | some x, _ => .done s x
      | none, none => .done s { status := stAccess }
      | none, some k =>
        if k.domain ≠ d then .done s { status := stAccess }
        else if s.movesLost d (s.movePages d r (s.shape d r.shapeId)) then .done s { status := stPoisoned }
        else
          let id := s.ckpt.next
          let set := (Config.randomKey s.fresh).toNat % 2 ^ 128
          let j : Job := ⟨id, .migrate, c.id, d, a.seq, a.targetSlot, set, [], [], 0, false, [], 0, 0, false, 0, 0⟩
          let s := (s.nextFresh.setCkpt { s.ckpt with next := id + 1 }).putJobRec j
          ((s.putSeq d a.seq { r with st := .migrating }).bumpChange d a.seq).goMigrate c j a.conn

/-- MIGRATE_PAGE_ACK: the source entry becomes PEER; after the last page the sequence is MOVED. -/
def State.migrateAck (s : State) (id vpn : Nat) : State :=
  match s.jobRec id with
  | none => s
  | some j =>
    if j.kind ≠ .migrate then s
    else match j.pages.find? (fun p => p.vpn == vpn && !p.acked) with
      | none => s
      | some p =>
        let s := s.setPte j.domain vpn { Pte.invalid with st := .peer, loc := j.peer }
        let s := (s.lowerShare p.frame).unpinForm p.frame p.packed
        let pages := j.pages.map (fun x => if x.vpn = vpn then { x with acked := true } else x)
        if pages.all (·.acked) then
          let s := (s.jobOps id).foldl (fun s o => s.dropOutbound o) (s.dropJobRec id)
          let s := match s.seqRec j.domain j.seq with
            | some r => s.putSeq j.domain j.seq { r with st := .moved, peerSlot := j.peer }
            | none => s
          s.finishId j.cmd { status := stOk, c0 := pages.length }
        else s.putJobRec { j with pages := pages }

/-- The target's answer to an object (R115): a completion that names no tag. DEDUCED: Log 31. -/
def State.answerObject (s : State) (conn msgId status : Nat) : State :=
  let e : Word := match s.conn conn with | some k => s.ownEpoch k | none => 0
  (s.freeReq conn msgId).respond conn msgId e ⟨0, status, 0x24, 0, 0, 0, 0, 0, 0⟩ false []

/-- INCOMING_MIGRATION: a record creates the sequence, a page lands in a FILLING frame, each verified as for CKPT_IMPORT.
DEDUCED: Log 31. -/
def State.migrationIn (s : State) (conn msgId : Nat) (o : MigObj) : State :=
  if s.nodeFenced then s
  else match o with
  | .record d q ok r =>
    let sh := s.shape d r.shapeId
    if !ok then s.answerObject conn msgId stAuthFailed
    else if (s.seqRec d q).isSome ∨ !s.rangeOk d r.baseVpn (rangeLen r.layers r.kvHeads r.pmaxLog2 sh) r.pmaxLog2 ∨ !shapeValid (s.shapeW d r.shapeId) then
      s.answerObject conn msgId stBadDescriptor
    else if s.rquota d < s.rused d + r.recordBytes / 256 then s.answerObject conn msgId stNoCapacity
    else match (s.walkChannels ((q * 0x9E37 + d) % 384) none).findSome? (fun c => (s.allocMeta c d (r.recordBytes / 2048)).map (fun x => (x.1, c, x.2))) with
      | none => s.answerObject conn msgId stNoCapacity
      | some (s, c, half) =>
        let s := s.setKv { s.kv with seqLoc := AL.put (d, q) (c, half) s.kv.seqLoc }
        ((s.charge d (r.recordBytes / 256)).putSeq d q { r with st := .active }).answerObject conn msgId stOk
  | .page d q vpn ok content =>
    match s.seqRec d q with
    | none => s.answerObject conn msgId stBadDescriptor
    | some r =>
      if !ok then s.answerObject conn msgId stAuthFailed
      else if (s.pte d vpn).st ≠ .invalid ∨ (s.seqAt d vpn).map (·.1) ≠ some q then s.answerObject conn msgId stBadDescriptor
      else
        let pt := placeOf r (s.shape d r.shapeId) vpn
        let sh := s.shape d r.shapeId
        let p := { content with shapeId := r.shapeId, fCkptCurrent := false, ckptObj := 0 }
        match s.reserve d none [⟨vpn, frameStart q pt.layer pt.hg (hgOf r sh) pt.k, none, true, if p.fPacked then sh.slotBytes else 0⟩] with
        | .error _ => s.answerObject conn msgId stNoCapacity
        | .ok (s, gs) => match gs with
          | [] => s.answerObject conn msgId stNoCapacity
          | g :: _ =>
            let blank := placeAt g { Page.blank with st := FState.filling, domain := d, vpn := vpn, seq := q, gen := 1, shapeId := r.shapeId }
            let s := s.putFrame ⟨g.frame, blank, blank, none, 0, 0, 0, 0⟩
            let t := frameTile g.frame
            let s := match s.takeLine t (frameSet g.frame) g.frame (b2n p.fPacked) .staging 0 d with
              | some s => s
              | none => s.noLine t
            match s.landContent d vpn q 0 g.frame p with
            | some s => s.answerObject conn msgId stOk
            | none => (s.freeFrame g.frame).answerObject conn msgId stNoCapacity

end Sys2Proof.Machine
end

