-- ==== Sys2Proof/Machine/Paths.lean ====
section
/-!
DEFINITION. Timers, refusals and paths of connections, and the end of a connection (R312, R313, R317, R322, R325, R327,
R328, R330, R331), with the answers of R301.
-/

namespace Sys2Proof.Machine

/-- ACK_DELAY (R327): an ACK is sent once the oldest unacknowledged DATA packet is ACK.DELAY_US old. -/
def State.ackDelayed (s : State) (conn : Nat) : State :=
  match s.conn conn with
  | none => s
  | some c => if c.rxSince ≠ 0 ∧ c.rxOldest + s.ackDelay ≤ s.nrt then s.sendAck c else s

/-- RECV_BUSY from the receiver (R322): the message stops until the hint has passed. -/
def State.recvBusyIn (s : State) (conn msgId : Nat) (lane : Lane) (hintUs : Nat) : State :=
  match s.conn conn with
  | none => s
  | some c => s.setConn { c with
      msgs := c.msgs.map (fun m => if m.lane = lane ∧ m.msgId = msgId then { m with heldTill := s.nrt + usTicks hintUs } else m)
      resend := c.resend.filter (fun r => !(r.1 == lane && r.2.1 == msgId)) }

/-- RECV_BUSY_RETRY (R322): every packet of the message not yet acknowledged is sent again, under new PSNs; the resends do
not count toward RETX_MAX. -/
def State.recvBusyAgain (s : State) (conn msgId : Nat) (lane : Lane) : State :=
  match s.conn conn with
  | none => s
  | some c =>
    match c.msgs.find? (fun m => m.lane == lane && m.msgId == msgId) with
    | none => s
    | some m =>
      if m.heldTill = 0 ∨ s.nrt < m.heldTill then s
      else
        let todo := (offsetsOf m.bytes.length).filter (fun o => !m.acked.contains o && decide (o < m.next))
        let c := { c with
          unacked := c.unacked.filter (fun p => !(p.lane == lane && p.msgId == msgId))
          msgs := c.msgs.map (fun x => if x.lane = lane ∧ x.msgId = msgId then { x with heldTill := 0 } else x)
          resend := c.resend ++ todo.map (fun o => (lane, msgId, o)), backoff := 0 }
        (s.setConn c).bump pgXprt 0x134 todo.length

/-- REASM_TIMEOUT (R325): an idle incomplete message is freed with its slots, and ABANDON is sent. -/
def State.reasmExpired (s : State) (conn msgId : Nat) (lane : Lane) : State :=
  match s.conn conn with
  | none => s
  | some c =>
    if c.inMsgs.any (fun m => m.lane == lane && m.msgId == msgId && !m.complete && decide (m.lastAt + s.reasmMs ≤ s.nrt)) then
      s.abandonMsg c lane msgId 1
    else s

/-- PATH_PROBE (R330): the path is known, if there is room for it, and the probe is answered. -/
def State.probeIn (s : State) (conn path : Nat) (src : Path) : State :=
  match s.conn conn with
  | none => s
  | some c =>
    let c := addPath c src.port src.sub src.peerAddr src.udpPort s.nrt
    (s.setConn { c with usedAt := s.nrt }).sendCtl conn (.probeReply path (pathOf c src.port src.sub src.peerAddr src.udpPort))

/-- PATH_REPLY (R330): the path goes UP. -/
def State.probeAnswered (s : State) (conn path : Nat) : State :=
  match s.conn conn with
  | none => s
  | some c => s.setConn { c with paths := c.paths.zipIdx.map (fun (q, j) =>
      if j = path then { q with up := true, probes := 0, probeAt := s.nrt } else q) }

/-- Whether a sublink has link. -/
def State.linkUp (s : State) (port sub : Nat) : Bool := s.fld (pgPort port) 0x104 (4 + sub) 1 == 1

/-- PROBE_TIMER (R330, Table 13-12): after PROBE.US a probe is sent on an idle or DOWN path; after three unanswered ones the path goes
DOWN. -/
def State.probeTick (s : State) (conn path : Nat) : State :=
  match s.conn conn with
  | none => s
  | some c => match c.paths[path]? with
    | none => s
    | some q =>
      if s.nrt < q.probeAt + s.probeUs ∨ (q.up = false ∧ s.linkUp q.port q.sub = false) ∨
        (q.up = true ∧ q.probes < 3 ∧ c.unacked.any (fun k => k.path == path)) then s
      else
        let (c, n) := if q.up && decide (3 ≤ q.probes) then downPath c path s.nrt else (c, 0)
        let c := { c with paths := c.paths.zipIdx.map (fun (x, j) =>
          if j = path then { x with probes := x.probes + 1, probeAt := s.nrt } else x) }
        ((s.setConn c).sendCtl conn (.probe path)).bump pgXprt 0x134 n

/-- SUBLINK_LINK_LOSS (R331): every path on the sublink goes DOWN, and its packets are resent at once. -/
def State.sublinkLost (s : State) (port sub : Nat) : State :=
  if !s.linkUp port sub then s
  else
    let hit (c : Conn) := (c.paths.zipIdx.filter (fun q => q.1.port == port && q.1.sub == sub && q.1.up)).map (·.2)
    let n := s.net.conns.foldl (fun n (_, c) => n + (hit c).length) 0
    let re := s.net.conns.foldl (fun n (_, c) => n + c.unacked.countP (fun p => (hit c).contains p.path)) 0
    let s := { s with net := { s.net with conns := s.net.conns.map (fun (k, c) =>
      (k, (hit c).foldl (fun c i => (downPath c i s.nrt).1) c)) } }
    let s := ((s.setFld (pgPort port) 0x104 (4 + sub) 1 0).setFld (pgPort port) 0x104 (2 + sub) 1 0).bump pgXprt 0x134 re
    (s.logErr (pgPort port) 2 sub n).setIrq (pgPort port) 1

/-- PORT_LINK_UP (R330): link and FEC lock; the sublink's DOWN paths are probed from now on. -/
def State.sublinkUp (s : State) (port sub : Nat) : State :=
  let s := (s.setFld (pgPort port) 0x104 (4 + sub) 1 1).setFld (pgPort port) 0x104 (2 + sub) 1 1
  let wake (c : Conn) : Conn := { c with
    paths := c.paths.map (fun q => if q.port = port ∧ q.sub = sub ∧ q.up = false then { q with probeAt := 0, probes := 0 } else q) }
  let s := { s with net := { s.net with conns := s.net.conns.map (fun (kc : Nat × Conn) => (kc.1, wake kc.2)) } }
  s.setIrq (pgPort port) 1

/-- CONN_FETCH_DONE (R317): the state is cached, the least recently used one leaves a full cache, and the waiting packets go
on in order of arrival. -/
def State.connFetched (s : State) (conn : Nat) : State :=
  match s.conn conn with
  | none => s
  | some c =>
    if !c.fetching then s
    else
      let cachedNow := s.net.conns.filter (fun k => k.2.cached)
      let s := if cachedNow.length < 8192 then s
        else match cachedNow with
          | [] => s
          | k :: ks =>
            let v := ks.foldl (fun b x => if x.2.usedAt < b.2.usedAt then x else b) k
            s.setConn { v.2 with cached := false }
      let s := s.setConn { c with cached := true, fetching := false, usedAt := s.nrt }
      let wait := s.net.parked.filter (fun p => p.index == c.index)
      let s := { s with net := { s.net with parked := s.net.parked.filter (fun p => p.index != c.index) } }
      (wait.foldl (fun s p => match s.conn p.index with
        | none => s
        | some c => s.dataCached c p) s).startFetches

/-- CLOSE received (R312): from here on the packets of a request are answered with ABANDON. A request that is complete by then
is still admitted. DEDUCED: Log 67. -/
def State.closeIn (s : State) (conn : Nat) : State :=
  match s.conn conn with
  | none => s
  | some c => s.setConn { c with closing := true }

/-- Once a closing connection has no admitted command, no request that still waits for admission and no message left to send,
CLOSE_ACK is sent (R312). -/
def State.tryCloseAck (s : State) (conn : Nat) : State :=
  match s.conn conn with
  | none => s
  | some c =>
    let busy := s.cmds.list.any (fun k => match k.src with | .conn x _ => x == c.index | .ring _ => false)
    let waits := c.inMsgs.any (fun m => m.lane == .request && m.complete)
    if c.closing && !c.ownClose && c.closeAck.isNone && !busy && !waits && c.msgs.isEmpty then
      let id := AL.getD Lane.control 0 c.nextMsg
      s.sendMsg { c with closeAck := some id } .control 0 (leBytes 4 3)
    else s

/-- A closing connection whose CLOSE_ACK is acknowledged is freed (R312). -/
def State.tryFree (s : State) (conn : Nat) : State :=
  match s.conn conn with
  | none => s
  | some c => match c.closeAck with
    | none => s
    | some id => if c.msgs.any (fun m => m.lane == .control && m.msgId == id) then s else s.freeConn c

/-- What a retransmission timeout leads to (R312, R313, R328): the path goes DOWN, RATE halves, and the packet is resent; the
connection dies after RETX_MAX timeouts in a row, and a CLOSE_ACK is given up after RETX_MAX resends. -/
inductive RtoEnd where | none | resent | dead | freed
  deriving DecidableEq, Repr

def State.rtoExpired (s : State) (conn psn : Nat) : State × RtoEnd :=
  match s.conn conn with
  | none => (s, .none)
  | some c => match c.unacked.find? (fun p => p.psn == psn && decide (p.sentAt + s.rto c ≤ s.nrt)) with
    | none => (s, .none)
    | some p =>
      let tries := c.closeTries + b2n (p.lane == .control && c.closeAck == some p.msgId)
      let c := { c with backoff := c.backoff + 1, rate := max s.minRate (c.rate / 2), closeTries := tries }
      if s.retxMax ≤ tries then (s.freeConn c, .freed)
      else if s.retxMax ≤ c.backoff then
        (((s.freeConn c).bump pgXprt 0x14C 1).setIrq pgXprt 8, .dead)
      else
        let (c, n) := resendPkts c (fun x => x.psn == psn)
        let (c, m) := downPath c p.path s.nrt
        ((s.setConn c).bump pgXprt 0x134 (n + m), .resent)

/-- ARP, Neighbor Solicitation and echo for the node's own address (R301): the answer is a frame sent. -/
def State.ownAddress (s : State) (port sub kind dst : Nat) : Bool :=
  let ip6 := (List.range 4).foldl (fun a i => a * 2 ^ 32 + (s.regI (pgPort port) (0x114 + 4 * i) sub).toNat) 0
  let ip4 := (s.regI (pgPort port) 0x124 sub).toNat
  let v4 := kind == 0 || kind == 2
  if v4 then s.fld (pgPort port) 0x100 0 1 == 1 && dst == ip4 else dst == ip6

end Sys2Proof.Machine
end

