-- ==== Sys2Proof/Machine/Abort.lean ====
section
/-!
DEFINITION. Ends of connections (R312, R313), ABORT (R289 to R294), FENCE (R295).
-/

namespace Sys2Proof.Machine

/-! ### Fills that fail -/

/-- Ends an admitted command, before its fragments run, with a status: through its partial, its job, or directly. -/
def State.failWait (s : State) (c : Cmd) (status n : Nat) : State :=
  if (s.job c.id).isSome then s.attnFail c.id status
  else match s.jobOfCmd c.id with
    | some j => s.failJob j.id status
    | none => s.finishHeld c { status := status, c0 := n }

def Cmd.awaitsFill (d v : Nat) (c : Cmd) : Bool := match c.wait with | .fills ps _ => ps.contains (d, v) | _ => false

/-- DEMAND_FILL_FAILS (Table 4-10): the frame is free, and the commands that wait complete with ST_POISONED. -/
def State.fillLost (s : State) (d v : Nat) : State :=
  if (s.fillOf d v).isNone then s
  else (s.cmds.list.filter (Cmd.awaitsFill d v)).foldl (fun (s : State) c => match s.cmd c.id with
    | none => s
    | some c => s.failWait c stPoisoned 0) (s.failFill d v)

/-- DEMAND_FILL_LANDS: the content is placed, or the fill fails (R429). -/
def State.fillLands (s : State) (d v : Nat) (content : Page) : State := (s.landFill d v content).getD (s.fillLost d v)

/-- FILL_TIMEOUT (R108). -/
def State.fillTimeout (s : State) (id : Nat) : State :=
  match s.cmd id with
  | none => s
  | some c => match c.wait with
    | .fills _ t => if t + msTicks (min 10000 (max 1 (s.fld pgXlat 0x104 0 14))) ≤ s.nrt then s.failWait c stTimeout 0 else s
    | _ => s

/-- VICTIM_WAIT_TIMEOUT (R228, Table 10-2): the allocation has failed, which raises NOLINE if nothing has yet. -/
def State.victimTimeout (s : State) (id : Nat) : State :=
  match s.cmd id with
  | none => s
  | some c => match c.wait with
    | .victim k t raised _ => if t + usTicks 20 ≤ s.nrt then (if raised then s else s.noLine k).failWait c stBusy 100 else s
    | _ => s

/-! ### Connections that end -/

/-- An outbound operation ends with a status at its initiator. -/
def State.endOut (s : State) (status : Nat) (o : Outbound) : State :=
  let s := s.dropOutbound o
  match o.who with
  | .cmd i => if o.abandoned then s else s.finishId i { status := status }
  | .fill d v => s.fillLost d v
  | .job i => s.failJob i status

/-- The node's own operations on a connection that is gone complete with ST_TIMEOUT, and partials it was to carry are lost
(R313). DEDUCED: Log 36. -/
def State.connGone (s : State) (c : Conn) : State :=
  let s := (s.net.outbound.filter (fun o => o.conn == connId c)).foldl (fun (s : State) o => s.endOut stTimeout o) s
  (s.eng.jobs.filter (fun (p : Nat × AttnJob) => p.2.record.isSome && p.2.sentOn == c.index)).foldl (fun (s : State) p => s.decided p.1 stTimeout 0) s

/-- Frees a connection and ends what waited on it. -/
def State.endConn (s : State) (c : Conn) : State := (s.freeConn c).connGone c

/-- When a step has freed a connection, ends what waited on it. `old` is the state before. -/
def State.noteGone (old s : State) (i : Nat) : State :=
  match old.conn i, s.conn i with
  | some c, none => s.connGone c
  | _, _ => s

/-- The node closes a connection: CLOSE is sent, and it is freed when CLOSE_ACK comes (R312). -/
def State.startClose (s : State) (i : Nat) : State :=
  match s.conn i with
  | none => s
  | some c => if c.closing then s else s.sendMsg { c with closing := true, ownClose := true } .control 0 (leBytes 4 2)

/-- CLOSE_ACK (R312): a connection that the node closed is freed. -/
def State.closeAcked (s : State) (i : Nat) : State :=
  match s.conn i with
  | none => s
  | some c => if c.ownClose then s.endConn c else s

/-! ### Ending admitted commands -/

/-- Gives back the pins of pages that wait for fragment slots. -/
def State.unpinTodo (s : State) (i : Nat) : State :=
  match s.job i with
  | none => s
  | some j =>
    let s := j.todo.foldl (fun (s : State) p => p.pages.foldl (fun (s : State) g => s.unpinForm g.frame g.packed) s) s
    match s.job i with
    | none => s
    | some j => s.putJob { j with todo := [] }

/-- Takes the fragments of a command out: those that no engine holds at once, those that an engine runs when it stops, or, with
`now`, all of them (Table 12-5 step 2). -/
def State.dropFrags (s : State) (i : Nat) (now : Bool) : State :=
  (s.eng.frags.filter (fun (p : Nat × Frag) => p.2.cmd == i)).foldl (fun (s : State) p =>
    match s.frag p.1 with
    | none => s
    | some f =>
      let out (s : State) : State := (s.unpinPages f).removeFrag f
      match f.st with
      | .running e => if now then out s else s.putFrag { f with st := .killing e }
      | .stopping e => if now then out s else s.putFrag { f with st := .killing e }
      | .killing _ => if now then out s else s
      | _ => out s) (s.unpinTodo i)

def State.hasFrags (s : State) (i : Nat) : Bool := s.eng.frags.any (fun (p : Nat × Frag) => p.2.cmd == i)

/-- An attention command whose fragments are gone ends: its anchored context forwards the status, or its one partial carries it
(R155, R291). -/
def State.endDying (s : State) (c : Cmd) (status : Nat) : State :=
  match s.job c.id with
  | none => s.finish c { status := status }
  | some j =>
    let s := match j.anchored with
      | some k => s.killCtx k status
      | none => if j.record.isSome then s else s.attnEnd c.id status
    match s.cmd c.id, s.job c.id with
    | some c, some j => s.endAttn c j status
    | some c, none => s.finish c { status := status }
    | none, _ => s

/-- Ends one admitted command with a status, at once or when its units have stopped (Tables 12-5, 12-7). DEDUCED: Log 51. -/
def State.abortCmd (s : State) (c : Cmd) (status : Nat) (now : Bool) : State :=
  match c.op with
  | .abort _ => s
  | .attnFwd _ | .attnBwd _ =>
    let s := s.dropFrags c.id now
    if s.hasFrags c.id then s.setCmd { c with wait := .dying status } else s.endDying c status
  | .waitWord d => match c.wait with
    | .word _ _ => s.endWord c d { status := status }
    | _ => s.finish c { status := status }
  | .rmaRead _ | .rmaWrite _ | .rmaAdd _ | .rmaCas _ | .rmaFlush _ =>
    -- sent operations are abandoned, the others taken off
    let mine := s.net.outbound.filter (fun o => o.who == .cmd c.id)
    let s := mine.foldl (fun (s : State) o => if o.sent then s.setNet { s.net with outbound := s.net.outbound.map (fun x =>
        if x.who = .cmd c.id then { x with abandoned := true } else x) } else s.dropOutbound o) s
    s.finish c { status := status }
  | .ckptExport _ | .ckptImport _ | .seqMigrate _ => match s.jobOfCmd c.id with
    | some j => s.failJob j.id status
    | none => s.finish c { status := status }
  | _ => s.finishHeld c { status := status, c0 := c.c0, c1 := c.c1 }

/-! ### ABORT -/

/-- Whether an ABORT covers a command (Tables 12-4, 12-6). -/
def State.covers (s : State) (a : AbortD) (c : Cmd) : Bool :=
  match c.op with
  | .abort _ => false
  | _ => match a.scope with
    | 0 => c.hdr.context == a.targetContext && c.hdr.tag == a.targetTag
    | 1 => c.hdr.context == a.targetContext
    | 2 => c.hdr.domain == a.targetDomain
    | 3 => s.partOf c.hdr.context == a.targetPartition
    | _ => true

/-- Bound of a scope in µs (Table 12-6). -/
def abortBoundUs (scope : Nat) : Nat :=
  match scope with | 0 => 20 | 1 => 200 | 2 => 2000 | 3 => 5000 | _ => 20000

/-- R290. -/
def State.abortRefusal (s : State) (h : Hdr) (src : Source) (a : AbortD) : Option Result :=
  let ring := match src with | .ring _ => true | .conn _ _ => false
  firstFail [
    (decide (4 < a.scope), badDescriptor),
    ((a.scope == 0 || a.scope == 1) && !(AL.get a.targetContext s.cmds.ctxs).any (fun c => c.domain == h.domain), { status := stAccess }),
    (a.scope == 2 && a.targetDomain != h.domain, { status := stAccess }),
    (decide (3 ≤ a.scope) && !ring, { status := stAccess })]

/-- Abort notices of a DOMAIN scope (Table 13-8). DEDUCED: Log 63. -/
def State.abortNotices (s : State) (d : Nat) (tag : Word) : State :=
  (s.net.conns.filter (fun (p : Nat × Conn) => p.2.domain == d && !p.2.closing)).foldl (fun (s : State) p =>
    match s.conn p.1 with
    | none => s
    | some c => s.sendMsg c .control 0 (leBytes 4 1 ++ leBytes 2 d ++ leBytes 2 0 ++ leBytes 4 tag.toNat)) s

/-- Merge and reassembly contexts that the wider scopes free (Tables 7-4, 12-6). -/
def State.abortMerge (s : State) (a : AbortD) : State :=
  match a.scope with
  | 2 => (s.eng.merge.filter (fun (p : MergeKey × MergeCtx) => p.1.domain == a.targetDomain && p.2.st == .opened)).foldl
      (fun (s : State) p => s.killCtx p.1 stAborted) s
  | 4 =>
    -- one whose anchor is still being stopped forwards first
    let s := s.setEng { s.eng with merge := s.eng.merge.filter (fun (p : MergeKey × MergeCtx) =>
      p.2.st == .anchored && p.2.anchor.any (fun i => (s.cmd i).isSome)) }
    s.setNet { s.net with conns := s.net.conns.map (fun (p : Nat × Conn) => (p.1, { p.2 with inMsgs := p.2.inMsgs.filter (·.complete) })) }
  | _ => s

/-- An ABORT whose covered commands have all completed completes, and its hold ends (R291, R292). -/
def State.settleAbort (s : State) (id : Nat) : State :=
  match s.cmd id with
  | none => s
  | some c => match c.wait with
    | .aborting ids _ =>
      if ids.any (fun i => (s.cmd i).isSome) then s
      else
        let s := { s with cmds := { s.cmds with holds := s.cmds.holds.filter (fun k => k.cmd != id) } }
        let s := match c.op with | .abort a => if a.scope = 4 then s.abortMerge a else s | _ => s
        s.finish c { status := stOk, c0 := c.c0, c1 := c.c1 }
    | _ => s

/-- Every ABORT that waits is looked at. -/
def State.settleAborts (s : State) : State :=
  (s.cmds.list.filter (fun c => match c.wait with | .aborting _ _ => true | _ => false)).foldl (fun (s : State) c => s.settleAbort c.id) s

/-- ABORT (R291): takes effect at its admission. -/
def State.doAbort (s : State) (c : Cmd) (a : AbortD) : OpRes :=
  match s.abortRefusal c.hdr c.src a with
  | some x => .done s x
  | none =>
    let mine := s.cmds.list.filter (fun x => x.id != c.id && s.covers a x)
    let n := mine.countP (fun x => match x.wait with | .dying _ => false | _ => true)
    let s := mine.foldl (fun (s : State) x => match x.wait with
      | .dying _ => s
      | _ => match s.cmd x.id with | some y => s.abortCmd y stAborted false | none => s) s
    let s := if a.scope = 2 then s.abortNotices a.targetDomain c.hdr.tag else s
    let s := s.abortMerge a
    let left := (mine.map (·.id)).filter (fun i => (s.cmd i).isSome)
    if left.isEmpty then .done s { status := stOk, c0 := n }
    else
      let till := s.nrt + usTicks (abortBoundUs a.scope)
      let target := if a.scope = 2 then a.targetDomain else a.targetPartition
      let s := if 2 ≤ a.scope then { s with cmds := { s.cmds with holds := s.cmds.holds ++ [⟨c.id, a.scope, target, till⟩] } } else s
      .wait s (.aborting left till) n

/-- A dying command whose last fragment has stopped ends. -/
def State.settleDying (s : State) (i : Nat) : State :=
  match s.cmd i with
  | none => s
  | some c => match c.wait with
    | .dying st => if s.hasFrags i then s else (s.endDying c st).settleAborts
    | _ => s

/-- FRAGMENT_KILL: a killed fragment reruns (R285), but that of an aborted command is gone. One whose command has ended before it runs on
(R176). -/
def State.fragKilled (s : State) (i : Nat) : State :=
  match s.frag i with
  | none => s
  | some f => match f.st with
    | .killing _ => match s.cmd f.cmd with
      | some c => match c.wait with
        | .dying _ => ((s.unpinPages f).removeFrag f).settleDying f.cmd
        | _ => s.killFrag i
      | none => if (s.job f.cmd).isSome then s.killFrag i else (s.unpinPages f).removeFrag f
    | _ => s

/-- Ends the commands of an ABORT at its bound (R293): the engines, of those named as page numbers, that still hold their work are fenced,
and the commands that they held complete with ST_HW_FAULT. Answers how many are fenced. -/
def State.endAtBound (s : State) (ids units : List Nat) : State × Nat :=
  let held := s.eng.frags.filter (fun (p : Nat × Frag) => ids.contains p.2.cmd && p.2.engine.isSome)
  let page (f : Frag) : Option Nat := f.engine.map (fun e => enginePage f.tile e)
  let pages := ((held.filterMap (fun (p : Nat × Frag) => page p.2)).eraseDups).filter units.contains
  let s := ids.foldl (fun (s : State) i => match s.cmd i with
    | none => s
    | some x =>
      let mine := held.any (fun (p : Nat × Frag) => p.2.cmd == i && (page p.2).any units.contains)
      s.abortCmd x (if mine then stHwFault else stAborted) true) s
  (pages.foldl (fun (s : State) pg => s.fencePage pg) s, pages.length)

/-- The bound of the ABORT of a CTX_DESTROY of a context that has begun (R277). -/
def State.destroyTill (s : State) (ctx : Nat) : Option Nat :=
  (s.fw.held.find? (fun (h : HeldMsg) => h.begun && (match h.msg with | .ctxDestroy i => i == ctx | _ => false))).map (·.till)

/-- QUIESCE_TIMEOUT (R293): an ABORT comes to its bound, or that of the destruction of a context (R277), named by one of its dying
commands. -/
def State.quiesce (s : State) (id : Nat) (units : List Nat) : State :=
  match s.cmd id with
  | none => s
  | some c => match c.wait with
    | .aborting ids till =>
      if s.nrt < till then s
      else
        let r := s.endAtBound ids units
        (r.1.setCmd { c with c1 := c.c1 + r.2 }).settleAbort id
    | .dying _ => match s.destroyTill c.hdr.context with
      | none => s
      | some till =>
        if s.nrt < till then s
        else ((s.endAtBound ((s.cmds.list.filter (fun (x : Cmd) => x.hdr.context == c.hdr.context)).map (·.id)) units).1).settleAborts
    | _ => s

/-! ### FENCE -/

/-- The commands a FENCE waits for: earlier ones of its context and source (R295). -/
def State.fenceIds (s : State) (c : Cmd) : List Nat :=
  (s.cmds.list.filter (fun x => decide (x.id < c.id) && x.src.same c.src && x.hdr.context == c.hdr.context)).map (·.id)

def State.doFence (s : State) (c : Cmd) : OpRes :=
  let ids := s.fenceIds c
  if ids.isEmpty then .done s { status := stOk } else .wait s (.fence ids) ids.length

/-- A FENCE whose commands have completed completes. -/
def State.settleFence (s : State) (c : Cmd) : State :=
  match c.wait with
  | .fence ids => if ids.any (fun i => (s.cmd i).isSome) then s else s.finish c { status := stOk, c0 := c.c0 }
  | _ => s

end Sys2Proof.Machine
end

