-- ==== Sys2Proof/Machine/Egress.lean ====
section
/-!
DEFINITION. Pacers, egress queues and their schedulers, the credit rule and the ingress policer (R362 to R374, R315, R425).
-/

namespace Sys2Proof.Machine

def State.setEgress (s : State) (e : EgressState) : State := { s with egress := e }
def State.egQueue (s : State) (p b q : Nat) : EgQueue := AL.getD (p, b, q) .blank s.egress.queues
def State.putEgQueue (s : State) (p b q : Nat) (x : EgQueue) : State :=
  s.setEgress { s.egress with queues := AL.put (p, b, q) x s.egress.queues }
def State.egSub (s : State) (p b : Nat) : SubState := AL.getD (p, b) .blank s.egress.subs
def State.putEgSub (s : State) (p b : Nat) (x : SubState) : State :=
  s.setEgress { s.egress with subs := AL.put (p, b) x s.egress.subs }

/-! ### Settings (Tables 15-3, 15-4) -/

def State.qShaped (s : State) (p q : Nat) : Bool := s.fldI (pgEgrs p) 0x104 q 31 1 == 1
def State.qLc (s : State) (p q : Nat) : Bool := s.fldI (pgEgrs p) 0x104 q 30 1 == 1
def State.qWeight (s : State) (p q : Nat) : Nat := max 1 (s.fldI (pgEgrs p) 0x104 q 0 8)
def State.qRate (s : State) (p q : Nat) : Nat := min 8000 (max 1 (s.fldI (pgEgrs p) 0x108 q 0 16))
def State.qHicred (s : State) (p q : Nat) : Int := Int.ofNat (max 9216 (s.fldI (pgEgrs p) 0x10C q 0 24))
def State.qLimit (s : State) (p : Nat) : Nat := max 9216 (s.fld (pgEgrs p) 0x118 0 24)
/-- Rate of a sublink in 100 Mb/s: 800 Gb/s, or 400 Gb/s in breakout (R300, R364). -/
def State.subRate (s : State) (p : Nat) : Nat := if s.fld (pgPort p) 0x100 1 1 = 1 then 4000 else 8000
def State.dPoliced (s : State) (d : Nat) : Bool := s.fldI pgIngp 0x104 d 31 1 == 1
def State.dRate (s : State) (d : Nat) : Nat := min 64000 (max 1 (s.fldI pgIngp 0x104 d 0 16))
def State.dBurst (s : State) (d : Nat) : Int := Int.ofNat (min (2 ^ 31 - 1) (max 4096 (s.regI pgIngp 0x108 d).toNat))

/-! ### PACER_RELEASE (R362, R363, R368) -/

/-- Queue number: DOMAIN × 4 + KIND (Table 15-1). -/
def State.egKind (s : State) (c : Conn) (lane : Lane) (msgId : Nat) : Nat :=
  match lane with
  | .response => 1
  | .control => 2
  | .request => match s.outboundOf (connId c) msgId with
    | some o => if outOfRing o then 0 else 3
    | none => 0

/-- Bytes in network byte order (R8, R304). -/
def beBytes (n v : Nat) : List Byte := (leBytes n v).reverse

/-- The fields of a Poris header that packets differ in (Table 13-1). -/
structure PorisHead where
  lane : Nat
  typ : Nat
  flags : Nat
  dconn : Nat
  path : Nat
  psn : Nat
  msgId : Nat
  npkt : Nat
  offset : Nat
  epoch : Nat
  payLen : Nat
  lowPsn : Nat
  deriving DecidableEq, Repr

/-- A Poris header, its fields in network byte order (R8, R304, Table 13-1). -/
def PorisHead.bytes (h : PorisHead) : List Byte :=
  beBytes 1 (16 + h.lane * 4) ++ beBytes 1 h.typ ++ beBytes 2 h.flags ++ beBytes 3 h.dconn ++ beBytes 1 h.path ++ beBytes 4 h.psn ++
    beBytes 3 h.msgId ++ beBytes 1 h.npkt ++ beBytes 4 h.offset ++ beBytes 4 h.epoch ++ beBytes 2 h.payLen ++ beBytes 2 0 ++ beBytes 4 h.lowPsn

def laneNum : Lane → Nat | .request => 0 | .response => 1 | .control => 2

/-- R315: before the DATA counter reaches 2^30 or a lane has used 2^22 MSG_IDs, the sender moves to the next generation.
DEDUCED: Log 42. -/
def keyUpdate (c : Conn) : Conn :=
  if 2 ^ 30 - 1 ≤ c.psnTx || c.genMsg.any (fun (p : Lane × Nat) => p.1 != .control && decide (2 ^ 22 - 1 ≤ p.2)) then
    { c with genTx := c.genTx + 1, psnTx := 0, ctlTx := 0, genMsg := [] }
  else c

/-- The packet that a connection releases next: a resend, else the next packet of the first message that may send. -/
def Conn.nextPkt (c : Conn) (now : Nat) : Option (Lane × Nat × Nat × Bool) :=
  match c.resend with
  | (l, m, o) :: _ => some (l, m, o, true)
  | [] =>
    (c.msgs.find? (fun (m : OutMsg) => decide (m.heldTill ≤ now) && (offsetsOf m.bytes.length).contains m.next)).map
      (fun m => (m.lane, m.msgId, m.next, false))

/-- Takes the packet off its source. -/
def Conn.takePkt (c : Conn) (l : Lane) (m o : Nat) (retx : Bool) : Conn :=
  if retx then { c with resend := c.resend.drop 1 }
  else { c with msgs := c.msgs.map (fun (x : OutMsg) => if x.lane == l && x.msgId == m then { x with next := o + 4096 } else x) }

/-- Puts a packet into its egress queue with its tags (R368). -/
def State.enqueue (s : State) (p b q : Nat) (k : EgPkt) : State :=
  let x := s.egQueue p b q
  let st := max (s.egSub p b).v x.fLast
  let fin := st + k.bytes * 256 / s.qWeight p q
  s.putEgQueue p b q { x with pkts := x.pkts ++ [{ k with start := st, finish := fin }], fLast := fin }

/-- Lowest PSN that a connection still awaits acknowledgement for. -/
def Conn.lowPsn (c : Conn) : Nat := c.unacked.foldl (fun n p => min n p.psn) c.psnTx

def State.pacerRelease (s : State) (conn : Nat) : State :=
  match s.conn conn with
  | none => s
  | some c =>
    if s.nrt < c.pacedAt ∨ s.nodeFenced then s
    else match Conn.nextPkt c s.nrt, Conn.bestPath c with
    | some (l, m, o, retx), some i =>
      match c.msgs.find? (fun (x : OutMsg) => x.lane == l && x.msgId == m), c.paths[i]? with
      | some x, some pt =>
        let q := c.domain * 4 + s.egKind c l m
        let eq := s.egQueue pt.port pt.sub q
        if !s.unitAdmits (pgEgrs pt.port) then s
        else if s.qLimit pt.port ≤ eq.pkts.foldl (fun n k => n + k.bytes) 0 then s.bump (pgEgrs pt.port) 0x134 1
        else
          let c := keyUpdate (Conn.takePkt c l m o retx)
          let body := (x.bytes.drop o).take 4096
          let n := ipBytes pt.peerAddr (32 + body.length + 16)
          let s := s.setConn { c with
            psnTx := c.psnTx + 1
            unacked := c.unacked ++ [⟨c.psnTx, l, m, o, body.length, i, s.nrt, retx, 0⟩]
            pacedAt := s.nrt + ceilDiv (n * 8) c.rate }
          let h : PorisHead := { lane := laneNum l, typ := 1, dconn := c.peerConn, path := i, psn := c.psnTx, msgId := m, offset := o
                                 flags := b2n retx * 32 + c.genTx % 2 * 16 + b2n (decide (x.bytes.length ≤ o + 4096)) * 2 + b2n (o == 0)
                                 npkt := (x.bytes.length - 1) / 4096, epoch := x.epoch.toNat, payLen := body.length, lowPsn := Conn.lowPsn c }
          s.enqueue pt.port pt.sub q ⟨connId c, l, m, o, i, c.psnTx, c.genTx, retx, body, n, 0, 0, h.bytes,
            sealBytes c 0 c.psnTx h.bytes body, pt.peerAddr⟩
      | none, _ => if retx then s.setConn (Conn.takePkt c l m o retx) else s
      | _, _ => s
    | _, _ => s

/-! ### EGRESS_SELECT (R365, R369, R370) -/

/-- Payload of a control-class packet (Tables 13-3, 13-6, R310, R318, R322, R325). Its numbers are in network byte order. DEDUCED:
Log 42. -/
def ctlPayload : CtlPkt → List Byte
  | .ack base rs ce _ _ => beBytes 4 base ++ beBytes 2 rs.length ++ beBytes 2 ce ++ rs.flatMap (fun r => beBytes 4 r.1 ++ beBytes 4 r.2)
  | .recvBusy m l r h => beBytes 3 m ++ beBytes 1 (laneNum l) ++ beBytes 1 r ++ beBytes 3 0 ++ beBytes 4 h
  | .abandon m l r => beBytes 3 m ++ beBytes 1 (laneNum l) ++ beBytes 1 r
  | .probe _ | .probeReply _ _ => []
  | .reset _ token => leBytes 16 token.toNat
  | .hsReply _ _ _ b => b
  | .hsDone _ b => b
  | .hsReject _ r h range => beBytes 1 r ++ (match range with | some (lo, hi) => beBytes 1 lo ++ beBytes 1 hi ++ beBytes 1 0 | none => beBytes 3 0) ++
      beBytes 4 h

/-- Where a control-class packet goes: the end of its path, of an UP path of its connection, or the one that the handshake came from. -/
def State.ctlEnd (s : State) (conn : Nat) (p : CtlPkt) : NetEnd :=
  let ofPath (i : Nat) : NetEnd := match (s.conn conn).bind (fun c => c.paths[i]?) with
    | none => ⟨0, 0, 0, 0⟩
    | some x => ⟨x.port, x.sub, x.peerAddr, x.udpPort⟩
  match p with
  | .ack _ _ _ _ i | .probe i | .probeReply _ i => ofPath i
  | .reset e _ | .hsReply e _ _ _ | .hsDone e _ | .hsReject e _ _ _ => e
  | .recvBusy _ _ _ _ | .abandon _ _ _ => ofPath (((s.conn conn).bind Conn.bestPath).getD 0)

/-- The sublink of a control-class packet. -/
def State.ctlSub (s : State) (conn : Nat) (p : CtlPkt) : Nat × Nat := ((s.ctlEnd conn p).port, (s.ctlEnd conn p).sub)

/-- TYPE of a control-class packet (Table 13-2). -/
def ctlType : CtlPkt → Nat
  | .ack _ _ _ _ _ => 2 | .recvBusy _ _ _ _ => 3 | .abandon _ _ _ => 4 | .probe _ => 5 | .probeReply _ _ => 6 | .reset _ _ => 7
  | .hsReply _ _ _ _ => 0x11 | .hsDone _ _ => 0x13 | .hsReject _ _ _ _ => 0x14

/-- Whether it is encrypted, and so numbered by the connection's second counter (Table 13-2, R305). -/
def ctlSealed (p : CtlPkt) : Bool := decide (ctlType p < 7) || ctlType p == 0x13

/-- IP bytes of a control-class packet. -/
def State.ctlBytes (s : State) (conn : Nat) (p : CtlPkt) : Nat :=
  ipBytes (s.ctlEnd conn p).addr (32 + (ctlPayload p).length + if ctlSealed p then 16 else 0)

/-- The Poris header of a control-class packet: a handshake packet has its place in its message, any other belongs to no message. Of a
connection that the node does not hold, a RESET's or a handshake's, DCONN is a free value. DEDUCED: Log 42. -/
def State.ctlHead (s : State) (conn : Nat) (p : CtlPkt) : PorisHead :=
  let c := s.conn conn
  let own (f : Conn → Nat) : Nat := if ctlSealed p then (c.map f).getD 0 else 0
  let place : Nat × Nat := match p with | .hsReply _ n o _ => (n, o) | _ => (0, 0)
  let hs := decide (0x11 ≤ ctlType p)
  { lane := 2, typ := ctlType p, psn := own (·.ctlTx), msgId := 0, npkt := place.1, offset := place.2, epoch := 0
    dconn := match c with | some c => c.peerConn | none => Config.pick conn % 2 ^ 24
    flags := own (fun c => c.genTx % 2 * 16) + (match p with | .ack _ _ _ echo _ => b2n echo * 8 | _ => 0) +
      (if hs then b2n (place.2 == place.1 * 4096) * 2 + b2n (place.2 == 0) else 0)
    path := (match p with | .ack _ _ _ _ i => i | .probe i => i | .probeReply i _ => i | _ => own (fun c => (Conn.bestPath c).getD 0))
    payLen := (ctlPayload p).length, lowPsn := own Conn.lowPsn }

/-- What is sent behind the header: the payload, or what GCM makes of it (R304, Table 13-2). -/
def State.ctlBody (s : State) (conn : Nat) (p : CtlPkt) : List Byte :=
  match s.conn conn with
  | some c => if ctlSealed p then sealBytes c 1 c.ctlTx (s.ctlHead conn p).bytes (ctlPayload p) else ctlPayload p
  | none => ctlPayload p

/-- A control-class packet has been sent: the counter that numbers the encrypted ones advances (R305). -/
def State.ctlSent (s : State) (conn : Nat) (p : CtlPkt) : State :=
  match s.conn conn with
  | some c => if ctlSealed p then s.setConn { c with ctlTx := c.ctlTx + 1 } else s
  | none => s

/-- The 802.1Q tag of the frames of a port (R301). -/
def State.vlanTag (s : State) (p : Nat) : Option (Nat × Nat) :=
  if s.fld (pgPort p) 0x100 2 1 = 1 then some (s.fld (pgPort p) 0x10C 12 3, s.fld (pgPort p) 0x10C 0 12) else none

/-- The next hop of a sublink towards an address: GW4 or GW6 (R301). -/
def State.nextHop (s : State) (p b addr : Nat) : Nat :=
  if addr < 2 ^ 32 then (s.regI (pgPort p) 0x138 b).toNat
  else (List.range 4).foldl (fun a i => a * 2 ^ 32 + (s.regI (pgPort p) (0x128 + 4 * i) b).toNat) 0

/-- How a Poris datagram is addressed: to UDP.PORT at the peer, by the next hop, with the DSCP of its lane (R301, R302). -/
def State.porisTo (s : State) (p b addr lane : Nat) : NetHead where
  vlan := s.vlanTag p
  hop := some (s.nextHop p b addr)
  dst := addr
  udp := some (s.fld pgXprt 0x100 0 16, s.fld (pgPort p) 0x13C (8 * min 2 lane) 6)

/-- A frame leaves by a sublink (Tables 13-9, 15-3). DESIGN CHOICE: Log 43. -/
def State.transmit (s : State) (p b n : Nat) (h : NetHead) (f : WireFrame) : State :=
  ((s.setEgress { s.egress with wire := s.egress.wire ++ [(p, b, h, f)] }).bump64 (pgEgrs p) 0x124 n).bump64 (pgPort p) 0x148 1

/-- The queue whose head has the smallest finish tag; ties go to the lower number. -/
def bestHead (l : List (Nat × EgPkt)) : Option (Nat × EgPkt) :=
  l.foldl (fun b x => match b with
    | none => some x
    | some y => if x.2.finish < y.2.finish || (x.2.finish == y.2.finish && decide (x.1 < y.1)) then some x else b) none

/-- R369: when V exceeds 2^31 it is subtracted from itself and from every tag. -/
def State.rebase (s : State) (p b : Nat) : State :=
  let x := s.egSub p b
  if x.v ≤ 2 ^ 31 then s
  else
    let low (q : EgQueue) : EgQueue := { q with
      fLast := q.fLast - x.v
      pkts := q.pkts.map (fun (k : EgPkt) => { k with start := k.start - x.v, finish := k.finish - x.v }) }
    (s.setEgress { s.egress with queues := s.egress.queues.map (fun (k, q) => if k.1 == p && k.2.1 == b then (k, low q) else (k, q)) }).putEgSub
      p b { x with v := 0 }

/-- Whether the cap of R425 holds for a packet: a queue of kind NODE, and no read of a demand fill. -/
def State.capped (s : State) (q : Nat) (k : EgPkt) : Bool :=
  q % 4 == 3 && !s.net.outbound.any (fun o => o.sent && o.conn == k.conn && o.msgId == k.msgId && k.lane == .request &&
    (match o.who with | .fill _ _ => true | _ => false))

/-- Sends the head of queue `q`, chosen at step 2 (`lc`) or step 3. DEDUCED: Log 42. -/
def State.sendHead (s : State) (p b q : Nat) (k : EgPkt) (lc demoted : Bool) : State :=
  let x := s.egQueue p b q
  let s := s.putEgQueue p b q { x with
    pkts := x.pkts.drop 1
    credit := if s.qShaped p q then x.credit - k.bytes else x.credit }
  let u := s.egSub p b
  let s := s.putEgSub p b { u with v := max u.v k.start, lc := if lc then u.lc - k.bytes else u.lc }
  let s := if s.capped q k then s.setEgress { s.egress with node := s.egress.node - k.bytes } else s
  let s := if lc then s.bump (pgEgrs p) 0x12C 1 else if demoted then s.bump (pgEgrs p) 0x130 1 else s
  s.transmit p b k.bytes (s.porisTo p b k.peerAddr (laneNum k.lane)) (.data k)

def State.egressSelect (s : State) (p b : Nat) : State :=
  if s.fld (pgPort p) 0x104 (4 + b) 1 = 0 ∨ !s.unitAdmits (pgPort p) then s
  else
    let s := s.rebase p b
    let u := s.egSub p b
    match if 0 ≤ u.ctl then s.net.ctl.findIdx? (fun (c, k) => s.ctlSub c k == (p, b)) else none with
    | some i => match s.net.ctl[i]? with
      | none => s
      | some (c, k) =>
        let f : WireFrame := .ctl c (s.ctlHead c k).bytes (s.ctlBody c k) k
        let n := s.ctlBytes c k
        let h := s.porisTo p b (s.ctlEnd c k).addr 2
        let s := (s.setNet { s.net with ctl := s.net.ctl.eraseIdx i }).ctlSent c k
        (s.putEgSub p b { u with ctl := u.ctl - n }).transmit p b n h f
    | none =>
      if s.nodeFenced then s
      else
        let heads : List (Nat × EgPkt) := s.egress.queues.filterMap (fun (k, q) =>
          if k.1 == p && k.2.1 == b && !(s.qShaped p k.2.2 && decide (q.credit < 0)) then
            (q.pkts.head?).bind (fun x => if s.capped k.2.2 x && decide (s.egress.node < 0) then none else some (k.2.2, x))
          else none)
        match if 0 ≤ u.lc ∧ s.fld (pgEgrs p) 0x11C 0 8 ≠ 0 then bestHead (heads.filter (fun (x : Nat × EgPkt) => s.qLc p x.1)) else none with
        | some (q, k) => s.sendHead p b q k true false
        | none => match bestHead heads with
          | none => s
          | some (q, k) => s.sendHead p b q k false (s.qLc p q)

/-! ### CREDIT_REFILL (R366, R367) -/

/-- The credit rule for a gain of `n` bytes. -/
def refillBy (waiting : Bool) (n : Nat) (hi credit : Int) : Int :=
  if waiting || decide (credit < 0) then min (credit + Int.ofNat n) hi
  else if 0 < credit then 0 else credit

/-- RATE × 12.5 B each µs, rounded down. DEDUCED: Log 42. -/
def refill (waiting : Bool) (rate : Nat) (hi credit : Int) : Int := refillBy waiting (rate * 25 / 2) hi credit

/-- The tags of packets behind one whose finish tag was `old` and is `new`. -/
def retagFrom (w old new : Nat) : List EgPkt → List EgPkt
  | [] => []
  | k :: ks =>
    let st := if k.start ≤ old then new else max k.start new
    let f := st + k.bytes * 256 / w
    { k with start := st, finish := f } :: retagFrom w k.finish f ks

/-- A new WEIGHT leaves the head of a queue its tags and counts for its successors (R367). DEDUCED: Log 42. -/
def retag (w : Nat) (q : EgQueue) : EgQueue :=
  match q.pkts with
  | [] => q
  | h :: t =>
    let l := retagFrom w h.finish h.finish t
    { q with pkts := h :: l, fLast := (l.getLast?).elim h.finish (·.finish) }

/-- The LC and control credits of one sublink gain a microsecond's refill; CTRLWAIT counts a tick at which the control
credit is below 0. -/
def State.refillSub (s : State) (p b : Nat) : State :=
  let u := s.egSub p b
  let lcWaits := s.egress.queues.any (fun (k, q) => k.1 == p && k.2.1 == b && s.qLc p k.2.2 && !q.pkts.isEmpty)
  let ctlWaits := s.net.ctl.any (fun (c, k) => s.ctlSub c k == (p, b))
  let cap := s.fld (pgEgrs p) 0x11C 0 8
  let burst := max 1 (s.fld (pgEgrs p) 0x11C 8 16) * 1024
  let s := if u.ctl < 0 then s.bump (pgEgrs p) 0x138 1 else s
  s.putEgSub p b { u with
    lc := refillBy lcWaits (s.subRate p * 25 * cap / 512) (Int.ofNat burst) u.lc
    ctl := refill ctlWaits (s.subRate p / 16) 16384 u.ctl }

/-- CREDIT_REFILL of one port: pending rates take effect, and every shaped queue and sublink gains its refill. -/
def State.refillPort (s : State) (p : Nat) : State :=
  let was : List Nat := (s.egress.queues.filter (fun (k, _) => k.1 == p && s.qShaped p k.2.2)).map (fun (k, _) => k.2.2)
  let old := s.qWeight p
  let s := s.commitShadow (pgEgrs p)
  let s := s.setEgress { s.egress with queues := s.egress.queues.map (fun (k, q) =>
    let q := if k.1 != p || s.qWeight p k.2.2 == old k.2.2 then q else retag (s.qWeight p k.2.2) q
    if k.1 != p || !s.qShaped p k.2.2 then (k, q)
    else
      let c := if was.contains k.2.2 then q.credit else 0
      (k, { q with credit := min (refill (!q.pkts.isEmpty) (s.qRate p k.2.2) (s.qHicred p k.2.2) c) (s.qHicred p k.2.2) })) }
  (if s.subRate p = 4000 then [0, 1] else [0]).foldl (fun (s : State) b => s.refillSub p b) s

/-- `NODE.CKPT.CAP_PCT` (Table 17-12). -/
def State.capPct (s : State) : Nat := min 100 (max 1 (s.fld pgNode 0x238 0 7))

/-- Rate of the sublinks that have link, in 100 Mb/s (R425). -/
def State.linkedRate (s : State) : Nat :=
  (List.range 8).foldl (fun n p => n + s.subRate p * ((if s.fld (pgPort p) 0x104 4 1 = 1 then 1 else 0) +
    (if s.fld (pgPort p) 0x104 5 1 = 1 then 1 else 0))) 0

def State.creditRefill (s : State) : State :=
  let s := (List.range 8).foldl (fun (s : State) p => s.refillPort p) s
  let was := (s.egress.doms.filter (fun (p : Nat × Int) => s.dPoliced p.1)).map (·.1)
  let s := s.commitShadow pgIngp
  let now := (List.range 1024).filter s.dPoliced
  let s := s.setEgress { s.egress with doms := now.map (fun d =>
    (d, refill true (s.dRate d) (s.dBurst d) (if was.contains d then AL.getD d 0 s.egress.doms else 0))) }
  s.setEgress { s.egress with node := refill true (s.linkedRate * s.capPct / 100) 0 s.egress.node }

/-! ### The policer (R371) -/

/-- COUNT0 of a refusal: the time until the credit is 0 again, within 10 and 1,000 µs. DESIGN CHOICE: Log 7. -/
def State.policeHint (s : State) (d : Nat) : Nat :=
  let c := AL.getD d 0 s.egress.doms
  min 1000 (max 10 (ceilDiv ((-c).toNat * 2) (s.dRate d * 25)))

/-- Whether a request message of domain `d` passes. -/
def State.policed (s : State) (d : Nat) : Bool := s.dPoliced d && decide (AL.getD d 0 s.egress.doms < 0)

def State.policeRefused (s : State) (d : Nat) : State :=
  ((s.setRegI pgIngp 0x110 d (satAdd32 (s.regI pgIngp 0x110 d) 1)).bump pgIngp 0x114 1).setIrq pgIngp 1

def State.policeTake (s : State) (d n : Nat) : State :=
  if s.dPoliced d then
    (s.setEgress { s.egress with doms := AL.put d (AL.getD d 0 s.egress.doms - Int.ofNat n) s.egress.doms }).bump64 pgIngp 0x118 n
  else s

end Sys2Proof.Machine
end

