-- ==== Sys2Proof/Machine/Fence.lean ====
section
/-!
DEFINITION. Fences (R406 to R410, R414, Table 17-2): of the node, of a tile, a quadrant, a channel, an engine or another unit; lost
rings (R470); watchdogs, bridges, rails, duplicated control (R17, R40, R245, R408, R410).
-/

namespace Sys2Proof.Machine

/-! ### The node -/

/-- Ends an attention command whose fragments are gone. Of a fenced node nothing leaves on the fabric, and no merge context forwards: only
the partial of a ring's command for its requester is written (R155, R414). -/
def State.endCut (s : State) (c : Cmd) (status : Nat) : State :=
  match s.job c.id with
  | none => s.finish c { status := status }
  | some j =>
    if !s.nodeFenced then s.endDying c status
    else if isRing c.src && j.anchored.isNone && j.d.mergeConn == 0xFFFFFF then s.attnEnd c.id status
    else s.endAttn c j status

/-- Ends an admitted command at once, as an ABORT would (R414). DEDUCED: Log 36. -/
def State.cutCmd (s : State) (c : Cmd) (status : Nat) : State :=
  match c.op with
  | .attnFwd _ | .attnBwd _ => (s.dropFrags c.id true).endCut c status
  | .abort _ => s
  | _ => s.abortCmd c status true

/-- The node enters FENCED (R414): DATA packets stop, node operations and admitted commands end, merge contexts are freed without
forwarding. CAUSE: 1 LAPSE, 2 FORCED, 3 CONTROL, 4 RAIL. DEDUCED: Log 33. DEDUCED: Log 52. -/
def State.fenceNode (s : State) (cause : Nat) : State :=
  if s.nodeFenced then s
  else
    let s := { s with lease := { s.lease with st := .fenced, cause := cause } }
    let s := (s.bump pgNode 0x23C 1).setIrq pgNode 4
    let s := s.cmds.list.foldl (fun (s : State) c => match s.cmd c.id with | some c => s.cutCmd c stAborted | none => s) s
    let s := s.setEng { s.eng with merge := [] }
    let s := s.kv.fills.foldl (fun (s : State) f => s.failFill f.domain f.vpn) s
    let s := s.ckpt.jobs.foldl (fun (s : State) (p : Nat × Job) => s.failJob p.1 stAborted) (s.setCkpt { s.ckpt with overflow := [] })
    let s := s.net.outbound.foldl (fun (s : State) o => s.dropOutbound o) s
    s.settleAborts

/-! ### Rings of a fenced tile (R470) -/

/-- RING_LOST: when tile 6q is fenced, the rings with areas in quarter q are LOST and their fetched commands complete with
ST_HW_FAULT. -/
def State.loseRings (s : State) (q : Nat) : State :=
  if !s.tileFenced (6 * q) then s
  else
    let ns := (s.host.rings.filter (fun (p : Nat × Ring) => p.2.st != .disabled && p.2.st != .lost &&
      (s.ringAreas p.1).any (fun a => areaQuarter a == some q || quarterOf a.1 == q))).map (·.1)
    if ns.isEmpty then s
    else
      let s := ns.foldl (fun (s : State) n => s.setRing n { s.ring n with st := .lost }) s
      let s := (s.cmds.list.filter (fun c => match c.src with | .ring n => ns.contains n | .conn _ _ => false)).foldl (fun (s : State) c =>
        match s.cmd c.id with | some c => s.cutCmd c stHwFault | none => s) s
      (ns.foldl (fun (s : State) n => s.logErr pgDbel 2 n q) (s.setIrq pgDbel 2)).settleAborts

/-! ### Tiles and quadrants -/

/-- Takes the fragments of a command in a tile out, and those planned for it. DEDUCED: Log 34. -/
def State.leaveTile (s : State) (t i : Nat) : State :=
  let s := (s.eng.frags.filter (fun (p : Nat × Frag) => p.2.cmd == i && p.2.tile == t)).foldl (fun (s : State) p =>
    (s.unpinPages p.2).removeFrag p.2) s
  match s.job i with
  | none => s
  | some j =>
    let out := j.todo.filter (fun p => p.tile == t)
    let s := out.foldl (fun (s : State) p => p.pages.foldl (fun (s : State) g => s.unpinForm g.frame g.packed) s) s
    s.putJob { j with todo := j.todo.filter (fun p => p.tile != t) }

/-- What a fragment leaves to be done elsewhere: its pages, with their commit bits. DEDUCED: Log 34. -/
def redoOf (f : Frag) : List Redo := f.pages.zipIdx.map (fun (p, i) => ⟨p.layer, p.hg, p.k, f.commit.contains i, f.reruns + 1⟩)

/-- The fragments of a command in a fenced tile rerun elsewhere once their pages are refilled (Table 17-2); those that have failed, or are
at their rerun limit (R286), give the node partial their status. What the tile's merge unit holds already is not lost.
DEDUCED: Log 34. -/
def State.rewalk (s : State) (t i : Nat) : State :=
  match s.job i with
  | none => s
  | some j =>
    let fs := (s.eng.frags.filter (fun (p : Nat × Frag) => p.2.cmd == i && p.2.tile == t)).map (·.2)
    let again := fs.filter (fun f => decide (f.status < 0x10 ∧ f.reruns < 4))
    let ended := (fs.filter (fun f => decide (0x10 ≤ f.status ∨ 4 ≤ f.reruns))).map (fun f => if 0x10 ≤ f.status then f.status else stRerunLimit)
    let redo := again.flatMap redoOf ++ (j.todo.filter (fun p => p.tile == t)).flatMap (fun p =>
      p.pages.map (fun g => (⟨g.layer, g.hg, g.k, g.committed, p.reruns⟩ : Redo)))
    let s := s.leaveTile t i
    match s.job i, s.cmd i with
    | none, _ => s
    | some _, none => s.settleOver i
    | some j, some c => match c.wait with
      | .dying _ => s.settleDying i
      | _ =>
        let s := s.putJob { j with redo := j.redo ++ redo, acc := if j.acc.status < 0x10 then { j.acc with status := ended.headD j.acc.status } else j.acc }
        if redo.isEmpty then s.attnSettle i else s.setCmd { c with wait := .fills [] s.nrt }

/-- Fences a tile (Table 17-2). DEDUCED: Log 33. DEDUCED: Log 34. -/
def State.fenceTile (s : State) (t : Nat) : State :=
  if s.tileFenced t then s
  else
    let s := s.fencePage (pgTile t 0)
    let cmds := (s.eng.jobs.filter (fun (p : Nat × AttnJob) => p.2.todo.any (fun x => x.tile == t) ||
      s.eng.frags.any (fun (f : Nat × Frag) => f.2.cmd == p.1 && f.2.tile == t))).map (·.1)
    let s := cmds.foldl (fun (s : State) i => s.rewalk t i) s
    -- saved contexts homed there are killed (R285)
    let s := (s.eng.save.filter (fun (p : Nat × Nat) => p.1 % 24 == t)).foldl (fun (s : State) p => match s.frag p.2 with
      | some f => s.rerun f
      | none => s) s
    let s := (s.kv.frames.filter (fun (p : Nat × Frame) => frameTile p.1 == t)).foldl (fun (s : State) p => s.poisonFrame p.1) s
    (s.eng.merge.filter (fun (p : MergeKey × MergeCtx) => p.2.st == .anchored && p.2.numbers.any (fun n => n % 24 == t))).foldl
      (fun (s : State) p => s.killCtx p.1 stHwFault) s

/-- Fences a quadrant: each of its 6 tiles. -/
def State.fenceQuad (s : State) (q : Nat) : State := (List.range 6).foldl (fun s i => s.fenceTile (6 * q + i)) s

/-! ### Units -/

/-- A port that is fenced has no link. DEDUCED: Log 33. -/
def State.fencePort (s : State) (n : Nat) : State := ((s.fencePage (pgPort n)).sublinkLost n 0).sublinkLost n 1

/-- Fences the unit of a page and handles the work it held (Table 17-2). A unit of the node core fences the node. A tile's shared
units take the tile with them. DEDUCED: Log 33. -/
def State.fenceUnit (s : State) (pg : Nat) : State :=
  match pageType pg, pageTile pg with
  | some (.aten, e), some t => s.fenceEngine t e
  | some (.nbun, c), some t => s.fenceEngine t (2 + c)
  | some (.mchn, c), some t => s.failChannel (t * 16 + c) 1
  | some (.crmb, _), some _ => s.fencePage pg
  | some (.scrb, _), some _ => s.fencePage pg
  | some (_, _), some t => (s.fenceTile t).fencePage pg
  | some (.port, n), none => s.fencePort n
  | some (.hlnk, i), none => (s.fencePage pg).linkGoesDown (if i = 0 then .a else .b)
  | some (_, _), none => if (corePage pg).isSome then s else (s.fencePage pg).fenceNode 3
  | none, _ => s

/-- The merge unit of a tile holds the tile partial of a command (R176). -/
def State.muHolds (s : State) (t i : Nat) : Bool := (s.job i).any (fun j => (AL.get t j.tiles).any (fun x => !x.2))

/-- Whether a command waits for a page that is on its way, of those that `p` picks. -/
def waitsFor (c : Cmd) (p : Nat × Nat → Bool) : Bool :=
  match c.wait with
  | .fills ps _ => ps.any p
  | _ => false

/-- The channel into which the page of an entry is filled, or from which it is fetched (R107, R108). -/
def State.fillChannel (s : State) (d v : Nat) : Nat :=
  frameChannel (match s.fillOf d v with | some f => f.frame | none => (s.pte d v).loc)

/-- Whether a fragment is in a block: at its engine, or in its tile. -/
def fragIn (pg : Nat) (f : Frag) : Bool :=
  match pageType pg, pageTile pg with
  | some (.aten, e), some t => f.tile == t && f.engine == some e
  | some (.nbun, n), some t => f.tile == t && f.engine == some (2 + n)
  | some (.tsch, _), some t => f.tile == t
  | some (.tile, _), some t => f.tile == t
  | _, _ => false

/-- Whether an admitted command has work in a block (R29, R31). DEDUCED: Log 75. -/
def State.holdsCmd (s : State) (pg : Nat) (c : Cmd) : Bool :=
  let inUnit : Bool := match c.wait with | .unit p _ => p == pg | _ => false
  let inLine (t : Nat) : Bool := match c.wait with | .victim k _ _ _ => k == t | _ => false
  inUnit || s.eng.frags.any (fun (x : Nat × Frag) => x.2.cmd == c.id && fragIn pg x.2) ||
  (match pageType pg, pageTile pg with
   | some (.mrgu, _), some t => s.muHolds t c.id ||
       s.eng.merge.any (fun (p : MergeKey × MergeCtx) => p.2.st != .closed && p.2.anchor == some c.id && p.2.numbers.any (fun n => n % 24 == t))
   | some (.tile, _), some t => s.muHolds t c.id || inLine t || waitsFor c (fun p => s.fillChannel p.1 p.2 / 16 == t)
   | some (.apnd, _), some t => inLine t
   | some (.bnch, _), some t => inLine t
   | some (.ttlb, _), some t => waitsFor c (fun p => homeTile p.1 p.2 == t)
   | some (.mchn, n), some t => waitsFor c (fun p => s.fillChannel p.1 p.2 == t * 16 + n)
   | some (.xlat, _), none => waitsFor c (fun _ => true)
   | some (.xprt, _), none => true
   | some (.dbel, _), none => isRing c.src
   | _, _ => false)

/-- Frames whose pages a channel is filling, fetching or writing back. -/
def State.channelWork (s : State) (ch : Nat) : Bool :=
  s.kv.fills.any (fun f => frameChannel f.frame == ch) || s.kv.fetches.any (fun f => frameChannel f == ch) ||
  s.kv.lines.any (fun (l : Line) => l.wb.isSome && frameChannel l.frame == ch)

/-- Whether a block holds work that is no command's, or outlives its command. DEDUCED: Log 75. -/
def State.otherWork (s : State) (pg : Nat) : Bool :=
  let core (c : Nat) : Bool := (AL.get c s.fw.cores).any (·.busy)
  let queued (n : Nat) : Bool := s.egress.queues.any (fun (k, q) => k.1 == n && !q.pkts.isEmpty)
  let back (t : Nat) : Bool := s.kv.lines.any (fun (l : Line) => l.tile == t && l.wb.isSome)
  let packs (t : Nat) : Bool := s.kv.packing.any (fun (p : Nat × CrumbPage) => frameTile p.1 == t)
  let held (t : Nat) : Bool := s.eng.merge.any (fun (p : MergeKey × MergeCtx) => p.2.st != .closed && p.2.numbers.any (fun n => n % 24 == t))
  s.eng.frags.any (fun (x : Nat × Frag) => fragIn pg x.2) ||
  (match pageType pg, pageTile pg with
   | some (.tile, _), some t => back t || packs t || held t || (List.range 16).any (fun n => s.channelWork (t * 16 + n))
   | some (.mrgu, _), some t => held t
   | some (.crmb, _), some t => packs t
   | some (.bnch, _), some t => back t
   | some (.mchn, n), some t => s.channelWork (t * 16 + n)
   | some (.port, n), none => queued n || s.net.ctl.any (fun x => (s.ctlSub x.1 x.2).1 == n)
   | some (.egrs, n), none => queued n
   | some (.hlnk, i), none =>
     let l := s.link (if i = 0 then .a else .b)
     !l.replay.isEmpty || !l.stalled.isEmpty || !l.waiting.isEmpty
   | some (.xlat, _), none => !s.kv.fills.isEmpty
   | some (.xprt, _), none => !s.net.outbound.isEmpty || s.net.conns.any (fun (p : Nat × Conn) => !p.2.msgs.isEmpty)
   | some (.dbel, _), none => s.host.rings.any (fun (p : Nat × Ring) => p.2.inflight != 0)
   | some (.mbox, _), none => s.fw.cores.any (fun (p : Nat × CoreRec) => p.2.busy)
   | _, _ => (corePage pg).any core)

/-- Whether a block holds admitted work (PG_STAT.BUSY, R29). DEDUCED: Log 75. -/
def State.pageBusy (s : State) (pg : Nat) : Bool := s.otherWork pg || s.cmds.list.any (s.holdsCmd pg)

/-- A requester of a channel bus whose grants are stopped waits for one, which does not count toward its watchdog (R244). -/
def State.busWaits (s : State) (pg : Nat) : Bool :=
  match pageType pg, pageTile pg with
  | some (.nbun, _), some t => !s.busOpen t
  | some (.mrgu, _), some t => !s.busOpen t
  | some (.apnd, _), some t => !s.busOpen t
  | _, _ => false

/-- WATCHDOG_FIRE (R40): a busy block whose watchdog is enabled is fenced. The spec states no CODE for it: a free value.
DESIGN CHOICE: Log 7. -/
def State.watchdog (s : State) (pg : Nat) : State :=
  if (pageType pg).isNone ∨ s.fld pg 0x50 31 1 = 0 ∨ s.pageFenced pg ∨ !s.pageBusy pg ∨ s.busWaits pg then s
  else (((s.setFld pg 0x50 30 1 1).setIrq pg (2 ^ 28)).logErr pg (Config.pick pg) 0 0).fenceUnit pg

/-- BUS_WATCHDOG_BITE (R245): requesters 0 to 15 are the NBUs, 16 the MU, 17 APND. DESIGN CHOICE: Log 61. -/
def State.busBite (s : State) (t requester beats : Nat) : State :=
  if 24 ≤ t ∨ 17 < requester ∨ s.tileFenced t then s
  else
    let pg := pgCbar t
    let s := ((s.bump pg 0x118 1).setIrq pg 1).logErr pg 1 requester beats
    let s := s.setInteg { s.integ with bus := AL.del t s.integ.bus }
    if requester < 16 then s.fenceEngine t (2 + requester) else s.fenceTile t

/-- The far island of an abandoned transfer is faulted (R17): recorded, and fenced as its units are. A lost handshake of a Rack
channel fails the channel (R252). -/
def State.islandLost (s : State) (i : Island) : State :=
  let mark (s : State) (off bit unit : Nat) : State :=
    ((s.setFld pgNode off bit 1 1).setIrq pgNode 1).logErr pgNode 1 unit 0
  match i with
  | .tile t => if t < 24 then (mark s 0x140 t t).fenceTile t else s
  | .port n => if n < 8 then (mark s 0x144 n (0x20 + n)).fencePort n else s
  | .hlnk l => (mark s 0x144 (8 + Link.num l) (0x28 + Link.num l)).linkGoesDown l
  | .bench q => if q < 4 then (mark s 0x144 (12 + q) (0x30 + q)).fenceQuad q else s
  | .core c => if c < 7 then mark s 0x144 (16 + c) (0x40 + c) else s
  | .channel c => if c < 384 then s.failChannel c 1 else s

/-- The end of a transfer that a bridge abandoned (R17): a host's register read completes with an error and ones; a write is
discarded. -/
def State.abandoned (s : State) : Abandoned → State
  | .read (.host l) p tag => if s.linkTalks l then s.hostCpl l tag false (List.replicate p.bytes 0xFF) else s
  | .read (.core _) _ _ => s
  | .unanswered => s

/-- BRIDGE_TIMEOUT (R17): the transfer ends, and the far island is faulted. -/
def State.bridgeTimeout (s : State) (x : BridgeLoss) : State := (s.abandoned x.lost).islandLost x.island

/-- CONTROL_MISMATCH (R408). -/
def State.controlMismatch (s : State) (u : CtlUnit) : State :=
  match u with
  | .node => (s.logErr pgNode 2 0 0xFF).fenceNode 3
  | .page pg =>
    if (pageType pg).isNone ∨ s.pageFenced pg then s
    else ((s.logErr pgNode 2 pg ((pageTile pg).getD 0xFF))).fenceUnit pg

/-- RAIL_FAULT (R410). -/
def State.railFault (s : State) (r : Rail) : State :=
  match r with
  | .quadrant q => if q < 4 then (s.logErr pgNode 3 q q).fenceQuad q else s
  | .node => (s.logErr pgNode 3 0xFF 0xFF).fenceNode 4

/-- Ends the work of a block that is no command's (R31): merge contexts, a pack and write-backs under way, fills, queued packets and
messages. What went out on a host link stays until it is acknowledged. DEDUCED: Log 75. -/
def State.abortOther (s : State) (pg : Nat) : State :=
  let late := s.eng.frags.filter (fun (x : Nat × Frag) => fragIn pg x.2 && (s.cmd x.2.cmd).isNone)
  let s := late.foldl (fun (s : State) x => ((s.unpinPages x.2).removeFrag x.2).settleOver x.2.cmd) s
  let merges (s : State) (t : Nat) : State :=
    (s.eng.merge.filter (fun (p : MergeKey × MergeCtx) => p.2.numbers.any (fun n => n % 24 == t))).foldl (fun (s : State) p => s.killCtx p.1 stAborted) s
  -- an interrupted pack begins again when the unit takes work
  let packs (s : State) (t : Nat) : State := (s.kv.packing.filter (fun (p : Nat × CrumbPage) => frameTile p.1 == t)).foldl (fun (s : State) p =>
    let s := s.dropPack p.1
    s.setKv { s.kv with packQ := p.1 :: s.kv.packQ }) s
  let backs (s : State) (which : Line → Bool) : State := (s.kv.lines.filter (fun (l : Line) => l.wb.isSome && which l)).foldl
    (fun (s : State) l => (s.setLine { l with wb := none }).unpinForm l.frame (l.form == 1)) s
  let fills (s : State) (ch : Option Nat) : State :=
    let mine (f : Nat) : Bool := ch.all (· == frameChannel f)
    let s := (s.kv.fills.filter (fun f => mine f.frame)).foldl (fun (s : State) f => s.fillLost f.domain f.vpn) s
    s.setKv { s.kv with fetches := s.kv.fetches.filter (fun f => !mine f) }
  match pageType pg, pageTile pg with
  | some (.tile, _), some t =>
    let s := backs (packs (merges s t) t) (fun l => l.tile == t)
    (List.range 16).foldl (fun (s : State) n => fills s (some (t * 16 + n))) s
  | some (.mrgu, _), some t => merges s t
  | some (.crmb, _), some t => packs s t
  | some (.bnch, _), some t => backs s (fun l => l.tile == t)
  | some (.mchn, n), some t => backs (fills s (some (t * 16 + n))) (fun l => frameChannel l.frame == t * 16 + n)
  | some (.xlat, _), none => fills s none
  | some (.port, n), none => s.setNet { s.net with ctl := s.net.ctl.filter (fun x => (s.ctlSub x.1 x.2).1 != n) }
  | some (.egrs, n), none => s.setEgress { s.egress with queues := s.egress.queues.map (fun (k, q) => if k.1 == n then (k, { q with pkts := [] }) else (k, q)) }
  | some (.hlnk, i), none =>
    let l : Link := if i = 0 then .a else .b
    s.setLink l { s.link l with waiting := [], stalled := [] }
  | some (.xprt, _), none =>
    let s := s.net.outbound.foldl (fun (s : State) o => s.endOut stAborted o) s
    s.setNet { s.net with conns := s.net.conns.map (fun (p : Nat × Conn) => (p.1, { p.2 with msgs := [], resend := [], unacked := [] })) }
  | _, _ => s

/-- PG_CTL ABORT (R31): every command with work in the block completes with ST_ABORTED, and what else it holds ends. Units that do not
quiesce within 5 ms, given as page numbers, are fenced and the commands they hold complete with ST_HW_FAULT. DEDUCED: Log 75. -/
def State.pageAbort (s : State) (pg : Nat) (stuck : List Nat) : State :=
  let units := stuck.filter (fun u => (pageType u).isSome && (u == pg || ((pageTile pg).isSome && pageTile u == pageTile pg)))
  let cs := s.cmds.list.filter (s.holdsCmd pg)
  let bad (c : Cmd) : Bool := units.any (fun u => s.holdsCmd u c)
  let s := cs.foldl (fun (s : State) x => match s.cmd x.id with
    | none => s
    | some c => s.abortCmd c (if bad x then stHwFault else stAborted) true) s
  let s := units.foldl (fun (s : State) u => s.fencePage u) (s.abortOther pg)
  s.settleAborts

end Sys2Proof.Machine
end

