-- ==== Sys2Proof/Machine/Operands.lean ====
section
/-!
DEFINITION. Descriptors as bytes (R41): the common header of Table 2-17 and the fields of each opcode's descriptor table.
A reserved bit that is set, an opcode that is not assigned, or UNITS that do not match the opcode give `Op.bad`
(Table 2-19 step 1).
-/

namespace Sys2Proof

/-- `n` bytes at offset `o` as a number. -/
def fieldAt (b : List Byte) (o n : Nat) : Nat := leVal ((b.drop o).take n)

/-- Bits `[lo + w - 1 : lo]` of the 32-bit word at offset `o`. -/
def bitsAt (b : List Byte) (o lo w : Nat) : Nat := bitsOf (fieldAt b o 4) lo w

/-- Bytes `o` to `e − 1` are 0. -/
def zerosAt (b : List Byte) (o e : Nat) : Bool := ((b.drop o).take (e - o)).all (· == 0)

def hdrOf (b : List Byte) : Hdr where
  context := bitsAt b 0 20 12
  lc := bitsAt b 0 16 1 == 1
  suppressOk := bitsAt b 0 15 1 == 1
  flags := bitsAt b 0 8 6
  domain := bitsAt b 4 0 10
  tag := BitVec.ofNat 32 (fieldAt b 8 4)
  epoch := BitVec.ofNat 32 (fieldAt b 12 4)

/-- UNITS of a descriptor: the number of 64-byte units of the command. -/
def unitCount (b : List Byte) : Nat := bitsAt b 0 17 2 + 1

/-- Units that an opcode takes (Tables 6-3, 8-1, 17-6; every other is one). -/
def opUnits (opcode : Nat) : Nat := if opcode = 0x03 ∨ opcode = 0x04 then 2 else if opcode = 0x28 then 3 else 1

def attnOfBytes (b : List Byte) (bwd : Bool) : AttnD where
  seq := fieldAt b 16 3
  layer := fieldAt b 20 1
  kvFirst := fieldAt b 21 1
  kvCount := fieldAt b 22 1 + 1
  positions := bitsOf (fieldAt b 23 1) 4 3 + 1
  groupSize := bitsOf (fieldAt b 23 1) 0 4 + 1
  tokFirst := fieldAt b 24 4
  tokEnd := fieldAt b 28 4
  qpos := fieldAt b 32 4
  qfmt := fieldAt b 36 1
  mask := fieldAt b 37 1
  qheadFirst := fieldAt b 38 1
  ofmt := fieldAt b 39 1
  addr := fieldAt b 40 8
  bytes := fieldAt b 48 4
  scale := BitVec.ofNat 32 (fieldAt b 52 4)
  softcap := BitVec.ofNat 32 (fieldAt b 56 4)
  proj := fieldAt b 60 2
  maskA := fieldAt b 64 4
  maskB := fieldAt b 68 4
  mergeConn := fieldAt b 72 3
  level := bitsOf (fieldAt b 75 1) 2 2
  targetLevel := bitsOf (fieldAt b 75 1) 0 2
  contrib := fieldAt b 76 2
  expect := fieldAt b 78 2
  partialAddr := fieldAt b 80 8
  deadlineUs := fieldAt b 88 4
  gradHeadroom := if bwd then bitsOf (fieldAt b 92 1) 0 4 else 0
  originAddr := fieldAt b 96 16
  originPort := fieldAt b 112 2

/-- Reserved bits of an attention descriptor (Tables 6-3, 8-1). -/
def attnRsvd (b : List Byte) (bwd : Bool) : Bool :=
  fieldAt b 19 1 == 0 && bitsOf (fieldAt b 23 1) 7 1 == 0 && zerosAt b 62 64 && bitsOf (fieldAt b 75 1) 4 4 == 0 &&
    (if bwd then zerosAt b 38 39 && zerosAt b 60 62 && bitsOf (fieldAt b 92 1) 4 4 == 0 && zerosAt b 93 96 else zerosAt b 92 96) && zerosAt b 114 128

def lookupOfBytes (b : List Byte) (step : Bool) : LookupD :=
  ⟨BitVec.ofNat 64 (fieldAt b 16 8), BitVec.ofNat 64 (fieldAt b 24 8), fieldAt b 32 1, if step then fieldAt b 36 4 else 0, fieldAt b 40 8⟩

def pairOfBytes (b : List Byte) : PrefixD :=
  ⟨BitVec.ofNat 64 (fieldAt b 16 8), BitVec.ofNat 64 (fieldAt b 24 8), fieldAt b 36 3, fieldAt b 40 4⟩

def rmaOfBytes (b : List Byte) : RmaD :=
  ⟨fieldAt b 16 3, fieldAt b 20 4, fieldAt b 24 8, fieldAt b 32 8, fieldAt b 40 4, BitVec.ofNat 64 (fieldAt b 48 8),
    BitVec.ofNat 64 (fieldAt b 56 8)⟩

def rmaRsvd (b : List Byte) : Bool := fieldAt b 19 1 == 0 && zerosAt b 44 48

/-- A sequence number with its reserved byte. -/
def seqOf (b : List Byte) : Nat := fieldAt b 16 3
def seqRsvd (b : List Byte) : Bool := fieldAt b 19 1 == 0

/-- The opcode's fields and whether its reserved bits are 0. -/
def opFields (o : Nat) (b : List Byte) : Option (Op × Bool) :=
  match o with
  | 0x01 => some (.append ⟨seqOf b, fieldAt b 20 1, fieldAt b 21 1 + 1, fieldAt b 22 1, fieldAt b 24 4, fieldAt b 28 2, fieldAt b 32 8,
      fieldAt b 40 4⟩, seqRsvd b && zerosAt b 23 24 && zerosAt b 30 32 && zerosAt b 44 64)
  | 0x02 => some (.sealOp (seqOf b), seqRsvd b && zerosAt b 20 64)
  | 0x03 => some (.attnFwd (attnOfBytes b false), attnRsvd b false)
  | 0x04 => some (.attnBwd (attnOfBytes b true), attnRsvd b true)
  | 0x05 => some (.gradDrain ⟨seqOf b, fieldAt b 20 1, fieldAt b 21 1 + 1, fieldAt b 24 8, fieldAt b 32 4⟩,
      seqRsvd b && zerosAt b 22 24 && zerosAt b 36 64)
  | 0x06 => some (.pageRead ⟨seqOf b, fieldAt b 20 1, fieldAt b 21 1, fieldAt b 22 1 + 1, fieldAt b 24 4, fieldAt b 28 4, fieldAt b 32 8,
      fieldAt b 40 4⟩, seqRsvd b && zerosAt b 23 24 && zerosAt b 44 64)
  | 0x07 => some (.fork ⟨seqOf b, fieldAt b 20 3, fieldAt b 24 2, fieldAt b 26 2, fieldAt b 28 4, fieldAt b 32 4, fieldAt b 36 4,
      fieldAt b 40 4, fieldAt b 44 4⟩, seqRsvd b && zerosAt b 23 24 && bitsOf (fieldAt b 24 2) 10 6 == 0 && zerosAt b 48 64)
  | 0x08 => some (.compact ⟨seqOf b, fieldAt b 20 1, fieldAt b 21 1 + 1, fieldAt b 22 1, fieldAt b 24 4, fieldAt b 28 4, fieldAt b 32 4,
      fieldAt b 36 4, fieldAt b 40 2⟩, seqRsvd b && zerosAt b 23 24 && zerosAt b 42 64)
  | 0x09 => some (.prefixLookup (lookupOfBytes b false), zerosAt b 33 40 && zerosAt b 48 64)
  | 0x0A => some (.prefixStep (lookupOfBytes b true), zerosAt b 33 36 && zerosAt b 48 64)
  | 0x0B => some (.prefixInsert (pairOfBytes b), zerosAt b 32 36 && zerosAt b 39 40 && zerosAt b 44 64)
  | 0x0C => some (.prefixRemove (pairOfBytes b), zerosAt b 32 36 && zerosAt b 39 40 && zerosAt b 44 64)
  | 0x10 => some (.rmaRead (rmaOfBytes b), rmaRsvd b)
  | 0x11 => some (.rmaWrite (rmaOfBytes b), rmaRsvd b)
  | 0x12 => some (.rmaAdd (rmaOfBytes b), rmaRsvd b)
  | 0x13 => some (.rmaCas (rmaOfBytes b), rmaRsvd b)
  | 0x14 => some (.rmaFlush (rmaOfBytes b), rmaRsvd b)
  | 0x15 => some (.waitCount ⟨bitsAt b 16 0 12, fieldAt b 20 1, fieldAt b 24 8, fieldAt b 32 4⟩,
      bitsAt b 16 12 20 == 0 && zerosAt b 21 24 && zerosAt b 36 64)
  | 0x16 => some (.waitWord ⟨fieldAt b 16 4, fieldAt b 20 1, fieldAt b 21 1, fieldAt b 24 8, fieldAt b 32 4, BitVec.ofNat 64 (fieldAt b 40 8),
      BitVec.ofNat 64 (fieldAt b 48 8)⟩, zerosAt b 22 24 && zerosAt b 36 40 && zerosAt b 56 64)
  | 0x18 => some (.regionRegister ⟨fieldAt b 16 1, fieldAt b 17 1, fieldAt b 18 2, fieldAt b 20 3, fieldAt b 24 8, fieldAt b 32 8,
      fieldAt b 40 4, fieldAt b 44 2⟩, zerosAt b 23 24 && zerosAt b 46 64)
  | 0x19 => some (.regionRevoke ⟨fieldAt b 18 2, fieldAt b 20 4⟩, zerosAt b 16 18 && zerosAt b 24 64)
  | 0x20 => some (.seqCreate ⟨seqOf b, fieldAt b 20 1, fieldAt b 21 1 + 1, fieldAt b 22 1 + 1, fieldAt b 23 1, fieldAt b 24 4, fieldAt b 28 4,
      fieldAt b 32 1, fieldAt b 33 1, fieldAt b 34 2, fieldAt b 36 4⟩, seqRsvd b && zerosAt b 40 64)
  | 0x21 => some (.seqPark (seqOf b), seqRsvd b && zerosAt b 20 64)
  | 0x22 => some (.seqResume (seqOf b), seqRsvd b && zerosAt b 20 64)
  | 0x23 => some (.seqDestroy (seqOf b), seqRsvd b && zerosAt b 20 64)
  | 0x24 => some (.seqMigrate ⟨seqOf b, fieldAt b 24 3, fieldAt b 28 2⟩,
      seqRsvd b && zerosAt b 20 24 && zerosAt b 27 28 && zerosAt b 30 64)
  | 0x28 => some (.ckptExport ⟨seqOf b, fieldAt b 20 1, fieldAt b 24 5, (b.drop 64).take 97⟩,
      seqRsvd b && zerosAt b 21 24 && zerosAt b 29 64 && zerosAt b 161 192)
  | 0x29 => some (.ckptImport ⟨seqOf b, fieldAt b 20 1, fieldAt b 21 1, fieldAt b 24 8, fieldAt b 32 4, fieldAt b 40 8⟩,
      seqRsvd b && zerosAt b 22 24 && zerosAt b 36 40 && zerosAt b 48 64)
  | 0x30 => some (.abort ⟨fieldAt b 16 1, BitVec.ofNat 32 (fieldAt b 20 4), bitsOf (fieldAt b 24 2) 0 12, bitsOf (fieldAt b 26 2) 0 10,
      bitsOf (fieldAt b 28 1) 0 4⟩,
      zerosAt b 17 20 && bitsOf (fieldAt b 24 2) 12 4 == 0 && bitsOf (fieldAt b 26 2) 10 6 == 0 && bitsOf (fieldAt b 28 1) 4 4 == 0 &&
        zerosAt b 29 64)
  | 0x31 => some (.fence, zerosAt b 16 64)
  | 0x32 => some (.nop, zerosAt b 16 64)
  | _ => none

/-- The command that descriptor units spell. -/
def opOfBytes (b : List Byte) : Op :=
  let o := fieldAt b 0 1
  match opFields o b with
  | none => .bad o
  | some (op, ok) =>
    if ok && unitCount b == opUnits o && decide (64 * opUnits o ≤ b.length) && bitsAt b 0 19 1 == 0 && bitsAt b 0 14 1 == 0 &&
      bitsAt b 4 10 22 == 0 then op else .bad o

end Sys2Proof
end

