-- ==== Sys2Proof/Machine/Request.lean ====
section
/-!
DEFINITION. The request engine: admission (R43, R289 to R297, R352, R360, R371), the run of an admitted command, and the
waits it comes back from (R90, R108).
-/

namespace Sys2Proof.Machine

/-! ### The run of a command -/

/-- Refusals that come before a look at a sequence record: R135's, and the first row of Table 5-9. -/
def barred (c : Cmd) : Bool :=
  match c.op with
  | .append _ | .sealOp _ | .prefixInsert _ | .prefixRemove _ => publicRefused c.src c.hdr.domain
  | .fork a => a.srcDomain != c.hdr.domain && a.srcDomain != 0
  | _ => false

/-- The control pages of the units that a command's first step needs: the walk of XLAT, the bank of a search (R29). DEDUCED:
Log 75. -/
def gateUnits (c : Cmd) : List Nat :=
  let bank (k : DWord) : Nat := pgStrt (tagBank (matchTag c.hdr.domain k))
  match c.op with
  | .append _ | .sealOp _ | .fork _ | .compact _ | .pageRead _ | .attnFwd _ | .attnBwd _ => [pgXlat]
  | .prefixLookup a | .prefixStep a => [bank a.keyLo]
  | .prefixInsert a | .prefixRemove a => [pgXlat, bank a.keyLo]
  | _ => []

/-- A unit that takes no work now and that a command has not reached yet. -/
def State.closedUnit (s : State) (c : Cmd) : Option Nat :=
  match c.wait with
  | .none | .turn | .unit _ _ => (gateUnits c).find? (fun pg => !s.unitAdmits pg)
  | _ => none

/-- R275: a command of class LC from a context without LC_EN. -/
def State.lcRefused (s : State) (h : Hdr) (op : Op) : Bool :=
  match op with
  | .abort _ => false
  | _ => h.lc && !((AL.get h.context s.cmds.ctxs).elim false (·.lcEn))

/-- Runs an admitted command: for the first time, or again after a wait. `m` is the manifest that a CKPT_IMPORT has read, and
`ue` whether a served operation meets an uncorrectable error (Log 3). A command whose sequence record is lost ends with ST_POISONED
(R252). DEDUCED: Log 65. -/
def State.runOp (s : State) (c : Cmd) (m : Option Manifest) (ue : Bool) : OpRes :=
  let h := c.hdr
  let part := s.partOf h.context
  let fill (s : State) (v k : Nat) : FillRes := s.startFill h.domain part v k
  let rma (d : RmaD) : OpRes := match c.src with
    | .ring _ => s.sendRma c d
    | .conn k _ => s.serve h k c.op d c.data ue
  if (c.op.needs h.domain).any (fun k => s.recordLost k.1 k.2) && ((attnOf c.op).isNone || c.fallback) && !barred c then
    .done s { status := stPoisoned, c0 := c.c0, c1 := c.c1 }
  else match s.closedUnit c with
  | some pg => .wait s (.unit pg c.wait.space) 0
  | none => match c.op with
  | .append a => s.doAppend fill State.startOverflow c a
  | .sealOp q => s.doSeal fill c q
  | .attnFwd d => if c.fallback then s.doFallback c d else s.doAttn c false d
  | .attnBwd d => s.doAttn c true d
  | .gradDrain d => s.doGradDrain c d
  | .pageRead d => s.doPageRead h c.src d
  | .fork a => s.doFork c a
  | .compact a => s.doCompact c a
  | .prefixLookup a => s.doLookup h c.src a false
  | .prefixStep a => s.doLookup h c.src a true
  | .prefixInsert a => s.doInsert h c.src a
  | .prefixRemove a => s.doRemove h c.src a
  | .rmaRead d => rma d
  | .rmaWrite d => rma d
  | .rmaAdd d => rma d
  | .rmaCas d => rma d
  | .rmaFlush d => rma d
  | .waitCount d => s.doWaitCount h c.src d
  | .waitWord d => s.doWaitWord h c.src d
  | .regionRegister a => s.doRegister h c.src a
  | .regionRevoke a => s.doRevoke c a
  | .seqCreate a => s.doSeqCreate h c.src a
  | .seqPark q => s.doSeqPark h q
  | .seqResume q => s.doSeqResume c q
  | .seqDestroy q => s.doSeqDestroy h q
  | .seqMigrate a => s.doMigrate c a
  | .ckptExport a => s.doExport c a
  | .ckptImport a => (match m with
    | some m => s.doImport c a m
    | none => if (s.jobOfCmd c.id).isSome then s.doImport c a ⟨0, newSeq ⟨0, 0, 1, 1, 0, 0, 0, 0, 0, 0, 0⟩ 0 0, [], [], []⟩
        else .wait s .remote 0)
  | .abort a => s.doAbort c a
  | .fence => s.doFence c
  | .nop => .done s { status := stOk }
  | .bad _ => .done s badDescriptor

/-- Whether the first run of a mutating command is all of its effect on the order of R90, so that its later waits hold no other
command back: a sequence is ACTIVE again before the fills of its SEQ_RESUME land, it is MIGRATING before its pages travel, and an export
has its snapshot. The spec says so of the export (Table 17-8 step 1) and not of SEQ_RESUME with PREFETCH = 1. DESIGN CHOICE:
Log 74. -/
def effectsAtOnce : Op → Bool
  | .seqResume _ | .seqMigrate _ | .ckptExport _ => true
  | _ => false

/-- Whether a command that waits so has begun: a unit has taken it in. -/
def begun : Wait → Bool
  | .none | .turn | .unit _ _ => false
  | _ => true

/-- A wait for a victim that goes on keeps the time at which it began. -/
def sinceFirst (old new : Wait) : Wait :=
  match old, new with
  | .victim _ a _ _, .victim t _ b x => .victim t a b x
  | _, w => w

/-- What a run leaves of its command. COUNT0 of earlier waits adds to that of a result that succeeds; a COMPACT has added it
itself. Space that is held no longer goes back, and a job that the command leaves behind is closed. -/
def State.applyRes (id : Nat) : OpRes → State
  | .done s r => match s.cmd id with
    | none => s
    | some c =>
      let own := match c.op with | .compact _ => true | _ => false
      let s := match s.jobOfCmd id with | some j => s.closeJob j | none => s
      s.finishHeld c (if own || decide (0x10 ≤ r.status) then r else { r with c0 := r.c0 + c.c0 })
  | .wait s w n => match s.cmd id with
    | none => s
    | some c => (s.setCmd { c with wait := sinceFirst c.wait w, c0 := c.c0 + n, effected := c.effected || (effectsAtOnce c.op && begun w) }).dropSpace
        c.hdr.domain (spaceLess c.wait.space w.space)

def State.run (s : State) (c : Cmd) (m : Option Manifest) (ue : Bool) : State := State.applyRes c.id (s.runOp c m ue)

/-! ### Admission -/

/-- R156: the fragment bound of R296, as an admission needs it. -/
def State.fragBound (s : State) (h : Hdr) : Bool := decide (32768 - s.eng.frags.length < 64) || !s.fragSlot h.context

/-- What step 5 says of an opcode's own bounds (R183, R296, R359, R360): met or not. -/
def State.opBound (s : State) (src : Source) (h : Hdr) (op : Op) : Bool :=
  match op with
  | .attnFwd _ => s.fragBound h || s.anchorShort src h op
  | .attnBwd _ => s.fragBound h || s.anchorShort src h op
  | .waitWord _ => decide (4096 ≤ s.watches)
  | _ => isRing src && isRemoteOp op && decide (49152 ≤ s.outRing)

/-- ABORT and FENCE (R289). -/
def isControlOp : Op → Bool
  | .abort _ | .fence => true
  | _ => false

/-- How a submitted command is received. -/
inductive Admission where
  | accept (fallback : Bool)
  | refuse (status c0 : Nat) (policed : Bool)
  | stay
  deriving DecidableEq, Repr

/-- R453 step 1: while an EVACUATE runs, new commands other than ABORT and FENCE are turned away. -/
def State.evacuating (s : State) (op : Op) : Option (Nat × Nat) :=
  match s.fw.evac with
  | none => none
  | some e => if isControlOp op then none else if e.d.mode = 1 then some (stReroute, e.d.targetSlot) else some (stBusy, 1000)

/-- Steps 1 to 5 of Table 2-19. -/
def State.admission (s : State) (src : Source) (h : Hdr) (op : Op) : Admission :=
  let bound (n : Nat) : Admission := if isRing src then .stay else .refuse stBusy n false
  match s.admit14 src h op with
  | .refuse st n => .refuse st n false
  | .stay => .stay
  | .ok => match s.evacuating op, s.admit5 src h op with
    | some (st, n), _ => .refuse st n false
    | none, .refuse st n => .refuse st n false
    | none, .stay => .stay
    | none, .ok =>
      if !isRing src && !isControlOp op && s.policed h.domain then .refuse stBusy (s.policeHint h.domain) true
      else if !s.opBound src h op then .accept false
      else match op with
        | .attnFwd _ => if h.flag 1 && !s.anchorShort src h op then .accept true else bound (hint s.fresh)
        | _ => bound (hint s.fresh)

/-- Earlier commands of one of the sequences that have not taken effect (R90). -/
def State.mustTurn (s : State) (d : Nat) (op : Op) : Bool := (op.mutates d).any (fun k => decide (0 < s.mutatingWaits k))

/-- NEXT_POS of the sequence of a COMPACT (R216). -/
def State.nextAt (s : State) (d : Nat) : Op → List Nat
  | .compact a => (s.seqRec d a.seq).elim [] (·.nextPos)
  | _ => []

/-- A command counts in its ring as fetched and not completed. -/
def State.countIn (s : State) : Source → State
  | .ring n => s.setRing n { s.ring n with inflight := (s.ring n).inflight + 1 }
  | .conn _ _ => s

/-- The SEEDs of the tiles' append units as an APPEND takes them at its admission (R119). -/
def State.seedsFor (s : State) : Op → List Nat
  | .append _ => (List.range 24).map s.seedOf
  | _ => []

/-- A number that no admitted command has, and no checkpoint job, attention job or fragment names. -/
def State.cmdNumber (s : State) : Nat :=
  (s.cmds.list.map (fun c : Cmd => c.id) ++ s.ckpt.jobs.map (fun p : Nat × Job => p.2.cmd) ++
    s.eng.jobs.map (fun p : Nat × AttnJob => p.1) ++ s.eng.frags.map (fun p : Nat × Frag => p.2.cmd)).foldl (fun n i => max n (i + 1)) s.cmds.nextId

/-- The command that a request becomes when it is admitted, under a number that no admitted command has. -/
def State.newCmd (s : State) (q : Req) (op : Op) (fallback : Bool) : Cmd :=
  ⟨s.cmdNumber, q.src, q.hdr, op, q.data, s.nrt, if s.mustTurn q.hdr.domain op then .turn else .none, false, 0, 0, 0,
    s.nextAt q.hdr.domain op, fallback, s.seedsFor op⟩

/-- The state that has taken the command in: counted in its ring or charged to its domain, and among the admitted commands. -/
def State.taken (s : State) (q : Req) (op : Op) (len : Nat) (c : Cmd) : State :=
  let s := s.countIn q.src
  let s := if isRing q.src || isControlOp op then s else s.policeTake q.hdr.domain len
  { s with cmds := { s.cmds with nextId := c.id + 1, list := s.cmds.list ++ [c] } }

/-- Takes an admitted command in and runs it, or lets it wait for its turn. -/
def State.enter (s : State) (q : Req) (op : Op) (len : Nat) (fallback : Bool) (m : Option Manifest) (ue : Bool) : State :=
  let c := s.newCmd q op fallback
  let s' := s.taken q op len c
  if s.lcRefused q.hdr op then s'.finish c { status := stUnsupported }
  else if s.mustTurn q.hdr.domain op then s' else s'.run c m ue

/-- A command refused at admission (R43, R45): it completes with no effect; a refused wait skips as R355 says. -/
def State.turnAway (s : State) (q : Req) (op : Op) (status c0 : Nat) (policed : Bool) : State :=
  let s := s.countIn q.src
  let s := if policed then s.policeRefused q.hdr.domain else s
  (s.deliver q.src q.hdr op.code { status := status, c0 := c0 }).skipAfter q.src op status

/-- A command reaches the request engine. `len` is the length of its request message. None: it stays where it is. -/
def State.submit (s : State) (q : Req) (op : Op) (len : Nat) (m : Option Manifest) (ue : Bool) : Option State :=
  match s.admission q.src q.hdr op with
  | .stay => none
  | .refuse st n p => some (s.turnAway q op st n p)
  | .accept fb => some (s.enter q op len fb m ue)

/-- The descriptor command of a row: one that must stay with its sender changes nothing. -/
def State.command (s : State) (q : Req) (op : Op) : State := (s.submit q op (64 * opUnits op.code + q.data.length) none false).getD s

/-- A remote operation that arrives and is served, with what the read of its region met (R345). DEDUCED: Log 25. -/
def State.served (s : State) (q : Req) (op : Op) (ue : Bool) : State := (s.submit q op (64 + q.data.length) none ue).getD s

/-- CKPT_IMPORT with the manifest it reads: a command that already waits for its manifest goes on, any other is admitted. -/
def State.importFrom (s : State) (q : Req) (d : ImportD) (m : Manifest) : State :=
  match s.cmds.list.find? (fun (c : Cmd) => c.src == q.src && c.hdr == q.hdr && c.op == .ckptImport d && c.wait == .remote) with
  | some c => s.run c (some m) false
  | none => (s.submit q (.ckptImport d) (64 + q.data.length) (some m) false).getD s

/-! ### Waits that end without an event of their own -/

/-- Whether a command of `c`'s sequences that was admitted before it has not taken effect (R90). -/
def State.turnHeld (s : State) (c : Cmd) : Bool :=
  let ks := c.op.mutates c.hdr.domain
  s.cmds.list.any (fun x => decide (x.id < c.id) && !x.effected && (x.op.mutates x.hdr.domain).any (fun k => ks.contains k))

/-- A command that waits for a victim line runs again when that gets it further: its line is there, or another write-back
starts for it (R228). -/
def State.tryVictim (s : State) (c : Cmd) : State :=
  match s.runOp c none false with
  | .wait s' (.victim t n b x) k => if s'.kv.lines == s.kv.lines then s else State.applyRes c.id (.wait s' (.victim t n b x) k)
  | .wait s' (.unit pg x) k => if c.wait == .unit pg x then s else State.applyRes c.id (.wait s' (.unit pg x) k)
  | r => State.applyRes c.id r

/-- A command whose pages have landed runs again; FAULTS has counted their translations (R116). -/
def State.afterFills (s : State) (c : Cmd) (ps : List (Nat × Nat)) : State :=
  let s' := State.applyRes c.id ((s.setKv { s.kv with walked := ps }).runOp c none false)
  s'.setKv { s'.kv with walked := [] }

/-- Looks at one command again: its turn has come, its pages have landed, a line or a slot is free, its FENCE or ABORT is
over. -/
def State.lookAgain (s : State) (id : Nat) : State :=
  match s.cmd id with
  | none => s
  | some c =>
    match c.wait with
    | .turn => if s.turnHeld c then s else s.run c none false
    | .fills ps _ => if ps.any (fun p => s.pagePending p.1 p.2) then s else s.afterFills c ps
    | .victim _ _ _ _ => s.tryVictim c
    | .unit pg _ => if s.unitAdmits pg then s.tryVictim c else s
    | .slots => s.run c none false
    | .frags => s.releaseFrags id
    | .fence _ => s.settleFence c
    | .aborting _ _ => s.settleAbort id
    | .dying _ => if s.hasFrags id then s else s.settleDying id
    | _ => s

/-- Looks at every command, in admission order, and releases what is left of ended ones. -/
def State.lookAll (s : State) : State :=
  let s := (s.cmds.list.map (·.id)).foldl (fun (s : State) i => s.lookAgain i) s
  (s.eng.jobs.filter (fun (p : Nat × AttnJob) => p.2.doneEarly)).foldl (fun (s : State) p => s.releaseFrags p.1) s

end Sys2Proof.Machine
end

