-- ==== Sys2Proof/Machine/Messages.lean ====
section
/-!
DEFINITION. Messages that have arrived whole: request messages are admitted in MSG_ID order (R324, R500, R295), response and
control messages are delivered (Table 13-8), and the answers to the node's own operations (R346, R347).
-/

namespace Sys2Proof.Machine

/-! ### Requests -/

/-- The request that a request message carries. DEDUCED: Log 13. -/
def reqOfMsg (conn : Nat) (m : InMsg) : Req × Op × Nat :=
  let b := InMsg.bytes m
  (⟨.conn conn m.msgId, hdrOf b, b.drop (64 * opUnits (fieldAt b 0 1))⟩, opOfBytes b, b.length)

def Conn.request (c : Conn) (msgId : Nat) : Option InMsg :=
  c.inMsgs.find? (fun (m : InMsg) => m.lane == .request && m.msgId == msgId && m.complete)

/-- Puts an admitted message to the request engine. A message that must stay is held in arrival order, at most 64 of them
behind a FENCE; a further one is answered ST_BUSY (R289, R295). -/
def State.admitMsg (s : State) (c : Conn) (m : InMsg) : State :=
  let q := reqOfMsg c.index m
  let hold : State := s.setConn { c with held := c.held ++ [m.msgId] }
  if !c.held.isEmpty && !(match q.2.1 with | .abort _ => true | _ => false) then
    if c.held.length < 64 then hold else s.turnAway q.1 q.2.1 stBusy (hint s.fresh) false
  else match s.submit q.1 q.2.1 q.2.2 none false with
    | some s => s
    | none => if c.held.length < 64 || isControlOp q.2.1 then hold else s.turnAway q.1 q.2.1 stBusy (hint s.fresh) false

/-- Admits the messages of a connection whose turn it is. DEDUCED: Log 67. -/
def State.admitNext (conn : Nat) : Nat → State → State
  | 0, s => s
  | n + 1, s =>
    match s.conn conn with
    | none => s
    | some c0 =>
      let c := Conn.settleN c0
      match if s.xprtAdmits && s.unitAdmits pgIngp then Conn.request c c.nextReq else none with
      | none => s.setConn c
      | some m =>
        let c := { c with nextReq := (c.nextReq + 1) % 2 ^ 24 }
        State.admitNext conn n ((s.setConn c).admitMsg c m)

/-- Tries the messages that a connection holds back, in order, up to the first that must stay. -/
def State.releaseHeld (conn : Nat) : Nat → State → State
  | 0, s => s
  | n + 1, s =>
    match s.conn conn with
    | none => s
    | some c => match c.held with
      | [] => s
      | i :: is => match Conn.request c i with
        | none => State.releaseHeld conn n (s.setConn { c with held := is })
        | some m =>
          let q := reqOfMsg c.index m
          match (s.setConn { c with held := is }).submit q.1 q.2.1 q.2.2 none false with
          | none => s
          | some s => State.releaseHeld conn n s

def State.admitConn (s : State) (conn : Nat) : State :=
  let n := (s.conn conn).elim 0 (fun c => c.held.length + c.inMsgs.length + 1)
  State.admitNext conn n (State.releaseHeld conn n s)

/-! ### Answers to the node's own operations -/

/-- A target has answered through a peer entry with ST_REGION_REVOKED: it is REVOKED without draining, and revokes that wait for it
complete (R351, Table 14-8). -/
def State.peerRevoked (s : State) (d i : Nat) (e : PeerEntry) : State :=
  ((if e.st = .revoking then s.endRevokes (.peer d i) e.drained e.refused else s)).setPeer d i { e with st := .revoked }

/-- A response to an outbound operation (R323, R346). A late response of an abandoned operation is discarded (R293). -/
def State.rmaAnswered (s : State) (conn msgId status c0 c1 : Nat) (data : List Byte) : State :=
  match s.outboundOf conn msgId with
  | none => s
  | some o =>
    let s := s.dropOutbound o
    let s := match o.peer with
      | some (d, i) => (match s.peer d i with
        | some e => if status = stRegionRevoked then s.peerRevoked d i e else s
        | none => s)
      | none => s
    let s :=
      if o.abandoned then s
      else match o.who with
        | .cmd id => (match s.cmd id with
          | none => s
          | some c =>
            let out := match c.op with | .rmaRead _ => status == stOk | _ => false
            let addr := match c.op with | .rmaRead d => d.localAddr | _ => 0
            s.finish c { status := status, c0 := c0, c1 := c1, addr := addr, out := if out then data else [] })
        | .fill d v => if status = stOk then s else s.fillLost d v
        | .job id => if status = stOk then s.jobProgress id else s.failJob id status
    s.pumpOutbound

/-! ### Responses and control messages -/

/-- The partial-result record that bytes spell (Table 7-1). -/
def partialOfBytes (b : List Byte) : PartialRec :=
  let f := fieldAt b 5 1
  let lv := fieldAt b 6 1
  let rows := fieldAt b 16 2
  let dv := fieldAt b 18 2
  let bf := bitOf f 6
  let sum := bitOf f 5
  let ml := if sum then 0 else 8 * rows
  let esz := if bf then 2 else 4
  let w (o : Nat) : Word := BitVec.ofNat 32 (fieldAt b o 4)
  let elem (r i : Nat) : Word :=
    let o := 128 + ml + (r * dv + i) * esz
    if bf then f32OfBF16 (fieldAt b o 2) else w o
  { tag := w 0, status := fieldAt b 4 1, final := bitOf f 7, obf16 := bf, sum := sum, degraded := bitOf f 4, localMissing := bitOf f 3
    level := bitsOf lv 2 2, targetLevel := bitsOf lv 0 2, epoch := w 8, contrib := fieldAt b 12 2, expect := fieldAt b 14 2
    rows := rows, dv := dv, deadlineUs := fieldAt b 20 4, tokens := fieldAt b 24 8, pages := fieldAt b 32 8, domain := fieldAt b 40 2
    merged := fieldAt b 42 2, originAddr := fieldAt b 48 16, originPort := fieldAt b 64 2
    missing := BitVec.ofNat 256 (fieldAt b 96 32)
    body := if b.length < 128 + ml + rows * dv * esz then [] else (List.range rows).map (fun r =>
      ⟨(List.range dv).map (elem r), if sum then f32NegInf else w (128 + 8 * r), if sum then 0 else w (132 + 8 * r)⟩)
    msgLen := b.length }

/-- A response message (Table 13-8): its slots are freed once it has been taken (R326). -/
def State.response (s : State) (c : Conn) (m : InMsg) : State :=
  let b := InMsg.bytes m
  let kind := bitsOf (fieldAt b 3 1) 4 4
  let req := fieldAt b 0 3
  let s := s.setConn { c with inMsgs := c.inMsgs.filter (fun (x : InMsg) => !(x.lane == m.lane && x.msgId == m.msgId)) }
  if kind = 0 then s.rmaAnswered (connId c) req (fieldAt b 20 1) (fieldAt b 24 4) (fieldAt b 28 4) (b.drop 48)
  else if kind = 1 then s.partialIn c.index m.msgId (partialOfBytes (b.drop 16))
  else if kind = 2 then s.partialStatus c.index req (fieldAt b 20 1) (fieldAt b 24 4)
  else s

/-- A control message (Table 13-8). The node keeps nothing of an ABORT_NOTICE. DEDUCED: Log 48. -/
def State.control (s : State) (c : Conn) (m : InMsg) : State :=
  let code := fieldAt (InMsg.bytes m) 0 4
  let s := s.setConn { c with inMsgs := c.inMsgs.filter (fun (x : InMsg) => !(x.lane == m.lane && x.msgId == m.msgId)) }
  if code = 2 then s.closeIn c.index else if code = 3 then s.closeAcked c.index else s

/-- Delivers the complete response and control messages of a connection. -/
def State.deliverMsgs (s : State) (conn : Nat) : State :=
  match s.conn conn with
  | none => s
  | some c => (c.inMsgs.filter (fun (m : InMsg) => m.complete && m.lane != .request)).foldl (fun (s : State) m =>
      match s.conn conn with
      | none => s
      | some c => if m.lane == .response then s.response c m else s.control c m) s

/-- A DATA packet (R306), and what its message does once it is whole. -/
def State.packet (s : State) (p : DataPkt) : State := ((s.dataIn p).deliverMsgs p.index).admitConn p.index

end Sys2Proof.Machine
end

