-- ==== Sys2Proof/Machine/Fetch.lean ====
section
/-!
DEFINITION. RING_FETCH (R468): the command at SQ_HEAD is fetched and admitted, or its ring is BLOCKED (R505).
-/

namespace Sys2Proof.Machine

/-- The whole command at SQ_HEAD: its descriptor units. -/
def State.ringWhole (s : State) (n : Nat) : Option (List Byte) :=
  let r := s.ring n
  let size := s.sqSize n
  let avail := (r.tail + size - r.sqHead) % size
  let unit (i : Nat) : List Byte := s.ringRead (s.sqBase n + (r.sqHead + i) % size * 64) 64
  let k := unitCount (unit 0)
  if 0 < avail ∧ k ≤ avail then some ((List.range k).flatMap unit) else none

/-- A WAIT_COUNT or WAIT_WORD of the ring has not completed (R355). -/
def State.ringWaits (s : State) (n : Nat) : Bool :=
  s.cmds.list.any (fun (c : Cmd) => c.src == .ring n && (c.op.code == 0x15 || c.op.code == 0x16))

/-- Holds of R505 that do not depend on the command. -/
def State.ringHolds (s : State) (n : Nat) : Bool := decide (s.freeRecords n ≤ (s.ring n).inflight) || s.ringWaits n

/-- The ring after its command has been fetched. -/
def State.advanceSq (s : State) (n units : Nat) : State :=
  let r := s.ring n
  let s := { s with host := { s.host with turn := s.host.turn + 1 } }
  s.setRing n { r with sqHead := (r.sqHead + units) % s.sqSize n, rrTurn := s.host.turn, skip := r.skip - 1, blocked := false }

/-- The command at SQ_HEAD taken by the request engine; none when it stays (R297). -/
def State.takeHead (s : State) (n : Nat) (b : List Byte) : Option State :=
  let q : Req := ⟨.ring n, hdrOf b, []⟩
  let s1 := s.advanceSq n (b.length / 64)
  if 0 < (s.ring n).skip then some (s1.turnAway q (opOfBytes b) stAborted 0 false)
  else s1.submit q (opOfBytes b) b.length none false

/-- Conditions of R468 that are not a hold. DESIGN CHOICE: Log 49. -/
def State.ringMayFetch (s : State) (n : Nat) : Bool := (s.ring n).st == .running && s.pageAdmits pgDbel && s.anySession

def State.ringFetch (s : State) (n : Nat) : State :=
  if !s.ringMayFetch n then s
  else match s.ringWhole n with
    | none => s
    | some b =>
      let hold : State := s.setRing n { s.ring n with blocked := true }
      if s.ringHolds n then hold
      else (s.takeHead n b).getD hold

/-- Whether the ring is held for a reason of R505. -/
def State.ringBlocked (s : State) (n : Nat) : Bool :=
  (s.ring n).st == .running && (match s.ringWhole n with
    | none => false
    | some b => s.ringHolds n || (s.takeHead n b).isNone)

/-- The state of every ring as R505 gives it. -/
def State.markBlocked (s : State) : State :=
  s.host.rings.foldl (fun (s : State) (p : Nat × Ring) => s.setRing p.1 { s.ring p.1 with blocked := s.ringBlocked p.1 }) s

end Sys2Proof.Machine
end

