-- ==== Sys2Proof/Machine/Lease.lean ====
section
/-!
DEFINITION. The lease, epochs and the fabric slot (R411 to R420).
-/

namespace Sys2Proof.Machine

def State.setLease (s : State) (l : LeaseState) : State := { s with lease := l }

/-- LCFG.LEASE_MS, clamped (Table 17-12). -/
def State.leaseMs (s : State) : Nat := min 1000 (max 10 (s.fld pgNode 0x204 0 10))

/-- A read of LREQ (R412): a new serial, its time of issue recorded; the two most recent are kept. -/
def State.leaseReq (s : State) : State × Word :=
  let n : Word := BitVec.ofNat 32 (s.lease.issued + 1)
  (s.setLease { s.lease with issued := s.lease.issued + 1, serials := ((n, s.nrt) :: s.lease.serials).take 2 }, n)

/-- The order of issue and T0 of a serial that a renewal may name: one of the two most recent, not older than the one held. -/
def State.serialAt (s : State) (n : Word) : Option (Nat × Nat) :=
  match s.lease.serials.findIdx? (fun p => p.1 == n) with
  | none => none
  | some i =>
    let idx := s.lease.issued - i
    if idx < s.lease.heldIdx then none else (s.lease.serials[i]?).map (fun p => (idx, p.2))

/-- Extends the lease from the time of the serial's issue (R412). -/
def State.extend (s : State) (n : Word) (at' : Nat × Nat) : State :=
  s.setLease { s.lease with
    held := some n, heldIdx := at'.1, expiry := max s.lease.expiry (at'.2 + msTicks s.leaseMs), lowSent := false }

/-- GO.RENEW: none where it is refused under R32. -/
def State.renew (s : State) : Option State :=
  let n := s.reg pgNode 0x20C
  if s.lease.st ≠ .leased then none else (s.serialAt n).map (fun p => s.extend n p)

/-- Closes the connections bound to a composition other than `keep` (R417), or to `drop` (R420). DEDUCED: Log 52. -/
def State.closeBound (s : State) (f : Nat → Bool) : State :=
  (s.net.conns.filter (fun (p : Nat × Conn) => p.2.composition != 0xFFFF && f p.2.composition)).foldl (fun (s : State) p => s.startClose p.1) s

/-- GO.GRANT: from UNLEASED with any slot, from LEASED with the held one (R417). After a fence the epoch must differ from the two
last held (R416). -/
def State.grant (s : State) : Option State :=
  let n := s.reg pgNode 0x20C
  let comp := s.fld pgNode 0x210 16 10
  let slot := s.fld pgNode 0x210 0 16
  let epoch := s.reg pgNode 0x214
  let ok := match s.lease.st with
    | .unleased => !(s.lease.rejoined && s.lease.last.contains epoch)
    | .leased => s.lease.comp == some (comp, slot)
    | .fenced => false
  if !ok then none
  else match s.serialAt n with
    | none => none
    | some p =>
      let from' := s.lease.st
      let s := s.extend n p
      let grace := msTicks (min (s.fld pgNode 0x218 0 11) (2 * s.leaseMs))
      let l := s.lease
      let l :=
        if from' = .unleased then { l with cur := epoch, prev := none, graceTill := 0 }
        else if epoch = l.cur then l
        else { l with cur := epoch, prev := some l.cur, graceTill := s.nrt + grace }
      some ((s.setLease { l with
        st := .leased, comp := some (comp, slot), rejoined := false
        last := (epoch :: l.last.filter (· != epoch)).take 2 }).closeBound (fun c => c != comp))

/-- GO.RELEASE (R420). -/
def State.releaseSlot (s : State) : Option State :=
  match s.lease.st, s.lease.comp with
  | .leased, some (c, _) =>
    some ((s.setLease { s.lease with st := .unleased, comp := none, prev := none, graceTill := 0, held := none, heldIdx := 0, expiry := 0, cur := 0 }).closeBound
      (fun x => x == c))
  | _, _ => none

/-- A FENCED node becomes UNLEASED (R416). DEDUCED: Log 52. -/
def State.unfence (s : State) : State :=
  s.setLease { s.lease with st := .unleased, comp := none, prev := none, graceTill := 0, held := none, heldIdx := 0, expiry := 0, cur := 0, rejoined := true }

/-- GO.REJOIN = DISCARD: every sequence is destroyed, merge contexts and gradient regions are freed, and connections bound to the
old composition are lost (R416). DEDUCED: Log 73. -/
def State.rejoinDiscard (s : State) : Option State :=
  if !s.nodeFenced then none
  else
    let s := s.kv.seqs.foldl (fun (s : State) p => (s.destroySeq p.1.1 p.1.2 p.2).1) s
    let s := s.eng.grads.foldl (fun (s : State) g => s.dropGrad g.1) s
    let s := s.setEng { s.eng with merge := [], headroom := [] }
    let s := (s.net.conns.filter (fun (p : Nat × Conn) => p.2.composition != 0xFFFF)).foldl (fun (s : State) p =>
      let s := s.setNet { s.net with lost := s.net.lost ++ [connId p.2] }
      s.endConn p.2) s
    some s.sweepSets.unfence

/-- GO.REJOIN = REINSTATE: all state stays (R416). DEDUCED: Log 73. -/
def State.rejoinKeep (s : State) : Option State := if s.nodeFenced then some s.unfence else none

/-- LEASE_EXPIRE (R414). -/
def State.leaseExpire (s : State) : State :=
  if s.lease.st = .leased ∧ s.lease.expiry ≤ s.nrt then
    (s.logErr pgNode 4 0 (s.lease.held.getD 0).toNat).fenceNode 1
  else s

/-- LEASE_LOW (Table 17-12): raised once for each time LEFT falls below LOW_MS. -/
def State.leaseLow (s : State) : State :=
  if s.lease.st = .leased ∧ s.lease.lowSent = false ∧ s.lease.expiry < s.nrt + msTicks (s.fld pgNode 0x204 16 10) then
    (s.setLease { s.lease with lowSent := true }).setIrq pgNode 8
  else s

/-- GRACE_END. -/
def State.graceEnd (s : State) : State :=
  if s.lease.prev.isSome ∧ s.lease.graceTill ≤ s.nrt then (s.setLease { s.lease with prev := none, graceTill := 0 }).setIrq pgNode 2 else s

end Sys2Proof.Machine
end

