-- ==== Sys2Proof/Machine/Security.lean ====
section
/-!
DEFINITION. SEC: the attestation report (R379, R380), host sessions (R381 to R383), the audit head (R402), the TRNG (R376)
and inspection grants (R400).
-/

namespace Sys2Proof.Machine

def State.setSec (s : State) (x : SecState) : State := { s with sec := x }
def State.setFw (s : State) (x : FwState) : State := { s with fw := x }

/-! ### Cores and images, as SEC reports them -/

def State.core (s : State) (c : Nat) : CoreRec := AL.getD c .blank s.fw.cores
def State.setCore (s : State) (c : Nat) (r : CoreRec) : State := s.setFw { s.fw with cores := AL.put c r s.fw.cores }
def State.kind (s : State) (k : Nat) : ImgKind := AL.getD k .blank s.fw.kinds
def State.setKind (s : State) (k : Nat) (x : ImgKind) : State := s.setFw { s.fw with kinds := AL.put k x s.fw.kinds }
/-- Image kind of a core: 0 SEC, 1 PMC, 2 SCH, 3 CCC. -/
def coreKind (c : Nat) : Nat := min c 3
/-- SEC runs its firmware and may draw random values (R376, Table 18-9). -/
def State.secUp (s : State) : Bool := (s.core 0).up && !s.sec.trngBad

/-- A slot holds a valid image of the kind (R443). -/
def slotOk (k : ImgKind) (slot : Nat) : Bool := (AL.get slot k.slots).any (fun (v : Nat × Nat) => decide (k.fuse ≤ v.2))

/-- No image of a kind is valid: of SEC, the ROM recovery program runs (R489). -/
def noImage (k : ImgKind) : Bool := !k.host && !slotOk k 0 && !slotOk k 1

/-! ### The attestation report (Table 16-3) -/

/-- A measurement of the report (R377): 0 ROM, 1 to 4 the images that run, 5 the configuration. MEAS_SEC of the recovery program is zero (R489). -/
def State.measured (s : State) (k : Nat) : List Byte :=
  if k = 1 ∧ noImage (s.kind 0) then leBytes 48 0
  else leBytes 48 (Config.measurement k (if 1 ≤ k ∧ k ≤ 4 then (s.core (k - 1)).version else 0)).toNat

/-- The node runs with a fenced tile. -/
def State.degraded (s : State) : Bool := (List.range 24).any s.tileFenced

def State.opkState (s : State) : Nat :=
  (List.range 4).foldl (fun n i => n + (match AL.get i s.sec.opk with | none => 0 | some (_, r) => if r then 2 else 1) * 4 ^ i) 0

def State.reportBytes (s : State) (nonce : BitVec 256) : List Byte :=
  let flags := b2n (!s.sec.opk.isEmpty) + b2n (s.fw.kinds.any (fun (p : Nat × ImgKind) => p.2.host)) * 2 + b2n s.degraded * 4 +
    b2n (s.pw.st == .unleavened) * 8
  let meas := (List.range 6).flatMap s.measured
  let body := leBytes 2 1 ++ leBytes 2 704 ++ leBytes 4 flags ++ leBytes 48 Config.deviceId.toNat ++ leBytes 32 nonce.toNat ++
    leBytes 8 s.nrt ++ leBytes 4 s.fw.bootCount ++ leBytes 2 0x211 ++ leBytes 2 0 ++ meas ++
    (List.range 4).flatMap (fun k => leBytes 4 (s.kind k).fuse) ++ leBytes 4 s.sec.debug ++ leBytes 4 0 ++
    leBytes 8 (s.sec.auditSeq - 1) ++ leBytes 48 s.sec.auditHead.toNat ++ Config.dxkPub.take 97 ++
    List.replicate (97 - (Config.dxkPub.take 97).length) 0 ++ leBytes 3 0 ++ leBytes 4 s.opkState ++
    (match s.lease.comp with
      | none => leBytes 2 0xFFFF ++ leBytes 2 0
      | some (c, f) => leBytes 2 c ++ leBytes 2 f) ++ leBytes 4 s.lease.cur.toNat ++ leBytes 24 0
  body ++ leBytes 96 (Config.signature 0 body).toNat

/-- REPORT_RESIGN: the window report of the SECC page (R380). -/
def State.reportResign (s : State) : State :=
  if s.secUp then s.setSec { s.sec with report := s.reportBytes 0, reportAt := s.nrt, reportHead := s.sec.auditHead } else s

/-- AUDIT_HEAD_FLUSH (R402): at most once per second, and only when the head has changed. -/
def State.flushHead (s : State) : State := s.setSec { s.sec with flushed := (s.sec.auditSeq - 1, s.sec.auditHead), flushedAt := s.nrt }

def State.auditHeadFlush (s : State) : State :=
  if s.sec.auditHead ≠ s.sec.flushed.2 ∧ (s.sec.flushedAt = 0 ∨ s.sec.flushedAt + msTicks 1000 ≤ s.nrt) then s.flushHead else s

/-- Sets DEBUG bits of the report, with their audit entry (R399). -/
def State.setDebug (s : State) (bit agent : Nat) : State :=
  let d := s.sec.debug ||| 2 ^ bit
  (s.setSec { s.sec with debug := d }).audit 0x12 none agent d

/-- TRNG_FAIL (R376). -/
def State.trngFail (s : State) (test : Nat) : State :=
  (s.setSec { s.sec with trngBad := true }).logErr pgSecc 1 test 0

/-! ### Inspection grants (R400) -/

def State.grantOf (s : State) (d : Nat) : Option (Nat × Grant) := s.sec.grants.find? (fun (p : Nat × Grant) => p.2.domain == d)

/-- Closes a grant: its audit entry carries the bytes read under it. -/
def State.closeGrant (s : State) (g agent : Nat) : State :=
  match AL.get g s.sec.grants with
  | none => s
  | some x => (s.setSec { s.sec with grants := AL.del g s.sec.grants }).audit 0x10 (some x.domain) agent (g + min x.read (2 ^ 32 - 1) * 2 ^ 32)

def State.closeGrants (s : State) (agent : Nat) : State :=
  s.sec.grants.foldl (fun (s : State) (p : Nat × Grant) => s.closeGrant p.1 agent) s

/-- Lifetime of a grant. -/
def State.inspMax (s : State) : Nat := min 3600 (max 1 (s.fld pgSecc 0x124 0 12))

/-- INSPECT_EXPIRE. -/
def State.inspectExpire (s : State) (g : Nat) : State :=
  match AL.get g s.sec.grants with
  | none => s
  | some x => if x.openedAt + msTicks (1000 * s.inspMax) ≤ s.nrt then s.closeGrant g 2 else s

/-! ### Host sessions (R381 to R383) -/

def sessionId (r : LinkRec) : Word := match r.session with | .opened i => i | _ => 0

/-- What the end of a session on a link brings besides what the link itself does: its audit entry, and the closing of every
grant. `old` is the state before. DEDUCED: Log 44. -/
def State.sessionsAfter (old s : State) : State :=
  [Link.a, Link.b].foldl (fun (s : State) l =>
    if (old.link l).sessionOpen && !(s.link l).sessionOpen then
      (s.audit 2 none (Link.num l) (Link.num l + (sessionId (old.link l)).toNat * 2 ^ 32)).closeGrants (Link.num l)
    else s) s

/-- LS_CHALLENGE (Table 16-4): a fresh NONCE_N, the report and the certificate chain. -/
def State.challenge (s : State) (l : Link) (nonceH : BitVec 256) : State :=
  let n := Config.randomKey s.fresh
  let s := s.nextFresh
  let s := s.setLink l { s.link l with session := .challenged nonceH n }
  s.emitFlit l (.session 2 (leBytes 32 n.toNat ++ s.reportBytes nonceH ++ Config.certChain (s.core 0).version))

/-- LS_RESULT. -/
def State.lsResult (s : State) (l : Link) (result : Nat) (id : Word) : State :=
  s.emitFlit l (.session 4 (leBytes 1 result ++ leBytes 4 id.toNat))

/-- LS_HELLO: answered at once, or after the 100 ms that follow a refused LS_PROOF. A link that holds a session ignores it.
DEDUCED: Log 44. -/
def State.lsHello (s : State) (l : Link) (nonceH : BitVec 256) : State :=
  let r := s.link l
  if !s.linkTalks l || r.sessionOpen then s
  else if !s.secUp || !s.awake then s.lsResult l 3 0
  else if s.nrt < r.refusedTill then s.setLink l { r with session := .waiting nonceH r.refusedTill }
  else s.challenge l nonceH

/-- LS_CHALLENGE_DEFERRED. -/
def State.lsDeferred (s : State) (l : Link) : State :=
  match (s.link l).session with
  | .waiting n t => if t ≤ s.nrt ∧ s.secUp then s.challenge l n else s
  | _ => s

/-- A SESSION_ID: drawn from the TRNG, not 0 and not issued before on either link. -/
def newSessionId (issued : List Word) (w : Word) : Nat → Word
  | 0 => w
  | n + 1 => if w = 0 ∨ issued.contains w then newSessionId issued (w + 1) n else w

/-- A session opens on a link: it is UP, the link is active if none is, and the opening is audited. -/
def State.openSession (s : State) (l : Link) : State :=
  let id := newSessionId s.sec.sessions (Config.random s.fresh) (s.sec.sessions.length + 2)
  let s := (s.nextFresh).setSec { s.sec with sessions := s.sec.sessions ++ [id] }
  let s := s.setLink l { s.link l with session := .opened id, ls := .up }
  let s := s.audit 2 none (Link.num l) (Link.num l + 256 + id.toNat * 2 ^ 32)
  let s := s.lsResult l 0 id
  match s.host.active with
  | some _ => s
  | none => (s.takeActive l).drainWaiting l ((s.link l).waiting.length + 1)

/-- A refused LS_PROOF. -/
def State.refuseProof (s : State) (l : Link) (result : Nat) : State :=
  let s := s.setLink l { s.link l with session := .none, refusedTill := s.nrt + msTicks 100 }
  ((s.bump pgSecc 0x12C 1).setIrq pgSecc 8).lsResult l result 0

/-- LS_PROOF (R382): the hash of OPK is in an active slot and the signature verifies; with no slot in use the first key whose signature
verifies is programmed into slot 0. -/
def State.lsProof (s : State) (l : Link) (p : OperatorProof) : State :=
  match (s.link l).session with
  | .challenged _ _ =>
    if !s.secUp then (s.setLink l { s.link l with session := .none }).lsResult l 3 0
    else if s.sec.opk.isEmpty then
      if p.ok then ((s.setSec { s.sec with opk := [(0, (Config.sha384 p.opk, false))] }).audit 3 none (Link.num l) 0).openSession l
      else s.refuseProof l 2
    else if !s.sec.opk.any (fun (e : Nat × (BitVec 384 × Bool)) => e.2.1 == Config.sha384 p.opk && !e.2.2) then s.refuseProof l 1
    else if p.ok then s.openSession l
    else s.refuseProof l 2
  | _ => s

/-- LS_END. -/
def State.lsEnd (s : State) (l : Link) : State := State.sessionsAfter s (s.endSession l)

end Sys2Proof.Machine
end

