-- ==== Sys2Proof/Machine/Mailbox.lean ====
section
/-!
DEFINITION. The mailboxes of the firmware cores and the messages of Table 18-4 (R434 to R441, R384 to R395, R400, R403,
R446 to R453).
-/

namespace Sys2Proof.Machine

/-! ### Requests and responses (R434, R435) -/

/-- Tile that holds the log region. -/
def State.logTile (s : State) : Nat := ([0, 6, 12, 18].find? (fun t => !s.tileFenced t)).getD 0

/-- Bulk-window addresses of core c's buffers (Tables 10-1, 18-2). DESIGN CHOICE: Log 58. -/
def State.logBase (s : State) : Nat := benchAddr s.logTile (2004 * 2 ^ 20)
def State.reqBuffer (s : State) (c : Nat) : Nat := s.logBase + 0x70000 + c * 0x14000
def State.respBuffer (s : State) (c : Nat) : Nat := s.logBase + 0x74000 + c * 0x14000

/-! ### The logs of the cores (R440, R441) -/

def logEntries : Nat := 2048

/-- An entry of a core's log (Table 18-5). -/
def State.logEntry (s : State) (c level event : Nat) (args : List Nat) : List Byte :=
  leBytes 8 s.nrt ++ leBytes 4 (s.core c).logged ++ leBytes 1 c ++ leBytes 1 level ++ leBytes 2 event ++ args.flatMap (leBytes 4)

/-- A core writes one entry over its oldest (R440); what it says beside Table 18-5's fields is free. DESIGN CHOICE: Log 58. -/
def State.logLine (s : State) (c level event : Nat) : State :=
  let r := s.core c
  let e := s.logEntry c level event ((List.range 4).map (fun i => Config.logWord s.fresh (i + 2)))
  let s := { s with mem := s.mem.writeN (s.logBase + c * 0x10000 + r.logged % logEntries * 32) e }
  (s.setCore c { r with logged := r.logged + 1 }).nextFresh

/-- A core passes one of its trace points, which writes an entry if it is enabled (R441). DESIGN CHOICE: Log 58. -/
def State.passTrace (s : State) (c : Nat) : State :=
  if (s.core c).trace = 0 then s
  else
    let p := Config.logWord s.fresh 0 % 256
    if bitOf (s.core c).trace.toNat p then s.logLine c 3 p else s.nextFresh

/-- Message type (Table 18-4). -/
def msgType : Msg → Nat
  | .hello _ _ => 0x0001 | .traceSet _ _ _ => 0x0002 | .attest _ => 0x0100 | .domainCreate _ => 0x0101 | .domainDestroy _ => 0x0102
  | .credAdd _ _ _ _ _ _ => 0x0103 | .credRemove _ _ => 0x0104 | .projInstall _ => 0x0105 | .projRemove _ _ => 0x0106
  | .inspectOpen _ => 0x0107 | .inspectClose _ => 0x0108 | .auditExcerpt _ _ _ _ => 0x0109 | .opkProgram _ _ => 0x010A
  | .opkRevoke _ => 0x010B | .fwStage _ _ _ _ => 0x0110 | .fwActivate _ => 0x0111 | .fwStatus _ => 0x0112
  | .meterSnapshot _ _ => 0x0120 | .evacuate _ => 0x0130 | .powerCap _ => 0x0200 | .ctxCreate _ _ => 0x0300 | .ctxModify _ _ => 0x0301
  | .ctxDestroy _ => 0x0302 | .quadStatus => 0x0400 | .laneLog _ _ _ => 0x0401

/-- The core that a message is for; none for any core. -/
def msgCore (c : Nat) (m : Msg) : Bool :=
  match msgType m / 0x100 with
  | 0 => true
  | 1 => c == 0
  | 2 => c == 1
  | 3 => c == 2
  | _ => decide (3 ≤ c ∧ c ≤ 6)

/-- Writes the response (R435). -/
def State.mbxAnswer (s : State) (m : MReq) (typ status detail : Nat) (body : List Byte) : State :=
  let b := leBytes 2 typ ++ leBytes 1 m.minor ++ leBytes 1 m.major ++ leBytes 4 (16 + body.length) ++ leBytes 4 m.seq.toNat ++
    leBytes 1 status ++ leBytes 1 detail ++ leBytes 2 0 ++ body
  let s := { s with mem := s.mem.writeN (s.respBuffer m.core) b }
  let s := s.setCore m.core { s.core m.core with busy := false, respSeq := m.seq }
  s.setIrq pgMbox (2 ^ m.core)

/-- What a message comes to: an answer, or more time. -/
inductive MsgRes where
  | answer (s : State) (status detail : Nat) (body : List Byte)
  | hold (s : State) (count : Nat)

def badField (s : State) : MsgRes := .answer s stBadDescriptor 3 []
def fails (s : State) (status : Nat) : MsgRes := .answer s status 0 []
def done (s : State) : MsgRes := .answer s stOk 0 []

/-! ### Domains (R384, R387) -/

def State.domActive (s : State) (d : Nat) : Bool := (AL.get d s.sec.domains).any (fun (r : DomainRec) => r.st == .active)

/-- The four quotas held in registers (Table 16-6). -/
def State.setQuotas (s : State) (d rq bq sq rg : Nat) : State :=
  (((s.setRegI (pgBnch 0) 0x13C d (BitVec.ofNat 32 rq)).setRegI (pgBnch 0) 0x134 d (BitVec.ofNat 32 bq)).setRegI (pgStrt 0) 0x134 d
    (BitVec.ofNat 32 sq)).setRegI pgXprt 0x18C d (BitVec.ofNat 32 rg)

def State.domainCreate (s : State) (m : MReq) (d : DomainD) : MsgRes :=
  if d.domain = 0 ∨ 1023 < d.domain ∨ 64 < d.projs then badField s
  else if (AL.get d.domain s.sec.domains).isSome then fails s stBadDescriptor
  else match (s.walkChannels (d.domain * 97 % 384) none).findSome? (fun c => (s.allocMeta c d.domain 1).map (fun r => (r.1, c, r.2))) with
    | none => fails s stNoCapacity
    | some (s, c, h) =>
      let s := (s.charge d.domain 8).setQuotas d.domain d.rquota d.bquota d.squota d.regions
      let s := s.setSec { s.sec with domains := AL.put d.domain ⟨.active, d.creds, d.projs, some (c, h)⟩ s.sec.domains }
      done (s.audit 0x20 (some d.domain) (Link.num m.link) 1)

/-- Steps 1 to 3 of Table 16-5. -/
def State.destroyBegin (s : State) (d : Nat) (r : DomainRec) : State :=
  let s := s.setSec { s.sec with domains := AL.put d { r with st := .destroying } s.sec.domains }
  let s := (s.cmds.list.filter (fun (c : Cmd) => c.hdr.domain == d)).foldl (fun (s : State) c => match s.cmd c.id with
    | some y => (match y.wait with | .dying _ => s | _ => s.abortCmd y stAborted false)
    | none => s) s
  let s := (s.abortNotices d 0).abortMerge ⟨2, 0, 0, d, 0⟩
  let s := (s.net.conns.filter (fun (p : Nat × Conn) => p.2.domain == d)).foldl (fun (s : State) p => s.startClose p.1) s
  let s := (s.net.regions.filter (fun (p : Nat × Region) => p.2.domain == d && p.2.st == .active)).foldl (fun (s : State) p =>
    match s.region p.1 with
    | some g => (s.startRevoke p.1 g).drained (.handle (g.gen * 65536 + p.1))
    | none => s) s
  (s.net.peers.filter (fun (p : (Nat × Nat) × PeerEntry) => p.1.1 == d && p.2.st == .active)).foldl (fun (s : State) p =>
    match s.peer d p.1.2 with
    | some e => s.setPeer d p.1.2 { e with st := if e.drain = 0 then .revoked else .revoking }
    | none => s) s

/-- Step 4: starter entries, sequences and their pages, and the shares that lost entries have left (R134). -/
def State.destroyPages (s : State) (d : Nat) : State :=
  let s := (s.kv.starter.filter (fun (p : (Nat × Nat × Nat) × StEntry) => p.2.domain == d)).foldl (fun (s : State) p =>
    (s.dropEntry p.1).releaseKey p.2.frame) s
  let s := (s.kv.seqs.filter (fun (p : (Nat × Nat) × SeqRec) => p.1.1 == d)).foldl (fun (s : State) p =>
    match s.seqRec d p.1.2 with
    | some r => (s.destroySeq d p.1.2 r).1
    | none => s) s
  (s.kv.frames.filter (fun (p : Nat × Frame) => p.2.cur.domain == d && p.2.cur.fKeyed)).foldl (fun (s : State) p => s.releaseKey p.1) s

/-- What a context leaves when it is destroyed (R277). A fragment of it that still runs for a command that has ended has none to serve. -/
def State.dropCtx (s : State) (ctx : Nat) : State :=
  let s := (s.eng.frags.filter (fun (p : Nat × Frag) => p.2.ctx == ctx)).foldl (fun (s : State) p =>
    ((s.unpinPages p.2).removeFrag p.2).settleOver p.2.cmd) s
  let s := (s.gradsOf ctx).foldl (fun (s : State) g => s.dropGrad g.1) s
  let s := s.setEng { s.eng with save := AL.del ctx s.eng.save }
  { s with cmds := { s.cmds with ctxs := AL.del ctx s.cmds.ctxs } }

/-- Frees a projection block's chunks. -/
def State.freeProj (s : State) (d handle : Nat) : State :=
  match AL.get (d, handle) s.sec.projs with
  | none => s
  | some p =>
    let s := p.chunks.foldl (fun (s : State) (c : Nat × Nat) => s.dropChunk c.1 c.2) s
    (s.refund d p.units).setSec { s.sec with projs := AL.del (d, handle) s.sec.projs }

/-- Steps 5 to 7. -/
def State.destroyEnd (s : State) (d agent : Nat) : State :=
  let s := (s.cmds.ctxs.filter (fun (p : Nat × Ctx) => p.2.domain == d)).foldl (fun (s : State) p => s.dropCtx p.1) s
  let s := (s.sec.projs.filter (fun (p : (Nat × Nat) × Proj) => p.1.1 == d)).foldl (fun (s : State) p => s.freeProj d p.1.2) s
  let s := s.setSec { s.sec with
    creds := s.sec.creds.filter (fun (p : Nat × Cred) => p.2.domain != d)
    keySets := s.sec.keySets.filter (fun (p : Nat × KeySet) => p.2.domain != d) }
  let s := s.setKv { s.kv with
    lines := s.kv.lines.filter (fun (l : Line) => l.domain != d)
    shapes := s.kv.shapes.filter (fun (p : (Nat × Nat) × DWord) => p.1.1 != d)
    tables := s.kv.tables.filter (fun (p : (Nat × Nat × Nat) × (Nat × Nat)) => p.1.1 != d)
    ttlb := s.kv.ttlb.filter (fun (p : (Nat × Nat) × Pte) => p.1.1 != d)
    walkCache := s.kv.walkCache.filter (fun (p : Nat × Nat) => p.1 != d)
    chunks := s.kv.chunks.filter (fun (p : (Nat × Nat) × ChunkUse) => match p.2 with
      | .metadata o _ => o != d
      | .run o => o != d
      | _ => true)
    rused := AL.del d s.kv.rused }
  let s := (s.setQuotas d 0 0 0 0).setSec { s.sec with domains := AL.del d s.sec.domains }
  (s.audit 0x20 (some d) agent 0).setIrq pgSecc 1

/-- Whether a domain under destruction still holds work (step 2 of Table 16-5). -/
def State.domWorks (s : State) (d : Nat) : Bool := s.cmds.list.any (fun (c : Cmd) => c.hdr.domain == d)

/-- Whether a domain under destruction still holds a pinned page (R388). -/
def State.domPinned (s : State) (d : Nat) : Bool :=
  s.kv.frames.any (fun (p : Nat × Frame) => p.2.cur.domain == d && decide (0 < p.2.pinCur + p.2.pinOld))

def State.domainDestroy (s : State) (m : MReq) (d : Nat) (begun : Bool) : MsgRes :=
  match AL.get d s.sec.domains with
  | none => if d = 0 ∨ 1023 < d then badField s else fails s stBadDescriptor
  | some r =>
    if d = 0 then badField s
    else if r.st = .destroying ∧ !begun then fails s stBusy
    else
      let s := if begun then s else s.destroyBegin d r
      if s.domWorks d then .hold s 0
      else
        let s := s.destroyPages d
        if s.domPinned d then .hold s 0 else done (s.destroyEnd d (Link.num m.link))

/-! ### Credentials (R389) DEDUCED: Log 45. -/

def State.credAdd (s : State) (m : MReq) (id d typ purpose : Nat) (data : List Byte) (ok : Bool) : MsgRes :=
  if (typ ≠ 1 ∧ typ ≠ 2) ∨ 1023 < d then badField s
  else if (AL.get id s.sec.creds).isSome then fails s stBadDescriptor
  else if !s.domActive d then fails s stAccess
  else if ((AL.get d s.sec.domains).elim 0 (·.creds)) ≤ s.sec.creds.countP (fun (p : Nat × Cred) => p.2.domain == d) ∨
      65536 ≤ s.sec.creds.length then fails s stNoCapacity
  else if (typ == 1 && purpose != 3) || !ok then fails s stAuthFailed
  else done ((s.setSec { s.sec with creds := AL.put id ⟨d, typ, data⟩ s.sec.creds }).audit 0x21 (some d) (Link.num m.link) (id + 2 ^ 32))

def State.credRemove (s : State) (m : MReq) (id : Nat) (close : Bool) : MsgRes :=
  match AL.get id s.sec.creds with
  | none => fails s stBadDescriptor
  | some c =>
    let s := (s.setSec { s.sec with creds := AL.del id s.sec.creds }).audit 0x21 (some c.domain) (Link.num m.link) id
    let mine := if close then s.net.conns.filter (fun (p : Nat × Conn) => p.2.credId == id && p.2.domain == c.domain) else []
    .answer (mine.foldl (fun (s : State) p => s.startClose p.1) s) stOk 0 (leBytes 4 mine.length)

/-! ### Projection blocks (R393 to R395) -/

/-- Takes `n` chunks for a block, each in the first channel of a walk from channel 0 that has one. DEDUCED: Log 46. -/
def State.blockChunks (d handle : Nat) : Nat → State → List (Nat × Nat) → Option (State × List (Nat × Nat))
  | 0, s, l => some (s, l.reverse)
  | n + 1, s, l =>
    match (s.walkChannels (l.length % 384) none).findSome? (fun c => (s.newChunk c).map (fun k => (c, k))) with
    | none => none
    | some (c, k) => State.blockChunks d handle n ((s.putChunk c k (.block d handle)).cleared (rackAddr c (k * 65536)) 65536) ((c, k) :: l)

def State.projInstall (s : State) (m : MReq) (d : ProjD) : MsgRes :=
  let body := leBytes 2 d.handle
  let n := d.layers * d.heads * d.dn * d.latentWidth * 2
  let k := ceilDiv n 65536
  if d.status = stBadDescriptor ∨ (AL.get (d.domain, d.handle) s.sec.projs).isSome then fails s stBadDescriptor
  else if !s.domActive d.domain then fails s stAccess
  else if ((AL.get d.domain s.sec.domains).elim 0 (·.projs)) ≤ s.sec.projs.countP (fun (p : (Nat × Nat) × Proj) => p.1.1 == d.domain) ∨
      s.rquota d.domain < s.rused d.domain + k * 256 then fails s stNoCapacity
  else if d.status = stNotBound then
    .answer ((s.setSec { s.sec with projs := AL.put (d.domain, d.handle) ⟨false, 0, 0, 0, 0, [], 0, [], false⟩ s.sec.projs }).audit 0x22
      (some d.domain) (Link.num m.link) (d.handle + 2 ^ 16)) stNotBound 0 body
  else if d.status ≠ stOk then fails s d.status
  else match State.blockChunks d.domain d.handle k s [] with
    | none => fails s stNoCapacity
    | some (s, l) =>
      let mem := (l.zip (chunks 65536 d.plain)).foldl (fun (mm : Mem) x => mm.writeN (rackAddr x.1.1 (x.1.2 * 65536)) x.2) s.mem
      let s := ({ s with mem := mem } : State).charge d.domain (k * 256)
      let s := s.setSec { s.sec with projs := AL.put (d.domain, d.handle) (⟨true, d.layers, d.heads, d.dn, d.latentWidth, l, k * 256, d.plain, false⟩ : Proj) s.sec.projs }
      .answer (s.audit 0x22 (some d.domain) (Link.num m.link) (d.handle + 2 ^ 16)) stOk 0 body

/-- Commands that use a block. -/
def State.projUsed (s : State) (d handle : Nat) : Bool :=
  s.cmds.list.any (fun (c : Cmd) => c.hdr.domain == d && (attnOf c.op).any (fun a => a.proj == handle))

def State.projRemove (s : State) (m : MReq) (d handle : Nat) (begun : Bool) : MsgRes :=
  match AL.get (d, handle) s.sec.projs with
  | none => if 1023 < d then badField s else fails s stBadDescriptor
  | some p =>
    if p.removing ∧ !begun then fails s stBusy
    else if p.bound && s.projUsed d handle then
      .hold (s.setSec { s.sec with projs := AL.put (d, handle) { p with removing := true } s.sec.projs }) 0
    else done ((s.freeProj d handle).audit 0x22 (some d) (Link.num m.link) handle)

/-! ### Inspection, audit, operator keys (R400, R403, R382) -/

def State.inspectOpen (s : State) (m : MReq) (d : Nat) : MsgRes :=
  if 1023 < d then badField s
  else if !s.domActive d then fails s stAccess
  else match (List.range 4).find? (fun g => !AL.has g s.sec.grants) with
    | none => fails s stNoCapacity
    | some g =>
      let s := s.setSec { s.sec with grants := AL.put g ⟨d, s.nrt, 0, []⟩ s.sec.grants, debug := s.sec.debug ||| 2 }
      .answer ((s.audit 0x10 (some d) (Link.num m.link) (g + 4)).setIrq pgSecc 4) stOk 0 (leBytes 1 g)

def State.inspectClose (s : State) (m : MReq) (g : Nat) : MsgRes :=
  match AL.get g s.sec.grants with
  | none => if 3 < g then badField s else fails s stBadDescriptor
  | some x => .answer (s.closeGrant g (Link.num m.link)) stOk 0 (leBytes 8 x.read)

/-- A slot of AUDIT_EXCERPT: the entry in full, or its SEQ and HASH alone. -/
def excerptSlot (d : Nat) (e : AuditEntry) : List Byte :=
  let b := auditBytes e
  if e.domain = none ∨ e.domain = some d then b ++ List.replicate (128 - b.length) 0
  else leBytes 8 e.seq ++ leBytes 8 0 ++ leBytes 2 0xFFFF ++ leBytes 14 0 ++ leBytes 48 (Config.sha384 b).toNat ++ leBytes 48 0

def State.auditExcerpt (s : State) (d n first : Nat) (nonce : BitVec 256) : MsgRes :=
  if n = 0 ∨ 256 < n ∨ 1023 < d then badField s
  else
    let l := (s.sec.audit.filter (fun (e : AuditEntry) => decide (first ≤ e.seq) && !s.sec.auditLost.contains e.seq)).take n
    .answer s stOk 0 (leBytes 8 ((l.head?).elim first (·.seq)) ++ leBytes 2 l.length ++ leBytes 6 0 ++ l.flatMap (excerptSlot d) ++
      s.reportBytes nonce)

def State.opkProgram (s : State) (m : MReq) (slot : Nat) (key : List Byte) : MsgRes :=
  if slot = 0 ∨ 3 < slot then badField s
  else if AL.has slot s.sec.opk then fails s stBadDescriptor
  else done ((s.setSec { s.sec with opk := AL.put slot (Config.sha384 key, false) s.sec.opk }).audit 3 none (Link.num m.link) slot)

def State.opkRevoke (s : State) (m : MReq) (slot : Nat) : MsgRes :=
  match AL.get slot s.sec.opk with
  | some (h, false) =>
    if s.sec.opk.any (fun (p : Nat × (BitVec 384 × Bool)) => p.1 != slot && !p.2.2) then
      done ((s.setSec { s.sec with opk := AL.put slot (h, true) s.sec.opk }).audit 3 none (Link.num m.link) (slot + 4))
    else fails s stBadDescriptor
  | _ => if 3 < slot then badField s else fails s stBadDescriptor

/-! ### Firmware (R446 to R449) -/

def State.fwStage (s : State) (kind : Nat) (info : ImageInfo) : MsgRes :=
  if 3 < kind then badField s
  else if s.fw.activation.any (fun (a : Activation) => a.kind == kind) then fails s stBusy
  else
    let k := s.kind kind
    let other := 1 - k.active
    if !info.ok || decide (info.arb < k.fuse) then
      fails (s.setKind kind { k with slots := AL.del other k.slots, staged := false }) stAuthFailed
    else .answer (s.setKind kind { k with slots := AL.put other (info.version, info.arb) k.slots, staged := true }) stOk 0
      (leBytes 4 info.version ++ leBytes 4 info.arb)

/-- A core stops: UP falls (Table 18-7 step 3); while PMC is down its clamp is in force (Table 18-9). -/
def State.coreDown (s : State) (c : Nat) : State :=
  if !(s.core c).up then s
  else
    let s := ((s.syncClamp c).setCore c { s.core c with up := false, downAt := s.nrt }).setIrq pgMbox (2 ^ (8 + c))
    if c = 1 then s.setIrq pgPmgt 4 else s

/-- Cores that run images of a kind. -/
def coresOf (kind : Nat) : List Nat := if kind = 3 then [3, 4, 5, 6] else [kind]

/-- Steps 2 and 3 of an activation. -/
def State.activate (s : State) (kind : Nat) (req : Option MReq) : State :=
  let k := s.kind kind
  let s := s.setKind kind { k with active := 1 - k.active, staged := false }
  let s := s.setFw { s.fw with activation := some ⟨kind, req, coresOf kind, k.active, s.nrt⟩ }
  s.coreDown ((coresOf kind).headD 0)

def State.fwActivate (s : State) (m : MReq) (kind : Nat) : MsgRes :=
  if 3 < kind then badField s
  else if s.fw.activation.isSome || s.fw.evac.isSome then .hold s 0
  else
    let k := s.kind kind
    if !(k.staged && slotOk k (1 - k.active)) then fails (s.setKind kind { k with last := 2 }) stBadDescriptor
    else if s.pw.st = .unleavened then done (s.setKind kind { k with active := 1 - k.active, staged := false, last := 1 })
    else if s.emergency then
      fails ((s.setKind kind { k with last := 4 }).setFw { (s.setKind kind { k with last := 4 }).fw with
        deferred := s.fw.deferred ++ [(kind, s.nrt)] }) stDeferred
    else .hold (s.activate kind (some m)) 0

def State.fwStatus (s : State) (kind : Nat) : MsgRes :=
  if 3 < kind then badField s
  else
    let k := s.kind kind
    let v (i : Nat) : Nat := (AL.getD i (0, 0) k.slots).1
    .answer s stOk 0 (leBytes 1 k.active ++ leBytes 1 (b2n k.staged) ++ leBytes 1 k.last ++ leBytes 1 0 ++ leBytes 4 (v k.active) ++
      leBytes 4 (if k.staged then v (1 - k.active) else 0) ++ leBytes 4 k.fuse)

/-! ### Metering (R450 to R452) -/

def State.heldComp (s : State) : Nat := s.lease.comp.elim 0xFFFF (·.1)

def State.meterSnapshot (s : State) (comp : Nat) (nonce : BitVec 256) : MsgRes :=
  match AL.get comp s.fw.meters with
  | none => if 1023 < comp ∧ comp ≠ 0xFFFF then badField s else fails s stNoCapacity
  | some x =>
    let x := { x with snapSeq := x.snapSeq + 1, snapped := comp != s.heldComp }
    let body := leBytes 2 1 ++ leBytes 2 comp ++ leBytes 4 s.fw.bootCount ++ leBytes 48 Config.deviceId.toNat ++ leBytes 32 nonce.toNat ++
      leBytes 8 s.nrt ++ leBytes 8 x.firstTime ++ x.counts.flatMap (leBytes 8) ++ leBytes 4 x.snapSeq ++ leBytes 12 0
    .answer (s.setFw { s.fw with meters := AL.put comp x s.fw.meters }) stOk 0 (body ++ leBytes 96 (Config.signature 0 body).toNat)

/-! ### Contexts (R274 to R277) and power (R455) -/

def State.putCtx (s : State) (i : Nat) (c : Ctx) : State := { s with cmds := { s.cmds with ctxs := AL.put i c s.cmds.ctxs } }

def ctxFieldsOk (i : Nat) (c : Ctx) : Bool :=
  decide (i < 4096 ∧ c.domain < 1024 ∧ c.partition < 16 ∧ c.weight < 256 ∧ c.fragMax ≤ 32768 ∧ c.gradPages < 65536)

def State.ctxCreate (s : State) (i : Nat) (c : Ctx) : MsgRes :=
  if !ctxFieldsOk i c then badField s
  else if AL.has i s.cmds.ctxs then fails s stBadDescriptor
  else if !s.domActive c.domain then fails s stAccess
  else done (s.putCtx i c)

def State.ctxModify (s : State) (i : Nat) (c : Ctx) : MsgRes :=
  match AL.get i s.cmds.ctxs with
  | none => if ctxFieldsOk i c then fails s stBadDescriptor else badField s
  | some old =>
    if !ctxFieldsOk i c then badField s
    else if c.domain ≠ old.domain ∧ !s.domActive c.domain then fails s stAccess
    else if c.domain ≠ old.domain ∧ (s.cmds.list.any (fun (x : Cmd) => x.hdr.context == i) || !(s.gradsOf i).isEmpty) then fails s stBusy
    else done (s.putCtx i c)

def State.ctxDestroy (s : State) (i : Nat) (begun : Bool) (n : Nat) : MsgRes :=
  match AL.get i s.cmds.ctxs with
  | none => if 4095 < i then badField s else fails s stBadDescriptor
  | some _ =>
    -- those that another ABORT covers are counted there (R291)
    let mine := s.cmds.list.filter (fun (c : Cmd) => c.hdr.context == i && (match c.op, c.wait with
      | .abort _, _ => false | _, .dying _ => false | _, _ => true))
    let s' := if begun then s else mine.foldl (fun (s : State) c => match s.cmd c.id with
      | some y => s.abortCmd y stAborted false
      | none => s) s
    let n := if begun then n else mine.length
    if s'.cmds.list.any (fun (c : Cmd) => c.hdr.context == i) then .hold s' n
    else .answer (s'.dropCtx i) stOk 0 (leBytes 4 n)

def State.powerCap (s : State) (w : Nat) : MsgRes :=
  if w < 400 ∨ 1200 < w then badField s else .answer (s.setReg pgPmgt 0x104 (BitVec.ofNat 32 w)) stOk 0 (leBytes 2 w)

/-! ### CCCs -/

/-- Lane flags of a quadrant that await recording. -/
def State.lanesPending (s : State) (q : Nat) : Nat :=
  s.integ.lanes.countP (fun (p : (Nat × Nat) × Nat) => decide (p.1.1 / 96 = q) && bitOf p.2 16 && !s.fw.laneLog.contains p.1)

/-- HANDLED of a CCC: a free value. DESIGN CHOICE: Log 70. -/
def State.handledOf (s : State) (q : Nat) : Nat := (Config.handledErrors q s.nrt).toNat

def State.quadStatus (s : State) (c : Nat) : MsgRes :=
  let q := c - 3
  let f := (List.range 6).foldl (fun n i => if s.tileFenced (6 * q + i) then n + 2 ^ i else n) 0
  .answer s stOk 0 (leBytes 1 f ++ leBytes 1 (min 255 (s.lanesPending q)) ++ leBytes 2 0 ++ leBytes 4 (s.handledOf q))

def State.laneLogOp (s : State) (c : Nat) (clear : Bool) (channel lane : Nat) : MsgRes :=
  let q := c - 3
  let s := if clear then s.setFw { s.fw with laneLog := s.fw.laneLog.filter (fun x => x != (channel, lane) || x.1 / 96 != q) } else s
  let l := s.fw.laneLog.filter (fun (x : Nat × Nat) => x.1 / 96 == q)
  .answer s stOk 0 (leBytes 2 l.length ++ leBytes 2 0 ++ l.flatMap (fun (x : Nat × Nat) => leBytes 2 x.1 ++ leBytes 2 x.2))

/-! ### TRACE_SET (R441) and EVACUATE (R453) DESIGN CHOICE: Log 58. -/

def State.traceSet (s : State) (m : MReq) (first n enable : Nat) : MsgRes :=
  if 1 < enable ∨ n = 0 ∨ 256 < first + n then badField s
  else
    let mask : BitVec 256 := BitVec.ofNat 256 ((2 ^ n - 1) * 2 ^ first)
    let r := s.core m.core
    let t := if enable = 1 then r.trace ||| mask else r.trace &&& ~~~mask
    let s := s.setCore m.core { r with trace := t }
    .answer (if enable = 1 then s.setDebug 0 (Link.num m.link) else s) stOk 0 (leBytes 32 t.toNat)

/-- Sequences in (domain, SEQ) order. -/
def State.seqOrder (s : State) : List (Nat × Nat) :=
  sortBy (fun a b => decide (a.1 < b.1) || (a.1 == b.1 && leNat a.2 b.2)) (s.kv.seqs.map (·.1))

def State.evacuate (s : State) (m : MReq) (d : EvacD) : MsgRes :=
  if 1 < d.mode then badField s
  else if s.lease.st ≠ .leased then fails s stBadDescriptor
  else if s.fw.evac.isSome then fails s stBusy
  else .hold (s.setFw { s.fw with evac := some ⟨m, d, s.seqOrder, none, 0, 0, []⟩ }) 0

/-! ### The run of a message (R436 to R438) DEDUCED: Log 62. -/

def State.runMsg (s : State) (m : MReq) (x : Msg) (begun : Bool) (n : Nat) : MsgRes :=
  match x with
  | .hello lo hi =>
    if lo ≤ 1 ∧ 1 ≤ hi then
      let r := s.core m.core
      .answer (s.setCore m.core { r with helloOk := true, major := 1, minor := 0 }) stOk 0
        (leBytes 1 1 ++ leBytes 1 0 ++ leBytes 2 0 ++ leBytes 4 r.version ++ leBytes 4 r.arb)
    else fails s stUnsupported
  | .traceSet a b e => s.traceSet m a b e
  | .attest nonce =>
    let chain := Config.certChain (s.core 0).version
    .answer s stOk 0 (s.reportBytes nonce ++ leBytes 2 chain.length ++ chain)
  | .domainCreate d => s.domainCreate m d
  | .domainDestroy d => s.domainDestroy m d begun
  | .credAdd i d t p b ok => s.credAdd m i d t p b ok
  | .credRemove i c => s.credRemove m i c
  | .projInstall d => s.projInstall m d
  | .projRemove d h => s.projRemove m d h begun
  | .inspectOpen d => s.inspectOpen m d
  | .inspectClose g => s.inspectClose m g
  | .auditExcerpt d k f nonce => s.auditExcerpt d k f nonce
  | .opkProgram i k => s.opkProgram m i k
  | .opkRevoke i => s.opkRevoke m i
  | .fwStage k _ _ i => s.fwStage k i
  | .fwActivate k => s.fwActivate m k
  | .fwStatus k => s.fwStatus k
  | .meterSnapshot c nonce => s.meterSnapshot c nonce
  | .evacuate d => s.evacuate m d
  | .powerCap w => s.powerCap w
  | .ctxCreate i c => s.ctxCreate i c
  | .ctxModify i c => s.ctxModify i c
  | .ctxDestroy i => s.ctxDestroy i begun n
  | .quadStatus => s.quadStatus m.core
  | .laneLog c ch l => s.laneLogOp m.core c ch l

/-- Checks of R436 to R438 before a message runs: a refusal with STATUS and DETAIL. DEDUCED: Log 62. -/
def State.msgRefusal (s : State) (m : MReq) (x : Msg) : Option (Nat × Nat) :=
  let r := s.core m.core
  let open' := match x with
    | .hello _ _ | .attest _ => true
    | _ => s.anySession
  let rescue := match x with
    | .hello _ _ | .traceSet _ _ _ | .attest _ | .fwStage _ _ _ _ | .fwActivate _ | .fwStatus _ | .powerCap _ => true
    | _ => false
  if m.core = 0 ∧ !open' then some (stAccess, 0)
  else if s.pw.st = .unleavened ∧ !rescue then some (stUnsupported, 0)
  else match x with
    | .hello _ _ => none
    | _ =>
      if !r.helloOk then some (stUnsupported, 1)
      else if m.major ≠ r.major ∨ r.minor < m.minor ∨ !msgCore m.core x then some (stUnsupported, 0)
      else if !open' then some (stAccess, 0)
      else none

/-- Runs a message, and answers it or keeps it. -/
def State.takeMsg (s : State) (h : HeldMsg) : State :=
  let s := if h.begun then s else s.passTrace h.m.core
  match s.runMsg h.m h.msg h.begun h.count with
  | .answer s st dt b => s.mbxAnswer h.m (msgType h.msg) st dt b
  | .hold s n => s.setFw { s.fw with held := s.fw.held ++ [{ h with begun := true, count := n, till := if h.begun then h.till else s.nrt + usTicks (abortBoundUs 1) }] }

/-- A request written to a mailbox and its doorbell rung (R435): refused while one is outstanding, while another agent holds the page (R35)
and while the page takes no work (R29); it waits while its core is down (Table 18-9). DEDUCED: Log 47. -/
def State.message (s : State) (m : MReq) (x : Msg) : State :=
  if !s.awake || !s.linkTalks m.link then s
  else if m.core ≠ 0 ∧ !(s.link m.link).sessionOpen then s.access m.link 3 (pgMbox * 4096 + 0x104 + 32 * m.core)
  else if 6 < m.core ∨ (s.core m.core).busy ∨ s.heldByOther (.host m.link) pgMbox ∨ !s.unitAdmits pgMbox then s.cfgRej pgMbox
  else
    let s := s.setCore m.core { s.core m.core with busy := true }
    if !(s.core m.core).up then s.setFw { s.fw with held := s.fw.held ++ [⟨m, x, false, 0, 0⟩] }
    else match s.msgRefusal m x with
      | some (st, dt) => s.mbxAnswer m (msgType x) st dt []
      | none => s.takeMsg ⟨m, x, false, 0, 0⟩

/-- TYPEs of the catalogue (Table 18-4). -/
def msgTypes : List Nat :=
  [0x0001, 0x0002, 0x0100, 0x0101, 0x0102, 0x0103, 0x0104, 0x0105, 0x0106, 0x0107, 0x0108, 0x0109, 0x010A, 0x010B, 0x0110, 0x0111,
   0x0112, 0x0120, 0x0130, 0x0200, 0x0300, 0x0301, 0x0302, 0x0400, 0x0401]

/-- A write of DOORBELLc with no row of its own: refused while a request is outstanding or the page takes no work; a running core answers a wrong LENGTH or
TYPE in its request buffer (R435, R437). A message of the catalogue is its own row's command. DEDUCED: Log 47. -/
def State.doorbell (s : State) (l : Link) (c : Nat) (seq : Word) : State :=
  let b := s.mem.readN (s.reqBuffer c) 16
  let m : MReq := ⟨c, l, fieldAt b 3 1, fieldAt b 2 1, seq⟩
  let len := fieldAt b 4 4
  if (s.core c).busy ∨ !s.unitAdmits pgMbox then s.cfgRej pgMbox
  else if !(s.core c).up then s
  else if len < 16 ∨ 16384 < len then s.mbxAnswer m (fieldAt b 0 2) stBadDescriptor 2 []
  else if msgTypes.contains (fieldAt b 0 2) then s
  else s.mbxAnswer m (fieldAt b 0 2) stBadDescriptor 0 []

end Sys2Proof.Machine
end

