-- ==== Sys2Proof/Machine/Firmware.lean ====
section
/-!
DEFINITION. The lives of the firmware cores: restarts, activations, waiting requests, evacuation, meters (R409, R445, R447 to
R451, R453).
-/

namespace Sys2Proof.Machine

/-! ### Requests that wait -/

/-- Whether a waiting request is answered by the activation or the evacuation that it started. -/
def State.underWay (s : State) (h : HeldMsg) : Bool :=
  s.fw.activation.any (fun (a : Activation) => a.req == some h.m) || s.fw.evac.any (fun (e : Evac) => e.m == h.m)

/-- Looks at the waiting requests of the cores that run. -/
def State.heldStep (s : State) : State :=
  s.fw.held.foldl (fun (s : State) h =>
    if !(s.core h.m.core).up || s.underWay h then s
    else
      let s := s.setFw { s.fw with held := s.fw.held.erase h }
      match if h.begun then none else s.msgRefusal h.m h.msg with
      | some (st, dt) => s.mbxAnswer h.m (msgType h.msg) st dt []
      | none => s.takeMsg h) s

/-- Answers a Continued request that has come to its end, and forgets it. -/
def State.endHeld (s : State) (m : MReq) (typ status : Nat) (body : List Byte) : State :=
  (s.setFw { s.fw with held := s.fw.held.filter (fun (h : HeldMsg) => h.m != m) }).mbxAnswer m typ status 0 body

/-- ABORT of a page with all that its block holds (R31): requests that wait at MBOX, or at a core, are answered with
ST_ABORTED. DEDUCED: Log 75. -/
def State.abortBlock (s : State) (pg : Nat) (stuck : List Nat) : State :=
  (s.fw.held.filter (fun h => (pg == pgMbox || corePage pg == some h.m.core) && !s.underWay h)).foldl (fun (s : State) h =>
    s.endHeld h.m (msgType h.msg) stAborted []) (s.pageAbort pg stuck)

/-! ### Activation (Table 18-7) -/

/-- An activation ends: answered, or ACT_DONE for a deferred one. -/
def State.endActivation (s : State) (a : Activation) (status last : Nat) : State :=
  let s := s.setKind a.kind { s.kind a.kind with last := last }
  let s := s.setFw { s.fw with activation := none }
  match a.req with
  | some m => s.endHeld m 0x0111 status []
  | none => s.setIrq pgMbox (2 ^ 15)

/-- VERSION and ARB of the image that a core loads: the host's, the active slot's, or the other slot's (R443, R444). -/
def State.bootImage (s : State) (c : Nat) : Nat × Nat :=
  let k := s.kind (coreKind c)
  match if k.host then AL.get (coreKind c) s.fw.hostImgs else none with
  | some i => (i.version, i.arb)
  | none => AL.getD (if slotOk k k.active then k.active else 1 - k.active) (0, 0) k.slots

/-- Records the pending lane flags of a quadrant (R270). -/
def State.recordLanes (s : State) (q : Nat) : State :=
  let new := (s.integ.lanes.filter (fun (p : (Nat × Nat) × Nat) => decide (p.1.1 / 96 = q) && bitOf p.2 16 &&
    !s.fw.laneLog.contains p.1)).map (·.1)
  if new.isEmpty then s else (s.setFw { s.fw with laneLog := s.fw.laneLog ++ new }).setIrq (pgCctl q) 2

/-- Messages that are marked Continued (Table 18-4): they resume after a restart. -/
def continued : Msg → Bool
  | .domainDestroy _ | .projInstall _ | .fwActivate _ | .evacuate _ => true
  | _ => false

/-- A request that a core had begun when it stopped, and that is not Continued, is answered ST_ABORTED and has no effect (R448). -/
def State.answerCut (s : State) (c : Nat) : State :=
  (s.fw.held.filter (fun h => h.m.core == c && h.begun && !continued h.msg)).foldl (fun (s : State) h =>
    let s := match h.msg with
      | .projRemove d i => s.setSec { s.sec with projs := AL.upd (d, i) (fun (p : Proj) => { p with removing := false }) s.sec.projs }
      | _ => s
    s.endHeld h.m (msgType h.msg) stAborted []) s

/-- CORE_REACHES_UP (R448). -/
def State.coreUp (s : State) (c : Nat) : State :=
  if (s.core c).up ∨ 6 < c ∨ !s.awake ∨ (s.pw.st = .unleavened ∧ 1 < c) then s
  else
    let r := s.core c
    let i := s.bootImage c
    let s := ((s.syncClamp c).setCore c { r with
      up := true, restarts := min 255 (r.restarts + 1), version := i.1, arb := i.2, runAt := s.nrt, trace := 0, logged := 0 }).setIrq
      pgMbox (2 ^ (8 + c))
    let s := (if c = 0 then s.setSec { s.sec with trngBad := false } else s).answerCut c
    let s := if 3 ≤ c then (s.recordLanes (c - 3)).setIrq (pgCctl (c - 3)) 1 else s
    let s := match s.fw.activation with
      | none => s
      | some a => match a.cores with
        | [] => s
        | x :: rest =>
          if x ≠ c then s
          else if rest.isEmpty then
            (s.audit 0x30 none 2 (c + (s.kind a.kind).fuse * 2 ^ 32)).endActivation a stOk 1
          else (s.setFw { s.fw with activation := some { a with cores := rest } }).coreDown (rest.headD 0)
    s.heldStep

/-- CORE_LOCKSTEP_RESTART (R409): the core goes through steps 3 to 5 with the same image. -/
def State.lockstep (s : State) (c : Nat) : State := if 6 < c then s else s.coreDown c

/-- ACTIVATION_START_TIMEOUT: 300 ms without UP. -/
def State.activationLate (s : State) (kind : Nat) : State :=
  match s.fw.activation with
  | none => s
  | some a =>
    let c := a.cores.headD 0
    if a.kind ≠ kind ∨ (s.core c).up ∨ s.nrt < (s.core c).downAt + msTicks 300 then s
    else
      let k := s.kind kind
      let v := (AL.getD k.active (0, 0) k.slots).1
      ((s.setKind kind { k with active := a.old }).logErr pgMbox 2 c v).endActivation a stHwFault 5

/-- DEFERRED_ACTIVATION_RESUME (R449). -/
def State.deferredResume (s : State) (kind : Nat) : State :=
  match s.fw.deferred.find? (fun (p : Nat × Nat) => p.1 == kind) with
  | none => s
  | some p =>
    let rest := s.fw.deferred.erase p
    if p.2 + msTicks 60000 < s.nrt then
      ((s.setFw { s.fw with deferred := rest }).setKind kind { s.kind kind with last := 3 }).setIrq pgMbox (2 ^ 15)
    else if s.emergency ∨ s.fw.activation.isSome ∨ s.fw.evac.isSome then s
    else (s.setFw { s.fw with deferred := rest }).activate kind none

/-- ANTI_ROLLBACK_RAISE (R445). -/
def State.raiseFuse (s : State) (kind : Nat) : State :=
  let k := s.kind kind
  let r := s.core ((coresOf kind).headD 0)
  let ran := (coresOf kind).all (fun c => (s.core c).up && decide ((s.core c).runAt + msTicks 60000 ≤ s.nrt))
  if ran ∧ k.fuse < r.arb then
    (s.setKind kind { k with fuse := r.arb }).audit 0x30 none 2 ((coresOf kind).headD 0 + r.arb * 2 ^ 32)
  else s

/-! ### Evacuation (Table 18-11) -/

/-- A command that the node gives itself. -/
def State.ownCommand (s : State) (d : Nat) (op : Op) : State :=
  s.enter ⟨nodeSource, ⟨0, false, false, 0, d, 0, s.lease.cur⟩, []⟩ op 0 false none false

/-- Starts to save one sequence. -/
def State.evacStart (s : State) (e : Evac) (d q : Nat) : State :=
  if e.d.mode = 1 then s.ownCommand d (.seqMigrate ⟨q, e.d.conn, e.d.targetSlot⟩)
  else
    let s := s.ownCommand d (.seqPark q)
    match s.seqRec d q with
    | none => s
    | some r =>
      if r.ckptRegion = 0 ∨ r.lastSet = 0 ∨ r.st ≠ .parked then s
      else s.ownCommand d (.ckptExport ⟨q, r.ckptRegion, r.nextStore, (AL.get r.lastSet s.liveSets).elim [] (·.recipient)⟩)

/-- Whether the sequence has been saved: the command that saves it has not failed. An export that lost a page has (R426). -/
def State.evacSaved (s : State) (e : Evac) (d q : Nat) : Bool :=
  match s.seqRec d q with
  | none => false
  | some r =>
    if e.d.mode = 1 then r.st == .moved
    else r.lastSet != 0 && r.lastSet != e.before && !(s.pageList d r (s.shape d r.shapeId) false).1.any (fun x => x.2 == .lost)

/-- Steps 4 to 6. -/
def State.evacEnd (s : State) (e : Evac) : State :=
  let s := s.flushHead
  let s := s.net.conns.foldl (fun (s : State) (p : Nat × Conn) => s.startClose p.1) s
  let s := (s.releaseSlot).getD s
  let s := s.setFw { s.fw with evac := none }
  let f := e.failed.headD (0, 0)
  s.endHeld e.m 0x0130 (if e.failed.isEmpty then stOk else stPartial)
    (leBytes 4 e.saved ++ leBytes 4 e.failed.length ++ leBytes 2 f.1 ++ leBytes 2 0 ++ leBytes 4 f.2)

/-- One look at an evacuation, while SEC runs. -/
def State.evacStep (s : State) : State :=
  match s.fw.evac with
  | none => s
  | some e =>
    if !(s.core 0).up || !s.cmds.list.isEmpty then s
    else
      let e := match e.current with
        | none => e
        | some (d, q) => if s.evacSaved e d q then { e with current := none, saved := e.saved + 1 }
            else { e with current := none, failed := e.failed ++ [(d, q)] }
      match e.todo with
      | [] => s.evacEnd e
      | (d, q) :: rest =>
        let e := { e with todo := rest, current := some (d, q), before := (s.seqRec d q).elim 0 (·.lastSet) }
        (s.setFw { s.fw with evac := some e }).evacStart e d q

/-! ### Meters (R450, R451) -/

def addCounts (a b : List Nat) : List Nat := (a.zip b).map (fun (x, y) => x + y)

/-- What one tick adds: the millisecond counts each 1 ms, the engine counts each 1 µs. -/
def State.meterAdd (s : State) : List Nat :=
  let ms := s.nrt % 100000 == 0
  let us := s.nrt % 100 == 0
  let parts := (s.cmds.ctxs.map (fun (p : Nat × Ctx) => p.2.partition)).eraseDups.length
  let active := s.cmds.ctxs.countP (fun (p : Nat × Ctx) => s.cmds.list.any (fun (c : Cmd) => c.hdr.context == p.1))
  [if ms then parts else 0, if ms then active else 0, if us then s.eng.busy.countP (fun (p : (Nat × Nat) × Nat) => decide (p.1.2 < 2)) else 0,
    if us then s.eng.busy.countP (fun (p : (Nat × Nat) × Nat) => decide (2 ≤ p.1.2)) else 0, if ms then s.kv.frames.length else 0]

/-- The meter set of the composition held, or the UNLEASED set, counts one tick. -/
def State.meterTick (s : State) : State :=
  if s.nrt % 100 ≠ 0 then s
  else s.setFw { s.fw with meters := AL.upd s.heldComp (fun (x : MeterSet) => { x with counts := addCounts x.counts s.meterAdd }) s.fw.meters }

/-- R451: a set for the composition of a GRANT. None when a 17th set would be needed and none can be freed. -/
def State.openMeter (s : State) (comp : Nat) : Option State :=
  if AL.has comp s.fw.meters then
    some (s.setFw { s.fw with meters := AL.upd comp (fun (x : MeterSet) => { x with snapped := false }) s.fw.meters })
  else
    let new : MeterSet := ⟨s.nrt, [0, 0, 0, 0, 0], 0, false⟩
    if s.fw.meters.length < 16 then some (s.setFw { s.fw with meters := AL.put comp new s.fw.meters })
    else match s.fw.meters.find? (fun (p : Nat × MeterSet) => p.2.snapped && p.1 != s.heldComp && p.1 != 0xFFFF) with
      | none => none
      | some p => some (s.setFw { s.fw with meters := AL.put comp new (AL.del p.1 s.fw.meters) })

end Sys2Proof.Machine
end

