-- ==== Sys2Proof/Machine/Handshake.lean ====
section
/-!
DEFINITION. Sessions of the Poris transport (R307 to R314), what a peer's ABANDON does (R325, R502), and the answers to ARP,
Neighbor Solicitation and echo (R301).
-/

namespace Sys2Proof.Machine

/-! ### HS_INIT -/

/-- HS_REJECT (R310); a refusal for the version carries the node's range (Table 13-5). -/
def State.hsReject (s : State) (e : NetEnd) (reason hintUs : Nat) : State :=
  (s.bump pgXprt 0x148 1).sendCtl 0 (.hsReject e reason hintUs (if reason = 1 then some (1, 1) else none))

/-- The reason and hint with which an HS_INIT is refused (Table 13-5, R500). DEDUCED: Log 37. -/
def State.hsRefusal (s : State) (h : HsInitD) : Option (Nat × Nat) :=
  if 1 < h.verMin ∨ h.verMax < 1 then some (1, 0)
  else if !(AL.get h.domain s.sec.domains).any (fun (d : DomainRec) => d.st == .active) then some (3, 0)
  else if h.composition ≠ 0xFFFF ∧ s.lease.comp.map (·.1) ≠ some h.composition then some (4, 0)
  else if 2 ^ 18 ≤ s.net.conns.length + s.net.half.length then some (5, 0)
  else if !s.xprtAdmits then some (6, 1000)
  else if s.halfOpenMax ≤ s.net.half.length then some (6, hint s.fresh)
  else if !s.secUp then some (7, hint s.fresh)
  else if s.nodeFenced then some (8, 0)
  else none

/-- The lowest connection index that is neither open nor reserved (R314). -/
def State.freeConnIndex (s : State) : Nat := firstFree (s.net.conns.map (·.1) ++ s.net.half.map (·.conn))

/-- The bytes of an HS_INIT (Table 13-3), in network byte order (R307). -/
def HsInitD.bytes (h : HsInitD) : List Byte :=
  beBytes 1 h.verMin ++ beBytes 1 h.verMax ++ beBytes 1 h.credType ++ beBytes 1 0 ++ beBytes 4 h.sconn ++ beBytes 2 h.domain ++
    beBytes 2 h.composition ++ beBytes 4 h.credId ++ leBytes 32 h.nonceC.toNat ++ h.ephC.take 97 ++ beBytes 3 0

/-- HS_REPLY (Table 13-3): SIG is over SHA-384 of HS_INIT and of what stands before it. `eph` is the node's ephemeral key. DESIGN
CHOICE: Log 6. -/
def State.hsReplyBytes (s : State) (h : HsInitD) (id : Nat) (nonce eph : BitVec 256) : List Byte :=
  let chain := Config.certChain (s.core 0).version
  let report := s.reportBytes nonce
  let body := beBytes 1 1 ++ beBytes 3 0 ++ beBytes 4 id ++ leBytes 32 nonce.toNat ++ ((4 : Byte) :: leBytes 96 (Config.ecPoint eph).toNat) ++
    beBytes 3 0 ++ beBytes 2 704 ++ beBytes 2 chain.length ++ report ++ chain
  body ++ leBytes 96 (Config.signature 0 (leBytes 48 (Config.sha384 (HsInitD.bytes h ++ body)).toNat)).toNat

/-- A handshake message goes out in packets of 4,096 bytes (R307). -/
def State.sendHsReply (s : State) (e : NetEnd) (b : List Byte) : State :=
  let n := (b.length - 1) / 4096
  (List.range (n + 1)).foldl (fun (s : State) i => s.sendCtl 0 (.hsReply e n (i * 4096) ((b.drop (i * 4096)).take 4096))) s

def State.hsInit (s : State) (port sub : Nat) (h : HsInitD) : State :=
  let e : NetEnd := ⟨port, sub, h.peerAddr, h.udpPort⟩
  match s.hsRefusal h with
  | some (r, t) => s.hsReject e r t
  | none =>
    let i := s.freeConnIndex
    let id := AL.getD i 0 s.net.gens * 2 ^ 18 + i
    let eph := Config.randomKey (s.fresh + 1)
    let b := s.hsReplyBytes h id (Config.randomKey s.fresh) eph
    let s := s.nextFresh.nextFresh
    let key := s.net.nextHs
    let s := s.setNet { s.net with
      nextHs := key + 1
      half := s.net.half ++ [⟨key, i, h.sconn, h.domain, h.composition, h.credType, h.credId, e, Config.sha384 (HsInitD.bytes h ++ b),
        Config.ecdh eph h.ephC, s.nrt⟩] }
    s.sendHsReply e b

/-! ### HS_FINISH, HS_TIMEOUT -/

/-- Makes room in the cache of connection states (R317). DEDUCED: Log 46. -/
def State.evictConn (s : State) : State :=
  let cached := s.net.conns.filter (fun (p : Nat × Conn) => p.2.cached)
  if cached.length < 8192 then s
  else match cached.foldl (fun (b : Option Conn) p => match b with
      | none => some p.2
      | some c => if p.2.usedAt < c.usedAt then some p.2 else some c) none with
    | none => s
    | some c => s.setConn { c with cached := false }

/-- PRK (R308): the salt is TH, and the key material Z, behind which the PSK stands where the credential is one. -/
def State.prkOf (s : State) (h : HalfOpen) : BitVec 384 :=
  let psk := match AL.get h.credId s.sec.creds with | some c => if c.typ = 1 then c.data else [] | none => []
  Config.hkdfExtract (leBytes 48 h.th.toNat) (leBytes 48 h.z.toNat ++ psk)

/-- CONFIRM of HS_DONE (Table 13-3). -/
def confirmOf (prk th : BitVec 384) (finish : List Byte) : BitVec 384 :=
  Config.hmac (leBytes 48 (Config.hkdfExpand prk (keyLabel "poris finish") 48).toNat)
    (keyLabel "poris node" ++ leBytes 48 th.toNat ++ leBytes 48 (Config.sha384 finish).toNat)

def newConn (h : HalfOpen) (prk : BitVec 384) (gen now : Nat) : Conn where
  index := h.conn
  gen := gen
  peerConn := h.peerConn
  domain := h.domain
  composition := h.composition
  credId := h.credId
  secret := prk
  genTx := 0
  genRx := 0
  prevRxTill := 0
  psnTx := 0
  ctlTx := 0
  nextMsg := []
  genMsg := []
  nextReq := 0
  skipped := []
  resend := []
  msgs := []
  unacked := []
  inMsgs := []
  rxBase := 0
  rxAbove := []
  rxSince := 0
  rxOldest := 0
  ceSince := 0
  rxPath := 0
  rate := 8000
  srtt := 0
  rttvar := 0
  backoff := 0
  rateAt := now
  rateCut := false
  paths := [⟨h.peer.port, h.peer.sub, h.peer.addr, h.peer.udp, true, 0, now⟩]
  closing := false
  ownClose := false
  closeAck := none
  closeTries := 0
  cached := true
  fetching := false
  usedAt := now
  held := []
  pacedAt := now

/-- The credential a handshake names exists, for its domain and type. -/
def State.credOk (s : State) (h : HalfOpen) : Bool :=
  (AL.get h.credId s.sec.creds).any (fun (c : Cred) => c.domain == h.domain && c.typ == h.credType)

/-- HS_FINISH: the proof verifies or not under the credential that the handshake names (R309, R310). A node that accepts no session
does not finish one (R500). DEDUCED: Log 37. -/
def State.hsFinish (s : State) (key : Nat) (p : PeerProof) : State :=
  match s.net.half.find? (fun (h : HalfOpen) => h.key == key) with
  | none => s
  | some h =>
    let s := s.setNet { s.net with half := s.net.half.filter (fun (x : HalfOpen) => x.key != key) }
    if !s.xprtAdmits then s.hsReject h.peer 6 1000
    else if !s.secUp then s.hsReject h.peer 7 (hint s.fresh)
    else if s.nodeFenced then s.hsReject h.peer 8 0
    else if !(p.ok && s.credOk h) then s.hsReject h.peer 2 0
    else
      let gen := AL.getD h.conn 0 s.net.gens
      let id := gen * 2 ^ 18 + h.conn
      let prk := s.prkOf h
      let s := s.evictConn.setConn (newConn h prk gen s.nrt)
      let token := leBytes 16 (BitVec.setWidth 128 (Config.randomKey id)).toNat
      let confirm := leBytes 48 (confirmOf prk h.th (beBytes 2 p.proof.length ++ p.proof)).toNat
      let s := s.setNet { s.net with lost := s.net.lost.filter (fun x => x % 2 ^ 18 != h.conn) }
      s.sendCtl h.conn (.hsDone h.peer (token ++ confirm))

def State.hsTimeout (s : State) (key : Nat) : State :=
  s.setNet { s.net with half := s.net.half.filter (fun (h : HalfOpen) => !(h.key == key && decide (h.bornAt + s.hsMs ≤ s.nrt))) }

/-! ### ABANDON from a peer -/

/-- Takes a message that the peer has discarded off its connection. -/
def dropMsg (c : Conn) (lane : Lane) (msgId : Nat) : Conn := { c with
  msgs := c.msgs.filter (fun (m : OutMsg) => !(m.lane == lane && m.msgId == msgId))
  unacked := c.unacked.filter (fun (p : SentPkt) => !(p.lane == lane && p.msgId == msgId))
  resend := c.resend.filter (fun (r : Lane × Nat × Nat) => !(r.1 == lane && r.2.1 == msgId)) }

/-- The operation of a discarded request completes with ST_TIMEOUT (R325), or with the response that follows an ABANDON for
its epoch (R333). A discarded partial ends its command, or goes out again (R502). DEDUCED: Log 48. -/
def State.abandonIn (s : State) (conn msgId : Nat) (lane : Lane) (reason : Nat) : State :=
  match s.conn conn with
  | none => s
  | some c =>
    let s := s.setConn (dropMsg c lane msgId)
    match lane with
    | .request => if reason = 4 then s else s.rmaAnswered (connId c) msgId stTimeout 0 0 []
    | .response =>
      (match s.eng.jobs.find? (fun (p : Nat × AttnJob) => p.2.record.isSome && p.2.sentOn == c.index && p.2.sentMsg == msgId && p.2.resendAt == 0) with
      | none => s
      | some p => if reason = 4 then s.decided p.1 stStaleEpoch 0
        else (s.putJob { p.2 with resendAt := s.nrt }).partialAgain p.1)
    | .control => s

/-! ### ARP, Neighbor Solicitation, echo (R301) -/

/-- Kinds: 0 ARP, 1 Neighbor Solicitation, 2 ICMP echo, 3 ICMPv6 echo. The answer goes to the sender; frames for other
addresses, and without the VID of a port that asks for one, are discarded. -/
def State.neighbour (s : State) (port sub : Nat) (vid : Option Nat) (kind dst src : Nat) (data : List Byte) : State :=
  let s := s.bump64 (pgPort port) 0x140 1
  if !s.vidOk port vid || !s.ownAddress port sub kind dst then s
  else
    let mac := (Config.macAddr port).toNat + sub
    let body := if kind < 2 then leBytes 6 mac else data
    s.transmit port sub (ipBytes dst body.length) ⟨s.vlanTag port, none, src, none⟩ (.answer kind src body)

end Sys2Proof.Machine
end

