-- ==== Sys2Proof/Machine/Bulk.lean ====
section
/-!
DEFINITION. The bulk window (R95, R241, R242, R261, R400, R434, Tables 10-1 and 19-5).
-/

namespace Sys2Proof.Machine

/-- Who owns the memory at a bulk-window address (R385, R400, R434): free and test memory belongs to nobody, the log region to
the node and open to reads, what the node keeps for itself to no reader, the rest to a domain. -/
inductive Owner where
  | nobody
  | log
  | node
  | domain (d : Nat)
  deriving DecidableEq, Repr

/-- A bulk-window address names a channel or a tile (Table 19-5). -/
def bulkAssigned (a : Nat) : Bool :=
  decide (a < 2 ^ 48) && (if bitsOf a 44 4 = 0 then decide (bitsOf a 31 13 < 384)
    else if bitsOf a 44 4 = 1 then decide (bitsOf a 31 13 < 24) else false)

def ownerOf (d : Nat) : Owner := if d < 1024 then .domain d else .node

/-- Owner of a chunk of Rack. DEDUCED: Log 50. -/
def State.chunkOwner (s : State) (ch k : Nat) : Owner :=
  match AL.get (ch, k) s.kv.chunks with
  | none => .nobody
  | some .test => .nobody
  | some (.payload f) => match s.frame f with
    | some x => ownerOf x.cur.domain
    | none => .node
  | some (.metadata d _) => ownerOf d
  | some (.run d) => ownerOf d
  | some (.crumb r) => match AL.get r s.kv.crumbs with
    | some x => ownerOf x.domain
    | none => .node
  | some (.region i) => match AL.get i s.net.regions with
    | some g => ownerOf g.domain
    | none => .node
  | some (.block d _) => ownerOf d

/-- Owner of a byte of a tile's Bench. DEDUCED: Log 50. -/
def State.benchOwner (s : State) (t b : Nat) : Owner :=
  if b < 1836 * 2 ^ 20 then
    match s.lineAt t b with
    | none => .nobody
    | some l => if l.use = .test then .nobody else ownerOf l.domain
  else if 1972 * 2 ^ 20 ≤ b ∧ b < 2004 * 2 ^ 20 ∧ t % 6 = 0 then
    let a := 0x08000000 + t / 6 * 0x02000000 + (b - 1972 * 2 ^ 20)
    match s.host.rings.find? (fun p => p.2.st != .disabled && (s.ringAreas p.1).any (overlaps (a, 1))) with
    | some (n, _) => ownerOf (s.ringDomain n)
    | none => .nobody
  else if t = s.logTile ∧ 2004 * 2 ^ 20 ≤ b ∧ b < 2008 * 2 ^ 20 then .log
  else .node

def State.bulkOwner (s : State) (a : Nat) : Owner :=
  if isBench a then s.benchOwner (placeIdx a) (placeByte a) else s.chunkOwner (placeIdx a) (placeByte a / 65536)

/-- A buffer of SEC open before a session (R26): its response buffer to reads, its request buffer to writes. -/
def State.openBuffer (s : State) (a n : Nat) (isWrite : Bool) : Bool :=
  if isWrite then decide (s.reqBuffer 0 ≤ a ∧ a + n ≤ s.reqBuffer 0 + 0x4000)
  else decide (s.respBuffer 0 ≤ a ∧ a + n ≤ s.respBuffer 0 + 0x10000)

/-- What SEC memory serves in unleavened mode (R489): the log rings and buffers of SEC and PMC, and the staging buffer. -/
def State.rescueBuffer (s : State) (a n : Nat) : Bool :=
  let within (b m : Nat) : Bool := decide (b ≤ a ∧ a + n ≤ b + m)
  within (s.logBase) 0x20000 || within (s.reqBuffer 0) 0x28000 || within (benchAddr 0 0) (2 * 2 ^ 20)

/-- Counts the HOST bursts of an access to Rack, the 512-byte units that it touches, and records its wait if it is the longest (R239, R240,
R247). DEDUCED: Log 64. DESIGN CHOICE: Log 76. -/
def State.hostBursts (s : State) (a n : Nat) : State :=
  if isBench a then s
  else
    let pg := pgMchn (placeIdx a)
    let s := s.bump pg 0x11C ((placeByte a + n - 1) / 512 + 1 - placeByte a / 512)
    (s.setReg pg 0x128 (BitVec.ofNat 32 (max (s.reg pg 0x128).toNat (Config.waited s.fresh % 2 ^ 32)))).nextFresh

/-- What forbids a bulk access, if anything (Table 19-5): the UNIT of the ACCESS capture. -/
def State.bulkBad (s : State) (l : Link) (a n : Nat) (isWrite : Bool) : Option Nat :=
  if !(s.link l).sessionOpen && !s.openBuffer a n isWrite then some 3
  else if s.pw.st = .unleavened ∧ !s.rescueBuffer a n then some 1
  else if n < 1 ∨ 4096 < n ∨ a / 4096 ≠ (a + n - 1) / 4096 then some 2
  else if !bulkAssigned a then some 1
  else if (if isBench a then s.tileFenced (placeIdx a) else !s.channelOk (placeIdx a)) then some 5
  else none

/-! ### Content -/

/-- The page that a line of frame `f` holds in form `form`. DESIGN CHOICE: Log 27. -/
def lineForm (x : Frame) (form : Nat) : Page :=
  if x.cur.fPacked = decide (form = 1) then x.cur else (x.old.map (·.2)).getD x.cur

/-- The record of a gradient page (R199): FIRST_POS and the unit entries, where Table 4-2 has them. DESIGN CHOICE: Log 27. -/
def gradRecord (g : GradPage) : List Byte :=
  let units := (List.range 64).flatMap (fun i => match AL.get i g.units with | some u => unitBytes u | none => leBytes 16 0)
  leBytes 20 0 ++ leBytes 4 g.firstPos ++ leBytes 1000 0 ++ units ++ leBytes 2048 0

/-- The 68 KiB of a Bench line: a record of 4 KiB, then the payload (R224). DESIGN CHOICE: Log 27. -/
def State.lineBytes (s : State) (l : Line) (o n : Nat) : List Byte :=
  if l.use = .grad then
    match s.eng.grads.find? (fun g => g.2.num == l.frame) with
    | some (_, g) => if o < 4096 then ((gradRecord g).drop o).take n else g.payload.readN (o - 4096) n
    | none => List.replicate n 0
  else if l.use = .test then s.mem.readN (benchAddr l.tile ((l.set * 16 + l.way) * 69632 + o)) n
  else match s.frame l.frame with
    | none => List.replicate n 0
    | some x =>
      let p := lineForm x l.form
      if o < 4096 then ((pageRecord (s.shape p.domain p.shapeId) p).drop o).take n
      else p.payload.readN (o - 4096) n

/-- `n` bytes at a bulk-window address. -/
def State.bulkBytes (s : State) (a n : Nat) : List Byte :=
  let b := placeByte a
  if isBench a then
    match s.lineAt (placeIdx a) b with
    | some l => s.lineBytes l (b % 69632) n
    | none => s.mem.readN a n
  else rackBytes s (placeIdx a) b n

/-- Bytes written into the payload of a frame that a chunk or a Crumb slot of Rack holds, `o` bytes into it (R242). -/
def State.pokeFrame (s : State) (f chunk o : Nat) (d : List Byte) : State :=
  match s.frame f with
  | none => s
  | some x =>
    let isOld := !x.rack.crumbLoc && (match x.old with | some k => k.1 == chunk | none => false)
    if isOld then s.putFrame { x with old := x.old.map (fun k => (k.1, { k.2 with payload := k.2.payload.writeN o d })) }
    else
      let w (p : Page) : Page := { p with payload := p.payload.writeN o d }
      s.putFrame { x with rack := w x.rack, cur := if (s.frameLines f).isEmpty then w x.cur else x.cur }

/-- Bytes written into the payload of a Bench line; its record is the node's. DESIGN CHOICE: Log 27. -/
def State.pokeLine (s : State) (l : Line) (o : Nat) (d : List Byte) : State :=
  if o < 4096 then s
  else if l.use = .grad then
    s.setEng { s.eng with grads := s.eng.grads.map (fun g =>
      if g.2.num = l.frame then (g.1, { g.2 with payload := g.2.payload.writeN (o - 4096) d }) else g) }
  else
    match s.frame l.frame with
    | none => s
    | some x =>
      let w (p : Page) : Page := { p with payload := p.payload.writeN (o - 4096) d }
      if x.cur.fPacked = decide (l.form = 1) then s.putFrame { x with cur := w x.cur }
      else s.putFrame { x with old := x.old.map (fun k => (k.1, w k.2)) }

/-- Bytes written into a channel's Crumb regions: each frame whose slot they touch takes its part, and a write to it is counted (R242). -/
def State.crumbPut (s : State) (ch b : Nat) (d : List Byte) : Nat → State
  | 0 => s
  | n + 1 =>
    if d.isEmpty then s
    else match crumbAt s ch b with
    | some (x, b0) =>
      let k := b0 + (s.shape x.rack.domain x.rack.shapeId).slotBytes - b
      ((s.pokeFrame x.num 0 (b - b0) (d.take k)).bump (pgMchn ch) 0x12C 1).crumbPut ch (b + k) (d.drop k) n
    | none =>
      let k := 256 - b % 256
      ({ s with mem := s.mem.writeN (rackAddr ch b) (d.take k) } : State).crumbPut ch (b + k) (d.drop k) n

/-! ### Reads -/

/-- BULK_READ: data, zeros without a grant, or a completion error. The words of a lost codeword read as ones (Table 11-3).
DEDUCED: Log 50. -/
def State.bulkRead (s : State) (l : Link) (tag a n : Nat) (ue : Bool) : State :=
  match s.bulkBad l a n false with
  | some u => s.readError l tag n u a
  | none =>
    let deny (s : State) : State := (s.bump pgSecc 0x128 1).hostCpl l tag true (List.replicate n 0)
    let serve (s : State) : State :=
      let r := (s.hostBursts a n).readWords a n 1
      let lost := if ue && r.2.isEmpty then [wordBase a] else r.2
      let s' := if ue && r.2.isEmpty then r.1.lostWord (wordBase a) 1 false else r.1
      s'.hostCpl l tag lost.isEmpty (((s.bulkBytes a n).zipIdx a).map (fun p => if lost.contains (wordBase p.2) then 0xFF else p.1))
    match s.bulkOwner a with
    | .nobody => serve s
    | .log => serve s
    | .node => deny s
    | .domain d => match s.grantOf d with
      | none => deny s
      | some (g, x) => serve (s.setSec { s.sec with grants := AL.put g { x with read := x.read + n } s.sec.grants })

/-! ### Writes -/

/-- The 4 KiB unit holds a page table, a sequence record or a page record (R95). -/
def State.isMetadata (s : State) (a : Nat) : Bool :=
  if isBench a then false
  else match AL.get (placeIdx a, placeByte a / 65536) s.kv.chunks with
    | some (.metadata _ used) => used.contains (placeByte a / 4096 % 16 * 2) || used.contains (placeByte a / 4096 % 16 * 2 + 1)
    | some (.run _) => true
    | _ => false

/-- Bytes written into a chunk of a projection block, `o` bytes into it (R242, R394). -/
def State.pokeBlock (s : State) (dm h ch k o : Nat) (d : List Byte) : State :=
  match AL.get (dm, h) s.sec.projs with
  | none => s
  | some p =>
    let at' := p.chunks.idxOf (ch, k) * 65536 + o
    let x := (p.data.take at' ++ d ++ p.data.drop (at' + d.length)).take p.data.length
    s.setSec { s.sec with projs := AL.put (dm, h) { p with data := x } s.sec.projs }

/-- Codewords of free memory that a former owner's key enciphered are written whole, with what they read as (R385). -/
def State.settled (s : State) (a n : Nat) : State :=
  let k := (placeIdx a, placeByte a / 65536)
  match AL.get k s.kv.stale with
  | none => s
  | some x =>
    let ws := (wordsOf a n).filter (fun w => !x.live.contains (placeByte w % 65536 / 64))
    let m := ws.foldl (fun m w => m.writeN w (plainWord s k.1 (placeByte w / 64 * 64))) s.mem
    ({ s with mem := m } : State).setKv { s.kv with stale := AL.put k { x with live := x.live ++ ws.map (fun w => placeByte w % 65536 / 64) } s.kv.stale }

/-- The write itself, through the encoder (R242, R261). -/
def State.bulkPut (s : State) (l : Link) (a : Nat) (d : List Byte) : State :=
  let b := placeByte a
  let s := s.hostBursts a d.length
  if isBench a then
    match s.lineAt (placeIdx a) b with
    | some x => if x.use = .test then s.putBytes a d 0 else (s.pokeLine x (b % 69632) d).noteWrite a d.length 0
    | none => s.putBytes a d 0
  else match AL.get (placeIdx a, b / 65536) s.kv.chunks with
    | some (.payload f) => ((s.pokeFrame f (b / 65536) (b % 65536) d).noteWrite a d.length 0).bump (pgMchn (placeIdx a)) 0x12C 1
    | some (.crumb _) => (s.crumbPut (placeIdx a) b d 17).noteWrite a d.length 0
    | some (.block dm h) => (s.pokeBlock dm h (placeIdx a) (b / 65536) (b % 65536) d).putBytes a d 0
    | _ => (s.settled a d.length).putBytes a d 0

/-- BULK_WRITE. A refused write is discarded and captured; one without a grant is counted. -/
def State.bulkWrite (s : State) (l : Link) (a : Nat) (d : List Byte) : State :=
  match s.bulkBad l a d.length true with
  | some u => s.access l u a
  | none =>
    if s.isMetadata a then
      (s.setIrq pgXlat 2).logErr pgXlat 2 (Link.num l) (placeIdx a * 2 ^ 19 + placeByte a / 4096)
    else match s.bulkOwner a with
      | .nobody => s.bulkPut l a d
      | .log =>
        if (List.range 7).any (fun c => decide (s.reqBuffer c ≤ a ∧ a + d.length ≤ s.reqBuffer c + 0x4000)) then s.bulkPut l a d
        else s
      | .node => s.bump pgSecc 0x128 1
      | .domain dm => match s.grantOf dm with
        | none => s.bump pgSecc 0x128 1
        | some (g, x) =>
          let k := (placeIdx a, placeByte a / 65536)
          let s :=
            if isBench a || x.wrote.contains k then s
            else (s.setSec { s.sec with grants := AL.put g { x with wrote := x.wrote ++ [k] } s.sec.grants }).audit 0x11 (some dm)
              (Link.num l) (k.1 * 2 ^ 16 + k.2)
          s.bulkPut l a d

end Sys2Proof.Machine
end

