-- ==== Sys2Proof/Machine/Flags.lean ====
section
/-!
DEFINITION. The status bits of a control page that are computed from its state: STATE, BUSY, FROZEN and ERR_SUM of PG_STAT
(Tables 2-7, 2-8, R29, R30).
-/

namespace Sys2Proof.Machine

/-- PG_STAT.STATE, given whether the block holds admitted work. -/
def State.pgState (s : State) (pg : Nat) (busy : Bool) : Nat :=
  if s.pageFenced pg then 3 else if s.fld pg 0x18 0 1 = 1 then 1 else if busy then 2 else 0

/-- PG_STAT.ERR_SUM: ERR_LOG0.VALID, or any of IRQ_STAT[31:28]. -/
def State.errSum (s : State) (pg : Nat) : Bool := s.fld pg 0x30 31 1 == 1 || s.fld pg 0x20 28 4 != 0

/-- PG_STAT as it is read. -/
def State.pgStat (s : State) (pg : Nat) (busy : Bool) : Word :=
  BitVec.ofNat 32 (b2n (s.errSum pg) * 128 + s.fld pg 0x1C 6 1 * 64 +
    b2n (s.fld pg 0x18 1 1 == 1 && !busy) * 32 + b2n busy * 16 + s.pgState pg busy)

end Sys2Proof.Machine
end

