-- ==== Sys2Proof/Machine/Power.lean ====
section
/-!
DEFINITION. Power, start, emergencies and clocks (20), host-supplied images (R444).
-/

namespace Sys2Proof.Machine

def State.setPw (s : State) (p : PowerState) : State := { s with pw := p }

/-! ### Rails off (R478) -/

/-- What a link keeps when the node's rails go off: its RSTREQ_N input. -/
def LinkRec.bare (r : LinkRec) : LinkRec := { LinkRec.blank with rstreq := r.rstreq, rstAt := r.rstAt }

/-- The core rails are removed: Rack, Bench and SRAM, keys and leases are lost; flash and fuses stay. DEDUCED: Log 44. -/
def State.railsOff (s : State) : State := { s with
  mem := []
  rf := .blank
  host := { HostState.blank with a := LinkRec.bare s.host.a, b := LinkRec.bare s.host.b }
  cmds := .blank
  net := .blank
  egress := .blank
  kv := .blank
  eng := .blank
  lease := .blank
  sec := { SecState.blank with flushed := s.sec.flushed, flushedAt := s.sec.flushedAt, opk := s.sec.opk }
  fw := { FwState.blank with
    kinds := s.fw.kinds.map (fun (p : Nat × ImgKind) => (p.1, { p.2 with host := false }))
    bootCount := s.fw.bootCount
    laneLog := s.fw.laneLog }
  integ := .blank
  ckpt := .blank
  pw := { s.pw with
    mhz := 1200, retryAt := none, imgTill := none, samples := [], belowSince := none, brown := false, goodSince := none, hot := false
    coolSince := none } }

/-- An orderly stop (R486): SEC writes the audit head, the CCCs record pending lane flags, the rails go off. -/
def State.orderlyStop (s : State) : State :=
  let s := if (s.core 0).up then s.flushHead else s
  let s := (List.range 4).foldl (fun (s : State) q => if (s.core (3 + q)).up then s.recordLanes q else s) s
  s.railsOff

/-! ### The start log (R484, R485, Table 20-7) -/

def pushLog (l : List StartLog) (e : StartLog) : List StartLog := (e :: l).take 8

/-- Closes the newest entry, if it is open. -/
def closeLog (l : List StartLog) (step code detail : Nat) : List StartLog :=
  match l with
  | e :: r => if e.isOpen then { e with step := step, code := code, detail := detail, isOpen := false } :: r else l
  | [] => []

/-- Bound of a boot step in ms (Table 20-4). -/
def stepBoundMs (host : Bool) (n : Nat) : Nat :=
  if n = 1 then (if host then 15000 else 3000) else if n = 2 then 2000 else if n = 3 then 2000 else if n = 4 then 20000
  else if n = 5 then 10000 else if n = 6 then 8000 else 2000

def State.bootHost (s : State) : Bool := bitOf s.pw.runCfg.toNat 31
def State.minTiles (s : State) : Nat := bitsOf s.pw.runCfg.toNat 8 5
def State.failLimit (s : State) : Nat := bitsOf s.pw.runCfg.toNat 0 3

/-- The image that a core loads is the other slot's, for want of a valid one in the active slot (R443). -/
def State.substituted (s : State) (c : Nat) : Bool :=
  let k := s.kind (coreKind c)
  !(k.host && AL.has (coreKind c) s.fw.hostImgs) && !slotOk k k.active && slotOk k (1 - k.active)

/-- A core's first start in a run. A substituted image is logged (R443) in its log too. DESIGN CHOICE: Log 58. -/
def State.coreBoots (s : State) (c : Nat) : State :=
  let i := s.bootImage c
  let t := (s.setCore c { CoreRec.blank with up := true, version := i.1, arb := i.2, runAt := s.nrt }).setIrq pgMbox (2 ^ (8 + c))
  if s.substituted c then t.logLine c (Config.logWord s.fresh 1 % 3) (Config.logWord s.fresh 0 % 65536) else t

/-- The audit chain continues from the last head written to flash (R402, R489). DEDUCED: Log 55. -/
def State.resumeChain (s : State) : State := s.setSec { s.sec with
  auditHead := s.sec.flushed.2, auditSeq := if s.sec.flushed.2 = 0 then 0 else s.sec.flushed.1 + 1 }

/-- GENESIS (Table 16-11). -/
def State.genesis (s : State) : State := s.resumeChain.audit 1 none 2 s.fw.bootCount

/-- Enters UNLEAVENED (R488): SEC and PMC run. -/
def State.goUnleavened (s : State) (cause detail : Nat) : State :=
  let s := s.setPw { s.pw with
    st := .unleavened, cause := cause, detail := detail, log := closeLog s.pw.log s.pw.step cause detail, step := 15, imgTill := none }
  let s := s.resumeChain
  [0, 1].foldl (fun (s : State) c => s.coreBoots c) s

/-- Stage 1 begins (Table 20-4): an entry is opened; the failed-start count is checked and raised (R485). DEDUCED: Log 55. -/
def State.startRun (s : State) : State :=
  let old := match s.pw.tripHeld with
    | some k => if s.pw.log.any (·.isOpen) then closeLog s.pw.log s.pw.step 0x17 k else pushLog s.pw.log ⟨s.fw.bootCount, s.pw.step, 0x17, k, false⟩
    | none => closeLog s.pw.log s.pw.step 0x16 0
  let n := (s.fw.bootCount + 1) % 2 ^ 32
  let s := s.setFw { s.fw with bootCount := n }
  let s := s.setPw { s.pw with
    st := .starting, step := 1, stepAt := s.nrt, retryAt := none, cause := 0, detail := 0, imgTill := none, tripHeld := none
    runCfg := s.pw.scfg, log := pushLog old ⟨n, 1, 0, 0, true⟩ }
  let s := [Link.a, Link.b].foldl (fun (s : State) l => s.tryTrain l) s
  let force := s.pw.forced
  let s := s.setPw { s.pw with forced := false }
  if s.failLimit ≤ s.pw.fails then s.goUnleavened 1 ((old.head?).elim 0 (·.code))
  else
    let s := s.setPw { s.pw with fails := s.pw.fails + 1 }
    if force then s.goUnleavened 3 0 else s

/-- A start fails (R484): its entry is closed, the rails are off for 1 s. -/
def State.startFails (s : State) (code detail : Nat) : State :=
  let l := closeLog s.pw.log s.pw.step code detail
  let s := s.railsOff
  s.setPw { s.pw with log := l, retryAt := some (s.nrt + msTicks 1000) }

/-- START_RETRY: after 1 s with the rails off. -/
def State.startRetry (s : State) : State :=
  match s.pw.retryAt with
  | some t => if s.pw.st = .starting ∧ t ≤ s.nrt then s.startRun else s
  | none => s

/-! ### Images (R443, R444) -/

/-- The images of step 1: each kind from the host, the active slot or the other slot; none makes the mode unleavened. -/
def State.loadImages (s : State) : State :=
  let s := [0, 1, 2, 3].foldl (fun (s : State) k =>
    let x := s.kind k
    if x.host ∨ slotOk x x.active then s
    else (s.logErr pgMbox 1 k (if slotOk x (1 - x.active) then 0 else 2))) s
  match [0, 1, 2, 3].find? (fun k => let x := s.kind k; !x.host && !slotOk x x.active && !slotOk x (1 - x.active)) with
  | some k => s.goUnleavened 2 k
  | none => s

/-- The window for host images is open. -/
def State.imageWindow (s : State) (l : Link) : Bool :=
  s.pw.st == .starting && s.pw.step == 1 && s.pw.retryAt.isNone && s.bootHost && s.pw.imgTill.any (fun t => decide (s.nrt < t)) &&
    (s.link l).ls == .init

/-- A link that comes up in step 1 opens the window for 10 s. -/
def State.openWindow (s : State) : State :=
  if s.pw.st = .starting ∧ s.pw.step = 1 ∧ s.pw.retryAt = none ∧ s.bootHost ∧ s.pw.imgTill = none then
    s.setPw { s.pw with imgTill := some (s.nrt + msTicks 10000) }
  else s

/-- IMAGE_FLIT (Table 19-6). Its last fragment brings the check of the image. DESIGN CHOICE: Log 58. -/
def State.imageFlit (s : State) (l : Link) (kind : Nat) (last none' : Bool) (offset : Nat) (d : List Byte) (i : ImageInfo) : State :=
  if !s.imageWindow l then s
  else if kind = 0xFF then s.setPw { s.pw with imgTill := some s.nrt }
  else if 3 < kind then s
  else if none' then s.emitFlit l (.image kind 2)
  else
    let r := s.link l
    let have' := if r.imgKind = kind then r.imgBytes else []
    let b := if offset ≤ have'.length then have'.take offset ++ d else have'
    if !last then s.setLink l { r with imgKind := kind, imgBytes := b }
    else
      let whole := decide (offset ≤ have'.length)
      let s := s.setLink l { r with imgKind := 0xFF, imgBytes := [] }
      if whole ∧ i.ok ∧ (s.kind kind).fuse ≤ i.arb then
        ((s.setKind kind { s.kind kind with host := true }).setFw { (s.setKind kind { s.kind kind with host := true }).fw with
          hostImgs := AL.put kind i s.fw.hostImgs }).emitFlit l (.image kind 0)
      else (s.logErr pgMbox 1 kind 1).emitFlit l (.image kind 1)

/-- IMAGE_WINDOW_EXPIRE. -/
def State.imageWindowEnds (s : State) : State :=
  match s.pw.imgTill with
  | some t =>
    if s.pw.st = .starting ∧ s.pw.step = 1 ∧ t ≤ s.nrt then
      [Link.a, Link.b].foldl (fun (s : State) l => s.setLink l { s.link l with imgKind := 0xFF, imgBytes := [] }) s
    else s
  | none => s

/-! ### Clocks (R480) -/

/-- ACTIVE and CAPPED follow the clock (Table 20-3). DEDUCED: Log 53. PRESUMED: Log 56. -/
def State.setClock (s : State) (mhz : Nat) : State :=
  let s := if mhz = s.pw.mhz then s else s.syncNode
  let s := s.setPw { s.pw with mhz := mhz }
  if s.pw.st = .active ∧ mhz < 1200 then (s.setPw { s.pw with st := .capped }).setIrq pgPmgt 2
  else if s.pw.st = .capped ∧ 1200 ≤ mhz then s.setPw { s.pw with st := .active }
  else s

/-! ### Boot steps (Table 20-4) -/

/-- The lowest spare lane of a channel that replaces no lane yet. -/
def State.freeSpare (s : State) (ch : Nat) : Option Nat :=
  (List.range 8).map (288 + ·) |>.find? (fun n => !s.integ.repaired.any (fun p => p.1.1 == ch && p.2 == n))

/-- Replaces one lane by the lowest free spare of its channel. A lane that failed training is captured (Table 11-6). -/
def State.repairLane (s : State) (x : Nat × Nat) (trained : Bool) : State :=
  let sp := s.freeSpare x.1
  let s := match sp with
    | some n => { s with integ := { s.integ with repaired := AL.put x n s.integ.repaired } }
    | none => s
  if trained then s else s.logErr (pgMchn x.1) 5 x.2 (b2n sp.isSome)

/-- Rack training (R271): the lanes of the log and those that fail training take spares; a channel with more than 8 lanes to
repair is fenced. The log entries of repaired lanes are cleared. -/
def State.repairLanes (s : State) (failed : List (Nat × Nat)) : State :=
  let todo := (s.fw.laneLog ++ failed).eraseDups
  let bad := ((todo.map (·.1)).eraseDups).filter (fun ch => decide (8 < todo.countP (fun x => x.1 == ch)))
  let s := { s with integ := { s.integ with repaired := [] } }
  let s := todo.foldl (fun (s : State) x => s.repairLane x (!failed.contains x)) s
  let s := s.setFw { s.fw with laneLog := s.fw.laneLog.filter (fun x => bad.contains x.1) }
  bad.foldl (fun (s : State) ch => s.fencePage (pgMchn ch)) s

/-- What a step that passes does, with the lanes that failed training in it. DEDUCED: Log 55. -/
def State.stepWork (s : State) (n : Nat) (lanes : List (Nat × Nat)) : State :=
  if n = 1 then s.loadImages
  else if n = 2 then s.coreBoots 0
  else if n = 3 then s.coreBoots 1
  else if n = 4 then s.repairLanes lanes
  else if n = 6 then s.genesis
  else if n = 7 then
    let s := s.coreBoots 2
    (List.range 4).foldl (fun (s : State) q =>
      if (List.range 6).all (fun i => s.tileFenced (6 * q + i)) then s else s.coreBoots (3 + q)) s
  else s

def State.usableTiles (s : State) : Nat := (List.range 24).countP (fun t => !s.tileFenced t)

/-- The node becomes ACTIVE (Table 20-3). -/
def State.becomeOn (s : State) : State :=
  s.setPw { s.pw with
    st := .active, step := 8, fails := 0, startMs := (s.nrt - s.pw.startAt) / msTicks 1, log := closeLog s.pw.log 8 0 0, imgTill := none } |>.setClock s.pw.mhz

/-- The tiles that a step fences (R487): those that fail steps 4 to 6, and the whole quadrant of a rail group that fails step 3
or of a CCC that does not reach UP in step 7. -/
def bootBad (o : BootOutcome) (n : Nat) : List Nat :=
  if 4 ≤ n ∧ n ≤ 6 then o.badTiles.filter (· < 24)
  else if n = 3 ∨ n = 7 then (o.badQuads.filter (· < 4)).flatMap (fun q => (List.range 6).map (6 * q + ·))
  else []

/-- BOOT_STEP_DONE: the step passes, with the units that it found bad, or the start ends (R484, R487, Table 20-5). -/
def State.bootStepDone (s : State) (o : BootOutcome) : State :=
  if s.pw.st ≠ .starting ∨ s.pw.retryAt.isSome then s
  else
    let n := s.pw.step
    if n = 1 ∧ s.bootHost ∧ s.pw.imgTill.any (fun t => decide (s.nrt < t)) then s
    else if !o.ok then
      if 2 ≤ o.code ∧ o.code ≤ 6 ∧ o.code ≠ 3 then s.goUnleavened o.code o.detail else s.startFails o.code o.detail
    else
      let s := (bootBad o n).foldl (fun (s : State) t => s.fencePage (pgTile t 0)) s
      let s := s.stepWork n o.badLanes
      if s.pw.st ≠ .starting then s
      else if s.usableTiles < s.minTiles then s.startFails 0x13 s.usableTiles
      else if [0, 6, 12, 18].all s.tileFenced then s.startFails 0x15 0
      else if 7 ≤ n then s.becomeOn
      else s.setPw { s.pw with step := n + 1, stepAt := s.nrt }

/-- The core that a step starts. -/
def stepCore (n : Nat) : Option Nat := if n = 2 then some 0 else if n = 3 then some 1 else if n = 7 then some 2 else none

/-- BOOT_STEP_TIMEOUT: bounds are longer by the length of an emergency (R483). DEDUCED: Log 55. -/
def State.bootStepLate (s : State) : State :=
  if s.pw.st ≠ .starting ∨ s.pw.retryAt.isSome ∨ s.emergency then s
  else if s.nrt < s.pw.stepAt + msTicks (stepBoundMs s.bootHost s.pw.step) then s
  else match stepCore s.pw.step with
    | some c => if (s.core c).up then s.startFails 0x10 s.pw.step else s.startFails 0x14 c
    | none => s.startFails 0x10 s.pw.step

/-! ### Transitions (Tables 20-1 and 20-3) -/

/-- A sensor is above its stage threshold (Table 20-6). -/
def above (t : Nat × Nat × Nat) (l r i : Nat) : Bool := decide (l < t.1 ∨ r < t.2.1 ∨ i < t.2.2)
def stage1 (t : Nat × Nat × Nat) : Bool := above t 95 85 47
def stage2 (t : Nat × Nat × Nat) : Bool := above t 105 95 52

/-- STANDBY with EN asserted starts, if no sensor is above stage 1. -/
def State.tryStart (s : State) : State :=
  if s.pw.st = .standby ∧ s.pw.en ∧ !stage1 s.pw.temps then (s.setPw { s.pw with startAt := s.nrt }).startRun else s

/-- EN_ASSERT. -/
def State.enAssert (s : State) : State :=
  if s.pw.en then s else (s.setPw { s.pw with en := true, enAt := s.nrt }).tryStart

/-- EN_DEASSERT: an orderly stop to STANDBY. -/
def State.enDeassert (s : State) : State :=
  let s := if s.pw.en then s.setPw { s.pw with en := false, enAt := s.nrt } else s
  if s.pw.st = .off ∨ s.pw.st = .standby then s
  else
    let s := s.orderlyStop
    s.setPw { s.pw with st := .standby, step := if s.pw.log.any (·.isOpen) then s.pw.step else 0 }

/-- POWER_ON: the input has been at least 36 V for 100 ms, and of a latched breaker EN deasserted for 1 s. The oscillator starts and node reference time is zero (R9).
DEDUCED: Log 55. -/
def State.powerOn (s : State) (mv : Nat) : State :=
  if s.pw.st ≠ .off ∨ mv < 36000 ∨ 56000 < mv ∨ s.pw.overV ∨ (s.pw.latched ∧ s.pw.en) then s
  else
    let p := { s.pw with st := .standby, latched := false, vin := mv, enAt := 0, stepAt := 0, lowerAt := 0, raiseAt := 0, tlowerAt := 0, locateTill := 0 }
    ({ s with nrt := 0, pw := p } : State).tryStart

/-- INPUT_TRIP: 0 undervoltage, 1 overvoltage, 2 breaker. The switch opens; the breaker stays latched. DESIGN CHOICE: Log 57. -/
def State.inputTrip (s : State) (cause : Nat) : State :=
  let s := s.railsOff
  s.setPw { s.pw with st := .off, overV := s.pw.overV || cause == 1, latched := (s.pw.latched || cause == 2) && cause != 0 }

/-- OVERVOLTAGE_RECLOSE: after 1 s at 52 V or below. DESIGN CHOICE: Log 57. -/
def State.overReclose (s : State) : State :=
  if s.pw.st = .off ∧ s.pw.overV then (s.setPw { s.pw with overV := false }).powerOn 52000 else s

/-- RESTART (Table 20-3); refused in STARTING. -/
def State.restart (s : State) : State :=
  if s.awake then
    let s := s.orderlyStop
    s.setPw { s.pw with st := .starting, step := 0, startAt := s.nrt, retryAt := some (s.nrt + msTicks 1000) }
  else s.cfgRej pgNode

def State.clearFails (s : State) : State := s.setPw { s.pw with fails := 0 }
def State.forceUnleavened (s : State) : State := s.setPw { s.pw with forced := true }
def State.locateOn (s : State) : State := s.setPw { s.pw with locateTill := s.nrt + msTicks 60000 }
def State.locateEnd (s : State) : State :=
  if s.pw.locateTill ≠ 0 ∧ s.pw.locateTill ≤ s.nrt then s.setPw { s.pw with locateTill := 0 } else s

/-! ### Power samples (R480) -/

/-- The power cap in force, 1,000 W at most under the clamp. -/
def State.capW (s : State) : Nat :=
  let w := s.fld pgPmgt 0x104 0 16
  if s.clamped then min 1000 w else w

def average (l : List Nat) : Nat := if l.isEmpty then 0 else l.foldl (· + ·) 0 / l.length

/-- Every sensor is at least 3 °C below its stage 1 threshold. -/
def coolEnough (t : Nat × Nat × Nat) : Bool := decide (t.1 ≤ 92 ∧ t.2.1 ≤ 82 ∧ t.2.2 ≤ 44)

/-- POWER_SAMPLE (R480): power in W, voltage in mV, current in mA. -/
def State.powerSample (s : State) (pin vin iin : Nat) : State :=
  if s.pw.st = .off then s
  else
    let l := (pin :: s.pw.samples).take 100
    let good := decide (37000 ≤ vin ∧ iin ≤ 36000)
    let s := s.setPw { s.pw with
      samples := l, vin := vin, iin := iin, goodSince := if good then some (s.pw.goodSince.getD s.nrt) else none }
    if !s.awake then s
    else
      let fast := average (l.take 10)
      let slow := average l
      let cap := s.capW
      let below := if decide (slow * 100 ≤ cap * 95) then some (s.pw.belowSince.getD s.nrt) else none
      let s := s.setPw { s.pw with belowSince := below }
      if 1400 < fast ∨ cap + 150 < slow then (s.setPw { s.pw with lowerAt := s.nrt }).setClock 400
      else if cap < slow then
        if s.pw.lowerAt + usTicks 100 ≤ s.nrt then (s.setPw { s.pw with lowerAt := s.nrt }).setClock (max 400 (s.pw.mhz - 50)) else s
      else if below.any (fun t => decide (t + msTicks 10 ≤ s.nrt)) ∧ s.pw.raiseAt + msTicks 1 ≤ s.nrt ∧ !s.emergency ∧
          s.pw.tlowerAt = 0 ∧ s.pw.mhz < 1200 then
        (s.setPw { s.pw with raiseAt := s.nrt }).setClock (min 1200 (s.pw.mhz + 50))
      else s

/-! ### Emergencies (R482, R483) -/

/-- An emergency begins: counted, signalled, and the islands run at 0.4 GHz. DEDUCED: Log 53. -/
def State.emergencyBegins (s : State) : State := ((s.bump pgPmgt 0x11C 1).setIrq pgPmgt 1).setClock 400

/-- The bounds of a start are longer by an emergency that ends now and began at `t` (R483). -/
def State.extendStep (s : State) (t : Nat) : State :=
  if s.pw.st = .starting then s.setPw { s.pw with stepAt := s.pw.stepAt + (s.nrt - max t s.pw.stepAt) } else s

/-- BROWN_OUT: below 36 V for more than 100 µs, or above 38 A for more than 1 ms. DEDUCED: Log 53. -/
def State.brownOut (s : State) (mv ma : Nat) : State :=
  if s.pw.st = .off ∨ s.pw.st = .standby ∨ (36000 ≤ mv ∧ ma ≤ 38000) then s
  else
    let was := s.pw.brown
    let s := s.setPw { s.pw with vin := mv, iin := ma, brown := true, brownAt := if was then s.pw.brownAt else s.nrt, goodSince := none }
    if was then s else s.emergencyBegins

/-- POWER_EMERGENCY_END: 10 ms within limits. -/
def State.brownEnd (s : State) : State :=
  if s.pw.brown ∧ s.pw.goodSince.any (fun t => decide (t + msTicks 10 ≤ s.nrt)) then
    let s := s.setPw { s.pw with brown := false }
    if s.pw.hot then s else s.extendStep s.pw.brownAt
  else s

/-- THERMAL_SAMPLE (R482). -/
def State.thermalSample (s : State) (logic rack inlet : Nat) : State :=
  if s.pw.st = .off then s
  else
    let t := (logic, rack, inlet)
    let old := s.pw.temps
    let s := s.setPw { s.pw with temps := t }
    if s.pw.st = .standby then s
    else if 115 < logic ∨ 105 < rack then
      let s := s.railsOff
      s.setPw { s.pw with
        st := .standby, trips := min (2 ^ 32 - 1) (s.pw.trips + 1), tripHeld := some (if 115 < logic then 0 else 1) }
    else
      let crossed := (old.1 ≤ 95 && 95 < logic) || (old.2.1 ≤ 85 && 85 < rack) || (old.2.2 ≤ 47 && 47 < inlet)
      let s := if crossed then s.setIrq pgPmgt 8 else s
      let cool := decide (logic ≤ 100 ∧ rack ≤ 90 ∧ inlet ≤ 47)
      let s := s.setPw { s.pw with
        coolSince := if cool then some (s.pw.coolSince.getD s.nrt) else none, tlowerAt := if coolEnough t then 0 else s.pw.tlowerAt }
      if stage2 t ∧ !s.pw.hot then (s.setPw { s.pw with hot := true, hotAt := s.nrt, tlowerAt := s.nrt }).emergencyBegins
      else if stage1 t ∧ (s.pw.tlowerAt = 0 ∨ s.pw.tlowerAt + msTicks 1 ≤ s.nrt) then
        (s.setPw { s.pw with tlowerAt := s.nrt }).setClock (max 400 (s.pw.mhz - 50))
      else s

/-- THERMAL_EMERGENCY_END: every sensor at least 5 °C below stage 2 for 1 s. -/
def State.hotEnd (s : State) : State :=
  if s.pw.hot ∧ s.pw.coolSince.any (fun t => decide (t + msTicks 1000 ≤ s.nrt)) then
    let s := s.setPw { s.pw with hot := false }
    if s.pw.brown then s else s.extendStep s.pw.hotAt
  else s

/-! ### What the pins show -/

/-- WAKE_N is asserted (R473): from boot step 1 on, while no link holds a session. DESIGN CHOICE: Log 49. -/
def State.wakeN (s : State) : Bool := s.powerGood && !s.anySession

/-- The pattern of the status light, by its order in Table 20-9. -/
def State.light (s : State) : Nat :=
  if s.emergency ∨ (s.pw.st = .standby ∧ s.pw.tripHeld.isSome) then 1
  else if s.nodeFenced then 2
  else if s.nrt < s.pw.locateTill then 3
  else match s.pw.st with
    | .unleavened => 4
    | .starting => 5
    | .active => if s.rf.fenced.isEmpty then 7 else 6
    | .capped => if s.rf.fenced.isEmpty then 7 else 6
    | .standby => 8
    | .off => 9

/-- EMERG of PSTAT. -/
def State.emerg (s : State) : Nat := if s.pw.hot then 2 else if s.pw.brown then 1 else 0

/-- The highest thermal stage in force and its sensor (Table 20-8). -/
def State.thermal (s : State) : Nat × Nat :=
  let t := s.pw.temps
  if s.pw.hot ∨ stage2 t then (2, if 105 < t.1 then 0 else if 95 < t.2.1 then 1 else if 52 < t.2.2 then 2 else if 100 < t.1 then 0 else if 90 < t.2.1 then 1 else 2)
  else if 95 < t.1 then (1, 0) else if 85 < t.2.1 then (1, 1) else if 47 < t.2.2 then (1, 2) else (0, 0)

end Sys2Proof.Machine
end

