-- ==== Sys2Proof/Machine/RegRead.lean ====
section
/-!
DEFINITION. The value that a register reads as. Most registers read as they are stored; those that report the state of a block
are computed here (R5, R28, Tables 1-13, 2-2, and the register tables of each chapter).
-/

namespace Sys2Proof.Machine

def w32 (n : Nat) : Word := BitVec.ofNat 32 n
/-- A count that stops at 0xFFFF_FFFF. -/
def sat32 (n : Nat) : Word := BitVec.ofNat 32 (min n (2 ^ 32 - 1))
/-- The low half at offset `lo` and the high half after it. -/
def halves (off lo n : Nat) : Word := if off = lo then w32 n else w32 (n / 2 ^ 32)
/-- Bits 0 to `n` - 1 given by a test. -/
def bitSet (n : Nat) (f : Nat → Bool) : Nat := (List.range n).foldl (fun m i => if f i then m + 2 ^ i else m) 0
def int32 (i : Int) : Word := (BitVec.ofInt 32 i)

def LeaseSt.num : LeaseSt → Nat | .unleased => 0 | .leased => 1 | .fenced => 2
def PowerSt.num : PowerSt → Nat | .off => 0 | .standby => 1 | .unleavened => 2 | .starting => 3 | .active => 4 | .capped => 5
def LState.num : LState → Nat | .down => 0 | .training => 1 | .init => 2 | .up => 3
def RegState.num : RegState → Nat | .free => 0 | .active => 1 | .revoking => 2 | .revoked => 3

/-- Time left until `till`, in µs. -/
def State.leftUs (s : State) (till : Nat) : Word := sat32 ((till - s.nrt) / 100)

/-- NODE (Tables 1-13, 17-12, 20-7). -/
def State.readNode (s : State) (off : Nat) : Option Word :=
  if off = 0x100 ∨ off = 0x104 then some (halves off 0x100 s.nrt)
  else if off = 0x10C then some (w32 s.fw.bootCount)
  else if 0x110 ≤ off ∧ off < 0x140 then some (w32 (leVal ((leBytes 48 Config.deviceId.toNat).drop (off - 0x110) |>.take 4)))
  else if off = 0x200 then some (packBits [(30, 2, LeaseSt.num s.lease.st), (20, 4, s.lease.cause)])
  else if off = 0x224 then some s.lease.cur
  else if off = 0x228 then some (s.lease.prev.getD 0)
  else if off = 0x22C then some (match s.lease.comp with
    | none => packBits [(26, 1, 1)]
    | some (c, f) => packBits [(16, 10, c), (0, 16, f)])
  else if off = 0x230 then some (if s.lease.st = .leased then s.leftUs s.lease.expiry else 0)
  else if off = 0x234 then some (if s.lease.prev.isSome then s.leftUs s.lease.graceTill else 0)
  else if off = 0x240 then some (w32 (bitSet 24 s.tileFenced))
  else if off = 0x244 then some (w32 (bitSet 4 (fun q => (List.range 6).all (fun i => s.tileFenced (6 * q + i)))))
  else if off = 0x260 then some (packBits [(28, 4, s.pw.step), (16, 8, s.pw.cause), (8, 8, s.pw.fails), (0, 8, s.pw.detail)])
  else if off = 0x264 then some s.pw.scfg
  else if off = 0x26C then some (sat32 s.pw.startMs)
  else if off = 0x274 then some (match s.pw.log[s.fld pgNode 0x270 0 3]? with
    | none => 0
    | some e => packBits [(24, 8, e.boot), (16, 8, e.step), (8, 8, e.code), (0, 8, e.detail)])
  else none

/-- SECC (Table 16-12). -/
def State.readSecc (s : State) (off : Nat) : Option Word :=
  if off = 0x100 then some (packBits [(31, 1, b2n (s.core 0).up), (30, 1, b2n (!s.sec.opk.isEmpty)), (29, 1, b2n (s.secUp)),
    (1, 1, b2n s.host.b.sessionOpen), (0, 1, b2n s.host.a.sessionOpen)])
  else if off = 0x104 then some (w32 s.opkState)
  else if off = 0x108 then some (w32 (s.sec.domains.countP (fun (p : Nat × DomainRec) => p.2.st == .active)))
  else if off = 0x10C then some (w32 s.sec.creds.length)
  else if off = 0x110 then some (w32 s.liveSets.length)
  else if 0x114 ≤ off ∧ off < 0x124 then some (match AL.get ((off - 0x114) / 4) s.sec.grants with
    | none => 0
    | some g => packBits [(31, 1, 1), (16, 10, g.domain), (0, 12, (g.openedAt + msTicks (1000 * s.inspMax) - s.nrt) / msTicks 1000)])
  else if off = 0x130 ∨ off = 0x134 then some (halves off 0x130 (s.sec.auditSeq - 1))
  else if 0x140 ≤ off ∧ off < 0x170 then some (w32 (leVal (((leBytes 48 s.sec.auditHead.toNat).drop (off - 0x140)).take 4)))
  else if off = 0x200 then some (packBits [(31, 1, b2n (!s.sec.report.isEmpty)), (0, 16, if s.sec.report.isEmpty then 0 else 704)])
  else if 0x800 ≤ off then some (w32 (leVal (((s.sec.report.take 704).drop (off - 0x800)).take 4)))
  else none

/-- PMGT (Tables 18-15, 20-8). -/
def State.readPmgt (s : State) (off : Nat) : Option Word :=
  if off = 0x100 then some (packBits [(28, 4, PowerSt.num s.pw.st), (26, 2, s.emerg), (25, 1, b2n s.clamped)])
  else if off = 0x108 then some (w32 ((s.pw.samples.head?).getD 0))
  else if off = 0x10C then some (w32 s.pw.vin)
  else if off = 0x110 then some (w32 s.pw.iin)
  else if off = 0x114 then some (packBits [(16, 8, s.pw.temps.2.2), (8, 8, s.pw.temps.2.1), (0, 8, s.pw.temps.1)])
  else if off = 0x120 then some (packBits [(30, 2, s.thermal.1), (28, 2, s.thermal.2)])
  else if off = 0x124 then some (w32 s.clockMhz)
  else if off = 0x128 then some (w32 s.pw.trips)
  else none

/-- A context entry (Table 12-1). -/
def ctxEntry : Option Ctx → Nat
  | none => 0
  | some c => 2 ^ 63 + c.domain * 2 ^ 53 + c.partition * 2 ^ 49 + b2n c.lcEn * 2 ^ 48 + c.weight * 2 ^ 40 + c.fragMax * 2 ^ 24 + c.gradPages * 2 ^ 8

/-- SCHP (Table 18-17). -/
def State.readSchp (s : State) (off : Nat) : Option Word :=
  let m := s.reg pgSchp 0x110
  let comp := if bitOf m.toNat 10 then 0xFFFF else bitsOf m.toNat 0 10
  if off = 0x104 ∨ off = 0x108 then some (halves off 0x104 (ctxEntry (AL.get (s.fld pgSchp 0x100 0 12) s.cmds.ctxs)))
  else if off = 0x10C then some (w32 s.cmds.ctxs.length)
  else if off = 0x114 then some (packBits [(31, 1, b2n (AL.has comp s.fw.meters)),
    (30, 1, b2n ((AL.get comp s.fw.meters).any (fun (x : MeterSet) => x.snapped))), (0, 5, s.fw.meters.length)])
  else if 0x118 ≤ off ∧ off < 0x140 then
    let n := ((AL.get comp s.fw.meters).elim [] (·.counts)).getD ((off - 0x118) / 8) 0
    some (if (off - 0x118) % 8 = 0 then w32 n else w32 (n / 2 ^ 32))
  else none

/-- CCTL of quadrant q (Table 18-19). DESIGN CHOICE: Log 70. -/
def State.readCctl (s : State) (q off : Nat) : Option Word :=
  if off = 0x100 then some (packBits [(31, 1, b2n (s.core (3 + q)).up), (24, 6, bitSet 6 (fun i => s.tileFenced (6 * q + i))),
    (8, 8, min 255 (s.lanesPending q)), (0, 8, (s.core (3 + q)).restarts)])
  else if off = 0x104 then some (w32 (s.handledOf q))
  else if off = 0x108 then some (w32 (s.fw.laneLog.countP (fun (x : Nat × Nat) => x.1 / 96 == q)))
  else none

/-- MBOX (Table 18-12). LOG_SEQ is 0 before the first entry. -/
def State.readMbox (s : State) (off : Nat) : Option Word :=
  if off = 0x200 then some (w32 s.logTile)
  else
    let r := s.core ((off - 0x100) / 32)
    if 0x1E0 ≤ off then none
    else if off % 32 = 0 then some (packBits [(31, 1, b2n r.up), (30, 1, b2n r.busy), (29, 1, b2n r.helloOk), (16, 8, r.major), (8, 8, r.minor),
      (0, 8, r.restarts)])
    else if off % 32 = 8 then some r.respSeq
    else if off % 32 = 12 then some (w32 (r.logged % logEntries))
    else if off % 32 = 16 then some (w32 (r.logged - 1))
    else none

/-- XPRT (Tables 13-12, 14-12). -/
def State.readXprt (s : State) (off : Nat) : Option Word :=
  let i := s.fld pgXprt 0x19C 0 16
  let ring (o : Outbound) : Bool := match o.who with | .cmd _ => true | _ => false
  if off = 0x120 then some (w32 s.net.conns.length)
  else if off = 0x124 then some (w32 (s.net.conns.countP (fun (p : Nat × Conn) => p.2.cached)))
  else if off = 0x128 then some (w32 s.reasmUse)
  else if off = 0x12C then some (packBits [(16, 16, s.reqFree), (0, 16, s.respFree)])
  else if off = 0x190 then some (w32 (s.regionsOf (s.fld pgXprt 0x188 0 10)))
  else if off = 0x194 then some (packBits [(16, 16, s.net.outbound.countP ring), (0, 16, min nodeOps (s.net.outbound.countP (fun o => !ring o)))])
  else if off = 0x198 then some (w32 s.watches)
  else if off = 0x1A0 then some (match s.region i with
    | none => 0
    | some g => packBits [(29, 3, RegState.num g.st), (27, 2, g.kind), (24, 3, g.rights), (0, 10, g.domain)])
  else if off = 0x1A4 then some (packBits [(16, 16, s.regionGen i), (0, 16, (s.region i).elim 0 (·.drain))])
  else none

/-- EGRS of port p and INGP (Tables 15-3, 15-4). -/
def State.readEgrs (s : State) (p off : Nat) : Option Word :=
  let q := s.fld (pgEgrs p) 0x100 0 12
  if off = 0x110 then some (int32 (AL.getD (p, 0, q) .blank s.egress.queues).credit)
  else if off = 0x114 then some (int32 (AL.getD (p, 1, q) .blank s.egress.queues).credit)
  else if off = 0x120 then some (w32 (AL.getD (p, 0) SubState.blank s.egress.subs).v)
  else none
def State.readIngp (s : State) (off : Nat) : Option Word :=
  if off = 0x10C then some (int32 (AL.getD (s.fld pgIngp 0x100 0 10) 0 s.egress.doms)) else none

/-- HLNK (Table 19-9). -/
def State.readHlnk (s : State) (l : Link) (off : Nat) : Option Word :=
  let r := s.link l
  if off = 0x104 then some (packBits [(28, 4, LState.num r.ls), (27, 1, b2n (s.host.active == some l)), (26, 1, b2n r.sessionOpen),
    (25, 1, b2n r.rstreq), (16, 8, r.lanes)])
  else if off = 0x108 then some (sessionId r)
  else if off = 0x10C then some (w32 r.pCred)
  else none

/-- DBEL (Table 19-12), for the ring that RSEL selects. -/
def State.readDbel (s : State) (off : Nat) : Option Word :=
  let r := s.ring (s.fld pgDbel 0x108 0 12)
  if off = 0x128 then some (packBits [(29, 3, Ring.stateNum r), (28, 1, b2n r.phase), (0, 16, r.sqHead)])
  else if off = 0x12C then some (packBits [(16, 16, r.cqHead), (0, 16, r.cqTail)])
  else if off = 0x130 ∨ off = 0x134 then some (halves off 0x130 r.done.toNat)
  else if off = 0x138 ∨ off = 0x13C then some (halves off 0x138 r.fail.toNat)
  else if off = 0x140 then some (w32 r.inflight)
  else none

/-- The running fragment of an engine (Tables 6-10, 6-13). -/
def State.engineStat (s : State) (t e : Nat) : Word :=
  match AL.get (t, e) s.eng.busy with
  | none => 0
  | some i => packBits [(31, 1, 1), (16, 12, (s.frag i).elim 0 (·.ctx))]

/-- STAT and BUSY of an engine; BUSY counts the run that goes on as well. -/
def State.readEngine (s : State) (t e off : Nat) : Option Word :=
  let pg := enginePage t e
  if off = 0x104 then some (s.engineStat t e)
  else if off = 0x110 ∨ off = 0x114 then
    some (halves off 0x110 ((s.reg pg 0x110).toNat + (s.reg pg 0x114).toNat * 2 ^ 32 + s.busyCycles t e))
  else none

/-- A fragment that waits in its queue: also one that was pre-empted and has gone back to the drain (R169, R283). -/
def queuedFrag (f : Frag) : Bool := match f.st with | .waiting | .saving _ | .saved => true | _ => false

/-- The pages of a tile that report state: BNCH, MRGU, TTLB, CBAR, TSCH, MCHN, APND, CRMB, SCRB. DESIGN CHOICE: Log 61. -/
def State.readTile (s : State) (ty : PgType) (t ch off : Nat) : Option Word :=
  match ty with
  | .bnch =>
    if off = 0x118 then some (w32 (s.pused t (s.fld (pgBnch t) 0x10C 0 4)))
    else if off = 0x11C then some (w32 (s.drainPend t))
    else if off = 0x138 then some (w32 (s.bused (s.fld (pgBnch t) 0x130 0 10)))
    else if off = 0x140 then some (w32 (s.rused (s.fld (pgBnch t) 0x130 0 10)))
    else none
  | .mrgu =>
    if off = 0x108 then
      let n (st : CtxSt) : Nat := s.eng.merge.foldl (fun k p => if p.2.st = st then k + p.2.numbers.countP (fun i => i % 24 == t) else k) 0
      some (packBits [(20, 10, n .closed), (10, 10, n .anchored), (0, 10, n .opened)])
    else none
  | .ttlb => if off = 0x114 then some (w32 (s.kv.ttlb.countP (fun p => homeTile p.1.1 p.1.2 == t))) else none
  | .cbar =>
    if off = 0x108 then some (packBits [(31, 1, s.fld (pgCbar t) 0x100 0 1),
      (24, 5, if s.fld (pgCbar t) 0x100 1 1 = 1 then AL.getD t 0x1F s.integ.bus else 0x1F)]) else none
  | .tsch =>
    if off = 0x104 then
      let n (f : Frag → Bool) : Nat := s.eng.frags.countP (fun (p : Nat × Frag) => p.2.tile == t && queuedFrag p.2 && f p.2)
      some (packBits [(16, 16, n (fun f => f.queue != 16)), (0, 16, n (fun f => f.queue == 16))])
    else none
  | .mchn =>
    let lane := s.fld (pgMchn ch) 0x19C 0 9
    if off = 0x108 then some (w32 (if s.pageFenced (pgMchn ch) then 0 else s.freeChunks ch))
    else if off = 0x110 then some (w32 (s.kv.frames.countP (fun (p : Nat × Frame) => frameChannel p.1 == ch)))
    else if off = 0x1A0 then some (packBits [(31, 1, b2n (s.laneFlagged ch lane)), (30, 1, b2n (AL.has (ch, lane) s.integ.repaired)),
      (0, 16, AL.getD (ch, lane) 0 s.integ.lanes % 65536)])
    else if off = 0x1A4 then some (packBits [(8, 8, min 255 ((List.range 296).countP (s.laneFlagged ch))),
      (0, 4, s.integ.repaired.countP (fun (x : (Nat × Nat) × Nat) => x.1.1 == ch))])
    else none
  | .apnd =>
    if off = 0x104 then some (w32 (s.cmds.list.countP (queuedAt t)))
    else none
  | .crmb => if off = 0x104 then some (w32 (min 64 (s.kv.packQ.countP (fun f => frameTile f == t)))) else none
  | .scrb => if off = 0x118 then some (packBits [(31, 1, s.fld (pgScrb t) 0x118 31 1), (0, 5, (AL.getD t [] s.integ.hot).length)]) else none
  | _ => none

/-- Registers of the header that are computed (Table 2-2). -/
def State.readHeader (s : State) (pg off : Nat) : Option Word :=
  if off = 0 then some (pgId pg)
  else if off = 0x1C then some (s.pgStat pg (s.pageBusy pg))
  else if off = 0x48 then some (s.lockWord pg)
  else if off = 0x4C then some (packBits [(1, 1, b2n (s.rf.shadow.any (fun p => p.1.1 == pg)))])
  else none

/-- Registers that report the state of a block. -/
def State.readStatus (s : State) (pg off : Nat) : Option Word :=
  if off < 0x100 then s.readHeader pg off
  else match pageType pg with
  | none => none
  | some (ty, i) => match ty with
    | .node => s.readNode off
    | .secc => s.readSecc off
    | .pmgt => s.readPmgt off
    | .schp => s.readSchp off
    | .cctl => s.readCctl i off
    | .mbox => s.readMbox off
    | .port => if off = 0x168 then some (w32 (Config.macAddr i).toNat) else if off = 0x16C then some (w32 ((Config.macAddr i).toNat / 2 ^ 32)) else none
    | .xprt => s.readXprt off
    | .egrs => s.readEgrs i off
    | .ingp => s.readIngp off
    | .hlnk => s.readHlnk (if i = 0 then .a else .b) off
    | .dbel => s.readDbel off
    | .strt =>
      if off = 0x100 then some (w32 (s.kv.starter.countP (fun p => p.1.1 == i)))
      else if off = 0x138 then some (w32 (s.kv.starter.countP (fun p => p.2.domain == s.fld (pgStrt i) 0x130 0 10)))
      else none
    | .xlat => if off = 0x128 then some (packBits [(16, 16, s.fld pgXlat 0x128 16 16), (0, 16, s.kv.fills.length)]) else none
    | .aten => s.readEngine ((pageTile pg).getD 0) i off
    | .nbun => s.readEngine ((pageTile pg).getD 0) (2 + i) off
    | _ => s.readTile ty ((pageTile pg).getD 0) ((pageTile pg).getD 0 * 16 + i) off

/-- Bits that read as zero: write-only fields and reserved bits. -/
def readMask (pg off : Nat) : Word := match pageType pg with
  | none => 0
  | some (t, _) =>
    let fs := regFields t off
    w32 (accMask fs .ro + accMask fs .rwl + accMask fs .rws + accMask fs .rwq + accMask fs .w1c)

/-- A register as it reads: RW-S fields from the shadow where a write is pending (R33). -/
def State.readReg (s : State) (pg off : Nat) : Word :=
  match s.readStatus pg off with
  | some w => w
  | none =>
    let i := s.selIdx pg off
    let w := s.regI pg off i
    let w := match AL.get (regKeyAt pg off i) s.rf.shadow with
      | none => w
      | some v => (w &&& ~~~shadowMask pg off) ||| (v &&& shadowMask pg off)
    w &&& readMask pg off

/-- Registers that are the low half of a pair (R5). -/
def lowHalves : PgType → List Nat
  | .node => [0x100] | .secc => [0x130] | .schp => [0x104, 0x118, 0x120, 0x128, 0x130, 0x138] | .port => [0x140, 0x148, 0x168]
  | .egrs => [0x124] | .ingp => [0x118] | .hlnk => [0x120, 0x128] | .dbel => [0x130, 0x138] | .strt => [0x104] | .xlat => [0x110, 0x11C]
  | .aten => [0x108, 0x110] | .nbun => [0x108, 0x110] | .bnch => [0x150] | .mrgu => [0x10C] | .ttlb => [0x104, 0x10C] | .cbar => [0x10C]
  | .tsch => [0x108] | .mchn => [0x114] | .apnd => [0x108, 0x110] | .crmb => [0x108, 0x110] | _ => []

/-- The register is the low half of a pair. ERR_LOG1 and ERR_LOG2 are one on every page (Table 2-14). -/
def isLow (pg off : Nat) : Bool :=
  off == 0x34 || (match pageType pg with | none => false | some (t, _) => (lowHalves t).contains off)

end Sys2Proof.Machine
end

