-- ==== Sys2Proof/Machine/Regs.lean ====
section
/-!
DEFINITION. Register accesses (R4 to R7, R25 to R38): who may access what, the access classes, page locks, shadows, soft reset,
and the registers whose writes act.
-/

namespace Sys2Proof.Machine

/-- The name under which halves are held for an agent (R5, R6). -/
def Agent.name : Agent → Agent | .host _ => .host .a | a => a

/-! ### Access (R4, R25, R26, R488) -/

/-- Registers that a host reads before it holds a session (R26, R404). -/
def openRead (pg off : Nat) : Bool :=
  pg == pgNode || pg == pgMbox || (pg == pgSecc && (decide (off < 0x100) || off == 0x200 || decide (0x800 ≤ off ∧ off < 0xC00)))

/-- The pages that exist in the present power state (R25, R488). -/
def State.pageThere (s : State) (pg : Nat) : Bool :=
  (pageType pg).isSome && (s.pw.st != .unleavened || [pgNode, pgMbox, pgSecc, pgPmgt].contains pg)

/-- What forbids a register access: the UNIT of the ACCESS capture (Table 19-5). Of several causes the capture names the first of:
no session, width or alignment, unassigned. DESIGN CHOICE: Log 72. -/
def State.accessBad (s : State) (ag : Agent) (addr bytes : Nat) (isWrite : Bool) : Option Nat :=
  let pg := addr / 4096
  let off := addr % 4096
  let shut := match ag with
    | .host l => !(s.link l).sessionOpen && !(if isWrite then pg == pgMbox && off == 0x104 else openRead pg off)
    | .core _ => false
  if shut then some 3
  else if bytes ≠ 4 ∨ addr % 4 ≠ 0 then some 2
  else if 0x08000000 ≤ addr ∨ !s.pageThere pg then some 1
  else none

/-- The agent can make an access at all: its link carries flits, or its core runs. -/
def State.agentUp (s : State) (ag : Agent) : Bool :=
  s.powerGood && (match ag with
    | .host l => s.linkTalks l
    | .core c => (s.core c).up)

/-- Answers a read. Only the host's completions are seen outside the node. -/
def State.readAnswer (s : State) (ag : Agent) (tag : Nat) (w : Word) : State :=
  match ag with
  | .host l => s.hostCpl l tag true (leBytes 4 w.toNat)
  | .core _ => s

/-- A refused read or write (R4, R25, R26). -/
def State.readRefused (s : State) (ag : Agent) (tag bytes unit addr : Nat) : State :=
  match ag with
  | .host l => s.readError l tag bytes unit addr
  | .core _ => s
def State.writeRefused (s : State) (ag : Agent) (unit addr : Nat) : State :=
  match ag with
  | .host l => s.access l unit addr
  | .core _ => s

/-- A read of `bytes` bytes at register `addr`, answered with what `f` makes of the state. -/
def State.regRead (s : State) (ag : Agent) (addr bytes tag : Nat) (f : State → State × Word) : State :=
  if !s.agentUp ag then s
  else match s.accessBad ag addr bytes false with
    | some u => s.readRefused ag tag bytes u addr
    | none => let r := f s; r.1.readAnswer ag tag r.2

/-! ### Locks (R34 to R36) -/

def State.owns (s : State) (ag : Agent) (pg : Nat) : Bool := (s.lockOwner pg).any (fun o => Agent.same o ag)

/-- PG_LOCK of an agent that holds a page. -/
def Agent.lockWord : Agent → Word
  | .host _ => 1
  | .core c => packBits [(4, 3, c), (0, 2, 2)]

/-- A write of PG_LOCK. -/
def State.lockWrite (s : State) (ag : Agent) (pg value : Nat) : State :=
  let v := value % 4 + value / 16 % 8 * 16
  let free := (s.lockOwner pg).isNone
  if v = 0 then (if s.owns ag pg then s.setReg pg 0x48 0 else s.cfgRej pg)
  else if v ≠ (Agent.lockWord ag).toNat then s.cfgRej pg
  else match ag with
    | .host _ => if (free || s.owns ag pg) && (corePage pg).isNone then s.setReg pg 0x48 1 else s.cfgRej pg
    | .core c => if free || s.owns ag pg || c == 0 then s.setReg pg 0x48 (Agent.lockWord ag) else s.cfgRej pg

/-- Registers that only the holder of the page's lock writes (R117, R145, R373, R374, R432, R475, R490). -/
def holderOnly (t : PgType) (off : Nat) : Bool :=
  match t with
  | .node => [0x204, 0x20C, 0x210, 0x214, 0x218, 0x21C, 0x220, 0x238, 0x264, 0x268, 0x278].contains off
  | .xlat => off == 0x118
  | .strt => off == 0x130 || off == 0x134
  | .bnch => decide (0x130 ≤ off ∧ off ≤ 0x144)
  | .egrs => decide (0x100 ≤ off ∧ off ≤ 0x10C)
  | .ingp => decide (0x100 ≤ off ∧ off ≤ 0x108)
  | .dbel => decide (0x108 ≤ off ∧ off ≤ 0x124)
  | _ => false

/-- A write by this agent is discarded because of the lock (R35). The ring doorbells and IRQ_STAT are open to all (R475); the low
half of a pair is held unchecked (R6). -/
def State.lockedOut (s : State) (ag : Agent) (pg off : Nat) : Bool :=
  if off = 0x20 ∨ off = 0x48 ∨ (pg = pgDbel ∧ (off = 0x100 ∨ off = 0x104)) ∨ (pg = pgXlat ∧ off = 0x110) then false
  else if (s.lockOwner pg).isSome then s.heldByOther ag pg
  else (pageType pg).any (fun x => holderOnly x.1 off)

/-- A write to register `addr`: refused outside the agent's reach, discarded under a lock, else applied. -/
def State.regWrite (s : State) (ag : Agent) (addr bytes : Nat) (f : State → State) : State :=
  if !s.agentUp ag then s
  else match s.accessBad ag addr bytes true with
    | some u => s.writeRefused ag u addr
    | none => if s.lockedOut ag (addr / 4096) (addr % 4096) then s.cfgRej (addr / 4096) else f s

/-! ### Access classes (R32, R33) -/

/-- STATE allows RW-Q fields to change. -/
def State.quiet (s : State) (pg : Nat) : Bool := let n := s.pgState pg (s.pageBusy pg); n == 0 || n == 3

/-- A value that the register refuses whatever the block's state (R229, Tables 13-12, 19-12, 20-7). -/
def State.valueBad (s : State) (pg : Nat) (t : PgType) (off : Nat) (v : Word) : Bool :=
  let n := v.toNat
  let ring := s.ring (s.fld pgDbel 0x108 0 12)
  let new := s.selIdx pgDbel 0x10C
  match t with
  | .node => off == 0x264 && decide (bitsOf n 8 5 < 1 ∨ 24 < bitsOf n 8 5 ∨ bitsOf n 0 3 < 2)
  | .xprt => off == 0x18 && bitOf n 0 && s.fld pgXprt 0x100 0 16 == 0
  | .bnch =>
    let tile := (pageTile pg).getD 0
    let rest := ((List.range 16).filter (· != s.selIdx pg off)).foldl (fun k p => k + s.pmin tile p) 0
    off == 0x114 && decide (27648 - s.fld pg 0x108 0 14 < bitsOf n 0 15 + rest)
  | .dbel =>
    if off = 0x10C then decide (10 < bitsOf n 8 4 ∨ 10 < bitsOf n 4 4) ||
      (ring.st != .disabled && (v &&& readMask pgDbel off).toNat % 2 ^ 31 != (s.regI pgDbel 0x10C new).toNat % 2 ^ 31)
    else (off == 0x110 || off == 0x114 || off == 0x118 || off == 0x11C || off == 0x124) && ring.st != .disabled &&
      v &&& readMask pgDbel off != s.regI pgDbel off new
  | _ => false

/-- Applies a write to the stored fields of a register under their classes; none where it is refused. In every STATE an RW-L field
takes the value at once and an RW-S field goes to the shadow, as Table 2-9 has it for ACTIVE. DESIGN CHOICE: Log 72. -/
def State.applyFields (s : State) (pg off : Nat) (v : Word) : Option State :=
  match pageType pg with
  | none => some s
  | some (t, _) =>
    let fs := regFields t off
    let i := s.selIdx pg off
    let key := regKeyAt pg off i
    let old := s.regI pg off i
    let q := w32 (accMask fs .rwq)
    let l := w32 (accMask fs .rwl)
    let c := w32 (accMask fs .w1c)
    let m := w32 (accMask fs .rws)
    if (old &&& q ≠ v &&& q ∧ !s.quiet pg) ∨ s.valueBad pg t off v then none
    else
      let new := ((old &&& ~~~(q ||| l)) ||| (v &&& (q ||| l))) &&& ~~~(v &&& c)
      let s := if q ||| l ||| c = 0 then s else s.setRegI pg off i new
      some (if m = 0 then s
        else
          let sh := AL.getD key (s.regI pg off i) s.rf.shadow
          { s with rf := { s.rf with shadow := AL.put key ((sh &&& ~~~m) ||| (v &&& m)) s.rf.shadow } })

/-! ### Actions of single registers -/

/-- Writing 1 to ERR_LOG0.VALID clears the capture (R38). -/
def State.errLogClear (s : State) (pg : Nat) : State :=
  (((s.setReg pg 0x30 0).setReg pg 0x34 0).setReg pg 0x38 0).setReg pg 0x3C 0

/-- Counters that a CLR register sets to zero: first and last offset, and offsets kept. -/
def clearRange (t : PgType) (off : Nat) : Option (Nat × Nat × List Nat) :=
  match t with
  | .crmb => if off = 0x120 then some (0x108, 0x11C, []) else none
  | .apnd => if off = 0x124 then some (0x108, 0x120, []) else none
  | .strt => if off = 0x124 then some (0x104, 0x11C, []) else none
  | .aten => if off = 0x128 then some (0x108, 0x120, []) else none
  | .nbun => if off = 0x12C then some (0x108, 0x128, [0x124]) else none
  | .tsch => if off = 0x138 then some (0x108, 0x134, []) else if off = 0x160 then some (0x150, 0x15C, []) else none
  | .mrgu => if off = 0x12C then some (0x10C, 0x128, []) else none
  | .bnch => if off = 0x16C then some (0x150, 0x168, []) else none
  | .mchn => if off = 0x130 then some (0x114, 0x128, []) else if off = 0x1AC then some (0x190, 0x198, []) else none
  | .cbar => if off = 0x11C then some (0x10C, 0x114, []) else none
  | .scrb => if off = 0x130 then some (0x11C, 0x12C, []) else none
  | .port => if off = 0x160 then some (0x140, 0x15C, []) else none
  | .xprt => if off = 0x154 then some (0x130, 0x150, []) else if off = 0x1B4 then some (0x1A8, 0x1B0, []) else none
  | .egrs => if off = 0x13C then some (0x124, 0x138, []) else none
  | .ingp => if off = 0x120 then some (0x110, 0x11C, []) else none
  | .hlnk => if off = 0x138 then some (0x110, 0x134, []) else none
  | _ => none

/-- CLR.CLEAR (R78 and the register tables): the counters read 0, for every value of a select register. -/
def State.clearCounters (s : State) (pg off : Nat) : State :=
  match (pageType pg).bind (fun x => clearRange x.1 off) with
  | none => s
  | some (a, b, keep) => { s with rf := { s.rf with
      vals := s.rf.vals.filter (fun p => !(p.1.1 == pg && decide (a ≤ p.1.2.1 ∧ p.1.2.1 ≤ b) && !keep.contains p.1.2.1)) } }

/-- INVAL_ALL (R116) and INVAL of one TTLB (R118). -/
def State.invalAll (s : State) : State := s.setKv { s.kv with ttlb := [], walkCache := [] }
def State.invalTtlb (s : State) (t : Nat) : State :=
  s.setKv { s.kv with ttlb := s.kv.ttlb.filter (fun (p : (Nat × Nat) × Pte) => homeTile p.1.1 p.1.2 != t) }

/-- The shape that SHAPE_SEL selects. -/
def State.shapeSel (s : State) : Nat × Nat := (s.fld pgXlat 0x10C 16 10, s.fld pgXlat 0x10C 0 6)

/-- SHAPE_CMD.READ. -/
def State.shapeLoad (s : State) : State :=
  let w := (s.shapeW s.shapeSel.1 s.shapeSel.2).toNat
  (s.setReg pgXlat 0x110 (w32 w)).setReg pgXlat 0x114 (w32 (w / 2 ^ 32))

/-- A shape is in use while a sequence or a frame of the domain names it (R81). -/
def State.shapeUsed (s : State) (d id : Nat) : Bool :=
  s.kv.seqs.any (fun (p : (Nat × Nat) × SeqRec) => p.1.1 == d && p.2.shapeId == id) ||
  s.kv.frames.any (fun (p : Nat × Frame) => p.2.cur.domain == d && p.2.cur.shapeId == id)

/-- SHAPE_CMD.WRITE: defines, replaces or removes the selected shape, or is refused (R81). -/
def State.shapeStore (s : State) : State :=
  let k := s.shapeSel
  let w : DWord := BitVec.ofNat 64 ((s.reg pgXlat 0x110).toNat + (s.reg pgXlat 0x114).toNat * 2 ^ 32)
  let valid := bitOf w.toNat 63
  if s.shapeUsed k.1 k.2 ∨ (valid ∧ !shapeOk w) then (s.cfgRej pgXlat).setIrq pgXlat 4
  else s.setKv { s.kv with shapes := if valid then AL.put k w s.kv.shapes else AL.del k s.kv.shapes }

/-- ARM of FLIP_CTL or BFLIP_CTL (R265). -/
def State.flipArm (s : State) (pg : Nat) : State :=
  match pageType pg with
  | some (.mchn, _) => s.setFld pg 0x188 2 1 1
  | some (.scrb, _) => s.setFld pg 0x164 2 1 1
  | _ => s

/-- An action that its state may refuse (R32). -/
def State.orRefuse (s : State) (pg : Nat) : Option State → State
  | some t => t
  | none => s.cfgRej pg

/-- GO.GRANT with its meter set (R417, R451). -/
def State.goGrant (s : State) : State :=
  if !s.running then s.cfgRej pgNode
  else match s.grant with
    | none => s.cfgRej pgNode
    | some _ => match s.openMeter (s.fld pgNode 0x210 16 10) with
      | none => (s.cfgRej pgNode).setIrq pgSchp 1
      | some t => t.orRefuse pgNode t.grant

/-- GO.FENCE: a node that is fenced already stays so. -/
def State.goFence (s : State) : State := if s.nodeFenced then s else s.fenceNode 2

/-- The bits of GO, lowest first. DEDUCED: Log 54. -/
def State.go (s : State) (v : Nat) : State :=
  let s := if bitOf v 0 then s.orRefuse pgNode s.renew else s
  let s := if bitOf v 1 then s.goGrant else s
  let s := if bitOf v 2 then s.goFence else s
  let s := if bitOf v 3 then s.orRefuse pgNode s.releaseSlot else s
  if bitsOf v 4 2 = 1 then s.orRefuse pgNode s.rejoinDiscard
  else if bitsOf v 4 2 = 2 then s.orRefuse pgNode s.rejoinKeep
  else if bitsOf v 4 2 = 3 then s.cfgRej pgNode else s

/-- A write of RCFG (R466, R470). -/
def State.ringCfg (s : State) (v : Word) : State :=
  let n := s.fld pgDbel 0x108 0 12
  let r := s.ring n
  let old := s.regI pgDbel 0x10C n
  match s.applyFields pgDbel 0x10C v with
  | none => s.cfgRej pgDbel
  | some t =>
    if bitOf v.toNat 31 then
      match r.st with
      | .running => s
      | .disabled => if t.ringRefused n (t.domActive (t.ringDomain n)) then
            (s.setRegI pgDbel 0x10C n old).cfgRej pgDbel
          else t.ringStart n
      | _ => s.cfgRej pgDbel
    else t.ringStop n

/-- Counters, logs and levels of a page that the state holds outside the register file, at their reset values (R30). What a page
reports of the present state of its block (free chunks, lines, contexts) is no value of the page. DEDUCED: Log 60. -/
def State.resetHeld (s : State) (pg : Nat) : State :=
  match pageType pg, pageTile pg with
  | some (.dbel, _), none => { s with host := { s.host with rings := [] } }
  | some (.scrb, _), some t => s.setInteg { s.integ with hot := AL.del t s.integ.hot }
  | some (.mchn, c), some t =>
    s.setInteg { s.integ with lanes := s.integ.lanes.filter (fun (p : (Nat × Nat) × Nat) => p.1.1 != t * 16 + c) }
  | some (.ttlb, _), some t => s.invalTtlb t
  | some (.egrs, p), none => { s with egress := { s.egress with
      queues := s.egress.queues.map (fun (x : (Nat × Nat × Nat) × EgQueue) => if x.1.1 = p then (x.1, { x.2 with credit := 0 }) else x)
      subs := s.egress.subs.filter (fun (x : (Nat × Nat) × SubState) => x.1.1 != p) } }
  | some (.ingp, _), none => { s with egress := { s.egress with doms := [] } }
  | _, _ => s

/-- SOFT_RESET (R30): every field of the page but PG_LOCK returns to its reset value; the self-check decides on the fence. What
the node holds once for many pages is not a field of one of them, and the island bits stay until the next start (R23). DEDUCED: Log 60. -/
def State.softReset (s : State) (pg : Nat) (pass : Bool) : State :=
  if !s.quiet pg then s.cfgRej pg
  else
    let s := s.resetHeld pg
    let shared (k : Nat × Nat × Nat) : Bool := regKeyAt (pgBnch 1) k.2.1 k.2.2 == k || regKeyAt (pgStrt 1) k.2.1 k.2.2 == k
    let island (k : Nat × Nat × Nat) : Bool := k.1 == pgNode && (k.2.1 == 0x140 || k.2.1 == 0x144)
    let rf := s.rf
    { s with rf := { rf with
      vals := AL.put (regKeyAt pg 0x18 0) 0 (rf.vals.filter (fun p => p.1.1 != pg || p.1.2.1 == 0x48 || shared p.1 || island p.1))
      shadow := rf.shadow.filter (fun p => p.1.1 != pg)
      fenced := if pass then rf.fenced.filter (· != pg) else if rf.fenced.contains pg then rf.fenced else rf.fenced ++ [pg]
      failed := if pass then rf.failed.filter (· != pg) else if rf.failed.contains pg then rf.failed else rf.failed ++ [pg] } }

/-- A write that its register accepts, followed by what it triggers; a refused write triggers nothing (R32). -/
def State.applyThen (s : State) (pg off : Nat) (v : Word) (f : State → State) : State := s.orRefuse pg ((s.applyFields pg off v).map f)

/-- PG_CTL less SOFT_RESET (R29, R31): a block that failed its self-check ignores ENABLE (R30). -/
def State.pgCtl (s : State) (pg : Nat) (v : Word) : State :=
  s.applyThen pg 0x18 (if s.rf.failed.contains pg then v &&& ~~~1 else v) (fun t => if bitOf v.toNat 3 then t.abortBlock pg [] else t)

/-- Writes that act beyond their fields. -/
def State.act (s : State) (ag : Agent) (pg off : Nat) (v : Word) : State :=
  let n := v.toNat
  let plain (s : State) : State := s.orRefuse pg (s.applyFields pg off v)
  if off < 0x100 then
    if off = 0x18 then
      if bitOf n 2 then s.softReset pg true else s.pgCtl pg v
    else if off = 0x20 then (plain s).irqAgain pg
    else if off = 0x24 then (s.orRefuse pg (s.applyFields pg off (v &&& BitVec.ofNat 32 (irqBits pg)))).irqAgain pg
    else if off = 0x28 then s.setIrq pg n
    else if off = 0x30 then (if bitOf n 31 then s.errLogClear pg else s)
    else if off = 0x48 then s.lockWrite ag pg n
    else if off = 0x4C then (if bitOf n 0 then s.commitPage pg else s)
    else plain s
  else match pageType pg with
    | none => s
    | some (t, i) =>
      let tile := (pageTile pg).getD 0
      if (clearRange t off).isSome then (if bitOf n 0 then (s.syncEngine pg).clearCounters pg off else s)
      else match t with
      | .node =>
        if off = 0x220 then s.go n
        else if off = 0x264 then
          if s.valueBad pgNode .node 0x264 v then s.cfgRej pg else s.setPw { s.pw with scfg := v &&& readMask pgNode 0x264 }
        else if off = 0x268 then
          let s := if bitOf n 2 then s.forceUnleavened else s
          let s := if bitOf n 1 then s.clearFails else s
          if bitOf n 0 then s.restart else s
        else if off = 0x278 then (if bitOf n 0 then s.locateOn else s)
        else plain s
      | .xlat =>
        if off = 0x100 then s.applyThen pg off v (fun t => if bitOf n 1 then t.invalAll else t)
        else if off = 0x118 then
          let s := if bitOf n 1 then s.shapeLoad else s
          if bitOf n 0 then s.shapeStore else s
        else if off = 0x110 then
          { s with rf := { s.rf with held := AL.put (Agent.name ag, pg * 4096 + off) v s.rf.held } }
        else plain s
      | .ttlb => if off = 0x100 then (if bitOf n 0 then s.invalTtlb tile else s) else plain s
      | .hlnk =>
        let l : Link := if i = 0 then .a else .b
        if off = 0x100 then
          let s' := if bitOf n 1 then s.doActiveReq l else s
          if bitOf n 0 then State.sessionsAfter s' (s'.doRetrain l) else s'
        else plain s
      | .mbox => match ag with
        | .host l => if 0x104 ≤ off ∧ off < 0x1E0 ∧ off % 0x20 = 4 then s.doorbell l ((off - 0x104) / 0x20) v else plain s
        | _ => plain s
      | .dbel => if off = 0x100 then s.sqDoorbell n else if off = 0x104 then s.cqDoorbell n
        else if off = 0x10C then s.ringCfg v else plain s
      | .mchn =>
        if off = 0x188 then s.applyThen pg off v (fun t => if bitOf n 0 then t.flipArm pg else t)
        else if off = 0x18C then
          let s' := if bitOf n 16 then s.testAlloc pg else s
          if bitOf n 17 then s'.testRelease pg else s'
        else plain s
      | .scrb =>
        if off = 0x164 then s.applyThen pg off v (fun t => if bitOf n 0 then t.flipArm pg else t)
        else if off = 0x168 then
          let s' := if bitOf n 16 then s.testAlloc pg else s
          if bitOf n 17 then s'.testRelease pg else s'
        else plain s
      | .bnch => if off = 0x110 then s.applyThen pg off v (fun t => t.markDraining tile (s.selIdx pg 0x110) (n % 65536)) else plain s
      | _ => plain s

/-! ### The rows -/

/-- REG_PAIR_HI_WRITE (R6): with the held low half, or with the register's present one, as one write. The held half is gone
whether it is applied or refused. DEDUCED: Log 54. -/
def State.storeHi (s : State) (ag : Agent) (addr value : Nat) : State :=
  let pg := addr / 4096
  let lo := addr - 4
  let key := (Agent.name ag, lo)
  if !s.agentUp ag then s
  else match s.accessBad ag addr 4 true with
    | some u => s.writeRefused ag u addr
    | none =>
      let low := AL.get key s.rf.held
      let s' : State := { s with rf := { s.rf with held := AL.del key s.rf.held } }
      if !isLow pg (lo % 4096) then s'
      else if s'.lockedOut ag pg (addr % 4096) then s'.cfgRej pg
      else match s'.applyFields pg (addr % 4096) (w32 value) with
        | none => s'.cfgRej pg
        | some t => match low with
          | none => t
          | some w => match t.applyFields pg (lo % 4096) w with
            | none => s'.cfgRej pg
            | some u => u

/-- REGISTER_WRITE: to the high half of a pair it is the write of the pair. -/
def State.storeReg (s : State) (ag : Agent) (addr bytes value : Nat) : State :=
  if bytes = 4 ∧ 4 ≤ addr % 4096 ∧ isLow (addr / 4096) (addr % 4096 - 4) then s.storeHi ag addr value
  else s.regWrite ag addr bytes (fun s => s.act ag (addr / 4096) (addr % 4096) (w32 value))

/-- REG_LO_READ (R5): latches the high half for the agent. A later read of the high half returns the latched one. DEDUCED: Log 54. -/
def State.loadReg (s : State) (ag : Agent) (addr bytes tag : Nat) : State :=
  let pg := addr / 4096
  let off := addr % 4096
  s.regRead ag addr bytes tag (fun s =>
    if isLow pg off then
      ({ s with rf := { s.rf with latched := AL.put (Agent.name ag, addr + 4) (s.readReg pg (off + 4)) s.rf.latched } }, s.readReg pg off)
    else match AL.get (Agent.name ag, addr) s.rf.latched with
      | some w => (s, w)
      | none => (s, s.readReg pg off))

/-- HOT_READ (R263): the oldest hot frame, which the read removes. -/
def State.hotRead (s : State) (ag : Agent) (t tag : Nat) : State :=
  s.regRead ag (pgScrb t * 4096 + 0x114) 4 tag (fun s =>
    match AL.getD t [] s.integ.hot with
    | [] => (s, 0)
    | f :: r => (s.setInteg { s.integ with hot := AL.put t r s.integ.hot }, packBits [(31, 1, 1), (0, 28, f)]))

/-- LREQ_READ (R412). -/
def State.lreqRead (s : State) (ag : Agent) (tag : Nat) : State := s.regRead ag (pgNode * 4096 + 0x208) 4 tag State.leaseReq

/-- A write of `value` to the register at `off` of a page. -/
def State.poke (s : State) (ag : Agent) (pg off value : Nat) : State := s.storeReg ag (pg * 4096 + off) 4 value

/-- PG_CTL_ENABLE with FREEZE as it stands; PG_CTL_FREEZE with ENABLE as it stands. -/
def State.setEnable (s : State) (ag : Agent) (pg : Nat) (on : Bool) : State := s.poke ag pg 0x18 (b2n on + 2 * s.fld pg 0x18 1 1)
def State.setFreeze (s : State) (ag : Agent) (pg : Nat) : State := s.poke ag pg 0x18 (2 + s.fld pg 0x18 0 1)

/-- SOFT_RESET, with what the self-check finds. -/
def State.resetPage (s : State) (ag : Agent) (pg : Nat) (pass : Bool) : State :=
  s.regWrite ag (pg * 4096 + 0x18) 4 (fun s => s.softReset pg pass)

/-- PG_CTL_ABORT, with the units that fail to quiesce. -/
def State.abortPage (s : State) (ag : Agent) (pg : Nat) (stuck : List Nat) : State :=
  s.regWrite ag (pg * 4096 + 0x18) 4 (fun s => s.abortBlock pg stuck)

end Sys2Proof.Machine
end

