-- ==== Sys2Proof/Machine/Tick.lean ====
section
/-!
DEFINITION. One tick of node reference time (R9, Log 1): what goes on by itself while no command arrives. Every wait whose end
has no command of its own is looked at again, and queued work that can move moves.
-/

namespace Sys2Proof.Machine

/-! ### Connections -/

/-- What a connection can do: it delivers and admits what has arrived whole, and ends a close that has come to its end. -/
def State.serveConn (s : State) (i : Nat) : State :=
  let s := ((s.deliverMsgs i).admitConn i).tryCloseAck i
  State.noteGone s (s.tryFree i) i

def State.serveConns (s : State) : State := (s.net.conns.map (·.1)).foldl State.serveConn s

/-! ### Host links -/

/-- Links that may train begin to (R461, R473), and an active role that waits moves (R471). -/
def State.serveLinks (s : State) : State := (((s.tryTrain .a).tryTrain .b)).finishMove

/-! ### Jobs and firmware -/

def State.serveJobs (s : State) : State := (s.ckpt.jobs.map (·.1)).foldl State.jobProgress s

/-- Waiting requests and the evacuation. -/
def State.serveFirmware (s : State) : State := s.heldStep.evacStep

/-! ### Time -/

/-- CAPPED_MS of PMGT (Table 18-15). -/
def State.cappedMs (s : State) : State :=
  if s.pw.st = .capped ∧ s.nrt % 100000 = 0 then s.bump pgPmgt 0x118 1 else s

/-- A leak period of a page's ERR_BUCKET ends (R39, R33). DEDUCED: Log 59. -/
def State.leakTick (s : State) (pg : Nat) : State :=
  if (pageType pg).isNone || !s.powerGood || s.nrt % msTicks (s.fld pg 0x44 16 8 + 1) != 0 then s
  else (s.setFld pg 0x44 0 8 (s.fld pg 0x44 0 8 - 1)).commitPage pg

/-- What the units of a node that runs do within a tick. DESIGN CHOICE: Log 1. -/
def State.work (s : State) : State :=
  if s.running then (((((s.serveConns.lookAll).pumpOutbound).serveJobs).settleAborts).drainTiles).markBlocked else s

/-- One tick: 10 ns of node reference time pass while the oscillator runs, which it does from power-on. The queue is left as it
is. DESIGN CHOICE: Log 1. -/
def State.tick (s : State) : State :=
  if s.pw.st = .off then s
  else
    let t := s.serveLinks.work
    let t := if t.awake then t.serveFirmware.meterTick.cappedMs else t
    { t with pending := s.pending, nrt := s.nrt + 1 }

end Sys2Proof.Machine
end

