-- ==== Sys2Proof/Machine/Ran.lean ====
section
/-!
DEFINITION. How a command's effect becomes the outcome of exec: the queue is left as it is, and a command whose unit does not run
has no effect.
-/

namespace Sys2Proof.Machine

/-- The outcome of every meaning. -/
abbrev Ran := Host.Outcome State Fault Refusal

/-- The next state `t` of a command given in `s`. No command reads or changes the queue, and none but those that power the node
on changes node reference time (R9). -/
def State.did (s t : State) : Ran := .next { t with pending := s.pending, nrt := s.nrt }

/-- The next state of a command that may power the node on, which starts node reference time from zero (R9). -/
def State.didPower (s t : State) : Ran := .next { t with pending := s.pending }

/-- A command of a unit that runs in ACTIVE and CAPPED only (Table 20-2); elsewhere it has no effect. DESIGN CHOICE: Log 18. -/
def State.inService (s : State) (f : State → State) : Ran := s.did (if s.running then f s else s)

/-- The same for one that also runs in UNLEAVENED. DESIGN CHOICE: Log 18. -/
def State.inAwake (s : State) (f : State → State) : Ran := s.did (if s.awake then f s else s)

/-- The same for one that runs from boot step 1 on. DESIGN CHOICE: Log 18. -/
def State.inPower (s : State) (f : State → State) : Ran := s.did (if s.powerGood then f s else s)

/-- An event that names a tile, a port or a sublink that the node does not have has no effect. DESIGN CHOICE: Log 18.
DEDUCED: Log 22. -/
def onTile (t : Nat) (f : State → State) (s : State) : State := if t < 24 then f s else s
def onSublink (port sub : Nat) (f : State → State) (s : State) : State := if port < 8 ∧ sub < 2 then f s else s

end Sys2Proof.Machine
end

