-- ==== Sys2Proof/Machine/RowsAttn.lean ====
section
/-!
DEFINITION. Meanings: attention commands, fragments on the engines (06, 08, 12) and merging (07).
-/

namespace Sys2Proof.Machine

/-! ### Commands -/

def execAttnFwd (q : Req) (d : AttnD) (s : State) : Ran := s.inService (·.command q (.attnFwd d))
def execAttnBwd (q : Req) (d : AttnD) (s : State) : Ran := s.inService (·.command q (.attnBwd d))
def execGradDrain (q : Req) (d : DrainD) (s : State) : Ran := s.inService (·.command q (.gradDrain d))

/-! ### Fragments -/

def execWindowClose (tile queue : Nat) (s : State) : Ran := s.inService (onTile tile (·.closeWindow tile queue))
def execPreemptStop (tile engine : Nat) (s : State) : Ran := s.inService (onTile tile (·.preemptStop tile engine))
def execContextSaveDone (ctx : Nat) (s : State) : Ran := s.inService (·.saveDone ctx)
def execContextRestoreDone (frag : Nat) (s : State) : Ran := s.inService (·.restoreDone frag)
def execFragmentKill (frag : Nat) (s : State) : Ran := s.inService (·.fragKilled frag)
def execFragmentPageDone (frag : Nat) (residueOk : Bool) (s : State) : Ran := s.inService (·.pageDone frag residueOk)
def execFragmentComplete (frag : Nat) (s : State) : Ran := s.inService (·.fragDone frag)
def execTilePartialRelease (cmd tile : Nat) (s : State) : Ran := s.inService (onTile tile (·.releaseTile cmd tile))
def execPromotionLands (frame : Nat) (s : State) : Ran := s.inService (·.promotionLands frame)

/-! ### Merging -/

def execPartialReceive (conn msgId : Nat) (r : PartialRec) (s : State) : Ran := s.inService (·.partialIn conn msgId r)
def execMergeDeadline (key : MergeKey) (s : State) : Ran := s.inService (·.mergeDeadline key)
def execLingerExpire (key : MergeKey) (s : State) : Ran := s.inService (·.lingerExpire key)
def execPartialStatusReceive (conn msgId status hint : Nat) (s : State) : Ran := s.inService (·.partialStatus conn msgId status hint)
def execPartialResend (cmd : Nat) (s : State) : Ran := s.inService (·.partialAgain cmd)

end Sys2Proof.Machine
end

