-- ==== Sys2Proof/Machine/RowsFabric.lean ====
section
/-!
DEFINITION. Meanings: handshakes, packets, timers and paths of the fabric (13), and egress (15).
-/

namespace Sys2Proof.Machine

/-- A frame that comes by a sublink, of a port that takes work (R29). DEDUCED: Log 75. -/
def onFrame (port sub : Nat) (f : State → State) (s : State) : State := onSublink port sub (fun s => if s.unitAdmits (pgPort port) then f s else s) s

/-! ### Handshakes -/

def execHsInit (port sub : Nat) (h : HsInitD) (s : State) : Ran := s.inService (onFrame port sub (·.hsInit port sub h))
def execHsFinish (hs : Nat) (p : PeerProof) (s : State) : Ran := s.inService (·.hsFinish hs p)
def execHsTimeout (hs : Nat) (s : State) : Ran := s.inService (·.hsTimeout hs)

/-! ### Packets -/

def execData (p : DataPkt) (s : State) : Ran := s.inService (onFrame p.port p.sub (·.packet p))

/-- An acknowledgement; that of the node's CLOSE_ACK frees the connection (R312). -/
def State.acked (s : State) (conn base : Nat) (ranges : List (Nat × Nat)) (echo : Bool) : State :=
  match s.conn conn with
  | none => s
  | some c => let t := (s.ackIn c base ranges echo).tryFree conn; State.noteGone s t conn

/-- PATH and the count of marked packets of an ACK change nothing: RATE follows ECN_ECHO alone (R329). -/
def execAck (conn _path base : Nat) (ranges : List (Nat × Nat)) (_ce : Nat) (echo : Bool) (s : State) : Ran :=
  s.inService (·.acked conn base ranges echo)
def execAckDelay (conn : Nat) (s : State) : Ran := s.inService (·.ackDelayed conn)
def execRecvBusy (conn msgId : Nat) (lane : Lane) (hint : Nat) (s : State) : Ran := s.inService (·.recvBusyIn conn msgId lane hint)
def execRecvBusyRetry (conn msgId : Nat) (lane : Lane) (s : State) : Ran := s.inService (·.recvBusyAgain conn msgId lane)
def execAbandon (conn msgId : Nat) (lane : Lane) (reason : Nat) (s : State) : Ran := s.inService (·.abandonIn conn msgId lane reason)

/-! ### Paths and timers -/

def execPathProbe (conn path : Nat) (src : Path) (s : State) : Ran := s.inService (·.probeIn conn path src)
def execPathReply (conn path : Nat) (s : State) : Ran := s.inService (·.probeAnswered conn path)
def execProbeTimer (conn path : Nat) (s : State) : Ran := s.inService (·.probeTick conn path)

/-- A retransmission timeout; a connection that dies of it ends what waited on it (R313). -/
def State.timedOut (s : State) (conn psn : Nat) : State := State.noteGone s (s.rtoExpired conn psn).1 conn

def execRtoExpire (conn psn : Nat) (s : State) : Ran := s.inService (·.timedOut conn psn)
def execReasmTimeout (conn msgId : Nat) (lane : Lane) (s : State) : Ran := s.inService (·.reasmExpired conn msgId lane)
def execSublinkLinkLoss (port sub : Nat) (s : State) : Ran := s.inService (onSublink port sub (·.sublinkLost port sub))
def execPortLinkUp (port sub : Nat) (s : State) : Ran := s.inService (onSublink port sub (·.sublinkUp port sub))

/-! ### Ends of connections, and their state -/

def execClose (conn : Nat) (s : State) : Ran := s.inService (fun s => (s.closeIn conn).tryCloseAck conn)
def execCloseAck (conn : Nat) (s : State) : Ran := s.inService (·.closeAcked conn)
def execConnFetchDone (conn : Nat) (s : State) : Ran :=
  s.inService (fun s => ((s.connFetched conn).deliverMsgs conn).admitConn conn)

/-! ### Egress -/

def execPacerRelease (conn : Nat) (s : State) : Ran := s.inService (·.pacerRelease conn)
def execEgressSelect (port sub : Nat) (s : State) : Ran := s.inService (onSublink port sub (·.egressSelect port sub))
def execCreditRefill (s : State) : Ran := s.inService (·.creditRefill)

def execArpNsEchoRequest (port : Nat) (inlet : Inlet) (kind : Nat) (dst src : Nat) (data : List Byte) (s : State) : Ran :=
  s.inService (onFrame port inlet.sub (·.neighbour port inlet.sub inlet.vid kind dst src data))

end Sys2Proof.Machine
end

