-- ==== Sys2Proof/Machine/RowsKv.lean ====
section
/-!
DEFINITION. Meanings: descriptor commands on the KV store and the sequences (04, 05, 09), demand fills, and the commands of the
request engine (12).
-/

namespace Sys2Proof.Machine

/-! ### Pages and sequences -/

def execAppend (q : Req) (d : AppendD) (s : State) : Ran := s.inService (·.command q (.append d))
def execSealOp (q : Req) (seq : Nat) (s : State) : Ran := s.inService (·.command q (.sealOp seq))
def execPageRead (q : Req) (d : PageReadD) (s : State) : Ran := s.inService (·.command q (.pageRead d))
def execFork (q : Req) (d : ForkD) (s : State) : Ran := s.inService (·.command q (.fork d))
def execSeqCreate (q : Req) (d : SeqCreateD) (s : State) : Ran := s.inService (·.command q (.seqCreate d))
def execSeqPark (q : Req) (seq : Nat) (s : State) : Ran := s.inService (·.command q (.seqPark seq))
def execSeqResume (q : Req) (seq : Nat) (s : State) : Ran := s.inService (·.command q (.seqResume seq))
def execSeqDestroy (q : Req) (seq : Nat) (s : State) : Ran := s.inService (·.command q (.seqDestroy seq))
def execCompact (q : Req) (d : CompactD) (s : State) : Ran := s.inService (·.command q (.compact d))

/-- The next batch of a compaction that waits for one (R221). -/
def State.nextBatch (s : State) (id : Nat) : State :=
  match s.cmd id with
  | none => s
  | some c => match c.op, c.wait with
    | .compact a, .batches todo => State.applyRes id (s.compactRun c a todo)
    | _, _ => s

def execCompactBatch (cmd : Nat) (s : State) : Ran := s.inService (·.nextBatch cmd)

/-! ### The starter table -/

def execPrefixLookup (q : Req) (d : LookupD) (s : State) : Ran := s.inService (·.command q (.prefixLookup d))
def execPrefixStep (q : Req) (d : LookupD) (s : State) : Ran := s.inService (·.command q (.prefixStep d))
def execPrefixInsert (q : Req) (d : PrefixD) (s : State) : Ran := s.inService (·.command q (.prefixInsert d))
def execPrefixRemove (q : Req) (d : PrefixD) (s : State) : Ran := s.inService (·.command q (.prefixRemove d))

/-! ### Checkpoints and migration -/

def execSeqMigrate (q : Req) (d : MigrateD) (s : State) : Ran := s.inService (·.command q (.seqMigrate d))
def execMigratePageAck (job vpn : Nat) (s : State) : Ran := s.inService (·.migrateAck job vpn)
def execCkptExport (q : Req) (d : ExportD) (s : State) : Ran := s.inService (·.command q (.ckptExport d))
def execExportManifestPlaced (job : Nat) (s : State) : Ran := s.inService (·.manifestPlaced job)
def execOverflowRelease (job : Nat) (s : State) : Ran := s.inService (·.overflowRelease job)
def execCkptImport (q : Req) (d : ImportD) (manifest : Manifest) (s : State) : Ran := s.inService (·.importFrom q d manifest)
def execIncomingMigration (conn msgId : Nat) (obj : MigObj) (s : State) : Ran := s.inService (·.migrationIn conn msgId obj)

/-! ### Fills and fetches -/

/-- A fill lands: what arrives verifies and is placed, or it does not and the fill fails (R429). The commands that wait walk
again. -/
def State.fillArrives (s : State) (d v : Nat) (content : Option Page) : State :=
  match content with
  | some p => (s.fillLands d v p).lookAll
  | none => s.fillLost d v

def execDemandFillLands (domain vpn : Nat) (content : Option Page) (s : State) : Ran := s.inService (·.fillArrives domain vpn content)
def execDemandFillFails (domain vpn : Nat) (s : State) : Ran := s.inService (·.fillLost domain vpn)
def execFillTimeout (cmd : Nat) (s : State) : Ran := s.inService (·.fillTimeout cmd)
def execBenchFetchLands (frame : Nat) (s : State) : Ran := s.inService (fun s => (s.landFetch frame).lookAll)
def execVictimWaitTimeout (cmd : Nat) (s : State) : Ran := s.inService (·.victimTimeout cmd)

/-! ### The request engine -/

def execAbort (q : Req) (d : AbortD) (s : State) : Ran := s.inService (·.command q (.abort d))
def execQuiesceTimeout (cmd : Nat) (units : List Nat) (s : State) : Ran := s.inService (·.quiesce cmd units)
def execFence (q : Req) (s : State) : Ran := s.inService (·.command q .fence)
def execNop (q : Req) (s : State) : Ran := s.inService (·.command q .nop)
def execRingFetch (ring : Nat) (s : State) : Ran := s.inService (·.ringFetch ring)

end Sys2Proof.Machine
end

