-- ==== Sys2Proof/Machine/RowsLink.lean ====
section
/-!
DEFINITION. Meanings: rings and flits of the host link (19), host sessions (R381 to R383) and mailbox requests (18).
-/

namespace Sys2Proof.Machine

/-- An event of the host link, with what the end of a host session brings. -/
def State.onLink (s : State) (f : State → State) : Ran := s.inPower (fun s => State.sessionsAfter s (f s))

/-! ### Rings -/

def execCqIrqDelay (ring : Nat) (s : State) : Ran := s.inService (·.cqDelay ring)
def execRingLost (quarter : Nat) (s : State) : Ran := s.inService (fun s => if quarter < 4 then s.loseRings quarter else s)

/-! ### Flits and link states -/

def execRetryReq (link : Link) (fseq : Nat) (s : State) : Ran := s.onLink (·.retry link (fseq % 4096))
def execFlitAckCredit (link : Link) (ackSeq : Option Nat) (crClass crUnits : Nat) (s : State) : Ran :=
  s.onLink (·.flitAck link ackSeq crClass crUnits)
def execFlitTimeout (link : Link) (s : State) : Ran := s.onLink (·.flitSilence link)

/-- LINK_DOWN: a link that is not DOWN already goes DOWN and trains again (R459, R461). Cause 1 is the eighth failed replay, which is
captured; any other a lane that has lost lock. DESIGN CHOICE: Log 49. -/
def State.linkFalls (s : State) (l : Link) (cause : Nat) : State :=
  if (s.link l).ls = .down then s
  else ((if cause = 1 then s.logErr (pgHlnk l) 1 0 (s.link l).failSeq else s).linkGoesDown l).tryTrain l

def execLinkDown (link : Link) (cause : Nat) (s : State) : Ran := s.onLink (·.linkFalls link cause)
def execLinkTrained (link : Link) (s : State) : Ran := s.onLink (fun s => (s.linkInit link).openWindow)
def execLinkTrainTimeout (link : Link) (lane : Nat) (s : State) : Ran := s.onLink (·.trainFailed link lane)
def execRstreqAssert (link : Link) (s : State) : Ran := s.did (State.sessionsAfter s (s.rstAsserted link))
def execRstreqRelease (link : Link) (s : State) : Ran := s.did (s.rstReleased link)
def execImageFlit (link : Link) (kind : Nat) (last absent : Bool) (offset : Nat) (data : List Byte) (info : ImageInfo) (s : State) : Ran :=
  s.inPower (fun s => if s.linkTalks link then s.imageFlit link kind last absent offset data info else s)

/-! ### Host sessions -/

def execLsHello (link : Link) (nonceHi nonceLo : BitVec 128) (s : State) : Ran := s.inPower (·.lsHello link (nonceHi ++ nonceLo))
def execLsChallengeDeferred (link : Link) (s : State) : Ran := s.inAwake (·.lsDeferred link)
def execLsProof (link : Link) (p : OperatorProof) (s : State) : Ran := s.inAwake (·.lsProof link p)
def execLsEnd (link : Link) (s : State) : Ran := s.inPower (·.lsEnd link)

/-! ### Mailbox requests -/

def execHello (m : MReq) (minMajor maxMajor : Nat) (s : State) : Ran := s.did (s.message m (.hello minMajor maxMajor))
def execTraceSet (m : MReq) (first count enable : Nat) (s : State) : Ran := s.did (s.message m (.traceSet first count enable))
def execAttest (m : MReq) (nonce : BitVec 256) (s : State) : Ran := s.did (s.message m (.attest nonce))
def execDomainCreate (m : MReq) (d : DomainD) (s : State) : Ran := s.did (s.message m (.domainCreate d))
def execDomainDestroy (m : MReq) (domain : Nat) (s : State) : Ran := s.did (s.message m (.domainDestroy domain))
def execCredAdd (m : MReq) (credId domain type purpose : Nat) (data : List Byte) (ok : Bool) (s : State) : Ran :=
  s.did (s.message m (.credAdd credId domain type purpose data ok))
def execCredRemove (m : MReq) (credId : Nat) (close : Bool) (s : State) : Ran := s.did (s.message m (.credRemove credId close))
def execProjInstall (m : MReq) (d : ProjD) (s : State) : Ran := s.did (s.message m (.projInstall d))
def execProjRemove (m : MReq) (domain handle : Nat) (s : State) : Ran := s.did (s.message m (.projRemove domain handle))
def execInspectOpen (m : MReq) (domain : Nat) (s : State) : Ran := s.did (s.message m (.inspectOpen domain))
def execInspectClose (m : MReq) (grant : Nat) (s : State) : Ran := s.did (s.message m (.inspectClose grant))
def execInspectExpire (grant : Nat) (s : State) : Ran := s.inAwake (·.inspectExpire grant)
def execAuditExcerpt (m : MReq) (domain count seqFirst : Nat) (nonce : BitVec 256) (s : State) : Ran :=
  s.did (s.message m (.auditExcerpt domain count seqFirst nonce))
def execOpkProgram (m : MReq) (slot : Nat) (key : List Byte) (s : State) : Ran := s.did (s.message m (.opkProgram slot key))
def execOpkRevoke (m : MReq) (slot : Nat) (s : State) : Ran := s.did (s.message m (.opkRevoke slot))
def execFwStage (m : MReq) (kind addr length : Nat) (info : ImageInfo) (s : State) : Ran :=
  s.did (s.message m (.fwStage kind addr length info))
def execFwActivate (m : MReq) (kind : Nat) (s : State) : Ran := s.did (s.message m (.fwActivate kind))
def execFwStatus (m : MReq) (kind : Nat) (s : State) : Ran := s.did (s.message m (.fwStatus kind))
def execMeterSnapshot (m : MReq) (composition : Nat) (nonce : BitVec 256) (s : State) : Ran :=
  s.did (s.message m (.meterSnapshot composition nonce))
def execEvacuate (m : MReq) (d : EvacD) (s : State) : Ran := s.did (s.message m (.evacuate d))
def execPowerCap (m : MReq) (capW : Nat) (s : State) : Ran := s.did (s.message m (.powerCap capW))
def execCtxCreate (m : MReq) (ctx : Nat) (c : Ctx) (s : State) : Ran := s.did (s.message m (.ctxCreate ctx c))
def execCtxModify (m : MReq) (ctx : Nat) (c : Ctx) (s : State) : Ran := s.did (s.message m (.ctxModify ctx c))
def execCtxDestroy (m : MReq) (ctx : Nat) (s : State) : Ran := s.did (s.message m (.ctxDestroy ctx))
def execQuadStatus (m : MReq) (s : State) : Ran := s.did (s.message m .quadStatus)
def execLaneLog (m : MReq) (clear : Bool) (channel lane : Nat) (s : State) : Ran := s.did (s.message m (.laneLog clear channel lane))

/-! ### The firmware's own events -/

def execActivationStartTimeout (kind : Nat) (s : State) : Ran := s.inAwake (·.activationLate kind)
def execDeferredActivationResume (kind : Nat) (s : State) : Ran := s.inAwake (·.deferredResume kind)
def execAntiRollbackRaise (kind : Nat) (s : State) : Ran := s.inAwake (·.raiseFuse kind)
def execReportResign (s : State) : Ran := s.inAwake (·.reportResign)
def execAuditHeadFlush (s : State) : Ran := s.inAwake (·.auditHeadFlush)
def execCoreReachesUp (core : Nat) (s : State) : Ran := s.did (s.coreUp core)

end Sys2Proof.Machine
end

