-- ==== Sys2Proof/Machine/Scrub.lean ====
section
/-!
DEFINITION. Scrubbing (R267, R268): codewords of Rack and Bench, the tile tables, and the SRAM arrays with what the loss of an
entry leads to (R254, Table 11-2).
-/

namespace Sys2Proof.Machine

/-! ### Lost content of Rack and Bench -/

/-- First byte and size of a tile's Bench regions (Table 10-1). -/
def mib (n : Nat) : Nat := n * 2 ^ 20

/-- The merge context whose memory holds a byte of a tile's Bench: 128 KiB for each of the tile's home contexts (Table 10-1, R179). -/
def State.ctxAt (s : State) (t b : Nat) : Option (MergeKey × MergeCtx) :=
  if mib 1836 ≤ b ∧ b < mib 1924 then
    let n := (b - mib 1836) / 131072 * 24 + t
    s.eng.merge.find? (fun (p : MergeKey × MergeCtx) => p.2.numbers.contains n)
  else none

/-- The fragment whose state is saved at a byte of a tile's Bench: 256 KiB for each of the tile's contexts (Table 10-1, R283). -/
def State.savedAt (s : State) (t b : Nat) : Option Frag :=
  if mib 1924 ≤ b ∧ b < mib 1972 then (AL.get ((b - mib 1924) / 262144 * 24 + t) s.eng.save).bind s.frag else none

/-- CTX_UE (Tables 7-4, 7-8): captured with the number of the context in error, and the query's context is closed with ST_POISONED. -/
def State.loseCtx (s : State) (k : MergeKey) (n : Nat) : State :=
  match s.mctx k with
  | none => s
  | some c => if c.st = .closed then s else (s.logErr (ctxPage c) 1 n k.tag.toNat).killCtx k stPoisoned

/-- An entry of the front cache of a query's contexts: which of them it holds is open, a free value. DEDUCED: Log 66. -/
def State.loseCached (s : State) (k : MergeKey) : State :=
  let ns := ((s.mctx k).map (·.numbers)).getD []
  (s.loseCtx k (ns.getD (Config.pick s.fresh % ns.length) 0)).nextFresh

/-- A gradient page whose line has lost content is marked POISON (Table 8-4). -/
def State.loseGrad (s : State) (num : Nat) : State :=
  s.setEng { s.eng with grads := s.eng.grads.map (fun g => if g.2.num = num then (g.1, { g.2 with poison := true }) else g) }

/-- What the loss of a Bench word leads to: by the region and the line that hold it. DEDUCED: Log 66. -/
def State.loseBench (s : State) (t b : Nat) : State :=
  match s.ctxAt t b, s.savedAt t b, s.lineAt t b with
  | some (k, _), _, _ => s.loseCtx k ((b - mib 1836) / 131072 * 24 + t)
  | none, some f, _ => s.rerun f
  | none, none, some l => if l.use = .grad then s.loseGrad l.frame else s
  | none, none, none => s

/-- A free chunk of Rack is rewritten as zero (Table 11-3). -/
def State.zeroChunk (s : State) (a : Nat) : State :=
  let base := rackAddr (placeIdx a) (placeByte a / 65536 * 65536)
  (s.zeroRack (placeIdx a) (placeByte a / 65536)).rewrote base 65536

/-- An uncorrectable scrub read: captured under SCRB; the frame is POISONED, a free chunk is rewritten as zero (Table 11-3). -/
def State.scrubLost (s : State) (t code unit detail a : Nat) : State :=
  let s := ((s.setIrq (pgScrb t) 2).logErr (pgScrb t) code unit detail).markWord a
  match s.frameAt a with
  | some f => s.poisonFrame f
  | none =>
    if isBench a then s.loseBench (placeIdx a) (placeByte a)
    else if (AL.get (placeIdx a, placeByte a / 65536) s.kv.chunks).isNone then s.zeroChunk a
    else s

/-- What the decoder finds in a codeword that a scrub read meets: the stored state, where it is not as encoded, or else what the
read has met by itself. -/
def State.scrubFinds (s : State) (a : Nat) (o : ScrubOutcome) : ReadOutcome :=
  match o, s.wordOutcome a with
  | .uncorrectable, _ => .uncorrectable
  | .corrected l, .clean => .corrected (if isBench a then [] else [l])
  | _, x => x

/-- A lane in error alone, and flagged, leaves a codeword as it is (R268). -/
def State.laneKnown (s : State) (a : Nat) (lanes : List Nat) : Bool :=
  !isBench a && lanes.length == 1 && lanes.all (s.laneFlagged (placeIdx a))

/-- A scrub read of a codeword: a correction is counted and written back (R268), a lost codeword is counted and handled. A scrub
write-back changes neither dirty bits nor GEN nor age. -/
def State.scrubWord (s : State) (t a : Nat) (o : ScrubOutcome) : State :=
  let b := placeByte a
  let bench := isBench a
  let lost (s : State) : State :=
    if bench then s.scrubLost t 2 0 (b / 32) a else s.scrubLost t 1 (placeIdx a % 16) (b / 64) a
  match s.scrubFinds a o with
  | .clean => s
  | .corrected lanes =>
    let known := s.laneKnown a lanes
    let s := s.corrected a lanes
    if known then s else s.encoded a false
  | .poison => lost (if bench then s else s.bump (errPage a) 0x198 1)
  | .uncorrectable =>
    lost (if bench then s.bump (errPage a) 0x12C 1 else (s.bump (errPage a) 0x194 1).countUe (placeIdx a) b)

/-! ### SRAM arrays (Table 11-2) -/

/-- The array's number, which is UNIT of SRAM_UE (Table 11-9). -/
def sramArray : SramEntry → Nat
  | .scratchpad _ _ => 0 | .nbuBuffer _ _ => 1 | .staging _ => 2 | .portBuffer _ => 3 | .starter _ _ _ _ => 4 | .tlb _ _ => 5
  | .walkCache _ _ => 5 | .expander _ _ => 6 | .connCache _ => 7 | .mergeCache _ => 8 | .queueState _ _ | .policer _ => 9 | .coreMemory _ => 10

/-- An array of parity entries, which corrects nothing (R254, R268). -/
def sramParity : SramEntry → Bool
  | .tlb _ _ | .walkCache _ _ | .expander _ _ => true
  | _ => false

/-- The tile whose SCRB reads the entry; that of tile 0 reads the node's arrays (R267). DEDUCED: Log 66. -/
def State.sramTile (s : State) : SramEntry → Nat
  | .scratchpad t _ | .nbuBuffer t _ | .staging t | .expander t _ => t
  | .tlb d v => homeTile d v
  | .mergeCache k => ((s.mctx k).map (fun c => c.numbers.foldl min 16383 % 24)).getD 0
  | .queueState t _ => t.getD 0
  | .portBuffer _ | .starter _ _ _ _ | .walkCache _ _ | .connCache _ | .policer _ | .coreMemory _ => 0

/-- The page of the block that owns the array, which counts its corrections (R254). DEDUCED: Log 66. -/
def State.sramPage (s : State) : SramEntry → Nat
  | .scratchpad t e => pgAten t e
  | .nbuBuffer t c => pgNbun (t * 16 + c)
  | .staging t => pgBnch t
  | .portBuffer n => pgPort n
  | .starter b _ _ _ => pgStrt b
  | .tlb d v => pgTtlb (homeTile d v)
  | .walkCache _ _ => pgXlat
  | .expander t _ => pgCrmb t
  | .connCache _ => pgXprt
  | .mergeCache k => pgMrgu (s.sramTile (.mergeCache k))
  | .queueState t _ => match t with | some t => pgTsch t | none => pgXprt
  | .policer _ => pgIngp
  | .coreMemory c => pgSecc + c

/-- The fragment that an engine runs fails and reruns (R286). -/
def State.failEngine (s : State) (t e : Nat) : State :=
  match (AL.get (t, e) s.eng.busy).bind s.frag with
  | none => s
  | some f => match f.st with
    | .killing _ => s
    | _ => (s.rerun f).pump f.tile f.queue

/-- A connection whose state is lost (R318): it is dead, and its next packet is answered with RESET. UNIT: 0 in the cache, 1 in
Rack. -/
def State.loseConn (s : State) (i unit : Nat) : State :=
  match s.conn i with
  | none => s
  | some c =>
    let s := (((s.freeConn c).bump pgXprt 0x14C 1).setIrq pgXprt (8 + 4)).logErr pgXprt 1 unit (connId c)
    let s := { s with net := { s.net with lost := s.net.lost ++ [connId c] } }
    s.connGone c

/-- Commands that an entry of scheduler or queue state held complete with ST_HW_FAULT (Table 11-2). A tile's entry holds commands
with fragments there, or with a tile partial in its merge unit, whose loss is captured as TILE_UE (Table 7-8). DEDUCED: Log 66. -/
def State.loseCmds (s : State) (t : Option Nat) (ids : List Nat) : State :=
  let here (i : Nat) : Bool := match t with
    | none => true
    | some t => s.muHolds t i || s.eng.frags.any (fun (p : Nat × Frag) => p.2.cmd == i && p.2.tile == t)
  ((ids.filter here).foldl (fun (s : State) i => match s.cmd i with
    | none => s
    | some c =>
      let s := match t with
        | some t => if s.muHolds t i then s.logErr (pgMrgu t) 3 c.hdr.context c.hdr.tag.toNat else s
        | none => s
      s.cutCmd c stHwFault) s).settleAborts

/-- A packet that waits in a port's buffer is discarded; its sender sends it again (Table 11-2). -/
def State.losePacket (s : State) (port : Nat) : State :=
  match s.net.parked.find? (fun p => p.port == port) with
  | none => s
  | some p => { s with net := { s.net with parked := s.net.parked.erase p } }

/-- What an uncorrectable error in an entry leads to (Table 11-2). A transfer is repeated from its source, which leaves no
trace. DEDUCED: Log 66. -/
def State.loseSram (s : State) (e : SramEntry) : State :=
  match e with
  | .scratchpad t x => s.failEngine t x
  | .nbuBuffer t c => s.failEngine t (2 + c)
  | .expander t x => s.failEngine t x
  | .staging _ => s
  | .portBuffer n => s.losePacket n
  | .starter b st w fp => if fp then s.loseFp b st w else s.loseMeta b st w
  | .tlb d v => (s.setKv { s.kv with ttlb := AL.del (d, v) s.kv.ttlb }).bump (pgTtlb (homeTile d v)) 0x40 1
  | .walkCache d g => s.setKv { s.kv with walkCache := s.kv.walkCache.filter (· != (d, g)) }
  | .connCache i => if (s.conn i).any (·.cached) then s.loseConn i 0 else s
  | .mergeCache k => s.loseCached k
  | .queueState t ids => s.loseCmds t ids
  | .policer d => (s.setEgress { s.egress with doms := s.egress.doms.map (fun (p : Nat × Int) => if p.1 = d then (d, 0) else p) }).corrErr pgIngp
  | .coreMemory c => s.lockstep c

/-- A scrub read of an SRAM entry. DEDUCED: Log 66. -/
def State.scrubSram (s : State) (t : Nat) (e : SramEntry) (index : Nat) (o : ScrubOutcome) : State :=
  match o with
  | .clean => s
  | .corrected _ => if sramParity e then s.loseSram e else s.corrErr (s.sramPage e)
  | .uncorrectable => ((s.setIrq (pgScrb t) 2).logErr (pgScrb t) 3 (sramArray e) index).loseSram e

/-! ### SCRUB_READ and SCRUB_PASS_LATE -/

/-- An uncorrectable error in the tile tables (Table 10-11): the line is dropped, and the frame of a dirty one is POISONED. -/
def State.loseTable (s : State) (t set way : Nat) : State :=
  match (s.linesOf t set).find? (fun l => l.way == way) with
  | none => s
  | some l =>
    let s := (s.logErr (pgBnch t) 1 set l.frame).dropLine l
    if l.use = .grad then s.loseGrad l.frame
    else if l.isDirty ∨ l.use = .opened ∨ l.use = .source then s.poisonFrame l.frame
    else if (s.frameLines l.frame).isEmpty then s.mapPtes l.frame (fun p => { p with st := .rack })
    else s

/-- The memory of a scrub target: 0 Rack, 1 Bench, 2 SRAM; and a number for the place in it. -/
def scrubPlace (t : Nat) : ScrubTarget → Nat × Nat
  | .rack ch b => (0, wordBase (rackAddr ch b))
  | .connState ch b _ | .keyTable ch b _ | .auditRing ch b _ => (0, wordBase (rackAddr ch b))
  | .keyStore d => (2, d * 16 + 15)
  | .bench b => (1, wordBase (benchAddr t b))
  | .tables set way => (1, set * 16 + way)
  | .sram e i => (2, i * 16 + sramArray e)

/-- A tile's scrub unit reads the target now: it runs, and the memory is scrubbed (R29, R269). -/
def State.scrubs (s : State) (t : Nat) (target : ScrubTarget) : Bool :=
  !s.tileFenced t && s.unitAdmits (pgScrb t) && s.fld (pgScrb t) 0x100 (scrubPlace t target).1 1 == 1 &&
  (match target with
   | .rack ch _ => ch / 16 == t && !s.pageFenced (pgMchn ch)
   | .connState ch _ i => ch / 16 == t && !s.pageFenced (pgMchn ch) && !(s.conn i).any (·.cached)
   | .keyTable ch _ _ | .auditRing ch _ _ => ch / 16 == t && !s.pageFenced (pgMchn ch)
   | .sram e _ => s.sramTile e == t
   | _ => true)

/-- The period register of a pass of a memory. -/
def passReg (kind : Nat) : Nat := 0x104 + 4 * kind

/-- A pass reads every place once: a read of a place that it has read belongs to the next pass, so the pass has been completed, and a
pending period takes effect (R267, R273). DEDUCED: Log 49. -/
def State.passRead (s : State) (t kind place : Nat) : State :=
  let seen := AL.getD (t, kind) [] s.integ.seen
  if seen.contains place then
    ((s.setInteg { s.integ with passes := AL.put (t, kind) s.nrt s.integ.passes, seen := AL.put (t, kind) [place] s.integ.seen }).bump
      (pgScrb t) (0x11C + 4 * kind) 1).commitReg (pgScrb t) (passReg kind)
  else s.setInteg { s.integ with seen := AL.put (t, kind) (seen ++ [place]) s.integ.seen }

/-- An entry of SEC's key table is lost (Table 16-14): fills under its key fail until CKPT_IMPORT supplies it again. -/
def State.loseKeySet (s : State) (set : Nat) : State :=
  match AL.get set s.sec.keySets with
  | none => s
  | some k => (s.setSec { s.sec with keySets := AL.put set { k with lost := true } s.sec.keySets }).logErr pgSecc 2 0xFF set

/-- An entry of the audit ring is lost (Table 16-14). -/
def State.loseAudit (s : State) (seq : Nat) : State :=
  if s.sec.audit.any (fun e => e.seq == seq) then
    (s.setSec { s.sec with auditLost := seq :: s.sec.auditLost.filter (fun q => q != seq) }).logErr pgSecc 3 0 (seq % 2 ^ 32)
  else s

/-- What a scrub read finds leads to (R268). SEC rewrites an entry of a key store that is lost (Table 16-14). -/
def State.scrubAt (s : State) (t : Nat) (target : ScrubTarget) (o : ScrubOutcome) : State :=
  match target with
  | .rack ch b => s.scrubWord t (wordBase (rackAddr ch b)) o
  | .bench b => s.scrubWord t (wordBase (benchAddr t b)) o
  | .tables set way => if o = .uncorrectable then s.loseTable t set way else s
  | .connState ch b i =>
    let s := s.scrubWord t (wordBase (rackAddr ch b)) o
    if o = .uncorrectable then s.loseConn i 1 else s
  | .keyTable ch b set =>
    let s := s.scrubWord t (wordBase (rackAddr ch b)) o
    if o = .uncorrectable then s.loseKeySet set else s
  | .auditRing ch b seq =>
    let s := s.scrubWord t (wordBase (rackAddr ch b)) o
    if o = .uncorrectable then s.loseAudit seq else s
  | .keyStore d => match o with
    | .clean => s
    | .corrected _ => s.corrErr pgSecc
    | .uncorrectable => s.logErr pgSecc 2 t d
  | .sram e i => s.scrubSram t e i o

/-- SCRUB_READ of a codeword or an entry, with what the decoder finds (R267, R268). -/
def State.scrub (s : State) (t : Nat) (target : ScrubTarget) (o : ScrubOutcome) : State :=
  if s.scrubs t target then (s.passRead t (scrubPlace t target).1 (scrubPlace t target).2).scrubAt t target o else s

/-- SCRUB_PASS_LATE (R267): kind 0 Rack, 1 Bench, 2 SRAM. DESIGN CHOICE: Log 49. -/
def State.passLate (s : State) (t kind : Nat) : State :=
  let start := AL.getD (t, kind) 0 s.integ.passes
  let off := passReg kind
  let least := if kind = 0 then 60 else if kind = 1 then 10 else 1
  let period := max least (s.fld (pgScrb t) off 0 12) * 100000000
  if kind < 3 ∧ start + period < s.nrt then (s.setIrq (pgScrb t) 8).logErr (pgScrb t) 4 kind ((s.nrt - start - period) / 100000000)
  else s

end Sys2Proof.Machine
end

