-- ==== Sys2Proof/Machine/RowsMemory.lean ====
section
/-!
DEFINITION. Meanings: Crumb, Bench and memory integrity (03, 10, 11), faults of units (17), and the bulk and ring windows (R241,
R463).
-/

namespace Sys2Proof.Machine

/-! ### Crumb and Bench -/

def execCrumbPackStart (tile : Nat) (s : State) : Ran := s.inService (onTile tile (·.packStart tile))
def execCrumbPackCommit (frame : Nat) (s : State) : Ran := s.inService (·.packCommit frame)

/-- PIN_RELEASE (R104, R105, R229): a pin that is held is released, and a draining line that no pin holds any more goes. -/
def State.releasePin (s : State) (f : Nat) (old : Bool) : State :=
  match s.frame f with
  | none => s
  | some x => if (if old then x.pinOld else x.pinCur) = 0 then s else (s.unpin f old).releaseDrained (frameTile f)

def execPinRelease (frame : Nat) (old : Bool) (s : State) : Ran := s.inService (·.releasePin frame old)
def execBenchAgeSweep (tile : Nat) (s : State) : Ran := s.inService (onTile tile (·.ageSweep tile))
def execWritebackComplete (tile set way : Nat) (s : State) : Ran :=
  s.inService (onTile tile (fun s => (s.writebackDone tile set way).lookAll))

/-! ### Integrity -/

def execMergeBufferFlush (channel addr : Nat) (ue : Bool) (s : State) : Ran := s.inService (·.mergeFlush channel addr ue)
def execScrubRead (tile : Nat) (target : ScrubTarget) (outcome : ScrubOutcome) (s : State) : Ran :=
  s.inService (onTile tile (·.scrub tile target outcome))
def execScrubPassLate (tile kind : Nat) (s : State) : Ran := s.inService (onTile tile (·.passLate tile kind))
def execBucketLeakTick (page : Nat) (s : State) : Ran := s.inPower (·.leakTick page)

/-! ### Faults of units -/

def execWatchdogFire (page : Nat) (s : State) : Ran := s.inService (·.watchdog page)
def execBusWatchdogBite (tile requester beats : Nat) (s : State) : Ran := s.inService (·.busBite tile requester beats)
/-- A fault of a host link's island or unit takes its link down, and with it its session. -/
def execBridgeTimeout (x : BridgeLoss) (s : State) : Ran :=
  s.inService (fun s => State.sessionsAfter s (s.bridgeTimeout x))
def execControlMismatch (unit : CtlUnit) (s : State) : Ran :=
  s.inService (fun s => State.sessionsAfter s (s.controlMismatch unit))
def execCoreLockstepRestart (core : Nat) (s : State) : Ran := s.inAwake (·.lockstep core)
def execRailFault (rail : Rail) (s : State) : Ran := s.inService (·.railFault rail)
def execTrngFail (test : Nat) (s : State) : Ran := s.inPower (·.trngFail test)

/-! ### The windows of the host -/

/-- BULK_READ: a READ of the bulk window, or of the ring window, which R463 answers by the same rule. DESIGN CHOICE: Log 49. -/
def execBulkRead (link : Link) (tag addr length : Nat) (ring ue : Bool) (s : State) : Ran :=
  s.inPower (fun s =>
    if s.linkTalks link then
      if ring then s.ringWindowRead link tag addr length else s.bulkRead link tag addr length ue
    else s)
def execBulkWrite (link : Link) (addr : Nat) (data : List Byte) (s : State) : Ran :=
  s.inPower (fun s => if s.linkTalks link then s.bulkWrite link addr data else s)
def execRingWindowWrite (link : Link) (addr : Nat) (data : List Byte) (s : State) : Ran :=
  s.inPower (fun s => if s.linkTalks link then s.ringWindowPut link addr data else s)

end Sys2Proof.Machine
end

