-- ==== Sys2Proof/Machine/RowsNode.lean ====
section
/-!
DEFINITION. Meanings: timers of the lease (17), power, start and temperature (20).
-/

namespace Sys2Proof.Machine

/-! ### Lease -/

def execLeaseExpire (s : State) : Ran := s.inService (·.leaseExpire)
def execLeaseLow (s : State) : Ran := s.inService (·.leaseLow)
def execGraceEnd (s : State) : Ran := s.inService (·.graceEnd)

/-! ### Power and start -/

def execPowerOn (mv : Nat) (s : State) : Ran := s.didPower (s.powerOn mv)
def execInputTrip (cause : Nat) (s : State) : Ran := s.did (s.inputTrip cause)
def execOvervoltageReclose (s : State) : Ran := s.didPower s.overReclose
def execEnAssert (s : State) : Ran := s.did s.enAssert
def execEnDeassert (s : State) : Ran := s.did s.enDeassert
def execBootStepDone (outcome : BootOutcome) (s : State) : Ran := s.did (s.bootStepDone outcome)
def execBootStepTimeout (s : State) : Ran := s.did s.bootStepLate
def execStartRetry (s : State) : Ran := s.did s.startRetry
def execImageWindowExpire (s : State) : Ran := s.did s.imageWindowEnds

/-! ### Supply and temperature -/

def execPowerSample (pin vin iin : Nat) (s : State) : Ran := s.did (s.powerSample pin vin iin)
def execBrownOut (mv ma : Nat) (s : State) : Ran := s.did (s.brownOut mv ma)
def execPowerEmergencyEnd (s : State) : Ran := s.did s.brownEnd
def execThermalSample (logic rack inlet : Nat) (s : State) : Ran := s.did (s.thermalSample logic rack inlet)
def execThermalEmergencyEnd (s : State) : Ran := s.did s.hotEnd
def execLocateEnd (s : State) : Ran := s.did s.locateEnd

end Sys2Proof.Machine
end

