-- ==== Sys2Proof/Machine/RowsRegs.lean ====
section
/-!
DEFINITION. Meanings: register accesses, and the registers whose writes and reads act (02).
-/

namespace Sys2Proof.Machine

/-! ### Any register -/

def execRegisterWrite (ag : Agent) (addr bytes value : Nat) (s : State) : Ran :=
  s.did (s.storeReg ag addr bytes value)
def execRegPairHiWrite (ag : Agent) (addr value : Nat) (s : State) : Ran := s.did (s.storeHi ag addr value)
def execRegLoRead (ag : Agent) (span : RegSpan) (tag : Nat) (s : State) : Ran := s.did (s.loadReg ag span.addr span.bytes tag)

/-! ### The page header -/

def execPgCtlEnable (ag : Agent) (page : Nat) (on : Bool) (s : State) : Ran := s.did (s.setEnable ag page on)
def execPgCtlFreeze (ag : Agent) (page : Nat) (s : State) : Ran := s.did (s.setFreeze ag page)
def execSoftReset (ag : Agent) (page : Nat) (pass : Bool) (s : State) : Ran := s.did (s.resetPage ag page pass)
def execPgCtlAbort (ag : Agent) (page : Nat) (stuck : List Nat) (s : State) : Ran := s.did (s.abortPage ag page stuck)
def execPgLockWrite (ag : Agent) (page value : Nat) (s : State) : Ran := s.did (s.poke ag page 0x48 value)
def execShadowCommit (ag : Agent) (page : Nat) (s : State) : Ran := s.did (s.poke ag page 0x4C 1)
def execErrLogClear (ag : Agent) (page : Nat) (s : State) : Ran := s.did (s.poke ag page 0x30 (2 ^ 31))
def execCounterClear (ag : Agent) (page offset : Nat) (s : State) : Ran := s.did (s.poke ag page offset 1)

/-! ### Translation and shapes -/

/-- XLAT.CTL with INVAL, which leaves WCACHE_EN as it is. -/
def State.invalWord (s : State) : Nat := 2 + s.fld pgXlat 0x100 0 1

def execInvalAll (ag : Agent) (s : State) : Ran := s.did (s.poke ag pgXlat 0x100 s.invalWord)
def execTtlbInval (ag : Agent) (tile : Nat) (s : State) : Ran := s.did (onTile tile (·.poke ag (pgTtlb tile) 0x100 1) s)
def execShapeRead (ag : Agent) (s : State) : Ran := s.did (s.poke ag pgXlat 0x118 2)
def execShapeWrite (ag : Agent) (s : State) : Ran := s.did (s.poke ag pgXlat 0x118 1)

/-! ### Test of the checkers -/

/-- Whether a page is the SCRB page of a tile, which holds the Bench half of the test registers (Table 11-7). -/
def benchTest (pg : Nat) : Bool := match pageType pg with
  | some (.scrb, _) => true
  | _ => false

def hasTest (pg : Nat) : Bool := match pageType pg with
  | some (.scrb, _) => true
  | some (.mchn, _) => true
  | _ => false

def testReg (pg : Nat) : Nat := if benchTest pg then 0x168 else 0x18C

/-- FLIP_CTL with ARM, which leaves MATCH as it is. -/
def State.armWord (s : State) (pg : Nat) : Nat := 1 + 2 * s.fld pg (flipCtl (benchTest pg)) 1 1

def execFlipArm (ag : Agent) (page : Nat) (s : State) : Ran :=
  s.did (if hasTest page then s.poke ag page (flipCtl (benchTest page)) (s.armWord page) else s)
def execTestAlloc (ag : Agent) (page : Nat) (s : State) : Ran :=
  s.did (if hasTest page then s.poke ag page (testReg page) (2 ^ 16) else s)
def execTestRelease (ag : Agent) (page : Nat) (s : State) : Ran :=
  s.did (if hasTest page then s.poke ag page (testReg page) (2 ^ 17) else s)

/-! ### Reads that act -/

def execHotRead (ag : Agent) (tile tag : Nat) (s : State) : Ran := s.did (onTile tile (·.hotRead ag tile tag) s)
def execLreqRead (ag : Agent) (tag : Nat) (s : State) : Ran := s.did (s.lreqRead ag tag)

/-! ### Lease and start bits of the NODE page -/

def execRenew (ag : Agent) (s : State) : Ran := s.did (s.poke ag pgNode 0x220 1)
def execGrant (ag : Agent) (s : State) : Ran := s.did (s.poke ag pgNode 0x220 2)
def execForcedFence (ag : Agent) (s : State) : Ran := s.did (s.poke ag pgNode 0x220 4)
def execRelease (ag : Agent) (s : State) : Ran := s.did (s.poke ag pgNode 0x220 8)
def execRejoinDiscard (ag : Agent) (s : State) : Ran := s.did (s.poke ag pgNode 0x220 0x10)
def execRejoinReinstate (ag : Agent) (s : State) : Ran := s.did (s.poke ag pgNode 0x220 0x20)
def execRestart (ag : Agent) (s : State) : Ran := s.did (s.poke ag pgNode 0x268 1)
def execClearFails (ag : Agent) (s : State) : Ran := s.did (s.poke ag pgNode 0x268 2)
def execForceUnleavened (ag : Agent) (s : State) : Ran := s.did (s.poke ag pgNode 0x268 4)
def execLocate (ag : Agent) (s : State) : Ran := s.did (s.poke ag pgNode 0x278 1)

/-! ### Host link and doorbells -/

def execActiveReq (ag : Agent) (link : Link) (s : State) : Ran := s.did (s.poke ag (pgHlnk link) 0x100 2)
def execRetrain (ag : Agent) (link : Link) (s : State) : Ran := s.did (s.poke ag (pgHlnk link) 0x100 1)
/-- RCFG with ENABLE = 1, and with ENABLE = 0 (R466, R470). -/
def execRingCreate (ag : Agent) (value : Nat) (s : State) : Ran := s.did (s.poke ag pgDbel 0x10C (2 ^ 31 + value % 2 ^ 31))
def execRingDisable (ag : Agent) (value : Nat) (s : State) : Ran := s.did (s.poke ag pgDbel 0x10C (value % 2 ^ 31))
def execSqDb (ag : Agent) (value : Nat) (s : State) : Ran := s.did (s.poke ag pgDbel 0x100 value)
def execCqDb (ag : Agent) (value : Nat) (s : State) : Ran := s.did (s.poke ag pgDbel 0x104 value)

end Sys2Proof.Machine
end

