-- ==== Sys2Proof/Machine/RowsRemote.lean ====
section
/-!
DEFINITION. Meanings: regions, remote operations and waits (14).
-/

namespace Sys2Proof.Machine

/-! ### As initiator -/

def execRmaRead (q : Req) (d : RmaD) (s : State) : Ran := s.inService (·.command q (.rmaRead d))
def execRmaWrite (q : Req) (d : RmaD) (s : State) : Ran := s.inService (·.command q (.rmaWrite d))
def execRmaAdd (q : Req) (d : RmaD) (s : State) : Ran := s.inService (·.command q (.rmaAdd d))
def execRmaCas (q : Req) (d : RmaD) (s : State) : Ran := s.inService (·.command q (.rmaCas d))
def execRmaFlush (q : Req) (d : RmaD) (s : State) : Ran := s.inService (·.command q (.rmaFlush d))

/-- The response to request message `msgId` of a connection. -/
def State.answerArrives (s : State) (conn msgId status c0 c1 : Nat) (data : List Byte) : State :=
  match s.conn conn with
  | none => s
  | some c => s.rmaAnswered (connId c) msgId status c0 c1 data

def execRmaResponse (conn msgId status c0 c1 : Nat) (data : List Byte) (s : State) : Ran :=
  s.inService (·.answerArrives conn msgId status c0 c1 data)

/-! ### As target -/

def execRmaReadServe (q : Req) (d : RmaD) (ue : Bool) (s : State) : Ran := s.inService (·.served q (.rmaRead d) ue)
def execRmaWriteServe (q : Req) (d : RmaD) (s : State) : Ran := s.inService (·.served q (.rmaWrite d) false)
def execRmaAddServe (q : Req) (d : RmaD) (ue : Bool) (s : State) : Ran := s.inService (·.served q (.rmaAdd d) ue)
def execRmaCasServe (q : Req) (d : RmaD) (ue : Bool) (s : State) : Ran := s.inService (·.served q (.rmaCas d) ue)
def execRmaFlushServe (q : Req) (d : RmaD) (s : State) : Ran := s.inService (·.served q (.rmaFlush d) false)
def execTargetNoticeIntervalEnd (handle status : Nat) (s : State) : Ran := s.inService (·.noticeEnd handle status)

/-! ### Waits -/

def execWaitCount (q : Req) (d : WaitCountD) (s : State) : Ran := s.inService (·.command q (.waitCount d))
def execWaitCountMet (cmd : Nat) (s : State) : Ran := s.inService (·.waitCountMet cmd)
def execWaitWord (q : Req) (d : WaitWordD) (s : State) : Ran := s.inService (·.command q (.waitWord d))
def execWaitWordMet (cmd : Nat) (s : State) : Ran := s.inService (·.waitWordMet cmd)
def execWaitTimeout (cmd : Nat) (s : State) : Ran := s.inService (·.waitTimeout cmd)

/-! ### Regions -/

def execRegionRegister (q : Req) (d : RegisterD) (s : State) : Ran := s.inService (·.command q (.regionRegister d))
def execRegionRevoke (q : Req) (d : RevokeD) (s : State) : Ran := s.inService (·.command q (.regionRevoke d))
def execRegionDrained (ref : RegionRef) (s : State) : Ran := s.inService (·.drained ref)

end Sys2Proof.Machine
end

