-- ==== Sys2Proof/Machine/Dispatch.lean ====
section
/-!
DEFINITION. The effect of each command of the opcode table on everything but the queue: one arm per constructor.
-/

namespace Sys2Proof.Machine

def exec (i : Instr) (s : State) : Host.Outcome State Fault Refusal :=
  match i with
  | .append q d => Sys2Proof.Machine.execAppend q d s
  | .sealOp q seq => Sys2Proof.Machine.execSealOp q seq s
  | .attnFwd q d => Sys2Proof.Machine.execAttnFwd q d s
  | .attnBwd q d => Sys2Proof.Machine.execAttnBwd q d s
  | .gradDrain q d => Sys2Proof.Machine.execGradDrain q d s
  | .pageRead q d => Sys2Proof.Machine.execPageRead q d s
  | .fork q d => Sys2Proof.Machine.execFork q d s
  | .compact q d => Sys2Proof.Machine.execCompact q d s
  | .compactBatch cmd => Sys2Proof.Machine.execCompactBatch cmd s
  | .prefixLookup q d => Sys2Proof.Machine.execPrefixLookup q d s
  | .prefixStep q d => Sys2Proof.Machine.execPrefixStep q d s
  | .prefixInsert q d => Sys2Proof.Machine.execPrefixInsert q d s
  | .prefixRemove q d => Sys2Proof.Machine.execPrefixRemove q d s
  | .rmaRead q d => Sys2Proof.Machine.execRmaRead q d s
  | .rmaWrite q d => Sys2Proof.Machine.execRmaWrite q d s
  | .rmaAdd q d => Sys2Proof.Machine.execRmaAdd q d s
  | .rmaCas q d => Sys2Proof.Machine.execRmaCas q d s
  | .rmaFlush q d => Sys2Proof.Machine.execRmaFlush q d s
  | .rmaReadServe q d ue => Sys2Proof.Machine.execRmaReadServe q d ue s
  | .rmaWriteServe q d => Sys2Proof.Machine.execRmaWriteServe q d s
  | .rmaAddServe q d ue => Sys2Proof.Machine.execRmaAddServe q d ue s
  | .rmaCasServe q d ue => Sys2Proof.Machine.execRmaCasServe q d ue s
  | .rmaFlushServe q d => Sys2Proof.Machine.execRmaFlushServe q d s
  | .targetNoticeIntervalEnd handle status => Sys2Proof.Machine.execTargetNoticeIntervalEnd handle status s
  | .rmaResponse conn msgId status c0 c1 data => Sys2Proof.Machine.execRmaResponse conn msgId status c0 c1 data s
  | .waitCount q d => Sys2Proof.Machine.execWaitCount q d s
  | .waitCountMet cmd => Sys2Proof.Machine.execWaitCountMet cmd s
  | .waitWord q d => Sys2Proof.Machine.execWaitWord q d s
  | .waitWordMet cmd => Sys2Proof.Machine.execWaitWordMet cmd s
  | .waitTimeout cmd => Sys2Proof.Machine.execWaitTimeout cmd s
  | .regionRegister q d => Sys2Proof.Machine.execRegionRegister q d s
  | .regionRevoke q d => Sys2Proof.Machine.execRegionRevoke q d s
  | .regionDrained ref => Sys2Proof.Machine.execRegionDrained ref s
  | .seqCreate q d => Sys2Proof.Machine.execSeqCreate q d s
  | .seqPark q seq => Sys2Proof.Machine.execSeqPark q seq s
  | .seqResume q seq => Sys2Proof.Machine.execSeqResume q seq s
  | .seqDestroy q seq => Sys2Proof.Machine.execSeqDestroy q seq s
  | .seqMigrate q d => Sys2Proof.Machine.execSeqMigrate q d s
  | .migratePageAck job vpn => Sys2Proof.Machine.execMigratePageAck job vpn s
  | .ckptExport q d => Sys2Proof.Machine.execCkptExport q d s
  | .exportManifestPlaced job => Sys2Proof.Machine.execExportManifestPlaced job s
  | .overflowRelease job => Sys2Proof.Machine.execOverflowRelease job s
  | .ckptImport q d manifest => Sys2Proof.Machine.execCkptImport q d manifest s
  | .abort q d => Sys2Proof.Machine.execAbort q d s
  | .fence q => Sys2Proof.Machine.execFence q s
  | .nop q => Sys2Proof.Machine.execNop q s
  | .ringFetch ring => Sys2Proof.Machine.execRingFetch ring s
  | .demandFillLands domain vpn content => Sys2Proof.Machine.execDemandFillLands domain vpn content s
  | .demandFillFails domain vpn => Sys2Proof.Machine.execDemandFillFails domain vpn s
  | .fillTimeout cmd => Sys2Proof.Machine.execFillTimeout cmd s
  | .windowClose tile queue => Sys2Proof.Machine.execWindowClose tile queue s
  | .preemptStop tile engine => Sys2Proof.Machine.execPreemptStop tile engine s
  | .contextSaveDone ctx => Sys2Proof.Machine.execContextSaveDone ctx s
  | .fragmentKill frag => Sys2Proof.Machine.execFragmentKill frag s
  | .fragmentPageDone frag residueOk => Sys2Proof.Machine.execFragmentPageDone frag residueOk s
  | .fragmentComplete frag => Sys2Proof.Machine.execFragmentComplete frag s
  | .tilePartialRelease cmd tile => Sys2Proof.Machine.execTilePartialRelease cmd tile s
  | .promotionLands frame => Sys2Proof.Machine.execPromotionLands frame s
  | .partialReceive conn msgId r => Sys2Proof.Machine.execPartialReceive conn msgId r s
  | .mergeDeadline key => Sys2Proof.Machine.execMergeDeadline key s
  | .lingerExpire key => Sys2Proof.Machine.execLingerExpire key s
  | .partialStatusReceive conn msgId status hint => Sys2Proof.Machine.execPartialStatusReceive conn msgId status hint s
  | .partialResend cmd => Sys2Proof.Machine.execPartialResend cmd s
  | .crumbPackStart tile => Sys2Proof.Machine.execCrumbPackStart tile s
  | .crumbPackCommit frame => Sys2Proof.Machine.execCrumbPackCommit frame s
  | .pinRelease frame old => Sys2Proof.Machine.execPinRelease frame old s
  | .benchAgeSweep tile => Sys2Proof.Machine.execBenchAgeSweep tile s
  | .writebackComplete tile set way => Sys2Proof.Machine.execWritebackComplete tile set way s
  | .mergeBufferFlush channel addr ue => Sys2Proof.Machine.execMergeBufferFlush channel addr ue s
  | .scrubRead tile target outcome => Sys2Proof.Machine.execScrubRead tile target outcome s
  | .scrubPassLate tile kind => Sys2Proof.Machine.execScrubPassLate tile kind s
  | .bucketLeakTick page => Sys2Proof.Machine.execBucketLeakTick page s
  | .watchdogFire page => Sys2Proof.Machine.execWatchdogFire page s
  | .busWatchdogBite tile requester beats => Sys2Proof.Machine.execBusWatchdogBite tile requester beats s
  | .bridgeTimeout x => Sys2Proof.Machine.execBridgeTimeout x s
  | .controlMismatch unit => Sys2Proof.Machine.execControlMismatch unit s
  | .coreLockstepRestart core => Sys2Proof.Machine.execCoreLockstepRestart core s
  | .railFault rail => Sys2Proof.Machine.execRailFault rail s
  | .trngFail test => Sys2Proof.Machine.execTrngFail test s
  | .registerWrite ag addr bytes value => Sys2Proof.Machine.execRegisterWrite ag addr bytes value s
  | .regPairHiWrite ag addr value => Sys2Proof.Machine.execRegPairHiWrite ag addr value s
  | .regLoRead ag sp tag => Sys2Proof.Machine.execRegLoRead ag sp tag s
  | .pgCtlEnable ag page on => Sys2Proof.Machine.execPgCtlEnable ag page on s
  | .pgCtlFreeze ag page => Sys2Proof.Machine.execPgCtlFreeze ag page s
  | .softReset ag page pass => Sys2Proof.Machine.execSoftReset ag page pass s
  | .pgCtlAbort ag page stuck => Sys2Proof.Machine.execPgCtlAbort ag page stuck s
  | .pgLockWrite ag page value => Sys2Proof.Machine.execPgLockWrite ag page value s
  | .shadowCommit ag page => Sys2Proof.Machine.execShadowCommit ag page s
  | .errLogClear ag page => Sys2Proof.Machine.execErrLogClear ag page s
  | .counterClear ag page offset => Sys2Proof.Machine.execCounterClear ag page offset s
  | .invalAll ag => Sys2Proof.Machine.execInvalAll ag s
  | .ttlbInval ag tile => Sys2Proof.Machine.execTtlbInval ag tile s
  | .shapeRead ag => Sys2Proof.Machine.execShapeRead ag s
  | .shapeWrite ag => Sys2Proof.Machine.execShapeWrite ag s
  | .flipArm ag page => Sys2Proof.Machine.execFlipArm ag page s
  | .testAlloc ag page => Sys2Proof.Machine.execTestAlloc ag page s
  | .testRelease ag page => Sys2Proof.Machine.execTestRelease ag page s
  | .hotRead ag tile tag => Sys2Proof.Machine.execHotRead ag tile tag s
  | .lreqRead ag tag => Sys2Proof.Machine.execLreqRead ag tag s
  | .renew ag => Sys2Proof.Machine.execRenew ag s
  | .grant ag => Sys2Proof.Machine.execGrant ag s
  | .forcedFence ag => Sys2Proof.Machine.execForcedFence ag s
  | .release ag => Sys2Proof.Machine.execRelease ag s
  | .rejoinDiscard ag => Sys2Proof.Machine.execRejoinDiscard ag s
  | .rejoinReinstate ag => Sys2Proof.Machine.execRejoinReinstate ag s
  | .leaseExpire => Sys2Proof.Machine.execLeaseExpire s
  | .leaseLow => Sys2Proof.Machine.execLeaseLow s
  | .graceEnd => Sys2Proof.Machine.execGraceEnd s
  | .restart ag => Sys2Proof.Machine.execRestart ag s
  | .clearFails ag => Sys2Proof.Machine.execClearFails ag s
  | .forceUnleavened ag => Sys2Proof.Machine.execForceUnleavened ag s
  | .locate ag => Sys2Proof.Machine.execLocate ag s
  | .locateEnd => Sys2Proof.Machine.execLocateEnd s
  | .activeReq ag link => Sys2Proof.Machine.execActiveReq ag link s
  | .retrain ag link => Sys2Proof.Machine.execRetrain ag link s
  | .ringCreate ag value => Sys2Proof.Machine.execRingCreate ag value s
  | .ringDisable ag value => Sys2Proof.Machine.execRingDisable ag value s
  | .sqDb ag value => Sys2Proof.Machine.execSqDb ag value s
  | .cqDb ag value => Sys2Proof.Machine.execCqDb ag value s
  | .cqIrqDelay ring => Sys2Proof.Machine.execCqIrqDelay ring s
  | .ringLost quarter => Sys2Proof.Machine.execRingLost quarter s
  | .bulkRead link tag addr length ring ue => Sys2Proof.Machine.execBulkRead link tag addr length ring ue s
  | .bulkWrite link addr data => Sys2Proof.Machine.execBulkWrite link addr data s
  | .ringWindowWrite link addr data => Sys2Proof.Machine.execRingWindowWrite link addr data s
  | .retryReq link fseq => Sys2Proof.Machine.execRetryReq link fseq s
  | .flitAckCredit link ackSeq crClass crUnits => Sys2Proof.Machine.execFlitAckCredit link ackSeq crClass crUnits s
  | .flitTimeout link => Sys2Proof.Machine.execFlitTimeout link s
  | .linkDown link cause => Sys2Proof.Machine.execLinkDown link cause s
  | .linkTrained link => Sys2Proof.Machine.execLinkTrained link s
  | .linkTrainTimeout link lane => Sys2Proof.Machine.execLinkTrainTimeout link lane s
  | .rstreqAssert link => Sys2Proof.Machine.execRstreqAssert link s
  | .rstreqRelease link => Sys2Proof.Machine.execRstreqRelease link s
  | .imageFlit link kind last absent offset data info => Sys2Proof.Machine.execImageFlit link kind last absent offset data info s
  | .lsHello link nonceHi nonceLo => Sys2Proof.Machine.execLsHello link nonceHi nonceLo s
  | .lsChallengeDeferred link => Sys2Proof.Machine.execLsChallengeDeferred link s
  | .lsProof link p => Sys2Proof.Machine.execLsProof link p s
  | .lsEnd link => Sys2Proof.Machine.execLsEnd link s
  | .hello m minMajor maxMajor => Sys2Proof.Machine.execHello m minMajor maxMajor s
  | .traceSet m first count enable => Sys2Proof.Machine.execTraceSet m first count enable s
  | .attest m nonce => Sys2Proof.Machine.execAttest m nonce s
  | .domainCreate m d => Sys2Proof.Machine.execDomainCreate m d s
  | .domainDestroy m domain => Sys2Proof.Machine.execDomainDestroy m domain s
  | .credAdd m credId domain type purpose data ok => Sys2Proof.Machine.execCredAdd m credId domain type purpose data ok s
  | .credRemove m credId close => Sys2Proof.Machine.execCredRemove m credId close s
  | .projInstall m d => Sys2Proof.Machine.execProjInstall m d s
  | .projRemove m domain handle => Sys2Proof.Machine.execProjRemove m domain handle s
  | .inspectOpen m domain => Sys2Proof.Machine.execInspectOpen m domain s
  | .inspectClose m grant => Sys2Proof.Machine.execInspectClose m grant s
  | .inspectExpire grant => Sys2Proof.Machine.execInspectExpire grant s
  | .auditExcerpt m domain count seqFirst nonce => Sys2Proof.Machine.execAuditExcerpt m domain count seqFirst nonce s
  | .opkProgram m slot key => Sys2Proof.Machine.execOpkProgram m slot key s
  | .opkRevoke m slot => Sys2Proof.Machine.execOpkRevoke m slot s
  | .fwStage m kind addr length info => Sys2Proof.Machine.execFwStage m kind addr length info s
  | .fwActivate m kind => Sys2Proof.Machine.execFwActivate m kind s
  | .activationStartTimeout kind => Sys2Proof.Machine.execActivationStartTimeout kind s
  | .deferredActivationResume kind => Sys2Proof.Machine.execDeferredActivationResume kind s
  | .fwStatus m kind => Sys2Proof.Machine.execFwStatus m kind s
  | .antiRollbackRaise kind => Sys2Proof.Machine.execAntiRollbackRaise kind s
  | .meterSnapshot m composition nonce => Sys2Proof.Machine.execMeterSnapshot m composition nonce s
  | .evacuate m d => Sys2Proof.Machine.execEvacuate m d s
  | .powerCap m capW => Sys2Proof.Machine.execPowerCap m capW s
  | .ctxCreate m ctx c => Sys2Proof.Machine.execCtxCreate m ctx c s
  | .ctxModify m ctx c => Sys2Proof.Machine.execCtxModify m ctx c s
  | .ctxDestroy m ctx => Sys2Proof.Machine.execCtxDestroy m ctx s
  | .quadStatus m => Sys2Proof.Machine.execQuadStatus m s
  | .laneLog m clear channel lane => Sys2Proof.Machine.execLaneLog m clear channel lane s
  | .reportResign => Sys2Proof.Machine.execReportResign s
  | .auditHeadFlush => Sys2Proof.Machine.execAuditHeadFlush s
  | .hsInit port sub h => Sys2Proof.Machine.execHsInit port sub h s
  | .hsFinish hs p => Sys2Proof.Machine.execHsFinish hs p s
  | .hsTimeout hs => Sys2Proof.Machine.execHsTimeout hs s
  | .data p => Sys2Proof.Machine.execData p s
  | .ack conn path base ranges ce echo => Sys2Proof.Machine.execAck conn path base ranges ce echo s
  | .ackDelay conn => Sys2Proof.Machine.execAckDelay conn s
  | .recvBusy conn msgId lane hint => Sys2Proof.Machine.execRecvBusy conn msgId lane hint s
  | .recvBusyRetry conn msgId lane => Sys2Proof.Machine.execRecvBusyRetry conn msgId lane s
  | .abandon conn msgId lane reason => Sys2Proof.Machine.execAbandon conn msgId lane reason s
  | .pathProbe conn path src => Sys2Proof.Machine.execPathProbe conn path src s
  | .pathReply conn path => Sys2Proof.Machine.execPathReply conn path s
  | .probeTimer conn path => Sys2Proof.Machine.execProbeTimer conn path s
  | .rtoExpire conn psn => Sys2Proof.Machine.execRtoExpire conn psn s
  | .reasmTimeout conn msgId lane => Sys2Proof.Machine.execReasmTimeout conn msgId lane s
  | .close conn => Sys2Proof.Machine.execClose conn s
  | .closeAck conn => Sys2Proof.Machine.execCloseAck conn s
  | .connFetchDone conn => Sys2Proof.Machine.execConnFetchDone conn s
  | .sublinkLinkLoss port sub => Sys2Proof.Machine.execSublinkLinkLoss port sub s
  | .pacerRelease conn => Sys2Proof.Machine.execPacerRelease conn s
  | .egressSelect port sub => Sys2Proof.Machine.execEgressSelect port sub s
  | .creditRefill => Sys2Proof.Machine.execCreditRefill s
  | .powerOn mv => Sys2Proof.Machine.execPowerOn mv s
  | .inputTrip cause => Sys2Proof.Machine.execInputTrip cause s
  | .overvoltageReclose => Sys2Proof.Machine.execOvervoltageReclose s
  | .enAssert => Sys2Proof.Machine.execEnAssert s
  | .enDeassert => Sys2Proof.Machine.execEnDeassert s
  | .bootStepDone outcome => Sys2Proof.Machine.execBootStepDone outcome s
  | .bootStepTimeout => Sys2Proof.Machine.execBootStepTimeout s
  | .startRetry => Sys2Proof.Machine.execStartRetry s
  | .imageWindowExpire => Sys2Proof.Machine.execImageWindowExpire s
  | .powerSample pin vin iin => Sys2Proof.Machine.execPowerSample pin vin iin s
  | .brownOut mv ma => Sys2Proof.Machine.execBrownOut mv ma s
  | .powerEmergencyEnd => Sys2Proof.Machine.execPowerEmergencyEnd s
  | .thermalSample logic rack inlet => Sys2Proof.Machine.execThermalSample logic rack inlet s
  | .thermalEmergencyEnd => Sys2Proof.Machine.execThermalEmergencyEnd s
  | .incomingMigration conn msgId obj => Sys2Proof.Machine.execIncomingMigration conn msgId obj s
  | .victimWaitTimeout cmd => Sys2Proof.Machine.execVictimWaitTimeout cmd s
  | .quiesceTimeout cmd units => Sys2Proof.Machine.execQuiesceTimeout cmd units s
  | .contextRestoreDone frag => Sys2Proof.Machine.execContextRestoreDone frag s
  | .coreReachesUp core => Sys2Proof.Machine.execCoreReachesUp core s
  | .portLinkUp port sub => Sys2Proof.Machine.execPortLinkUp port sub s
  | .benchFetchLands frame => Sys2Proof.Machine.execBenchFetchLands frame s
  | .arpNsEchoRequest port inlet kind dst src data => Sys2Proof.Machine.execArpNsEchoRequest port inlet kind dst src data s

end Sys2Proof.Machine
end

