-- ==== Sys2Proof/Machine/Step.lean ====
section
/-!
DEFINITION. One step: the command at the front of the queue is run with the queue's rest. On an empty queue one tick of node
reference time passes (R9, Log 1).
-/

namespace Sys2Proof.Machine

/-- The front command runs on the state whose queue is the rest; on an empty queue a tick of 10 ns passes (R9). DESIGN
CHOICE: Log 19. DESIGN CHOICE: Log 21. -/
def step (s : State) : Host.Outcome State Fault Refusal :=
  match s.pending with
  | [] => .next s.tick
  | i :: rest => exec i { s with pending := rest }

/-- No row of the table has bits, so no word spells a command (`decodeTableWord`); the state is unchanged. DESIGN CHOICE: Log
19. DESIGN CHOICE: Log 19. -/
def State.withFetchWord (s : State) (nbits w : Nat) : State :=
  match Sys2Proof.decodeTableWord nbits w with
  | none => s
  | some i => { s with pending := i :: s.pending }

end Sys2Proof.Machine
end

