-- ==== Sys2Proof/Safety.lean ====
section
/-!
DEFINITION. What the statements name: when an agent's access or a command's admission goes through, and what a run of the queue
leaves.
-/

namespace Sys2Proof.Machine

/-- The agent's write of register `off` of page `pg` is applied: the agent can make accesses, nothing of R4, R25 or R26 forbids this
one, and no lock of another agent covers the page (R35). -/
def State.mayWrite (s : State) (ag : Agent) (pg off : Nat) : Bool :=
  decide (off < 4096) && s.agentUp ag && s.accessBad ag (pg * 4096 + off) 4 true == none && !s.lockedOut ag pg off

/-- The agent's read of register `off` of page `pg` is answered. -/
def State.mayRead (s : State) (ag : Agent) (pg off : Nat) : Bool :=
  decide (off < 4096) && s.agentUp ag && s.accessBad ag (pg * 4096 + off) 4 false == none

/-- Request `m` reaches its core, which runs and has no other one, and passes the checks of R436 to R438; the MBOX page takes work (R29)
and no other agent holds it (R35). -/
def State.hears (s : State) (m : MReq) (x : Msg) : Bool :=
  s.awake && s.linkTalks m.link && (m.core == 0 || (s.link m.link).sessionOpen) && decide (m.core ≤ 6) && !(s.core m.core).busy &&
    s.unitAdmits pgMbox && !s.heldByOther (.host m.link) pgMbox && (s.core m.core).up && s.msgRefusal m x == none && s.mem.wf

/-- The state in which a request is run: its core is busy with it, and has passed a trace point (R441). -/
def State.heard (s : State) (m : MReq) : State := (s.setCore m.core { s.core m.core with busy := true }).passTrace m.core

/-- The node has answered request `m` (R435, Table 18-3): its core is free again and holds the request's number, its interrupt bit is
set, and the response lies in its buffer. -/
def State.answered (t : State) (m : MReq) (typ status detail : Nat) (body : List Byte) : Prop :=
  (t.core m.core).busy = false ∧ (t.core m.core).respSeq = m.seq ∧ bitOf (t.reg pgMbox 0x20).toNat m.core = true ∧
  t.mem.readN (t.respBuffer m.core) (16 + body.length) =
    leBytes 2 typ ++ leBytes 1 m.minor ++ leBytes 1 m.major ++ leBytes 4 (16 + body.length) ++ leBytes 4 m.seq.toNat ++
      leBytes 1 status ++ leBytes 1 detail ++ leBytes 2 0 ++ body

/-- A request of operation `op` is admitted and runs at once: the node runs, the five checks of Table 2-19 pass (R43), its turn among the
commands of its sequences has come (R90), its context may use LC if it asks for it, and the units of its first step take work (R29). -/
def State.admits (s : State) (q : Req) (op : Op) : Bool :=
  s.running && s.admission q.src q.hdr op == .accept false && !s.mustTurn q.hdr.domain op &&
    (!q.hdr.lc || (AL.get q.hdr.context s.cmds.ctxs).any (·.lcEn)) && (gateUnits (s.newCmd q op false)).all s.unitAdmits

/-- The state that has taken the request in, before it runs: it counts in its ring, or is charged to its domain (R371), and stands
last among the admitted commands. -/
def State.admitted (s : State) (q : Req) (op : Op) : State :=
  s.taken q op (64 * opUnits op.code + q.data.length) (s.newCmd q op false)

/-- The records of the sequences that operation `op` of domain `d` needs can be read (R252). -/
def State.hasRecords (s : State) (d : Nat) (op : Op) : Bool := (op.needs d).all (fun k => !s.recordLost k.1 k.2)

/-- Every codeword of Rack and Bench is as its encoder wrote it (R249, R253), and the records that the operation needs can be read. -/
def State.intact (s : State) (d : Nat) (op : Op) : Bool := s.kv.codes.isEmpty && s.hasRecords d op

/-- An ATTN_FWD or ATTN_BWD that is admitted and passes its checks: `e` has taken it in as command `c`, its payload is `bytes` and its
job `j`, anchored where its level asks for it, and `w` is the state in which it walks its pages `ps`. -/
def State.attnStarts (s : State) (q : Req) (bwd : Bool) (d : AttnD) (e w : State) (c : Cmd) (r : SeqRec) (sh : Shape) (bytes : List Byte)
    (j : AttnJob) (ps : List Point) : Prop :=
  let op := if bwd then Op.attnBwd d else Op.attnFwd d
  let o := e.originOf q.src d
  let k := anchorKey q.hdr d o.1 o.2
  let outLen := if !bwd && q.hdr.flag 1 then 1048512 else 128 + 8 * d.rows + d.rows * attnDv sh * (if d.ofmt = 1 then 2 else 4)
  s.admits q op = true ∧ e = s.admitted q op ∧ e.intact q.hdr.domain op = true ∧ c = s.newCmd q op false ∧
  e.attnCheck q.hdr q.src bwd d q.data = .ok (r, bytes) ∧ sh = e.shape q.hdr.domain r.shapeId ∧
  (d.partialAddr = 0 ∨ e.outputRefused q.src q.hdr.domain d.partialAddr outLen = none) ∧
  (d.level = 0 ∨ e.anchorRefusal k d.rows (attnDv sh) bwd = none) ∧
  j = { e.newJob c bwd d r bytes with anchored := if d.level = 0 then none else some k } ∧
  w = (if d.level = 0 then e else e.attachAnchor k c.id d.rows (attnDv sh) bwd).putJob j ∧
  ps = rangePoints r sh d.layer d.kvFirst d.kvCount d.tokFirst j.bound

end Sys2Proof.Machine
end

