-- ==== Sys2Proof/Certificates/Slice0/Obligations.lean ====
section
/-!
DEFINITION. The obligations: what this hardware does, command by command and as a machine. Every clause is over all states and
operands that meet its conditions; a clause about a descriptor command speaks of `e`, the state that has taken the request in.
-/

open Sys2Proof Sys2Proof.Machine

/-- The front of the queue (Log 1). For every command and every state: a step takes the command at the front of the queue and answers what exec answers on
the queue's rest. -/
def Obligations.AStepRunsTheFrontCommand : Prop :=
  ∀ (c : Instr) (rest : List Instr) (s : State), s.pending = c :: rest → step s = exec c { s with pending := rest }

/-- An empty queue (Log 1, the model's choice; R9): a step is then one tick of node reference time, 10 ns, if the node has power, and
nothing at all if it has none. -/
def Obligations.AnEmptyQueueTicks : Prop :=
  (∀ s : State, s.pending = [] → s.pw.st = .off → step s = .next s) ∧
  (∀ s : State, s.pending = [] → s.pw.st ≠ .off → ∃ t, step s = .next t ∧ t.pending = [] ∧ t.nrt = s.nrt + 1)

/-- The queue drains in order. After n steps from any state, whatever the commands, the machine is in a next state, never at a fault or
a refusal, and the n commands at the front have been taken, the others still waiting in their order. -/
def Obligations.TheQueueDrainsInOrder : Prop :=
  ∀ (n : Nat) (s : State), ∃ t : State, Host.Core.run Sys2Proof.core n s = .next t ∧ t.pending = s.pending.drop n

/-- Node reference time (R9, Log 1). No step turns it back but one that gives the node power after it had none, which is the start of
the oscillator; only an empty queue's tick moves it on, by one. -/
def Obligations.NodeReferenceTimeRunsFreely : Prop :=
  (∀ (s t : State) (c : Instr) (rest : List Instr), s.pending = c :: rest → step s = .next t →
    t.nrt = s.nrt ∨ (t.nrt = 0 ∧ s.pw.st = .off ∧ t.pw.st ≠ .off)) ∧
  (∀ (s t : State), s.pending = [] → step s = .next t → t.nrt = s.nrt + (if s.pw.st = .off then 0 else 1))

/-- Memory keeps its canonical form: whatever command is at the front, or with none, the bytes of Bench and Rack that a step leaves are
listed once each, at rising addresses, and none of them is zero. -/
def Obligations.MemoryStaysCanonical : Prop := ∀ s t : State, s.mem.wf = true → step s = .next t → t.mem.wf = true

/-- The machine after reset (Log 16, the model's choice of when a run begins): no command waits, memory lists nothing and is canonical, the node has no
power, node reference time is 0, the lease is UNLEASED, no connection is open, no ring, region or sequence exists, no command is admitted. -/
def Obligations.ResetStartsEmpty : Prop :=
  State.reset.pending = [] ∧ State.reset.mem = [] ∧ State.reset.mem.wf = true ∧ State.reset.pw.st = .off ∧ State.reset.nrt = 0 ∧
  State.reset.lease.st = .unleased ∧ State.reset.net.conns = [] ∧ State.reset.net.regions = [] ∧ State.reset.kv.seqs = [] ∧
  State.reset.cmds.list = [] ∧ (∀ n, (State.reset.ring n).st = .disabled)

/-- R44. A completion record is 32 bytes long; its bytes hold TAG, STATUS, OPCODE, CONTEXT with PHASE at bit 15 and zero between, COUNT0,
COUNT1, COV_GOT and COV_EXPECT, CLIP stopping at 0xFFFF_FFFF, and TIME (Table 2-20). -/
def Obligations.CompletionRecordIsLaidOut : Prop :=
  ∀ (c : Completion) (phase : Bool) (time : Nat), c.status < 256 → c.opcode < 256 → c.context < 4096 → c.c0 < 2 ^ 32 → c.c1 < 2 ^ 32 →
    c.covE < 65536 → c.covG < 65536 → time < 2 ^ 64 →
    (recordBytes c phase time).length = 32 ∧ fieldAt (recordBytes c phase time) 0 4 = c.tag.toNat ∧
    fieldAt (recordBytes c phase time) 4 1 = c.status ∧ fieldAt (recordBytes c phase time) 5 1 = c.opcode ∧
    bitsOf (fieldAt (recordBytes c phase time) 6 2) 0 12 = c.context ∧ bitsOf (fieldAt (recordBytes c phase time) 6 2) 12 3 = 0 ∧
    bitsOf (fieldAt (recordBytes c phase time) 6 2) 15 1 = b2n phase ∧ fieldAt (recordBytes c phase time) 8 4 = c.c0 ∧
    fieldAt (recordBytes c phase time) 12 4 = c.c1 ∧ bitsOf (fieldAt (recordBytes c phase time) 16 4) 16 16 = c.covE ∧
    bitsOf (fieldAt (recordBytes c phase time) 16 4) 0 16 = c.covG ∧
    fieldAt (recordBytes c phase time) 20 4 = min c.clip 0xFFFFFFFF ∧ fieldAt (recordBytes c phase time) 24 8 = time

/-- R263. SCRB.HOT of a tile holds at most 16 frame numbers: a push to a FIFO that holds fewer puts the frame last, a push to a full one
is discarded and sets SCRB.HOTSTAT.OVF; a read of HOT by the host returns the oldest entry and removes it. -/
def Obligations.HotFifoHoldsSixteen : Prop :=
  (∀ (s : State) (t f : Nat), (AL.getD t [] s.integ.hot).length < 16 →
    AL.getD t [] (s.pushHot t f).integ.hot = AL.getD t [] s.integ.hot ++ [f] ∧ (AL.getD t [] (s.pushHot t f).integ.hot).length ≤ 16 ∧
    (s.pushHot t f).fld (pgScrb t) 0x118 31 1 = s.fld (pgScrb t) 0x118 31 1) ∧
  (∀ (s : State) (t f : Nat), (AL.getD t [] s.integ.hot).length = 16 →
    AL.getD t [] (s.pushHot t f).integ.hot = AL.getD t [] s.integ.hot ∧ (s.pushHot t f).fld (pgScrb t) 0x118 31 1 = 1) ∧
  (∀ (s : State) (t u f : Nat), u ≠ t → AL.getD u [] (s.pushHot t f).integ.hot = AL.getD u [] s.integ.hot) ∧
  (∀ (s : State) (l : Link) (tile tag f : Nat) (r : List Nat), tile < 24 → s.mayRead (.host l) (pgScrb tile) 0x114 = true →
    AL.getD tile [] s.integ.hot = f :: r →
    ∃ t, exec (.hotRead (.host l) tile tag) s = .next t ∧ AL.getD tile [] t.integ.hot = r ∧
      t = (s.setInteg { s.integ with hot := AL.put tile r s.integ.hot }).hostCpl l tag true (leBytes 4 (packBits [(31, 1, 1), (0, 28, f)]).toNat))

/-- R369. When V of a sublink exceeds 2^31, V becomes 0 and V is subtracted from every tag of the sublink's queues, a tag below V becoming
0; the tags of other sublinks stay. With V up to 2^31 nothing changes. It happens in one step before a selection: the scheduler selects as
from the state in which it has been done. -/
def Obligations.VirtualTimeIsRebased : Prop :=
  (∀ (s : State) (p b : Nat), 2 ^ 31 < (s.egSub p b).v →
    (s.rebase p b).egSub p b = { s.egSub p b with v := 0 } ∧
    (∀ q x, AL.get (p, b, q) s.egress.queues = some x → AL.get (p, b, q) (s.rebase p b).egress.queues = some { x with
      fLast := if x.fLast < (s.egSub p b).v then 0 else x.fLast - (s.egSub p b).v
      pkts := x.pkts.map (fun k => { k with
        start := if k.start < (s.egSub p b).v then 0 else k.start - (s.egSub p b).v
        finish := if k.finish < (s.egSub p b).v then 0 else k.finish - (s.egSub p b).v }) }) ∧
    (∀ o c q, (o, c) ≠ (p, b) → AL.get (o, c, q) (s.rebase p b).egress.queues = AL.get (o, c, q) s.egress.queues ∧
      (s.rebase p b).egSub o c = s.egSub o c) ∧
    s.rebase p b = { s with egress := (s.rebase p b).egress }) ∧
  (∀ (s : State) (p b : Nat), (s.egSub p b).v ≤ 2 ^ 31 → s.rebase p b = s) ∧
  (∀ (s : State) (p b : Nat), s.running = true → p < 8 → b < 2 → s.fld (pgPort p) 0x104 (4 + b) 1 = 1 → s.unitAdmits (pgPort p) = true →
    ∃ t, exec (.egressSelect p b) s = .next t ∧ exec (.egressSelect p b) (s.rebase p b) = .next t)

/-- R51. Of the two 4-bit elements in a byte, the one with the lower index stands in bits 3 to 0: what is stored for element e is read
back from its half of byte e / 2, and the other half and every other byte stay as they were. -/
def Obligations.LowerElementTakesLowBits : Prop :=
  ∀ (m : Mem) (e c : Nat), m.wf = true → c < 16 →
    ((putElem true e c m).read (e / 2)).toNat % 16 = (if e % 2 = 0 then c else (m.read (e / 2)).toNat % 16) ∧
    ((putElem true e c m).read (e / 2)).toNat / 16 = (if e % 2 = 0 then (m.read (e / 2)).toNat / 16 else c) ∧
    getElem true e (putElem true e c m) = c ∧ (∀ f, f ≠ e → getElem true f (putElem true e c m) = getElem true f m) ∧
    (∀ a, a ≠ e / 2 → (putElem true e c m).read a = m.read a)

/-- R418. Step 4 of the admission checks, and the check of a packet, accept the current epoch, or the previous one while its grace window
runs, and in UNLEASED only 0. A command with any other epoch, an epoch newer than the current one among them, has no effect and completes
with ST_REROUTE and COUNT0 = GREROUTE.SLOT when GREROUTE.VALID is 1, and else with ST_STALE_EPOCH and COUNT0 = the current epoch. -/
def Obligations.EpochsAreAccepted : Prop :=
  (∀ (s : State) (e : Word), s.lease.st = .unleased → (s.epochOk false e = true ↔ e = 0)) ∧
  (∀ (s : State) (e : Word), s.lease.st ≠ .unleased →
    (s.epochOk false e = true ↔ e = s.lease.cur ∨ (s.lease.prev = some e ∧ s.nrt < s.lease.graceTill))) ∧
  (∀ (s : State) (c : Conn) (e : Word) (k : Nat), s.lease.st = .leased → c.composition ≠ 0xFFFF →
    s.lease.comp = some (c.composition, k) →
    (s.connEpochOk c e = true ↔ e = s.lease.cur ∨ (s.lease.prev = some e ∧ s.nrt < s.lease.graceTill))) ∧
  (∀ (s : State) (q : Req) (op : Op) (n len : Nat) (d : DomainRec) (c : Ctx) (m : Option Manifest) (ue : Bool), q.src = .ring n →
    (∀ o, op ≠ .bad o) → q.hdr.flags &&& op.flagMask = q.hdr.flags → s.nodeFenced = false →
    AL.get q.hdr.domain s.sec.domains = some d → d.st = .active → AL.get q.hdr.context s.cmds.ctxs = some c → c.domain = q.hdr.domain →
    s.ringDomain n = q.hdr.domain → s.epochOk false q.hdr.epoch = false →
    s.submit q op len m ue = some (s.turnAway q op
      (if s.fld pgNode 0x21C 31 1 = 1 then stReroute else stStaleEpoch)
      (if s.fld pgNode 0x21C 31 1 = 1 then s.fld pgNode 0x21C 0 16 else s.lease.cur.toNat) false)) ∧
  (∀ (s : State) (q : Req) (n : Nat) (d : DomainRec) (c : Ctx), s.running = true → q.src = .ring n → q.hdr.flags = 0 →
    s.nodeFenced = false → AL.get q.hdr.domain s.sec.domains = some d → d.st = .active → AL.get q.hdr.context s.cmds.ctxs = some c →
    c.domain = q.hdr.domain → s.ringDomain n = q.hdr.domain → s.epochOk false q.hdr.epoch = false →
    exec (.nop q) s = .next ((s.countIn q.src).ringComplete n ⟨q.hdr.tag,
      if s.fld pgNode 0x21C 31 1 = 1 then stReroute else stStaleEpoch, 0x32, q.hdr.context,
      if s.fld pgNode 0x21C 31 1 = 1 then s.fld pgNode 0x21C 0 16 else s.lease.cur.toNat, 0, 0, 0, 0⟩ false))

/-- The node's power (Tables 20-1 and 20-3, R9, R478). Applied within 36 V and 56 V, it brings STANDBY, and node reference time starts from
zero; a trip opens the switch and loses what the core rails hold, but not the flash; EN starts the node, and its release stops it. -/
def Obligations.PowerComesAndGoes : Prop :=
  (∀ (s : State) (mv : Nat), s.pw.st = .off → 36000 ≤ mv → mv ≤ 56000 → s.pw.overV = false →
    s.pw.en = false →
    ∃ t, exec (.powerOn mv) s = .next t ∧ t.pw.st = .standby ∧ t.pw.vin = mv ∧ t.nrt = 0 ∧ t = { s with nrt := 0, pw := t.pw }) ∧
  (∀ (s : State), s.pw.st = .off → s.pw.overV = true → s.pw.en = false →
    ∃ t, exec .overvoltageReclose s = .next t ∧ t.pw.st = .standby ∧ t.pw.overV = false ∧ t.nrt = 0 ∧
      t = { s with nrt := 0, pw := t.pw }) ∧
  (∀ (s : State) (cause : Nat),
    ∃ t, exec (.inputTrip cause) s = .next t ∧ t.pw.st = .off ∧ t.mem = [] ∧ t.kv = .blank ∧ t.lease = .blank ∧ t.cmds = .blank ∧
      t.pw.overV = (s.pw.overV || cause == 1) ∧ t.nrt = s.nrt ∧ t.pending = s.pending ∧ t.fw.bootCount = s.fw.bootCount ∧
      t.fw.laneLog = s.fw.laneLog ∧ t.pw.log = s.pw.log ∧ t.pw.fails = s.pw.fails ∧ t.pw.scfg = s.pw.scfg ∧
      t.sec.flushed = s.sec.flushed) ∧
  (∀ (s : State), s.pw.st = .standby → s.pw.en = false → stage1 s.pw.temps = false → s.pw.forced = false →
    s.pw.fails < bitsOf s.pw.scfg.toNat 0 3 →
    ∃ t, exec .enAssert s = .next t ∧ t.pw.st = .starting ∧ t.pw.step = 1 ∧ t.pw.en = true ∧ t.pw.fails = s.pw.fails + 1 ∧
      t.fw.bootCount = (s.fw.bootCount + 1) % 2 ^ 32 ∧ t.mem = s.mem ∧
      t = { s with host := t.host, fw := { s.fw with bootCount := t.fw.bootCount }, pw := t.pw }) ∧
  (∀ (s : State), s.pw.st ≠ .off → s.pw.st ≠ .standby →
    ∃ t, exec .enDeassert s = .next t ∧ t.pw.st = .standby ∧ t.pw.en = false ∧ t.mem = [] ∧ t.kv = .blank ∧ t.lease = .blank ∧
      t.cmds = .blank ∧ t.nrt = s.nrt ∧ t.pending = s.pending ∧ t.fw.bootCount = s.fw.bootCount)

/-- The start (Table 20-4, R484, R485). A step that passes and finds no tile and no quadrant bad leads to the next one, and step 7 to ACTIVE, which clears the
failed-start count; memory stays as it was unless a core that starts logs the image of the other slot (R443); a step that fails for a reason that Table 20-5 does not send to UNLEAVENED, or that runs out of time with its core up,
takes the rails off for 1 s, after which stage 1 begins again with the count raised by one; the end of the image window drops the image
being received. -/
def Obligations.TheStartGoesStepByStep : Prop :=
  (∀ (s : State) (o : BootOutcome), s.pw.st = .starting → s.pw.retryAt = none → o.ok = true → bootBad o s.pw.step = [] →
    2 ≤ s.pw.step → s.pw.step ≤ 6 → s.minTiles ≤ s.usableTiles → [0, 6, 12, 18].all s.tileFenced = false →
    ∃ t, exec (.bootStepDone o) s = .next t ∧ t.pw.st = .starting ∧ t.pw.step = s.pw.step + 1 ∧ t.pw.stepAt = s.nrt ∧
      ((∀ c, s.substituted c = false) → t.mem = s.mem) ∧ t.kv = s.kv ∧ t.lease = s.lease ∧ t.cmds = s.cmds) ∧
  (∀ (s : State) (o : BootOutcome), s.pw.st = .starting → s.pw.retryAt = none → o.ok = true → bootBad o 7 = [] → s.pw.step = 7 →
    s.pw.mhz = 1200 → s.minTiles ≤ s.usableTiles → [0, 6, 12, 18].all s.tileFenced = false →
    ∃ t, exec (.bootStepDone o) s = .next t ∧ t.pw.st = .active ∧ t.pw.step = 8 ∧ t.pw.fails = 0 ∧ (t.core 2).up = true ∧
      ((∀ c, s.substituted c = false) → t.mem = s.mem) ∧ t.kv = s.kv ∧ t.lease = s.lease ∧ t.cmds = s.cmds) ∧
  (∀ (s : State) (o : BootOutcome), s.pw.st = .starting → s.pw.retryAt = none → o.ok = false → (o.code < 2 ∨ 6 < o.code ∨ o.code = 3) →
    (s.pw.step = 1 → s.bootHost = false) →
    ∃ t, exec (.bootStepDone o) s = .next t ∧ t.pw.st = .starting ∧ t.pw.retryAt = some (s.nrt + 100000000) ∧ t.mem = [] ∧
      t.kv = .blank ∧ t.pw.fails = s.pw.fails ∧ t.fw.bootCount = s.fw.bootCount ∧ t.pw.log = closeLog s.pw.log s.pw.step o.code o.detail) ∧
  (∀ (s : State), s.pw.st = .starting → s.pw.retryAt = none → s.emergency = false →
    s.pw.stepAt + stepBoundMs s.bootHost s.pw.step * 100000 ≤ s.nrt → stepCore s.pw.step = none →
    ∃ t, exec .bootStepTimeout s = .next t ∧ t.pw.st = .starting ∧ t.pw.retryAt = some (s.nrt + 100000000) ∧ t.mem = [] ∧
      t.kv = .blank ∧ t.pw.log = closeLog s.pw.log s.pw.step 0x10 s.pw.step) ∧
  (∀ (s : State) (r : Nat), s.pw.st = .starting → s.pw.retryAt = some r → r ≤ s.nrt → s.pw.forced = false →
    s.pw.fails < bitsOf s.pw.scfg.toNat 0 3 →
    ∃ t, exec .startRetry s = .next t ∧ t.pw.st = .starting ∧ t.pw.step = 1 ∧ t.pw.retryAt = none ∧ t.pw.fails = s.pw.fails + 1 ∧
      t.fw.bootCount = (s.fw.bootCount + 1) % 2 ^ 32 ∧
      t = { s with host := t.host, fw := { s.fw with bootCount := t.fw.bootCount }, pw := t.pw }) ∧
  (∀ (s : State) (w : Nat), s.pw.st = .starting → s.pw.step = 1 → s.pw.imgTill = some w → w ≤ s.nrt →
    ∃ t, exec .imageWindowExpire s = .next t ∧ (∀ l, (t.link l).imgBytes = [] ∧ (t.link l).imgKind = 0xFF) ∧ t = { s with host := t.host })

/-- Supply and temperature (R480, R482, R483, Tables 20-1, 20-6 and 20-7). More than 1,400 W over the last 10 samples, or more than 150 W
above the cap over the last 100, takes the islands to 400 MHz; an average above the cap takes them one step down. An emergency is counted
and runs the islands at 400 MHz; it ends after 10 ms within limits or 1 s of cool sensors. A sensor above stage 3 takes the rails off. -/
def Obligations.SupplyAndTemperatureSetTheClock : Prop :=
  (∀ (s : State) (pin vin iin : Nat), s.awake = true →
    (1400 < average (((pin :: s.pw.samples).take 100).take 10) ∨ s.capW + 150 < average ((pin :: s.pw.samples).take 100)) →
    ∃ t, exec (.powerSample pin vin iin) s = .next t ∧ t.pw.mhz = 400 ∧ t.pw.samples = (pin :: s.pw.samples).take 100 ∧ t.pw.vin = vin ∧
      t.pw.iin = iin ∧ t.pw.lowerAt = s.nrt ∧ (s.pw.st = .active → t.pw.st = .capped) ∧ (s.pw.st ≠ .active → t.pw.st = s.pw.st) ∧
      t = { s with rf := t.rf, host := t.host, eng := { s.eng with credits := t.eng.credits }, pw := t.pw }) ∧
  (∀ (s : State) (pin vin iin : Nat), s.awake = true → average (((pin :: s.pw.samples).take 100).take 10) ≤ 1400 →
    average ((pin :: s.pw.samples).take 100) ≤ s.capW + 150 → s.capW < average ((pin :: s.pw.samples).take 100) →
    s.pw.lowerAt + 10000 ≤ s.nrt →
    ∃ t, exec (.powerSample pin vin iin) s = .next t ∧ t.pw.mhz = max 400 (s.pw.mhz - 50) ∧ t.pw.lowerAt = s.nrt ∧
      t = { s with rf := t.rf, host := t.host, eng := { s.eng with credits := t.eng.credits }, pw := t.pw }) ∧
  (∀ (s : State) (mv ma : Nat), s.powerGood = true → (mv < 36000 ∨ 38000 < ma) → s.pw.brown = false →
    ∃ t, exec (.brownOut mv ma) s = .next t ∧ t.emergency = true ∧ t.pw.brownAt = s.nrt ∧ t.pw.mhz = 400 ∧ t.pw.vin = mv ∧ t.pw.iin = ma ∧
      t = { s with rf := t.rf, host := t.host, eng := { s.eng with credits := t.eng.credits }, pw := t.pw }) ∧
  (∀ (s : State) (g : Nat), s.pw.brown = true → s.pw.goodSince = some g → g + 1000000 ≤ s.nrt →
    ∃ t, exec .powerEmergencyEnd s = .next t ∧ t.pw.brown = false ∧ t.emergency = s.pw.hot ∧ t.pw.st = s.pw.st ∧
      (s.pw.st = .starting → s.pw.hot = false → s.pw.stepAt ≤ s.pw.brownAt → t.pw.stepAt = s.pw.stepAt + (s.nrt - s.pw.brownAt)) ∧
      t = { s with pw := t.pw }) ∧
  (∀ (s : State) (logic rack inlet : Nat), s.powerGood = true → (115 < logic ∨ 105 < rack) →
    ∃ t, exec (.thermalSample logic rack inlet) s = .next t ∧ t.pw.st = .standby ∧ t.pw.temps = (logic, rack, inlet) ∧ t.mem = [] ∧
      t.kv = .blank ∧ t.lease = .blank ∧ t.cmds = .blank ∧ t.pw.trips = min (2 ^ 32 - 1) (s.pw.trips + 1) ∧
      t.pw.tripHeld = some (if 115 < logic then 0 else 1) ∧ t.pending = s.pending ∧ t.nrt = s.nrt) ∧
  (∀ (s : State) (logic rack inlet : Nat), s.powerGood = true → logic ≤ 115 → rack ≤ 105 → (105 < logic ∨ 95 < rack ∨ 52 < inlet) →
    s.pw.hot = false →
    ∃ t, exec (.thermalSample logic rack inlet) s = .next t ∧ t.emergency = true ∧ t.pw.hotAt = s.nrt ∧ t.pw.mhz = 400 ∧
      t.pw.temps = (logic, rack, inlet) ∧ t = { s with rf := t.rf, host := t.host, eng := { s.eng with credits := t.eng.credits }, pw := t.pw }) ∧
  (∀ (s : State) (logic rack inlet : Nat), s.powerGood = true → logic ≤ 95 → rack ≤ 85 → inlet ≤ 47 →
    ∃ t, exec (.thermalSample logic rack inlet) s = .next t ∧ t.pw.temps = (logic, rack, inlet) ∧ t.pw.mhz = s.pw.mhz ∧
      t.pw.coolSince = some (s.pw.coolSince.getD s.nrt) ∧ t = { s with pw := t.pw }) ∧
  (∀ (s : State) (g : Nat), s.pw.hot = true → s.pw.coolSince = some g → g + 100000000 ≤ s.nrt →
    ∃ t, exec .thermalEmergencyEnd s = .next t ∧ t.pw.hot = false ∧ t.emergency = s.pw.brown ∧ t.pw.st = s.pw.st ∧
      t = { s with pw := t.pw }) ∧
  (∀ (s : State), s.pw.locateTill ≠ 0 → s.pw.locateTill ≤ s.nrt →
    ∃ t, exec .locateEnd s = .next t ∧ t = { s with pw := { s.pw with locateTill := 0 } })

/-- The timers of the lease (R412, R414, R418, Table 17-12). A lease that has run out fences the node with cause LAPSE; the low mark is
raised once; the end of the grace window drops the previous epoch. -/
def Obligations.LeaseTimersEnd : Prop :=
  (∀ (s : State), s.running = true → s.lease.st = .leased → s.lease.expiry ≤ s.nrt →
    ∃ t, exec .leaseExpire s = .next t ∧ t.nodeFenced = true ∧ t.lease = { s.lease with st := .fenced, cause := 1 } ∧
      t = { s with
        fresh := t.fresh, mem := t.mem, rf := t.rf, host := t.host, cmds := t.cmds, net := t.net, kv := t.kv, eng := t.eng
        lease := t.lease, sec := t.sec, fw := t.fw, integ := t.integ, ckpt := t.ckpt }) ∧
  (∀ (s : State), s.running = true → s.lease.st = .leased → s.lease.lowSent = false →
    s.lease.expiry < s.nrt + 100000 * s.fld pgNode 0x204 16 10 →
    ∃ t, exec .leaseLow s = .next t ∧ t.lease = { s.lease with lowSent := true } ∧ bitOf (t.reg pgNode 0x20).toNat 3 = true ∧
      t = { s with rf := t.rf, host := t.host, lease := t.lease }) ∧
  (∀ (s : State) (e : Word), s.running = true → s.lease.prev = some e → s.lease.graceTill ≤ s.nrt →
    ∃ t, exec .graceEnd s = .next t ∧ t.lease = { s.lease with prev := none, graceTill := 0 } ∧
      bitOf (t.reg pgNode 0x20).toNat 1 = true ∧ t = { s with rf := t.rf, host := t.host, lease := t.lease })

/-- GO of the NODE page (R412, R416, R417, R420): RENEW extends the lease from the time at which its serial was issued, GRANT takes the slot
and the epoch that the registers give, FENCE fences with cause FORCED, RELEASE gives the slot up, and the two ways to rejoin leave
FENCED: REINSTATE keeps every other piece of state, DISCARD destroys the sequences. -/
def Obligations.GoActsOnTheLease : Prop :=
  (∀ (s : State) (ag : Agent) (i t0 : Nat), s.mayWrite ag pgNode 0x220 = true → s.lease.st = .leased →
    s.serialAt (s.reg pgNode 0x20C) = some (i, t0) →
    exec (.renew ag) s = .next { s with lease := { s.lease with
      held := some (s.reg pgNode 0x20C), heldIdx := i, expiry := max s.lease.expiry (t0 + 100000 * s.leaseMs), lowSent := false } }) ∧
  (∀ (s : State) (ag : Agent) (i t0 : Nat), s.mayWrite ag pgNode 0x220 = true → s.running = true → s.lease.st = .unleased →
    s.serialAt (s.reg pgNode 0x20C) = some (i, t0) → (s.lease.rejoined && s.lease.last.contains (s.reg pgNode 0x214)) = false →
    (s.openMeter (s.fld pgNode 0x210 16 10)).isSome = true →
    ∃ t, exec (.grant ag) s = .next t ∧ t.lease.st = .leased ∧
      t.lease.comp = some (s.fld pgNode 0x210 16 10, s.fld pgNode 0x210 0 16) ∧ t.lease.cur = s.reg pgNode 0x214 ∧ t.lease.prev = none ∧
      t.lease.held = some (s.reg pgNode 0x20C) ∧ t.lease.expiry = max s.lease.expiry (t0 + 100000 * s.leaseMs) ∧
      t = { s with net := t.net, lease := t.lease, fw := t.fw }) ∧
  (∀ (s : State) (ag : Agent) (i t0 : Nat), s.mayWrite ag pgNode 0x220 = true → s.running = true → s.lease.st = .leased →
    s.lease.comp = some (s.fld pgNode 0x210 16 10, s.fld pgNode 0x210 0 16) → s.serialAt (s.reg pgNode 0x20C) = some (i, t0) →
    s.reg pgNode 0x214 ≠ s.lease.cur → (s.openMeter (s.fld pgNode 0x210 16 10)).isSome = true →
    ∃ t, exec (.grant ag) s = .next t ∧ t.lease.st = .leased ∧ t.lease.comp = s.lease.comp ∧ t.lease.cur = s.reg pgNode 0x214 ∧
      t.lease.prev = some s.lease.cur ∧ t.lease.graceTill = s.nrt + 100000 * min (s.fld pgNode 0x218 0 11) (2 * s.leaseMs) ∧
      t = { s with net := t.net, lease := t.lease, fw := t.fw }) ∧
  (∀ (s : State) (ag : Agent), s.mayWrite ag pgNode 0x220 = true → s.nodeFenced = false →
    ∃ t, exec (.forcedFence ag) s = .next t ∧ t.nodeFenced = true ∧ t.lease = { s.lease with st := .fenced, cause := 2 } ∧
      t = { s with
        fresh := t.fresh, mem := t.mem, rf := t.rf, host := t.host, cmds := t.cmds, net := t.net, kv := t.kv, eng := t.eng
        lease := t.lease, sec := t.sec, fw := t.fw, integ := t.integ, ckpt := t.ckpt }) ∧
  (∀ (s : State) (ag : Agent) (c k : Nat), s.mayWrite ag pgNode 0x220 = true → s.lease.st = .leased → s.lease.comp = some (c, k) →
    ∃ t, exec (.release ag) s = .next t ∧ t.lease = { s.lease with
        st := .unleased, comp := none, prev := none, graceTill := 0, held := none, heldIdx := 0, expiry := 0, cur := 0 } ∧
      t = { s with net := t.net, lease := t.lease }) ∧
  (∀ (s : State) (ag : Agent), s.mayWrite ag pgNode 0x220 = true → s.nodeFenced = true →
    exec (.rejoinReinstate ag) s = .next { s with lease := { s.lease with
      st := .unleased, comp := none, prev := none, graceTill := 0, held := none, heldIdx := 0, expiry := 0, cur := 0, rejoined := true } }) ∧
  (∀ (s : State) (ag : Agent), s.mayWrite ag pgNode 0x220 = true → s.nodeFenced = true →
    (∀ p ∈ s.net.conns, p.2.composition = 0xFFFF) →
    ∃ t, exec (.rejoinDiscard ag) s = .next t ∧ t.lease = { s.lease with
        st := .unleased, comp := none, prev := none, graceTill := 0, held := none, heldIdx := 0, expiry := 0, cur := 0, rejoined := true } ∧
      t.kv.seqs = [] ∧ t.eng.merge = [] ∧ t.eng.headroom = [] ∧
      t = { s with rf := t.rf, host := t.host, kv := t.kv, eng := t.eng, lease := t.lease, sec := t.sec })

/-- The start bits and the locate bit of the NODE page (Tables 20-3, 20-7 and 20-9, R485, R490). RESTART stops the node in order and takes the
rails off for 1 s; the other three change one field of the flash or the light, and nothing else. -/
def Obligations.NodeBitsActOnTheStart : Prop :=
  (∀ (s : State) (ag : Agent), s.mayWrite ag pgNode 0x268 = true → s.awake = true →
    ∃ t, exec (.restart ag) s = .next t ∧ t.pw.st = .starting ∧ t.pw.step = 0 ∧ t.pw.retryAt = some (s.nrt + 100000000) ∧ t.mem = [] ∧
      t.kv = .blank ∧ t.lease = .blank ∧ t.cmds = .blank ∧ t.net = .blank ∧ t.eng = .blank ∧ t.ckpt = .blank ∧ t.host.rings = [] ∧
      t.pw.fails = s.pw.fails ∧ t.pw.log = s.pw.log ∧ t.fw.bootCount = s.fw.bootCount ∧ t.nrt = s.nrt ∧ t.pending = s.pending ∧
      ((s.core 0).up = true → t.sec.flushed = (s.sec.auditSeq - 1, s.sec.auditHead))) ∧
  (∀ (s : State) (ag : Agent), s.mayWrite ag pgNode 0x268 = true → s.awake = false →
    exec (.restart ag) s = .next (s.cfgRej pgNode)) ∧
  (∀ (s : State) (ag : Agent), s.mayWrite ag pgNode 0x268 = true →
    exec (.clearFails ag) s = .next { s with pw := { s.pw with fails := 0 } }) ∧
  (∀ (s : State) (ag : Agent), s.mayWrite ag pgNode 0x268 = true →
    exec (.forceUnleavened ag) s = .next { s with pw := { s.pw with forced := true } }) ∧
  (∀ (s : State) (ag : Agent), s.mayWrite ag pgNode 0x278 = true →
    exec (.locate ag) s = .next { s with pw := { s.pw with locateTill := s.nrt + 6000000000 } })

/-- The page header (R29 to R36, R38, R78, Table 2-2). ENABLE and FREEZE are set each with the other as it stands; SOFT_RESET returns every
other register of the page to its reset value, those that are held elsewhere and only for the page too, and fences the block or not, as its
self-check finds; the island bits of the NODE page stay (R23); ABORT ends what the block holds with ST_ABORTED; PG_LOCK gives a free page to the host; SHADOW_CTL.COMMIT applies the pending RW-S fields of the page and no other, and of a TSCH page
once its engines' credits have been brought up to date (R278); a capture and the counters of a page are cleared. -/
def Obligations.ThePageHeaderActs : Prop :=
  (∀ (s : State) (ag : Agent) (page : Nat) (on : Bool), s.mayWrite ag page 0x18 = true → s.rf.failed.contains page = false →
    (page = pgXprt → on = true → s.fld pgXprt 0x100 0 16 ≠ 0) →
    ∃ t, exec (.pgCtlEnable ag page on) s = .next t ∧ t.fld page 0x18 0 1 = b2n on ∧ t.fld page 0x18 1 1 = s.fld page 0x18 1 1 ∧
      t = { s with rf := { s.rf with vals := AL.put (page, 0x18, 0) (t.reg page 0x18) s.rf.vals } }) ∧
  (∀ (s : State) (ag : Agent) (page : Nat), s.mayWrite ag page 0x18 = true → s.rf.failed.contains page = false →
    (page = pgXprt → s.fld pgXprt 0x100 0 16 ≠ 0) →
    ∃ t, exec (.pgCtlFreeze ag page) s = .next t ∧ t.fld page 0x18 1 1 = 1 ∧ t.fld page 0x18 0 1 = s.fld page 0x18 0 1 ∧
      t = { s with rf := { s.rf with vals := AL.put (page, 0x18, 0) (t.reg page 0x18) s.rf.vals } }) ∧
  (∀ (s : State) (ag : Agent) (page : Nat) (pass : Bool), s.mayWrite ag page 0x18 = true → s.quiet page = true →
    ∃ t, exec (.softReset ag page pass) s = .next t ∧ t.reg page 0x18 = 0 ∧ t.pageFenced page = !pass ∧
      t.rf.failed.contains page = !pass ∧ t.regI page 0x48 0 = s.regI page 0x48 0 ∧
      (∀ off i, regKeyAt (pgBnch 1) off i ≠ (page, off, i) → regKeyAt (pgStrt 1) off i ≠ (page, off, i) → off ≠ 0x48 → off ≠ 0x18 →
        (page = pgNode → off ≠ 0x140 ∧ off ≠ 0x144) → AL.get (page, off, i) t.rf.vals = none) ∧
      (∀ pg off i, pg ≠ page → t.regI pg off i = s.regI pg off i) ∧ (∀ pg, pg ≠ page → t.pageFenced pg = s.pageFenced pg) ∧
      (page = pgDbel → t.host.rings = []) ∧ (∀ x, x < 24 → page = pgScrb x → AL.getD x [] t.integ.hot = []) ∧
      (∀ ch n, ch < 384 → page = pgMchn ch → AL.has (ch, n) t.integ.lanes = false) ∧
      t = { s.resetHeld page with rf := t.rf }) ∧
  (∀ (s : State) (ag : Agent) (c : Cmd) (d : WaitCountD), s.mayWrite ag pgXprt 0x18 = true → s.cmds.list = [c] → c.op = .waitCount d →
    c.wait.space = .none →
    exec (.pgCtlAbort ag pgXprt []) s = .next ((s.finish c { status := stAborted, c0 := c.c0, c1 := c.c1 }).abortOther pgXprt)) ∧
  (∀ (s : State) (l : Link) (page : Nat), s.mayWrite (.host l) page 0x48 = true → s.lockOwner page = none → corePage page = none →
    ∃ t, exec (.pgLockWrite (.host l) page 1) s = .next t ∧ t.lockOwner page = some (.host .a) ∧ t = s.setReg page 0x48 1) ∧
  (∀ (s : State) (l : Link) (page : Nat), s.mayWrite (.host l) page 0x48 = true → s.lockOwner page = some (.host .a) →
    ∃ t, exec (.pgLockWrite (.host l) page 0) s = .next t ∧ t.lockOwner page = none ∧ t = s.setReg page 0x48 0) ∧
  (∀ (s : State) (ag : Agent) (tile : Nat), tile < 24 → s.mayWrite ag (pgTsch tile) 0x4C = true →
    ∃ t, exec (.shadowCommit ag (pgTsch tile)) s = .next t ∧ t.rf.shadow = s.rf.shadow.filter (fun p => p.1.1 != pgTsch tile) ∧
      (∀ off i w, ((pgTsch tile, off, i), w) ∈ s.rf.shadow → (∀ w', ((pgTsch tile, off, i), w') ∈ s.rf.shadow → w' = w) →
        AL.getD (pgTsch tile, off, i) (regReset (pgTsch tile) off) t.rf.vals =
          (AL.getD (pgTsch tile, off, i) (regReset (pgTsch tile) off) s.rf.vals &&& ~~~ shadowMask (pgTsch tile) off) |||
            (w &&& shadowMask (pgTsch tile) off)) ∧
      (∀ e, e < 18 → AL.get (tile, e) t.eng.credits = some ⟨s.creditNow tile e, s.nrt⟩) ∧
      t = { s with rf := { s.rf with vals := t.rf.vals, shadow := t.rf.shadow }, eng := { s.eng with credits := t.eng.credits } }) ∧
  (∀ (s : State) (ag : Agent) (page : Nat), s.mayWrite ag page 0x4C = true → (∀ tile, tile < 24 → page ≠ pgTsch tile) →
    ∃ t, exec (.shadowCommit ag page) s = .next t ∧ t.rf.shadow = s.rf.shadow.filter (fun p => p.1.1 != page) ∧
      (∀ off i w, ((page, off, i), w) ∈ s.rf.shadow → (∀ w', ((page, off, i), w') ∈ s.rf.shadow → w' = w) →
        AL.getD (page, off, i) (regReset page off) t.rf.vals =
          (AL.getD (page, off, i) (regReset page off) s.rf.vals &&& ~~~ shadowMask page off) ||| (w &&& shadowMask page off)) ∧
      (∀ k, k.1 ≠ page → AL.get k t.rf.vals = AL.get k s.rf.vals) ∧
      t = { s with rf := { s.rf with vals := t.rf.vals, shadow := t.rf.shadow } }) ∧
  (∀ (s : State) (ag : Agent) (page : Nat), s.mayWrite ag page 0x30 = true →
    ∃ t, exec (.errLogClear ag page) s = .next t ∧ t.reg page 0x30 = 0 ∧ t.reg page 0x34 = 0 ∧ t.reg page 0x38 = 0 ∧ t.reg page 0x3C = 0 ∧
      (∀ pg off i, (pg ≠ page ∨ (off ≠ 0x30 ∧ off ≠ 0x34 ∧ off ≠ 0x38 ∧ off ≠ 0x3C)) → t.regI pg off i = s.regI pg off i) ∧
      t = { s with rf := { s.rf with vals := t.rf.vals } }) ∧
  (∀ (s : State) (ag : Agent) (page off a b : Nat) (keep : List Nat), s.mayWrite ag page off = true →
    (pageType page).bind (fun x => clearRange x.1 off) = some (a, b, keep) →
    ∃ t, exec (.counterClear ag page off) s = .next t ∧
      (∀ o i, a ≤ o → o ≤ b → o ∉ keep → AL.get (page, o, i) t.rf.vals = none) ∧
      (∀ k, (k.1 ≠ page ∨ k.2.1 < a ∨ b < k.2.1 ∨ k.2.1 ∈ keep) → AL.get k t.rf.vals = AL.get k s.rf.vals) ∧
      t = { s with rf := { s.rf with vals := t.rf.vals }, eng := { s.eng with credits := t.eng.credits } })

/-- Any register (R4 to R7, R25, R26, R32, R33, R35). A write of a register that does nothing beyond its fields sets the fields that its
access classes let it set, holds the shadowed ones until the commit and changes no other register; one that would change an RW-Q field
of a busy block, or that another agent's lock covers, sets CFG_REJ and nothing else; one that the agent may not make is captured as
ACCESS. The two halves of a 64-bit register are written together, and read together; an access of another length or alignment is refused,
a read with a completion error and ones for its bytes. -/
def Obligations.AnyRegisterIsWrittenAndRead : Prop :=
  (∀ (s : State) (ag : Agent) (pg off : Nat) (v : Word) (ty : PgType) (n : Nat), s.mayWrite ag pg off = true → 0x100 ≤ off →
    pageType pg = some (ty, n) → [PgType.node, .xlat, .ttlb, .hlnk, .mbox, .dbel, .mchn, .scrb, .bnch].contains ty = false →
    clearRange ty off = none → isLow pg (off - 4) = false →
    (s.quiet pg = true ∨ s.regI pg off (s.selIdx pg off) &&& w32 (accMask (regFields ty off) .rwq) =
      v &&& w32 (accMask (regFields ty off) .rwq)) →
    ∃ t, exec (.registerWrite ag (pg * 4096 + off) 4 v.toNat) s = .next t ∧
      t.regI pg off (s.selIdx pg off) =
        ((s.regI pg off (s.selIdx pg off) &&&
            ~~~(w32 (accMask (regFields ty off) .rwq) ||| w32 (accMask (regFields ty off) .rwl))) |||
          (v &&& (w32 (accMask (regFields ty off) .rwq) ||| w32 (accMask (regFields ty off) .rwl)))) &&&
        ~~~(v &&& w32 (accMask (regFields ty off) .w1c)) ∧
      (∀ k, k ≠ regKeyAt pg off (s.selIdx pg off) → AL.get k t.rf.vals = AL.get k s.rf.vals ∧ AL.get k t.rf.shadow = AL.get k s.rf.shadow) ∧
      (w32 (accMask (regFields ty off) .rws) = 0 → t.rf.shadow = s.rf.shadow) ∧
      (∀ w, w32 (accMask (regFields ty off) .rws) ≠ 0 → AL.get (regKeyAt pg off (s.selIdx pg off)) t.rf.shadow = some w →
        w &&& w32 (accMask (regFields ty off) .rws) = v &&& w32 (accMask (regFields ty off) .rws)) ∧
      t = { s with rf := { s.rf with vals := t.rf.vals, shadow := t.rf.shadow } }) ∧
  (∀ (s : State) (ag : Agent) (pg off : Nat) (v : Word) (ty : PgType) (n : Nat), s.mayWrite ag pg off = true → 0x100 ≤ off →
    pageType pg = some (ty, n) → [PgType.node, .xlat, .ttlb, .hlnk, .mbox, .dbel, .mchn, .scrb, .bnch].contains ty = false →
    clearRange ty off = none → isLow pg (off - 4) = false → s.quiet pg = false →
    s.regI pg off (s.selIdx pg off) &&& w32 (accMask (regFields ty off) .rwq) ≠ v &&& w32 (accMask (regFields ty off) .rwq) →
    exec (.registerWrite ag (pg * 4096 + off) 4 v.toNat) s = .next (s.cfgRej pg)) ∧
  (∀ (s : State) (ag : Agent) (addr v : Nat), s.agentUp ag = true → s.accessBad ag addr 4 true = none →
    s.lockedOut ag (addr / 4096) (addr % 4096) = true → (addr % 4096 < 4 ∨ isLow (addr / 4096) (addr % 4096 - 4) = false) →
    exec (.registerWrite ag addr 4 v) s = .next (s.cfgRej (addr / 4096))) ∧
  (∀ (s : State) (l : Link) (addr bytes v u : Nat), s.agentUp (.host l) = true → s.accessBad (.host l) addr bytes true = some u →
    ∃ t, exec (.registerWrite (.host l) addr bytes v) s = .next t ∧ t = s.access l u addr ∧ t = { s with rf := t.rf, host := t.host }) ∧
  (∀ (s : State) (ag : Agent) (v : Word), s.mayWrite ag pgXlat 0x110 = true →
    exec (.registerWrite ag (pgXlat * 4096 + 0x110) 4 v.toNat) s =
      .next { s with rf := { s.rf with held := AL.put (Agent.name ag, pgXlat * 4096 + 0x110) v s.rf.held } }) ∧
  (∀ (s : State) (ag : Agent) (v w : Word), s.mayWrite ag pgXlat 0x114 = true →
    AL.get (Agent.name ag, pgXlat * 4096 + 0x110) s.rf.held = some w →
    ∃ t, exec (.regPairHiWrite ag (pgXlat * 4096 + 0x114) v.toNat) s = .next t ∧ t.reg pgXlat 0x110 = w ∧ t.reg pgXlat 0x114 = v ∧
      t.rf.held = AL.del (Agent.name ag, pgXlat * 4096 + 0x110) s.rf.held ∧
      (∀ k, k ≠ (pgXlat, 0x110, 0) → k ≠ (pgXlat, 0x114, 0) → AL.get k t.rf.vals = AL.get k s.rf.vals) ∧
      t = { s with rf := { s.rf with vals := t.rf.vals, held := t.rf.held } }) ∧
  (∀ (s : State) (ag : Agent) (v : Word), s.mayWrite ag pgXlat 0x114 = true →
    AL.get (Agent.name ag, pgXlat * 4096 + 0x110) s.rf.held = none →
    ∃ t, exec (.regPairHiWrite ag (pgXlat * 4096 + 0x114) v.toNat) s = .next t ∧ t.reg pgXlat 0x110 = s.reg pgXlat 0x110 ∧
      t.reg pgXlat 0x114 = v ∧ t = { s with rf := { s.rf with vals := t.rf.vals, held := t.rf.held } }) ∧
  (∀ (s : State) (ag : Agent) (addr v : Nat), 4 ≤ addr % 4096 → isLow (addr / 4096) (addr % 4096 - 4) = true →
    exec (.registerWrite ag addr 4 v) s = exec (.regPairHiWrite ag addr v) s) ∧
  (∀ (s : State) (ag : Agent) (pg off v : Nat), off < 4096 → 4 ≤ off → isLow pg (off - 4) = true → s.agentUp ag = true →
    s.accessBad ag (pg * 4096 + off) 4 true = none → s.lockedOut ag pg off = true →
    ∃ t, exec (.regPairHiWrite ag (pg * 4096 + off) v) s = .next t ∧
      t = ({ s with rf := { s.rf with held := AL.del (Agent.name ag, pg * 4096 + off - 4) s.rf.held } } : State).cfgRej pg) ∧
  (∀ (s : State) (l : Link) (pg off tag : Nat), s.mayRead (.host l) pg off = true → isLow pg off = true →
    exec (.regLoRead (.host l) ⟨pg * 4096 + off, 4⟩ tag) s =
      .next (({ s with rf := { s.rf with
        latched := AL.put (.host .a, pg * 4096 + off + 4) (s.readReg pg (off + 4)) s.rf.latched } } : State).hostCpl l tag true
          (leBytes 4 (s.readReg pg off).toNat))) ∧
  (∀ (s : State) (l : Link) (pg off tag : Nat) (w : Word), s.mayRead (.host l) pg off = true → isLow pg off = false →
    AL.get (.host .a, pg * 4096 + off) s.rf.latched = some w →
    exec (.regLoRead (.host l) ⟨pg * 4096 + off, 4⟩ tag) s = .next (s.hostCpl l tag true (leBytes 4 w.toNat))) ∧
  (∀ (s : State) (l : Link) (addr bytes tag u : Nat), s.agentUp (.host l) = true → s.accessBad (.host l) addr bytes false = some u →
    exec (.regLoRead (.host l) ⟨addr, bytes⟩ tag) s =
      .next ((s.access l u addr).hostCpl l tag false (List.replicate bytes 0xFF))) ∧
  (∀ (s : State) (ag : Agent) (addr bytes : Nat) (w : Bool), (bytes ≠ 4 ∨ addr % 4 ≠ 0) →
    s.accessBad ag addr bytes w = some 2 ∨ s.accessBad ag addr bytes w = some 3)
/-- Commands of the XLAT and TTLB pages (R81, R116, R118). INVAL drops every cached translation, or those of one tile; SHAPE_CMD reads the
selected shape into the pair of shape registers, and stores a shape that nothing uses. -/
def Obligations.TranslationCommandsAct : Prop :=
  (∀ (s : State) (ag : Agent), s.mayWrite ag pgXlat 0x100 = true →
    ∃ t, exec (.invalAll ag) s = .next t ∧ t.kv = { s.kv with ttlb := [], walkCache := [] } ∧
      (∀ k, AL.getD k (regReset k.1 k.2.1) t.rf.vals = AL.getD k (regReset k.1 k.2.1) s.rf.vals) ∧
      t = { s with rf := { s.rf with vals := t.rf.vals }, kv := t.kv }) ∧
  (∀ (s : State) (ag : Agent) (tile : Nat), tile < 24 → s.mayWrite ag (pgTtlb tile) 0x100 = true →
    exec (.ttlbInval ag tile) s = .next { s with kv := { s.kv with
      ttlb := s.kv.ttlb.filter (fun p => homeTile p.1.1 p.1.2 != tile) } }) ∧
  (∀ (s : State) (ag : Agent), s.mayWrite ag pgXlat 0x118 = true →
    ∃ t, exec (.shapeRead ag) s = .next t ∧
      t.reg pgXlat 0x110 = w32 (s.shapeW (s.fld pgXlat 0x10C 16 10) (s.fld pgXlat 0x10C 0 6)).toNat ∧
      t.reg pgXlat 0x114 = w32 ((s.shapeW (s.fld pgXlat 0x10C 16 10) (s.fld pgXlat 0x10C 0 6)).toNat / 2 ^ 32) ∧
      (∀ k, k ≠ (pgXlat, 0x110, 0) → k ≠ (pgXlat, 0x114, 0) → AL.get k t.rf.vals = AL.get k s.rf.vals) ∧
      t = { s with rf := { s.rf with vals := t.rf.vals } }) ∧
  (∀ (s : State) (ag : Agent) (w : DWord), s.mayWrite ag pgXlat 0x118 = true →
    w = BitVec.ofNat 64 ((s.reg pgXlat 0x110).toNat + (s.reg pgXlat 0x114).toNat * 2 ^ 32) →
    s.shapeUsed (s.fld pgXlat 0x10C 16 10) (s.fld pgXlat 0x10C 0 6) = false → bitOf w.toNat 63 = true → shapeOk w = true →
    exec (.shapeWrite ag) s = .next { s with kv := { s.kv with
      shapes := AL.put (s.fld pgXlat 0x10C 16 10, s.fld pgXlat 0x10C 0 6) w s.kv.shapes } }) ∧
  (∀ (s : State) (ag : Agent), s.mayWrite ag pgXlat 0x118 = true →
    s.shapeUsed (s.fld pgXlat 0x10C 16 10) (s.fld pgXlat 0x10C 0 6) = true →
    exec (.shapeWrite ag) s = .next ((s.cfgRej pgXlat).setIrq pgXlat 4))

/-- The test registers and the reads that act (Table 11-7, R263, R265, R412). ARM arms the flip mask and leaves MATCH; TEST_ALLOC takes the free
chunk that the pool offers, and TEST_RELEASE gives it back with every byte zero; a read of HOT takes the oldest hot frame out of the queue,
and a read of LREQ issues the next serial and notes the time. -/
def Obligations.TestRegistersAndActingReads : Prop :=
  (∀ (s : State) (ag : Agent) (page : Nat), hasTest page = true → s.mayWrite ag page (flipCtl (benchTest page)) = true →
    ∃ t, exec (.flipArm ag page) s = .next t ∧ t.fld page (flipCtl (benchTest page)) 2 1 = 1 ∧
      t.fld page (flipCtl (benchTest page)) 1 1 = s.fld page (flipCtl (benchTest page)) 1 1 ∧
      (∀ k, k ≠ (page, flipCtl (benchTest page), 0) → AL.get k t.rf.vals = AL.get k s.rf.vals) ∧
      t = { s with rf := { s.rf with vals := t.rf.vals } }) ∧
  (∀ (s : State) (ag : Agent) (tile c k : Nat), tile < 24 → c < 16 → s.mayWrite ag (pgMchn (tile * 16 + c)) 0x18C = true →
    s.fld (pgMchn (tile * 16 + c)) 0x18C 31 1 = 0 → s.pageFenced (pgMchn (tile * 16 + c)) = false → s.newChunk (tile * 16 + c) = some k →
    ∃ t, exec (.testAlloc ag (pgMchn (tile * 16 + c))) s = .next t ∧
      t.reg (pgMchn (tile * 16 + c)) 0x18C = BitVec.ofNat 32 (2 ^ 31 + k) ∧ AL.get (tile * 16 + c, k) t.kv.chunks = some .test ∧
      (∀ x, x ≠ (tile * 16 + c, k) → AL.get x t.kv.chunks = AL.get x s.kv.chunks) ∧
      t = { s with rf := t.rf, host := t.host, kv := { s.kv with chunks := t.kv.chunks } }) ∧
  (∀ (s : State) (ag : Agent) (tile c k : Nat), tile < 24 → c < 16 → s.mayWrite ag (pgMchn (tile * 16 + c)) 0x18C = true → s.mem.wf = true →
    s.fld (pgMchn (tile * 16 + c)) 0x18C 31 1 = 1 → s.fld (pgMchn (tile * 16 + c)) 0x18C 0 15 = k →
    ∃ t, exec (.testRelease ag (pgMchn (tile * 16 + c))) s = .next t ∧ t.reg (pgMchn (tile * 16 + c)) 0x18C = 0 ∧
      t.kv = { s.kv with chunks := AL.del (tile * 16 + c, k) s.kv.chunks, codes := t.kv.codes, stale := t.kv.stale } ∧
      (∀ a, rackAddr (tile * 16 + c) (k * 65536) ≤ a → a < rackAddr (tile * 16 + c) (k * 65536) + 65536 → t.bulkBytes a 1 = [0] ∧ t.wordOutcome a = .clean) ∧
      (∀ a, a < rackAddr (tile * 16 + c) (k * 65536) ∨ rackAddr (tile * 16 + c) (k * 65536) + 65536 ≤ a → t.mem.read a = s.mem.read a) ∧
      t = { s with mem := t.mem, rf := { s.rf with vals := t.rf.vals }, kv := t.kv, integ := t.integ }) ∧
  (∀ (s : State) (l : Link) (tile tag f : Nat) (r : List Nat), tile < 24 → s.mayRead (.host l) (pgScrb tile) 0x114 = true →
    AL.getD tile [] s.integ.hot = f :: r →
    ∃ t, exec (.hotRead (.host l) tile tag) s = .next t ∧ AL.getD tile [] t.integ.hot = r ∧
      (∀ x, x ≠ tile → AL.getD x [] t.integ.hot = AL.getD x [] s.integ.hot) ∧
      t = (s.setInteg { s.integ with hot := AL.put tile r s.integ.hot }).hostCpl l tag true
        (leBytes 4 (packBits [(31, 1, 1), (0, 28, f)]).toNat)) ∧
  (∀ (s : State) (l : Link) (tag : Nat), s.mayRead (.host l) pgNode 0x208 = true →
    ∃ t, exec (.lreqRead (.host l) tag) s = .next t ∧ t.lease.issued = s.lease.issued + 1 ∧
      t.lease.serials = ((BitVec.ofNat 32 (s.lease.issued + 1), s.nrt) :: s.lease.serials).take 2 ∧
      t = ({ s with lease := { s.lease with issued := t.lease.issued, serials := t.lease.serials } } : State).hostCpl l tag true
        (leBytes 4 (BitVec.ofNat 32 (s.lease.issued + 1)).toNat))

/-- States of the host links (R459, R461, R471, R473, R474). A link that goes DOWN loses its session and its replay buffer and trains again when
RSTREQ_N lets it; training leads to INIT with all lanes, or back to DOWN for 100 ms; ACTIVE_REQ moves the active role. -/
def Obligations.LinksGoDownAndTrain : Prop :=
  (∀ (s : State) (l : Link) (cause : Nat), s.powerGood = true → (s.link l).ls ≠ .down → (s.link l).rstreq = false →
    (s.link l).rstAt + 100000 ≤ s.nrt →
    ∃ t, exec (.linkDown l cause) s = .next t ∧ (t.link l).ls = .training ∧ (t.link l).session = .none ∧ (t.link l).trainAt = s.nrt ∧
      t.host.rings = s.host.rings ∧ t = { s with rf := t.rf, host := t.host, sec := t.sec }) ∧
  (∀ (s : State) (ag : Agent) (l : Link), s.mayWrite ag (pgHlnk l) 0x100 = true → (s.link l).rstreq = false →
    (s.link l).rstAt + 100000 ≤ s.nrt →
    ∃ t, exec (.retrain ag l) s = .next t ∧ (t.link l).ls = .training ∧ (t.link l).session = .none ∧ t.host.rings = s.host.rings ∧
      t = { s with rf := t.rf, host := t.host, sec := t.sec }) ∧
  (∀ (s : State) (l : Link), s.powerGood = true → ((s.link l).ls = .init ∨ (s.link l).ls = .up) → (s.link l).lastRx + 1000 ≤ s.nrt →
    (s.link l).rstreq = false → (s.link l).rstAt + 100000 ≤ s.nrt →
    ∃ t, exec (.flitTimeout l) s = .next t ∧ (t.link l).ls = .training ∧ (t.link l).session = .none ∧
      t = { s with rf := t.rf, host := t.host, sec := t.sec }) ∧
  (∀ (s : State) (l : Link), s.powerGood = true → (s.link l).ls = .training →
    ∃ t, exec (.linkTrained l) s = .next t ∧ (t.link l).ls = .init ∧ (t.link l).lanes = 0xFF ∧
      t.reg (pgHlnk l) 0x130 = satAdd32 (s.reg (pgHlnk l) 0x130) 1 ∧ t = { s with rf := t.rf, host := t.host, pw := t.pw }) ∧
  (∀ (s : State) (l : Link) (lane : Nat), s.powerGood = true → (s.link l).ls = .training →
    ∃ t, exec (.linkTrainTimeout l lane) s = .next t ∧ (t.link l).ls = .down ∧ (t.link l).lanes = 0 ∧
      (t.link l).trainAt = s.nrt + 10000000 ∧ t = { s with rf := t.rf, host := t.host }) ∧
  (∀ (s : State) (l : Link),
    ∃ t, exec (.rstreqAssert l) s = .next t ∧ (t.link l).ls = .down ∧ (t.link l).session = .none ∧ (t.link l).rstreq = true ∧
      (t.link l).rstAt = s.nrt ∧ t = { s with rf := t.rf, host := t.host, sec := t.sec }) ∧
  (∀ (s : State) (l : Link), s.powerGood = true → (s.link l).ls = .down →
    ∃ t, exec (.rstreqRelease l) s = .next t ∧ (t.link l).rstreq = false ∧
      (t.link l).ls = (if (s.link l).rstAt + 100000 ≤ s.nrt then .training else .down) ∧ t = { s with host := t.host }) ∧
  (∀ (s : State) (ag : Agent) (l : Link), s.mayWrite ag (pgHlnk l) 0x100 = true → (s.link l).sessionOpen = true → s.host.active = none →
    ∃ t, exec (.activeReq ag l) s = .next t ∧ t.host.active = some l ∧ t.host.activeWant = none ∧
      t = { s with rf := t.rf, host := t.host }) ∧
  (∀ (s : State) (ag : Agent) (l : Link), s.mayWrite ag (pgHlnk l) 0x100 = true → (s.link l).sessionOpen = true →
    s.host.active = some l.other → (s.link l.other).replay = [] → (s.link l.other).stalled = [] →
    ∃ t, exec (.activeReq ag l) s = .next t ∧ t.host.active = some l ∧ t.host.activeWant = none ∧
      t = { s with rf := t.rf, host := t.host })
/-- Flits and host images (R459, R460, R444, Table 19-6). An acknowledgement frees the replay buffer up to its number and its credits add to
those held; a request for a replay is counted, and the ninth in a row of one flit takes the link down; the fragments of an image are put
together, and the last one of an image that verifies makes it the one that the start uses. -/
def Obligations.FlitsAreAcknowledgedAndImagesTaken : Prop :=
  (∀ (s : State) (l : Link) (a : Nat) (units : Nat), s.powerGood = true → ((s.link l).ls = .init ∨ (s.link l).ls = .up) →
    (s.link l).stalled = [] → (s.link l).waiting = [] → s.host.activeWant = none →
    ∃ t, exec (.flitAckCredit l (some a) 0 units) s = .next t ∧ (t.link l).pCred = min 65535 ((s.link l).pCred + units) ∧
      (t.link l).replay = (s.link l).replay.filter
        (fun p => ((s.link l).fseqTx + 4096 - a % 4096 - 1) % 4096 > ((s.link l).fseqTx + 4096 - p.1 - 1) % 4096) ∧
      (t.link l).lastRx = s.nrt ∧ t.link l.other = s.link l.other ∧ t = { s with rf := t.rf, host := t.host }) ∧
  (∀ (s : State) (l : Link) (f : Nat), s.powerGood = true → ((s.link l).ls = .init ∨ (s.link l).ls = .up) → f < 4096 →
    ((s.link l).failCnt = 0 ∨ (s.link l).failSeq ≠ f) →
    ∃ t, exec (.retryReq l f) s = .next t ∧ (t.link l).failSeq = f ∧ (t.link l).failCnt = 1 ∧ (t.link l).lastRx = s.nrt ∧
      (t.link l).replay = (s.link l).replay ∧ t.reg (pgHlnk l) 0x118 = satAdd32 (s.reg (pgHlnk l) 0x118) 1 ∧
      t = { s with rf := t.rf, host := t.host }) ∧
  (∀ (s : State) (l : Link) (f : Nat), s.powerGood = true → ((s.link l).ls = .init ∨ (s.link l).ls = .up) → f < 4096 →
    (s.link l).failCnt = 8 → (s.link l).failSeq = f →
    ∃ t, exec (.retryReq l f) s = .next t ∧ ((t.link l).ls = .down ∨ (t.link l).ls = .training) ∧ (t.link l).session = .none ∧
      t = { s with rf := t.rf, host := t.host, sec := t.sec }) ∧
  (∀ (s : State) (l : Link) (kind offset : Nat) (d : List Byte) (i : ImageInfo), s.imageWindow l = true → kind ≤ 3 →
    (s.link l).imgKind = kind → offset = (s.link l).imgBytes.length →
    ∃ t, exec (.imageFlit l kind false false offset d i) s = .next t ∧ (t.link l).imgKind = kind ∧
      (t.link l).imgBytes = (s.link l).imgBytes ++ d ∧ t = { s with host := t.host }) ∧
  (∀ (s : State) (l : Link) (kind offset : Nat) (d : List Byte) (i : ImageInfo), s.imageWindow l = true → kind ≤ 3 →
    (s.link l).imgKind = kind → offset = (s.link l).imgBytes.length → i.ok = true → (s.kind kind).fuse ≤ i.arb →
    ∃ t, exec (.imageFlit l kind true false offset d i) s = .next t ∧ (t.kind kind).host = true ∧ AL.get kind t.fw.hostImgs = some i ∧
      (t.link l).imgKind = 0xFF ∧ (t.link l).imgBytes = [] ∧ t = { s with rf := t.rf, host := t.host, fw := t.fw })
/-- Host sessions (R381 to R383, Table 16-4). LS_HELLO is challenged with a fresh nonce, at once or after the 100 ms that follow a refusal; a proof
that verifies under a key whose hash is in an active slot opens a session under a number that is not zero and was not issued before, with no
slot in use the key's hash is programmed into slot 0 too; one that does not verify closes the exchange for 100 ms; the end of a session gives the role of the active link up and closes every inspection grant. -/
def Obligations.HostSessionsOpenAndClose : Prop :=
  (∀ (s : State) (l : Link) (n m : BitVec 128), s.linkTalks l = true → (s.link l).sessionOpen = false → s.secUp = true →
    s.awake = true → (s.link l).refusedTill ≤ s.nrt →
    ∃ t, exec (.lsHello l n m) s = .next t ∧ (t.link l).session = .challenged (n ++ m) (Config.randomKey s.fresh) ∧
      t.fresh = s.fresh + 1 ∧ t.link l.other = s.link l.other ∧ t = { s with fresh := t.fresh, rf := t.rf, host := t.host }) ∧
  (∀ (s : State) (l : Link) (n : BitVec 256) (till : Nat), s.awake = true → s.secUp = true →
    (s.link l).session = .waiting n till → till ≤ s.nrt →
    ∃ t, exec (.lsChallengeDeferred l) s = .next t ∧ (t.link l).session = .challenged n (Config.randomKey s.fresh) ∧
      t.fresh = s.fresh + 1 ∧ t.link l.other = s.link l.other ∧ t = { s with fresh := t.fresh, rf := t.rf, host := t.host }) ∧
  (∀ (s : State) (l : Link) (n k : BitVec 256) (opk : List Byte) (slot : Nat), s.awake = true → s.secUp = true →
    (s.link l).session = .challenged n k → AL.get slot s.sec.opk = some (Config.sha384 opk, false) → s.sec.sessions.length + 2 < 2 ^ 32 →
    ∃ t id, exec (.lsProof l ⟨opk, true⟩) s = .next t ∧ (t.link l).session = .opened id ∧ (t.link l).ls = .up ∧ id ≠ 0 ∧
      id ∉ s.sec.sessions ∧ t.sec.sessions = s.sec.sessions ++ [id] ∧ t.host.active = some (s.host.active.getD l) ∧
      t = { s with fresh := t.fresh, rf := t.rf, host := t.host, sec := t.sec }) ∧
  (∀ (s : State) (l : Link) (n k : BitVec 256) (opk : List Byte), s.awake = true → s.secUp = true →
    (s.link l).session = .challenged n k → s.sec.opk = [] →
    ∃ t, exec (.lsProof l ⟨opk, true⟩) s = .next t ∧ (t.link l).sessionOpen = true ∧ t.sec.opk = [(0, (Config.sha384 opk, false))] ∧
      t = { s with fresh := t.fresh, rf := t.rf, host := t.host, sec := t.sec }) ∧
  (∀ (s : State) (l : Link) (n k : BitVec 256) (opk : List Byte), s.awake = true → s.secUp = true →
    (s.link l).session = .challenged n k →
    ∃ t, exec (.lsProof l ⟨opk, false⟩) s = .next t ∧ (t.link l).session = .none ∧ (t.link l).refusedTill = s.nrt + 10000000 ∧
      t.reg pgSecc 0x12C = satAdd32 (s.reg pgSecc 0x12C) 1 ∧ t = { s with rf := t.rf, host := t.host }) ∧
  (∀ (s : State) (l : Link), s.powerGood = true → (s.link l).sessionOpen = true →
    ∃ t, exec (.lsEnd l) s = .next t ∧ (t.link l).session = .none ∧ t.host.active ≠ some l ∧ t.sec.grants = [] ∧
      t.host.rings = s.host.rings ∧ t = { s with rf := t.rf, host := t.host, sec := t.sec })
/-- Submission rings (R466, R468 to R470, R505). A ring that RCFG creates runs with heads and counters zero and its completion area zero; one that
is disabled stops at once, or drains; the doorbells move its tail and its head; DELAY_US sends its message; a fenced quarter loses it.
RING_FETCH takes the command at its head, or holds the ring when it has no free record or waits. -/
def Obligations.RingsRunAndStop : Prop :=
  (∀ (s u : State) (ag : Agent) (v : Nat), s.mayWrite ag pgDbel 0x10C = true → (s.ring (s.fld pgDbel 0x108 0 12)).st = .disabled →
    s.applyFields pgDbel 0x10C (w32 (2 ^ 31 + v % 2 ^ 31)) = some u →
    u.ringRefused (s.fld pgDbel 0x108 0 12) (u.domActive (u.ringDomain (s.fld pgDbel 0x108 0 12))) = false → s.mem.wf = true →
    ∃ t, exec (.ringCreate ag v) s = .next t ∧
      t.ring (s.fld pgDbel 0x108 0 12) = { Ring.blank with st := .running, phase := true } ∧
      (∀ m, m ≠ s.fld pgDbel 0x108 0 12 → t.ring m = s.ring m) ∧
      (∀ i, i < u.cqSize (s.fld pgDbel 0x108 0 12) * 32 + 64 →
        t.mem.read (ringAddr (u.cqBase (s.fld pgDbel 0x108 0 12)) + i) = 0) ∧
      t = { s with mem := t.mem, rf := u.rf, host := t.host }) ∧
  (∀ (s u : State) (ag : Agent) (v : Nat), s.mayWrite ag pgDbel 0x10C = true → (s.ring (s.fld pgDbel 0x108 0 12)).st = .running →
    s.applyFields pgDbel 0x10C (w32 (v % 2 ^ 31)) = some u →
    ∃ t, exec (.ringDisable ag v) s = .next t ∧
      (t.ring (s.fld pgDbel 0x108 0 12)).st = (if (s.ring (s.fld pgDbel 0x108 0 12)).inflight = 0 then .disabled else .draining) ∧
      (∀ m, m ≠ s.fld pgDbel 0x108 0 12 → t.ring m = s.ring m) ∧ t = { s with rf := u.rf, host := t.host }) ∧
  (∀ (s : State) (ag : Agent) (n tail : Nat), s.mayWrite ag pgDbel 0x100 = true → n < 4096 → tail < 65536 → tail < s.sqSize n →
    (s.ring n).st ≠ .disabled → (s.ring n).st ≠ .lost →
    exec (.sqDb ag (n * 65536 + tail)) s = .next (s.setRing n { s.ring n with tail := tail })) ∧
  (∀ (s : State) (ag : Agent) (n tail : Nat), s.mayWrite ag pgDbel 0x100 = true → n < 4096 → tail < 65536 →
    (s.sqSize n ≤ tail ∨ (s.ring n).st = .disabled ∨ (s.ring n).st = .lost) →
    exec (.sqDb ag (n * 65536 + tail)) s =
      .next (((s.bump pgDbel 0x144 1).logErr pgDbel 1 n (n * 65536 + tail)).setIrq pgDbel 1)) ∧
  (∀ (s : State) (ag : Agent) (n head : Nat), s.mayWrite ag pgDbel 0x104 = true → n < 4096 → head < 65536 → head < s.cqSize n →
    (head + s.cqSize n - (s.ring n).cqHead) % s.cqSize n ≤ ((s.ring n).cqTail + s.cqSize n - (s.ring n).cqHead) % s.cqSize n →
    (s.ring n).st ≠ .disabled → (s.ring n).st ≠ .lost →
    exec (.cqDb ag (n * 65536 + head)) s = .next (s.setRing n { s.ring n with cqHead := head })) ∧
  (∀ (s : State) (n : Nat), s.running = true → 0 < (s.ring n).unsig → (s.ring n).unsigAt + 100 * rvecDelay (s.ring n).rvec ≤ s.nrt →
    ∃ t, exec (.cqIrqDelay n) s = .next t ∧ (t.ring n).unsig = 0 ∧
      t = (s.setRing n { s.ring n with unsig := 0 }).hostSend (.msg (bitsOf (s.ring n).rvec.toNat 16 11))) ∧
  (∀ (s : State) (q n : Nat) (r : Ring), s.running = true → q < 4 → s.tileFenced (6 * q) = true → (n, r) ∈ s.host.rings →
    r.st = .running → areaQuarter (s.cqBase n, s.cqSize n * 32 + 64) = some q → s.cmds.list = [] →
    ∃ t, exec (.ringLost q) s = .next t ∧ (t.ring n).st = .lost ∧ t = { s with rf := t.rf, host := t.host }) ∧
  (∀ (s u : State) (n : Nat) (b : List Byte), s.running = true → s.ringMayFetch n = true → s.ringWhole n = some b → s.ringHolds n = false →
    (s.ring n).skip = 0 →
    (s.advanceSq n (b.length / 64)).submit ⟨.ring n, hdrOf b, []⟩ (opOfBytes b) b.length none false = some u →
    exec (.ringFetch n) s = .next { u with pending := s.pending, nrt := s.nrt }) ∧
  (∀ (s : State) (n : Nat) (b : List Byte), s.running = true → s.ringMayFetch n = true → s.ringWhole n = some b → s.ringHolds n = true →
    exec (.ringFetch n) s = .next (s.setRing n { s.ring n with blocked := true })) ∧
  (∀ (s : State) (n : Nat) (b : List Byte), s.running = true → s.ringMayFetch n = true → s.ringWhole n = some b → s.ringHolds n = false →
    0 < (s.ring n).skip →
    ∃ t, exec (.ringFetch n) s = .next t ∧
      t = { (s.advanceSq n (b.length / 64)).turnAway ⟨.ring n, hdrOf b, []⟩ (opOfBytes b) stAborted 0 false with
        pending := s.pending, nrt := s.nrt })

/-- The windows of the host (R241, R242, R400, R463, Table 19-5). A read of memory that belongs to nobody answers its bytes and, in Rack, counts its bursts; one of a domain that no
grant covers answers zeros and is counted; a read and a write of the ring window move its bytes; a write of a free chunk writes its bytes
and no other, where its merge buffer need not write an older codeword back to hold it. -/
def Obligations.WindowsReadAndWriteMemory : Prop :=
  (∀ (s : State) (l : Link) (tag a n : Nat), s.powerGood = true → s.linkTalks l = true → s.bulkBad l a n false = none →
    s.bulkOwner a = .nobody → (∀ w ∈ wordsOf a n, s.wordOutcome w = .clean) →
    exec (.bulkRead l tag a n false false) s = .next ((s.hostBursts a n).hostCpl l tag true (s.bulkBytes a n))) ∧
  (∀ (s : State) (l : Link) (tag a n d : Nat) (ue : Bool), s.powerGood = true → s.linkTalks l = true → s.bulkBad l a n false = none →
    s.bulkOwner a = .domain d → s.grantOf d = none →
    exec (.bulkRead l tag a n false ue) s = .next ((s.bump pgSecc 0x128 1).hostCpl l tag true (List.replicate n 0))) ∧
  (∀ (s : State) (l : Link) (tag a n u : Nat) (ue : Bool), s.powerGood = true → s.linkTalks l = true → s.bulkBad l a n false = some u →
    exec (.bulkRead l tag a n false ue) s = .next ((s.access l u a).hostCpl l tag false (List.replicate n 0xFF))) ∧
  (∀ (s : State) (l : Link) (tag a n : Nat) (ue : Bool), s.powerGood = true → s.linkTalks l = true → s.ringWindowBad l a n false = none →
    exec (.bulkRead l tag a n true ue) s = .next (s.hostCpl l tag true (s.ringRead a n))) ∧
  (∀ (s : State) (l : Link) (a : Nat) (d : List Byte), s.powerGood = true → s.linkTalks l = true → s.bulkBad l a d.length true = none →
    isBench a = false → AL.get (placeIdx a, placeByte a / 65536) s.kv.chunks = none → s.mem.wf = true →
    ∃ t, exec (.bulkWrite l a d) s = .next t ∧
      ((s.integ.pend.filter (fun e => sameBuffer e.addr a)).length < 63 →
        t.bulkBytes a d.length = d ∧
        ∀ b, bulkAssigned b = true → b < a ∨ a + d.length ≤ b → t.bulkBytes b 1 = s.bulkBytes b 1) ∧
      t = { s with fresh := t.fresh, mem := t.mem, rf := t.rf, host := t.host, kv := t.kv, fw := t.fw, integ := t.integ }) ∧
  (∀ (s : State) (l : Link) (a : Nat) (d : List Byte), s.powerGood = true → s.linkTalks l = true → s.bulkBad l a d.length true = none →
    s.isMetadata a = true →
    ∃ t, exec (.bulkWrite l a d) s = .next t ∧ t = { s with rf := t.rf, host := t.host } ∧ bitOf (t.reg pgXlat 0x20).toNat 1 = true) ∧
  (∀ (s : State) (l : Link) (a : Nat) (d : List Byte), s.powerGood = true → s.linkTalks l = true →
    s.ringWindowBad l a d.length true = none → s.mem.wf = true →
    ∃ t, exec (.ringWindowWrite l a d) s = .next t ∧ t.mem.readN (ringAddr a) d.length = d ∧
      (∀ b, b < ringAddr a ∨ ringAddr a + d.length ≤ b → t.mem.read b = s.mem.read b) ∧ t = { s with mem := t.mem })

/-- Messages that ask or set one thing (R436, R440, R441, R446, R451, R455, Tables 18-4, 18-15 and 18-19). Each is answered in the response
buffer of its core: HELLO opens the exchange under version 1.0, TRACE_SET sets the mask of the core, POWER_CAP the cap, LANE_LOG gives, and
clears on request, the lanes of its quadrant; ATTEST, QUAD_STATUS, FW_STATUS and METER_SNAPSHOT report. -/
def Obligations.MessagesAskAndSet : Prop :=
  (∀ (s : State) (m : MReq) (lo hi : Nat), s.hears m (.hello lo hi) = true → lo ≤ 1 → 1 ≤ hi →
    ∃ t, exec (.hello m lo hi) s = .next t ∧ (t.core m.core).helloOk = true ∧ (t.core m.core).major = 1 ∧ (t.core m.core).minor = 0 ∧
      t.answered m 0x0001 stOk 0 (leBytes 1 1 ++ leBytes 1 0 ++ leBytes 2 0 ++ leBytes 4 (s.core m.core).version ++
        leBytes 4 (s.core m.core).arb) ∧
      t = { s with fresh := t.fresh, mem := t.mem, rf := t.rf, host := t.host, fw := { s.fw with cores := t.fw.cores } }) ∧
  (∀ (s : State) (m : MReq) (first n e : Nat), s.hears m (.traceSet first n e) = true → e ≤ 1 → 1 ≤ n → first + n ≤ 256 →
    ∃ t, exec (.traceSet m first n e) s = .next t ∧
      (t.core m.core).trace = (if e = 1 then (s.core m.core).trace ||| BitVec.ofNat 256 ((2 ^ n - 1) * 2 ^ first)
        else (s.core m.core).trace &&& ~~~BitVec.ofNat 256 ((2 ^ n - 1) * 2 ^ first)) ∧
      (e = 1 → t.sec.debug = s.sec.debug ||| 1) ∧ (e = 0 → t.sec = s.sec) ∧
      t.answered m 0x0002 stOk 0 (leBytes 32 (t.core m.core).trace.toNat) ∧
      t = { s with fresh := t.fresh, mem := t.mem, rf := t.rf, host := t.host, sec := t.sec, fw := { s.fw with cores := t.fw.cores } }) ∧
  (∀ (s : State) (m : MReq) (nonce : BitVec 256), s.hears m (.attest nonce) = true →
    ∃ t, exec (.attest m nonce) s = .next t ∧
      t.answered m 0x0100 stOk 0 (s.reportBytes nonce ++ leBytes 2 (Config.certChain (s.core 0).version).length ++
        Config.certChain (s.core 0).version) ∧
      t = { s with fresh := t.fresh, mem := t.mem, rf := t.rf, host := t.host, fw := { s.fw with cores := t.fw.cores } }) ∧
  (∀ (s : State) (m : MReq) (w : Nat), s.hears m (.powerCap w) = true → 400 ≤ w → w ≤ 1200 →
    ∃ t, exec (.powerCap m w) s = .next t ∧ t.reg pgPmgt 0x104 = BitVec.ofNat 32 w ∧ t.answered m 0x0200 stOk 0 (leBytes 2 w) ∧
      t = { s with fresh := t.fresh, mem := t.mem, rf := t.rf, host := t.host, fw := { s.fw with cores := t.fw.cores } }) ∧
  (∀ (s : State) (m : MReq) (w : Nat), s.hears m (.powerCap w) = true → (w < 400 ∨ 1200 < w) →
    ∃ t, exec (.powerCap m w) s = .next t ∧ t.reg pgPmgt 0x104 = s.reg pgPmgt 0x104 ∧ t.answered m 0x0200 stBadDescriptor 3 []) ∧
  (∀ (s : State) (m : MReq), s.hears m .quadStatus = true →
    ∃ t f, exec (.quadStatus m) s = .next t ∧
      f = (List.range 6).foldl (fun n i => if s.tileFenced (6 * (m.core - 3) + i) then n + 2 ^ i else n) 0 ∧
      t.answered m 0x0400 stOk 0 (leBytes 1 f ++ leBytes 1 (min 255 (s.lanesPending (m.core - 3))) ++ leBytes 2 0 ++
        leBytes 4 (s.handledOf (m.core - 3))) ∧
      t = { s with fresh := t.fresh, mem := t.mem, rf := t.rf, host := t.host, fw := { s.fw with cores := t.fw.cores } }) ∧
  (∀ (s : State) (m : MReq) (clear : Bool) (ch lane : Nat), s.hears m (.laneLog clear ch lane) = true → ch / 96 = m.core - 3 →
    ∃ t, exec (.laneLog m clear ch lane) s = .next t ∧
      t.fw.laneLog = (if clear then s.fw.laneLog.filter (fun x => x != (ch, lane)) else s.fw.laneLog) ∧
      t.answered m 0x0401 stOk 0 (leBytes 2 (t.fw.laneLog.filter (fun x => x.1 / 96 == m.core - 3)).length ++ leBytes 2 0 ++
        (t.fw.laneLog.filter (fun x => x.1 / 96 == m.core - 3)).flatMap (fun x => leBytes 2 x.1 ++ leBytes 2 x.2)) ∧
      t = { s with
        fresh := t.fresh, mem := t.mem, rf := t.rf, host := t.host, fw := { s.fw with cores := t.fw.cores, laneLog := t.fw.laneLog } }) ∧
  (∀ (s : State) (m : MReq) (k : Nat), s.hears m (.fwStatus k) = true → k ≤ 3 →
    ∃ t, exec (.fwStatus m k) s = .next t ∧
      t.answered m 0x0112 stOk 0 (leBytes 1 (s.kind k).active ++ leBytes 1 (b2n (s.kind k).staged) ++ leBytes 1 (s.kind k).last ++
        leBytes 1 0 ++ leBytes 4 (AL.getD (s.kind k).active (0, 0) (s.kind k).slots).1 ++
        leBytes 4 (if (s.kind k).staged then (AL.getD (1 - (s.kind k).active) (0, 0) (s.kind k).slots).1 else 0) ++
        leBytes 4 (s.kind k).fuse) ∧
      t = { s with fresh := t.fresh, mem := t.mem, rf := t.rf, host := t.host, fw := { s.fw with cores := t.fw.cores } }) ∧
  (∀ (s : State) (m : MReq) (c : Nat) (nonce : BitVec 256) (x : MeterSet) (body : List Byte), s.hears m (.meterSnapshot c nonce) = true →
    AL.get c s.fw.meters = some x →
    body = leBytes 2 1 ++ leBytes 2 c ++ leBytes 4 s.fw.bootCount ++ leBytes 48 Config.deviceId.toNat ++ leBytes 32 nonce.toNat ++
      leBytes 8 s.nrt ++ leBytes 8 x.firstTime ++ x.counts.flatMap (leBytes 8) ++ leBytes 4 (x.snapSeq + 1) ++ leBytes 12 0 →
    ∃ t, exec (.meterSnapshot m c nonce) s = .next t ∧
      t.answered m 0x0120 stOk 0 (body ++ leBytes 96 (Config.signature 0 body).toNat) ∧
      AL.get c t.fw.meters = some { x with snapSeq := x.snapSeq + 1, snapped := c != s.heldComp } ∧
      t = { s with
        fresh := t.fresh, mem := t.mem, rf := t.rf, host := t.host, fw := { s.fw with cores := t.fw.cores, meters := t.fw.meters } })
/-- Domains, credentials, blocks, grants and keys (R382, R384 to R389, R393, R400, R403, Tables 16-5, 16-6 and 16-9). Each message that adds one
makes its entry and no other, with an audit entry; each that takes one away leaves none. -/
def Obligations.SecurityRecordsComeAndGo : Prop :=
  (∀ (s : State) (m : MReq) (d : DomainD), s.hears m (.domainCreate d) = true → d.domain ≠ 0 → d.domain ≤ 1023 → d.projs ≤ 64 →
    AL.get d.domain s.sec.domains = none →
    (((s.heard m).walkChannels (d.domain * 97 % 384) none).findSome? (fun c => ((s.heard m).allocMeta c d.domain 1).map (fun r => (r.1, c, r.2)))).isSome = true →
    ∃ t x, exec (.domainCreate m d) s = .next t ∧ AL.get d.domain t.sec.domains = some ⟨.active, d.creds, d.projs, some x⟩ ∧
      t.domActive d.domain = true ∧ (∀ k, k ≠ d.domain → AL.get k t.sec.domains = AL.get k s.sec.domains) ∧
      t.regI (pgBnch 0) 0x13C d.domain = BitVec.ofNat 32 d.rquota ∧ t.regI (pgBnch 0) 0x134 d.domain = BitVec.ofNat 32 d.bquota ∧
      t.regI (pgStrt 0) 0x134 d.domain = BitVec.ofNat 32 d.squota ∧ t.regI pgXprt 0x18C d.domain = BitVec.ofNat 32 d.regions ∧
      t.answered m 0x0101 stOk 0 [] ∧
      t = { s with
        fresh := t.fresh, mem := t.mem, rf := t.rf, host := t.host, kv := t.kv, sec := t.sec, fw := { s.fw with cores := t.fw.cores }
        integ := { s.integ with pend := t.integ.pend } }) ∧
  (∀ (s : State) (m : MReq) (d : Nat) (r : DomainRec), s.hears m (.domainDestroy d) = true → AL.get d s.sec.domains = some r →
    r.st = .active → d ≠ 0 → s.cmds.list = [] → s.net.conns = [] → s.net.regions = [] → s.net.peers = [] → s.eng.merge = [] →
    (∀ p ∈ s.kv.frames, p.2.cur.domain = d → p.2.pinCur = 0 ∧ p.2.pinOld = 0) →
    ∃ t, exec (.domainDestroy m d) s = .next t ∧ AL.get d t.sec.domains = none ∧
      (∀ k, k ≠ d → AL.get k t.sec.domains = AL.get k s.sec.domains) ∧ (∀ p ∈ t.sec.creds, p.2.domain ≠ d) ∧
      (∀ p ∈ t.sec.keySets, p.2.domain ≠ d) ∧ (∀ p ∈ t.kv.seqs, p.1.1 ≠ d) ∧ (∀ p ∈ t.cmds.ctxs, p.2.domain ≠ d) ∧
      (∀ p ∈ t.kv.shapes, p.1.1 ≠ d) ∧ t.answered m 0x0102 stOk 0 [] ∧
      t = { s with
        fresh := t.fresh, mem := t.mem, rf := t.rf, host := t.host, cmds := { s.cmds with ctxs := t.cmds.ctxs }, net := t.net, kv := t.kv, eng := t.eng
        sec := t.sec, fw := { s.fw with cores := t.fw.cores } }) ∧
  (∀ (s : State) (m : MReq) (id d : Nat) (r : DomainRec) (data : List Byte), s.hears m (.credAdd id d 2 0 data true) = true → d < 1024 →
    AL.get id s.sec.creds = none → AL.get d s.sec.domains = some r → r.st = .active →
    s.sec.creds.countP (fun p => p.2.domain == d) < r.creds → s.sec.creds.length < 65536 →
    ∃ t, exec (.credAdd m id d 2 0 data true) s = .next t ∧ AL.get id t.sec.creds = some ⟨d, 2, data⟩ ∧
      (∀ k, k ≠ id → AL.get k t.sec.creds = AL.get k s.sec.creds) ∧ t.answered m 0x0103 stOk 0 [] ∧
      t = { s with fresh := t.fresh, mem := t.mem, rf := t.rf, host := t.host, sec := t.sec, fw := { s.fw with cores := t.fw.cores } }) ∧
  (∀ (s : State) (m : MReq) (id : Nat) (c : Cred), s.hears m (.credRemove id false) = true → AL.get id s.sec.creds = some c →
    ∃ t, exec (.credRemove m id false) s = .next t ∧ AL.get id t.sec.creds = none ∧
      (∀ k, k ≠ id → AL.get k t.sec.creds = AL.get k s.sec.creds) ∧ t.answered m 0x0104 stOk 0 (leBytes 4 0) ∧
      t = { s with fresh := t.fresh, mem := t.mem, rf := t.rf, host := t.host, sec := t.sec, fw := { s.fw with cores := t.fw.cores } }) ∧
  (∀ (s : State) (m : MReq) (d : ProjD) (r : DomainRec), s.hears m (.projInstall d) = true → d.status = stNotBound →
    AL.get (d.domain, d.handle) s.sec.projs = none → AL.get d.domain s.sec.domains = some r → r.st = .active →
    s.sec.projs.countP (fun p => p.1.1 == d.domain) < r.projs →
    s.rused d.domain + ceilDiv (d.layers * d.heads * d.dn * d.latentWidth * 2) 65536 * 256 ≤ s.rquota d.domain →
    ∃ t, exec (.projInstall m d) s = .next t ∧ ((AL.get (d.domain, d.handle) t.sec.projs).any (fun p => !p.bound)) = true ∧
      t.answered m 0x0105 stNotBound 0 (leBytes 2 d.handle) ∧
      t = { s with fresh := t.fresh, mem := t.mem, rf := t.rf, host := t.host, sec := t.sec, fw := { s.fw with cores := t.fw.cores } }) ∧
  (∀ (s : State) (m : MReq) (d : ProjD) (r : DomainRec), s.hears m (.projInstall d) = true → d.status = stOk →
    AL.get (d.domain, d.handle) s.sec.projs = none → AL.get d.domain s.sec.domains = some r → r.st = .active →
    s.sec.projs.countP (fun p => p.1.1 == d.domain) < r.projs →
    s.rused d.domain + ceilDiv (d.layers * d.heads * d.dn * d.latentWidth * 2) 65536 * 256 ≤ s.rquota d.domain →
    (State.blockChunks d.domain d.handle (ceilDiv (d.layers * d.heads * d.dn * d.latentWidth * 2) 65536) (s.heard m) []).isSome = true →
    ∃ t, exec (.projInstall m d) s = .next t ∧
      ((AL.get (d.domain, d.handle) t.sec.projs).any (fun p => p.bound && p.layers == d.layers && p.data == d.plain)) = true ∧
      t.answered m 0x0105 stOk 0 (leBytes 2 d.handle) ∧
      t = { s with
        fresh := t.fresh, mem := t.mem, rf := t.rf, host := t.host, kv := t.kv, sec := t.sec, fw := { s.fw with cores := t.fw.cores }
        integ := { s.integ with pend := t.integ.pend } }) ∧
  (∀ (s : State) (m : MReq) (d h : Nat) (p : Proj), s.hears m (.projRemove d h) = true → AL.get (d, h) s.sec.projs = some p →
    p.removing = false → s.projUsed d h = false →
    ∃ t, exec (.projRemove m d h) s = .next t ∧ AL.get (d, h) t.sec.projs = none ∧
      (∀ k, k ≠ (d, h) → AL.get k t.sec.projs = AL.get k s.sec.projs) ∧ t.answered m 0x0106 stOk 0 [] ∧
      t = { s with
        fresh := t.fresh, mem := t.mem, rf := t.rf, host := t.host, kv := t.kv, sec := t.sec, fw := { s.fw with cores := t.fw.cores } }) ∧
  (∀ (s : State) (m : MReq) (d g : Nat), s.hears m (.inspectOpen d) = true → d < 1024 → s.domActive d = true →
    (List.range 4).find? (fun g => !AL.has g s.sec.grants) = some g →
    ∃ t, exec (.inspectOpen m d) s = .next t ∧ AL.get g t.sec.grants = some ⟨d, s.nrt, 0, []⟩ ∧ t.sec.debug = s.sec.debug ||| 2 ∧
      t.answered m 0x0107 stOk 0 (leBytes 1 g) ∧
      t = { s with fresh := t.fresh, mem := t.mem, rf := t.rf, host := t.host, sec := t.sec, fw := { s.fw with cores := t.fw.cores } }) ∧
  (∀ (s : State) (m : MReq) (g : Nat) (x : Grant), s.hears m (.inspectClose g) = true → AL.get g s.sec.grants = some x →
    ∃ t, exec (.inspectClose m g) s = .next t ∧ AL.get g t.sec.grants = none ∧ t.answered m 0x0108 stOk 0 (leBytes 8 x.read) ∧
      t = { s with fresh := t.fresh, mem := t.mem, rf := t.rf, host := t.host, sec := t.sec, fw := { s.fw with cores := t.fw.cores } }) ∧
  (∀ (s : State) (g : Nat) (x : Grant), s.awake = true → AL.get g s.sec.grants = some x → x.openedAt + 100000000 * s.inspMax ≤ s.nrt →
    ∃ t, exec (.inspectExpire g) s = .next t ∧ AL.get g t.sec.grants = none ∧
      (∀ k, k ≠ g → AL.get k t.sec.grants = AL.get k s.sec.grants) ∧ t = { s with rf := t.rf, host := t.host, sec := t.sec }) ∧
  (∀ (s : State) (m : MReq) (d n first : Nat) (nonce : BitVec 256) (l : List AuditEntry), s.hears m (.auditExcerpt d n first nonce) = true →
    1 ≤ n → n ≤ 256 → d < 1024 → l = (s.sec.audit.filter (fun e => decide (first ≤ e.seq) && !s.sec.auditLost.contains e.seq)).take n →
    ∃ t, exec (.auditExcerpt m d n first nonce) s = .next t ∧
      t.answered m 0x0109 stOk 0 (leBytes 8 ((l.head?).elim first (·.seq)) ++ leBytes 2 l.length ++ leBytes 6 0 ++
        l.flatMap (excerptSlot d) ++ s.reportBytes nonce) ∧
      t = { s with fresh := t.fresh, mem := t.mem, rf := t.rf, host := t.host, fw := { s.fw with cores := t.fw.cores } }) ∧
  (∀ (s : State) (m : MReq) (slot : Nat) (key : List Byte), s.hears m (.opkProgram slot key) = true → 1 ≤ slot → slot ≤ 3 →
    AL.get slot s.sec.opk = none →
    ∃ t, exec (.opkProgram m slot key) s = .next t ∧ AL.get slot t.sec.opk = some (Config.sha384 key, false) ∧
      (∀ k, k ≠ slot → AL.get k t.sec.opk = AL.get k s.sec.opk) ∧ t.answered m 0x010A stOk 0 [] ∧
      t = { s with fresh := t.fresh, mem := t.mem, rf := t.rf, host := t.host, sec := t.sec, fw := { s.fw with cores := t.fw.cores } }) ∧
  (∀ (s : State) (m : MReq) (slot k : Nat) (h h' : BitVec 384), s.hears m (.opkRevoke slot) = true →
    AL.get slot s.sec.opk = some (h, false) → k ≠ slot → (k, (h', false)) ∈ s.sec.opk →
    ∃ t, exec (.opkRevoke m slot) s = .next t ∧ AL.get slot t.sec.opk = some (h, true) ∧ t.answered m 0x010B stOk 0 [] ∧
      t = { s with fresh := t.fresh, mem := t.mem, rf := t.rf, host := t.host, sec := t.sec, fw := { s.fw with cores := t.fw.cores } })
/-- Images, contexts and the evacuation (R274 to R277, R445 to R449, R453, Tables 18-4, 18-7 and 18-11). FW_STAGE writes the slot that is not
active; FW_ACTIVATE makes it the active one and stops its first core; EVACUATE takes every sequence in order; a context entry is made,
changed and destroyed. -/
def Obligations.ImagesContextsAndEvacuation : Prop :=
  (∀ (s : State) (m : MReq) (k a n : Nat) (i : ImageInfo), s.hears m (.fwStage k a n i) = true → k ≤ 3 → s.fw.activation = none →
    i.ok = true → (s.kind k).fuse ≤ i.arb →
    ∃ t, exec (.fwStage m k a n i) s = .next t ∧ (t.kind k).staged = true ∧ (t.kind k).active = (s.kind k).active ∧
      AL.get (1 - (s.kind k).active) (t.kind k).slots = some (i.version, i.arb) ∧
      t.answered m 0x0110 stOk 0 (leBytes 4 i.version ++ leBytes 4 i.arb) ∧
      t = { s with fresh := t.fresh, mem := t.mem, rf := t.rf, host := t.host, fw := { s.fw with cores := t.fw.cores, kinds := t.fw.kinds } }) ∧
  (∀ (s : State) (m : MReq) (k : Nat), s.hears m (.fwActivate k) = true → k ≤ 3 → s.fw.activation = none → s.fw.evac = none →
    (s.kind k).staged = true → slotOk (s.kind k) (1 - (s.kind k).active) = true → s.running = true → s.emergency = false → (s.core k).up = true →
    ∃ t, exec (.fwActivate m k) s = .next t ∧ (t.kind k).active = 1 - (s.kind k).active ∧ (t.kind k).staged = false ∧
      t.fw.activation = some ⟨k, some m, coresOf k, (s.kind k).active, s.nrt⟩ ∧ (t.core k).up = false ∧ (t.core k).downAt = s.nrt ∧
      t.fw.held = s.fw.held ++ [⟨m, .fwActivate k, true, 0, s.nrt + 20000⟩] ∧
      t = { s with
        fresh := t.fresh, mem := t.mem, rf := t.rf, host := t.host, eng := { s.eng with credits := t.eng.credits }, fw := t.fw }) ∧
  (∀ (s : State) (m : MReq) (d : EvacD), s.hears m (.evacuate d) = true → d.mode ≤ 1 → s.lease.st = .leased → s.fw.evac = none →
    ∃ t, exec (.evacuate m d) s = .next t ∧ t.fw.evac = some ⟨m, d, s.seqOrder, none, 0, 0, []⟩ ∧
      t.fw.held = s.fw.held ++ [⟨m, .evacuate d, true, 0, s.nrt + 20000⟩] ∧ (t.core m.core).busy = true ∧
      t = { s with fresh := t.fresh, mem := t.mem, fw := { s.fw with cores := t.fw.cores, held := t.fw.held, evac := t.fw.evac } }) ∧
  (∀ (s : State) (m : MReq) (i : Nat) (c : Ctx), s.hears m (.ctxCreate i c) = true → ctxFieldsOk i c = true → AL.get i s.cmds.ctxs = none →
    s.domActive c.domain = true →
    ∃ t, exec (.ctxCreate m i c) s = .next t ∧ AL.get i t.cmds.ctxs = some c ∧
      (∀ k, k ≠ i → AL.get k t.cmds.ctxs = AL.get k s.cmds.ctxs) ∧ t.answered m 0x0300 stOk 0 [] ∧
      t = { s with
        fresh := t.fresh, mem := t.mem, rf := t.rf, host := t.host, cmds := { s.cmds with ctxs := t.cmds.ctxs }, fw := { s.fw with cores := t.fw.cores } }) ∧
  (∀ (s : State) (m : MReq) (i : Nat) (c old : Ctx), s.hears m (.ctxModify i c) = true → ctxFieldsOk i c = true →
    AL.get i s.cmds.ctxs = some old → c.domain = old.domain →
    ∃ t, exec (.ctxModify m i c) s = .next t ∧ AL.get i t.cmds.ctxs = some c ∧
      (∀ k, k ≠ i → AL.get k t.cmds.ctxs = AL.get k s.cmds.ctxs) ∧ t.answered m 0x0301 stOk 0 [] ∧
      t = { s with
        fresh := t.fresh, mem := t.mem, rf := t.rf, host := t.host, cmds := { s.cmds with ctxs := t.cmds.ctxs }, fw := { s.fw with cores := t.fw.cores } }) ∧
  (∀ (s : State) (m : MReq) (i : Nat) (c : Ctx), s.hears m (.ctxDestroy i) = true → AL.get i s.cmds.ctxs = some c →
    (∀ x ∈ s.cmds.list, x.hdr.context ≠ i) →
    ∃ t, exec (.ctxDestroy m i) s = .next t ∧ AL.get i t.cmds.ctxs = none ∧
      (∀ k, k ≠ i → AL.get k t.cmds.ctxs = AL.get k s.cmds.ctxs) ∧ t.answered m 0x0302 stOk 0 (leBytes 4 0) ∧
      t = { s with
        fresh := t.fresh, mem := t.mem, rf := t.rf, host := t.host, cmds := { s.cmds with ctxs := t.cmds.ctxs }, kv := t.kv, eng := t.eng
        fw := { s.fw with cores := t.fw.cores } })

/-- The firmware cores (R380, R402, R409, R445, R447 to R449, Table 18-7). A core that reaches UP counts a restart and runs the image that the
boot order gives it, with its trace points off and an empty log; one that falls out of lockstep stops; a start of an activation that
takes longer than 300 ms goes back to the old slot; an activation that an emergency put off goes on when it has passed; the counter rises to
the ARB of an image that has run for 60 s. -/
def Obligations.FirmwareCoresStopAndStart : Prop :=
  (∀ (s : State) (c : Nat), (s.core c).up = false → c ≤ 6 → s.running = true → s.fw.activation = none → s.fw.held = [] →
    ∃ t, exec (.coreReachesUp c) s = .next t ∧ (t.core c).up = true ∧ (t.core c).restarts = min 255 ((s.core c).restarts + 1) ∧
      (t.core c).runAt = s.nrt ∧ (t.core c).trace = 0 ∧ (t.core c).logged = 0 ∧ ((t.core c).version, (t.core c).arb) = s.bootImage c ∧ (c = 0 → t.sec.trngBad = false) ∧
      t = { s with rf := t.rf, host := t.host, sec := t.sec, fw := t.fw, eng := { s.eng with credits := t.eng.credits } }) ∧
  (∀ (s : State) (c : Nat) (a : Activation), (s.core c).up = false → c ≤ 6 → s.running = true → s.fw.activation = some a →
    a.cores = [c] → a.req = none → s.fw.held = [] →
    ∃ t, exec (.coreReachesUp c) s = .next t ∧ (t.core c).up = true ∧ t.fw.activation = none ∧ (t.kind a.kind).last = 1 ∧
      bitOf (t.reg pgMbox 0x20).toNat 15 = true ∧
      t = { s with rf := t.rf, host := t.host, sec := t.sec, fw := t.fw, eng := { s.eng with credits := t.eng.credits } }) ∧
  (∀ (s : State) (c : Nat), s.awake = true → c ≤ 6 → (s.core c).up = true →
    ∃ t, exec (.coreLockstepRestart c) s = .next t ∧ t.core c = { s.core c with up := false, downAt := s.nrt } ∧
      (∀ d, d ≠ c → t.core d = s.core d) ∧
      t = { s with rf := t.rf, host := t.host, fw := { s.fw with cores := t.fw.cores }, eng := { s.eng with credits := t.eng.credits } }) ∧
  (∀ (s : State) (k c : Nat) (a : Activation), s.awake = true → s.fw.activation = some a → a.kind = k → a.req = none → a.cores = [c] →
    (s.core c).up = false → (s.core c).downAt + 30000000 ≤ s.nrt →
    ∃ t, exec (.activationStartTimeout k) s = .next t ∧ t.fw.activation = none ∧ (t.kind k).active = a.old ∧ (t.kind k).last = 5 ∧
      t = { s with rf := t.rf, host := t.host, fw := t.fw }) ∧
  (∀ (s : State) (k t0 : Nat), s.awake = true → s.fw.deferred = [(k, t0)] → s.nrt ≤ t0 + 6000000000 → s.emergency = false →
    s.fw.activation = none → s.fw.evac = none →
    ∃ t, exec (.deferredActivationResume k) s = .next t ∧ t.fw.deferred = [] ∧ (t.kind k).active = 1 - (s.kind k).active ∧
      t.fw.activation = some ⟨k, none, coresOf k, (s.kind k).active, s.nrt⟩ ∧
      t = { s with rf := t.rf, host := t.host, fw := t.fw, eng := { s.eng with credits := t.eng.credits } }) ∧
  (∀ (s : State) (k t0 : Nat), s.awake = true → s.fw.deferred = [(k, t0)] → t0 + 6000000000 < s.nrt →
    ∃ t, exec (.deferredActivationResume k) s = .next t ∧ t.fw.deferred = [] ∧ (t.kind k).last = 3 ∧
      (t.kind k).active = (s.kind k).active ∧ bitOf (t.reg pgMbox 0x20).toNat 15 = true ∧
      t = { s with rf := t.rf, host := t.host, fw := t.fw }) ∧
  (∀ (s : State) (k : Nat), s.awake = true → (∀ c ∈ coresOf k, (s.core c).up = true ∧ (s.core c).runAt + 6000000000 ≤ s.nrt) →
    (s.kind k).fuse < (s.core ((coresOf k).headD 0)).arb →
    ∃ t, exec (.antiRollbackRaise k) s = .next t ∧ t.kind k = { s.kind k with fuse := (s.core ((coresOf k).headD 0)).arb } ∧
      t = { s with rf := t.rf, host := t.host, sec := t.sec, fw := { s.fw with kinds := t.fw.kinds } }) ∧
  (∀ (s : State), s.awake = true → s.secUp = true →
    exec .reportResign s = .next { s with sec := { s.sec with
      report := s.reportBytes 0, reportAt := s.nrt, reportHead := s.sec.auditHead } }) ∧
  (∀ (s : State), s.awake = true → s.sec.auditHead ≠ s.sec.flushed.2 → s.sec.flushedAt + 100000000 ≤ s.nrt →
    exec .auditHeadFlush s = .next { s with sec := { s.sec with flushed := (s.sec.auditSeq - 1, s.sec.auditHead), flushedAt := s.nrt } })

/-- Handshakes (R307 to R312, Tables 13-3 and 13-5). An HS_INIT that nothing refuses reserves a connection index and is answered; one that is refused
is answered with its reason and counted; a proof that verifies, under a credential of the domain, opens the connection with the state of a
new one; one that does not ends the handshake; a handshake that takes too long is forgotten. -/
def Obligations.HandshakesOpenConnections : Prop :=
  (∀ (s : State) (p b : Nat) (h : HsInitD), s.running = true → s.unitAdmits (pgPort p) = true → p < 8 → b < 2 →
    s.hsRefusal h = none →
    ∃ t x y, exec (.hsInit p b h) s = .next t ∧ t.net.half = s.net.half ++ [x] ∧ x.conn = s.freeConnIndex ∧ x.domain = h.domain ∧
      x.credId = h.credId ∧ x.key = s.net.nextHs ∧ x.bornAt = s.nrt ∧ x.peer = ⟨p, b, h.peerAddr, h.udpPort⟩ ∧
      y = s.hsReplyBytes h (AL.getD s.freeConnIndex 0 s.net.gens * 2 ^ 18 + s.freeConnIndex) (Config.randomKey s.fresh) (Config.randomKey (s.fresh + 1)) ∧
      x.th = Config.sha384 (HsInitD.bytes h ++ y) ∧
      t.net.ctl = s.net.ctl ++ (List.range ((y.length - 1) / 4096 + 1)).map (fun i =>
        (0, .hsReply x.peer ((y.length - 1) / 4096) (i * 4096) ((y.drop (i * 4096)).take 4096))) ∧
      t.net.conns = s.net.conns ∧ t.fresh = s.fresh + 2 ∧ t = { s with fresh := t.fresh, net := t.net }) ∧
  (∀ (s : State) (p b : Nat) (h : HsInitD) (r n : Nat), s.running = true → s.unitAdmits (pgPort p) = true → p < 8 →
    b < 2 → s.hsRefusal h = some (r, n) →
    ∃ t, exec (.hsInit p b h) s = .next t ∧ t.net = { s.net with ctl := s.net.ctl ++ [(0, .hsReject ⟨p, b, h.peerAddr, h.udpPort⟩ r n
        (if r = 1 then some (1, 1) else none))] } ∧
      t.reg pgXprt 0x148 = satAdd32 (s.reg pgXprt 0x148) 1 ∧ t = { s with rf := t.rf, net := t.net }) ∧
  (∀ (s : State) (k : Nat) (h : HalfOpen) (b : List Byte), s.running = true → s.net.half.find? (fun x => x.key == k) = some h →
    s.xprtAdmits = true → s.secUp = true → s.nodeFenced = false → s.credOk h = true → h.conn < 2 ^ 18 →
    ∃ t x, exec (.hsFinish k ⟨b, true⟩) s = .next t ∧ t.conn h.conn = some (newConn h (s.prkOf h) (AL.getD h.conn 0 s.net.gens) s.nrt) ∧
      x.drop 16 = leBytes 48 (confirmOf (s.prkOf h) h.th (beBytes 2 b.length ++ b)).toNat ∧
      t.net.half = s.net.half.filter (fun x => x.key != k) ∧ t.net.ctl = s.net.ctl ++ [(h.conn, .hsDone h.peer x)] ∧
      t = { s with net := t.net }) ∧
  (∀ (s : State) (k : Nat) (h : HalfOpen) (b : List Byte), s.running = true → s.net.half.find? (fun x => x.key == k) = some h →
    s.xprtAdmits = true → s.secUp = true → s.nodeFenced = false →
    ∃ t, exec (.hsFinish k ⟨b, false⟩) s = .next t ∧ t.net.conns = s.net.conns ∧ t.net.half = s.net.half.filter (fun x => x.key != k) ∧
      t.net.ctl = s.net.ctl ++ [(0, .hsReject h.peer 2 0 none)] ∧ t = { s with rf := t.rf, net := t.net }) ∧
  (∀ (s : State) (k : Nat), s.running = true →
    ∃ t, exec (.hsTimeout k) s = .next t ∧
      t.net.half = s.net.half.filter (fun h => !(h.key == k && decide (h.bornAt + s.hsMs ≤ s.nrt))) ∧
      t = { s with net := { s.net with half := t.net.half } })
/-- Packets and acknowledgements (R306, R319, R321, R322, R325, R327, R328, Table 13-7). The first packet of a longer request is placed and its PSN
counts as received; one that verifies under no key of the connection is counted and dropped; an ACK frees what it covers; ACK_DELAY sends
the ACK that is due; RECV_BUSY stops a message until its hint has passed and then sends it again; a message that stays incomplete, and one
that the peer abandons, are freed. -/
def Obligations.PacketsArePlacedAndAcknowledged : Prop :=
  (∀ (s : State) (p : DataPkt) (c : Conn), s.running = true → s.unitAdmits (pgPort p.port) = true → p.port < 8 → p.sub < 2 → s.vidOk p.port p.vid = true → s.frameBad p = false → p.lane = 0 → p.first = true →
    p.last = false → p.offset = 0 → 1 ≤ p.npkt → p.npkt ≤ 255 → p.payload.length = 4096 →
    s.conn p.index = some c → c.gen = p.gen → c.cached = true → p.keyGen = some c.genRx → addPath c p.port p.sub p.peerAddr p.udpPort s.nrt = c →
    c.inMsgs = [] → c.skipped = [] → c.held = [] → c.closing = false → (c.composition = 0xFFFF → p.epoch = 0) →
    s.connEpochOk c p.epoch = true → p.msgId = c.nextReq → p.psn = c.rxBase → p.lowPsn ≤ p.psn → c.rxAbove = [] →
    p.npkt + 1 ≤ s.reqFree → s.reasmUse < 8192 →
    ∃ t d m, exec (.data p) s = .next t ∧ t.conn p.index = some d ∧ d.inMsgs = [m] ∧ m.lane = .request ∧ m.msgId = p.msgId ∧
      m.npkt = p.npkt ∧ m.epoch = p.epoch ∧ m.chunks = [(0, p.payload)] ∧ m.complete = false ∧ d.rxBase = p.psn + 1 ∧ d.msgs = c.msgs ∧
      t = { s with rf := t.rf, host := t.host, net := t.net }) ∧
  (∀ (s : State) (p : DataPkt) (c : Conn), s.running = true → s.unitAdmits (pgPort p.port) = true → p.port < 8 → p.sub < 2 → s.vidOk p.port p.vid = true →
    s.frameBad p = false → s.conn p.index = some c → c.gen = p.gen → c.cached = true →
    p.keyGen = none → c.inMsgs = [] → c.skipped = [] → c.held = [] →
    ∃ t, exec (.data p) s = .next t ∧ t.reg pgXprt 0x138 = satAdd32 (s.reg pgXprt 0x138) 1 ∧ t.conn p.index = some c ∧
      t = { s with rf := t.rf, net := { s.net with conns := t.net.conns } }) ∧
  (∀ (s : State) (p : DataPkt) (c : Conn), s.running = true → s.unitAdmits (pgPort p.port) = true → p.port < 8 → p.sub < 2 → s.vidOk p.port p.vid = true →
    s.frameBad p = true → s.conn p.index = some c → c.inMsgs = [] → c.skipped = [] → c.held = [] →
    ∃ t, exec (.data p) s = .next t ∧ t.reg (pgPort p.port) 0x15C = satAdd32 (s.reg (pgPort p.port) 0x15C) 1 ∧ t.conn p.index = some c ∧
      t = { s with rf := t.rf, net := { s.net with conns := t.net.conns } }) ∧
  (∀ (s : State) (i path base : Nat) (c : Conn), s.running = true → s.conn i = some c → c.closeAck = none →
    ∃ t d, exec (.ack i path base [] 0 false) s = .next t ∧ t.conn i = some d ∧ (∀ q ∈ d.unacked, base ≤ q.psn) ∧
      d.inMsgs = c.inMsgs ∧ d.closing = c.closing ∧ t = { s with rf := t.rf, net := { s.net with conns := t.net.conns } }) ∧
  (∀ (s : State) (i : Nat) (c : Conn), s.running = true → s.conn i = some c → c.rxSince ≠ 0 → c.rxOldest + s.ackDelay ≤ s.nrt →
    ∃ t, exec (.ackDelay i) s = .next t ∧ t.conn i = some { c with rxSince := 0, ceSince := 0, rxOldest := 0 } ∧
      t.net.ctl = s.net.ctl ++ [(c.index, .ack c.rxBase (rangesOf c.rxAbove) c.ceSince (c.ceSince != 0) c.rxPath)] ∧
      t = { s with net := t.net }) ∧
  (∀ (s : State) (i id n : Nat) (l : Lane) (c : Conn), s.running = true → s.conn i = some c →
    ∃ t d, exec (.recvBusy i id l n) s = .next t ∧ t.conn i = some d ∧
      (∀ m ∈ d.msgs, m.lane = l → m.msgId = id → m.heldTill = s.nrt + 100 * n) ∧
      (∀ r ∈ d.resend, r.1 ≠ l ∨ r.2.1 ≠ id) ∧ t = { s with net := { s.net with conns := t.net.conns } }) ∧
  (∀ (s : State) (i id : Nat) (l : Lane) (c : Conn) (m : OutMsg), s.running = true → s.conn i = some c →
    c.msgs.find? (fun m => m.lane == l && m.msgId == id) = some m → m.heldTill ≠ 0 → m.heldTill ≤ s.nrt →
    ∃ t d, exec (.recvBusyRetry i id l) s = .next t ∧ t.conn i = some d ∧ (∀ p ∈ d.unacked, p.lane ≠ l ∨ p.msgId ≠ id) ∧
      d.resend = c.resend ++ ((offsetsOf m.bytes.length).filter (fun o => !m.acked.contains o && decide (o < m.next))).map
        (fun o => (l, id, o)) ∧ d.backoff = 0 ∧ t = { s with rf := t.rf, net := { s.net with conns := t.net.conns } }) ∧
  (∀ (s : State) (i id : Nat) (l : Lane) (c : Conn) (m : InMsg), s.running = true → s.conn i = some c → m ∈ c.inMsgs → m.lane = l →
    m.msgId = id → m.complete = false → m.lastAt + s.reasmMs ≤ s.nrt →
    ∃ t d, exec (.reasmTimeout i id l) s = .next t ∧ t.conn i = some d ∧ (∀ x ∈ d.inMsgs, x.lane ≠ l ∨ x.msgId ≠ id) ∧
      t.net.ctl = s.net.ctl ++ [(c.index, .abandon id l 1)] ∧ t.reg pgXprt 0x144 = satAdd32 (s.reg pgXprt 0x144) 1 ∧
      t = { s with rf := t.rf, net := t.net }) ∧
  (∀ (s : State) (i id r : Nat) (l : Lane) (c : Conn), s.running = true → s.conn i = some c →
    (l = .control ∨ (l = .request ∧ (r = 4 ∨ s.outboundOf (connId c) id = none))) →
    ∃ t, exec (.abandon i id l r) s = .next t ∧ t.conn i = some (dropMsg c l id) ∧
      t = { s with net := { s.net with conns := t.net.conns } })
/-- Paths, timers and the ends of connections (R312, R313, R317, R328, R330, R331). A probe is answered, and an answer brings its path up; the timer
probes a path, and takes it down after three probes with no answer, as the loss of link does at once; a timeout of a packet halves the rate
and sends it again; a CLOSE is acknowledged when nothing is left, and the peer's CLOSE_ACK frees the connection that the node closed. -/
def Obligations.PathsAndEndsOfConnections : Prop :=
  (∀ (s : State) (i path : Nat) (src : Path) (c : Conn), s.running = true → s.conn i = some c →
    ∃ t, exec (.pathProbe i path src) s = .next t ∧
      t.conn i = some { addPath c src.port src.sub src.peerAddr src.udpPort s.nrt with usedAt := s.nrt } ∧
      t.net.ctl = s.net.ctl ++ [(i, .probeReply path (pathOf (addPath c src.port src.sub src.peerAddr src.udpPort s.nrt) src.port src.sub src.peerAddr src.udpPort))] ∧ t = { s with net := t.net }) ∧
  (∀ (s : State) (i path : Nat) (c : Conn), s.running = true → s.conn i = some c → path < c.paths.length →
    ∃ t d, exec (.pathReply i path) s = .next t ∧ t.conn i = some d ∧ (d.paths[path]?).any (fun q => q.up && q.probes == 0) = true ∧
      (∀ j, j ≠ path → d.paths[j]? = c.paths[j]?) ∧ t = { s with net := { s.net with conns := t.net.conns } }) ∧
  (∀ (s : State) (i path : Nat) (c : Conn) (q : Path), s.running = true → s.conn i = some c → c.paths[path]? = some q → q.up = true →
    q.probes < 3 → q.probeAt + s.probeUs ≤ s.nrt → (∀ k ∈ c.unacked, k.path ≠ path) →
    ∃ t d, exec (.probeTimer i path) s = .next t ∧ t.conn i = some d ∧
      d.paths[path]? = some { q with probes := q.probes + 1, probeAt := s.nrt } ∧ t.net.ctl = s.net.ctl ++ [(i, .probe path)] ∧
      t = { s with rf := t.rf, net := t.net }) ∧
  (∀ (s : State) (i path : Nat) (c : Conn) (q : Path), s.running = true → s.conn i = some c → c.paths[path]? = some q → q.up = true →
    3 ≤ q.probes → q.probeAt + s.probeUs ≤ s.nrt →
    ∃ t d, exec (.probeTimer i path) s = .next t ∧ t.conn i = some d ∧ (d.paths[path]?).any (fun x => !x.up) = true ∧
      (∀ k ∈ d.unacked, k.path ≠ path) ∧ t = { s with rf := t.rf, net := t.net }) ∧
  (∀ (s : State) (i psn : Nat) (c : Conn) (p : SentPkt), s.running = true → s.conn i = some c →
    c.unacked.find? (fun x => x.psn == psn && decide (x.sentAt + s.rto c ≤ s.nrt)) = some p → c.closeAck = none → c.closeTries < s.retxMax →
    c.backoff + 1 < s.retxMax →
    ∃ t d, exec (.rtoExpire i psn) s = .next t ∧ t.conn i = some d ∧ d.backoff = c.backoff + 1 ∧ d.rate = max s.minRate (c.rate / 2) ∧
      (∀ x ∈ d.unacked, x.psn ≠ psn) ∧ (p.lane, p.msgId, p.offset) ∈ d.resend ∧
      t = { s with rf := t.rf, net := { s.net with conns := t.net.conns } }) ∧
  (∀ (s : State) (i psn : Nat) (c : Conn) (p : SentPkt), s.running = true → s.conn i = some c →
    c.unacked.find? (fun x => x.psn == psn && decide (x.sentAt + s.rto c ≤ s.nrt)) = some p → c.closeAck = none → c.closeTries < s.retxMax →
    s.retxMax ≤ c.backoff + 1 → s.net.outbound = [] → s.eng.jobs = [] →
    ∃ t, exec (.rtoExpire i psn) s = .next t ∧ t.conn i = none ∧ t.reg pgXprt 0x14C = satAdd32 (s.reg pgXprt 0x14C) 1 ∧
      t = { s with rf := t.rf, host := t.host, net := t.net }) ∧
  (∀ (s : State) (i : Nat) (c : Conn), s.running = true → s.conn i = some c → c.ownClose = false → c.closeAck = none → c.msgs = [] →
    (∀ m ∈ c.inMsgs, m.lane = .request → m.complete = false) → (∀ k ∈ s.cmds.list, ∀ m, k.src ≠ .conn c.index m) →
    ∃ t d, exec (.close i) s = .next t ∧ t.conn i = some d ∧ d.closing = true ∧ d.closeAck = some (AL.getD .control 0 c.nextMsg) ∧
      d.msgs.map (fun m => (m.lane, m.bytes)) = [(.control, leBytes 4 3)] ∧ t = { s with net := { s.net with conns := t.net.conns } }) ∧
  (∀ (s : State) (i : Nat) (c : Conn), s.running = true → s.conn i = some c → c.ownClose = true → s.net.outbound = [] → s.eng.jobs = [] →
    ∃ t, exec (.closeAck i) s = .next t ∧ t.conn i = none ∧
      AL.get c.index t.net.gens = some (if c.gen = 62 then 0 else c.gen + 1) ∧
      t = { s with net := { s.net with conns := t.net.conns, gens := t.net.gens, parked := t.net.parked } }) ∧
  (∀ (s : State) (i : Nat) (c : Conn), s.running = true → s.conn i = some c → c.fetching = true → c.inMsgs = [] → c.skipped = [] →
    c.held = [] → (∀ p ∈ s.net.parked, p.index ≠ c.index) →
    ∃ t, exec (.connFetchDone i) s = .next t ∧ t.conn i = some { c with cached := true, fetching := false, usedAt := s.nrt } ∧
      t = { s with net := { s.net with conns := t.net.conns } }) ∧
  (∀ (s : State) (p b : Nat), s.running = true → p < 8 → b < 2 → s.linkUp p b = true →
    ∃ t, exec (.sublinkLinkLoss p b) s = .next t ∧ t.linkUp p b = false ∧
      (∀ i d, t.conn i = some d → ∀ q ∈ d.paths, q.port = p → q.sub = b → q.up = false) ∧
      t = { s with rf := t.rf, host := t.host, net := { s.net with conns := t.net.conns } }) ∧
  (∀ (s : State) (p b : Nat), s.running = true → p < 8 → b < 2 →
    ∃ t, exec (.portLinkUp p b) s = .next t ∧ t.linkUp p b = true ∧
      t = { s with rf := t.rf, host := t.host, net := { s.net with conns := t.net.conns } })
/-- Egress (R301, R362 to R371, Tables 15-3 and 15-4). The pacer puts the next packet of a connection into the queue of its domain and kind under the
next PSN, behind a 32-byte header in network byte order; the scheduler sends control packets first, while their credit lasts, then the head of a queue; each microsecond gives a shaped
queue and a policed domain its credit; a request for the node's own address is answered. -/
def Obligations.EgressSendsInOrder : Prop :=
  (∀ (s : State) (i : Nat) (c : Conn) (m : OutMsg) (pt : Path), s.running = true → s.conn i = some c → c.resend = [] → c.msgs = [m] →
    m.next = 0 → m.heldTill ≤ s.nrt → c.paths = [pt] → pt.up = true → c.pacedAt ≤ s.nrt → s.nodeFenced = false → c.psnTx < 2 ^ 30 - 1 →
    (∀ p ∈ c.genMsg, p.2 < 2 ^ 22 - 1) → m.lane = .response → m.bytes.length ≤ 4096 →
    (s.egQueue pt.port pt.sub (c.domain * 4 + 1)).pkts = [] → s.unitAdmits (pgEgrs pt.port) = true →
    ∃ t d k, exec (.pacerRelease i) s = .next t ∧ t.conn i = some d ∧ d.psnTx = c.psnTx + 1 ∧
      d.unacked = c.unacked ++ [⟨c.psnTx, .response, m.msgId, 0, m.bytes.length, 0, s.nrt, false, 0⟩] ∧
      (t.egQueue pt.port pt.sub (c.domain * 4 + 1)).pkts = [k] ∧ k.psn = c.psnTx ∧ k.payload = m.bytes ∧ k.msgId = m.msgId ∧
      k.conn = connId c ∧ k.head.length = 32 ∧ k.cipher.length = m.bytes.length + 16 ∧ k.peerAddr = pt.peerAddr ∧ (k.head.drop 4).take 3 = beBytes 3 c.peerConn ∧
      (k.head.drop 8).take 4 = beBytes 4 c.psnTx ∧ (k.head.drop 12).take 3 = beBytes 3 m.msgId ∧ t = { s with net := { s.net with conns := t.net.conns }, egress := t.egress }) ∧
  (∀ (s : State) (p b c : Nat) (k : CtlPkt) (rest : List (Nat × CtlPkt)), s.running = true → p < 8 → b < 2 →
    s.fld (pgPort p) 0x104 (4 + b) 1 = 1 → s.unitAdmits (pgPort p) = true → s.net.ctl = (c, k) :: rest → s.ctlSub c k = (p, b) →
    0 ≤ (s.egSub p b).ctl → (s.egSub p b).v ≤ 2 ^ 31 →
    ∃ t, exec (.egressSelect p b) s = .next t ∧ t.net.ctl = rest ∧ t.egress.wire = s.egress.wire ++
        [(p, b, s.porisTo p b (s.ctlEnd c k).addr 2, .ctl c (s.ctlHead c k).bytes (s.ctlBody c k) k)] ∧
      (t.egSub p b).ctl = (s.egSub p b).ctl - s.ctlBytes c k ∧ t.egress.queues = s.egress.queues ∧
      t.net = ({ s with net := { s.net with ctl := rest } }.ctlSent c k).net ∧
      t = { s with rf := t.rf, net := { s.net with ctl := rest, conns := t.net.conns }, egress := t.egress }) ∧
  (∀ (s : State) (p b q : Nat) (x : EgQueue) (k : EgPkt) (rest : List EgPkt), s.running = true → p < 8 → b < 2 →
    s.fld (pgPort p) 0x104 (4 + b) 1 = 1 → s.unitAdmits (pgPort p) = true → s.net.ctl = [] → (s.egSub p b).v ≤ 2 ^ 31 →
    s.nodeFenced = false → s.egress.queues = [((p, b, q), x)] → x.pkts = k :: rest → 0 ≤ x.credit → q % 4 ≠ 3 →
    ∃ t, exec (.egressSelect p b) s = .next t ∧ t.egress.wire = s.egress.wire ++ [(p, b, s.porisTo p b k.peerAddr (laneNum k.lane), .data k)] ∧ (t.egQueue p b q).pkts = rest ∧
      (t.egQueue p b q).credit = (if s.qShaped p q then x.credit - k.bytes else x.credit) ∧
      (t.egSub p b).v = max (s.egSub p b).v k.start ∧ t = { s with rf := t.rf, egress := t.egress }) ∧
  (∀ (s : State), s.running = true → s.rf.shadow = [] →
    ∃ t, exec .creditRefill s = .next t ∧
      (∀ p b q x, p < 8 → AL.get (p, b, q) s.egress.queues = some x → s.qShaped p q = true →
        AL.get (p, b, q) t.egress.queues = some { x with
          credit := min (refill (!x.pkts.isEmpty) (s.qRate p q) (s.qHicred p q) x.credit) (s.qHicred p q) }) ∧
      (∀ p b q, s.qShaped p q = false → AL.get (p, b, q) t.egress.queues = AL.get (p, b, q) s.egress.queues) ∧
      (∀ d c, d < 1024 → s.dPoliced d = true → AL.get d s.egress.doms = some c →
        AL.get d t.egress.doms = some (refill true (s.dRate d) (s.dBurst d) c)) ∧
      t.egress.wire = s.egress.wire ∧ t = { s with rf := t.rf, egress := t.egress }) ∧
  (∀ (s : State) (p b kind dst src : Nat) (v : Option Nat) (d : List Byte), s.running = true → s.unitAdmits (pgPort p) = true → p < 8 → b < 2 →
    s.vidOk p v = true → s.ownAddress p b kind dst = true →
    ∃ t, exec (.arpNsEchoRequest p ⟨b, v⟩ kind dst src d) s = .next t ∧
      t.egress.wire = s.egress.wire ++
        [(p, b, ⟨s.vlanTag p, none, src, none⟩, .answer kind src (if kind < 2 then leBytes 6 ((Config.macAddr p).toNat + b) else d))] ∧
      t = { s with rf := t.rf, egress := { s.egress with wire := t.egress.wire } }) ∧
  (∀ (s : State) (p b kind dst src : Nat) (v : Option Nat) (d : List Byte), s.running = true → s.unitAdmits (pgPort p) = true → p < 8 → b < 2 →
    (s.vidOk p v = false ∨ s.ownAddress p b kind dst = false) →
    ∃ t, exec (.arpNsEchoRequest p ⟨b, v⟩ kind dst src d) s = .next t ∧ t = { s with rf := t.rf }) ∧
  (∀ (s : State) (p b kind dst src : Nat) (v : Option Nat) (d : List Byte), s.running = true → s.unitAdmits (pgPort p) = false →
    exec (.arpNsEchoRequest p ⟨b, v⟩ kind dst src d) s = .next s)

/-- Codewords (R255, R258, R259, R262, R267, R268, R402, Tables 2-2, 11-3). A merge-buffer entry whose time has come is written as one codeword that
decodes clean, where its read corrects after the correction has been counted, or, where its read meets an error, as poison; a scrub read
that is clean notes the place, and a place read again ends the pass, which is counted; one that corrects is counted, charged to its lane and
written back, one that does not decode poisons its sealed frame; a pass that is late is reported; a bucket leaks by one; a failed health test
of the entropy source stops it. -/
def Obligations.CodewordsAreWrittenAndScrubbed : Prop :=
  (∀ (s : State) (ch addr a : Nat) (e : PendWrite), s.running = true →
    wordBase (if ch < 384 then rackAddr ch addr else benchAddr (ch - 384) addr) = a →
    s.integ.pend.find? (fun x => x.addr == a) = some e → e.since + 26 ≤ s.nrt → s.wordOutcome a = .clean →
    s.fld (errPage a) (flipCtl (isBench a)) 2 1 = 0 →
    ∃ t, exec (.mergeBufferFlush ch addr false) s = .next t ∧ t.integ.pend = s.integ.pend.filter (fun x => x.addr != a) ∧
      t.wordOutcome a = .clean ∧ t = { s with kv := { s.kv with codes := t.kv.codes }, integ := t.integ }) ∧
  (∀ (s : State) (ch addr a : Nat) (e : PendWrite), s.running = true →
    wordBase (if ch < 384 then rackAddr ch addr else benchAddr (ch - 384) addr) = a →
    s.integ.pend.find? (fun x => x.addr == a) = some e → e.since + 26 ≤ s.nrt →
    s.fld (errPage a) (flipCtl (isBench a)) 2 1 = 0 →
    ∃ t, exec (.mergeBufferFlush ch addr true) s = .next t ∧ t.integ.pend = s.integ.pend.filter (fun x => x.addr != a) ∧
      t.wordOutcome a = .poison ∧ t = { s with rf := t.rf, host := t.host, kv := t.kv, integ := t.integ }) ∧
  (∀ (s : State) (ch addr a lane : Nat) (e : PendWrite), s.running = true → ch < 384 → addr < 2 ^ 31 → wordBase (rackAddr ch addr) = a →
    s.integ.pend.find? (fun x => x.addr == a) = some e → e.since + 26 ≤ s.nrt → s.wordOutcome a = .corrected [lane] →
    s.fld (errPage a) (flipCtl (isBench a)) 2 1 = 0 →
    ∃ t, exec (.mergeBufferFlush ch addr false) s = .next t ∧ t.integ.pend = s.integ.pend.filter (fun x => x.addr != a) ∧
      t.reg (pgMchn ch) 0x190 = satAdd32 (s.reg (pgMchn ch) 0x190) 1 ∧
      AL.getD (ch, lane) 0 t.integ.lanes % 65536 = min 0xFFFF (AL.getD (ch, lane) 0 s.integ.lanes % 65536 + 1) ∧
      t.wordOutcome a = .clean ∧ (∀ f, t.page f = s.page f) ∧
      t = { s with
        fresh := t.fresh, rf := t.rf, host := t.host, kv := { s.kv with frames := t.kv.frames, codes := t.kv.codes }, integ := t.integ
        fw := { s.fw with laneLog := t.fw.laneLog } }) ∧
  (∀ (s : State) (ch addr : Nat) (ue : Bool), s.running = true → (∀ e ∈ s.integ.pend, s.nrt < e.since + 26) →
    exec (.mergeBufferFlush ch addr ue) s = .next s) ∧
  (∀ (s : State) (tile : Nat) (x : ScrubTarget) (o : ScrubOutcome), s.running = true → s.scrubs tile x = false →
    exec (.scrubRead tile x o) s = .next s) ∧
  (∀ (s : State) (tile ch b : Nat) (seen : List Nat), s.running = true → s.scrubs tile (.rack ch b) = true →
    s.wordOutcome (wordBase (rackAddr ch b)) = .clean → AL.getD (tile, 0) [] s.integ.seen = seen →
    wordBase (rackAddr ch b) ∉ seen →
    exec (.scrubRead tile (.rack ch b) .clean) s =
      .next { s with integ := { s.integ with seen := AL.put (tile, 0) (seen ++ [wordBase (rackAddr ch b)]) s.integ.seen } }) ∧
  (∀ (s : State) (tile i : Nat) (e : SramEntry), s.running = true → s.scrubs tile (.sram e i) = true → tile < 24 →
    i * 16 + sramArray e ∈ AL.getD (tile, 2) [] s.integ.seen →
    ∃ t, exec (.scrubRead tile (.sram e i) .clean) s = .next t ∧ t.reg (pgScrb tile) 0x124 = satAdd32 (s.reg (pgScrb tile) 0x124) 1 ∧
      AL.get (pgScrb tile, 0x10C, 0) t.rf.shadow = none ∧
      t = { s with rf := t.rf, integ := { s.integ with
        passes := AL.put (tile, 2) s.nrt s.integ.passes, seen := AL.put (tile, 2) [i * 16 + sramArray e] s.integ.seen } }) ∧
  (∀ (s : State) (tile ch b lane a : Nat), s.running = true → tile < 24 → s.scrubs tile (.rack ch b) = true → b < 2 ^ 31 →
    a = wordBase (rackAddr ch b) →
    s.wordOutcome a = .clean → s.laneFlagged ch lane = false → s.fld (pgMchn ch) 0x188 2 1 = 0 →
    ∃ t, exec (.scrubRead tile (.rack ch b) (.corrected lane)) s = .next t ∧
      t.reg (pgMchn ch) 0x190 = satAdd32 (s.reg (pgMchn ch) 0x190) 1 ∧
      AL.getD (ch, lane) 0 t.integ.lanes % 65536 = min 0xFFFF (AL.getD (ch, lane) 0 s.integ.lanes % 65536 + 1) ∧
      t.wordOutcome a = .clean ∧ (∀ f, t.page f = s.page f) ∧
      t = { s with
        fresh := t.fresh, rf := t.rf, host := t.host, kv := { s.kv with frames := t.kv.frames, codes := t.kv.codes }, integ := t.integ
        fw := { s.fw with laneLog := t.fw.laneLog } }) ∧
  (∀ (s : State) (tile ch b f : Nat) (x : Frame), s.running = true → tile < 24 → s.scrubs tile (.rack ch b) = true → b < 2 ^ 31 →
    s.frameAt (wordBase (rackAddr ch b)) = some f → frameChannel f = ch → s.frame f = some x → x.cur.st = .sealed → x.cur.fCkptCurrent = false →
    x.cur.share ≠ 0 →
    ∃ t y, exec (.scrubRead tile (.rack ch b) .uncorrectable) s = .next t ∧ t.frame f = some y ∧ y.cur.st = .poisoned ∧
      y.cur.payload = x.cur.payload ∧ bitOf (t.reg (pgScrb tile) 0x20).toNat 1 = true ∧ t.eng = s.eng ∧ t.cmds = s.cmds ∧ t.net = s.net) ∧
  (∀ (s : State) (tile kind : Nat), s.running = true → tile < 24 → kind < 3 →
    AL.getD (tile, kind) 0 s.integ.passes + max (if kind = 0 then 60 else if kind = 1 then 10 else 1)
      (s.fld (pgScrb tile) (if kind = 0 then 0x104 else if kind = 1 then 0x108 else 0x10C) 0 12) * 100000000 < s.nrt →
    ∃ t, exec (.scrubPassLate tile kind) s = .next t ∧ bitOf (t.reg (pgScrb tile) 0x20).toNat 3 = true ∧
      t.reg (pgScrb tile) 0x40 = satAdd32 (s.reg (pgScrb tile) 0x40) 1 ∧
      t = { s with rf := t.rf, host := t.host }) ∧
  (∀ (s : State) (pg : Nat), s.powerGood = true → (pageType pg).isSome = true → s.nrt % (100000 * (s.fld pg 0x44 16 8 + 1)) = 0 →
    ∃ t, exec (.bucketLeakTick pg) s = .next t ∧ t.fld pg 0x44 0 8 = s.fld pg 0x44 0 8 - 1 ∧
      t = { s with rf := t.rf, eng := { s.eng with credits := t.eng.credits } }) ∧
  (∀ (s : State) (test : Nat), s.powerGood = true →
    ∃ t, exec (.trngFail test) s = .next t ∧ t.sec = { s.sec with trngBad := true } ∧
      t.reg pgSecc 0x40 = satAdd32 (s.reg pgSecc 0x40) 1 ∧ t = { s with rf := t.rf, host := t.host, sec := t.sec })

/-- Lost content (R251, R252, R254, R260, R268, R318, Tables 6-12, 10-11, 11-2, 11-3). A command that needs a sequence record which is lost ends with ST_POISONED;
so does an insert whose walk meets a lost level table, which the translation unit captures; an attention command ends with it in the
partial that it leaves; a source that may not use the domain is refused before that; a page that a fragment cannot read ends the
fragment; a write-back of lost content poisons the codewords in Rack that it should have filled, and its frame; a lost word of a starter
entry takes the entry with it and leaves its frame's share; a lost entry of the connection cache ends the connection and notes it. -/
def Obligations.LostContentIsContained : Prop :=
  (∀ (s e : State) (q : Req) (op : Op) (i : Instr), ((∃ a, op = .append a ∧ i = .append q a) ∨ (∃ k, op = .sealOp k ∧ i = .sealOp q k) ∨
      (∃ d, op = .pageRead d ∧ i = .pageRead q d) ∨
      (∃ a, op = .fork a ∧ i = .fork q a) ∨ (∃ a, op = .compact a ∧ i = .compact q a) ∨ (∃ k, op = .seqPark k ∧ i = .seqPark q k) ∨
      (∃ k, op = .seqResume k ∧ i = .seqResume q k) ∨ (∃ a, op = .seqMigrate a ∧ i = .seqMigrate q a) ∨
      (∃ a, op = .ckptExport a ∧ i = .ckptExport q a) ∨ (∃ a, op = .prefixInsert a ∧ i = .prefixInsert q a) ∨
      (∃ a, op = .prefixRemove a ∧ i = .prefixRemove q a)) →
    s.admits q op = true → e = s.admitted q op → e.hasRecords q.hdr.domain op = false → barred (s.newCmd q op false) = false →
    exec i s = .next (e.finish (s.newCmd q op false) { status := stPoisoned })) ∧
  (∀ (s e : State) (q : Req) (op : Op) (i : Instr), ((∃ a, op = .append a ∧ i = .append q a) ∨ (∃ k, op = .sealOp k ∧ i = .sealOp q k) ∨
      (∃ a, op = .fork a ∧ i = .fork q a) ∨ (∃ a, op = .prefixInsert a ∧ i = .prefixInsert q a) ∨
      (∃ a, op = .prefixRemove a ∧ i = .prefixRemove q a)) →
    s.admits q op = true → e = s.admitted q op → barred (s.newCmd q op false) = true →
    exec i s = .next (e.finish (s.newCmd q op false) { status := stAccess })) ∧
  (∀ (s e : State) (q : Req) (d : AttnD) (r : SeqRec) (b : List Byte), s.admits q (.attnFwd d) = true →
    e = s.admitted q (.attnFwd d) → e.hasRecords q.hdr.domain (.attnFwd d) = false → e.attnCheck q.hdr q.src false d q.data = .ok (r, b) →
    d.level = 0 → d.mergeConn = 0xFFFFFF →
    (d.partialAddr = 0 ∨ e.outputRefused q.src q.hdr.domain d.partialAddr (if q.hdr.flag 1 then 1048512 else
      128 + 8 * d.rows + d.rows * attnDv (e.shape q.hdr.domain r.shapeId) * (if d.ofmt = 1 then 2 else 4)) = none) →
    ∃ p : PartialRec, p.status = stPoisoned ∧ p.tokens = 0 ∧ p.pages = 0 ∧ p.tag = q.hdr.tag ∧
      exec (.attnFwd q d) s = .next (e.finish (s.newCmd q (.attnFwd d) false)
        { status := stPoisoned, covE := if d.targetLevel = 3 then d.expect else 0, addr := d.partialAddr, out := p.bytes })) ∧
  (∀ (s e : State) (q : Req) (a : PrefixD) (r : SeqRec), s.admits q (.prefixInsert a) = true → e = s.admitted q (.prefixInsert a) →
    e.hasRecords q.hdr.domain (.prefixInsert a) = true → publicRefused q.src q.hdr.domain = false →
    e.seqRec q.hdr.domain a.seq = some r → r.baseVpn ≤ a.vpn →
    a.vpn < r.baseVpn + rangeLen r.layers r.kvHeads r.pmaxLog2 (e.shape q.hdr.domain r.shapeId) →
    AL.get (q.hdr.domain, a.vpn) e.kv.ttlb = none → e.walkLost q.hdr.domain a.vpn = true →
    ∃ u : State, exec (.prefixInsert q a) s = .next (u.finish (s.newCmd q (.prefixInsert a) false) { status := stPoisoned }) ∧
      u.reg pgXlat 0x40 = satAdd32 (e.reg pgXlat 0x40) 1 ∧
      (e.fld pgXlat 0x30 31 1 = 0 → u.reg pgXlat 0x30 = BitVec.ofNat 32 (2 ^ 31 + 2 ^ 16 + q.hdr.domain % 65536) ∧
        u.reg pgXlat 0x3C = BitVec.ofNat 32 a.vpn) ∧ u = { e with rf := u.rf, host := u.host }) ∧
  (∀ (s : State) (i e : Nat) (f : Frag) (j : AttnJob) (fp : FragPage) (x : Frame), s.running = true → s.frag i = some f →
    f.id = i → f.st = .running e → s.job f.cmd = some j →
    f.pages[f.next]? = some fp → s.frame fp.frame = some x → (s.readFrame fp.frame (f.queue == 16) 4).2 = true →
    ∃ t, exec (.fragmentPageDone i true) s = .next t ∧ t.frag i = some { f with status := stPoisoned, next := f.pages.length } ∧
      t.cmds = s.cmds ∧ t.job f.cmd = some j ∧ t.eng = { s.eng with frags := t.eng.frags }) ∧
  (∀ (s : State) (tile set way i b : Nat) (q : Nat) (l : Line) (x : Frame), s.running = true → tile < 24 →
    (s.linesOf tile set).find? (fun l => l.way == way) = some l → l.wb = some (q, false) → i < 4 → bitOf q i = true → b < 512 →
    AL.get (lineAddr l + (4096 + i * 16384 + b * 32)) s.kv.codes = some .poison → s.frame l.frame = some x → x.num = l.frame →
    x.cur.crumbLoc = false → (x.cur.st = .opened ∨ x.cur.st = .sealed) → x.cur.fCkptCurrent = false → x.cur.share ≠ 0 →
    (∀ k ∈ s.kv.lines, k.tile = tile → k.draining = false) →
    ∃ (u : State) (y : Frame), exec (.writebackComplete tile set way) s = .next { u.lookAll with pending := s.pending, nrt := s.nrt } ∧
      u.wordOutcome (wordBase (rackAddr (frameChannel l.frame) (x.cur.loc * 4096) + i * 16384 + b * 32)) = .poison ∧
      u.frame l.frame = some y ∧ y.cur.st = .poisoned ∧ y.cur.fPoison = true ∧
      u = { s with rf := u.rf, host := u.host, kv := u.kv, integ := { s.integ with pend := u.integ.pend } }) ∧
  (∀ (s : State) (b set way n f : Nat) (x : StEntry), s.running = true → s.scrubs 0 (.sram (.starter b set way false) n) = true →
    AL.get (b, set, way) s.kv.starter = some x → x.frame = f →
    ∃ t, exec (.scrubRead 0 (.sram (.starter b set way false) n) .uncorrectable) s = .next t ∧
      t.kv = { s.kv with starter := AL.del (b, set, way) s.kv.starter } ∧ t.page f = s.page f ∧
      bitOf (t.reg (pgScrb 0) 0x20).toNat 1 = true ∧
      t = { s with rf := t.rf, host := t.host, kv := t.kv, integ := { s.integ with passes := t.integ.passes, seen := t.integ.seen } }) ∧
  (∀ (s : State) (i n : Nat) (c : Conn), s.running = true → s.scrubs 0 (.sram (.connCache i) n) = true →
    s.conn i = some c → c.index = i → c.cached = true → s.net.outbound = [] → s.eng.jobs = [] →
    ∃ t, exec (.scrubRead 0 (.sram (.connCache i) n) .uncorrectable) s = .next t ∧ t.conn i = none ∧
      t.net.lost = s.net.lost ++ [connId c] ∧ t.reg pgXprt 0x14C = satAdd32 (s.reg pgXprt 0x14C) 1 ∧
      bitOf (t.reg (pgScrb 0) 0x20).toNat 1 = true ∧
      t = { s with rf := t.rf, host := t.host, net := t.net, integ := { s.integ with passes := t.integ.passes, seen := t.integ.seen } })

/-- Faults of units (R17, R40, R245, R408, R410, R414, Table 17-2). A busy block whose enabled watchdog runs out is fenced and says so; a bus watchdog
fences the near-memory unit that hung, or the tile whose merge or append unit did; an island that does not answer is recorded in the NODE
page and fenced, and a link's goes down; the read that was abandoned completes with an error and ones, and a channel whose handshake is lost
fails;
duplicated control that disagrees fences its unit, and in the node core the node; a lost rail fences its quadrant, or the node. -/
def Obligations.FaultsOfUnitsFenceThem : Prop :=
  (∀ (s : State) (pg : Nat), s.running = true → s.kv.codes = [] → (pageType pg).isSome = true → s.fld pg 0x50 31 1 = 1 → s.pageFenced pg = false →
    s.pageBusy pg = true → s.busWaits pg = false →
    ∃ t, exec (.watchdogFire pg) s = .next t ∧ t.pageFenced pg = true ∧ t.fld pg 0x50 30 1 = 1 ∧ t.fw = s.fw ∧ t.pw = s.pw ∧
      bitOf (t.reg pg 0x20).toNat 28 = true) ∧
  (∀ (s : State) (tile r beats : Nat), s.running = true → s.kv.codes = [] → tile < 24 → r < 16 → s.tileFenced tile = false →
    ∃ t, exec (.busWatchdogBite tile r beats) s = .next t ∧ t.pageFenced (pgNbun (tile * 16 + r)) = true ∧
      t.reg (pgCbar tile) 0x118 = satAdd32 (s.reg (pgCbar tile) 0x118) 1 ∧ bitOf (t.reg (pgCbar tile) 0x20).toNat 0 = true ∧
      t = { s with
        rf := t.rf, host := t.host, kv := t.kv, eng := t.eng
        integ := { s.integ with bus := AL.del tile s.integ.bus, pend := t.integ.pend } }) ∧
  (∀ (s : State) (tile r beats : Nat), s.running = true → tile < 24 → (r = 16 ∨ r = 17) → s.tileFenced tile = false →
    ∃ t, exec (.busWatchdogBite tile r beats) s = .next t ∧ t.tileFenced tile = true ∧
      t.reg (pgCbar tile) 0x118 = satAdd32 (s.reg (pgCbar tile) 0x118) 1 ∧ bitOf (t.reg (pgCbar tile) 0x20).toNat 0 = true ∧
      t.lease = s.lease ∧ t.pw = s.pw) ∧
  (∀ (s : State) (n : Nat) (x : Abandoned), s.running = true → n < 8 →
    ∃ t, exec (.bridgeTimeout ⟨.port n, x⟩) s = .next t ∧ t.pageFenced (pgPort n) = true ∧ t.fld pgNode 0x144 n 1 = 1 ∧
      bitOf (t.reg pgNode 0x20).toNat 0 = true ∧ t = { s with rf := t.rf, host := t.host, net := t.net, sec := t.sec }) ∧
  (∀ (s : State) (l : Link) (x : Abandoned), s.running = true →
    ∃ t, exec (.bridgeTimeout ⟨.hlnk l, x⟩) s = .next t ∧ t.linkTalks l = false ∧ t.fld pgNode 0x144 (8 + Link.num l) 1 = 1 ∧ t = { s with rf := t.rf, host := t.host, sec := t.sec }) ∧
  (∀ (s : State) (tile : Nat) (x : Abandoned), s.running = true → s.kv.codes = [] → tile < 24 →
    ∃ t, exec (.bridgeTimeout ⟨.tile tile, x⟩) s = .next t ∧ t.tileFenced tile = true ∧ t.fld pgNode 0x140 tile 1 = 1 ∧
      t.lease = s.lease ∧ t.integ = s.integ ∧ t.pw = s.pw) ∧
  (∀ (s : State) (q i : Nat) (x : Abandoned), s.running = true → q < 4 → i < 6 →
    ∃ t, exec (.bridgeTimeout ⟨.bench q, x⟩) s = .next t ∧ t.tileFenced (6 * q + i) = true ∧ t.fld pgNode 0x144 (12 + q) 1 = 1 ∧
      t.lease = s.lease) ∧
  (∀ (s : State) (c : Nat) (x : Abandoned), s.running = true → c < 384 → s.pageFenced (pgMchn c) = false →
    ∃ t, exec (.bridgeTimeout ⟨.channel c, x⟩) s = .next t ∧ t.pageFenced (pgMchn c) = true ∧
      t = { s with rf := t.rf, host := t.host, kv := t.kv, sec := t.sec }) ∧
  (∀ (s : State) (i : Island) (l : Link) (p : RegSpan) (tag : Nat), s.running = true → s.linkTalks l = true →
    exec (.bridgeTimeout ⟨i, .read (.host l) p tag⟩) s =
      exec (.bridgeTimeout ⟨i, .unanswered⟩) (s.hostCpl l tag false (List.replicate p.bytes 0xFF))) ∧
  (∀ (s : State) (c : Nat) (x : Abandoned), s.running = true → c < 7 →
    ∃ t, exec (.bridgeTimeout ⟨.core c, x⟩) s = .next t ∧ t.fld pgNode 0x144 (16 + c) 1 = 1 ∧
      t = { s with rf := t.rf, host := t.host }) ∧
  (∀ (s : State), s.running = true → s.kv.codes = [] → s.nodeFenced = false →
    ∃ t, exec (.controlMismatch .node) s = .next t ∧ t.nodeFenced = true ∧ t.lease.cause = 3 ∧ t.integ = s.integ ∧ t.pw = s.pw) ∧
  (∀ (s : State) (tile c : Nat), s.running = true → tile < 24 → c < 16 → s.pageFenced (pgMchn (tile * 16 + c)) = false →
    ∃ t, exec (.controlMismatch (.page (pgMchn (tile * 16 + c)))) s = .next t ∧ t.pageFenced (pgMchn (tile * 16 + c)) = true ∧
      t = { s with rf := t.rf, host := t.host, kv := t.kv, sec := t.sec }) ∧
  (∀ (s : State) (q i : Nat), s.running = true → q < 4 → i < 6 →
    ∃ t, exec (.railFault (.quadrant q)) s = .next t ∧ t.tileFenced (6 * q + i) = true ∧ t.lease = s.lease) ∧
  (∀ (s : State), s.running = true → s.kv.codes = [] → s.nodeFenced = false →
    ∃ t, exec (.railFault .node) s = .next t ∧ t.nodeFenced = true ∧ t.lease.cause = 4 ∧ t.integ = s.integ ∧ t.pw = s.pw)

/-- Crumb and Bench (R79, R104 to R107, R225, R228 to R231, Table 4-10). The tile's Crumb unit takes the sealed page that has waited longest and packs
it; the commit makes it SEALED and packed in its slot, its pins those of the source form, and its entries PACKED; a pin is released from
its counter, and with the last old one the source chunk goes; a draining line goes with the last pin of its frame; a sweep ages the tile's
lines; a write-back leaves Rack with the quarters and the record that it copied, and releases its pin; a fetch and a promotion bring a line in, and a fetch that finds none counts NOLINE. What is read here is as it was encoded. -/
def Obligations.LinesAndPackedPages : Prop :=
  (∀ (s : State) (tile f : Nat), s.running = true → tile < 24 → s.tileFenced tile = false → s.unitAdmits (pgCrmb tile) = true →
    s.kv.packQ.find? (fun f => frameTile f == tile) = some f → s.badWords f (s.inBench f) = [] →
    ∃ t, exec (.crumbPackStart tile) s = .next t ∧ t.kv.packQ = s.kv.packQ.filter (fun g => g != f) ∧
      AL.get f t.kv.packing = some (crumbPack (s.shape (s.page f).domain (s.page f).shapeId) (s.page f).shapeId
        ((s.commitShadow (pgCrmb tile)).fld (pgCrmb tile) 0x100 0 1 == 1) (s.page f)) ∧
      (∀ x, s.frame f = some x → x.num = f → t.frame f = some { x with pinCur := x.pinCur + 1 }) ∧
      t = { s with rf := t.rf, kv := { s.kv with packQ := t.kv.packQ, packing := t.kv.packing, frames := t.kv.frames } }) ∧
  (∀ (s u : State) (f loc : Nat) (c : CrumbPage) (x : Frame), s.running = true → s.kv.codes = [] → AL.get f s.kv.packing = some c → s.frame f = some x →
    x.num = f → x.cur.st = .sealing → x.cur.share ≠ 0 →
    s.allocCrumb (frameChannel f) x.cur.domain (s.shape x.cur.domain x.cur.shapeId).slotBytes = some (u, loc) →
    ∃ t y, exec (.crumbPackCommit f) s = .next t ∧ t.frame f = some y ∧ y.cur.st = .sealed ∧ y.cur.fPacked = true ∧ y.cur.crumbLoc = true ∧
      y.cur.loc = loc ∧ y.cur.crumbHdr = c.header ∧ y.cur.payload = Mem.writeN 0 c.stream [] ∧ y.rack = y.cur ∧ y.pinOld = x.pinCur - 1 ∧
      y.pinCur = 0 ∧ y.old = (if 1 < x.pinCur then some (x.cur.loc / 16, x.cur) else none) ∧ AL.get f t.kv.packing = none ∧ (∀ k ∈ s.ptesOf f, (t.pte k.1 k.2).packed = true) ∧
      t = { s with rf := t.rf, host := t.host, kv := t.kv, integ := { s.integ with pend := t.integ.pend } }) ∧
  (∀ (s : State) (f : Nat) (x : Frame), s.running = true → s.frame f = some x → x.num = f → x.pinCur ≠ 0 → x.old = none →
    x.cur.share ≠ 0 → x.cur.st ≠ .poisoned → (∀ l ∈ s.kv.lines, l.tile = frameTile f → l.draining = false) →
    ∃ t y, exec (.pinRelease f false) s = .next t ∧ t.frame f = some y ∧ y.pinCur = x.pinCur - 1 ∧ y.cur = x.cur ∧
      t = { s with rf := t.rf, host := t.host, kv := t.kv }) ∧
  (∀ (s : State) (f : Nat) (x : Frame) (k : Nat × Page), s.running = true → s.frame f = some x → x.num = f → x.pinOld = 1 → x.old = some k →
    x.cur.share ≠ 0 → x.cur.st ≠ .poisoned → (∀ l ∈ s.kv.lines, l.tile = frameTile f → l.draining = false) →
    ∃ t y, exec (.pinRelease f true) s = .next t ∧ t.frame f = some y ∧ y.pinOld = 0 ∧ y.old = none ∧ y.cur = x.cur ∧
      AL.get (frameChannel f, k.1) t.kv.chunks = none ∧ t = { s with rf := t.rf, host := t.host, kv := t.kv }) ∧
  (∀ (s : State) (f : Nat) (x : Frame), s.running = true → s.frame f = some x → x.num = f → x.pinCur = 1 → x.pinOld = 0 → x.old = none →
    x.cur.share = 0 → x.cur.st = .retired → (∀ l ∈ s.kv.lines, l.tile = frameTile f → l.draining = false) →
    ∃ t, exec (.pinRelease f false) s = .next t ∧ t.frame f = none ∧ t = { s with rf := t.rf, host := t.host, kv := t.kv }) ∧
  (∀ (s : State) (f : Nat) (x : Frame) (l : Line), s.running = true → s.frame f = some x → x.num = f → x.pinCur = 1 → x.pinOld = 0 →
    x.old = none → x.cur.share ≠ 0 → x.cur.st ≠ .poisoned → l ∈ s.kv.lines → l.frame = f → l.tile = frameTile f → l.draining = true →
    l.use = .copy → l.isDirty = false → (∀ m ∈ s.kv.lines, Line.same m l = true → m = l) →
    ∃ t, exec (.pinRelease f false) s = .next t ∧ (∀ m ∈ t.kv.lines, Line.same m l = false) ∧
      t = { s with rf := t.rf, host := t.host, kv := t.kv, integ := { s.integ with pend := t.integ.pend } }) ∧
  (∀ (s : State) (tile : Nat), s.running = true → tile < 24 →
    ∃ t, exec (.benchAgeSweep tile) s = .next t ∧
      (∀ l ∈ t.kv.lines, ∃ m ∈ s.kv.lines, Line.same l m = true ∧ l.frame = m.frame ∧ l.use = m.use ∧ l.dirty = m.dirty ∧
        l.age = if l.tile = tile then min 255 (m.age + 1) else m.age) ∧
      (∀ f, t.page f = s.page f) ∧ t = { s with rf := t.rf, kv := { s.kv with lines := t.kv.lines, frames := t.kv.frames } }) ∧
  (∀ (s : State) (tile set way q : Nat) (rec' : Bool) (l : Line) (x : Frame), s.running = true → s.kv.codes = [] → tile < 24 →
    (s.linesOf tile set).find? (fun l => l.way == way) = some l → l.wb = some (q, rec') → s.frame l.frame = some x →
    x.num = l.frame → x.cur.share ≠ 0 → x.cur.st ≠ .poisoned → x.old = none → (∀ k ∈ s.kv.lines, k.tile = tile → k.draining = false) →
    ∃ (u : State) (y : Frame), exec (.writebackComplete tile set way) s = .next { u.lookAll with pending := s.pending, nrt := s.nrt } ∧
      u.frame l.frame = some y ∧ y.rack = copiedPage x.cur x.rack q rec' ∧ y.cur = x.cur ∧ y.pinCur = x.pinCur - 1 ∧
      (∀ m ∈ u.kv.lines, Line.same m l = true → m.wb = none) ∧
      u = { s with rf := u.rf, host := u.host, kv := u.kv, integ := { s.integ with pend := u.integ.pend } }) ∧
  (∀ (s v : State) (f : Nat) (x : Frame), s.running = true → s.kv.codes = [] → s.kv.fetches.contains f = true → s.frame f = some x →
    ({ s with kv := { s.kv with fetches := s.kv.fetches.filter (fun g => g != f) } } : State).takeLine (frameTile f) (frameSet f) f
      (b2n x.cur.fPacked) (if x.cur.st = .opened then .opened else .copy) 0 x.cur.domain = some v →
    ∃ u : State, exec (.benchFetchLands f) s = .next { u.lookAll with pending := s.pending, nrt := s.nrt } ∧
      u.kv.fetches = s.kv.fetches.filter (fun g => g != f) ∧ u.frameLines f ≠ [] ∧
      (∀ k ∈ s.ptesOf f, (u.pte k.1 k.2).st = .bench) ∧
      u = { s with rf := u.rf, kv := u.kv, integ := { s.integ with pend := u.integ.pend } }) ∧
  (∀ (s : State) (f : Nat) (x : Frame), s.running = true → s.badWords f false = [] → s.kv.fetches.contains f = true → s.frame f = some x →
    ({ s with kv := { s.kv with fetches := s.kv.fetches.filter (fun g => g != f) } } : State).takeLine (frameTile f) (frameSet f) f
      (b2n x.cur.fPacked) (if x.cur.st = .opened then .opened else .copy) 0 x.cur.domain = none →
    ∃ u : State, exec (.benchFetchLands f) s = .next { u.lookAll with pending := s.pending, nrt := s.nrt } ∧
      u.kv = { s.kv with fetches := s.kv.fetches.filter (fun g => g != f) } ∧
      u.reg (pgBnch (frameTile f)) 0x168 = satAdd32 (s.reg (pgBnch (frameTile f)) 0x168) 1 ∧
      u = { s with rf := u.rf, host := u.host, kv := u.kv }) ∧
  (∀ (s : State) (f part : Nat), s.running = true → s.kv.codes = [] → s.eng.promos.find? (fun p => p.1 == f) = some (f, part) →
    ({ s with eng := { s.eng with promos := s.eng.promos.filter (fun p => p.1 != f) } } : State).promotable f part = true →
    ∃ t, exec (.promotionLands f) s = .next t ∧ t.eng.promos = s.eng.promos.filter (fun p => p.1 != f) ∧ t.frameLines f ≠ [] ∧
      t.reg (pgBnch (frameTile f)) 0x164 = satAdd32 (s.reg (pgBnch (frameTile f)) 0x164) 1 ∧
      t = { s with rf := t.rf, kv := t.kv, eng := t.eng, integ := { s.integ with pend := t.integ.pend } })

/-- Demand fills (R108, R228, R429, Tables 4-7, 4-10, 10-2). Content that verifies makes the FILLING frame a sealed or an open page with what the object
held, and the entry names it; a fill whose entry is gone returns its frame; a fill that fails returns its frame, leaves the entry CHECKPOINT
with FILL = 0 and is counted; a command that waits longer than FILL_MS, or longer than 20 µs for a victim, ends with ST_TIMEOUT, or with
ST_BUSY and 100, its reserved space given back, the failed allocation counted if nothing has yet. Content that is not what the object holds, or that
has no place in its form, fails as a fill does. What is read here is as it was encoded. -/
def Obligations.FillsLandOrFail : Prop :=
  (∀ (s : State) (d v : Nat) (p : Page) (f : Fill) (x : Frame), s.running = true → s.kv.codes = [] → s.fillOf d v = some f → s.frame f.frame = some x →
    (s.pte d v).st = .ckpt → (s.pte d v).fill = true → (s.pte d v).loc = f.obj → p.domain = d → s.sealedAs d f.obj p = true →
    (((s.dropFill d v).bump (pgMchn (frameChannel f.frame)) 0x120 (s.fillBursts p)).placeForm f.frame p.fPacked).isSome = true →
    ∃ (u : State) (y : Frame), exec (.demandFillLands d v (some p)) s = .next { u.lookAll with pending := s.pending, nrt := s.nrt } ∧
      u.frame f.frame = some y ∧ y.cur.st = (if p.fSealed then .sealed else .opened) ∧ y.cur.payload = p.payload ∧ y.cur.units = p.units ∧
      y.cur.valid = p.valid ∧ y.cur.share = 1 ∧ y.cur.domain = d ∧ y.cur.vpn = v ∧ y.cur.fCkptCurrent = true ∧ y.cur.ckptObj = f.obj ∧
      u.fillOf d v = none ∧ (u.pte d v).loc = f.frame ∧ (u.pte d v).r = true ∧ (u.pte d v).a = !p.fSealed ∧
      (u.pte d v).fSealed = p.fSealed ∧ (u.pte d v).packed = p.fPacked ∧ (u.pte d v).fill = false ∧
      ((u.pte d v).st = .bench ∨ (u.pte d v).st = .rack) ∧
      u = { s with rf := u.rf, host := u.host, net := u.net, kv := u.kv, integ := { s.integ with pend := u.integ.pend } }) ∧
  (∀ (s : State) (d v : Nat) (p : Page) (f : Fill), s.running = true → s.fillOf d v = some f → (s.pte d v).st = .ckpt → (s.pte d v).fill = true →
    (s.pte d v).loc = f.obj → (p.domain ≠ d ∨ s.sealedAs d f.obj p = false ∨
      ((s.dropFill d v).bump (pgMchn (frameChannel f.frame)) 0x120 (s.fillBursts p)).placeForm f.frame p.fPacked = none) →
    exec (.demandFillLands d v (some p)) s = .next { (s.fillLost d v).lookAll with pending := s.pending, nrt := s.nrt }) ∧
  (∀ (s : State) (d v : Nat) (p : Page) (f : Fill), s.running = true → s.fillOf d v = some f → (s.pte d v).st ≠ .ckpt →
    ∃ u : State, exec (.demandFillLands d v (some p)) s = .next { u.lookAll with pending := s.pending, nrt := s.nrt } ∧
      u.frame f.frame = none ∧ u.fillOf d v = none ∧ u.pte d v = s.pte d v ∧
      u = { s with rf := u.rf, host := u.host, net := u.net, kv := u.kv }) ∧
  (∀ (s : State) (d v : Nat), exec (.demandFillLands d v none) s = exec (.demandFillFails d v) s) ∧
  (∀ (s : State) (d v : Nat) (f : Fill), s.running = true → s.fillOf d v = some f → (s.pte d v).st = .ckpt →
    s.cmds.list.any (Cmd.awaitsFill d v) = false →
    ∃ t, exec (.demandFillFails d v) s = .next t ∧ t.fillOf d v = none ∧ t.frame f.frame = none ∧
      t.pte d v = { (s.pte d v) with fill := false } ∧ t.fld pgXlat 0x128 16 16 = min 65535 (s.fld pgXlat 0x128 16 16 + 1) ∧
      bitOf (t.reg pgXlat 0x20).toNat 0 = true ∧ t = { s with rf := t.rf, host := t.host, net := t.net, kv := t.kv }) ∧
  (∀ (s : State) (d v : Nat) (f : Fill) (c : Cmd), s.running = true → s.fillOf d v = some f → (s.pte d v).st = .ckpt →
    s.cmds.list = [c] → Cmd.awaitsFill d v c = true → s.job c.id = none → s.jobOfCmd c.id = none →
    ∃ t u : State, exec (.demandFillFails d v) s = .next t ∧ t = u.finish c { status := stPoisoned } ∧ u.fillOf d v = none ∧
      u.frame f.frame = none ∧ u = { s with rf := u.rf, host := u.host, net := u.net, kv := u.kv }) ∧
  (∀ (s : State) (id since : Nat) (c : Cmd) (ps : List (Nat × Nat)), s.running = true → s.cmd id = some c → c.wait = .fills ps since →
    since + min 10000 (max 1 (s.fld pgXlat 0x104 0 14)) * 100000 ≤ s.nrt →
    exec (.fillTimeout id) s = .next (if (s.job c.id).isSome then s.attnFail c.id stTimeout else match s.jobOfCmd c.id with
      | some j => s.failJob j.id stTimeout
      | none => s.finish c { status := stTimeout })) ∧
  (∀ (s : State) (id since tile : Nat) (raised : Bool) (space : Space) (c : Cmd), s.running = true → s.cmd id = some c → c.wait = .victim tile since raised space →
    since + 2000 ≤ s.nrt →
    exec (.victimWaitTimeout id) s = .next (
      let u : State := if raised then s else s.noLine tile
      if (s.job c.id).isSome then u.attnFail c.id stBusy else match s.jobOfCmd c.id with
      | some j => u.failJob j.id stBusy
      | none => u.finishHeld c { status := stBusy, c0 := 100 })) ∧
  (∀ (s : State) (tile : Nat), (s.noLine tile).reg (pgBnch tile) 0x168 = satAdd32 (s.reg (pgBnch tile) 0x168) 1) ∧
  (∀ (s : State) (id since tile : Nat) (raised : Bool) (space : Space) (c : Cmd), s.running = true → s.cmd id = some c → c.wait = .victim tile since raised space →
    s.nrt < since + 2000 → exec (.victimWaitTimeout id) s = .next s)

/-- Fragments on the engines (R148, R159, R161, R163, R164, R176, R203, R207, R278, R280, R282 to R286, R407). A window closes and keeps only the
fragments beyond the horizon; a victim stops, is saved, is restored or is killed and reruns from its first page with its commit mask; a
page that passes its residue check adds its part to the rows, and to the gradient page where it commits, the elements that saturate counted; a lost gradient page takes nothing; a complete fragment merges into its
tile's partial, and a tile's partial into the command's. What is read here is as it was encoded. -/
def Obligations.FragmentsRunOnEngines : Prop :=
  (∀ (s : State) (tile q : Nat), s.running = true → tile < 24 → q ≤ 16 → (s.queue tile q).window ≠ [] →
    (∀ k x, s.frag k = some x → x.id = k) →
    ∃ t, exec (.windowClose tile q) s = .next t ∧ t.reg (pgTsch tile) 0x110 = satAdd32 (s.reg (pgTsch tile) 0x110) 1 ∧
      (t.queue tile q).window = (s.queue tile q).window.filter (fun i => !(s.frag i).any (fun f =>
        f.lc || decide (f.tag ≤ (s.queue tile q).v + s.horizon tile))) ∧
      t = { s with rf := t.rf, eng := t.eng }) ∧
  (∀ (s : State) (tile e i : Nat) (f : Frag), s.running = true → tile < 24 → AL.get (tile, e) s.eng.busy = some i → s.frag i = some f →
    f.id = i → f.tile = tile → f.st = .stopping e → s.canSave f = true →
    ∃ u : State, exec (.preemptStop tile e) s = .next (u.rejoin { f with st := .saving e }) ∧ AL.get (tile, e) u.eng.busy = none ∧
      AL.get (tile, e) u.eng.ways = some i ∧ AL.get f.ctx u.eng.save = some i ∧
      u.reg (enginePage tile e) 0x120 = satAdd32 (s.reg (enginePage tile e) 0x120) 1 ∧ u.eng.frags = s.eng.frags ∧
      u = { s with rf := u.rf, eng := u.eng }) ∧
  (∀ (s : State) (tile e i : Nat) (f : Frag), s.running = true → tile < 24 → AL.get (tile, e) s.eng.busy = some i → s.frag i = some f →
    f.st = .stopping e → s.canSave f = false →
    exec (.preemptStop tile e) s = .next { s with eng := { s.eng with frags := AL.put f.id { f with st := .killing e } s.eng.frags } }) ∧
  (∀ (s : State) (ctx i e : Nat) (f : Frag), s.running = true → AL.get ctx s.eng.save = some i → s.frag i = some f →
    (∀ k x, s.frag k = some x → x.id = k) → f.st = .saving e →
    ∃ t g, exec (.contextSaveDone ctx) s = .next t ∧ t.frag i = some g ∧ g.st ≠ .saving e ∧ g.rows = f.rows ∧ g.next = f.next ∧
      t.reg (pgTsch f.tile) 0x158 = satAdd32 (s.reg (pgTsch f.tile) 0x158) 1 ∧ t = { s with rf := t.rf, eng := t.eng }) ∧
  (∀ (s : State) (i e : Nat) (f : Frag), s.running = true → s.frag i = some f → f.st = .restoring e →
    exec (.contextRestoreDone i) s = .next { s with eng := { s.eng with
      save := AL.del f.ctx s.eng.save, frags := AL.put f.id (s.onPage { f with st := .running e }) s.eng.frags } }) ∧
  (∀ (s : State) (i e : Nat) (f : Frag), s.running = true → s.frag i = some f →
    (∀ k x, s.frag k = some x → x.id = k) → f.st = .killing e →
    (match s.cmd f.cmd with
      | some c => ∀ st, c.wait ≠ .dying st
      | none => s.job f.cmd ≠ none) → f.reruns < 4 →
    ∃ t g, exec (.fragmentKill i) s = .next t ∧ t.frag i = some g ∧ g.reruns = f.reruns + 1 ∧ g.next = 0 ∧ g.commit = f.commit ∧
      g.tokens = 0 ∧ g.read = 0 ∧ g.pages = f.pages ∧ t = { s with rf := t.rf, eng := t.eng }) ∧
  (∀ (s : State) (i e : Nat) (f : Frag), s.running = true → s.frag i = some f →
    (∀ k x, s.frag k = some x → x.id = k) → f.st = .killing e → s.cmd f.cmd = none → s.job f.cmd = none →
    ∃ t, exec (.fragmentKill i) s = .next t ∧ t.frag i = none ∧ t = { s with rf := t.rf, host := t.host, kv := t.kv, eng := t.eng }) ∧
  (∀ (s : State) (i e : Nat) (f : Frag) (j : AttnJob) (fp : FragPage) (x : Frame) (p : Page), s.running = true →
    s.frag i = some f → f.id = i → f.st = .running e → s.job f.cmd = some j →
    f.pages[f.next]? = some fp → s.frame fp.frame = some x → s.badWords fp.frame (f.queue == 16) = [] → f.bwd = false →
    p = { pinnedPage x f.queue fp.packed with valid := f.seen } → p.fPoison = false → p.st ≠ .poisoned →
    (p.fPacked = true → crumbError (s.shape j.hdr.domain p.shapeId) p = none) →
    ∃ t g, exec (.fragmentPageDone i true) s = .next t ∧ t.frag i = some g ∧ g.next = f.next + 1 ∧ g.read = f.read + 1 ∧ f.next ∈ g.commit ∧
      g.rows = (forwardPage (s.shape j.hdr.domain p.shapeId) j.d j ⟨j.d.scale, j.d.softcap, j.hdr.flag 4⟩ p fp.hg f.rows).rows ∧
      g.tokens = f.tokens + validCount (s.shape j.hdr.domain p.shapeId) p ∧ g.status = f.status ∧
      g.st = f.st ∧ t = { s with fresh := t.fresh, rf := t.rf, kv := t.kv, eng := { s.eng with frags := t.eng.frags } }) ∧
  (∀ (s : State) (i e : Nat) (f : Frag) (j : AttnJob) (fp : FragPage) (x : Frame) (p : Page) (g : GradPage) (sum : GradPage × Nat), s.running = true →
    s.frag i = some f → f.id = i → f.st = .running e → s.job f.cmd = some j → j.cmd = f.cmd →
    f.pages[f.next]? = some fp → s.frame fp.frame = some x → s.kv.codes = [] → f.bwd = true → j.hdr.flag 2 = false →
    f.commit.contains f.next = false → p = { pinnedPage x f.queue fp.packed with valid := f.seen } → p.fPoison = false →
    p.st ≠ .poisoned → p.fPacked = false → AL.get (j.hdr.context, j.d.seq, fp.vpn) s.eng.grads = some g → g.poison = false →
    sum = g.addAll (s.shape j.hdr.domain p.shapeId) (j.hdr.flag 1) ((s.fresh + b2n (decide (2 ≤ e))) * 2 ^ 40)
      (AL.getD j.hdr.context 0 s.eng.headroom) p.off
      (backwardPage (s.shape j.hdr.domain p.shapeId) j.d j ⟨j.d.scale, j.d.softcap, j.hdr.flag 4⟩ p fp.hg f.rows).sums →
    ∃ t h, exec (.fragmentPageDone i true) s = .next t ∧ t.frag i = some h ∧ h.next = f.next + 1 ∧ f.next ∈ h.commit ∧
      h.rows = (backwardPage (s.shape j.hdr.domain p.shapeId) j.d j ⟨j.d.scale, j.d.softcap, j.hdr.flag 4⟩ p fp.hg f.rows).rows ∧
      AL.get (j.hdr.context, j.d.seq, fp.vpn) t.eng.grads = some sum.1 ∧
      t.job f.cmd = some { j with committed := j.committed + 1, clip := j.clip + sum.2 } ∧
      t = { s with fresh := t.fresh, rf := t.rf, kv := t.kv, eng := t.eng, integ := { s.integ with pend := t.integ.pend } }) ∧
  (∀ (s : State) (i e : Nat) (f : Frag) (j : AttnJob) (fp : FragPage) (x : Frame) (g : GradPage), s.running = true →
    s.frag i = some f → f.id = i → f.st = .running e → s.job f.cmd = some j → j.cmd = f.cmd →
    f.pages[f.next]? = some fp → s.frame fp.frame = some x → s.kv.codes = [] → f.bwd = true → j.hdr.flag 2 = false →
    f.commit.contains f.next = false → (pinnedPage x f.queue fp.packed).fPoison = false →
    (pinnedPage x f.queue fp.packed).st ≠ .poisoned → (pinnedPage x f.queue fp.packed).fPacked = false →
    AL.get (j.hdr.context, j.d.seq, fp.vpn) s.eng.grads = some g → g.poison = true →
    ∃ t h, exec (.fragmentPageDone i true) s = .next t ∧ t.frag i = some h ∧ h.status = stPoisoned ∧ t.job f.cmd = some j ∧
      AL.get (j.hdr.context, j.d.seq, fp.vpn) t.eng.grads = some g ∧ t = { s with fresh := t.fresh, rf := t.rf, kv := t.kv, eng := t.eng }) ∧
  (∀ (s : State) (i e : Nat) (f : Frag) (j : AttnJob) (fp : FragPage) (x : Frame), s.running = true →
    s.frag i = some f → (∀ k x, s.frag k = some x → x.id = k) → f.tile < 24 → e < 18 → f.st = .running e → s.job f.cmd = some j →
    f.pages[f.next]? = some fp → s.frame fp.frame = some x → s.fld (enginePage f.tile e) 0x100 0 1 = 1 → f.reruns < 4 →
    AL.get (f.tile, e) s.eng.residue = none →
    ∃ t g, exec (.fragmentPageDone i false) s = .next t ∧ t.frag i = some g ∧ g.reruns = f.reruns + 1 ∧ g.next = 0 ∧ g.commit = f.commit ∧
      t.reg (enginePage f.tile e) 0x124 = satAdd32 (s.reg (enginePage f.tile e) 0x124) 1 ∧
      AL.get (f.tile, e) t.eng.residue = some s.nrt ∧ t = { s with rf := t.rf, host := t.host, eng := t.eng }) ∧
  (∀ (s : State) (i e : Nat) (f : Frag) (j : AttnJob), s.running = true → s.frag i = some f →
    (∀ k x, s.frag k = some x → x.id = k) → f.st = .running e →
    f.pages.length ≤ f.next → (f.queue ≠ 16 → s.busOpen f.tile = true) → s.job f.cmd = some j → j.cmd = f.cmd → j.doneEarly = false →
    ∃ t, exec (.fragmentComplete i) s = .next t ∧ t.frag i = none ∧
      t.job f.cmd = some { j with
        tiles := AL.put f.tile ((AL.getD f.tile (PartAcc.blank j.rowsIn.length j.dv j.bwd, false) j.tiles).1.merge (fragAcc f), false) j.tiles
        acc := if j.acc.status < 0x10 ∧ 0x10 ≤ f.status then { j.acc with status := f.status } else j.acc } ∧
      (f.queue ≠ 16 → AL.get f.tile t.integ.bus = some f.queue) ∧
      t = { s with rf := t.rf, host := t.host, kv := t.kv, eng := t.eng, integ := { s.integ with bus := t.integ.bus } }) ∧
  (∀ (s : State) (i : Nat) (f : Frag), s.running = true → s.frag i = some f → f.queue ≠ 16 → s.busOpen f.tile = false →
    exec (.fragmentComplete i) s = .next s) ∧
  (∀ (s : State) (cmd tile : Nat) (j : AttnJob) (a : PartAcc), s.running = true → tile < 24 → s.job cmd = some j → j.cmd = cmd →
    AL.get tile j.tiles = some (a, false) → s.tileReady cmd tile = true →
    exec (.tilePartialRelease cmd tile) s = .next
      (let k := { j with tiles := AL.put tile (PartAcc.blank j.rowsIn.length j.dv j.bwd, true) j.tiles, acc := j.acc.merge a }
       let u := { s with eng := { s.eng with jobs := AL.put cmd k s.eng.jobs } }
       if u.attnIdle k then State.attnDone u cmd else u))

/-- Merging (R177 to R183, R502, R504, Table 7-4). The first partial of a query opens a context and the next ones merge into it, each answered with
a PARTIAL_STATUS; one that does not fit, or that comes late, is counted and answered with what it failed; a context at its deadline is
freed with nothing forwarded, or closes and forwards; a closed one goes after its linger; the target's answer ends the command, or lets the
partial go again after the hint, until DEADLINE_US. -/
def Obligations.PartialsMergeInContexts : Prop :=
  (∀ (s : State) (cn id : Nat) (r : PartialRec) (ns : List Nat) (k : Conn), s.running = true → s.mctx r.key = none → r.formBad = false →
    s.freeContexts (contextsFor r.rows r.dv) = some ns → s.nodeFenced = false → s.conn cn = some k →
    ∃ t c k' m, exec (.partialReceive cn id r) s = .next t ∧ t.mctx r.key = some c ∧ c.st = .opened ∧ c.numbers = ns ∧
      c.arrived = [r.contrib] ∧ c.expect = some r.expect ∧ c.openAt = s.nrt ∧
      c.deadline = min (s.nrt + 100 * s.holdUs (ctxPage c)) (s.nrt + 100 * r.deadlineUs) ∧
      t.conn cn = some k' ∧ k'.msgs = k.msgs ++ [m] ∧ m.lane = .response ∧
      m.bytes = respHeader id 2 32 true ++ recordBytes ⟨r.tag, stOk, 0, 0, 0, 0, 0, 0, 0⟩ false s.nrt ∧
      t = { s with net := t.net, eng := { s.eng with merge := t.eng.merge } }) ∧
  (∀ (s : State) (cn id : Nat) (r : PartialRec) (c : MergeCtx) (k : Conn), s.running = true → s.mctx r.key = some c → r.formBad = false →
    c.st ≠ .closed → (c.expect = none ∨ c.expect = some r.expect) → r.contrib ∉ c.arrived → r.rows = c.rows → r.dv = c.dv → r.sum = c.sum →
    (mergeInto c r).isComplete = false → s.nodeFenced = false → s.conn cn = some k →
    ∃ t k' m, exec (.partialReceive cn id r) s = .next t ∧ t.mctx r.key = some (mergeInto c r) ∧
      t.conn cn = some k' ∧ k'.msgs = k.msgs ++ [m] ∧
      m.bytes = respHeader id 2 32 true ++ recordBytes ⟨r.tag, stOk, 0, 0, 0, 0, 0, 0, 0⟩ false s.nrt ∧
      t = { s with net := t.net, eng := { s.eng with merge := t.eng.merge } }) ∧
  (∀ (s : State) (cn id : Nat) (r : PartialRec) (c : MergeCtx) (k : Conn), s.running = true → s.mctx r.key = some c → r.formBad = false →
    c.st = .anchored → (c.expect = none ∨ c.expect = some r.expect) → r.contrib ∉ c.arrived → r.rows = c.rows → r.dv = c.dv → r.sum = c.sum →
    (mergeInto c r).isComplete = true → s.nodeFenced = false → s.conn cn = some k →
    ∃ (u : State) (k' : Conn) (m : OutMsg), exec (.partialReceive cn id r) s = .next (u.forwardCtx levels r.key) ∧
      u.mctx r.key = some (mergeInto c r) ∧ u.conn cn = some k' ∧ k'.msgs = k.msgs ++ [m] ∧
      m.bytes = respHeader id 2 32 true ++ recordBytes ⟨r.tag, stOk, 0, 0, 0, 0, 0, 0, 0⟩ false s.nrt ∧
      u = { s with net := u.net, eng := { s.eng with merge := u.eng.merge } }) ∧
  (∀ (s : State) (cn id : Nat) (r : PartialRec) (c : MergeCtx) (k : Conn), s.running = true → s.mctx r.key = some c → r.formBad = false →
    c.st = .closed → s.nodeFenced = false → s.conn cn = some k →
    ∃ t k' m, exec (.partialReceive cn id r) s = .next t ∧ t.reg (ctxPage c) 0x120 = satAdd32 (s.reg (ctxPage c) 0x120) 1 ∧
      t.conn cn = some k' ∧ k'.msgs = k.msgs ++ [m] ∧
      m.bytes = respHeader id 2 32 true ++ recordBytes ⟨r.tag, stTimeout, 0, 0, 0, 0, 0, 0, 0⟩ false s.nrt ∧
      t = { s with rf := t.rf, net := t.net }) ∧
  (∀ (s : State) (cn id : Nat) (r : PartialRec) (k : Conn), s.running = true → s.mctx r.key = none → r.formBad = true →
    s.nodeFenced = false → s.conn cn = some k →
    ∃ t k' m, exec (.partialReceive cn id r) s = .next t ∧ t.reg s.firstMrgu 0x128 = satAdd32 (s.reg s.firstMrgu 0x128) 1 ∧
      t.conn cn = some k' ∧ k'.msgs = k.msgs ++ [m] ∧
      m.bytes = respHeader id 2 32 true ++ recordBytes ⟨r.tag, stBadDescriptor, 0, 0, 0, 0, 0, 0, 0⟩ false s.nrt ∧
      t = { s with rf := t.rf, host := t.host, net := t.net }) ∧
  (∀ (s : State) (k : MergeKey) (c : MergeCtx), s.running = true → s.mctx k = some c → c.deadline ≤ s.nrt → c.st = .opened →
    ∃ t, exec (.mergeDeadline k) s = .next t ∧ t.eng = { s.eng with merge := AL.del k s.eng.merge } ∧
      t.reg (ctxPage c) 0x11C = satAdd32 (s.reg (ctxPage c) 0x11C) 1 ∧ t = { s with rf := t.rf, host := t.host, eng := t.eng }) ∧
  (∀ (s : State) (k : MergeKey) (c : MergeCtx), s.running = true → s.mctx k = some c → c.deadline ≤ s.nrt → c.st = .anchored →
    ∃ t x, exec (.mergeDeadline k) s = .next t ∧ t = s.forwardCtx levels k ∧ t.mctx k = some x ∧ x.st = .closed ∧ x.closedAt = s.nrt ∧
      x.arrived = c.arrived) ∧
  (∀ (s : State) (k : MergeKey) (c : MergeCtx), s.running = true → s.mctx k = some c → c.st = .closed → c.closedAt + 100 * c.linger ≤ s.nrt →
    exec (.lingerExpire k) s = .next { s with eng := { s.eng with merge := AL.del k s.eng.merge } }) ∧
  (∀ (s : State) (cn id st n i : Nat) (c : Cmd) (j : AttnJob) (r : PartialRec), s.running = true →
    s.eng.jobs.find? (fun p => p.2.record.isSome && p.2.sentOn == cn && p.2.sentMsg == id && p.2.resendAt == 0) = some (i, j) →
    s.job i = some j → s.cmd i = some c → j.record = some r →
    exec (.partialStatusReceive cn id st n) s = .next (if st = stOk then s.endAttn c j r.status
      else if st = stBusy then { s with eng := { s.eng with jobs := AL.put j.cmd { j with resendAt := s.nrt + 100 * n } s.eng.jobs } }
      else s.endAttn c j st)) ∧
  (∀ (s : State) (i : Nat) (c : Cmd) (d : AttnD) (j : AttnJob) (r : PartialRec), s.running = true → s.cmd i = some c → s.job i = some j →
    attnOf c.op = some d → j.record = some r → j.firstSend + 100 * d.deadlineUs ≤ s.nrt →
    exec (.partialResend i) s = .next (s.endAttn c j stTimeout)) ∧
  (∀ (s : State) (i : Nat) (c : Cmd) (d : AttnD) (j : AttnJob) (r : PartialRec) (k : Conn), s.running = true → s.cmd i = some c →
    s.job i = some j → j.cmd = i → attnOf c.op = some d → j.record = some r → s.nrt < j.firstSend + 100 * d.deadlineUs →
    j.resendAt ≠ 0 → j.resendAt ≤ s.nrt → d.mergeConn ≠ 0xFFFFFF → d.mergeConn ≠ 0xFFFFFE → s.connOf d.mergeConn = some k →
    ∃ t k' m h, exec (.partialResend i) s = .next t ∧ t.conn k.index = some k' ∧ k'.msgs = k.msgs ++ [m] ∧ m.lane = .response ∧
      m.bytes = partialMsg r ∧ t.job i = some h ∧ h.resendAt = 0 ∧ h.sentMsg = m.msgId ∧ h.sentOn = k.index ∧ h.firstSend = j.firstSend ∧
      t = { s with cmds := t.cmds, net := t.net, eng := { s.eng with jobs := t.eng.jobs } })

/-- Sequences (R87, R89 to R91, R110 to R114, Table 4-11). SEQ_CREATE places the record and charges it; SEQ_PARK writes the open pages back and
stamps the record; SEQ_RESUME makes the sequence active again and, with its flag, fetches the pages that only the checkpoint holds;
SEQ_DESTROY invalidates every entry and removes the record; a sequence that is not there is a bad descriptor. What is read here is as it
was encoded. -/
def Obligations.SequencesLive : Prop :=
  (∀ (s e v : State) (q : Req) (a : SeqCreateD) (n : Nat), s.admits q (.seqCreate a) = true → e = s.admitted q (.seqCreate a) →
    e.createRefusal q.hdr.domain q.src a = none →
    n = recordSize a.layers a.kvHeads (histOf a.histN) (e.shape q.hdr.domain a.shapeId) →
    e.rused q.hdr.domain + n / 256 ≤ e.rquota q.hdr.domain → e.placeRecord q.hdr.domain a.seq q.hdr.context n = some v →
    ∃ u : State, exec (.seqCreate q a) s = .next (u.finish (s.newCmd q (.seqCreate a) false) { status := stOk, c0 := n }) ∧
      u.seqRec q.hdr.domain a.seq = some (newSeq a (histOf a.histN) n) ∧ u.rused q.hdr.domain = e.rused q.hdr.domain + n / 256 ∧
      (∀ k, k ≠ (q.hdr.domain, a.seq) → AL.get k u.kv.seqs = AL.get k e.kv.seqs) ∧
      u = { e with rf := u.rf, host := u.host, kv := u.kv, integ := { e.integ with pend := u.integ.pend } }) ∧
  (∀ (s e : State) (q : Req) (a : SeqCreateD), s.admits q (.seqCreate a) = true → e = s.admitted q (.seqCreate a) →
    e.createRefusal q.hdr.domain q.src a = none →
    e.rquota q.hdr.domain < e.rused q.hdr.domain +
      recordSize a.layers a.kvHeads (histOf a.histN) (e.shape q.hdr.domain a.shapeId) / 256 →
    exec (.seqCreate q a) s = .next (e.finish (s.newCmd q (.seqCreate a) false) { status := stNoCapacity })) ∧
  (∀ (s e : State) (q : Req) (k n : Nat) (r : SeqRec) (sh : Shape), s.admits q (.seqPark k) = true → e = s.admitted q (.seqPark k) → e.intact q.hdr.domain (.seqPark k) = true →
    e.seqRec q.hdr.domain k = some r → sh = e.shape q.hdr.domain r.shapeId → r.st = .active →
    n = ((e.openPoints q.hdr.domain r sh).map (fun p => e.pte q.hdr.domain (vpnOf r sh p.layer p.hg p.k))).countP
      (fun p => (p.st == .bench || p.st == .rack) && (e.frameLine p.loc 0).any (fun l => l.use == .opened)) →
    ∃ u : State, exec (.seqPark q k) s = .next (u.finish (s.newCmd q (.seqPark k) false) { status := stOk, c0 := n }) ∧
      u.seqRec q.hdr.domain k =
        some { r with st := .parked, parkTime := BitVec.ofNat 64 s.nrt, changeSeq := (r.changeSeq + 1) % 2 ^ 64 } ∧
      (∀ j, j ≠ (q.hdr.domain, k) → AL.get j u.kv.seqs = AL.get j e.kv.seqs) ∧
      u = { e with rf := u.rf, host := u.host, kv := u.kv, integ := { e.integ with pend := u.integ.pend } }) ∧
  (∀ (s e : State) (q : Req) (k : Nat) (r : SeqRec), s.admits q (.seqResume k) = true → e = s.admitted q (.seqResume k) → e.hasRecords q.hdr.domain (.seqResume k) = true →
    e.seqRec q.hdr.domain k = some r → r.st = .parked → q.hdr.flag 0 = false →
    ∃ u : State, exec (.seqResume q k) s = .next (u.finish (s.newCmd q (.seqResume k) false) { status := stOk }) ∧
      u.seqRec q.hdr.domain k = some { r with st := .active, changeSeq := (r.changeSeq + 1) % 2 ^ 64 } ∧
      u = { e with kv := { e.kv with seqs := u.kv.seqs } }) ∧
  (∀ (s e u : State) (q : Req) (k : Nat) (r : SeqRec) (vs ws : List Nat), s.admits q (.seqResume k) = true →
    e = s.admitted q (.seqResume k) → e.hasRecords q.hdr.domain (.seqResume k) = true → e.seqRec q.hdr.domain k = some r → r.st = .active → q.hdr.flag 0 = true →
    e.prefetch q.hdr.domain (e.partOf q.hdr.context) k r (e.shape q.hdr.domain r.shapeId) = (u, none, vs) → vs ≠ [] → ws = vs.filter (fun v => (u.pte q.hdr.domain v).fill) →
    ∃ t, exec (.seqResume q k) s = .next t ∧
      t.cmd (s.newCmd q (.seqResume k) false).id = some { s.newCmd q (.seqResume k) false with
        wait := .fills (ws.map (fun v => (q.hdr.domain, v))) s.nrt
        c0 := ws.length
        effected := true } ∧
      t = { u with cmds := t.cmds }) ∧
  (∀ (s e : State) (q : Req) (k : Nat) (r : SeqRec) (sh : Shape), s.admits q (.seqDestroy k) = true → e = s.admitted q (.seqDestroy k) →
    e.seqRec q.hdr.domain k = some r → sh = e.shape q.hdr.domain r.shapeId → (r.st = .active ∨ r.st = .parked ∨ r.st = .moved) →
    ∃ (u : State) (a b : Nat), exec (.seqDestroy q k) s =
        .next (u.finish (s.newCmd q (.seqDestroy k) false) { status := stOk, c0 := a, c1 := b }) ∧
      u.seqRec q.hdr.domain k = none ∧
      (∀ x ∈ e.seqPtes q.hdr.domain r sh, u.pte q.hdr.domain x.1 = Pte.invalid) ∧
      a + b = (e.seqPtes q.hdr.domain r sh).countP (fun x => x.2.st == .bench || x.2.st == .rack) ∧
      (∀ j, j ≠ (q.hdr.domain, k) → AL.get j u.kv.seqs = AL.get j e.kv.seqs) ∧
      u = { e with rf := u.rf, host := u.host, kv := u.kv }) ∧
  (∀ (s e : State) (q : Req) (k : Nat), e = s.admitted q (.seqPark k) → s.admits q (.seqPark k) = true →
    e.seqRec q.hdr.domain k = none →
    exec (.seqPark q k) s = .next (e.finish (s.newCmd q (.seqPark k) false) { status := stBadDescriptor })) ∧
  (∀ (s e : State) (q : Req) (k : Nat), e = s.admitted q (.seqDestroy k) → s.admits q (.seqDestroy k) = true →
    e.seqRec q.hdr.domain k = none →
    exec (.seqDestroy q k) s = .next (e.finish (s.newCmd q (.seqDestroy k) false) { status := stBadDescriptor }))

/-- Pages of a sequence (R99 to R103, R138 to R142, R214 to R222, R237). An APPEND whose pages are ready moves NEXT_POS of its layers and answers its
tokens; one whose pages are not ready waits, or ends with what they lack; a SEAL seals every open page; a PAGE_READ answers whole pages and
where the next begins; a FORK makes the new sequence and shares or copies each page; a COMPACT rewrites the pages of a batch into new
frames and goes on with the next, with DRY_RUN it only counts, and without space for its first batch it ends either way. What is read here is as it was encoded. -/
def Obligations.PagesAreWrittenReadAndForked : Prop :=
  (∀ (s e v : State) (q : Req) (a : AppendD) (r : SeqRec) (sh : Shape) (bytes : List Byte) (ts : List (Point × Task)) (gs : List Got),
    s.admits q (.append a) = true → e = s.admitted q (.append a) → e.intact q.hdr.domain (.append a) = true → publicRefused q.src q.hdr.domain = false →
    e.seqRec q.hdr.domain a.seq = some r → sh = e.shape q.hdr.domain r.shapeId → r.st = .active →
    appendRefusal r (shapeValid (e.shapeW q.hdr.domain r.shapeId)) sh (q.hdr.flag 0) a = none →
    e.input q.src q.hdr.domain a.rowAddr a.rowBytes q.data = .ok bytes → (f32List a.infmt bytes).all f32Finite = true →
    e.prepare (fun s v k => s.startFill q.hdr.domain (e.partOf q.hdr.context) v k) (s.newCmd q (.append a) false) a.seq r
      sh (appendPoints r sh a ++
        (if q.hdr.flag 0 then e.otherOpen q.hdr.domain r sh a else [])) = .ready v ts gs →
    ∃ (u : State) (clip n : Nat) (r' : SeqRec), exec (.append q a) s = .next (u.finish (s.newCmd q (.append a) false)
        { status := stOk, c0 := a.tokens, c1 := n, clip := clip }) ∧
      u.seqRec q.hdr.domain a.seq = some r' ∧ r'.changeSeq = (r.changeSeq + 1) % 2 ^ 64 ∧ r'.nextPos.length = r.nextPos.length ∧
      (∀ l < r.nextPos.length, r'.nextPos.getD l 0 =
        if a.layerFirst ≤ l ∧ l < a.layerFirst + a.layerCount then a.posFirst + a.tokens else r.nextPos.getD l 0) ∧
      u = { e with
        fresh := u.fresh, rf := u.rf, host := u.host, kv := u.kv, integ := { e.integ with pend := u.integ.pend, bus := u.integ.bus } }) ∧
  (∀ (s e v : State) (q : Req) (a : AppendD) (r : SeqRec) (sh : Shape) (bytes : List Byte) (w : Wait),
    s.admits q (.append a) = true → e = s.admitted q (.append a) → e.hasRecords q.hdr.domain (.append a) = true → publicRefused q.src q.hdr.domain = false →
    e.seqRec q.hdr.domain a.seq = some r → sh = e.shape q.hdr.domain r.shapeId → r.st = .active →
    appendRefusal r (shapeValid (e.shapeW q.hdr.domain r.shapeId)) sh (q.hdr.flag 0) a = none →
    e.input q.src q.hdr.domain a.rowAddr a.rowBytes q.data = .ok bytes → (f32List a.infmt bytes).all f32Finite = true →
    e.prepare (fun s v k => s.startFill q.hdr.domain (e.partOf q.hdr.context) v k) (s.newCmd q (.append a) false) a.seq r
      sh (appendPoints r sh a ++
        (if q.hdr.flag 0 then e.otherOpen q.hdr.domain r sh a else [])) = .await v w →
    ∃ t, exec (.append q a) s = .next t ∧
      t.cmd (s.newCmd q (.append a) false).id = some { s.newCmd q (.append a) false with wait := w } ∧ t = { v with cmds := t.cmds }) ∧
  (∀ (s e v : State) (q : Req) (k : Nat) (r : SeqRec) (sh : Shape) (ts : List (Point × Task)) (gs : List Got),
    s.admits q (.sealOp k) = true → e = s.admitted q (.sealOp k) → e.intact q.hdr.domain (.sealOp k) = true → publicRefused q.src q.hdr.domain = false →
    e.seqRec q.hdr.domain k = some r → sh = e.shape q.hdr.domain r.shapeId → r.st = .active → evenPos r = true →
    e.openPoints q.hdr.domain r sh ≠ [] →
    ((sealEntry r sh.T (r.nextPos.headD 0)).isSome = true → r.sealLog.length < 64) →
    e.prepare (fun s v k => s.startFill q.hdr.domain (e.partOf q.hdr.context) v k) (s.newCmd q (.sealOp k) false) k r
      sh (e.openPoints q.hdr.domain r sh) = .ready v ts gs →
    ∃ (u : State) (r' : SeqRec), exec (.sealOp q k) s = .next (u.finish (s.newCmd q (.sealOp k) false) 
        { status := stOk, c0 := (e.openPoints q.hdr.domain r sh).length }) ∧
      (∀ p ∈ e.openPoints q.hdr.domain r sh,
        (u.pte q.hdr.domain (vpnOf r sh p.layer p.hg p.k)).fSealed = true ∧
        (u.pte q.hdr.domain (vpnOf r sh p.layer p.hg p.k)).a = false) ∧
      u.seqRec q.hdr.domain k = some r' ∧ r'.changeSeq = (r.changeSeq + 1) % 2 ^ 64 ∧ r'.nextPos = r.nextPos ∧
      (r'.sealLog = r.sealLog ∨ ∃ x, sealEntry r sh.T (r.nextPos.headD 0) = some x ∧
        r'.sealLog = r.sealLog ++ [x]) ∧
      u = { e with fresh := u.fresh, rf := u.rf, host := u.host, kv := u.kv, integ := { e.integ with pend := u.integ.pend } }) ∧
  (∀ (s e : State) (q : Req) (k : Nat) (r : SeqRec), s.admits q (.sealOp k) = true → e = s.admitted q (.sealOp k) → e.hasRecords q.hdr.domain (.sealOp k) = true →
    publicRefused q.src q.hdr.domain = false → e.seqRec q.hdr.domain k = some r → r.st = .active → evenPos r = true →
    e.openPoints q.hdr.domain r (e.shape q.hdr.domain r.shapeId) = [] →
    ∃ u : State, exec (.sealOp q k) s = .next (u.finish (s.newCmd q (.sealOp k) false) { status := stOk }) ∧
      u.seqRec q.hdr.domain k = some { r with changeSeq := (r.changeSeq + 1) % 2 ^ 64 } ∧
      u = { e with kv := { e.kv with seqs := u.kv.seqs } }) ∧
  (∀ (s e v : State) (q : Req) (d : PageReadD) (r : SeqRec) (sh : Shape) (l : List (Point × Pte)), s.admits q (.pageRead d) = true →
    e = s.admitted q (.pageRead d) → e.intact q.hdr.domain (.pageRead d) = true → e.seqRec q.hdr.domain d.seq = some r → sh = e.shape q.hdr.domain r.shapeId → e.readRefusal q.hdr d = none →
    e.outputRefused q.src q.hdr.domain d.addr d.bytes = none →
    e.walkRead q.hdr.domain d.seq r sh
      (rangePoints r sh d.layer d.kvFirst d.kvCount d.tokFirst d.tokEnd) = (v, .pages l) →
    ∃ (fit rest : List (Point × Pte)) (out : List Byte), fitPages v sh d.bytes l = (fit, rest) ∧ l = fit ++ rest ∧
      out = fit.flatMap (fun x => rawRecord sh d.seq (vpnOf r sh x.1.layer x.1.hg x.1.k) x.1 (v.page x.2.loc)) ∧ out.length ≤ d.bytes ∧
      exec (.pageRead q d) s = .next (v.finish (s.newCmd q (.pageRead d) false)
        { status := stOk, c0 := fit.length, c1 := (match rest with | [] => d.tokEnd | x :: _ => (v.page x.2.loc).firstPos), addr := d.addr, out := out }) ∧
      v = { e with fresh := v.fresh, rf := v.rf, kv := { e.kv with ttlb := v.kv.ttlb, walkCache := v.kv.walkCache } }) ∧
  (∀ (s e v v0 v1 v2 v3 : State) (q : Req) (a : ForkD) (r r' : SeqRec) (sh : Shape) (l : List (Point × Pte)) (ps : List ForkPage) (gs : List Got) (n : Nat),
    s.admits q (.fork a) = true → e = s.admitted q (.fork a) → e.intact q.hdr.domain (.fork a) = true → e.forkRefusal q.hdr.domain (q.hdr.flag 0) a = none →
    e.seqRec a.srcDomain a.srcSeq = some r → sh = e.shape a.srcDomain r.shapeId → n = recordSize r.layers r.kvHeads r.histN sh →
    e.walkRead a.srcDomain a.srcSeq r sh (pagesTo r sh a.posEnd) = (v, .pages l) →
    ps = l.map (fun x => ⟨x.1, x.2, v.forkWay r sh a.posEnd x.1 x.2⟩) → v.readCopies ps = (v0, false) →
    r' = { v0.forkRecord r sh a with recordBytes := n } →
    v0.reserve q.hdr.domain (some (v.partOf q.hdr.context)) (forkWants r' sh a ps) = .ok (v1, gs) →
    v1.rused q.hdr.domain + n / 256 ≤ v1.rquota q.hdr.domain → (v1.placeRecord q.hdr.domain a.dstSeq q.hdr.context n).isSome = true →
    v1.openLines q.hdr.domain (v.partOf q.hdr.context) false gs = .taken v2 → v2.placeRecord q.hdr.domain a.dstSeq q.hdr.context n = some v3 →
    (∀ x ∈ ps, x.way ≠ .copy → (v3.page x.pte.loc).share < 65535) →
    ∃ u : State, exec (.fork q a) s = .next (u.finish (s.newCmd q (.fork a) false)
        { status := stOk, c0 := ps.countP (fun x => x.way != .copy), c1 := ps.countP (fun x => x.way == .copy) }) ∧
      u.seqRec q.hdr.domain a.dstSeq = some r' ∧
      u.seqRec a.srcDomain a.srcSeq = some { r with changeSeq := (r.changeSeq + 1) % 2 ^ 64 } ∧
      u = { e with fresh := u.fresh, rf := u.rf, host := u.host, kv := u.kv, integ := { e.integ with pend := u.integ.pend } }) ∧
  (∀ (s e v : State) (q : Req) (a : CompactD) (r : SeqRec) (sh : Shape) (b : List (Nat × Nat × List Nat × Nat)) (gs : List Got),
    s.admits q (.compact a) = true → e = s.admitted q (.compact a) → e.intact q.hdr.domain (.compact a) = true → e.compactRefusal q.hdr a = none →
    e.seqRec q.hdr.domain a.seq = some r → sh = e.shape q.hdr.domain r.shapeId → q.hdr.flag 0 = true →
    e.compactBatch q.hdr.domain r sh r.nextPos a (compactPoints r sh a) 64 = (b, []) →
    e.reserve q.hdr.domain (some (e.partOf q.hdr.context)) (e.compactWants a.seq r sh b) = .ok (v, gs) →
    (∀ x ∈ b, (∀ g ∈ gs, g.frame ≠ x.2.1) ∧ ((e.page x.2.1).fPacked = true →
      crumbError (e.shape (e.page x.2.1).domain (e.page x.2.1).shapeId) (e.page x.2.1) = none)) →
    exec (.compact q a) s = .next (e.finish (s.newCmd q (.compact a) false)
      { status := stOk, c0 := b.length, c1 := b.foldl (fun n x => n + x.2.2.2) 0 })) ∧
  (∀ (s e : State) (q : Req) (a : CompactD) (r : SeqRec) (sh : Shape) (u : Nat),
    s.admits q (.compact a) = true → e = s.admitted q (.compact a) → e.hasRecords q.hdr.domain (.compact a) = true → e.compactRefusal q.hdr a = none →
    e.seqRec q.hdr.domain a.seq = some r → sh = e.shape q.hdr.domain r.shapeId →
    e.reserve q.hdr.domain (some (e.partOf q.hdr.context))
      (e.compactWants a.seq r sh (e.compactBatch q.hdr.domain r sh r.nextPos a (compactPoints r sh a) 64).1) = .error u →
    exec (.compact q a) s = .next (e.finish (s.newCmd q (.compact a) false) { status := stNoCapacity })) ∧
  (∀ (s e v : State) (q : Req) (a : CompactD) (r : SeqRec) (sh : Shape) (b : List (Nat × Nat × List Nat × Nat)) (gs : List Got),
    s.admits q (.compact a) = true → e = s.admitted q (.compact a) → e.intact q.hdr.domain (.compact a) = true → e.compactRefusal q.hdr a = none →
    e.seqRec q.hdr.domain a.seq = some r → sh = e.shape q.hdr.domain r.shapeId → q.hdr.flag 0 = false →
    e.compactBatch q.hdr.domain r sh r.nextPos a (compactPoints r sh a) 64 = (b, []) →
    e.reserve q.hdr.domain (some (e.partOf q.hdr.context)) (e.compactWants a.seq r sh b) = .ok (v, gs) →
    (∀ x ∈ b, (∀ g ∈ gs, g.frame ≠ x.2.1) ∧ ((e.page x.2.1).fPacked = true →
      crumbError (e.shape (e.page x.2.1).domain (e.page x.2.1).shapeId) (e.page x.2.1) = none)) →
    ∃ u : State, exec (.compact q a) s = .next (u.finish (s.newCmd q (.compact a) false)
        { status := stOk, c0 := b.length, c1 := b.foldl (fun n x => n + x.2.2.2) 0 }) ∧
      u.seqRec q.hdr.domain a.seq = some { r with changeSeq := (r.changeSeq + 1) % 2 ^ 64 } ∧
      (∀ x ∈ b, (u.pte q.hdr.domain x.1).st = .rack ∧ ∃ g ∈ gs, g.vpn = x.1 ∧ (u.pte q.hdr.domain x.1).loc = g.frame) ∧
      u = { e with rf := u.rf, host := u.host, kv := u.kv, integ := { e.integ with pend := u.integ.pend } }) ∧
  (∀ (s v : State) (id : Nat) (c : Cmd) (a : CompactD) (r : SeqRec) (todo rest : List (Nat × Nat × Nat))
    (b : List (Nat × Nat × List Nat × Nat)) (gs : List Got), s.running = true → s.kv.codes = [] → s.cmd id = some c → c.op = .compact a →
    s.jobOfCmd id = none → c.wait = .batches todo → s.seqRec c.hdr.domain a.seq = some r →
    s.compactBatch c.hdr.domain r (s.shape c.hdr.domain r.shapeId) c.nextAt a todo 64 = (b, rest) →
    s.reserve c.hdr.domain (some (s.partOf c.hdr.context)) (s.compactWants a.seq r (s.shape c.hdr.domain r.shapeId) b) = .ok (v, gs) →
    (∀ x ∈ b, (∀ g ∈ gs, g.frame ≠ x.2.1) ∧ ((s.page x.2.1).fPacked = true →
      crumbError (s.shape (s.page x.2.1).domain (s.page x.2.1).shapeId) (s.page x.2.1) = none)) →
    ∃ t u : State, exec (.compactBatch id) s = .next t ∧
      u = { s with rf := u.rf, host := u.host, kv := u.kv, integ := { s.integ with pend := u.integ.pend } } ∧
      (∀ x ∈ b, (u.pte c.hdr.domain x.1).st = .rack ∧ ∃ g ∈ gs, g.vpn = x.1 ∧ (u.pte c.hdr.domain x.1).loc = g.frame) ∧
      (rest = [] → t = u.finish c { status := stOk, c0 := c.c0 + b.length, c1 := c.c1 + b.foldl (fun n x => n + x.2.2.2) 0 }) ∧
      (rest ≠ [] → t.cmd id = some { c with wait := .batches rest, c0 := c.c0 + b.length, c1 := c.c1 + b.foldl (fun n x => n + x.2.2.2) 0 } ∧
        t = { u with cmds := t.cmds }))

/-- Attention commands (R150, R153 to R155, R161, R195, R198, R200, R204 to R206, Tables 6-4, 8-2, 8-3, 8-5). An ATTN_FWD or an ATTN_BWD whose
payload is good and whose pages are there plans its fragments and waits for them; one over an empty range ends at once with the partial of
no token; one whose pages must be filled waits for the fills; an ATTN_BWD that the gradient region has no room for has no effect on it, and
one behind a GRAD_DRAIN waits; a GRAD_DRAIN answers and clears the gradient pages that fit, in VPN order, or clears them all, after the
backward commands before it. What is read here is as it was encoded. -/
def Obligations.AttentionCommandsPlanAndDrain : Prop :=
  (∀ (s e w v v2 : State) (q : Req) (d : AttnD) (c : Cmd) (r : SeqRec) (sh : Shape) (bytes : List Byte) (j : AttnJob) (ps : List Point)
    (l : List (Point × Pte)) (plans : List FragPlan), s.attnStarts q false d e w c r sh bytes j ps →
    w.walkRead q.hdr.domain d.seq r sh ps = (v, .pages l) → v.projLost q.hdr.domain false sh d = false →
    v.planPages q.hdr.lc (w.partOf q.hdr.context) r sh l [] = (v2, plans) → plans ≠ [] →
    ∃ t k, exec (.attnFwd q d) s = .next t ∧ t.cmd c.id = some { c with wait := .frags } ∧ t.job c.id = some k ∧
      k.rowsIn = d.fwdRows sh (AL.get (q.hdr.domain, d.proj) e.sec.projs) bytes ∧ k.acc = j.acc ∧
      k.tiles.map (fun x => x.1) = (plans.map (fun p => p.tile)).eraseDups ∧
      t = { e with
        fresh := t.fresh, rf := t.rf, host := t.host, cmds := t.cmds, kv := t.kv, eng := t.eng, integ := { e.integ with pend := t.integ.pend } }) ∧
  (∀ (s e w : State) (q : Req) (d : AttnD) (c : Cmd) (r : SeqRec) (sh : Shape) (bytes : List Byte) (j k : AttnJob),
    s.attnStarts q false d e w c r sh bytes j [] → d.level = 0 → d.mergeConn = 0xFFFFFF →
    k = { j with covE := if d.targetLevel = 3 then d.expect else 0, covG := if d.targetLevel = 3 then 1 else 0 } →
    ∃ u : State, exec (.attnFwd q d) s = .next (u.finish c { attnResult k stOk with
        addr := d.partialAddr
        out := (recordOf c d k k.acc stOk 1 false false 0).bytes }) ∧
      u = { e with eng := { e.eng with jobs := u.eng.jobs } } ∧ u.job c.id = none) ∧
  (∀ (s e w v u : State) (q : Req) (d : AttnD) (c : Cmd) (r : SeqRec) (sh : Shape) (bytes : List Byte) (j : AttnJob) (ps : List Point)
    (vs : List (Nat × Nat)) (x : Wait) (n : Nat), s.attnStarts q false d e w c r sh bytes j ps →
    w.walkRead q.hdr.domain d.seq r sh ps = (v, .fill vs) → v.awaitFills q.hdr.domain (w.partOf q.hdr.context) vs = .wait u x n →
    ∃ t, exec (.attnFwd q d) s = .next t ∧ t.cmd c.id = some { c with wait := x, c0 := n } ∧ t.job c.id = some j ∧
      t = { u with cmds := t.cmds }) ∧
  (∀ (s e w v v1 v2 : State) (q : Req) (d : AttnD) (c : Cmd) (r : SeqRec) (sh : Shape) (bytes : List Byte) (j : AttnJob) (ps : List Point)
    (l : List (Point × Pte)) (plans : List FragPlan), s.attnStarts q true d e w c r sh bytes j ps →
    w.walkRead q.hdr.domain d.seq r sh ps = (v, .pages l) →
    (q.hdr.flag 2 = false → w.drainAhead q.hdr c.id = false ∧
      w.gradRefusal q.hdr d (ps.map (fun p => vpnOf r sh p.layer p.hg p.k)) = none ∧
      (w.reserveGrads q.hdr d r sh ((ps.map (fun p => (p, w.pte q.hdr.domain (vpnOf r sh p.layer p.hg p.k)))).filter
        (fun x => x.2.st == .bench || x.2.st == .rack))).2 = none ∧ (v.reserveGrads q.hdr d r sh l).2 = none) →
    v1 = (if q.hdr.flag 2 then v else (v.reserveGrads q.hdr d r sh l).1) →
    v1.planPages q.hdr.lc (w.partOf q.hdr.context) r sh l [] = (v2, plans) → plans ≠ [] →
    ∃ t k, exec (.attnBwd q d) s = .next t ∧ t.cmd c.id = some { c with wait := .frags } ∧ t.job c.id = some k ∧
      k.rowsIn = d.bwdRows (sh.width * 32) (q.hdr.flag 0) bytes ∧ k.bwd = true ∧ k.acc = j.acc ∧
      (q.hdr.flag 2 = false → ∀ x ∈ l, AL.has (q.hdr.context, d.seq, vpnOf r sh x.1.layer x.1.hg x.1.k) t.eng.grads = true) ∧
      t = { e with
        fresh := t.fresh, rf := t.rf, host := t.host, cmds := t.cmds, kv := t.kv, eng := t.eng, integ := { e.integ with pend := t.integ.pend } }) ∧
  (∀ (s e w : State) (q : Req) (d : AttnD) (c : Cmd) (r : SeqRec) (sh : Shape) (bytes : List Byte) (j : AttnJob) (ps : List Point) (x : Result),
    s.attnStarts q true d e w c r sh bytes j ps → q.hdr.flag 2 = false → w.drainAhead q.hdr c.id = false →
    w.gradRefusal q.hdr d (ps.map (fun p => vpnOf r sh p.layer p.hg p.k)) = some x →
    ∃ u : State, exec (.attnBwd q d) s = .next (u.finish c x) ∧ u.job c.id = none ∧ u.eng.grads = e.eng.grads ∧
      u = { e with eng := { e.eng with jobs := u.eng.jobs, merge := u.eng.merge } }) ∧
  (∀ (s e w v : State) (q : Req) (d : AttnD) (c : Cmd) (r : SeqRec) (sh : Shape) (bytes : List Byte) (j : AttnJob) (ps : List Point)
    (l : List (Point × Pte)) (x : Result), s.attnStarts q true d e w c r sh bytes j ps → q.hdr.flag 2 = false →
    w.drainAhead q.hdr c.id = false → w.gradRefusal q.hdr d (ps.map (fun p => vpnOf r sh p.layer p.hg p.k)) = none →
    w.walkRead q.hdr.domain d.seq r sh ps = (v, .pages l) → (v.reserveGrads q.hdr d r sh l).2 = some x →
    ∃ (u : State) (y : Result), exec (.attnBwd q d) s = .next (u.finish c y) ∧ y.status = stNoCapacity ∧ u.job c.id = none ∧
      u.eng.grads = e.eng.grads ∧
      u = { e with fresh := u.fresh, rf := u.rf, host := u.host, kv := u.kv, eng := { e.eng with jobs := u.eng.jobs, merge := u.eng.merge } }) ∧
  (∀ (s e w : State) (q : Req) (d : AttnD) (c : Cmd) (r : SeqRec) (sh : Shape) (bytes : List Byte) (j : AttnJob) (ps : List Point),
    s.attnStarts q true d e w c r sh bytes j ps → q.hdr.flag 2 = false → w.drainAhead q.hdr c.id = true →
    ∃ t, exec (.attnBwd q d) s = .next t ∧ t.cmd c.id = some { c with wait := .turn } ∧ t.job c.id = some j ∧ t = { w with cmds := t.cmds }) ∧
  (∀ (s e : State) (q : Req) (d : DrainD) (take : List ((Nat × Nat × Nat) × GradPage)), s.admits q (.gradDrain d) = true →
    e = s.admitted q (.gradDrain d) → e.kv.codes = [] → (e.eng.grads.map (fun p => p.1)).Nodup → d.layerCount ≠ 0 →
    q.hdr.flag 0 = false → d.bytes ≤ 1048512 → e.outputRefused q.src q.hdr.domain d.addr d.bytes = none →
    e.bwdBefore (s.newCmd q (.gradDrain d) false) = false → take = drainFit d.bytes (e.selectGrads q.hdr.context d) →
    ∃ u : State, exec (.gradDrain q d) s = .next (u.finish (s.newCmd q (.gradDrain d) false)
        { status := stOk, c0 := take.length, c1 := (e.selectGrads q.hdr.context d).length - take.length, addr := d.addr
          out := take.flatMap (fun p => drainRecord p.1.2.1 p.1.2.2 p.2) }) ∧
      (∀ p ∈ take, AL.get p.1 u.eng.grads = none) ∧ u = { e with kv := { e.kv with lines := u.kv.lines }, eng := u.eng }) ∧
  (∀ (s e : State) (q : Req) (d : DrainD) (take : List ((Nat × Nat × Nat) × GradPage)), s.admits q (.gradDrain d) = true →
    e = s.admitted q (.gradDrain d) → d.layerCount ≠ 0 → q.hdr.flag 0 = true →
    e.bwdBefore (s.newCmd q (.gradDrain d) false) = false → take = e.selectGrads q.hdr.context d →
    ∃ u : State, exec (.gradDrain q d) s = .next (u.finish (s.newCmd q (.gradDrain d) false)
        { status := stOk, c0 := take.length, addr := d.addr }) ∧
      (∀ p ∈ take, AL.get p.1 u.eng.grads = none) ∧ u = { e with kv := { e.kv with lines := u.kv.lines }, eng := u.eng }) ∧
  (∀ (s e : State) (q : Req) (d : DrainD), s.admits q (.gradDrain d) = true → e = s.admitted q (.gradDrain d) → d.layerCount ≠ 0 →
    q.hdr.flag 0 = false → d.bytes ≤ 1048512 → e.outputRefused q.src q.hdr.domain d.addr d.bytes = none →
    e.bwdBefore (s.newCmd q (.gradDrain d) false) = true →
    ∃ t, exec (.gradDrain q d) s = .next t ∧
      t.cmd (s.newCmd q (.gradDrain d) false).id = some { s.newCmd q (.gradDrain d) false with wait := .turn } ∧ t = { e with cmds := t.cmds })

/-- The starter table (R124 to R134, Tables 5-4 to 5-7). A lookup answers the page record of the lowest way whose entry and frame match in the
caller's domain, else, if it may, in the public one, else nothing; a step goes on from its cursor; an insert takes the lowest free way, a
share and the key's high part; a remove gives them back. What is read here is as it was encoded. -/
def Obligations.StarterEntriesAreFoundAndKept : Prop :=
  (∀ (s e : State) (q : Req) (a : LookupD) (w : Nat) (x : StEntry), s.admits q (.prefixLookup a) = true →
    e = s.admitted q (.prefixLookup a) → s.kv.codes = [] → shapeValid (e.shapeW q.hdr.domain a.shapeId) = true →
    e.outputRefused q.src q.hdr.domain a.resultAddr 32 = none →
    (List.range 8).find? (fun w => (e.entry (matchTag q.hdr.domain a.keyLo) w).any (fun x =>
      isCandidate q.hdr.domain a.shapeId a.keyLo x && e.verified a.keyHi x)) = some w →
    e.entry (matchTag q.hdr.domain a.keyLo) w = some x →
    ∃ (u : State) (n m : Nat), exec (.prefixLookup q a) s = .next (u.finish (s.newCmd q (.prefixLookup a) false)
        { status := stOk, c0 := n, c1 := m, addr := a.resultAddr, out := e.matchRecord x.frame }) ∧
      n % 8 = w ∧ m % 2 = 1 ∧ m / 4 = b2n (q.hdr.domain == 0) ∧ u = { e with rf := u.rf, host := u.host }) ∧
  (∀ (s e : State) (q : Req) (a : LookupD) (w : Nat) (x : StEntry), s.admits q (.prefixLookup a) = true →
    e = s.admitted q (.prefixLookup a) → s.kv.codes = [] → shapeValid (e.shapeW q.hdr.domain a.shapeId) = true → q.hdr.flag 0 = true →
    e.outputRefused q.src q.hdr.domain a.resultAddr 32 = none →
    (List.range 8).find? (fun w => (e.entry (matchTag q.hdr.domain a.keyLo) w).any (fun x =>
      isCandidate q.hdr.domain a.shapeId a.keyLo x && e.verified a.keyHi x)) = none →
    (List.range 8).find? (fun w => (e.entry (matchTag 0 a.keyLo) w).any (fun x =>
      isCandidate 0 a.shapeId a.keyLo x && e.verified a.keyHi x)) = some w →
    e.entry (matchTag 0 a.keyLo) w = some x →
    ∃ (u : State) (n m : Nat), exec (.prefixLookup q a) s = .next (u.finish (s.newCmd q (.prefixLookup a) false)
        { status := stOk, c0 := n, c1 := m, addr := a.resultAddr, out := e.matchRecord x.frame }) ∧
      n % 8 = w ∧ n / 16 % 2 = 1 ∧ m % 2 = 1 ∧ m / 4 = 1 ∧ u = { e with rf := u.rf, host := u.host }) ∧
  (∀ (s e : State) (q : Req) (a : LookupD), s.admits q (.prefixLookup a) = true → e = s.admitted q (.prefixLookup a) → s.kv.codes = [] →
    shapeValid (e.shapeW q.hdr.domain a.shapeId) = true → q.hdr.flag 0 = false →
    e.outputRefused q.src q.hdr.domain a.resultAddr 32 = none →
    (List.range 8).find? (fun w => (e.entry (matchTag q.hdr.domain a.keyLo) w).any (fun x =>
      isCandidate q.hdr.domain a.shapeId a.keyLo x && e.verified a.keyHi x)) = none →
    ∃ (u : State) (n : Nat), exec (.prefixLookup q a) s = .next (u.finish (s.newCmd q (.prefixLookup a) false)
        { status := stOk, c0 := n }) ∧ n < 2 ^ 31 ∧ u = { e with rf := u.rf, host := u.host }) ∧
  (∀ (s e : State) (q : Req) (a : LookupD) (w d : Nat) (x : StEntry), s.admits q (.prefixStep a) = true →
    e = s.admitted q (.prefixStep a) → s.kv.codes = [] → shapeValid (e.shapeW q.hdr.domain a.shapeId) = true → bitOf a.cursor 31 = true →
    e.outputRefused q.src q.hdr.domain a.resultAddr 32 = none → d = (if bitsOf a.cursor 4 1 = 0 then q.hdr.domain else 0) →
    (List.range 8).find? (fun w => decide (a.cursor % 8 < w) && (e.entry (matchTag d a.keyLo) w).any (fun x =>
      isCandidate d a.shapeId a.keyLo x && e.verified a.keyHi x)) = some w →
    e.entry (matchTag d a.keyLo) w = some x →
    ∃ (u : State) (n m : Nat), exec (.prefixStep q a) s = .next (u.finish (s.newCmd q (.prefixStep a) false)
        { status := stOk, c0 := n, c1 := m, addr := a.resultAddr, out := e.matchRecord x.frame }) ∧
      n % 8 = w ∧ m % 2 = 1 ∧ m / 4 = b2n (d == 0) ∧ u = { e with rf := u.rf, host := u.host }) ∧
  (∀ (s e v : State) (q : Req) (a : PrefixD) (f w : Nat), s.admits q (.prefixInsert a) = true → e = s.admitted q (.prefixInsert a) → e.hasRecords q.hdr.domain (.prefixInsert a) = true →
    publicRefused q.src q.hdr.domain = false → e.walkFrame q.hdr.domain a.seq a.vpn = (v, .ok f) →
    e.insertRefusal q.hdr.domain (matchTag q.hdr.domain a.keyLo) f = none → e.freeWay (matchTag q.hdr.domain a.keyLo) = some w →
    ∃ u : State, exec (.prefixInsert q a) s = .next (u.finish (s.newCmd q (.prefixInsert a) false) { status := stOk }) ∧
      u.entry (matchTag q.hdr.domain a.keyLo) w =
        some ⟨tagHi (matchTag q.hdr.domain a.keyLo), q.hdr.domain, (e.page f).shapeId, f, a.keyLo⟩ ∧
      u.page f = { e.page f with share := (e.page f).share + 1, fKeyed := true, keyHi := a.keyHi } ∧
      u = { e with fresh := u.fresh, rf := u.rf, kv := u.kv }) ∧
  (∀ (s e v : State) (q : Req) (a : PrefixD) (f w : Nat) (x : Frame), s.admits q (.prefixRemove a) = true →
    e = s.admitted q (.prefixRemove a) → e.hasRecords q.hdr.domain (.prefixRemove a) = true → publicRefused q.src q.hdr.domain = false → e.walkFrame q.hdr.domain a.seq a.vpn = (v, .ok f) →
    (List.range 8).find? (fun w => (e.entry (matchTag q.hdr.domain a.keyLo) w).any (fun y =>
      y.domain == q.hdr.domain && y.fp == a.keyLo && y.frame == f)) = some w → e.frame f = some x → 1 < x.cur.share →
    ∃ u : State, exec (.prefixRemove q a) s = .next (u.finish (s.newCmd q (.prefixRemove a) false) { status := stOk }) ∧
      u.entry (matchTag q.hdr.domain a.keyLo) w = none ∧
      u.page f = { x.cur with share := x.cur.share - 1, fKeyed := false, keyHi := 0 } ∧
      u = { e with fresh := u.fresh, rf := u.rf, host := u.host, kv := u.kv })

/-- Remote operations of the node (R340 to R342, R344, R360, R361, Table 14-4). Each operation of a ring waits for its response and stands among the
outbound operations with the request message of its descriptor, a write with the data of its area; one whose connection is not the
domain's ends with ST_ACCESS_VIOLATION; the response ends the command with the status and counts it brings, a read with its data. -/
def Obligations.RemoteOperationsAreSent : Prop :=
  (∀ (s e : State) (q : Req) (d : RmaD) (c : Cmd) (n : Nat) (k : Conn), s.admits q (.rmaRead d) = true → e = s.admitted q (.rmaRead d) →
    c = s.newCmd q (.rmaRead d) false → q.src = .ring n → rmaFieldsOk (.rmaRead d) d = true → e.connOf d.conn = some k →
    k.domain = q.hdr.domain → e.inDataArea q.hdr.domain d.localAddr d.length = true →
    ∃ t o, exec (.rmaRead q d) s = .next t ∧ t.cmd c.id = some { c with wait := .remote } ∧ o ∈ t.net.outbound ∧ o.who = .cmd c.id ∧
      o.conn = connId k ∧ o.slots = respSlots d.length ∧ o.body = rmaDesc 0x10 q.hdr.context q.hdr.domain q.hdr.lc q.hdr.tag
        (if k.composition = 0xFFFF then 0 else q.hdr.epoch) d.handle d.offset d.length d.operand d.compare ∧
      t = { e with rf := t.rf, host := t.host, cmds := t.cmds, net := t.net }) ∧
  (∀ (s e : State) (q : Req) (d : RmaD) (c : Cmd) (n : Nat) (k : Conn), s.admits q (.rmaWrite d) = true → e = s.admitted q (.rmaWrite d) →
    c = s.newCmd q (.rmaWrite d) false → q.src = .ring n → rmaFieldsOk (.rmaWrite d) d = true → e.connOf d.conn = some k →
    k.domain = q.hdr.domain → e.inDataArea q.hdr.domain d.localAddr d.length = true →
    ∃ t o, exec (.rmaWrite q d) s = .next t ∧ t.cmd c.id = some { c with wait := .remote } ∧ o ∈ t.net.outbound ∧ o.who = .cmd c.id ∧
      o.conn = connId k ∧ o.slots = 0 ∧ o.body = rmaDesc 0x11 q.hdr.context q.hdr.domain q.hdr.lc q.hdr.tag
        (if k.composition = 0xFFFF then 0 else q.hdr.epoch) d.handle d.offset d.length d.operand d.compare ++ e.ringRead d.localAddr d.length ∧
      t = { e with rf := t.rf, host := t.host, cmds := t.cmds, net := t.net }) ∧
  (∀ (s e : State) (q : Req) (d : RmaD) (c : Cmd) (n : Nat) (k : Conn), s.admits q (.rmaAdd d) = true → e = s.admitted q (.rmaAdd d) →
    c = s.newCmd q (.rmaAdd d) false → q.src = .ring n → rmaFieldsOk (.rmaAdd d) d = true → e.connOf d.conn = some k →
    k.domain = q.hdr.domain →
    ∃ t o, exec (.rmaAdd q d) s = .next t ∧ t.cmd c.id = some { c with wait := .remote } ∧ o ∈ t.net.outbound ∧ o.who = .cmd c.id ∧
      o.conn = connId k ∧ o.slots = 0 ∧ o.body = rmaDesc 0x12 q.hdr.context q.hdr.domain q.hdr.lc q.hdr.tag
        (if k.composition = 0xFFFF then 0 else q.hdr.epoch) d.handle d.offset d.length d.operand d.compare ∧
      t = { e with rf := t.rf, host := t.host, cmds := t.cmds, net := t.net }) ∧
  (∀ (s e : State) (q : Req) (d : RmaD) (c : Cmd) (n : Nat) (k : Conn), s.admits q (.rmaCas d) = true → e = s.admitted q (.rmaCas d) →
    c = s.newCmd q (.rmaCas d) false → q.src = .ring n → rmaFieldsOk (.rmaCas d) d = true → e.connOf d.conn = some k →
    k.domain = q.hdr.domain →
    ∃ t o, exec (.rmaCas q d) s = .next t ∧ t.cmd c.id = some { c with wait := .remote } ∧ o ∈ t.net.outbound ∧ o.who = .cmd c.id ∧
      o.conn = connId k ∧ o.slots = 0 ∧ o.body = rmaDesc 0x13 q.hdr.context q.hdr.domain q.hdr.lc q.hdr.tag
        (if k.composition = 0xFFFF then 0 else q.hdr.epoch) d.handle d.offset d.length d.operand d.compare ∧
      t = { e with rf := t.rf, host := t.host, cmds := t.cmds, net := t.net }) ∧
  (∀ (s e : State) (q : Req) (d : RmaD) (c : Cmd) (n : Nat) (k : Conn), s.admits q (.rmaFlush d) = true → e = s.admitted q (.rmaFlush d) →
    c = s.newCmd q (.rmaFlush d) false → q.src = .ring n → rmaFieldsOk (.rmaFlush d) d = true → e.connOf d.conn = some k →
    k.domain = q.hdr.domain →
    ∃ t o, exec (.rmaFlush q d) s = .next t ∧ t.cmd c.id = some { c with wait := .remote } ∧ o ∈ t.net.outbound ∧ o.who = .cmd c.id ∧
      o.conn = connId k ∧ o.slots = 0 ∧ o.body = rmaDesc 0x14 q.hdr.context q.hdr.domain q.hdr.lc q.hdr.tag
        (if k.composition = 0xFFFF then 0 else q.hdr.epoch) d.handle d.offset d.length d.operand d.compare ∧
      t = { e with rf := t.rf, host := t.host, cmds := t.cmds, net := t.net }) ∧
  (∀ (s e : State) (q : Req) (d : RmaD) (n : Nat), s.admits q (.rmaRead d) = true → e = s.admitted q (.rmaRead d) → q.src = .ring n →
    rmaFieldsOk (.rmaRead d) d = true → (∀ k, e.connOf d.conn = some k → k.domain ≠ q.hdr.domain) →
    exec (.rmaRead q d) s = .next (e.finish (s.newCmd q (.rmaRead d) false) { status := stAccess })) ∧
  (∀ (s : State) (cn id st c0 c1 : Nat) (data : List Byte) (k : Conn) (o : Outbound) (c : Cmd), s.running = true → s.conn cn = some k →
    s.outboundOf (connId k) id = some o → o.abandoned = false → o.peer = none → o.who = .cmd c.id → s.cmd c.id = some c →
    ∃ u : State, exec (.rmaResponse cn id st c0 c1 data) s = .next (State.pumpOutbound (u.finish c
        { status := st, c0 := c0, c1 := c1, addr := (match c.op with | .rmaRead d => d.localAddr | _ => 0), out := (match c.op with | .rmaRead _ => if st = stOk then data else [] | _ => []) })) ∧
      u.net.outbound = s.net.outbound.erase o ∧
      u.net.respReserved = (if o.sent then s.net.respReserved - o.slots else s.net.respReserved) ∧ u = { s with net := u.net }) ∧
  (∀ (s : State) (cn id st c0 c1 : Nat) (data : List Byte) (k : Conn) (o : Outbound), s.running = true → s.conn cn = some k →
    s.outboundOf (connId k) id = some o → o.abandoned = true → o.peer = none →
    ∃ u : State, exec (.rmaResponse cn id st c0 c1 data) s = .next u.pumpOutbound ∧ u.net.outbound = s.net.outbound.erase o ∧
      u = { s with net := u.net })

/-- Remote operations of a peer (R343 to R349, R357, Table 14-5). A write that the region admits places its data, which a read of the region then
gives; a read answers the region's bytes; an ADD and a CAS answer the word as it was and store the sum, or the operand where it compared
equal; a flush answers at once; an operation that Table 14-5 turns away changes no memory of the region and is counted; a notice that has
refusals to tell is written to the region's ring when its interval ends, and waits for the next end while the ring has no free record. -/
def Obligations.PeerOperationsAreServed : Prop :=
  (∀ (s e : State) (q : Req) (d : RmaD) (cn m i : Nat) (g : Region), s.admits q (.rmaWrite d) = true → e = s.admitted q (.rmaWrite d) →
    q.src = .conn cn m → rmaFieldsOk (.rmaWrite d) d = true → d.conn = 0xFFFFFF → d.localAddr = 0 → q.data.length = d.length →
    e.targetCheck q.hdr.domain (some ((e.conn cn).elim cn connId)) 1 d.handle d.offset d.length = stOk →
    e.byHandle d.handle = some (i, g) → g.chunks.Nodup → (∀ p ∈ g.chunks, p.2 < 32768) →
    (g.kind ≠ 0 → g.length ≤ g.chunks.length * 65536) → e.mem.wf = true →
    ∃ u : State, exec (.rmaWriteServe q d) s = .next (u.finish (s.newCmd q (.rmaWrite d) false) { status := stOk, c0 := d.length }) ∧
      (regionSpans g d.offset d.length).flatMap (fun p => u.mem.readN p.1 p.2) = q.data ∧
      (∀ a, (∀ p ∈ regionSpans g d.offset d.length, a < p.1 ∨ p.1 + p.2 ≤ a) → u.mem.read a = e.mem.read a) ∧
      u = { e with
        fresh := u.fresh, mem := u.mem, rf := u.rf, host := u.host, cmds := u.cmds, kv := u.kv, fw := { e.fw with laneLog := u.fw.laneLog }
        integ := u.integ }) ∧
  (∀ (s e : State) (q : Req) (d : RmaD) (cn m i : Nat) (g : Region), s.admits q (.rmaRead d) = true → e = s.admitted q (.rmaRead d) →
    q.src = .conn cn m → rmaFieldsOk (.rmaRead d) d = true → d.conn = 0xFFFFFF → d.localAddr = 0 →
    e.targetCheck q.hdr.domain (some ((e.conn cn).elim cn connId)) 0 d.handle d.offset d.length = stOk →
    e.byHandle d.handle = some (i, g) → (e.regionRead g d.offset d.length).2.2 = false →
    ∃ u : State, exec (.rmaReadServe q d false) s = .next (u.finish (s.newCmd q (.rmaRead d) false)
        { status := stOk, c0 := d.length, out := (regionSpans g d.offset d.length).flatMap (fun p => e.mem.readN p.1 p.2) }) ∧
      u = { e with
        fresh := u.fresh, rf := u.rf, host := u.host, kv := u.kv, fw := { e.fw with laneLog := u.fw.laneLog }, integ := u.integ }) ∧
  (∀ (s e : State) (q : Req) (d : RmaD) (cn m i : Nat) (g : Region), s.admits q (.rmaRead d) = true → e = s.admitted q (.rmaRead d) →
    q.src = .conn cn m → rmaFieldsOk (.rmaRead d) d = true → d.conn = 0xFFFFFF → d.localAddr = 0 →
    e.targetCheck q.hdr.domain (some ((e.conn cn).elim cn connId)) 0 d.handle d.offset d.length = stOk →
    e.byHandle d.handle = some (i, g) →
    ∃ u : State, exec (.rmaReadServe q d true) s = .next (u.finish (s.newCmd q (.rmaRead d) false) { status := stPoisoned }) ∧
      u.mem = e.mem ∧ u.net = e.net ∧ u.cmds = e.cmds) ∧
  (∀ (s e : State) (q : Req) (d : RmaD) (cn m i : Nat) (g : Region), s.admits q (.rmaAdd d) = true → e = s.admitted q (.rmaAdd d) →
    q.src = .conn cn m → rmaFieldsOk (.rmaAdd d) d = true → d.conn = 0xFFFFFF →
    e.targetCheck q.hdr.domain (some ((e.conn cn).elim cn connId)) 2 d.handle d.offset 8 = stOk →
    e.byHandle d.handle = some (i, g) → (e.regionRead g d.offset 8).2.2 = false → e.mem.wf = true →
    ∃ u : State, exec (.rmaAddServe q d false) s = .next (u.finish (s.newCmd q (.rmaAdd d) false)
        { status := stOk, c0 := (e.regionWord g d.offset).toNat % 2 ^ 32, c1 := (e.regionWord g d.offset).toNat / 2 ^ 32 }) ∧
      u.regionWord g d.offset = e.regionWord g d.offset + d.operand ∧ u.net = e.net ∧ u.eng = e.eng) ∧
  (∀ (s e : State) (q : Req) (d : RmaD) (cn m i : Nat) (g : Region), s.admits q (.rmaCas d) = true → e = s.admitted q (.rmaCas d) →
    q.src = .conn cn m → rmaFieldsOk (.rmaCas d) d = true → d.conn = 0xFFFFFF →
    e.targetCheck q.hdr.domain (some ((e.conn cn).elim cn connId)) 2 d.handle d.offset 8 = stOk →
    e.byHandle d.handle = some (i, g) → (e.regionRead g d.offset 8).2.2 = false → e.mem.wf = true →
    ∃ u : State, exec (.rmaCasServe q d false) s = .next (u.finish (s.newCmd q (.rmaCas d) false)
        { status := stOk, c0 := (e.regionWord g d.offset).toNat % 2 ^ 32, c1 := (e.regionWord g d.offset).toNat / 2 ^ 32 }) ∧
      u.regionWord g d.offset = (if e.regionWord g d.offset = d.compare then d.operand else e.regionWord g d.offset) ∧
      (e.regionWord g d.offset ≠ d.compare → u.mem = e.mem) ∧ u.net = e.net ∧ u.eng = e.eng) ∧
  (∀ (s e : State) (q : Req) (d : RmaD) (cn m : Nat), s.admits q (.rmaFlush d) = true → e = s.admitted q (.rmaFlush d) →
    q.src = .conn cn m → rmaFieldsOk (.rmaFlush d) d = true → d.conn = 0xFFFFFF →
    exec (.rmaFlushServe q d) s = .next (e.finish (s.newCmd q (.rmaFlush d) false) { status := stOk })) ∧
  (∀ (s e : State) (q : Req) (d : RmaD) (cn m st : Nat), s.admits q (.rmaWrite d) = true → e = s.admitted q (.rmaWrite d) →
    q.src = .conn cn m → rmaFieldsOk (.rmaWrite d) d = true → d.conn = 0xFFFFFF → d.localAddr = 0 →
    e.targetCheck q.hdr.domain (some ((e.conn cn).elim cn connId)) 1 d.handle d.offset d.length = st → st ≠ stOk →
    ∃ u : State, exec (.rmaWriteServe q d) s = .next (u.finish (s.newCmd q (.rmaWrite d) false) { status := st }) ∧
      u.reg pgXprt (if st = stAccess then 0x1A8 else 0x1AC) = satAdd32 (e.reg pgXprt (if st = stAccess then 0x1A8 else 0x1AC)) 1 ∧
      (∀ h g, e.byHandle d.handle = some (h, g) → g.notify = 0xFFFF → u.mem = e.mem) ∧
      u = { e with mem := u.mem, rf := u.rf, host := u.host, net := u.net }) ∧
  (∀ (s : State) (h st : Nat) (n : Notice), s.running = true → AL.get (h, st) s.net.notices = some n → n.till ≤ s.nrt → n.count = 0 →
    exec (.targetNoticeIntervalEnd h st) s = .next { s with net := { s.net with notices := AL.del (h, st) s.net.notices } }) ∧
  (∀ (s : State) (h st i : Nat) (n : Notice) (g : Region), s.running = true → AL.get (h, st) s.net.notices = some n → n.till ≤ s.nrt →
    n.count ≠ 0 → s.byHandle h = some (i, g) → s.noticeRoom g.notify = false →
    exec (.targetNoticeIntervalEnd h st) s = .next { s with net := { s.net with
      notices := AL.put (h, st)
        { n with till := s.nrt + 100 * max 1 (s.fld pgXprt 0x184 0 16) } s.net.notices } }) ∧
  (∀ (s : State) (h st i : Nat) (n : Notice) (g : Region), s.running = true → AL.get (h, st) s.net.notices = some n → n.till ≤ s.nrt →
    n.count ≠ 0 → s.byHandle h = some (i, g) → s.noticeRoom g.notify = true → s.mem.wf = true →
    ∃ t, exec (.targetNoticeIntervalEnd h st) s = .next t ∧
      t.mem.readN (ringAddr (s.cqBase g.notify + (s.ring g.notify).cqTail * 32)) 32 =
        recordBytes ⟨BitVec.ofNat 32 h, st, n.opcode, g.context, n.conn, n.count, 0, 0, 0⟩ (s.ring g.notify).phase n.first ∧
      t.net = { s.net with notices := AL.put (h, st)
                             { n with count := 0, till := s.nrt + 100 * max 1 (s.fld pgXprt 0x184 0 16) } s.net.notices } ∧
      t = { s with mem := t.mem, rf := t.rf, host := t.host, net := t.net })

/-- Waits (R354 to R359, Tables 14-10, 14-11). A WAIT_COUNT whose queue has got there ends at once, any other waits for its target; one that does not name a
lower queue of its domain ends with ST_WAIT_ORDER; a WAIT_WORD whose word meets its condition ends with the word, any other watches it and
holds its region; a wait that is met ends with the count or the word, and one that runs out ends with ST_TIMEOUT and is counted. -/
def Obligations.WaitsEndOrTimeOut : Prop :=
  (∀ (s e : State) (q : Req) (d : WaitCountD) (n : Nat) (r : Result), s.admits q (.waitCount d) = true →
    e = s.admitted q (.waitCount d) → q.src = .ring n → e.watchOk n d = true →
    e.countResult q.hdr d (if q.hdr.flag 1 then (e.ring d.watch).done + BitVec.ofNat 64 d.target else BitVec.ofNat 64 d.target)
      (e.ring d.watch).fail = some r →
    exec (.waitCount q d) s = .next (e.finish (s.newCmd q (.waitCount d) false) r)) ∧
  (∀ (s e : State) (q : Req) (d : WaitCountD) (n : Nat) (x : DWord), s.admits q (.waitCount d) = true →
    e = s.admitted q (.waitCount d) → q.src = .ring n → e.watchOk n d = true →
    x = (if q.hdr.flag 1 then (e.ring d.watch).done + BitVec.ofNat 64 d.target else BitVec.ofNat 64 d.target) →
    (e.ring d.watch).done.toNat < x.toNat →
    ∃ t, exec (.waitCount q d) s = .next t ∧ t.cmd (s.newCmd q (.waitCount d) false).id = some { s.newCmd q (.waitCount d) false with
        wait := .count x (e.ring d.watch).fail (if d.timeoutUs = 0 then 0 else s.nrt + 100 * d.timeoutUs) } ∧
      t = { e with cmds := t.cmds }) ∧
  (∀ (s e : State) (q : Req) (d : WaitCountD) (n : Nat), s.admits q (.waitCount d) = true → e = s.admitted q (.waitCount d) →
    q.src = .ring n → e.watchOk n d = false →
    exec (.waitCount q d) s = .next (e.finish (s.newCmd q (.waitCount d) false) { status := stWaitOrder })) ∧
  (∀ (s : State) (id till : Nat) (c : Cmd) (d : WaitCountD) (x f0 : DWord), s.running = true → s.cmd id = some c → c.op = .waitCount d →
    c.wait = .count x f0 till → c.hdr.flag 0 = false → x.toNat ≤ (s.ring d.watch).done.toNat →
    exec (.waitCountMet id) s = .next (s.finish c { status := stOk, c0 := (s.ring d.watch).done.toNat % 2 ^ 32 })) ∧
  (∀ (s : State) (id till : Nat) (c : Cmd) (d : WaitCountD) (x f0 : DWord), s.running = true → s.cmd id = some c → c.op = .waitCount d →
    c.wait = .count x f0 till → c.hdr.flag 0 = true → x.toNat ≤ (s.ring d.watch).done.toNat → f0.toNat < (s.ring d.watch).fail.toNat →
    exec (.waitCountMet id) s = .next (s.finish c { status := stAborted, c0 := (s.ring d.watch).done.toNat % 2 ^ 32,
                                                    c1 := ((s.ring d.watch).fail - f0).toNat % 2 ^ 32 })) ∧
  (∀ (s e : State) (q : Req) (d : WaitWordD) (n i : Nat) (g : Region), s.admits q (.waitWord d) = true → e = s.admitted q (.waitWord d) →
    q.src = .ring n → d.cond ≤ 3 → d.offset % 8 = 0 → d.timeoutUs ≠ 0 → d.timeoutUs ≤ e.waitMax →
    e.targetCheck q.hdr.domain none 0 d.handle d.offset 8 = stOk → e.byHandle d.handle = some (i, g) →
    wordMeets d (e.regionWord g d.offset) = true → (e.regionRead g d.offset 8).2.2 = false →
    exec (.waitWord q d) s = .next ((e.regionRead g d.offset 8).1.finish (s.newCmd q (.waitWord d) false)
      { status := stOk, c0 := (e.regionWord g d.offset).toNat % 2 ^ 32, c1 := (e.regionWord g d.offset).toNat / 2 ^ 32 })) ∧
  (∀ (s e u : State) (q : Req) (d : WaitWordD) (n i : Nat) (g : Region), s.admits q (.waitWord d) = true → e = s.admitted q (.waitWord d) →
    q.src = .ring n → d.cond ≤ 3 → d.offset % 8 = 0 → d.timeoutUs ≠ 0 → d.timeoutUs ≤ e.waitMax →
    e.targetCheck q.hdr.domain none 0 d.handle d.offset 8 = stOk → e.byHandle d.handle = some (i, g) →
    wordMeets d (e.regionWord g d.offset) = false → u = (e.regionRead g d.offset 8).1 → (e.regionRead g d.offset 8).2.2 = false →
    ∃ t, exec (.waitWord q d) s = .next t ∧ t.cmd (s.newCmd q (.waitWord d) false).id =
        some { s.newCmd q (.waitWord d) false with wait := .word (s.nrt + 100 * d.timeoutUs) none } ∧
      t.region i = some { g with drain := g.drain + 1 } ∧
      t = { u with cmds := t.cmds, net := { u.net with regions := t.net.regions } }) ∧
  (∀ (s : State) (id till i : Nat) (c : Cmd) (d : WaitWordD) (w : DWord) (g : Region), s.running = true → s.cmd id = some c →
    c.op = .waitWord d → c.wait = .word till (some w) → s.byHandle d.handle = some (i, g) →
    ∃ u : State, exec (.waitWordMet id) s = .next (u.finish c { status := stOk, c0 := w.toNat % 2 ^ 32, c1 := w.toNat / 2 ^ 32 }) ∧
      u.region i = some { g with
        drain := g.drain - 1
        drained := if g.st = .revoking then g.drained + 1 else g.drained } ∧
      u = { s with net := { s.net with regions := u.net.regions } }) ∧
  (∀ (s : State) (id till i : Nat) (c : Cmd) (d : WaitWordD) (g : Region), s.running = true → s.cmd id = some c →
    c.op = .waitWord d → c.wait = .word till none → till ≤ s.nrt → s.byHandle d.handle = some (i, g) →
    ∃ u : State, exec (.waitTimeout id) s = .next (u.finish c { status := stTimeout, c0 := (s.regionWord g d.offset).toNat % 2 ^ 32,
                                                                c1 := (s.regionWord g d.offset).toNat / 2 ^ 32 }) ∧
      u.reg pgXprt 0x1B0 = satAdd32 (s.reg pgXprt 0x1B0) 1 ∧
      u.region i = some { g with
        drain := g.drain - 1
        drained := if g.st = .revoking then g.drained + 1 else g.drained } ∧
      u = { s with rf := u.rf, net := { s.net with regions := u.net.regions } }) ∧
  (∀ (s : State) (id till : Nat) (c : Cmd) (d : WaitCountD) (x f0 : DWord), s.running = true → s.cmd id = some c → c.op = .waitCount d →
    c.wait = .count x f0 till → till ≠ 0 → till ≤ s.nrt → s.countResult c.hdr d x f0 = none →
    ∃ u : State, exec (.waitTimeout id) s = .next (u.finish c { status := stTimeout, c0 := (s.ring d.watch).done.toNat % 2 ^ 32 }) ∧
      u.reg pgXprt 0x1B0 = satAdd32 (s.reg pgXprt 0x1B0) 1 ∧ u = { s with rf := u.rf })

/-- Regions (R337 to R339, R350 to R353, Tables 14-1 to 14-3, 14-8). A registration takes the lowest free index under its generation, a Rack region zeroed
chunks charged to the domain, a peer its entry; with its quota or the table full it ends with ST_NO_CAPACITY; a revoke makes the region
REVOKING and waits for what is under way; the drained region is FREE with the next generation, its chunks zero and returned, and the
revokes end; a drained peer entry is REVOKED. -/
def Obligations.RegionsComeAndGo : Prop :=
  (∀ (s e : State) (q : Req) (a : RegisterD) (i : Nat), s.admits q (.regionRegister a) = true → e = s.admitted q (.regionRegister a) →
    e.registerRefusal q.hdr.domain q.src a = none → a.kind = 0 → e.regionCount < 65536 →
    e.regionsOf q.hdr.domain < (e.regI pgXprt 0x18C q.hdr.domain).toNat % 2 ^ 17 →
    i = firstFree ((e.net.regions.filter (fun p => p.2.st != .free)).map (fun p => p.1)) →
    ∃ (u : State) (g : Region), exec (.regionRegister q a) s = .next (u.finish (s.newCmd q (.regionRegister a) false)
        { status := stOk, c0 := e.regionGen i * 65536 + i, c1 := a.length % 2 ^ 32 }) ∧
      u.region i = some g ∧ g.st = .active ∧ g.gen = e.regionGen i ∧ g.kind = 0 ∧ g.domain = q.hdr.domain ∧ g.rights = a.rights ∧
      g.bindConn = a.bindConn ∧ g.base = a.base ∧ g.length = a.length ∧ g.notify = a.notifyRing ∧ g.drain = 0 ∧
      u = { e with net := { e.net with regions := u.net.regions } }) ∧
  (∀ (s e v : State) (q : Req) (a : RegisterD) (i : Nat) (l : List (Nat × Nat)), s.admits q (.regionRegister a) = true →
    e = s.admitted q (.regionRegister a) → e.registerRefusal q.hdr.domain q.src a = none → a.kind = 1 → e.regionCount < 65536 →
    e.regionsOf q.hdr.domain < (e.regI pgXprt 0x18C q.hdr.domain).toNat % 2 ^ 17 →
    i = firstFree ((e.net.regions.filter (fun p => p.2.st != .free)).map (fun p => p.1)) →
    e.regionChunks q.hdr.domain (e.partOf q.hdr.context) i (ceilDiv a.length 65536) = some (v, l) → e.mem.wf = true →
    ∃ (u : State) (g : Region), exec (.regionRegister q a) s = .next (u.finish (s.newCmd q (.regionRegister a) false)
        { status := stOk, c0 := e.regionGen i * 65536 + i, c1 := a.length % 2 ^ 32 }) ∧
      u.region i = some g ∧ g.st = .active ∧ g.gen = e.regionGen i ∧ g.kind = 1 ∧ g.domain = q.hdr.domain ∧ g.rights = a.rights ∧
      g.length = a.length ∧ g.chunks = l ∧ g.notify = a.notifyRing ∧ g.drain = 0 ∧
      (∀ c ∈ l, ∀ b < 65536, u.mem.read (rackAddr c.1 (c.2 * 65536 + b)) = 0) ∧
      u.rused q.hdr.domain = e.rused q.hdr.domain + 256 * l.length ∧
      u = { e with mem := u.mem, rf := u.rf, host := u.host, kv := u.kv, net := { e.net with regions := u.net.regions }, integ := { e.integ with pend := u.integ.pend } }) ∧
  (∀ (s e : State) (q : Req) (a : RegisterD) (k : Conn), s.admits q (.regionRegister a) = true → e = s.admitted q (.regionRegister a) →
    e.registerRefusal q.hdr.domain q.src a = none → a.kind = 2 → e.peerConnOf q.src a.bindConn = some k →
    ∃ u : State, exec (.regionRegister q a) s = .next (u.finish (s.newCmd q (.regionRegister a) false)
        { status := stOk, c0 := a.peerIndex, c1 := a.length % 2 ^ 32 }) ∧
      u.peer q.hdr.domain a.peerIndex = some ⟨.active, connId k, a.peerHandle, a.length, a.rights, 0, 0, 0⟩ ∧
      u = { e with net := { e.net with peers := u.net.peers } }) ∧
  (∀ (s e : State) (q : Req) (a : RegisterD), s.admits q (.regionRegister a) = true → e = s.admitted q (.regionRegister a) →
    e.registerRefusal q.hdr.domain q.src a = none → a.kind ≠ 2 →
    (65536 ≤ e.regionCount ∨ (e.regI pgXprt 0x18C q.hdr.domain).toNat % 2 ^ 17 ≤ e.regionsOf q.hdr.domain) →
    exec (.regionRegister q a) s = .next (e.finish (s.newCmd q (.regionRegister a) false) { status := stNoCapacity, c0 := 1 })) ∧
  (∀ (s e : State) (q : Req) (a : RevokeD) (i : Nat) (g : Region), s.admits q (.regionRevoke a) = true →
    e = s.admitted q (.regionRevoke a) → q.hdr.flag 0 = false → a.peerIndex = 0 → e.byHandle a.handle = some (i, g) →
    g.domain = q.hdr.domain → g.st = .active → g.drain ≠ 0 → (∀ x ∈ e.cmds.list, ∀ d, x.op = .waitWord d → d.handle ≠ a.handle) →
    ∃ t, exec (.regionRevoke q a) s = .next t ∧
      t.cmd (s.newCmd q (.regionRevoke a) false).id = some { s.newCmd q (.regionRevoke a) false with wait := .drain } ∧
      t.region i = some { g with st := .revoking, drained := 0, refused := 0 } ∧
      t = { e with cmds := t.cmds, net := { e.net with regions := t.net.regions } }) ∧
  (∀ (s e : State) (q : Req) (a : RevokeD) (i : Nat) (g : Region), s.admits q (.regionRevoke a) = true →
    e = s.admitted q (.regionRevoke a) → q.hdr.flag 0 = false → a.peerIndex = 0 → e.byHandle a.handle = some (i, g) →
    g.domain = q.hdr.domain → g.st = .active → g.drain = 0 → (∀ x ∈ e.cmds.list, ∀ d, x.op = .waitWord d → d.handle ≠ a.handle) →
    ∃ t, exec (.regionRevoke q a) s = .next t ∧ t.cmd (s.newCmd q (.regionRevoke a) false).id = none ∧
      t.region i = some (blankRegion (if g.gen = 65535 then 1 else g.gen + 1)) ∧
      t.rused q.hdr.domain = e.rused q.hdr.domain - 256 * g.chunks.length ∧
      t = { e with mem := t.mem, rf := t.rf, host := t.host, cmds := t.cmds, net := t.net, kv := t.kv }) ∧
  (∀ (s e : State) (q : Req) (a : RevokeD), s.admits q (.regionRevoke a) = true → e = s.admitted q (.regionRevoke a) →
    q.hdr.flag 0 = false → a.peerIndex = 0 → e.byHandle a.handle = none →
    exec (.regionRevoke q a) s = .next (e.finish (s.newCmd q (.regionRevoke a) false) { status := stRegionRevoked })) ∧
  (∀ (s : State) (h i : Nat) (g : Region), s.running = true → s.byHandle h = some (i, g) → g.st = .revoking → g.drain = 0 →
    ∃ t, exec (.regionDrained (.handle h)) s = .next t ∧ t.region i = some (blankRegion (if g.gen = 65535 then 1 else g.gen + 1)) ∧
      (∀ c ∈ s.revokesOf (.handle h), t.cmd c.id = none) ∧ (∀ c ∈ g.chunks, AL.get c t.kv.chunks = none) ∧
      t.rused g.domain = s.rused g.domain - 256 * g.chunks.length ∧
      t = { s with mem := t.mem, rf := t.rf, host := t.host, cmds := t.cmds, net := t.net, kv := t.kv }) ∧
  (∀ (s : State) (d i : Nat) (p : PeerEntry), s.running = true → s.peer d i = some p → p.st = .revoking → p.drain = 0 →
    ∃ t, exec (.regionDrained (.peer d i)) s = .next t ∧ t.peer d i = some { p with st := .revoked } ∧
      (∀ c ∈ s.revokesOf (.peer d i), t.cmd c.id = none) ∧
      t = { s with mem := t.mem, rf := t.rf, host := t.host, cmds := t.cmds, net := t.net })

/-- Checkpoints, overflow exports and migration (R115, R236, R421 to R429, Tables 17-7, 17-8, 17-9). An export takes its snapshot, counts in the sequence's
CHANGE_SEQ and goes on without its command; one whose region is too short ends with ST_NO_CAPACITY and the units that lack; once the
manifest is placed its pages are CKPT_CURRENT and the command ends; an overflow release turns entries of the saved frames into
CHECKPOINT entries; an import makes the sequence of its manifest, each page a CHECKPOINT entry; a migration sends the record and the
pages, its sequence MIGRATING until every page is acknowledged, then MOVED; at the target a record makes the sequence and what does not
verify is refused. What is read here is as it was encoded. -/
def Obligations.SequencesAreSavedAndMoved : Prop :=
  (∀ (s e : State) (q : Req) (a : ExportD) (r : SeqRec) (p : PeerEntry) (l : List (Nat × ExportWay)) (o : List (Nat × ExportWay × Nat) × Nat × Nat),
    s.admits q (.ckptExport a) = true → e = s.admitted q (.ckptExport a) → e.intact q.hdr.domain (.ckptExport a) = true → e.exportRefusal q.hdr.domain a.seq a.peerIndex = none →
    e.seqRec q.hdr.domain a.seq = some r → e.peer q.hdr.domain a.peerIndex = some p →
    l = (e.pageList q.hdr.domain r (e.shape q.hdr.domain r.shapeId) (q.hdr.flag 0)).1 →
    o = e.layObjects (e.shape q.hdr.domain r.shapeId) r a.storeOffset l → o.2.2 * 4096 ≤ p.length →
    ∃ (t : State) (j : Job), exec (.ckptExport q a) s = .next t ∧
      t.cmd (s.newCmd q (.ckptExport a) false).id = some { s.newCmd q (.ckptExport a) false with wait := .exporting, effected := true } ∧
      t.jobRec e.ckpt.next = some j ∧ j.kind = .store ∧ j.cmd = (s.newCmd q (.ckptExport a) false).id ∧ j.seq = a.seq ∧
      j.peer = a.peerIndex ∧ j.recipient = a.recipient ∧ j.mUnit = o.2.1 ∧ j.nextUnit = o.2.2 ∧
      j.pages.map (·.vpn) = (l.filter (fun x => match x.2 with | .write _ => true | _ => false)).map (·.1) ∧
      t.seqRec q.hdr.domain a.seq = some { r with changeSeq := (r.changeSeq + 1) % 2 ^ 64 } ∧
      t = { e with fresh := t.fresh, rf := t.rf, host := t.host, cmds := t.cmds, net := t.net, kv := t.kv, sec := t.sec, ckpt := t.ckpt }) ∧
  (∀ (s e : State) (q : Req) (a : ExportD) (r : SeqRec) (p : PeerEntry) (l : List (Nat × ExportWay)) (o : List (Nat × ExportWay × Nat) × Nat × Nat),
    s.admits q (.ckptExport a) = true → e = s.admitted q (.ckptExport a) → e.intact q.hdr.domain (.ckptExport a) = true → e.exportRefusal q.hdr.domain a.seq a.peerIndex = none →
    e.seqRec q.hdr.domain a.seq = some r → e.peer q.hdr.domain a.peerIndex = some p →
    l = (e.pageList q.hdr.domain r (e.shape q.hdr.domain r.shapeId) (q.hdr.flag 0)).1 →
    o = e.layObjects (e.shape q.hdr.domain r.shapeId) r a.storeOffset l → p.length < o.2.2 * 4096 →
    exec (.ckptExport q a) s =
      .next (e.finish (s.newCmd q (.ckptExport a) false) { status := stNoCapacity, c0 := o.2.2 - p.length / 4096 })) ∧
  (∀ (s e : State) (q : Req) (a : ExportD) (x : Result), s.admits q (.ckptExport a) = true → e = s.admitted q (.ckptExport a) → e.hasRecords q.hdr.domain (.ckptExport a) = true →
    e.exportRefusal q.hdr.domain a.seq a.peerIndex = some x →
    exec (.ckptExport q a) s = .next (e.finish (s.newCmd q (.ckptExport a) false) x)) ∧
  (∀ (s : State) (i : Nat) (j : Job) (c : Cmd) (r : SeqRec), s.running = true → s.jobRec i = some j → j.id = i → j.kind = .store →
    s.jobOps i = [] → j.manifest = [] → j.placed = false → s.cmd j.cmd = some c → s.seqRec j.domain j.seq = some r →
    (j.pages.map (·.frame)).Nodup → (∀ p ∈ j.pages, (s.page p.frame).share ≠ 0) →
    ∃ u : State, exec (.exportManifestPlaced i) s =
        .next (u.finish c { status := if j.lost then stPoisoned else stOk, c0 := j.pages.length, c1 := j.kept }) ∧
      u.jobRec i = none ∧ u.seqRec j.domain j.seq = some { r with lastSet := j.set, nextStore := j.nextUnit } ∧
      (∀ p ∈ j.pages, ((s.pte j.domain p.vpn).st = .bench ∨ (s.pte j.domain p.vpn).st = .rack) → (s.pte j.domain p.vpn).loc = p.frame →
        (s.frame p.frame).isSome → ((s.page p.frame).st = .opened ∨ (s.page p.frame).st = .sealed) → u.page p.frame = { s.page p.frame with
          ckptObj := ckptLoc j.peer p.unit
          fCkptCurrent := (s.page p.frame).valid == p.valid }) ∧
      u = { s with rf := u.rf, host := u.host, kv := u.kv, sec := u.sec, ckpt := { s.ckpt with jobs := u.ckpt.jobs } }) ∧
  (∀ (s : State) (i : Nat) (j : Job) (o : Overflow) (l : List (Nat × Nat)), s.running = true → s.jobRec i = some j → j.kind = .overflow →
    j.placed = true → AL.get j.domain s.ckpt.overflow = some o → l = s.releasable j → (o.need ≤ l.length ∨ o.todo = []) →
    (l.map (·.1)).Nodup → (l.map (·.2)).Nodup →
    ∃ t, exec (.overflowRelease i) s = .next t ∧ t.jobRec i = none ∧ AL.get j.domain t.ckpt.overflow = none ∧
      (∀ x ∈ l, (t.pte j.domain x.1).st = .ckpt ∧ (t.pte j.domain x.1).loc = (s.page x.2).ckptObj) ∧
      (∀ v, v ∉ l.map (·.1) → t.pte j.domain v = s.pte j.domain v) ∧
      t = { s with rf := t.rf, host := t.host, kv := t.kv, ckpt := t.ckpt }) ∧
  (∀ (s e v : State) (q : Req) (a : ImportD) (m : Manifest) (r : SeqRec) (bs : List Byte), s.admits q (.ckptImport a) = true →
    e = s.admitted q (.ckptImport a) →
    s.cmds.list.find? (fun c => c.src == q.src && c.hdr == q.hdr && c.op == .ckptImport a && c.wait == .remote) = none →
    e.jobOfCmd (s.newCmd q (.ckptImport a) false).id = none → e.input q.src q.hdr.domain a.dataAddr (a.nEnv * 256) q.data = .ok bs →
    r = { m.seqRec with
      st := if q.hdr.flag 1 then .parked else .active
      baseVpn := if a.baseVpn = 0xFFFFFFFF then m.seqRec.baseVpn else a.baseVpn
      parkTime := if q.hdr.flag 1 then BitVec.ofNat 64 s.nrt else m.seqRec.parkTime } →
    e.importRefusal q.hdr.domain a m r = none → e.importMap q.hdr.domain q.hdr.context a m r = some v → q.hdr.flag 0 = false →
    openVpns r (e.shape q.hdr.domain r.shapeId) = [] → (m.pages.map (fun x => x.1 - m.seqRec.baseVpn + r.baseVpn)).Nodup →
    ∃ u : State, exec (.ckptImport q a m) s = .next (u.finish (s.newCmd q (.ckptImport a) false)
        { status := stOk, c0 := r.nextPos.foldl min (r.nextPos.headD 0), c1 := m.pages.length }) ∧
      u.seqRec q.hdr.domain a.dstSeq = some r ∧
      (∀ x ∈ m.pages, (u.pte q.hdr.domain (x.1 - m.seqRec.baseVpn + r.baseVpn)).st = .ckpt ∧
        (u.pte q.hdr.domain (x.1 - m.seqRec.baseVpn + r.baseVpn)).loc = ckptLoc a.peerIndex x.2 ∧
        (u.pte q.hdr.domain (x.1 - m.seqRec.baseVpn + r.baseVpn)).poison = m.lost.contains x.1) ∧
      u = { e with rf := u.rf, host := u.host, kv := u.kv, sec := u.sec, integ := { e.integ with pend := u.integ.pend } }) ∧
  (∀ (s e : State) (q : Req) (a : ImportD) (m : Manifest) (bs : List Byte), s.admits q (.ckptImport a) = true →
    e = s.admitted q (.ckptImport a) →
    s.cmds.list.find? (fun c => c.src == q.src && c.hdr == q.hdr && c.op == .ckptImport a && c.wait == .remote) = none →
    e.jobOfCmd (s.newCmd q (.ckptImport a) false).id = none → e.input q.src q.hdr.domain a.dataAddr (a.nEnv * 256) q.data = .ok bs →
    1 ≤ a.nEnv → a.nEnv ≤ 16 → (e.peer q.hdr.domain a.peerIndex).any (fun p => p.st == .active && bitOf p.rights 0) = true →
    m.status = stAuthFailed →
    exec (.ckptImport q a m) s = .next (e.finish (s.newCmd q (.ckptImport a) false) { status := stAuthFailed })) ∧
  (∀ (s e : State) (q : Req) (a : MigrateD) (r : SeqRec) (k : Conn) (l : List (Nat × Pte)), s.admits q (.seqMigrate a) = true →
    e = s.admitted q (.seqMigrate a) → e.intact q.hdr.domain (.seqMigrate a) = true → e.seqRec q.hdr.domain a.seq = some r → lifeRefusal false (some r) = none →
    e.connOf a.conn = some k → k.domain = q.hdr.domain →
    l = (e.seqPtes q.hdr.domain r (e.shape q.hdr.domain r.shapeId)).filter (fun x => x.2.st != .invalid && x.2.st != .peer) → l ≠ [] →
    (∀ x ∈ l, e.walkLost q.hdr.domain x.1 = false ∧ x.2.st ≠ .ckpt ∧ x.2.poison = false ∧ (e.page x.2.loc).st ≠ .poisoned) →
    ∃ (t : State) (j : Job), exec (.seqMigrate q a) s = .next t ∧
      t.cmd (s.newCmd q (.seqMigrate a) false).id = some { s.newCmd q (.seqMigrate a) false with wait := .migration, effected := true } ∧
      t.seqRec q.hdr.domain a.seq = some { r with st := .migrating, changeSeq := (r.changeSeq + 1) % 2 ^ 64 } ∧
      t.jobRec e.ckpt.next = some j ∧ j.kind = .migrate ∧ j.cmd = (s.newCmd q (.seqMigrate a) false).id ∧ j.peer = a.targetSlot ∧
      j.pages.map (·.vpn) = l.map (·.1) ∧ j.pages.all (fun p => !p.acked) = true ∧
      (∀ x ∈ l, (t.frame x.2.loc).map (·.pinCur) = (e.frame x.2.loc).map (fun f => f.pinCur + l.countP (fun y => y.2.loc == x.2.loc))) ∧
      t = { e with fresh := t.fresh, rf := t.rf, host := t.host, cmds := t.cmds, net := t.net, ckpt := t.ckpt, kv := { e.kv with
        seqs := t.kv.seqs, frames := t.kv.frames } }) ∧
  (∀ (s : State) (i v : Nat) (j : Job) (p : JobPage), s.running = true → s.jobRec i = some j → j.id = i → j.kind = .migrate →
    j.pages.find? (fun x => x.vpn == v && !x.acked) = some p → j.pages.all (fun x => x.acked || x.vpn == v) = false →
    (s.page p.frame).st ≠ .poisoned →
    ∃ t, exec (.migratePageAck i v) s = .next t ∧ t.pte j.domain v = { Pte.invalid with st := .peer, loc := j.peer } ∧
      t.jobRec i = some { j with pages := j.pages.map (fun x => if x.vpn = v then { x with acked := true } else x) } ∧
      (∀ w, w ≠ v → t.pte j.domain w = s.pte j.domain w) ∧
      t = { s with rf := t.rf, host := t.host, kv := t.kv, ckpt := { s.ckpt with jobs := t.ckpt.jobs } }) ∧
  (∀ (s : State) (i v : Nat) (j : Job) (p : JobPage) (r : SeqRec) (c : Cmd), s.running = true → s.jobRec i = some j → j.id = i →
    j.kind = .migrate → j.pages.find? (fun x => x.vpn == v && !x.acked) = some p →
    j.pages.all (fun x => x.acked || x.vpn == v) = true → s.seqRec j.domain j.seq = some r → s.cmd j.cmd = some c → s.jobOps i = [] →
    ∃ u : State, exec (.migratePageAck i v) s = .next (u.finish c { status := stOk, c0 := j.pages.length }) ∧
      u.pte j.domain v = { Pte.invalid with st := .peer, loc := j.peer } ∧
      u.seqRec j.domain j.seq = some { r with st := .moved, peerSlot := j.peer } ∧ u.jobRec i = none ∧
      u = { s with rf := u.rf, host := u.host, kv := u.kv, ckpt := { s.ckpt with jobs := u.ckpt.jobs } }) ∧
  (∀ (s : State) (conn msgId d k c half : Nat) (r : SeqRec) (v : State), s.running = true → s.nodeFenced = false → s.seqRec d k = none →
    s.rangeOk d r.baseVpn (rangeLen r.layers r.kvHeads r.pmaxLog2 (s.shape d r.shapeId)) r.pmaxLog2 = true →
    shapeValid (s.shapeW d r.shapeId) = true → s.rused d + r.recordBytes / 256 ≤ s.rquota d →
    (s.walkChannels ((k * 0x9E37 + d) % 384) none).findSome? (fun x => (s.allocMeta x d (r.recordBytes / 2048)).map (fun y => (y.1, x, y.2))) =
      some (v, c, half) →
    ∃ u : State, exec (.incomingMigration conn msgId (.record d k true r)) s = .next (u.answerObject conn msgId stOk) ∧
      u.seqRec d k = some { r with st := .active } ∧ u.rused d = s.rused d + r.recordBytes / 256 ∧
      u = { s with rf := u.rf, host := u.host, kv := u.kv, integ := { s.integ with pend := u.integ.pend } }) ∧
  (∀ (s : State) (conn msgId d k : Nat) (r : SeqRec), s.running = true → s.nodeFenced = false →
    exec (.incomingMigration conn msgId (.record d k false r)) s = .next (s.answerObject conn msgId stAuthFailed)) ∧
  (∀ (s : State) (conn msgId d k v : Nat) (r : SeqRec) (p : Page), s.running = true → s.nodeFenced = false → s.seqRec d k = some r →
    exec (.incomingMigration conn msgId (.page d k v false p)) s = .next (s.answerObject conn msgId stAuthFailed)) ∧
  (∀ (s v : State) (conn msgId d k n : Nat) (r : SeqRec) (p : Page) (g : Got) (gs : List Got), s.running = true → s.kv.codes = [] → s.nodeFenced = false →
    s.seqRec d k = some r → (s.pte d n).st = .invalid → (s.seqAt d n).map (·.1) = some k → (p.fPacked = true → (s.shape d r.shapeId).slotBytes ≠ 0) →
    (s.reserve d none [⟨n, frameStart k (placeOf r (s.shape d r.shapeId) n).layer (placeOf r (s.shape d r.shapeId) n).hg
      (hgOf r (s.shape d r.shapeId)) (placeOf r (s.shape d r.shapeId) n).k, none, true,
      if p.fPacked then (s.shape d r.shapeId).slotBytes else 0⟩]) = .ok (v, g :: gs) →
    ∃ u : State, exec (.incomingMigration conn msgId (.page d k n true p)) s = .next (u.answerObject conn msgId stOk) ∧
      ((u.pte d n).st = .bench ∨ (u.pte d n).st = .rack) ∧ (u.pte d n).loc = g.frame ∧ (u.pte d n).fSealed = p.fSealed ∧
      (u.page g.frame).valid = p.valid ∧ (u.page g.frame).filled = p.filled ∧ (u.page g.frame).vpn = n ∧
      (u.pte d n).packed = p.fPacked ∧ u = { s with rf := u.rf, host := u.host, kv := u.kv, integ := { s.integ with pend := u.integ.pend } })

/-- NOP, FENCE and ABORT (R45, R289 to R295, R355, R469, R501, Tables 2-20, 12-4 to 12-7, 13-8). A NOP of a ring writes its record at CQ_TAIL, with the ring's
phase and the state block after the area, and counts in DONE; suppressed, it writes no record; a NOP of a connection answers with a COMPLETION response. A
FENCE waits for the earlier commands of its context and source. An ABORT ends the commands it covers with ST_ABORTED and completes with
how many they were; while a fragment of a covered command runs in an engine the ABORT waits; at its bound the engine that still holds one
is fenced. -/
def Obligations.ControlCommandsAct : Prop :=
  (∀ (s : State) (q : Req) (n : Nat), s.admits q .nop = true → q.src = .ring n → q.hdr.suppressOk = false → (s.ring n).st = .running →
    (s.ring n).cqTail < s.cqSize n → s.mem.wf = true →
    ∃ t, exec (.nop q) s = .next t ∧ t.cmds.list = s.cmds.list ∧
      t.mem.readN (ringAddr (s.cqBase n + (s.ring n).cqTail * 32)) 32 =
        recordBytes ⟨q.hdr.tag, stOk, 0x32, q.hdr.context, 0, 0, 0, 0, 0⟩ (s.ring n).phase s.nrt ∧
      (t.ring n).done = (s.ring n).done + 1 ∧ (t.ring n).fail = (s.ring n).fail ∧ (t.ring n).inflight = (s.ring n).inflight ∧
      (t.ring n).cqTail = (if (s.ring n).cqTail + 1 = s.cqSize n then 0 else (s.ring n).cqTail + 1) ∧
      (t.ring n).phase = (if (s.ring n).cqTail + 1 = s.cqSize n then !(s.ring n).phase else (s.ring n).phase) ∧
      t.mem.readN (ringAddr (s.cqBase n + s.cqSize n * 32)) 64 = t.stateBlock (t.ring n) ∧
      (∀ m, m ≠ n → t.ring m = s.ring m) ∧
      (∀ a, (a < ringAddr (s.cqBase n + (s.ring n).cqTail * 32) ∨ ringAddr (s.cqBase n + (s.ring n).cqTail * 32) + 32 ≤ a) →
        (a < ringAddr (s.cqBase n + s.cqSize n * 32) ∨ ringAddr (s.cqBase n + s.cqSize n * 32) + 64 ≤ a) → t.mem.read a = s.mem.read a) ∧
      t = { s with mem := t.mem, rf := t.rf, host := t.host, cmds := t.cmds }) ∧
  (∀ (s : State) (q : Req) (n : Nat), s.admits q .nop = true → q.src = .ring n → q.hdr.suppressOk = true → (s.ring n).st = .running →
    s.mem.wf = true →
    ∃ t, exec (.nop q) s = .next t ∧ t.cmds.list = s.cmds.list ∧ (t.ring n).done = (s.ring n).done + 1 ∧
      (t.ring n).cqTail = (s.ring n).cqTail ∧ (t.ring n).inflight = (s.ring n).inflight ∧
      (∀ a, (a < ringAddr (s.cqBase n + s.cqSize n * 32) ∨ ringAddr (s.cqBase n + s.cqSize n * 32) + 64 ≤ a) → t.mem.read a = s.mem.read a) ∧
      t = { s with mem := t.mem, rf := t.rf, host := t.host, cmds := t.cmds }) ∧
  (∀ (s : State) (q : Req) (k m : Nat) (c : Conn), s.admits q .nop = true → q.src = .conn k m → q.hdr.suppressOk = false →
    s.nodeFenced = false → s.conn k = some c →
    ∃ t d, exec (.nop q) s = .next t ∧ t.cmds.list = s.cmds.list ∧ t.conn k = some d ∧
      d.msgs = c.msgs ++ [⟨.response, AL.getD .response 0 c.nextMsg, q.hdr.epoch, respHeader m 0 32 true ++
        recordBytes ⟨q.hdr.tag, stOk, 0x32, q.hdr.context, 0, 0, 0, 0, 0⟩ false s.nrt, 0, [], 0, s.nrt⟩] ∧
      d.inMsgs = c.inMsgs.filter (fun x => !(x.lane == .request && x.msgId == m)) ∧
      t = { s with rf := t.rf, cmds := t.cmds, net := t.net, egress := t.egress }) ∧
  (∀ (s e : State) (q : Req), s.admits q .fence = true → e = s.admitted q .fence → e.fenceIds (s.newCmd q .fence false) ≠ [] →
    ∃ t, exec (.fence q) s = .next t ∧
      t.cmd (s.newCmd q .fence false).id = some { s.newCmd q .fence false with
        wait := .fence (e.fenceIds (s.newCmd q .fence false))
        c0 := (e.fenceIds (s.newCmd q .fence false)).length } ∧
      t = { e with cmds := t.cmds }) ∧
  (∀ (s e : State) (q : Req), s.admits q .fence = true → e = s.admitted q .fence → e.fenceIds (s.newCmd q .fence false) = [] →
    exec (.fence q) s = .next (e.finish (s.newCmd q .fence false) { status := stOk })) ∧
  (∀ (s e : State) (q : Req) (a : AbortD), s.admits q (.abort a) = true → e = s.admitted q (.abort a) → a.scope ≤ 1 →
    e.abortRefusal q.hdr q.src a = none → (e.cmds.list.map (·.id)).Nodup →
    (∀ x ∈ s.cmds.list, e.covers a x = true → (∃ d, x.op = .append d) ∨ (∃ d, x.op = .pageRead d) ∨ (∃ d, x.op = .waitCount d) ∨ x.op = .fence) →
    (∀ x ∈ s.cmds.list, ∀ st, x.wait ≠ .dying st) →
    ∃ u : State, exec (.abort q a) s = .next (u.finish (s.newCmd q (.abort a) false)
        { status := stOk, c0 := s.cmds.list.countP (fun x => e.covers a x) }) ∧
      (∀ x ∈ s.cmds.list, u.cmd x.id = if e.covers a x then none else some x) ∧
      u = { e with mem := u.mem, rf := u.rf, host := u.host, cmds := u.cmds, net := u.net, kv := u.kv }) ∧
  (∀ (s e : State) (q : Req) (a : AbortD) (x : Result), s.admits q (.abort a) = true → e = s.admitted q (.abort a) →
    e.abortRefusal q.hdr q.src a = some x → exec (.abort q a) s = .next (e.finish (s.newCmd q (.abort a) false) x)) ∧
  (∀ (s e : State) (q : Req) (a : AbortD) (x : Cmd) (d : AttnD) (j : AttnJob) (i en : Nat) (f : Frag), s.admits q (.abort a) = true →
    e = s.admitted q (.abort a) → a.scope ≤ 1 → e.abortRefusal q.hdr q.src a = none → s.cmds.list = [x] → e.covers a x = true →
    x.op = .attnFwd d → (∀ st, x.wait ≠ .dying st) → s.job x.id = some j → j.cmd = x.id → j.todo = [] →
    s.eng.frags = [(i, f)] → f.id = i → f.cmd = x.id → f.st = .running en →
    ∃ t, exec (.abort q a) s = .next t ∧ t.frag i = some { f with st := .killing en } ∧
      t.cmd x.id = some { x with wait := .dying stAborted } ∧
      t.cmd (s.newCmd q (.abort a) false).id = some { s.newCmd q (.abort a) false with
        wait := .aborting [x.id] (s.nrt + usTicks (if a.scope = 0 then 20 else 200))
        c0 := 1 } ∧
      t = { e with cmds := t.cmds, eng := t.eng }) ∧
  (∀ (s : State) (i n till k en st : Nat) (units : List Nat) (c x : Cmd) (d : AttnD) (j : AttnJob) (f : Frag), s.running = true → s.kv.codes = [] →
    s.cmd n = some c → c.wait = .aborting [i] till → till ≤ s.nrt → i ≠ n → s.cmd i = some x → x.op = .attnFwd d → x.wait = .dying st →
    s.job i = some j → j.cmd = i → j.anchored = none → j.record.isSome → j.todo = [] → s.eng.frags = [(k, f)] → f.id = k → f.cmd = i →
    f.st = .killing en → enginePage f.tile en ∈ units →
    ∃ t, exec (.quiesceTimeout n units) s = .next t ∧ t.pageFenced (enginePage f.tile en) = true ∧ t.cmd i = none ∧ t.cmd n = none ∧
      t.job i = none ∧ t.frag k = none ∧
      t = { s with mem := t.mem, rf := t.rf, host := t.host, cmds := t.cmds, net := t.net, kv := t.kv, eng := t.eng }) ∧
  (∀ (s : State) (n till : Nat) (ids units : List Nat) (c : Cmd), s.running = true → s.cmd n = some c → c.wait = .aborting ids till →
    s.nrt < till → exec (.quiesceTimeout n units) s = .next s)
end

