-- ==== Sys2Proof/Laws/Commands.lean ====
section
/-!
SUPPORT. What every command and every step can do, said once: the outcome is a next state, the queue is what it was, and what the
admission of a descriptor decides is all that reaches the state.
-/

namespace Sys2Proof.Machine

variable {s t : State}

/-! ### Outcomes -/

@[simp] theorem State.did_eq (s t : State) : s.did t = .next { t with pending := s.pending, nrt := s.nrt } := rfl
@[simp] theorem State.didPower_eq (s t : State) : s.didPower t = .next { t with pending := s.pending } := rfl

theorem State.did_next {u : State} (h : s.did u = .next t) : t = { u with pending := s.pending, nrt := s.nrt } := by
  simpa using h.symm

theorem State.inService_next {f : State → State} (h : s.inService f = .next t) :
    (s.running = true ∧ t = { f s with pending := s.pending, nrt := s.nrt }) ∨ (s.running = false ∧ t = s) := by
  cases hr : s.running <;> simp [State.inService, hr] at h ⊢ <;> exact h.symm

theorem State.inAwake_next {f : State → State} (h : s.inAwake f = .next t) :
    (s.awake = true ∧ t = { f s with pending := s.pending, nrt := s.nrt }) ∨ (s.awake = false ∧ t = s) := by
  cases hr : s.awake <;> simp [State.inAwake, hr] at h ⊢ <;> exact h.symm

theorem State.inPower_next {f : State → State} (h : s.inPower f = .next t) :
    (s.powerGood = true ∧ t = { f s with pending := s.pending, nrt := s.nrt }) ∨ (s.powerGood = false ∧ t = s) := by
  cases hr : s.powerGood <;> simp [State.inPower, hr] at h ⊢ <;> exact h.symm

theorem State.inService_on (h : s.running = true) (f : State → State) :
    s.inService f = .next { f s with pending := s.pending, nrt := s.nrt } := by simp [State.inService, h]

theorem State.inService_off (h : s.running = false) (f : State → State) : s.inService f = .next s := by simp [State.inService, h]

/-- Every command ends in a next state whose queue is the queue that it was given. -/
theorem exec_next (c : Instr) (s : State) : ∃ t, exec c s = .next t ∧ t.pending = s.pending := by
  cases c <;> exact ⟨_, rfl, rfl⟩

theorem exec_pending {c : Instr} (h : exec c s = .next t) : t.pending = s.pending := by
  obtain ⟨u, hu, hp⟩ := exec_next c s
  rw [hu] at h; cases h; exact hp

/-! ### Steps -/

theorem step_nil (h : s.pending = []) : step s = .next s.tick := by simp [step, h]

theorem step_cons {c : Instr} {rest : List Instr} (h : s.pending = c :: rest) : step s = exec c { s with pending := rest } := by
  simp [step, h]

/-! ### Admission -/

/-- All that a descriptor row can do: nothing, a completion without effect, or the run of an admitted command. -/
theorem State.command_cases (s : State) (q : Req) (op : Op) :
    (s.command q op = s) ∨
    (∃ st n p, s.admission q.src q.hdr op = .refuse st n p ∧ s.command q op = s.turnAway q op st n p) ∨
    (∃ fb, s.admission q.src q.hdr op = .accept fb ∧
      s.command q op = s.enter q op (64 * opUnits op.code + q.data.length) fb none false) := by
  cases h : s.admission q.src q.hdr op with
  | stay => left; simp [State.command, State.submit, h]
  | refuse st n p => right; left; exact ⟨st, n, p, rfl, by simp [State.command, State.submit, h]⟩
  | accept fb => right; right; exact ⟨fb, rfl, by simp [State.command, State.submit, h]⟩

theorem State.command_refused {q : Req} {op : Op} {st n : Nat} {p : Bool} (h : s.admission q.src q.hdr op = .refuse st n p) :
    s.command q op = s.turnAway q op st n p := by simp [State.command, State.submit, h]

theorem State.command_accepted {q : Req} {op : Op} {fb : Bool} (h : s.admission q.src q.hdr op = .accept fb) :
    s.command q op = s.enter q op (64 * opUnits op.code + q.data.length) fb none false := by simp [State.command, State.submit, h]

/-- All that the entry of an admitted command can do: it is turned away for its latency class, it waits for its turn, or it runs. -/
theorem State.enter_cases (s : State) (q : Req) (op : Op) (len : Nat) (fb : Bool) (m : Option Manifest) (ue : Bool) :
    s.enter q op len fb m ue =
      if s.lcRefused q.hdr op then (s.taken q op len (s.newCmd q op fb)).finish (s.newCmd q op fb) { status := stUnsupported }
      else if s.mustTurn q.hdr.domain op then s.taken q op len (s.newCmd q op fb)
      else (s.taken q op len (s.newCmd q op fb)).run (s.newCmd q op fb) m ue := by
  unfold State.enter; rfl

theorem State.enter_turn {q : Req} {op : Op} (hl : s.lcRefused q.hdr op = false) (h : s.mustTurn q.hdr.domain op = true) (len : Nat)
    (fb : Bool) (m : Option Manifest) (ue : Bool) : s.enter q op len fb m ue = s.taken q op len (s.newCmd q op fb) := by
  simp [State.enter, h, hl]

theorem State.enter_run {q : Req} {op : Op} (hl : s.lcRefused q.hdr op = false) (h : s.mustTurn q.hdr.domain op = false) (len : Nat)
    (fb : Bool) (m : Option Manifest) (ue : Bool) :
    s.enter q op len fb m ue = (s.taken q op len (s.newCmd q op fb)).run (s.newCmd q op fb) m ue := by
  simp [State.enter, h, hl]

end Sys2Proof.Machine
end

