-- ==== Sys2Proof/Laws/State.lean ====
section
/-!
SUPPORT. What each plain update of the state does to each of its fields: one lemma for a field and an update, true by
unfolding, so that no later proof unfolds a record update.
-/

namespace Sys2Proof.Machine

variable (s : State)

/-! ### State.setRegI -/

@[simp] theorem State.setRegI_pending (pg off idx : Nat) (w : Word) : (s.setRegI pg off idx w).pending = s.pending := rfl
@[simp] theorem State.setRegI_nrt (pg off idx : Nat) (w : Word) : (s.setRegI pg off idx w).nrt = s.nrt := rfl
@[simp] theorem State.setRegI_fresh (pg off idx : Nat) (w : Word) : (s.setRegI pg off idx w).fresh = s.fresh := rfl
@[simp] theorem State.setRegI_mem (pg off idx : Nat) (w : Word) : (s.setRegI pg off idx w).mem = s.mem := rfl
@[simp] theorem State.setRegI_host (pg off idx : Nat) (w : Word) : (s.setRegI pg off idx w).host = s.host := rfl
@[simp] theorem State.setRegI_cmds (pg off idx : Nat) (w : Word) : (s.setRegI pg off idx w).cmds = s.cmds := rfl
@[simp] theorem State.setRegI_net (pg off idx : Nat) (w : Word) : (s.setRegI pg off idx w).net = s.net := rfl
@[simp] theorem State.setRegI_egress (pg off idx : Nat) (w : Word) : (s.setRegI pg off idx w).egress = s.egress := rfl
@[simp] theorem State.setRegI_kv (pg off idx : Nat) (w : Word) : (s.setRegI pg off idx w).kv = s.kv := rfl
@[simp] theorem State.setRegI_eng (pg off idx : Nat) (w : Word) : (s.setRegI pg off idx w).eng = s.eng := rfl
@[simp] theorem State.setRegI_lease (pg off idx : Nat) (w : Word) : (s.setRegI pg off idx w).lease = s.lease := rfl
@[simp] theorem State.setRegI_sec (pg off idx : Nat) (w : Word) : (s.setRegI pg off idx w).sec = s.sec := rfl
@[simp] theorem State.setRegI_fw (pg off idx : Nat) (w : Word) : (s.setRegI pg off idx w).fw = s.fw := rfl
@[simp] theorem State.setRegI_integ (pg off idx : Nat) (w : Word) : (s.setRegI pg off idx w).integ = s.integ := rfl
@[simp] theorem State.setRegI_ckpt (pg off idx : Nat) (w : Word) : (s.setRegI pg off idx w).ckpt = s.ckpt := rfl
@[simp] theorem State.setRegI_pw (pg off idx : Nat) (w : Word) : (s.setRegI pg off idx w).pw = s.pw := rfl

/-! ### State.setReg -/

@[simp] theorem State.setReg_pending (pg off : Nat) (w : Word) : (s.setReg pg off w).pending = s.pending := rfl
@[simp] theorem State.setReg_nrt (pg off : Nat) (w : Word) : (s.setReg pg off w).nrt = s.nrt := rfl
@[simp] theorem State.setReg_fresh (pg off : Nat) (w : Word) : (s.setReg pg off w).fresh = s.fresh := rfl
@[simp] theorem State.setReg_mem (pg off : Nat) (w : Word) : (s.setReg pg off w).mem = s.mem := rfl
@[simp] theorem State.setReg_host (pg off : Nat) (w : Word) : (s.setReg pg off w).host = s.host := rfl
@[simp] theorem State.setReg_cmds (pg off : Nat) (w : Word) : (s.setReg pg off w).cmds = s.cmds := rfl
@[simp] theorem State.setReg_net (pg off : Nat) (w : Word) : (s.setReg pg off w).net = s.net := rfl
@[simp] theorem State.setReg_egress (pg off : Nat) (w : Word) : (s.setReg pg off w).egress = s.egress := rfl
@[simp] theorem State.setReg_kv (pg off : Nat) (w : Word) : (s.setReg pg off w).kv = s.kv := rfl
@[simp] theorem State.setReg_eng (pg off : Nat) (w : Word) : (s.setReg pg off w).eng = s.eng := rfl
@[simp] theorem State.setReg_lease (pg off : Nat) (w : Word) : (s.setReg pg off w).lease = s.lease := rfl
@[simp] theorem State.setReg_sec (pg off : Nat) (w : Word) : (s.setReg pg off w).sec = s.sec := rfl
@[simp] theorem State.setReg_fw (pg off : Nat) (w : Word) : (s.setReg pg off w).fw = s.fw := rfl
@[simp] theorem State.setReg_integ (pg off : Nat) (w : Word) : (s.setReg pg off w).integ = s.integ := rfl
@[simp] theorem State.setReg_ckpt (pg off : Nat) (w : Word) : (s.setReg pg off w).ckpt = s.ckpt := rfl
@[simp] theorem State.setReg_pw (pg off : Nat) (w : Word) : (s.setReg pg off w).pw = s.pw := rfl

/-! ### State.setFld -/

@[simp] theorem State.setFld_pending (pg off lo n v : Nat) : (s.setFld pg off lo n v).pending = s.pending := rfl
@[simp] theorem State.setFld_nrt (pg off lo n v : Nat) : (s.setFld pg off lo n v).nrt = s.nrt := rfl
@[simp] theorem State.setFld_fresh (pg off lo n v : Nat) : (s.setFld pg off lo n v).fresh = s.fresh := rfl
@[simp] theorem State.setFld_mem (pg off lo n v : Nat) : (s.setFld pg off lo n v).mem = s.mem := rfl
@[simp] theorem State.setFld_host (pg off lo n v : Nat) : (s.setFld pg off lo n v).host = s.host := rfl
@[simp] theorem State.setFld_cmds (pg off lo n v : Nat) : (s.setFld pg off lo n v).cmds = s.cmds := rfl
@[simp] theorem State.setFld_net (pg off lo n v : Nat) : (s.setFld pg off lo n v).net = s.net := rfl
@[simp] theorem State.setFld_egress (pg off lo n v : Nat) : (s.setFld pg off lo n v).egress = s.egress := rfl
@[simp] theorem State.setFld_kv (pg off lo n v : Nat) : (s.setFld pg off lo n v).kv = s.kv := rfl
@[simp] theorem State.setFld_eng (pg off lo n v : Nat) : (s.setFld pg off lo n v).eng = s.eng := rfl
@[simp] theorem State.setFld_lease (pg off lo n v : Nat) : (s.setFld pg off lo n v).lease = s.lease := rfl
@[simp] theorem State.setFld_sec (pg off lo n v : Nat) : (s.setFld pg off lo n v).sec = s.sec := rfl
@[simp] theorem State.setFld_fw (pg off lo n v : Nat) : (s.setFld pg off lo n v).fw = s.fw := rfl
@[simp] theorem State.setFld_integ (pg off lo n v : Nat) : (s.setFld pg off lo n v).integ = s.integ := rfl
@[simp] theorem State.setFld_ckpt (pg off lo n v : Nat) : (s.setFld pg off lo n v).ckpt = s.ckpt := rfl
@[simp] theorem State.setFld_pw (pg off lo n v : Nat) : (s.setFld pg off lo n v).pw = s.pw := rfl

/-! ### State.bump -/

@[simp] theorem State.bump_pending (pg off n : Nat) : (s.bump pg off n).pending = s.pending := rfl
@[simp] theorem State.bump_nrt (pg off n : Nat) : (s.bump pg off n).nrt = s.nrt := rfl
@[simp] theorem State.bump_fresh (pg off n : Nat) : (s.bump pg off n).fresh = s.fresh := rfl
@[simp] theorem State.bump_mem (pg off n : Nat) : (s.bump pg off n).mem = s.mem := rfl
@[simp] theorem State.bump_host (pg off n : Nat) : (s.bump pg off n).host = s.host := rfl
@[simp] theorem State.bump_cmds (pg off n : Nat) : (s.bump pg off n).cmds = s.cmds := rfl
@[simp] theorem State.bump_net (pg off n : Nat) : (s.bump pg off n).net = s.net := rfl
@[simp] theorem State.bump_egress (pg off n : Nat) : (s.bump pg off n).egress = s.egress := rfl
@[simp] theorem State.bump_kv (pg off n : Nat) : (s.bump pg off n).kv = s.kv := rfl
@[simp] theorem State.bump_eng (pg off n : Nat) : (s.bump pg off n).eng = s.eng := rfl
@[simp] theorem State.bump_lease (pg off n : Nat) : (s.bump pg off n).lease = s.lease := rfl
@[simp] theorem State.bump_sec (pg off n : Nat) : (s.bump pg off n).sec = s.sec := rfl
@[simp] theorem State.bump_fw (pg off n : Nat) : (s.bump pg off n).fw = s.fw := rfl
@[simp] theorem State.bump_integ (pg off n : Nat) : (s.bump pg off n).integ = s.integ := rfl
@[simp] theorem State.bump_ckpt (pg off n : Nat) : (s.bump pg off n).ckpt = s.ckpt := rfl
@[simp] theorem State.bump_pw (pg off n : Nat) : (s.bump pg off n).pw = s.pw := rfl

/-! ### State.bump64 -/

@[simp] theorem State.bump64_pending (pg off n : Nat) : (s.bump64 pg off n).pending = s.pending := rfl
@[simp] theorem State.bump64_nrt (pg off n : Nat) : (s.bump64 pg off n).nrt = s.nrt := rfl
@[simp] theorem State.bump64_fresh (pg off n : Nat) : (s.bump64 pg off n).fresh = s.fresh := rfl
@[simp] theorem State.bump64_mem (pg off n : Nat) : (s.bump64 pg off n).mem = s.mem := rfl
@[simp] theorem State.bump64_host (pg off n : Nat) : (s.bump64 pg off n).host = s.host := rfl
@[simp] theorem State.bump64_cmds (pg off n : Nat) : (s.bump64 pg off n).cmds = s.cmds := rfl
@[simp] theorem State.bump64_net (pg off n : Nat) : (s.bump64 pg off n).net = s.net := rfl
@[simp] theorem State.bump64_egress (pg off n : Nat) : (s.bump64 pg off n).egress = s.egress := rfl
@[simp] theorem State.bump64_kv (pg off n : Nat) : (s.bump64 pg off n).kv = s.kv := rfl
@[simp] theorem State.bump64_eng (pg off n : Nat) : (s.bump64 pg off n).eng = s.eng := rfl
@[simp] theorem State.bump64_lease (pg off n : Nat) : (s.bump64 pg off n).lease = s.lease := rfl
@[simp] theorem State.bump64_sec (pg off n : Nat) : (s.bump64 pg off n).sec = s.sec := rfl
@[simp] theorem State.bump64_fw (pg off n : Nat) : (s.bump64 pg off n).fw = s.fw := rfl
@[simp] theorem State.bump64_integ (pg off n : Nat) : (s.bump64 pg off n).integ = s.integ := rfl
@[simp] theorem State.bump64_ckpt (pg off n : Nat) : (s.bump64 pg off n).ckpt = s.ckpt := rfl
@[simp] theorem State.bump64_pw (pg off n : Nat) : (s.bump64 pg off n).pw = s.pw := rfl

/-! ### State.commitShadow -/

@[simp] theorem State.commitShadow_pending (pg : Nat) : (s.commitShadow pg).pending = s.pending := rfl
@[simp] theorem State.commitShadow_nrt (pg : Nat) : (s.commitShadow pg).nrt = s.nrt := rfl
@[simp] theorem State.commitShadow_fresh (pg : Nat) : (s.commitShadow pg).fresh = s.fresh := rfl
@[simp] theorem State.commitShadow_mem (pg : Nat) : (s.commitShadow pg).mem = s.mem := rfl
@[simp] theorem State.commitShadow_host (pg : Nat) : (s.commitShadow pg).host = s.host := rfl
@[simp] theorem State.commitShadow_cmds (pg : Nat) : (s.commitShadow pg).cmds = s.cmds := rfl
@[simp] theorem State.commitShadow_net (pg : Nat) : (s.commitShadow pg).net = s.net := rfl
@[simp] theorem State.commitShadow_egress (pg : Nat) : (s.commitShadow pg).egress = s.egress := rfl
@[simp] theorem State.commitShadow_kv (pg : Nat) : (s.commitShadow pg).kv = s.kv := rfl
@[simp] theorem State.commitShadow_eng (pg : Nat) : (s.commitShadow pg).eng = s.eng := rfl
@[simp] theorem State.commitShadow_lease (pg : Nat) : (s.commitShadow pg).lease = s.lease := rfl
@[simp] theorem State.commitShadow_sec (pg : Nat) : (s.commitShadow pg).sec = s.sec := rfl
@[simp] theorem State.commitShadow_fw (pg : Nat) : (s.commitShadow pg).fw = s.fw := rfl
@[simp] theorem State.commitShadow_integ (pg : Nat) : (s.commitShadow pg).integ = s.integ := rfl
@[simp] theorem State.commitShadow_ckpt (pg : Nat) : (s.commitShadow pg).ckpt = s.ckpt := rfl
@[simp] theorem State.commitShadow_pw (pg : Nat) : (s.commitShadow pg).pw = s.pw := rfl

/-! ### State.nextFresh -/

@[simp] theorem State.nextFresh_pending  : (s.nextFresh).pending = s.pending := rfl
@[simp] theorem State.nextFresh_nrt  : (s.nextFresh).nrt = s.nrt := rfl
@[simp] theorem State.nextFresh_fresh  : (s.nextFresh).fresh = s.fresh + 1 := rfl
@[simp] theorem State.nextFresh_mem  : (s.nextFresh).mem = s.mem := rfl
@[simp] theorem State.nextFresh_rf  : (s.nextFresh).rf = s.rf := rfl
@[simp] theorem State.nextFresh_host  : (s.nextFresh).host = s.host := rfl
@[simp] theorem State.nextFresh_cmds  : (s.nextFresh).cmds = s.cmds := rfl
@[simp] theorem State.nextFresh_net  : (s.nextFresh).net = s.net := rfl
@[simp] theorem State.nextFresh_egress  : (s.nextFresh).egress = s.egress := rfl
@[simp] theorem State.nextFresh_kv  : (s.nextFresh).kv = s.kv := rfl
@[simp] theorem State.nextFresh_eng  : (s.nextFresh).eng = s.eng := rfl
@[simp] theorem State.nextFresh_lease  : (s.nextFresh).lease = s.lease := rfl
@[simp] theorem State.nextFresh_sec  : (s.nextFresh).sec = s.sec := rfl
@[simp] theorem State.nextFresh_fw  : (s.nextFresh).fw = s.fw := rfl
@[simp] theorem State.nextFresh_integ  : (s.nextFresh).integ = s.integ := rfl
@[simp] theorem State.nextFresh_ckpt  : (s.nextFresh).ckpt = s.ckpt := rfl
@[simp] theorem State.nextFresh_pw  : (s.nextFresh).pw = s.pw := rfl

/-! ### State.ringWrite -/

@[simp] theorem State.ringWrite_pending (a : Nat) (d : List Byte) : (s.ringWrite a d).pending = s.pending := rfl
@[simp] theorem State.ringWrite_nrt (a : Nat) (d : List Byte) : (s.ringWrite a d).nrt = s.nrt := rfl
@[simp] theorem State.ringWrite_fresh (a : Nat) (d : List Byte) : (s.ringWrite a d).fresh = s.fresh := rfl
@[simp] theorem State.ringWrite_mem (a : Nat) (d : List Byte) : (s.ringWrite a d).mem = s.mem.writeN (ringAddr a) d := rfl
@[simp] theorem State.ringWrite_rf (a : Nat) (d : List Byte) : (s.ringWrite a d).rf = s.rf := rfl
@[simp] theorem State.ringWrite_host (a : Nat) (d : List Byte) : (s.ringWrite a d).host = s.host := rfl
@[simp] theorem State.ringWrite_cmds (a : Nat) (d : List Byte) : (s.ringWrite a d).cmds = s.cmds := rfl
@[simp] theorem State.ringWrite_net (a : Nat) (d : List Byte) : (s.ringWrite a d).net = s.net := rfl
@[simp] theorem State.ringWrite_egress (a : Nat) (d : List Byte) : (s.ringWrite a d).egress = s.egress := rfl
@[simp] theorem State.ringWrite_kv (a : Nat) (d : List Byte) : (s.ringWrite a d).kv = s.kv := rfl
@[simp] theorem State.ringWrite_eng (a : Nat) (d : List Byte) : (s.ringWrite a d).eng = s.eng := rfl
@[simp] theorem State.ringWrite_lease (a : Nat) (d : List Byte) : (s.ringWrite a d).lease = s.lease := rfl
@[simp] theorem State.ringWrite_sec (a : Nat) (d : List Byte) : (s.ringWrite a d).sec = s.sec := rfl
@[simp] theorem State.ringWrite_fw (a : Nat) (d : List Byte) : (s.ringWrite a d).fw = s.fw := rfl
@[simp] theorem State.ringWrite_integ (a : Nat) (d : List Byte) : (s.ringWrite a d).integ = s.integ := rfl
@[simp] theorem State.ringWrite_ckpt (a : Nat) (d : List Byte) : (s.ringWrite a d).ckpt = s.ckpt := rfl
@[simp] theorem State.ringWrite_pw (a : Nat) (d : List Byte) : (s.ringWrite a d).pw = s.pw := rfl

/-! ### State.setRing -/

@[simp] theorem State.setRing_pending (n : Nat) (r : Ring) : (s.setRing n r).pending = s.pending := rfl
@[simp] theorem State.setRing_nrt (n : Nat) (r : Ring) : (s.setRing n r).nrt = s.nrt := rfl
@[simp] theorem State.setRing_fresh (n : Nat) (r : Ring) : (s.setRing n r).fresh = s.fresh := rfl
@[simp] theorem State.setRing_mem (n : Nat) (r : Ring) : (s.setRing n r).mem = s.mem := rfl
@[simp] theorem State.setRing_rf (n : Nat) (r : Ring) : (s.setRing n r).rf = s.rf := rfl
@[simp] theorem State.setRing_host (n : Nat) (r : Ring) : (s.setRing n r).host = { s.host with rings := AL.put n r s.host.rings } := rfl
@[simp] theorem State.setRing_cmds (n : Nat) (r : Ring) : (s.setRing n r).cmds = s.cmds := rfl
@[simp] theorem State.setRing_net (n : Nat) (r : Ring) : (s.setRing n r).net = s.net := rfl
@[simp] theorem State.setRing_egress (n : Nat) (r : Ring) : (s.setRing n r).egress = s.egress := rfl
@[simp] theorem State.setRing_kv (n : Nat) (r : Ring) : (s.setRing n r).kv = s.kv := rfl
@[simp] theorem State.setRing_eng (n : Nat) (r : Ring) : (s.setRing n r).eng = s.eng := rfl
@[simp] theorem State.setRing_lease (n : Nat) (r : Ring) : (s.setRing n r).lease = s.lease := rfl
@[simp] theorem State.setRing_sec (n : Nat) (r : Ring) : (s.setRing n r).sec = s.sec := rfl
@[simp] theorem State.setRing_fw (n : Nat) (r : Ring) : (s.setRing n r).fw = s.fw := rfl
@[simp] theorem State.setRing_integ (n : Nat) (r : Ring) : (s.setRing n r).integ = s.integ := rfl
@[simp] theorem State.setRing_ckpt (n : Nat) (r : Ring) : (s.setRing n r).ckpt = s.ckpt := rfl
@[simp] theorem State.setRing_pw (n : Nat) (r : Ring) : (s.setRing n r).pw = s.pw := rfl

/-! ### State.setConn -/

@[simp] theorem State.setConn_pending (c : Conn) : (s.setConn c).pending = s.pending := rfl
@[simp] theorem State.setConn_nrt (c : Conn) : (s.setConn c).nrt = s.nrt := rfl
@[simp] theorem State.setConn_fresh (c : Conn) : (s.setConn c).fresh = s.fresh := rfl
@[simp] theorem State.setConn_mem (c : Conn) : (s.setConn c).mem = s.mem := rfl
@[simp] theorem State.setConn_rf (c : Conn) : (s.setConn c).rf = s.rf := rfl
@[simp] theorem State.setConn_host (c : Conn) : (s.setConn c).host = s.host := rfl
@[simp] theorem State.setConn_cmds (c : Conn) : (s.setConn c).cmds = s.cmds := rfl
@[simp] theorem State.setConn_net (c : Conn) : (s.setConn c).net = { s.net with conns := AL.put c.index c s.net.conns } := rfl
@[simp] theorem State.setConn_egress (c : Conn) : (s.setConn c).egress = s.egress := rfl
@[simp] theorem State.setConn_kv (c : Conn) : (s.setConn c).kv = s.kv := rfl
@[simp] theorem State.setConn_eng (c : Conn) : (s.setConn c).eng = s.eng := rfl
@[simp] theorem State.setConn_lease (c : Conn) : (s.setConn c).lease = s.lease := rfl
@[simp] theorem State.setConn_sec (c : Conn) : (s.setConn c).sec = s.sec := rfl
@[simp] theorem State.setConn_fw (c : Conn) : (s.setConn c).fw = s.fw := rfl
@[simp] theorem State.setConn_integ (c : Conn) : (s.setConn c).integ = s.integ := rfl
@[simp] theorem State.setConn_ckpt (c : Conn) : (s.setConn c).ckpt = s.ckpt := rfl
@[simp] theorem State.setConn_pw (c : Conn) : (s.setConn c).pw = s.pw := rfl

/-! ### State.sendCtl -/

@[simp] theorem State.sendCtl_pending (c : Nat) (p : CtlPkt) : (s.sendCtl c p).pending = s.pending := rfl
@[simp] theorem State.sendCtl_nrt (c : Nat) (p : CtlPkt) : (s.sendCtl c p).nrt = s.nrt := rfl
@[simp] theorem State.sendCtl_fresh (c : Nat) (p : CtlPkt) : (s.sendCtl c p).fresh = s.fresh := rfl
@[simp] theorem State.sendCtl_mem (c : Nat) (p : CtlPkt) : (s.sendCtl c p).mem = s.mem := rfl
@[simp] theorem State.sendCtl_rf (c : Nat) (p : CtlPkt) : (s.sendCtl c p).rf = s.rf := rfl
@[simp] theorem State.sendCtl_host (c : Nat) (p : CtlPkt) : (s.sendCtl c p).host = s.host := rfl
@[simp] theorem State.sendCtl_cmds (c : Nat) (p : CtlPkt) : (s.sendCtl c p).cmds = s.cmds := rfl
@[simp] theorem State.sendCtl_net (c : Nat) (p : CtlPkt) : (s.sendCtl c p).net = { s.net with ctl := s.net.ctl ++ [(c, p)] } := rfl
@[simp] theorem State.sendCtl_egress (c : Nat) (p : CtlPkt) : (s.sendCtl c p).egress = s.egress := rfl
@[simp] theorem State.sendCtl_kv (c : Nat) (p : CtlPkt) : (s.sendCtl c p).kv = s.kv := rfl
@[simp] theorem State.sendCtl_eng (c : Nat) (p : CtlPkt) : (s.sendCtl c p).eng = s.eng := rfl
@[simp] theorem State.sendCtl_lease (c : Nat) (p : CtlPkt) : (s.sendCtl c p).lease = s.lease := rfl
@[simp] theorem State.sendCtl_sec (c : Nat) (p : CtlPkt) : (s.sendCtl c p).sec = s.sec := rfl
@[simp] theorem State.sendCtl_fw (c : Nat) (p : CtlPkt) : (s.sendCtl c p).fw = s.fw := rfl
@[simp] theorem State.sendCtl_integ (c : Nat) (p : CtlPkt) : (s.sendCtl c p).integ = s.integ := rfl
@[simp] theorem State.sendCtl_ckpt (c : Nat) (p : CtlPkt) : (s.sendCtl c p).ckpt = s.ckpt := rfl
@[simp] theorem State.sendCtl_pw (c : Nat) (p : CtlPkt) : (s.sendCtl c p).pw = s.pw := rfl

/-! ### State.setCmd -/

@[simp] theorem State.setCmd_pending (c : Cmd) : (s.setCmd c).pending = s.pending := rfl
@[simp] theorem State.setCmd_nrt (c : Cmd) : (s.setCmd c).nrt = s.nrt := rfl
@[simp] theorem State.setCmd_fresh (c : Cmd) : (s.setCmd c).fresh = s.fresh := rfl
@[simp] theorem State.setCmd_mem (c : Cmd) : (s.setCmd c).mem = s.mem := rfl
@[simp] theorem State.setCmd_rf (c : Cmd) : (s.setCmd c).rf = s.rf := rfl
@[simp] theorem State.setCmd_host (c : Cmd) : (s.setCmd c).host = s.host := rfl
@[simp] theorem State.setCmd_net (c : Cmd) : (s.setCmd c).net = s.net := rfl
@[simp] theorem State.setCmd_egress (c : Cmd) : (s.setCmd c).egress = s.egress := rfl
@[simp] theorem State.setCmd_kv (c : Cmd) : (s.setCmd c).kv = s.kv := rfl
@[simp] theorem State.setCmd_eng (c : Cmd) : (s.setCmd c).eng = s.eng := rfl
@[simp] theorem State.setCmd_lease (c : Cmd) : (s.setCmd c).lease = s.lease := rfl
@[simp] theorem State.setCmd_sec (c : Cmd) : (s.setCmd c).sec = s.sec := rfl
@[simp] theorem State.setCmd_fw (c : Cmd) : (s.setCmd c).fw = s.fw := rfl
@[simp] theorem State.setCmd_integ (c : Cmd) : (s.setCmd c).integ = s.integ := rfl
@[simp] theorem State.setCmd_ckpt (c : Cmd) : (s.setCmd c).ckpt = s.ckpt := rfl
@[simp] theorem State.setCmd_pw (c : Cmd) : (s.setCmd c).pw = s.pw := rfl

/-! ### State.dropCmd -/

@[simp] theorem State.dropCmd_pending (i : Nat) : (s.dropCmd i).pending = s.pending := rfl
@[simp] theorem State.dropCmd_nrt (i : Nat) : (s.dropCmd i).nrt = s.nrt := rfl
@[simp] theorem State.dropCmd_fresh (i : Nat) : (s.dropCmd i).fresh = s.fresh := rfl
@[simp] theorem State.dropCmd_mem (i : Nat) : (s.dropCmd i).mem = s.mem := rfl
@[simp] theorem State.dropCmd_rf (i : Nat) : (s.dropCmd i).rf = s.rf := rfl
@[simp] theorem State.dropCmd_host (i : Nat) : (s.dropCmd i).host = s.host := rfl
@[simp] theorem State.dropCmd_net (i : Nat) : (s.dropCmd i).net = s.net := rfl
@[simp] theorem State.dropCmd_egress (i : Nat) : (s.dropCmd i).egress = s.egress := rfl
@[simp] theorem State.dropCmd_kv (i : Nat) : (s.dropCmd i).kv = s.kv := rfl
@[simp] theorem State.dropCmd_eng (i : Nat) : (s.dropCmd i).eng = s.eng := rfl
@[simp] theorem State.dropCmd_lease (i : Nat) : (s.dropCmd i).lease = s.lease := rfl
@[simp] theorem State.dropCmd_sec (i : Nat) : (s.dropCmd i).sec = s.sec := rfl
@[simp] theorem State.dropCmd_fw (i : Nat) : (s.dropCmd i).fw = s.fw := rfl
@[simp] theorem State.dropCmd_integ (i : Nat) : (s.dropCmd i).integ = s.integ := rfl
@[simp] theorem State.dropCmd_ckpt (i : Nat) : (s.dropCmd i).ckpt = s.ckpt := rfl
@[simp] theorem State.dropCmd_pw (i : Nat) : (s.dropCmd i).pw = s.pw := rfl

/-! ### State.setKv -/

@[simp] theorem State.setKv_pending (k : KvState) : (s.setKv k).pending = s.pending := rfl
@[simp] theorem State.setKv_nrt (k : KvState) : (s.setKv k).nrt = s.nrt := rfl
@[simp] theorem State.setKv_fresh (k : KvState) : (s.setKv k).fresh = s.fresh := rfl
@[simp] theorem State.setKv_mem (k : KvState) : (s.setKv k).mem = s.mem := rfl
@[simp] theorem State.setKv_rf (k : KvState) : (s.setKv k).rf = s.rf := rfl
@[simp] theorem State.setKv_host (k : KvState) : (s.setKv k).host = s.host := rfl
@[simp] theorem State.setKv_cmds (k : KvState) : (s.setKv k).cmds = s.cmds := rfl
@[simp] theorem State.setKv_net (k : KvState) : (s.setKv k).net = s.net := rfl
@[simp] theorem State.setKv_egress (k : KvState) : (s.setKv k).egress = s.egress := rfl
@[simp] theorem State.setKv_kv (k : KvState) : (s.setKv k).kv = k := rfl
@[simp] theorem State.setKv_eng (k : KvState) : (s.setKv k).eng = s.eng := rfl
@[simp] theorem State.setKv_lease (k : KvState) : (s.setKv k).lease = s.lease := rfl
@[simp] theorem State.setKv_sec (k : KvState) : (s.setKv k).sec = s.sec := rfl
@[simp] theorem State.setKv_fw (k : KvState) : (s.setKv k).fw = s.fw := rfl
@[simp] theorem State.setKv_integ (k : KvState) : (s.setKv k).integ = s.integ := rfl
@[simp] theorem State.setKv_ckpt (k : KvState) : (s.setKv k).ckpt = s.ckpt := rfl
@[simp] theorem State.setKv_pw (k : KvState) : (s.setKv k).pw = s.pw := rfl

/-! ### State.putFrame -/

@[simp] theorem State.putFrame_pending (f : Frame) : (s.putFrame f).pending = s.pending := rfl
@[simp] theorem State.putFrame_nrt (f : Frame) : (s.putFrame f).nrt = s.nrt := rfl
@[simp] theorem State.putFrame_fresh (f : Frame) : (s.putFrame f).fresh = s.fresh := rfl
@[simp] theorem State.putFrame_mem (f : Frame) : (s.putFrame f).mem = s.mem := rfl
@[simp] theorem State.putFrame_rf (f : Frame) : (s.putFrame f).rf = s.rf := rfl
@[simp] theorem State.putFrame_host (f : Frame) : (s.putFrame f).host = s.host := rfl
@[simp] theorem State.putFrame_cmds (f : Frame) : (s.putFrame f).cmds = s.cmds := rfl
@[simp] theorem State.putFrame_net (f : Frame) : (s.putFrame f).net = s.net := rfl
@[simp] theorem State.putFrame_egress (f : Frame) : (s.putFrame f).egress = s.egress := rfl
@[simp] theorem State.putFrame_kv (f : Frame) : (s.putFrame f).kv = { s.kv with frames := AL.put f.num f s.kv.frames } := rfl
@[simp] theorem State.putFrame_eng (f : Frame) : (s.putFrame f).eng = s.eng := rfl
@[simp] theorem State.putFrame_lease (f : Frame) : (s.putFrame f).lease = s.lease := rfl
@[simp] theorem State.putFrame_sec (f : Frame) : (s.putFrame f).sec = s.sec := rfl
@[simp] theorem State.putFrame_fw (f : Frame) : (s.putFrame f).fw = s.fw := rfl
@[simp] theorem State.putFrame_integ (f : Frame) : (s.putFrame f).integ = s.integ := rfl
@[simp] theorem State.putFrame_ckpt (f : Frame) : (s.putFrame f).ckpt = s.ckpt := rfl
@[simp] theorem State.putFrame_pw (f : Frame) : (s.putFrame f).pw = s.pw := rfl

/-! ### State.putSeq -/

@[simp] theorem State.putSeq_pending (d q : Nat) (r : SeqRec) : (s.putSeq d q r).pending = s.pending := rfl
@[simp] theorem State.putSeq_nrt (d q : Nat) (r : SeqRec) : (s.putSeq d q r).nrt = s.nrt := rfl
@[simp] theorem State.putSeq_fresh (d q : Nat) (r : SeqRec) : (s.putSeq d q r).fresh = s.fresh := rfl
@[simp] theorem State.putSeq_mem (d q : Nat) (r : SeqRec) : (s.putSeq d q r).mem = s.mem := rfl
@[simp] theorem State.putSeq_rf (d q : Nat) (r : SeqRec) : (s.putSeq d q r).rf = s.rf := rfl
@[simp] theorem State.putSeq_host (d q : Nat) (r : SeqRec) : (s.putSeq d q r).host = s.host := rfl
@[simp] theorem State.putSeq_cmds (d q : Nat) (r : SeqRec) : (s.putSeq d q r).cmds = s.cmds := rfl
@[simp] theorem State.putSeq_net (d q : Nat) (r : SeqRec) : (s.putSeq d q r).net = s.net := rfl
@[simp] theorem State.putSeq_egress (d q : Nat) (r : SeqRec) : (s.putSeq d q r).egress = s.egress := rfl
@[simp] theorem State.putSeq_kv (d q : Nat) (r : SeqRec) : (s.putSeq d q r).kv = { s.kv with seqs := AL.put (d, q) r s.kv.seqs } := rfl
@[simp] theorem State.putSeq_eng (d q : Nat) (r : SeqRec) : (s.putSeq d q r).eng = s.eng := rfl
@[simp] theorem State.putSeq_lease (d q : Nat) (r : SeqRec) : (s.putSeq d q r).lease = s.lease := rfl
@[simp] theorem State.putSeq_sec (d q : Nat) (r : SeqRec) : (s.putSeq d q r).sec = s.sec := rfl
@[simp] theorem State.putSeq_fw (d q : Nat) (r : SeqRec) : (s.putSeq d q r).fw = s.fw := rfl
@[simp] theorem State.putSeq_integ (d q : Nat) (r : SeqRec) : (s.putSeq d q r).integ = s.integ := rfl
@[simp] theorem State.putSeq_ckpt (d q : Nat) (r : SeqRec) : (s.putSeq d q r).ckpt = s.ckpt := rfl
@[simp] theorem State.putSeq_pw (d q : Nat) (r : SeqRec) : (s.putSeq d q r).pw = s.pw := rfl

/-! ### State.setEng -/

@[simp] theorem State.setEng_pending (e : EngState) : (s.setEng e).pending = s.pending := rfl
@[simp] theorem State.setEng_nrt (e : EngState) : (s.setEng e).nrt = s.nrt := rfl
@[simp] theorem State.setEng_fresh (e : EngState) : (s.setEng e).fresh = s.fresh := rfl
@[simp] theorem State.setEng_mem (e : EngState) : (s.setEng e).mem = s.mem := rfl
@[simp] theorem State.setEng_rf (e : EngState) : (s.setEng e).rf = s.rf := rfl
@[simp] theorem State.setEng_host (e : EngState) : (s.setEng e).host = s.host := rfl
@[simp] theorem State.setEng_cmds (e : EngState) : (s.setEng e).cmds = s.cmds := rfl
@[simp] theorem State.setEng_net (e : EngState) : (s.setEng e).net = s.net := rfl
@[simp] theorem State.setEng_egress (e : EngState) : (s.setEng e).egress = s.egress := rfl
@[simp] theorem State.setEng_kv (e : EngState) : (s.setEng e).kv = s.kv := rfl
@[simp] theorem State.setEng_eng (e : EngState) : (s.setEng e).eng = e := rfl
@[simp] theorem State.setEng_lease (e : EngState) : (s.setEng e).lease = s.lease := rfl
@[simp] theorem State.setEng_sec (e : EngState) : (s.setEng e).sec = s.sec := rfl
@[simp] theorem State.setEng_fw (e : EngState) : (s.setEng e).fw = s.fw := rfl
@[simp] theorem State.setEng_integ (e : EngState) : (s.setEng e).integ = s.integ := rfl
@[simp] theorem State.setEng_ckpt (e : EngState) : (s.setEng e).ckpt = s.ckpt := rfl
@[simp] theorem State.setEng_pw (e : EngState) : (s.setEng e).pw = s.pw := rfl

/-! ### State.putFrag -/

@[simp] theorem State.putFrag_pending (f : Frag) : (s.putFrag f).pending = s.pending := rfl
@[simp] theorem State.putFrag_nrt (f : Frag) : (s.putFrag f).nrt = s.nrt := rfl
@[simp] theorem State.putFrag_fresh (f : Frag) : (s.putFrag f).fresh = s.fresh := rfl
@[simp] theorem State.putFrag_mem (f : Frag) : (s.putFrag f).mem = s.mem := rfl
@[simp] theorem State.putFrag_rf (f : Frag) : (s.putFrag f).rf = s.rf := rfl
@[simp] theorem State.putFrag_host (f : Frag) : (s.putFrag f).host = s.host := rfl
@[simp] theorem State.putFrag_cmds (f : Frag) : (s.putFrag f).cmds = s.cmds := rfl
@[simp] theorem State.putFrag_net (f : Frag) : (s.putFrag f).net = s.net := rfl
@[simp] theorem State.putFrag_egress (f : Frag) : (s.putFrag f).egress = s.egress := rfl
@[simp] theorem State.putFrag_kv (f : Frag) : (s.putFrag f).kv = s.kv := rfl
@[simp] theorem State.putFrag_eng (f : Frag) : (s.putFrag f).eng = { s.eng with frags := AL.put f.id f s.eng.frags } := rfl
@[simp] theorem State.putFrag_lease (f : Frag) : (s.putFrag f).lease = s.lease := rfl
@[simp] theorem State.putFrag_sec (f : Frag) : (s.putFrag f).sec = s.sec := rfl
@[simp] theorem State.putFrag_fw (f : Frag) : (s.putFrag f).fw = s.fw := rfl
@[simp] theorem State.putFrag_integ (f : Frag) : (s.putFrag f).integ = s.integ := rfl
@[simp] theorem State.putFrag_ckpt (f : Frag) : (s.putFrag f).ckpt = s.ckpt := rfl
@[simp] theorem State.putFrag_pw (f : Frag) : (s.putFrag f).pw = s.pw := rfl

/-! ### State.putQueue -/

@[simp] theorem State.putQueue_pending (t q : Nat) (r : QueueRec) : (s.putQueue t q r).pending = s.pending := rfl
@[simp] theorem State.putQueue_nrt (t q : Nat) (r : QueueRec) : (s.putQueue t q r).nrt = s.nrt := rfl
@[simp] theorem State.putQueue_fresh (t q : Nat) (r : QueueRec) : (s.putQueue t q r).fresh = s.fresh := rfl
@[simp] theorem State.putQueue_mem (t q : Nat) (r : QueueRec) : (s.putQueue t q r).mem = s.mem := rfl
@[simp] theorem State.putQueue_rf (t q : Nat) (r : QueueRec) : (s.putQueue t q r).rf = s.rf := rfl
@[simp] theorem State.putQueue_host (t q : Nat) (r : QueueRec) : (s.putQueue t q r).host = s.host := rfl
@[simp] theorem State.putQueue_cmds (t q : Nat) (r : QueueRec) : (s.putQueue t q r).cmds = s.cmds := rfl
@[simp] theorem State.putQueue_net (t q : Nat) (r : QueueRec) : (s.putQueue t q r).net = s.net := rfl
@[simp] theorem State.putQueue_egress (t q : Nat) (r : QueueRec) : (s.putQueue t q r).egress = s.egress := rfl
@[simp] theorem State.putQueue_kv (t q : Nat) (r : QueueRec) : (s.putQueue t q r).kv = s.kv := rfl
@[simp] theorem State.putQueue_eng (t q : Nat) (r : QueueRec) : (s.putQueue t q r).eng = { s.eng with queues := AL.put (t, q) r s.eng.queues } := rfl
@[simp] theorem State.putQueue_lease (t q : Nat) (r : QueueRec) : (s.putQueue t q r).lease = s.lease := rfl
@[simp] theorem State.putQueue_sec (t q : Nat) (r : QueueRec) : (s.putQueue t q r).sec = s.sec := rfl
@[simp] theorem State.putQueue_fw (t q : Nat) (r : QueueRec) : (s.putQueue t q r).fw = s.fw := rfl
@[simp] theorem State.putQueue_integ (t q : Nat) (r : QueueRec) : (s.putQueue t q r).integ = s.integ := rfl
@[simp] theorem State.putQueue_ckpt (t q : Nat) (r : QueueRec) : (s.putQueue t q r).ckpt = s.ckpt := rfl
@[simp] theorem State.putQueue_pw (t q : Nat) (r : QueueRec) : (s.putQueue t q r).pw = s.pw := rfl

/-! ### State.putMctx -/

@[simp] theorem State.putMctx_pending (k : MergeKey) (c : MergeCtx) : (s.putMctx k c).pending = s.pending := rfl
@[simp] theorem State.putMctx_nrt (k : MergeKey) (c : MergeCtx) : (s.putMctx k c).nrt = s.nrt := rfl
@[simp] theorem State.putMctx_fresh (k : MergeKey) (c : MergeCtx) : (s.putMctx k c).fresh = s.fresh := rfl
@[simp] theorem State.putMctx_mem (k : MergeKey) (c : MergeCtx) : (s.putMctx k c).mem = s.mem := rfl
@[simp] theorem State.putMctx_rf (k : MergeKey) (c : MergeCtx) : (s.putMctx k c).rf = s.rf := rfl
@[simp] theorem State.putMctx_host (k : MergeKey) (c : MergeCtx) : (s.putMctx k c).host = s.host := rfl
@[simp] theorem State.putMctx_cmds (k : MergeKey) (c : MergeCtx) : (s.putMctx k c).cmds = s.cmds := rfl
@[simp] theorem State.putMctx_net (k : MergeKey) (c : MergeCtx) : (s.putMctx k c).net = s.net := rfl
@[simp] theorem State.putMctx_egress (k : MergeKey) (c : MergeCtx) : (s.putMctx k c).egress = s.egress := rfl
@[simp] theorem State.putMctx_kv (k : MergeKey) (c : MergeCtx) : (s.putMctx k c).kv = s.kv := rfl
@[simp] theorem State.putMctx_eng (k : MergeKey) (c : MergeCtx) : (s.putMctx k c).eng = { s.eng with merge := AL.put k c s.eng.merge } := rfl
@[simp] theorem State.putMctx_lease (k : MergeKey) (c : MergeCtx) : (s.putMctx k c).lease = s.lease := rfl
@[simp] theorem State.putMctx_sec (k : MergeKey) (c : MergeCtx) : (s.putMctx k c).sec = s.sec := rfl
@[simp] theorem State.putMctx_fw (k : MergeKey) (c : MergeCtx) : (s.putMctx k c).fw = s.fw := rfl
@[simp] theorem State.putMctx_integ (k : MergeKey) (c : MergeCtx) : (s.putMctx k c).integ = s.integ := rfl
@[simp] theorem State.putMctx_ckpt (k : MergeKey) (c : MergeCtx) : (s.putMctx k c).ckpt = s.ckpt := rfl
@[simp] theorem State.putMctx_pw (k : MergeKey) (c : MergeCtx) : (s.putMctx k c).pw = s.pw := rfl

/-! ### State.setNet -/

@[simp] theorem State.setNet_pending (n : NetState) : (s.setNet n).pending = s.pending := rfl
@[simp] theorem State.setNet_nrt (n : NetState) : (s.setNet n).nrt = s.nrt := rfl
@[simp] theorem State.setNet_fresh (n : NetState) : (s.setNet n).fresh = s.fresh := rfl
@[simp] theorem State.setNet_mem (n : NetState) : (s.setNet n).mem = s.mem := rfl
@[simp] theorem State.setNet_rf (n : NetState) : (s.setNet n).rf = s.rf := rfl
@[simp] theorem State.setNet_host (n : NetState) : (s.setNet n).host = s.host := rfl
@[simp] theorem State.setNet_cmds (n : NetState) : (s.setNet n).cmds = s.cmds := rfl
@[simp] theorem State.setNet_net (n : NetState) : (s.setNet n).net = n := rfl
@[simp] theorem State.setNet_egress (n : NetState) : (s.setNet n).egress = s.egress := rfl
@[simp] theorem State.setNet_kv (n : NetState) : (s.setNet n).kv = s.kv := rfl
@[simp] theorem State.setNet_eng (n : NetState) : (s.setNet n).eng = s.eng := rfl
@[simp] theorem State.setNet_lease (n : NetState) : (s.setNet n).lease = s.lease := rfl
@[simp] theorem State.setNet_sec (n : NetState) : (s.setNet n).sec = s.sec := rfl
@[simp] theorem State.setNet_fw (n : NetState) : (s.setNet n).fw = s.fw := rfl
@[simp] theorem State.setNet_integ (n : NetState) : (s.setNet n).integ = s.integ := rfl
@[simp] theorem State.setNet_ckpt (n : NetState) : (s.setNet n).ckpt = s.ckpt := rfl
@[simp] theorem State.setNet_pw (n : NetState) : (s.setNet n).pw = s.pw := rfl

/-! ### State.setPeer -/

@[simp] theorem State.setPeer_pending (d i : Nat) (e : PeerEntry) : (s.setPeer d i e).pending = s.pending := rfl
@[simp] theorem State.setPeer_nrt (d i : Nat) (e : PeerEntry) : (s.setPeer d i e).nrt = s.nrt := rfl
@[simp] theorem State.setPeer_fresh (d i : Nat) (e : PeerEntry) : (s.setPeer d i e).fresh = s.fresh := rfl
@[simp] theorem State.setPeer_mem (d i : Nat) (e : PeerEntry) : (s.setPeer d i e).mem = s.mem := rfl
@[simp] theorem State.setPeer_rf (d i : Nat) (e : PeerEntry) : (s.setPeer d i e).rf = s.rf := rfl
@[simp] theorem State.setPeer_host (d i : Nat) (e : PeerEntry) : (s.setPeer d i e).host = s.host := rfl
@[simp] theorem State.setPeer_cmds (d i : Nat) (e : PeerEntry) : (s.setPeer d i e).cmds = s.cmds := rfl
@[simp] theorem State.setPeer_net (d i : Nat) (e : PeerEntry) : (s.setPeer d i e).net = { s.net with peers := AL.put (d, i) e s.net.peers } := rfl
@[simp] theorem State.setPeer_egress (d i : Nat) (e : PeerEntry) : (s.setPeer d i e).egress = s.egress := rfl
@[simp] theorem State.setPeer_kv (d i : Nat) (e : PeerEntry) : (s.setPeer d i e).kv = s.kv := rfl
@[simp] theorem State.setPeer_eng (d i : Nat) (e : PeerEntry) : (s.setPeer d i e).eng = s.eng := rfl
@[simp] theorem State.setPeer_lease (d i : Nat) (e : PeerEntry) : (s.setPeer d i e).lease = s.lease := rfl
@[simp] theorem State.setPeer_sec (d i : Nat) (e : PeerEntry) : (s.setPeer d i e).sec = s.sec := rfl
@[simp] theorem State.setPeer_fw (d i : Nat) (e : PeerEntry) : (s.setPeer d i e).fw = s.fw := rfl
@[simp] theorem State.setPeer_integ (d i : Nat) (e : PeerEntry) : (s.setPeer d i e).integ = s.integ := rfl
@[simp] theorem State.setPeer_ckpt (d i : Nat) (e : PeerEntry) : (s.setPeer d i e).ckpt = s.ckpt := rfl
@[simp] theorem State.setPeer_pw (d i : Nat) (e : PeerEntry) : (s.setPeer d i e).pw = s.pw := rfl

/-! ### State.setRegion -/

@[simp] theorem State.setRegion_pending (i : Nat) (g : Region) : (s.setRegion i g).pending = s.pending := rfl
@[simp] theorem State.setRegion_nrt (i : Nat) (g : Region) : (s.setRegion i g).nrt = s.nrt := rfl
@[simp] theorem State.setRegion_fresh (i : Nat) (g : Region) : (s.setRegion i g).fresh = s.fresh := rfl
@[simp] theorem State.setRegion_mem (i : Nat) (g : Region) : (s.setRegion i g).mem = s.mem := rfl
@[simp] theorem State.setRegion_rf (i : Nat) (g : Region) : (s.setRegion i g).rf = s.rf := rfl
@[simp] theorem State.setRegion_host (i : Nat) (g : Region) : (s.setRegion i g).host = s.host := rfl
@[simp] theorem State.setRegion_cmds (i : Nat) (g : Region) : (s.setRegion i g).cmds = s.cmds := rfl
@[simp] theorem State.setRegion_net (i : Nat) (g : Region) : (s.setRegion i g).net = { s.net with regions := AL.put i g s.net.regions } := rfl
@[simp] theorem State.setRegion_egress (i : Nat) (g : Region) : (s.setRegion i g).egress = s.egress := rfl
@[simp] theorem State.setRegion_kv (i : Nat) (g : Region) : (s.setRegion i g).kv = s.kv := rfl
@[simp] theorem State.setRegion_eng (i : Nat) (g : Region) : (s.setRegion i g).eng = s.eng := rfl
@[simp] theorem State.setRegion_lease (i : Nat) (g : Region) : (s.setRegion i g).lease = s.lease := rfl
@[simp] theorem State.setRegion_sec (i : Nat) (g : Region) : (s.setRegion i g).sec = s.sec := rfl
@[simp] theorem State.setRegion_fw (i : Nat) (g : Region) : (s.setRegion i g).fw = s.fw := rfl
@[simp] theorem State.setRegion_integ (i : Nat) (g : Region) : (s.setRegion i g).integ = s.integ := rfl
@[simp] theorem State.setRegion_ckpt (i : Nat) (g : Region) : (s.setRegion i g).ckpt = s.ckpt := rfl
@[simp] theorem State.setRegion_pw (i : Nat) (g : Region) : (s.setRegion i g).pw = s.pw := rfl

/-! ### State.setEgress -/

@[simp] theorem State.setEgress_pending (e : EgressState) : (s.setEgress e).pending = s.pending := rfl
@[simp] theorem State.setEgress_nrt (e : EgressState) : (s.setEgress e).nrt = s.nrt := rfl
@[simp] theorem State.setEgress_fresh (e : EgressState) : (s.setEgress e).fresh = s.fresh := rfl
@[simp] theorem State.setEgress_mem (e : EgressState) : (s.setEgress e).mem = s.mem := rfl
@[simp] theorem State.setEgress_rf (e : EgressState) : (s.setEgress e).rf = s.rf := rfl
@[simp] theorem State.setEgress_host (e : EgressState) : (s.setEgress e).host = s.host := rfl
@[simp] theorem State.setEgress_cmds (e : EgressState) : (s.setEgress e).cmds = s.cmds := rfl
@[simp] theorem State.setEgress_net (e : EgressState) : (s.setEgress e).net = s.net := rfl
@[simp] theorem State.setEgress_egress (e : EgressState) : (s.setEgress e).egress = e := rfl
@[simp] theorem State.setEgress_kv (e : EgressState) : (s.setEgress e).kv = s.kv := rfl
@[simp] theorem State.setEgress_eng (e : EgressState) : (s.setEgress e).eng = s.eng := rfl
@[simp] theorem State.setEgress_lease (e : EgressState) : (s.setEgress e).lease = s.lease := rfl
@[simp] theorem State.setEgress_sec (e : EgressState) : (s.setEgress e).sec = s.sec := rfl
@[simp] theorem State.setEgress_fw (e : EgressState) : (s.setEgress e).fw = s.fw := rfl
@[simp] theorem State.setEgress_integ (e : EgressState) : (s.setEgress e).integ = s.integ := rfl
@[simp] theorem State.setEgress_ckpt (e : EgressState) : (s.setEgress e).ckpt = s.ckpt := rfl
@[simp] theorem State.setEgress_pw (e : EgressState) : (s.setEgress e).pw = s.pw := rfl

/-! ### State.setLease -/

@[simp] theorem State.setLease_pending (l : LeaseState) : (s.setLease l).pending = s.pending := rfl
@[simp] theorem State.setLease_nrt (l : LeaseState) : (s.setLease l).nrt = s.nrt := rfl
@[simp] theorem State.setLease_fresh (l : LeaseState) : (s.setLease l).fresh = s.fresh := rfl
@[simp] theorem State.setLease_mem (l : LeaseState) : (s.setLease l).mem = s.mem := rfl
@[simp] theorem State.setLease_rf (l : LeaseState) : (s.setLease l).rf = s.rf := rfl
@[simp] theorem State.setLease_host (l : LeaseState) : (s.setLease l).host = s.host := rfl
@[simp] theorem State.setLease_cmds (l : LeaseState) : (s.setLease l).cmds = s.cmds := rfl
@[simp] theorem State.setLease_net (l : LeaseState) : (s.setLease l).net = s.net := rfl
@[simp] theorem State.setLease_egress (l : LeaseState) : (s.setLease l).egress = s.egress := rfl
@[simp] theorem State.setLease_kv (l : LeaseState) : (s.setLease l).kv = s.kv := rfl
@[simp] theorem State.setLease_eng (l : LeaseState) : (s.setLease l).eng = s.eng := rfl
@[simp] theorem State.setLease_lease (l : LeaseState) : (s.setLease l).lease = l := rfl
@[simp] theorem State.setLease_sec (l : LeaseState) : (s.setLease l).sec = s.sec := rfl
@[simp] theorem State.setLease_fw (l : LeaseState) : (s.setLease l).fw = s.fw := rfl
@[simp] theorem State.setLease_integ (l : LeaseState) : (s.setLease l).integ = s.integ := rfl
@[simp] theorem State.setLease_ckpt (l : LeaseState) : (s.setLease l).ckpt = s.ckpt := rfl
@[simp] theorem State.setLease_pw (l : LeaseState) : (s.setLease l).pw = s.pw := rfl

/-! ### State.setSec -/

@[simp] theorem State.setSec_pending (x : SecState) : (s.setSec x).pending = s.pending := rfl
@[simp] theorem State.setSec_nrt (x : SecState) : (s.setSec x).nrt = s.nrt := rfl
@[simp] theorem State.setSec_fresh (x : SecState) : (s.setSec x).fresh = s.fresh := rfl
@[simp] theorem State.setSec_mem (x : SecState) : (s.setSec x).mem = s.mem := rfl
@[simp] theorem State.setSec_rf (x : SecState) : (s.setSec x).rf = s.rf := rfl
@[simp] theorem State.setSec_host (x : SecState) : (s.setSec x).host = s.host := rfl
@[simp] theorem State.setSec_cmds (x : SecState) : (s.setSec x).cmds = s.cmds := rfl
@[simp] theorem State.setSec_net (x : SecState) : (s.setSec x).net = s.net := rfl
@[simp] theorem State.setSec_egress (x : SecState) : (s.setSec x).egress = s.egress := rfl
@[simp] theorem State.setSec_kv (x : SecState) : (s.setSec x).kv = s.kv := rfl
@[simp] theorem State.setSec_eng (x : SecState) : (s.setSec x).eng = s.eng := rfl
@[simp] theorem State.setSec_lease (x : SecState) : (s.setSec x).lease = s.lease := rfl
@[simp] theorem State.setSec_sec (x : SecState) : (s.setSec x).sec = x := rfl
@[simp] theorem State.setSec_fw (x : SecState) : (s.setSec x).fw = s.fw := rfl
@[simp] theorem State.setSec_integ (x : SecState) : (s.setSec x).integ = s.integ := rfl
@[simp] theorem State.setSec_ckpt (x : SecState) : (s.setSec x).ckpt = s.ckpt := rfl
@[simp] theorem State.setSec_pw (x : SecState) : (s.setSec x).pw = s.pw := rfl

/-! ### State.setFw -/

@[simp] theorem State.setFw_pending (x : FwState) : (s.setFw x).pending = s.pending := rfl
@[simp] theorem State.setFw_nrt (x : FwState) : (s.setFw x).nrt = s.nrt := rfl
@[simp] theorem State.setFw_fresh (x : FwState) : (s.setFw x).fresh = s.fresh := rfl
@[simp] theorem State.setFw_mem (x : FwState) : (s.setFw x).mem = s.mem := rfl
@[simp] theorem State.setFw_rf (x : FwState) : (s.setFw x).rf = s.rf := rfl
@[simp] theorem State.setFw_host (x : FwState) : (s.setFw x).host = s.host := rfl
@[simp] theorem State.setFw_cmds (x : FwState) : (s.setFw x).cmds = s.cmds := rfl
@[simp] theorem State.setFw_net (x : FwState) : (s.setFw x).net = s.net := rfl
@[simp] theorem State.setFw_egress (x : FwState) : (s.setFw x).egress = s.egress := rfl
@[simp] theorem State.setFw_kv (x : FwState) : (s.setFw x).kv = s.kv := rfl
@[simp] theorem State.setFw_eng (x : FwState) : (s.setFw x).eng = s.eng := rfl
@[simp] theorem State.setFw_lease (x : FwState) : (s.setFw x).lease = s.lease := rfl
@[simp] theorem State.setFw_sec (x : FwState) : (s.setFw x).sec = s.sec := rfl
@[simp] theorem State.setFw_fw (x : FwState) : (s.setFw x).fw = x := rfl
@[simp] theorem State.setFw_integ (x : FwState) : (s.setFw x).integ = s.integ := rfl
@[simp] theorem State.setFw_ckpt (x : FwState) : (s.setFw x).ckpt = s.ckpt := rfl
@[simp] theorem State.setFw_pw (x : FwState) : (s.setFw x).pw = s.pw := rfl

/-! ### State.setCore -/

@[simp] theorem State.setCore_pending (c : Nat) (r : CoreRec) : (s.setCore c r).pending = s.pending := rfl
@[simp] theorem State.setCore_nrt (c : Nat) (r : CoreRec) : (s.setCore c r).nrt = s.nrt := rfl
@[simp] theorem State.setCore_fresh (c : Nat) (r : CoreRec) : (s.setCore c r).fresh = s.fresh := rfl
@[simp] theorem State.setCore_mem (c : Nat) (r : CoreRec) : (s.setCore c r).mem = s.mem := rfl
@[simp] theorem State.setCore_rf (c : Nat) (r : CoreRec) : (s.setCore c r).rf = s.rf := rfl
@[simp] theorem State.setCore_host (c : Nat) (r : CoreRec) : (s.setCore c r).host = s.host := rfl
@[simp] theorem State.setCore_cmds (c : Nat) (r : CoreRec) : (s.setCore c r).cmds = s.cmds := rfl
@[simp] theorem State.setCore_net (c : Nat) (r : CoreRec) : (s.setCore c r).net = s.net := rfl
@[simp] theorem State.setCore_egress (c : Nat) (r : CoreRec) : (s.setCore c r).egress = s.egress := rfl
@[simp] theorem State.setCore_kv (c : Nat) (r : CoreRec) : (s.setCore c r).kv = s.kv := rfl
@[simp] theorem State.setCore_eng (c : Nat) (r : CoreRec) : (s.setCore c r).eng = s.eng := rfl
@[simp] theorem State.setCore_lease (c : Nat) (r : CoreRec) : (s.setCore c r).lease = s.lease := rfl
@[simp] theorem State.setCore_sec (c : Nat) (r : CoreRec) : (s.setCore c r).sec = s.sec := rfl
@[simp] theorem State.setCore_fw (c : Nat) (r : CoreRec) : (s.setCore c r).fw = { s.fw with cores := AL.put c r s.fw.cores } := rfl
@[simp] theorem State.setCore_integ (c : Nat) (r : CoreRec) : (s.setCore c r).integ = s.integ := rfl
@[simp] theorem State.setCore_ckpt (c : Nat) (r : CoreRec) : (s.setCore c r).ckpt = s.ckpt := rfl
@[simp] theorem State.setCore_pw (c : Nat) (r : CoreRec) : (s.setCore c r).pw = s.pw := rfl

/-! ### State.setKind -/

@[simp] theorem State.setKind_pending (k : Nat) (x : ImgKind) : (s.setKind k x).pending = s.pending := rfl
@[simp] theorem State.setKind_nrt (k : Nat) (x : ImgKind) : (s.setKind k x).nrt = s.nrt := rfl
@[simp] theorem State.setKind_fresh (k : Nat) (x : ImgKind) : (s.setKind k x).fresh = s.fresh := rfl
@[simp] theorem State.setKind_mem (k : Nat) (x : ImgKind) : (s.setKind k x).mem = s.mem := rfl
@[simp] theorem State.setKind_rf (k : Nat) (x : ImgKind) : (s.setKind k x).rf = s.rf := rfl
@[simp] theorem State.setKind_host (k : Nat) (x : ImgKind) : (s.setKind k x).host = s.host := rfl
@[simp] theorem State.setKind_cmds (k : Nat) (x : ImgKind) : (s.setKind k x).cmds = s.cmds := rfl
@[simp] theorem State.setKind_net (k : Nat) (x : ImgKind) : (s.setKind k x).net = s.net := rfl
@[simp] theorem State.setKind_egress (k : Nat) (x : ImgKind) : (s.setKind k x).egress = s.egress := rfl
@[simp] theorem State.setKind_kv (k : Nat) (x : ImgKind) : (s.setKind k x).kv = s.kv := rfl
@[simp] theorem State.setKind_eng (k : Nat) (x : ImgKind) : (s.setKind k x).eng = s.eng := rfl
@[simp] theorem State.setKind_lease (k : Nat) (x : ImgKind) : (s.setKind k x).lease = s.lease := rfl
@[simp] theorem State.setKind_sec (k : Nat) (x : ImgKind) : (s.setKind k x).sec = s.sec := rfl
@[simp] theorem State.setKind_fw (k : Nat) (x : ImgKind) : (s.setKind k x).fw = { s.fw with kinds := AL.put k x s.fw.kinds } := rfl
@[simp] theorem State.setKind_integ (k : Nat) (x : ImgKind) : (s.setKind k x).integ = s.integ := rfl
@[simp] theorem State.setKind_ckpt (k : Nat) (x : ImgKind) : (s.setKind k x).ckpt = s.ckpt := rfl
@[simp] theorem State.setKind_pw (k : Nat) (x : ImgKind) : (s.setKind k x).pw = s.pw := rfl

/-! ### State.setInteg -/

@[simp] theorem State.setInteg_pending (i : IntegState) : (s.setInteg i).pending = s.pending := rfl
@[simp] theorem State.setInteg_nrt (i : IntegState) : (s.setInteg i).nrt = s.nrt := rfl
@[simp] theorem State.setInteg_fresh (i : IntegState) : (s.setInteg i).fresh = s.fresh := rfl
@[simp] theorem State.setInteg_mem (i : IntegState) : (s.setInteg i).mem = s.mem := rfl
@[simp] theorem State.setInteg_rf (i : IntegState) : (s.setInteg i).rf = s.rf := rfl
@[simp] theorem State.setInteg_host (i : IntegState) : (s.setInteg i).host = s.host := rfl
@[simp] theorem State.setInteg_cmds (i : IntegState) : (s.setInteg i).cmds = s.cmds := rfl
@[simp] theorem State.setInteg_net (i : IntegState) : (s.setInteg i).net = s.net := rfl
@[simp] theorem State.setInteg_egress (i : IntegState) : (s.setInteg i).egress = s.egress := rfl
@[simp] theorem State.setInteg_kv (i : IntegState) : (s.setInteg i).kv = s.kv := rfl
@[simp] theorem State.setInteg_eng (i : IntegState) : (s.setInteg i).eng = s.eng := rfl
@[simp] theorem State.setInteg_lease (i : IntegState) : (s.setInteg i).lease = s.lease := rfl
@[simp] theorem State.setInteg_sec (i : IntegState) : (s.setInteg i).sec = s.sec := rfl
@[simp] theorem State.setInteg_fw (i : IntegState) : (s.setInteg i).fw = s.fw := rfl
@[simp] theorem State.setInteg_integ (i : IntegState) : (s.setInteg i).integ = i := rfl
@[simp] theorem State.setInteg_ckpt (i : IntegState) : (s.setInteg i).ckpt = s.ckpt := rfl
@[simp] theorem State.setInteg_pw (i : IntegState) : (s.setInteg i).pw = s.pw := rfl

/-! ### State.setCkpt -/

@[simp] theorem State.setCkpt_pending (c : CkptState) : (s.setCkpt c).pending = s.pending := rfl
@[simp] theorem State.setCkpt_nrt (c : CkptState) : (s.setCkpt c).nrt = s.nrt := rfl
@[simp] theorem State.setCkpt_fresh (c : CkptState) : (s.setCkpt c).fresh = s.fresh := rfl
@[simp] theorem State.setCkpt_mem (c : CkptState) : (s.setCkpt c).mem = s.mem := rfl
@[simp] theorem State.setCkpt_rf (c : CkptState) : (s.setCkpt c).rf = s.rf := rfl
@[simp] theorem State.setCkpt_host (c : CkptState) : (s.setCkpt c).host = s.host := rfl
@[simp] theorem State.setCkpt_cmds (c : CkptState) : (s.setCkpt c).cmds = s.cmds := rfl
@[simp] theorem State.setCkpt_net (c : CkptState) : (s.setCkpt c).net = s.net := rfl
@[simp] theorem State.setCkpt_egress (c : CkptState) : (s.setCkpt c).egress = s.egress := rfl
@[simp] theorem State.setCkpt_kv (c : CkptState) : (s.setCkpt c).kv = s.kv := rfl
@[simp] theorem State.setCkpt_eng (c : CkptState) : (s.setCkpt c).eng = s.eng := rfl
@[simp] theorem State.setCkpt_lease (c : CkptState) : (s.setCkpt c).lease = s.lease := rfl
@[simp] theorem State.setCkpt_sec (c : CkptState) : (s.setCkpt c).sec = s.sec := rfl
@[simp] theorem State.setCkpt_fw (c : CkptState) : (s.setCkpt c).fw = s.fw := rfl
@[simp] theorem State.setCkpt_integ (c : CkptState) : (s.setCkpt c).integ = s.integ := rfl
@[simp] theorem State.setCkpt_ckpt (c : CkptState) : (s.setCkpt c).ckpt = c := rfl
@[simp] theorem State.setCkpt_pw (c : CkptState) : (s.setCkpt c).pw = s.pw := rfl

/-! ### State.putJobRec -/

@[simp] theorem State.putJobRec_pending (j : Job) : (s.putJobRec j).pending = s.pending := rfl
@[simp] theorem State.putJobRec_nrt (j : Job) : (s.putJobRec j).nrt = s.nrt := rfl
@[simp] theorem State.putJobRec_fresh (j : Job) : (s.putJobRec j).fresh = s.fresh := rfl
@[simp] theorem State.putJobRec_mem (j : Job) : (s.putJobRec j).mem = s.mem := rfl
@[simp] theorem State.putJobRec_rf (j : Job) : (s.putJobRec j).rf = s.rf := rfl
@[simp] theorem State.putJobRec_host (j : Job) : (s.putJobRec j).host = s.host := rfl
@[simp] theorem State.putJobRec_cmds (j : Job) : (s.putJobRec j).cmds = s.cmds := rfl
@[simp] theorem State.putJobRec_net (j : Job) : (s.putJobRec j).net = s.net := rfl
@[simp] theorem State.putJobRec_egress (j : Job) : (s.putJobRec j).egress = s.egress := rfl
@[simp] theorem State.putJobRec_kv (j : Job) : (s.putJobRec j).kv = s.kv := rfl
@[simp] theorem State.putJobRec_eng (j : Job) : (s.putJobRec j).eng = s.eng := rfl
@[simp] theorem State.putJobRec_lease (j : Job) : (s.putJobRec j).lease = s.lease := rfl
@[simp] theorem State.putJobRec_sec (j : Job) : (s.putJobRec j).sec = s.sec := rfl
@[simp] theorem State.putJobRec_fw (j : Job) : (s.putJobRec j).fw = s.fw := rfl
@[simp] theorem State.putJobRec_integ (j : Job) : (s.putJobRec j).integ = s.integ := rfl
@[simp] theorem State.putJobRec_ckpt (j : Job) : (s.putJobRec j).ckpt = { s.ckpt with jobs := AL.put j.id j s.ckpt.jobs } := rfl
@[simp] theorem State.putJobRec_pw (j : Job) : (s.putJobRec j).pw = s.pw := rfl

/-! ### State.setPw -/

@[simp] theorem State.setPw_pending (p : PowerState) : (s.setPw p).pending = s.pending := rfl
@[simp] theorem State.setPw_nrt (p : PowerState) : (s.setPw p).nrt = s.nrt := rfl
@[simp] theorem State.setPw_fresh (p : PowerState) : (s.setPw p).fresh = s.fresh := rfl
@[simp] theorem State.setPw_mem (p : PowerState) : (s.setPw p).mem = s.mem := rfl
@[simp] theorem State.setPw_rf (p : PowerState) : (s.setPw p).rf = s.rf := rfl
@[simp] theorem State.setPw_host (p : PowerState) : (s.setPw p).host = s.host := rfl
@[simp] theorem State.setPw_cmds (p : PowerState) : (s.setPw p).cmds = s.cmds := rfl
@[simp] theorem State.setPw_net (p : PowerState) : (s.setPw p).net = s.net := rfl
@[simp] theorem State.setPw_egress (p : PowerState) : (s.setPw p).egress = s.egress := rfl
@[simp] theorem State.setPw_kv (p : PowerState) : (s.setPw p).kv = s.kv := rfl
@[simp] theorem State.setPw_eng (p : PowerState) : (s.setPw p).eng = s.eng := rfl
@[simp] theorem State.setPw_lease (p : PowerState) : (s.setPw p).lease = s.lease := rfl
@[simp] theorem State.setPw_sec (p : PowerState) : (s.setPw p).sec = s.sec := rfl
@[simp] theorem State.setPw_fw (p : PowerState) : (s.setPw p).fw = s.fw := rfl
@[simp] theorem State.setPw_integ (p : PowerState) : (s.setPw p).integ = s.integ := rfl
@[simp] theorem State.setPw_ckpt (p : PowerState) : (s.setPw p).ckpt = s.ckpt := rfl
@[simp] theorem State.setPw_pw (p : PowerState) : (s.setPw p).pw = p := rfl

/-! ### State.putCtx -/

@[simp] theorem State.putCtx_pending (i : Nat) (c : Ctx) : (s.putCtx i c).pending = s.pending := rfl
@[simp] theorem State.putCtx_nrt (i : Nat) (c : Ctx) : (s.putCtx i c).nrt = s.nrt := rfl
@[simp] theorem State.putCtx_fresh (i : Nat) (c : Ctx) : (s.putCtx i c).fresh = s.fresh := rfl
@[simp] theorem State.putCtx_mem (i : Nat) (c : Ctx) : (s.putCtx i c).mem = s.mem := rfl
@[simp] theorem State.putCtx_rf (i : Nat) (c : Ctx) : (s.putCtx i c).rf = s.rf := rfl
@[simp] theorem State.putCtx_host (i : Nat) (c : Ctx) : (s.putCtx i c).host = s.host := rfl
@[simp] theorem State.putCtx_cmds (i : Nat) (c : Ctx) : (s.putCtx i c).cmds = { s.cmds with ctxs := AL.put i c s.cmds.ctxs } := rfl
@[simp] theorem State.putCtx_net (i : Nat) (c : Ctx) : (s.putCtx i c).net = s.net := rfl
@[simp] theorem State.putCtx_egress (i : Nat) (c : Ctx) : (s.putCtx i c).egress = s.egress := rfl
@[simp] theorem State.putCtx_kv (i : Nat) (c : Ctx) : (s.putCtx i c).kv = s.kv := rfl
@[simp] theorem State.putCtx_eng (i : Nat) (c : Ctx) : (s.putCtx i c).eng = s.eng := rfl
@[simp] theorem State.putCtx_lease (i : Nat) (c : Ctx) : (s.putCtx i c).lease = s.lease := rfl
@[simp] theorem State.putCtx_sec (i : Nat) (c : Ctx) : (s.putCtx i c).sec = s.sec := rfl
@[simp] theorem State.putCtx_fw (i : Nat) (c : Ctx) : (s.putCtx i c).fw = s.fw := rfl
@[simp] theorem State.putCtx_integ (i : Nat) (c : Ctx) : (s.putCtx i c).integ = s.integ := rfl
@[simp] theorem State.putCtx_ckpt (i : Nat) (c : Ctx) : (s.putCtx i c).ckpt = s.ckpt := rfl
@[simp] theorem State.putCtx_pw (i : Nat) (c : Ctx) : (s.putCtx i c).pw = s.pw := rfl

/-- Two states with the same fields are the same. -/
theorem State.eq_of_fields {s t : State} (h0 : s.pending = t.pending) (h1 : s.nrt = t.nrt) (h2 : s.fresh = t.fresh) (h3 : s.mem = t.mem) (h4 : s.rf = t.rf) (h5 : s.host = t.host) (h6 : s.cmds = t.cmds) (h7 : s.net = t.net) (h8 : s.egress = t.egress) (h9 : s.kv = t.kv) (h10 : s.eng = t.eng) (h11 : s.lease = t.lease) (h12 : s.sec = t.sec) (h13 : s.fw = t.fw) (h14 : s.integ = t.integ) (h15 : s.ckpt = t.ckpt) (h16 : s.pw = t.pw) : s = t := by
  cases s; cases t; simp_all

end Sys2Proof.Machine
end

