-- ==== Sys2Proof/Laws/Ops.lean ====
section
/-!
SUPPORT. What the shared operations over registers, links, interrupts and error logs leave unchanged.
-/

namespace Sys2Proof.Machine

variable (s : State)

@[simp] theorem State.setLink_a (r : LinkRec) : s.setLink .a r = { s with host := { s.host with a := r } } := rfl
@[simp] theorem State.setLink_b (r : LinkRec) : s.setLink .b r = { s with host := { s.host with b := r } } := rfl

/-! ### State.setLink -/

@[simp] theorem State.setLink_pending (l : Link) (r : LinkRec) : (s.setLink l r).pending = s.pending := by cases l <;> rfl
@[simp] theorem State.setLink_nrt (l : Link) (r : LinkRec) : (s.setLink l r).nrt = s.nrt := by cases l <;> rfl
@[simp] theorem State.setLink_fresh (l : Link) (r : LinkRec) : (s.setLink l r).fresh = s.fresh := by cases l <;> rfl
@[simp] theorem State.setLink_mem (l : Link) (r : LinkRec) : (s.setLink l r).mem = s.mem := by cases l <;> rfl
@[simp] theorem State.setLink_rf (l : Link) (r : LinkRec) : (s.setLink l r).rf = s.rf := by cases l <;> rfl
@[simp] theorem State.setLink_cmds (l : Link) (r : LinkRec) : (s.setLink l r).cmds = s.cmds := by cases l <;> rfl
@[simp] theorem State.setLink_net (l : Link) (r : LinkRec) : (s.setLink l r).net = s.net := by cases l <;> rfl
@[simp] theorem State.setLink_egress (l : Link) (r : LinkRec) : (s.setLink l r).egress = s.egress := by cases l <;> rfl
@[simp] theorem State.setLink_kv (l : Link) (r : LinkRec) : (s.setLink l r).kv = s.kv := by cases l <;> rfl
@[simp] theorem State.setLink_eng (l : Link) (r : LinkRec) : (s.setLink l r).eng = s.eng := by cases l <;> rfl
@[simp] theorem State.setLink_lease (l : Link) (r : LinkRec) : (s.setLink l r).lease = s.lease := by cases l <;> rfl
@[simp] theorem State.setLink_sec (l : Link) (r : LinkRec) : (s.setLink l r).sec = s.sec := by cases l <;> rfl
@[simp] theorem State.setLink_fw (l : Link) (r : LinkRec) : (s.setLink l r).fw = s.fw := by cases l <;> rfl
@[simp] theorem State.setLink_integ (l : Link) (r : LinkRec) : (s.setLink l r).integ = s.integ := by cases l <;> rfl
@[simp] theorem State.setLink_ckpt (l : Link) (r : LinkRec) : (s.setLink l r).ckpt = s.ckpt := by cases l <;> rfl
@[simp] theorem State.setLink_pw (l : Link) (r : LinkRec) : (s.setLink l r).pw = s.pw := by cases l <;> rfl

@[simp] theorem State.setLink_rings (l : Link) (r : LinkRec) : (s.setLink l r).host.rings = s.host.rings := by cases l <;> rfl
@[simp] theorem State.link_setLink (l : Link) (r : LinkRec) : (s.setLink l r).link l = r := by cases l <;> rfl
@[simp] theorem State.link_setLink_other (l : Link) (r : LinkRec) : (s.setLink l r).link l.other = s.link l.other := by cases l <;> rfl

/-! ### State.emitFlit -/

@[simp] theorem State.emitFlit_pending (l : Link) (b : FlitBody) : (s.emitFlit l b).pending = s.pending := by unfold State.emitFlit; (try dsimp only); split <;> simp
@[simp] theorem State.emitFlit_nrt (l : Link) (b : FlitBody) : (s.emitFlit l b).nrt = s.nrt := by unfold State.emitFlit; (try dsimp only); split <;> simp
@[simp] theorem State.emitFlit_fresh (l : Link) (b : FlitBody) : (s.emitFlit l b).fresh = s.fresh := by unfold State.emitFlit; (try dsimp only); split <;> simp
@[simp] theorem State.emitFlit_mem (l : Link) (b : FlitBody) : (s.emitFlit l b).mem = s.mem := by unfold State.emitFlit; (try dsimp only); split <;> simp
@[simp] theorem State.emitFlit_cmds (l : Link) (b : FlitBody) : (s.emitFlit l b).cmds = s.cmds := by unfold State.emitFlit; (try dsimp only); split <;> simp
@[simp] theorem State.emitFlit_net (l : Link) (b : FlitBody) : (s.emitFlit l b).net = s.net := by unfold State.emitFlit; (try dsimp only); split <;> simp
@[simp] theorem State.emitFlit_egress (l : Link) (b : FlitBody) : (s.emitFlit l b).egress = s.egress := by unfold State.emitFlit; (try dsimp only); split <;> simp
@[simp] theorem State.emitFlit_kv (l : Link) (b : FlitBody) : (s.emitFlit l b).kv = s.kv := by unfold State.emitFlit; (try dsimp only); split <;> simp
@[simp] theorem State.emitFlit_eng (l : Link) (b : FlitBody) : (s.emitFlit l b).eng = s.eng := by unfold State.emitFlit; (try dsimp only); split <;> simp
@[simp] theorem State.emitFlit_lease (l : Link) (b : FlitBody) : (s.emitFlit l b).lease = s.lease := by unfold State.emitFlit; (try dsimp only); split <;> simp
@[simp] theorem State.emitFlit_sec (l : Link) (b : FlitBody) : (s.emitFlit l b).sec = s.sec := by unfold State.emitFlit; (try dsimp only); split <;> simp
@[simp] theorem State.emitFlit_fw (l : Link) (b : FlitBody) : (s.emitFlit l b).fw = s.fw := by unfold State.emitFlit; (try dsimp only); split <;> simp
@[simp] theorem State.emitFlit_integ (l : Link) (b : FlitBody) : (s.emitFlit l b).integ = s.integ := by unfold State.emitFlit; (try dsimp only); split <;> simp
@[simp] theorem State.emitFlit_ckpt (l : Link) (b : FlitBody) : (s.emitFlit l b).ckpt = s.ckpt := by unfold State.emitFlit; (try dsimp only); split <;> simp
@[simp] theorem State.emitFlit_pw (l : Link) (b : FlitBody) : (s.emitFlit l b).pw = s.pw := by unfold State.emitFlit; (try dsimp only); split <;> simp

@[simp] theorem State.emitFlit_rings (l : Link) (b : FlitBody) : (s.emitFlit l b).host.rings = s.host.rings := by
  unfold State.emitFlit; (try dsimp only); split <;> simp

/-! ### State.drainWaiting -/

@[simp] theorem State.drainWaiting_pending (l : Link) (n : Nat) : (s.drainWaiting l n).pending = s.pending := by
  induction n generalizing s with
  | zero => rfl
  | succ n ih => unfold State.drainWaiting; (try dsimp only); (repeat' split) <;> simp [ih]
@[simp] theorem State.drainWaiting_nrt (l : Link) (n : Nat) : (s.drainWaiting l n).nrt = s.nrt := by
  induction n generalizing s with
  | zero => rfl
  | succ n ih => unfold State.drainWaiting; (try dsimp only); (repeat' split) <;> simp [ih]
@[simp] theorem State.drainWaiting_fresh (l : Link) (n : Nat) : (s.drainWaiting l n).fresh = s.fresh := by
  induction n generalizing s with
  | zero => rfl
  | succ n ih => unfold State.drainWaiting; (try dsimp only); (repeat' split) <;> simp [ih]
@[simp] theorem State.drainWaiting_mem (l : Link) (n : Nat) : (s.drainWaiting l n).mem = s.mem := by
  induction n generalizing s with
  | zero => rfl
  | succ n ih => unfold State.drainWaiting; (try dsimp only); (repeat' split) <;> simp [ih]
@[simp] theorem State.drainWaiting_cmds (l : Link) (n : Nat) : (s.drainWaiting l n).cmds = s.cmds := by
  induction n generalizing s with
  | zero => rfl
  | succ n ih => unfold State.drainWaiting; (try dsimp only); (repeat' split) <;> simp [ih]
@[simp] theorem State.drainWaiting_net (l : Link) (n : Nat) : (s.drainWaiting l n).net = s.net := by
  induction n generalizing s with
  | zero => rfl
  | succ n ih => unfold State.drainWaiting; (try dsimp only); (repeat' split) <;> simp [ih]
@[simp] theorem State.drainWaiting_egress (l : Link) (n : Nat) : (s.drainWaiting l n).egress = s.egress := by
  induction n generalizing s with
  | zero => rfl
  | succ n ih => unfold State.drainWaiting; (try dsimp only); (repeat' split) <;> simp [ih]
@[simp] theorem State.drainWaiting_kv (l : Link) (n : Nat) : (s.drainWaiting l n).kv = s.kv := by
  induction n generalizing s with
  | zero => rfl
  | succ n ih => unfold State.drainWaiting; (try dsimp only); (repeat' split) <;> simp [ih]
@[simp] theorem State.drainWaiting_eng (l : Link) (n : Nat) : (s.drainWaiting l n).eng = s.eng := by
  induction n generalizing s with
  | zero => rfl
  | succ n ih => unfold State.drainWaiting; (try dsimp only); (repeat' split) <;> simp [ih]
@[simp] theorem State.drainWaiting_lease (l : Link) (n : Nat) : (s.drainWaiting l n).lease = s.lease := by
  induction n generalizing s with
  | zero => rfl
  | succ n ih => unfold State.drainWaiting; (try dsimp only); (repeat' split) <;> simp [ih]
@[simp] theorem State.drainWaiting_sec (l : Link) (n : Nat) : (s.drainWaiting l n).sec = s.sec := by
  induction n generalizing s with
  | zero => rfl
  | succ n ih => unfold State.drainWaiting; (try dsimp only); (repeat' split) <;> simp [ih]
@[simp] theorem State.drainWaiting_fw (l : Link) (n : Nat) : (s.drainWaiting l n).fw = s.fw := by
  induction n generalizing s with
  | zero => rfl
  | succ n ih => unfold State.drainWaiting; (try dsimp only); (repeat' split) <;> simp [ih]
@[simp] theorem State.drainWaiting_integ (l : Link) (n : Nat) : (s.drainWaiting l n).integ = s.integ := by
  induction n generalizing s with
  | zero => rfl
  | succ n ih => unfold State.drainWaiting; (try dsimp only); (repeat' split) <;> simp [ih]
@[simp] theorem State.drainWaiting_ckpt (l : Link) (n : Nat) : (s.drainWaiting l n).ckpt = s.ckpt := by
  induction n generalizing s with
  | zero => rfl
  | succ n ih => unfold State.drainWaiting; (try dsimp only); (repeat' split) <;> simp [ih]
@[simp] theorem State.drainWaiting_pw (l : Link) (n : Nat) : (s.drainWaiting l n).pw = s.pw := by
  induction n generalizing s with
  | zero => rfl
  | succ n ih => unfold State.drainWaiting; (try dsimp only); (repeat' split) <;> simp [ih]
@[simp] theorem State.drainWaiting_rings (l : Link) (n : Nat) : (s.drainWaiting l n).host.rings = s.host.rings := by
  induction n generalizing s with
  | zero => rfl
  | succ n ih => unfold State.drainWaiting; (try dsimp only); (repeat' split) <;> simp [ih]

/-! ### State.hostSend -/

@[simp] theorem State.hostSend_pending (t : HostTxn) : (s.hostSend t).pending = s.pending := by unfold State.hostSend; (try dsimp only); (repeat' split) <;> simp
@[simp] theorem State.hostSend_nrt (t : HostTxn) : (s.hostSend t).nrt = s.nrt := by unfold State.hostSend; (try dsimp only); (repeat' split) <;> simp
@[simp] theorem State.hostSend_fresh (t : HostTxn) : (s.hostSend t).fresh = s.fresh := by unfold State.hostSend; (try dsimp only); (repeat' split) <;> simp
@[simp] theorem State.hostSend_mem (t : HostTxn) : (s.hostSend t).mem = s.mem := by unfold State.hostSend; (try dsimp only); (repeat' split) <;> simp
@[simp] theorem State.hostSend_cmds (t : HostTxn) : (s.hostSend t).cmds = s.cmds := by unfold State.hostSend; (try dsimp only); (repeat' split) <;> simp
@[simp] theorem State.hostSend_net (t : HostTxn) : (s.hostSend t).net = s.net := by unfold State.hostSend; (try dsimp only); (repeat' split) <;> simp
@[simp] theorem State.hostSend_egress (t : HostTxn) : (s.hostSend t).egress = s.egress := by unfold State.hostSend; (try dsimp only); (repeat' split) <;> simp
@[simp] theorem State.hostSend_kv (t : HostTxn) : (s.hostSend t).kv = s.kv := by unfold State.hostSend; (try dsimp only); (repeat' split) <;> simp
@[simp] theorem State.hostSend_eng (t : HostTxn) : (s.hostSend t).eng = s.eng := by unfold State.hostSend; (try dsimp only); (repeat' split) <;> simp
@[simp] theorem State.hostSend_lease (t : HostTxn) : (s.hostSend t).lease = s.lease := by unfold State.hostSend; (try dsimp only); (repeat' split) <;> simp
@[simp] theorem State.hostSend_sec (t : HostTxn) : (s.hostSend t).sec = s.sec := by unfold State.hostSend; (try dsimp only); (repeat' split) <;> simp
@[simp] theorem State.hostSend_fw (t : HostTxn) : (s.hostSend t).fw = s.fw := by unfold State.hostSend; (try dsimp only); (repeat' split) <;> simp
@[simp] theorem State.hostSend_integ (t : HostTxn) : (s.hostSend t).integ = s.integ := by unfold State.hostSend; (try dsimp only); (repeat' split) <;> simp
@[simp] theorem State.hostSend_ckpt (t : HostTxn) : (s.hostSend t).ckpt = s.ckpt := by unfold State.hostSend; (try dsimp only); (repeat' split) <;> simp
@[simp] theorem State.hostSend_pw (t : HostTxn) : (s.hostSend t).pw = s.pw := by unfold State.hostSend; (try dsimp only); (repeat' split) <;> simp

@[simp] theorem State.hostSend_rings (t : HostTxn) : (s.hostSend t).host.rings = s.host.rings := by unfold State.hostSend; (try dsimp only); (repeat' split) <;> simp

/-! ### State.hostCpl -/

@[simp] theorem State.hostCpl_pending (l : Link) (tag : Nat) (ok : Bool) (d : List Byte) : (s.hostCpl l tag ok d).pending = s.pending := by unfold State.hostCpl; (try dsimp only); (repeat' split) <;> simp
@[simp] theorem State.hostCpl_nrt (l : Link) (tag : Nat) (ok : Bool) (d : List Byte) : (s.hostCpl l tag ok d).nrt = s.nrt := by unfold State.hostCpl; (try dsimp only); (repeat' split) <;> simp
@[simp] theorem State.hostCpl_fresh (l : Link) (tag : Nat) (ok : Bool) (d : List Byte) : (s.hostCpl l tag ok d).fresh = s.fresh := by unfold State.hostCpl; (try dsimp only); (repeat' split) <;> simp
@[simp] theorem State.hostCpl_mem (l : Link) (tag : Nat) (ok : Bool) (d : List Byte) : (s.hostCpl l tag ok d).mem = s.mem := by unfold State.hostCpl; (try dsimp only); (repeat' split) <;> simp
@[simp] theorem State.hostCpl_cmds (l : Link) (tag : Nat) (ok : Bool) (d : List Byte) : (s.hostCpl l tag ok d).cmds = s.cmds := by unfold State.hostCpl; (try dsimp only); (repeat' split) <;> simp
@[simp] theorem State.hostCpl_net (l : Link) (tag : Nat) (ok : Bool) (d : List Byte) : (s.hostCpl l tag ok d).net = s.net := by unfold State.hostCpl; (try dsimp only); (repeat' split) <;> simp
@[simp] theorem State.hostCpl_egress (l : Link) (tag : Nat) (ok : Bool) (d : List Byte) : (s.hostCpl l tag ok d).egress = s.egress := by unfold State.hostCpl; (try dsimp only); (repeat' split) <;> simp
@[simp] theorem State.hostCpl_kv (l : Link) (tag : Nat) (ok : Bool) (d : List Byte) : (s.hostCpl l tag ok d).kv = s.kv := by unfold State.hostCpl; (try dsimp only); (repeat' split) <;> simp
@[simp] theorem State.hostCpl_eng (l : Link) (tag : Nat) (ok : Bool) (d : List Byte) : (s.hostCpl l tag ok d).eng = s.eng := by unfold State.hostCpl; (try dsimp only); (repeat' split) <;> simp
@[simp] theorem State.hostCpl_lease (l : Link) (tag : Nat) (ok : Bool) (d : List Byte) : (s.hostCpl l tag ok d).lease = s.lease := by unfold State.hostCpl; (try dsimp only); (repeat' split) <;> simp
@[simp] theorem State.hostCpl_sec (l : Link) (tag : Nat) (ok : Bool) (d : List Byte) : (s.hostCpl l tag ok d).sec = s.sec := by unfold State.hostCpl; (try dsimp only); (repeat' split) <;> simp
@[simp] theorem State.hostCpl_fw (l : Link) (tag : Nat) (ok : Bool) (d : List Byte) : (s.hostCpl l tag ok d).fw = s.fw := by unfold State.hostCpl; (try dsimp only); (repeat' split) <;> simp
@[simp] theorem State.hostCpl_integ (l : Link) (tag : Nat) (ok : Bool) (d : List Byte) : (s.hostCpl l tag ok d).integ = s.integ := by unfold State.hostCpl; (try dsimp only); (repeat' split) <;> simp
@[simp] theorem State.hostCpl_ckpt (l : Link) (tag : Nat) (ok : Bool) (d : List Byte) : (s.hostCpl l tag ok d).ckpt = s.ckpt := by unfold State.hostCpl; (try dsimp only); (repeat' split) <;> simp
@[simp] theorem State.hostCpl_pw (l : Link) (tag : Nat) (ok : Bool) (d : List Byte) : (s.hostCpl l tag ok d).pw = s.pw := by unfold State.hostCpl; (try dsimp only); (repeat' split) <;> simp

@[simp] theorem State.hostCpl_rings (l : Link) (tag : Nat) (ok : Bool) (d : List Byte) : (s.hostCpl l tag ok d).host.rings = s.host.rings := by unfold State.hostCpl; (try dsimp only); (repeat' split) <;> simp

/-! ### State.raiseIrq -/

@[simp] theorem State.raiseIrq_pending (pg : Nat) : (s.raiseIrq pg).pending = s.pending := by unfold State.raiseIrq; (try dsimp only); (repeat' split) <;> simp
@[simp] theorem State.raiseIrq_nrt (pg : Nat) : (s.raiseIrq pg).nrt = s.nrt := by unfold State.raiseIrq; (try dsimp only); (repeat' split) <;> simp
@[simp] theorem State.raiseIrq_fresh (pg : Nat) : (s.raiseIrq pg).fresh = s.fresh := by unfold State.raiseIrq; (try dsimp only); (repeat' split) <;> simp
@[simp] theorem State.raiseIrq_mem (pg : Nat) : (s.raiseIrq pg).mem = s.mem := by unfold State.raiseIrq; (try dsimp only); (repeat' split) <;> simp
@[simp] theorem State.raiseIrq_cmds (pg : Nat) : (s.raiseIrq pg).cmds = s.cmds := by unfold State.raiseIrq; (try dsimp only); (repeat' split) <;> simp
@[simp] theorem State.raiseIrq_net (pg : Nat) : (s.raiseIrq pg).net = s.net := by unfold State.raiseIrq; (try dsimp only); (repeat' split) <;> simp
@[simp] theorem State.raiseIrq_egress (pg : Nat) : (s.raiseIrq pg).egress = s.egress := by unfold State.raiseIrq; (try dsimp only); (repeat' split) <;> simp
@[simp] theorem State.raiseIrq_kv (pg : Nat) : (s.raiseIrq pg).kv = s.kv := by unfold State.raiseIrq; (try dsimp only); (repeat' split) <;> simp
@[simp] theorem State.raiseIrq_eng (pg : Nat) : (s.raiseIrq pg).eng = s.eng := by unfold State.raiseIrq; (try dsimp only); (repeat' split) <;> simp
@[simp] theorem State.raiseIrq_lease (pg : Nat) : (s.raiseIrq pg).lease = s.lease := by unfold State.raiseIrq; (try dsimp only); (repeat' split) <;> simp
@[simp] theorem State.raiseIrq_sec (pg : Nat) : (s.raiseIrq pg).sec = s.sec := by unfold State.raiseIrq; (try dsimp only); (repeat' split) <;> simp
@[simp] theorem State.raiseIrq_fw (pg : Nat) : (s.raiseIrq pg).fw = s.fw := by unfold State.raiseIrq; (try dsimp only); (repeat' split) <;> simp
@[simp] theorem State.raiseIrq_integ (pg : Nat) : (s.raiseIrq pg).integ = s.integ := by unfold State.raiseIrq; (try dsimp only); (repeat' split) <;> simp
@[simp] theorem State.raiseIrq_ckpt (pg : Nat) : (s.raiseIrq pg).ckpt = s.ckpt := by unfold State.raiseIrq; (try dsimp only); (repeat' split) <;> simp
@[simp] theorem State.raiseIrq_pw (pg : Nat) : (s.raiseIrq pg).pw = s.pw := by unfold State.raiseIrq; (try dsimp only); (repeat' split) <;> simp

@[simp] theorem State.raiseIrq_rings (pg : Nat) : (s.raiseIrq pg).host.rings = s.host.rings := by unfold State.raiseIrq; (try dsimp only); (repeat' split) <;> simp

/-! ### State.setIrq -/

@[simp] theorem State.setIrq_pending (pg b : Nat) : (s.setIrq pg b).pending = s.pending := by unfold State.setIrq; (try dsimp only); (repeat' split) <;> simp
@[simp] theorem State.setIrq_nrt (pg b : Nat) : (s.setIrq pg b).nrt = s.nrt := by unfold State.setIrq; (try dsimp only); (repeat' split) <;> simp
@[simp] theorem State.setIrq_fresh (pg b : Nat) : (s.setIrq pg b).fresh = s.fresh := by unfold State.setIrq; (try dsimp only); (repeat' split) <;> simp
@[simp] theorem State.setIrq_mem (pg b : Nat) : (s.setIrq pg b).mem = s.mem := by unfold State.setIrq; (try dsimp only); (repeat' split) <;> simp
@[simp] theorem State.setIrq_cmds (pg b : Nat) : (s.setIrq pg b).cmds = s.cmds := by unfold State.setIrq; (try dsimp only); (repeat' split) <;> simp
@[simp] theorem State.setIrq_net (pg b : Nat) : (s.setIrq pg b).net = s.net := by unfold State.setIrq; (try dsimp only); (repeat' split) <;> simp
@[simp] theorem State.setIrq_egress (pg b : Nat) : (s.setIrq pg b).egress = s.egress := by unfold State.setIrq; (try dsimp only); (repeat' split) <;> simp
@[simp] theorem State.setIrq_kv (pg b : Nat) : (s.setIrq pg b).kv = s.kv := by unfold State.setIrq; (try dsimp only); (repeat' split) <;> simp
@[simp] theorem State.setIrq_eng (pg b : Nat) : (s.setIrq pg b).eng = s.eng := by unfold State.setIrq; (try dsimp only); (repeat' split) <;> simp
@[simp] theorem State.setIrq_lease (pg b : Nat) : (s.setIrq pg b).lease = s.lease := by unfold State.setIrq; (try dsimp only); (repeat' split) <;> simp
@[simp] theorem State.setIrq_sec (pg b : Nat) : (s.setIrq pg b).sec = s.sec := by unfold State.setIrq; (try dsimp only); (repeat' split) <;> simp
@[simp] theorem State.setIrq_fw (pg b : Nat) : (s.setIrq pg b).fw = s.fw := by unfold State.setIrq; (try dsimp only); (repeat' split) <;> simp
@[simp] theorem State.setIrq_integ (pg b : Nat) : (s.setIrq pg b).integ = s.integ := by unfold State.setIrq; (try dsimp only); (repeat' split) <;> simp
@[simp] theorem State.setIrq_ckpt (pg b : Nat) : (s.setIrq pg b).ckpt = s.ckpt := by unfold State.setIrq; (try dsimp only); (repeat' split) <;> simp
@[simp] theorem State.setIrq_pw (pg b : Nat) : (s.setIrq pg b).pw = s.pw := by unfold State.setIrq; (try dsimp only); (repeat' split) <;> simp

@[simp] theorem State.setIrq_rings (pg b : Nat) : (s.setIrq pg b).host.rings = s.host.rings := by unfold State.setIrq; (try dsimp only); (repeat' split) <;> simp

/-! ### State.irqAgain -/

@[simp] theorem State.irqAgain_pending (pg : Nat) : (s.irqAgain pg).pending = s.pending := by unfold State.irqAgain; (try dsimp only); (repeat' split) <;> simp
@[simp] theorem State.irqAgain_nrt (pg : Nat) : (s.irqAgain pg).nrt = s.nrt := by unfold State.irqAgain; (try dsimp only); (repeat' split) <;> simp
@[simp] theorem State.irqAgain_fresh (pg : Nat) : (s.irqAgain pg).fresh = s.fresh := by unfold State.irqAgain; (try dsimp only); (repeat' split) <;> simp
@[simp] theorem State.irqAgain_mem (pg : Nat) : (s.irqAgain pg).mem = s.mem := by unfold State.irqAgain; (try dsimp only); (repeat' split) <;> simp
@[simp] theorem State.irqAgain_cmds (pg : Nat) : (s.irqAgain pg).cmds = s.cmds := by unfold State.irqAgain; (try dsimp only); (repeat' split) <;> simp
@[simp] theorem State.irqAgain_net (pg : Nat) : (s.irqAgain pg).net = s.net := by unfold State.irqAgain; (try dsimp only); (repeat' split) <;> simp
@[simp] theorem State.irqAgain_egress (pg : Nat) : (s.irqAgain pg).egress = s.egress := by unfold State.irqAgain; (try dsimp only); (repeat' split) <;> simp
@[simp] theorem State.irqAgain_kv (pg : Nat) : (s.irqAgain pg).kv = s.kv := by unfold State.irqAgain; (try dsimp only); (repeat' split) <;> simp
@[simp] theorem State.irqAgain_eng (pg : Nat) : (s.irqAgain pg).eng = s.eng := by unfold State.irqAgain; (try dsimp only); (repeat' split) <;> simp
@[simp] theorem State.irqAgain_lease (pg : Nat) : (s.irqAgain pg).lease = s.lease := by unfold State.irqAgain; (try dsimp only); (repeat' split) <;> simp
@[simp] theorem State.irqAgain_sec (pg : Nat) : (s.irqAgain pg).sec = s.sec := by unfold State.irqAgain; (try dsimp only); (repeat' split) <;> simp
@[simp] theorem State.irqAgain_fw (pg : Nat) : (s.irqAgain pg).fw = s.fw := by unfold State.irqAgain; (try dsimp only); (repeat' split) <;> simp
@[simp] theorem State.irqAgain_integ (pg : Nat) : (s.irqAgain pg).integ = s.integ := by unfold State.irqAgain; (try dsimp only); (repeat' split) <;> simp
@[simp] theorem State.irqAgain_ckpt (pg : Nat) : (s.irqAgain pg).ckpt = s.ckpt := by unfold State.irqAgain; (try dsimp only); (repeat' split) <;> simp
@[simp] theorem State.irqAgain_pw (pg : Nat) : (s.irqAgain pg).pw = s.pw := by unfold State.irqAgain; (try dsimp only); (repeat' split) <;> simp

@[simp] theorem State.irqAgain_rings (pg : Nat) : (s.irqAgain pg).host.rings = s.host.rings := by unfold State.irqAgain; (try dsimp only); (repeat' split) <;> simp

/-! ### State.cfgRej -/

@[simp] theorem State.cfgRej_pending (pg : Nat) : (s.cfgRej pg).pending = s.pending := by unfold State.cfgRej; (try dsimp only); (repeat' split) <;> simp
@[simp] theorem State.cfgRej_nrt (pg : Nat) : (s.cfgRej pg).nrt = s.nrt := by unfold State.cfgRej; (try dsimp only); (repeat' split) <;> simp
@[simp] theorem State.cfgRej_fresh (pg : Nat) : (s.cfgRej pg).fresh = s.fresh := by unfold State.cfgRej; (try dsimp only); (repeat' split) <;> simp
@[simp] theorem State.cfgRej_mem (pg : Nat) : (s.cfgRej pg).mem = s.mem := by unfold State.cfgRej; (try dsimp only); (repeat' split) <;> simp
@[simp] theorem State.cfgRej_cmds (pg : Nat) : (s.cfgRej pg).cmds = s.cmds := by unfold State.cfgRej; (try dsimp only); (repeat' split) <;> simp
@[simp] theorem State.cfgRej_net (pg : Nat) : (s.cfgRej pg).net = s.net := by unfold State.cfgRej; (try dsimp only); (repeat' split) <;> simp
@[simp] theorem State.cfgRej_egress (pg : Nat) : (s.cfgRej pg).egress = s.egress := by unfold State.cfgRej; (try dsimp only); (repeat' split) <;> simp
@[simp] theorem State.cfgRej_kv (pg : Nat) : (s.cfgRej pg).kv = s.kv := by unfold State.cfgRej; (try dsimp only); (repeat' split) <;> simp
@[simp] theorem State.cfgRej_eng (pg : Nat) : (s.cfgRej pg).eng = s.eng := by unfold State.cfgRej; (try dsimp only); (repeat' split) <;> simp
@[simp] theorem State.cfgRej_lease (pg : Nat) : (s.cfgRej pg).lease = s.lease := by unfold State.cfgRej; (try dsimp only); (repeat' split) <;> simp
@[simp] theorem State.cfgRej_sec (pg : Nat) : (s.cfgRej pg).sec = s.sec := by unfold State.cfgRej; (try dsimp only); (repeat' split) <;> simp
@[simp] theorem State.cfgRej_fw (pg : Nat) : (s.cfgRej pg).fw = s.fw := by unfold State.cfgRej; (try dsimp only); (repeat' split) <;> simp
@[simp] theorem State.cfgRej_integ (pg : Nat) : (s.cfgRej pg).integ = s.integ := by unfold State.cfgRej; (try dsimp only); (repeat' split) <;> simp
@[simp] theorem State.cfgRej_ckpt (pg : Nat) : (s.cfgRej pg).ckpt = s.ckpt := by unfold State.cfgRej; (try dsimp only); (repeat' split) <;> simp
@[simp] theorem State.cfgRej_pw (pg : Nat) : (s.cfgRej pg).pw = s.pw := by unfold State.cfgRej; (try dsimp only); (repeat' split) <;> simp

@[simp] theorem State.cfgRej_rings (pg : Nat) : (s.cfgRej pg).host.rings = s.host.rings := by unfold State.cfgRej; (try dsimp only); (repeat' split) <;> simp

/-! ### State.logErr -/

@[simp] theorem State.logErr_pending (pg c u d : Nat) : (s.logErr pg c u d).pending = s.pending := by unfold State.logErr; (try dsimp only); (repeat' split) <;> simp
@[simp] theorem State.logErr_nrt (pg c u d : Nat) : (s.logErr pg c u d).nrt = s.nrt := by unfold State.logErr; (try dsimp only); (repeat' split) <;> simp
@[simp] theorem State.logErr_fresh (pg c u d : Nat) : (s.logErr pg c u d).fresh = s.fresh := by unfold State.logErr; (try dsimp only); (repeat' split) <;> simp
@[simp] theorem State.logErr_mem (pg c u d : Nat) : (s.logErr pg c u d).mem = s.mem := by unfold State.logErr; (try dsimp only); (repeat' split) <;> simp
@[simp] theorem State.logErr_cmds (pg c u d : Nat) : (s.logErr pg c u d).cmds = s.cmds := by unfold State.logErr; (try dsimp only); (repeat' split) <;> simp
@[simp] theorem State.logErr_net (pg c u d : Nat) : (s.logErr pg c u d).net = s.net := by unfold State.logErr; (try dsimp only); (repeat' split) <;> simp
@[simp] theorem State.logErr_egress (pg c u d : Nat) : (s.logErr pg c u d).egress = s.egress := by unfold State.logErr; (try dsimp only); (repeat' split) <;> simp
@[simp] theorem State.logErr_kv (pg c u d : Nat) : (s.logErr pg c u d).kv = s.kv := by unfold State.logErr; (try dsimp only); (repeat' split) <;> simp
@[simp] theorem State.logErr_eng (pg c u d : Nat) : (s.logErr pg c u d).eng = s.eng := by unfold State.logErr; (try dsimp only); (repeat' split) <;> simp
@[simp] theorem State.logErr_lease (pg c u d : Nat) : (s.logErr pg c u d).lease = s.lease := by unfold State.logErr; (try dsimp only); (repeat' split) <;> simp
@[simp] theorem State.logErr_sec (pg c u d : Nat) : (s.logErr pg c u d).sec = s.sec := by unfold State.logErr; (try dsimp only); (repeat' split) <;> simp
@[simp] theorem State.logErr_fw (pg c u d : Nat) : (s.logErr pg c u d).fw = s.fw := by unfold State.logErr; (try dsimp only); (repeat' split) <;> simp
@[simp] theorem State.logErr_integ (pg c u d : Nat) : (s.logErr pg c u d).integ = s.integ := by unfold State.logErr; (try dsimp only); (repeat' split) <;> simp
@[simp] theorem State.logErr_ckpt (pg c u d : Nat) : (s.logErr pg c u d).ckpt = s.ckpt := by unfold State.logErr; (try dsimp only); (repeat' split) <;> simp
@[simp] theorem State.logErr_pw (pg c u d : Nat) : (s.logErr pg c u d).pw = s.pw := by unfold State.logErr; (try dsimp only); (repeat' split) <;> simp

@[simp] theorem State.logErr_rings (pg c u d : Nat) : (s.logErr pg c u d).host.rings = s.host.rings := by unfold State.logErr; (try dsimp only); (repeat' split) <;> simp

/-! ### State.corrErr -/

@[simp] theorem State.corrErr_pending (pg : Nat) : (s.corrErr pg).pending = s.pending := by unfold State.corrErr; (try dsimp only); (repeat' split) <;> simp
@[simp] theorem State.corrErr_nrt (pg : Nat) : (s.corrErr pg).nrt = s.nrt := by unfold State.corrErr; (try dsimp only); (repeat' split) <;> simp
@[simp] theorem State.corrErr_fresh (pg : Nat) : (s.corrErr pg).fresh = s.fresh := by unfold State.corrErr; (try dsimp only); (repeat' split) <;> simp
@[simp] theorem State.corrErr_mem (pg : Nat) : (s.corrErr pg).mem = s.mem := by unfold State.corrErr; (try dsimp only); (repeat' split) <;> simp
@[simp] theorem State.corrErr_cmds (pg : Nat) : (s.corrErr pg).cmds = s.cmds := by unfold State.corrErr; (try dsimp only); (repeat' split) <;> simp
@[simp] theorem State.corrErr_net (pg : Nat) : (s.corrErr pg).net = s.net := by unfold State.corrErr; (try dsimp only); (repeat' split) <;> simp
@[simp] theorem State.corrErr_egress (pg : Nat) : (s.corrErr pg).egress = s.egress := by unfold State.corrErr; (try dsimp only); (repeat' split) <;> simp
@[simp] theorem State.corrErr_kv (pg : Nat) : (s.corrErr pg).kv = s.kv := by unfold State.corrErr; (try dsimp only); (repeat' split) <;> simp
@[simp] theorem State.corrErr_eng (pg : Nat) : (s.corrErr pg).eng = s.eng := by unfold State.corrErr; (try dsimp only); (repeat' split) <;> simp
@[simp] theorem State.corrErr_lease (pg : Nat) : (s.corrErr pg).lease = s.lease := by unfold State.corrErr; (try dsimp only); (repeat' split) <;> simp
@[simp] theorem State.corrErr_sec (pg : Nat) : (s.corrErr pg).sec = s.sec := by unfold State.corrErr; (try dsimp only); (repeat' split) <;> simp
@[simp] theorem State.corrErr_fw (pg : Nat) : (s.corrErr pg).fw = s.fw := by unfold State.corrErr; (try dsimp only); (repeat' split) <;> simp
@[simp] theorem State.corrErr_integ (pg : Nat) : (s.corrErr pg).integ = s.integ := by unfold State.corrErr; (try dsimp only); (repeat' split) <;> simp
@[simp] theorem State.corrErr_ckpt (pg : Nat) : (s.corrErr pg).ckpt = s.ckpt := by unfold State.corrErr; (try dsimp only); (repeat' split) <;> simp
@[simp] theorem State.corrErr_pw (pg : Nat) : (s.corrErr pg).pw = s.pw := by unfold State.corrErr; (try dsimp only); (repeat' split) <;> simp

@[simp] theorem State.corrErr_rings (pg : Nat) : (s.corrErr pg).host.rings = s.host.rings := by unfold State.corrErr; (try dsimp only); (repeat' split) <;> simp

/-! ### State.fencePage -/

@[simp] theorem State.fencePage_pending (pg : Nat) : (s.fencePage pg).pending = s.pending := by unfold State.fencePage; (try dsimp only); (repeat' split) <;> simp
@[simp] theorem State.fencePage_nrt (pg : Nat) : (s.fencePage pg).nrt = s.nrt := by unfold State.fencePage; (try dsimp only); (repeat' split) <;> simp
@[simp] theorem State.fencePage_fresh (pg : Nat) : (s.fencePage pg).fresh = s.fresh := by unfold State.fencePage; (try dsimp only); (repeat' split) <;> simp
@[simp] theorem State.fencePage_mem (pg : Nat) : (s.fencePage pg).mem = s.mem := by unfold State.fencePage; (try dsimp only); (repeat' split) <;> simp
@[simp] theorem State.fencePage_host (pg : Nat) : (s.fencePage pg).host = s.host := by unfold State.fencePage; (try dsimp only); (repeat' split) <;> simp
@[simp] theorem State.fencePage_cmds (pg : Nat) : (s.fencePage pg).cmds = s.cmds := by unfold State.fencePage; (try dsimp only); (repeat' split) <;> simp
@[simp] theorem State.fencePage_net (pg : Nat) : (s.fencePage pg).net = s.net := by unfold State.fencePage; (try dsimp only); (repeat' split) <;> simp
@[simp] theorem State.fencePage_egress (pg : Nat) : (s.fencePage pg).egress = s.egress := by unfold State.fencePage; (try dsimp only); (repeat' split) <;> simp
@[simp] theorem State.fencePage_kv (pg : Nat) : (s.fencePage pg).kv = s.kv := by unfold State.fencePage; (try dsimp only); (repeat' split) <;> simp
@[simp] theorem State.fencePage_eng (pg : Nat) : (s.fencePage pg).eng = s.eng := by unfold State.fencePage; (try dsimp only); (repeat' split) <;> simp
@[simp] theorem State.fencePage_lease (pg : Nat) : (s.fencePage pg).lease = s.lease := by unfold State.fencePage; (try dsimp only); (repeat' split) <;> simp
@[simp] theorem State.fencePage_sec (pg : Nat) : (s.fencePage pg).sec = s.sec := by unfold State.fencePage; (try dsimp only); (repeat' split) <;> simp
@[simp] theorem State.fencePage_fw (pg : Nat) : (s.fencePage pg).fw = s.fw := by unfold State.fencePage; (try dsimp only); (repeat' split) <;> simp
@[simp] theorem State.fencePage_integ (pg : Nat) : (s.fencePage pg).integ = s.integ := by unfold State.fencePage; (try dsimp only); (repeat' split) <;> simp
@[simp] theorem State.fencePage_ckpt (pg : Nat) : (s.fencePage pg).ckpt = s.ckpt := by unfold State.fencePage; (try dsimp only); (repeat' split) <;> simp
@[simp] theorem State.fencePage_pw (pg : Nat) : (s.fencePage pg).pw = s.pw := by unfold State.fencePage; (try dsimp only); (repeat' split) <;> simp

end Sys2Proof.Machine
end

