-- ==== Sys2Proof/Laws/FrameBase.lean ====
section
/-!
SUPPORT. One group of State after a choice, after a fold of an operation that keeps it, and after an optional operation.
-/

namespace Sys2Proof.Machine

/-- A fold of an operation that keeps a part of State keeps that part. -/
theorem State.foldl_keeps {α β : Type} (π : State → β) (g : State → α → State) (h : ∀ s a, π (g s a) = π s) (l : List α) (s : State) :
    π (l.foldl g s) = π s := by
  induction l generalizing s with | nil => rfl | cons x xs ih => simp [ih, h]
@[simp] theorem State.ite_pending (c : Prop) [Decidable c] (a b : State) : (if c then a else b).pending = if c then a.pending else b.pending := by
  split <;> rfl
@[simp] theorem State.foldl_pending {α : Type} (g : State → α → State) (h : ∀ s a, (g s a).pending = s.pending) (l : List α) (s : State) : (l.foldl g s).pending = s.pending := by
  exact State.foldl_keeps _ g h l s
@[simp] theorem State.getD_pending (o : Option State) (s : State) (h : ∀ t, o = some t → t.pending = s.pending) : (o.getD s).pending = s.pending := by
  cases o <;> simp_all
@[simp] theorem State.ite_nrt (c : Prop) [Decidable c] (a b : State) : (if c then a else b).nrt = if c then a.nrt else b.nrt := by
  split <;> rfl
@[simp] theorem State.foldl_nrt {α : Type} (g : State → α → State) (h : ∀ s a, (g s a).nrt = s.nrt) (l : List α) (s : State) : (l.foldl g s).nrt = s.nrt := by
  exact State.foldl_keeps _ g h l s
@[simp] theorem State.getD_nrt (o : Option State) (s : State) (h : ∀ t, o = some t → t.nrt = s.nrt) : (o.getD s).nrt = s.nrt := by
  cases o <;> simp_all
@[simp] theorem State.ite_fresh (c : Prop) [Decidable c] (a b : State) : (if c then a else b).fresh = if c then a.fresh else b.fresh := by
  split <;> rfl
@[simp] theorem State.foldl_fresh {α : Type} (g : State → α → State) (h : ∀ s a, (g s a).fresh = s.fresh) (l : List α) (s : State) : (l.foldl g s).fresh = s.fresh := by
  exact State.foldl_keeps _ g h l s
@[simp] theorem State.getD_fresh (o : Option State) (s : State) (h : ∀ t, o = some t → t.fresh = s.fresh) : (o.getD s).fresh = s.fresh := by
  cases o <;> simp_all
@[simp] theorem State.ite_mem (c : Prop) [Decidable c] (a b : State) : (if c then a else b).mem = if c then a.mem else b.mem := by
  split <;> rfl
@[simp] theorem State.foldl_mem {α : Type} (g : State → α → State) (h : ∀ s a, (g s a).mem = s.mem) (l : List α) (s : State) : (l.foldl g s).mem = s.mem := by
  exact State.foldl_keeps _ g h l s
@[simp] theorem State.getD_mem (o : Option State) (s : State) (h : ∀ t, o = some t → t.mem = s.mem) : (o.getD s).mem = s.mem := by
  cases o <;> simp_all
@[simp] theorem State.ite_rf (c : Prop) [Decidable c] (a b : State) : (if c then a else b).rf = if c then a.rf else b.rf := by
  split <;> rfl
@[simp] theorem State.foldl_rf {α : Type} (g : State → α → State) (h : ∀ s a, (g s a).rf = s.rf) (l : List α) (s : State) : (l.foldl g s).rf = s.rf := by
  exact State.foldl_keeps _ g h l s
@[simp] theorem State.getD_rf (o : Option State) (s : State) (h : ∀ t, o = some t → t.rf = s.rf) : (o.getD s).rf = s.rf := by
  cases o <;> simp_all
@[simp] theorem State.ite_host (c : Prop) [Decidable c] (a b : State) : (if c then a else b).host = if c then a.host else b.host := by
  split <;> rfl
@[simp] theorem State.foldl_host {α : Type} (g : State → α → State) (h : ∀ s a, (g s a).host = s.host) (l : List α) (s : State) : (l.foldl g s).host = s.host := by
  exact State.foldl_keeps _ g h l s
@[simp] theorem State.getD_host (o : Option State) (s : State) (h : ∀ t, o = some t → t.host = s.host) : (o.getD s).host = s.host := by
  cases o <;> simp_all
@[simp] theorem State.ite_cmds (c : Prop) [Decidable c] (a b : State) : (if c then a else b).cmds = if c then a.cmds else b.cmds := by
  split <;> rfl
@[simp] theorem State.foldl_cmds {α : Type} (g : State → α → State) (h : ∀ s a, (g s a).cmds = s.cmds) (l : List α) (s : State) : (l.foldl g s).cmds = s.cmds := by
  exact State.foldl_keeps _ g h l s
@[simp] theorem State.getD_cmds (o : Option State) (s : State) (h : ∀ t, o = some t → t.cmds = s.cmds) : (o.getD s).cmds = s.cmds := by
  cases o <;> simp_all
@[simp] theorem State.ite_net (c : Prop) [Decidable c] (a b : State) : (if c then a else b).net = if c then a.net else b.net := by
  split <;> rfl
@[simp] theorem State.foldl_net {α : Type} (g : State → α → State) (h : ∀ s a, (g s a).net = s.net) (l : List α) (s : State) : (l.foldl g s).net = s.net := by
  exact State.foldl_keeps _ g h l s
@[simp] theorem State.getD_net (o : Option State) (s : State) (h : ∀ t, o = some t → t.net = s.net) : (o.getD s).net = s.net := by
  cases o <;> simp_all
@[simp] theorem State.ite_egress (c : Prop) [Decidable c] (a b : State) : (if c then a else b).egress = if c then a.egress else b.egress := by
  split <;> rfl
@[simp] theorem State.foldl_egress {α : Type} (g : State → α → State) (h : ∀ s a, (g s a).egress = s.egress) (l : List α) (s : State) : (l.foldl g s).egress = s.egress := by
  exact State.foldl_keeps _ g h l s
@[simp] theorem State.getD_egress (o : Option State) (s : State) (h : ∀ t, o = some t → t.egress = s.egress) : (o.getD s).egress = s.egress := by
  cases o <;> simp_all
@[simp] theorem State.ite_kv (c : Prop) [Decidable c] (a b : State) : (if c then a else b).kv = if c then a.kv else b.kv := by
  split <;> rfl
@[simp] theorem State.foldl_kv {α : Type} (g : State → α → State) (h : ∀ s a, (g s a).kv = s.kv) (l : List α) (s : State) : (l.foldl g s).kv = s.kv := by
  exact State.foldl_keeps _ g h l s
@[simp] theorem State.getD_kv (o : Option State) (s : State) (h : ∀ t, o = some t → t.kv = s.kv) : (o.getD s).kv = s.kv := by
  cases o <;> simp_all
@[simp] theorem State.ite_eng (c : Prop) [Decidable c] (a b : State) : (if c then a else b).eng = if c then a.eng else b.eng := by
  split <;> rfl
@[simp] theorem State.foldl_eng {α : Type} (g : State → α → State) (h : ∀ s a, (g s a).eng = s.eng) (l : List α) (s : State) : (l.foldl g s).eng = s.eng := by
  exact State.foldl_keeps _ g h l s
@[simp] theorem State.getD_eng (o : Option State) (s : State) (h : ∀ t, o = some t → t.eng = s.eng) : (o.getD s).eng = s.eng := by
  cases o <;> simp_all
@[simp] theorem State.ite_lease (c : Prop) [Decidable c] (a b : State) : (if c then a else b).lease = if c then a.lease else b.lease := by
  split <;> rfl
@[simp] theorem State.foldl_lease {α : Type} (g : State → α → State) (h : ∀ s a, (g s a).lease = s.lease) (l : List α) (s : State) : (l.foldl g s).lease = s.lease := by
  exact State.foldl_keeps _ g h l s
@[simp] theorem State.getD_lease (o : Option State) (s : State) (h : ∀ t, o = some t → t.lease = s.lease) : (o.getD s).lease = s.lease := by
  cases o <;> simp_all
@[simp] theorem State.ite_sec (c : Prop) [Decidable c] (a b : State) : (if c then a else b).sec = if c then a.sec else b.sec := by
  split <;> rfl
@[simp] theorem State.foldl_sec {α : Type} (g : State → α → State) (h : ∀ s a, (g s a).sec = s.sec) (l : List α) (s : State) : (l.foldl g s).sec = s.sec := by
  exact State.foldl_keeps _ g h l s
@[simp] theorem State.getD_sec (o : Option State) (s : State) (h : ∀ t, o = some t → t.sec = s.sec) : (o.getD s).sec = s.sec := by
  cases o <;> simp_all
@[simp] theorem State.ite_fw (c : Prop) [Decidable c] (a b : State) : (if c then a else b).fw = if c then a.fw else b.fw := by
  split <;> rfl
@[simp] theorem State.foldl_fw {α : Type} (g : State → α → State) (h : ∀ s a, (g s a).fw = s.fw) (l : List α) (s : State) : (l.foldl g s).fw = s.fw := by
  exact State.foldl_keeps _ g h l s
@[simp] theorem State.getD_fw (o : Option State) (s : State) (h : ∀ t, o = some t → t.fw = s.fw) : (o.getD s).fw = s.fw := by
  cases o <;> simp_all
@[simp] theorem State.ite_integ (c : Prop) [Decidable c] (a b : State) : (if c then a else b).integ = if c then a.integ else b.integ := by
  split <;> rfl
@[simp] theorem State.foldl_integ {α : Type} (g : State → α → State) (h : ∀ s a, (g s a).integ = s.integ) (l : List α) (s : State) : (l.foldl g s).integ = s.integ := by
  exact State.foldl_keeps _ g h l s
@[simp] theorem State.getD_integ (o : Option State) (s : State) (h : ∀ t, o = some t → t.integ = s.integ) : (o.getD s).integ = s.integ := by
  cases o <;> simp_all
@[simp] theorem State.ite_ckpt (c : Prop) [Decidable c] (a b : State) : (if c then a else b).ckpt = if c then a.ckpt else b.ckpt := by
  split <;> rfl
@[simp] theorem State.foldl_ckpt {α : Type} (g : State → α → State) (h : ∀ s a, (g s a).ckpt = s.ckpt) (l : List α) (s : State) : (l.foldl g s).ckpt = s.ckpt := by
  exact State.foldl_keeps _ g h l s
@[simp] theorem State.getD_ckpt (o : Option State) (s : State) (h : ∀ t, o = some t → t.ckpt = s.ckpt) : (o.getD s).ckpt = s.ckpt := by
  cases o <;> simp_all
@[simp] theorem State.ite_pw (c : Prop) [Decidable c] (a b : State) : (if c then a else b).pw = if c then a.pw else b.pw := by
  split <;> rfl
@[simp] theorem State.foldl_pw {α : Type} (g : State → α → State) (h : ∀ s a, (g s a).pw = s.pw) (l : List α) (s : State) : (l.foldl g s).pw = s.pw := by
  exact State.foldl_keeps _ g h l s
@[simp] theorem State.getD_pw (o : Option State) (s : State) (h : ∀ t, o = some t → t.pw = s.pw) : (o.getD s).pw = s.pw := by
  cases o <;> simp_all

end Sys2Proof.Machine
end

