-- ==== Sys2Proof/Laws/FrameHost.lean ====
section
/-!
SUPPORT. What operations leave as it was, one lemma for each operation: the groups of State named in it are unchanged
(Ops, Rings, HostLink, Finish).
-/

namespace Sys2Proof.Machine


variable (s : State)

@[simp] theorem State.commitReg_frame (pg off : Nat) :
    (s.commitReg pg off).pending = s.pending ∧ (s.commitReg pg off).nrt = s.nrt ∧ (s.commitReg pg off).fresh = s.fresh ∧ (s.commitReg pg off).mem = s.mem ∧ (s.commitReg pg off).host = s.host ∧ (s.commitReg pg off).cmds = s.cmds ∧ (s.commitReg pg off).net = s.net ∧ (s.commitReg pg off).egress = s.egress ∧ (s.commitReg pg off).kv = s.kv ∧ (s.commitReg pg off).eng = s.eng ∧ (s.commitReg pg off).lease = s.lease ∧ (s.commitReg pg off).sec = s.sec ∧ (s.commitReg pg off).fw = s.fw ∧ (s.commitReg pg off).integ = s.integ ∧ (s.commitReg pg off).ckpt = s.ckpt ∧ (s.commitReg pg off).pw = s.pw := by
  unfold State.commitReg; (try dsimp only); (repeat' split) <;> simp [*]
@[simp] theorem State.postBlock_frame (n : Nat) :
    (s.postBlock n).pending = s.pending ∧ (s.postBlock n).nrt = s.nrt ∧ (s.postBlock n).fresh = s.fresh ∧ (s.postBlock n).cmds = s.cmds ∧ (s.postBlock n).net = s.net ∧ (s.postBlock n).egress = s.egress ∧ (s.postBlock n).kv = s.kv ∧ (s.postBlock n).eng = s.eng ∧ (s.postBlock n).lease = s.lease ∧ (s.postBlock n).sec = s.sec ∧ (s.postBlock n).fw = s.fw ∧ (s.postBlock n).integ = s.integ ∧ (s.postBlock n).ckpt = s.ckpt ∧ (s.postBlock n).pw = s.pw := by
  unfold State.postBlock; (try dsimp only); (repeat' split) <;> simp [*]
@[simp] theorem State.ringMsg_frame (n : Nat) :
    (s.ringMsg n).pending = s.pending ∧ (s.ringMsg n).nrt = s.nrt ∧ (s.ringMsg n).fresh = s.fresh ∧ (s.ringMsg n).mem = s.mem ∧ (s.ringMsg n).cmds = s.cmds ∧ (s.ringMsg n).net = s.net ∧ (s.ringMsg n).egress = s.egress ∧ (s.ringMsg n).kv = s.kv ∧ (s.ringMsg n).eng = s.eng ∧ (s.ringMsg n).lease = s.lease ∧ (s.ringMsg n).sec = s.sec ∧ (s.ringMsg n).fw = s.fw ∧ (s.ringMsg n).integ = s.integ ∧ (s.ringMsg n).ckpt = s.ckpt ∧ (s.ringMsg n).pw = s.pw := by
  unfold State.ringMsg; (try dsimp only); (repeat' split) <;> simp [*]
@[simp] theorem State.ringIrq_frame (n : Nat) :
    (s.ringIrq n).pending = s.pending ∧ (s.ringIrq n).nrt = s.nrt ∧ (s.ringIrq n).fresh = s.fresh ∧ (s.ringIrq n).mem = s.mem ∧ (s.ringIrq n).cmds = s.cmds ∧ (s.ringIrq n).net = s.net ∧ (s.ringIrq n).egress = s.egress ∧ (s.ringIrq n).kv = s.kv ∧ (s.ringIrq n).eng = s.eng ∧ (s.ringIrq n).lease = s.lease ∧ (s.ringIrq n).sec = s.sec ∧ (s.ringIrq n).fw = s.fw ∧ (s.ringIrq n).integ = s.integ ∧ (s.ringIrq n).ckpt = s.ckpt ∧ (s.ringIrq n).pw = s.pw := by
  unfold State.ringIrq; (try dsimp only); (repeat' split) <;> simp [*]
@[simp] theorem State.writeRecord_frame (n : Nat) (c : Completion) (time : Nat) :
    (s.writeRecord n c time).pending = s.pending ∧ (s.writeRecord n c time).nrt = s.nrt ∧ (s.writeRecord n c time).fresh = s.fresh ∧ (s.writeRecord n c time).cmds = s.cmds ∧ (s.writeRecord n c time).net = s.net ∧ (s.writeRecord n c time).egress = s.egress ∧ (s.writeRecord n c time).kv = s.kv ∧ (s.writeRecord n c time).eng = s.eng ∧ (s.writeRecord n c time).lease = s.lease ∧ (s.writeRecord n c time).sec = s.sec ∧ (s.writeRecord n c time).fw = s.fw ∧ (s.writeRecord n c time).integ = s.integ ∧ (s.writeRecord n c time).ckpt = s.ckpt ∧ (s.writeRecord n c time).pw = s.pw := by
  unfold State.writeRecord; (try dsimp only); (repeat' split) <;> simp [*]
@[simp] theorem State.ringComplete_frame (n : Nat) (c : Completion) (suppressed : Bool) :
    (s.ringComplete n c suppressed).pending = s.pending ∧ (s.ringComplete n c suppressed).nrt = s.nrt ∧ (s.ringComplete n c suppressed).fresh = s.fresh ∧ (s.ringComplete n c suppressed).cmds = s.cmds ∧ (s.ringComplete n c suppressed).net = s.net ∧ (s.ringComplete n c suppressed).egress = s.egress ∧ (s.ringComplete n c suppressed).kv = s.kv ∧ (s.ringComplete n c suppressed).eng = s.eng ∧ (s.ringComplete n c suppressed).lease = s.lease ∧ (s.ringComplete n c suppressed).sec = s.sec ∧ (s.ringComplete n c suppressed).fw = s.fw ∧ (s.ringComplete n c suppressed).integ = s.integ ∧ (s.ringComplete n c suppressed).ckpt = s.ckpt ∧ (s.ringComplete n c suppressed).pw = s.pw := by
  unfold State.ringComplete; (try dsimp only); (repeat' split) <;> simp [*]
@[simp] theorem State.ringStart_frame (n : Nat) :
    (s.ringStart n).pending = s.pending ∧ (s.ringStart n).nrt = s.nrt ∧ (s.ringStart n).fresh = s.fresh ∧ (s.ringStart n).rf = s.rf ∧ (s.ringStart n).cmds = s.cmds ∧ (s.ringStart n).net = s.net ∧ (s.ringStart n).egress = s.egress ∧ (s.ringStart n).kv = s.kv ∧ (s.ringStart n).eng = s.eng ∧ (s.ringStart n).lease = s.lease ∧ (s.ringStart n).sec = s.sec ∧ (s.ringStart n).fw = s.fw ∧ (s.ringStart n).integ = s.integ ∧ (s.ringStart n).ckpt = s.ckpt ∧ (s.ringStart n).pw = s.pw := by
  unfold State.ringStart; (try dsimp only); (repeat' split) <;> simp [*]
@[simp] theorem State.ringStop_frame (n : Nat) :
    (s.ringStop n).pending = s.pending ∧ (s.ringStop n).nrt = s.nrt ∧ (s.ringStop n).fresh = s.fresh ∧ (s.ringStop n).mem = s.mem ∧ (s.ringStop n).rf = s.rf ∧ (s.ringStop n).cmds = s.cmds ∧ (s.ringStop n).net = s.net ∧ (s.ringStop n).egress = s.egress ∧ (s.ringStop n).kv = s.kv ∧ (s.ringStop n).eng = s.eng ∧ (s.ringStop n).lease = s.lease ∧ (s.ringStop n).sec = s.sec ∧ (s.ringStop n).fw = s.fw ∧ (s.ringStop n).integ = s.integ ∧ (s.ringStop n).ckpt = s.ckpt ∧ (s.ringStop n).pw = s.pw := by
  unfold State.ringStop; (try dsimp only); (repeat' split) <;> simp [*]
@[simp] theorem State.dbRej_frame (ring value : Nat) :
    (s.dbRej ring value).pending = s.pending ∧ (s.dbRej ring value).nrt = s.nrt ∧ (s.dbRej ring value).fresh = s.fresh ∧ (s.dbRej ring value).mem = s.mem ∧ (s.dbRej ring value).cmds = s.cmds ∧ (s.dbRej ring value).net = s.net ∧ (s.dbRej ring value).egress = s.egress ∧ (s.dbRej ring value).kv = s.kv ∧ (s.dbRej ring value).eng = s.eng ∧ (s.dbRej ring value).lease = s.lease ∧ (s.dbRej ring value).sec = s.sec ∧ (s.dbRej ring value).fw = s.fw ∧ (s.dbRej ring value).integ = s.integ ∧ (s.dbRej ring value).ckpt = s.ckpt ∧ (s.dbRej ring value).pw = s.pw := by
  unfold State.dbRej; (try dsimp only); (repeat' split) <;> simp [*]
@[simp] theorem State.sqDoorbell_frame (value : Nat) :
    (s.sqDoorbell value).pending = s.pending ∧ (s.sqDoorbell value).nrt = s.nrt ∧ (s.sqDoorbell value).fresh = s.fresh ∧ (s.sqDoorbell value).mem = s.mem ∧ (s.sqDoorbell value).cmds = s.cmds ∧ (s.sqDoorbell value).net = s.net ∧ (s.sqDoorbell value).egress = s.egress ∧ (s.sqDoorbell value).kv = s.kv ∧ (s.sqDoorbell value).eng = s.eng ∧ (s.sqDoorbell value).lease = s.lease ∧ (s.sqDoorbell value).sec = s.sec ∧ (s.sqDoorbell value).fw = s.fw ∧ (s.sqDoorbell value).integ = s.integ ∧ (s.sqDoorbell value).ckpt = s.ckpt ∧ (s.sqDoorbell value).pw = s.pw := by
  unfold State.sqDoorbell; (try dsimp only); (repeat' split) <;> simp [*]
@[simp] theorem State.cqDoorbell_frame (value : Nat) :
    (s.cqDoorbell value).pending = s.pending ∧ (s.cqDoorbell value).nrt = s.nrt ∧ (s.cqDoorbell value).fresh = s.fresh ∧ (s.cqDoorbell value).mem = s.mem ∧ (s.cqDoorbell value).cmds = s.cmds ∧ (s.cqDoorbell value).net = s.net ∧ (s.cqDoorbell value).egress = s.egress ∧ (s.cqDoorbell value).kv = s.kv ∧ (s.cqDoorbell value).eng = s.eng ∧ (s.cqDoorbell value).lease = s.lease ∧ (s.cqDoorbell value).sec = s.sec ∧ (s.cqDoorbell value).fw = s.fw ∧ (s.cqDoorbell value).integ = s.integ ∧ (s.cqDoorbell value).ckpt = s.ckpt ∧ (s.cqDoorbell value).pw = s.pw := by
  unfold State.cqDoorbell; (try dsimp only); (repeat' split) <;> simp [*]
@[simp] theorem State.cqDelay_frame (n : Nat) :
    (s.cqDelay n).pending = s.pending ∧ (s.cqDelay n).nrt = s.nrt ∧ (s.cqDelay n).fresh = s.fresh ∧ (s.cqDelay n).mem = s.mem ∧ (s.cqDelay n).cmds = s.cmds ∧ (s.cqDelay n).net = s.net ∧ (s.cqDelay n).egress = s.egress ∧ (s.cqDelay n).kv = s.kv ∧ (s.cqDelay n).eng = s.eng ∧ (s.cqDelay n).lease = s.lease ∧ (s.cqDelay n).sec = s.sec ∧ (s.cqDelay n).fw = s.fw ∧ (s.cqDelay n).integ = s.integ ∧ (s.cqDelay n).ckpt = s.ckpt ∧ (s.cqDelay n).pw = s.pw := by
  unfold State.cqDelay; (try dsimp only); (repeat' split) <;> simp [*]
@[simp] theorem State.takeActive_frame (l : Link) :
    (s.takeActive l).pending = s.pending ∧ (s.takeActive l).nrt = s.nrt ∧ (s.takeActive l).fresh = s.fresh ∧ (s.takeActive l).mem = s.mem ∧ (s.takeActive l).cmds = s.cmds ∧ (s.takeActive l).net = s.net ∧ (s.takeActive l).egress = s.egress ∧ (s.takeActive l).kv = s.kv ∧ (s.takeActive l).eng = s.eng ∧ (s.takeActive l).lease = s.lease ∧ (s.takeActive l).sec = s.sec ∧ (s.takeActive l).fw = s.fw ∧ (s.takeActive l).integ = s.integ ∧ (s.takeActive l).ckpt = s.ckpt ∧ (s.takeActive l).pw = s.pw := by
  unfold State.takeActive; (try dsimp only); (repeat' split) <;> simp [*]
@[simp] theorem State.becomeActive_frame (l : Link) :
    (s.becomeActive l).pending = s.pending ∧ (s.becomeActive l).nrt = s.nrt ∧ (s.becomeActive l).fresh = s.fresh ∧ (s.becomeActive l).mem = s.mem ∧ (s.becomeActive l).cmds = s.cmds ∧ (s.becomeActive l).net = s.net ∧ (s.becomeActive l).egress = s.egress ∧ (s.becomeActive l).kv = s.kv ∧ (s.becomeActive l).eng = s.eng ∧ (s.becomeActive l).lease = s.lease ∧ (s.becomeActive l).sec = s.sec ∧ (s.becomeActive l).fw = s.fw ∧ (s.becomeActive l).integ = s.integ ∧ (s.becomeActive l).ckpt = s.ckpt ∧ (s.becomeActive l).pw = s.pw := by
  unfold State.becomeActive; (try dsimp only); (repeat' split) <;> simp [*]
@[simp] theorem State.loseActive_frame (l : Link) :
    (s.loseActive l).pending = s.pending ∧ (s.loseActive l).nrt = s.nrt ∧ (s.loseActive l).fresh = s.fresh ∧ (s.loseActive l).mem = s.mem ∧ (s.loseActive l).cmds = s.cmds ∧ (s.loseActive l).net = s.net ∧ (s.loseActive l).egress = s.egress ∧ (s.loseActive l).kv = s.kv ∧ (s.loseActive l).eng = s.eng ∧ (s.loseActive l).lease = s.lease ∧ (s.loseActive l).sec = s.sec ∧ (s.loseActive l).fw = s.fw ∧ (s.loseActive l).integ = s.integ ∧ (s.loseActive l).ckpt = s.ckpt ∧ (s.loseActive l).pw = s.pw := by
  unfold State.loseActive; (try dsimp only); (repeat' split) <;> simp [*]
@[simp] theorem State.dropHostLocks_frame :
    (s.dropHostLocks).pending = s.pending ∧ (s.dropHostLocks).nrt = s.nrt ∧ (s.dropHostLocks).fresh = s.fresh ∧ (s.dropHostLocks).mem = s.mem ∧ (s.dropHostLocks).host = s.host ∧ (s.dropHostLocks).cmds = s.cmds ∧ (s.dropHostLocks).net = s.net ∧ (s.dropHostLocks).egress = s.egress ∧ (s.dropHostLocks).kv = s.kv ∧ (s.dropHostLocks).eng = s.eng ∧ (s.dropHostLocks).lease = s.lease ∧ (s.dropHostLocks).sec = s.sec ∧ (s.dropHostLocks).fw = s.fw ∧ (s.dropHostLocks).integ = s.integ ∧ (s.dropHostLocks).ckpt = s.ckpt ∧ (s.dropHostLocks).pw = s.pw := by
  unfold State.dropHostLocks; (try dsimp only); (repeat' split) <;> simp [*]
@[simp] theorem State.endSession_frame (l : Link) :
    (s.endSession l).pending = s.pending ∧ (s.endSession l).nrt = s.nrt ∧ (s.endSession l).fresh = s.fresh ∧ (s.endSession l).mem = s.mem ∧ (s.endSession l).cmds = s.cmds ∧ (s.endSession l).net = s.net ∧ (s.endSession l).egress = s.egress ∧ (s.endSession l).kv = s.kv ∧ (s.endSession l).eng = s.eng ∧ (s.endSession l).lease = s.lease ∧ (s.endSession l).sec = s.sec ∧ (s.endSession l).fw = s.fw ∧ (s.endSession l).integ = s.integ ∧ (s.endSession l).ckpt = s.ckpt ∧ (s.endSession l).pw = s.pw := by
  unfold State.endSession; (try dsimp only); (repeat' split) <;> simp [*]
@[simp] theorem State.tryTrain_frame (l : Link) :
    (s.tryTrain l).pending = s.pending ∧ (s.tryTrain l).nrt = s.nrt ∧ (s.tryTrain l).fresh = s.fresh ∧ (s.tryTrain l).mem = s.mem ∧ (s.tryTrain l).rf = s.rf ∧ (s.tryTrain l).cmds = s.cmds ∧ (s.tryTrain l).net = s.net ∧ (s.tryTrain l).egress = s.egress ∧ (s.tryTrain l).kv = s.kv ∧ (s.tryTrain l).eng = s.eng ∧ (s.tryTrain l).lease = s.lease ∧ (s.tryTrain l).sec = s.sec ∧ (s.tryTrain l).fw = s.fw ∧ (s.tryTrain l).integ = s.integ ∧ (s.tryTrain l).ckpt = s.ckpt ∧ (s.tryTrain l).pw = s.pw := by
  unfold State.tryTrain; (try dsimp only); (repeat' split) <;> simp [*]
@[simp] theorem State.linkGoesDown_frame (l : Link) :
    (s.linkGoesDown l).pending = s.pending ∧ (s.linkGoesDown l).nrt = s.nrt ∧ (s.linkGoesDown l).fresh = s.fresh ∧ (s.linkGoesDown l).mem = s.mem ∧ (s.linkGoesDown l).cmds = s.cmds ∧ (s.linkGoesDown l).net = s.net ∧ (s.linkGoesDown l).egress = s.egress ∧ (s.linkGoesDown l).kv = s.kv ∧ (s.linkGoesDown l).eng = s.eng ∧ (s.linkGoesDown l).lease = s.lease ∧ (s.linkGoesDown l).sec = s.sec ∧ (s.linkGoesDown l).fw = s.fw ∧ (s.linkGoesDown l).integ = s.integ ∧ (s.linkGoesDown l).ckpt = s.ckpt ∧ (s.linkGoesDown l).pw = s.pw := by
  unfold State.linkGoesDown; (try dsimp only); (repeat' split) <;> simp [*]
@[simp] theorem State.linkInit_frame (l : Link) :
    (s.linkInit l).pending = s.pending ∧ (s.linkInit l).nrt = s.nrt ∧ (s.linkInit l).fresh = s.fresh ∧ (s.linkInit l).mem = s.mem ∧ (s.linkInit l).cmds = s.cmds ∧ (s.linkInit l).net = s.net ∧ (s.linkInit l).egress = s.egress ∧ (s.linkInit l).kv = s.kv ∧ (s.linkInit l).eng = s.eng ∧ (s.linkInit l).lease = s.lease ∧ (s.linkInit l).sec = s.sec ∧ (s.linkInit l).fw = s.fw ∧ (s.linkInit l).integ = s.integ ∧ (s.linkInit l).ckpt = s.ckpt ∧ (s.linkInit l).pw = s.pw := by
  unfold State.linkInit; (try dsimp only); (repeat' split) <;> simp [*]
@[simp] theorem State.trainFailed_frame (l : Link) (lane : Nat) :
    (s.trainFailed l lane).pending = s.pending ∧ (s.trainFailed l lane).nrt = s.nrt ∧ (s.trainFailed l lane).fresh = s.fresh ∧ (s.trainFailed l lane).mem = s.mem ∧ (s.trainFailed l lane).cmds = s.cmds ∧ (s.trainFailed l lane).net = s.net ∧ (s.trainFailed l lane).egress = s.egress ∧ (s.trainFailed l lane).kv = s.kv ∧ (s.trainFailed l lane).eng = s.eng ∧ (s.trainFailed l lane).lease = s.lease ∧ (s.trainFailed l lane).sec = s.sec ∧ (s.trainFailed l lane).fw = s.fw ∧ (s.trainFailed l lane).integ = s.integ ∧ (s.trainFailed l lane).ckpt = s.ckpt ∧ (s.trainFailed l lane).pw = s.pw := by
  unfold State.trainFailed; (try dsimp only); (repeat' split) <;> simp [*]
@[simp] theorem State.rstAsserted_frame (l : Link) :
    (s.rstAsserted l).pending = s.pending ∧ (s.rstAsserted l).nrt = s.nrt ∧ (s.rstAsserted l).fresh = s.fresh ∧ (s.rstAsserted l).mem = s.mem ∧ (s.rstAsserted l).cmds = s.cmds ∧ (s.rstAsserted l).net = s.net ∧ (s.rstAsserted l).egress = s.egress ∧ (s.rstAsserted l).kv = s.kv ∧ (s.rstAsserted l).eng = s.eng ∧ (s.rstAsserted l).lease = s.lease ∧ (s.rstAsserted l).sec = s.sec ∧ (s.rstAsserted l).fw = s.fw ∧ (s.rstAsserted l).integ = s.integ ∧ (s.rstAsserted l).ckpt = s.ckpt ∧ (s.rstAsserted l).pw = s.pw := by
  unfold State.rstAsserted; (try dsimp only); (repeat' split) <;> simp [*]
@[simp] theorem State.rstReleased_frame (l : Link) :
    (s.rstReleased l).pending = s.pending ∧ (s.rstReleased l).nrt = s.nrt ∧ (s.rstReleased l).fresh = s.fresh ∧ (s.rstReleased l).mem = s.mem ∧ (s.rstReleased l).rf = s.rf ∧ (s.rstReleased l).cmds = s.cmds ∧ (s.rstReleased l).net = s.net ∧ (s.rstReleased l).egress = s.egress ∧ (s.rstReleased l).kv = s.kv ∧ (s.rstReleased l).eng = s.eng ∧ (s.rstReleased l).lease = s.lease ∧ (s.rstReleased l).sec = s.sec ∧ (s.rstReleased l).fw = s.fw ∧ (s.rstReleased l).integ = s.integ ∧ (s.rstReleased l).ckpt = s.ckpt ∧ (s.rstReleased l).pw = s.pw := by
  unfold State.rstReleased; (try dsimp only); (repeat' split) <;> simp [*]
@[simp] theorem State.doRetrain_frame (l : Link) :
    (s.doRetrain l).pending = s.pending ∧ (s.doRetrain l).nrt = s.nrt ∧ (s.doRetrain l).fresh = s.fresh ∧ (s.doRetrain l).mem = s.mem ∧ (s.doRetrain l).cmds = s.cmds ∧ (s.doRetrain l).net = s.net ∧ (s.doRetrain l).egress = s.egress ∧ (s.doRetrain l).kv = s.kv ∧ (s.doRetrain l).eng = s.eng ∧ (s.doRetrain l).lease = s.lease ∧ (s.doRetrain l).sec = s.sec ∧ (s.doRetrain l).fw = s.fw ∧ (s.doRetrain l).integ = s.integ ∧ (s.doRetrain l).ckpt = s.ckpt ∧ (s.doRetrain l).pw = s.pw := by
  unfold State.doRetrain; (try dsimp only); (repeat' split) <;> simp [*]
@[simp] theorem State.drainStalled_frame (l : Link) (z0 : Nat) :
    (s.drainStalled l z0).pending = s.pending ∧ (s.drainStalled l z0).nrt = s.nrt ∧ (s.drainStalled l z0).fresh = s.fresh ∧ (s.drainStalled l z0).mem = s.mem ∧ (s.drainStalled l z0).cmds = s.cmds ∧ (s.drainStalled l z0).net = s.net ∧ (s.drainStalled l z0).egress = s.egress ∧ (s.drainStalled l z0).kv = s.kv ∧ (s.drainStalled l z0).eng = s.eng ∧ (s.drainStalled l z0).lease = s.lease ∧ (s.drainStalled l z0).sec = s.sec ∧ (s.drainStalled l z0).fw = s.fw ∧ (s.drainStalled l z0).integ = s.integ ∧ (s.drainStalled l z0).ckpt = s.ckpt ∧ (s.drainStalled l z0).pw = s.pw := by
  induction z0 generalizing s with | zero => (unfold State.drainStalled; (repeat' split) <;> simp) | succ n ih => (unfold State.drainStalled; (try dsimp only); (repeat' split) <;> simp [*])
@[simp] theorem State.finishMove_frame :
    (s.finishMove).pending = s.pending ∧ (s.finishMove).nrt = s.nrt ∧ (s.finishMove).fresh = s.fresh ∧ (s.finishMove).mem = s.mem ∧ (s.finishMove).cmds = s.cmds ∧ (s.finishMove).net = s.net ∧ (s.finishMove).egress = s.egress ∧ (s.finishMove).kv = s.kv ∧ (s.finishMove).eng = s.eng ∧ (s.finishMove).lease = s.lease ∧ (s.finishMove).sec = s.sec ∧ (s.finishMove).fw = s.fw ∧ (s.finishMove).integ = s.integ ∧ (s.finishMove).ckpt = s.ckpt ∧ (s.finishMove).pw = s.pw := by
  unfold State.finishMove; (try dsimp only); (repeat' split) <;> simp [*]
@[simp] theorem State.flitAck_frame (l : Link) (ackSeq : Option Nat) (crClass crUnits : Nat) :
    (s.flitAck l ackSeq crClass crUnits).pending = s.pending ∧ (s.flitAck l ackSeq crClass crUnits).nrt = s.nrt ∧ (s.flitAck l ackSeq crClass crUnits).fresh = s.fresh ∧ (s.flitAck l ackSeq crClass crUnits).mem = s.mem ∧ (s.flitAck l ackSeq crClass crUnits).cmds = s.cmds ∧ (s.flitAck l ackSeq crClass crUnits).net = s.net ∧ (s.flitAck l ackSeq crClass crUnits).egress = s.egress ∧ (s.flitAck l ackSeq crClass crUnits).kv = s.kv ∧ (s.flitAck l ackSeq crClass crUnits).eng = s.eng ∧ (s.flitAck l ackSeq crClass crUnits).lease = s.lease ∧ (s.flitAck l ackSeq crClass crUnits).sec = s.sec ∧ (s.flitAck l ackSeq crClass crUnits).fw = s.fw ∧ (s.flitAck l ackSeq crClass crUnits).integ = s.integ ∧ (s.flitAck l ackSeq crClass crUnits).ckpt = s.ckpt ∧ (s.flitAck l ackSeq crClass crUnits).pw = s.pw := by
  unfold State.flitAck; (try dsimp only); (repeat' split) <;> simp [*]
@[simp] theorem State.retry_frame (l : Link) (fseq : Nat) :
    (s.retry l fseq).pending = s.pending ∧ (s.retry l fseq).nrt = s.nrt ∧ (s.retry l fseq).fresh = s.fresh ∧ (s.retry l fseq).mem = s.mem ∧ (s.retry l fseq).cmds = s.cmds ∧ (s.retry l fseq).net = s.net ∧ (s.retry l fseq).egress = s.egress ∧ (s.retry l fseq).kv = s.kv ∧ (s.retry l fseq).eng = s.eng ∧ (s.retry l fseq).lease = s.lease ∧ (s.retry l fseq).sec = s.sec ∧ (s.retry l fseq).fw = s.fw ∧ (s.retry l fseq).integ = s.integ ∧ (s.retry l fseq).ckpt = s.ckpt ∧ (s.retry l fseq).pw = s.pw := by
  and_intros <;> (unfold State.retry; (try dsimp only); (repeat' split) <;>
    first | (simp [*]; done) | exact (State.foldl_keeps _ _ (by intros; (try dsimp only); (repeat' split) <;> simp [*]) _ _).trans (by simp [*]))
@[simp] theorem State.flitSilence_frame (l : Link) :
    (s.flitSilence l).pending = s.pending ∧ (s.flitSilence l).nrt = s.nrt ∧ (s.flitSilence l).fresh = s.fresh ∧ (s.flitSilence l).mem = s.mem ∧ (s.flitSilence l).cmds = s.cmds ∧ (s.flitSilence l).net = s.net ∧ (s.flitSilence l).egress = s.egress ∧ (s.flitSilence l).kv = s.kv ∧ (s.flitSilence l).eng = s.eng ∧ (s.flitSilence l).lease = s.lease ∧ (s.flitSilence l).sec = s.sec ∧ (s.flitSilence l).fw = s.fw ∧ (s.flitSilence l).integ = s.integ ∧ (s.flitSilence l).ckpt = s.ckpt ∧ (s.flitSilence l).pw = s.pw := by
  unfold State.flitSilence; (try dsimp only); (repeat' split) <;> simp [*]
@[simp] theorem State.access_frame (l : Link) (unit addr : Nat) :
    (s.access l unit addr).pending = s.pending ∧ (s.access l unit addr).nrt = s.nrt ∧ (s.access l unit addr).fresh = s.fresh ∧ (s.access l unit addr).mem = s.mem ∧ (s.access l unit addr).cmds = s.cmds ∧ (s.access l unit addr).net = s.net ∧ (s.access l unit addr).egress = s.egress ∧ (s.access l unit addr).kv = s.kv ∧ (s.access l unit addr).eng = s.eng ∧ (s.access l unit addr).lease = s.lease ∧ (s.access l unit addr).sec = s.sec ∧ (s.access l unit addr).fw = s.fw ∧ (s.access l unit addr).integ = s.integ ∧ (s.access l unit addr).ckpt = s.ckpt ∧ (s.access l unit addr).pw = s.pw := by
  unfold State.access; (try dsimp only); (repeat' split) <;> simp [*]
@[simp] theorem State.readError_frame (l : Link) (tag len unit addr : Nat) :
    (s.readError l tag len unit addr).pending = s.pending ∧ (s.readError l tag len unit addr).nrt = s.nrt ∧ (s.readError l tag len unit addr).fresh = s.fresh ∧ (s.readError l tag len unit addr).mem = s.mem ∧ (s.readError l tag len unit addr).cmds = s.cmds ∧ (s.readError l tag len unit addr).net = s.net ∧ (s.readError l tag len unit addr).egress = s.egress ∧ (s.readError l tag len unit addr).kv = s.kv ∧ (s.readError l tag len unit addr).eng = s.eng ∧ (s.readError l tag len unit addr).lease = s.lease ∧ (s.readError l tag len unit addr).sec = s.sec ∧ (s.readError l tag len unit addr).fw = s.fw ∧ (s.readError l tag len unit addr).integ = s.integ ∧ (s.readError l tag len unit addr).ckpt = s.ckpt ∧ (s.readError l tag len unit addr).pw = s.pw := by
  unfold State.readError; (try dsimp only); (repeat' split) <;> simp [*]
@[simp] theorem State.doActiveReq_frame (l : Link) :
    (s.doActiveReq l).pending = s.pending ∧ (s.doActiveReq l).nrt = s.nrt ∧ (s.doActiveReq l).fresh = s.fresh ∧ (s.doActiveReq l).mem = s.mem ∧ (s.doActiveReq l).cmds = s.cmds ∧ (s.doActiveReq l).net = s.net ∧ (s.doActiveReq l).egress = s.egress ∧ (s.doActiveReq l).kv = s.kv ∧ (s.doActiveReq l).eng = s.eng ∧ (s.doActiveReq l).lease = s.lease ∧ (s.doActiveReq l).sec = s.sec ∧ (s.doActiveReq l).fw = s.fw ∧ (s.doActiveReq l).integ = s.integ ∧ (s.doActiveReq l).ckpt = s.ckpt ∧ (s.doActiveReq l).pw = s.pw := by
  unfold State.doActiveReq; (try dsimp only); (repeat' split) <;> simp [*]
@[simp] theorem State.ringWindowPut_frame (l : Link) (addr : Nat) (d : List Byte) :
    (s.ringWindowPut l addr d).pending = s.pending ∧ (s.ringWindowPut l addr d).nrt = s.nrt ∧ (s.ringWindowPut l addr d).fresh = s.fresh ∧ (s.ringWindowPut l addr d).cmds = s.cmds ∧ (s.ringWindowPut l addr d).net = s.net ∧ (s.ringWindowPut l addr d).egress = s.egress ∧ (s.ringWindowPut l addr d).kv = s.kv ∧ (s.ringWindowPut l addr d).eng = s.eng ∧ (s.ringWindowPut l addr d).lease = s.lease ∧ (s.ringWindowPut l addr d).sec = s.sec ∧ (s.ringWindowPut l addr d).fw = s.fw ∧ (s.ringWindowPut l addr d).integ = s.integ ∧ (s.ringWindowPut l addr d).ckpt = s.ckpt ∧ (s.ringWindowPut l addr d).pw = s.pw := by
  unfold State.ringWindowPut; (try dsimp only); (repeat' split) <;> simp [*]
@[simp] theorem State.ringWindowRead_frame (l : Link) (tag addr len : Nat) :
    (s.ringWindowRead l tag addr len).pending = s.pending ∧ (s.ringWindowRead l tag addr len).nrt = s.nrt ∧ (s.ringWindowRead l tag addr len).fresh = s.fresh ∧ (s.ringWindowRead l tag addr len).mem = s.mem ∧ (s.ringWindowRead l tag addr len).cmds = s.cmds ∧ (s.ringWindowRead l tag addr len).net = s.net ∧ (s.ringWindowRead l tag addr len).egress = s.egress ∧ (s.ringWindowRead l tag addr len).kv = s.kv ∧ (s.ringWindowRead l tag addr len).eng = s.eng ∧ (s.ringWindowRead l tag addr len).lease = s.lease ∧ (s.ringWindowRead l tag addr len).sec = s.sec ∧ (s.ringWindowRead l tag addr len).fw = s.fw ∧ (s.ringWindowRead l tag addr len).integ = s.integ ∧ (s.ringWindowRead l tag addr len).ckpt = s.ckpt ∧ (s.ringWindowRead l tag addr len).pw = s.pw := by
  unfold State.ringWindowRead; (try dsimp only); (repeat' split) <;> simp [*]
@[simp] theorem State.sendMsg_frame (c : Conn) (lane : Lane) (epoch : Word) (bytes : List Byte) :
    (s.sendMsg c lane epoch bytes).pending = s.pending ∧ (s.sendMsg c lane epoch bytes).nrt = s.nrt ∧ (s.sendMsg c lane epoch bytes).fresh = s.fresh ∧ (s.sendMsg c lane epoch bytes).mem = s.mem ∧ (s.sendMsg c lane epoch bytes).rf = s.rf ∧ (s.sendMsg c lane epoch bytes).host = s.host ∧ (s.sendMsg c lane epoch bytes).cmds = s.cmds ∧ (s.sendMsg c lane epoch bytes).egress = s.egress ∧ (s.sendMsg c lane epoch bytes).kv = s.kv ∧ (s.sendMsg c lane epoch bytes).eng = s.eng ∧ (s.sendMsg c lane epoch bytes).lease = s.lease ∧ (s.sendMsg c lane epoch bytes).sec = s.sec ∧ (s.sendMsg c lane epoch bytes).fw = s.fw ∧ (s.sendMsg c lane epoch bytes).integ = s.integ ∧ (s.sendMsg c lane epoch bytes).ckpt = s.ckpt ∧ (s.sendMsg c lane epoch bytes).pw = s.pw := by
  unfold State.sendMsg; (try dsimp only); (repeat' split) <;> simp [*]
@[simp] theorem State.respond_frame (conn reqMsg : Nat) (epoch : Word) (c : Completion) (tagValid : Bool) (out : List Byte) :
    (s.respond conn reqMsg epoch c tagValid out).pending = s.pending ∧ (s.respond conn reqMsg epoch c tagValid out).nrt = s.nrt ∧ (s.respond conn reqMsg epoch c tagValid out).fresh = s.fresh ∧ (s.respond conn reqMsg epoch c tagValid out).mem = s.mem ∧ (s.respond conn reqMsg epoch c tagValid out).rf = s.rf ∧ (s.respond conn reqMsg epoch c tagValid out).host = s.host ∧ (s.respond conn reqMsg epoch c tagValid out).cmds = s.cmds ∧ (s.respond conn reqMsg epoch c tagValid out).egress = s.egress ∧ (s.respond conn reqMsg epoch c tagValid out).kv = s.kv ∧ (s.respond conn reqMsg epoch c tagValid out).eng = s.eng ∧ (s.respond conn reqMsg epoch c tagValid out).lease = s.lease ∧ (s.respond conn reqMsg epoch c tagValid out).sec = s.sec ∧ (s.respond conn reqMsg epoch c tagValid out).fw = s.fw ∧ (s.respond conn reqMsg epoch c tagValid out).integ = s.integ ∧ (s.respond conn reqMsg epoch c tagValid out).ckpt = s.ckpt ∧ (s.respond conn reqMsg epoch c tagValid out).pw = s.pw := by
  unfold State.respond; (try dsimp only); (repeat' split) <;> simp [*]
@[simp] theorem State.freeReq_frame (conn msgId : Nat) :
    (s.freeReq conn msgId).pending = s.pending ∧ (s.freeReq conn msgId).nrt = s.nrt ∧ (s.freeReq conn msgId).fresh = s.fresh ∧ (s.freeReq conn msgId).mem = s.mem ∧ (s.freeReq conn msgId).rf = s.rf ∧ (s.freeReq conn msgId).host = s.host ∧ (s.freeReq conn msgId).cmds = s.cmds ∧ (s.freeReq conn msgId).egress = s.egress ∧ (s.freeReq conn msgId).kv = s.kv ∧ (s.freeReq conn msgId).eng = s.eng ∧ (s.freeReq conn msgId).lease = s.lease ∧ (s.freeReq conn msgId).sec = s.sec ∧ (s.freeReq conn msgId).fw = s.fw ∧ (s.freeReq conn msgId).integ = s.integ ∧ (s.freeReq conn msgId).ckpt = s.ckpt ∧ (s.freeReq conn msgId).pw = s.pw := by
  unfold State.freeReq; (try dsimp only); (repeat' split) <;> simp [*]
@[simp] theorem State.deliver_frame (src : Source) (h : Hdr) (opcode : Nat) (r : Result) :
    (s.deliver src h opcode r).pending = s.pending ∧ (s.deliver src h opcode r).nrt = s.nrt ∧ (s.deliver src h opcode r).fresh = s.fresh ∧ (s.deliver src h opcode r).cmds = s.cmds ∧ (s.deliver src h opcode r).egress = s.egress ∧ (s.deliver src h opcode r).kv = s.kv ∧ (s.deliver src h opcode r).eng = s.eng ∧ (s.deliver src h opcode r).lease = s.lease ∧ (s.deliver src h opcode r).sec = s.sec ∧ (s.deliver src h opcode r).fw = s.fw ∧ (s.deliver src h opcode r).integ = s.integ ∧ (s.deliver src h opcode r).ckpt = s.ckpt ∧ (s.deliver src h opcode r).pw = s.pw := by
  unfold State.deliver; (try dsimp only); (repeat' split) <;> simp [*]
@[simp] theorem State.skipAfter_frame (src : Source) (op : Op) (status : Nat) :
    (s.skipAfter src op status).pending = s.pending ∧ (s.skipAfter src op status).nrt = s.nrt ∧ (s.skipAfter src op status).fresh = s.fresh ∧ (s.skipAfter src op status).mem = s.mem ∧ (s.skipAfter src op status).rf = s.rf ∧ (s.skipAfter src op status).cmds = s.cmds ∧ (s.skipAfter src op status).net = s.net ∧ (s.skipAfter src op status).egress = s.egress ∧ (s.skipAfter src op status).kv = s.kv ∧ (s.skipAfter src op status).eng = s.eng ∧ (s.skipAfter src op status).lease = s.lease ∧ (s.skipAfter src op status).sec = s.sec ∧ (s.skipAfter src op status).fw = s.fw ∧ (s.skipAfter src op status).integ = s.integ ∧ (s.skipAfter src op status).ckpt = s.ckpt ∧ (s.skipAfter src op status).pw = s.pw := by
  unfold State.skipAfter; (try dsimp only); (repeat' split) <;> simp [*]
@[simp] theorem State.finish_frame (c : Cmd) (r : Result) :
    (s.finish c r).pending = s.pending ∧ (s.finish c r).nrt = s.nrt ∧ (s.finish c r).fresh = s.fresh ∧ (s.finish c r).egress = s.egress ∧ (s.finish c r).kv = s.kv ∧ (s.finish c r).eng = s.eng ∧ (s.finish c r).lease = s.lease ∧ (s.finish c r).sec = s.sec ∧ (s.finish c r).fw = s.fw ∧ (s.finish c r).integ = s.integ ∧ (s.finish c r).ckpt = s.ckpt ∧ (s.finish c r).pw = s.pw := by
  unfold State.finish; (try dsimp only); (repeat' split) <;> simp [*]
@[simp] theorem State.finishId_frame (id : Nat) (r : Result) :
    (s.finishId id r).pending = s.pending ∧ (s.finishId id r).nrt = s.nrt ∧ (s.finishId id r).fresh = s.fresh ∧ (s.finishId id r).egress = s.egress ∧ (s.finishId id r).kv = s.kv ∧ (s.finishId id r).eng = s.eng ∧ (s.finishId id r).lease = s.lease ∧ (s.finishId id r).sec = s.sec ∧ (s.finishId id r).fw = s.fw ∧ (s.finishId id r).integ = s.integ ∧ (s.finishId id r).ckpt = s.ckpt ∧ (s.finishId id r).pw = s.pw := by
  unfold State.finishId; (try dsimp only); (repeat' split) <;> simp [*]

end Sys2Proof.Machine
end

