-- ==== Sys2Proof/Laws/FrameStore.lean ====
section
/-!
SUPPORT. What operations leave as it was, one lemma for each operation: the groups of State named in it are unchanged
(Codes, Pool, Frames, Integ, Lines, Sched, Transport, Outbound, Merge, Append, Seq, Starter, Fork, AttnCmd, AttnRun, PageRead, Compact, Audit).
-/

namespace Sys2Proof.Machine


variable (s : State)

@[simp] theorem State.encode_frame (a : Nat) (host poison : Bool) :
    (s.encode a host poison).pending = s.pending ∧ (s.encode a host poison).nrt = s.nrt ∧ (s.encode a host poison).fresh = s.fresh ∧ (s.encode a host poison).mem = s.mem ∧ (s.encode a host poison).host = s.host ∧ (s.encode a host poison).cmds = s.cmds ∧ (s.encode a host poison).net = s.net ∧ (s.encode a host poison).egress = s.egress ∧ (s.encode a host poison).eng = s.eng ∧ (s.encode a host poison).lease = s.lease ∧ (s.encode a host poison).sec = s.sec ∧ (s.encode a host poison).fw = s.fw ∧ (s.encode a host poison).ckpt = s.ckpt ∧ (s.encode a host poison).pw = s.pw := by
  and_intros <;> (unfold State.encode; (try dsimp only); (repeat' split) <;>
    first | (simp [*]; done) | exact (State.foldl_keeps _ _ (by intros; (try dsimp only); (repeat' split) <;> simp [*]) _ _).trans (by simp [*]))
@[simp] theorem State.encoded_frame (a : Nat) (host : Bool) :
    (s.encoded a host).pending = s.pending ∧ (s.encoded a host).nrt = s.nrt ∧ (s.encoded a host).fresh = s.fresh ∧ (s.encoded a host).mem = s.mem ∧ (s.encoded a host).host = s.host ∧ (s.encoded a host).cmds = s.cmds ∧ (s.encoded a host).net = s.net ∧ (s.encoded a host).egress = s.egress ∧ (s.encoded a host).eng = s.eng ∧ (s.encoded a host).lease = s.lease ∧ (s.encoded a host).sec = s.sec ∧ (s.encoded a host).fw = s.fw ∧ (s.encoded a host).ckpt = s.ckpt ∧ (s.encoded a host).pw = s.pw := by
  unfold State.encoded; (try dsimp only); (repeat' split) <;> simp [*]
@[simp] theorem State.charge_frame (d n : Nat) :
    (s.charge d n).pending = s.pending ∧ (s.charge d n).nrt = s.nrt ∧ (s.charge d n).fresh = s.fresh ∧ (s.charge d n).mem = s.mem ∧ (s.charge d n).rf = s.rf ∧ (s.charge d n).host = s.host ∧ (s.charge d n).cmds = s.cmds ∧ (s.charge d n).net = s.net ∧ (s.charge d n).egress = s.egress ∧ (s.charge d n).eng = s.eng ∧ (s.charge d n).lease = s.lease ∧ (s.charge d n).sec = s.sec ∧ (s.charge d n).fw = s.fw ∧ (s.charge d n).integ = s.integ ∧ (s.charge d n).ckpt = s.ckpt ∧ (s.charge d n).pw = s.pw := by
  unfold State.charge; (try dsimp only); (repeat' split) <;> simp [*]
@[simp] theorem State.refund_frame (d n : Nat) :
    (s.refund d n).pending = s.pending ∧ (s.refund d n).nrt = s.nrt ∧ (s.refund d n).fresh = s.fresh ∧ (s.refund d n).mem = s.mem ∧ (s.refund d n).rf = s.rf ∧ (s.refund d n).host = s.host ∧ (s.refund d n).cmds = s.cmds ∧ (s.refund d n).net = s.net ∧ (s.refund d n).egress = s.egress ∧ (s.refund d n).eng = s.eng ∧ (s.refund d n).lease = s.lease ∧ (s.refund d n).sec = s.sec ∧ (s.refund d n).fw = s.fw ∧ (s.refund d n).integ = s.integ ∧ (s.refund d n).ckpt = s.ckpt ∧ (s.refund d n).pw = s.pw := by
  unfold State.refund; (try dsimp only); (repeat' split) <;> simp [*]
@[simp] theorem State.putChunk_frame (ch k : Nat) (u : ChunkUse) :
    (s.putChunk ch k u).pending = s.pending ∧ (s.putChunk ch k u).nrt = s.nrt ∧ (s.putChunk ch k u).fresh = s.fresh ∧ (s.putChunk ch k u).mem = s.mem ∧ (s.putChunk ch k u).cmds = s.cmds ∧ (s.putChunk ch k u).net = s.net ∧ (s.putChunk ch k u).egress = s.egress ∧ (s.putChunk ch k u).eng = s.eng ∧ (s.putChunk ch k u).lease = s.lease ∧ (s.putChunk ch k u).sec = s.sec ∧ (s.putChunk ch k u).fw = s.fw ∧ (s.putChunk ch k u).integ = s.integ ∧ (s.putChunk ch k u).ckpt = s.ckpt ∧ (s.putChunk ch k u).pw = s.pw := by
  unfold State.putChunk; (try dsimp only); (repeat' split) <;> simp [*]
@[simp] theorem State.giveChunk_frame (ch k : Nat) :
    (s.giveChunk ch k).pending = s.pending ∧ (s.giveChunk ch k).nrt = s.nrt ∧ (s.giveChunk ch k).fresh = s.fresh ∧ (s.giveChunk ch k).mem = s.mem ∧ (s.giveChunk ch k).rf = s.rf ∧ (s.giveChunk ch k).host = s.host ∧ (s.giveChunk ch k).cmds = s.cmds ∧ (s.giveChunk ch k).net = s.net ∧ (s.giveChunk ch k).egress = s.egress ∧ (s.giveChunk ch k).eng = s.eng ∧ (s.giveChunk ch k).lease = s.lease ∧ (s.giveChunk ch k).sec = s.sec ∧ (s.giveChunk ch k).fw = s.fw ∧ (s.giveChunk ch k).integ = s.integ ∧ (s.giveChunk ch k).ckpt = s.ckpt ∧ (s.giveChunk ch k).pw = s.pw := by
  unfold State.giveChunk; (try dsimp only); (repeat' split) <;> simp [*]
@[simp] theorem State.zeroRack_frame (ch k : Nat) :
    (s.zeroRack ch k).pending = s.pending ∧ (s.zeroRack ch k).nrt = s.nrt ∧ (s.zeroRack ch k).fresh = s.fresh ∧ (s.zeroRack ch k).rf = s.rf ∧ (s.zeroRack ch k).host = s.host ∧ (s.zeroRack ch k).cmds = s.cmds ∧ (s.zeroRack ch k).net = s.net ∧ (s.zeroRack ch k).egress = s.egress ∧ (s.zeroRack ch k).eng = s.eng ∧ (s.zeroRack ch k).lease = s.lease ∧ (s.zeroRack ch k).sec = s.sec ∧ (s.zeroRack ch k).fw = s.fw ∧ (s.zeroRack ch k).integ = s.integ ∧ (s.zeroRack ch k).ckpt = s.ckpt ∧ (s.zeroRack ch k).pw = s.pw := by
  unfold State.zeroRack; (try dsimp only); (repeat' split) <;> simp [*]
@[simp] theorem State.dropChunk_frame (ch k : Nat) :
    (s.dropChunk ch k).pending = s.pending ∧ (s.dropChunk ch k).nrt = s.nrt ∧ (s.dropChunk ch k).fresh = s.fresh ∧ (s.dropChunk ch k).mem = s.mem ∧ (s.dropChunk ch k).rf = s.rf ∧ (s.dropChunk ch k).host = s.host ∧ (s.dropChunk ch k).cmds = s.cmds ∧ (s.dropChunk ch k).net = s.net ∧ (s.dropChunk ch k).egress = s.egress ∧ (s.dropChunk ch k).eng = s.eng ∧ (s.dropChunk ch k).lease = s.lease ∧ (s.dropChunk ch k).sec = s.sec ∧ (s.dropChunk ch k).fw = s.fw ∧ (s.dropChunk ch k).integ = s.integ ∧ (s.dropChunk ch k).ckpt = s.ckpt ∧ (s.dropChunk ch k).pw = s.pw := by
  unfold State.dropChunk; (try dsimp only); (repeat' split) <;> simp [*]
@[simp] theorem State.freeMeta_frame (ch half n : Nat) :
    (s.freeMeta ch half n).pending = s.pending ∧ (s.freeMeta ch half n).nrt = s.nrt ∧ (s.freeMeta ch half n).fresh = s.fresh ∧ (s.freeMeta ch half n).mem = s.mem ∧ (s.freeMeta ch half n).cmds = s.cmds ∧ (s.freeMeta ch half n).net = s.net ∧ (s.freeMeta ch half n).egress = s.egress ∧ (s.freeMeta ch half n).eng = s.eng ∧ (s.freeMeta ch half n).lease = s.lease ∧ (s.freeMeta ch half n).sec = s.sec ∧ (s.freeMeta ch half n).fw = s.fw ∧ (s.freeMeta ch half n).integ = s.integ ∧ (s.freeMeta ch half n).ckpt = s.ckpt ∧ (s.freeMeta ch half n).pw = s.pw := by
  and_intros <;> (unfold State.freeMeta; (try dsimp only); (repeat' split) <;>
    first | (simp [*]; done) | exact (State.foldl_keeps _ _ (by intros; (try dsimp only); (repeat' split) <;> simp [*]) _ _).trans (by simp [*]))
@[simp] theorem State.updFrame_frame (f : Nat) (g : Frame → Frame) :
    (s.updFrame f g).pending = s.pending ∧ (s.updFrame f g).nrt = s.nrt ∧ (s.updFrame f g).fresh = s.fresh ∧ (s.updFrame f g).mem = s.mem ∧ (s.updFrame f g).rf = s.rf ∧ (s.updFrame f g).host = s.host ∧ (s.updFrame f g).cmds = s.cmds ∧ (s.updFrame f g).net = s.net ∧ (s.updFrame f g).egress = s.egress ∧ (s.updFrame f g).eng = s.eng ∧ (s.updFrame f g).lease = s.lease ∧ (s.updFrame f g).sec = s.sec ∧ (s.updFrame f g).fw = s.fw ∧ (s.updFrame f g).integ = s.integ ∧ (s.updFrame f g).ckpt = s.ckpt ∧ (s.updFrame f g).pw = s.pw := by
  unfold State.updFrame; (try dsimp only); (repeat' split) <;> simp [*]
@[simp] theorem State.freeCrumb_frame (ch loc : Nat) :
    (s.freeCrumb ch loc).pending = s.pending ∧ (s.freeCrumb ch loc).nrt = s.nrt ∧ (s.freeCrumb ch loc).fresh = s.fresh ∧ (s.freeCrumb ch loc).mem = s.mem ∧ (s.freeCrumb ch loc).rf = s.rf ∧ (s.freeCrumb ch loc).host = s.host ∧ (s.freeCrumb ch loc).cmds = s.cmds ∧ (s.freeCrumb ch loc).net = s.net ∧ (s.freeCrumb ch loc).egress = s.egress ∧ (s.freeCrumb ch loc).eng = s.eng ∧ (s.freeCrumb ch loc).lease = s.lease ∧ (s.freeCrumb ch loc).sec = s.sec ∧ (s.freeCrumb ch loc).fw = s.fw ∧ (s.freeCrumb ch loc).integ = s.integ ∧ (s.freeCrumb ch loc).ckpt = s.ckpt ∧ (s.freeCrumb ch loc).pw = s.pw := by
  and_intros <;> (unfold State.freeCrumb; (try dsimp only); (repeat' split) <;>
    first | (simp [*]; done) | exact (State.foldl_keeps _ _ (by intros; (try dsimp only); (repeat' split) <;> simp [*]) _ _).trans (by simp [*]))
@[simp] theorem State.dropGot_frame (d : Nat) (g : Got) :
    (s.dropGot d g).pending = s.pending ∧ (s.dropGot d g).nrt = s.nrt ∧ (s.dropGot d g).fresh = s.fresh ∧ (s.dropGot d g).mem = s.mem ∧ (s.dropGot d g).cmds = s.cmds ∧ (s.dropGot d g).net = s.net ∧ (s.dropGot d g).egress = s.egress ∧ (s.dropGot d g).eng = s.eng ∧ (s.dropGot d g).lease = s.lease ∧ (s.dropGot d g).sec = s.sec ∧ (s.dropGot d g).fw = s.fw ∧ (s.dropGot d g).integ = s.integ ∧ (s.dropGot d g).ckpt = s.ckpt ∧ (s.dropGot d g).pw = s.pw := by
  unfold State.dropGot; (try dsimp only); (repeat' split) <;> simp [*]
@[simp] theorem State.dropTable_frame (k : Nat × Nat × Nat) :
    (s.dropTable k).pending = s.pending ∧ (s.dropTable k).nrt = s.nrt ∧ (s.dropTable k).fresh = s.fresh ∧ (s.dropTable k).mem = s.mem ∧ (s.dropTable k).cmds = s.cmds ∧ (s.dropTable k).net = s.net ∧ (s.dropTable k).egress = s.egress ∧ (s.dropTable k).eng = s.eng ∧ (s.dropTable k).lease = s.lease ∧ (s.dropTable k).sec = s.sec ∧ (s.dropTable k).fw = s.fw ∧ (s.dropTable k).integ = s.integ ∧ (s.dropTable k).ckpt = s.ckpt ∧ (s.dropTable k).pw = s.pw := by
  unfold State.dropTable; (try dsimp only); (repeat' split) <;> simp [*]
@[simp] theorem State.dropSpace_frame (d : Nat) (x : Space) :
    (s.dropSpace d x).pending = s.pending ∧ (s.dropSpace d x).nrt = s.nrt ∧ (s.dropSpace d x).fresh = s.fresh ∧ (s.dropSpace d x).mem = s.mem ∧ (s.dropSpace d x).cmds = s.cmds ∧ (s.dropSpace d x).net = s.net ∧ (s.dropSpace d x).egress = s.egress ∧ (s.dropSpace d x).eng = s.eng ∧ (s.dropSpace d x).lease = s.lease ∧ (s.dropSpace d x).sec = s.sec ∧ (s.dropSpace d x).fw = s.fw ∧ (s.dropSpace d x).integ = s.integ ∧ (s.dropSpace d x).ckpt = s.ckpt ∧ (s.dropSpace d x).pw = s.pw := by
  and_intros <;> (unfold State.dropSpace; (try dsimp only); (repeat' split) <;>
    first | (simp [*]; done) | exact (State.foldl_keeps _ _ (by intros; (try dsimp only); (repeat' split) <;> simp [*]) _ _).trans (by simp [*]))
@[simp] theorem State.finishHeld_frame (c : Cmd) (r : Result) :
    (s.finishHeld c r).pending = s.pending ∧ (s.finishHeld c r).nrt = s.nrt ∧ (s.finishHeld c r).fresh = s.fresh ∧ (s.finishHeld c r).egress = s.egress ∧ (s.finishHeld c r).eng = s.eng ∧ (s.finishHeld c r).lease = s.lease ∧ (s.finishHeld c r).sec = s.sec ∧ (s.finishHeld c r).fw = s.fw ∧ (s.finishHeld c r).integ = s.integ ∧ (s.finishHeld c r).ckpt = s.ckpt ∧ (s.finishHeld c r).pw = s.pw := by
  unfold State.finishHeld; (try dsimp only); (repeat' split) <;> simp [*]
@[simp] theorem State.setPte_frame (d v : Nat) (p : Pte) :
    (s.setPte d v p).pending = s.pending ∧ (s.setPte d v p).nrt = s.nrt ∧ (s.setPte d v p).fresh = s.fresh ∧ (s.setPte d v p).mem = s.mem ∧ (s.setPte d v p).rf = s.rf ∧ (s.setPte d v p).host = s.host ∧ (s.setPte d v p).cmds = s.cmds ∧ (s.setPte d v p).net = s.net ∧ (s.setPte d v p).egress = s.egress ∧ (s.setPte d v p).eng = s.eng ∧ (s.setPte d v p).lease = s.lease ∧ (s.setPte d v p).sec = s.sec ∧ (s.setPte d v p).fw = s.fw ∧ (s.setPte d v p).integ = s.integ ∧ (s.setPte d v p).ckpt = s.ckpt ∧ (s.setPte d v p).pw = s.pw := by
  unfold State.setPte; (try dsimp only); (repeat' split) <;> simp [*]
@[simp] theorem State.mapPtes_frame (f : Nat) (g : Pte → Pte) :
    (s.mapPtes f g).pending = s.pending ∧ (s.mapPtes f g).nrt = s.nrt ∧ (s.mapPtes f g).fresh = s.fresh ∧ (s.mapPtes f g).mem = s.mem ∧ (s.mapPtes f g).rf = s.rf ∧ (s.mapPtes f g).host = s.host ∧ (s.mapPtes f g).cmds = s.cmds ∧ (s.mapPtes f g).net = s.net ∧ (s.mapPtes f g).egress = s.egress ∧ (s.mapPtes f g).eng = s.eng ∧ (s.mapPtes f g).lease = s.lease ∧ (s.mapPtes f g).sec = s.sec ∧ (s.mapPtes f g).fw = s.fw ∧ (s.mapPtes f g).integ = s.integ ∧ (s.mapPtes f g).ckpt = s.ckpt ∧ (s.mapPtes f g).pw = s.pw := by
  and_intros <;> (unfold State.mapPtes; (try dsimp only); (repeat' split) <;>
    first | (simp [*]; done) | exact (State.foldl_keeps _ _ (by intros; (try dsimp only); (repeat' split) <;> simp [*]) _ _).trans (by simp [*]))
@[simp] theorem State.setLine_frame (l : Line) :
    (s.setLine l).pending = s.pending ∧ (s.setLine l).nrt = s.nrt ∧ (s.setLine l).fresh = s.fresh ∧ (s.setLine l).mem = s.mem ∧ (s.setLine l).rf = s.rf ∧ (s.setLine l).host = s.host ∧ (s.setLine l).cmds = s.cmds ∧ (s.setLine l).net = s.net ∧ (s.setLine l).egress = s.egress ∧ (s.setLine l).eng = s.eng ∧ (s.setLine l).lease = s.lease ∧ (s.setLine l).sec = s.sec ∧ (s.setLine l).fw = s.fw ∧ (s.setLine l).integ = s.integ ∧ (s.setLine l).ckpt = s.ckpt ∧ (s.setLine l).pw = s.pw := by
  unfold State.setLine; (try dsimp only); (repeat' split) <;> simp [*]
@[simp] theorem State.dropLine_frame (l : Line) :
    (s.dropLine l).pending = s.pending ∧ (s.dropLine l).nrt = s.nrt ∧ (s.dropLine l).fresh = s.fresh ∧ (s.dropLine l).mem = s.mem ∧ (s.dropLine l).rf = s.rf ∧ (s.dropLine l).host = s.host ∧ (s.dropLine l).cmds = s.cmds ∧ (s.dropLine l).net = s.net ∧ (s.dropLine l).egress = s.egress ∧ (s.dropLine l).eng = s.eng ∧ (s.dropLine l).lease = s.lease ∧ (s.dropLine l).sec = s.sec ∧ (s.dropLine l).fw = s.fw ∧ (s.dropLine l).integ = s.integ ∧ (s.dropLine l).ckpt = s.ckpt ∧ (s.dropLine l).pw = s.pw := by
  unfold State.dropLine; (try dsimp only); (repeat' split) <;> simp [*]
@[simp] theorem State.updPage_frame (f : Nat) (g : Page → Page) :
    (s.updPage f g).pending = s.pending ∧ (s.updPage f g).nrt = s.nrt ∧ (s.updPage f g).fresh = s.fresh ∧ (s.updPage f g).mem = s.mem ∧ (s.updPage f g).rf = s.rf ∧ (s.updPage f g).host = s.host ∧ (s.updPage f g).cmds = s.cmds ∧ (s.updPage f g).net = s.net ∧ (s.updPage f g).egress = s.egress ∧ (s.updPage f g).eng = s.eng ∧ (s.updPage f g).lease = s.lease ∧ (s.updPage f g).sec = s.sec ∧ (s.updPage f g).fw = s.fw ∧ (s.updPage f g).integ = s.integ ∧ (s.updPage f g).ckpt = s.ckpt ∧ (s.updPage f g).pw = s.pw := by
  unfold State.updPage; (try dsimp only); (repeat' split) <;> simp [*]
@[simp] theorem State.setFState_frame (f : Nat) (st : FState) :
    (s.setFState f st).pending = s.pending ∧ (s.setFState f st).nrt = s.nrt ∧ (s.setFState f st).fresh = s.fresh ∧ (s.setFState f st).mem = s.mem ∧ (s.setFState f st).rf = s.rf ∧ (s.setFState f st).host = s.host ∧ (s.setFState f st).cmds = s.cmds ∧ (s.setFState f st).net = s.net ∧ (s.setFState f st).egress = s.egress ∧ (s.setFState f st).eng = s.eng ∧ (s.setFState f st).lease = s.lease ∧ (s.setFState f st).sec = s.sec ∧ (s.setFState f st).fw = s.fw ∧ (s.setFState f st).integ = s.integ ∧ (s.setFState f st).ckpt = s.ckpt ∧ (s.setFState f st).pw = s.pw := by
  unfold State.setFState; (try dsimp only); (repeat' split) <;> simp [*]
@[simp] theorem State.freeFrame_frame (f : Nat) :
    (s.freeFrame f).pending = s.pending ∧ (s.freeFrame f).nrt = s.nrt ∧ (s.freeFrame f).fresh = s.fresh ∧ (s.freeFrame f).mem = s.mem ∧ (s.freeFrame f).cmds = s.cmds ∧ (s.freeFrame f).net = s.net ∧ (s.freeFrame f).egress = s.egress ∧ (s.freeFrame f).eng = s.eng ∧ (s.freeFrame f).lease = s.lease ∧ (s.freeFrame f).sec = s.sec ∧ (s.freeFrame f).fw = s.fw ∧ (s.freeFrame f).integ = s.integ ∧ (s.freeFrame f).ckpt = s.ckpt ∧ (s.freeFrame f).pw = s.pw := by
  and_intros <;> (unfold State.freeFrame; (try dsimp only); (repeat' split) <;>
    first | (simp [*]; done) | exact (State.foldl_keeps _ _ (by intros; (try dsimp only); (repeat' split) <;> simp [*]) _ _).trans (by simp [*]))
@[simp] theorem State.settleFrame_frame (f : Nat) :
    (s.settleFrame f).pending = s.pending ∧ (s.settleFrame f).nrt = s.nrt ∧ (s.settleFrame f).fresh = s.fresh ∧ (s.settleFrame f).mem = s.mem ∧ (s.settleFrame f).cmds = s.cmds ∧ (s.settleFrame f).net = s.net ∧ (s.settleFrame f).egress = s.egress ∧ (s.settleFrame f).eng = s.eng ∧ (s.settleFrame f).lease = s.lease ∧ (s.settleFrame f).sec = s.sec ∧ (s.settleFrame f).fw = s.fw ∧ (s.settleFrame f).integ = s.integ ∧ (s.settleFrame f).ckpt = s.ckpt ∧ (s.settleFrame f).pw = s.pw := by
  unfold State.settleFrame; (try dsimp only); (repeat' split) <;> simp [*]
@[simp] theorem State.lowerShare_frame (f : Nat) :
    (s.lowerShare f).pending = s.pending ∧ (s.lowerShare f).nrt = s.nrt ∧ (s.lowerShare f).fresh = s.fresh ∧ (s.lowerShare f).mem = s.mem ∧ (s.lowerShare f).cmds = s.cmds ∧ (s.lowerShare f).net = s.net ∧ (s.lowerShare f).egress = s.egress ∧ (s.lowerShare f).eng = s.eng ∧ (s.lowerShare f).lease = s.lease ∧ (s.lowerShare f).sec = s.sec ∧ (s.lowerShare f).fw = s.fw ∧ (s.lowerShare f).integ = s.integ ∧ (s.lowerShare f).ckpt = s.ckpt ∧ (s.lowerShare f).pw = s.pw := by
  unfold State.lowerShare; (try dsimp only); (repeat' split) <;> simp [*]
@[simp] theorem State.raiseShare_frame (f : Nat) :
    (s.raiseShare f).pending = s.pending ∧ (s.raiseShare f).nrt = s.nrt ∧ (s.raiseShare f).fresh = s.fresh ∧ (s.raiseShare f).mem = s.mem ∧ (s.raiseShare f).rf = s.rf ∧ (s.raiseShare f).host = s.host ∧ (s.raiseShare f).cmds = s.cmds ∧ (s.raiseShare f).net = s.net ∧ (s.raiseShare f).egress = s.egress ∧ (s.raiseShare f).eng = s.eng ∧ (s.raiseShare f).lease = s.lease ∧ (s.raiseShare f).sec = s.sec ∧ (s.raiseShare f).fw = s.fw ∧ (s.raiseShare f).integ = s.integ ∧ (s.raiseShare f).ckpt = s.ckpt ∧ (s.raiseShare f).pw = s.pw := by
  unfold State.raiseShare; (try dsimp only); (repeat' split) <;> simp [*]
@[simp] theorem State.pin_frame (f : Nat) :
    (s.pin f).pending = s.pending ∧ (s.pin f).nrt = s.nrt ∧ (s.pin f).fresh = s.fresh ∧ (s.pin f).mem = s.mem ∧ (s.pin f).rf = s.rf ∧ (s.pin f).host = s.host ∧ (s.pin f).cmds = s.cmds ∧ (s.pin f).net = s.net ∧ (s.pin f).egress = s.egress ∧ (s.pin f).eng = s.eng ∧ (s.pin f).lease = s.lease ∧ (s.pin f).sec = s.sec ∧ (s.pin f).fw = s.fw ∧ (s.pin f).integ = s.integ ∧ (s.pin f).ckpt = s.ckpt ∧ (s.pin f).pw = s.pw := by
  unfold State.pin; (try dsimp only); (repeat' split) <;> simp [*]
@[simp] theorem State.dropEntry_frame (k : Nat × Nat × Nat) :
    (s.dropEntry k).pending = s.pending ∧ (s.dropEntry k).nrt = s.nrt ∧ (s.dropEntry k).fresh = s.fresh ∧ (s.dropEntry k).mem = s.mem ∧ (s.dropEntry k).host = s.host ∧ (s.dropEntry k).cmds = s.cmds ∧ (s.dropEntry k).net = s.net ∧ (s.dropEntry k).egress = s.egress ∧ (s.dropEntry k).eng = s.eng ∧ (s.dropEntry k).lease = s.lease ∧ (s.dropEntry k).sec = s.sec ∧ (s.dropEntry k).fw = s.fw ∧ (s.dropEntry k).integ = s.integ ∧ (s.dropEntry k).ckpt = s.ckpt ∧ (s.dropEntry k).pw = s.pw := by
  unfold State.dropEntry; (try dsimp only); (repeat' split) <;> simp [*]
@[simp] theorem State.recoverPoisoned_frame (f : Nat) :
    (s.recoverPoisoned f).pending = s.pending ∧ (s.recoverPoisoned f).nrt = s.nrt ∧ (s.recoverPoisoned f).fresh = s.fresh ∧ (s.recoverPoisoned f).mem = s.mem ∧ (s.recoverPoisoned f).cmds = s.cmds ∧ (s.recoverPoisoned f).net = s.net ∧ (s.recoverPoisoned f).egress = s.egress ∧ (s.recoverPoisoned f).eng = s.eng ∧ (s.recoverPoisoned f).lease = s.lease ∧ (s.recoverPoisoned f).sec = s.sec ∧ (s.recoverPoisoned f).fw = s.fw ∧ (s.recoverPoisoned f).integ = s.integ ∧ (s.recoverPoisoned f).ckpt = s.ckpt ∧ (s.recoverPoisoned f).pw = s.pw := by
  and_intros <;> (unfold State.recoverPoisoned; (try dsimp only); (repeat' split) <;>
    first | (simp [*]; done) | exact (State.foldl_keeps _ _ (by intros; (try dsimp only); (repeat' split) <;> simp [*]) _ _).trans (by simp [*]))
@[simp] theorem State.unpin_frame (f : Nat) (old : Bool) :
    (s.unpin f old).pending = s.pending ∧ (s.unpin f old).nrt = s.nrt ∧ (s.unpin f old).fresh = s.fresh ∧ (s.unpin f old).mem = s.mem ∧ (s.unpin f old).cmds = s.cmds ∧ (s.unpin f old).net = s.net ∧ (s.unpin f old).egress = s.egress ∧ (s.unpin f old).eng = s.eng ∧ (s.unpin f old).lease = s.lease ∧ (s.unpin f old).sec = s.sec ∧ (s.unpin f old).fw = s.fw ∧ (s.unpin f old).integ = s.integ ∧ (s.unpin f old).ckpt = s.ckpt ∧ (s.unpin f old).pw = s.pw := by
  and_intros <;> (unfold State.unpin; (try dsimp only); (repeat' split) <;>
    first | (simp [*]; done) | exact (State.foldl_keeps _ _ (by intros; (try dsimp only); (repeat' split) <;> simp [*]) _ _).trans (by simp [*]))
@[simp] theorem State.unpinForm_frame (f : Nat) (packed : Bool) :
    (s.unpinForm f packed).pending = s.pending ∧ (s.unpinForm f packed).nrt = s.nrt ∧ (s.unpinForm f packed).fresh = s.fresh ∧ (s.unpinForm f packed).mem = s.mem ∧ (s.unpinForm f packed).cmds = s.cmds ∧ (s.unpinForm f packed).net = s.net ∧ (s.unpinForm f packed).egress = s.egress ∧ (s.unpinForm f packed).eng = s.eng ∧ (s.unpinForm f packed).lease = s.lease ∧ (s.unpinForm f packed).sec = s.sec ∧ (s.unpinForm f packed).fw = s.fw ∧ (s.unpinForm f packed).integ = s.integ ∧ (s.unpinForm f packed).ckpt = s.ckpt ∧ (s.unpinForm f packed).pw = s.pw := by
  unfold State.unpinForm; (try dsimp only); (repeat' split) <;> simp [*]
@[simp] theorem State.dropPack_frame (f : Nat) :
    (s.dropPack f).pending = s.pending ∧ (s.dropPack f).nrt = s.nrt ∧ (s.dropPack f).fresh = s.fresh ∧ (s.dropPack f).mem = s.mem ∧ (s.dropPack f).cmds = s.cmds ∧ (s.dropPack f).net = s.net ∧ (s.dropPack f).egress = s.egress ∧ (s.dropPack f).eng = s.eng ∧ (s.dropPack f).lease = s.lease ∧ (s.dropPack f).sec = s.sec ∧ (s.dropPack f).fw = s.fw ∧ (s.dropPack f).integ = s.integ ∧ (s.dropPack f).ckpt = s.ckpt ∧ (s.dropPack f).pw = s.pw := by
  unfold State.dropPack; (try dsimp only); (repeat' split) <;> simp [*]
@[simp] theorem State.beginBack_frame (l : Line) (q : Nat) (rec' : Bool) :
    (s.beginBack l q rec').pending = s.pending ∧ (s.beginBack l q rec').nrt = s.nrt ∧ (s.beginBack l q rec').fresh = s.fresh ∧ (s.beginBack l q rec').mem = s.mem ∧ (s.beginBack l q rec').rf = s.rf ∧ (s.beginBack l q rec').host = s.host ∧ (s.beginBack l q rec').cmds = s.cmds ∧ (s.beginBack l q rec').net = s.net ∧ (s.beginBack l q rec').egress = s.egress ∧ (s.beginBack l q rec').eng = s.eng ∧ (s.beginBack l q rec').lease = s.lease ∧ (s.beginBack l q rec').sec = s.sec ∧ (s.beginBack l q rec').fw = s.fw ∧ (s.beginBack l q rec').integ = s.integ ∧ (s.beginBack l q rec').ckpt = s.ckpt ∧ (s.beginBack l q rec').pw = s.pw := by
  unfold State.beginBack; (try dsimp only); (repeat' split) <;> simp [*]
@[simp] theorem State.openFrame_frame (d q vpn firstPos shapeId : Nat) (g : Got) :
    (s.openFrame d q vpn firstPos shapeId g).pending = s.pending ∧ (s.openFrame d q vpn firstPos shapeId g).nrt = s.nrt ∧ (s.openFrame d q vpn firstPos shapeId g).fresh = s.fresh ∧ (s.openFrame d q vpn firstPos shapeId g).mem = s.mem ∧ (s.openFrame d q vpn firstPos shapeId g).host = s.host ∧ (s.openFrame d q vpn firstPos shapeId g).cmds = s.cmds ∧ (s.openFrame d q vpn firstPos shapeId g).net = s.net ∧ (s.openFrame d q vpn firstPos shapeId g).egress = s.egress ∧ (s.openFrame d q vpn firstPos shapeId g).eng = s.eng ∧ (s.openFrame d q vpn firstPos shapeId g).lease = s.lease ∧ (s.openFrame d q vpn firstPos shapeId g).sec = s.sec ∧ (s.openFrame d q vpn firstPos shapeId g).fw = s.fw ∧ (s.openFrame d q vpn firstPos shapeId g).integ = s.integ ∧ (s.openFrame d q vpn firstPos shapeId g).ckpt = s.ckpt ∧ (s.openFrame d q vpn firstPos shapeId g).pw = s.pw := by
  unfold State.openFrame; (try dsimp only); (repeat' split) <;> simp [*]
@[simp] theorem State.sealFrame_frame (d q : Nat) (sh : Shape) (layer hg vpn f : Nat) :
    (s.sealFrame d q sh layer hg vpn f).pending = s.pending ∧ (s.sealFrame d q sh layer hg vpn f).nrt = s.nrt ∧ (s.sealFrame d q sh layer hg vpn f).fresh = s.fresh ∧ (s.sealFrame d q sh layer hg vpn f).mem = s.mem ∧ (s.sealFrame d q sh layer hg vpn f).cmds = s.cmds ∧ (s.sealFrame d q sh layer hg vpn f).net = s.net ∧ (s.sealFrame d q sh layer hg vpn f).egress = s.egress ∧ (s.sealFrame d q sh layer hg vpn f).eng = s.eng ∧ (s.sealFrame d q sh layer hg vpn f).lease = s.lease ∧ (s.sealFrame d q sh layer hg vpn f).sec = s.sec ∧ (s.sealFrame d q sh layer hg vpn f).fw = s.fw ∧ (s.sealFrame d q sh layer hg vpn f).integ = s.integ ∧ (s.sealFrame d q sh layer hg vpn f).ckpt = s.ckpt ∧ (s.sealFrame d q sh layer hg vpn f).pw = s.pw := by
  and_intros <;> (unfold State.sealFrame; (try dsimp only); (repeat' split) <;>
    first | (simp [*]; done) | exact (State.foldl_keeps _ _ (by intros; (try dsimp only); (repeat' split) <;> simp [*]) _ _).trans (by simp [*]))
@[simp] theorem State.copyPage_frame (d q vpn f : Nat) (g : Got) :
    (s.copyPage d q vpn f g).pending = s.pending ∧ (s.copyPage d q vpn f g).nrt = s.nrt ∧ (s.copyPage d q vpn f g).fresh = s.fresh ∧ (s.copyPage d q vpn f g).mem = s.mem ∧ (s.copyPage d q vpn f g).cmds = s.cmds ∧ (s.copyPage d q vpn f g).net = s.net ∧ (s.copyPage d q vpn f g).egress = s.egress ∧ (s.copyPage d q vpn f g).eng = s.eng ∧ (s.copyPage d q vpn f g).lease = s.lease ∧ (s.copyPage d q vpn f g).sec = s.sec ∧ (s.copyPage d q vpn f g).fw = s.fw ∧ (s.copyPage d q vpn f g).integ = s.integ ∧ (s.copyPage d q vpn f g).ckpt = s.ckpt ∧ (s.copyPage d q vpn f g).pw = s.pw := by
  unfold State.copyPage; (try dsimp only); (repeat' split) <;> simp [*]
@[simp] theorem State.poisonFrame_frame (f : Nat) :
    (s.poisonFrame f).pending = s.pending ∧ (s.poisonFrame f).nrt = s.nrt ∧ (s.poisonFrame f).fresh = s.fresh ∧ (s.poisonFrame f).mem = s.mem ∧ (s.poisonFrame f).cmds = s.cmds ∧ (s.poisonFrame f).net = s.net ∧ (s.poisonFrame f).egress = s.egress ∧ (s.poisonFrame f).eng = s.eng ∧ (s.poisonFrame f).lease = s.lease ∧ (s.poisonFrame f).sec = s.sec ∧ (s.poisonFrame f).fw = s.fw ∧ (s.poisonFrame f).integ = s.integ ∧ (s.poisonFrame f).ckpt = s.ckpt ∧ (s.poisonFrame f).pw = s.pw := by
  and_intros <;> (unfold State.poisonFrame; (try dsimp only); (repeat' split) <;>
    first | (simp [*]; done) | exact (State.foldl_keeps _ _ (by intros; (try dsimp only); (repeat' split) <;> simp [*]) _ _).trans (by simp [*]))
@[simp] theorem State.decodeFault_frame (tile unit f : Nat) (block : Option Nat) :
    (s.decodeFault tile unit f block).pending = s.pending ∧ (s.decodeFault tile unit f block).nrt = s.nrt ∧ (s.decodeFault tile unit f block).fresh = s.fresh ∧ (s.decodeFault tile unit f block).mem = s.mem ∧ (s.decodeFault tile unit f block).cmds = s.cmds ∧ (s.decodeFault tile unit f block).net = s.net ∧ (s.decodeFault tile unit f block).egress = s.egress ∧ (s.decodeFault tile unit f block).eng = s.eng ∧ (s.decodeFault tile unit f block).lease = s.lease ∧ (s.decodeFault tile unit f block).sec = s.sec ∧ (s.decodeFault tile unit f block).fw = s.fw ∧ (s.decodeFault tile unit f block).integ = s.integ ∧ (s.decodeFault tile unit f block).ckpt = s.ckpt ∧ (s.decodeFault tile unit f block).pw = s.pw := by
  unfold State.decodeFault; (try dsimp only); (repeat' split) <;> simp [*]
@[simp] theorem State.failChannel_frame (ch cause : Nat) :
    (s.failChannel ch cause).pending = s.pending ∧ (s.failChannel ch cause).nrt = s.nrt ∧ (s.failChannel ch cause).fresh = s.fresh ∧ (s.failChannel ch cause).mem = s.mem ∧ (s.failChannel ch cause).cmds = s.cmds ∧ (s.failChannel ch cause).net = s.net ∧ (s.failChannel ch cause).egress = s.egress ∧ (s.failChannel ch cause).eng = s.eng ∧ (s.failChannel ch cause).lease = s.lease ∧ (s.failChannel ch cause).sec = s.sec ∧ (s.failChannel ch cause).fw = s.fw ∧ (s.failChannel ch cause).integ = s.integ ∧ (s.failChannel ch cause).ckpt = s.ckpt ∧ (s.failChannel ch cause).pw = s.pw := by
  and_intros <;> (unfold State.failChannel; (try dsimp only); (repeat' split) <;>
    first | (simp [*]; done) | exact (State.foldl_keeps _ _ (by intros; (try dsimp only); (repeat' split) <;> simp [*]) _ _).trans (by simp [*]))
@[simp] theorem State.countUe_frame (ch b : Nat) :
    (s.countUe ch b).pending = s.pending ∧ (s.countUe ch b).nrt = s.nrt ∧ (s.countUe ch b).fresh = s.fresh ∧ (s.countUe ch b).mem = s.mem ∧ (s.countUe ch b).cmds = s.cmds ∧ (s.countUe ch b).net = s.net ∧ (s.countUe ch b).egress = s.egress ∧ (s.countUe ch b).eng = s.eng ∧ (s.countUe ch b).lease = s.lease ∧ (s.countUe ch b).sec = s.sec ∧ (s.countUe ch b).fw = s.fw ∧ (s.countUe ch b).ckpt = s.ckpt ∧ (s.countUe ch b).pw = s.pw := by
  unfold State.countUe; (try dsimp only); (repeat' split) <;> simp [*]
@[simp] theorem State.countLane_frame (ch lane : Nat) :
    (s.countLane ch lane).pending = s.pending ∧ (s.countLane ch lane).nrt = s.nrt ∧ (s.countLane ch lane).fresh = s.fresh ∧ (s.countLane ch lane).mem = s.mem ∧ (s.countLane ch lane).cmds = s.cmds ∧ (s.countLane ch lane).net = s.net ∧ (s.countLane ch lane).egress = s.egress ∧ (s.countLane ch lane).kv = s.kv ∧ (s.countLane ch lane).eng = s.eng ∧ (s.countLane ch lane).lease = s.lease ∧ (s.countLane ch lane).sec = s.sec ∧ (s.countLane ch lane).ckpt = s.ckpt ∧ (s.countLane ch lane).pw = s.pw := by
  unfold State.countLane; (try dsimp only); (repeat' split) <;> simp [*]
@[simp] theorem State.pushHot_frame (t f : Nat) :
    (s.pushHot t f).pending = s.pending ∧ (s.pushHot t f).nrt = s.nrt ∧ (s.pushHot t f).fresh = s.fresh ∧ (s.pushHot t f).mem = s.mem ∧ (s.pushHot t f).cmds = s.cmds ∧ (s.pushHot t f).net = s.net ∧ (s.pushHot t f).egress = s.egress ∧ (s.pushHot t f).kv = s.kv ∧ (s.pushHot t f).eng = s.eng ∧ (s.pushHot t f).lease = s.lease ∧ (s.pushHot t f).sec = s.sec ∧ (s.pushHot t f).fw = s.fw ∧ (s.pushHot t f).ckpt = s.ckpt ∧ (s.pushHot t f).pw = s.pw := by
  unfold State.pushHot; (try dsimp only); (repeat' split) <;> simp [*]
@[simp] theorem State.frameCe_frame (f : Nat) :
    (s.frameCe f).pending = s.pending ∧ (s.frameCe f).nrt = s.nrt ∧ (s.frameCe f).mem = s.mem ∧ (s.frameCe f).cmds = s.cmds ∧ (s.frameCe f).net = s.net ∧ (s.frameCe f).egress = s.egress ∧ (s.frameCe f).eng = s.eng ∧ (s.frameCe f).lease = s.lease ∧ (s.frameCe f).sec = s.sec ∧ (s.frameCe f).fw = s.fw ∧ (s.frameCe f).ckpt = s.ckpt ∧ (s.frameCe f).pw = s.pw := by
  unfold State.frameCe; (try dsimp only); (repeat' split) <;> simp [*]
@[simp] theorem State.corrected_frame (a : Nat) (lanes : List Nat) :
    (s.corrected a lanes).pending = s.pending ∧ (s.corrected a lanes).nrt = s.nrt ∧ (s.corrected a lanes).mem = s.mem ∧ (s.corrected a lanes).cmds = s.cmds ∧ (s.corrected a lanes).net = s.net ∧ (s.corrected a lanes).egress = s.egress ∧ (s.corrected a lanes).eng = s.eng ∧ (s.corrected a lanes).lease = s.lease ∧ (s.corrected a lanes).sec = s.sec ∧ (s.corrected a lanes).ckpt = s.ckpt ∧ (s.corrected a lanes).pw = s.pw := by
  and_intros <;> (unfold State.corrected; (try dsimp only); (repeat' split) <;>
    first | (simp [*]; done) | exact (State.foldl_keeps _ _ (by intros; (try dsimp only); (repeat' split) <;> simp [*]) _ _).trans (by simp [*]))
@[simp] theorem State.markWord_frame (a : Nat) :
    (s.markWord a).pending = s.pending ∧ (s.markWord a).nrt = s.nrt ∧ (s.markWord a).fresh = s.fresh ∧ (s.markWord a).mem = s.mem ∧ (s.markWord a).rf = s.rf ∧ (s.markWord a).host = s.host ∧ (s.markWord a).cmds = s.cmds ∧ (s.markWord a).net = s.net ∧ (s.markWord a).egress = s.egress ∧ (s.markWord a).eng = s.eng ∧ (s.markWord a).lease = s.lease ∧ (s.markWord a).sec = s.sec ∧ (s.markWord a).fw = s.fw ∧ (s.markWord a).integ = s.integ ∧ (s.markWord a).ckpt = s.ckpt ∧ (s.markWord a).pw = s.pw := by
  unfold State.markWord; (try dsimp only); (repeat' split) <;> simp [*]
@[simp] theorem State.lostWord_frame (a cls : Nat) (marker : Bool) :
    (s.lostWord a cls marker).pending = s.pending ∧ (s.lostWord a cls marker).nrt = s.nrt ∧ (s.lostWord a cls marker).fresh = s.fresh ∧ (s.lostWord a cls marker).mem = s.mem ∧ (s.lostWord a cls marker).cmds = s.cmds ∧ (s.lostWord a cls marker).net = s.net ∧ (s.lostWord a cls marker).egress = s.egress ∧ (s.lostWord a cls marker).eng = s.eng ∧ (s.lostWord a cls marker).lease = s.lease ∧ (s.lostWord a cls marker).sec = s.sec ∧ (s.lostWord a cls marker).fw = s.fw ∧ (s.lostWord a cls marker).ckpt = s.ckpt ∧ (s.lostWord a cls marker).pw = s.pw := by
  unfold State.lostWord; (try dsimp only); (repeat' split) <;> simp [*]
@[simp] theorem State.busGrant_frame (t requester : Nat) :
    (s.busGrant t requester).pending = s.pending ∧ (s.busGrant t requester).nrt = s.nrt ∧ (s.busGrant t requester).fresh = s.fresh ∧ (s.busGrant t requester).mem = s.mem ∧ (s.busGrant t requester).host = s.host ∧ (s.busGrant t requester).cmds = s.cmds ∧ (s.busGrant t requester).net = s.net ∧ (s.busGrant t requester).egress = s.egress ∧ (s.busGrant t requester).kv = s.kv ∧ (s.busGrant t requester).eng = s.eng ∧ (s.busGrant t requester).lease = s.lease ∧ (s.busGrant t requester).sec = s.sec ∧ (s.busGrant t requester).fw = s.fw ∧ (s.busGrant t requester).ckpt = s.ckpt ∧ (s.busGrant t requester).pw = s.pw := by
  unfold State.busGrant; (try dsimp only); (repeat' split) <;> simp [*]
@[simp] theorem State.testAlloc_frame (pg : Nat) :
    (s.testAlloc pg).pending = s.pending ∧ (s.testAlloc pg).nrt = s.nrt ∧ (s.testAlloc pg).fresh = s.fresh ∧ (s.testAlloc pg).mem = s.mem ∧ (s.testAlloc pg).cmds = s.cmds ∧ (s.testAlloc pg).net = s.net ∧ (s.testAlloc pg).egress = s.egress ∧ (s.testAlloc pg).eng = s.eng ∧ (s.testAlloc pg).lease = s.lease ∧ (s.testAlloc pg).sec = s.sec ∧ (s.testAlloc pg).fw = s.fw ∧ (s.testAlloc pg).integ = s.integ ∧ (s.testAlloc pg).ckpt = s.ckpt ∧ (s.testAlloc pg).pw = s.pw := by
  unfold State.testAlloc; (try dsimp only); (repeat' split) <;> simp [*]
@[simp] theorem State.testRelease_frame (pg : Nat) :
    (s.testRelease pg).pending = s.pending ∧ (s.testRelease pg).nrt = s.nrt ∧ (s.testRelease pg).fresh = s.fresh ∧ (s.testRelease pg).host = s.host ∧ (s.testRelease pg).cmds = s.cmds ∧ (s.testRelease pg).net = s.net ∧ (s.testRelease pg).egress = s.egress ∧ (s.testRelease pg).eng = s.eng ∧ (s.testRelease pg).lease = s.lease ∧ (s.testRelease pg).sec = s.sec ∧ (s.testRelease pg).fw = s.fw ∧ (s.testRelease pg).ckpt = s.ckpt ∧ (s.testRelease pg).pw = s.pw := by
  unfold State.testRelease; (try dsimp only); (repeat' split) <;> simp [*]
@[simp] theorem State.backLost_frame (l : Line) (parts : List (Nat × Nat × Nat)) :
    (s.backLost l parts).pending = s.pending ∧ (s.backLost l parts).nrt = s.nrt ∧ (s.backLost l parts).fresh = s.fresh ∧ (s.backLost l parts).mem = s.mem ∧ (s.backLost l parts).cmds = s.cmds ∧ (s.backLost l parts).net = s.net ∧ (s.backLost l parts).egress = s.egress ∧ (s.backLost l parts).eng = s.eng ∧ (s.backLost l parts).lease = s.lease ∧ (s.backLost l parts).sec = s.sec ∧ (s.backLost l parts).fw = s.fw ∧ (s.backLost l parts).integ = s.integ ∧ (s.backLost l parts).ckpt = s.ckpt ∧ (s.backLost l parts).pw = s.pw := by
  and_intros <;> (unfold State.backLost; (try dsimp only); (repeat' split) <;>
    first | (simp [*]; done) | exact (State.foldl_keeps _ _ (by intros; (try dsimp only); (repeat' split) <;> simp [*]) _ _).trans (by simp [*]))
@[simp] theorem State.evict_frame (l : Line) :
    (s.evict l).pending = s.pending ∧ (s.evict l).nrt = s.nrt ∧ (s.evict l).fresh = s.fresh ∧ (s.evict l).mem = s.mem ∧ (s.evict l).host = s.host ∧ (s.evict l).cmds = s.cmds ∧ (s.evict l).net = s.net ∧ (s.evict l).egress = s.egress ∧ (s.evict l).eng = s.eng ∧ (s.evict l).lease = s.lease ∧ (s.evict l).sec = s.sec ∧ (s.evict l).fw = s.fw ∧ (s.evict l).integ = s.integ ∧ (s.evict l).ckpt = s.ckpt ∧ (s.evict l).pw = s.pw := by
  unfold State.evict; (try dsimp only); (repeat' split) <;> simp [*]
@[simp] theorem State.noLine_frame (tile : Nat) :
    (s.noLine tile).pending = s.pending ∧ (s.noLine tile).nrt = s.nrt ∧ (s.noLine tile).fresh = s.fresh ∧ (s.noLine tile).mem = s.mem ∧ (s.noLine tile).cmds = s.cmds ∧ (s.noLine tile).net = s.net ∧ (s.noLine tile).egress = s.egress ∧ (s.noLine tile).kv = s.kv ∧ (s.noLine tile).eng = s.eng ∧ (s.noLine tile).lease = s.lease ∧ (s.noLine tile).sec = s.sec ∧ (s.noLine tile).fw = s.fw ∧ (s.noLine tile).integ = s.integ ∧ (s.noLine tile).ckpt = s.ckpt ∧ (s.noLine tile).pw = s.pw := by
  unfold State.noLine; (try dsimp only); (repeat' split) <;> simp [*]
@[simp] theorem State.touchLine_frame (l : Line) (quarters : Nat) (rec : Bool) :
    (s.touchLine l quarters rec).pending = s.pending ∧ (s.touchLine l quarters rec).nrt = s.nrt ∧ (s.touchLine l quarters rec).fresh = s.fresh ∧ (s.touchLine l quarters rec).mem = s.mem ∧ (s.touchLine l quarters rec).rf = s.rf ∧ (s.touchLine l quarters rec).host = s.host ∧ (s.touchLine l quarters rec).cmds = s.cmds ∧ (s.touchLine l quarters rec).net = s.net ∧ (s.touchLine l quarters rec).egress = s.egress ∧ (s.touchLine l quarters rec).eng = s.eng ∧ (s.touchLine l quarters rec).lease = s.lease ∧ (s.touchLine l quarters rec).sec = s.sec ∧ (s.touchLine l quarters rec).fw = s.fw ∧ (s.touchLine l quarters rec).integ = s.integ ∧ (s.touchLine l quarters rec).ckpt = s.ckpt ∧ (s.touchLine l quarters rec).pw = s.pw := by
  unfold State.touchLine; (try dsimp only); (repeat' split) <;> simp [*]
@[simp] theorem State.startFetch_frame (f : Nat) :
    (s.startFetch f).pending = s.pending ∧ (s.startFetch f).nrt = s.nrt ∧ (s.startFetch f).fresh = s.fresh ∧ (s.startFetch f).mem = s.mem ∧ (s.startFetch f).rf = s.rf ∧ (s.startFetch f).host = s.host ∧ (s.startFetch f).cmds = s.cmds ∧ (s.startFetch f).net = s.net ∧ (s.startFetch f).egress = s.egress ∧ (s.startFetch f).eng = s.eng ∧ (s.startFetch f).lease = s.lease ∧ (s.startFetch f).sec = s.sec ∧ (s.startFetch f).fw = s.fw ∧ (s.startFetch f).integ = s.integ ∧ (s.startFetch f).ckpt = s.ckpt ∧ (s.startFetch f).pw = s.pw := by
  unfold State.startFetch; (try dsimp only); (repeat' split) <;> simp [*]
@[simp] theorem State.openPages_frame (d q : Nat) (r : SeqRec) (sh : Shape) (ts : List (Point × Task)) (gs : List Got) :
    (s.openPages d q r sh ts gs).pending = s.pending ∧ (s.openPages d q r sh ts gs).nrt = s.nrt ∧ (s.openPages d q r sh ts gs).fresh = s.fresh ∧ (s.openPages d q r sh ts gs).mem = s.mem ∧ (s.openPages d q r sh ts gs).cmds = s.cmds ∧ (s.openPages d q r sh ts gs).net = s.net ∧ (s.openPages d q r sh ts gs).egress = s.egress ∧ (s.openPages d q r sh ts gs).eng = s.eng ∧ (s.openPages d q r sh ts gs).lease = s.lease ∧ (s.openPages d q r sh ts gs).sec = s.sec ∧ (s.openPages d q r sh ts gs).fw = s.fw ∧ (s.openPages d q r sh ts gs).integ = s.integ ∧ (s.openPages d q r sh ts gs).ckpt = s.ckpt ∧ (s.openPages d q r sh ts gs).pw = s.pw := by
  and_intros <;> (unfold State.openPages; (try dsimp only); (repeat' split) <;>
    first | (simp [*]; done) | exact (State.foldl_keeps _ _ (by intros; (try dsimp only); (repeat' split) <;> simp [*]) _ _).trans (by simp [*]))
@[simp] theorem State.writePage_frame (d q : Nat) (sh : Shape) (a : Rows) (seeds : List Nat) (layer hg li k : Nat) :
    (s.writePage d q sh a seeds layer hg li k).pending = s.pending ∧ (s.writePage d q sh a seeds layer hg li k).nrt = s.nrt ∧ (s.writePage d q sh a seeds layer hg li k).fresh = s.fresh ∧ (s.writePage d q sh a seeds layer hg li k).mem = s.mem ∧ (s.writePage d q sh a seeds layer hg li k).cmds = s.cmds ∧ (s.writePage d q sh a seeds layer hg li k).net = s.net ∧ (s.writePage d q sh a seeds layer hg li k).egress = s.egress ∧ (s.writePage d q sh a seeds layer hg li k).eng = s.eng ∧ (s.writePage d q sh a seeds layer hg li k).lease = s.lease ∧ (s.writePage d q sh a seeds layer hg li k).sec = s.sec ∧ (s.writePage d q sh a seeds layer hg li k).fw = s.fw ∧ (s.writePage d q sh a seeds layer hg li k).ckpt = s.ckpt ∧ (s.writePage d q sh a seeds layer hg li k).pw = s.pw := by
  and_intros <;> (unfold State.writePage; (try dsimp only); (repeat' split) <;>
    first | (simp [*]; done) | exact (State.foldl_keeps _ _ (by intros; (try dsimp only); (repeat' split) <;> simp [*]) _ _).trans (by simp [*]))
@[simp] theorem State.sealPoints_frame (d q : Nat) (sh : Shape) (ps : List Point) :
    (s.sealPoints d q sh ps).pending = s.pending ∧ (s.sealPoints d q sh ps).nrt = s.nrt ∧ (s.sealPoints d q sh ps).fresh = s.fresh ∧ (s.sealPoints d q sh ps).mem = s.mem ∧ (s.sealPoints d q sh ps).cmds = s.cmds ∧ (s.sealPoints d q sh ps).net = s.net ∧ (s.sealPoints d q sh ps).egress = s.egress ∧ (s.sealPoints d q sh ps).eng = s.eng ∧ (s.sealPoints d q sh ps).lease = s.lease ∧ (s.sealPoints d q sh ps).sec = s.sec ∧ (s.sealPoints d q sh ps).fw = s.fw ∧ (s.sealPoints d q sh ps).integ = s.integ ∧ (s.sealPoints d q sh ps).ckpt = s.ckpt ∧ (s.sealPoints d q sh ps).pw = s.pw := by
  and_intros <;> (unfold State.sealPoints; (try dsimp only); (repeat' split) <;>
    first | (simp [*]; done) | exact (State.foldl_keeps _ _ (by intros; (try dsimp only); (repeat' split) <;> simp [*]) _ _).trans (by simp [*]))
@[simp] theorem State.bumpChange_frame (d q : Nat) :
    (s.bumpChange d q).pending = s.pending ∧ (s.bumpChange d q).nrt = s.nrt ∧ (s.bumpChange d q).fresh = s.fresh ∧ (s.bumpChange d q).mem = s.mem ∧ (s.bumpChange d q).rf = s.rf ∧ (s.bumpChange d q).host = s.host ∧ (s.bumpChange d q).cmds = s.cmds ∧ (s.bumpChange d q).net = s.net ∧ (s.bumpChange d q).egress = s.egress ∧ (s.bumpChange d q).eng = s.eng ∧ (s.bumpChange d q).lease = s.lease ∧ (s.bumpChange d q).sec = s.sec ∧ (s.bumpChange d q).fw = s.fw ∧ (s.bumpChange d q).integ = s.integ ∧ (s.bumpChange d q).ckpt = s.ckpt ∧ (s.bumpChange d q).pw = s.pw := by
  unfold State.bumpChange; (try dsimp only); (repeat' split) <;> simp [*]
@[simp] theorem State.sendAck_frame (c : Conn) :
    (s.sendAck c).pending = s.pending ∧ (s.sendAck c).nrt = s.nrt ∧ (s.sendAck c).fresh = s.fresh ∧ (s.sendAck c).mem = s.mem ∧ (s.sendAck c).rf = s.rf ∧ (s.sendAck c).host = s.host ∧ (s.sendAck c).cmds = s.cmds ∧ (s.sendAck c).egress = s.egress ∧ (s.sendAck c).kv = s.kv ∧ (s.sendAck c).eng = s.eng ∧ (s.sendAck c).lease = s.lease ∧ (s.sendAck c).sec = s.sec ∧ (s.sendAck c).fw = s.fw ∧ (s.sendAck c).integ = s.integ ∧ (s.sendAck c).ckpt = s.ckpt ∧ (s.sendAck c).pw = s.pw := by
  unfold State.sendAck; (try dsimp only); (repeat' split) <;> simp [*]
@[simp] theorem State.ackPsn_frame (c : Conn) (p : DataPkt) :
    (s.ackPsn c p).pending = s.pending ∧ (s.ackPsn c p).nrt = s.nrt ∧ (s.ackPsn c p).fresh = s.fresh ∧ (s.ackPsn c p).mem = s.mem ∧ (s.ackPsn c p).rf = s.rf ∧ (s.ackPsn c p).host = s.host ∧ (s.ackPsn c p).cmds = s.cmds ∧ (s.ackPsn c p).egress = s.egress ∧ (s.ackPsn c p).kv = s.kv ∧ (s.ackPsn c p).eng = s.eng ∧ (s.ackPsn c p).lease = s.lease ∧ (s.ackPsn c p).sec = s.sec ∧ (s.ackPsn c p).fw = s.fw ∧ (s.ackPsn c p).integ = s.integ ∧ (s.ackPsn c p).ckpt = s.ckpt ∧ (s.ackPsn c p).pw = s.pw := by
  unfold State.ackPsn; (try dsimp only); (repeat' split) <;> simp [*]
@[simp] theorem State.abandonMsg_frame (c : Conn) (lane : Lane) (msgId reason : Nat) :
    (s.abandonMsg c lane msgId reason).pending = s.pending ∧ (s.abandonMsg c lane msgId reason).nrt = s.nrt ∧ (s.abandonMsg c lane msgId reason).fresh = s.fresh ∧ (s.abandonMsg c lane msgId reason).mem = s.mem ∧ (s.abandonMsg c lane msgId reason).host = s.host ∧ (s.abandonMsg c lane msgId reason).cmds = s.cmds ∧ (s.abandonMsg c lane msgId reason).egress = s.egress ∧ (s.abandonMsg c lane msgId reason).kv = s.kv ∧ (s.abandonMsg c lane msgId reason).eng = s.eng ∧ (s.abandonMsg c lane msgId reason).lease = s.lease ∧ (s.abandonMsg c lane msgId reason).sec = s.sec ∧ (s.abandonMsg c lane msgId reason).fw = s.fw ∧ (s.abandonMsg c lane msgId reason).integ = s.integ ∧ (s.abandonMsg c lane msgId reason).ckpt = s.ckpt ∧ (s.abandonMsg c lane msgId reason).pw = s.pw := by
  unfold State.abandonMsg; (try dsimp only); (repeat' split) <;> simp [*]
@[simp] theorem State.staleMsg_frame (c : Conn) (p : DataPkt) :
    (s.staleMsg c p).pending = s.pending ∧ (s.staleMsg c p).nrt = s.nrt ∧ (s.staleMsg c p).fresh = s.fresh ∧ (s.staleMsg c p).mem = s.mem ∧ (s.staleMsg c p).host = s.host ∧ (s.staleMsg c p).cmds = s.cmds ∧ (s.staleMsg c p).egress = s.egress ∧ (s.staleMsg c p).kv = s.kv ∧ (s.staleMsg c p).eng = s.eng ∧ (s.staleMsg c p).lease = s.lease ∧ (s.staleMsg c p).sec = s.sec ∧ (s.staleMsg c p).fw = s.fw ∧ (s.staleMsg c p).integ = s.integ ∧ (s.staleMsg c p).ckpt = s.ckpt ∧ (s.staleMsg c p).pw = s.pw := by
  unfold State.staleMsg; (try dsimp only); (repeat' split) <;> simp [*]
@[simp] theorem State.orReset_frame (p : DataPkt) :
    (s.orReset p).pending = s.pending ∧ (s.orReset p).nrt = s.nrt ∧ (s.orReset p).fresh = s.fresh ∧ (s.orReset p).mem = s.mem ∧ (s.orReset p).host = s.host ∧ (s.orReset p).cmds = s.cmds ∧ (s.orReset p).egress = s.egress ∧ (s.orReset p).kv = s.kv ∧ (s.orReset p).eng = s.eng ∧ (s.orReset p).lease = s.lease ∧ (s.orReset p).sec = s.sec ∧ (s.orReset p).fw = s.fw ∧ (s.orReset p).integ = s.integ ∧ (s.orReset p).ckpt = s.ckpt ∧ (s.orReset p).pw = s.pw := by
  unfold State.orReset; (try dsimp only); (repeat' split) <;> simp [*]
@[simp] theorem State.queueOutbound_frame (o : Outbound) :
    (s.queueOutbound o).pending = s.pending ∧ (s.queueOutbound o).nrt = s.nrt ∧ (s.queueOutbound o).fresh = s.fresh ∧ (s.queueOutbound o).mem = s.mem ∧ (s.queueOutbound o).rf = s.rf ∧ (s.queueOutbound o).host = s.host ∧ (s.queueOutbound o).cmds = s.cmds ∧ (s.queueOutbound o).egress = s.egress ∧ (s.queueOutbound o).kv = s.kv ∧ (s.queueOutbound o).eng = s.eng ∧ (s.queueOutbound o).lease = s.lease ∧ (s.queueOutbound o).sec = s.sec ∧ (s.queueOutbound o).fw = s.fw ∧ (s.queueOutbound o).integ = s.integ ∧ (s.queueOutbound o).ckpt = s.ckpt ∧ (s.queueOutbound o).pw = s.pw := by
  unfold State.queueOutbound; (try dsimp only); (repeat' split) <;> simp [*]
@[simp] theorem State.dropOutbound_frame (o : Outbound) :
    (s.dropOutbound o).pending = s.pending ∧ (s.dropOutbound o).nrt = s.nrt ∧ (s.dropOutbound o).fresh = s.fresh ∧ (s.dropOutbound o).egress = s.egress ∧ (s.dropOutbound o).eng = s.eng ∧ (s.dropOutbound o).lease = s.lease ∧ (s.dropOutbound o).sec = s.sec ∧ (s.dropOutbound o).fw = s.fw ∧ (s.dropOutbound o).integ = s.integ ∧ (s.dropOutbound o).ckpt = s.ckpt ∧ (s.dropOutbound o).pw = s.pw := by
  unfold State.dropOutbound; (try dsimp only); (repeat' split) <;> simp [*]
@[simp] theorem State.queueNodeOp_frame (who : Initiator) (d idx : Nat) (e : PeerEntry) (opcode offset length : Nat) (data : List Byte) :
    (s.queueNodeOp who d idx e opcode offset length data).pending = s.pending ∧ (s.queueNodeOp who d idx e opcode offset length data).nrt = s.nrt ∧ (s.queueNodeOp who d idx e opcode offset length data).fresh = s.fresh ∧ (s.queueNodeOp who d idx e opcode offset length data).mem = s.mem ∧ (s.queueNodeOp who d idx e opcode offset length data).rf = s.rf ∧ (s.queueNodeOp who d idx e opcode offset length data).host = s.host ∧ (s.queueNodeOp who d idx e opcode offset length data).cmds = s.cmds ∧ (s.queueNodeOp who d idx e opcode offset length data).egress = s.egress ∧ (s.queueNodeOp who d idx e opcode offset length data).kv = s.kv ∧ (s.queueNodeOp who d idx e opcode offset length data).eng = s.eng ∧ (s.queueNodeOp who d idx e opcode offset length data).lease = s.lease ∧ (s.queueNodeOp who d idx e opcode offset length data).sec = s.sec ∧ (s.queueNodeOp who d idx e opcode offset length data).fw = s.fw ∧ (s.queueNodeOp who d idx e opcode offset length data).integ = s.integ ∧ (s.queueNodeOp who d idx e opcode offset length data).ckpt = s.ckpt ∧ (s.queueNodeOp who d idx e opcode offset length data).pw = s.pw := by
  and_intros <;> (unfold State.queueNodeOp; (try dsimp only); (repeat' split) <;>
    first | (simp [*]; done) | exact (State.foldl_keeps _ _ (by intros; (try dsimp only); (repeat' split) <;> simp [*]) _ _).trans (by simp [*]))
@[simp] theorem State.fillFailed_frame (d v : Nat) :
    (s.fillFailed d v).pending = s.pending ∧ (s.fillFailed d v).nrt = s.nrt ∧ (s.fillFailed d v).fresh = s.fresh ∧ (s.fillFailed d v).mem = s.mem ∧ (s.fillFailed d v).cmds = s.cmds ∧ (s.fillFailed d v).net = s.net ∧ (s.fillFailed d v).egress = s.egress ∧ (s.fillFailed d v).kv = s.kv ∧ (s.fillFailed d v).eng = s.eng ∧ (s.fillFailed d v).lease = s.lease ∧ (s.fillFailed d v).sec = s.sec ∧ (s.fillFailed d v).fw = s.fw ∧ (s.fillFailed d v).integ = s.integ ∧ (s.fillFailed d v).ckpt = s.ckpt ∧ (s.fillFailed d v).pw = s.pw := by
  unfold State.fillFailed; (try dsimp only); (repeat' split) <;> simp [*]
@[simp] theorem State.dropFill_frame (d v : Nat) :
    (s.dropFill d v).pending = s.pending ∧ (s.dropFill d v).nrt = s.nrt ∧ (s.dropFill d v).fresh = s.fresh ∧ (s.dropFill d v).egress = s.egress ∧ (s.dropFill d v).eng = s.eng ∧ (s.dropFill d v).lease = s.lease ∧ (s.dropFill d v).sec = s.sec ∧ (s.dropFill d v).fw = s.fw ∧ (s.dropFill d v).integ = s.integ ∧ (s.dropFill d v).ckpt = s.ckpt ∧ (s.dropFill d v).pw = s.pw := by
  and_intros <;> (unfold State.dropFill; (try dsimp only); (repeat' split) <;>
    first | (simp [*]; done) | exact (State.foldl_keeps _ _ (by intros; (try dsimp only); (repeat' split) <;> simp [*]) _ _).trans (by simp [*]))
@[simp] theorem State.dropFrameLines_frame (f : Nat) :
    (s.dropFrameLines f).pending = s.pending ∧ (s.dropFrameLines f).nrt = s.nrt ∧ (s.dropFrameLines f).fresh = s.fresh ∧ (s.dropFrameLines f).mem = s.mem ∧ (s.dropFrameLines f).rf = s.rf ∧ (s.dropFrameLines f).host = s.host ∧ (s.dropFrameLines f).cmds = s.cmds ∧ (s.dropFrameLines f).net = s.net ∧ (s.dropFrameLines f).egress = s.egress ∧ (s.dropFrameLines f).eng = s.eng ∧ (s.dropFrameLines f).lease = s.lease ∧ (s.dropFrameLines f).sec = s.sec ∧ (s.dropFrameLines f).fw = s.fw ∧ (s.dropFrameLines f).integ = s.integ ∧ (s.dropFrameLines f).ckpt = s.ckpt ∧ (s.dropFrameLines f).pw = s.pw := by
  and_intros <;> (unfold State.dropFrameLines; (try dsimp only); (repeat' split) <;>
    first | (simp [*]; done) | exact (State.foldl_keeps _ _ (by intros; (try dsimp only); (repeat' split) <;> simp [*]) _ _).trans (by simp [*]))
@[simp] theorem State.failFill_frame (d v : Nat) :
    (s.failFill d v).pending = s.pending ∧ (s.failFill d v).nrt = s.nrt ∧ (s.failFill d v).fresh = s.fresh ∧ (s.failFill d v).egress = s.egress ∧ (s.failFill d v).eng = s.eng ∧ (s.failFill d v).lease = s.lease ∧ (s.failFill d v).sec = s.sec ∧ (s.failFill d v).fw = s.fw ∧ (s.failFill d v).integ = s.integ ∧ (s.failFill d v).ckpt = s.ckpt ∧ (s.failFill d v).pw = s.pw := by
  unfold State.failFill; (try dsimp only); (repeat' split) <;> simp [*]
@[simp] theorem State.updated_frame (t : Nat) (e : Option (Nat × StEntry)) (way : Nat) :
    (s.updated t e way).pending = s.pending ∧ (s.updated t e way).nrt = s.nrt ∧ (s.updated t e way).fresh = s.fresh ∧ (s.updated t e way).mem = s.mem ∧ (s.updated t e way).host = s.host ∧ (s.updated t e way).cmds = s.cmds ∧ (s.updated t e way).net = s.net ∧ (s.updated t e way).egress = s.egress ∧ (s.updated t e way).eng = s.eng ∧ (s.updated t e way).lease = s.lease ∧ (s.updated t e way).sec = s.sec ∧ (s.updated t e way).fw = s.fw ∧ (s.updated t e way).integ = s.integ ∧ (s.updated t e way).ckpt = s.ckpt ∧ (s.updated t e way).pw = s.pw := by
  unfold State.updated; (try dsimp only); (repeat' split) <;> simp [*]
@[simp] theorem State.releaseKey_frame (f : Nat) :
    (s.releaseKey f).pending = s.pending ∧ (s.releaseKey f).nrt = s.nrt ∧ (s.releaseKey f).fresh = s.fresh ∧ (s.releaseKey f).mem = s.mem ∧ (s.releaseKey f).cmds = s.cmds ∧ (s.releaseKey f).net = s.net ∧ (s.releaseKey f).egress = s.egress ∧ (s.releaseKey f).eng = s.eng ∧ (s.releaseKey f).lease = s.lease ∧ (s.releaseKey f).sec = s.sec ∧ (s.releaseKey f).fw = s.fw ∧ (s.releaseKey f).integ = s.integ ∧ (s.releaseKey f).ckpt = s.ckpt ∧ (s.releaseKey f).pw = s.pw := by
  unfold State.releaseKey; (try dsimp only); (repeat' split) <;> simp [*]
@[simp] theorem State.loseFp_frame (bank set way : Nat) :
    (s.loseFp bank set way).pending = s.pending ∧ (s.loseFp bank set way).nrt = s.nrt ∧ (s.loseFp bank set way).fresh = s.fresh ∧ (s.loseFp bank set way).mem = s.mem ∧ (s.loseFp bank set way).cmds = s.cmds ∧ (s.loseFp bank set way).net = s.net ∧ (s.loseFp bank set way).egress = s.egress ∧ (s.loseFp bank set way).eng = s.eng ∧ (s.loseFp bank set way).lease = s.lease ∧ (s.loseFp bank set way).sec = s.sec ∧ (s.loseFp bank set way).fw = s.fw ∧ (s.loseFp bank set way).integ = s.integ ∧ (s.loseFp bank set way).ckpt = s.ckpt ∧ (s.loseFp bank set way).pw = s.pw := by
  unfold State.loseFp; (try dsimp only); (repeat' split) <;> simp [*]
@[simp] theorem State.loseMeta_frame (bank set way : Nat) :
    (s.loseMeta bank set way).pending = s.pending ∧ (s.loseMeta bank set way).nrt = s.nrt ∧ (s.loseMeta bank set way).fresh = s.fresh ∧ (s.loseMeta bank set way).mem = s.mem ∧ (s.loseMeta bank set way).cmds = s.cmds ∧ (s.loseMeta bank set way).net = s.net ∧ (s.loseMeta bank set way).egress = s.egress ∧ (s.loseMeta bank set way).eng = s.eng ∧ (s.loseMeta bank set way).lease = s.lease ∧ (s.loseMeta bank set way).sec = s.sec ∧ (s.loseMeta bank set way).fw = s.fw ∧ (s.loseMeta bank set way).integ = s.integ ∧ (s.loseMeta bank set way).ckpt = s.ckpt ∧ (s.loseMeta bank set way).pw = s.pw := by
  unfold State.loseMeta; (try dsimp only); (repeat' split) <;> simp [*]
@[simp] theorem State.forkMap_frame (caller : Nat) (r r' : SeqRec) (sh : Shape) (a : ForkD) (ps : List ForkPage) (gs : List Got) :
    (s.forkMap caller r r' sh a ps gs).pending = s.pending ∧ (s.forkMap caller r r' sh a ps gs).nrt = s.nrt ∧ (s.forkMap caller r r' sh a ps gs).fresh = s.fresh ∧ (s.forkMap caller r r' sh a ps gs).mem = s.mem ∧ (s.forkMap caller r r' sh a ps gs).rf = s.rf ∧ (s.forkMap caller r r' sh a ps gs).host = s.host ∧ (s.forkMap caller r r' sh a ps gs).cmds = s.cmds ∧ (s.forkMap caller r r' sh a ps gs).net = s.net ∧ (s.forkMap caller r r' sh a ps gs).egress = s.egress ∧ (s.forkMap caller r r' sh a ps gs).eng = s.eng ∧ (s.forkMap caller r r' sh a ps gs).lease = s.lease ∧ (s.forkMap caller r r' sh a ps gs).sec = s.sec ∧ (s.forkMap caller r r' sh a ps gs).fw = s.fw ∧ (s.forkMap caller r r' sh a ps gs).integ = s.integ ∧ (s.forkMap caller r r' sh a ps gs).ckpt = s.ckpt ∧ (s.forkMap caller r r' sh a ps gs).pw = s.pw := by
  and_intros <;> (unfold State.forkMap; (try dsimp only); (repeat' split) <;>
    first | (simp [*]; done) | exact (State.foldl_keeps _ _ (by intros; (try dsimp only); (repeat' split) <;> simp [*]) _ _).trans (by simp [*]))
@[simp] theorem State.syncCredit_frame (t e : Nat) :
    (s.syncCredit t e).pending = s.pending ∧ (s.syncCredit t e).nrt = s.nrt ∧ (s.syncCredit t e).fresh = s.fresh ∧ (s.syncCredit t e).mem = s.mem ∧ (s.syncCredit t e).host = s.host ∧ (s.syncCredit t e).cmds = s.cmds ∧ (s.syncCredit t e).net = s.net ∧ (s.syncCredit t e).egress = s.egress ∧ (s.syncCredit t e).kv = s.kv ∧ (s.syncCredit t e).lease = s.lease ∧ (s.syncCredit t e).sec = s.sec ∧ (s.syncCredit t e).fw = s.fw ∧ (s.syncCredit t e).integ = s.integ ∧ (s.syncCredit t e).ckpt = s.ckpt ∧ (s.syncCredit t e).pw = s.pw := by
  unfold State.syncCredit; (try dsimp only); (repeat' split) <;> simp [*]
@[simp] theorem State.syncTile_frame (t : Nat) :
    (s.syncTile t).pending = s.pending ∧ (s.syncTile t).nrt = s.nrt ∧ (s.syncTile t).fresh = s.fresh ∧ (s.syncTile t).mem = s.mem ∧ (s.syncTile t).host = s.host ∧ (s.syncTile t).cmds = s.cmds ∧ (s.syncTile t).net = s.net ∧ (s.syncTile t).egress = s.egress ∧ (s.syncTile t).kv = s.kv ∧ (s.syncTile t).lease = s.lease ∧ (s.syncTile t).sec = s.sec ∧ (s.syncTile t).fw = s.fw ∧ (s.syncTile t).integ = s.integ ∧ (s.syncTile t).ckpt = s.ckpt ∧ (s.syncTile t).pw = s.pw := by
  and_intros <;> (unfold State.syncTile; (try dsimp only); (repeat' split) <;>
    first | (simp [*]; done) | exact (State.foldl_keeps _ _ (by intros; (try dsimp only); (repeat' split) <;> simp [*]) _ _).trans (by simp [*]))
@[simp] theorem State.syncNode_frame :
    (s.syncNode).pending = s.pending ∧ (s.syncNode).nrt = s.nrt ∧ (s.syncNode).fresh = s.fresh ∧ (s.syncNode).mem = s.mem ∧ (s.syncNode).host = s.host ∧ (s.syncNode).cmds = s.cmds ∧ (s.syncNode).net = s.net ∧ (s.syncNode).egress = s.egress ∧ (s.syncNode).kv = s.kv ∧ (s.syncNode).lease = s.lease ∧ (s.syncNode).sec = s.sec ∧ (s.syncNode).fw = s.fw ∧ (s.syncNode).integ = s.integ ∧ (s.syncNode).ckpt = s.ckpt ∧ (s.syncNode).pw = s.pw := by
  and_intros <;> (unfold State.syncNode; (try dsimp only); (repeat' split) <;>
    first | (simp [*]; done) | exact (State.foldl_keeps _ _ (by intros; (try dsimp only); (repeat' split) <;> simp [*]) _ _).trans (by simp [*]))
@[simp] theorem State.syncClamp_frame (core : Nat) :
    (s.syncClamp core).pending = s.pending ∧ (s.syncClamp core).nrt = s.nrt ∧ (s.syncClamp core).fresh = s.fresh ∧ (s.syncClamp core).mem = s.mem ∧ (s.syncClamp core).host = s.host ∧ (s.syncClamp core).cmds = s.cmds ∧ (s.syncClamp core).net = s.net ∧ (s.syncClamp core).egress = s.egress ∧ (s.syncClamp core).kv = s.kv ∧ (s.syncClamp core).lease = s.lease ∧ (s.syncClamp core).sec = s.sec ∧ (s.syncClamp core).fw = s.fw ∧ (s.syncClamp core).integ = s.integ ∧ (s.syncClamp core).ckpt = s.ckpt ∧ (s.syncClamp core).pw = s.pw := by
  unfold State.syncClamp; (try dsimp only); (repeat' split) <;> simp [*]
@[simp] theorem State.syncEngine_frame (pg : Nat) :
    (s.syncEngine pg).pending = s.pending ∧ (s.syncEngine pg).nrt = s.nrt ∧ (s.syncEngine pg).fresh = s.fresh ∧ (s.syncEngine pg).mem = s.mem ∧ (s.syncEngine pg).host = s.host ∧ (s.syncEngine pg).cmds = s.cmds ∧ (s.syncEngine pg).net = s.net ∧ (s.syncEngine pg).egress = s.egress ∧ (s.syncEngine pg).kv = s.kv ∧ (s.syncEngine pg).lease = s.lease ∧ (s.syncEngine pg).sec = s.sec ∧ (s.syncEngine pg).fw = s.fw ∧ (s.syncEngine pg).integ = s.integ ∧ (s.syncEngine pg).ckpt = s.ckpt ∧ (s.syncEngine pg).pw = s.pw := by
  unfold State.syncEngine; (try dsimp only); (repeat' split) <;> simp [*]
@[simp] theorem State.commitPage_frame (pg : Nat) :
    (s.commitPage pg).pending = s.pending ∧ (s.commitPage pg).nrt = s.nrt ∧ (s.commitPage pg).fresh = s.fresh ∧ (s.commitPage pg).mem = s.mem ∧ (s.commitPage pg).host = s.host ∧ (s.commitPage pg).cmds = s.cmds ∧ (s.commitPage pg).net = s.net ∧ (s.commitPage pg).egress = s.egress ∧ (s.commitPage pg).kv = s.kv ∧ (s.commitPage pg).lease = s.lease ∧ (s.commitPage pg).sec = s.sec ∧ (s.commitPage pg).fw = s.fw ∧ (s.commitPage pg).integ = s.integ ∧ (s.commitPage pg).ckpt = s.ckpt ∧ (s.commitPage pg).pw = s.pw := by
  unfold State.commitPage; (try dsimp only); (repeat' split) <;> simp [*]
@[simp] theorem State.rebaseQueue_frame (t q : Nat) :
    (s.rebaseQueue t q).pending = s.pending ∧ (s.rebaseQueue t q).nrt = s.nrt ∧ (s.rebaseQueue t q).fresh = s.fresh ∧ (s.rebaseQueue t q).mem = s.mem ∧ (s.rebaseQueue t q).rf = s.rf ∧ (s.rebaseQueue t q).host = s.host ∧ (s.rebaseQueue t q).cmds = s.cmds ∧ (s.rebaseQueue t q).net = s.net ∧ (s.rebaseQueue t q).egress = s.egress ∧ (s.rebaseQueue t q).kv = s.kv ∧ (s.rebaseQueue t q).lease = s.lease ∧ (s.rebaseQueue t q).sec = s.sec ∧ (s.rebaseQueue t q).fw = s.fw ∧ (s.rebaseQueue t q).integ = s.integ ∧ (s.rebaseQueue t q).ckpt = s.ckpt ∧ (s.rebaseQueue t q).pw = s.pw := by
  unfold State.rebaseQueue; (try dsimp only); (repeat' split) <;> simp [*]
@[simp] theorem State.startOn_frame (t e : Nat) (f : Frag) :
    (s.startOn t e f).pending = s.pending ∧ (s.startOn t e f).nrt = s.nrt ∧ (s.startOn t e f).fresh = s.fresh ∧ (s.startOn t e f).mem = s.mem ∧ (s.startOn t e f).host = s.host ∧ (s.startOn t e f).cmds = s.cmds ∧ (s.startOn t e f).net = s.net ∧ (s.startOn t e f).egress = s.egress ∧ (s.startOn t e f).kv = s.kv ∧ (s.startOn t e f).lease = s.lease ∧ (s.startOn t e f).sec = s.sec ∧ (s.startOn t e f).fw = s.fw ∧ (s.startOn t e f).integ = s.integ ∧ (s.startOn t e f).ckpt = s.ckpt ∧ (s.startOn t e f).pw = s.pw := by
  unfold State.startOn; (try dsimp only); (repeat' split) <;> simp [*]
@[simp] theorem State.pumpQueue_frame (t q : Nat) (z0 : Nat) :
    (s.pumpQueue t q z0).pending = s.pending ∧ (s.pumpQueue t q z0).nrt = s.nrt ∧ (s.pumpQueue t q z0).fresh = s.fresh ∧ (s.pumpQueue t q z0).mem = s.mem ∧ (s.pumpQueue t q z0).host = s.host ∧ (s.pumpQueue t q z0).cmds = s.cmds ∧ (s.pumpQueue t q z0).net = s.net ∧ (s.pumpQueue t q z0).egress = s.egress ∧ (s.pumpQueue t q z0).kv = s.kv ∧ (s.pumpQueue t q z0).lease = s.lease ∧ (s.pumpQueue t q z0).sec = s.sec ∧ (s.pumpQueue t q z0).fw = s.fw ∧ (s.pumpQueue t q z0).integ = s.integ ∧ (s.pumpQueue t q z0).ckpt = s.ckpt ∧ (s.pumpQueue t q z0).pw = s.pw := by
  induction z0 generalizing s with | zero => (unfold State.pumpQueue; (repeat' split) <;> simp) | succ n ih => (unfold State.pumpQueue; (try dsimp only); (repeat' split) <;> simp [*])
@[simp] theorem State.pump_frame (t q : Nat) :
    (s.pump t q).pending = s.pending ∧ (s.pump t q).nrt = s.nrt ∧ (s.pump t q).fresh = s.fresh ∧ (s.pump t q).mem = s.mem ∧ (s.pump t q).host = s.host ∧ (s.pump t q).cmds = s.cmds ∧ (s.pump t q).net = s.net ∧ (s.pump t q).egress = s.egress ∧ (s.pump t q).kv = s.kv ∧ (s.pump t q).lease = s.lease ∧ (s.pump t q).sec = s.sec ∧ (s.pump t q).fw = s.fw ∧ (s.pump t q).integ = s.integ ∧ (s.pump t q).ckpt = s.ckpt ∧ (s.pump t q).pw = s.pw := by
  unfold State.pump; (try dsimp only); (repeat' split) <;> simp [*]
@[simp] theorem State.freeEngine_frame (f : Frag) :
    (s.freeEngine f).pending = s.pending ∧ (s.freeEngine f).nrt = s.nrt ∧ (s.freeEngine f).fresh = s.fresh ∧ (s.freeEngine f).mem = s.mem ∧ (s.freeEngine f).host = s.host ∧ (s.freeEngine f).cmds = s.cmds ∧ (s.freeEngine f).net = s.net ∧ (s.freeEngine f).egress = s.egress ∧ (s.freeEngine f).kv = s.kv ∧ (s.freeEngine f).lease = s.lease ∧ (s.freeEngine f).sec = s.sec ∧ (s.freeEngine f).fw = s.fw ∧ (s.freeEngine f).integ = s.integ ∧ (s.freeEngine f).ckpt = s.ckpt ∧ (s.freeEngine f).pw = s.pw := by
  unfold State.freeEngine; (try dsimp only); (repeat' split) <;> simp [*]
@[simp] theorem State.preempt_frame (t q : Nat) :
    (s.preempt t q).pending = s.pending ∧ (s.preempt t q).nrt = s.nrt ∧ (s.preempt t q).fresh = s.fresh ∧ (s.preempt t q).mem = s.mem ∧ (s.preempt t q).host = s.host ∧ (s.preempt t q).cmds = s.cmds ∧ (s.preempt t q).net = s.net ∧ (s.preempt t q).egress = s.egress ∧ (s.preempt t q).kv = s.kv ∧ (s.preempt t q).lease = s.lease ∧ (s.preempt t q).sec = s.sec ∧ (s.preempt t q).fw = s.fw ∧ (s.preempt t q).integ = s.integ ∧ (s.preempt t q).ckpt = s.ckpt ∧ (s.preempt t q).pw = s.pw := by
  and_intros <;> (unfold State.preempt; (try dsimp only); (repeat' split) <;>
    first | (simp [*]; done) | exact (State.foldl_keeps _ _ (by intros; (try dsimp only); (repeat' split) <;> simp [*]) _ _).trans (by simp [*]))
@[simp] theorem State.demote_frame (i : Nat) :
    (s.demote i).pending = s.pending ∧ (s.demote i).nrt = s.nrt ∧ (s.demote i).fresh = s.fresh ∧ (s.demote i).mem = s.mem ∧ (s.demote i).host = s.host ∧ (s.demote i).cmds = s.cmds ∧ (s.demote i).net = s.net ∧ (s.demote i).egress = s.egress ∧ (s.demote i).kv = s.kv ∧ (s.demote i).lease = s.lease ∧ (s.demote i).sec = s.sec ∧ (s.demote i).fw = s.fw ∧ (s.demote i).integ = s.integ ∧ (s.demote i).ckpt = s.ckpt ∧ (s.demote i).pw = s.pw := by
  unfold State.demote; (try dsimp only); (repeat' split) <;> simp [*]
@[simp] theorem State.windowClosed_frame (t q : Nat) (first : Bool) :
    (s.windowClosed t q first).pending = s.pending ∧ (s.windowClosed t q first).nrt = s.nrt ∧ (s.windowClosed t q first).fresh = s.fresh ∧ (s.windowClosed t q first).mem = s.mem ∧ (s.windowClosed t q first).host = s.host ∧ (s.windowClosed t q first).cmds = s.cmds ∧ (s.windowClosed t q first).net = s.net ∧ (s.windowClosed t q first).egress = s.egress ∧ (s.windowClosed t q first).kv = s.kv ∧ (s.windowClosed t q first).lease = s.lease ∧ (s.windowClosed t q first).sec = s.sec ∧ (s.windowClosed t q first).fw = s.fw ∧ (s.windowClosed t q first).integ = s.integ ∧ (s.windowClosed t q first).ckpt = s.ckpt ∧ (s.windowClosed t q first).pw = s.pw := by
  unfold State.windowClosed; (try dsimp only); (repeat' split) <;> simp [*]
@[simp] theorem State.closeWindow_frame (t q : Nat) :
    (s.closeWindow t q).pending = s.pending ∧ (s.closeWindow t q).nrt = s.nrt ∧ (s.closeWindow t q).fresh = s.fresh ∧ (s.closeWindow t q).mem = s.mem ∧ (s.closeWindow t q).host = s.host ∧ (s.closeWindow t q).cmds = s.cmds ∧ (s.closeWindow t q).net = s.net ∧ (s.closeWindow t q).egress = s.egress ∧ (s.closeWindow t q).kv = s.kv ∧ (s.closeWindow t q).lease = s.lease ∧ (s.closeWindow t q).sec = s.sec ∧ (s.closeWindow t q).fw = s.fw ∧ (s.closeWindow t q).integ = s.integ ∧ (s.closeWindow t q).ckpt = s.ckpt ∧ (s.closeWindow t q).pw = s.pw := by
  and_intros <;> (unfold State.closeWindow; (try dsimp only); (repeat' split) <;>
    first | (simp [*]; done) | exact (State.foldl_keeps _ _ (by intros; (try dsimp only); (repeat' split) <;> simp [*]) _ _).trans (by simp [*]))
@[simp] theorem State.rejoin_frame (f : Frag) :
    (s.rejoin f).pending = s.pending ∧ (s.rejoin f).nrt = s.nrt ∧ (s.rejoin f).fresh = s.fresh ∧ (s.rejoin f).mem = s.mem ∧ (s.rejoin f).host = s.host ∧ (s.rejoin f).cmds = s.cmds ∧ (s.rejoin f).net = s.net ∧ (s.rejoin f).egress = s.egress ∧ (s.rejoin f).kv = s.kv ∧ (s.rejoin f).lease = s.lease ∧ (s.rejoin f).sec = s.sec ∧ (s.rejoin f).fw = s.fw ∧ (s.rejoin f).integ = s.integ ∧ (s.rejoin f).ckpt = s.ckpt ∧ (s.rejoin f).pw = s.pw := by
  unfold State.rejoin; (try dsimp only); (repeat' split) <;> simp [*]
@[simp] theorem State.rerun_frame (f : Frag) :
    (s.rerun f).pending = s.pending ∧ (s.rerun f).nrt = s.nrt ∧ (s.rerun f).fresh = s.fresh ∧ (s.rerun f).mem = s.mem ∧ (s.rerun f).host = s.host ∧ (s.rerun f).cmds = s.cmds ∧ (s.rerun f).net = s.net ∧ (s.rerun f).egress = s.egress ∧ (s.rerun f).kv = s.kv ∧ (s.rerun f).lease = s.lease ∧ (s.rerun f).sec = s.sec ∧ (s.rerun f).fw = s.fw ∧ (s.rerun f).integ = s.integ ∧ (s.rerun f).ckpt = s.ckpt ∧ (s.rerun f).pw = s.pw := by
  unfold State.rerun; (try dsimp only); (repeat' split) <;> simp [*]
@[simp] theorem State.preemptStop_frame (t e : Nat) :
    (s.preemptStop t e).pending = s.pending ∧ (s.preemptStop t e).nrt = s.nrt ∧ (s.preemptStop t e).fresh = s.fresh ∧ (s.preemptStop t e).mem = s.mem ∧ (s.preemptStop t e).host = s.host ∧ (s.preemptStop t e).cmds = s.cmds ∧ (s.preemptStop t e).net = s.net ∧ (s.preemptStop t e).egress = s.egress ∧ (s.preemptStop t e).kv = s.kv ∧ (s.preemptStop t e).lease = s.lease ∧ (s.preemptStop t e).sec = s.sec ∧ (s.preemptStop t e).fw = s.fw ∧ (s.preemptStop t e).integ = s.integ ∧ (s.preemptStop t e).ckpt = s.ckpt ∧ (s.preemptStop t e).pw = s.pw := by
  unfold State.preemptStop; (try dsimp only); (repeat' split) <;> simp [*]
@[simp] theorem State.saveDone_frame (ctx : Nat) :
    (s.saveDone ctx).pending = s.pending ∧ (s.saveDone ctx).nrt = s.nrt ∧ (s.saveDone ctx).fresh = s.fresh ∧ (s.saveDone ctx).mem = s.mem ∧ (s.saveDone ctx).host = s.host ∧ (s.saveDone ctx).cmds = s.cmds ∧ (s.saveDone ctx).net = s.net ∧ (s.saveDone ctx).egress = s.egress ∧ (s.saveDone ctx).kv = s.kv ∧ (s.saveDone ctx).lease = s.lease ∧ (s.saveDone ctx).sec = s.sec ∧ (s.saveDone ctx).fw = s.fw ∧ (s.saveDone ctx).integ = s.integ ∧ (s.saveDone ctx).ckpt = s.ckpt ∧ (s.saveDone ctx).pw = s.pw := by
  unfold State.saveDone; (try dsimp only); (repeat' split) <;> simp [*]
@[simp] theorem State.restoreDone_frame (i : Nat) :
    (s.restoreDone i).pending = s.pending ∧ (s.restoreDone i).nrt = s.nrt ∧ (s.restoreDone i).fresh = s.fresh ∧ (s.restoreDone i).mem = s.mem ∧ (s.restoreDone i).rf = s.rf ∧ (s.restoreDone i).host = s.host ∧ (s.restoreDone i).cmds = s.cmds ∧ (s.restoreDone i).net = s.net ∧ (s.restoreDone i).egress = s.egress ∧ (s.restoreDone i).kv = s.kv ∧ (s.restoreDone i).lease = s.lease ∧ (s.restoreDone i).sec = s.sec ∧ (s.restoreDone i).fw = s.fw ∧ (s.restoreDone i).integ = s.integ ∧ (s.restoreDone i).ckpt = s.ckpt ∧ (s.restoreDone i).pw = s.pw := by
  unfold State.restoreDone; (try dsimp only); (repeat' split) <;> simp [*]
@[simp] theorem State.killFrag_frame (i : Nat) :
    (s.killFrag i).pending = s.pending ∧ (s.killFrag i).nrt = s.nrt ∧ (s.killFrag i).fresh = s.fresh ∧ (s.killFrag i).mem = s.mem ∧ (s.killFrag i).host = s.host ∧ (s.killFrag i).cmds = s.cmds ∧ (s.killFrag i).net = s.net ∧ (s.killFrag i).egress = s.egress ∧ (s.killFrag i).kv = s.kv ∧ (s.killFrag i).lease = s.lease ∧ (s.killFrag i).sec = s.sec ∧ (s.killFrag i).fw = s.fw ∧ (s.killFrag i).integ = s.integ ∧ (s.killFrag i).ckpt = s.ckpt ∧ (s.killFrag i).pw = s.pw := by
  unfold State.killFrag; (try dsimp only); (repeat' split) <;> simp [*]
@[simp] theorem State.removeFrag_frame (f : Frag) :
    (s.removeFrag f).pending = s.pending ∧ (s.removeFrag f).nrt = s.nrt ∧ (s.removeFrag f).fresh = s.fresh ∧ (s.removeFrag f).mem = s.mem ∧ (s.removeFrag f).host = s.host ∧ (s.removeFrag f).cmds = s.cmds ∧ (s.removeFrag f).net = s.net ∧ (s.removeFrag f).egress = s.egress ∧ (s.removeFrag f).kv = s.kv ∧ (s.removeFrag f).lease = s.lease ∧ (s.removeFrag f).sec = s.sec ∧ (s.removeFrag f).fw = s.fw ∧ (s.removeFrag f).integ = s.integ ∧ (s.removeFrag f).ckpt = s.ckpt ∧ (s.removeFrag f).pw = s.pw := by
  unfold State.removeFrag; (try dsimp only); (repeat' split) <;> simp [*]
@[simp] theorem State.putJob_frame (j : AttnJob) :
    (s.putJob j).pending = s.pending ∧ (s.putJob j).nrt = s.nrt ∧ (s.putJob j).fresh = s.fresh ∧ (s.putJob j).mem = s.mem ∧ (s.putJob j).rf = s.rf ∧ (s.putJob j).host = s.host ∧ (s.putJob j).cmds = s.cmds ∧ (s.putJob j).net = s.net ∧ (s.putJob j).egress = s.egress ∧ (s.putJob j).kv = s.kv ∧ (s.putJob j).lease = s.lease ∧ (s.putJob j).sec = s.sec ∧ (s.putJob j).fw = s.fw ∧ (s.putJob j).integ = s.integ ∧ (s.putJob j).ckpt = s.ckpt ∧ (s.putJob j).pw = s.pw := by
  unfold State.putJob; (try dsimp only); (repeat' split) <;> simp [*]
@[simp] theorem State.mismatch_frame (pg unit : Nat) (r : PartialRec) :
    (s.mismatch pg unit r).pending = s.pending ∧ (s.mismatch pg unit r).nrt = s.nrt ∧ (s.mismatch pg unit r).fresh = s.fresh ∧ (s.mismatch pg unit r).mem = s.mem ∧ (s.mismatch pg unit r).cmds = s.cmds ∧ (s.mismatch pg unit r).net = s.net ∧ (s.mismatch pg unit r).egress = s.egress ∧ (s.mismatch pg unit r).kv = s.kv ∧ (s.mismatch pg unit r).eng = s.eng ∧ (s.mismatch pg unit r).lease = s.lease ∧ (s.mismatch pg unit r).sec = s.sec ∧ (s.mismatch pg unit r).fw = s.fw ∧ (s.mismatch pg unit r).integ = s.integ ∧ (s.mismatch pg unit r).ckpt = s.ckpt ∧ (s.mismatch pg unit r).pw = s.pw := by
  unfold State.mismatch; (try dsimp only); (repeat' split) <;> simp [*]
@[simp] theorem State.detachAnchor_frame (j : AttnJob) :
    (s.detachAnchor j).pending = s.pending ∧ (s.detachAnchor j).nrt = s.nrt ∧ (s.detachAnchor j).fresh = s.fresh ∧ (s.detachAnchor j).mem = s.mem ∧ (s.detachAnchor j).rf = s.rf ∧ (s.detachAnchor j).host = s.host ∧ (s.detachAnchor j).cmds = s.cmds ∧ (s.detachAnchor j).net = s.net ∧ (s.detachAnchor j).egress = s.egress ∧ (s.detachAnchor j).kv = s.kv ∧ (s.detachAnchor j).lease = s.lease ∧ (s.detachAnchor j).sec = s.sec ∧ (s.detachAnchor j).fw = s.fw ∧ (s.detachAnchor j).integ = s.integ ∧ (s.detachAnchor j).ckpt = s.ckpt ∧ (s.detachAnchor j).pw = s.pw := by
  unfold State.detachAnchor; (try dsimp only); (repeat' split) <;> simp [*]
@[simp] theorem State.attachAnchor_frame (k : MergeKey) (cmd rows dv : Nat) (sum : Bool) :
    (s.attachAnchor k cmd rows dv sum).pending = s.pending ∧ (s.attachAnchor k cmd rows dv sum).nrt = s.nrt ∧ (s.attachAnchor k cmd rows dv sum).fresh = s.fresh ∧ (s.attachAnchor k cmd rows dv sum).mem = s.mem ∧ (s.attachAnchor k cmd rows dv sum).rf = s.rf ∧ (s.attachAnchor k cmd rows dv sum).host = s.host ∧ (s.attachAnchor k cmd rows dv sum).cmds = s.cmds ∧ (s.attachAnchor k cmd rows dv sum).net = s.net ∧ (s.attachAnchor k cmd rows dv sum).egress = s.egress ∧ (s.attachAnchor k cmd rows dv sum).kv = s.kv ∧ (s.attachAnchor k cmd rows dv sum).lease = s.lease ∧ (s.attachAnchor k cmd rows dv sum).sec = s.sec ∧ (s.attachAnchor k cmd rows dv sum).fw = s.fw ∧ (s.attachAnchor k cmd rows dv sum).integ = s.integ ∧ (s.attachAnchor k cmd rows dv sum).ckpt = s.ckpt ∧ (s.attachAnchor k cmd rows dv sum).pw = s.pw := by
  unfold State.attachAnchor; (try dsimp only); (repeat' split) <;> simp [*]
@[simp] theorem State.dropJob_frame (i : Nat) :
    (s.dropJob i).pending = s.pending ∧ (s.dropJob i).nrt = s.nrt ∧ (s.dropJob i).fresh = s.fresh ∧ (s.dropJob i).mem = s.mem ∧ (s.dropJob i).rf = s.rf ∧ (s.dropJob i).host = s.host ∧ (s.dropJob i).cmds = s.cmds ∧ (s.dropJob i).net = s.net ∧ (s.dropJob i).egress = s.egress ∧ (s.dropJob i).kv = s.kv ∧ (s.dropJob i).lease = s.lease ∧ (s.dropJob i).sec = s.sec ∧ (s.dropJob i).fw = s.fw ∧ (s.dropJob i).integ = s.integ ∧ (s.dropJob i).ckpt = s.ckpt ∧ (s.dropJob i).pw = s.pw := by
  unfold State.dropJob; (try dsimp only); (repeat' split) <;> simp [*]
@[simp] theorem State.endAttn_frame (c : Cmd) (j : AttnJob) (status : Nat) :
    (s.endAttn c j status).pending = s.pending ∧ (s.endAttn c j status).nrt = s.nrt ∧ (s.endAttn c j status).fresh = s.fresh ∧ (s.endAttn c j status).egress = s.egress ∧ (s.endAttn c j status).kv = s.kv ∧ (s.endAttn c j status).lease = s.lease ∧ (s.endAttn c j status).sec = s.sec ∧ (s.endAttn c j status).fw = s.fw ∧ (s.endAttn c j status).integ = s.integ ∧ (s.endAttn c j status).ckpt = s.ckpt ∧ (s.endAttn c j status).pw = s.pw := by
  unfold State.endAttn; (try dsimp only); (repeat' split) <;> simp [*]
@[simp] theorem State.decided_frame (cmd status hintUs : Nat) :
    (s.decided cmd status hintUs).pending = s.pending ∧ (s.decided cmd status hintUs).nrt = s.nrt ∧ (s.decided cmd status hintUs).fresh = s.fresh ∧ (s.decided cmd status hintUs).egress = s.egress ∧ (s.decided cmd status hintUs).kv = s.kv ∧ (s.decided cmd status hintUs).lease = s.lease ∧ (s.decided cmd status hintUs).sec = s.sec ∧ (s.decided cmd status hintUs).fw = s.fw ∧ (s.decided cmd status hintUs).integ = s.integ ∧ (s.decided cmd status hintUs).ckpt = s.ckpt ∧ (s.decided cmd status hintUs).pw = s.pw := by
  unfold State.decided; (try dsimp only); (repeat' split) <;> simp [*]
@[simp] theorem State.answerPartial_frame (conn msgId : Nat) (r : PartialRec) (status hintUs : Nat) :
    (s.answerPartial conn msgId r status hintUs).pending = s.pending ∧ (s.answerPartial conn msgId r status hintUs).nrt = s.nrt ∧ (s.answerPartial conn msgId r status hintUs).fresh = s.fresh ∧ (s.answerPartial conn msgId r status hintUs).mem = s.mem ∧ (s.answerPartial conn msgId r status hintUs).rf = s.rf ∧ (s.answerPartial conn msgId r status hintUs).host = s.host ∧ (s.answerPartial conn msgId r status hintUs).cmds = s.cmds ∧ (s.answerPartial conn msgId r status hintUs).egress = s.egress ∧ (s.answerPartial conn msgId r status hintUs).kv = s.kv ∧ (s.answerPartial conn msgId r status hintUs).eng = s.eng ∧ (s.answerPartial conn msgId r status hintUs).lease = s.lease ∧ (s.answerPartial conn msgId r status hintUs).sec = s.sec ∧ (s.answerPartial conn msgId r status hintUs).fw = s.fw ∧ (s.answerPartial conn msgId r status hintUs).integ = s.integ ∧ (s.answerPartial conn msgId r status hintUs).ckpt = s.ckpt ∧ (s.answerPartial conn msgId r status hintUs).pw = s.pw := by
  unfold State.answerPartial; (try dsimp only); (repeat' split) <;> simp [*]
@[simp] theorem State.lingerExpire_frame (k : MergeKey) :
    (s.lingerExpire k).pending = s.pending ∧ (s.lingerExpire k).nrt = s.nrt ∧ (s.lingerExpire k).fresh = s.fresh ∧ (s.lingerExpire k).mem = s.mem ∧ (s.lingerExpire k).rf = s.rf ∧ (s.lingerExpire k).host = s.host ∧ (s.lingerExpire k).cmds = s.cmds ∧ (s.lingerExpire k).net = s.net ∧ (s.lingerExpire k).egress = s.egress ∧ (s.lingerExpire k).kv = s.kv ∧ (s.lingerExpire k).lease = s.lease ∧ (s.lingerExpire k).sec = s.sec ∧ (s.lingerExpire k).fw = s.fw ∧ (s.lingerExpire k).integ = s.integ ∧ (s.lingerExpire k).ckpt = s.ckpt ∧ (s.lingerExpire k).pw = s.pw := by
  unfold State.lingerExpire; (try dsimp only); (repeat' split) <;> simp [*]
@[simp] theorem State.partialStatus_frame (conn msgId status hintUs : Nat) :
    (s.partialStatus conn msgId status hintUs).pending = s.pending ∧ (s.partialStatus conn msgId status hintUs).nrt = s.nrt ∧ (s.partialStatus conn msgId status hintUs).fresh = s.fresh ∧ (s.partialStatus conn msgId status hintUs).egress = s.egress ∧ (s.partialStatus conn msgId status hintUs).kv = s.kv ∧ (s.partialStatus conn msgId status hintUs).lease = s.lease ∧ (s.partialStatus conn msgId status hintUs).sec = s.sec ∧ (s.partialStatus conn msgId status hintUs).fw = s.fw ∧ (s.partialStatus conn msgId status hintUs).integ = s.integ ∧ (s.partialStatus conn msgId status hintUs).ckpt = s.ckpt ∧ (s.partialStatus conn msgId status hintUs).pw = s.pw := by
  unfold State.partialStatus; (try dsimp only); (repeat' split) <;> simp [*]
@[simp] theorem State.absorbFails_frame (h : Hdr) (d : AttnD) (frame : Nat) :
    (s.absorbFails h d frame).pending = s.pending ∧ (s.absorbFails h d frame).nrt = s.nrt ∧ (s.absorbFails h d frame).mem = s.mem ∧ (s.absorbFails h d frame).cmds = s.cmds ∧ (s.absorbFails h d frame).net = s.net ∧ (s.absorbFails h d frame).egress = s.egress ∧ (s.absorbFails h d frame).kv = s.kv ∧ (s.absorbFails h d frame).eng = s.eng ∧ (s.absorbFails h d frame).lease = s.lease ∧ (s.absorbFails h d frame).sec = s.sec ∧ (s.absorbFails h d frame).fw = s.fw ∧ (s.absorbFails h d frame).integ = s.integ ∧ (s.absorbFails h d frame).ckpt = s.ckpt ∧ (s.absorbFails h d frame).pw = s.pw := by
  unfold State.absorbFails; (try dsimp only); (repeat' split) <;> simp [*]
@[simp] theorem State.fragLost_frame (f : Frag) :
    (s.fragLost f).pending = s.pending ∧ (s.fragLost f).nrt = s.nrt ∧ (s.fragLost f).fresh = s.fresh ∧ (s.fragLost f).mem = s.mem ∧ (s.fragLost f).rf = s.rf ∧ (s.fragLost f).host = s.host ∧ (s.fragLost f).cmds = s.cmds ∧ (s.fragLost f).net = s.net ∧ (s.fragLost f).egress = s.egress ∧ (s.fragLost f).kv = s.kv ∧ (s.fragLost f).lease = s.lease ∧ (s.fragLost f).sec = s.sec ∧ (s.fragLost f).fw = s.fw ∧ (s.fragLost f).integ = s.integ ∧ (s.fragLost f).ckpt = s.ckpt ∧ (s.fragLost f).pw = s.pw := by
  unfold State.fragLost; (try dsimp only); (repeat' split) <;> simp [*]
@[simp] theorem State.operandLost_frame (f : Frag) (e frame : Nat) (lost : List Nat) :
    (s.operandLost f e frame lost).pending = s.pending ∧ (s.operandLost f e frame lost).nrt = s.nrt ∧ (s.operandLost f e frame lost).mem = s.mem ∧ (s.operandLost f e frame lost).cmds = s.cmds ∧ (s.operandLost f e frame lost).net = s.net ∧ (s.operandLost f e frame lost).egress = s.egress ∧ (s.operandLost f e frame lost).kv = s.kv ∧ (s.operandLost f e frame lost).lease = s.lease ∧ (s.operandLost f e frame lost).sec = s.sec ∧ (s.operandLost f e frame lost).fw = s.fw ∧ (s.operandLost f e frame lost).integ = s.integ ∧ (s.operandLost f e frame lost).ckpt = s.ckpt ∧ (s.operandLost f e frame lost).pw = s.pw := by
  unfold State.operandLost; (try dsimp only); (repeat' split) <;> simp [*]
@[simp] theorem State.countWaits_frame (f : Frag) (e : Nat) (packed : Bool) :
    (s.countWaits f e packed).pending = s.pending ∧ (s.countWaits f e packed).nrt = s.nrt ∧ (s.countWaits f e packed).mem = s.mem ∧ (s.countWaits f e packed).host = s.host ∧ (s.countWaits f e packed).cmds = s.cmds ∧ (s.countWaits f e packed).net = s.net ∧ (s.countWaits f e packed).egress = s.egress ∧ (s.countWaits f e packed).kv = s.kv ∧ (s.countWaits f e packed).eng = s.eng ∧ (s.countWaits f e packed).lease = s.lease ∧ (s.countWaits f e packed).sec = s.sec ∧ (s.countWaits f e packed).fw = s.fw ∧ (s.countWaits f e packed).integ = s.integ ∧ (s.countWaits f e packed).ckpt = s.ckpt ∧ (s.countWaits f e packed).pw = s.pw := by
  unfold State.countWaits; (try dsimp only); (repeat' split) <;> simp [*]
@[simp] theorem State.unpinPages_frame (f : Frag) :
    (s.unpinPages f).pending = s.pending ∧ (s.unpinPages f).nrt = s.nrt ∧ (s.unpinPages f).fresh = s.fresh ∧ (s.unpinPages f).mem = s.mem ∧ (s.unpinPages f).cmds = s.cmds ∧ (s.unpinPages f).net = s.net ∧ (s.unpinPages f).egress = s.egress ∧ (s.unpinPages f).eng = s.eng ∧ (s.unpinPages f).lease = s.lease ∧ (s.unpinPages f).sec = s.sec ∧ (s.unpinPages f).fw = s.fw ∧ (s.unpinPages f).integ = s.integ ∧ (s.unpinPages f).ckpt = s.ckpt ∧ (s.unpinPages f).pw = s.pw := by
  and_intros <;> (unfold State.unpinPages; (try dsimp only); (repeat' split) <;>
    first | (simp [*]; done) | exact (State.foldl_keeps _ _ (by intros; (try dsimp only); (repeat' split) <;> simp [*]) _ _).trans (by simp [*]))
@[simp] theorem State.startPromos_frame (f : Frag) :
    (s.startPromos f).pending = s.pending ∧ (s.startPromos f).nrt = s.nrt ∧ (s.startPromos f).fresh = s.fresh ∧ (s.startPromos f).mem = s.mem ∧ (s.startPromos f).cmds = s.cmds ∧ (s.startPromos f).net = s.net ∧ (s.startPromos f).egress = s.egress ∧ (s.startPromos f).kv = s.kv ∧ (s.startPromos f).lease = s.lease ∧ (s.startPromos f).sec = s.sec ∧ (s.startPromos f).fw = s.fw ∧ (s.startPromos f).integ = s.integ ∧ (s.startPromos f).ckpt = s.ckpt ∧ (s.startPromos f).pw = s.pw := by
  and_intros <;> (unfold State.startPromos; (try dsimp only); (repeat' split) <;>
    first | (simp [*]; done) | exact (State.foldl_keeps _ _ (by intros; (try dsimp only); (repeat' split) <;> simp [*]) _ _).trans (by simp [*]))
@[simp] theorem State.settleOver_frame (i : Nat) :
    (s.settleOver i).pending = s.pending ∧ (s.settleOver i).nrt = s.nrt ∧ (s.settleOver i).fresh = s.fresh ∧ (s.settleOver i).mem = s.mem ∧ (s.settleOver i).rf = s.rf ∧ (s.settleOver i).host = s.host ∧ (s.settleOver i).cmds = s.cmds ∧ (s.settleOver i).net = s.net ∧ (s.settleOver i).egress = s.egress ∧ (s.settleOver i).kv = s.kv ∧ (s.settleOver i).lease = s.lease ∧ (s.settleOver i).sec = s.sec ∧ (s.settleOver i).fw = s.fw ∧ (s.settleOver i).integ = s.integ ∧ (s.settleOver i).ckpt = s.ckpt ∧ (s.settleOver i).pw = s.pw := by
  unfold State.settleOver; (try dsimp only); (repeat' split) <;> simp [*]
@[simp] theorem State.fragDone_frame (i : Nat) :
    (s.fragDone i).pending = s.pending ∧ (s.fragDone i).nrt = s.nrt ∧ (s.fragDone i).fresh = s.fresh ∧ (s.fragDone i).mem = s.mem ∧ (s.fragDone i).cmds = s.cmds ∧ (s.fragDone i).net = s.net ∧ (s.fragDone i).egress = s.egress ∧ (s.fragDone i).lease = s.lease ∧ (s.fragDone i).sec = s.sec ∧ (s.fragDone i).fw = s.fw ∧ (s.fragDone i).ckpt = s.ckpt ∧ (s.fragDone i).pw = s.pw := by
  unfold State.fragDone; (try dsimp only); (repeat' split) <;> simp [*]
@[simp] theorem State.dropGrad_frame (k : Nat × Nat × Nat) :
    (s.dropGrad k).pending = s.pending ∧ (s.dropGrad k).nrt = s.nrt ∧ (s.dropGrad k).fresh = s.fresh ∧ (s.dropGrad k).mem = s.mem ∧ (s.dropGrad k).rf = s.rf ∧ (s.dropGrad k).host = s.host ∧ (s.dropGrad k).cmds = s.cmds ∧ (s.dropGrad k).net = s.net ∧ (s.dropGrad k).egress = s.egress ∧ (s.dropGrad k).lease = s.lease ∧ (s.dropGrad k).sec = s.sec ∧ (s.dropGrad k).fw = s.fw ∧ (s.dropGrad k).integ = s.integ ∧ (s.dropGrad k).ckpt = s.ckpt ∧ (s.dropGrad k).pw = s.pw := by
  unfold State.dropGrad; (try dsimp only); (repeat' split) <;> simp [*]
@[simp] theorem State.countPack_frame (t ch : Nat) (c : CrumbPage) :
    (s.countPack t ch c).pending = s.pending ∧ (s.countPack t ch c).nrt = s.nrt ∧ (s.countPack t ch c).fresh = s.fresh ∧ (s.countPack t ch c).mem = s.mem ∧ (s.countPack t ch c).host = s.host ∧ (s.countPack t ch c).cmds = s.cmds ∧ (s.countPack t ch c).net = s.net ∧ (s.countPack t ch c).egress = s.egress ∧ (s.countPack t ch c).kv = s.kv ∧ (s.countPack t ch c).eng = s.eng ∧ (s.countPack t ch c).lease = s.lease ∧ (s.countPack t ch c).sec = s.sec ∧ (s.countPack t ch c).fw = s.fw ∧ (s.countPack t ch c).integ = s.integ ∧ (s.countPack t ch c).ckpt = s.ckpt ∧ (s.countPack t ch c).pw = s.pw := by
  unfold State.countPack; (try dsimp only); (repeat' split) <;> simp [*]
@[simp] theorem State.packedPtes_frame (f : Nat) (inBench : Bool) :
    (s.packedPtes f inBench).pending = s.pending ∧ (s.packedPtes f inBench).nrt = s.nrt ∧ (s.packedPtes f inBench).fresh = s.fresh ∧ (s.packedPtes f inBench).mem = s.mem ∧ (s.packedPtes f inBench).rf = s.rf ∧ (s.packedPtes f inBench).host = s.host ∧ (s.packedPtes f inBench).cmds = s.cmds ∧ (s.packedPtes f inBench).net = s.net ∧ (s.packedPtes f inBench).egress = s.egress ∧ (s.packedPtes f inBench).eng = s.eng ∧ (s.packedPtes f inBench).lease = s.lease ∧ (s.packedPtes f inBench).sec = s.sec ∧ (s.packedPtes f inBench).fw = s.fw ∧ (s.packedPtes f inBench).integ = s.integ ∧ (s.packedPtes f inBench).ckpt = s.ckpt ∧ (s.packedPtes f inBench).pw = s.pw := by
  unfold State.packedPtes; (try dsimp only); (repeat' split) <;> simp [*]
@[simp] theorem State.startWriteback_frame (l : Line) :
    (s.startWriteback l).pending = s.pending ∧ (s.startWriteback l).nrt = s.nrt ∧ (s.startWriteback l).fresh = s.fresh ∧ (s.startWriteback l).mem = s.mem ∧ (s.startWriteback l).rf = s.rf ∧ (s.startWriteback l).host = s.host ∧ (s.startWriteback l).cmds = s.cmds ∧ (s.startWriteback l).net = s.net ∧ (s.startWriteback l).egress = s.egress ∧ (s.startWriteback l).eng = s.eng ∧ (s.startWriteback l).lease = s.lease ∧ (s.startWriteback l).sec = s.sec ∧ (s.startWriteback l).fw = s.fw ∧ (s.startWriteback l).integ = s.integ ∧ (s.startWriteback l).ckpt = s.ckpt ∧ (s.startWriteback l).pw = s.pw := by
  unfold State.startWriteback; (try dsimp only); (repeat' split) <;> simp [*]
@[simp] theorem State.ageSweep_frame (t : Nat) :
    (s.ageSweep t).pending = s.pending ∧ (s.ageSweep t).nrt = s.nrt ∧ (s.ageSweep t).fresh = s.fresh ∧ (s.ageSweep t).mem = s.mem ∧ (s.ageSweep t).host = s.host ∧ (s.ageSweep t).cmds = s.cmds ∧ (s.ageSweep t).net = s.net ∧ (s.ageSweep t).egress = s.egress ∧ (s.ageSweep t).eng = s.eng ∧ (s.ageSweep t).lease = s.lease ∧ (s.ageSweep t).sec = s.sec ∧ (s.ageSweep t).fw = s.fw ∧ (s.ageSweep t).integ = s.integ ∧ (s.ageSweep t).ckpt = s.ckpt ∧ (s.ageSweep t).pw = s.pw := by
  and_intros <;> (unfold State.ageSweep; (try dsimp only); (repeat' split) <;>
    first | (simp [*]; done) | exact (State.foldl_keeps _ _ (by intros; (try dsimp only); (repeat' split) <;> simp [*]) _ _).trans (by simp [*]))
@[simp] theorem State.compactPage_frame (d q : Nat) (sh : Shape) (v f : Nat) (ks : List Nat) (g : Got) :
    (s.compactPage d q sh v f ks g).pending = s.pending ∧ (s.compactPage d q sh v f ks g).nrt = s.nrt ∧ (s.compactPage d q sh v f ks g).fresh = s.fresh ∧ (s.compactPage d q sh v f ks g).mem = s.mem ∧ (s.compactPage d q sh v f ks g).cmds = s.cmds ∧ (s.compactPage d q sh v f ks g).net = s.net ∧ (s.compactPage d q sh v f ks g).egress = s.egress ∧ (s.compactPage d q sh v f ks g).eng = s.eng ∧ (s.compactPage d q sh v f ks g).lease = s.lease ∧ (s.compactPage d q sh v f ks g).sec = s.sec ∧ (s.compactPage d q sh v f ks g).fw = s.fw ∧ (s.compactPage d q sh v f ks g).integ = s.integ ∧ (s.compactPage d q sh v f ks g).ckpt = s.ckpt ∧ (s.compactPage d q sh v f ks g).pw = s.pw := by
  and_intros <;> (unfold State.compactPage; (try dsimp only); (repeat' split) <;>
    first | (simp [*]; done) | exact (State.foldl_keeps _ _ (by intros; (try dsimp only); (repeat' split) <;> simp [*]) _ _).trans (by simp [*]))
@[simp] theorem State.audit_frame (typ : Nat) (domain : Option Nat) (agent arg0 : Nat) :
    (s.audit typ domain agent arg0).pending = s.pending ∧ (s.audit typ domain agent arg0).nrt = s.nrt ∧ (s.audit typ domain agent arg0).fresh = s.fresh ∧ (s.audit typ domain agent arg0).mem = s.mem ∧ (s.audit typ domain agent arg0).cmds = s.cmds ∧ (s.audit typ domain agent arg0).net = s.net ∧ (s.audit typ domain agent arg0).egress = s.egress ∧ (s.audit typ domain agent arg0).kv = s.kv ∧ (s.audit typ domain agent arg0).eng = s.eng ∧ (s.audit typ domain agent arg0).lease = s.lease ∧ (s.audit typ domain agent arg0).fw = s.fw ∧ (s.audit typ domain agent arg0).integ = s.integ ∧ (s.audit typ domain agent arg0).ckpt = s.ckpt ∧ (s.audit typ domain agent arg0).pw = s.pw := by
  unfold State.audit; (try dsimp only); (repeat' split) <;> simp [*]

end Sys2Proof.Machine
end

