-- ==== Sys2Proof/Laws/FrameCodes.lean ====
section
/-!
SUPPORT. Reads change nothing where every codeword is as encoded.
-/

namespace Sys2Proof.Machine

variable (s : State)

theorem State.badWords_nil (h : s.kv.codes = []) (f : Nat) (b : Bool) : s.badWords f b = [] := by simp [State.badWords, h]
theorem State.lostIn_nil (h : s.kv.codes = []) (a n : Nat) : s.lostIn a n = false := by simp [State.lostIn, h]
theorem State.wordOutcome_nil (h : s.kv.codes = []) (a : Nat) : s.wordOutcome a = .clean := by simp [State.wordOutcome, h, AL.get]
theorem State.readList_nil (c : Nat) : s.readList [] c = (s, []) := rfl
theorem State.readFrame_nil (h : s.kv.codes = []) (f : Nat) (b : Bool) (c : Nat) : s.readFrame f b c = (s, false) := by
  simp [State.readFrame, State.badWords_nil s h, State.readList_nil]
theorem State.readRecord_nil (h : s.kv.codes = []) (f : Nat) : s.readRecord f = (s, false) := by
  simp [State.readRecord, State.badWords_nil s h, State.readList_nil]
theorem State.readTasks_nil (h : s.kv.codes = []) (ts : List (Point × Task)) : s.readTasks ts = (s, false) := by
  unfold State.readTasks
  induction ts with
  | nil => rfl
  | cons t ts ih => rw [List.foldl_cons]; cases ht : t.2 <;> simpa [ht, State.readRecord_nil s h, State.readFrame_nil s h] using ih
theorem State.readAll_nil (h : s.kv.codes = []) (fs : List Nat) (c : Nat) : s.readAll fs c = (s, false) := by
  unfold State.readAll
  induction fs with
  | nil => rfl
  | cons f fs ih => simpa [State.readFrame_nil s h] using ih
theorem State.decodePage_unpacked {f : Nat} (h : (s.page f).fPacked = false) : s.decodePage f = (s, false) := by
  simp [State.decodePage, h]
theorem State.readCopies_nil (h : s.kv.codes = []) (ps : List ForkPage) (hp : ∀ p ∈ ps, (s.page p.pte.loc).fPacked = false) :
    s.readCopies ps = (s, false) := by
  unfold State.readCopies
  induction ps with
  | nil => rfl
  | cons p ps ih =>
    rw [List.foldl_cons]
    have ih := ih fun q hq => hp q (List.mem_cons_of_mem _ hq)
    cases hw : p.way <;>
      simpa [State.readFrame_nil s h, State.decodePage_unpacked s (hp p (List.mem_cons_self ..))] using ih

end Sys2Proof.Machine
end

