-- ==== Sys2Proof/Laws/FrameNode.lean ====
section
/-!
SUPPORT. What operations leave as it was, one lemma for each operation: the groups of State named in it are unchanged
(Remote, Ckpt, Paths, Abort, Handshake, Security, Bulk, Egress, Request, Fence, Fetch, Lease, Firmware, Mailbox).
-/

namespace Sys2Proof.Machine


variable (s : State)

@[simp] theorem State.targetRefused_frame (opcode conn handle status : Nat) :
    (s.targetRefused opcode conn handle status).pending = s.pending ∧ (s.targetRefused opcode conn handle status).nrt = s.nrt ∧ (s.targetRefused opcode conn handle status).fresh = s.fresh ∧ (s.targetRefused opcode conn handle status).cmds = s.cmds ∧ (s.targetRefused opcode conn handle status).egress = s.egress ∧ (s.targetRefused opcode conn handle status).kv = s.kv ∧ (s.targetRefused opcode conn handle status).eng = s.eng ∧ (s.targetRefused opcode conn handle status).lease = s.lease ∧ (s.targetRefused opcode conn handle status).sec = s.sec ∧ (s.targetRefused opcode conn handle status).fw = s.fw ∧ (s.targetRefused opcode conn handle status).integ = s.integ ∧ (s.targetRefused opcode conn handle status).ckpt = s.ckpt ∧ (s.targetRefused opcode conn handle status).pw = s.pw := by
  unfold State.targetRefused; (try dsimp only); (repeat' split) <;> simp [*]
@[simp] theorem State.noticeEnd_frame (handle status : Nat) :
    (s.noticeEnd handle status).pending = s.pending ∧ (s.noticeEnd handle status).nrt = s.nrt ∧ (s.noticeEnd handle status).fresh = s.fresh ∧ (s.noticeEnd handle status).cmds = s.cmds ∧ (s.noticeEnd handle status).egress = s.egress ∧ (s.noticeEnd handle status).kv = s.kv ∧ (s.noticeEnd handle status).eng = s.eng ∧ (s.noticeEnd handle status).lease = s.lease ∧ (s.noticeEnd handle status).sec = s.sec ∧ (s.noticeEnd handle status).fw = s.fw ∧ (s.noticeEnd handle status).integ = s.integ ∧ (s.noticeEnd handle status).ckpt = s.ckpt ∧ (s.noticeEnd handle status).pw = s.pw := by
  unfold State.noticeEnd; (try dsimp only); (repeat' split) <;> simp [*]
@[simp] theorem State.rmaUe_frame (i offset : Nat) :
    (s.rmaUe i offset).pending = s.pending ∧ (s.rmaUe i offset).nrt = s.nrt ∧ (s.rmaUe i offset).fresh = s.fresh ∧ (s.rmaUe i offset).mem = s.mem ∧ (s.rmaUe i offset).cmds = s.cmds ∧ (s.rmaUe i offset).net = s.net ∧ (s.rmaUe i offset).egress = s.egress ∧ (s.rmaUe i offset).kv = s.kv ∧ (s.rmaUe i offset).eng = s.eng ∧ (s.rmaUe i offset).lease = s.lease ∧ (s.rmaUe i offset).sec = s.sec ∧ (s.rmaUe i offset).fw = s.fw ∧ (s.rmaUe i offset).integ = s.integ ∧ (s.rmaUe i offset).ckpt = s.ckpt ∧ (s.rmaUe i offset).pw = s.pw := by
  unfold State.rmaUe; (try dsimp only); (repeat' split) <;> simp [*]
@[simp] theorem State.waitCountMet_frame (id : Nat) :
    (s.waitCountMet id).pending = s.pending ∧ (s.waitCountMet id).nrt = s.nrt ∧ (s.waitCountMet id).fresh = s.fresh ∧ (s.waitCountMet id).egress = s.egress ∧ (s.waitCountMet id).kv = s.kv ∧ (s.waitCountMet id).eng = s.eng ∧ (s.waitCountMet id).lease = s.lease ∧ (s.waitCountMet id).sec = s.sec ∧ (s.waitCountMet id).fw = s.fw ∧ (s.waitCountMet id).integ = s.integ ∧ (s.waitCountMet id).ckpt = s.ckpt ∧ (s.waitCountMet id).pw = s.pw := by
  unfold State.waitCountMet; (try dsimp only); (repeat' split) <;> simp [*]
@[simp] theorem State.releaseWatch_frame (handle : Nat) :
    (s.releaseWatch handle).pending = s.pending ∧ (s.releaseWatch handle).nrt = s.nrt ∧ (s.releaseWatch handle).fresh = s.fresh ∧ (s.releaseWatch handle).egress = s.egress ∧ (s.releaseWatch handle).eng = s.eng ∧ (s.releaseWatch handle).lease = s.lease ∧ (s.releaseWatch handle).sec = s.sec ∧ (s.releaseWatch handle).fw = s.fw ∧ (s.releaseWatch handle).integ = s.integ ∧ (s.releaseWatch handle).ckpt = s.ckpt ∧ (s.releaseWatch handle).pw = s.pw := by
  unfold State.releaseWatch; (try dsimp only); (repeat' split) <;> simp [*]
@[simp] theorem State.endWord_frame (c : Cmd) (d : WaitWordD) (r : Result) :
    (s.endWord c d r).pending = s.pending ∧ (s.endWord c d r).nrt = s.nrt ∧ (s.endWord c d r).fresh = s.fresh ∧ (s.endWord c d r).egress = s.egress ∧ (s.endWord c d r).eng = s.eng ∧ (s.endWord c d r).lease = s.lease ∧ (s.endWord c d r).sec = s.sec ∧ (s.endWord c d r).fw = s.fw ∧ (s.endWord c d r).integ = s.integ ∧ (s.endWord c d r).ckpt = s.ckpt ∧ (s.endWord c d r).pw = s.pw := by
  unfold State.endWord; (try dsimp only); (repeat' split) <;> simp [*]
@[simp] theorem State.waitWordMet_frame (id : Nat) :
    (s.waitWordMet id).pending = s.pending ∧ (s.waitWordMet id).nrt = s.nrt ∧ (s.waitWordMet id).fresh = s.fresh ∧ (s.waitWordMet id).egress = s.egress ∧ (s.waitWordMet id).eng = s.eng ∧ (s.waitWordMet id).lease = s.lease ∧ (s.waitWordMet id).sec = s.sec ∧ (s.waitWordMet id).fw = s.fw ∧ (s.waitWordMet id).integ = s.integ ∧ (s.waitWordMet id).ckpt = s.ckpt ∧ (s.waitWordMet id).pw = s.pw := by
  unfold State.waitWordMet; (try dsimp only); (repeat' split) <;> simp [*]
@[simp] theorem State.waitTimeout_frame (id : Nat) :
    (s.waitTimeout id).pending = s.pending ∧ (s.waitTimeout id).nrt = s.nrt ∧ (s.waitTimeout id).fresh = s.fresh ∧ (s.waitTimeout id).egress = s.egress ∧ (s.waitTimeout id).eng = s.eng ∧ (s.waitTimeout id).lease = s.lease ∧ (s.waitTimeout id).sec = s.sec ∧ (s.waitTimeout id).fw = s.fw ∧ (s.waitTimeout id).integ = s.integ ∧ (s.waitTimeout id).ckpt = s.ckpt ∧ (s.waitTimeout id).pw = s.pw := by
  unfold State.waitTimeout; (try dsimp only); (repeat' split) <;> simp [*]
@[simp] theorem State.endRevokes_frame (ref : RegionRef) (drained refused : Nat) :
    (s.endRevokes ref drained refused).pending = s.pending ∧ (s.endRevokes ref drained refused).nrt = s.nrt ∧ (s.endRevokes ref drained refused).fresh = s.fresh ∧ (s.endRevokes ref drained refused).egress = s.egress ∧ (s.endRevokes ref drained refused).kv = s.kv ∧ (s.endRevokes ref drained refused).eng = s.eng ∧ (s.endRevokes ref drained refused).lease = s.lease ∧ (s.endRevokes ref drained refused).sec = s.sec ∧ (s.endRevokes ref drained refused).fw = s.fw ∧ (s.endRevokes ref drained refused).integ = s.integ ∧ (s.endRevokes ref drained refused).ckpt = s.ckpt ∧ (s.endRevokes ref drained refused).pw = s.pw := by
  and_intros <;> (unfold State.endRevokes; (try dsimp only); (repeat' split) <;>
    first | (simp [*]; done) | exact (State.foldl_keeps _ _ (by intros; (try dsimp only); (repeat' split) <;> simp [*]) _ _).trans (by simp [*]))
@[simp] theorem State.freeRegion_frame (i : Nat) (g : Region) :
    (s.freeRegion i g).pending = s.pending ∧ (s.freeRegion i g).nrt = s.nrt ∧ (s.freeRegion i g).fresh = s.fresh ∧ (s.freeRegion i g).rf = s.rf ∧ (s.freeRegion i g).host = s.host ∧ (s.freeRegion i g).cmds = s.cmds ∧ (s.freeRegion i g).egress = s.egress ∧ (s.freeRegion i g).eng = s.eng ∧ (s.freeRegion i g).lease = s.lease ∧ (s.freeRegion i g).sec = s.sec ∧ (s.freeRegion i g).fw = s.fw ∧ (s.freeRegion i g).integ = s.integ ∧ (s.freeRegion i g).ckpt = s.ckpt ∧ (s.freeRegion i g).pw = s.pw := by
  and_intros <;> (unfold State.freeRegion; (try dsimp only); (repeat' split) <;>
    first | (simp [*]; done) | exact (State.foldl_keeps _ _ (by intros; (try dsimp only); (repeat' split) <;> simp [*]) _ _).trans (by simp [*]))
@[simp] theorem State.drained_frame (ref : RegionRef) :
    (s.drained ref).pending = s.pending ∧ (s.drained ref).nrt = s.nrt ∧ (s.drained ref).fresh = s.fresh ∧ (s.drained ref).egress = s.egress ∧ (s.drained ref).eng = s.eng ∧ (s.drained ref).lease = s.lease ∧ (s.drained ref).sec = s.sec ∧ (s.drained ref).fw = s.fw ∧ (s.drained ref).integ = s.integ ∧ (s.drained ref).ckpt = s.ckpt ∧ (s.drained ref).pw = s.pw := by
  unfold State.drained; (try dsimp only); (repeat' split) <;> simp [*]
@[simp] theorem State.startRevoke_frame (i : Nat) (g : Region) :
    (s.startRevoke i g).pending = s.pending ∧ (s.startRevoke i g).nrt = s.nrt ∧ (s.startRevoke i g).fresh = s.fresh ∧ (s.startRevoke i g).egress = s.egress ∧ (s.startRevoke i g).eng = s.eng ∧ (s.startRevoke i g).lease = s.lease ∧ (s.startRevoke i g).sec = s.sec ∧ (s.startRevoke i g).fw = s.fw ∧ (s.startRevoke i g).integ = s.integ ∧ (s.startRevoke i g).ckpt = s.ckpt ∧ (s.startRevoke i g).pw = s.pw := by
  and_intros <;> (unfold State.startRevoke; (try dsimp only); (repeat' split) <;>
    first | (simp [*]; done) | exact (State.foldl_keeps _ _ (by intros; (try dsimp only); (repeat' split) <;> simp [*]) _ _).trans (by simp [*]))
@[simp] theorem State.dropJobRec_frame (i : Nat) :
    (s.dropJobRec i).pending = s.pending ∧ (s.dropJobRec i).nrt = s.nrt ∧ (s.dropJobRec i).fresh = s.fresh ∧ (s.dropJobRec i).mem = s.mem ∧ (s.dropJobRec i).rf = s.rf ∧ (s.dropJobRec i).host = s.host ∧ (s.dropJobRec i).cmds = s.cmds ∧ (s.dropJobRec i).net = s.net ∧ (s.dropJobRec i).egress = s.egress ∧ (s.dropJobRec i).kv = s.kv ∧ (s.dropJobRec i).eng = s.eng ∧ (s.dropJobRec i).lease = s.lease ∧ (s.dropJobRec i).sec = s.sec ∧ (s.dropJobRec i).fw = s.fw ∧ (s.dropJobRec i).integ = s.integ ∧ (s.dropJobRec i).pw = s.pw := by
  unfold State.dropJobRec; (try dsimp only); (repeat' split) <;> simp [*]
@[simp] theorem State.sendBursts_frame (f : Nat) :
    (s.sendBursts f).pending = s.pending ∧ (s.sendBursts f).nrt = s.nrt ∧ (s.sendBursts f).fresh = s.fresh ∧ (s.sendBursts f).mem = s.mem ∧ (s.sendBursts f).host = s.host ∧ (s.sendBursts f).cmds = s.cmds ∧ (s.sendBursts f).net = s.net ∧ (s.sendBursts f).egress = s.egress ∧ (s.sendBursts f).kv = s.kv ∧ (s.sendBursts f).eng = s.eng ∧ (s.sendBursts f).lease = s.lease ∧ (s.sendBursts f).sec = s.sec ∧ (s.sendBursts f).fw = s.fw ∧ (s.sendBursts f).integ = s.integ ∧ (s.sendBursts f).ckpt = s.ckpt ∧ (s.sendBursts f).pw = s.pw := by
  unfold State.sendBursts; (try dsimp only); (repeat' split) <;> simp [*]
@[simp] theorem State.storeWrite_frame (j : Nat) (d idx unit : Nat) (obj : List Byte) :
    (s.storeWrite j d idx unit obj).pending = s.pending ∧ (s.storeWrite j d idx unit obj).nrt = s.nrt ∧ (s.storeWrite j d idx unit obj).fresh = s.fresh ∧ (s.storeWrite j d idx unit obj).mem = s.mem ∧ (s.storeWrite j d idx unit obj).rf = s.rf ∧ (s.storeWrite j d idx unit obj).host = s.host ∧ (s.storeWrite j d idx unit obj).cmds = s.cmds ∧ (s.storeWrite j d idx unit obj).egress = s.egress ∧ (s.storeWrite j d idx unit obj).kv = s.kv ∧ (s.storeWrite j d idx unit obj).eng = s.eng ∧ (s.storeWrite j d idx unit obj).lease = s.lease ∧ (s.storeWrite j d idx unit obj).sec = s.sec ∧ (s.storeWrite j d idx unit obj).fw = s.fw ∧ (s.storeWrite j d idx unit obj).integ = s.integ ∧ (s.storeWrite j d idx unit obj).ckpt = s.ckpt ∧ (s.storeWrite j d idx unit obj).pw = s.pw := by
  unfold State.storeWrite; (try dsimp only); (repeat' split) <;> simp [*]
@[simp] theorem State.storeFlush_frame (j : Nat) (d idx : Nat) :
    (s.storeFlush j d idx).pending = s.pending ∧ (s.storeFlush j d idx).nrt = s.nrt ∧ (s.storeFlush j d idx).fresh = s.fresh ∧ (s.storeFlush j d idx).mem = s.mem ∧ (s.storeFlush j d idx).rf = s.rf ∧ (s.storeFlush j d idx).host = s.host ∧ (s.storeFlush j d idx).cmds = s.cmds ∧ (s.storeFlush j d idx).egress = s.egress ∧ (s.storeFlush j d idx).kv = s.kv ∧ (s.storeFlush j d idx).eng = s.eng ∧ (s.storeFlush j d idx).lease = s.lease ∧ (s.storeFlush j d idx).sec = s.sec ∧ (s.storeFlush j d idx).fw = s.fw ∧ (s.storeFlush j d idx).integ = s.integ ∧ (s.storeFlush j d idx).ckpt = s.ckpt ∧ (s.storeFlush j d idx).pw = s.pw := by
  unfold State.storeFlush; (try dsimp only); (repeat' split) <;> simp [*]
@[simp] theorem State.markCkpt_frame (j : Job) (p : JobPage) :
    (s.markCkpt j p).pending = s.pending ∧ (s.markCkpt j p).nrt = s.nrt ∧ (s.markCkpt j p).fresh = s.fresh ∧ (s.markCkpt j p).mem = s.mem ∧ (s.markCkpt j p).rf = s.rf ∧ (s.markCkpt j p).host = s.host ∧ (s.markCkpt j p).cmds = s.cmds ∧ (s.markCkpt j p).net = s.net ∧ (s.markCkpt j p).egress = s.egress ∧ (s.markCkpt j p).eng = s.eng ∧ (s.markCkpt j p).lease = s.lease ∧ (s.markCkpt j p).sec = s.sec ∧ (s.markCkpt j p).fw = s.fw ∧ (s.markCkpt j p).integ = s.integ ∧ (s.markCkpt j p).ckpt = s.ckpt ∧ (s.markCkpt j p).pw = s.pw := by
  unfold State.markCkpt; (try dsimp only); (repeat' split) <;> simp [*]
@[simp] theorem State.releaseToStore_frame (d vpn f : Nat) :
    (s.releaseToStore d vpn f).pending = s.pending ∧ (s.releaseToStore d vpn f).nrt = s.nrt ∧ (s.releaseToStore d vpn f).fresh = s.fresh ∧ (s.releaseToStore d vpn f).mem = s.mem ∧ (s.releaseToStore d vpn f).cmds = s.cmds ∧ (s.releaseToStore d vpn f).net = s.net ∧ (s.releaseToStore d vpn f).egress = s.egress ∧ (s.releaseToStore d vpn f).eng = s.eng ∧ (s.releaseToStore d vpn f).lease = s.lease ∧ (s.releaseToStore d vpn f).sec = s.sec ∧ (s.releaseToStore d vpn f).fw = s.fw ∧ (s.releaseToStore d vpn f).integ = s.integ ∧ (s.releaseToStore d vpn f).ckpt = s.ckpt ∧ (s.releaseToStore d vpn f).pw = s.pw := by
  unfold State.releaseToStore; (try dsimp only); (repeat' split) <;> simp [*]
@[simp] theorem State.answerObject_frame (conn msgId status : Nat) :
    (s.answerObject conn msgId status).pending = s.pending ∧ (s.answerObject conn msgId status).nrt = s.nrt ∧ (s.answerObject conn msgId status).fresh = s.fresh ∧ (s.answerObject conn msgId status).mem = s.mem ∧ (s.answerObject conn msgId status).rf = s.rf ∧ (s.answerObject conn msgId status).host = s.host ∧ (s.answerObject conn msgId status).cmds = s.cmds ∧ (s.answerObject conn msgId status).egress = s.egress ∧ (s.answerObject conn msgId status).kv = s.kv ∧ (s.answerObject conn msgId status).eng = s.eng ∧ (s.answerObject conn msgId status).lease = s.lease ∧ (s.answerObject conn msgId status).sec = s.sec ∧ (s.answerObject conn msgId status).fw = s.fw ∧ (s.answerObject conn msgId status).integ = s.integ ∧ (s.answerObject conn msgId status).ckpt = s.ckpt ∧ (s.answerObject conn msgId status).pw = s.pw := by
  unfold State.answerObject; (try dsimp only); (repeat' split) <;> simp [*]
@[simp] theorem State.ackDelayed_frame (conn : Nat) :
    (s.ackDelayed conn).pending = s.pending ∧ (s.ackDelayed conn).nrt = s.nrt ∧ (s.ackDelayed conn).fresh = s.fresh ∧ (s.ackDelayed conn).mem = s.mem ∧ (s.ackDelayed conn).rf = s.rf ∧ (s.ackDelayed conn).host = s.host ∧ (s.ackDelayed conn).cmds = s.cmds ∧ (s.ackDelayed conn).egress = s.egress ∧ (s.ackDelayed conn).kv = s.kv ∧ (s.ackDelayed conn).eng = s.eng ∧ (s.ackDelayed conn).lease = s.lease ∧ (s.ackDelayed conn).sec = s.sec ∧ (s.ackDelayed conn).fw = s.fw ∧ (s.ackDelayed conn).integ = s.integ ∧ (s.ackDelayed conn).ckpt = s.ckpt ∧ (s.ackDelayed conn).pw = s.pw := by
  unfold State.ackDelayed; (try dsimp only); (repeat' split) <;> simp [*]
@[simp] theorem State.recvBusyIn_frame (conn msgId : Nat) (lane : Lane) (hintUs : Nat) :
    (s.recvBusyIn conn msgId lane hintUs).pending = s.pending ∧ (s.recvBusyIn conn msgId lane hintUs).nrt = s.nrt ∧ (s.recvBusyIn conn msgId lane hintUs).fresh = s.fresh ∧ (s.recvBusyIn conn msgId lane hintUs).mem = s.mem ∧ (s.recvBusyIn conn msgId lane hintUs).rf = s.rf ∧ (s.recvBusyIn conn msgId lane hintUs).host = s.host ∧ (s.recvBusyIn conn msgId lane hintUs).cmds = s.cmds ∧ (s.recvBusyIn conn msgId lane hintUs).egress = s.egress ∧ (s.recvBusyIn conn msgId lane hintUs).kv = s.kv ∧ (s.recvBusyIn conn msgId lane hintUs).eng = s.eng ∧ (s.recvBusyIn conn msgId lane hintUs).lease = s.lease ∧ (s.recvBusyIn conn msgId lane hintUs).sec = s.sec ∧ (s.recvBusyIn conn msgId lane hintUs).fw = s.fw ∧ (s.recvBusyIn conn msgId lane hintUs).integ = s.integ ∧ (s.recvBusyIn conn msgId lane hintUs).ckpt = s.ckpt ∧ (s.recvBusyIn conn msgId lane hintUs).pw = s.pw := by
  unfold State.recvBusyIn; (try dsimp only); (repeat' split) <;> simp [*]
@[simp] theorem State.reasmExpired_frame (conn msgId : Nat) (lane : Lane) :
    (s.reasmExpired conn msgId lane).pending = s.pending ∧ (s.reasmExpired conn msgId lane).nrt = s.nrt ∧ (s.reasmExpired conn msgId lane).fresh = s.fresh ∧ (s.reasmExpired conn msgId lane).mem = s.mem ∧ (s.reasmExpired conn msgId lane).host = s.host ∧ (s.reasmExpired conn msgId lane).cmds = s.cmds ∧ (s.reasmExpired conn msgId lane).egress = s.egress ∧ (s.reasmExpired conn msgId lane).kv = s.kv ∧ (s.reasmExpired conn msgId lane).eng = s.eng ∧ (s.reasmExpired conn msgId lane).lease = s.lease ∧ (s.reasmExpired conn msgId lane).sec = s.sec ∧ (s.reasmExpired conn msgId lane).fw = s.fw ∧ (s.reasmExpired conn msgId lane).integ = s.integ ∧ (s.reasmExpired conn msgId lane).ckpt = s.ckpt ∧ (s.reasmExpired conn msgId lane).pw = s.pw := by
  unfold State.reasmExpired; (try dsimp only); (repeat' split) <;> simp [*]
@[simp] theorem State.probeIn_frame (conn path : Nat) (src : Path) :
    (s.probeIn conn path src).pending = s.pending ∧ (s.probeIn conn path src).nrt = s.nrt ∧ (s.probeIn conn path src).fresh = s.fresh ∧ (s.probeIn conn path src).mem = s.mem ∧ (s.probeIn conn path src).rf = s.rf ∧ (s.probeIn conn path src).host = s.host ∧ (s.probeIn conn path src).cmds = s.cmds ∧ (s.probeIn conn path src).egress = s.egress ∧ (s.probeIn conn path src).kv = s.kv ∧ (s.probeIn conn path src).eng = s.eng ∧ (s.probeIn conn path src).lease = s.lease ∧ (s.probeIn conn path src).sec = s.sec ∧ (s.probeIn conn path src).fw = s.fw ∧ (s.probeIn conn path src).integ = s.integ ∧ (s.probeIn conn path src).ckpt = s.ckpt ∧ (s.probeIn conn path src).pw = s.pw := by
  unfold State.probeIn; (try dsimp only); (repeat' split) <;> simp [*]
@[simp] theorem State.probeAnswered_frame (conn path : Nat) :
    (s.probeAnswered conn path).pending = s.pending ∧ (s.probeAnswered conn path).nrt = s.nrt ∧ (s.probeAnswered conn path).fresh = s.fresh ∧ (s.probeAnswered conn path).mem = s.mem ∧ (s.probeAnswered conn path).rf = s.rf ∧ (s.probeAnswered conn path).host = s.host ∧ (s.probeAnswered conn path).cmds = s.cmds ∧ (s.probeAnswered conn path).egress = s.egress ∧ (s.probeAnswered conn path).kv = s.kv ∧ (s.probeAnswered conn path).eng = s.eng ∧ (s.probeAnswered conn path).lease = s.lease ∧ (s.probeAnswered conn path).sec = s.sec ∧ (s.probeAnswered conn path).fw = s.fw ∧ (s.probeAnswered conn path).integ = s.integ ∧ (s.probeAnswered conn path).ckpt = s.ckpt ∧ (s.probeAnswered conn path).pw = s.pw := by
  unfold State.probeAnswered; (try dsimp only); (repeat' split) <;> simp [*]
@[simp] theorem State.probeTick_frame (conn path : Nat) :
    (s.probeTick conn path).pending = s.pending ∧ (s.probeTick conn path).nrt = s.nrt ∧ (s.probeTick conn path).fresh = s.fresh ∧ (s.probeTick conn path).mem = s.mem ∧ (s.probeTick conn path).host = s.host ∧ (s.probeTick conn path).cmds = s.cmds ∧ (s.probeTick conn path).egress = s.egress ∧ (s.probeTick conn path).kv = s.kv ∧ (s.probeTick conn path).eng = s.eng ∧ (s.probeTick conn path).lease = s.lease ∧ (s.probeTick conn path).sec = s.sec ∧ (s.probeTick conn path).fw = s.fw ∧ (s.probeTick conn path).integ = s.integ ∧ (s.probeTick conn path).ckpt = s.ckpt ∧ (s.probeTick conn path).pw = s.pw := by
  unfold State.probeTick; (try dsimp only); (repeat' split) <;> simp [*]
@[simp] theorem State.sublinkLost_frame (port sub : Nat) :
    (s.sublinkLost port sub).pending = s.pending ∧ (s.sublinkLost port sub).nrt = s.nrt ∧ (s.sublinkLost port sub).fresh = s.fresh ∧ (s.sublinkLost port sub).mem = s.mem ∧ (s.sublinkLost port sub).cmds = s.cmds ∧ (s.sublinkLost port sub).egress = s.egress ∧ (s.sublinkLost port sub).kv = s.kv ∧ (s.sublinkLost port sub).eng = s.eng ∧ (s.sublinkLost port sub).lease = s.lease ∧ (s.sublinkLost port sub).sec = s.sec ∧ (s.sublinkLost port sub).fw = s.fw ∧ (s.sublinkLost port sub).integ = s.integ ∧ (s.sublinkLost port sub).ckpt = s.ckpt ∧ (s.sublinkLost port sub).pw = s.pw := by
  and_intros <;> (unfold State.sublinkLost; (try dsimp only); (repeat' split) <;>
    first | (simp [*]; done) | exact (State.foldl_keeps _ _ (by intros; (try dsimp only); (repeat' split) <;> simp [*]) _ _).trans (by simp [*]))
@[simp] theorem State.sublinkUp_frame (port sub : Nat) :
    (s.sublinkUp port sub).pending = s.pending ∧ (s.sublinkUp port sub).nrt = s.nrt ∧ (s.sublinkUp port sub).fresh = s.fresh ∧ (s.sublinkUp port sub).mem = s.mem ∧ (s.sublinkUp port sub).cmds = s.cmds ∧ (s.sublinkUp port sub).egress = s.egress ∧ (s.sublinkUp port sub).kv = s.kv ∧ (s.sublinkUp port sub).eng = s.eng ∧ (s.sublinkUp port sub).lease = s.lease ∧ (s.sublinkUp port sub).sec = s.sec ∧ (s.sublinkUp port sub).fw = s.fw ∧ (s.sublinkUp port sub).integ = s.integ ∧ (s.sublinkUp port sub).ckpt = s.ckpt ∧ (s.sublinkUp port sub).pw = s.pw := by
  unfold State.sublinkUp; (try dsimp only); (repeat' split) <;> simp [*]
@[simp] theorem State.closeIn_frame (conn : Nat) :
    (s.closeIn conn).pending = s.pending ∧ (s.closeIn conn).nrt = s.nrt ∧ (s.closeIn conn).fresh = s.fresh ∧ (s.closeIn conn).mem = s.mem ∧ (s.closeIn conn).rf = s.rf ∧ (s.closeIn conn).host = s.host ∧ (s.closeIn conn).cmds = s.cmds ∧ (s.closeIn conn).egress = s.egress ∧ (s.closeIn conn).kv = s.kv ∧ (s.closeIn conn).eng = s.eng ∧ (s.closeIn conn).lease = s.lease ∧ (s.closeIn conn).sec = s.sec ∧ (s.closeIn conn).fw = s.fw ∧ (s.closeIn conn).integ = s.integ ∧ (s.closeIn conn).ckpt = s.ckpt ∧ (s.closeIn conn).pw = s.pw := by
  unfold State.closeIn; (try dsimp only); (repeat' split) <;> simp [*]
@[simp] theorem State.startClose_frame (i : Nat) :
    (s.startClose i).pending = s.pending ∧ (s.startClose i).nrt = s.nrt ∧ (s.startClose i).fresh = s.fresh ∧ (s.startClose i).mem = s.mem ∧ (s.startClose i).rf = s.rf ∧ (s.startClose i).host = s.host ∧ (s.startClose i).cmds = s.cmds ∧ (s.startClose i).egress = s.egress ∧ (s.startClose i).kv = s.kv ∧ (s.startClose i).eng = s.eng ∧ (s.startClose i).lease = s.lease ∧ (s.startClose i).sec = s.sec ∧ (s.startClose i).fw = s.fw ∧ (s.startClose i).integ = s.integ ∧ (s.startClose i).ckpt = s.ckpt ∧ (s.startClose i).pw = s.pw := by
  unfold State.startClose; (try dsimp only); (repeat' split) <;> simp [*]
@[simp] theorem State.unpinTodo_frame (i : Nat) :
    (s.unpinTodo i).pending = s.pending ∧ (s.unpinTodo i).nrt = s.nrt ∧ (s.unpinTodo i).fresh = s.fresh ∧ (s.unpinTodo i).mem = s.mem ∧ (s.unpinTodo i).cmds = s.cmds ∧ (s.unpinTodo i).net = s.net ∧ (s.unpinTodo i).egress = s.egress ∧ (s.unpinTodo i).lease = s.lease ∧ (s.unpinTodo i).sec = s.sec ∧ (s.unpinTodo i).fw = s.fw ∧ (s.unpinTodo i).integ = s.integ ∧ (s.unpinTodo i).ckpt = s.ckpt ∧ (s.unpinTodo i).pw = s.pw := by
  and_intros <;> (unfold State.unpinTodo; (try dsimp only); (repeat' split) <;>
    first | (simp [*]; done) | exact (State.foldl_keeps _ _ (by intros; (try dsimp only); (repeat' split) <;> simp [*]) _ _).trans (by simp [*]))
@[simp] theorem State.dropFrags_frame (i : Nat) (now : Bool) :
    (s.dropFrags i now).pending = s.pending ∧ (s.dropFrags i now).nrt = s.nrt ∧ (s.dropFrags i now).fresh = s.fresh ∧ (s.dropFrags i now).mem = s.mem ∧ (s.dropFrags i now).cmds = s.cmds ∧ (s.dropFrags i now).net = s.net ∧ (s.dropFrags i now).egress = s.egress ∧ (s.dropFrags i now).lease = s.lease ∧ (s.dropFrags i now).sec = s.sec ∧ (s.dropFrags i now).fw = s.fw ∧ (s.dropFrags i now).integ = s.integ ∧ (s.dropFrags i now).ckpt = s.ckpt ∧ (s.dropFrags i now).pw = s.pw := by
  and_intros <;> (unfold State.dropFrags; (try dsimp only); (repeat' split) <;>
    first | (simp [*]; done) | exact (State.foldl_keeps _ _ (by intros; (try dsimp only); (repeat' split) <;> simp [*]) _ _).trans (by simp [*]))
@[simp] theorem State.abortNotices_frame (d : Nat) (tag : Word) :
    (s.abortNotices d tag).pending = s.pending ∧ (s.abortNotices d tag).nrt = s.nrt ∧ (s.abortNotices d tag).fresh = s.fresh ∧ (s.abortNotices d tag).mem = s.mem ∧ (s.abortNotices d tag).rf = s.rf ∧ (s.abortNotices d tag).host = s.host ∧ (s.abortNotices d tag).cmds = s.cmds ∧ (s.abortNotices d tag).egress = s.egress ∧ (s.abortNotices d tag).kv = s.kv ∧ (s.abortNotices d tag).eng = s.eng ∧ (s.abortNotices d tag).lease = s.lease ∧ (s.abortNotices d tag).sec = s.sec ∧ (s.abortNotices d tag).fw = s.fw ∧ (s.abortNotices d tag).integ = s.integ ∧ (s.abortNotices d tag).ckpt = s.ckpt ∧ (s.abortNotices d tag).pw = s.pw := by
  and_intros <;> (unfold State.abortNotices; (try dsimp only); (repeat' split) <;>
    first | (simp [*]; done) | exact (State.foldl_keeps _ _ (by intros; (try dsimp only); (repeat' split) <;> simp [*]) _ _).trans (by simp [*]))
@[simp] theorem State.settleFence_frame (c : Cmd) :
    (s.settleFence c).pending = s.pending ∧ (s.settleFence c).nrt = s.nrt ∧ (s.settleFence c).fresh = s.fresh ∧ (s.settleFence c).egress = s.egress ∧ (s.settleFence c).kv = s.kv ∧ (s.settleFence c).eng = s.eng ∧ (s.settleFence c).lease = s.lease ∧ (s.settleFence c).sec = s.sec ∧ (s.settleFence c).fw = s.fw ∧ (s.settleFence c).integ = s.integ ∧ (s.settleFence c).ckpt = s.ckpt ∧ (s.settleFence c).pw = s.pw := by
  unfold State.settleFence; (try dsimp only); (repeat' split) <;> simp [*]
@[simp] theorem State.putEgQueue_frame (p b q : Nat) (x : EgQueue) :
    (s.putEgQueue p b q x).pending = s.pending ∧ (s.putEgQueue p b q x).nrt = s.nrt ∧ (s.putEgQueue p b q x).fresh = s.fresh ∧ (s.putEgQueue p b q x).mem = s.mem ∧ (s.putEgQueue p b q x).rf = s.rf ∧ (s.putEgQueue p b q x).host = s.host ∧ (s.putEgQueue p b q x).cmds = s.cmds ∧ (s.putEgQueue p b q x).net = s.net ∧ (s.putEgQueue p b q x).kv = s.kv ∧ (s.putEgQueue p b q x).eng = s.eng ∧ (s.putEgQueue p b q x).lease = s.lease ∧ (s.putEgQueue p b q x).sec = s.sec ∧ (s.putEgQueue p b q x).fw = s.fw ∧ (s.putEgQueue p b q x).integ = s.integ ∧ (s.putEgQueue p b q x).ckpt = s.ckpt ∧ (s.putEgQueue p b q x).pw = s.pw := by
  unfold State.putEgQueue; (try dsimp only); (repeat' split) <;> simp [*]
@[simp] theorem State.putEgSub_frame (p b : Nat) (x : SubState) :
    (s.putEgSub p b x).pending = s.pending ∧ (s.putEgSub p b x).nrt = s.nrt ∧ (s.putEgSub p b x).fresh = s.fresh ∧ (s.putEgSub p b x).mem = s.mem ∧ (s.putEgSub p b x).rf = s.rf ∧ (s.putEgSub p b x).host = s.host ∧ (s.putEgSub p b x).cmds = s.cmds ∧ (s.putEgSub p b x).net = s.net ∧ (s.putEgSub p b x).kv = s.kv ∧ (s.putEgSub p b x).eng = s.eng ∧ (s.putEgSub p b x).lease = s.lease ∧ (s.putEgSub p b x).sec = s.sec ∧ (s.putEgSub p b x).fw = s.fw ∧ (s.putEgSub p b x).integ = s.integ ∧ (s.putEgSub p b x).ckpt = s.ckpt ∧ (s.putEgSub p b x).pw = s.pw := by
  unfold State.putEgSub; (try dsimp only); (repeat' split) <;> simp [*]
@[simp] theorem State.enqueue_frame (p b q : Nat) (k : EgPkt) :
    (s.enqueue p b q k).pending = s.pending ∧ (s.enqueue p b q k).nrt = s.nrt ∧ (s.enqueue p b q k).fresh = s.fresh ∧ (s.enqueue p b q k).mem = s.mem ∧ (s.enqueue p b q k).rf = s.rf ∧ (s.enqueue p b q k).host = s.host ∧ (s.enqueue p b q k).cmds = s.cmds ∧ (s.enqueue p b q k).net = s.net ∧ (s.enqueue p b q k).kv = s.kv ∧ (s.enqueue p b q k).eng = s.eng ∧ (s.enqueue p b q k).lease = s.lease ∧ (s.enqueue p b q k).sec = s.sec ∧ (s.enqueue p b q k).fw = s.fw ∧ (s.enqueue p b q k).integ = s.integ ∧ (s.enqueue p b q k).ckpt = s.ckpt ∧ (s.enqueue p b q k).pw = s.pw := by
  unfold State.enqueue; (try dsimp only); (repeat' split) <;> simp [*]
@[simp] theorem State.pacerRelease_frame (conn : Nat) :
    (s.pacerRelease conn).pending = s.pending ∧ (s.pacerRelease conn).nrt = s.nrt ∧ (s.pacerRelease conn).fresh = s.fresh ∧ (s.pacerRelease conn).mem = s.mem ∧ (s.pacerRelease conn).host = s.host ∧ (s.pacerRelease conn).cmds = s.cmds ∧ (s.pacerRelease conn).kv = s.kv ∧ (s.pacerRelease conn).eng = s.eng ∧ (s.pacerRelease conn).lease = s.lease ∧ (s.pacerRelease conn).sec = s.sec ∧ (s.pacerRelease conn).fw = s.fw ∧ (s.pacerRelease conn).integ = s.integ ∧ (s.pacerRelease conn).ckpt = s.ckpt ∧ (s.pacerRelease conn).pw = s.pw := by
  and_intros <;> (unfold State.pacerRelease; (try dsimp only); (repeat' split) <;>
    first | (simp [*]; done) | exact (State.foldl_keeps _ _ (by intros; (try dsimp only); (repeat' split) <;> simp [*]) _ _).trans (by simp [*]))
@[simp] theorem State.ctlSent_frame (conn : Nat) (p : CtlPkt) :
    (s.ctlSent conn p).pending = s.pending ∧ (s.ctlSent conn p).nrt = s.nrt ∧ (s.ctlSent conn p).fresh = s.fresh ∧ (s.ctlSent conn p).mem = s.mem ∧ (s.ctlSent conn p).rf = s.rf ∧ (s.ctlSent conn p).host = s.host ∧ (s.ctlSent conn p).cmds = s.cmds ∧ (s.ctlSent conn p).egress = s.egress ∧ (s.ctlSent conn p).kv = s.kv ∧ (s.ctlSent conn p).eng = s.eng ∧ (s.ctlSent conn p).lease = s.lease ∧ (s.ctlSent conn p).sec = s.sec ∧ (s.ctlSent conn p).fw = s.fw ∧ (s.ctlSent conn p).integ = s.integ ∧ (s.ctlSent conn p).ckpt = s.ckpt ∧ (s.ctlSent conn p).pw = s.pw := by
  unfold State.ctlSent; (try dsimp only); (repeat' split) <;> simp [*]
@[simp] theorem State.transmit_frame (p b n : Nat) (h : NetHead) (f : WireFrame) :
    (s.transmit p b n h f).pending = s.pending ∧ (s.transmit p b n h f).nrt = s.nrt ∧ (s.transmit p b n h f).fresh = s.fresh ∧ (s.transmit p b n h f).mem = s.mem ∧ (s.transmit p b n h f).host = s.host ∧ (s.transmit p b n h f).cmds = s.cmds ∧ (s.transmit p b n h f).net = s.net ∧ (s.transmit p b n h f).kv = s.kv ∧ (s.transmit p b n h f).eng = s.eng ∧ (s.transmit p b n h f).lease = s.lease ∧ (s.transmit p b n h f).sec = s.sec ∧ (s.transmit p b n h f).fw = s.fw ∧ (s.transmit p b n h f).integ = s.integ ∧ (s.transmit p b n h f).ckpt = s.ckpt ∧ (s.transmit p b n h f).pw = s.pw := by
  unfold State.transmit; (try dsimp only); (repeat' split) <;> simp [*]
@[simp] theorem State.rebase_frame (p b : Nat) :
    (s.rebase p b).pending = s.pending ∧ (s.rebase p b).nrt = s.nrt ∧ (s.rebase p b).fresh = s.fresh ∧ (s.rebase p b).kv = s.kv ∧ (s.rebase p b).eng = s.eng ∧ (s.rebase p b).lease = s.lease ∧ (s.rebase p b).sec = s.sec ∧ (s.rebase p b).fw = s.fw ∧ (s.rebase p b).integ = s.integ ∧ (s.rebase p b).ckpt = s.ckpt ∧ (s.rebase p b).pw = s.pw := by
  unfold State.rebase; (try dsimp only); (repeat' split) <;> simp [*]
@[simp] theorem State.sendHead_frame (p b q : Nat) (k : EgPkt) (lc demoted : Bool) :
    (s.sendHead p b q k lc demoted).pending = s.pending ∧ (s.sendHead p b q k lc demoted).nrt = s.nrt ∧ (s.sendHead p b q k lc demoted).fresh = s.fresh ∧ (s.sendHead p b q k lc demoted).mem = s.mem ∧ (s.sendHead p b q k lc demoted).host = s.host ∧ (s.sendHead p b q k lc demoted).cmds = s.cmds ∧ (s.sendHead p b q k lc demoted).net = s.net ∧ (s.sendHead p b q k lc demoted).kv = s.kv ∧ (s.sendHead p b q k lc demoted).eng = s.eng ∧ (s.sendHead p b q k lc demoted).lease = s.lease ∧ (s.sendHead p b q k lc demoted).sec = s.sec ∧ (s.sendHead p b q k lc demoted).fw = s.fw ∧ (s.sendHead p b q k lc demoted).integ = s.integ ∧ (s.sendHead p b q k lc demoted).ckpt = s.ckpt ∧ (s.sendHead p b q k lc demoted).pw = s.pw := by
  unfold State.sendHead; (try dsimp only); (repeat' split) <;> simp [*]
@[simp] theorem State.egressSelect_frame (p b : Nat) :
    (s.egressSelect p b).pending = s.pending ∧ (s.egressSelect p b).nrt = s.nrt ∧ (s.egressSelect p b).fresh = s.fresh ∧ (s.egressSelect p b).kv = s.kv ∧ (s.egressSelect p b).eng = s.eng ∧ (s.egressSelect p b).lease = s.lease ∧ (s.egressSelect p b).sec = s.sec ∧ (s.egressSelect p b).fw = s.fw ∧ (s.egressSelect p b).integ = s.integ ∧ (s.egressSelect p b).ckpt = s.ckpt ∧ (s.egressSelect p b).pw = s.pw := by
  unfold State.egressSelect; (try dsimp only); (repeat' split) <;> simp [*]
@[simp] theorem State.refillSub_frame (p b : Nat) :
    (s.refillSub p b).pending = s.pending ∧ (s.refillSub p b).nrt = s.nrt ∧ (s.refillSub p b).fresh = s.fresh ∧ (s.refillSub p b).mem = s.mem ∧ (s.refillSub p b).host = s.host ∧ (s.refillSub p b).cmds = s.cmds ∧ (s.refillSub p b).net = s.net ∧ (s.refillSub p b).kv = s.kv ∧ (s.refillSub p b).eng = s.eng ∧ (s.refillSub p b).lease = s.lease ∧ (s.refillSub p b).sec = s.sec ∧ (s.refillSub p b).fw = s.fw ∧ (s.refillSub p b).integ = s.integ ∧ (s.refillSub p b).ckpt = s.ckpt ∧ (s.refillSub p b).pw = s.pw := by
  unfold State.refillSub; (try dsimp only); split <;> simp [*]
@[simp] theorem State.refillPort_frame (p : Nat) :
    (s.refillPort p).pending = s.pending ∧ (s.refillPort p).nrt = s.nrt ∧ (s.refillPort p).fresh = s.fresh ∧ (s.refillPort p).mem = s.mem ∧ (s.refillPort p).host = s.host ∧ (s.refillPort p).cmds = s.cmds ∧ (s.refillPort p).net = s.net ∧ (s.refillPort p).kv = s.kv ∧ (s.refillPort p).eng = s.eng ∧ (s.refillPort p).lease = s.lease ∧ (s.refillPort p).sec = s.sec ∧ (s.refillPort p).fw = s.fw ∧ (s.refillPort p).integ = s.integ ∧ (s.refillPort p).ckpt = s.ckpt ∧ (s.refillPort p).pw = s.pw := by
  unfold State.refillPort; (try dsimp only)
  and_intros <;> exact (State.foldl_keeps _ _ (by intros; simp) _ _).trans (by simp [*])
@[simp] theorem State.creditRefill_frame :
    (s.creditRefill).pending = s.pending ∧ (s.creditRefill).nrt = s.nrt ∧ (s.creditRefill).fresh = s.fresh ∧ (s.creditRefill).mem = s.mem ∧ (s.creditRefill).host = s.host ∧ (s.creditRefill).cmds = s.cmds ∧ (s.creditRefill).net = s.net ∧ (s.creditRefill).kv = s.kv ∧ (s.creditRefill).eng = s.eng ∧ (s.creditRefill).lease = s.lease ∧ (s.creditRefill).sec = s.sec ∧ (s.creditRefill).fw = s.fw ∧ (s.creditRefill).integ = s.integ ∧ (s.creditRefill).ckpt = s.ckpt ∧ (s.creditRefill).pw = s.pw := by
  and_intros <;> (unfold State.creditRefill; (try dsimp only); (repeat' split) <;>
    first | (simp [*]; done) | exact (State.foldl_keeps _ _ (by intros; (try dsimp only); (repeat' split) <;> simp [*]) _ _).trans (by simp [*]))
@[simp] theorem State.policeRefused_frame (d : Nat) :
    (s.policeRefused d).pending = s.pending ∧ (s.policeRefused d).nrt = s.nrt ∧ (s.policeRefused d).fresh = s.fresh ∧ (s.policeRefused d).mem = s.mem ∧ (s.policeRefused d).cmds = s.cmds ∧ (s.policeRefused d).net = s.net ∧ (s.policeRefused d).egress = s.egress ∧ (s.policeRefused d).kv = s.kv ∧ (s.policeRefused d).eng = s.eng ∧ (s.policeRefused d).lease = s.lease ∧ (s.policeRefused d).sec = s.sec ∧ (s.policeRefused d).fw = s.fw ∧ (s.policeRefused d).integ = s.integ ∧ (s.policeRefused d).ckpt = s.ckpt ∧ (s.policeRefused d).pw = s.pw := by
  unfold State.policeRefused; (try dsimp only); (repeat' split) <;> simp [*]
@[simp] theorem State.policeTake_frame (d n : Nat) :
    (s.policeTake d n).pending = s.pending ∧ (s.policeTake d n).nrt = s.nrt ∧ (s.policeTake d n).fresh = s.fresh ∧ (s.policeTake d n).mem = s.mem ∧ (s.policeTake d n).host = s.host ∧ (s.policeTake d n).cmds = s.cmds ∧ (s.policeTake d n).net = s.net ∧ (s.policeTake d n).kv = s.kv ∧ (s.policeTake d n).eng = s.eng ∧ (s.policeTake d n).lease = s.lease ∧ (s.policeTake d n).sec = s.sec ∧ (s.policeTake d n).fw = s.fw ∧ (s.policeTake d n).integ = s.integ ∧ (s.policeTake d n).ckpt = s.ckpt ∧ (s.policeTake d n).pw = s.pw := by
  unfold State.policeTake; (try dsimp only); (repeat' split) <;> simp [*]
@[simp] theorem State.leaveTile_frame (t i : Nat) :
    (s.leaveTile t i).pending = s.pending ∧ (s.leaveTile t i).nrt = s.nrt ∧ (s.leaveTile t i).fresh = s.fresh ∧ (s.leaveTile t i).mem = s.mem ∧ (s.leaveTile t i).cmds = s.cmds ∧ (s.leaveTile t i).net = s.net ∧ (s.leaveTile t i).egress = s.egress ∧ (s.leaveTile t i).lease = s.lease ∧ (s.leaveTile t i).sec = s.sec ∧ (s.leaveTile t i).fw = s.fw ∧ (s.leaveTile t i).integ = s.integ ∧ (s.leaveTile t i).ckpt = s.ckpt ∧ (s.leaveTile t i).pw = s.pw := by
  and_intros <;> (unfold State.leaveTile; (try dsimp only); (repeat' split) <;>
    first | (simp [*]; done) | exact (State.foldl_keeps _ _ (by intros; (try dsimp only); (repeat' split) <;> simp [*]) _ _).trans (by simp [*]))
@[simp] theorem State.fencePort_frame (n : Nat) :
    (s.fencePort n).pending = s.pending ∧ (s.fencePort n).nrt = s.nrt ∧ (s.fencePort n).fresh = s.fresh ∧ (s.fencePort n).mem = s.mem ∧ (s.fencePort n).cmds = s.cmds ∧ (s.fencePort n).egress = s.egress ∧ (s.fencePort n).kv = s.kv ∧ (s.fencePort n).eng = s.eng ∧ (s.fencePort n).lease = s.lease ∧ (s.fencePort n).sec = s.sec ∧ (s.fencePort n).fw = s.fw ∧ (s.fencePort n).integ = s.integ ∧ (s.fencePort n).ckpt = s.ckpt ∧ (s.fencePort n).pw = s.pw := by
  unfold State.fencePort; (try dsimp only); (repeat' split) <;> simp [*]
@[simp] theorem State.abandoned_frame (z0 : Abandoned) :
    (s.abandoned z0).pending = s.pending ∧ (s.abandoned z0).nrt = s.nrt ∧ (s.abandoned z0).fresh = s.fresh ∧ (s.abandoned z0).mem = s.mem ∧ (s.abandoned z0).cmds = s.cmds ∧ (s.abandoned z0).net = s.net ∧ (s.abandoned z0).egress = s.egress ∧ (s.abandoned z0).kv = s.kv ∧ (s.abandoned z0).eng = s.eng ∧ (s.abandoned z0).lease = s.lease ∧ (s.abandoned z0).sec = s.sec ∧ (s.abandoned z0).fw = s.fw ∧ (s.abandoned z0).integ = s.integ ∧ (s.abandoned z0).ckpt = s.ckpt ∧ (s.abandoned z0).pw = s.pw := by
  unfold State.abandoned; (try dsimp only); (repeat' split) <;> simp [*]
@[simp] theorem State.extend_frame (n : Word) (at' : Nat × Nat) :
    (s.extend n at').pending = s.pending ∧ (s.extend n at').nrt = s.nrt ∧ (s.extend n at').fresh = s.fresh ∧ (s.extend n at').mem = s.mem ∧ (s.extend n at').rf = s.rf ∧ (s.extend n at').host = s.host ∧ (s.extend n at').cmds = s.cmds ∧ (s.extend n at').net = s.net ∧ (s.extend n at').egress = s.egress ∧ (s.extend n at').kv = s.kv ∧ (s.extend n at').eng = s.eng ∧ (s.extend n at').sec = s.sec ∧ (s.extend n at').fw = s.fw ∧ (s.extend n at').integ = s.integ ∧ (s.extend n at').ckpt = s.ckpt ∧ (s.extend n at').pw = s.pw := by
  unfold State.extend; (try dsimp only); (repeat' split) <;> simp [*]
@[simp] theorem State.closeBound_frame (f : Nat → Bool) :
    (s.closeBound f).pending = s.pending ∧ (s.closeBound f).nrt = s.nrt ∧ (s.closeBound f).fresh = s.fresh ∧ (s.closeBound f).mem = s.mem ∧ (s.closeBound f).rf = s.rf ∧ (s.closeBound f).host = s.host ∧ (s.closeBound f).cmds = s.cmds ∧ (s.closeBound f).egress = s.egress ∧ (s.closeBound f).kv = s.kv ∧ (s.closeBound f).eng = s.eng ∧ (s.closeBound f).lease = s.lease ∧ (s.closeBound f).sec = s.sec ∧ (s.closeBound f).fw = s.fw ∧ (s.closeBound f).integ = s.integ ∧ (s.closeBound f).ckpt = s.ckpt ∧ (s.closeBound f).pw = s.pw := by
  and_intros <;> (unfold State.closeBound; (try dsimp only); (repeat' split) <;>
    first | (simp [*]; done) | exact (State.foldl_keeps _ _ (by intros; (try dsimp only); (repeat' split) <;> simp [*]) _ _).trans (by simp [*]))
@[simp] theorem State.unfence_frame :
    (s.unfence).pending = s.pending ∧ (s.unfence).nrt = s.nrt ∧ (s.unfence).fresh = s.fresh ∧ (s.unfence).mem = s.mem ∧ (s.unfence).rf = s.rf ∧ (s.unfence).host = s.host ∧ (s.unfence).cmds = s.cmds ∧ (s.unfence).net = s.net ∧ (s.unfence).egress = s.egress ∧ (s.unfence).kv = s.kv ∧ (s.unfence).eng = s.eng ∧ (s.unfence).sec = s.sec ∧ (s.unfence).fw = s.fw ∧ (s.unfence).integ = s.integ ∧ (s.unfence).ckpt = s.ckpt ∧ (s.unfence).pw = s.pw := by
  unfold State.unfence; (try dsimp only); (repeat' split) <;> simp [*]
@[simp] theorem State.leaseLow_frame :
    (s.leaseLow).pending = s.pending ∧ (s.leaseLow).nrt = s.nrt ∧ (s.leaseLow).fresh = s.fresh ∧ (s.leaseLow).mem = s.mem ∧ (s.leaseLow).cmds = s.cmds ∧ (s.leaseLow).net = s.net ∧ (s.leaseLow).egress = s.egress ∧ (s.leaseLow).kv = s.kv ∧ (s.leaseLow).eng = s.eng ∧ (s.leaseLow).sec = s.sec ∧ (s.leaseLow).fw = s.fw ∧ (s.leaseLow).integ = s.integ ∧ (s.leaseLow).ckpt = s.ckpt ∧ (s.leaseLow).pw = s.pw := by
  unfold State.leaseLow; (try dsimp only); (repeat' split) <;> simp [*]
@[simp] theorem State.graceEnd_frame :
    (s.graceEnd).pending = s.pending ∧ (s.graceEnd).nrt = s.nrt ∧ (s.graceEnd).fresh = s.fresh ∧ (s.graceEnd).mem = s.mem ∧ (s.graceEnd).cmds = s.cmds ∧ (s.graceEnd).net = s.net ∧ (s.graceEnd).egress = s.egress ∧ (s.graceEnd).kv = s.kv ∧ (s.graceEnd).eng = s.eng ∧ (s.graceEnd).sec = s.sec ∧ (s.graceEnd).fw = s.fw ∧ (s.graceEnd).integ = s.integ ∧ (s.graceEnd).ckpt = s.ckpt ∧ (s.graceEnd).pw = s.pw := by
  unfold State.graceEnd; (try dsimp only); (repeat' split) <;> simp [*]
@[simp] theorem State.countIn_frame (z0 : Source) :
    (s.countIn z0).pending = s.pending ∧ (s.countIn z0).nrt = s.nrt ∧ (s.countIn z0).fresh = s.fresh ∧ (s.countIn z0).mem = s.mem ∧ (s.countIn z0).rf = s.rf ∧ (s.countIn z0).cmds = s.cmds ∧ (s.countIn z0).net = s.net ∧ (s.countIn z0).egress = s.egress ∧ (s.countIn z0).kv = s.kv ∧ (s.countIn z0).eng = s.eng ∧ (s.countIn z0).lease = s.lease ∧ (s.countIn z0).sec = s.sec ∧ (s.countIn z0).fw = s.fw ∧ (s.countIn z0).integ = s.integ ∧ (s.countIn z0).ckpt = s.ckpt ∧ (s.countIn z0).pw = s.pw := by
  unfold State.countIn; (try dsimp only); (repeat' split) <;> simp [*]
@[simp] theorem State.taken_frame (q : Req) (op : Op) (len : Nat) (c : Cmd) :
    (s.taken q op len c).pending = s.pending ∧ (s.taken q op len c).nrt = s.nrt ∧ (s.taken q op len c).fresh = s.fresh ∧ (s.taken q op len c).mem = s.mem ∧ (s.taken q op len c).net = s.net ∧ (s.taken q op len c).kv = s.kv ∧ (s.taken q op len c).eng = s.eng ∧ (s.taken q op len c).lease = s.lease ∧ (s.taken q op len c).sec = s.sec ∧ (s.taken q op len c).fw = s.fw ∧ (s.taken q op len c).integ = s.integ ∧ (s.taken q op len c).ckpt = s.ckpt ∧ (s.taken q op len c).pw = s.pw := by
  unfold State.taken; (try dsimp only); (repeat' split) <;> simp [*]
@[simp] theorem State.turnAway_frame (q : Req) (op : Op) (status c0 : Nat) (policed : Bool) :
    (s.turnAway q op status c0 policed).pending = s.pending ∧ (s.turnAway q op status c0 policed).nrt = s.nrt ∧ (s.turnAway q op status c0 policed).fresh = s.fresh ∧ (s.turnAway q op status c0 policed).cmds = s.cmds ∧ (s.turnAway q op status c0 policed).egress = s.egress ∧ (s.turnAway q op status c0 policed).kv = s.kv ∧ (s.turnAway q op status c0 policed).eng = s.eng ∧ (s.turnAway q op status c0 policed).lease = s.lease ∧ (s.turnAway q op status c0 policed).sec = s.sec ∧ (s.turnAway q op status c0 policed).fw = s.fw ∧ (s.turnAway q op status c0 policed).integ = s.integ ∧ (s.turnAway q op status c0 policed).ckpt = s.ckpt ∧ (s.turnAway q op status c0 policed).pw = s.pw := by
  unfold State.turnAway; (try dsimp only); (repeat' split) <;> simp [*]
@[simp] theorem State.reportResign_frame :
    (s.reportResign).pending = s.pending ∧ (s.reportResign).nrt = s.nrt ∧ (s.reportResign).fresh = s.fresh ∧ (s.reportResign).mem = s.mem ∧ (s.reportResign).rf = s.rf ∧ (s.reportResign).host = s.host ∧ (s.reportResign).cmds = s.cmds ∧ (s.reportResign).net = s.net ∧ (s.reportResign).egress = s.egress ∧ (s.reportResign).kv = s.kv ∧ (s.reportResign).eng = s.eng ∧ (s.reportResign).lease = s.lease ∧ (s.reportResign).fw = s.fw ∧ (s.reportResign).integ = s.integ ∧ (s.reportResign).ckpt = s.ckpt ∧ (s.reportResign).pw = s.pw := by
  unfold State.reportResign; (try dsimp only); (repeat' split) <;> simp [*]
@[simp] theorem State.flushHead_frame :
    (s.flushHead).pending = s.pending ∧ (s.flushHead).nrt = s.nrt ∧ (s.flushHead).fresh = s.fresh ∧ (s.flushHead).mem = s.mem ∧ (s.flushHead).rf = s.rf ∧ (s.flushHead).host = s.host ∧ (s.flushHead).cmds = s.cmds ∧ (s.flushHead).net = s.net ∧ (s.flushHead).egress = s.egress ∧ (s.flushHead).kv = s.kv ∧ (s.flushHead).eng = s.eng ∧ (s.flushHead).lease = s.lease ∧ (s.flushHead).fw = s.fw ∧ (s.flushHead).integ = s.integ ∧ (s.flushHead).ckpt = s.ckpt ∧ (s.flushHead).pw = s.pw := by
  unfold State.flushHead; (try dsimp only); (repeat' split) <;> simp [*]
@[simp] theorem State.auditHeadFlush_frame :
    (s.auditHeadFlush).pending = s.pending ∧ (s.auditHeadFlush).nrt = s.nrt ∧ (s.auditHeadFlush).fresh = s.fresh ∧ (s.auditHeadFlush).mem = s.mem ∧ (s.auditHeadFlush).rf = s.rf ∧ (s.auditHeadFlush).host = s.host ∧ (s.auditHeadFlush).cmds = s.cmds ∧ (s.auditHeadFlush).net = s.net ∧ (s.auditHeadFlush).egress = s.egress ∧ (s.auditHeadFlush).kv = s.kv ∧ (s.auditHeadFlush).eng = s.eng ∧ (s.auditHeadFlush).lease = s.lease ∧ (s.auditHeadFlush).fw = s.fw ∧ (s.auditHeadFlush).integ = s.integ ∧ (s.auditHeadFlush).ckpt = s.ckpt ∧ (s.auditHeadFlush).pw = s.pw := by
  unfold State.auditHeadFlush; (try dsimp only); (repeat' split) <;> simp [*]
@[simp] theorem State.setDebug_frame (bit agent : Nat) :
    (s.setDebug bit agent).pending = s.pending ∧ (s.setDebug bit agent).nrt = s.nrt ∧ (s.setDebug bit agent).fresh = s.fresh ∧ (s.setDebug bit agent).mem = s.mem ∧ (s.setDebug bit agent).cmds = s.cmds ∧ (s.setDebug bit agent).net = s.net ∧ (s.setDebug bit agent).egress = s.egress ∧ (s.setDebug bit agent).kv = s.kv ∧ (s.setDebug bit agent).eng = s.eng ∧ (s.setDebug bit agent).lease = s.lease ∧ (s.setDebug bit agent).fw = s.fw ∧ (s.setDebug bit agent).integ = s.integ ∧ (s.setDebug bit agent).ckpt = s.ckpt ∧ (s.setDebug bit agent).pw = s.pw := by
  unfold State.setDebug; (try dsimp only); (repeat' split) <;> simp [*]
@[simp] theorem State.trngFail_frame (test : Nat) :
    (s.trngFail test).pending = s.pending ∧ (s.trngFail test).nrt = s.nrt ∧ (s.trngFail test).fresh = s.fresh ∧ (s.trngFail test).mem = s.mem ∧ (s.trngFail test).cmds = s.cmds ∧ (s.trngFail test).net = s.net ∧ (s.trngFail test).egress = s.egress ∧ (s.trngFail test).kv = s.kv ∧ (s.trngFail test).eng = s.eng ∧ (s.trngFail test).lease = s.lease ∧ (s.trngFail test).fw = s.fw ∧ (s.trngFail test).integ = s.integ ∧ (s.trngFail test).ckpt = s.ckpt ∧ (s.trngFail test).pw = s.pw := by
  unfold State.trngFail; (try dsimp only); (repeat' split) <;> simp [*]
@[simp] theorem State.closeGrant_frame (g agent : Nat) :
    (s.closeGrant g agent).pending = s.pending ∧ (s.closeGrant g agent).nrt = s.nrt ∧ (s.closeGrant g agent).fresh = s.fresh ∧ (s.closeGrant g agent).mem = s.mem ∧ (s.closeGrant g agent).cmds = s.cmds ∧ (s.closeGrant g agent).net = s.net ∧ (s.closeGrant g agent).egress = s.egress ∧ (s.closeGrant g agent).kv = s.kv ∧ (s.closeGrant g agent).eng = s.eng ∧ (s.closeGrant g agent).lease = s.lease ∧ (s.closeGrant g agent).fw = s.fw ∧ (s.closeGrant g agent).integ = s.integ ∧ (s.closeGrant g agent).ckpt = s.ckpt ∧ (s.closeGrant g agent).pw = s.pw := by
  unfold State.closeGrant; (try dsimp only); (repeat' split) <;> simp [*]
@[simp] theorem State.closeGrants_frame (agent : Nat) :
    (s.closeGrants agent).pending = s.pending ∧ (s.closeGrants agent).nrt = s.nrt ∧ (s.closeGrants agent).fresh = s.fresh ∧ (s.closeGrants agent).mem = s.mem ∧ (s.closeGrants agent).cmds = s.cmds ∧ (s.closeGrants agent).net = s.net ∧ (s.closeGrants agent).egress = s.egress ∧ (s.closeGrants agent).kv = s.kv ∧ (s.closeGrants agent).eng = s.eng ∧ (s.closeGrants agent).lease = s.lease ∧ (s.closeGrants agent).fw = s.fw ∧ (s.closeGrants agent).integ = s.integ ∧ (s.closeGrants agent).ckpt = s.ckpt ∧ (s.closeGrants agent).pw = s.pw := by
  and_intros <;> (unfold State.closeGrants; (try dsimp only); (repeat' split) <;>
    first | (simp [*]; done) | exact (State.foldl_keeps _ _ (by intros; (try dsimp only); (repeat' split) <;> simp [*]) _ _).trans (by simp [*]))
@[simp] theorem State.inspectExpire_frame (g : Nat) :
    (s.inspectExpire g).pending = s.pending ∧ (s.inspectExpire g).nrt = s.nrt ∧ (s.inspectExpire g).fresh = s.fresh ∧ (s.inspectExpire g).mem = s.mem ∧ (s.inspectExpire g).cmds = s.cmds ∧ (s.inspectExpire g).net = s.net ∧ (s.inspectExpire g).egress = s.egress ∧ (s.inspectExpire g).kv = s.kv ∧ (s.inspectExpire g).eng = s.eng ∧ (s.inspectExpire g).lease = s.lease ∧ (s.inspectExpire g).fw = s.fw ∧ (s.inspectExpire g).integ = s.integ ∧ (s.inspectExpire g).ckpt = s.ckpt ∧ (s.inspectExpire g).pw = s.pw := by
  unfold State.inspectExpire; (try dsimp only); (repeat' split) <;> simp [*]
@[simp] theorem State.challenge_frame (l : Link) (nonceH : BitVec 256) :
    (s.challenge l nonceH).pending = s.pending ∧ (s.challenge l nonceH).nrt = s.nrt ∧ (s.challenge l nonceH).mem = s.mem ∧ (s.challenge l nonceH).cmds = s.cmds ∧ (s.challenge l nonceH).net = s.net ∧ (s.challenge l nonceH).egress = s.egress ∧ (s.challenge l nonceH).kv = s.kv ∧ (s.challenge l nonceH).eng = s.eng ∧ (s.challenge l nonceH).lease = s.lease ∧ (s.challenge l nonceH).sec = s.sec ∧ (s.challenge l nonceH).fw = s.fw ∧ (s.challenge l nonceH).integ = s.integ ∧ (s.challenge l nonceH).ckpt = s.ckpt ∧ (s.challenge l nonceH).pw = s.pw := by
  unfold State.challenge; (try dsimp only); (repeat' split) <;> simp [*]
@[simp] theorem State.lsResult_frame (l : Link) (result : Nat) (id : Word) :
    (s.lsResult l result id).pending = s.pending ∧ (s.lsResult l result id).nrt = s.nrt ∧ (s.lsResult l result id).fresh = s.fresh ∧ (s.lsResult l result id).mem = s.mem ∧ (s.lsResult l result id).cmds = s.cmds ∧ (s.lsResult l result id).net = s.net ∧ (s.lsResult l result id).egress = s.egress ∧ (s.lsResult l result id).kv = s.kv ∧ (s.lsResult l result id).eng = s.eng ∧ (s.lsResult l result id).lease = s.lease ∧ (s.lsResult l result id).sec = s.sec ∧ (s.lsResult l result id).fw = s.fw ∧ (s.lsResult l result id).integ = s.integ ∧ (s.lsResult l result id).ckpt = s.ckpt ∧ (s.lsResult l result id).pw = s.pw := by
  unfold State.lsResult; (try dsimp only); (repeat' split) <;> simp [*]
@[simp] theorem State.lsHello_frame (l : Link) (nonceH : BitVec 256) :
    (s.lsHello l nonceH).pending = s.pending ∧ (s.lsHello l nonceH).nrt = s.nrt ∧ (s.lsHello l nonceH).mem = s.mem ∧ (s.lsHello l nonceH).cmds = s.cmds ∧ (s.lsHello l nonceH).net = s.net ∧ (s.lsHello l nonceH).egress = s.egress ∧ (s.lsHello l nonceH).kv = s.kv ∧ (s.lsHello l nonceH).eng = s.eng ∧ (s.lsHello l nonceH).lease = s.lease ∧ (s.lsHello l nonceH).sec = s.sec ∧ (s.lsHello l nonceH).fw = s.fw ∧ (s.lsHello l nonceH).integ = s.integ ∧ (s.lsHello l nonceH).ckpt = s.ckpt ∧ (s.lsHello l nonceH).pw = s.pw := by
  unfold State.lsHello; (try dsimp only); (repeat' split) <;> simp [*]
@[simp] theorem State.lsDeferred_frame (l : Link) :
    (s.lsDeferred l).pending = s.pending ∧ (s.lsDeferred l).nrt = s.nrt ∧ (s.lsDeferred l).mem = s.mem ∧ (s.lsDeferred l).cmds = s.cmds ∧ (s.lsDeferred l).net = s.net ∧ (s.lsDeferred l).egress = s.egress ∧ (s.lsDeferred l).kv = s.kv ∧ (s.lsDeferred l).eng = s.eng ∧ (s.lsDeferred l).lease = s.lease ∧ (s.lsDeferred l).sec = s.sec ∧ (s.lsDeferred l).fw = s.fw ∧ (s.lsDeferred l).integ = s.integ ∧ (s.lsDeferred l).ckpt = s.ckpt ∧ (s.lsDeferred l).pw = s.pw := by
  unfold State.lsDeferred; (try dsimp only); (repeat' split) <;> simp [*]
@[simp] theorem State.openSession_frame (l : Link) :
    (s.openSession l).pending = s.pending ∧ (s.openSession l).nrt = s.nrt ∧ (s.openSession l).mem = s.mem ∧ (s.openSession l).cmds = s.cmds ∧ (s.openSession l).net = s.net ∧ (s.openSession l).egress = s.egress ∧ (s.openSession l).kv = s.kv ∧ (s.openSession l).eng = s.eng ∧ (s.openSession l).lease = s.lease ∧ (s.openSession l).fw = s.fw ∧ (s.openSession l).integ = s.integ ∧ (s.openSession l).ckpt = s.ckpt ∧ (s.openSession l).pw = s.pw := by
  unfold State.openSession; (try dsimp only); (repeat' split) <;> simp [*]
@[simp] theorem State.refuseProof_frame (l : Link) (result : Nat) :
    (s.refuseProof l result).pending = s.pending ∧ (s.refuseProof l result).nrt = s.nrt ∧ (s.refuseProof l result).fresh = s.fresh ∧ (s.refuseProof l result).mem = s.mem ∧ (s.refuseProof l result).cmds = s.cmds ∧ (s.refuseProof l result).net = s.net ∧ (s.refuseProof l result).egress = s.egress ∧ (s.refuseProof l result).kv = s.kv ∧ (s.refuseProof l result).eng = s.eng ∧ (s.refuseProof l result).lease = s.lease ∧ (s.refuseProof l result).sec = s.sec ∧ (s.refuseProof l result).fw = s.fw ∧ (s.refuseProof l result).integ = s.integ ∧ (s.refuseProof l result).ckpt = s.ckpt ∧ (s.refuseProof l result).pw = s.pw := by
  unfold State.refuseProof; (try dsimp only); (repeat' split) <;> simp [*]
@[simp] theorem State.lsProof_frame (l : Link) (p : OperatorProof) :
    (s.lsProof l p).pending = s.pending ∧ (s.lsProof l p).nrt = s.nrt ∧ (s.lsProof l p).mem = s.mem ∧ (s.lsProof l p).cmds = s.cmds ∧ (s.lsProof l p).net = s.net ∧ (s.lsProof l p).egress = s.egress ∧ (s.lsProof l p).kv = s.kv ∧ (s.lsProof l p).eng = s.eng ∧ (s.lsProof l p).lease = s.lease ∧ (s.lsProof l p).fw = s.fw ∧ (s.lsProof l p).integ = s.integ ∧ (s.lsProof l p).ckpt = s.ckpt ∧ (s.lsProof l p).pw = s.pw := by
  unfold State.lsProof; (try dsimp only); (repeat' split) <;> simp [*]
@[simp] theorem State.logLine_frame (c level event : Nat) :
    (s.logLine c level event).pending = s.pending ∧ (s.logLine c level event).nrt = s.nrt ∧ (s.logLine c level event).rf = s.rf ∧ (s.logLine c level event).host = s.host ∧ (s.logLine c level event).cmds = s.cmds ∧ (s.logLine c level event).net = s.net ∧ (s.logLine c level event).egress = s.egress ∧ (s.logLine c level event).kv = s.kv ∧ (s.logLine c level event).eng = s.eng ∧ (s.logLine c level event).lease = s.lease ∧ (s.logLine c level event).sec = s.sec ∧ (s.logLine c level event).integ = s.integ ∧ (s.logLine c level event).ckpt = s.ckpt ∧ (s.logLine c level event).pw = s.pw := by
  unfold State.logLine; (try dsimp only); (repeat' split) <;> simp [*]
@[simp] theorem State.passTrace_frame (c : Nat) :
    (s.passTrace c).pending = s.pending ∧ (s.passTrace c).nrt = s.nrt ∧ (s.passTrace c).rf = s.rf ∧ (s.passTrace c).host = s.host ∧ (s.passTrace c).cmds = s.cmds ∧ (s.passTrace c).net = s.net ∧ (s.passTrace c).egress = s.egress ∧ (s.passTrace c).kv = s.kv ∧ (s.passTrace c).eng = s.eng ∧ (s.passTrace c).lease = s.lease ∧ (s.passTrace c).sec = s.sec ∧ (s.passTrace c).integ = s.integ ∧ (s.passTrace c).ckpt = s.ckpt ∧ (s.passTrace c).pw = s.pw := by
  unfold State.passTrace; (try dsimp only); (repeat' split) <;> simp [*]
@[simp] theorem State.mbxAnswer_frame (m : MReq) (typ status detail : Nat) (body : List Byte) :
    (s.mbxAnswer m typ status detail body).pending = s.pending ∧ (s.mbxAnswer m typ status detail body).nrt = s.nrt ∧ (s.mbxAnswer m typ status detail body).fresh = s.fresh ∧ (s.mbxAnswer m typ status detail body).cmds = s.cmds ∧ (s.mbxAnswer m typ status detail body).net = s.net ∧ (s.mbxAnswer m typ status detail body).egress = s.egress ∧ (s.mbxAnswer m typ status detail body).kv = s.kv ∧ (s.mbxAnswer m typ status detail body).eng = s.eng ∧ (s.mbxAnswer m typ status detail body).lease = s.lease ∧ (s.mbxAnswer m typ status detail body).sec = s.sec ∧ (s.mbxAnswer m typ status detail body).integ = s.integ ∧ (s.mbxAnswer m typ status detail body).ckpt = s.ckpt ∧ (s.mbxAnswer m typ status detail body).pw = s.pw := by
  unfold State.mbxAnswer; (try dsimp only); (repeat' split) <;> simp [*]
@[simp] theorem State.setQuotas_frame (d rq bq sq rg : Nat) :
    (s.setQuotas d rq bq sq rg).pending = s.pending ∧ (s.setQuotas d rq bq sq rg).nrt = s.nrt ∧ (s.setQuotas d rq bq sq rg).fresh = s.fresh ∧ (s.setQuotas d rq bq sq rg).mem = s.mem ∧ (s.setQuotas d rq bq sq rg).host = s.host ∧ (s.setQuotas d rq bq sq rg).cmds = s.cmds ∧ (s.setQuotas d rq bq sq rg).net = s.net ∧ (s.setQuotas d rq bq sq rg).egress = s.egress ∧ (s.setQuotas d rq bq sq rg).kv = s.kv ∧ (s.setQuotas d rq bq sq rg).eng = s.eng ∧ (s.setQuotas d rq bq sq rg).lease = s.lease ∧ (s.setQuotas d rq bq sq rg).sec = s.sec ∧ (s.setQuotas d rq bq sq rg).fw = s.fw ∧ (s.setQuotas d rq bq sq rg).integ = s.integ ∧ (s.setQuotas d rq bq sq rg).ckpt = s.ckpt ∧ (s.setQuotas d rq bq sq rg).pw = s.pw := by
  unfold State.setQuotas; (try dsimp only); (repeat' split) <;> simp [*]
@[simp] theorem State.dropCtx_frame (ctx : Nat) :
    (s.dropCtx ctx).pending = s.pending ∧ (s.dropCtx ctx).nrt = s.nrt ∧ (s.dropCtx ctx).fresh = s.fresh ∧ (s.dropCtx ctx).mem = s.mem ∧ (s.dropCtx ctx).net = s.net ∧ (s.dropCtx ctx).egress = s.egress ∧ (s.dropCtx ctx).lease = s.lease ∧ (s.dropCtx ctx).sec = s.sec ∧ (s.dropCtx ctx).fw = s.fw ∧ (s.dropCtx ctx).integ = s.integ ∧ (s.dropCtx ctx).ckpt = s.ckpt ∧ (s.dropCtx ctx).pw = s.pw := by
  and_intros <;> (unfold State.dropCtx; (try dsimp only); (repeat' split) <;>
    first | (simp [*]; done) | exact (State.foldl_keeps _ _ (by intros; (try dsimp only); (repeat' split) <;> simp [*]) _ _).trans (by simp [*]))
@[simp] theorem State.freeProj_frame (d handle : Nat) :
    (s.freeProj d handle).pending = s.pending ∧ (s.freeProj d handle).nrt = s.nrt ∧ (s.freeProj d handle).fresh = s.fresh ∧ (s.freeProj d handle).mem = s.mem ∧ (s.freeProj d handle).rf = s.rf ∧ (s.freeProj d handle).host = s.host ∧ (s.freeProj d handle).cmds = s.cmds ∧ (s.freeProj d handle).net = s.net ∧ (s.freeProj d handle).egress = s.egress ∧ (s.freeProj d handle).eng = s.eng ∧ (s.freeProj d handle).lease = s.lease ∧ (s.freeProj d handle).fw = s.fw ∧ (s.freeProj d handle).integ = s.integ ∧ (s.freeProj d handle).ckpt = s.ckpt ∧ (s.freeProj d handle).pw = s.pw := by
  and_intros <;> (unfold State.freeProj; (try dsimp only); (repeat' split) <;>
    first | (simp [*]; done) | exact (State.foldl_keeps _ _ (by intros; (try dsimp only); (repeat' split) <;> simp [*]) _ _).trans (by simp [*]))
@[simp] theorem State.coreDown_frame (c : Nat) :
    (s.coreDown c).pending = s.pending ∧ (s.coreDown c).nrt = s.nrt ∧ (s.coreDown c).fresh = s.fresh ∧ (s.coreDown c).mem = s.mem ∧ (s.coreDown c).cmds = s.cmds ∧ (s.coreDown c).net = s.net ∧ (s.coreDown c).egress = s.egress ∧ (s.coreDown c).kv = s.kv ∧ (s.coreDown c).lease = s.lease ∧ (s.coreDown c).sec = s.sec ∧ (s.coreDown c).integ = s.integ ∧ (s.coreDown c).ckpt = s.ckpt ∧ (s.coreDown c).pw = s.pw := by
  unfold State.coreDown; (try dsimp only); (repeat' split) <;> simp [*]
@[simp] theorem State.activate_frame (kind : Nat) (req : Option MReq) :
    (s.activate kind req).pending = s.pending ∧ (s.activate kind req).nrt = s.nrt ∧ (s.activate kind req).fresh = s.fresh ∧ (s.activate kind req).mem = s.mem ∧ (s.activate kind req).cmds = s.cmds ∧ (s.activate kind req).net = s.net ∧ (s.activate kind req).egress = s.egress ∧ (s.activate kind req).kv = s.kv ∧ (s.activate kind req).lease = s.lease ∧ (s.activate kind req).sec = s.sec ∧ (s.activate kind req).integ = s.integ ∧ (s.activate kind req).ckpt = s.ckpt ∧ (s.activate kind req).pw = s.pw := by
  unfold State.activate; (try dsimp only); (repeat' split) <;> simp [*]
@[simp] theorem State.doorbell_frame (l : Link) (c : Nat) (seq : Word) :
    (s.doorbell l c seq).pending = s.pending ∧ (s.doorbell l c seq).nrt = s.nrt ∧ (s.doorbell l c seq).fresh = s.fresh ∧ (s.doorbell l c seq).cmds = s.cmds ∧ (s.doorbell l c seq).net = s.net ∧ (s.doorbell l c seq).egress = s.egress ∧ (s.doorbell l c seq).kv = s.kv ∧ (s.doorbell l c seq).eng = s.eng ∧ (s.doorbell l c seq).lease = s.lease ∧ (s.doorbell l c seq).sec = s.sec ∧ (s.doorbell l c seq).integ = s.integ ∧ (s.doorbell l c seq).ckpt = s.ckpt ∧ (s.doorbell l c seq).pw = s.pw := by
  unfold State.doorbell; (try dsimp only); (repeat' split) <;> simp [*]
@[simp] theorem State.hostBursts_frame (a n : Nat) :
    (s.hostBursts a n).pending = s.pending ∧ (s.hostBursts a n).nrt = s.nrt ∧ (s.hostBursts a n).mem = s.mem ∧ (s.hostBursts a n).host = s.host ∧ (s.hostBursts a n).cmds = s.cmds ∧ (s.hostBursts a n).net = s.net ∧ (s.hostBursts a n).egress = s.egress ∧ (s.hostBursts a n).kv = s.kv ∧ (s.hostBursts a n).eng = s.eng ∧ (s.hostBursts a n).lease = s.lease ∧ (s.hostBursts a n).sec = s.sec ∧ (s.hostBursts a n).fw = s.fw ∧ (s.hostBursts a n).integ = s.integ ∧ (s.hostBursts a n).ckpt = s.ckpt ∧ (s.hostBursts a n).pw = s.pw := by
  unfold State.hostBursts; (try dsimp only); (repeat' split) <;> simp [*]
@[simp] theorem State.pokeFrame_frame (f chunk o : Nat) (d : List Byte) :
    (s.pokeFrame f chunk o d).pending = s.pending ∧ (s.pokeFrame f chunk o d).nrt = s.nrt ∧ (s.pokeFrame f chunk o d).fresh = s.fresh ∧ (s.pokeFrame f chunk o d).mem = s.mem ∧ (s.pokeFrame f chunk o d).rf = s.rf ∧ (s.pokeFrame f chunk o d).host = s.host ∧ (s.pokeFrame f chunk o d).cmds = s.cmds ∧ (s.pokeFrame f chunk o d).net = s.net ∧ (s.pokeFrame f chunk o d).egress = s.egress ∧ (s.pokeFrame f chunk o d).eng = s.eng ∧ (s.pokeFrame f chunk o d).lease = s.lease ∧ (s.pokeFrame f chunk o d).sec = s.sec ∧ (s.pokeFrame f chunk o d).fw = s.fw ∧ (s.pokeFrame f chunk o d).integ = s.integ ∧ (s.pokeFrame f chunk o d).ckpt = s.ckpt ∧ (s.pokeFrame f chunk o d).pw = s.pw := by
  unfold State.pokeFrame; (try dsimp only); (repeat' split) <;> simp [*]
@[simp] theorem State.pokeLine_frame (l : Line) (o : Nat) (d : List Byte) :
    (s.pokeLine l o d).pending = s.pending ∧ (s.pokeLine l o d).nrt = s.nrt ∧ (s.pokeLine l o d).fresh = s.fresh ∧ (s.pokeLine l o d).mem = s.mem ∧ (s.pokeLine l o d).rf = s.rf ∧ (s.pokeLine l o d).host = s.host ∧ (s.pokeLine l o d).cmds = s.cmds ∧ (s.pokeLine l o d).net = s.net ∧ (s.pokeLine l o d).egress = s.egress ∧ (s.pokeLine l o d).lease = s.lease ∧ (s.pokeLine l o d).sec = s.sec ∧ (s.pokeLine l o d).fw = s.fw ∧ (s.pokeLine l o d).integ = s.integ ∧ (s.pokeLine l o d).ckpt = s.ckpt ∧ (s.pokeLine l o d).pw = s.pw := by
  unfold State.pokeLine; (try dsimp only); (repeat' split) <;> simp [*]
@[simp] theorem State.advanceSq_frame (n units : Nat) :
    (s.advanceSq n units).pending = s.pending ∧ (s.advanceSq n units).nrt = s.nrt ∧ (s.advanceSq n units).fresh = s.fresh ∧ (s.advanceSq n units).mem = s.mem ∧ (s.advanceSq n units).rf = s.rf ∧ (s.advanceSq n units).cmds = s.cmds ∧ (s.advanceSq n units).net = s.net ∧ (s.advanceSq n units).egress = s.egress ∧ (s.advanceSq n units).kv = s.kv ∧ (s.advanceSq n units).eng = s.eng ∧ (s.advanceSq n units).lease = s.lease ∧ (s.advanceSq n units).sec = s.sec ∧ (s.advanceSq n units).fw = s.fw ∧ (s.advanceSq n units).integ = s.integ ∧ (s.advanceSq n units).ckpt = s.ckpt ∧ (s.advanceSq n units).pw = s.pw := by
  unfold State.advanceSq; (try dsimp only); (repeat' split) <;> simp [*]
@[simp] theorem State.markBlocked_frame :
    (s.markBlocked).pending = s.pending ∧ (s.markBlocked).nrt = s.nrt ∧ (s.markBlocked).fresh = s.fresh ∧ (s.markBlocked).mem = s.mem ∧ (s.markBlocked).rf = s.rf ∧ (s.markBlocked).cmds = s.cmds ∧ (s.markBlocked).net = s.net ∧ (s.markBlocked).egress = s.egress ∧ (s.markBlocked).kv = s.kv ∧ (s.markBlocked).eng = s.eng ∧ (s.markBlocked).lease = s.lease ∧ (s.markBlocked).sec = s.sec ∧ (s.markBlocked).fw = s.fw ∧ (s.markBlocked).integ = s.integ ∧ (s.markBlocked).ckpt = s.ckpt ∧ (s.markBlocked).pw = s.pw := by
  and_intros <;> (unfold State.markBlocked; (try dsimp only); (repeat' split) <;>
    first | (simp [*]; done) | exact (State.foldl_keeps _ _ (by intros; (try dsimp only); (repeat' split) <;> simp [*]) _ _).trans (by simp [*]))
@[simp] theorem State.endHeld_frame (m : MReq) (typ status : Nat) (body : List Byte) :
    (s.endHeld m typ status body).pending = s.pending ∧ (s.endHeld m typ status body).nrt = s.nrt ∧ (s.endHeld m typ status body).fresh = s.fresh ∧ (s.endHeld m typ status body).cmds = s.cmds ∧ (s.endHeld m typ status body).net = s.net ∧ (s.endHeld m typ status body).egress = s.egress ∧ (s.endHeld m typ status body).kv = s.kv ∧ (s.endHeld m typ status body).eng = s.eng ∧ (s.endHeld m typ status body).lease = s.lease ∧ (s.endHeld m typ status body).sec = s.sec ∧ (s.endHeld m typ status body).integ = s.integ ∧ (s.endHeld m typ status body).ckpt = s.ckpt ∧ (s.endHeld m typ status body).pw = s.pw := by
  unfold State.endHeld; (try dsimp only); (repeat' split) <;> simp [*]
@[simp] theorem State.endActivation_frame (a : Activation) (status last : Nat) :
    (s.endActivation a status last).pending = s.pending ∧ (s.endActivation a status last).nrt = s.nrt ∧ (s.endActivation a status last).fresh = s.fresh ∧ (s.endActivation a status last).cmds = s.cmds ∧ (s.endActivation a status last).net = s.net ∧ (s.endActivation a status last).egress = s.egress ∧ (s.endActivation a status last).kv = s.kv ∧ (s.endActivation a status last).eng = s.eng ∧ (s.endActivation a status last).lease = s.lease ∧ (s.endActivation a status last).sec = s.sec ∧ (s.endActivation a status last).integ = s.integ ∧ (s.endActivation a status last).ckpt = s.ckpt ∧ (s.endActivation a status last).pw = s.pw := by
  unfold State.endActivation; (try dsimp only); (repeat' split) <;> simp [*]
@[simp] theorem State.recordLanes_frame (q : Nat) :
    (s.recordLanes q).pending = s.pending ∧ (s.recordLanes q).nrt = s.nrt ∧ (s.recordLanes q).fresh = s.fresh ∧ (s.recordLanes q).mem = s.mem ∧ (s.recordLanes q).cmds = s.cmds ∧ (s.recordLanes q).net = s.net ∧ (s.recordLanes q).egress = s.egress ∧ (s.recordLanes q).kv = s.kv ∧ (s.recordLanes q).eng = s.eng ∧ (s.recordLanes q).lease = s.lease ∧ (s.recordLanes q).sec = s.sec ∧ (s.recordLanes q).integ = s.integ ∧ (s.recordLanes q).ckpt = s.ckpt ∧ (s.recordLanes q).pw = s.pw := by
  unfold State.recordLanes; (try dsimp only); (repeat' split) <;> simp [*]
@[simp] theorem State.lockstep_frame (c : Nat) :
    (s.lockstep c).pending = s.pending ∧ (s.lockstep c).nrt = s.nrt ∧ (s.lockstep c).fresh = s.fresh ∧ (s.lockstep c).mem = s.mem ∧ (s.lockstep c).cmds = s.cmds ∧ (s.lockstep c).net = s.net ∧ (s.lockstep c).egress = s.egress ∧ (s.lockstep c).kv = s.kv ∧ (s.lockstep c).lease = s.lease ∧ (s.lockstep c).sec = s.sec ∧ (s.lockstep c).integ = s.integ ∧ (s.lockstep c).ckpt = s.ckpt ∧ (s.lockstep c).pw = s.pw := by
  unfold State.lockstep; (try dsimp only); (repeat' split) <;> simp [*]
@[simp] theorem State.activationLate_frame (kind : Nat) :
    (s.activationLate kind).pending = s.pending ∧ (s.activationLate kind).nrt = s.nrt ∧ (s.activationLate kind).fresh = s.fresh ∧ (s.activationLate kind).cmds = s.cmds ∧ (s.activationLate kind).net = s.net ∧ (s.activationLate kind).egress = s.egress ∧ (s.activationLate kind).kv = s.kv ∧ (s.activationLate kind).eng = s.eng ∧ (s.activationLate kind).lease = s.lease ∧ (s.activationLate kind).sec = s.sec ∧ (s.activationLate kind).integ = s.integ ∧ (s.activationLate kind).ckpt = s.ckpt ∧ (s.activationLate kind).pw = s.pw := by
  unfold State.activationLate; (try dsimp only); (repeat' split) <;> simp [*]
@[simp] theorem State.deferredResume_frame (kind : Nat) :
    (s.deferredResume kind).pending = s.pending ∧ (s.deferredResume kind).nrt = s.nrt ∧ (s.deferredResume kind).fresh = s.fresh ∧ (s.deferredResume kind).mem = s.mem ∧ (s.deferredResume kind).cmds = s.cmds ∧ (s.deferredResume kind).net = s.net ∧ (s.deferredResume kind).egress = s.egress ∧ (s.deferredResume kind).kv = s.kv ∧ (s.deferredResume kind).lease = s.lease ∧ (s.deferredResume kind).sec = s.sec ∧ (s.deferredResume kind).integ = s.integ ∧ (s.deferredResume kind).ckpt = s.ckpt ∧ (s.deferredResume kind).pw = s.pw := by
  unfold State.deferredResume; (try dsimp only); (repeat' split) <;> simp [*]
@[simp] theorem State.raiseFuse_frame (kind : Nat) :
    (s.raiseFuse kind).pending = s.pending ∧ (s.raiseFuse kind).nrt = s.nrt ∧ (s.raiseFuse kind).fresh = s.fresh ∧ (s.raiseFuse kind).mem = s.mem ∧ (s.raiseFuse kind).cmds = s.cmds ∧ (s.raiseFuse kind).net = s.net ∧ (s.raiseFuse kind).egress = s.egress ∧ (s.raiseFuse kind).kv = s.kv ∧ (s.raiseFuse kind).eng = s.eng ∧ (s.raiseFuse kind).lease = s.lease ∧ (s.raiseFuse kind).integ = s.integ ∧ (s.raiseFuse kind).ckpt = s.ckpt ∧ (s.raiseFuse kind).pw = s.pw := by
  unfold State.raiseFuse; (try dsimp only); (repeat' split) <;> simp [*]
@[simp] theorem State.meterTick_frame :
    (s.meterTick).pending = s.pending ∧ (s.meterTick).nrt = s.nrt ∧ (s.meterTick).fresh = s.fresh ∧ (s.meterTick).mem = s.mem ∧ (s.meterTick).rf = s.rf ∧ (s.meterTick).host = s.host ∧ (s.meterTick).cmds = s.cmds ∧ (s.meterTick).net = s.net ∧ (s.meterTick).egress = s.egress ∧ (s.meterTick).kv = s.kv ∧ (s.meterTick).eng = s.eng ∧ (s.meterTick).lease = s.lease ∧ (s.meterTick).sec = s.sec ∧ (s.meterTick).integ = s.integ ∧ (s.meterTick).ckpt = s.ckpt ∧ (s.meterTick).pw = s.pw := by
  unfold State.meterTick; (try dsimp only); (repeat' split) <;> simp [*]
@[simp] theorem State.hsReject_frame (e : NetEnd) (reason hintUs : Nat) :
    (s.hsReject e reason hintUs).pending = s.pending ∧ (s.hsReject e reason hintUs).nrt = s.nrt ∧ (s.hsReject e reason hintUs).fresh = s.fresh ∧ (s.hsReject e reason hintUs).mem = s.mem ∧ (s.hsReject e reason hintUs).host = s.host ∧ (s.hsReject e reason hintUs).cmds = s.cmds ∧ (s.hsReject e reason hintUs).egress = s.egress ∧ (s.hsReject e reason hintUs).kv = s.kv ∧ (s.hsReject e reason hintUs).eng = s.eng ∧ (s.hsReject e reason hintUs).lease = s.lease ∧ (s.hsReject e reason hintUs).sec = s.sec ∧ (s.hsReject e reason hintUs).fw = s.fw ∧ (s.hsReject e reason hintUs).integ = s.integ ∧ (s.hsReject e reason hintUs).ckpt = s.ckpt ∧ (s.hsReject e reason hintUs).pw = s.pw := by
  unfold State.hsReject; (try dsimp only); (repeat' split) <;> simp [*]
@[simp] theorem State.sendHsReply_frame (e : NetEnd) (b : List Byte) :
    (s.sendHsReply e b).pending = s.pending ∧ (s.sendHsReply e b).nrt = s.nrt ∧ (s.sendHsReply e b).fresh = s.fresh ∧ (s.sendHsReply e b).mem = s.mem ∧ (s.sendHsReply e b).host = s.host ∧ (s.sendHsReply e b).cmds = s.cmds ∧ (s.sendHsReply e b).egress = s.egress ∧ (s.sendHsReply e b).kv = s.kv ∧ (s.sendHsReply e b).eng = s.eng ∧ (s.sendHsReply e b).lease = s.lease ∧ (s.sendHsReply e b).sec = s.sec ∧ (s.sendHsReply e b).fw = s.fw ∧ (s.sendHsReply e b).integ = s.integ ∧ (s.sendHsReply e b).ckpt = s.ckpt ∧ (s.sendHsReply e b).pw = s.pw := by
  and_intros <;> (unfold State.sendHsReply; (try dsimp only); (repeat' split) <;>
    first | (simp [*]; done) | exact (State.foldl_keeps _ _ (by intros; (try dsimp only); (repeat' split) <;> simp [*]) _ _).trans (by simp [*]))
@[simp] theorem State.hsInit_frame (port sub : Nat) (h : HsInitD) :
    (s.hsInit port sub h).pending = s.pending ∧ (s.hsInit port sub h).nrt = s.nrt ∧ (s.hsInit port sub h).mem = s.mem ∧ (s.hsInit port sub h).host = s.host ∧ (s.hsInit port sub h).cmds = s.cmds ∧ (s.hsInit port sub h).egress = s.egress ∧ (s.hsInit port sub h).kv = s.kv ∧ (s.hsInit port sub h).eng = s.eng ∧ (s.hsInit port sub h).lease = s.lease ∧ (s.hsInit port sub h).sec = s.sec ∧ (s.hsInit port sub h).fw = s.fw ∧ (s.hsInit port sub h).integ = s.integ ∧ (s.hsInit port sub h).ckpt = s.ckpt ∧ (s.hsInit port sub h).pw = s.pw := by
  unfold State.hsInit; (try dsimp only); (repeat' split) <;> simp [*]
@[simp] theorem State.evictConn_frame :
    (s.evictConn).pending = s.pending ∧ (s.evictConn).nrt = s.nrt ∧ (s.evictConn).fresh = s.fresh ∧ (s.evictConn).mem = s.mem ∧ (s.evictConn).rf = s.rf ∧ (s.evictConn).host = s.host ∧ (s.evictConn).cmds = s.cmds ∧ (s.evictConn).egress = s.egress ∧ (s.evictConn).kv = s.kv ∧ (s.evictConn).eng = s.eng ∧ (s.evictConn).lease = s.lease ∧ (s.evictConn).sec = s.sec ∧ (s.evictConn).fw = s.fw ∧ (s.evictConn).integ = s.integ ∧ (s.evictConn).ckpt = s.ckpt ∧ (s.evictConn).pw = s.pw := by
  and_intros <;> (unfold State.evictConn; (try dsimp only); (repeat' split) <;>
    first | (simp [*]; done) | exact (State.foldl_keeps _ _ (by intros; (try dsimp only); (repeat' split) <;> simp [*]) _ _).trans (by simp [*]))
@[simp] theorem State.hsFinish_frame (key : Nat) (p : PeerProof) :
    (s.hsFinish key p).pending = s.pending ∧ (s.hsFinish key p).nrt = s.nrt ∧ (s.hsFinish key p).fresh = s.fresh ∧ (s.hsFinish key p).mem = s.mem ∧ (s.hsFinish key p).host = s.host ∧ (s.hsFinish key p).cmds = s.cmds ∧ (s.hsFinish key p).egress = s.egress ∧ (s.hsFinish key p).kv = s.kv ∧ (s.hsFinish key p).eng = s.eng ∧ (s.hsFinish key p).lease = s.lease ∧ (s.hsFinish key p).sec = s.sec ∧ (s.hsFinish key p).fw = s.fw ∧ (s.hsFinish key p).integ = s.integ ∧ (s.hsFinish key p).ckpt = s.ckpt ∧ (s.hsFinish key p).pw = s.pw := by
  unfold State.hsFinish; (try dsimp only); (repeat' split) <;> simp [*]
@[simp] theorem State.hsTimeout_frame (key : Nat) :
    (s.hsTimeout key).pending = s.pending ∧ (s.hsTimeout key).nrt = s.nrt ∧ (s.hsTimeout key).fresh = s.fresh ∧ (s.hsTimeout key).mem = s.mem ∧ (s.hsTimeout key).rf = s.rf ∧ (s.hsTimeout key).host = s.host ∧ (s.hsTimeout key).cmds = s.cmds ∧ (s.hsTimeout key).egress = s.egress ∧ (s.hsTimeout key).kv = s.kv ∧ (s.hsTimeout key).eng = s.eng ∧ (s.hsTimeout key).lease = s.lease ∧ (s.hsTimeout key).sec = s.sec ∧ (s.hsTimeout key).fw = s.fw ∧ (s.hsTimeout key).integ = s.integ ∧ (s.hsTimeout key).ckpt = s.ckpt ∧ (s.hsTimeout key).pw = s.pw := by
  unfold State.hsTimeout; (try dsimp only); (repeat' split) <;> simp [*]
@[simp] theorem State.neighbour_frame (port sub : Nat) (vid : Option Nat) (kind dst src : Nat) (data : List Byte) :
    (s.neighbour port sub vid kind dst src data).pending = s.pending ∧ (s.neighbour port sub vid kind dst src data).nrt = s.nrt ∧ (s.neighbour port sub vid kind dst src data).fresh = s.fresh ∧ (s.neighbour port sub vid kind dst src data).mem = s.mem ∧ (s.neighbour port sub vid kind dst src data).host = s.host ∧ (s.neighbour port sub vid kind dst src data).cmds = s.cmds ∧ (s.neighbour port sub vid kind dst src data).net = s.net ∧ (s.neighbour port sub vid kind dst src data).kv = s.kv ∧ (s.neighbour port sub vid kind dst src data).eng = s.eng ∧ (s.neighbour port sub vid kind dst src data).lease = s.lease ∧ (s.neighbour port sub vid kind dst src data).sec = s.sec ∧ (s.neighbour port sub vid kind dst src data).fw = s.fw ∧ (s.neighbour port sub vid kind dst src data).integ = s.integ ∧ (s.neighbour port sub vid kind dst src data).ckpt = s.ckpt ∧ (s.neighbour port sub vid kind dst src data).pw = s.pw := by
  unfold State.neighbour; (try dsimp only); (repeat' split) <;> simp [*]
end Sys2Proof.Machine
end

