-- ==== Sys2Proof/Laws/FrameRegs.lean ====
section
/-!
SUPPORT. What operations leave as it was, one lemma for each operation: the groups of State named in it are unchanged
(Regs, Power, Tick, RowsLink, Scrub).
-/

namespace Sys2Proof.Machine


variable (s : State)

@[simp] theorem State.coreBoots_frame (c : Nat) :
    (s.coreBoots c).pending = s.pending ∧ (s.coreBoots c).nrt = s.nrt ∧ (s.coreBoots c).cmds = s.cmds ∧ (s.coreBoots c).net = s.net ∧ (s.coreBoots c).egress = s.egress ∧ (s.coreBoots c).kv = s.kv ∧ (s.coreBoots c).eng = s.eng ∧ (s.coreBoots c).lease = s.lease ∧ (s.coreBoots c).sec = s.sec ∧ (s.coreBoots c).integ = s.integ ∧ (s.coreBoots c).ckpt = s.ckpt ∧ (s.coreBoots c).pw = s.pw := by
  unfold State.coreBoots; (try dsimp only); (repeat' split) <;> simp [*]
@[simp] theorem State.resumeChain_frame  :
    (s.resumeChain).pending = s.pending ∧ (s.resumeChain).nrt = s.nrt ∧ (s.resumeChain).fresh = s.fresh ∧ (s.resumeChain).mem = s.mem ∧ (s.resumeChain).rf = s.rf ∧ (s.resumeChain).host = s.host ∧ (s.resumeChain).cmds = s.cmds ∧ (s.resumeChain).net = s.net ∧ (s.resumeChain).egress = s.egress ∧ (s.resumeChain).kv = s.kv ∧ (s.resumeChain).eng = s.eng ∧ (s.resumeChain).lease = s.lease ∧ (s.resumeChain).fw = s.fw ∧ (s.resumeChain).integ = s.integ ∧ (s.resumeChain).ckpt = s.ckpt ∧ (s.resumeChain).pw = s.pw := by
  unfold State.resumeChain; (try dsimp only); (repeat' split) <;> simp [*]
@[simp] theorem State.goUnleavened_frame (cause detail : Nat) :
    (s.goUnleavened cause detail).pending = s.pending ∧ (s.goUnleavened cause detail).nrt = s.nrt ∧ (s.goUnleavened cause detail).cmds = s.cmds ∧ (s.goUnleavened cause detail).net = s.net ∧ (s.goUnleavened cause detail).egress = s.egress ∧ (s.goUnleavened cause detail).kv = s.kv ∧ (s.goUnleavened cause detail).eng = s.eng ∧ (s.goUnleavened cause detail).lease = s.lease ∧ (s.goUnleavened cause detail).integ = s.integ ∧ (s.goUnleavened cause detail).ckpt = s.ckpt := by
  and_intros <;> (unfold State.goUnleavened; (try dsimp only); (repeat' split) <;>
    first | (simp [*]; done) | exact (State.foldl_keeps _ _ (by intros; (try dsimp only); (repeat' split) <;> simp [*]) _ _).trans (by simp [*]))
@[simp] theorem State.startRun_frame :
    (s.startRun).pending = s.pending ∧ (s.startRun).nrt = s.nrt ∧ (s.startRun).cmds = s.cmds ∧ (s.startRun).net = s.net ∧ (s.startRun).egress = s.egress ∧ (s.startRun).kv = s.kv ∧ (s.startRun).eng = s.eng ∧ (s.startRun).lease = s.lease ∧ (s.startRun).integ = s.integ ∧ (s.startRun).ckpt = s.ckpt := by
  and_intros <;> (unfold State.startRun; (try dsimp only); (repeat' split) <;>
    first | (simp [*]; done) | exact (State.foldl_keeps _ _ (by intros; (try dsimp only); (repeat' split) <;> simp [*]) _ _).trans (by simp [*]))
@[simp] theorem State.startRetry_frame :
    (s.startRetry).pending = s.pending ∧ (s.startRetry).nrt = s.nrt ∧ (s.startRetry).cmds = s.cmds ∧ (s.startRetry).net = s.net ∧ (s.startRetry).egress = s.egress ∧ (s.startRetry).kv = s.kv ∧ (s.startRetry).eng = s.eng ∧ (s.startRetry).lease = s.lease ∧ (s.startRetry).integ = s.integ ∧ (s.startRetry).ckpt = s.ckpt := by
  unfold State.startRetry; (try dsimp only); (repeat' split) <;> simp [*]
@[simp] theorem State.loadImages_frame :
    (s.loadImages).pending = s.pending ∧ (s.loadImages).nrt = s.nrt ∧ (s.loadImages).cmds = s.cmds ∧ (s.loadImages).net = s.net ∧ (s.loadImages).egress = s.egress ∧ (s.loadImages).kv = s.kv ∧ (s.loadImages).eng = s.eng ∧ (s.loadImages).lease = s.lease ∧ (s.loadImages).integ = s.integ ∧ (s.loadImages).ckpt = s.ckpt := by
  and_intros <;> (unfold State.loadImages; (try dsimp only); (repeat' split) <;>
    first | (simp [*]; done) | exact (State.foldl_keeps _ _ (by intros; (try dsimp only); (repeat' split) <;> simp [*]) _ _).trans (by simp [*]))
@[simp] theorem State.openWindow_frame :
    (s.openWindow).pending = s.pending ∧ (s.openWindow).nrt = s.nrt ∧ (s.openWindow).fresh = s.fresh ∧ (s.openWindow).mem = s.mem ∧ (s.openWindow).rf = s.rf ∧ (s.openWindow).host = s.host ∧ (s.openWindow).cmds = s.cmds ∧ (s.openWindow).net = s.net ∧ (s.openWindow).egress = s.egress ∧ (s.openWindow).kv = s.kv ∧ (s.openWindow).eng = s.eng ∧ (s.openWindow).lease = s.lease ∧ (s.openWindow).sec = s.sec ∧ (s.openWindow).fw = s.fw ∧ (s.openWindow).integ = s.integ ∧ (s.openWindow).ckpt = s.ckpt := by
  unfold State.openWindow; (try dsimp only); (repeat' split) <;> simp [*]
@[simp] theorem State.imageFlit_frame (l : Link) (kind : Nat) (last none' : Bool) (offset : Nat) (d : List Byte) (i : ImageInfo) :
    (s.imageFlit l kind last none' offset d i).pending = s.pending ∧ (s.imageFlit l kind last none' offset d i).nrt = s.nrt ∧ (s.imageFlit l kind last none' offset d i).fresh = s.fresh ∧ (s.imageFlit l kind last none' offset d i).mem = s.mem ∧ (s.imageFlit l kind last none' offset d i).cmds = s.cmds ∧ (s.imageFlit l kind last none' offset d i).net = s.net ∧ (s.imageFlit l kind last none' offset d i).egress = s.egress ∧ (s.imageFlit l kind last none' offset d i).kv = s.kv ∧ (s.imageFlit l kind last none' offset d i).eng = s.eng ∧ (s.imageFlit l kind last none' offset d i).lease = s.lease ∧ (s.imageFlit l kind last none' offset d i).sec = s.sec ∧ (s.imageFlit l kind last none' offset d i).integ = s.integ ∧ (s.imageFlit l kind last none' offset d i).ckpt = s.ckpt := by
  unfold State.imageFlit; (try dsimp only); (repeat' split) <;> simp [*]
@[simp] theorem State.imageWindowEnds_frame :
    (s.imageWindowEnds).pending = s.pending ∧ (s.imageWindowEnds).nrt = s.nrt ∧ (s.imageWindowEnds).fresh = s.fresh ∧ (s.imageWindowEnds).mem = s.mem ∧ (s.imageWindowEnds).rf = s.rf ∧ (s.imageWindowEnds).cmds = s.cmds ∧ (s.imageWindowEnds).net = s.net ∧ (s.imageWindowEnds).egress = s.egress ∧ (s.imageWindowEnds).kv = s.kv ∧ (s.imageWindowEnds).eng = s.eng ∧ (s.imageWindowEnds).lease = s.lease ∧ (s.imageWindowEnds).sec = s.sec ∧ (s.imageWindowEnds).fw = s.fw ∧ (s.imageWindowEnds).integ = s.integ ∧ (s.imageWindowEnds).ckpt = s.ckpt ∧ (s.imageWindowEnds).pw = s.pw := by
  and_intros <;> (unfold State.imageWindowEnds; (try dsimp only); (repeat' split) <;>
    first | (simp [*]; done) | exact (State.foldl_keeps _ _ (by intros; (try dsimp only); (repeat' split) <;> simp [*]) _ _).trans (by simp [*]))
@[simp] theorem State.setClock_frame (mhz : Nat) :
    (s.setClock mhz).pending = s.pending ∧ (s.setClock mhz).nrt = s.nrt ∧ (s.setClock mhz).fresh = s.fresh ∧ (s.setClock mhz).mem = s.mem ∧ (s.setClock mhz).cmds = s.cmds ∧ (s.setClock mhz).net = s.net ∧ (s.setClock mhz).egress = s.egress ∧ (s.setClock mhz).kv = s.kv ∧ (s.setClock mhz).lease = s.lease ∧ (s.setClock mhz).sec = s.sec ∧ (s.setClock mhz).fw = s.fw ∧ (s.setClock mhz).integ = s.integ ∧ (s.setClock mhz).ckpt = s.ckpt := by
  unfold State.setClock; (try dsimp only); (repeat' split) <;> simp [*]
@[simp] theorem State.repairLane_frame (x : Nat × Nat) (trained : Bool) :
    (s.repairLane x trained).pending = s.pending ∧ (s.repairLane x trained).nrt = s.nrt ∧ (s.repairLane x trained).fresh = s.fresh ∧ (s.repairLane x trained).mem = s.mem ∧ (s.repairLane x trained).cmds = s.cmds ∧ (s.repairLane x trained).net = s.net ∧ (s.repairLane x trained).egress = s.egress ∧ (s.repairLane x trained).kv = s.kv ∧ (s.repairLane x trained).eng = s.eng ∧ (s.repairLane x trained).lease = s.lease ∧ (s.repairLane x trained).sec = s.sec ∧ (s.repairLane x trained).fw = s.fw ∧ (s.repairLane x trained).ckpt = s.ckpt ∧ (s.repairLane x trained).pw = s.pw := by
  unfold State.repairLane; (try dsimp only); (repeat' split) <;> simp [*]
@[simp] theorem State.repairLanes_frame (failed : List (Nat × Nat)) :
    (s.repairLanes failed).pending = s.pending ∧ (s.repairLanes failed).nrt = s.nrt ∧ (s.repairLanes failed).fresh = s.fresh ∧ (s.repairLanes failed).mem = s.mem ∧ (s.repairLanes failed).cmds = s.cmds ∧ (s.repairLanes failed).net = s.net ∧ (s.repairLanes failed).egress = s.egress ∧ (s.repairLanes failed).kv = s.kv ∧ (s.repairLanes failed).eng = s.eng ∧ (s.repairLanes failed).lease = s.lease ∧ (s.repairLanes failed).sec = s.sec ∧ (s.repairLanes failed).ckpt = s.ckpt ∧ (s.repairLanes failed).pw = s.pw := by
  and_intros <;> (unfold State.repairLanes; (try dsimp only); (repeat' split) <;>
    first | (simp [*]; done) | exact (State.foldl_keeps _ _ (by intros; (try dsimp only); (repeat' split) <;> simp [*]) _ _).trans (by simp [*]))
@[simp] theorem State.genesis_frame :
    (s.genesis).pending = s.pending ∧ (s.genesis).nrt = s.nrt ∧ (s.genesis).fresh = s.fresh ∧ (s.genesis).mem = s.mem ∧ (s.genesis).cmds = s.cmds ∧ (s.genesis).net = s.net ∧ (s.genesis).egress = s.egress ∧ (s.genesis).kv = s.kv ∧ (s.genesis).eng = s.eng ∧ (s.genesis).lease = s.lease ∧ (s.genesis).fw = s.fw ∧ (s.genesis).integ = s.integ ∧ (s.genesis).ckpt = s.ckpt ∧ (s.genesis).pw = s.pw := by
  unfold State.genesis; (try dsimp only); (repeat' split) <;> simp [*]
@[simp] theorem State.becomeOn_frame :
    (s.becomeOn).pending = s.pending ∧ (s.becomeOn).nrt = s.nrt ∧ (s.becomeOn).fresh = s.fresh ∧ (s.becomeOn).mem = s.mem ∧ (s.becomeOn).cmds = s.cmds ∧ (s.becomeOn).net = s.net ∧ (s.becomeOn).egress = s.egress ∧ (s.becomeOn).kv = s.kv ∧ (s.becomeOn).lease = s.lease ∧ (s.becomeOn).sec = s.sec ∧ (s.becomeOn).fw = s.fw ∧ (s.becomeOn).integ = s.integ ∧ (s.becomeOn).ckpt = s.ckpt := by
  unfold State.becomeOn; (try dsimp only); (repeat' split) <;> simp [*]
@[simp] theorem State.tryStart_frame :
    (s.tryStart).pending = s.pending ∧ (s.tryStart).nrt = s.nrt ∧ (s.tryStart).cmds = s.cmds ∧ (s.tryStart).net = s.net ∧ (s.tryStart).egress = s.egress ∧ (s.tryStart).kv = s.kv ∧ (s.tryStart).eng = s.eng ∧ (s.tryStart).lease = s.lease ∧ (s.tryStart).integ = s.integ ∧ (s.tryStart).ckpt = s.ckpt := by
  unfold State.tryStart; (try dsimp only); (repeat' split) <;> simp [*]
@[simp] theorem State.enAssert_frame :
    (s.enAssert).pending = s.pending ∧ (s.enAssert).nrt = s.nrt ∧ (s.enAssert).cmds = s.cmds ∧ (s.enAssert).net = s.net ∧ (s.enAssert).egress = s.egress ∧ (s.enAssert).kv = s.kv ∧ (s.enAssert).eng = s.eng ∧ (s.enAssert).lease = s.lease ∧ (s.enAssert).integ = s.integ ∧ (s.enAssert).ckpt = s.ckpt := by
  unfold State.enAssert; (try dsimp only); (repeat' split) <;> simp [*]
@[simp] theorem State.clearFails_frame :
    (s.clearFails).pending = s.pending ∧ (s.clearFails).nrt = s.nrt ∧ (s.clearFails).fresh = s.fresh ∧ (s.clearFails).mem = s.mem ∧ (s.clearFails).rf = s.rf ∧ (s.clearFails).host = s.host ∧ (s.clearFails).cmds = s.cmds ∧ (s.clearFails).net = s.net ∧ (s.clearFails).egress = s.egress ∧ (s.clearFails).kv = s.kv ∧ (s.clearFails).eng = s.eng ∧ (s.clearFails).lease = s.lease ∧ (s.clearFails).sec = s.sec ∧ (s.clearFails).fw = s.fw ∧ (s.clearFails).integ = s.integ ∧ (s.clearFails).ckpt = s.ckpt := by
  unfold State.clearFails; (try dsimp only); (repeat' split) <;> simp [*]
@[simp] theorem State.forceUnleavened_frame :
    (s.forceUnleavened).pending = s.pending ∧ (s.forceUnleavened).nrt = s.nrt ∧ (s.forceUnleavened).fresh = s.fresh ∧ (s.forceUnleavened).mem = s.mem ∧ (s.forceUnleavened).rf = s.rf ∧ (s.forceUnleavened).host = s.host ∧ (s.forceUnleavened).cmds = s.cmds ∧ (s.forceUnleavened).net = s.net ∧ (s.forceUnleavened).egress = s.egress ∧ (s.forceUnleavened).kv = s.kv ∧ (s.forceUnleavened).eng = s.eng ∧ (s.forceUnleavened).lease = s.lease ∧ (s.forceUnleavened).sec = s.sec ∧ (s.forceUnleavened).fw = s.fw ∧ (s.forceUnleavened).integ = s.integ ∧ (s.forceUnleavened).ckpt = s.ckpt := by
  unfold State.forceUnleavened; (try dsimp only); (repeat' split) <;> simp [*]
@[simp] theorem State.locateOn_frame :
    (s.locateOn).pending = s.pending ∧ (s.locateOn).nrt = s.nrt ∧ (s.locateOn).fresh = s.fresh ∧ (s.locateOn).mem = s.mem ∧ (s.locateOn).rf = s.rf ∧ (s.locateOn).host = s.host ∧ (s.locateOn).cmds = s.cmds ∧ (s.locateOn).net = s.net ∧ (s.locateOn).egress = s.egress ∧ (s.locateOn).kv = s.kv ∧ (s.locateOn).eng = s.eng ∧ (s.locateOn).lease = s.lease ∧ (s.locateOn).sec = s.sec ∧ (s.locateOn).fw = s.fw ∧ (s.locateOn).integ = s.integ ∧ (s.locateOn).ckpt = s.ckpt := by
  unfold State.locateOn; (try dsimp only); (repeat' split) <;> simp [*]
@[simp] theorem State.locateEnd_frame :
    (s.locateEnd).pending = s.pending ∧ (s.locateEnd).nrt = s.nrt ∧ (s.locateEnd).fresh = s.fresh ∧ (s.locateEnd).mem = s.mem ∧ (s.locateEnd).rf = s.rf ∧ (s.locateEnd).host = s.host ∧ (s.locateEnd).cmds = s.cmds ∧ (s.locateEnd).net = s.net ∧ (s.locateEnd).egress = s.egress ∧ (s.locateEnd).kv = s.kv ∧ (s.locateEnd).eng = s.eng ∧ (s.locateEnd).lease = s.lease ∧ (s.locateEnd).sec = s.sec ∧ (s.locateEnd).fw = s.fw ∧ (s.locateEnd).integ = s.integ ∧ (s.locateEnd).ckpt = s.ckpt := by
  unfold State.locateEnd; (try dsimp only); (repeat' split) <;> simp [*]
@[simp] theorem State.emergencyBegins_frame :
    (s.emergencyBegins).pending = s.pending ∧ (s.emergencyBegins).nrt = s.nrt ∧ (s.emergencyBegins).fresh = s.fresh ∧ (s.emergencyBegins).mem = s.mem ∧ (s.emergencyBegins).cmds = s.cmds ∧ (s.emergencyBegins).net = s.net ∧ (s.emergencyBegins).egress = s.egress ∧ (s.emergencyBegins).kv = s.kv ∧ (s.emergencyBegins).lease = s.lease ∧ (s.emergencyBegins).sec = s.sec ∧ (s.emergencyBegins).fw = s.fw ∧ (s.emergencyBegins).integ = s.integ ∧ (s.emergencyBegins).ckpt = s.ckpt := by
  unfold State.emergencyBegins; (try dsimp only); (repeat' split) <;> simp [*]
@[simp] theorem State.extendStep_frame (t : Nat) :
    (s.extendStep t).pending = s.pending ∧ (s.extendStep t).nrt = s.nrt ∧ (s.extendStep t).fresh = s.fresh ∧ (s.extendStep t).mem = s.mem ∧ (s.extendStep t).rf = s.rf ∧ (s.extendStep t).host = s.host ∧ (s.extendStep t).cmds = s.cmds ∧ (s.extendStep t).net = s.net ∧ (s.extendStep t).egress = s.egress ∧ (s.extendStep t).kv = s.kv ∧ (s.extendStep t).eng = s.eng ∧ (s.extendStep t).lease = s.lease ∧ (s.extendStep t).sec = s.sec ∧ (s.extendStep t).fw = s.fw ∧ (s.extendStep t).integ = s.integ ∧ (s.extendStep t).ckpt = s.ckpt := by
  unfold State.extendStep; (try dsimp only); (repeat' split) <;> simp [*]
@[simp] theorem State.brownOut_frame (mv ma : Nat) :
    (s.brownOut mv ma).pending = s.pending ∧ (s.brownOut mv ma).nrt = s.nrt ∧ (s.brownOut mv ma).fresh = s.fresh ∧ (s.brownOut mv ma).mem = s.mem ∧ (s.brownOut mv ma).cmds = s.cmds ∧ (s.brownOut mv ma).net = s.net ∧ (s.brownOut mv ma).egress = s.egress ∧ (s.brownOut mv ma).kv = s.kv ∧ (s.brownOut mv ma).lease = s.lease ∧ (s.brownOut mv ma).sec = s.sec ∧ (s.brownOut mv ma).fw = s.fw ∧ (s.brownOut mv ma).integ = s.integ ∧ (s.brownOut mv ma).ckpt = s.ckpt := by
  unfold State.brownOut; (try dsimp only); (repeat' split) <;> simp [*]
@[simp] theorem State.brownEnd_frame :
    (s.brownEnd).pending = s.pending ∧ (s.brownEnd).nrt = s.nrt ∧ (s.brownEnd).fresh = s.fresh ∧ (s.brownEnd).mem = s.mem ∧ (s.brownEnd).rf = s.rf ∧ (s.brownEnd).host = s.host ∧ (s.brownEnd).cmds = s.cmds ∧ (s.brownEnd).net = s.net ∧ (s.brownEnd).egress = s.egress ∧ (s.brownEnd).kv = s.kv ∧ (s.brownEnd).eng = s.eng ∧ (s.brownEnd).lease = s.lease ∧ (s.brownEnd).sec = s.sec ∧ (s.brownEnd).fw = s.fw ∧ (s.brownEnd).integ = s.integ ∧ (s.brownEnd).ckpt = s.ckpt := by
  unfold State.brownEnd; (try dsimp only); (repeat' split) <;> simp [*]
@[simp] theorem State.hotEnd_frame :
    (s.hotEnd).pending = s.pending ∧ (s.hotEnd).nrt = s.nrt ∧ (s.hotEnd).fresh = s.fresh ∧ (s.hotEnd).mem = s.mem ∧ (s.hotEnd).rf = s.rf ∧ (s.hotEnd).host = s.host ∧ (s.hotEnd).cmds = s.cmds ∧ (s.hotEnd).net = s.net ∧ (s.hotEnd).egress = s.egress ∧ (s.hotEnd).kv = s.kv ∧ (s.hotEnd).eng = s.eng ∧ (s.hotEnd).lease = s.lease ∧ (s.hotEnd).sec = s.sec ∧ (s.hotEnd).fw = s.fw ∧ (s.hotEnd).integ = s.integ ∧ (s.hotEnd).ckpt = s.ckpt := by
  unfold State.hotEnd; (try dsimp only); (repeat' split) <;> simp [*]
@[simp] theorem State.readAnswer_frame (ag : Agent) (tag : Nat) (w : Word) :
    (s.readAnswer ag tag w).pending = s.pending ∧ (s.readAnswer ag tag w).nrt = s.nrt ∧ (s.readAnswer ag tag w).fresh = s.fresh ∧ (s.readAnswer ag tag w).mem = s.mem ∧ (s.readAnswer ag tag w).cmds = s.cmds ∧ (s.readAnswer ag tag w).net = s.net ∧ (s.readAnswer ag tag w).egress = s.egress ∧ (s.readAnswer ag tag w).kv = s.kv ∧ (s.readAnswer ag tag w).eng = s.eng ∧ (s.readAnswer ag tag w).lease = s.lease ∧ (s.readAnswer ag tag w).sec = s.sec ∧ (s.readAnswer ag tag w).fw = s.fw ∧ (s.readAnswer ag tag w).integ = s.integ ∧ (s.readAnswer ag tag w).ckpt = s.ckpt ∧ (s.readAnswer ag tag w).pw = s.pw := by
  unfold State.readAnswer; (try dsimp only); (repeat' split) <;> simp [*]
@[simp] theorem State.readRefused_frame (ag : Agent) (tag bytes unit addr : Nat) :
    (s.readRefused ag tag bytes unit addr).pending = s.pending ∧ (s.readRefused ag tag bytes unit addr).nrt = s.nrt ∧ (s.readRefused ag tag bytes unit addr).fresh = s.fresh ∧ (s.readRefused ag tag bytes unit addr).mem = s.mem ∧ (s.readRefused ag tag bytes unit addr).cmds = s.cmds ∧ (s.readRefused ag tag bytes unit addr).net = s.net ∧ (s.readRefused ag tag bytes unit addr).egress = s.egress ∧ (s.readRefused ag tag bytes unit addr).kv = s.kv ∧ (s.readRefused ag tag bytes unit addr).eng = s.eng ∧ (s.readRefused ag tag bytes unit addr).lease = s.lease ∧ (s.readRefused ag tag bytes unit addr).sec = s.sec ∧ (s.readRefused ag tag bytes unit addr).fw = s.fw ∧ (s.readRefused ag tag bytes unit addr).integ = s.integ ∧ (s.readRefused ag tag bytes unit addr).ckpt = s.ckpt ∧ (s.readRefused ag tag bytes unit addr).pw = s.pw := by
  unfold State.readRefused; (try dsimp only); (repeat' split) <;> simp [*]
@[simp] theorem State.writeRefused_frame (ag : Agent) (unit addr : Nat) :
    (s.writeRefused ag unit addr).pending = s.pending ∧ (s.writeRefused ag unit addr).nrt = s.nrt ∧ (s.writeRefused ag unit addr).fresh = s.fresh ∧ (s.writeRefused ag unit addr).mem = s.mem ∧ (s.writeRefused ag unit addr).cmds = s.cmds ∧ (s.writeRefused ag unit addr).net = s.net ∧ (s.writeRefused ag unit addr).egress = s.egress ∧ (s.writeRefused ag unit addr).kv = s.kv ∧ (s.writeRefused ag unit addr).eng = s.eng ∧ (s.writeRefused ag unit addr).lease = s.lease ∧ (s.writeRefused ag unit addr).sec = s.sec ∧ (s.writeRefused ag unit addr).fw = s.fw ∧ (s.writeRefused ag unit addr).integ = s.integ ∧ (s.writeRefused ag unit addr).ckpt = s.ckpt ∧ (s.writeRefused ag unit addr).pw = s.pw := by
  unfold State.writeRefused; (try dsimp only); (repeat' split) <;> simp [*]
@[simp] theorem State.lockWrite_frame (ag : Agent) (pg value : Nat) :
    (s.lockWrite ag pg value).pending = s.pending ∧ (s.lockWrite ag pg value).nrt = s.nrt ∧ (s.lockWrite ag pg value).fresh = s.fresh ∧ (s.lockWrite ag pg value).mem = s.mem ∧ (s.lockWrite ag pg value).cmds = s.cmds ∧ (s.lockWrite ag pg value).net = s.net ∧ (s.lockWrite ag pg value).egress = s.egress ∧ (s.lockWrite ag pg value).kv = s.kv ∧ (s.lockWrite ag pg value).eng = s.eng ∧ (s.lockWrite ag pg value).lease = s.lease ∧ (s.lockWrite ag pg value).sec = s.sec ∧ (s.lockWrite ag pg value).fw = s.fw ∧ (s.lockWrite ag pg value).integ = s.integ ∧ (s.lockWrite ag pg value).ckpt = s.ckpt ∧ (s.lockWrite ag pg value).pw = s.pw := by
  unfold State.lockWrite; (try dsimp only); (repeat' split) <;> simp [*]
@[simp] theorem State.errLogClear_frame (pg : Nat) :
    (s.errLogClear pg).pending = s.pending ∧ (s.errLogClear pg).nrt = s.nrt ∧ (s.errLogClear pg).fresh = s.fresh ∧ (s.errLogClear pg).mem = s.mem ∧ (s.errLogClear pg).host = s.host ∧ (s.errLogClear pg).cmds = s.cmds ∧ (s.errLogClear pg).net = s.net ∧ (s.errLogClear pg).egress = s.egress ∧ (s.errLogClear pg).kv = s.kv ∧ (s.errLogClear pg).eng = s.eng ∧ (s.errLogClear pg).lease = s.lease ∧ (s.errLogClear pg).sec = s.sec ∧ (s.errLogClear pg).fw = s.fw ∧ (s.errLogClear pg).integ = s.integ ∧ (s.errLogClear pg).ckpt = s.ckpt ∧ (s.errLogClear pg).pw = s.pw := by
  unfold State.errLogClear; (try dsimp only); (repeat' split) <;> simp [*]
@[simp] theorem State.clearCounters_frame (pg off : Nat) :
    (s.clearCounters pg off).pending = s.pending ∧ (s.clearCounters pg off).nrt = s.nrt ∧ (s.clearCounters pg off).fresh = s.fresh ∧ (s.clearCounters pg off).mem = s.mem ∧ (s.clearCounters pg off).host = s.host ∧ (s.clearCounters pg off).cmds = s.cmds ∧ (s.clearCounters pg off).net = s.net ∧ (s.clearCounters pg off).egress = s.egress ∧ (s.clearCounters pg off).kv = s.kv ∧ (s.clearCounters pg off).eng = s.eng ∧ (s.clearCounters pg off).lease = s.lease ∧ (s.clearCounters pg off).sec = s.sec ∧ (s.clearCounters pg off).fw = s.fw ∧ (s.clearCounters pg off).integ = s.integ ∧ (s.clearCounters pg off).ckpt = s.ckpt ∧ (s.clearCounters pg off).pw = s.pw := by
  unfold State.clearCounters; (try dsimp only); (repeat' split) <;> simp [*]
@[simp] theorem State.invalAll_frame :
    (s.invalAll).pending = s.pending ∧ (s.invalAll).nrt = s.nrt ∧ (s.invalAll).fresh = s.fresh ∧ (s.invalAll).mem = s.mem ∧ (s.invalAll).rf = s.rf ∧ (s.invalAll).host = s.host ∧ (s.invalAll).cmds = s.cmds ∧ (s.invalAll).net = s.net ∧ (s.invalAll).egress = s.egress ∧ (s.invalAll).eng = s.eng ∧ (s.invalAll).lease = s.lease ∧ (s.invalAll).sec = s.sec ∧ (s.invalAll).fw = s.fw ∧ (s.invalAll).integ = s.integ ∧ (s.invalAll).ckpt = s.ckpt ∧ (s.invalAll).pw = s.pw := by
  unfold State.invalAll; (try dsimp only); (repeat' split) <;> simp [*]
@[simp] theorem State.invalTtlb_frame (t : Nat) :
    (s.invalTtlb t).pending = s.pending ∧ (s.invalTtlb t).nrt = s.nrt ∧ (s.invalTtlb t).fresh = s.fresh ∧ (s.invalTtlb t).mem = s.mem ∧ (s.invalTtlb t).rf = s.rf ∧ (s.invalTtlb t).host = s.host ∧ (s.invalTtlb t).cmds = s.cmds ∧ (s.invalTtlb t).net = s.net ∧ (s.invalTtlb t).egress = s.egress ∧ (s.invalTtlb t).eng = s.eng ∧ (s.invalTtlb t).lease = s.lease ∧ (s.invalTtlb t).sec = s.sec ∧ (s.invalTtlb t).fw = s.fw ∧ (s.invalTtlb t).integ = s.integ ∧ (s.invalTtlb t).ckpt = s.ckpt ∧ (s.invalTtlb t).pw = s.pw := by
  unfold State.invalTtlb; (try dsimp only); (repeat' split) <;> simp [*]
@[simp] theorem State.shapeLoad_frame :
    (s.shapeLoad).pending = s.pending ∧ (s.shapeLoad).nrt = s.nrt ∧ (s.shapeLoad).fresh = s.fresh ∧ (s.shapeLoad).mem = s.mem ∧ (s.shapeLoad).host = s.host ∧ (s.shapeLoad).cmds = s.cmds ∧ (s.shapeLoad).net = s.net ∧ (s.shapeLoad).egress = s.egress ∧ (s.shapeLoad).kv = s.kv ∧ (s.shapeLoad).eng = s.eng ∧ (s.shapeLoad).lease = s.lease ∧ (s.shapeLoad).sec = s.sec ∧ (s.shapeLoad).fw = s.fw ∧ (s.shapeLoad).integ = s.integ ∧ (s.shapeLoad).ckpt = s.ckpt ∧ (s.shapeLoad).pw = s.pw := by
  unfold State.shapeLoad; (try dsimp only); (repeat' split) <;> simp [*]
@[simp] theorem State.shapeStore_frame :
    (s.shapeStore).pending = s.pending ∧ (s.shapeStore).nrt = s.nrt ∧ (s.shapeStore).fresh = s.fresh ∧ (s.shapeStore).mem = s.mem ∧ (s.shapeStore).cmds = s.cmds ∧ (s.shapeStore).net = s.net ∧ (s.shapeStore).egress = s.egress ∧ (s.shapeStore).eng = s.eng ∧ (s.shapeStore).lease = s.lease ∧ (s.shapeStore).sec = s.sec ∧ (s.shapeStore).fw = s.fw ∧ (s.shapeStore).integ = s.integ ∧ (s.shapeStore).ckpt = s.ckpt ∧ (s.shapeStore).pw = s.pw := by
  unfold State.shapeStore; (try dsimp only); (repeat' split) <;> simp [*]
@[simp] theorem State.flipArm_frame (pg : Nat) :
    (s.flipArm pg).pending = s.pending ∧ (s.flipArm pg).nrt = s.nrt ∧ (s.flipArm pg).fresh = s.fresh ∧ (s.flipArm pg).mem = s.mem ∧ (s.flipArm pg).host = s.host ∧ (s.flipArm pg).cmds = s.cmds ∧ (s.flipArm pg).net = s.net ∧ (s.flipArm pg).egress = s.egress ∧ (s.flipArm pg).kv = s.kv ∧ (s.flipArm pg).eng = s.eng ∧ (s.flipArm pg).lease = s.lease ∧ (s.flipArm pg).sec = s.sec ∧ (s.flipArm pg).fw = s.fw ∧ (s.flipArm pg).integ = s.integ ∧ (s.flipArm pg).ckpt = s.ckpt ∧ (s.flipArm pg).pw = s.pw := by
  unfold State.flipArm; (try dsimp only); (repeat' split) <;> simp [*]
@[simp] theorem State.resetHeld_frame (pg : Nat) :
    (s.resetHeld pg).pending = s.pending ∧ (s.resetHeld pg).nrt = s.nrt ∧ (s.resetHeld pg).fresh = s.fresh ∧ (s.resetHeld pg).mem = s.mem ∧ (s.resetHeld pg).rf = s.rf ∧ (s.resetHeld pg).cmds = s.cmds ∧ (s.resetHeld pg).net = s.net ∧ (s.resetHeld pg).eng = s.eng ∧ (s.resetHeld pg).lease = s.lease ∧ (s.resetHeld pg).sec = s.sec ∧ (s.resetHeld pg).fw = s.fw ∧ (s.resetHeld pg).ckpt = s.ckpt ∧ (s.resetHeld pg).pw = s.pw := by
  unfold State.resetHeld; (try dsimp only); (repeat' split) <;> simp [*]
@[simp] theorem State.softReset_frame (pg : Nat) (pass : Bool) :
    (s.softReset pg pass).pending = s.pending ∧ (s.softReset pg pass).nrt = s.nrt ∧ (s.softReset pg pass).fresh = s.fresh ∧ (s.softReset pg pass).mem = s.mem ∧ (s.softReset pg pass).cmds = s.cmds ∧ (s.softReset pg pass).net = s.net ∧ (s.softReset pg pass).eng = s.eng ∧ (s.softReset pg pass).lease = s.lease ∧ (s.softReset pg pass).sec = s.sec ∧ (s.softReset pg pass).fw = s.fw ∧ (s.softReset pg pass).ckpt = s.ckpt ∧ (s.softReset pg pass).pw = s.pw := by
  unfold State.softReset; (try dsimp only); (repeat' split) <;> simp [*]
@[simp] theorem State.serveLinks_frame :
    (s.serveLinks).pending = s.pending ∧ (s.serveLinks).nrt = s.nrt ∧ (s.serveLinks).fresh = s.fresh ∧ (s.serveLinks).mem = s.mem ∧ (s.serveLinks).cmds = s.cmds ∧ (s.serveLinks).net = s.net ∧ (s.serveLinks).egress = s.egress ∧ (s.serveLinks).kv = s.kv ∧ (s.serveLinks).eng = s.eng ∧ (s.serveLinks).lease = s.lease ∧ (s.serveLinks).sec = s.sec ∧ (s.serveLinks).fw = s.fw ∧ (s.serveLinks).integ = s.integ ∧ (s.serveLinks).ckpt = s.ckpt ∧ (s.serveLinks).pw = s.pw := by
  unfold State.serveLinks; (try dsimp only); (repeat' split) <;> simp [*]
@[simp] theorem State.cappedMs_frame :
    (s.cappedMs).pending = s.pending ∧ (s.cappedMs).nrt = s.nrt ∧ (s.cappedMs).fresh = s.fresh ∧ (s.cappedMs).mem = s.mem ∧ (s.cappedMs).host = s.host ∧ (s.cappedMs).cmds = s.cmds ∧ (s.cappedMs).net = s.net ∧ (s.cappedMs).egress = s.egress ∧ (s.cappedMs).kv = s.kv ∧ (s.cappedMs).eng = s.eng ∧ (s.cappedMs).lease = s.lease ∧ (s.cappedMs).sec = s.sec ∧ (s.cappedMs).fw = s.fw ∧ (s.cappedMs).integ = s.integ ∧ (s.cappedMs).ckpt = s.ckpt ∧ (s.cappedMs).pw = s.pw := by
  unfold State.cappedMs; (try dsimp only); (repeat' split) <;> simp [*]
@[simp] theorem State.leakTick_frame (pg : Nat) :
    (s.leakTick pg).pending = s.pending ∧ (s.leakTick pg).nrt = s.nrt ∧ (s.leakTick pg).fresh = s.fresh ∧ (s.leakTick pg).mem = s.mem ∧ (s.leakTick pg).host = s.host ∧ (s.leakTick pg).cmds = s.cmds ∧ (s.leakTick pg).net = s.net ∧ (s.leakTick pg).egress = s.egress ∧ (s.leakTick pg).kv = s.kv ∧ (s.leakTick pg).lease = s.lease ∧ (s.leakTick pg).sec = s.sec ∧ (s.leakTick pg).fw = s.fw ∧ (s.leakTick pg).integ = s.integ ∧ (s.leakTick pg).ckpt = s.ckpt ∧ (s.leakTick pg).pw = s.pw := by
  unfold State.leakTick; (try dsimp only); (repeat' split) <;> simp [*]
@[simp] theorem State.linkFalls_frame (l : Link) (cause : Nat) :
    (s.linkFalls l cause).pending = s.pending ∧ (s.linkFalls l cause).nrt = s.nrt ∧ (s.linkFalls l cause).fresh = s.fresh ∧ (s.linkFalls l cause).mem = s.mem ∧ (s.linkFalls l cause).cmds = s.cmds ∧ (s.linkFalls l cause).net = s.net ∧ (s.linkFalls l cause).egress = s.egress ∧ (s.linkFalls l cause).kv = s.kv ∧ (s.linkFalls l cause).eng = s.eng ∧ (s.linkFalls l cause).lease = s.lease ∧ (s.linkFalls l cause).sec = s.sec ∧ (s.linkFalls l cause).fw = s.fw ∧ (s.linkFalls l cause).integ = s.integ ∧ (s.linkFalls l cause).ckpt = s.ckpt ∧ (s.linkFalls l cause).pw = s.pw := by
  unfold State.linkFalls; (try dsimp only); (repeat' split) <;> simp [*]
@[simp] theorem State.loseGrad_frame (num : Nat) :
    (s.loseGrad num).pending = s.pending ∧ (s.loseGrad num).nrt = s.nrt ∧ (s.loseGrad num).fresh = s.fresh ∧ (s.loseGrad num).mem = s.mem ∧ (s.loseGrad num).rf = s.rf ∧ (s.loseGrad num).host = s.host ∧ (s.loseGrad num).cmds = s.cmds ∧ (s.loseGrad num).net = s.net ∧ (s.loseGrad num).egress = s.egress ∧ (s.loseGrad num).kv = s.kv ∧ (s.loseGrad num).lease = s.lease ∧ (s.loseGrad num).sec = s.sec ∧ (s.loseGrad num).fw = s.fw ∧ (s.loseGrad num).integ = s.integ ∧ (s.loseGrad num).ckpt = s.ckpt ∧ (s.loseGrad num).pw = s.pw := by
  unfold State.loseGrad; (try dsimp only); (repeat' split) <;> simp [*]
@[simp] theorem State.failEngine_frame (t e : Nat) :
    (s.failEngine t e).pending = s.pending ∧ (s.failEngine t e).nrt = s.nrt ∧ (s.failEngine t e).fresh = s.fresh ∧ (s.failEngine t e).mem = s.mem ∧ (s.failEngine t e).host = s.host ∧ (s.failEngine t e).cmds = s.cmds ∧ (s.failEngine t e).net = s.net ∧ (s.failEngine t e).egress = s.egress ∧ (s.failEngine t e).kv = s.kv ∧ (s.failEngine t e).lease = s.lease ∧ (s.failEngine t e).sec = s.sec ∧ (s.failEngine t e).fw = s.fw ∧ (s.failEngine t e).integ = s.integ ∧ (s.failEngine t e).ckpt = s.ckpt ∧ (s.failEngine t e).pw = s.pw := by
  unfold State.failEngine; (try dsimp only); (repeat' split) <;> simp [*]
@[simp] theorem State.losePacket_frame (port : Nat) :
    (s.losePacket port).pending = s.pending ∧ (s.losePacket port).nrt = s.nrt ∧ (s.losePacket port).fresh = s.fresh ∧ (s.losePacket port).mem = s.mem ∧ (s.losePacket port).rf = s.rf ∧ (s.losePacket port).host = s.host ∧ (s.losePacket port).cmds = s.cmds ∧ (s.losePacket port).egress = s.egress ∧ (s.losePacket port).kv = s.kv ∧ (s.losePacket port).eng = s.eng ∧ (s.losePacket port).lease = s.lease ∧ (s.losePacket port).sec = s.sec ∧ (s.losePacket port).fw = s.fw ∧ (s.losePacket port).integ = s.integ ∧ (s.losePacket port).ckpt = s.ckpt ∧ (s.losePacket port).pw = s.pw := by
  unfold State.losePacket; (try dsimp only); (repeat' split) <;> simp [*]
@[simp] theorem State.loseTable_frame (t set way : Nat) :
    (s.loseTable t set way).pending = s.pending ∧ (s.loseTable t set way).nrt = s.nrt ∧ (s.loseTable t set way).fresh = s.fresh ∧ (s.loseTable t set way).mem = s.mem ∧ (s.loseTable t set way).cmds = s.cmds ∧ (s.loseTable t set way).net = s.net ∧ (s.loseTable t set way).egress = s.egress ∧ (s.loseTable t set way).lease = s.lease ∧ (s.loseTable t set way).sec = s.sec ∧ (s.loseTable t set way).fw = s.fw ∧ (s.loseTable t set way).integ = s.integ ∧ (s.loseTable t set way).ckpt = s.ckpt ∧ (s.loseTable t set way).pw = s.pw := by
  unfold State.loseTable; (try dsimp only); (repeat' split) <;> simp [*]
@[simp] theorem State.passRead_frame (t kind place : Nat) :
    (s.passRead t kind place).pending = s.pending ∧ (s.passRead t kind place).nrt = s.nrt ∧ (s.passRead t kind place).fresh = s.fresh ∧ (s.passRead t kind place).mem = s.mem ∧ (s.passRead t kind place).host = s.host ∧ (s.passRead t kind place).cmds = s.cmds ∧ (s.passRead t kind place).net = s.net ∧ (s.passRead t kind place).egress = s.egress ∧ (s.passRead t kind place).kv = s.kv ∧ (s.passRead t kind place).eng = s.eng ∧ (s.passRead t kind place).lease = s.lease ∧ (s.passRead t kind place).sec = s.sec ∧ (s.passRead t kind place).fw = s.fw ∧ (s.passRead t kind place).ckpt = s.ckpt ∧ (s.passRead t kind place).pw = s.pw := by
  unfold State.passRead; (try dsimp only); (repeat' split) <;> simp [*]
@[simp] theorem State.passLate_frame (t kind : Nat) :
    (s.passLate t kind).pending = s.pending ∧ (s.passLate t kind).nrt = s.nrt ∧ (s.passLate t kind).fresh = s.fresh ∧ (s.passLate t kind).mem = s.mem ∧ (s.passLate t kind).cmds = s.cmds ∧ (s.passLate t kind).net = s.net ∧ (s.passLate t kind).egress = s.egress ∧ (s.passLate t kind).kv = s.kv ∧ (s.passLate t kind).eng = s.eng ∧ (s.passLate t kind).lease = s.lease ∧ (s.passLate t kind).sec = s.sec ∧ (s.passLate t kind).fw = s.fw ∧ (s.passLate t kind).integ = s.integ ∧ (s.passLate t kind).ckpt = s.ckpt ∧ (s.passLate t kind).pw = s.pw := by
  unfold State.passLate; (try dsimp only); (repeat' split) <;> simp [*]

end Sys2Proof.Machine
end

