-- ==== Sys2Proof/Laws/FrameMore.lean ====
section
/-!
SUPPORT. What operations leave as it was: those that reach memory's codes, the pool, the scheduler or the checkpoints through a longer
path.
-/

namespace Sys2Proof.Machine

variable (s : State)

@[simp] theorem State.countRead_frame (a : Nat) (o : ReadOutcome) :
    (s.countRead a o).1.pending = s.pending ∧ (s.countRead a o).1.nrt = s.nrt ∧ (s.countRead a o).1.mem = s.mem ∧ (s.countRead a o).1.cmds = s.cmds ∧ (s.countRead a o).1.net = s.net ∧ (s.countRead a o).1.egress = s.egress ∧ (s.countRead a o).1.eng = s.eng ∧ (s.countRead a o).1.lease = s.lease ∧ (s.countRead a o).1.sec = s.sec ∧ (s.countRead a o).1.ckpt = s.ckpt ∧ (s.countRead a o).1.pw = s.pw := by
  and_intros <;> (unfold State.countRead; (try dsimp only); (repeat' split) <;> simp [*])
@[simp] theorem State.cleared_frame (a n : Nat) :
    (s.cleared a n).pending = s.pending ∧ (s.cleared a n).nrt = s.nrt ∧ (s.cleared a n).fresh = s.fresh ∧ (s.cleared a n).mem = s.mem ∧ (s.cleared a n).rf = s.rf ∧ (s.cleared a n).host = s.host ∧ (s.cleared a n).cmds = s.cmds ∧ (s.cleared a n).net = s.net ∧ (s.cleared a n).egress = s.egress ∧ (s.cleared a n).eng = s.eng ∧ (s.cleared a n).lease = s.lease ∧ (s.cleared a n).sec = s.sec ∧ (s.cleared a n).fw = s.fw ∧ (s.cleared a n).ckpt = s.ckpt ∧ (s.cleared a n).pw = s.pw := by
  and_intros <;> rfl
@[simp] theorem State.rewrote_frame (a n : Nat) :
    (s.rewrote a n).pending = s.pending ∧ (s.rewrote a n).nrt = s.nrt ∧ (s.rewrote a n).fresh = s.fresh ∧ (s.rewrote a n).mem = s.mem ∧ (s.rewrote a n).host = s.host ∧ (s.rewrote a n).cmds = s.cmds ∧ (s.rewrote a n).net = s.net ∧ (s.rewrote a n).egress = s.egress ∧ (s.rewrote a n).eng = s.eng ∧ (s.rewrote a n).lease = s.lease ∧ (s.rewrote a n).sec = s.sec ∧ (s.rewrote a n).fw = s.fw ∧ (s.rewrote a n).ckpt = s.ckpt ∧ (s.rewrote a n).pw = s.pw := by
  and_intros <;> (unfold State.rewrote; (try dsimp only); (repeat' split) <;> simp [*])
@[simp] theorem State.flushEntry_frame (a : Nat) (ue : Bool) :
    (s.flushEntry a ue).pending = s.pending ∧ (s.flushEntry a ue).nrt = s.nrt ∧ (s.flushEntry a ue).mem = s.mem ∧ (s.flushEntry a ue).cmds = s.cmds ∧ (s.flushEntry a ue).net = s.net ∧ (s.flushEntry a ue).egress = s.egress ∧ (s.flushEntry a ue).eng = s.eng ∧ (s.flushEntry a ue).lease = s.lease ∧ (s.flushEntry a ue).sec = s.sec ∧ (s.flushEntry a ue).ckpt = s.ckpt ∧ (s.flushEntry a ue).pw = s.pw := by
  and_intros <;> (unfold State.flushEntry; (try dsimp only); (repeat' split) <;> simp [*])
@[simp] theorem State.narrowWrite_frame (a n writer : Nat) :
    (s.narrowWrite a n writer).pending = s.pending ∧ (s.narrowWrite a n writer).nrt = s.nrt ∧ (s.narrowWrite a n writer).mem = s.mem ∧ (s.narrowWrite a n writer).cmds = s.cmds ∧ (s.narrowWrite a n writer).net = s.net ∧ (s.narrowWrite a n writer).egress = s.egress ∧ (s.narrowWrite a n writer).eng = s.eng ∧ (s.narrowWrite a n writer).lease = s.lease ∧ (s.narrowWrite a n writer).sec = s.sec ∧ (s.narrowWrite a n writer).ckpt = s.ckpt ∧ (s.narrowWrite a n writer).pw = s.pw := by
  and_intros <;> (unfold State.narrowWrite; (try dsimp only); (repeat' split) <;> simp [*])
@[simp] theorem State.noteWrite_frame (a n writer : Nat) :
    (s.noteWrite a n writer).pending = s.pending ∧ (s.noteWrite a n writer).nrt = s.nrt ∧ (s.noteWrite a n writer).mem = s.mem ∧ (s.noteWrite a n writer).cmds = s.cmds ∧ (s.noteWrite a n writer).net = s.net ∧ (s.noteWrite a n writer).egress = s.egress ∧ (s.noteWrite a n writer).eng = s.eng ∧ (s.noteWrite a n writer).lease = s.lease ∧ (s.noteWrite a n writer).sec = s.sec ∧ (s.noteWrite a n writer).ckpt = s.ckpt ∧ (s.noteWrite a n writer).pw = s.pw := by
  and_intros <;> (unfold State.noteWrite; (try dsimp only); (repeat' split) <;> simp [*])
@[simp] theorem State.putBytes_frame (a : Nat) (d : List Byte) (writer : Nat) :
    (s.putBytes a d writer).pending = s.pending ∧ (s.putBytes a d writer).nrt = s.nrt ∧ (s.putBytes a d writer).cmds = s.cmds ∧ (s.putBytes a d writer).net = s.net ∧ (s.putBytes a d writer).egress = s.egress ∧ (s.putBytes a d writer).eng = s.eng ∧ (s.putBytes a d writer).lease = s.lease ∧ (s.putBytes a d writer).sec = s.sec ∧ (s.putBytes a d writer).ckpt = s.ckpt ∧ (s.putBytes a d writer).pw = s.pw := by
  and_intros <;> (unfold State.putBytes; (try dsimp only); (repeat' split) <;> simp [*])
@[simp] theorem State.mergeFlush_frame (channel addr : Nat) (ue : Bool) :
    (s.mergeFlush channel addr ue).pending = s.pending ∧ (s.mergeFlush channel addr ue).nrt = s.nrt ∧ (s.mergeFlush channel addr ue).mem = s.mem ∧ (s.mergeFlush channel addr ue).cmds = s.cmds ∧ (s.mergeFlush channel addr ue).net = s.net ∧ (s.mergeFlush channel addr ue).egress = s.egress ∧ (s.mergeFlush channel addr ue).eng = s.eng ∧ (s.mergeFlush channel addr ue).lease = s.lease ∧ (s.mergeFlush channel addr ue).sec = s.sec ∧ (s.mergeFlush channel addr ue).ckpt = s.ckpt ∧ (s.mergeFlush channel addr ue).pw = s.pw := by
  and_intros <;> (unfold State.mergeFlush; (try dsimp only); (repeat' split) <;> simp [*])
@[simp] theorem State.copyBack_frame (l : Line) (q : Nat) (rec' : Bool) :
    (s.copyBack l q rec').pending = s.pending ∧ (s.copyBack l q rec').nrt = s.nrt ∧ (s.copyBack l q rec').fresh = s.fresh ∧ (s.copyBack l q rec').mem = s.mem ∧ (s.copyBack l q rec').cmds = s.cmds ∧ (s.copyBack l q rec').net = s.net ∧ (s.copyBack l q rec').egress = s.egress ∧ (s.copyBack l q rec').eng = s.eng ∧ (s.copyBack l q rec').lease = s.lease ∧ (s.copyBack l q rec').sec = s.sec ∧ (s.copyBack l q rec').fw = s.fw ∧ (s.copyBack l q rec').ckpt = s.ckpt ∧ (s.copyBack l q rec').pw = s.pw := by
  and_intros <;> (unfold State.copyBack; (try dsimp only); (repeat' split) <;> simp [*])
@[simp] theorem State.writeBack_frame (l : Line) :
    (s.writeBack l).pending = s.pending ∧ (s.writeBack l).nrt = s.nrt ∧ (s.writeBack l).fresh = s.fresh ∧ (s.writeBack l).mem = s.mem ∧ (s.writeBack l).cmds = s.cmds ∧ (s.writeBack l).net = s.net ∧ (s.writeBack l).egress = s.egress ∧ (s.writeBack l).eng = s.eng ∧ (s.writeBack l).lease = s.lease ∧ (s.writeBack l).sec = s.sec ∧ (s.writeBack l).fw = s.fw ∧ (s.writeBack l).ckpt = s.ckpt ∧ (s.writeBack l).pw = s.pw := by
  and_intros <;> (unfold State.writeBack; (try dsimp only); (repeat' split) <;> simp [*])
@[simp] theorem State.fillLine_frame (l : Line) :
    (s.fillLine l).pending = s.pending ∧ (s.fillLine l).nrt = s.nrt ∧ (s.fillLine l).fresh = s.fresh ∧ (s.fillLine l).mem = s.mem ∧ (s.fillLine l).host = s.host ∧ (s.fillLine l).cmds = s.cmds ∧ (s.fillLine l).net = s.net ∧ (s.fillLine l).egress = s.egress ∧ (s.fillLine l).eng = s.eng ∧ (s.fillLine l).lease = s.lease ∧ (s.fillLine l).sec = s.sec ∧ (s.fillLine l).fw = s.fw ∧ (s.fillLine l).ckpt = s.ckpt ∧ (s.fillLine l).pw = s.pw := by
  and_intros <;> (unfold State.fillLine; (try dsimp only); (repeat' split) <;> simp [*])
@[simp] theorem State.releaseHold_frame (f : Nat) :
    (s.releaseHold f).pending = s.pending ∧ (s.releaseHold f).nrt = s.nrt ∧ (s.releaseHold f).fresh = s.fresh ∧ (s.releaseHold f).mem = s.mem ∧ (s.releaseHold f).cmds = s.cmds ∧ (s.releaseHold f).net = s.net ∧ (s.releaseHold f).egress = s.egress ∧ (s.releaseHold f).eng = s.eng ∧ (s.releaseHold f).lease = s.lease ∧ (s.releaseHold f).sec = s.sec ∧ (s.releaseHold f).fw = s.fw ∧ (s.releaseHold f).ckpt = s.ckpt ∧ (s.releaseHold f).pw = s.pw := by
  and_intros <;> (unfold State.releaseHold; (try dsimp only); (repeat' split) <;> simp [*])

end Sys2Proof.Machine
end

