-- ==== Sys2Proof/Laws/Memory.lean ====
section
/-!
SUPPORT. Laws of tables and of byte memory: an entry put is found and the others stay; every memory operation keeps the canonical form;
a byte written is read back and every other byte stays as it was.
-/

namespace Sys2Proof

/-! ### Tables -/

section Tables
variable {κ α : Type} [DecidableEq κ]

@[simp] theorem AL.get_nil (k : κ) : AL.get k ([] : AL κ α) = none := rfl

@[simp] theorem AL.get_put (k : κ) (v : α) (t : AL κ α) : AL.get k (AL.put k v t) = some v := by
  induction t with
  | nil => simp [AL.put, AL.get]
  | cons p t ih =>
    obtain ⟨j, w⟩ := p
    by_cases h : j = k <;> simp [AL.put, AL.get, h, ih]

theorem AL.get_put_ne {k j : κ} (h : j ≠ k) (v : α) (t : AL κ α) : AL.get j (AL.put k v t) = AL.get j t := by
  induction t with
  | nil => simp [AL.put, AL.get, h.symm]
  | cons p t ih =>
    obtain ⟨i, w⟩ := p
    by_cases e : i = k
    · subst e; simp [AL.put, AL.get, h.symm]
    · by_cases f : i = j
      · subst f; simp [AL.put, AL.get, e]
      · simp [AL.put, AL.get, e, f, ih]

@[simp] theorem AL.get_del (k : κ) (t : AL κ α) : AL.get k (AL.del k t) = none := by
  induction t with
  | nil => rfl
  | cons p t ih =>
    obtain ⟨j, w⟩ := p
    have e : AL.del k ((j, w) :: t) = if j = k then AL.del k t else (j, w) :: AL.del k t := by
      by_cases h : j = k <;> simp [AL.del, h]
    rw [e]; split
    · exact ih
    · rename_i h; simp [AL.get, h, ih]

theorem AL.get_del_ne {k j : κ} (h : j ≠ k) (t : AL κ α) : AL.get j (AL.del k t) = AL.get j t := by
  induction t with
  | nil => rfl
  | cons p t ih =>
    obtain ⟨i, w⟩ := p
    have e : AL.del k ((i, w) :: t) = if i = k then AL.del k t else (i, w) :: AL.del k t := by
      by_cases h : i = k <;> simp [AL.del, h]
    rw [e]; split
    · rename_i hk; subst hk; rw [ih]; simp [AL.get, h.symm]
    · by_cases f : i = j <;> simp [AL.get, f, ih]

@[simp] theorem AL.getD_put (k : κ) (d v : α) (t : AL κ α) : AL.getD k d (AL.put k v t) = v := by simp [AL.getD]

theorem AL.getD_put_ne {k j : κ} (h : j ≠ k) (d v : α) (t : AL κ α) : AL.getD j d (AL.put k v t) = AL.getD j d t := by
  simp [AL.getD, AL.get_put_ne h]

end Tables

/-! ### The canonical form -/

theorem Mem.wf_tail {c : Host.Cell} {t : Mem} (h : Mem.wf (c :: t) = true) : Mem.wf t = true := by
  match t, h with
  | [], _ => rfl
  | _ :: _, h => simp only [Mem.wf, Bool.and_eq_true] at h; exact h.2

theorem Mem.wf_head {c : Host.Cell} {t : Mem} (h : Mem.wf (c :: t) = true) : c.2 ≠ 0 := by
  match t, h with
  | [], h => simpa [Mem.wf] using h
  | _ :: _, h => simp only [Mem.wf, Bool.and_eq_true, bne_iff_ne] at h; exact h.1.1

theorem Mem.wf_lt {c : Host.Cell} {t : Mem} (h : Mem.wf (c :: t) = true) : ∀ d ∈ t, c.1 < d.1 := by
  induction t generalizing c with
  | nil => intro d hd; cases hd
  | cons e t ih =>
    have hlt : c.1 < e.1 := by simp only [Mem.wf, Bool.and_eq_true, decide_eq_true_eq] at h; exact h.1.2
    intro d hd
    rcases List.mem_cons.mp hd with rfl | hd
    · exact hlt
    · exact lt_trans hlt (ih (Mem.wf_tail h) d hd)

theorem Mem.wf_cons {c : Host.Cell} {t : Mem} (h0 : c.2 ≠ 0) (hl : ∀ d ∈ t, c.1 < d.1) (ht : Mem.wf t = true) :
    Mem.wf (c :: t) = true := by
  cases t with
  | nil => simpa [Mem.wf] using h0
  | cons d t => simp only [Mem.wf, Bool.and_eq_true, bne_iff_ne, decide_eq_true_eq]; exact ⟨⟨h0, hl d (by simp)⟩, ht⟩

theorem Mem.mem_write {a : Nat} {v : Byte} {m : Mem} {c : Host.Cell} (h : c ∈ m.write a v) : c ∈ m ∨ c = (a, v) := by
  induction m with
  | nil => unfold Mem.write at h; split at h <;> simp_all
  | cons e t ih =>
    unfold Mem.write at h
    split at h <;> [split at h; split at h <;> [split at h; skip]]
    · exact .inl h
    · rcases List.mem_cons.mp h with h | h
      · exact .inr h
      · exact .inl h
    · exact .inl (List.mem_cons_of_mem _ h)
    · rcases List.mem_cons.mp h with h | h
      · exact .inr h
      · exact .inl (List.mem_cons_of_mem _ h)
    · rcases List.mem_cons.mp h with h | h
      · exact .inl (h ▸ List.mem_cons_self)
      · rcases ih h with h | h
        · exact .inl (List.mem_cons_of_mem _ h)
        · exact .inr h

/-- A write keeps the canonical form. -/
theorem Mem.wf_write (a : Nat) (v : Byte) {m : Mem} (h : m.wf = true) : (m.write a v).wf = true := by
  induction m with
  | nil => unfold Mem.write; split <;> simp_all [Mem.wf]
  | cons c t ih =>
    unfold Mem.write
    split <;> [split; split <;> [split; skip]]
    · exact h
    · rename_i hlt hv
      refine Mem.wf_cons hv (fun d hd => ?_) h
      rcases List.mem_cons.mp hd with rfl | hd
      · exact hlt
      · exact lt_trans hlt (Mem.wf_lt h d hd)
    · exact Mem.wf_tail h
    · rename_i _ he hv
      exact Mem.wf_cons hv (fun d hd => he ▸ Mem.wf_lt h d hd) (Mem.wf_tail h)
    · rename_i hn he
      refine Mem.wf_cons (Mem.wf_head h) (fun d hd => ?_) (ih (Mem.wf_tail h))
      rcases Mem.mem_write hd with hd | rfl
      · exact Mem.wf_lt h d hd
      · exact lt_of_le_of_ne (not_lt.mp hn) (fun e => he e.symm)

theorem Mem.wf_writeN (a : Nat) (bs : List Byte) {m : Mem} (h : m.wf = true) : (m.writeN a bs).wf = true := by
  induction bs generalizing a m with
  | nil => exact h
  | cons b bs ih => exact ih (a + 1) (Mem.wf_write a b h)

theorem Mem.wf_filter (p : Host.Cell → Bool) {m : Mem} (h : m.wf = true) : Mem.wf (m.filter p) = true := by
  induction m with
  | nil => rfl
  | cons c t ih =>
    by_cases hc : p c = true
    · rw [List.filter_cons_of_pos hc]
      exact Mem.wf_cons (Mem.wf_head h) (fun d hd => Mem.wf_lt h d (List.mem_filter.mp hd).1) (ih (Mem.wf_tail h))
    · rw [List.filter_cons_of_neg hc]; exact ih (Mem.wf_tail h)

theorem Mem.wf_zero (a n : Nat) {m : Mem} (h : m.wf = true) : (m.zero a n).wf = true := Mem.wf_filter _ h

theorem Mem.wf_foldl_write (l : List Host.Cell) : ∀ {m : Mem}, m.wf = true → Mem.wf (l.foldl (fun m c => m.write c.1 c.2) m) = true := by
  induction l with
  | nil => exact fun h => h
  | cons c l ih => exact fun h => ih (Mem.wf_write c.1 c.2 h)

theorem Mem.wf_graft (a n : Nat) (src : Mem) {m : Mem} (h : m.wf = true) : (Mem.graft a n src m).wf = true :=
  Mem.wf_foldl_write _ (Mem.wf_zero a n h)

/-- The memory after reset is canonical. -/
theorem Mem.wf_reset : Machine.State.reset.mem.wf = true := rfl

/-! ### What is read -/

theorem Mem.read_low {a : Nat} {m : Mem} (h : ∀ c ∈ m, a < c.1) : m.read a = 0 := by
  cases m with
  | nil => rfl
  | cons c t =>
    have hc := h c (by simp)
    simp [Mem.read, ne_of_gt hc, hc]

theorem Mem.read_write (a : Nat) (v : Byte) {m : Mem} (h : m.wf = true) : (m.write a v).read a = v := by
  induction m with
  | nil => unfold Mem.write; split <;> simp_all [Mem.read]
  | cons c t ih =>
    unfold Mem.write
    split <;> [split; split <;> [split; skip]]
    · rename_i hlt hv; rw [hv]; simp [Mem.read, ne_of_gt hlt, hlt]
    · simp [Mem.read]
    · rename_i _ he hv; rw [hv]; exact Mem.read_low (fun d hd => he ▸ Mem.wf_lt h d hd)
    · simp [Mem.read]
    · rename_i hn he
      have e : c.1 ≠ a := fun e => he e.symm
      simp [Mem.read, e, hn, ih (Mem.wf_tail h)]

theorem Mem.read_write_ne {a b : Nat} (hab : b ≠ a) (v : Byte) {m : Mem} (h : m.wf = true) : (m.write a v).read b = m.read b := by
  induction m with
  | nil => unfold Mem.write; split <;> simp [Mem.read, hab.symm]
  | cons c t ih =>
    unfold Mem.write
    split <;> [split; split <;> [split; skip]]
    · rfl
    · rename_i hlt _
      by_cases hb : b < a
      · have : b < c.1 := lt_trans hb hlt
        simp [Mem.read, hab.symm, hb, ne_of_gt this, this]
      · have hb' : a < b := lt_of_le_of_ne (not_lt.mp hb) (fun e => hab e.symm)
        simp [Mem.read, hab.symm, hb]
    · rename_i _ he _
      have hc : c.1 ≠ b := fun e => hab (e ▸ he).symm
      by_cases hb : b < c.1
      · have : Mem.read b t = 0 := Mem.read_low (fun d hd => lt_trans hb (Mem.wf_lt h d hd))
        simp [Mem.read, hc, hb, this]
      · simp [Mem.read, hc, hb]
    · rename_i _ he _
      have hc : c.1 ≠ b := fun e => hab (e ▸ he).symm
      simp [Mem.read, hc, he]
    · simp [Mem.read, ih (Mem.wf_tail h)]

theorem Mem.read_writeN_out {a b : Nat} (bs : List Byte) (hb : b < a ∨ a + bs.length ≤ b) {m : Mem} (h : m.wf = true) :
    (m.writeN a bs).read b = m.read b := by
  induction bs generalizing a m with
  | nil => rfl
  | cons x bs ih =>
    have hne : b ≠ a := by rcases hb with hb | hb <;> [omega; (simp at hb; omega)]
    show (Mem.writeN (a + 1) bs (m.write a x)).read b = m.read b
    rw [ih (by simp at hb; omega) (Mem.wf_write a x h), Mem.read_write_ne hne x h]

theorem Mem.readN_writeN (a : Nat) (bs : List Byte) {m : Mem} (h : m.wf = true) : (m.writeN a bs).readN a bs.length = bs := by
  induction bs generalizing a m with
  | nil => rfl
  | cons x bs ih =>
    show (Mem.writeN (a + 1) bs (m.write a x)).read a :: Mem.readN (a + 1) bs.length (Mem.writeN (a + 1) bs (m.write a x)) = x :: bs
    rw [ih (a + 1) (Mem.wf_write a x h), Mem.read_writeN_out bs (.inl (Nat.lt_succ_self a)) (Mem.wf_write a x h), Mem.read_write a x h]

theorem Mem.readN_congr {m k : Mem} {a n : Nat} (h : ∀ i < n, m.read (a + i) = k.read (a + i)) : m.readN a n = k.readN a n := by
  induction n generalizing a with
  | zero => rfl
  | succ n ih =>
    show m.read a :: m.readN (a + 1) n = k.read a :: k.readN (a + 1) n
    rw [show m.read a = k.read a from h 0 (Nat.succ_pos n), ih (fun i hi => by
      have := h (i + 1) (by omega); rwa [show a + (i + 1) = a + 1 + i by omega] at this)]

theorem Mem.length_readN (a n : Nat) (m : Mem) : (m.readN a n).length = n := by
  induction n generalizing a with
  | zero => rfl
  | succ n ih => simp [Mem.readN, ih]

end Sys2Proof
end

