-- ==== Sys2Proof/Laws/MemoryOps.lean ====
section
/-!
SUPPORT. The operations over State that write memory keep its canonical form, and what a write of the ring window or of plain memory
leaves in memory.
-/

namespace Sys2Proof.Machine

/-- A fold of operations that keep the canonical form keeps it. -/
theorem State.foldl_wf {α : Type} (g : State → α → State) (h : ∀ s a, s.mem.wf = true → (g s a).mem.wf = true) (l : List α) (s : State)
    (hs : s.mem.wf = true) : (l.foldl g s).mem.wf = true := by
  induction l generalizing s with
  | nil => exact hs
  | cons x xs ih => exact ih _ (h s x hs)

theorem Mem.foldl_wf {α : Type} (g : Mem → α → Mem) (h : ∀ m a, m.wf = true → (g m a).wf = true) (l : List α) (m : Mem)
    (hm : m.wf = true) : (l.foldl g m).wf = true := by
  induction l generalizing m with
  | nil => exact hm
  | cons x xs ih => exact ih _ (h m x hm)

variable {s : State}

theorem State.wf_ite {c : Prop} [Decidable c] {a b : State} (ha : a.mem.wf = true) (hb : b.mem.wf = true) :
    (if c then a else b).mem.wf = true := by split <;> assumption

theorem State.wf_ringWrite (h : s.mem.wf = true) (a : Nat) (d : List Byte) : (s.ringWrite a d).mem.wf = true := Mem.wf_writeN _ _ h

/-- Bytes written to the ring window are read back (Table 19-5). -/
theorem State.ringRead_ringWrite (h : s.mem.wf = true) (a : Nat) (d : List Byte) : (s.ringWrite a d).ringRead a d.length = d :=
  Mem.readN_writeN _ _ h

theorem State.wf_putBytes (h : s.mem.wf = true) (a : Nat) (d : List Byte) (w : Nat) : (s.putBytes a d w).mem.wf = true := by
  simp [State.putBytes, Mem.wf_writeN _ _ h]

theorem State.putBytes_mem (s : State) (a : Nat) (d : List Byte) (w : Nat) : (s.putBytes a d w).mem = s.mem.writeN a d := by
  simp [State.putBytes]

theorem State.wf_ringStart (h : s.mem.wf = true) (n : Nat) : (s.ringStart n).mem.wf = true := by
  simp [State.ringStart, Mem.wf_zero _ _ h]

theorem State.wf_writeRecord (h : s.mem.wf = true) (n : Nat) (c : Completion) (t : Nat) : (s.writeRecord n c t).mem.wf = true := by
  unfold State.writeRecord; dsimp only; (repeat' split) <;> simp [Mem.wf_writeN _ _ h, h]

theorem State.wf_mbxAnswer (h : s.mem.wf = true) (m : MReq) (typ status detail : Nat) (body : List Byte) :
    (s.mbxAnswer m typ status detail body).mem.wf = true := by
  simp [State.mbxAnswer, Mem.wf_writeN _ _ h]

theorem State.wf_zeroRack (h : s.mem.wf = true) (ch k : Nat) : (s.zeroRack ch k).mem.wf = true := by
  unfold State.zeroRack; dsimp only; split <;> simp [Mem.wf_zero _ _ h]

theorem State.wf_zeroChunk (h : s.mem.wf = true) (a : Nat) : (s.zeroChunk a).mem.wf = true := by
  simp [State.zeroChunk, State.wf_zeroRack h]

theorem State.wf_settled (h : s.mem.wf = true) (a n : Nat) : (s.settled a n).mem.wf = true := by
  unfold State.settled; dsimp only; split
  · exact h
  · simp only [State.setKv_mem]
    generalize List.filter _ _ = l
    generalize s.mem = m at h
    induction l generalizing m with
    | nil => exact h
    | cons w l ih => exact ih _ (Mem.wf_writeN _ _ h)

theorem State.wf_regionWrite (h : s.mem.wf = true) (g : Region) (o : Nat) (d : List Byte) : (s.regionWrite g o d).mem.wf = true := by
  unfold State.regionWrite
  generalize regionSpans g o d.length = l
  induction l generalizing s d with
  | nil => exact h
  | cons p l ih => exact ih (State.wf_putBytes h _ _ _) _

theorem State.wf_freeRegion (h : s.mem.wf = true) (i : Nat) (g : Region) : (s.freeRegion i g).mem.wf = true := by
  unfold State.freeRegion; dsimp only
  rw [State.setRegion_mem, (State.refund_frame _ _ _).2.2.2.1]
  exact State.foldl_wf _ (fun s x hs => by simp [State.wf_zeroRack hs]) _ _ h

theorem State.wf_testRelease (h : s.mem.wf = true) (pg : Nat) : (s.testRelease pg).mem.wf = true := by
  unfold State.testRelease; dsimp only; (repeat' split) <;> simp [h, Mem.wf_zero _ _ h, State.wf_zeroRack]

end Sys2Proof.Machine
end

