-- ==== Sys2Proof/WellFormed.lean ====
section
/-!
DEFINITION. Well-formed commands: every operand lies in the range that the spec's field or address of it has. A meaning is defined on
every operand; what is outside these ranges is no command that the node can be sent.
-/

namespace Sys2Proof

/-- All numbers of a list lie below their bounds. -/
def below (l : List (Nat × Nat)) : Bool := l.all (fun p => decide (p.1 < p.2))

/-- Pages of the control space (Table 2-1). -/
def pageOk (p : Nat) : Bool := decide (p < 32768)
/-- A ring number (R463), or a connection index (R310) with a message number. -/
def Source.wf : Source → Bool
  | .ring n => decide (n < 4096)
  | .conn c m => below [(c, 2 ^ 18), (m, 2 ^ 24)]
/-- Table 2-17. -/
def Hdr.wf (h : Hdr) : Bool := below [(h.context, 4096), (h.flags, 64), (h.domain, 1024)]
/-- R41; the rest of a message of at most 1 MiB follows its descriptor (R324). -/
def Req.wf (q : Req) : Bool := q.src.wf && q.hdr.wf && decide (q.data.length ≤ 2 ^ 20)
def Req.fromRing (q : Req) : Bool := q.wf && (match q.src with | .ring _ => true | .conn _ _ => false)
def Req.fromPeer (q : Req) : Bool := q.wf && (match q.src with | .ring _ => false | .conn _ _ => true)

/-- Table 4-8. -/
def AppendD.wf (d : AppendD) : Bool :=
  below [(d.seq, 2 ^ 24), (d.layerFirst, 256), (d.layerCount, 257), (d.infmt, 256), (d.posFirst, 2 ^ 32), (d.tokens, 2 ^ 16),
    (d.rowAddr, 2 ^ 64), (d.rowBytes, 2 ^ 32)] && d.layerCount != 0
/-- Tables 6-3 and 8-1. -/
def AttnD.wf (d : AttnD) : Bool :=
  below [(d.seq, 2 ^ 24), (d.layer, 256), (d.kvFirst, 256), (d.kvCount, 257), (d.positions, 9), (d.groupSize, 17), (d.tokFirst, 2 ^ 32),
    (d.tokEnd, 2 ^ 32), (d.qpos, 2 ^ 32), (d.qfmt, 256), (d.mask, 256), (d.qheadFirst, 256), (d.ofmt, 256), (d.addr, 2 ^ 64),
    (d.bytes, 2 ^ 32), (d.proj, 2 ^ 16), (d.maskA, 2 ^ 32), (d.maskB, 2 ^ 32), (d.mergeConn, 2 ^ 24), (d.level, 4), (d.targetLevel, 4),
    (d.contrib, 2 ^ 16), (d.expect, 2 ^ 16), (d.partialAddr, 2 ^ 64), (d.deadlineUs, 2 ^ 32), (d.gradHeadroom, 16),
    (d.originAddr, 2 ^ 128), (d.originPort, 2 ^ 16)] && d.kvCount != 0 && d.positions != 0 && d.groupSize != 0
/-- Table 8-5. -/
def DrainD.wf (d : DrainD) : Bool :=
  below [(d.seq, 2 ^ 24), (d.layerFirst, 256), (d.layerCount, 257), (d.addr, 2 ^ 64), (d.bytes, 2 ^ 32)] && d.layerCount != 0
/-- Table 10-4. -/
def PageReadD.wf (d : PageReadD) : Bool :=
  below [(d.seq, 2 ^ 24), (d.layer, 256), (d.kvFirst, 256), (d.kvCount, 257), (d.tokFirst, 2 ^ 32), (d.tokEnd, 2 ^ 32), (d.addr, 2 ^ 64),
    (d.bytes, 2 ^ 32)] && d.kvCount != 0
/-- Table 5-8. -/
def ForkD.wf (d : ForkD) : Bool :=
  below [(d.srcSeq, 2 ^ 24), (d.dstSeq, 2 ^ 24), (d.srcDomain, 1024), (d.policy, 2 ^ 16), (d.posEnd, 2 ^ 32), (d.baseVpn, 2 ^ 32),
    (d.checkVpn, 2 ^ 32), (d.checkGen, 2 ^ 32), (d.ckptRegion, 2 ^ 32)]
/-- Table 9-2. -/
def CompactD.wf (d : CompactD) : Bool :=
  below [(d.seq, 2 ^ 24), (d.layerFirst, 256), (d.layerCount, 257), (d.threshold, 256), (d.sinkTokens, 2 ^ 31 + 1),
    (d.recentTokens, 2 ^ 31 + 1), (d.posFirst, 2 ^ 32), (d.posEnd, 2 ^ 32), (d.minDrop, 2 ^ 16)] && d.layerCount != 0
/-- Table 5-6. -/
def LookupD.wf (d : LookupD) : Bool := below [(d.shapeId, 256), (d.cursor, 2 ^ 32), (d.resultAddr, 2 ^ 64)]
def PrefixD.wf (d : PrefixD) : Bool := below [(d.seq, 2 ^ 24), (d.vpn, 2 ^ 32)]
/-- Table 14-4. -/
def RmaD.wf (d : RmaD) : Bool :=
  below [(d.conn, 2 ^ 24), (d.handle, 2 ^ 32), (d.offset, 2 ^ 64), (d.localAddr, 2 ^ 64), (d.length, 2 ^ 32)]
/-- Table 14-10. -/
def WaitCountD.wf (d : WaitCountD) : Bool := below [(d.watch, 4096), (d.skip, 256), (d.target, 2 ^ 64), (d.timeoutUs, 2 ^ 32)]
def WaitWordD.wf (d : WaitWordD) : Bool :=
  below [(d.handle, 2 ^ 32), (d.cond, 256), (d.skip, 256), (d.offset, 2 ^ 64), (d.timeoutUs, 2 ^ 32)]
/-- Table 14-2. -/
def RegisterD.wf (d : RegisterD) : Bool :=
  below [(d.kind, 256), (d.rights, 256), (d.peerIndex, 2 ^ 16), (d.bindConn, 2 ^ 24), (d.base, 2 ^ 64), (d.length, 2 ^ 64),
    (d.peerHandle, 2 ^ 32), (d.notifyRing, 2 ^ 16)]
def RevokeD.wf (d : RevokeD) : Bool := below [(d.peerIndex, 2 ^ 16), (d.handle, 2 ^ 32)]
/-- Table 4-11. -/
def SeqCreateD.wf (d : SeqCreateD) : Bool :=
  below [(d.seq, 2 ^ 24), (d.shapeId, 256), (d.layers, 257), (d.kvHeads, 257), (d.pmaxLog2, 256), (d.baseVpn, 2 ^ 32), (d.posStart, 2 ^ 32),
    (d.histN, 256), (d.headroom, 256), (d.policy, 2 ^ 16), (d.ckptRegion, 2 ^ 32)] && d.layers != 0 && d.kvHeads != 0
def MigrateD.wf (d : MigrateD) : Bool := below [(d.seq, 2 ^ 24), (d.conn, 2 ^ 24), (d.targetSlot, 2 ^ 16)]
/-- Tables 17-6 and 17-9. -/
def ExportD.wf (d : ExportD) : Bool :=
  below [(d.seq, 2 ^ 24), (d.peerIndex, 256), (d.storeOffset, 2 ^ 40)] && d.recipient.length == 97
def ImportD.wf (d : ImportD) : Bool :=
  below [(d.dstSeq, 2 ^ 24), (d.peerIndex, 256), (d.nEnv, 256), (d.manifestOffset, 2 ^ 40), (d.baseVpn, 2 ^ 32), (d.dataAddr, 2 ^ 64)]
/-- Table 12-4. -/
def AbortD.wf (d : AbortD) : Bool :=
  below [(d.scope, 256), (d.targetContext, 4096), (d.targetDomain, 1024), (d.targetPartition, 16)]

/-- Cores 0 to 6 (Table 18-1). -/
def Agent.wf : Agent → Bool
  | .host _ => true
  | .core c => decide (c < 7)
/-- Table 18-2; buffers 0 to 6 have a core, 7 has none. -/
def MReq.wf (m : MReq) : Bool := below [(m.core, 8), (m.major, 256), (m.minor, 256)]
/-- Table 18-4. -/
def DomainD.wf (d : DomainD) : Bool :=
  below [(d.domain, 1024), (d.rquota, 2 ^ 32), (d.bquota, 2 ^ 32), (d.squota, 2 ^ 32), (d.regions, 2 ^ 32), (d.creds, 2 ^ 16), (d.projs, 2 ^ 16)]
def ProjD.wf (d : ProjD) : Bool :=
  below [(d.domain, 1024), (d.source, 256), (d.addr, 2 ^ 64), (d.handle, 2 ^ 16), (d.offset, 2 ^ 64), (d.length, 2 ^ 32), (d.status, 256)]
def EvacD.wf (d : EvacD) : Bool := below [(d.mode, 256), (d.conn, 2 ^ 24), (d.targetSlot, 2 ^ 16)]
/-- Table 13-3. -/
def HsInitD.wf (h : HsInitD) : Bool :=
  below [(h.verMin, 256), (h.verMax, 256), (h.credType, 256), (h.sconn, 2 ^ 24), (h.domain, 1024), (h.composition, 2 ^ 16), (h.credId, 2 ^ 32),
    (h.peerAddr, 2 ^ 128), (h.udpPort, 2 ^ 16)] && h.ephC.length == 97
/-- A VPN is 32 bits (R94), a store offset 40, a SET_ID 16 bytes; a manifest lists at most 16 sets (Table 17-5). -/
def Manifest.wf (m : Manifest) : Bool :=
  m.pages.all (fun p => below [(p.1, 2 ^ 32), (p.2, 2 ^ 40)]) && m.sets.all (fun x => below [(x.1, 2 ^ 128)]) && below [(m.sets.length, 17)]
def MigObj.wf : MigObj → Bool
  | .record d q _ _ => below [(d, 1024), (q, 2 ^ 24)]
  | .page d q v _ _ => below [(d, 1024), (q, 2 ^ 24), (v, 2 ^ 32)]
/-- Tables 5-1 and 11-2. -/
def SramEntry.wf : SramEntry → Bool
  | .scratchpad t e => below [(t, 24), (e, 2)]
  | .nbuBuffer t c => below [(t, 24), (c, 16)]
  | .staging t => decide (t < 24)
  | .portBuffer p => decide (p < 8)
  | .starter b st w _ => below [(b, 8), (st, 2 ^ 16), (w, 8)]
  | .tlb d v => below [(d, 1024), (v, 2 ^ 32)]
  | .walkCache d g => below [(d, 1024), (g, 2 ^ 24)]
  | .expander t e => below [(t, 24), (e, 18)]
  | .connCache c => decide (c < 2 ^ 18)
  | .mergeCache k => below [(k.domain, 1024), (k.level, 4)]
  | .queueState t _ => (match t with | some t => decide (t < 24) | none => true)
  | .policer d => decide (d < 1024)
  | .coreMemory c => decide (c < 7)
def ScrubTarget.wf : ScrubTarget → Bool
  | .rack c a => below [(c, 384), (a, 2 ^ 31)]
  | .bench a => decide (a < 2 ^ 31)
  | .tables st w => below [(st, 1728), (w, 16)]
  | .connState c a n => below [(c, 384), (a, 2 ^ 31), (n, 2 ^ 18)]
  | .keyTable c a n => below [(c, 384), (a, 2 ^ 31), (n, 2 ^ 128)]
  | .auditRing c a n => below [(c, 384), (a, 2 ^ 31), (n, 2 ^ 64)]
  | .keyStore d => below [(d, 1024)]
  | .sram e i => e.wf && decide (i < 2 ^ 32)
/-- A Rack codeword crosses 288 lanes (R250). -/
def ScrubOutcome.wf : ScrubOutcome → Bool
  | .corrected l => decide (l < 288)
  | .clean => true
  | .uncorrectable => true
def RegSpan.wf (p : RegSpan) : Bool := below [(p.addr, 2 ^ 28), (p.bytes, 4097)]

def Island.wf : Island → Bool
  | .channel c => decide (c < 384)
  | .tile t => decide (t < 24)
  | .port n => decide (n < 8)
  | .hlnk _ => true
  | .bench q => decide (q < 4)
  | .core c => decide (c < 7)
def CtlUnit.wf : CtlUnit → Bool
  | .page p => pageOk p
  | .node => true
def Rail.wf : Rail → Bool
  | .quadrant q => decide (q < 4)
  | .node => true
def RegionRef.wf : RegionRef → Bool
  | .handle h => decide (h < 2 ^ 32)
  | .peer d i => below [(d, 1024), (i, 256)]
def Abandoned.wf : Abandoned → Bool
  | .read ag p t => ag.wf && p.wf && below [(t, 4096)]
  | .unanswered => true

def BridgeLoss.wf (x : BridgeLoss) : Bool := x.island.wf && x.lost.wf

/-- A proof of an HS_FINISH fits its datagram. -/
def PeerProof.wf (p : PeerProof) : Bool := below [(p.proof.length, 2 ^ 16)]

/-- An operator public key is 97 bytes (Table 16-4). -/
def OperatorProof.wf (p : OperatorProof) : Bool := decide (p.opk.length = 97)

def Inlet.wf (i : Inlet) : Bool := below [(i.sub, 2), (i.vid.getD 0, 4096)]

def BootOutcome.wf (b : BootOutcome) : Bool := below [(b.code, 256), (b.detail, 2 ^ 32)] &&
  b.badTiles.all (fun t => decide (t < 24)) && b.badQuads.all (fun q => decide (q < 4)) &&
  b.badLanes.all (fun l => below [(l.1, 384), (l.2, 288)])

/-- A well-formed command. -/
def Instr.wellFormed : Instr → Bool
  | .append q d => q.wf && d.wf
  | .sealOp q n => q.wf && below [(n, 2 ^ 24)]
  | .attnFwd q d => q.wf && d.wf
  | .attnBwd q d => q.wf && d.wf
  | .gradDrain q d => q.wf && d.wf
  | .pageRead q d => q.wf && d.wf
  | .fork q d => q.wf && d.wf
  | .compact q d => q.wf && d.wf
  | .compactBatch _ => true
  | .prefixLookup q d => q.wf && d.wf && d.cursor == 0
  | .prefixStep q d => q.wf && d.wf
  | .prefixInsert q d => q.wf && d.wf
  | .prefixRemove q d => q.wf && d.wf
  | .rmaRead q d => q.fromRing && d.wf
  | .rmaWrite q d => q.fromRing && d.wf
  | .rmaAdd q d => q.fromRing && d.wf
  | .rmaCas q d => q.fromRing && d.wf
  | .rmaFlush q d => q.fromRing && d.wf
  | .rmaReadServe q d _ => q.fromPeer && d.wf
  | .rmaWriteServe q d => q.fromPeer && d.wf
  | .rmaAddServe q d _ => q.fromPeer && d.wf
  | .rmaCasServe q d _ => q.fromPeer && d.wf
  | .rmaFlushServe q d => q.fromPeer && d.wf
  | .targetNoticeIntervalEnd h st => below [(h, 2 ^ 32), (st, 256)]
  | .rmaResponse c m st c0 c1 d => below [(c, 2 ^ 18), (m, 2 ^ 24), (st, 256), (c0, 2 ^ 32), (c1, 2 ^ 32), (d.length, 2 ^ 20 + 1)]
  | .waitCount q d => q.wf && d.wf
  | .waitCountMet _ => true
  | .waitWord q d => q.wf && d.wf
  | .waitWordMet _ => true
  | .waitTimeout _ => true
  | .regionRegister q d => q.wf && d.wf
  | .regionRevoke q d => q.wf && d.wf
  | .regionDrained r => r.wf
  | .seqCreate q d => q.wf && d.wf
  | .seqPark q n => q.wf && below [(n, 2 ^ 24)]
  | .seqResume q n => q.wf && below [(n, 2 ^ 24)]
  | .seqDestroy q n => q.wf && below [(n, 2 ^ 24)]
  | .seqMigrate q d => q.wf && d.wf
  | .migratePageAck _ v => below [(v, 2 ^ 32)]
  | .ckptExport q d => q.wf && d.wf
  | .exportManifestPlaced _ => true
  | .overflowRelease _ => true
  | .ckptImport q d m => q.wf && d.wf && m.wf
  | .abort q d => q.wf && d.wf
  | .fence q => q.wf
  | .nop q => q.wf
  | .ringFetch n => below [(n, 4096)]
  | .demandFillLands d v _ => below [(d, 1024), (v, 2 ^ 32)]
  | .demandFillFails d v => below [(d, 1024), (v, 2 ^ 32)]
  | .fillTimeout _ => true
  | .windowClose t q => below [(t, 24), (q, 17)]
  | .preemptStop t e => below [(t, 24), (e, 2)]
  | .contextSaveDone c => below [(c, 4096)]
  | .fragmentKill _ => true
  | .fragmentPageDone _ _ => true
  | .fragmentComplete _ => true
  | .tilePartialRelease _ t => below [(t, 24)]
  | .promotionLands f => below [(f, 2 ^ 28)]
  | .partialReceive c m r => below [(c, 2 ^ 18), (m, 2 ^ 24), (r.domain, 1024)]
  | .mergeDeadline k => below [(k.domain, 1024), (k.level, 4)]
  | .lingerExpire k => below [(k.domain, 1024), (k.level, 4)]
  | .partialStatusReceive c m st h => below [(c, 2 ^ 18), (m, 2 ^ 24), (st, 256), (h, 2 ^ 32)]
  | .partialResend _ => true
  | .crumbPackStart t => below [(t, 24)]
  | .crumbPackCommit f => below [(f, 2 ^ 28)]
  | .pinRelease f _ => below [(f, 2 ^ 28)]
  | .benchAgeSweep t => below [(t, 24)]
  | .writebackComplete t s w => below [(t, 24), (s, 1728), (w, 16)]
  | .mergeBufferFlush c a _ => below [(c, 408), (a, 2 ^ 31)]
  | .scrubRead t g o => below [(t, 24)] && g.wf && o.wf
  | .scrubPassLate t k => below [(t, 24), (k, 3)]
  | .bucketLeakTick p => pageOk p
  | .watchdogFire p => pageOk p
  | .busWatchdogBite t r b => below [(t, 24), (r, 16), (b, 2 ^ 32)]
  | .bridgeTimeout x => x.wf
  | .controlMismatch u => u.wf
  | .coreLockstepRestart c => below [(c, 7)]
  | .railFault r => r.wf
  | .trngFail t => below [(t, 256)]
  | .registerWrite ag a b v => ag.wf && below [(a, 2 ^ 28), (b, 9), (v, 2 ^ 64)]
  | .regPairHiWrite ag a v => ag.wf && below [(a, 2 ^ 28), (v, 2 ^ 32)]
  | .regLoRead ag p t => ag.wf && p.wf && below [(t, 4096)]
  | .pgCtlEnable ag p _ => ag.wf && pageOk p
  | .pgCtlFreeze ag p => ag.wf && pageOk p
  | .softReset ag p _ => ag.wf && pageOk p
  | .pgCtlAbort ag p l => ag.wf && pageOk p && l.all pageOk
  | .pgLockWrite ag p v => ag.wf && pageOk p && below [(v, 2 ^ 32)]
  | .shadowCommit ag p => ag.wf && pageOk p
  | .errLogClear ag p => ag.wf && pageOk p
  | .counterClear ag p o => ag.wf && pageOk p && below [(o, 4096)]
  | .invalAll ag => ag.wf
  | .ttlbInval ag t => ag.wf && below [(t, 24)]
  | .shapeRead ag => ag.wf
  | .shapeWrite ag => ag.wf
  | .flipArm ag p => ag.wf && pageOk p
  | .testAlloc ag p => ag.wf && pageOk p
  | .testRelease ag p => ag.wf && pageOk p
  | .hotRead ag t g => ag.wf && below [(t, 24), (g, 4096)]
  | .lreqRead ag g => ag.wf && below [(g, 4096)]
  | .renew ag => ag.wf
  | .grant ag => ag.wf
  | .forcedFence ag => ag.wf
  | .release ag => ag.wf
  | .rejoinDiscard ag => ag.wf
  | .rejoinReinstate ag => ag.wf
  | .leaseExpire => true
  | .leaseLow => true
  | .graceEnd => true
  | .restart ag => ag.wf
  | .clearFails ag => ag.wf
  | .forceUnleavened ag => ag.wf
  | .locate ag => ag.wf
  | .locateEnd => true
  | .activeReq ag _ => ag.wf
  | .retrain ag _ => ag.wf
  | .ringCreate ag v => ag.wf && below [(v, 2 ^ 32)]
  | .ringDisable ag v => ag.wf && below [(v, 2 ^ 32)]
  | .sqDb ag v => ag.wf && below [(v, 2 ^ 32)]
  | .cqDb ag v => ag.wf && below [(v, 2 ^ 32)]
  | .cqIrqDelay n => below [(n, 4096)]
  | .ringLost q => below [(q, 4)]
  | .bulkRead _ t a n _ _ => below [(t, 4096), (a, 2 ^ 64), (n, 8192)]
  | .bulkWrite _ a d => below [(a, 2 ^ 64), (d.length, 8192)]
  | .ringWindowWrite _ a d => below [(a, 2 ^ 28), (d.length, 8192)]
  | .retryReq _ n => below [(n, 4096)]
  | .flitAckCredit _ n c u => below [(n.getD 0, 4096), (c, 4), (u, 4096)]
  | .flitTimeout _ => true
  | .linkDown _ c => below [(c, 256)]
  | .linkTrained _ => true
  | .linkTrainTimeout _ n => below [(n, 32)]
  | .rstreqAssert _ => true
  | .rstreqRelease _ => true
  | .imageFlit _ k _ _ o d _ => below [(k, 256), (o, 2 ^ 32), (d.length, 237)]
  | .lsHello _ _ _ => true
  | .lsChallengeDeferred _ => true
  | .lsProof _ p => p.wf
  | .lsEnd _ => true
  | .hello m a b => m.wf && below [(a, 256), (b, 256)]
  | .traceSet m a b c => m.wf && below [(a, 256), (b, 257), (c, 2)]
  | .attest m _ => m.wf
  | .domainCreate m d => m.wf && d.wf
  | .domainDestroy m d => m.wf && below [(d, 1024)]
  | .credAdd m c d t p x _ => m.wf && below [(c, 2 ^ 32), (d, 1024), (t, 256), (p, 256), (x.length, 65537)]
  | .credRemove m c _ => m.wf && below [(c, 2 ^ 32)]
  | .projInstall m d => m.wf && d.wf
  | .projRemove m d h => m.wf && below [(d, 1024), (h, 2 ^ 16)]
  | .inspectOpen m d => m.wf && below [(d, 1024)]
  | .inspectClose m g => m.wf && below [(g, 2 ^ 32)]
  | .inspectExpire g => below [(g, 2 ^ 32)]
  | .auditExcerpt m d n q _ => m.wf && below [(d, 1024), (n, 2 ^ 32), (q, 2 ^ 64)]
  | .opkProgram m k x => m.wf && below [(k, 256)] && x.length == 97
  | .opkRevoke m k => m.wf && below [(k, 256)]
  | .fwStage m k a n _ => m.wf && below [(k, 256), (a, 2 ^ 64), (n, 2 ^ 32)]
  | .fwActivate m k => m.wf && below [(k, 256)]
  | .activationStartTimeout k => below [(k, 4)]
  | .deferredActivationResume k => below [(k, 4)]
  | .fwStatus m k => m.wf && below [(k, 256)]
  | .antiRollbackRaise k => below [(k, 4)]
  | .meterSnapshot m c _ => m.wf && below [(c, 2 ^ 16)]
  | .evacuate m d => m.wf && d.wf
  | .powerCap m w => m.wf && below [(w, 2 ^ 32)]
  | .ctxCreate m c x => m.wf && below [(c, 4096), (x.domain, 1024)]
  | .ctxModify m c x => m.wf && below [(c, 4096), (x.domain, 1024)]
  | .ctxDestroy m c => m.wf && below [(c, 4096)]
  | .quadStatus m => m.wf
  | .laneLog m _ c n => m.wf && below [(c, 2 ^ 16), (n, 256)]
  | .reportResign => true
  | .auditHeadFlush => true
  | .hsInit p b h => below [(p, 8), (b, 2)] && h.wf
  | .hsFinish _ p => p.wf
  | .hsTimeout _ => true
  | .data p => below [(p.port, 8), (p.sub, 2)]
  | .ack c p b _ n _ => below [(c, 2 ^ 18), (p, 16), (b, 2 ^ 32), (n, 2 ^ 32)]
  | .ackDelay c => below [(c, 2 ^ 18)]
  | .recvBusy c m _ h => below [(c, 2 ^ 18), (m, 2 ^ 24), (h, 2 ^ 32)]
  | .recvBusyRetry c m _ => below [(c, 2 ^ 18), (m, 2 ^ 24)]
  | .abandon c m _ r => below [(c, 2 ^ 18), (m, 2 ^ 24), (r, 256)]
  | .pathProbe c p src => below [(c, 2 ^ 18), (p, 16), (src.port, 8), (src.sub, 2)]
  | .pathReply c p => below [(c, 2 ^ 18), (p, 16)]
  | .probeTimer c p => below [(c, 2 ^ 18), (p, 16)]
  | .rtoExpire c p => below [(c, 2 ^ 18), (p, 2 ^ 32)]
  | .reasmTimeout c m _ => below [(c, 2 ^ 18), (m, 2 ^ 24)]
  | .close c => below [(c, 2 ^ 18)]
  | .closeAck c => below [(c, 2 ^ 18)]
  | .connFetchDone c => below [(c, 2 ^ 18)]
  | .sublinkLinkLoss p b => below [(p, 8), (b, 2)]
  | .pacerRelease c => below [(c, 2 ^ 18)]
  | .egressSelect p b => below [(p, 8), (b, 2)]
  | .creditRefill => true
  | .powerOn v => below [(v, 2 ^ 32)]
  | .inputTrip c => below [(c, 3)]
  | .overvoltageReclose => true
  | .enAssert => true
  | .enDeassert => true
  | .bootStepDone o => o.wf
  | .bootStepTimeout => true
  | .startRetry => true
  | .imageWindowExpire => true
  | .powerSample p v i => below [(p, 2 ^ 32), (v, 2 ^ 32), (i, 2 ^ 32)]
  | .brownOut v i => below [(v, 2 ^ 32), (i, 2 ^ 32)]
  | .powerEmergencyEnd => true
  | .thermalSample a b c => below [(a, 256), (b, 256), (c, 256)]
  | .thermalEmergencyEnd => true
  | .incomingMigration c m o => below [(c, 2 ^ 18), (m, 2 ^ 24)] && o.wf
  | .victimWaitTimeout _ => true
  | .quiesceTimeout _ l => l.all pageOk
  | .contextRestoreDone _ => true
  | .coreReachesUp c => below [(c, 7)]
  | .portLinkUp p b => below [(p, 8), (b, 2)]
  | .benchFetchLands f => below [(f, 2 ^ 28)]
  | .arpNsEchoRequest p inlet k _ _ _ => below [(p, 8), (k, 4)] && inlet.wf

end Sys2Proof
end

