-- ==== Sys2Proof/Tests/Slice0.lean ====
section
/-!
SUPPORT. Tests: small states, the well-formedness smoke test, worked examples of the spec, single steps, and for each statement with
hypotheses states and operands that meet them.
-/

open Sys2Proof.Machine

namespace Sys2Proof.Tests

set_option Elab.async false

/-- A link with an open host session. -/
def upLink : LinkRec := { LinkRec.blank with ls := .up, lanes := 16, session := .opened 7, pCred := 100 }
def upCore : CoreRec := { CoreRec.blank with up := true, helloOk := true, major := 1 }
/-- A node that runs, with a host on link A, domain 5 and its context 3. -/
def on : State := { State.reset with
  rf := { RegFile.blank with vals := [((pgBnch 0, 0x13C, 5), 100000), ((pgBnch 0, 0x134, 5), 1000), ((pgStrt 0, 0x134, 5), 1000), ((pgXprt, 0x18C, 5), 100)] }
  nrt := 1000000000
  pw := { PowerState.blank with st := .active, step := 8 }
  host := { HostState.blank with a := upLink, active := some .a }
  fw := { FwState.blank with cores := (List.range 7).map (fun i => (i, upCore)) }
  sec := { SecState.blank with domains := [(0, ⟨.active, 0, 0, none⟩), (5, ⟨.active, 16, 4, none⟩)] }
  cmds := { CmdState.blank with ctxs := [(3, ⟨5, 0, false, 1, 8, 16⟩)] } }
/-- The same before power is applied, in STANDBY, and in step `n` of its start. -/
def off : State := { State.reset with nrt := 5 }
def standby : State := { off with pw := { PowerState.blank with st := .standby } }
def starting (n : Nat) : State := { off with nrt := 10000000000, pw := { PowerState.blank with st := .starting, step := n } }
def hostA : Agent := .host .a
/-- The host holds the lock of the NODE page. -/
def nodeHeld : State := on.setReg pgNode 0x48 1
/-- Ring 1 of domain 5 runs: 64 entries, 64 records, one data page. -/
def ringRegs : State := (((((on.setReg pgDbel 0x18 1).setReg pgDbel 0x48 1).setRegI pgDbel 0x10C 1 0x80050000).setRegI pgDbel 0x110 1 1).setRegI pgDbel 0x114 1 2).setRegI pgDbel 0x118 1 4 |>.setRegI pgDbel 0x11C 1 1
def ringed : State := ringRegs.setRing 1 { Ring.blank with st := .running, phase := true }
/-- A NOP of domain 5 and context 3 as bytes. -/
def nopBytes : List Byte := leBytes 4 (0x32 + 3 * 2 ^ 20) ++ leBytes 4 5 ++ leBytes 4 0xAB ++ leBytes 52 0
/-- A shape of 64 tokens, one head, 64 dimensions; a sequence of one layer and one head under it; an open connection with one path. -/
def shape1 : DWord := 0x8000020000000000
def seqD : SeqCreateD := ⟨1, 2, 1, 1, 4, 256, 0, 4, 1, 0, 0⟩
def seq1 : SeqRec := newSeq seqD 16 4096
def path0 : Path := ⟨0, 0, 9, 4793, true, 0, 0⟩
def conn2 : Conn where
  index := 2
  gen := 1
  peerConn := 77
  domain := 5
  composition := 0xFFFF
  credId := 1
  secret := 0
  genTx := 0
  genRx := 0
  prevRxTill := 0
  psnTx := 0
  ctlTx := 0
  nextMsg := []
  genMsg := []
  nextReq := 0
  skipped := []
  resend := []
  msgs := []
  unacked := []
  inMsgs := []
  rxBase := 0
  rxAbove := []
  rxSince := 0
  rxOldest := 0
  ceSince := 0
  rxPath := 0
  rate := 8000
  srtt := 0
  rttvar := 0
  backoff := 0
  rateAt := 0
  rateCut := false
  paths := [path0]
  closing := false
  ownClose := false
  closeAck := none
  closeTries := 0
  cached := true
  fetching := false
  usedAt := 0
  held := []
  pacedAt := 0
def withConn : State := { on with net := { on.net with conns := [(2, conn2)] } }
def withSeq : State := { on with kv := { KvState.blank with shapes := [((5, 2), shape1)], seqs := [((5, 1), seq1)] } }
/-- A handshake, a response of 64 bytes to be sent, a packet of a longer request, a packet in a queue. -/
def hsD : HsInitD := ⟨1, 1, 2, 77, 5, 0xFFFF, 7, 3, List.replicate 97 4, 9, 4793⟩
def half0 : HalfOpen := ⟨1, 2, 77, 5, 0xFFFF, 2, 7, ⟨0, 0, 9, 4793⟩, 0, 0, 0⟩
def msg0 : OutMsg := ⟨.response, 0, 0, List.replicate 64 1, 0, [], 0, 0⟩
def pkt0 : DataPkt := ⟨0, 0, none, false, true, 77, 1, false, 1, 0, false, 0, false, true, 1, 2, 0, 0, 0, 1, 0, 0, List.replicate 4096 0, 0, some 0, false, 9, 4793⟩
def egPkt0 : EgPkt := ⟨2, .response, 0, 0, 0, 0, 0, false, [1], 100, 5, 205, List.replicate 32 0, List.replicate 17 0, 9⟩
def okHs : State := (on.setReg pgXprt 0x18 1).setReg pgXprt 0x100 77
def msgTo (core : Nat) : MReq := ⟨core, .a, 1, 0, 9⟩
def hdr5 : Hdr := ⟨3, false, false, 0, 5, 0xAB, 0⟩
/-- A WAIT_COUNT of ring 1 that waits. -/
def waitD : WaitCountD := ⟨1, 0, 9, 0⟩
def waitCmd : Cmd := ⟨9, .ring 1, hdr5, .waitCount waitD, [], 0, .count 9 0 0, false, 0, 0, 0, [], false, []⟩
def qRing : Req := ⟨.ring 1, hdr5, []⟩
def qConn : Req := ⟨.conn 2 0, hdr5, []⟩
/-- A sealed page of domain 5 in frame 0, its payload in chunk 2 of channel 0, mapped at VPN 256. -/
def pg0 : Page := { Page.blank with shapeId := 2, st := .sealed, domain := 5, fSealed := true, share := 1, filled := 64, seq := 1, vpn := 256, loc := 32 }
def fr0 : Frame := ⟨0, pg0, pg0, none, 0, 0, 0, 0⟩
def pte0 : Pte := { Pte.invalid with st := .rack, r := true, fSealed := true, loc := 0 }
def onFrame (x : Frame) (e : Pte) : State := { on with kv := { withSeq.kv with tables := [((5, 0, 1), (0, 4))], ptes := [((5, 256), e)], frames := [(0, x)], chunks := [((0, 0), .metadata 1024 [0, 1]), ((0, 2), .payload 0)] } }
def withPage : State := onFrame fr0 pte0
def line0 : Line := ⟨0, 0, 0, 0, 0, .copy, 3, 0, false, 0, 5, none, false⟩
/-- A demand fill of VPN 256 into frame 0. -/
def fill0 : Fill := ⟨5, 256, 0, 0, false, 7⟩
def pteC : Pte := { Pte.invalid with st := .ckpt, fill := true, r := false, fSealed := true, loc := 7 }
def onFill (e : Pte) : State := { onFrame { fr0 with cur := { pg0 with st := .filling, share := 0 }, rack := { pg0 with st := .filling, share := 0 } } e with kv := { (onFrame { fr0 with cur := { pg0 with st := .filling, share := 0 }, rack := { pg0 with st := .filling, share := 0 } } e).kv with fills := [fill0] } }
/-- Commands of one row over one page, their job, and a fragment of each on engine 0 of tile 0. -/
def attnD0 : AttnD := ⟨1, 0, 0, 1, 1, 1, 0, 64, 0, 0, 0, 0, 0, 0x08000000, 128, 0x3F800000, 0, 0, 0, 0, 0, 0, 0, 0, 0, 0, 0, 0, 0, 0⟩
def cmdOf (o : Op) (w : Wait) : Cmd := ⟨9, .ring 1, hdr5, o, [], 0, w, false, 0, 0, 0, [], false, []⟩
def fp0 : FragPage := ⟨0, 0, 0, 256, 0, false, 0, false⟩
def frag0 : Frag := ⟨4, 9, 3, 0, false, false, 0, 16, [fp0], .running 0, 0, 0, false, false, 0, [], 0, [⟨0, 0, 0, List.replicate 64 0⟩], 0, 0, 0, 0⟩
def job0 (b : Bool) : AttnJob := ⟨9, hdr5, attnD0, 64, false, [], 0, b, 5, 3, 0, 64, [], [], [⟨0, 0, 0x3F800000, 0, 0, 0, 0, 0, List.replicate 64 0, [], [], []⟩], [], [(0, PartAcc.blank 1 64 b, false)], PartAcc.blank 1 64 b, 0, 0, 0, none, 0, 0, 0, 0, 0, 0, 0, none⟩
def grad0 : GradPage := ⟨0, 0, 0, 1, shape1, 2, 0, 0, 0, 0, false, [], []⟩
def runs (f : Frag) : State := { withPage with eng := { EngState.blank with frags := [(4, f)], busy := [((0, 0), 4)], jobs := [(9, job0 f.bwd)] }, cmds := { withPage.cmds with list := [cmdOf (if f.bwd then .attnBwd attnD0 else .attnFwd attnD0) .frags] } }
/-- A partial of contributor 1 of 3, one row of 64 elements, and its context. -/
def part00 : PartialRec := ⟨0xAB, stOk, false, false, false, false, false, 0, 0, 0, 1, 3, 1, 64, 1000, 64, 1, 5, 0, 11, 22, 0, [⟨List.replicate 64 0, 0, 0⟩], 0⟩
def part0 : PartialRec := { part00 with msgLen := part00.lenOf }
def mctx0 : MergeCtx := ⟨.opened, [0], none, some 3, 1, 64, false, 0, 2000000000, [0], [], 1, false, PartAcc.blank 1 64 false, false, stOk, stOk, 0, 10⟩
def merging (c : MergeCtx) : State := { withConn with eng := { EngState.blank with merge := [(part0.key, c)] } }
def sentJob : AttnJob := { job0 false with record := some part0, sentOn := 2, sentMsg := 6, firstSend := 999999000 }
def sentD : AttnD := { attnD0 with mergeConn := 2 ^ 18 + 2, deadlineUs := 1000 }
def sent (j : AttnJob) (d : AttnD) : State := { withConn with cmds := { on.cmds with list := [cmdOf (.attnFwd d) .sent] }, eng := { EngState.blank with jobs := [(9, j)] } }
/-- What a command does before its end. -/
def ranOn (e : State) (c : Cmd) : State := match e.runOp c none false with | .done u _ => u | .wait u _ _ => u
def nextOf (o : Host.Outcome State Fault Refusal) : State := match o with | .next t => t | _ => State.reset
/-- The running ring with the store of another state; a sequence whose page holds 10 tokens and is open. -/
def ringOn (s : State) : State := { ringed with kv := s.kv }
def seqO : SeqRec := { seq1 with nextPos := [10] }
def pgO : Page := { pg0 with st := .opened, fSealed := false, filled := 10, valid := 0x3FF }
def frO : Frame := { fr0 with cur := pgO, rack := pgO }
def pteO : Pte := { pte0 with fSealed := false, a := true }
def opened : State := { onFrame frO pteO with kv := { (onFrame frO pteO).kv with seqs := [((5, 1), seqO)] } }
/-- Words 0 and 3 of the first row of ring 1's data area are 1.0. -/
def rowMem (bwd : Bool) : Mem := [(ringAddr 0x08004002, 0x80), (ringAddr 0x08004003, 0x3F)] ++ (if bwd then [(ringAddr 0x0800400E, 0x80), (ringAddr 0x0800400F, 0x3F)] else [])
def full : State := { withPage with kv := { withPage.kv with seqs := [((5, 1), { seq1 with nextPos := [64] })] } }
def asks (s : State) (bwd : Bool) : State := { ringOn s with mem := rowMem bwd }
def fwdD : AttnD := { attnD0 with addr := 0x08004000, bytes := 144, targetLevel := 1, mergeConn := 2 ^ 18 + 2, expect := 1, deadlineUs := 1000 }
def bwdD : AttnD := { fwdD with bytes := 276 }
def sealedQuery (k : Nat) : LookupD := ⟨0x12345, 0x77, 2, k, 0x08004000⟩
/-- An outbound read that is sent, and its command. -/
def ob0 : Outbound := ⟨.cmd 9, 2 ^ 18 + 2, true, 5, 1, none, [], false⟩
def sentRma : State := { ringOn withPage with net := { withConn.net with respReserved := 1 }, cmds := { on.cmds with list := [cmdOf (.rmaRead ⟨2 ^ 18 + 2, 3, 0, 0x08004000, 64, 0, 0⟩) .remote] } }
/-- A Rack region of domain 5 with one chunk, on a node with an open connection and a running ring; a second running ring. -/
def reg0 : Region := ⟨.active, 1, 1, 5, 7, 0xFFFFFF, 0, 65536, [(0, 3)], 1, 0, 0, 0, 0⟩
def withRegion (g : Region) : State := { ringed with net := { withConn.net with regions := [(0, g)] }, kv := { KvState.blank with chunks := [((0, 3), .region 0)], rused := [(5, 256)] } }
def twoRings : State := (ringed.setRegI pgDbel 0x10C 0 0x80050000).setRing 0 { Ring.blank with st := .running, done := 7, fail := 1 }
def wordD : WaitWordD := ⟨65536, 0, 0, 8, 10, 0xFFFFFFFFFFFFFFFF, 0⟩
def registerD : RegisterD := ⟨1, 3, 0, 0xFFFFFF, 0, 65536, 0, 0xFFFF⟩
def peer0 : PeerEntry := ⟨.revoking, 2 ^ 18 + 2, 9, 4096, 3, 0, 1, 0⟩
/-- A sequence of one sealed page, a peer entry and a connection; its jobs. -/
def seqF : SeqRec := { seq1 with nextPos := [64] }
def saving : State := { ringOn full with net := { withConn.net with peers := [((5, 9), { peer0 with st := .active, length := 1048576 })] } }
def expD : ExportD := ⟨1, 9, 0, []⟩
def jpage : JobPage := ⟨256, 0, false, pg0.valid, 3, false⟩
def jobS : Job := ⟨1, .store, 9, 5, 1, 9, 44, [], [jpage], 0, false, [], 8, 9, false, 0, 0⟩
def jobM : Job := ⟨1, .migrate, 9, 5, 1, 6, 0, [], [jpage, { jpage with vpn := 257, frame := 1 }], 0, false, [], 0, 0, false, 0, 0⟩
def withJob (j : Job) (o : Op) (w : Wait) : State := { saving with ckpt := ⟨2, [(1, j)], []⟩, cmds := { on.cmds with list := [cmdOf o w] } }
def manif : Manifest := ⟨stOk, seqF, [(256, 3)], [], [(44, [256])]⟩
def impD : ImportD := ⟨2, 9, 1, 0, 512, 0x08004000⟩
def migD : MigrateD := ⟨1, 2 ^ 18 + 2, 6⟩
/-- What an answer carries, and that it does. -/
def okFst {ε α β : Type} (d : α) : Except ε (α × β) → α | .ok p => p.1 | .error _ => d
def okSnd {ε α β : Type} (d : β) : Except ε (α × β) → β | .ok p => p.2 | .error _ => d
def errOf {ε α : Type} (d : ε) : Except ε α → ε | .ok _ => d | .error e => e
def isOk {ε α : Type} : Except ε α → Bool | .ok _ => true | .error _ => false
theorem ok_pair {ε α β : Type} (d : α) (b : β) (x : Except ε (α × β)) (h : isOk x = true) : x = .ok (okFst d x, okSnd b x) := by
  cases x with | error _ => exact absurd h (by simp [isOk]) | ok p => rfl
theorem error_val {ε α : Type} (d : ε) (x : Except ε α) (h : isOk x = false) : x = .error (errOf d x) := by
  cases x with | error _ => rfl | ok _ => exact absurd h (by simp [isOk])
/-- Whether an answer is that of a record and bytes. -/
def okIs (x : Except Result (SeqRec × List Byte)) (r : SeqRec) (b : List Byte) : Bool := match x with | .ok p => p == (r, b) | .error _ => false
theorem eq_ok_of_okIs {x : Except Result (SeqRec × List Byte)} {r : SeqRec} {b : List Byte} (h : okIs x r b = true) : x = .ok (r, b) := by
  cases x with | error _ => exact Bool.noConfusion h | ok p => exact congrArg _ (beq_iff_eq.mp h)
theorem starts_of {s e w : State} {q : Req} {bwd : Bool} {d : AttnD} {c : Cmd} {r : SeqRec} {sh : Shape} {bytes : List Byte} {j : AttnJob}
    {ps : List Point} (he : e = s.admitted q (if bwd then Op.attnBwd d else Op.attnFwd d))
    (hc : c = s.newCmd q (if bwd then Op.attnBwd d else Op.attnFwd d) false) (hs : sh = e.shape q.hdr.domain r.shapeId)
    (hj : j = { e.newJob c bwd d r bytes with
      anchored := if d.level = 0 then none else some (anchorKey q.hdr d (e.originOf q.src d).1 (e.originOf q.src d).2) })
    (hw : w = (if d.level = 0 then e else e.attachAnchor (anchorKey q.hdr d (e.originOf q.src d).1 (e.originOf q.src d).2) c.id d.rows
      (attnDv sh) bwd).putJob j)
    (hp : ps = rangePoints r sh d.layer d.kvFirst d.kvCount d.tokFirst j.bound)
    (h : s.admits q (if bwd then Op.attnBwd d else Op.attnFwd d) = true ∧
      e.intact q.hdr.domain (if bwd then Op.attnBwd d else Op.attnFwd d) = true ∧ okIs (e.attnCheck q.hdr q.src bwd d q.data) r bytes = true ∧
      (d.partialAddr = 0 ∨ e.outputRefused q.src q.hdr.domain d.partialAddr (if !bwd && q.hdr.flag 1 then 1048512
        else 128 + 8 * d.rows + d.rows * attnDv sh * (if d.ofmt = 1 then 2 else 4)) = none) ∧
      (d.level = 0 ∨ e.anchorRefusal (anchorKey q.hdr d (e.originOf q.src d).1 (e.originOf q.src d).2) d.rows (attnDv sh) bwd = none)) :
    s.attnStarts q bwd d e w c r sh bytes j ps :=
  ⟨h.1, he, h.2.1, hc, eq_ok_of_okIs h.2.2.1, hs, h.2.2.2.1, h.2.2.2.2, hj, hw, hp⟩
def projD0 : ProjD := ⟨5, 0, 0, 1, 0, 64, 0, 1, 1, 1, 32, []⟩
/-! ### Worked examples of the spec -/

/-- 03, history scale: basis 3.5 with one bit of headroom gives 2^-6; 1.296875 is stored as 80 and 7.875 clips at 448. -/
theorem test_history_scale_and_clip :
    hsScale 448 1 0x40600000 = 0x3C800000 ∧ hsCode 2 0x3C800000 0x3FA60000 = (0x6A, false) ∧
    hsCode 2 0x3C800000 0x40FC0000 = (0x7E, true) := by decide +kernel

/-- 03, decoding one block: escape code 9 is (4 + 1) × 2. -/
theorem test_escape_magnitude : escMag 9 = ⟨5, 1⟩ := by decide

/-- 04, locating one key row: position 1,000,000 under the log (0, 0), (3, 300) with pages of 128 tokens. -/
theorem test_key_row_is_located :
    locate { seq1 with sealLog := [(0, 0), (3, 300)] } 128 1000000 = (7813, 20) ∧
    firstPosOf { seq1 with sealLog := [(0, 0), (3, 300)] } 128 7813 = 999980 ∧
    vpnOf { seq1 with sealLog := [(0, 0), (3, 300)], kvHeads := 6, pmaxLog2 := 15, baseVpn := 0x04000000 } (Shape.ofWord shape1) 17 2 7813
      = 0x04341E85 ∧ sliceOf 999980 19 = 0 ∧ sliceOf 999980 20 = 1 ∧ sliceOf 999980 84 = 2 := by decide +kernel

/-- 09, a counter: code 0x95 with a mass of 0.5 becomes 0x9B. -/
theorem test_importance_counter : impStep 0x95 0x3F000000 = 0x9B := by decide +kernel

/-- 10, a Crumb slot address: 64 slots of 15,360 bytes take 15 chunks; slot 5 of a region at 0x3A00000 stands at 0x3A12C in 256-byte units. -/
theorem test_crumb_slot_address :
    let s := { on with kv := { KvState.blank with crumbs := [(0, ⟨3, 0x3A0, 15, 5, 15360, [0, 1, 2, 3, 4]⟩)] } }
    ceilDiv (64 * 15360) 65536 = 15 ∧ (s.allocCrumb 3 5 15360).map (fun p => p.2) = some 0x3A12C := by decide +kernel

/-- 15, a queue waking from empty: with V 1,000,000 and F_last 400,000 a packet of 4,192 bytes of weight 32 has tags 1,000,000 and
1,033,536. -/
theorem test_egress_tags :
    let s := { on.setRegI (pgEgrs 3) 0x104 29 32 with egress := { EgressState.blank with
      subs := [((3, 0), { SubState.blank with v := 1000000 })], queues := [((3, 0, 29), ⟨[], 0, 400000⟩)] } }
    ((s.enqueue 3 0 29 { egPkt0 with bytes := 4192 }).egQueue 3 0 29).pkts.map (fun k => (k.start, k.finish)) = [(1000000, 1033536)] := by
  decide +kernel

/-- 19, ring 37: areas at 0x0A000000, 0x0A004000 and 0x0A100000, 256 records, the window of quarter 1 in tile 6. -/
theorem test_ring_37 :
    let s := ((((on.setRegI pgDbel 0x10C 37 0x80070022).setRegI pgDbel 0x110 37 0x2000).setRegI pgDbel 0x114 37 0x2004).setRegI pgDbel 0x118 37 0x2100).setRegI pgDbel 0x11C 37 256
    s.sqBase 37 = 0x0A000000 ∧ s.cqBase 37 = 0x0A004000 ∧ s.cqSize 37 = 256 ∧ s.dataBase 37 = 0x0A100000 ∧ s.dataLen 37 = 2 ^ 20 ∧
    ringAddr 0x0A000000 = benchAddr 6 (1972 * 2 ^ 20) := by decide +kernel

/-! ### Single steps -/

/-- R44, R469: a NOP of ring 1 writes its record at CQ_TAIL: TAG, OPCODE, CONTEXT with PHASE. -/
theorem test_nop_writes_its_record :
    (match exec (.nop qRing) ringed with
     | .next t => t.mem.readN (ringAddr (ringed.cqBase 1)) 8 == leBytes 4 0xAB ++ [0, 0x32, 3, 0x80]
     | _ => false) = true := by decide +kernel

/-- R9: an idle step counts 10 ns. -/
theorem test_idle_step_counts : (match step on with | .next t => t.nrt == 1000000001 && t.pending == [] | _ => false) = true := by decide +kernel

/-- R35: while firmware owns a page, a write by the host is discarded and CFG_REJ is set; the owner's write is applied. -/
theorem test_page_lock :
    let s := on.setReg pgXprt 0x48 2
    (match exec (.registerWrite hostA (pgXprt * 4096 + 0x100) 4 7) s with
     | .next t => t.reg pgXprt 0x100 == s.reg pgXprt 0x100
     | _ => false) = true ∧
    (match exec (.registerWrite (.core 0) (pgXprt * 4096 + 0x100) 4 7) s with
     | .next t => t.reg pgXprt 0x100 == 7
     | _ => false) = true := by decide +kernel

/-- R33: the value of an RW-S field waits in its shadow until the block's boundary. -/
theorem test_shadowed_write_waits :
    (match exec (.registerWrite hostA (pgScrb 0 * 4096 + 0x104) 4 7) on with
     | .next t => t.reg (pgScrb 0) 0x104 == on.reg (pgScrb 0) 0x104 && AL.get (pgScrb 0, 0x104, 0) t.rf.shadow == some 7
     | _ => false) = true := by decide +kernel

/-- R418: an epoch that is not the current one turns a command away with ST_STALE_EPOCH. -/
theorem test_stale_epoch_is_turned_away :
    (match exec (.nop qRing) { ringed with lease := { on.lease with st := .leased, cur := 7 } } with
     | .next t => t.mem.readN (ringAddr (ringed.cqBase 1) + 4) 1 == [BitVec.ofNat 8 stStaleEpoch]
     | _ => false) = true := by decide +kernel

/-- Table 20-2: what the node does while it has no power. -/
theorem test_nothing_runs_without_power : (match exec (.nop qRing) State.reset with | .next t => t == State.reset | _ => false) = true := by
  decide +kernel

/-! ### Well-formedness -/

/-- A well-formed command of every constructor, which the check takes. -/
def wellFormedOnes : List Instr :=
  ([.append qRing ⟨1, 0, 1, 0, 10, 1, 0x08004000, 256⟩, .sealOp qRing 0, .attnFwd qRing attnD0, .attnBwd qRing attnD0, .gradDrain qRing ⟨1, 0, 1, 0x08004000, 4096⟩, .pageRead qRing ⟨1, 0, 0, 1, 0, 64, 0x08004000, 4096⟩, .fork qRing ⟨1, 3, 5, 0, 64, 512, 0, 0, 0⟩, .compact qRing ⟨1, 0, 1, 1, 0, 0, 0, 64, 1⟩] : List Instr) ++
  ([.compactBatch 0, .prefixLookup qRing (sealedQuery 0), .prefixStep qRing (sealedQuery 0), .prefixInsert qRing ⟨0, 0, 1, 256⟩, .prefixRemove qRing ⟨0, 0, 1, 256⟩, .rmaRead qRing ⟨0, 0, 0, 0, 0, 0, 0⟩, .rmaWrite qRing ⟨0, 0, 0, 0, 0, 0, 0⟩, .rmaAdd qRing ⟨0, 0, 0, 0, 0, 0, 0⟩] : List Instr) ++
  ([.rmaCas qRing ⟨0, 0, 0, 0, 0, 0, 0⟩, .rmaFlush qRing ⟨0, 0, 0, 0, 0, 0, 0⟩, .rmaReadServe qConn ⟨0, 0, 0, 0, 0, 0, 0⟩ false, .rmaWriteServe qConn ⟨0, 0, 0, 0, 0, 0, 0⟩, .rmaAddServe qConn ⟨0, 0, 0, 0, 0, 0, 0⟩ false, .rmaCasServe qConn ⟨0, 0, 0, 0, 0, 0, 0⟩ false, .rmaFlushServe qConn ⟨0, 0, 0, 0, 0, 0, 0⟩, .targetNoticeIntervalEnd 0 0] : List Instr) ++
  ([.rmaResponse 0 0 0 0 0 [], .waitCount qRing waitD, .waitCountMet 0, .waitWord qRing wordD, .waitWordMet 0, .waitTimeout 0, .regionRegister qRing registerD, .regionRevoke qRing ⟨0, 65536⟩] : List Instr) ++
  ([.regionDrained (.handle 0), .seqCreate qRing seqD, .seqPark qRing 0, .seqResume qRing 0, .seqDestroy qRing 0, .seqMigrate qRing migD, .migratePageAck 0 0, .ckptExport qRing ⟨1, 9, 0, List.replicate 97 0⟩] : List Instr) ++
  ([.exportManifestPlaced 0, .overflowRelease 0, .ckptImport qRing impD manif, .abort qRing ⟨0, 0, 3, 0, 0⟩, .fence qRing, .nop qRing, .ringFetch 0, .demandFillLands 0 0 none] : List Instr) ++
  ([.demandFillFails 0 0, .fillTimeout 0, .windowClose 0 0, .preemptStop 0 0, .contextSaveDone 0, .fragmentKill 0, .fragmentPageDone 0 false, .fragmentComplete 0] : List Instr) ++
  ([.tilePartialRelease 0 0, .promotionLands 0, .partialReceive 0 0 part0, .mergeDeadline part0.key, .lingerExpire part0.key, .partialStatusReceive 0 0 0 0, .partialResend 0, .crumbPackStart 0] : List Instr) ++
  ([.crumbPackCommit 0, .pinRelease 0 false, .benchAgeSweep 0, .writebackComplete 0 0 0, .mergeBufferFlush 0 0 false, .scrubRead 0 (.rack 0 0) .clean, .scrubPassLate 0 0, .bucketLeakTick 0] : List Instr) ++
  ([.watchdogFire 0, .busWatchdogBite 0 0 0, .bridgeTimeout ⟨.tile 0, .unanswered⟩, .controlMismatch .node, .coreLockstepRestart 0, .railFault .node, .trngFail 0, .registerWrite hostA 0 0 0] : List Instr) ++
  ([.regPairHiWrite hostA 0 0, .regLoRead hostA ⟨0, 4⟩ 0, .pgCtlEnable hostA 0 false, .pgCtlFreeze hostA 0, .softReset hostA 0 false, .pgCtlAbort hostA 0 [], .pgLockWrite hostA 0 0, .shadowCommit hostA 0] : List Instr) ++
  ([.errLogClear hostA 0, .counterClear hostA 0 0, .invalAll hostA, .ttlbInval hostA 0, .shapeRead hostA, .shapeWrite hostA, .flipArm hostA 0, .testAlloc hostA 0] : List Instr) ++
  ([.testRelease hostA 0, .hotRead hostA 0 0, .lreqRead hostA 0, .renew hostA, .grant hostA, .forcedFence hostA, .release hostA, .rejoinDiscard hostA] : List Instr) ++
  ([.rejoinReinstate hostA, .leaseExpire, .leaseLow, .graceEnd, .restart hostA, .clearFails hostA, .forceUnleavened hostA, .locate hostA] : List Instr) ++
  ([.locateEnd, .activeReq hostA .a, .retrain hostA .a, .ringCreate hostA 0, .ringDisable hostA 0, .sqDb hostA 0, .cqDb hostA 0, .cqIrqDelay 0] : List Instr) ++
  ([.ringLost 0, .bulkRead .a 0 0 0 false false, .bulkWrite .a 0 [], .ringWindowWrite .a 0 [], .retryReq .a 0, .flitAckCredit .a none 0 0, .flitTimeout .a, .linkDown .a 0] : List Instr) ++
  ([.linkTrained .a, .linkTrainTimeout .a 0, .rstreqAssert .a, .rstreqRelease .a, .imageFlit .a 0 false false 0 [] ⟨true, 0, 0⟩, .lsHello .a 0 0, .lsChallengeDeferred .a, .lsProof .a ⟨List.replicate 97 0, false⟩] : List Instr) ++
  ([.lsEnd .a, .hello (msgTo 0) 0 0, .traceSet (msgTo 0) 0 0 0, .attest (msgTo 0) 0, .domainCreate (msgTo 0) ⟨5, 0, 0, 0, 0, 0, 0⟩, .domainDestroy (msgTo 0) 0, .credAdd (msgTo 0) 0 0 0 0 [] false, .credRemove (msgTo 0) 0 false] : List Instr) ++
  ([.projInstall (msgTo 0) projD0, .projRemove (msgTo 0) 0 0, .inspectOpen (msgTo 0) 0, .inspectClose (msgTo 0) 0, .inspectExpire 0, .auditExcerpt (msgTo 0) 0 0 0 0, .opkProgram (msgTo 0) 0 (List.replicate 97 0), .opkRevoke (msgTo 0) 0] : List Instr) ++
  ([.fwStage (msgTo 0) 0 0 0 ⟨true, 0, 0⟩, .fwActivate (msgTo 0) 0, .activationStartTimeout 0, .deferredActivationResume 0, .fwStatus (msgTo 0) 0, .antiRollbackRaise 0, .meterSnapshot (msgTo 0) 0 0, .evacuate (msgTo 0) ⟨0, 0, 0⟩] : List Instr) ++
  ([.powerCap (msgTo 0) 0, .ctxCreate (msgTo 0) 0 ⟨5, 0, false, 1, 8, 16⟩, .ctxModify (msgTo 0) 0 ⟨5, 0, false, 1, 8, 16⟩, .ctxDestroy (msgTo 0) 0, .quadStatus (msgTo 0), .laneLog (msgTo 0) false 0 0, .reportResign, .auditHeadFlush] : List Instr) ++
  ([.hsInit 0 0 hsD, .hsFinish 0 ⟨[], false⟩, .hsTimeout 0, .data pkt0, .ack 0 0 0 [] 0 false, .ackDelay 0, .recvBusy 0 0 .request 0, .recvBusyRetry 0 0 .request] : List Instr) ++
  ([.abandon 0 0 .request 0, .pathProbe 0 0 path0, .pathReply 0 0, .probeTimer 0 0, .rtoExpire 0 0, .reasmTimeout 0 0 .request, .close 0, .closeAck 0] : List Instr) ++
  ([.connFetchDone 0, .sublinkLinkLoss 0 0, .pacerRelease 0, .egressSelect 0 0, .creditRefill, .powerOn 0, .inputTrip 0, .overvoltageReclose] : List Instr) ++
  ([.enAssert, .enDeassert, .bootStepDone ⟨true, 0, 0, [], [], []⟩, .bootStepTimeout, .startRetry, .imageWindowExpire, .powerSample 0 0 0, .brownOut 0 0] : List Instr) ++
  ([.powerEmergencyEnd, .thermalSample 0 0 0, .thermalEmergencyEnd, .incomingMigration 0 0 (.record 5 1 true seq1), .victimWaitTimeout 0, .quiesceTimeout 0 [], .contextRestoreDone 0, .coreReachesUp 0] : List Instr) ++
  ([.portLinkUp 0 0, .benchFetchLands 0, .arpNsEchoRequest 0 ⟨0, none⟩ 0 0 0 []] : List Instr)

theorem test_well_formed_commands_are_taken : wellFormedOnes.all Instr.wellFormed = true := by decide +kernel

/-- For every check, a command that fails it alone. -/
def illFormedOnes : List Instr :=
  ([.append { qRing with src := .ring 4096 } ⟨1, 0, 1, 0, 10, 1, 0x08004000, 256⟩, .append { qRing with src := .conn (2 ^ 18) 0 } ⟨1, 0, 1, 0, 10, 1, 0x08004000, 256⟩, .append { qRing with src := .conn 0 (2 ^ 24) } ⟨1, 0, 1, 0, 10, 1, 0x08004000, 256⟩, .append { qRing with hdr := { hdr5 with context := 4096 } } ⟨1, 0, 1, 0, 10, 1, 0x08004000, 256⟩, .append { qRing with hdr := { hdr5 with flags := 64 } } ⟨1, 0, 1, 0, 10, 1, 0x08004000, 256⟩, .append { qRing with hdr := { hdr5 with domain := 1024 } } ⟨1, 0, 1, 0, 10, 1, 0x08004000, 256⟩, .append qRing { (⟨1, 0, 1, 0, 10, 1, 0x08004000, 256⟩ : AppendD) with seq := 2 ^ 24 }, .append qRing { (⟨1, 0, 1, 0, 10, 1, 0x08004000, 256⟩ : AppendD) with layerFirst := 256 }] : List Instr) ++
  ([.append qRing { (⟨1, 0, 1, 0, 10, 1, 0x08004000, 256⟩ : AppendD) with layerCount := 257 }, .append qRing { (⟨1, 0, 1, 0, 10, 1, 0x08004000, 256⟩ : AppendD) with infmt := 256 }, .append qRing { (⟨1, 0, 1, 0, 10, 1, 0x08004000, 256⟩ : AppendD) with posFirst := 2 ^ 32 }, .append qRing { (⟨1, 0, 1, 0, 10, 1, 0x08004000, 256⟩ : AppendD) with tokens := 2 ^ 16 }, .append qRing { (⟨1, 0, 1, 0, 10, 1, 0x08004000, 256⟩ : AppendD) with rowAddr := 2 ^ 64 }, .append qRing { (⟨1, 0, 1, 0, 10, 1, 0x08004000, 256⟩ : AppendD) with rowBytes := 2 ^ 32 }, .append qRing { (⟨1, 0, 1, 0, 10, 1, 0x08004000, 256⟩ : AppendD) with layerCount := 0 }, .sealOp { qRing with src := .ring 4096 } 0] : List Instr) ++
  ([.sealOp qRing (2 ^ 24), .attnFwd { qRing with src := .ring 4096 } attnD0, .attnFwd qRing { attnD0 with seq := 2 ^ 24 }, .attnFwd qRing { attnD0 with layer := 256 }, .attnFwd qRing { attnD0 with kvFirst := 256 }, .attnFwd qRing { attnD0 with kvCount := 257 }, .attnFwd qRing { attnD0 with positions := 9 }, .attnFwd qRing { attnD0 with groupSize := 17 }] : List Instr) ++
  ([.attnFwd qRing { attnD0 with tokFirst := 2 ^ 32 }, .attnFwd qRing { attnD0 with tokEnd := 2 ^ 32 }, .attnFwd qRing { attnD0 with qpos := 2 ^ 32 }, .attnFwd qRing { attnD0 with qfmt := 256 }, .attnFwd qRing { attnD0 with mask := 256 }, .attnFwd qRing { attnD0 with qheadFirst := 256 }, .attnFwd qRing { attnD0 with ofmt := 256 }, .attnFwd qRing { attnD0 with addr := 2 ^ 64 }] : List Instr) ++
  ([.attnFwd qRing { attnD0 with bytes := 2 ^ 32 }, .attnFwd qRing { attnD0 with proj := 2 ^ 16 }, .attnFwd qRing { attnD0 with maskA := 2 ^ 32 }, .attnFwd qRing { attnD0 with maskB := 2 ^ 32 }, .attnFwd qRing { attnD0 with mergeConn := 2 ^ 24 }, .attnFwd qRing { attnD0 with level := 4 }, .attnFwd qRing { attnD0 with targetLevel := 4 }, .attnFwd qRing { attnD0 with contrib := 2 ^ 16 }] : List Instr) ++
  ([.attnFwd qRing { attnD0 with expect := 2 ^ 16 }, .attnFwd qRing { attnD0 with partialAddr := 2 ^ 64 }, .attnFwd qRing { attnD0 with deadlineUs := 2 ^ 32 }, .attnFwd qRing { attnD0 with gradHeadroom := 16 }, .attnFwd qRing { attnD0 with originAddr := 2 ^ 128 }, .attnFwd qRing { attnD0 with originPort := 2 ^ 16 }, .attnFwd qRing { attnD0 with kvCount := 0 }, .attnFwd qRing { attnD0 with positions := 0 }] : List Instr) ++
  ([.attnFwd qRing { attnD0 with groupSize := 0 }, .attnBwd { qRing with src := .ring 4096 } attnD0, .attnBwd qRing { attnD0 with seq := 2 ^ 24 }, .gradDrain { qRing with src := .ring 4096 } ⟨1, 0, 1, 0x08004000, 4096⟩, .gradDrain qRing { (⟨1, 0, 1, 0x08004000, 4096⟩ : DrainD) with seq := 2 ^ 24 }, .gradDrain qRing { (⟨1, 0, 1, 0x08004000, 4096⟩ : DrainD) with layerFirst := 256 }, .gradDrain qRing { (⟨1, 0, 1, 0x08004000, 4096⟩ : DrainD) with layerCount := 257 }, .gradDrain qRing { (⟨1, 0, 1, 0x08004000, 4096⟩ : DrainD) with addr := 2 ^ 64 }] : List Instr) ++
  ([.gradDrain qRing { (⟨1, 0, 1, 0x08004000, 4096⟩ : DrainD) with bytes := 2 ^ 32 }, .gradDrain qRing { (⟨1, 0, 1, 0x08004000, 4096⟩ : DrainD) with layerCount := 0 }, .pageRead { qRing with src := .ring 4096 } ⟨1, 0, 0, 1, 0, 64, 0x08004000, 4096⟩, .pageRead qRing { (⟨1, 0, 0, 1, 0, 64, 0x08004000, 4096⟩ : PageReadD) with seq := 2 ^ 24 }, .pageRead qRing { (⟨1, 0, 0, 1, 0, 64, 0x08004000, 4096⟩ : PageReadD) with layer := 256 }, .pageRead qRing { (⟨1, 0, 0, 1, 0, 64, 0x08004000, 4096⟩ : PageReadD) with kvFirst := 256 }, .pageRead qRing { (⟨1, 0, 0, 1, 0, 64, 0x08004000, 4096⟩ : PageReadD) with kvCount := 257 }, .pageRead qRing { (⟨1, 0, 0, 1, 0, 64, 0x08004000, 4096⟩ : PageReadD) with tokFirst := 2 ^ 32 }] : List Instr) ++
  ([.pageRead qRing { (⟨1, 0, 0, 1, 0, 64, 0x08004000, 4096⟩ : PageReadD) with tokEnd := 2 ^ 32 }, .pageRead qRing { (⟨1, 0, 0, 1, 0, 64, 0x08004000, 4096⟩ : PageReadD) with addr := 2 ^ 64 }, .pageRead qRing { (⟨1, 0, 0, 1, 0, 64, 0x08004000, 4096⟩ : PageReadD) with bytes := 2 ^ 32 }, .pageRead qRing { (⟨1, 0, 0, 1, 0, 64, 0x08004000, 4096⟩ : PageReadD) with kvCount := 0 }, .fork { qRing with src := .ring 4096 } ⟨1, 3, 5, 0, 64, 512, 0, 0, 0⟩, .fork qRing { (⟨1, 3, 5, 0, 64, 512, 0, 0, 0⟩ : ForkD) with srcSeq := 2 ^ 24 }, .fork qRing { (⟨1, 3, 5, 0, 64, 512, 0, 0, 0⟩ : ForkD) with dstSeq := 2 ^ 24 }, .fork qRing { (⟨1, 3, 5, 0, 64, 512, 0, 0, 0⟩ : ForkD) with srcDomain := 1024 }] : List Instr) ++
  ([.fork qRing { (⟨1, 3, 5, 0, 64, 512, 0, 0, 0⟩ : ForkD) with policy := 2 ^ 16 }, .fork qRing { (⟨1, 3, 5, 0, 64, 512, 0, 0, 0⟩ : ForkD) with posEnd := 2 ^ 32 }, .fork qRing { (⟨1, 3, 5, 0, 64, 512, 0, 0, 0⟩ : ForkD) with baseVpn := 2 ^ 32 }, .fork qRing { (⟨1, 3, 5, 0, 64, 512, 0, 0, 0⟩ : ForkD) with checkVpn := 2 ^ 32 }, .fork qRing { (⟨1, 3, 5, 0, 64, 512, 0, 0, 0⟩ : ForkD) with checkGen := 2 ^ 32 }, .fork qRing { (⟨1, 3, 5, 0, 64, 512, 0, 0, 0⟩ : ForkD) with ckptRegion := 2 ^ 32 }, .compact { qRing with src := .ring 4096 } ⟨1, 0, 1, 1, 0, 0, 0, 64, 1⟩, .compact qRing { (⟨1, 0, 1, 1, 0, 0, 0, 64, 1⟩ : CompactD) with seq := 2 ^ 24 }] : List Instr) ++
  ([.compact qRing { (⟨1, 0, 1, 1, 0, 0, 0, 64, 1⟩ : CompactD) with layerFirst := 256 }, .compact qRing { (⟨1, 0, 1, 1, 0, 0, 0, 64, 1⟩ : CompactD) with layerCount := 257 }, .compact qRing { (⟨1, 0, 1, 1, 0, 0, 0, 64, 1⟩ : CompactD) with threshold := 256 }, .compact qRing { (⟨1, 0, 1, 1, 0, 0, 0, 64, 1⟩ : CompactD) with sinkTokens := 2 ^ 31 + 1 }, .compact qRing { (⟨1, 0, 1, 1, 0, 0, 0, 64, 1⟩ : CompactD) with recentTokens := 2 ^ 31 + 1 }, .compact qRing { (⟨1, 0, 1, 1, 0, 0, 0, 64, 1⟩ : CompactD) with posFirst := 2 ^ 32 }, .compact qRing { (⟨1, 0, 1, 1, 0, 0, 0, 64, 1⟩ : CompactD) with posEnd := 2 ^ 32 }, .compact qRing { (⟨1, 0, 1, 1, 0, 0, 0, 64, 1⟩ : CompactD) with minDrop := 2 ^ 16 }] : List Instr) ++
  ([.compact qRing { (⟨1, 0, 1, 1, 0, 0, 0, 64, 1⟩ : CompactD) with layerCount := 0 }, .prefixLookup { qRing with src := .ring 4096 } (sealedQuery 0), .prefixLookup qRing { (sealedQuery 0) with shapeId := 256 }, .prefixLookup qRing { (sealedQuery 0) with cursor := 2 ^ 32 }, .prefixLookup qRing { (sealedQuery 0) with resultAddr := 2 ^ 64 }, .prefixLookup qRing (sealedQuery 1), .prefixStep { qRing with src := .ring 4096 } (sealedQuery 0), .prefixStep qRing { (sealedQuery 0) with shapeId := 256 }] : List Instr) ++
  ([.prefixInsert { qRing with src := .ring 4096 } ⟨0, 0, 1, 256⟩, .prefixInsert qRing { (⟨0, 0, 1, 256⟩ : PrefixD) with seq := 2 ^ 24 }, .prefixInsert qRing { (⟨0, 0, 1, 256⟩ : PrefixD) with vpn := 2 ^ 32 }, .prefixRemove { qRing with src := .ring 4096 } ⟨0, 0, 1, 256⟩, .prefixRemove qRing { (⟨0, 0, 1, 256⟩ : PrefixD) with seq := 2 ^ 24 }, .rmaRead { qRing with src := .ring 4096 } ⟨0, 0, 0, 0, 0, 0, 0⟩, .rmaRead qConn ⟨0, 0, 0, 0, 0, 0, 0⟩, .rmaRead qRing { (⟨0, 0, 0, 0, 0, 0, 0⟩ : RmaD) with conn := 2 ^ 24 }] : List Instr) ++
  ([.rmaRead qRing { (⟨0, 0, 0, 0, 0, 0, 0⟩ : RmaD) with handle := 2 ^ 32 }, .rmaRead qRing { (⟨0, 0, 0, 0, 0, 0, 0⟩ : RmaD) with offset := 2 ^ 64 }, .rmaRead qRing { (⟨0, 0, 0, 0, 0, 0, 0⟩ : RmaD) with localAddr := 2 ^ 64 }, .rmaRead qRing { (⟨0, 0, 0, 0, 0, 0, 0⟩ : RmaD) with length := 2 ^ 32 }, .rmaWrite { qRing with src := .ring 4096 } ⟨0, 0, 0, 0, 0, 0, 0⟩, .rmaWrite qConn ⟨0, 0, 0, 0, 0, 0, 0⟩, .rmaWrite qRing { (⟨0, 0, 0, 0, 0, 0, 0⟩ : RmaD) with conn := 2 ^ 24 }, .rmaAdd { qRing with src := .ring 4096 } ⟨0, 0, 0, 0, 0, 0, 0⟩] : List Instr) ++
  ([.rmaAdd qConn ⟨0, 0, 0, 0, 0, 0, 0⟩, .rmaAdd qRing { (⟨0, 0, 0, 0, 0, 0, 0⟩ : RmaD) with conn := 2 ^ 24 }, .rmaCas { qRing with src := .ring 4096 } ⟨0, 0, 0, 0, 0, 0, 0⟩, .rmaCas qConn ⟨0, 0, 0, 0, 0, 0, 0⟩, .rmaCas qRing { (⟨0, 0, 0, 0, 0, 0, 0⟩ : RmaD) with conn := 2 ^ 24 }, .rmaFlush { qRing with src := .ring 4096 } ⟨0, 0, 0, 0, 0, 0, 0⟩, .rmaFlush qConn ⟨0, 0, 0, 0, 0, 0, 0⟩, .rmaFlush qRing { (⟨0, 0, 0, 0, 0, 0, 0⟩ : RmaD) with conn := 2 ^ 24 }] : List Instr) ++
  ([.rmaReadServe { qRing with src := .ring 4096 } ⟨0, 0, 0, 0, 0, 0, 0⟩ false, .rmaReadServe qRing ⟨0, 0, 0, 0, 0, 0, 0⟩ false, .rmaReadServe qConn { (⟨0, 0, 0, 0, 0, 0, 0⟩ : RmaD) with conn := 2 ^ 24 } false, .rmaWriteServe { qRing with src := .ring 4096 } ⟨0, 0, 0, 0, 0, 0, 0⟩, .rmaWriteServe qRing ⟨0, 0, 0, 0, 0, 0, 0⟩, .rmaWriteServe qConn { (⟨0, 0, 0, 0, 0, 0, 0⟩ : RmaD) with conn := 2 ^ 24 }, .rmaAddServe { qRing with src := .ring 4096 } ⟨0, 0, 0, 0, 0, 0, 0⟩ false, .rmaAddServe qRing ⟨0, 0, 0, 0, 0, 0, 0⟩ false] : List Instr) ++
  ([.rmaAddServe qConn { (⟨0, 0, 0, 0, 0, 0, 0⟩ : RmaD) with conn := 2 ^ 24 } false, .rmaCasServe { qRing with src := .ring 4096 } ⟨0, 0, 0, 0, 0, 0, 0⟩ false, .rmaCasServe qRing ⟨0, 0, 0, 0, 0, 0, 0⟩ false, .rmaCasServe qConn { (⟨0, 0, 0, 0, 0, 0, 0⟩ : RmaD) with conn := 2 ^ 24 } false, .rmaFlushServe { qRing with src := .ring 4096 } ⟨0, 0, 0, 0, 0, 0, 0⟩, .rmaFlushServe qRing ⟨0, 0, 0, 0, 0, 0, 0⟩, .rmaFlushServe qConn { (⟨0, 0, 0, 0, 0, 0, 0⟩ : RmaD) with conn := 2 ^ 24 }, .targetNoticeIntervalEnd (2 ^ 32) 0] : List Instr) ++
  ([.targetNoticeIntervalEnd 0 256, .rmaResponse (2 ^ 18) 0 0 0 0 [], .rmaResponse 0 (2 ^ 24) 0 0 0 [], .rmaResponse 0 0 256 0 0 [], .rmaResponse 0 0 0 (2 ^ 32) 0 [], .rmaResponse 0 0 0 0 (2 ^ 32) [], .waitCount { qRing with src := .ring 4096 } waitD, .waitCount qRing { waitD with watch := 4096 }] : List Instr) ++
  ([.waitCount qRing { waitD with skip := 256 }, .waitCount qRing { waitD with target := 2 ^ 64 }, .waitCount qRing { waitD with timeoutUs := 2 ^ 32 }, .waitWord { qRing with src := .ring 4096 } wordD, .waitWord qRing { wordD with handle := 2 ^ 32 }, .waitWord qRing { wordD with cond := 256 }, .waitWord qRing { wordD with skip := 256 }, .waitWord qRing { wordD with offset := 2 ^ 64 }] : List Instr) ++
  ([.waitWord qRing { wordD with timeoutUs := 2 ^ 32 }, .regionRegister { qRing with src := .ring 4096 } registerD, .regionRegister qRing { registerD with kind := 256 }, .regionRegister qRing { registerD with rights := 256 }, .regionRegister qRing { registerD with peerIndex := 2 ^ 16 }, .regionRegister qRing { registerD with bindConn := 2 ^ 24 }, .regionRegister qRing { registerD with base := 2 ^ 64 }, .regionRegister qRing { registerD with length := 2 ^ 64 }] : List Instr) ++
  ([.regionRegister qRing { registerD with peerHandle := 2 ^ 32 }, .regionRegister qRing { registerD with notifyRing := 2 ^ 16 }, .regionRevoke { qRing with src := .ring 4096 } ⟨0, 65536⟩, .regionRevoke qRing { (⟨0, 65536⟩ : RevokeD) with peerIndex := 2 ^ 16 }, .regionRevoke qRing { (⟨0, 65536⟩ : RevokeD) with handle := 2 ^ 32 }, .regionDrained (.handle (2 ^ 32)), .regionDrained (.peer 1024 0), .regionDrained (.peer 0 256)] : List Instr) ++
  ([.seqCreate { qRing with src := .ring 4096 } seqD, .seqCreate qRing { seqD with seq := 2 ^ 24 }, .seqCreate qRing { seqD with shapeId := 256 }, .seqCreate qRing { seqD with layers := 257 }, .seqCreate qRing { seqD with kvHeads := 257 }, .seqCreate qRing { seqD with pmaxLog2 := 256 }, .seqCreate qRing { seqD with baseVpn := 2 ^ 32 }, .seqCreate qRing { seqD with posStart := 2 ^ 32 }] : List Instr) ++
  ([.seqCreate qRing { seqD with histN := 256 }, .seqCreate qRing { seqD with headroom := 256 }, .seqCreate qRing { seqD with policy := 2 ^ 16 }, .seqCreate qRing { seqD with ckptRegion := 2 ^ 32 }, .seqCreate qRing { seqD with layers := 0 }, .seqCreate qRing { seqD with kvHeads := 0 }, .seqPark { qRing with src := .ring 4096 } 0, .seqPark qRing (2 ^ 24)] : List Instr) ++
  ([.seqResume { qRing with src := .ring 4096 } 0, .seqResume qRing (2 ^ 24), .seqDestroy { qRing with src := .ring 4096 } 0, .seqDestroy qRing (2 ^ 24), .seqMigrate { qRing with src := .ring 4096 } migD, .seqMigrate qRing { migD with seq := 2 ^ 24 }, .seqMigrate qRing { migD with conn := 2 ^ 24 }, .seqMigrate qRing { migD with targetSlot := 2 ^ 16 }] : List Instr) ++
  ([.migratePageAck 0 (2 ^ 32), .ckptExport { qRing with src := .ring 4096 } ⟨1, 9, 0, List.replicate 97 0⟩, .ckptExport qRing { (⟨1, 9, 0, List.replicate 97 0⟩ : ExportD) with seq := 2 ^ 24 }, .ckptExport qRing { (⟨1, 9, 0, List.replicate 97 0⟩ : ExportD) with peerIndex := 256 }, .ckptExport qRing { (⟨1, 9, 0, List.replicate 97 0⟩ : ExportD) with storeOffset := 2 ^ 40 }, .ckptExport qRing { (⟨1, 9, 0, List.replicate 97 0⟩ : ExportD) with recipient := [] }, .ckptImport { qRing with src := .ring 4096 } impD manif, .ckptImport qRing { impD with dstSeq := 2 ^ 24 } manif] : List Instr) ++
  ([.ckptImport qRing { impD with peerIndex := 256 } manif, .ckptImport qRing { impD with nEnv := 256 } manif, .ckptImport qRing { impD with manifestOffset := 2 ^ 40 } manif, .ckptImport qRing { impD with baseVpn := 2 ^ 32 } manif, .ckptImport qRing { impD with dataAddr := 2 ^ 64 } manif, .ckptImport qRing impD { manif with pages := [(2 ^ 32, 0)] }, .ckptImport qRing impD { manif with pages := [(0, 2 ^ 40)] }, .abort { qRing with src := .ring 4096 } ⟨0, 0, 3, 0, 0⟩] : List Instr) ++
  ([.abort qRing { (⟨0, 0, 3, 0, 0⟩ : AbortD) with scope := 256 }, .abort qRing { (⟨0, 0, 3, 0, 0⟩ : AbortD) with targetContext := 4096 }, .abort qRing { (⟨0, 0, 3, 0, 0⟩ : AbortD) with targetDomain := 1024 }, .abort qRing { (⟨0, 0, 3, 0, 0⟩ : AbortD) with targetPartition := 16 }, .fence { qRing with src := .ring 4096 }, .nop { qRing with src := .ring 4096 }, .ringFetch 4096, .demandFillLands 1024 0 none] : List Instr) ++
  ([.demandFillLands 0 (2 ^ 32) none, .demandFillFails 1024 0, .demandFillFails 0 (2 ^ 32), .windowClose 24 0, .windowClose 0 17, .preemptStop 24 0, .preemptStop 0 2, .contextSaveDone 4096] : List Instr) ++
  ([.tilePartialRelease 0 24, .promotionLands (2 ^ 28), .partialReceive (2 ^ 18) 0 part0, .partialReceive 0 (2 ^ 24) part0, .partialReceive 0 0 { part0 with domain := 1024 }, .mergeDeadline { part0.key with domain := 1024 }, .mergeDeadline { part0.key with level := 4 }, .lingerExpire { part0.key with domain := 1024 }] : List Instr) ++
  ([.lingerExpire { part0.key with level := 4 }, .partialStatusReceive (2 ^ 18) 0 0 0, .partialStatusReceive 0 (2 ^ 24) 0 0, .partialStatusReceive 0 0 256 0, .partialStatusReceive 0 0 0 (2 ^ 32), .crumbPackStart 24, .crumbPackCommit (2 ^ 28), .pinRelease (2 ^ 28) false] : List Instr) ++
  ([.benchAgeSweep 24, .writebackComplete 24 0 0, .writebackComplete 0 1728 0, .writebackComplete 0 0 16, .mergeBufferFlush 408 0 false, .mergeBufferFlush 0 (2 ^ 31) false, .scrubRead 24 (.rack 0 0) .clean, .scrubRead 0 (.rack 384 0) .clean] : List Instr) ++
  ([.scrubRead 0 (.rack 0 (2 ^ 31)) .clean, .scrubRead 0 (.bench (2 ^ 31)) .clean, .scrubRead 0 (.tables 1728 0) .clean, .scrubRead 0 (.tables 0 16) .clean, .scrubRead 0 (.connState 384 0 0) .clean, .scrubRead 0 (.connState 0 0 (2 ^ 18)) .clean, .scrubRead 0 (.keyTable 384 0 0) .clean, .scrubRead 0 (.keyTable 0 0 (2 ^ 128)) .clean] : List Instr) ++
  ([.scrubRead 0 (.auditRing 384 0 0) .clean, .scrubRead 0 (.auditRing 0 0 (2 ^ 64)) .clean, .scrubRead 0 (.keyStore 1024) .clean, .scrubRead 0 (.sram (.staging 0) (2 ^ 32)) .clean, .scrubRead 0 (.sram (.scratchpad 24 0) 0) .clean, .scrubRead 0 (.sram (.scratchpad 0 2) 0) .clean, .scrubRead 0 (.sram (.nbuBuffer 0 16) 0) .clean, .scrubRead 0 (.sram (.staging 24) 0) .clean] : List Instr) ++
  ([.scrubRead 0 (.sram (.portBuffer 8) 0) .clean, .scrubRead 0 (.sram (.starter 8 0 0 true) 0) .clean, .scrubRead 0 (.sram (.starter 0 (2 ^ 16) 0 true) 0) .clean, .scrubRead 0 (.sram (.starter 0 0 8 true) 0) .clean, .scrubRead 0 (.sram (.tlb 1024 0) 0) .clean, .scrubRead 0 (.sram (.walkCache 0 (2 ^ 24)) 0) .clean, .scrubRead 0 (.sram (.expander 0 18) 0) .clean, .scrubRead 0 (.sram (.connCache (2 ^ 18)) 0) .clean] : List Instr) ++
  ([.scrubRead 0 (.sram (.mergeCache { part0.key with level := 4 }) 0) .clean, .scrubRead 0 (.sram (.queueState (some 24) []) 0) .clean, .scrubRead 0 (.sram (.policer 1024) 0) .clean, .scrubRead 0 (.sram (.coreMemory 7) 0) .clean, .scrubRead 0 (.rack 0 0) (.corrected 288), .scrubPassLate 24 0, .scrubPassLate 0 3, .bucketLeakTick 32768] : List Instr) ++
  ([.watchdogFire 32768, .busWatchdogBite 24 0 0, .busWatchdogBite 0 16 0, .busWatchdogBite 0 0 (2 ^ 32), .bridgeTimeout ⟨.tile 24, .unanswered⟩, .bridgeTimeout ⟨.port 8, .unanswered⟩, .bridgeTimeout ⟨.bench 4, .unanswered⟩, .bridgeTimeout ⟨.core 7, .unanswered⟩] : List Instr) ++
  ([.bridgeTimeout ⟨.channel 384, .unanswered⟩, .bridgeTimeout ⟨.tile 0, .read (.core 7) ⟨0, 4⟩ 0⟩, .bridgeTimeout ⟨.tile 0, .read hostA ⟨2 ^ 28, 4⟩ 0⟩, .bridgeTimeout ⟨.tile 0, .read hostA ⟨0, 4097⟩ 0⟩, .bridgeTimeout ⟨.tile 0, .read hostA ⟨0, 4⟩ 4096⟩, .controlMismatch (.page 32768), .coreLockstepRestart 7, .railFault (.quadrant 4)] : List Instr) ++
  ([.trngFail 256, .registerWrite (.core 7) 0 0 0, .registerWrite hostA (2 ^ 28) 0 0, .registerWrite hostA 0 9 0, .registerWrite hostA 0 0 (2 ^ 64), .regPairHiWrite (.core 7) 0 0, .regPairHiWrite hostA (2 ^ 28) 0, .regPairHiWrite hostA 0 (2 ^ 32)] : List Instr) ++
  ([.regLoRead (.core 7) ⟨0, 4⟩ 0, .regLoRead hostA { (⟨0, 4⟩ : RegSpan) with addr := 2 ^ 28 } 0, .regLoRead hostA { (⟨0, 4⟩ : RegSpan) with bytes := 4097 } 0, .regLoRead hostA ⟨0, 4⟩ 4096, .pgCtlEnable (.core 7) 0 false, .pgCtlEnable hostA 32768 false, .pgCtlFreeze (.core 7) 0, .pgCtlFreeze hostA 32768] : List Instr) ++
  ([.softReset (.core 7) 0 false, .softReset hostA 32768 false, .pgCtlAbort (.core 7) 0 [], .pgCtlAbort hostA 32768 [], .pgCtlAbort hostA 0 [32768], .pgLockWrite (.core 7) 0 0, .pgLockWrite hostA 32768 0, .pgLockWrite hostA 0 (2 ^ 32)] : List Instr) ++
  ([.shadowCommit (.core 7) 0, .shadowCommit hostA 32768, .errLogClear (.core 7) 0, .errLogClear hostA 32768, .counterClear (.core 7) 0 0, .counterClear hostA 32768 0, .counterClear hostA 0 4096, .invalAll (.core 7)] : List Instr) ++
  ([.ttlbInval (.core 7) 0, .ttlbInval hostA 24, .shapeRead (.core 7), .shapeWrite (.core 7), .flipArm (.core 7) 0, .flipArm hostA 32768, .testAlloc (.core 7) 0, .testAlloc hostA 32768] : List Instr) ++
  ([.testRelease (.core 7) 0, .testRelease hostA 32768, .hotRead (.core 7) 0 0, .hotRead hostA 24 0, .hotRead hostA 0 4096, .lreqRead (.core 7) 0, .lreqRead hostA 4096, .renew (.core 7)] : List Instr) ++
  ([.grant (.core 7), .forcedFence (.core 7), .release (.core 7), .rejoinDiscard (.core 7), .rejoinReinstate (.core 7), .restart (.core 7), .clearFails (.core 7), .forceUnleavened (.core 7)] : List Instr) ++
  ([.locate (.core 7), .activeReq (.core 7) .a, .retrain (.core 7) .a, .ringCreate (.core 7) 0, .ringCreate hostA (2 ^ 32), .ringDisable (.core 7) 0, .ringDisable hostA (2 ^ 32), .sqDb (.core 7) 0] : List Instr) ++
  ([.sqDb hostA (2 ^ 32), .cqDb (.core 7) 0, .cqDb hostA (2 ^ 32), .cqIrqDelay 4096, .ringLost 4, .bulkRead .a 4096 0 0 false false, .bulkRead .a 0 (2 ^ 64) 0 false false, .bulkRead .a 0 0 8192 false false] : List Instr) ++
  ([.bulkWrite .a (2 ^ 64) [], .ringWindowWrite .a (2 ^ 28) [], .retryReq .a 4096, .flitAckCredit .a (some 4096) 0 0, .flitAckCredit .a none 4 0, .flitAckCredit .a none 0 4096, .linkDown .a 256, .linkTrainTimeout .a 32] : List Instr) ++
  ([.imageFlit .a 256 false false 0 [] ⟨true, 0, 0⟩, .imageFlit .a 0 false false (2 ^ 32) [] ⟨true, 0, 0⟩, .imageFlit .a 0 false false 0 (List.replicate (237) 0) ⟨true, 0, 0⟩, .lsProof .a ⟨[], false⟩, .hello { (msgTo 0) with core := 8 } 0 0, .hello { (msgTo 0) with major := 256 } 0 0, .hello { (msgTo 0) with minor := 256 } 0 0, .hello (msgTo 0) 256 0] : List Instr) ++
  ([.hello (msgTo 0) 0 256, .traceSet { (msgTo 0) with core := 8 } 0 0 0, .traceSet (msgTo 0) 256 0 0, .traceSet (msgTo 0) 0 257 0, .traceSet (msgTo 0) 0 0 2, .attest { (msgTo 0) with core := 8 } 0, .domainCreate { (msgTo 0) with core := 8 } ⟨5, 0, 0, 0, 0, 0, 0⟩, .domainCreate (msgTo 0) { (⟨5, 0, 0, 0, 0, 0, 0⟩ : DomainD) with domain := 1024 }] : List Instr) ++
  ([.domainCreate (msgTo 0) { (⟨5, 0, 0, 0, 0, 0, 0⟩ : DomainD) with rquota := 2 ^ 32 }, .domainCreate (msgTo 0) { (⟨5, 0, 0, 0, 0, 0, 0⟩ : DomainD) with bquota := 2 ^ 32 }, .domainCreate (msgTo 0) { (⟨5, 0, 0, 0, 0, 0, 0⟩ : DomainD) with squota := 2 ^ 32 }, .domainCreate (msgTo 0) { (⟨5, 0, 0, 0, 0, 0, 0⟩ : DomainD) with regions := 2 ^ 32 }, .domainCreate (msgTo 0) { (⟨5, 0, 0, 0, 0, 0, 0⟩ : DomainD) with creds := 2 ^ 16 }, .domainCreate (msgTo 0) { (⟨5, 0, 0, 0, 0, 0, 0⟩ : DomainD) with projs := 2 ^ 16 }, .domainDestroy { (msgTo 0) with core := 8 } 0, .domainDestroy (msgTo 0) 1024] : List Instr) ++
  ([.credAdd { (msgTo 0) with core := 8 } 0 0 0 0 [] false, .credAdd (msgTo 0) (2 ^ 32) 0 0 0 [] false, .credAdd (msgTo 0) 0 1024 0 0 [] false, .credAdd (msgTo 0) 0 0 256 0 [] false, .credAdd (msgTo 0) 0 0 0 256 [] false, .credRemove { (msgTo 0) with core := 8 } 0 false, .credRemove (msgTo 0) (2 ^ 32) false, .projInstall { (msgTo 0) with core := 8 } projD0] : List Instr) ++
  ([.projInstall (msgTo 0) { projD0 with domain := 1024 }, .projInstall (msgTo 0) { projD0 with source := 256 }, .projInstall (msgTo 0) { projD0 with addr := 2 ^ 64 }, .projInstall (msgTo 0) { projD0 with handle := 2 ^ 16 }, .projInstall (msgTo 0) { projD0 with offset := 2 ^ 64 }, .projInstall (msgTo 0) { projD0 with length := 2 ^ 32 }, .projInstall (msgTo 0) { projD0 with status := 256 }, .projRemove { (msgTo 0) with core := 8 } 0 0] : List Instr) ++
  ([.projRemove (msgTo 0) 1024 0, .projRemove (msgTo 0) 0 (2 ^ 16), .inspectOpen { (msgTo 0) with core := 8 } 0, .inspectOpen (msgTo 0) 1024, .inspectClose { (msgTo 0) with core := 8 } 0, .inspectClose (msgTo 0) (2 ^ 32), .inspectExpire (2 ^ 32), .auditExcerpt { (msgTo 0) with core := 8 } 0 0 0 0] : List Instr) ++
  ([.auditExcerpt (msgTo 0) 1024 0 0 0, .auditExcerpt (msgTo 0) 0 (2 ^ 32) 0 0, .auditExcerpt (msgTo 0) 0 0 (2 ^ 64) 0, .opkProgram { (msgTo 0) with core := 8 } 0 (List.replicate 97 0), .opkProgram (msgTo 0) 256 (List.replicate 97 0), .opkProgram (msgTo 0) 0 [], .opkRevoke { (msgTo 0) with core := 8 } 0, .opkRevoke (msgTo 0) 256] : List Instr) ++
  ([.fwStage { (msgTo 0) with core := 8 } 0 0 0 ⟨true, 0, 0⟩, .fwStage (msgTo 0) 256 0 0 ⟨true, 0, 0⟩, .fwStage (msgTo 0) 0 (2 ^ 64) 0 ⟨true, 0, 0⟩, .fwStage (msgTo 0) 0 0 (2 ^ 32) ⟨true, 0, 0⟩, .fwActivate { (msgTo 0) with core := 8 } 0, .fwActivate (msgTo 0) 256, .activationStartTimeout 4, .deferredActivationResume 4] : List Instr) ++
  ([.fwStatus { (msgTo 0) with core := 8 } 0, .fwStatus (msgTo 0) 256, .antiRollbackRaise 4, .meterSnapshot { (msgTo 0) with core := 8 } 0 0, .meterSnapshot (msgTo 0) (2 ^ 16) 0, .evacuate { (msgTo 0) with core := 8 } ⟨0, 0, 0⟩, .evacuate (msgTo 0) { (⟨0, 0, 0⟩ : EvacD) with mode := 256 }, .evacuate (msgTo 0) { (⟨0, 0, 0⟩ : EvacD) with conn := 2 ^ 24 }] : List Instr) ++
  ([.evacuate (msgTo 0) { (⟨0, 0, 0⟩ : EvacD) with targetSlot := 2 ^ 16 }, .powerCap { (msgTo 0) with core := 8 } 0, .powerCap (msgTo 0) (2 ^ 32), .ctxCreate { (msgTo 0) with core := 8 } 0 ⟨5, 0, false, 1, 8, 16⟩, .ctxCreate (msgTo 0) 4096 ⟨5, 0, false, 1, 8, 16⟩, .ctxCreate (msgTo 0) 0 { (⟨5, 0, false, 1, 8, 16⟩ : Ctx) with domain := 1024 }, .ctxModify { (msgTo 0) with core := 8 } 0 ⟨5, 0, false, 1, 8, 16⟩, .ctxModify (msgTo 0) 4096 ⟨5, 0, false, 1, 8, 16⟩] : List Instr) ++
  ([.ctxModify (msgTo 0) 0 { (⟨5, 0, false, 1, 8, 16⟩ : Ctx) with domain := 1024 }, .ctxDestroy { (msgTo 0) with core := 8 } 0, .ctxDestroy (msgTo 0) 4096, .quadStatus { (msgTo 0) with core := 8 }, .laneLog { (msgTo 0) with core := 8 } false 0 0, .laneLog (msgTo 0) false (2 ^ 16) 0, .laneLog (msgTo 0) false 0 256, .hsInit 8 0 hsD] : List Instr) ++
  ([.hsInit 0 2 hsD, .hsInit 0 0 { hsD with verMin := 256 }, .hsInit 0 0 { hsD with verMax := 256 }, .hsInit 0 0 { hsD with credType := 256 }, .hsInit 0 0 { hsD with sconn := 2 ^ 24 }, .hsInit 0 0 { hsD with domain := 1024 }, .hsInit 0 0 { hsD with composition := 2 ^ 16 }, .hsInit 0 0 { hsD with credId := 2 ^ 32 }] : List Instr) ++
  ([.hsInit 0 0 { hsD with peerAddr := 2 ^ 128 }, .hsInit 0 0 { hsD with udpPort := 2 ^ 16 }, .hsFinish 0 ⟨List.replicate (2 ^ 16) 0, false⟩, .data { pkt0 with port := 8 }, .data { pkt0 with sub := 2 }, .ack (2 ^ 18) 0 0 [] 0 false, .ack 0 16 0 [] 0 false, .ack 0 0 (2 ^ 32) [] 0 false] : List Instr) ++
  ([.ack 0 0 0 [] (2 ^ 32) false, .ackDelay (2 ^ 18), .recvBusy (2 ^ 18) 0 .request 0, .recvBusy 0 (2 ^ 24) .request 0, .recvBusy 0 0 .request (2 ^ 32), .recvBusyRetry (2 ^ 18) 0 .request, .recvBusyRetry 0 (2 ^ 24) .request, .abandon (2 ^ 18) 0 .request 0] : List Instr) ++
  ([.abandon 0 (2 ^ 24) .request 0, .abandon 0 0 .request 256, .pathProbe (2 ^ 18) 0 path0, .pathProbe 0 16 path0, .pathProbe 0 0 { path0 with port := 8 }, .pathProbe 0 0 { path0 with sub := 2 }, .pathReply (2 ^ 18) 0, .pathReply 0 16] : List Instr) ++
  ([.probeTimer (2 ^ 18) 0, .probeTimer 0 16, .rtoExpire (2 ^ 18) 0, .rtoExpire 0 (2 ^ 32), .reasmTimeout (2 ^ 18) 0 .request, .reasmTimeout 0 (2 ^ 24) .request, .close (2 ^ 18), .closeAck (2 ^ 18)] : List Instr) ++
  ([.connFetchDone (2 ^ 18), .sublinkLinkLoss 8 0, .sublinkLinkLoss 0 2, .pacerRelease (2 ^ 18), .egressSelect 8 0, .egressSelect 0 2, .powerOn (2 ^ 32), .inputTrip 3] : List Instr) ++
  ([.bootStepDone ⟨true, 256, 0, [], [], []⟩, .bootStepDone ⟨true, 0, 2 ^ 32, [], [], []⟩, .bootStepDone ⟨true, 0, 0, [24], [], []⟩, .bootStepDone ⟨true, 0, 0, [], [4], []⟩, .bootStepDone ⟨true, 0, 0, [], [], [(384, 0)]⟩, .bootStepDone ⟨true, 0, 0, [], [], [(0, 288)]⟩, .powerSample (2 ^ 32) 0 0, .powerSample 0 (2 ^ 32) 0] : List Instr) ++
  ([.powerSample 0 0 (2 ^ 32), .brownOut (2 ^ 32) 0, .brownOut 0 (2 ^ 32), .thermalSample 256 0 0, .thermalSample 0 256 0, .thermalSample 0 0 256, .incomingMigration (2 ^ 18) 0 (.record 5 1 true seq1), .incomingMigration 0 (2 ^ 24) (.record 5 1 true seq1)] : List Instr) ++
  ([.incomingMigration 0 0 (.record 1024 1 true seq1), .incomingMigration 0 0 (.record 5 (2 ^ 24) true seq1), .incomingMigration 0 0 (.page 1024 1 256 true pg0), .incomingMigration 0 0 (.page 5 (2 ^ 24) 256 true pg0), .incomingMigration 0 0 (.page 5 1 (2 ^ 32) true pg0), .quiesceTimeout 0 [32768], .coreReachesUp 7, .portLinkUp 8 0] : List Instr) ++
  ([.portLinkUp 0 2, .benchFetchLands (2 ^ 28), .arpNsEchoRequest 8 ⟨0, none⟩ 0 0 0 [], .arpNsEchoRequest 0 ⟨2, none⟩ 0 0 0 [], .arpNsEchoRequest 0 ⟨0, some 4096⟩ 0 0 0 [], .arpNsEchoRequest 0 ⟨0, none⟩ 4 0 0 []] : List Instr)

theorem test_ill_formed_commands_are_refused : illFormedOnes.any Instr.wellFormed = false := by decide +kernel

/-- The same for the lengths of long data. -/
theorem test_long_data_is_refused (d : List Byte) (h : 2 ^ 20 < d.length) :
    (Instr.nop { qRing with data := d }).wellFormed = false ∧ (Instr.rmaResponse 0 0 0 0 0 d).wellFormed = false ∧
    (Instr.bulkWrite .a 0 d).wellFormed = false ∧ (Instr.ringWindowWrite .a 0 d).wellFormed = false ∧
    (Instr.credAdd (msgTo 0) 0 0 0 0 d false).wellFormed = false := by
  simp [Instr.wellFormed, Req.wf, below]
  omega

/-! ### Hypotheses that are met -/

theorem one_frag_named_by_id (s : State) (i : Nat) (f : Frag) (h : s.eng.frags = [(i, f)]) (hf : f.id = i) :
    ∀ k x, s.frag k = some x → x.id = k := by
  intro k x e
  by_cases hk : i = k
  · subst hk; simp [State.frag, h, AL.get] at e; exact e ▸ hf
  · simp [State.frag, h, AL.get, hk] at e

/-- States and operands that meet the hypotheses of AStepRunsTheFrontCommand, clause by clause. -/
theorem witness_a_step_runs_the_front_command :
  (let c : Instr := .nop qRing
   let rest : List Instr := [.fence qRing]
   let s : State := { on with pending := [.nop qRing, .fence qRing] }
   s.pending = c :: rest) :=
  by decide +kernel

/-- States and operands that meet the hypotheses of AnEmptyQueueTicks, clause by clause. -/
theorem witness_an_empty_queue_ticks :
  (let s : State := State.reset
   s.pending = [] ∧ s.pw.st = .off) ∧
  (let s : State := on
   s.pending = [] ∧ s.pw.st ≠ .off) :=
  .intro (by decide +kernel) <| by decide +kernel

/-- States and operands that meet the hypotheses of NodeReferenceTimeRunsFreely, clause by clause. -/
theorem witness_node_reference_time_runs_freely :
  (let s : State := { on with pending := [.nop qRing] }
   let t : State := nextOf (step s)
   let c : Instr := .nop qRing
   let rest : List Instr := []
   (s.pending = c :: rest) ∧ step s = .next t) ∧
  (let s : State := on
   let t : State := nextOf (step s)
   (s.pending = []) ∧ step s = .next t) :=
  .intro ⟨by decide +kernel, rfl⟩ <| ⟨by decide +kernel, rfl⟩

/-- States and operands that meet the hypotheses of MemoryStaysCanonical, clause by clause. -/
theorem witness_memory_stays_canonical :
  (let s : State := { ringed with pending := [.nop qRing] }
   let t : State := nextOf (step s)
   (s.mem.wf = true) ∧ step s = .next t) :=
  ⟨by decide +kernel, rfl⟩

/-- States and operands that meet the hypotheses of CompletionRecordIsLaidOut, clause by clause. -/
theorem witness_completion_record_is_laid_out :
  (let c : Completion := ⟨0xAB, 255, 255, 4095, 4294967295, 4294967295, 65535, 65535, 5⟩
   let phase : Bool := true
   let time : Nat := 18446744073709551615
   c.status < 256 ∧ c.opcode < 256 ∧ c.context < 4096 ∧ c.c0 < 2 ^ 32 ∧ c.c1 < 2 ^ 32 ∧ c.covE < 65536 ∧ c.covG < 65536 ∧ time < 2 ^ 64) :=
  by decide +kernel

/-- States and operands that meet the hypotheses of HotFifoHoldsSixteen, clause by clause. -/
theorem witness_hot_fifo_holds_sixteen :
  (let s : State := { on with integ := { IntegState.blank with hot := [(0, List.range 15)] } }
   let t : Nat := 0
   let f : Nat := 99
   (AL.getD t [] s.integ.hot).length < 16) ∧
  (let s : State := { on with integ := { IntegState.blank with hot := [(0, List.range 16)] } }
   let t : Nat := 0
   let f : Nat := 99
   (AL.getD t [] s.integ.hot).length = 16) ∧
  (let s : State := { on with integ := { IntegState.blank with hot := [(0, List.range 16)] } }
   let t : Nat := 0
   let u : Nat := 1
   let f : Nat := 99
   u ≠ t) ∧
  (let s : State := { on with integ := { IntegState.blank with hot := [(0, [7, 8])] } }
   let l : Link := .a
   let tile : Nat := 0
   let tag : Nat := 1
   let f : Nat := 7
   let r : List Nat := [8]
   tile < 24 ∧ s.mayRead (.host l) (pgScrb tile) 0x114 = true ∧ AL.getD tile [] s.integ.hot = f :: r) :=
  .intro (by decide +kernel) <| .intro (by decide +kernel) <| .intro (by decide +kernel) <| by decide +kernel

/-- States and operands that meet the hypotheses of VirtualTimeIsRebased, clause by clause. -/
theorem witness_virtual_time_is_rebased :
  (let s : State := { on with egress := { EgressState.blank with subs := [((0, 0), { SubState.blank with v := 2 ^ 31 + 1 })], queues := [((0, 0, 21), ⟨[egPkt0], 0, 2 ^ 31 + 200⟩)] } }
   let p : Nat := 0
   let b : Nat := 0
   2 ^ 31 < (s.egSub p b).v) ∧
  (let s : State := { on with egress := { EgressState.blank with subs := [((0, 0), { SubState.blank with v := 2 ^ 31 })] } }
   let p : Nat := 0
   let b : Nat := 0
   (s.egSub p b).v ≤ 2 ^ 31) ∧
  (let s : State := { on.setReg (pgPort 0) 0x104 0x10 with egress := { EgressState.blank with subs := [((0, 0), { SubState.blank with v := 2 ^ 31 + 1 })], queues := [((0, 0, 21), ⟨[egPkt0], 0, 2 ^ 31 + 200⟩)] } }
   let p : Nat := 0
   let b : Nat := 0
   s.running = true ∧ p < 8 ∧ b < 2 ∧ s.fld (pgPort p) 0x104 (4 + b) 1 = 1 ∧ s.unitAdmits (pgPort p) = true) :=
  .intro (by decide +kernel) <| .intro (by decide +kernel) <| by decide +kernel

/-- States and operands that meet the hypotheses of LowerElementTakesLowBits, clause by clause. -/
theorem witness_lower_element_takes_low_bits :
  (let m : Mem := [(3, 0xA5)]
   let e : Nat := 7
   let c : Nat := 15
   m.wf = true ∧ c < 16) :=
  by decide +kernel

/-- States and operands that meet the hypotheses of EpochsAreAccepted, clause by clause. -/
theorem witness_epochs_are_accepted :
  (let s : State := on
   let e : Word := 0
   s.lease.st = .unleased) ∧
  (let s : State := { on with lease := { on.lease with st := .leased, cur := 7, prev := some 6, graceTill := 2000000000 } }
   let e : Word := 6
   s.lease.st ≠ .unleased) ∧
  (let s : State := { on with lease := { on.lease with st := .leased, cur := 7, comp := some (4, 1) } }
   let c : Conn := { conn2 with composition := 4 }
   let e : Word := 7
   let k : Nat := 1
   s.lease.st = .leased ∧ c.composition ≠ 0xFFFF ∧ s.lease.comp = some (c.composition, k)) ∧
  (let s : State := { ringed with lease := { on.lease with st := .leased, cur := 7 } }
   let q : Req := qRing
   let op : Op := .fence
   let n : Nat := 1
   let len : Nat := 64
   let d : DomainRec := ⟨.active, 16, 4, none⟩
   let c : Ctx := ⟨5, 0, false, 1, 8, 16⟩
   let m : Option Manifest := none
   let ue : Bool := false
   (q.src = .ring n ∧ q.hdr.flags &&& op.flagMask = q.hdr.flags ∧ s.nodeFenced = false ∧ AL.get q.hdr.domain s.sec.domains = some d ∧ d.st = .active ∧ AL.get q.hdr.context s.cmds.ctxs = some c ∧ c.domain = q.hdr.domain ∧ s.ringDomain n = q.hdr.domain ∧ s.epochOk false q.hdr.epoch = false) ∧ (∀ o, op ≠ .bad o)) ∧
  (let s : State := { ringed with lease := { on.lease with st := .leased, cur := 7 } }
   let q : Req := qRing
   let n : Nat := 1
   let d : DomainRec := ⟨.active, 16, 4, none⟩
   let c : Ctx := ⟨5, 0, false, 1, 8, 16⟩
   s.running = true ∧ q.src = .ring n ∧ q.hdr.flags = 0 ∧ s.nodeFenced = false ∧ AL.get q.hdr.domain s.sec.domains = some d ∧ d.st = .active ∧ AL.get q.hdr.context s.cmds.ctxs = some c ∧ c.domain = q.hdr.domain ∧ s.ringDomain n = q.hdr.domain ∧ s.epochOk false q.hdr.epoch = false) :=
  .intro (by decide +kernel) <| .intro (by decide +kernel) <| .intro (by decide +kernel) <| .intro ⟨by decide +kernel, nofun⟩ <| by decide +kernel

/-- States and operands that meet the hypotheses of PowerComesAndGoes, clause by clause. -/
theorem witness_power_comes_and_goes :
  (let s : State := off
   let mv : Nat := 36000
   s.pw.st = .off ∧ 36000 ≤ mv ∧ mv ≤ 56000 ∧ s.pw.overV = false ∧ s.pw.en = false) ∧
  (let s : State := { off with pw := { PowerState.blank with overV := true } }
   s.pw.st = .off ∧ s.pw.overV = true ∧ s.pw.en = false) ∧
  (let s : State := standby
   s.pw.st = .standby ∧ s.pw.en = false ∧ stage1 s.pw.temps = false ∧ s.pw.forced = false ∧ s.pw.fails < bitsOf s.pw.scfg.toNat 0 3) ∧
  (let s : State := on
   s.pw.st ≠ .off ∧ s.pw.st ≠ .standby) :=
  .intro (by decide +kernel) <| .intro (by decide +kernel) <| .intro (by decide +kernel) <| by decide +kernel

/-- States and operands that meet the hypotheses of TheStartGoesStepByStep, clause by clause. -/
theorem witness_the_start_goes_step_by_step :
  (let s : State := starting 2
   let o : BootOutcome := ⟨true, 0, 0, [], [], []⟩
   (s.pw.st = .starting ∧ s.pw.retryAt = none ∧ bootBad o s.pw.step = [] ∧ 2 ≤ s.pw.step ∧ s.pw.step ≤ 6 ∧ s.minTiles ≤ s.usableTiles ∧ [0, 6, 12, 18].all s.tileFenced = false) ∧ o.ok = true) ∧
  (let s : State := starting 7
   let o : BootOutcome := ⟨true, 0, 0, [], [], []⟩
   (s.pw.st = .starting ∧ s.pw.retryAt = none ∧ bootBad o 7 = [] ∧ s.pw.step = 7 ∧ s.pw.mhz = 1200 ∧ s.minTiles ≤ s.usableTiles ∧ [0, 6, 12, 18].all s.tileFenced = false) ∧ o.ok = true) ∧
  (let s : State := starting 1
   let o : BootOutcome := ⟨false, 7, 9, [], [], []⟩
   (s.pw.st = .starting ∧ s.pw.retryAt = none ∧ (o.code < 2 ∨ 6 < o.code ∨ o.code = 3) ∧ (s.pw.step = 1 → s.bootHost = false)) ∧ o.ok = false) ∧
  (let s : State := starting 4
   s.pw.st = .starting ∧ s.pw.retryAt = none ∧ s.emergency = false ∧ s.pw.stepAt + stepBoundMs s.bootHost s.pw.step * 100000 ≤ s.nrt ∧ stepCore s.pw.step = none) ∧
  (let s : State := { starting 0 with pw := { (starting 0).pw with retryAt := some 9 } }
   let r : Nat := 9
   s.pw.st = .starting ∧ s.pw.retryAt = some r ∧ r ≤ s.nrt ∧ s.pw.forced = false ∧ s.pw.fails < bitsOf s.pw.scfg.toNat 0 3) ∧
  (let s : State := { starting 1 with pw := { (starting 1).pw with imgTill := some 9 }, host := { HostState.blank with b := { upLink with imgKind := 2, imgBytes := [1] } } }
   let w : Nat := 9
   s.pw.st = .starting ∧ s.pw.step = 1 ∧ s.pw.imgTill = some w ∧ w ≤ s.nrt) :=
  .intro ⟨by decide +kernel, rfl⟩ <| .intro ⟨by decide +kernel, rfl⟩ <| .intro ⟨by decide +kernel, rfl⟩ <| .intro (by decide +kernel) <| .intro (by decide +kernel) <| by decide +kernel

/-- States and operands that meet the hypotheses of SupplyAndTemperatureSetTheClock, clause by clause. -/
theorem witness_supply_and_temperature_set_the_clock :
  (let s : State := on
   let pin : Nat := 1401
   let vin : Nat := 48000
   let iin : Nat := 30000
   s.awake = true ∧ (1400 < average (((pin :: s.pw.samples).take 100).take 10) ∨ s.capW + 150 < average ((pin :: s.pw.samples).take 100))) ∧
  (let s : State := on.setReg pgPmgt 0x104 600
   let pin : Nat := 700
   let vin : Nat := 48000
   let iin : Nat := 30000
   s.awake = true ∧ average (((pin :: s.pw.samples).take 100).take 10) ≤ 1400 ∧ average ((pin :: s.pw.samples).take 100) ≤ s.capW + 150 ∧ s.capW < average ((pin :: s.pw.samples).take 100) ∧ s.pw.lowerAt + 10000 ≤ s.nrt) ∧
  (let s : State := starting 3
   let mv : Nat := 35999
   let ma : Nat := 1
   s.powerGood = true ∧ (mv < 36000 ∨ 38000 < ma) ∧ s.pw.brown = false) ∧
  (let s : State := { on with pw := { on.pw with brown := true, goodSince := some 5 } }
   let g : Nat := 5
   s.pw.brown = true ∧ s.pw.goodSince = some g ∧ g + 1000000 ≤ s.nrt) ∧
  (let s : State := on
   let logic : Nat := 10
   let rack : Nat := 106
   let inlet : Nat := 10
   s.powerGood = true ∧ (115 < logic ∨ 105 < rack)) ∧
  (let s : State := on
   let logic : Nat := 106
   let rack : Nat := 10
   let inlet : Nat := 10
   s.powerGood = true ∧ logic ≤ 115 ∧ rack ≤ 105 ∧ (105 < logic ∨ 95 < rack ∨ 52 < inlet) ∧ s.pw.hot = false) ∧
  (let s : State := on
   let logic : Nat := 95
   let rack : Nat := 85
   let inlet : Nat := 47
   s.powerGood = true ∧ logic ≤ 95 ∧ rack ≤ 85 ∧ inlet ≤ 47) ∧
  (let s : State := { on with nrt := 100000005, pw := { on.pw with hot := true, coolSince := some 5 } }
   let g : Nat := 5
   s.pw.hot = true ∧ s.pw.coolSince = some g ∧ g + 100000000 ≤ s.nrt) ∧
  (let s : State := { on with pw := { on.pw with locateTill := 9 } }
   s.pw.locateTill ≠ 0 ∧ s.pw.locateTill ≤ s.nrt) :=
  .intro (by decide +kernel) <| .intro (by decide +kernel) <| .intro (by decide +kernel) <| .intro (by decide +kernel) <| .intro (by decide +kernel) <| .intro (by decide +kernel) <| .intro (by decide +kernel) <| .intro (by decide +kernel) <| by decide +kernel

/-- States and operands that meet the hypotheses of LeaseTimersEnd, clause by clause. -/
theorem witness_lease_timers_end :
  (let s : State := { on with lease := { LeaseState.blank with st := .leased, expiry := 1000000000 } }
   s.running = true ∧ s.lease.st = .leased ∧ s.lease.expiry ≤ s.nrt) ∧
  (let s : State := { on.setReg pgNode 0x204 (20 * 65536) with lease := { LeaseState.blank with st := .leased, expiry := 1000000001 } }
   s.running = true ∧ s.lease.st = .leased ∧ s.lease.lowSent = false ∧ s.lease.expiry < s.nrt + 100000 * s.fld pgNode 0x204 16 10) ∧
  (let s : State := { on with lease := { LeaseState.blank with st := .leased, prev := some 4, graceTill := 1000000000 } }
   let e : Word := 4
   s.running = true ∧ s.lease.prev = some e ∧ s.lease.graceTill ≤ s.nrt) :=
  .intro (by decide +kernel) <| .intro (by decide +kernel) <| by decide +kernel

/-- States and operands that meet the hypotheses of GoActsOnTheLease, clause by clause. -/
theorem witness_go_acts_on_the_lease :
  (let s : State := { nodeHeld.setReg pgNode 0x20C 6 with lease := { LeaseState.blank with st := .leased, serials := [(6, 900000000)], issued := 1, held := some 5 } }
   let ag : Agent := hostA
   let i : Nat := 1
   let t0 : Nat := 900000000
   s.mayWrite ag pgNode 0x220 = true ∧ s.lease.st = .leased ∧ s.serialAt (s.reg pgNode 0x20C) = some (i, t0)) ∧
  (let s : State := { (nodeHeld.setReg pgNode 0x20C 6).setReg pgNode 0x210 (9 * 65536 + 3) with lease := { LeaseState.blank with serials := [(6, 900000000)], issued := 1 } }
   let ag : Agent := hostA
   let i : Nat := 1
   let t0 : Nat := 900000000
   s.mayWrite ag pgNode 0x220 = true ∧ s.running = true ∧ s.lease.st = .unleased ∧ s.serialAt (s.reg pgNode 0x20C) = some (i, t0) ∧ (s.lease.rejoined && s.lease.last.contains (s.reg pgNode 0x214)) = false ∧ (s.openMeter (s.fld pgNode 0x210 16 10)).isSome = true) ∧
  (let s : State := { ((nodeHeld.setReg pgNode 0x20C 6).setReg pgNode 0x210 (9 * 65536 + 3)).setReg pgNode 0x214 8 with lease := { LeaseState.blank with st := .leased, comp := some (9, 3), cur := 7, serials := [(6, 900000000)], issued := 1 } }
   let ag : Agent := hostA
   let i : Nat := 1
   let t0 : Nat := 900000000
   s.mayWrite ag pgNode 0x220 = true ∧ s.running = true ∧ s.lease.st = .leased ∧ s.lease.comp = some (s.fld pgNode 0x210 16 10, s.fld pgNode 0x210 0 16) ∧ s.serialAt (s.reg pgNode 0x20C) = some (i, t0) ∧ s.reg pgNode 0x214 ≠ s.lease.cur ∧ (s.openMeter (s.fld pgNode 0x210 16 10)).isSome = true) ∧
  (let s : State := nodeHeld
   let ag : Agent := hostA
   s.mayWrite ag pgNode 0x220 = true ∧ s.nodeFenced = false) ∧
  (let s : State := { nodeHeld with lease := { LeaseState.blank with st := .leased, comp := some (9, 3), cur := 7 } }
   let ag : Agent := hostA
   let c : Nat := 9
   let k : Nat := 3
   s.mayWrite ag pgNode 0x220 = true ∧ s.lease.st = .leased ∧ s.lease.comp = some (c, k)) ∧
  (let s : State := { nodeHeld with lease := { LeaseState.blank with st := .fenced, comp := some (9, 3), cur := 7 } }
   let ag : Agent := hostA
   s.mayWrite ag pgNode 0x220 = true ∧ s.nodeFenced = true) ∧
  (let s : State := { nodeHeld with lease := { LeaseState.blank with st := .fenced, comp := some (9, 3), cur := 7 } }
   let ag : Agent := hostA
   s.mayWrite ag pgNode 0x220 = true ∧ s.nodeFenced = true ∧ (∀ p ∈ s.net.conns, p.2.composition = 0xFFFF)) :=
  .intro (by decide +kernel) <| .intro (by decide +kernel) <| .intro (by decide +kernel) <| .intro (by decide +kernel) <| .intro (by decide +kernel) <| .intro (by decide +kernel) <| by decide +kernel

/-- States and operands that meet the hypotheses of NodeBitsActOnTheStart, clause by clause. -/
theorem witness_node_bits_act_on_the_start :
  (let s : State := nodeHeld
   let ag : Agent := hostA
   s.mayWrite ag pgNode 0x268 = true ∧ s.awake = true) ∧
  (let s : State := { (starting 3).setReg pgNode 0x48 1 with host := { HostState.blank with a := upLink } }
   let ag : Agent := hostA
   s.mayWrite ag pgNode 0x268 = true ∧ s.awake = false) ∧
  (let s : State := { nodeHeld with pw := { nodeHeld.pw with fails := 2 } }
   let ag : Agent := hostA
   s.mayWrite ag pgNode 0x268 = true) ∧
  (let s : State := nodeHeld
   let ag : Agent := hostA
   s.mayWrite ag pgNode 0x268 = true) ∧
  (let s : State := nodeHeld
   let ag : Agent := hostA
   s.mayWrite ag pgNode 0x278 = true) :=
  .intro (by decide +kernel) <| .intro (by decide +kernel) <| .intro (by decide +kernel) <| .intro (by decide +kernel) <| by decide +kernel

/-- States and operands that meet the hypotheses of ThePageHeaderActs, clause by clause. -/
theorem witness_the_page_header_acts :
  (let s : State := on
   let ag : Agent := hostA
   let page : Nat := pgAten 0 0
   let on : Bool := false
   s.mayWrite ag page 0x18 = true ∧ s.rf.failed.contains page = false ∧ (page = pgXprt → on = true → s.fld pgXprt 0x100 0 16 ≠ 0)) ∧
  (let s : State := on
   let ag : Agent := hostA
   let page : Nat := pgAten 0 0
   s.mayWrite ag page 0x18 = true ∧ s.rf.failed.contains page = false ∧ (page = pgXprt → s.fld pgXprt 0x100 0 16 ≠ 0)) ∧
  (let s : State := on
   let ag : Agent := hostA
   let page : Nat := pgAten 0 0
   let pass : Bool := false
   s.mayWrite ag page 0x18 = true ∧ s.quiet page = true) ∧
  (let c : Cmd := ⟨9, .ring 1, ⟨3, false, false, 0, 5, 7, 0⟩, .waitCount ⟨0, 0, 0, 0⟩, [], 0, .count 5 0 0, false, 0, 0, 0, [], false, []⟩
   let d : WaitCountD := ⟨0, 0, 0, 0⟩
   let s : State := { on with cmds := { on.cmds with list := [c] } }
   let ag : Agent := hostA
   s.mayWrite ag pgXprt 0x18 = true ∧ s.cmds.list = [c] ∧ c.op = .waitCount d ∧ c.wait.space = .none) ∧
  (let s : State := on
   let l : Link := .a
   let page : Nat := pgXlat
   s.mayWrite (.host l) page 0x48 = true ∧ s.lockOwner page = none ∧ corePage page = none) ∧
  (let s : State := on.setReg pgXlat 0x48 1
   let l : Link := .a
   let page : Nat := pgXlat
   s.mayWrite (.host l) page 0x48 = true ∧ s.lockOwner page = some (.host .a)) ∧
  (let s : State := { on with rf := { on.rf with shadow := [((pgTsch 2, 0x104, 3), 7)] } }
   let ag : Agent := hostA
   let tile : Nat := 2
   tile < 24 ∧ s.mayWrite ag (pgTsch tile) 0x4C = true) ∧
  (let s : State := { on with rf := { on.rf with shadow := [((pgEgrs 0, 0x11C, 0), 0x4040)] } }
   let ag : Agent := hostA
   let page : Nat := pgEgrs 0
   s.mayWrite ag page 0x4C = true ∧ (∀ tile, tile < 24 → page ≠ pgTsch tile)) ∧
  (let s : State := on.setReg pgXlat 0x30 0x80000001
   let ag : Agent := hostA
   let page : Nat := pgXlat
   s.mayWrite ag page 0x30 = true) ∧
  (let s : State := on
   let ag : Agent := hostA
   let page : Nat := pgPort 0
   let off : Nat := 0x160
   let a : Nat := 0x140
   let b : Nat := 0x15C
   let keep : List Nat := ([] : List Nat)
   s.mayWrite ag page off = true ∧ (pageType page).bind (fun x => clearRange x.1 off) = some (a, b, keep)) :=
  .intro (by decide +kernel) <| .intro (by decide +kernel) <| .intro (by decide +kernel) <| .intro (by decide +kernel) <| .intro (by decide +kernel) <| .intro (by decide +kernel) <| .intro (by decide +kernel) <| .intro (by decide +kernel) <| .intro (by decide +kernel) <| by decide +kernel

/-- States and operands that meet the hypotheses of AnyRegisterIsWrittenAndRead, clause by clause. -/
theorem witness_any_register_is_written_and_read :
  (let s : State := on
   let ag : Agent := hostA
   let pg : Nat := pgXprt
   let off : Nat := 0x100
   let v : Word := 0x1234
   let ty : PgType := .xprt
   let n : Nat := 0
   s.mayWrite ag pg off = true ∧ 0x100 ≤ off ∧ pageType pg = some (ty, n) ∧ [PgType.node, .xlat, .ttlb, .hlnk, .mbox, .dbel, .mchn, .scrb, .bnch].contains ty = false ∧ clearRange ty off = none ∧ isLow pg (off - 4) = false ∧ (s.quiet pg = true ∨ s.regI pg off (s.selIdx pg off) &&& w32 (accMask (regFields ty off) .rwq) =
      v &&& w32 (accMask (regFields ty off) .rwq))) ∧
  (let s : State := { on with cmds := { on.cmds with list := [waitCmd] } }
   let ag : Agent := hostA
   let pg : Nat := pgXprt
   let off : Nat := 0x100
   let v : Word := 0x1234
   let ty : PgType := .xprt
   let n : Nat := 0
   s.mayWrite ag pg off = true ∧ 0x100 ≤ off ∧ pageType pg = some (ty, n) ∧ [PgType.node, .xlat, .ttlb, .hlnk, .mbox, .dbel, .mchn, .scrb, .bnch].contains ty = false ∧ clearRange ty off = none ∧ isLow pg (off - 4) = false ∧ s.quiet pg = false ∧ s.regI pg off (s.selIdx pg off) &&& w32 (accMask (regFields ty off) .rwq) ≠ v &&& w32 (accMask (regFields ty off) .rwq)) ∧
  (let s : State := on.setReg pgXprt 0x48 0x12
   let ag : Agent := hostA
   let addr : Nat := pgXprt * 4096 + 0x100
   let v : Nat := 7
   s.agentUp ag = true ∧ s.accessBad ag addr 4 true = none ∧ s.lockedOut ag (addr / 4096) (addr % 4096) = true ∧ (addr % 4096 < 4 ∨ isLow (addr / 4096) (addr % 4096 - 4) = false)) ∧
  (let s : State := on
   let l : Link := .a
   let addr : Nat := 0x0FFFFFFC
   let bytes : Nat := 4
   let v : Nat := 7
   let u : Nat := 1
   s.agentUp (.host l) = true ∧ s.accessBad (.host l) addr bytes true = some u) ∧
  (let s : State := on.setReg pgXlat 0x48 1
   let ag : Agent := hostA
   let v : Word := 7
   s.mayWrite ag pgXlat 0x110 = true) ∧
  (let s : State := { on.setReg pgXlat 0x48 1 with rf := { (on.setReg pgXlat 0x48 1).rf with held := [((.host .a, pgXlat * 4096 + 0x110), 9)] } }
   let ag : Agent := hostA
   let v : Word := 7
   let w : Word := 9
   s.mayWrite ag pgXlat 0x114 = true ∧ AL.get (Agent.name ag, pgXlat * 4096 + 0x110) s.rf.held = some w) ∧
  (let s : State := on.setReg pgXlat 0x48 1
   let ag : Agent := hostA
   let v : Word := 7
   s.mayWrite ag pgXlat 0x114 = true ∧ AL.get (Agent.name ag, pgXlat * 4096 + 0x110) s.rf.held = none) ∧
  (let s : State := on.setReg pgXlat 0x48 1
   let ag : Agent := hostA
   let addr : Nat := pgXlat * 4096 + 0x114
   let v : Nat := 7
   4 ≤ addr % 4096 ∧ isLow (addr / 4096) (addr % 4096 - 4) = true) ∧
  (let s : State := { on.setReg pgXlat 0x48 0x12 with rf := { (on.setReg pgXlat 0x48 0x12).rf with held := [((.host .a, pgXlat * 4096 + 0x110), 9)] } }
   let ag : Agent := hostA
   let pg : Nat := pgXlat
   let off : Nat := 0x114
   let v : Nat := 7
   off < 4096 ∧ 4 ≤ off ∧ isLow pg (off - 4) = true ∧ s.agentUp ag = true ∧ s.accessBad ag (pg * 4096 + off) 4 true = none ∧ s.lockedOut ag pg off = true) ∧
  (let s : State := on
   let l : Link := .a
   let pg : Nat := pgXlat
   let off : Nat := 0x110
   let tag : Nat := 3
   s.mayRead (.host l) pg off = true ∧ isLow pg off = true) ∧
  (let s : State := { on with rf := { on.rf with latched := [((.host .a, pgXlat * 4096 + 0x114), 9)] } }
   let l : Link := .a
   let pg : Nat := pgXlat
   let off : Nat := 0x114
   let tag : Nat := 3
   let w : Word := 9
   s.mayRead (.host l) pg off = true ∧ isLow pg off = false ∧ AL.get (.host .a, pg * 4096 + off) s.rf.latched = some w) ∧
  (let s : State := on
   let l : Link := .a
   let addr : Nat := pgXlat * 4096 + 0x110
   let bytes : Nat := 8
   let tag : Nat := 3
   let u : Nat := 2
   s.agentUp (.host l) = true ∧ s.accessBad (.host l) addr bytes false = some u) ∧
  (let s : State := on
   let ag : Agent := hostA
   let addr : Nat := pgXlat * 4096 + 0x110
   let bytes : Nat := 8
   let w : Bool := true
   (bytes ≠ 4 ∨ addr % 4 ≠ 0)) :=
  .intro (by decide +kernel) <| .intro (by decide +kernel) <| .intro (by decide +kernel) <| .intro (by decide +kernel) <| .intro (by decide +kernel) <| .intro (by decide +kernel) <| .intro (by decide +kernel) <| .intro (by decide +kernel) <| .intro (by decide +kernel) <| .intro (by decide +kernel) <| .intro (by decide +kernel) <| .intro (by decide +kernel) <| by decide +kernel

/-- States and operands that meet the hypotheses of TranslationCommandsAct, clause by clause. -/
theorem witness_translation_commands_act :
  (let s : State := { on.setReg pgXlat 0x48 1 with kv := { KvState.blank with ttlb := [((5, 7), Pte.invalid)], walkCache := [(5, 1)] } }
   let ag : Agent := hostA
   s.mayWrite ag pgXlat 0x100 = true) ∧
  (let s : State := { on with kv := { KvState.blank with ttlb := [((5, 7), Pte.invalid)], walkCache := [(5, 1)] } }
   let ag : Agent := hostA
   let tile : Nat := homeTile 5 7
   tile < 24 ∧ s.mayWrite ag (pgTtlb tile) 0x100 = true) ∧
  (let s : State := { (on.setReg pgXlat 0x48 1).setReg pgXlat 0x10C (5 * 65536 + 2) with kv := { KvState.blank with shapes := [((5, 2), shape1)] } }
   let ag : Agent := hostA
   s.mayWrite ag pgXlat 0x118 = true) ∧
  (let s : State := (((on.setReg pgXlat 0x48 1).setReg pgXlat 0x10C (5 * 65536 + 2)).setReg pgXlat 0x110 (w32 shape1.toNat)).setReg pgXlat 0x114 (w32 (shape1.toNat / 2 ^ 32))
   let ag : Agent := hostA
   let w : DWord := BitVec.ofNat 64 ((s.reg pgXlat 0x110).toNat + (s.reg pgXlat 0x114).toNat * 2 ^ 32)
   s.mayWrite ag pgXlat 0x118 = true ∧ s.shapeUsed (s.fld pgXlat 0x10C 16 10) (s.fld pgXlat 0x10C 0 6) = false ∧ bitOf w.toNat 63 = true ∧ shapeOk w = true) ∧
  (let s : State := { ((on.setReg pgXlat 0x48 1).setReg pgXlat 0x10C (5 * 65536 + 2)) with kv := { KvState.blank with shapes := [((5, 2), shape1)], seqs := [((5, 1), seq1)] } }
   let ag : Agent := hostA
   s.mayWrite ag pgXlat 0x118 = true ∧ s.shapeUsed (s.fld pgXlat 0x10C 16 10) (s.fld pgXlat 0x10C 0 6) = true) :=
  .intro (by decide +kernel) <| .intro (by decide +kernel) <| .intro (by decide +kernel) <| .intro (by decide +kernel) <| by decide +kernel

/-- States and operands that meet the hypotheses of TestRegistersAndActingReads, clause by clause. -/
theorem witness_test_registers_and_acting_reads :
  (let s : State := on
   let ag : Agent := hostA
   let page : Nat := pgMchn 0
   hasTest page = true ∧ s.mayWrite ag page (flipCtl (benchTest page)) = true) ∧
  (let s : State := on
   let ag : Agent := hostA
   let tile : Nat := 23
   let c : Nat := 15
   let k : Nat := 0
   tile < 24 ∧ c < 16 ∧ s.mayWrite ag (pgMchn (tile * 16 + c)) 0x18C = true ∧ s.fld (pgMchn (tile * 16 + c)) 0x18C 31 1 = 0 ∧ s.pageFenced (pgMchn (tile * 16 + c)) = false ∧ s.newChunk (tile * 16 + c) = some k) ∧
  (let s : State := { on.setReg (pgMchn 0) 0x18C (2 ^ 31 + 2) with mem := [(rackAddr 0 131072, 7)], kv := { KvState.blank with chunks := [((0, 2), .test)] } }
   let ag : Agent := hostA
   let tile : Nat := 0
   let c : Nat := 0
   let k : Nat := 2
   tile < 24 ∧ c < 16 ∧ s.mayWrite ag (pgMchn (tile * 16 + c)) 0x18C = true ∧ s.mem.wf = true ∧ s.fld (pgMchn (tile * 16 + c)) 0x18C 31 1 = 1 ∧ s.fld (pgMchn (tile * 16 + c)) 0x18C 0 15 = k) ∧
  (let s : State := { on with integ := { IntegState.blank with hot := [(3, [8, 9])] } }
   let l : Link := .a
   let tile : Nat := 3
   let tag : Nat := 1
   let f : Nat := 8
   let r : List Nat := [9]
   tile < 24 ∧ s.mayRead (.host l) (pgScrb tile) 0x114 = true ∧ AL.getD tile [] s.integ.hot = f :: r) ∧
  (let s : State := on
   let l : Link := .a
   let tag : Nat := 1
   s.mayRead (.host l) pgNode 0x208 = true) :=
  .intro (by decide +kernel) <| .intro (by decide +kernel) <| .intro (by decide +kernel) <| .intro (by decide +kernel) <| by decide +kernel

/-- States and operands that meet the hypotheses of LinksGoDownAndTrain, clause by clause. -/
theorem witness_links_go_down_and_train :
  (let s : State := on
   let l : Link := .a
   let cause : Nat := 1
   s.powerGood = true ∧ (s.link l).ls ≠ .down ∧ (s.link l).rstreq = false ∧ (s.link l).rstAt + 100000 ≤ s.nrt) ∧
  (let s : State := on.setReg (pgHlnk .a) 0x48 1
   let ag : Agent := hostA
   let l : Link := .a
   s.mayWrite ag (pgHlnk l) 0x100 = true ∧ (s.link l).rstreq = false ∧ (s.link l).rstAt + 100000 ≤ s.nrt) ∧
  (let s : State := on
   let l : Link := .a
   s.powerGood = true ∧ ((s.link l).ls = .init ∨ (s.link l).ls = .up) ∧ (s.link l).lastRx + 1000 ≤ s.nrt ∧ (s.link l).rstreq = false ∧ (s.link l).rstAt + 100000 ≤ s.nrt) ∧
  (let s : State := { on with host := { on.host with b := { LinkRec.blank with ls := .training } } }
   let l : Link := .b
   s.powerGood = true ∧ (s.link l).ls = .training) ∧
  (let s : State := { on with host := { on.host with b := { LinkRec.blank with ls := .training } } }
   let l : Link := .b
   let lane : Nat := 3
   s.powerGood = true ∧ (s.link l).ls = .training) ∧
  (let s : State := { on with host := { on.host with b := { LinkRec.blank with rstreq := true, rstAt := 999900000 } } }
   let l : Link := .b
   s.powerGood = true ∧ (s.link l).ls = .down) ∧
  (let s : State := { on.setReg (pgHlnk .a) 0x48 1 with host := { on.host with active := none } }
   let ag : Agent := hostA
   let l : Link := .a
   s.mayWrite ag (pgHlnk l) 0x100 = true ∧ (s.link l).sessionOpen = true ∧ s.host.active = none) ∧
  (let s : State := { (on.setReg (pgHlnk .b) 0x48 1) with host := { on.host with b := upLink } }
   let ag : Agent := hostA
   let l : Link := .b
   s.mayWrite ag (pgHlnk l) 0x100 = true ∧ (s.link l).sessionOpen = true ∧ s.host.active = some l.other ∧ (s.link l.other).replay = [] ∧ (s.link l.other).stalled = []) :=
  .intro (by decide +kernel) <| .intro (by decide +kernel) <| .intro (by decide +kernel) <| .intro (by decide +kernel) <| .intro (by decide +kernel) <| .intro (by decide +kernel) <| .intro (by decide +kernel) <| by decide +kernel

/-- States and operands that meet the hypotheses of FlitsAreAcknowledgedAndImagesTaken, clause by clause. -/
theorem witness_flits_are_acknowledged_and_images_taken :
  (let s : State := { on with host := { on.host with a := { upLink with fseqTx := 3, replay := [(1, .txn (.msg 4)), (2, .txn (.msg 5))] } } }
   let l : Link := .a
   let a : Nat := 1
   let units : Nat := 70000
   s.powerGood = true ∧ ((s.link l).ls = .init ∨ (s.link l).ls = .up) ∧ (s.link l).stalled = [] ∧ (s.link l).waiting = [] ∧ s.host.activeWant = none) ∧
  (let s : State := on
   let l : Link := .a
   let f : Nat := 4095
   s.powerGood = true ∧ ((s.link l).ls = .init ∨ (s.link l).ls = .up) ∧ f < 4096 ∧ ((s.link l).failCnt = 0 ∨ (s.link l).failSeq ≠ f)) ∧
  (let s : State := { on with host := { on.host with a := { upLink with failSeq := 7, failCnt := 8 } } }
   let l : Link := .a
   let f : Nat := 7
   s.powerGood = true ∧ ((s.link l).ls = .init ∨ (s.link l).ls = .up) ∧ f < 4096 ∧ (s.link l).failCnt = 8 ∧ (s.link l).failSeq = f) ∧
  (let s : State := { starting 1 with pw := { (starting 1).pw with imgTill := some 99999999999, runCfg := 0x80000C03 }, host := { HostState.blank with a := { upLink with ls := .init, imgKind := 3, imgBytes := [1] } } }
   let l : Link := .a
   let kind : Nat := 3
   let offset : Nat := 1
   let d : List Byte := [2]
   let i : ImageInfo := ⟨true, 1, 1⟩
   s.imageWindow l = true ∧ kind ≤ 3 ∧ (s.link l).imgKind = kind ∧ offset = (s.link l).imgBytes.length) ∧
  (let s : State := { starting 1 with pw := { (starting 1).pw with imgTill := some 99999999999, runCfg := 0x80000C03 }, host := { HostState.blank with a := { upLink with ls := .init, imgKind := 3, imgBytes := [1] } } }
   let l : Link := .a
   let kind : Nat := 3
   let offset : Nat := 1
   let d : List Byte := [2]
   let i : ImageInfo := ⟨true, 1, 1⟩
   (s.imageWindow l = true ∧ kind ≤ 3 ∧ (s.link l).imgKind = kind ∧ offset = (s.link l).imgBytes.length ∧ (s.kind kind).fuse ≤ i.arb) ∧ i.ok = true) :=
  .intro (by decide +kernel) <| .intro (by decide +kernel) <| .intro (by decide +kernel) <| .intro (by decide +kernel) <| ⟨by decide +kernel, rfl⟩

/-- States and operands that meet the hypotheses of HostSessionsOpenAndClose, clause by clause. -/
theorem witness_host_sessions_open_and_close :
  (let s : State := { on with host := { on.host with b := { LinkRec.blank with ls := .init } } }
   let l : Link := .b
   let n : BitVec 128 := 5
   let m : BitVec 128 := 6
   s.linkTalks l = true ∧ (s.link l).sessionOpen = false ∧ s.secUp = true ∧ s.awake = true ∧ (s.link l).refusedTill ≤ s.nrt) ∧
  (let s : State := { on with host := { on.host with b := { LinkRec.blank with ls := .init, session := .waiting 5 7 } } }
   let l : Link := .b
   let n : BitVec 256 := 5
   let till : Nat := 7
   s.awake = true ∧ s.secUp = true ∧ (s.link l).session = .waiting n till ∧ till ≤ s.nrt) ∧
  (let s : State := { on with host := { on.host with b := { LinkRec.blank with ls := .init, session := .challenged 5 8 } }, sec := { on.sec with opk := [(0, (Config.sha384 [9], false))], sessions := [7] } }
   let l : Link := .b
   let n : BitVec 256 := 5
   let k : BitVec 256 := 8
   let opk : List Byte := [9]
   let slot : Nat := 0
   (s.awake = true ∧ s.secUp = true ∧ (s.link l).session = .challenged n k ∧ s.sec.sessions.length + 2 < 2 ^ 32) ∧ AL.get slot s.sec.opk = some (Config.sha384 opk, false)) ∧
  (let s : State := { on with host := { on.host with b := { LinkRec.blank with ls := .init, session := .challenged 5 8 } }, sec := { on.sec with sessions := [7] } }
   let l : Link := .b
   let n : BitVec 256 := 5
   let k : BitVec 256 := 8
   let opk : List Byte := [9]
   s.awake = true ∧ s.secUp = true ∧ (s.link l).session = .challenged n k ∧ s.sec.opk = []) ∧
  (let s : State := { on with host := { on.host with b := { LinkRec.blank with ls := .init, session := .challenged 5 8 } }, sec := { on.sec with opk := [(0, (9, false))], sessions := [7] } }
   let l : Link := .b
   let n : BitVec 256 := 5
   let k : BitVec 256 := 8
   let opk : List Byte := [9]
   s.awake = true ∧ s.secUp = true ∧ (s.link l).session = .challenged n k) ∧
  (let s : State := { on with sec := { on.sec with grants := [(1, ⟨5, 0, 0, []⟩)] } }
   let l : Link := .a
   s.powerGood = true ∧ (s.link l).sessionOpen = true) :=
  .intro (by decide +kernel) <| .intro (by decide +kernel) <| .intro ⟨by decide +kernel, rfl⟩ <| .intro (by decide +kernel) <| .intro (by decide +kernel) <| by decide +kernel

/-- States and operands that meet the hypotheses of RingsRunAndStop, clause by clause. -/
theorem witness_rings_run_and_stop :
  (let s : State := { ringRegs.setReg pgDbel 0x108 1 with mem := [(ringAddr (ringRegs.cqBase 1) + 3, 9)] }
   let ag : Agent := hostA
   let v : Nat := 0x00050000
   let u : State := match s.applyFields pgDbel 0x10C (w32 (2 ^ 31 + v % 2 ^ 31)) with | some y => y | none => State.reset
   s.mayWrite ag pgDbel 0x10C = true ∧ (s.ring (s.fld pgDbel 0x108 0 12)).st = .disabled ∧ s.applyFields pgDbel 0x10C (w32 (2 ^ 31 + v % 2 ^ 31)) = some u ∧ u.ringRefused (s.fld pgDbel 0x108 0 12) (u.domActive (u.ringDomain (s.fld pgDbel 0x108 0 12))) = false ∧ s.mem.wf = true) ∧
  (let s : State := ringed.setReg pgDbel 0x108 1
   let ag : Agent := hostA
   let v : Nat := 0x00050000
   let u : State := match s.applyFields pgDbel 0x10C (w32 (v % 2 ^ 31)) with | some y => y | none => State.reset
   s.mayWrite ag pgDbel 0x10C = true ∧ (s.ring (s.fld pgDbel 0x108 0 12)).st = .running ∧ s.applyFields pgDbel 0x10C (w32 (v % 2 ^ 31)) = some u) ∧
  (let s : State := ringed
   let ag : Agent := hostA
   let n : Nat := 1
   let tail : Nat := 63
   s.mayWrite ag pgDbel 0x100 = true ∧ n < 4096 ∧ tail < 65536 ∧ tail < s.sqSize n ∧ (s.ring n).st ≠ .disabled ∧ (s.ring n).st ≠ .lost) ∧
  (let s : State := ringed
   let ag : Agent := hostA
   let n : Nat := 1
   let tail : Nat := 64
   s.mayWrite ag pgDbel 0x100 = true ∧ n < 4096 ∧ tail < 65536 ∧ (s.sqSize n ≤ tail ∨ (s.ring n).st = .disabled ∨ (s.ring n).st = .lost)) ∧
  (let s : State := ringed.setRing 1 { ringed.ring 1 with cqTail := 5 }
   let ag : Agent := hostA
   let n : Nat := 1
   let head : Nat := 5
   s.mayWrite ag pgDbel 0x104 = true ∧ n < 4096 ∧ head < 65536 ∧ head < s.cqSize n ∧ (head + s.cqSize n - (s.ring n).cqHead) % s.cqSize n ≤ ((s.ring n).cqTail + s.cqSize n - (s.ring n).cqHead) % s.cqSize n ∧ (s.ring n).st ≠ .disabled ∧ (s.ring n).st ≠ .lost) ∧
  (let s : State := ringed.setRing 1 { ringed.ring 1 with unsig := 1, rvec := 0x80010203 }
   let n : Nat := 1
   s.running = true ∧ 0 < (s.ring n).unsig ∧ (s.ring n).unsigAt + 100 * rvecDelay (s.ring n).rvec ≤ s.nrt) ∧
  (let s : State := { ringed with rf := { ringed.rf with fenced := [pgTile 0 0] } }
   let q : Nat := 0
   let n : Nat := 1
   let r : Ring := ringed.ring 1
   s.running = true ∧ q < 4 ∧ s.tileFenced (6 * q) = true ∧ (n, r) ∈ s.host.rings ∧ r.st = .running ∧ areaQuarter (s.cqBase n, s.cqSize n * 32 + 64) = some q ∧ s.cmds.list = []) ∧
  (let s : State := { ringed.setRing 1 { ringed.ring 1 with tail := 1 } with mem := Mem.writeN (ringAddr (ringed.sqBase 1)) nopBytes [] }
   let n : Nat := 1
   let b : List Byte := nopBytes
   let u : State := match (s.advanceSq n (b.length / 64)).submit ⟨.ring n, hdrOf b, []⟩ (opOfBytes b) b.length none false with | some y => y | none => State.reset
   s.running = true ∧ s.ringMayFetch n = true ∧ s.ringWhole n = some b ∧ s.ringHolds n = false ∧ (s.ring n).skip = 0 ∧ (s.advanceSq n (b.length / 64)).submit ⟨.ring n, hdrOf b, []⟩ (opOfBytes b) b.length none false = some u) ∧
  (let s : State := { ringed.setRing 1 { ringed.ring 1 with tail := 1, cqTail := 63, cqHead := 0 } with mem := Mem.writeN (ringAddr (ringed.sqBase 1)) nopBytes [] }
   let n : Nat := 1
   let b : List Byte := nopBytes
   s.running = true ∧ s.ringMayFetch n = true ∧ s.ringWhole n = some b ∧ s.ringHolds n = true) ∧
  (let s : State := { ringed.setRing 1 { ringed.ring 1 with tail := 1, skip := 2 } with mem := Mem.writeN (ringAddr (ringed.sqBase 1)) nopBytes [] }
   let n : Nat := 1
   let b : List Byte := nopBytes
   s.running = true ∧ s.ringMayFetch n = true ∧ s.ringWhole n = some b ∧ s.ringHolds n = false ∧ 0 < (s.ring n).skip) :=
  .intro (by decide +kernel) <| .intro (by decide +kernel) <| .intro (by decide +kernel) <| .intro (by decide +kernel) <| .intro (by decide +kernel) <| .intro (by decide +kernel) <| .intro (by decide +kernel) <| .intro (by decide +kernel) <| .intro (by decide +kernel) <| by decide +kernel

/-- States and operands that meet the hypotheses of WindowsReadAndWriteMemory, clause by clause. -/
theorem witness_windows_read_and_write_memory :
  (let s : State := on
   let l : Link := .a
   let tag : Nat := 1
   let a : Nat := rackAddr 0 65536
   let n : Nat := 64
   s.powerGood = true ∧ s.linkTalks l = true ∧ s.bulkBad l a n false = none ∧ s.bulkOwner a = .nobody ∧ (∀ w ∈ wordsOf a n, s.wordOutcome w = .clean)) ∧
  (let s : State := { on with kv := { KvState.blank with chunks := [((0, 2), .metadata 5 [0])] } }
   let l : Link := .a
   let tag : Nat := 1
   let a : Nat := rackAddr 0 131072
   let n : Nat := 64
   let d : Nat := 5
   let ue : Bool := false
   s.powerGood = true ∧ s.linkTalks l = true ∧ s.bulkBad l a n false = none ∧ s.bulkOwner a = .domain d ∧ s.grantOf d = none) ∧
  (let s : State := on
   let l : Link := .a
   let tag : Nat := 1
   let a : Nat := 7
   let n : Nat := 0
   let u : Nat := (s.bulkBad l a n false).getD 0
   let ue : Bool := false
   s.powerGood = true ∧ s.linkTalks l = true ∧ s.bulkBad l a n false = some u) ∧
  (let s : State := { on with mem := [(ringAddr 0x08000040, 7)] }
   let l : Link := .a
   let tag : Nat := 1
   let a : Nat := 0x08000040
   let n : Nat := 64
   let ue : Bool := false
   s.powerGood = true ∧ s.linkTalks l = true ∧ s.ringWindowBad l a n false = none) ∧
  (let s : State := { on with mem := [(rackAddr 0 65536, 7)] }
   let l : Link := .a
   let a : Nat := rackAddr 0 65536
   let d : List Byte := [0, 1, 2, 3]
   s.powerGood = true ∧ s.linkTalks l = true ∧ s.bulkBad l a d.length true = none ∧ isBench a = false ∧ AL.get (placeIdx a, placeByte a / 65536) s.kv.chunks = none ∧ s.mem.wf = true) ∧
  (let s : State := { on with kv := { KvState.blank with chunks := [((0, 2), .metadata 5 [0])] } }
   let l : Link := .a
   let a : Nat := rackAddr 0 131072
   let d : List Byte := [1]
   s.powerGood = true ∧ s.linkTalks l = true ∧ s.bulkBad l a d.length true = none ∧ s.isMetadata a = true) ∧
  (let s : State := on
   let l : Link := .a
   let a : Nat := 0x08000040
   let d : List Byte := [0, 1, 2, 3]
   s.powerGood = true ∧ s.linkTalks l = true ∧ s.ringWindowBad l a d.length true = none ∧ s.mem.wf = true) :=
  .intro (by decide +kernel) <| .intro (by decide +kernel) <| .intro (by decide +kernel) <| .intro (by decide +kernel) <| .intro (by decide +kernel) <| .intro (by decide +kernel) <| by decide +kernel

/-- States and operands that meet the hypotheses of MessagesAskAndSet, clause by clause. -/
theorem witness_messages_ask_and_set :
  (let s : State := on
   let m : MReq := msgTo 0
   let lo : Nat := 0
   let hi : Nat := 1
   s.hears m (.hello lo hi) = true ∧ lo ≤ 1 ∧ 1 ≤ hi) ∧
  (let s : State := on
   let m : MReq := msgTo 6
   let first : Nat := 255
   let n : Nat := 1
   let e : Nat := 1
   s.hears m (.traceSet first n e) = true ∧ e ≤ 1 ∧ 1 ≤ n ∧ first + n ≤ 256) ∧
  (let s : State := on
   let m : MReq := msgTo 0
   let nonce : BitVec 256 := 5
   s.hears m (.attest nonce) = true) ∧
  (let s : State := on
   let m : MReq := msgTo 1
   let w : Nat := 1200
   s.hears m (.powerCap w) = true ∧ 400 ≤ w ∧ w ≤ 1200) ∧
  (let s : State := on
   let m : MReq := msgTo 1
   let w : Nat := 1201
   s.hears m (.powerCap w) = true ∧ (w < 400 ∨ 1200 < w)) ∧
  (let s : State := on
   let m : MReq := msgTo 4
   s.hears m .quadStatus = true) ∧
  (let s : State := { on with fw := { on.fw with laneLog := [(100, 3), (5, 2)] } }
   let m : MReq := msgTo 4
   let clear : Bool := true
   let ch : Nat := 100
   let lane : Nat := 3
   s.hears m (.laneLog clear ch lane) = true ∧ ch / 96 = m.core - 3) ∧
  (let s : State := on
   let m : MReq := msgTo 0
   let k : Nat := 3
   s.hears m (.fwStatus k) = true ∧ k ≤ 3) ∧
  (let s : State := on
   let m : MReq := msgTo 0
   let c : Nat := 0xFFFF
   let nonce : BitVec 256 := 5
   let x : MeterSet := ⟨0, [0, 0, 0, 0, 0], 0, false⟩
   let body : List Byte := leBytes 2 1 ++ leBytes 2 c ++ leBytes 4 s.fw.bootCount ++ leBytes 48 Config.deviceId.toNat ++ leBytes 32 nonce.toNat ++
      leBytes 8 s.nrt ++ leBytes 8 x.firstTime ++ x.counts.flatMap (leBytes 8) ++ leBytes 4 (x.snapSeq + 1) ++ leBytes 12 0
   s.hears m (.meterSnapshot c nonce) = true ∧ AL.get c s.fw.meters = some x) :=
  .intro (by decide +kernel) <| .intro (by decide +kernel) <| .intro (by decide +kernel) <| .intro (by decide +kernel) <| .intro (by decide +kernel) <| .intro (by decide +kernel) <| .intro (by decide +kernel) <| .intro (by decide +kernel) <| by decide +kernel

/-- States and operands that meet the hypotheses of SecurityRecordsComeAndGo, clause by clause. -/
theorem witness_security_records_come_and_go :
  (let s : State := on
   let m : MReq := msgTo 0
   let d : DomainD := ⟨1023, 1000, 10, 10, 4, 4, 64⟩
   s.hears m (.domainCreate d) = true ∧ d.domain ≠ 0 ∧ d.domain ≤ 1023 ∧ d.projs ≤ 64 ∧ AL.get d.domain s.sec.domains = none ∧ (((s.heard m).walkChannels (d.domain * 97 % 384) none).findSome? (fun c => ((s.heard m).allocMeta c d.domain 1).map (fun r => (r.1, c, r.2)))).isSome = true) ∧
  (let s : State := { withSeq with sec := { on.sec with creds := [(1, ⟨5, 1, []⟩)] } }
   let m : MReq := msgTo 0
   let d : Nat := 5
   let r : DomainRec := ⟨.active, 16, 4, none⟩
   s.hears m (.domainDestroy d) = true ∧ AL.get d s.sec.domains = some r ∧ r.st = .active ∧ d ≠ 0 ∧ s.cmds.list = [] ∧ s.net.conns = [] ∧ s.net.regions = [] ∧ s.net.peers = [] ∧ s.eng.merge = [] ∧ (∀ p ∈ s.kv.frames, p.2.cur.domain = d → p.2.pinCur = 0 ∧ p.2.pinOld = 0)) ∧
  (let s : State := on
   let m : MReq := msgTo 0
   let id : Nat := 7
   let d : Nat := 5
   let r : DomainRec := ⟨.active, 16, 4, none⟩
   let data : List Byte := [1, 2]
   s.hears m (.credAdd id d 2 0 data true) = true ∧ d < 1024 ∧ AL.get id s.sec.creds = none ∧ AL.get d s.sec.domains = some r ∧ r.st = .active ∧ s.sec.creds.countP (fun p => p.2.domain == d) < r.creds ∧ s.sec.creds.length < 65536) ∧
  (let s : State := { on with sec := { on.sec with creds := [(7, ⟨5, 2, []⟩)] } }
   let m : MReq := msgTo 0
   let id : Nat := 7
   let c : Cred := ⟨5, 2, []⟩
   s.hears m (.credRemove id false) = true ∧ AL.get id s.sec.creds = some c) ∧
  (let s : State := on
   let m : MReq := msgTo 0
   let d : ProjD := ⟨5, 0, 0, 3, 0, 0, stNotBound, 1, 1, 32, 64, []⟩
   let r : DomainRec := ⟨.active, 16, 4, none⟩
   s.hears m (.projInstall d) = true ∧ d.status = stNotBound ∧ AL.get (d.domain, d.handle) s.sec.projs = none ∧ AL.get d.domain s.sec.domains = some r ∧ r.st = .active ∧ s.sec.projs.countP (fun p => p.1.1 == d.domain) < r.projs ∧ s.rused d.domain + ceilDiv (d.layers * d.heads * d.dn * d.latentWidth * 2) 65536 * 256 ≤ s.rquota d.domain) ∧
  (let s : State := on
   let m : MReq := msgTo 0
   let d : ProjD := ⟨5, 0, 0, 3, 0, 0, stOk, 1, 1, 32, 64, [1]⟩
   let r : DomainRec := ⟨.active, 16, 4, none⟩
   s.hears m (.projInstall d) = true ∧ d.status = stOk ∧ AL.get (d.domain, d.handle) s.sec.projs = none ∧ AL.get d.domain s.sec.domains = some r ∧ r.st = .active ∧ s.sec.projs.countP (fun p => p.1.1 == d.domain) < r.projs ∧ s.rused d.domain + ceilDiv (d.layers * d.heads * d.dn * d.latentWidth * 2) 65536 * 256 ≤ s.rquota d.domain ∧ (State.blockChunks d.domain d.handle (ceilDiv (d.layers * d.heads * d.dn * d.latentWidth * 2) 65536) (s.heard m) []).isSome = true) ∧
  (let s : State := { on with sec := { on.sec with projs := [((5, 3), ⟨false, 1, 1, 32, 64, [], 0, [], false⟩)] } }
   let m : MReq := msgTo 0
   let d : Nat := 5
   let h : Nat := 3
   let p : Proj := ⟨false, 1, 1, 32, 64, [], 0, [], false⟩
   s.hears m (.projRemove d h) = true ∧ AL.get (d, h) s.sec.projs = some p ∧ p.removing = false ∧ s.projUsed d h = false) ∧
  (let s : State := on
   let m : MReq := msgTo 0
   let d : Nat := 5
   let g : Nat := 0
   s.hears m (.inspectOpen d) = true ∧ d < 1024 ∧ s.domActive d = true ∧ (List.range 4).find? (fun g => !AL.has g s.sec.grants) = some g) ∧
  (let s : State := { on with sec := { on.sec with grants := [(0, ⟨5, 0, 4096, []⟩)] } }
   let m : MReq := msgTo 0
   let g : Nat := 0
   let x : Grant := ⟨5, 0, 4096, []⟩
   s.hears m (.inspectClose g) = true ∧ AL.get g s.sec.grants = some x) ∧
  (let s : State := { on with nrt := 10 ^ 14, sec := { on.sec with grants := [(0, ⟨5, 0, 4096, []⟩)] } }
   let g : Nat := 0
   let x : Grant := ⟨5, 0, 4096, []⟩
   s.awake = true ∧ AL.get g s.sec.grants = some x ∧ x.openedAt + 100000000 * s.inspMax ≤ s.nrt) ∧
  (let s : State := { on with sec := { on.sec with audit := [⟨3, 7, 1, some 5, 0, 0, 0⟩], auditSeq := 4 } }
   let m : MReq := msgTo 0
   let d : Nat := 5
   let n : Nat := 256
   let first : Nat := 0
   let nonce : BitVec 256 := 5
   let l : List AuditEntry := (s.sec.audit.filter (fun e => decide (first ≤ e.seq) && !s.sec.auditLost.contains e.seq)).take n
   s.hears m (.auditExcerpt d n first nonce) = true ∧ 1 ≤ n ∧ n ≤ 256 ∧ d < 1024) ∧
  (let s : State := on
   let m : MReq := msgTo 0
   let slot : Nat := 3
   let key : List Byte := [1]
   s.hears m (.opkProgram slot key) = true ∧ 1 ≤ slot ∧ slot ≤ 3 ∧ AL.get slot s.sec.opk = none) ∧
  (let s : State := { on with sec := { on.sec with opk := [(0, (1, false)), (1, (2, false))] } }
   let m : MReq := msgTo 0
   let slot : Nat := 0
   let k : Nat := 1
   let h : BitVec 384 := 1
   let h' : BitVec 384 := 2
   s.hears m (.opkRevoke slot) = true ∧ AL.get slot s.sec.opk = some (h, false) ∧ k ≠ slot ∧ (k, (h', false)) ∈ s.sec.opk) :=
  .intro (by decide +kernel) <| .intro (by decide +kernel) <| .intro (by decide +kernel) <| .intro (by decide +kernel) <| .intro (by decide +kernel) <| .intro (by decide +kernel) <| .intro (by decide +kernel) <| .intro (by decide +kernel) <| .intro (by decide +kernel) <| .intro (by decide +kernel) <| .intro (by decide +kernel) <| .intro (by decide +kernel) <| by decide +kernel

/-- States and operands that meet the hypotheses of ImagesContextsAndEvacuation, clause by clause. -/
theorem witness_images_contexts_and_evacuation :
  (let s : State := on
   let m : MReq := msgTo 0
   let k : Nat := 3
   let a : Nat := 0
   let n : Nat := 4096
   let i : ImageInfo := ⟨true, 2, 0⟩
   (s.hears m (.fwStage k a n i) = true ∧ k ≤ 3 ∧ s.fw.activation = none ∧ (s.kind k).fuse ≤ i.arb) ∧ i.ok = true) ∧
  (let s : State := { on with fw := { on.fw with kinds := [(3, { ImgKind.blank with staged := true, slots := [(0, (0, 0)), (1, (1, 0))] })] } }
   let m : MReq := msgTo 0
   let k : Nat := 3
   s.hears m (.fwActivate k) = true ∧ k ≤ 3 ∧ s.fw.activation = none ∧ s.fw.evac = none ∧ (s.kind k).staged = true ∧ slotOk (s.kind k) (1 - (s.kind k).active) = true ∧ s.running = true ∧ s.emergency = false ∧ (s.core k).up = true) ∧
  (let s : State := { on with lease := { LeaseState.blank with st := .leased } }
   let m : MReq := msgTo 0
   let d : EvacD := ⟨0, 0, 0⟩
   s.hears m (.evacuate d) = true ∧ d.mode ≤ 1 ∧ s.lease.st = .leased ∧ s.fw.evac = none) ∧
  (let s : State := on
   let m : MReq := msgTo 2
   let i : Nat := 4
   let c : Ctx := ⟨5, 1, false, 1, 8, 16⟩
   s.hears m (.ctxCreate i c) = true ∧ ctxFieldsOk i c = true ∧ AL.get i s.cmds.ctxs = none ∧ s.domActive c.domain = true) ∧
  (let s : State := on
   let m : MReq := msgTo 2
   let i : Nat := 3
   let c : Ctx := ⟨5, 0, false, 4, 8, 16⟩
   let old : Ctx := ⟨5, 0, false, 1, 8, 16⟩
   s.hears m (.ctxModify i c) = true ∧ ctxFieldsOk i c = true ∧ AL.get i s.cmds.ctxs = some old ∧ c.domain = old.domain) ∧
  (let s : State := on
   let m : MReq := msgTo 2
   let i : Nat := 3
   let c : Ctx := ⟨5, 0, false, 1, 8, 16⟩
   s.hears m (.ctxDestroy i) = true ∧ AL.get i s.cmds.ctxs = some c ∧ (∀ x ∈ s.cmds.list, x.hdr.context ≠ i)) :=
  .intro ⟨by decide +kernel, rfl⟩ <| .intro (by decide +kernel) <| .intro (by decide +kernel) <| .intro (by decide +kernel) <| .intro (by decide +kernel) <| by decide +kernel

/-- States and operands that meet the hypotheses of FirmwareCoresStopAndStart, clause by clause. -/
theorem witness_firmware_cores_stop_and_start :
  (let s : State := { on with fw := { on.fw with cores := [] } }
   let c : Nat := 6
   (s.core c).up = false ∧ c ≤ 6 ∧ s.running = true ∧ s.fw.activation = none ∧ s.fw.held = []) ∧
  (let s : State := { on with fw := { on.fw with cores := [], activation := some ⟨1, none, [1], 0, 0⟩ } }
   let c : Nat := 1
   let a : Activation := ⟨1, none, [1], 0, 0⟩
   (s.core c).up = false ∧ c ≤ 6 ∧ s.running = true ∧ s.fw.activation = some a ∧ a.cores = [c] ∧ a.req = none ∧ s.fw.held = []) ∧
  (let s : State := on
   let c : Nat := 6
   s.awake = true ∧ c ≤ 6 ∧ (s.core c).up = true) ∧
  (let s : State := { on with fw := { on.fw with cores := [], activation := some ⟨1, none, [1], 0, 0⟩ } }
   let k : Nat := 1
   let c : Nat := 1
   let a : Activation := ⟨1, none, [1], 0, 0⟩
   s.awake = true ∧ s.fw.activation = some a ∧ a.kind = k ∧ a.req = none ∧ a.cores = [c] ∧ (s.core c).up = false ∧ (s.core c).downAt + 30000000 ≤ s.nrt) ∧
  (let s : State := { on with fw := { on.fw with deferred := [(1, 5)] } }
   let k : Nat := 1
   let t0 : Nat := 5
   s.awake = true ∧ s.fw.deferred = [(k, t0)] ∧ s.nrt ≤ t0 + 6000000000 ∧ s.emergency = false ∧ s.fw.activation = none ∧ s.fw.evac = none) ∧
  (let s : State := { on with nrt := 6000000006, fw := { on.fw with deferred := [(1, 5)] } }
   let k : Nat := 1
   let t0 : Nat := 5
   s.awake = true ∧ s.fw.deferred = [(k, t0)] ∧ t0 + 6000000000 < s.nrt) ∧
  (let s : State := { on with nrt := 6000000000, fw := { on.fw with cores := [(1, { upCore with arb := 3 })] } }
   let k : Nat := 1
   s.awake = true ∧ (∀ c ∈ coresOf k, (s.core c).up = true ∧ (s.core c).runAt + 6000000000 ≤ s.nrt) ∧ (s.kind k).fuse < (s.core ((coresOf k).headD 0)).arb) ∧
  (let s : State := on
   s.awake = true ∧ s.secUp = true) ∧
  (let s : State := { on with sec := { on.sec with auditHead := 4, auditSeq := 5 } }
   s.awake = true ∧ s.sec.auditHead ≠ s.sec.flushed.2 ∧ s.sec.flushedAt + 100000000 ≤ s.nrt) :=
  .intro (by decide +kernel) <| .intro (by decide +kernel) <| .intro (by decide +kernel) <| .intro (by decide +kernel) <| .intro (by decide +kernel) <| .intro (by decide +kernel) <| .intro (by decide +kernel) <| .intro (by decide +kernel) <| by decide +kernel

/-- States and operands that meet the hypotheses of HandshakesOpenConnections, clause by clause. -/
theorem witness_handshakes_open_connections :
  (let s : State := okHs
   let p : Nat := 7
   let b : Nat := 1
   let h : HsInitD := hsD
   s.running = true ∧ s.unitAdmits (pgPort p) = true ∧ p < 8 ∧ b < 2 ∧ s.hsRefusal h = none) ∧
  (let s : State := okHs
   let p : Nat := 7
   let b : Nat := 1
   let h : HsInitD := { hsD with domain := 9 }
   let r : Nat := ((s.hsRefusal h).getD (0, 0)).1
   let n : Nat := ((s.hsRefusal h).getD (0, 0)).2
   s.running = true ∧ s.unitAdmits (pgPort p) = true ∧ p < 8 ∧ b < 2 ∧ s.hsRefusal h = some (r, n)) ∧
  (let s : State := { okHs with sec := { okHs.sec with creds := [(7, ⟨5, 2, []⟩)] }, net := { on.net with half := [half0] } }
   let k : Nat := 1
   let h : HalfOpen := half0
   let b : List Byte := [1, 2]
   s.running = true ∧ s.net.half.find? (fun x => x.key == k) = some h ∧ s.xprtAdmits = true ∧ s.secUp = true ∧ s.nodeFenced = false ∧ s.credOk h = true ∧ h.conn < 2 ^ 18) ∧
  (let s : State := { okHs with net := { on.net with half := [half0] } }
   let k : Nat := 1
   let h : HalfOpen := half0
   let b : List Byte := [1, 2]
   s.running = true ∧ s.net.half.find? (fun x => x.key == k) = some h ∧ s.xprtAdmits = true ∧ s.secUp = true ∧ s.nodeFenced = false) ∧
  (let s : State := { okHs with net := { on.net with half := [half0] } }
   let k : Nat := 1
   s.running = true) :=
  .intro (by decide +kernel) <| .intro (by decide +kernel) <| .intro (by decide +kernel) <| .intro (by decide +kernel) <| by decide +kernel

/-- States and operands that meet the hypotheses of PacketsArePlacedAndAcknowledged, clause by clause. -/
theorem witness_packets_are_placed_and_acknowledged :
  (let s : State := withConn.setReg pgXprt 0x100 77
   let p : DataPkt := pkt0
   let c : Conn := conn2
   s.running = true ∧ s.unitAdmits (pgPort p.port) = true ∧ p.port < 8 ∧ p.sub < 2 ∧ s.vidOk p.port p.vid = true ∧ s.frameBad p = false ∧ p.lane = 0 ∧ p.first = true ∧ p.last = false ∧ p.offset = 0 ∧ 1 ≤ p.npkt ∧ p.npkt ≤ 255 ∧ p.payload.length = 4096 ∧ s.conn p.index = some c ∧ c.gen = p.gen ∧ c.cached = true ∧ p.keyGen = some c.genRx ∧ addPath c p.port p.sub p.peerAddr p.udpPort s.nrt = c ∧ c.inMsgs = [] ∧ c.skipped = [] ∧ c.held = [] ∧ c.closing = false ∧ (c.composition = 0xFFFF → p.epoch = 0) ∧ s.connEpochOk c p.epoch = true ∧ p.msgId = c.nextReq ∧ p.psn = c.rxBase ∧ p.lowPsn ≤ p.psn ∧ c.rxAbove = [] ∧ p.npkt + 1 ≤ s.reqFree ∧ s.reasmUse < 8192) ∧
  (let s : State := withConn.setReg pgXprt 0x100 77
   let p : DataPkt := { pkt0 with keyGen := none }
   let c : Conn := conn2
   s.running = true ∧ s.unitAdmits (pgPort p.port) = true ∧ p.port < 8 ∧ p.sub < 2 ∧ s.vidOk p.port p.vid = true ∧ s.frameBad p = false ∧ s.conn p.index = some c ∧ c.gen = p.gen ∧ c.cached = true ∧ p.keyGen = none ∧ c.inMsgs = [] ∧ c.skipped = [] ∧ c.held = []) ∧
  (let s : State := withConn.setReg pgXprt 0x100 78
   let p : DataPkt := pkt0
   let c : Conn := conn2
   s.running = true ∧ s.unitAdmits (pgPort p.port) = true ∧ p.port < 8 ∧ p.sub < 2 ∧ s.vidOk p.port p.vid = true ∧ s.frameBad p = true ∧ s.conn p.index = some c ∧ c.inMsgs = [] ∧ c.skipped = [] ∧ c.held = []) ∧
  (let s : State := { on with net := { on.net with conns := [(2, { conn2 with psnTx := 3, unacked := [⟨1, .response, 0, 0, 64, 0, 5, false, 0⟩, ⟨2, .response, 0, 0, 64, 0, 5, false, 0⟩] })] } }
   let i : Nat := 2
   let path : Nat := 0
   let base : Nat := 2
   let c : Conn := { conn2 with psnTx := 3, unacked := [⟨1, .response, 0, 0, 64, 0, 5, false, 0⟩, ⟨2, .response, 0, 0, 64, 0, 5, false, 0⟩] }
   s.running = true ∧ s.conn i = some c ∧ c.closeAck = none) ∧
  (let s : State := { on with net := { on.net with conns := [(2, { conn2 with rxSince := 1, rxBase := 4 })] } }
   let i : Nat := 2
   let c : Conn := { conn2 with rxSince := 1, rxBase := 4 }
   s.running = true ∧ s.conn i = some c ∧ c.rxSince ≠ 0 ∧ c.rxOldest + s.ackDelay ≤ s.nrt) ∧
  (let s : State := { on with net := { on.net with conns := [(2, { conn2 with msgs := [msg0] })] } }
   let i : Nat := 2
   let id : Nat := 0
   let n : Nat := 50
   let l : Lane := .response
   let c : Conn := { conn2 with msgs := [msg0] }
   s.running = true ∧ s.conn i = some c) ∧
  (let s : State := { on with net := { on.net with conns := [(2, { conn2 with msgs := [{ msg0 with heldTill := 9, next := 64 }] })] } }
   let i : Nat := 2
   let id : Nat := 0
   let l : Lane := .response
   let m : OutMsg := { msg0 with heldTill := 9, next := 64 }
   let c : Conn := { conn2 with msgs := [{ msg0 with heldTill := 9, next := 64 }] }
   s.running = true ∧ s.conn i = some c ∧ c.msgs.find? (fun m => m.lane == l && m.msgId == id) = some m ∧ m.heldTill ≠ 0 ∧ m.heldTill ≤ s.nrt) ∧
  (let s : State := { on with net := { on.net with conns := [(2, { conn2 with inMsgs := [⟨.request, 0, 1, 0, 0, none, [], 0, false⟩] })] } }
   let i : Nat := 2
   let id : Nat := 0
   let l : Lane := .request
   let m : InMsg := ⟨.request, 0, 1, 0, 0, none, [], 0, false⟩
   let c : Conn := { conn2 with inMsgs := [⟨.request, 0, 1, 0, 0, none, [], 0, false⟩] }
   s.running = true ∧ s.conn i = some c ∧ m ∈ c.inMsgs ∧ m.lane = l ∧ m.msgId = id ∧ m.complete = false ∧ m.lastAt + s.reasmMs ≤ s.nrt) ∧
  (let s : State := withConn
   let i : Nat := 2
   let id : Nat := 0
   let r : Nat := 1
   let l : Lane := .request
   let c : Conn := conn2
   s.running = true ∧ s.conn i = some c ∧ (l = .control ∨ (l = .request ∧ (r = 4 ∨ s.outboundOf (connId c) id = none)))) :=
  .intro (by decide +kernel) <| .intro (by decide +kernel) <| .intro (by decide +kernel) <| .intro (by decide +kernel) <| .intro (by decide +kernel) <| .intro (by decide +kernel) <| .intro (by decide +kernel) <| .intro (by decide +kernel) <| by decide +kernel

/-- States and operands that meet the hypotheses of PathsAndEndsOfConnections, clause by clause. -/
theorem witness_paths_and_ends_of_connections :
  (let s : State := withConn
   let i : Nat := 2
   let path : Nat := 1
   let src : Path := { path0 with port := 1 }
   let c : Conn := conn2
   s.running = true ∧ s.conn i = some c) ∧
  (let s : State := { on with net := { on.net with conns := [(2, { conn2 with paths := [{ path0 with up := false, probes := 2 }] })] } }
   let i : Nat := 2
   let path : Nat := 0
   let c : Conn := { conn2 with paths := [{ path0 with up := false, probes := 2 }] }
   s.running = true ∧ s.conn i = some c ∧ path < c.paths.length) ∧
  (let s : State := { on with net := { on.net with conns := [(2, { conn2 with paths := [{ path0 with probes := 2 }] })] } }
   let i : Nat := 2
   let path : Nat := 0
   let c : Conn := { conn2 with paths := [{ path0 with probes := 2 }] }
   let q : Path := { path0 with probes := 2 }
   s.running = true ∧ s.conn i = some c ∧ c.paths[path]? = some q ∧ q.up = true ∧ q.probes < 3 ∧ q.probeAt + s.probeUs ≤ s.nrt ∧ (∀ k ∈ c.unacked, k.path ≠ path)) ∧
  (let s : State := { on with net := { on.net with conns := [(2, { conn2 with paths := [{ path0 with probes := 3 }], unacked := [⟨1, .response, 0, 0, 64, 0, 5, false, 0⟩] })] } }
   let i : Nat := 2
   let path : Nat := 0
   let c : Conn := { conn2 with paths := [{ path0 with probes := 3 }], unacked := [⟨1, .response, 0, 0, 64, 0, 5, false, 0⟩] }
   let q : Path := { path0 with probes := 3 }
   s.running = true ∧ s.conn i = some c ∧ c.paths[path]? = some q ∧ q.up = true ∧ 3 ≤ q.probes ∧ q.probeAt + s.probeUs ≤ s.nrt) ∧
  (let s : State := { on with net := { on.net with conns := [(2, { conn2 with msgs := [{ msg0 with next := 64 }], unacked := [⟨1, .response, 0, 0, 64, 0, 5, false, 0⟩] })] } }
   let i : Nat := 2
   let psn : Nat := 1
   let c : Conn := { conn2 with msgs := [{ msg0 with next := 64 }], unacked := [⟨1, .response, 0, 0, 64, 0, 5, false, 0⟩] }
   let p : SentPkt := ⟨1, .response, 0, 0, 64, 0, 5, false, 0⟩
   s.running = true ∧ s.conn i = some c ∧ c.unacked.find? (fun x => x.psn == psn && decide (x.sentAt + s.rto c ≤ s.nrt)) = some p ∧ c.closeAck = none ∧ c.closeTries < s.retxMax ∧ c.backoff + 1 < s.retxMax) ∧
  (let s : State := { on with net := { on.net with conns := [(2, { conn2 with backoff := 60, unacked := [⟨1, .response, 0, 0, 64, 0, 5, false, 0⟩] })] } }
   let i : Nat := 2
   let psn : Nat := 1
   let c : Conn := { conn2 with backoff := 60, unacked := [⟨1, .response, 0, 0, 64, 0, 5, false, 0⟩] }
   let p : SentPkt := ⟨1, .response, 0, 0, 64, 0, 5, false, 0⟩
   s.running = true ∧ s.conn i = some c ∧ c.unacked.find? (fun x => x.psn == psn && decide (x.sentAt + s.rto c ≤ s.nrt)) = some p ∧ c.closeAck = none ∧ c.closeTries < s.retxMax ∧ s.retxMax ≤ c.backoff + 1 ∧ s.net.outbound = [] ∧ s.eng.jobs = []) ∧
  (let s : State := withConn
   let i : Nat := 2
   let c : Conn := conn2
   (s.running = true ∧ s.conn i = some c ∧ c.ownClose = false ∧ c.closeAck = none ∧ c.msgs = [] ∧ (∀ m ∈ c.inMsgs, m.lane = .request → m.complete = false)) ∧ (∀ k ∈ s.cmds.list, ∀ m, k.src ≠ .conn c.index m)) ∧
  (let s : State := { on with net := { on.net with conns := [(2, { conn2 with closing := true, ownClose := true, gen := 62 })] } }
   let i : Nat := 2
   let c : Conn := { conn2 with closing := true, ownClose := true, gen := 62 }
   s.running = true ∧ s.conn i = some c ∧ c.ownClose = true ∧ s.net.outbound = [] ∧ s.eng.jobs = []) ∧
  (let s : State := { on with net := { on.net with conns := [(2, { conn2 with cached := false, fetching := true })] } }
   let i : Nat := 2
   let c : Conn := { conn2 with cached := false, fetching := true }
   s.running = true ∧ s.conn i = some c ∧ c.fetching = true ∧ c.inMsgs = [] ∧ c.skipped = [] ∧ c.held = [] ∧ (∀ p ∈ s.net.parked, p.index ≠ c.index)) ∧
  (let s : State := withConn.setReg (pgPort 0) 0x104 0x10
   let p : Nat := 0
   let b : Nat := 0
   s.running = true ∧ p < 8 ∧ b < 2 ∧ s.linkUp p b = true) ∧
  (let s : State := withConn
   let p : Nat := 7
   let b : Nat := 1
   s.running = true ∧ p < 8 ∧ b < 2) :=
  .intro (by decide +kernel) <| .intro (by decide +kernel) <| .intro (by decide +kernel) <| .intro (by decide +kernel) <| .intro (by decide +kernel) <| .intro (by decide +kernel) <| .intro ⟨by decide +kernel, (by intro k h; cases h)⟩ <| .intro (by decide +kernel) <| .intro (by decide +kernel) <| .intro (by decide +kernel) <| by decide +kernel

/-- States and operands that meet the hypotheses of EgressSendsInOrder, clause by clause. -/
theorem witness_egress_sends_in_order :
  (let s : State := { on with net := { on.net with conns := [(2, { conn2 with msgs := [msg0] })] } }
   let i : Nat := 2
   let c : Conn := { conn2 with msgs := [msg0] }
   let m : OutMsg := msg0
   let pt : Path := path0
   s.running = true ∧ s.conn i = some c ∧ c.resend = [] ∧ c.msgs = [m] ∧ m.next = 0 ∧ m.heldTill ≤ s.nrt ∧ c.paths = [pt] ∧ pt.up = true ∧ c.pacedAt ≤ s.nrt ∧ s.nodeFenced = false ∧ c.psnTx < 2 ^ 30 - 1 ∧ (∀ p ∈ c.genMsg, p.2 < 2 ^ 22 - 1) ∧ m.lane = .response ∧ m.bytes.length ≤ 4096 ∧ (s.egQueue pt.port pt.sub (c.domain * 4 + 1)).pkts = [] ∧ s.unitAdmits (pgEgrs pt.port) = true) ∧
  (let s : State := { on.setReg (pgPort 0) 0x104 0x10 with net := { withConn.net with ctl := [(2, .probe 0)] } }
   let p : Nat := 0
   let b : Nat := 0
   let c : Nat := 2
   let k : CtlPkt := .probe 0
   let rest : List (Nat × CtlPkt) := []
   s.running = true ∧ p < 8 ∧ b < 2 ∧ s.fld (pgPort p) 0x104 (4 + b) 1 = 1 ∧ s.unitAdmits (pgPort p) = true ∧ s.net.ctl = (c, k) :: rest ∧ s.ctlSub c k = (p, b) ∧ 0 ≤ (s.egSub p b).ctl ∧ (s.egSub p b).v ≤ 2 ^ 31) ∧
  (let s : State := { on.setReg (pgPort 0) 0x104 0x10 with egress := { EgressState.blank with queues := [((0, 0, 21), ⟨[egPkt0], 0, 200⟩)] } }
   let p : Nat := 0
   let b : Nat := 0
   let q : Nat := 21
   let x : EgQueue := ⟨[egPkt0], 0, 200⟩
   let k : EgPkt := egPkt0
   let rest : List EgPkt := []
   s.running = true ∧ p < 8 ∧ b < 2 ∧ s.fld (pgPort p) 0x104 (4 + b) 1 = 1 ∧ s.unitAdmits (pgPort p) = true ∧ s.net.ctl = [] ∧ (s.egSub p b).v ≤ 2 ^ 31 ∧ s.nodeFenced = false ∧ s.egress.queues = [((p, b, q), x)] ∧ x.pkts = k :: rest ∧ 0 ≤ x.credit ∧ q % 4 ≠ 3) ∧
  (let s : State := { on with egress := { EgressState.blank with queues := [((0, 0, 21), ⟨[egPkt0], -5000, 200⟩)] } }
   s.running = true ∧ s.rf.shadow = []) ∧
  (let s : State := on.setReg (pgPort 0) 0x100 1
   let p : Nat := 0
   let b : Nat := 1
   let v : Option Nat := none
   let kind : Nat := 0
   let dst : Nat := 0
   let src : Nat := 5
   let d : List Byte := []
   s.running = true ∧ s.unitAdmits (pgPort p) = true ∧ p < 8 ∧ b < 2 ∧ s.vidOk p v = true ∧ s.ownAddress p b kind dst = true) ∧
  (let s : State := on
   let p : Nat := 0
   let b : Nat := 1
   let v : Option Nat := none
   let kind : Nat := 0
   let dst : Nat := 1
   let src : Nat := 5
   let d : List Byte := []
   s.running = true ∧ s.unitAdmits (pgPort p) = true ∧ p < 8 ∧ b < 2 ∧ (s.vidOk p v = false ∨ s.ownAddress p b kind dst = false)) ∧
  (let s : State := on.setReg (pgPort 0) 0x18 2
   let p : Nat := 0
   let b : Nat := 1
   let v : Option Nat := none
   let kind : Nat := 0
   let dst : Nat := 1
   let src : Nat := 5
   let d : List Byte := []
   s.running = true ∧ s.unitAdmits (pgPort p) = false) :=
  .intro (by decide +kernel) <| .intro (by decide +kernel) <| .intro (by decide +kernel) <| .intro (by decide +kernel) <| .intro (by decide +kernel) <| .intro (by decide +kernel) <| by decide +kernel

/-- States and operands that meet the hypotheses of CodewordsAreWrittenAndScrubbed, clause by clause. -/
theorem witness_codewords_are_written_and_scrubbed :
  (let s : State := { on with integ := { IntegState.blank with pend := [⟨rackAddr 3 64, 1, 0, 0⟩] } }
   let ch : Nat := 3
   let addr : Nat := 64
   let a : Nat := rackAddr 3 64
   let e : PendWrite := ⟨rackAddr 3 64, 1, 0, 0⟩
   s.running = true ∧ wordBase (if ch < 384 then rackAddr ch addr else benchAddr (ch - 384) addr) = a ∧ s.integ.pend.find? (fun x => x.addr == a) = some e ∧ e.since + 26 ≤ s.nrt ∧ s.wordOutcome a = .clean ∧ s.fld (errPage a) (flipCtl (isBench a)) 2 1 = 0) ∧
  (let s : State := { on with integ := { IntegState.blank with pend := [⟨benchAddr 1 64, 1, 0, 0⟩] } }
   let ch : Nat := 385
   let addr : Nat := 64
   let a : Nat := benchAddr 1 64
   let e : PendWrite := ⟨benchAddr 1 64, 1, 0, 0⟩
   s.running = true ∧ wordBase (if ch < 384 then rackAddr ch addr else benchAddr (ch - 384) addr) = a ∧ s.integ.pend.find? (fun x => x.addr == a) = some e ∧ e.since + 26 ≤ s.nrt ∧ s.fld (errPage a) (flipCtl (isBench a)) 2 1 = 0) ∧
  (let s : State := { on with integ := { IntegState.blank with pend := [⟨rackAddr 3 64, 1, 0, 0⟩] }, kv := { KvState.blank with codes := [(rackAddr 3 64, .flipped ((1 : Byte) :: List.replicate 71 0))] } }
   let ch : Nat := 3
   let addr : Nat := 64
   let a : Nat := rackAddr 3 64
   let lane : Nat := 0
   let e : PendWrite := ⟨rackAddr 3 64, 1, 0, 0⟩
   s.running = true ∧ ch < 384 ∧ addr < 2 ^ 31 ∧ wordBase (rackAddr ch addr) = a ∧ s.integ.pend.find? (fun x => x.addr == a) = some e ∧ e.since + 26 ≤ s.nrt ∧ s.wordOutcome a = .corrected [lane] ∧ s.fld (errPage a) (flipCtl (isBench a)) 2 1 = 0) ∧
  (let s : State := { on with integ := { IntegState.blank with pend := [⟨rackAddr 3 64, 1, 1000000000, 0⟩] } }
   let ch : Nat := 3
   let addr : Nat := 64
   let ue : Bool := true
   s.running = true ∧ (∀ e ∈ s.integ.pend, s.nrt < e.since + 26)) ∧
  (let s : State := on.setReg (pgScrb 0) 0x100 0
   let tile : Nat := 0
   let x : ScrubTarget := .rack 1 0
   let o : ScrubOutcome := .uncorrectable
   s.running = true ∧ s.scrubs tile x = false) ∧
  (let seen : List Nat := []
   let s : State := on.setReg (pgScrb 0) 0x100 1
   let tile : Nat := 0
   let ch : Nat := 1
   let b : Nat := 0
   s.running = true ∧ s.scrubs tile (.rack ch b) = true ∧ s.wordOutcome (wordBase (rackAddr ch b)) = .clean ∧ AL.getD (tile, 0) [] s.integ.seen = seen ∧ wordBase (rackAddr ch b) ∉ seen) ∧
  (let s : State := { on.setReg (pgScrb 0) 0x100 4 with integ := { IntegState.blank with seen := [((0, 2), [16 * 5])] }, rf := { (on.setReg (pgScrb 0) 0x100 4).rf with shadow := [((pgScrb 0, 0x10C, 0), 5)] } }
   let tile : Nat := 0
   let i : Nat := 5
   let e : SramEntry := .scratchpad 0 1
   s.running = true ∧ s.scrubs tile (.sram e i) = true ∧ tile < 24 ∧ i * 16 + sramArray e ∈ AL.getD (tile, 2) [] s.integ.seen) ∧
  (let s : State := on.setReg (pgScrb 23) 0x100 1
   let tile : Nat := 23
   let ch : Nat := 383
   let b : Nat := 131072
   let lane : Nat := 2
   let a : Nat := rackAddr 383 131072
   s.running = true ∧ tile < 24 ∧ s.scrubs tile (.rack ch b) = true ∧ b < 2 ^ 31 ∧ a = wordBase (rackAddr ch b) ∧ s.wordOutcome a = .clean ∧ s.laneFlagged ch lane = false ∧ s.fld (pgMchn ch) 0x188 2 1 = 0) ∧
  (let s : State := withPage.setReg (pgScrb 0) 0x100 1
   let tile : Nat := 0
   let ch : Nat := 0
   let b : Nat := 131072
   let f : Nat := 0
   let x : Frame := fr0
   s.running = true ∧ tile < 24 ∧ s.scrubs tile (.rack ch b) = true ∧ b < 2 ^ 31 ∧ s.frameAt (wordBase (rackAddr ch b)) = some f ∧ frameChannel f = ch ∧ s.frame f = some x ∧ x.cur.st = .sealed ∧ x.cur.fCkptCurrent = false ∧ x.cur.share ≠ 0) ∧
  (let s : State := { on with nrt := 100000000000 }
   let tile : Nat := 23
   let kind : Nat := 2
   s.running = true ∧ tile < 24 ∧ kind < 3 ∧ AL.getD (tile, kind) 0 s.integ.passes + max (if kind = 0 then 60 else if kind = 1 then 10 else 1)
      (s.fld (pgScrb tile) (if kind = 0 then 0x104 else if kind = 1 then 0x108 else 0x10C) 0 12) * 100000000 < s.nrt) ∧
  (let s : State := on.setReg (pgMchn 0) 0x44 7
   let pg : Nat := pgMchn 0
   s.powerGood = true ∧ (pageType pg).isSome = true ∧ s.nrt % (100000 * (s.fld pg 0x44 16 8 + 1)) = 0) ∧
  (let s : State := on
   let test : Nat := 1
   s.powerGood = true) :=
  .intro (by decide +kernel) <| .intro (by decide +kernel) <| .intro (by decide +kernel) <| .intro (by decide +kernel) <| .intro (by decide +kernel) <| .intro (by decide +kernel) <| .intro (by decide +kernel) <| .intro (by decide +kernel) <| .intro (by decide +kernel) <| .intro (by decide +kernel) <| .intro (by decide +kernel) <| by decide +kernel

/-- States and operands that meet the hypotheses of LostContentIsContained, clause by clause. -/
theorem witness_lost_content_is_contained :
  (let s : State := { ringOn withSeq with kv := { withSeq.kv with seqLoc := [((5, 1), (7, 4))], codes := [(rackAddr 7 8192, .poison)] } }
   let q : Req := qRing
   let op : Op := .sealOp 1
   let i : Instr := .sealOp q 1
   let e : State := s.admitted q op
   (s.admits q op = true ∧ e.hasRecords q.hdr.domain op = false ∧ barred (s.newCmd q op false) = false) ∧ ((∃ a, op = .append a ∧ i = .append q a) ∨ (∃ k, op = .sealOp k ∧ i = .sealOp q k) ∨
      (∃ d, op = .pageRead d ∧ i = .pageRead q d) ∨
      (∃ a, op = .fork a ∧ i = .fork q a) ∨ (∃ a, op = .compact a ∧ i = .compact q a) ∨ (∃ k, op = .seqPark k ∧ i = .seqPark q k) ∨
      (∃ k, op = .seqResume k ∧ i = .seqResume q k) ∨ (∃ a, op = .seqMigrate a ∧ i = .seqMigrate q a) ∨
      (∃ a, op = .ckptExport a ∧ i = .ckptExport q a) ∨ (∃ a, op = .prefixInsert a ∧ i = .prefixInsert q a) ∨
      (∃ a, op = .prefixRemove a ∧ i = .prefixRemove q a))) ∧
  (let s : State := { ringOn withSeq with kv := { withSeq.kv with seqLoc := [((5, 1), (7, 4))], codes := [(rackAddr 7 8192, .poison)] } }
   let q : Req := qRing
   let op : Op := .fork ⟨1, 2, 6, 0, 64, 8192, 0, 0, 0⟩
   let i : Instr := .fork q ⟨1, 2, 6, 0, 64, 8192, 0, 0, 0⟩
   let e : State := s.admitted q op
   (s.admits q op = true ∧ barred (s.newCmd q op false) = true) ∧ ((∃ a, op = .append a ∧ i = .append q a) ∨ (∃ k, op = .sealOp k ∧ i = .sealOp q k) ∨
      (∃ a, op = .fork a ∧ i = .fork q a) ∨ (∃ a, op = .prefixInsert a ∧ i = .prefixInsert q a) ∨
      (∃ a, op = .prefixRemove a ∧ i = .prefixRemove q a))) ∧
  (let s : State := { asks full false with kv := { full.kv with seqLoc := [((5, 1), (7, 4))], codes := [(rackAddr 7 8192, .poison)] } }
   let q : Req := qRing
   let d : AttnD := { fwdD with mergeConn := 0xFFFFFF, partialAddr := 0x08004000 }
   let e : State := s.admitted q (.attnFwd d)
   let r : SeqRec := okFst seq1 (e.attnCheck q.hdr q.src false d q.data)
   let b : List Byte := okSnd [] (e.attnCheck q.hdr q.src false d q.data)
   (s.admits q (.attnFwd d) = true ∧ e.hasRecords q.hdr.domain (.attnFwd d) = false ∧ d.level = 0 ∧ d.mergeConn = 0xFFFFFF ∧ (d.partialAddr = 0 ∨ e.outputRefused q.src q.hdr.domain d.partialAddr (if q.hdr.flag 1 then 1048512 else
      128 + 8 * d.rows + d.rows * attnDv (e.shape q.hdr.domain r.shapeId) * (if d.ofmt = 1 then 2 else 4)) = none)) ∧ e.attnCheck q.hdr q.src false d q.data = .ok (r, b)) ∧
  (let s : State := { ringOn withPage with kv := { withPage.kv with codes := [(rackAddr 0 8192, .poison)] } }
   let q : Req := qRing
   let a : PrefixD := ⟨1, 0, 1, 256⟩
   let e : State := s.admitted q (.prefixInsert a)
   let r : SeqRec := seq1
   s.admits q (.prefixInsert a) = true ∧ e.hasRecords q.hdr.domain (.prefixInsert a) = true ∧ publicRefused q.src q.hdr.domain = false ∧ e.seqRec q.hdr.domain a.seq = some r ∧ r.baseVpn ≤ a.vpn ∧ a.vpn < r.baseVpn + rangeLen r.layers r.kvHeads r.pmaxLog2 (e.shape q.hdr.domain r.shapeId) ∧ AL.get (q.hdr.domain, a.vpn) e.kv.ttlb = none ∧ e.walkLost q.hdr.domain a.vpn = true) ∧
  (let s : State := { runs frag0 with kv := { withPage.kv with lines := [line0], codes := [(benchAddr 0 4096, .poison)] } }
   let i : Nat := 4
   let e : Nat := 0
   let f : Frag := frag0
   let j : AttnJob := job0 false
   let fp : FragPage := fp0
   let x : Frame := fr0
   s.running = true ∧ s.frag i = some f ∧ f.id = i ∧ f.st = .running e ∧ s.job f.cmd = some j ∧ f.pages[f.next]? = some fp ∧ s.frame fp.frame = some x ∧ (s.readFrame fp.frame (f.queue == 16) 4).2 = true) ∧
  (let s : State := { withPage with kv := { withPage.kv with lines := [{ line0 with dirty := 1, wb := some (1, false) }], codes := [(benchAddr 0 4096, .poison)] } }
   let tile : Nat := 0
   let set : Nat := 0
   let way : Nat := 0
   let i : Nat := 0
   let b : Nat := 0
   let q : Nat := 1
   let l : Line := { line0 with dirty := 1, wb := some (1, false) }
   let x : Frame := fr0
   s.running = true ∧ tile < 24 ∧ (s.linesOf tile set).find? (fun l => l.way == way) = some l ∧ l.wb = some (q, false) ∧ i < 4 ∧ bitOf q i = true ∧ b < 512 ∧ AL.get (lineAddr l + (4096 + i * 16384 + b * 32)) s.kv.codes = some .poison ∧ s.frame l.frame = some x ∧ x.num = l.frame ∧ x.cur.crumbLoc = false ∧ (x.cur.st = .opened ∨ x.cur.st = .sealed) ∧ x.cur.fCkptCurrent = false ∧ x.cur.share ≠ 0 ∧ (∀ k ∈ s.kv.lines, k.tile = tile → k.draining = false)) ∧
  (let s : State := { on.setReg (pgScrb 0) 0x100 4 with kv := { withPage.kv with starter := [((3, 7, 2), ⟨1, 5, 2, 0, 9⟩)] } }
   let b : Nat := 3
   let set : Nat := 7
   let way : Nat := 2
   let n : Nat := 58
   let f : Nat := 0
   let x : StEntry := ⟨1, 5, 2, 0, 9⟩
   s.running = true ∧ s.scrubs 0 (.sram (.starter b set way false) n) = true ∧ AL.get (b, set, way) s.kv.starter = some x ∧ x.frame = f) ∧
  (let s : State := { on.setReg (pgScrb 0) 0x100 4 with net := { NetState.blank with conns := [(2, conn2)] } }
   let i : Nat := 2
   let n : Nat := 11
   let c : Conn := conn2
   s.running = true ∧ s.scrubs 0 (.sram (.connCache i) n) = true ∧ s.conn i = some c ∧ c.index = i ∧ c.cached = true ∧ s.net.outbound = [] ∧ s.eng.jobs = []) :=
  .intro ⟨by decide +kernel, (by repeat (first | exact ⟨_, rfl, rfl⟩ | exact .inl ⟨_, rfl, rfl⟩ | apply Or.inr))⟩ <| .intro ⟨by decide +kernel, (by repeat (first | exact ⟨_, rfl, rfl⟩ | exact .inl ⟨_, rfl, rfl⟩ | apply Or.inr))⟩ <| .intro ⟨by decide +kernel, ok_pair _ _ _ (by decide +kernel)⟩ <| .intro (by decide +kernel) <| .intro (by decide +kernel) <| .intro (by decide +kernel) <| .intro (by decide +kernel) <| by decide +kernel

/-- States and operands that meet the hypotheses of FaultsOfUnitsFenceThem, clause by clause. -/
theorem witness_faults_of_units_fence_them :
  (let s : State := (ringed.setRing 1 { Ring.blank with st := .running, phase := true, inflight := 1 }).setReg pgDbel 0x50 0x80000001
   let pg : Nat := pgDbel
   s.running = true ∧ s.kv.codes = [] ∧ (pageType pg).isSome = true ∧ s.fld pg 0x50 31 1 = 1 ∧ s.pageFenced pg = false ∧ s.pageBusy pg = true ∧ s.busWaits pg = false) ∧
  (let s : State := on
   let tile : Nat := 23
   let r : Nat := 15
   let beats : Nat := 3
   s.running = true ∧ s.kv.codes = [] ∧ tile < 24 ∧ r < 16 ∧ s.tileFenced tile = false) ∧
  (let s : State := on
   let tile : Nat := 23
   let r : Nat := 17
   let beats : Nat := 3
   s.running = true ∧ tile < 24 ∧ (r = 16 ∨ r = 17) ∧ s.tileFenced tile = false) ∧
  (let x : Abandoned := .unanswered
   let s : State := on
   let n : Nat := 7
   s.running = true ∧ n < 8) ∧
  (let x : Abandoned := .unanswered
   let s : State := on
   let l : Link := .b
   s.running = true) ∧
  (let x : Abandoned := .unanswered
   let s : State := on
   let tile : Nat := 23
   s.running = true ∧ s.kv.codes = [] ∧ tile < 24) ∧
  (let s : State := on
   let q : Nat := 3
   let i : Nat := 5
   let x : Abandoned := .read (.core 0) ⟨0, 4⟩ 1
   s.running = true ∧ q < 4 ∧ i < 6) ∧
  (let s : State := on
   let c : Nat := 383
   let x : Abandoned := .unanswered
   s.running = true ∧ c < 384 ∧ s.pageFenced (pgMchn c) = false) ∧
  (let s : State := on
   let i : Island := .hlnk .a
   let l : Link := .a
   let p : RegSpan := ⟨0x100, 4⟩
   let tag : Nat := 9
   s.running = true ∧ s.linkTalks l = true) ∧
  (let x : Abandoned := .unanswered
   let s : State := on
   let c : Nat := 6
   s.running = true ∧ c < 7) ∧
  (let s : State := on
   s.running = true ∧ s.kv.codes = [] ∧ s.nodeFenced = false) ∧
  (let s : State := on
   let tile : Nat := 23
   let c : Nat := 15
   s.running = true ∧ tile < 24 ∧ c < 16 ∧ s.pageFenced (pgMchn (tile * 16 + c)) = false) ∧
  (let s : State := on
   let q : Nat := 3
   let i : Nat := 5
   s.running = true ∧ q < 4 ∧ i < 6) ∧
  (let s : State := on
   s.running = true ∧ s.kv.codes = [] ∧ s.nodeFenced = false) :=
  .intro (by decide +kernel) <| .intro (by decide +kernel) <| .intro (by decide +kernel) <| .intro (by decide +kernel) <| .intro (by decide +kernel) <| .intro (by decide +kernel) <| .intro (by decide +kernel) <| .intro (by decide +kernel) <| .intro (by decide +kernel) <| .intro (by decide +kernel) <| .intro (by decide +kernel) <| .intro (by decide +kernel) <| .intro (by decide +kernel) <| by decide +kernel

/-- States and operands that meet the hypotheses of LinesAndPackedPages, clause by clause. -/
theorem witness_lines_and_packed_pages :
  (let s : State := { withPage with kv := { withPage.kv with packQ := [0] } }
   let tile : Nat := 0
   let f : Nat := 0
   s.running = true ∧ tile < 24 ∧ s.tileFenced tile = false ∧ s.unitAdmits (pgCrmb tile) = true ∧ s.kv.packQ.find? (fun f => frameTile f == tile) = some f ∧ s.badWords f (s.inBench f) = []) ∧
  (let s : State := { onFrame { fr0 with cur := { pg0 with st := .sealing }, pinCur := 2 } pte0 with kv := { (onFrame { fr0 with cur := { pg0 with st := .sealing }, pinCur := 2 } pte0).kv with packing := [(0, ⟨[1], [2], 0, 0⟩)] } }
   let u : State := match s.allocCrumb 0 5 (s.shape 5 2).slotBytes with | some p => p.1 | none => s
   let loc : Nat := match s.allocCrumb 0 5 (s.shape 5 2).slotBytes with | some p => p.2 | none => 0
   let f : Nat := 0
   let c : CrumbPage := ⟨[1], [2], 0, 0⟩
   let x : Frame := { fr0 with cur := { pg0 with st := .sealing }, pinCur := 2 }
   s.running = true ∧ s.kv.codes = [] ∧ AL.get f s.kv.packing = some c ∧ s.frame f = some x ∧ x.num = f ∧ x.cur.st = .sealing ∧ x.cur.share ≠ 0 ∧ s.allocCrumb (frameChannel f) x.cur.domain (s.shape x.cur.domain x.cur.shapeId).slotBytes = some (u, loc)) ∧
  (let s : State := onFrame { fr0 with pinCur := 2 } pte0
   let f : Nat := 0
   let x : Frame := { fr0 with pinCur := 2 }
   s.running = true ∧ s.frame f = some x ∧ x.num = f ∧ x.pinCur ≠ 0 ∧ x.old = none ∧ x.cur.share ≠ 0 ∧ x.cur.st ≠ .poisoned ∧ (∀ l ∈ s.kv.lines, l.tile = frameTile f → l.draining = false)) ∧
  (let s : State := { onFrame { fr0 with pinOld := 1, old := some (3, pg0) } pte0 with kv := { withPage.kv with frames := [(0, { fr0 with pinOld := 1, old := some (3, pg0) })], chunks := AL.put (0, 3) (.payload 0) withPage.kv.chunks } }
   let f : Nat := 0
   let x : Frame := { fr0 with pinOld := 1, old := some (3, pg0) }
   let k : Nat × Page := (3, pg0)
   s.running = true ∧ s.frame f = some x ∧ x.num = f ∧ x.pinOld = 1 ∧ x.old = some k ∧ x.cur.share ≠ 0 ∧ x.cur.st ≠ .poisoned ∧ (∀ l ∈ s.kv.lines, l.tile = frameTile f → l.draining = false)) ∧
  (let s : State := onFrame { fr0 with cur := { pg0 with st := .retired, share := 0 }, pinCur := 1 } Pte.invalid
   let f : Nat := 0
   let x : Frame := { fr0 with cur := { pg0 with st := .retired, share := 0 }, pinCur := 1 }
   s.running = true ∧ s.frame f = some x ∧ x.num = f ∧ x.pinCur = 1 ∧ x.pinOld = 0 ∧ x.old = none ∧ x.cur.share = 0 ∧ x.cur.st = .retired ∧ (∀ l ∈ s.kv.lines, l.tile = frameTile f → l.draining = false)) ∧
  (let s : State := { onFrame { fr0 with pinCur := 1 } { pte0 with st := .bench } with kv := { (onFrame { fr0 with pinCur := 1 } { pte0 with st := .bench }).kv with lines := [{ line0 with draining := true }], draining := [0] } }
   let f : Nat := 0
   let x : Frame := { fr0 with pinCur := 1 }
   let l : Line := { line0 with draining := true }
   s.running = true ∧ s.frame f = some x ∧ x.num = f ∧ x.pinCur = 1 ∧ x.pinOld = 0 ∧ x.old = none ∧ x.cur.share ≠ 0 ∧ x.cur.st ≠ .poisoned ∧ l ∈ s.kv.lines ∧ l.frame = f ∧ l.tile = frameTile f ∧ l.draining = true ∧ l.use = .copy ∧ l.isDirty = false ∧ (∀ m ∈ s.kv.lines, Line.same m l = true → m = l)) ∧
  (let s : State := { withPage with kv := { withPage.kv with lines := [line0, { line0 with tile := 1 }] } }
   let tile : Nat := 0
   s.running = true ∧ tile < 24) ∧
  (let s : State := { withPage with kv := { withPage.kv with lines := [{ line0 with dirty := 1, wb := some (1, false) }] } }
   let tile : Nat := 0
   let set : Nat := 0
   let way : Nat := 0
   let q : Nat := 1
   let rec' : Bool := false
   let l : Line := { line0 with dirty := 1, wb := some (1, false) }
   let x : Frame := fr0
   s.running = true ∧ s.kv.codes = [] ∧ tile < 24 ∧ (s.linesOf tile set).find? (fun l => l.way == way) = some l ∧ l.wb = some (q, rec') ∧ s.frame l.frame = some x ∧ x.num = l.frame ∧ x.cur.share ≠ 0 ∧ x.cur.st ≠ .poisoned ∧ x.old = none ∧ (∀ k ∈ s.kv.lines, k.tile = tile → k.draining = false)) ∧
  (let s : State := { withPage with kv := { withPage.kv with fetches := [0] } }
   let f : Nat := 0
   let x : Frame := fr0
   let v : State := match ({ s with kv := { s.kv with fetches := s.kv.fetches.filter (fun g => g != f) } } : State).takeLine (frameTile f) (frameSet f) f (b2n x.cur.fPacked) (if x.cur.st = .opened then .opened else .copy) 0 x.cur.domain with | some v => v | none => s
   s.running = true ∧ s.kv.codes = [] ∧ s.kv.fetches.contains f = true ∧ s.frame f = some x ∧ ({ s with kv := { s.kv with fetches := s.kv.fetches.filter (fun g => g != f) } } : State).takeLine (frameTile f) (frameSet f) f
      (b2n x.cur.fPacked) (if x.cur.st = .opened then .opened else .copy) 0 x.cur.domain = some v) ∧
  (let s : State := { withPage with kv := { withPage.kv with fetches := [0], lines := (List.range 16).map (fun w => { line0 with way := w, use := .source, frame := 1 }) } }
   let f : Nat := 0
   let x : Frame := fr0
   s.running = true ∧ s.badWords f false = [] ∧ s.kv.fetches.contains f = true ∧ s.frame f = some x ∧ ({ s with kv := { s.kv with fetches := s.kv.fetches.filter (fun g => g != f) } } : State).takeLine (frameTile f) (frameSet f) f
      (b2n x.cur.fPacked) (if x.cur.st = .opened then .opened else .copy) 0 x.cur.domain = none) ∧
  (let s : State := { withPage.setReg (pgBnch 0) 0x104 0x80000000 with eng := { EngState.blank with promos := [(0, 0)] } }
   let f : Nat := 0
   let part : Nat := 0
   s.running = true ∧ s.kv.codes = [] ∧ s.eng.promos.find? (fun p => p.1 == f) = some (f, part) ∧ ({ s with eng := { s.eng with promos := s.eng.promos.filter (fun p => p.1 != f) } } : State).promotable f part = true) :=
  .intro (by decide +kernel) <| .intro (by decide +kernel) <| .intro (by decide +kernel) <| .intro (by decide +kernel) <| .intro (by decide +kernel) <| .intro (by decide +kernel) <| .intro (by decide +kernel) <| .intro (by decide +kernel) <| .intro (by decide +kernel) <| .intro (by decide +kernel) <| by decide +kernel

/-- States and operands that meet the hypotheses of FillsLandOrFail, clause by clause. -/
theorem witness_fills_land_or_fail :
  (let s : State := onFill pteC
   let d : Nat := 5
   let v : Nat := 256
   let p : Page := pg0
   let f : Fill := fill0
   let x : Frame := { fr0 with cur := { pg0 with st := .filling, share := 0 }, rack := { pg0 with st := .filling, share := 0 } }
   s.running = true ∧ s.kv.codes = [] ∧ s.fillOf d v = some f ∧ s.frame f.frame = some x ∧ (s.pte d v).st = .ckpt ∧ (s.pte d v).fill = true ∧ (s.pte d v).loc = f.obj ∧ p.domain = d ∧ s.sealedAs d f.obj p = true ∧ (((s.dropFill d v).bump (pgMchn (frameChannel f.frame)) 0x120 (s.fillBursts p)).placeForm f.frame p.fPacked).isSome = true) ∧
  (let s : State := onFill pteC
   let d : Nat := 5
   let v : Nat := 256
   let p : Page := { pg0 with domain := 6 }
   let f : Fill := fill0
   s.running = true ∧ s.fillOf d v = some f ∧ (s.pte d v).st = .ckpt ∧ (s.pte d v).fill = true ∧ (s.pte d v).loc = f.obj ∧ (p.domain ≠ d ∨ s.sealedAs d f.obj p = false ∨
      ((s.dropFill d v).bump (pgMchn (frameChannel f.frame)) 0x120 (s.fillBursts p)).placeForm f.frame p.fPacked = none)) ∧
  (let s : State := onFill Pte.invalid
   let d : Nat := 5
   let v : Nat := 256
   let p : Page := pg0
   let f : Fill := fill0
   s.running = true ∧ s.fillOf d v = some f ∧ (s.pte d v).st ≠ .ckpt) ∧
  (let s : State := onFill pteC
   let d : Nat := 5
   let v : Nat := 256
   let f : Fill := fill0
   s.running = true ∧ s.fillOf d v = some f ∧ (s.pte d v).st = .ckpt ∧ s.cmds.list.any (Cmd.awaitsFill d v) = false) ∧
  (let s : State := { onFill pteC with cmds := { on.cmds with list := [cmdOf (.pageRead ⟨1, 0, 0, 1, 0, 64, 0x08000000, 64⟩) (.fills [(5, 256)] 0)] } }
   let d : Nat := 5
   let v : Nat := 256
   let f : Fill := fill0
   let c : Cmd := cmdOf (.pageRead ⟨1, 0, 0, 1, 0, 64, 0x08000000, 64⟩) (.fills [(5, 256)] 0)
   s.running = true ∧ s.fillOf d v = some f ∧ (s.pte d v).st = .ckpt ∧ s.cmds.list = [c] ∧ Cmd.awaitsFill d v c = true ∧ s.job c.id = none ∧ s.jobOfCmd c.id = none) ∧
  (let s : State := { onFill pteC with cmds := { on.cmds with list := [cmdOf (.pageRead ⟨1, 0, 0, 1, 0, 64, 0x08000000, 64⟩) (.fills [(5, 256)] 0)] } }
   let id : Nat := 9
   let since : Nat := 0
   let c : Cmd := cmdOf (.pageRead ⟨1, 0, 0, 1, 0, 64, 0x08000000, 64⟩) (.fills [(5, 256)] 0)
   let ps : List (Nat × Nat) := [(5, 256)]
   s.running = true ∧ s.cmd id = some c ∧ c.wait = .fills ps since ∧ since + min 10000 (max 1 (s.fld pgXlat 0x104 0 14)) * 100000 ≤ s.nrt) ∧
  (let s : State := { withPage with cmds := { on.cmds with list := [cmdOf (.pageRead ⟨1, 0, 0, 1, 0, 64, 0x08000000, 64⟩) (.victim 0 0 false .none)] } }
   let id : Nat := 9
   let since : Nat := 0
   let tile : Nat := 0
   let raised : Bool := false
   let space : Space := .none
   let c : Cmd := cmdOf (.pageRead ⟨1, 0, 0, 1, 0, 64, 0x08000000, 64⟩) (.victim 0 0 false .none)
   s.running = true ∧ s.cmd id = some c ∧ c.wait = .victim tile since raised space ∧ since + 2000 ≤ s.nrt) ∧
  (let s : State := { withPage with cmds := { on.cmds with list := [cmdOf (.pageRead ⟨1, 0, 0, 1, 0, 64, 0x08000000, 64⟩) (.victim 0 999999999 false .none)] } }
   let id : Nat := 9
   let since : Nat := 999999999
   let tile : Nat := 0
   let raised : Bool := false
   let space : Space := .none
   let c : Cmd := cmdOf (.pageRead ⟨1, 0, 0, 1, 0, 64, 0x08000000, 64⟩) (.victim 0 999999999 false .none)
   s.running = true ∧ s.cmd id = some c ∧ c.wait = .victim tile since raised space ∧ s.nrt < since + 2000) :=
  .intro (by decide +kernel) <| .intro (by decide +kernel) <| .intro (by decide +kernel) <| .intro (by decide +kernel) <| .intro (by decide +kernel) <| .intro (by decide +kernel) <| .intro (by decide +kernel) <| by decide +kernel

/-- States and operands that meet the hypotheses of FragmentsRunOnEngines, clause by clause. -/
theorem witness_fragments_run_on_engines :
  (let s : State := { runs { frag0 with st := .waiting } with eng := { (runs { frag0 with st := .waiting }).eng with queues := [((0, 16), ⟨[4], 0, 0, [], 0, []⟩)] } }
   let tile : Nat := 0
   let q : Nat := 16
   (s.running = true ∧ tile < 24 ∧ q ≤ 16 ∧ (s.queue tile q).window ≠ []) ∧ (∀ k x, s.frag k = some x → x.id = k)) ∧
  (let s : State := runs { frag0 with st := .stopping 0 }
   let tile : Nat := 0
   let e : Nat := 0
   let i : Nat := 4
   let f : Frag := { frag0 with st := .stopping 0 }
   s.running = true ∧ tile < 24 ∧ AL.get (tile, e) s.eng.busy = some i ∧ s.frag i = some f ∧ f.id = i ∧ f.tile = tile ∧ f.st = .stopping e ∧ s.canSave f = true) ∧
  (let s : State := { runs { frag0 with st := .stopping 0 } with eng := { (runs { frag0 with st := .stopping 0 }).eng with save := [(3, 5)] } }
   let tile : Nat := 0
   let e : Nat := 0
   let i : Nat := 4
   let f : Frag := { frag0 with st := .stopping 0 }
   s.running = true ∧ tile < 24 ∧ AL.get (tile, e) s.eng.busy = some i ∧ s.frag i = some f ∧ f.st = .stopping e ∧ s.canSave f = false) ∧
  (let s : State := { runs { frag0 with st := .saving 0 } with eng := { (runs { frag0 with st := .saving 0 }).eng with busy := [], ways := [((0, 0), 4)], save := [(3, 4)] } }
   let ctx : Nat := 3
   let i : Nat := 4
   let e : Nat := 0
   let f : Frag := { frag0 with st := .saving 0 }
   (s.running = true ∧ AL.get ctx s.eng.save = some i ∧ s.frag i = some f ∧ f.st = .saving e) ∧ (∀ k x, s.frag k = some x → x.id = k)) ∧
  (let s : State := { runs { frag0 with st := .restoring 0 } with eng := { (runs { frag0 with st := .restoring 0 }).eng with save := [(3, 4)] } }
   let i : Nat := 4
   let e : Nat := 0
   let f : Frag := { frag0 with st := .restoring 0 }
   s.running = true ∧ s.frag i = some f ∧ f.st = .restoring e) ∧
  (let s : State := runs { frag0 with st := .killing 0, reruns := 3 }
   let i : Nat := 4
   let e : Nat := 0
   let f : Frag := { frag0 with st := .killing 0, reruns := 3 }
   (s.running = true ∧ s.frag i = some f ∧ f.st = .killing e ∧ f.reruns < 4) ∧ (∀ k x, s.frag k = some x → x.id = k) ∧ (match s.cmd f.cmd with
      | some c => ∀ st, c.wait ≠ .dying st
      | none => s.job f.cmd ≠ none)) ∧
  (let s : State := let u := runs { frag0 with st := .killing 0 }; { u with cmds := on.cmds, eng := { u.eng with jobs := [] } }
   let i : Nat := 4
   let e : Nat := 0
   let f : Frag := { frag0 with st := .killing 0 }
   (s.running = true ∧ s.frag i = some f ∧ f.st = .killing e ∧ s.cmd f.cmd = none ∧ s.job f.cmd = none) ∧ (∀ k x, s.frag k = some x → x.id = k)) ∧
  (let s : State := runs { frag0 with seen := 0x3FF }
   let i : Nat := 4
   let e : Nat := 0
   let f : Frag := { frag0 with seen := 0x3FF }
   let j : AttnJob := job0 false
   let fp : FragPage := fp0
   let x : Frame := fr0
   let p : Page := { pinnedPage fr0 16 false with valid := 0x3FF }
   s.running = true ∧ s.frag i = some f ∧ f.id = i ∧ f.st = .running e ∧ s.job f.cmd = some j ∧ f.pages[f.next]? = some fp ∧ s.frame fp.frame = some x ∧ s.badWords fp.frame (f.queue == 16) = [] ∧ f.bwd = false ∧ p = { pinnedPage x f.queue fp.packed with valid := f.seen } ∧ p.fPoison = false ∧ p.st ≠ .poisoned ∧ (p.fPacked = true → crumbError (s.shape j.hdr.domain p.shapeId) p = none)) ∧
  (let s : State := { runs { frag0 with bwd := true, seen := 0x3FF } with eng := { (runs { frag0 with bwd := true, seen := 0x3FF }).eng with jobs := [(9, job0 true)], grads := [((3, 1, 256), grad0)] } }
   let i : Nat := 4
   let e : Nat := 0
   let f : Frag := { frag0 with bwd := true, seen := 0x3FF }
   let j : AttnJob := job0 true
   let fp : FragPage := fp0
   let x : Frame := fr0
   let p : Page := { pinnedPage fr0 16 false with valid := 0x3FF }
   let g : GradPage := grad0
   let sum : GradPage × Nat := grad0.addAll (s.shape j.hdr.domain p.shapeId) (j.hdr.flag 1) (s.fresh * 2 ^ 40) 0 p.off (backwardPage (s.shape j.hdr.domain p.shapeId) j.d j ⟨j.d.scale, j.d.softcap, j.hdr.flag 4⟩ p fp.hg f.rows).sums
   s.running = true ∧ s.frag i = some f ∧ f.id = i ∧ f.st = .running e ∧ s.job f.cmd = some j ∧ j.cmd = f.cmd ∧ f.pages[f.next]? = some fp ∧ s.frame fp.frame = some x ∧ s.kv.codes = [] ∧ f.bwd = true ∧ j.hdr.flag 2 = false ∧ f.commit.contains f.next = false ∧ p = { pinnedPage x f.queue fp.packed with valid := f.seen } ∧ p.fPoison = false ∧ p.st ≠ .poisoned ∧ p.fPacked = false ∧ AL.get (j.hdr.context, j.d.seq, fp.vpn) s.eng.grads = some g ∧ g.poison = false ∧ sum = g.addAll (s.shape j.hdr.domain p.shapeId) (j.hdr.flag 1) ((s.fresh + b2n (decide (2 ≤ e))) * 2 ^ 40)
      (AL.getD j.hdr.context 0 s.eng.headroom) p.off
      (backwardPage (s.shape j.hdr.domain p.shapeId) j.d j ⟨j.d.scale, j.d.softcap, j.hdr.flag 4⟩ p fp.hg f.rows).sums) ∧
  (let s : State := { runs { frag0 with bwd := true } with eng := { (runs { frag0 with bwd := true }).eng with jobs := [(9, job0 true)], grads := [((3, 1, 256), { grad0 with poison := true })] } }
   let i : Nat := 4
   let e : Nat := 0
   let f : Frag := { frag0 with bwd := true }
   let j : AttnJob := job0 true
   let fp : FragPage := fp0
   let x : Frame := fr0
   let g : GradPage := { grad0 with poison := true }
   s.running = true ∧ s.frag i = some f ∧ f.id = i ∧ f.st = .running e ∧ s.job f.cmd = some j ∧ j.cmd = f.cmd ∧ f.pages[f.next]? = some fp ∧ s.frame fp.frame = some x ∧ s.kv.codes = [] ∧ f.bwd = true ∧ j.hdr.flag 2 = false ∧ f.commit.contains f.next = false ∧ (pinnedPage x f.queue fp.packed).fPoison = false ∧ (pinnedPage x f.queue fp.packed).st ≠ .poisoned ∧ (pinnedPage x f.queue fp.packed).fPacked = false ∧ AL.get (j.hdr.context, j.d.seq, fp.vpn) s.eng.grads = some g ∧ g.poison = true) ∧
  (let s : State := (runs frag0).setReg (enginePage 0 0) 0x100 1
   let i : Nat := 4
   let e : Nat := 0
   let f : Frag := frag0
   let j : AttnJob := job0 false
   let fp : FragPage := fp0
   let x : Frame := fr0
   (s.running = true ∧ s.frag i = some f ∧ f.tile < 24 ∧ e < 18 ∧ f.st = .running e ∧ s.job f.cmd = some j ∧ f.pages[f.next]? = some fp ∧ s.frame fp.frame = some x ∧ s.fld (enginePage f.tile e) 0x100 0 1 = 1 ∧ f.reruns < 4 ∧ AL.get (f.tile, e) s.eng.residue = none) ∧ (∀ k x, s.frag k = some x → x.id = k)) ∧
  (let s : State := runs { frag0 with next := 1, tokens := 64 }
   let i : Nat := 4
   let e : Nat := 0
   let f : Frag := { frag0 with next := 1, tokens := 64 }
   let j : AttnJob := job0 false
   (s.running = true ∧ s.frag i = some f ∧ f.st = .running e ∧ f.pages.length ≤ f.next ∧ (f.queue ≠ 16 → s.busOpen f.tile = true) ∧ s.job f.cmd = some j ∧ j.cmd = f.cmd ∧ j.doneEarly = false) ∧ (∀ k x, s.frag k = some x → x.id = k)) ∧
  (let s : State := (runs { frag0 with next := 1, tokens := 64, queue := 0 }).setReg (pgCbar 0) 0x100 1
   let i : Nat := 4
   let f : Frag := { frag0 with next := 1, tokens := 64, queue := 0 }
   s.running = true ∧ s.frag i = some f ∧ f.queue ≠ 16 ∧ s.busOpen f.tile = false) ∧
  (let s : State := { runs frag0 with eng := { (runs frag0).eng with frags := [], busy := [] } }
   let cmd : Nat := 9
   let tile : Nat := 0
   let j : AttnJob := job0 false
   let a : PartAcc := PartAcc.blank 1 64 false
   s.running = true ∧ tile < 24 ∧ s.job cmd = some j ∧ j.cmd = cmd ∧ AL.get tile j.tiles = some (a, false) ∧ s.tileReady cmd tile = true) :=
  .intro ⟨by decide +kernel, one_frag_named_by_id _ 4 _ rfl rfl⟩ <| .intro (by decide +kernel) <| .intro (by decide +kernel) <| .intro ⟨by decide +kernel, one_frag_named_by_id _ 4 _ rfl rfl⟩ <| .intro (by decide +kernel) <| .intro ⟨by decide +kernel, one_frag_named_by_id _ 4 _ rfl rfl, (by intro st; exact Wait.noConfusion)⟩ <| .intro ⟨by decide +kernel, one_frag_named_by_id _ 4 _ rfl rfl⟩ <| .intro (by decide +kernel) <| .intro (by decide +kernel) <| .intro (by decide +kernel) <| .intro ⟨by decide +kernel, one_frag_named_by_id _ 4 _ rfl rfl⟩ <| .intro ⟨by decide +kernel, one_frag_named_by_id _ 4 _ rfl rfl⟩ <| .intro (by decide +kernel) <| by decide +kernel

/-- States and operands that meet the hypotheses of PartialsMergeInContexts, clause by clause. -/
theorem witness_partials_merge_in_contexts :
  (let s : State := withConn
   let cn : Nat := 2
   let id : Nat := 4
   let r : PartialRec := part0
   let ns : List Nat := [0]
   let k : Conn := conn2
   s.running = true ∧ s.mctx r.key = none ∧ r.formBad = false ∧ s.freeContexts (contextsFor r.rows r.dv) = some ns ∧ s.nodeFenced = false ∧ s.conn cn = some k) ∧
  (let s : State := merging mctx0
   let cn : Nat := 2
   let id : Nat := 4
   let r : PartialRec := part0
   let c : MergeCtx := mctx0
   let k : Conn := conn2
   s.running = true ∧ s.mctx r.key = some c ∧ r.formBad = false ∧ c.st ≠ .closed ∧ (c.expect = none ∨ c.expect = some r.expect) ∧ r.contrib ∉ c.arrived ∧ r.rows = c.rows ∧ r.dv = c.dv ∧ r.sum = c.sum ∧ (mergeInto c r).isComplete = false ∧ s.nodeFenced = false ∧ s.conn cn = some k) ∧
  (let s : State := merging { mctx0 with st := .anchored, localDone := true, arrived := [0, 2] }
   let cn : Nat := 2
   let id : Nat := 4
   let r : PartialRec := part0
   let c : MergeCtx := { mctx0 with st := .anchored, localDone := true, arrived := [0, 2] }
   let k : Conn := conn2
   s.running = true ∧ s.mctx r.key = some c ∧ r.formBad = false ∧ c.st = .anchored ∧ (c.expect = none ∨ c.expect = some r.expect) ∧ r.contrib ∉ c.arrived ∧ r.rows = c.rows ∧ r.dv = c.dv ∧ r.sum = c.sum ∧ (mergeInto c r).isComplete = true ∧ s.nodeFenced = false ∧ s.conn cn = some k) ∧
  (let s : State := merging { mctx0 with st := .closed }
   let cn : Nat := 2
   let id : Nat := 4
   let r : PartialRec := part0
   let c : MergeCtx := { mctx0 with st := .closed }
   let k : Conn := conn2
   s.running = true ∧ s.mctx r.key = some c ∧ r.formBad = false ∧ c.st = .closed ∧ s.nodeFenced = false ∧ s.conn cn = some k) ∧
  (let s : State := withConn
   let cn : Nat := 2
   let id : Nat := 4
   let r : PartialRec := { part0 with expect := 0 }
   let k : Conn := conn2
   s.running = true ∧ s.mctx r.key = none ∧ r.formBad = true ∧ s.nodeFenced = false ∧ s.conn cn = some k) ∧
  (let s : State := merging { mctx0 with deadline := 1000000000 }
   let k : MergeKey := part0.key
   let c : MergeCtx := { mctx0 with deadline := 1000000000 }
   s.running = true ∧ s.mctx k = some c ∧ c.deadline ≤ s.nrt ∧ c.st = .opened) ∧
  (let s : State := merging { mctx0 with st := .anchored, deadline := 1000000000 }
   let k : MergeKey := part0.key
   let c : MergeCtx := { mctx0 with st := .anchored, deadline := 1000000000 }
   s.running = true ∧ s.mctx k = some c ∧ c.deadline ≤ s.nrt ∧ c.st = .anchored) ∧
  (let s : State := merging { mctx0 with st := .closed }
   let k : MergeKey := part0.key
   let c : MergeCtx := { mctx0 with st := .closed }
   s.running = true ∧ s.mctx k = some c ∧ c.st = .closed ∧ c.closedAt + 100 * c.linger ≤ s.nrt) ∧
  (let s : State := sent sentJob sentD
   let cn : Nat := 2
   let id : Nat := 6
   let st : Nat := stOk
   let n : Nat := 0
   let i : Nat := 9
   let c : Cmd := cmdOf (.attnFwd sentD) .sent
   let j : AttnJob := sentJob
   let r : PartialRec := part0
   s.running = true ∧ s.eng.jobs.find? (fun p => p.2.record.isSome && p.2.sentOn == cn && p.2.sentMsg == id && p.2.resendAt == 0) = some (i, j) ∧ s.job i = some j ∧ s.cmd i = some c ∧ j.record = some r) ∧
  (let s : State := sent { sentJob with firstSend := 0 } sentD
   let i : Nat := 9
   let c : Cmd := cmdOf (.attnFwd sentD) .sent
   let d : AttnD := sentD
   let j : AttnJob := { sentJob with firstSend := 0 }
   let r : PartialRec := part0
   s.running = true ∧ s.cmd i = some c ∧ s.job i = some j ∧ attnOf c.op = some d ∧ j.record = some r ∧ j.firstSend + 100 * d.deadlineUs ≤ s.nrt) ∧
  (let s : State := sent { sentJob with resendAt := 999999999 } sentD
   let i : Nat := 9
   let c : Cmd := cmdOf (.attnFwd sentD) .sent
   let d : AttnD := sentD
   let j : AttnJob := { sentJob with resendAt := 999999999 }
   let r : PartialRec := part0
   let k : Conn := conn2
   s.running = true ∧ s.cmd i = some c ∧ s.job i = some j ∧ j.cmd = i ∧ attnOf c.op = some d ∧ j.record = some r ∧ s.nrt < j.firstSend + 100 * d.deadlineUs ∧ j.resendAt ≠ 0 ∧ j.resendAt ≤ s.nrt ∧ d.mergeConn ≠ 0xFFFFFF ∧ d.mergeConn ≠ 0xFFFFFE ∧ s.connOf d.mergeConn = some k) :=
  .intro (by decide +kernel) <| .intro (by decide +kernel) <| .intro (by decide +kernel) <| .intro (by decide +kernel) <| .intro (by decide +kernel) <| .intro (by decide +kernel) <| .intro (by decide +kernel) <| .intro (by decide +kernel) <| .intro (by decide +kernel) <| .intro (by decide +kernel) <| by decide +kernel

/-- States and operands that meet the hypotheses of SequencesLive, clause by clause. -/
theorem witness_sequences_live :
  (let s : State := { ringOn withSeq with kv := { withSeq.kv with seqs := [] } }
   let q : Req := qRing
   let a : SeqCreateD := seqD
   let n : Nat := 4096
   let e : State := s.admitted q (.seqCreate a)
   let v : State := match e.placeRecord 5 1 3 4096 with | some v => v | none => e
   s.admits q (.seqCreate a) = true ∧ e.createRefusal q.hdr.domain q.src a = none ∧ n = recordSize a.layers a.kvHeads (histOf a.histN) (e.shape q.hdr.domain a.shapeId) ∧ e.rused q.hdr.domain + n / 256 ≤ e.rquota q.hdr.domain ∧ e.placeRecord q.hdr.domain a.seq q.hdr.context n = some v) ∧
  (let s : State := { (ringOn withSeq) with kv := { withSeq.kv with seqs := [], rused := [(5, 100000)] } }
   let q : Req := qRing
   let a : SeqCreateD := seqD
   let e : State := s.admitted q (.seqCreate a)
   s.admits q (.seqCreate a) = true ∧ e.createRefusal q.hdr.domain q.src a = none ∧ e.rquota q.hdr.domain < e.rused q.hdr.domain +
      recordSize a.layers a.kvHeads (histOf a.histN) (e.shape q.hdr.domain a.shapeId) / 256) ∧
  (let s : State := ringOn opened
   let q : Req := qRing
   let k : Nat := 1
   let n : Nat := 0
   let r : SeqRec := seqO
   let e : State := s.admitted q (.seqPark k)
   let sh : Shape := e.shape q.hdr.domain r.shapeId
   s.admits q (.seqPark k) = true ∧ e.intact q.hdr.domain (.seqPark k) = true ∧ e.seqRec q.hdr.domain k = some r ∧ r.st = .active ∧ n = ((e.openPoints q.hdr.domain r sh).map (fun p => e.pte q.hdr.domain (vpnOf r sh p.layer p.hg p.k))).countP
      (fun p => (p.st == .bench || p.st == .rack) && (e.frameLine p.loc 0).any (fun l => l.use == .opened))) ∧
  (let s : State := { ringOn withSeq with kv := { withSeq.kv with seqs := [((5, 1), { seq1 with st := .parked })] } }
   let q : Req := qRing
   let k : Nat := 1
   let r : SeqRec := { seq1 with st := .parked }
   let e : State := s.admitted q (.seqResume k)
   s.admits q (.seqResume k) = true ∧ e.hasRecords q.hdr.domain (.seqResume k) = true ∧ e.seqRec q.hdr.domain k = some r ∧ r.st = .parked ∧ q.hdr.flag 0 = false) ∧
  (let s : State := { ringOn (onFill pteC) with kv := { (onFill pteC).kv with seqs := [((5, 1), seqO)] } }
   let q : Req := { qRing with hdr := { hdr5 with flags := 1 } }
   let k : Nat := 1
   let r : SeqRec := seqO
   let e : State := s.admitted q (.seqResume k)
   let u : State := (e.prefetch 5 (e.partOf 3) 1 r (e.shape 5 2)).1
   let vs : List Nat := [256]
   let ws : List Nat := [256]
   s.admits q (.seqResume k) = true ∧ e.hasRecords q.hdr.domain (.seqResume k) = true ∧ e.seqRec q.hdr.domain k = some r ∧ r.st = .active ∧ q.hdr.flag 0 = true ∧ e.prefetch q.hdr.domain (e.partOf q.hdr.context) k r (e.shape q.hdr.domain r.shapeId) = (u, none, vs) ∧ vs ≠ [] ∧ ws = vs.filter (fun v => (u.pte q.hdr.domain v).fill)) ∧
  (let s : State := ringOn opened
   let q : Req := qRing
   let k : Nat := 1
   let r : SeqRec := seqO
   let e : State := s.admitted q (.seqDestroy k)
   let sh : Shape := e.shape q.hdr.domain r.shapeId
   s.admits q (.seqDestroy k) = true ∧ e.seqRec q.hdr.domain k = some r ∧ (r.st = .active ∨ r.st = .parked ∨ r.st = .moved)) ∧
  (let s : State := ringOn on
   let q : Req := qRing
   let k : Nat := 1
   let e : State := s.admitted q (.seqPark k)
   s.admits q (.seqPark k) = true ∧ e.seqRec q.hdr.domain k = none) ∧
  (let s : State := ringOn on
   let q : Req := qRing
   let k : Nat := 1
   let e : State := s.admitted q (.seqDestroy k)
   s.admits q (.seqDestroy k) = true ∧ e.seqRec q.hdr.domain k = none) :=
  .intro (by decide +kernel) <| .intro (by decide +kernel) <| .intro (by decide +kernel) <| .intro (by decide +kernel) <| .intro (by decide +kernel) <| .intro (by decide +kernel) <| .intro (by decide +kernel) <| by decide +kernel

/-- States and operands that meet the hypotheses of PagesAreWrittenReadAndForked, clause by clause. -/
theorem witness_pages_are_written_read_and_forked :
  (let s : State := { ringOn { opened with kv := { opened.kv with lines := [{ line0 with use := .opened }], ptes := [((5, 256), { pteO with st := .bench })] } } with nrt := 1000000000 }
   let q : Req := qRing
   let a : AppendD := ⟨1, 0, 1, 0, 10, 1, s.dataBase 1, 256⟩
   let e : State := s.admitted q (.append a)
   let r : SeqRec := seqO
   let sh : Shape := e.shape 5 2
   let bytes : List Byte := match e.input q.src 5 a.rowAddr a.rowBytes q.data with | .ok b => b | _ => []
   let P := e.prepare (fun s v k => s.startFill q.hdr.domain (e.partOf q.hdr.context) v k) (s.newCmd q (.append a) false) a.seq r sh (appendPoints r sh a ++ (if q.hdr.flag 0 then e.otherOpen q.hdr.domain r sh a else []))
   let v : State := match P with | .ready v _ _ => v | _ => e
   let ts : List (Point × Task) := match P with | .ready _ ts _ => ts | _ => []
   let gs : List Got := match P with | .ready _ _ gs => gs | _ => []
   (s.admits q (.append a) = true ∧ e.intact q.hdr.domain (.append a) = true ∧ publicRefused q.src q.hdr.domain = false ∧ e.seqRec q.hdr.domain a.seq = some r ∧ sh = e.shape q.hdr.domain r.shapeId ∧ r.st = .active ∧ appendRefusal r (shapeValid (e.shapeW q.hdr.domain r.shapeId)) sh (q.hdr.flag 0) a = none ∧ (f32List a.infmt bytes).all f32Finite = true ∧ e.prepare (fun s v k => s.startFill q.hdr.domain (e.partOf q.hdr.context) v k) (s.newCmd q (.append a) false) a.seq r
      sh (appendPoints r sh a ++
      (if q.hdr.flag 0 then e.otherOpen q.hdr.domain r sh a else [])) = .ready v ts gs) ∧ e.input q.src q.hdr.domain a.rowAddr a.rowBytes q.data = .ok bytes) ∧
  (let s : State := ringOn opened
   let q : Req := qRing
   let a : AppendD := ⟨1, 0, 1, 0, 10, 1, s.dataBase 1, 256⟩
   let e : State := s.admitted q (.append a)
   let r : SeqRec := seqO
   let sh : Shape := e.shape 5 2
   let bytes : List Byte := match e.input q.src 5 a.rowAddr a.rowBytes q.data with | .ok b => b | _ => []
   let P := e.prepare (fun s v k => s.startFill q.hdr.domain (e.partOf q.hdr.context) v k) (s.newCmd q (.append a) false) a.seq r sh (appendPoints r sh a ++ (if q.hdr.flag 0 then e.otherOpen q.hdr.domain r sh a else []))
   let v : State := match P with | .await v _ => v | _ => e
   let w : Wait := match P with | .await _ w => w | _ => .none
   (s.admits q (.append a) = true ∧ e.hasRecords q.hdr.domain (.append a) = true ∧ publicRefused q.src q.hdr.domain = false ∧ e.seqRec q.hdr.domain a.seq = some r ∧ sh = e.shape q.hdr.domain r.shapeId ∧ r.st = .active ∧ appendRefusal r (shapeValid (e.shapeW q.hdr.domain r.shapeId)) sh (q.hdr.flag 0) a = none ∧ (f32List a.infmt bytes).all f32Finite = true ∧ e.prepare (fun s v k => s.startFill q.hdr.domain (e.partOf q.hdr.context) v k) (s.newCmd q (.append a) false) a.seq r
      sh (appendPoints r sh a ++
      (if q.hdr.flag 0 then e.otherOpen q.hdr.domain r sh a else [])) = .await v w) ∧ e.input q.src q.hdr.domain a.rowAddr a.rowBytes q.data = .ok bytes) ∧
  (let s : State := ringOn { opened with kv := { opened.kv with lines := [{ line0 with use := .opened }], ptes := [((5, 256), { pteO with st := .bench })] } }
   let q : Req := qRing
   let k : Nat := 1
   let e : State := s.admitted q (.sealOp k)
   let r : SeqRec := seqO
   let sh : Shape := e.shape 5 2
   let P := e.prepare (fun s v k => s.startFill q.hdr.domain (e.partOf q.hdr.context) v k) (s.newCmd q (.sealOp k) false) k r sh (e.openPoints q.hdr.domain r sh)
   let v : State := match P with | .ready v _ _ => v | _ => e
   let ts : List (Point × Task) := match P with | .ready _ ts _ => ts | _ => []
   let gs : List Got := match P with | .ready _ _ gs => gs | _ => []
   s.admits q (.sealOp k) = true ∧ e.intact q.hdr.domain (.sealOp k) = true ∧ publicRefused q.src q.hdr.domain = false ∧ e.seqRec q.hdr.domain k = some r ∧ sh = e.shape q.hdr.domain r.shapeId ∧ r.st = .active ∧ evenPos r = true ∧ e.openPoints q.hdr.domain r sh ≠ [] ∧ ((sealEntry r sh.T (r.nextPos.headD 0)).isSome = true → r.sealLog.length < 64) ∧ e.prepare (fun s v k => s.startFill q.hdr.domain (e.partOf q.hdr.context) v k) (s.newCmd q (.sealOp k) false) k r
      sh (e.openPoints q.hdr.domain r sh) = .ready v ts gs) ∧
  (let s : State := ringOn withSeq
   let q : Req := qRing
   let k : Nat := 1
   let r : SeqRec := seq1
   let e : State := s.admitted q (.sealOp k)
   s.admits q (.sealOp k) = true ∧ e.hasRecords q.hdr.domain (.sealOp k) = true ∧ publicRefused q.src q.hdr.domain = false ∧ e.seqRec q.hdr.domain k = some r ∧ r.st = .active ∧ evenPos r = true ∧ e.openPoints q.hdr.domain r (e.shape q.hdr.domain r.shapeId) = []) ∧
  (let s : State := ringOn { opened with kv := { opened.kv with frames := [(0, fr0)], ptes := [((5, 256), pte0)], seqs := [((5, 1), { seqO with nextPos := [64] })] } }
   let q : Req := qRing
   let d : PageReadD := ⟨1, 0, 0, 1, 0, 64, s.dataBase 1, s.dataLen 1⟩
   let e : State := s.admitted q (.pageRead d)
   let r : SeqRec := { seqO with nextPos := [64] }
   let sh : Shape := e.shape 5 2
   let P := e.walkRead q.hdr.domain d.seq r sh (rangePoints r sh d.layer d.kvFirst d.kvCount d.tokFirst d.tokEnd)
   let v : State := P.1
   let l : List (Point × Pte) := match P.2 with | .pages l => l | _ => []
   s.admits q (.pageRead d) = true ∧ e.intact q.hdr.domain (.pageRead d) = true ∧ e.seqRec q.hdr.domain d.seq = some r ∧ sh = e.shape q.hdr.domain r.shapeId ∧ e.readRefusal q.hdr d = none ∧ e.outputRefused q.src q.hdr.domain d.addr d.bytes = none ∧ e.walkRead q.hdr.domain d.seq r sh
      (rangePoints r sh d.layer d.kvFirst d.kvCount d.tokFirst d.tokEnd) = (v, .pages l)) ∧
  (let s : State := ringOn { opened with kv := { opened.kv with frames := [(0, fr0)], ptes := [((5, 256), pte0)], seqs := [((5, 1), { seqO with nextPos := [64] })] } }
   let q : Req := qRing
   let a : ForkD := ⟨1, 3, 5, 0, 64, 512, 0, 0, 0⟩
   let e : State := s.admitted q (.fork a)
   let r : SeqRec := { seqO with nextPos := [64] }
   let sh : Shape := e.shape 5 2
   let n : Nat := recordSize r.layers r.kvHeads r.histN sh
   let P := e.walkRead a.srcDomain a.srcSeq r sh (pagesTo r sh a.posEnd)
   let v : State := P.1
   let l : List (Point × Pte) := match P.2 with | .pages l => l | _ => []
   let ps : List ForkPage := l.map (fun x => ⟨x.1, x.2, v.forkWay r sh a.posEnd x.1 x.2⟩)
   let v0 : State := (v.readCopies ps).1
   let r' : SeqRec := { v0.forkRecord r sh a with recordBytes := n }
   let R := v0.reserve q.hdr.domain (some (v.partOf q.hdr.context)) (forkWants r' sh a ps)
   let v1 : State := okFst v R
   let gs : List Got := okSnd [] R
   let v2 : State := match v1.openLines q.hdr.domain (v.partOf q.hdr.context) false gs with | .taken v => v | _ => v1
   let v3 : State := (v2.placeRecord q.hdr.domain a.dstSeq q.hdr.context n).getD v2
   (s.admits q (.fork a) = true ∧ e.intact q.hdr.domain (.fork a) = true ∧ e.forkRefusal q.hdr.domain (q.hdr.flag 0) a = none ∧ e.seqRec a.srcDomain a.srcSeq = some r ∧ sh = e.shape a.srcDomain r.shapeId ∧ e.walkRead a.srcDomain a.srcSeq r sh (pagesTo r sh a.posEnd) = (v, .pages l) ∧ v.readCopies ps = (v0, false) ∧ v1.rused q.hdr.domain + n / 256 ≤ v1.rquota q.hdr.domain ∧ (v1.placeRecord q.hdr.domain a.dstSeq q.hdr.context n).isSome = true ∧ v1.openLines q.hdr.domain (v.partOf q.hdr.context) false gs = .taken v2 ∧ v2.placeRecord q.hdr.domain a.dstSeq q.hdr.context n = some v3 ∧ (∀ x ∈ ps, x.way ≠ .copy → (v3.page x.pte.loc).share < 65535)) ∧ v0.reserve q.hdr.domain (some (v.partOf q.hdr.context)) (forkWants r' sh a ps) = .ok (v1, gs)) ∧
  (let s : State := ringOn { withPage with kv := { withPage.kv with frames := [(0, { fr0 with cur := { pg0 with valid := BitVec.ofNat 1024 (2^64 - 1) }, rack := { pg0 with valid := BitVec.ofNat 1024 (2^64 - 1) } })], seqs := [((5, 1), { seq1 with nextPos := [64], policy := 2 })] } }
   let q : Req := { qRing with hdr := { hdr5 with flags := 1 } }
   let a : CompactD := ⟨1, 0, 1, 0x7F800000, 0, 0, 0, 64, 1⟩
   let r : SeqRec := { seq1 with nextPos := [64], policy := 2 }
   let e : State := s.admitted q (.compact a)
   let sh : Shape := e.shape 5 2
   let b : List (Nat × Nat × List Nat × Nat) := (e.compactBatch q.hdr.domain r sh r.nextPos a (compactPoints r sh a) 64).1
   let R := e.reserve q.hdr.domain (some (e.partOf q.hdr.context)) (e.compactWants a.seq r sh b)
   let v : State := okFst e R
   let gs : List Got := okSnd [] R
   (s.admits q (.compact a) = true ∧ e.intact q.hdr.domain (.compact a) = true ∧ e.compactRefusal q.hdr a = none ∧ e.seqRec q.hdr.domain a.seq = some r ∧ sh = e.shape q.hdr.domain r.shapeId ∧ q.hdr.flag 0 = true ∧ e.compactBatch q.hdr.domain r sh r.nextPos a (compactPoints r sh a) 64 = (b, []) ∧ (∀ x ∈ b, (∀ g ∈ gs, g.frame ≠ x.2.1) ∧ ((e.page x.2.1).fPacked = true →
      crumbError (e.shape (e.page x.2.1).domain (e.page x.2.1).shapeId) (e.page x.2.1) = none))) ∧ e.reserve q.hdr.domain (some (e.partOf q.hdr.context)) (e.compactWants a.seq r sh b) = .ok (v, gs)) ∧
  (let s : State := let u := ringOn { withPage with kv := { withPage.kv with frames := [(0, { fr0 with cur := { pg0 with valid := BitVec.ofNat 1024 (2^64 - 1) }, rack := { pg0 with valid := BitVec.ofNat 1024 (2^64 - 1) } })], seqs := [((5, 1), { seq1 with nextPos := [64], policy := 2 })] } }; { u with kv := { u.kv with rused := [(5, 0xFFFFFFFF)] } }
   let q : Req := qRing
   let a : CompactD := ⟨1, 0, 1, 0x7F800000, 0, 0, 0, 64, 1⟩
   let r : SeqRec := { seq1 with nextPos := [64], policy := 2 }
   let e : State := s.admitted q (.compact a)
   let sh : Shape := e.shape 5 2
   let u : Nat := errOf 0 (e.reserve q.hdr.domain (some (e.partOf q.hdr.context)) (e.compactWants a.seq r sh (e.compactBatch q.hdr.domain r sh r.nextPos a (compactPoints r sh a) 64).1))
   (s.admits q (.compact a) = true ∧ e.hasRecords q.hdr.domain (.compact a) = true ∧ e.compactRefusal q.hdr a = none ∧ e.seqRec q.hdr.domain a.seq = some r ∧ sh = e.shape q.hdr.domain r.shapeId) ∧ e.reserve q.hdr.domain (some (e.partOf q.hdr.context))
      (e.compactWants a.seq r sh (e.compactBatch q.hdr.domain r sh r.nextPos a (compactPoints r sh a) 64).1) = .error u) ∧
  (let s : State := ringOn { withPage with kv := { withPage.kv with frames := [(0, { fr0 with cur := { pg0 with valid := BitVec.ofNat 1024 (2^64 - 1) }, rack := { pg0 with valid := BitVec.ofNat 1024 (2^64 - 1) } })], seqs := [((5, 1), { seq1 with nextPos := [64], policy := 2 })] } }
   let q : Req := qRing
   let a : CompactD := ⟨1, 0, 1, 0x7F800000, 0, 0, 0, 64, 1⟩
   let r : SeqRec := { seq1 with nextPos := [64], policy := 2 }
   let e : State := s.admitted q (.compact a)
   let sh : Shape := e.shape 5 2
   let b : List (Nat × Nat × List Nat × Nat) := (e.compactBatch q.hdr.domain r sh r.nextPos a (compactPoints r sh a) 64).1
   let R := e.reserve q.hdr.domain (some (e.partOf q.hdr.context)) (e.compactWants a.seq r sh b)
   let v : State := okFst e R
   let gs : List Got := okSnd [] R
   (s.admits q (.compact a) = true ∧ e.intact q.hdr.domain (.compact a) = true ∧ e.compactRefusal q.hdr a = none ∧ e.seqRec q.hdr.domain a.seq = some r ∧ sh = e.shape q.hdr.domain r.shapeId ∧ q.hdr.flag 0 = false ∧ e.compactBatch q.hdr.domain r sh r.nextPos a (compactPoints r sh a) 64 = (b, []) ∧ (∀ x ∈ b, (∀ g ∈ gs, g.frame ≠ x.2.1) ∧ ((e.page x.2.1).fPacked = true →
      crumbError (e.shape (e.page x.2.1).domain (e.page x.2.1).shapeId) (e.page x.2.1) = none))) ∧ e.reserve q.hdr.domain (some (e.partOf q.hdr.context)) (e.compactWants a.seq r sh b) = .ok (v, gs)) ∧
  (let s : State := { ringOn { withPage with kv := { withPage.kv with frames := [(0, { fr0 with cur := { pg0 with valid := BitVec.ofNat 1024 (2^64 - 1) }, rack := { pg0 with valid := BitVec.ofNat 1024 (2^64 - 1) } })], seqs := [((5, 1), { seq1 with nextPos := [64], policy := 2 })] } } with cmds := { on.cmds with list := [{ cmdOf (.compact ⟨1, 0, 1, 0x7F800000, 0, 0, 0, 64, 1⟩) (.batches [(0, 0, 0)]) with nextAt := [64] }] } }
   let id : Nat := 9
   let c : Cmd := { cmdOf (.compact ⟨1, 0, 1, 0x7F800000, 0, 0, 0, 64, 1⟩) (.batches [(0, 0, 0)]) with nextAt := [64] }
   let a : CompactD := ⟨1, 0, 1, 0x7F800000, 0, 0, 0, 64, 1⟩
   let r : SeqRec := { seq1 with nextPos := [64], policy := 2 }
   let todo : List (Nat × Nat × Nat) := [(0, 0, 0)]
   let B := s.compactBatch c.hdr.domain r (s.shape c.hdr.domain r.shapeId) c.nextAt a todo 64
   let b : List (Nat × Nat × List Nat × Nat) := B.1
   let rest : List (Nat × Nat × Nat) := B.2
   let R := s.reserve c.hdr.domain (some (s.partOf c.hdr.context)) (s.compactWants a.seq r (s.shape c.hdr.domain r.shapeId) b)
   let v : State := okFst s R
   let gs : List Got := okSnd [] R
   (s.running = true ∧ s.kv.codes = [] ∧ s.cmd id = some c ∧ c.op = .compact a ∧ s.jobOfCmd id = none ∧ c.wait = .batches todo ∧ s.seqRec c.hdr.domain a.seq = some r ∧ s.compactBatch c.hdr.domain r (s.shape c.hdr.domain r.shapeId) c.nextAt a todo 64 = (b, rest) ∧ (∀ x ∈ b, (∀ g ∈ gs, g.frame ≠ x.2.1) ∧ ((s.page x.2.1).fPacked = true →
      crumbError (s.shape (s.page x.2.1).domain (s.page x.2.1).shapeId) (s.page x.2.1) = none))) ∧ s.reserve c.hdr.domain (some (s.partOf c.hdr.context)) (s.compactWants a.seq r (s.shape c.hdr.domain r.shapeId) b) = .ok (v, gs)) :=
  .intro ⟨by decide +kernel, rfl⟩ <| .intro ⟨by decide +kernel, rfl⟩ <| .intro (by decide +kernel) <| .intro (by decide +kernel) <| .intro (by decide +kernel) <| .intro ⟨by decide +kernel, ok_pair _ _ _ (by decide +kernel)⟩ <| .intro ⟨by decide +kernel, ok_pair _ _ _ (by decide +kernel)⟩ <| .intro ⟨by decide +kernel, error_val _ _ (by decide +kernel)⟩ <| .intro ⟨by decide +kernel, ok_pair _ _ _ (by decide +kernel)⟩ <| ⟨by decide +kernel, ok_pair _ _ _ (by decide +kernel)⟩

/-- States and operands that meet the hypotheses of AttentionCommandsPlanAndDrain, clause by clause. -/
theorem witness_attention_commands_plan_and_drain :
  (let s : State := asks full false
   let q : Req := qRing
   let d : AttnD := fwdD
   let e : State := s.admitted q (.attnFwd d)
   let c : Cmd := s.newCmd q (.attnFwd d) false
   let r : SeqRec := { seq1 with nextPos := [64] }
   let sh : Shape := e.shape 5 2
   let bytes : List Byte := match e.input q.src 5 d.addr d.bytes q.data with | .ok b => b | _ => []
   let j : AttnJob := e.newJob c false d r bytes
   let w : State := e.putJob j
   let ps : List Point := rangePoints r sh d.layer d.kvFirst d.kvCount d.tokFirst j.bound
   let P := w.walkRead 5 d.seq r sh ps
   let v : State := P.1
   let l : List (Point × Pte) := match P.2 with | .pages l => l | _ => []
   let v2 : State := (v.planPages q.hdr.lc (w.partOf q.hdr.context) r sh l []).1
   let plans : List FragPlan := (v.planPages q.hdr.lc (w.partOf q.hdr.context) r sh l []).2
   (w.walkRead q.hdr.domain d.seq r sh ps = (v, .pages l) ∧ v.projLost q.hdr.domain false sh d = false ∧ v.planPages q.hdr.lc (w.partOf q.hdr.context) r sh l [] = (v2, plans) ∧ plans ≠ []) ∧ s.attnStarts q false d e w c r sh bytes j ps) ∧
  (let s : State := asks withSeq false
   let q : Req := qRing
   let d : AttnD := { fwdD with mergeConn := 0xFFFFFF, partialAddr := 0x08004100 }
   let e : State := s.admitted q (.attnFwd d)
   let c : Cmd := s.newCmd q (.attnFwd d) false
   let r : SeqRec := seq1
   let sh : Shape := e.shape 5 2
   let bytes : List Byte := match e.input q.src 5 d.addr d.bytes q.data with | .ok b => b | _ => []
   let j : AttnJob := e.newJob c false d r bytes
   let w : State := e.putJob j
   let k : AttnJob := { j with covE := if d.targetLevel = 3 then d.expect else 0, covG := if d.targetLevel = 3 then 1 else 0 }
   (d.level = 0 ∧ d.mergeConn = 0xFFFFFF) ∧ s.attnStarts q false d e w c r sh bytes j []) ∧
  (let s : State := asks { onFill pteC with kv := { (onFill pteC).kv with seqs := [((5, 1), { seq1 with nextPos := [64] })] } } false
   let q : Req := qRing
   let d : AttnD := fwdD
   let e : State := s.admitted q (.attnFwd d)
   let c : Cmd := s.newCmd q (.attnFwd d) false
   let r : SeqRec := { seq1 with nextPos := [64] }
   let sh : Shape := e.shape 5 2
   let bytes : List Byte := match e.input q.src 5 d.addr d.bytes q.data with | .ok b => b | _ => []
   let j : AttnJob := e.newJob c false d r bytes
   let w : State := e.putJob j
   let ps : List Point := rangePoints r sh d.layer d.kvFirst d.kvCount d.tokFirst j.bound
   let P := w.walkRead 5 d.seq r sh ps
   let v : State := P.1
   let vs : List (Nat × Nat) := match P.2 with | .fill l => l | _ => []
   let u : State := match v.awaitFills 5 (w.partOf 3) vs with | .wait u _ _ => u | .done u _ => u
   let x : Wait := match v.awaitFills 5 (w.partOf 3) vs with | .wait _ w _ => w | _ => .none
   let n : Nat := match v.awaitFills 5 (w.partOf 3) vs with | .wait _ _ n => n | _ => 0
   (w.walkRead q.hdr.domain d.seq r sh ps = (v, .fill vs) ∧ v.awaitFills q.hdr.domain (w.partOf q.hdr.context) vs = .wait u x n) ∧ s.attnStarts q false d e w c r sh bytes j ps) ∧
  (let s : State := asks full true
   let q : Req := qRing
   let d : AttnD := bwdD
   let e : State := s.admitted q (.attnBwd d)
   let c : Cmd := s.newCmd q (.attnBwd d) false
   let r : SeqRec := { seq1 with nextPos := [64] }
   let sh : Shape := e.shape 5 2
   let bytes : List Byte := match e.input q.src 5 d.addr d.bytes q.data with | .ok b => b | _ => []
   let j : AttnJob := e.newJob c true d r bytes
   let w : State := e.putJob j
   let ps : List Point := rangePoints r sh d.layer d.kvFirst d.kvCount d.tokFirst j.bound
   let P := w.walkRead 5 d.seq r sh ps
   let v : State := P.1
   let l : List (Point × Pte) := match P.2 with | .pages l => l | _ => []
   let v1 : State := (v.reserveGrads q.hdr d r sh l).1
   let v2 : State := (v1.planPages q.hdr.lc (w.partOf q.hdr.context) r sh l []).1
   let plans : List FragPlan := (v1.planPages q.hdr.lc (w.partOf q.hdr.context) r sh l []).2
   (w.walkRead q.hdr.domain d.seq r sh ps = (v, .pages l) ∧ (q.hdr.flag 2 = false → w.drainAhead q.hdr c.id = false ∧
      w.gradRefusal q.hdr d (ps.map (fun p => vpnOf r sh p.layer p.hg p.k)) = none ∧
      (w.reserveGrads q.hdr d r sh ((ps.map (fun p => (p, w.pte q.hdr.domain (vpnOf r sh p.layer p.hg p.k)))).filter
      (fun x => x.2.st == .bench || x.2.st == .rack))).2 = none ∧ (v.reserveGrads q.hdr d r sh l).2 = none) ∧ v1 = (if q.hdr.flag 2 then v else (v.reserveGrads q.hdr d r sh l).1) ∧ v1.planPages q.hdr.lc (w.partOf q.hdr.context) r sh l [] = (v2, plans) ∧ plans ≠ []) ∧ s.attnStarts q true d e w c r sh bytes j ps) ∧
  (let s : State := let u := asks full true; { u with cmds := { u.cmds with ctxs := u.cmds.ctxs.map (fun x => (x.1, { x.2 with gradPages := 0 })) } }
   let q : Req := qRing
   let d : AttnD := bwdD
   let e : State := s.admitted q (.attnBwd d)
   let c : Cmd := s.newCmd q (.attnBwd d) false
   let r : SeqRec := { seq1 with nextPos := [64] }
   let sh : Shape := e.shape 5 2
   let bytes : List Byte := match e.input q.src 5 d.addr d.bytes q.data with | .ok b => b | _ => []
   let j : AttnJob := e.newJob c true d r bytes
   let w : State := e.putJob j
   let ps : List Point := rangePoints r sh d.layer d.kvFirst d.kvCount d.tokFirst j.bound
   let x : Result := (w.gradRefusal q.hdr d (ps.map (fun p => vpnOf r sh p.layer p.hg p.k))).getD { status := stOk }
   (q.hdr.flag 2 = false ∧ w.drainAhead q.hdr c.id = false ∧ w.gradRefusal q.hdr d (ps.map (fun p => vpnOf r sh p.layer p.hg p.k)) = some x) ∧ s.attnStarts q true d e w c r sh bytes j ps) ∧
  (let s : State := (asks full true).setRegI (pgBnch 0) 0x134 5 0
   let q : Req := qRing
   let d : AttnD := bwdD
   let e : State := s.admitted q (.attnBwd d)
   let c : Cmd := s.newCmd q (.attnBwd d) false
   let r : SeqRec := { seq1 with nextPos := [64] }
   let sh : Shape := e.shape 5 2
   let bytes : List Byte := match e.input q.src 5 d.addr d.bytes q.data with | .ok b => b | _ => []
   let j : AttnJob := e.newJob c true d r bytes
   let w : State := e.putJob j
   let ps : List Point := rangePoints r sh d.layer d.kvFirst d.kvCount d.tokFirst j.bound
   let P := w.walkRead 5 d.seq r sh ps
   let v : State := P.1
   let l : List (Point × Pte) := match P.2 with | .pages l => l | _ => []
   let x : Result := (v.reserveGrads q.hdr d r sh l).2.getD { status := stOk }
   (q.hdr.flag 2 = false ∧ w.drainAhead q.hdr c.id = false ∧ w.gradRefusal q.hdr d (ps.map (fun p => vpnOf r sh p.layer p.hg p.k)) = none ∧ w.walkRead q.hdr.domain d.seq r sh ps = (v, .pages l) ∧ (v.reserveGrads q.hdr d r sh l).2 = some x) ∧ s.attnStarts q true d e w c r sh bytes j ps) ∧
  (let s : State := let u := asks full true; { u with cmds := { u.cmds with nextId := 10, list := [cmdOf (.gradDrain ⟨1, 0, 1, 0x08004000, 4096⟩) .turn] } }
   let q : Req := qRing
   let d : AttnD := bwdD
   let e : State := s.admitted q (.attnBwd d)
   let c : Cmd := s.newCmd q (.attnBwd d) false
   let r : SeqRec := { seq1 with nextPos := [64] }
   let sh : Shape := e.shape 5 2
   let bytes : List Byte := match e.input q.src 5 d.addr d.bytes q.data with | .ok b => b | _ => []
   let j : AttnJob := e.newJob c true d r bytes
   let w : State := e.putJob j
   let ps : List Point := rangePoints r sh d.layer d.kvFirst d.kvCount d.tokFirst j.bound
   (q.hdr.flag 2 = false ∧ w.drainAhead q.hdr c.id = true) ∧ s.attnStarts q true d e w c r sh bytes j ps) ∧
  (let s : State := { asks full true with eng := { EngState.blank with grads := [((3, 1, 256), grad0)] } }
   let q : Req := qRing
   let d : DrainD := ⟨1, 0, 1, 0x08004000, 4096⟩
   let take : List ((Nat × Nat × Nat) × GradPage) := drainFit d.bytes ((s.admitted q (.gradDrain d)).selectGrads q.hdr.context d)
   let e : State := s.admitted q (.gradDrain d)
   s.admits q (.gradDrain d) = true ∧ e.kv.codes = [] ∧ (e.eng.grads.map (fun p => p.1)).Nodup ∧ d.layerCount ≠ 0 ∧ q.hdr.flag 0 = false ∧ d.bytes ≤ 1048512 ∧ e.outputRefused q.src q.hdr.domain d.addr d.bytes = none ∧ e.bwdBefore (s.newCmd q (.gradDrain d) false) = false ∧ take = drainFit d.bytes (e.selectGrads q.hdr.context d)) ∧
  (let s : State := { asks full true with eng := { EngState.blank with grads := [((3, 1, 256), grad0)] } }
   let q : Req := { qRing with hdr := { hdr5 with flags := 1 } }
   let d : DrainD := ⟨1, 0, 1, 0x08004000, 4096⟩
   let take : List ((Nat × Nat × Nat) × GradPage) := (s.admitted q (.gradDrain d)).selectGrads q.hdr.context d
   let e : State := s.admitted q (.gradDrain d)
   s.admits q (.gradDrain d) = true ∧ d.layerCount ≠ 0 ∧ q.hdr.flag 0 = true ∧ e.bwdBefore (s.newCmd q (.gradDrain d) false) = false ∧ take = e.selectGrads q.hdr.context d) ∧
  (let s : State := { asks full true with cmds := { ringed.cmds with list := [cmdOf (.attnBwd bwdD) .frags] } }
   let q : Req := qRing
   let d : DrainD := ⟨1, 0, 1, 0x08004000, 4096⟩
   let e : State := s.admitted q (.gradDrain d)
   s.admits q (.gradDrain d) = true ∧ d.layerCount ≠ 0 ∧ q.hdr.flag 0 = false ∧ d.bytes ≤ 1048512 ∧ e.outputRefused q.src q.hdr.domain d.addr d.bytes = none ∧ e.bwdBefore (s.newCmd q (.gradDrain d) false) = true) :=
  .intro ⟨by decide +kernel, starts_of rfl rfl rfl rfl rfl rfl (by decide +kernel)⟩ <| .intro ⟨by decide +kernel, starts_of rfl rfl rfl rfl rfl rfl (by decide +kernel)⟩ <| .intro ⟨by decide +kernel, starts_of rfl rfl rfl rfl rfl rfl (by decide +kernel)⟩ <| .intro ⟨by decide +kernel, starts_of rfl rfl rfl rfl rfl rfl (by decide +kernel)⟩ <| .intro ⟨by decide +kernel, starts_of rfl rfl rfl rfl rfl rfl (by decide +kernel)⟩ <| .intro ⟨by decide +kernel, starts_of rfl rfl rfl rfl rfl rfl (by decide +kernel)⟩ <| .intro ⟨by decide +kernel, starts_of rfl rfl rfl rfl rfl rfl (by decide +kernel)⟩ <| .intro (by decide +kernel) <| .intro (by decide +kernel) <| by decide +kernel

/-- States and operands that meet the hypotheses of StarterEntriesAreFoundAndKept, clause by clause. -/
theorem witness_starter_entries_are_found_and_kept :
  (let s : State := ringOn { withPage with kv := { withPage.kv with frames := [(0, { fr0 with cur := { pg0 with fKeyed := true, keyHi := 0x77 } })], starter := [((tagBank (matchTag 5 0x12345), tagSet (matchTag 5 0x12345), 6), ⟨tagHi (matchTag 5 0x12345), 5, 2, 0, 0x12345⟩)] } }
   let q : Req := qRing
   let a : LookupD := sealedQuery 0
   let w : Nat := 6
   let x : StEntry := ⟨tagHi (matchTag 5 0x12345), 5, 2, 0, 0x12345⟩
   let e : State := s.admitted q (.prefixLookup a)
   s.admits q (.prefixLookup a) = true ∧ s.kv.codes = [] ∧ shapeValid (e.shapeW q.hdr.domain a.shapeId) = true ∧ e.outputRefused q.src q.hdr.domain a.resultAddr 32 = none ∧ (List.range 8).find? (fun w => (e.entry (matchTag q.hdr.domain a.keyLo) w).any (fun x =>
      isCandidate q.hdr.domain a.shapeId a.keyLo x && e.verified a.keyHi x)) = some w ∧ e.entry (matchTag q.hdr.domain a.keyLo) w = some x) ∧
  (let s : State := ringOn { withPage with kv := { withPage.kv with frames := [(0, { fr0 with cur := { pg0 with fKeyed := true, keyHi := 0x77 } })], starter := [((tagBank (matchTag 0 0x12345), tagSet (matchTag 0 0x12345), 6), ⟨tagHi (matchTag 0 0x12345), 0, 2, 0, 0x12345⟩)] } }
   let q : Req := { qRing with hdr := { hdr5 with flags := 1 } }
   let a : LookupD := sealedQuery 0
   let w : Nat := 6
   let x : StEntry := ⟨tagHi (matchTag 0 0x12345), 0, 2, 0, 0x12345⟩
   let e : State := s.admitted q (.prefixLookup a)
   s.admits q (.prefixLookup a) = true ∧ s.kv.codes = [] ∧ shapeValid (e.shapeW q.hdr.domain a.shapeId) = true ∧ q.hdr.flag 0 = true ∧ e.outputRefused q.src q.hdr.domain a.resultAddr 32 = none ∧ (List.range 8).find? (fun w => (e.entry (matchTag q.hdr.domain a.keyLo) w).any (fun x =>
      isCandidate q.hdr.domain a.shapeId a.keyLo x && e.verified a.keyHi x)) = none ∧ (List.range 8).find? (fun w => (e.entry (matchTag 0 a.keyLo) w).any (fun x =>
      isCandidate 0 a.shapeId a.keyLo x && e.verified a.keyHi x)) = some w ∧ e.entry (matchTag 0 a.keyLo) w = some x) ∧
  (let s : State := ringOn withPage
   let q : Req := qRing
   let a : LookupD := sealedQuery 0
   let e : State := s.admitted q (.prefixLookup a)
   s.admits q (.prefixLookup a) = true ∧ s.kv.codes = [] ∧ shapeValid (e.shapeW q.hdr.domain a.shapeId) = true ∧ q.hdr.flag 0 = false ∧ e.outputRefused q.src q.hdr.domain a.resultAddr 32 = none ∧ (List.range 8).find? (fun w => (e.entry (matchTag q.hdr.domain a.keyLo) w).any (fun x =>
      isCandidate q.hdr.domain a.shapeId a.keyLo x && e.verified a.keyHi x)) = none) ∧
  (let s : State := ringOn { withPage with kv := { withPage.kv with frames := [(0, { fr0 with cur := { pg0 with fKeyed := true, keyHi := 0x77 } })], starter := [((tagBank (matchTag 0 0x12345), tagSet (matchTag 0 0x12345), 6), ⟨tagHi (matchTag 0 0x12345), 0, 2, 0, 0x12345⟩)] } }
   let q : Req := qRing
   let a : LookupD := sealedQuery 0x80000015
   let w : Nat := 6
   let d : Nat := 0
   let x : StEntry := ⟨tagHi (matchTag 0 0x12345), 0, 2, 0, 0x12345⟩
   let e : State := s.admitted q (.prefixStep a)
   s.admits q (.prefixStep a) = true ∧ s.kv.codes = [] ∧ shapeValid (e.shapeW q.hdr.domain a.shapeId) = true ∧ bitOf a.cursor 31 = true ∧ e.outputRefused q.src q.hdr.domain a.resultAddr 32 = none ∧ d = (if bitsOf a.cursor 4 1 = 0 then q.hdr.domain else 0) ∧ (List.range 8).find? (fun w => decide (a.cursor % 8 < w) && (e.entry (matchTag d a.keyLo) w).any (fun x =>
      isCandidate d a.shapeId a.keyLo x && e.verified a.keyHi x)) = some w ∧ e.entry (matchTag d a.keyLo) w = some x) ∧
  (let s : State := ringOn withPage
   let q : Req := qRing
   let a : PrefixD := ⟨0x12345, 0x77, 1, 256⟩
   let e : State := s.admitted q (.prefixInsert a)
   let v : State := (e.walkFrame 5 1 256).1
   let f : Nat := 0
   let w : Nat := 0
   (s.admits q (.prefixInsert a) = true ∧ e.hasRecords q.hdr.domain (.prefixInsert a) = true ∧ publicRefused q.src q.hdr.domain = false ∧ e.insertRefusal q.hdr.domain (matchTag q.hdr.domain a.keyLo) f = none ∧ e.freeWay (matchTag q.hdr.domain a.keyLo) = some w) ∧ e.walkFrame q.hdr.domain a.seq a.vpn = (v, .ok f)) ∧
  (let s : State := ringOn { withPage with kv := { withPage.kv with frames := [(0, { fr0 with cur := { pg0 with fKeyed := true, keyHi := 0x77, share := 2 } })], starter := [((tagBank (matchTag 5 0x12345), tagSet (matchTag 5 0x12345), 6), ⟨tagHi (matchTag 5 0x12345), 5, 2, 0, 0x12345⟩)] } }
   let q : Req := qRing
   let a : PrefixD := ⟨0x12345, 0x77, 1, 256⟩
   let e : State := s.admitted q (.prefixRemove a)
   let v : State := (e.walkFrame 5 1 256).1
   let f : Nat := 0
   let w : Nat := 6
   let x : Frame := { fr0 with cur := { pg0 with fKeyed := true, keyHi := 0x77, share := 2 } }
   (s.admits q (.prefixRemove a) = true ∧ e.hasRecords q.hdr.domain (.prefixRemove a) = true ∧ publicRefused q.src q.hdr.domain = false ∧ (List.range 8).find? (fun w => (e.entry (matchTag q.hdr.domain a.keyLo) w).any (fun y =>
      y.domain == q.hdr.domain && y.fp == a.keyLo && y.frame == f)) = some w ∧ e.frame f = some x ∧ 1 < x.cur.share) ∧ e.walkFrame q.hdr.domain a.seq a.vpn = (v, .ok f)) :=
  .intro (by decide +kernel) <| .intro (by decide +kernel) <| .intro (by decide +kernel) <| .intro (by decide +kernel) <| .intro ⟨by decide +kernel, rfl⟩ <| ⟨by decide +kernel, rfl⟩

/-- States and operands that meet the hypotheses of RemoteOperationsAreSent, clause by clause. -/
theorem witness_remote_operations_are_sent :
  (let s : State := { ringOn withPage with net := withConn.net }
   let q : Req := qRing
   let d : RmaD := ⟨2 ^ 18 + 2, 3, 0, 0x08004000, 64, 0, 0⟩
   let n : Nat := 1
   let k : Conn := conn2
   let e : State := s.admitted q (.rmaRead d)
   let c : Cmd := s.newCmd q (.rmaRead d) false
   s.admits q (.rmaRead d) = true ∧ q.src = .ring n ∧ rmaFieldsOk (.rmaRead d) d = true ∧ e.connOf d.conn = some k ∧ k.domain = q.hdr.domain ∧ e.inDataArea q.hdr.domain d.localAddr d.length = true) ∧
  (let s : State := { ringOn withPage with net := withConn.net }
   let q : Req := qRing
   let d : RmaD := ⟨2 ^ 18 + 2, 3, 0, 0x08004000, 64, 0, 0⟩
   let n : Nat := 1
   let k : Conn := conn2
   let e : State := s.admitted q (.rmaWrite d)
   let c : Cmd := s.newCmd q (.rmaWrite d) false
   s.admits q (.rmaWrite d) = true ∧ q.src = .ring n ∧ rmaFieldsOk (.rmaWrite d) d = true ∧ e.connOf d.conn = some k ∧ k.domain = q.hdr.domain ∧ e.inDataArea q.hdr.domain d.localAddr d.length = true) ∧
  (let s : State := { ringOn withPage with net := withConn.net }
   let q : Req := qRing
   let d : RmaD := ⟨2 ^ 18 + 2, 3, 8, 0, 8, 1, 0⟩
   let n : Nat := 1
   let k : Conn := conn2
   let e : State := s.admitted q (.rmaAdd d)
   let c : Cmd := s.newCmd q (.rmaAdd d) false
   s.admits q (.rmaAdd d) = true ∧ q.src = .ring n ∧ rmaFieldsOk (.rmaAdd d) d = true ∧ e.connOf d.conn = some k ∧ k.domain = q.hdr.domain) ∧
  (let s : State := { ringOn withPage with net := withConn.net }
   let q : Req := qRing
   let d : RmaD := ⟨2 ^ 18 + 2, 3, 8, 0, 8, 1, 2⟩
   let n : Nat := 1
   let k : Conn := conn2
   let e : State := s.admitted q (.rmaCas d)
   let c : Cmd := s.newCmd q (.rmaCas d) false
   s.admits q (.rmaCas d) = true ∧ q.src = .ring n ∧ rmaFieldsOk (.rmaCas d) d = true ∧ e.connOf d.conn = some k ∧ k.domain = q.hdr.domain) ∧
  (let s : State := { ringOn withPage with net := withConn.net }
   let q : Req := qRing
   let d : RmaD := ⟨2 ^ 18 + 2, 0, 0, 0, 0, 0, 0⟩
   let n : Nat := 1
   let k : Conn := conn2
   let e : State := s.admitted q (.rmaFlush d)
   let c : Cmd := s.newCmd q (.rmaFlush d) false
   s.admits q (.rmaFlush d) = true ∧ q.src = .ring n ∧ rmaFieldsOk (.rmaFlush d) d = true ∧ e.connOf d.conn = some k ∧ k.domain = q.hdr.domain) ∧
  (let s : State := ringOn withPage
   let q : Req := qRing
   let d : RmaD := ⟨2 ^ 18 + 2, 3, 0, 0x08004000, 64, 0, 0⟩
   let n : Nat := 1
   let e : State := s.admitted q (.rmaRead d)
   s.admits q (.rmaRead d) = true ∧ q.src = .ring n ∧ rmaFieldsOk (.rmaRead d) d = true ∧ (∀ k, e.connOf d.conn = some k → k.domain ≠ q.hdr.domain)) ∧
  (let s : State := { sentRma with net := { sentRma.net with outbound := [ob0] } }
   let cn : Nat := 2
   let id : Nat := 5
   let st : Nat := stOk
   let c0 : Nat := 64
   let c1 : Nat := 0
   let data : List Byte := List.replicate 64 7
   let k : Conn := conn2
   let o : Outbound := ob0
   let c : Cmd := cmdOf (.rmaRead ⟨2 ^ 18 + 2, 3, 0, 0x08004000, 64, 0, 0⟩) .remote
   s.running = true ∧ s.conn cn = some k ∧ s.outboundOf (connId k) id = some o ∧ o.abandoned = false ∧ o.peer = none ∧ o.who = .cmd c.id ∧ s.cmd c.id = some c) ∧
  (let s : State := { sentRma with net := { sentRma.net with outbound := [{ ob0 with abandoned := true }] } }
   let cn : Nat := 2
   let id : Nat := 5
   let st : Nat := stOk
   let c0 : Nat := 64
   let c1 : Nat := 0
   let data : List Byte := List.replicate 64 7
   let k : Conn := conn2
   let o : Outbound := { ob0 with abandoned := true }
   s.running = true ∧ s.conn cn = some k ∧ s.outboundOf (connId k) id = some o ∧ o.abandoned = true ∧ o.peer = none) :=
  .intro (by decide +kernel) <| .intro (by decide +kernel) <| .intro (by decide +kernel) <| .intro (by decide +kernel) <| .intro (by decide +kernel) <| .intro (by decide +kernel) <| .intro (by decide +kernel) <| by decide +kernel

/-- States and operands that meet the hypotheses of PeerOperationsAreServed, clause by clause. -/
theorem witness_peer_operations_are_served :
  (let s : State := withRegion reg0
   let q : Req := { qConn with data := List.replicate 64 9 }
   let d : RmaD := ⟨0xFFFFFF, 65536, 8, 0, 64, 0, 0⟩
   let cn : Nat := 2
   let m : Nat := 0
   let i : Nat := 0
   let g : Region := reg0
   let e : State := s.admitted q (.rmaWrite d)
   s.admits q (.rmaWrite d) = true ∧ q.src = .conn cn m ∧ rmaFieldsOk (.rmaWrite d) d = true ∧ d.conn = 0xFFFFFF ∧ d.localAddr = 0 ∧ q.data.length = d.length ∧ e.targetCheck q.hdr.domain (some ((e.conn cn).elim cn connId)) 1 d.handle d.offset d.length = stOk ∧ e.byHandle d.handle = some (i, g) ∧ g.chunks.Nodup ∧ (∀ p ∈ g.chunks, p.2 < 32768) ∧ (g.kind ≠ 0 → g.length ≤ g.chunks.length * 65536) ∧ e.mem.wf = true) ∧
  (let s : State := withRegion reg0
   let q : Req := qConn
   let d : RmaD := ⟨0xFFFFFF, 65536, 8, 0, 64, 0, 0⟩
   let cn : Nat := 2
   let m : Nat := 0
   let i : Nat := 0
   let g : Region := reg0
   let e : State := s.admitted q (.rmaRead d)
   s.admits q (.rmaRead d) = true ∧ q.src = .conn cn m ∧ rmaFieldsOk (.rmaRead d) d = true ∧ d.conn = 0xFFFFFF ∧ d.localAddr = 0 ∧ e.targetCheck q.hdr.domain (some ((e.conn cn).elim cn connId)) 0 d.handle d.offset d.length = stOk ∧ e.byHandle d.handle = some (i, g) ∧ (e.regionRead g d.offset d.length).2.2 = false) ∧
  (let s : State := withRegion reg0
   let q : Req := qConn
   let d : RmaD := ⟨0xFFFFFF, 65536, 8, 0, 64, 0, 0⟩
   let cn : Nat := 2
   let m : Nat := 0
   let i : Nat := 0
   let g : Region := reg0
   let e : State := s.admitted q (.rmaRead d)
   s.admits q (.rmaRead d) = true ∧ q.src = .conn cn m ∧ rmaFieldsOk (.rmaRead d) d = true ∧ d.conn = 0xFFFFFF ∧ d.localAddr = 0 ∧ e.targetCheck q.hdr.domain (some ((e.conn cn).elim cn connId)) 0 d.handle d.offset d.length = stOk ∧ e.byHandle d.handle = some (i, g)) ∧
  (let s : State := { withRegion reg0 with mem := [(rackAddr 0 (3 * 65536 + 8), 7)] }
   let q : Req := qConn
   let d : RmaD := ⟨0xFFFFFF, 65536, 8, 0, 8, 3, 0⟩
   let cn : Nat := 2
   let m : Nat := 0
   let i : Nat := 0
   let g : Region := reg0
   let e : State := s.admitted q (.rmaAdd d)
   s.admits q (.rmaAdd d) = true ∧ q.src = .conn cn m ∧ rmaFieldsOk (.rmaAdd d) d = true ∧ d.conn = 0xFFFFFF ∧ e.targetCheck q.hdr.domain (some ((e.conn cn).elim cn connId)) 2 d.handle d.offset 8 = stOk ∧ e.byHandle d.handle = some (i, g) ∧ (e.regionRead g d.offset 8).2.2 = false ∧ e.mem.wf = true) ∧
  (let s : State := { withRegion reg0 with mem := [(rackAddr 0 (3 * 65536 + 8), 7)] }
   let q : Req := qConn
   let d : RmaD := ⟨0xFFFFFF, 65536, 8, 0, 8, 3, 7⟩
   let cn : Nat := 2
   let m : Nat := 0
   let i : Nat := 0
   let g : Region := reg0
   let e : State := s.admitted q (.rmaCas d)
   s.admits q (.rmaCas d) = true ∧ q.src = .conn cn m ∧ rmaFieldsOk (.rmaCas d) d = true ∧ d.conn = 0xFFFFFF ∧ e.targetCheck q.hdr.domain (some ((e.conn cn).elim cn connId)) 2 d.handle d.offset 8 = stOk ∧ e.byHandle d.handle = some (i, g) ∧ (e.regionRead g d.offset 8).2.2 = false ∧ e.mem.wf = true) ∧
  (let s : State := withRegion reg0
   let q : Req := qConn
   let d : RmaD := ⟨0xFFFFFF, 0, 0, 0, 0, 0, 0⟩
   let cn : Nat := 2
   let m : Nat := 0
   let e : State := s.admitted q (.rmaFlush d)
   s.admits q (.rmaFlush d) = true ∧ q.src = .conn cn m ∧ rmaFieldsOk (.rmaFlush d) d = true ∧ d.conn = 0xFFFFFF) ∧
  (let s : State := withRegion reg0
   let q : Req := { qConn with data := List.replicate 64 9 }
   let d : RmaD := ⟨0xFFFFFF, 65536, 65536, 0, 64, 0, 0⟩
   let cn : Nat := 2
   let m : Nat := 0
   let st : Nat := stAccess
   let e : State := s.admitted q (.rmaWrite d)
   s.admits q (.rmaWrite d) = true ∧ q.src = .conn cn m ∧ rmaFieldsOk (.rmaWrite d) d = true ∧ d.conn = 0xFFFFFF ∧ d.localAddr = 0 ∧ e.targetCheck q.hdr.domain (some ((e.conn cn).elim cn connId)) 1 d.handle d.offset d.length = st ∧ st ≠ stOk) ∧
  (let s : State := { withRegion reg0 with net := { (withRegion reg0).net with notices := [((65536, 0x20), ⟨0x11, 2, 0, 0, 5⟩)] } }
   let h : Nat := 65536
   let st : Nat := 0x20
   let n : Notice := ⟨0x11, 2, 0, 0, 5⟩
   s.running = true ∧ AL.get (h, st) s.net.notices = some n ∧ n.till ≤ s.nrt ∧ n.count = 0) ∧
  (let s : State := { (withRegion reg0).setRing 1 { Ring.blank with st := .lost } with net := { (withRegion reg0).net with notices := [((65536, 0x20), ⟨0x11, 2, 4, 3, 5⟩)] } }
   let h : Nat := 65536
   let st : Nat := 0x20
   let i : Nat := 0
   let n : Notice := ⟨0x11, 2, 4, 3, 5⟩
   let g : Region := reg0
   s.running = true ∧ AL.get (h, st) s.net.notices = some n ∧ n.till ≤ s.nrt ∧ n.count ≠ 0 ∧ s.byHandle h = some (i, g) ∧ s.noticeRoom g.notify = false) ∧
  (let s : State := { withRegion reg0 with net := { (withRegion reg0).net with notices := [((65536, 0x20), ⟨0x11, 2, 4, 3, 5⟩)] } }
   let h : Nat := 65536
   let st : Nat := 0x20
   let i : Nat := 0
   let n : Notice := ⟨0x11, 2, 4, 3, 5⟩
   let g : Region := reg0
   s.running = true ∧ AL.get (h, st) s.net.notices = some n ∧ n.till ≤ s.nrt ∧ n.count ≠ 0 ∧ s.byHandle h = some (i, g) ∧ s.noticeRoom g.notify = true ∧ s.mem.wf = true) :=
  .intro (by decide +kernel) <| .intro (by decide +kernel) <| .intro (by decide +kernel) <| .intro (by decide +kernel) <| .intro (by decide +kernel) <| .intro (by decide +kernel) <| .intro (by decide +kernel) <| .intro (by decide +kernel) <| .intro (by decide +kernel) <| by decide +kernel

/-- States and operands that meet the hypotheses of WaitsEndOrTimeOut, clause by clause. -/
theorem witness_waits_end_or_time_out :
  (let s : State := twoRings
   let q : Req := qRing
   let d : WaitCountD := ⟨0, 0, 7, 0⟩
   let n : Nat := 1
   let r : Result := { status := stOk, c0 := 7 }
   let e : State := s.admitted q (.waitCount d)
   s.admits q (.waitCount d) = true ∧ q.src = .ring n ∧ e.watchOk n d = true ∧ e.countResult q.hdr d (if q.hdr.flag 1 then (e.ring d.watch).done + BitVec.ofNat 64 d.target else BitVec.ofNat 64 d.target)
      (e.ring d.watch).fail = some r) ∧
  (let s : State := twoRings
   let q : Req := { qRing with hdr := { hdr5 with flags := 2 } }
   let d : WaitCountD := ⟨0, 0, 1, 0⟩
   let n : Nat := 1
   let e : State := s.admitted q (.waitCount d)
   let x : DWord := (if q.hdr.flag 1 then (e.ring d.watch).done + BitVec.ofNat 64 d.target else BitVec.ofNat 64 d.target)
   s.admits q (.waitCount d) = true ∧ q.src = .ring n ∧ e.watchOk n d = true ∧ (e.ring d.watch).done.toNat < x.toNat) ∧
  (let s : State := twoRings
   let q : Req := qRing
   let d : WaitCountD := ⟨1, 0, 1, 0⟩
   let n : Nat := 1
   let e : State := s.admitted q (.waitCount d)
   s.admits q (.waitCount d) = true ∧ q.src = .ring n ∧ e.watchOk n d = false) ∧
  (let s : State := { twoRings with cmds := { on.cmds with list := [cmdOf (.waitCount ⟨0, 0, 7, 0⟩) (.count 7 1 0)] } }
   let id : Nat := 9
   let till : Nat := 0
   let c : Cmd := cmdOf (.waitCount ⟨0, 0, 7, 0⟩) (.count 7 1 0)
   let d : WaitCountD := ⟨0, 0, 7, 0⟩
   let x : DWord := 7
   let f0 : DWord := 1
   s.running = true ∧ s.cmd id = some c ∧ c.op = .waitCount d ∧ c.wait = .count x f0 till ∧ c.hdr.flag 0 = false ∧ x.toNat ≤ (s.ring d.watch).done.toNat) ∧
  (let s : State := { twoRings with cmds := { on.cmds with list := [{ cmdOf (.waitCount ⟨0, 0, 7, 0⟩) (.count 7 0 0) with hdr := { hdr5 with flags := 1 } }] } }
   let id : Nat := 9
   let till : Nat := 0
   let c : Cmd := { cmdOf (.waitCount ⟨0, 0, 7, 0⟩) (.count 7 0 0) with hdr := { hdr5 with flags := 1 } }
   let d : WaitCountD := ⟨0, 0, 7, 0⟩
   let x : DWord := 7
   let f0 : DWord := 0
   s.running = true ∧ s.cmd id = some c ∧ c.op = .waitCount d ∧ c.wait = .count x f0 till ∧ c.hdr.flag 0 = true ∧ x.toNat ≤ (s.ring d.watch).done.toNat ∧ f0.toNat < (s.ring d.watch).fail.toNat) ∧
  (let s : State := withRegion reg0
   let q : Req := qRing
   let d : WaitWordD := wordD
   let n : Nat := 1
   let i : Nat := 0
   let g : Region := reg0
   let e : State := s.admitted q (.waitWord d)
   s.admits q (.waitWord d) = true ∧ q.src = .ring n ∧ d.cond ≤ 3 ∧ d.offset % 8 = 0 ∧ d.timeoutUs ≠ 0 ∧ d.timeoutUs ≤ e.waitMax ∧ e.targetCheck q.hdr.domain none 0 d.handle d.offset 8 = stOk ∧ e.byHandle d.handle = some (i, g) ∧ wordMeets d (e.regionWord g d.offset) = true ∧ (e.regionRead g d.offset 8).2.2 = false) ∧
  (let s : State := withRegion reg0
   let q : Req := qRing
   let d : WaitWordD := { wordD with value := 5 }
   let n : Nat := 1
   let i : Nat := 0
   let g : Region := reg0
   let e : State := s.admitted q (.waitWord d)
   let u : State := (e.regionRead g d.offset 8).1
   s.admits q (.waitWord d) = true ∧ q.src = .ring n ∧ d.cond ≤ 3 ∧ d.offset % 8 = 0 ∧ d.timeoutUs ≠ 0 ∧ d.timeoutUs ≤ e.waitMax ∧ e.targetCheck q.hdr.domain none 0 d.handle d.offset 8 = stOk ∧ e.byHandle d.handle = some (i, g) ∧ wordMeets d (e.regionWord g d.offset) = false ∧ (e.regionRead g d.offset 8).2.2 = false) ∧
  (let s : State := { withRegion { reg0 with drain := 1 } with cmds := { on.cmds with list := [cmdOf (.waitWord wordD) (.word 0 (some 5))] } }
   let id : Nat := 9
   let till : Nat := 0
   let i : Nat := 0
   let c : Cmd := cmdOf (.waitWord wordD) (.word 0 (some 5))
   let d : WaitWordD := wordD
   let w : DWord := 5
   let g : Region := { reg0 with drain := 1 }
   s.running = true ∧ s.cmd id = some c ∧ c.op = .waitWord d ∧ c.wait = .word till (some w) ∧ s.byHandle d.handle = some (i, g)) ∧
  (let s : State := { withRegion { reg0 with drain := 1 } with cmds := { on.cmds with list := [cmdOf (.waitWord wordD) (.word 5 none)] } }
   let id : Nat := 9
   let till : Nat := 5
   let i : Nat := 0
   let c : Cmd := cmdOf (.waitWord wordD) (.word 5 none)
   let d : WaitWordD := wordD
   let g : Region := { reg0 with drain := 1 }
   s.running = true ∧ s.cmd id = some c ∧ c.op = .waitWord d ∧ c.wait = .word till none ∧ till ≤ s.nrt ∧ s.byHandle d.handle = some (i, g)) ∧
  (let s : State := { twoRings with cmds := { on.cmds with list := [cmdOf (.waitCount ⟨0, 0, 9, 1⟩) (.count 9 1 5)] } }
   let id : Nat := 9
   let till : Nat := 5
   let c : Cmd := cmdOf (.waitCount ⟨0, 0, 9, 1⟩) (.count 9 1 5)
   let d : WaitCountD := ⟨0, 0, 9, 1⟩
   let x : DWord := 9
   let f0 : DWord := 1
   s.running = true ∧ s.cmd id = some c ∧ c.op = .waitCount d ∧ c.wait = .count x f0 till ∧ till ≠ 0 ∧ till ≤ s.nrt ∧ s.countResult c.hdr d x f0 = none) :=
  .intro (by decide +kernel) <| .intro (by decide +kernel) <| .intro (by decide +kernel) <| .intro (by decide +kernel) <| .intro (by decide +kernel) <| .intro (by decide +kernel) <| .intro (by decide +kernel) <| .intro (by decide +kernel) <| .intro (by decide +kernel) <| by decide +kernel

/-- States and operands that meet the hypotheses of RegionsComeAndGo, clause by clause. -/
theorem witness_regions_come_and_go :
  (let s : State := ringed
   let q : Req := qRing
   let a : RegisterD := { registerD with kind := 0, base := 0x08004000, length := 4096 }
   let i : Nat := 0
   let e : State := s.admitted q (.regionRegister a)
   s.admits q (.regionRegister a) = true ∧ e.registerRefusal q.hdr.domain q.src a = none ∧ a.kind = 0 ∧ e.regionCount < 65536 ∧ e.regionsOf q.hdr.domain < (e.regI pgXprt 0x18C q.hdr.domain).toNat % 2 ^ 17 ∧ i = firstFree ((e.net.regions.filter (fun p => p.2.st != .free)).map (fun p => p.1))) ∧
  (let s : State := ringed
   let q : Req := qRing
   let a : RegisterD := registerD
   let i : Nat := 0
   let e : State := s.admitted q (.regionRegister a)
   let v : State := match e.regionChunks 5 (e.partOf 3) i 1 with | some p => p.1 | none => e
   let l : List (Nat × Nat) := match e.regionChunks 5 (e.partOf 3) i 1 with | some p => p.2 | none => []
   s.admits q (.regionRegister a) = true ∧ e.registerRefusal q.hdr.domain q.src a = none ∧ a.kind = 1 ∧ e.regionCount < 65536 ∧ e.regionsOf q.hdr.domain < (e.regI pgXprt 0x18C q.hdr.domain).toNat % 2 ^ 17 ∧ i = firstFree ((e.net.regions.filter (fun p => p.2.st != .free)).map (fun p => p.1)) ∧ e.regionChunks q.hdr.domain (e.partOf q.hdr.context) i (ceilDiv a.length 65536) = some (v, l) ∧ e.mem.wf = true) ∧
  (let s : State := { ringed with net := withConn.net }
   let q : Req := qRing
   let a : RegisterD := { registerD with kind := 2, peerIndex := 255, bindConn := 2 ^ 18 + 2, peerHandle := 9 }
   let k : Conn := conn2
   let e : State := s.admitted q (.regionRegister a)
   s.admits q (.regionRegister a) = true ∧ e.registerRefusal q.hdr.domain q.src a = none ∧ a.kind = 2 ∧ e.peerConnOf q.src a.bindConn = some k) ∧
  (let s : State := ringed.setRegI pgXprt 0x18C 5 0
   let q : Req := qRing
   let a : RegisterD := registerD
   let e : State := s.admitted q (.regionRegister a)
   s.admits q (.regionRegister a) = true ∧ e.registerRefusal q.hdr.domain q.src a = none ∧ a.kind ≠ 2 ∧ (65536 ≤ e.regionCount ∨ (e.regI pgXprt 0x18C q.hdr.domain).toNat % 2 ^ 17 ≤ e.regionsOf q.hdr.domain)) ∧
  (let s : State := withRegion { reg0 with drain := 1 }
   let q : Req := qRing
   let a : RevokeD := ⟨0, 65536⟩
   let i : Nat := 0
   let g : Region := { reg0 with drain := 1 }
   let e : State := s.admitted q (.regionRevoke a)
   (s.admits q (.regionRevoke a) = true ∧ q.hdr.flag 0 = false ∧ a.peerIndex = 0 ∧ e.byHandle a.handle = some (i, g) ∧ g.domain = q.hdr.domain ∧ g.st = .active ∧ g.drain ≠ 0) ∧ (∀ x ∈ e.cmds.list, ∀ d, x.op = .waitWord d → d.handle ≠ a.handle)) ∧
  (let s : State := withRegion reg0
   let q : Req := qRing
   let a : RevokeD := ⟨0, 65536⟩
   let i : Nat := 0
   let g : Region := reg0
   let e : State := s.admitted q (.regionRevoke a)
   (s.admits q (.regionRevoke a) = true ∧ q.hdr.flag 0 = false ∧ a.peerIndex = 0 ∧ e.byHandle a.handle = some (i, g) ∧ g.domain = q.hdr.domain ∧ g.st = .active ∧ g.drain = 0) ∧ (∀ x ∈ e.cmds.list, ∀ d, x.op = .waitWord d → d.handle ≠ a.handle)) ∧
  (let s : State := withRegion reg0
   let q : Req := qRing
   let a : RevokeD := ⟨0, 65537⟩
   let e : State := s.admitted q (.regionRevoke a)
   s.admits q (.regionRevoke a) = true ∧ q.hdr.flag 0 = false ∧ a.peerIndex = 0 ∧ e.byHandle a.handle = none) ∧
  (let s : State := { withRegion { reg0 with st := .revoking } with cmds := { on.cmds with list := [cmdOf (.regionRevoke ⟨0, 65536⟩) .drain] } }
   let h : Nat := 65536
   let i : Nat := 0
   let g : Region := { reg0 with st := .revoking }
   s.running = true ∧ s.byHandle h = some (i, g) ∧ g.st = .revoking ∧ g.drain = 0) ∧
  (let s : State := { ringed with net := { withConn.net with peers := [((5, 9), peer0)] }, cmds := { on.cmds with list := [cmdOf (.regionRevoke ⟨9, 0⟩) .drain] } }
   let d : Nat := 5
   let i : Nat := 9
   let p : PeerEntry := peer0
   s.running = true ∧ s.peer d i = some p ∧ p.st = .revoking ∧ p.drain = 0) :=
  .intro (by decide +kernel) <| .intro (by decide +kernel) <| .intro (by decide +kernel) <| .intro (by decide +kernel) <| .intro ⟨by decide +kernel, (by intro x hx d h; cases hx with | head => cases h | tail _ k => cases k)⟩ <| .intro ⟨by decide +kernel, (by intro x hx d h; cases hx with | head => cases h | tail _ k => cases k)⟩ <| .intro (by decide +kernel) <| .intro (by decide +kernel) <| by decide +kernel

/-- States and operands that meet the hypotheses of SequencesAreSavedAndMoved, clause by clause. -/
theorem witness_sequences_are_saved_and_moved :
  (let s : State := saving
   let q : Req := qRing
   let a : ExportD := expD
   let e : State := s.admitted q (.ckptExport a)
   let r : SeqRec := seqF
   let p : PeerEntry := { peer0 with st := .active, length := 1048576 }
   let l : List (Nat × ExportWay) := (e.pageList q.hdr.domain r (e.shape q.hdr.domain r.shapeId) (q.hdr.flag 0)).1
   let o : List (Nat × ExportWay × Nat) × Nat × Nat := e.layObjects (e.shape q.hdr.domain r.shapeId) r a.storeOffset l
   s.admits q (.ckptExport a) = true ∧ e.intact q.hdr.domain (.ckptExport a) = true ∧ e.exportRefusal q.hdr.domain a.seq a.peerIndex = none ∧ e.seqRec q.hdr.domain a.seq = some r ∧ e.peer q.hdr.domain a.peerIndex = some p ∧ o.2.2 * 4096 ≤ p.length) ∧
  (let s : State := { saving with net := { saving.net with peers := [((5, 9), { peer0 with st := .active })] } }
   let q : Req := qRing
   let a : ExportD := expD
   let e : State := s.admitted q (.ckptExport a)
   let r : SeqRec := seqF
   let p : PeerEntry := { peer0 with st := .active }
   let l : List (Nat × ExportWay) := (e.pageList q.hdr.domain r (e.shape q.hdr.domain r.shapeId) (q.hdr.flag 0)).1
   let o : List (Nat × ExportWay × Nat) × Nat × Nat := e.layObjects (e.shape q.hdr.domain r.shapeId) r a.storeOffset l
   s.admits q (.ckptExport a) = true ∧ e.intact q.hdr.domain (.ckptExport a) = true ∧ e.exportRefusal q.hdr.domain a.seq a.peerIndex = none ∧ e.seqRec q.hdr.domain a.seq = some r ∧ e.peer q.hdr.domain a.peerIndex = some p ∧ p.length < o.2.2 * 4096) ∧
  (let s : State := ringOn full
   let q : Req := qRing
   let a : ExportD := expD
   let x : Result := { status := stRegionRevoked }
   let e : State := s.admitted q (.ckptExport a)
   s.admits q (.ckptExport a) = true ∧ e.hasRecords q.hdr.domain (.ckptExport a) = true ∧ e.exportRefusal q.hdr.domain a.seq a.peerIndex = some x) ∧
  (let s : State := withJob jobS (.ckptExport expD) .exporting
   let i : Nat := 1
   let j : Job := jobS
   let c : Cmd := cmdOf (.ckptExport expD) .exporting
   let r : SeqRec := seqF
   s.running = true ∧ s.jobRec i = some j ∧ j.id = i ∧ j.kind = .store ∧ s.jobOps i = [] ∧ j.manifest = [] ∧ j.placed = false ∧ s.cmd j.cmd = some c ∧ s.seqRec j.domain j.seq = some r ∧ (j.pages.map (·.frame)).Nodup ∧ (∀ p ∈ j.pages, (s.page p.frame).share ≠ 0)) ∧
  (let s : State := { saving with kv := { saving.kv with seqs := [((5, 1), { seqF with st := .parked })], frames := [(0, { fr0 with cur := { pg0 with fCkptCurrent := true, ckptObj := 77 }, rack := { pg0 with fCkptCurrent := true, ckptObj := 77 } })] }, ckpt := ⟨2, [(1, { jobS with kind := .overflow, cmd := 0, placed := true })], [(5, ⟨1, [], 1⟩)]⟩ }
   let i : Nat := 1
   let j : Job := { jobS with kind := .overflow, cmd := 0, placed := true }
   let o : Overflow := ⟨1, [], 1⟩
   let l : List (Nat × Nat) := [(256, 0)]
   s.running = true ∧ s.jobRec i = some j ∧ j.kind = .overflow ∧ j.placed = true ∧ AL.get j.domain s.ckpt.overflow = some o ∧ l = s.releasable j ∧ (o.need ≤ l.length ∨ o.todo = []) ∧ (l.map (·.1)).Nodup ∧ (l.map (·.2)).Nodup) ∧
  (let s : State := saving
   let q : Req := qRing
   let a : ImportD := impD
   let m : Manifest := manif
   let e : State := s.admitted q (.ckptImport a)
   let r : SeqRec := { manif.seqRec with st := .active, baseVpn := 512 }
   let bs : List Byte := match e.input q.src q.hdr.domain a.dataAddr (a.nEnv * 256) q.data with | .ok b => b | _ => []
   let v : State := (e.importMap 5 3 a m r).getD e
   (s.admits q (.ckptImport a) = true ∧ s.cmds.list.find? (fun c => c.src == q.src && c.hdr == q.hdr && c.op == .ckptImport a && c.wait == .remote) = none ∧ e.jobOfCmd (s.newCmd q (.ckptImport a) false).id = none ∧ r = { m.seqRec with
      st := if q.hdr.flag 1 then .parked else .active
      baseVpn := if a.baseVpn = 0xFFFFFFFF then m.seqRec.baseVpn else a.baseVpn
      parkTime := if q.hdr.flag 1 then BitVec.ofNat 64 s.nrt else m.seqRec.parkTime } ∧ e.importRefusal q.hdr.domain a m r = none ∧ e.importMap q.hdr.domain q.hdr.context a m r = some v ∧ q.hdr.flag 0 = false ∧ openVpns r (e.shape q.hdr.domain r.shapeId) = [] ∧ (m.pages.map (fun x => x.1 - m.seqRec.baseVpn + r.baseVpn)).Nodup) ∧ e.input q.src q.hdr.domain a.dataAddr (a.nEnv * 256) q.data = .ok bs) ∧
  (let s : State := saving
   let q : Req := qRing
   let a : ImportD := impD
   let m : Manifest := { manif with status := stAuthFailed }
   let e : State := s.admitted q (.ckptImport a)
   let bs : List Byte := match e.input q.src q.hdr.domain a.dataAddr (a.nEnv * 256) q.data with | .ok b => b | _ => []
   (s.admits q (.ckptImport a) = true ∧ s.cmds.list.find? (fun c => c.src == q.src && c.hdr == q.hdr && c.op == .ckptImport a && c.wait == .remote) = none ∧ e.jobOfCmd (s.newCmd q (.ckptImport a) false).id = none ∧ 1 ≤ a.nEnv ∧ a.nEnv ≤ 16 ∧ (e.peer q.hdr.domain a.peerIndex).any (fun p => p.st == .active && bitOf p.rights 0) = true ∧ m.status = stAuthFailed) ∧ e.input q.src q.hdr.domain a.dataAddr (a.nEnv * 256) q.data = .ok bs) ∧
  (let s : State := saving
   let q : Req := qRing
   let a : MigrateD := migD
   let e : State := s.admitted q (.seqMigrate a)
   let r : SeqRec := seqF
   let k : Conn := conn2
   let l : List (Nat × Pte) := [(256, pte0)]
   s.admits q (.seqMigrate a) = true ∧ e.intact q.hdr.domain (.seqMigrate a) = true ∧ e.seqRec q.hdr.domain a.seq = some r ∧ lifeRefusal false (some r) = none ∧ e.connOf a.conn = some k ∧ k.domain = q.hdr.domain ∧ l = (e.seqPtes q.hdr.domain r (e.shape q.hdr.domain r.shapeId)).filter (fun x => x.2.st != .invalid && x.2.st != .peer) ∧ l ≠ [] ∧ (∀ x ∈ l, e.walkLost q.hdr.domain x.1 = false ∧ x.2.st ≠ .ckpt ∧ x.2.poison = false ∧ (e.page x.2.loc).st ≠ .poisoned)) ∧
  (let s : State := withJob jobM (.seqMigrate migD) .migration
   let i : Nat := 1
   let v : Nat := 256
   let j : Job := jobM
   let p : JobPage := jpage
   s.running = true ∧ s.jobRec i = some j ∧ j.id = i ∧ j.kind = .migrate ∧ j.pages.find? (fun x => x.vpn == v && !x.acked) = some p ∧ j.pages.all (fun x => x.acked || x.vpn == v) = false ∧ (s.page p.frame).st ≠ .poisoned) ∧
  (let s : State := withJob { jobM with pages := [jpage] } (.seqMigrate migD) .migration
   let i : Nat := 1
   let v : Nat := 256
   let j : Job := { jobM with pages := [jpage] }
   let p : JobPage := jpage
   let r : SeqRec := seqF
   let c : Cmd := cmdOf (.seqMigrate migD) .migration
   s.running = true ∧ s.jobRec i = some j ∧ j.id = i ∧ j.kind = .migrate ∧ j.pages.find? (fun x => x.vpn == v && !x.acked) = some p ∧ j.pages.all (fun x => x.acked || x.vpn == v) = true ∧ s.seqRec j.domain j.seq = some r ∧ s.cmd j.cmd = some c ∧ s.jobOps i = []) ∧
  (let s : State := { saving with kv := { saving.kv with seqs := [] } }
   let conn : Nat := 2
   let msgId : Nat := 4
   let d : Nat := 5
   let k : Nat := 1
   let r : SeqRec := seqF
   let PP := (s.walkChannels ((k * 0x9E37 + d) % 384) none).findSome? (fun x => (s.allocMeta x d (r.recordBytes / 2048)).map (fun y => (y.1, x, y.2)))
   let v : State := match PP with | some x => x.1 | none => s
   let c : Nat := match PP with | some x => x.2.1 | none => 0
   let half : Nat := match PP with | some x => x.2.2 | none => 0
   s.running = true ∧ s.nodeFenced = false ∧ s.seqRec d k = none ∧ s.rangeOk d r.baseVpn (rangeLen r.layers r.kvHeads r.pmaxLog2 (s.shape d r.shapeId)) r.pmaxLog2 = true ∧ shapeValid (s.shapeW d r.shapeId) = true ∧ s.rused d + r.recordBytes / 256 ≤ s.rquota d ∧ (s.walkChannels ((k * 0x9E37 + d) % 384) none).findSome? (fun x => (s.allocMeta x d (r.recordBytes / 2048)).map (fun y => (y.1, x, y.2))) =
      some (v, c, half)) ∧
  (let s : State := saving
   let conn : Nat := 2
   let msgId : Nat := 4
   let d : Nat := 5
   let k : Nat := 1
   let r : SeqRec := seqF
   s.running = true ∧ s.nodeFenced = false) ∧
  (let s : State := saving
   let conn : Nat := 2
   let msgId : Nat := 4
   let d : Nat := 5
   let k : Nat := 1
   let v : Nat := 256
   let r : SeqRec := seqF
   let p : Page := pg0
   s.running = true ∧ s.nodeFenced = false ∧ s.seqRec d k = some r) ∧
  (let s : State := saving
   let conn : Nat := 2
   let msgId : Nat := 4
   let d : Nat := 5
   let k : Nat := 1
   let n : Nat := 257
   let r : SeqRec := seqF
   let p : Page := pg0
   let RR := s.reserve d none [⟨n, frameStart k (placeOf r (s.shape d r.shapeId) n).layer (placeOf r (s.shape d r.shapeId) n).hg (hgOf r (s.shape d r.shapeId)) (placeOf r (s.shape d r.shapeId) n).k, none, true, if p.fPacked then (s.shape d r.shapeId).slotBytes else 0⟩]
   let v : State := match RR with | .ok p => p.1 | _ => s
   let g : Got := match RR with | .ok p => p.2.headD ⟨0, 0, 0, 0⟩ | _ => ⟨0, 0, 0, 0⟩
   let gs : List Got := match RR with | .ok p => p.2.tail | _ => []
   (s.running = true ∧ s.kv.codes = [] ∧ s.nodeFenced = false ∧ s.seqRec d k = some r ∧ (s.pte d n).st = .invalid ∧ (s.seqAt d n).map (·.1) = some k ∧ (p.fPacked = true → (s.shape d r.shapeId).slotBytes ≠ 0)) ∧ (s.reserve d none [⟨n, frameStart k (placeOf r (s.shape d r.shapeId) n).layer (placeOf r (s.shape d r.shapeId) n).hg
      (hgOf r (s.shape d r.shapeId)) (placeOf r (s.shape d r.shapeId) n).k, none, true,
      if p.fPacked then (s.shape d r.shapeId).slotBytes else 0⟩]) = .ok (v, g :: gs)) :=
  .intro (by decide +kernel) <| .intro (by decide +kernel) <| .intro (by decide +kernel) <| .intro (by decide +kernel) <| .intro (by decide +kernel) <| .intro ⟨by decide +kernel, rfl⟩ <| .intro ⟨by decide +kernel, rfl⟩ <| .intro (by decide +kernel) <| .intro (by decide +kernel) <| .intro (by decide +kernel) <| .intro (by decide +kernel) <| .intro (by decide +kernel) <| .intro (by decide +kernel) <| ⟨by decide +kernel, rfl⟩

/-- States and operands that meet the hypotheses of ControlCommandsAct, clause by clause. -/
theorem witness_control_commands_act :
  (let s : State := ringed
   let q : Req := qRing
   let n : Nat := 1
   s.admits q .nop = true ∧ q.src = .ring n ∧ q.hdr.suppressOk = false ∧ (s.ring n).st = .running ∧ (s.ring n).cqTail < s.cqSize n ∧ s.mem.wf = true) ∧
  (let s : State := ringed
   let q : Req := { qRing with hdr := { hdr5 with suppressOk := true } }
   let n : Nat := 1
   s.admits q .nop = true ∧ q.src = .ring n ∧ q.hdr.suppressOk = true ∧ (s.ring n).st = .running ∧ s.mem.wf = true) ∧
  (let s : State := withConn
   let q : Req := qConn
   let k : Nat := 2
   let m : Nat := 0
   let c : Conn := conn2
   s.admits q .nop = true ∧ q.src = .conn k m ∧ q.hdr.suppressOk = false ∧ s.nodeFenced = false ∧ s.conn k = some c) ∧
  (let s : State := { ringed with cmds := { on.cmds with nextId := 10, list := [cmdOf (.pageRead ⟨1, 0, 0, 1, 0, 64, 0x08000000, 64⟩) (.fills [(5, 256)] 0)] } }
   let q : Req := qRing
   let e : State := s.admitted q .fence
   s.admits q .fence = true ∧ e.fenceIds (s.newCmd q .fence false) ≠ []) ∧
  (let s : State := ringed
   let q : Req := qRing
   let e : State := s.admitted q .fence
   s.admits q .fence = true ∧ e.fenceIds (s.newCmd q .fence false) = []) ∧
  (let s : State := { ringed with cmds := { on.cmds with nextId := 10, list := [cmdOf (.pageRead ⟨1, 0, 0, 1, 0, 64, 0x08000000, 64⟩) (.fills [(5, 256)] 0)] } }
   let q : Req := { qRing with hdr := { hdr5 with tag := 1 } }
   let a : AbortD := ⟨0, 0xAB, 3, 0, 0⟩
   let e : State := s.admitted q (.abort a)
   (s.admits q (.abort a) = true ∧ a.scope ≤ 1 ∧ e.abortRefusal q.hdr q.src a = none ∧ (e.cmds.list.map (·.id)).Nodup) ∧ (∀ x ∈ s.cmds.list, e.covers a x = true → (∃ d, x.op = .append d) ∨ (∃ d, x.op = .pageRead d) ∨ (∃ d, x.op = .waitCount d) ∨ x.op = .fence) ∧ (∀ x ∈ s.cmds.list, ∀ st, x.wait ≠ .dying st)) ∧
  (let s : State := ringed
   let q : Req := qRing
   let a : AbortD := ⟨2, 0, 0, 6, 0⟩
   let x : Result := { status := stAccess }
   let e : State := s.admitted q (.abort a)
   s.admits q (.abort a) = true ∧ e.abortRefusal q.hdr q.src a = some x) ∧
  (let s : State := { ringOn withPage with eng := (runs frag0).eng, cmds := { on.cmds with nextId := 10, list := [cmdOf (.attnFwd attnD0) .frags] } }
   let q : Req := qRing
   let a : AbortD := ⟨1, 0, 3, 0, 0⟩
   let x : Cmd := cmdOf (.attnFwd attnD0) .frags
   let d : AttnD := attnD0
   let j : AttnJob := job0 false
   let i : Nat := 4
   let en : Nat := 0
   let f : Frag := frag0
   let e : State := s.admitted q (.abort a)
   (s.admits q (.abort a) = true ∧ a.scope ≤ 1 ∧ e.abortRefusal q.hdr q.src a = none ∧ s.cmds.list = [x] ∧ e.covers a x = true ∧ x.op = .attnFwd d ∧ s.job x.id = some j ∧ j.cmd = x.id ∧ j.todo = [] ∧ s.eng.frags = [(i, f)] ∧ f.id = i ∧ f.cmd = x.id ∧ f.st = .running en) ∧ (∀ st, x.wait ≠ .dying st)) ∧
  (let s : State := { ringOn withPage with eng := { (runs { frag0 with st := .killing 0 }).eng with jobs := [(9, { job0 false with record := some part0 })] }, cmds := { on.cmds with nextId := 11, list := [cmdOf (.attnFwd attnD0) (.dying stAborted), { cmdOf (.abort ⟨1, 0, 3, 0, 0⟩) (.aborting [9] 5) with id := 10 }] } }
   let i : Nat := 9
   let n : Nat := 10
   let till : Nat := 5
   let k : Nat := 4
   let en : Nat := 0
   let st : Nat := stAborted
   let units : List Nat := [enginePage 0 0]
   let c : Cmd := { cmdOf (.abort ⟨1, 0, 3, 0, 0⟩) (.aborting [9] 5) with id := 10 }
   let x : Cmd := cmdOf (.attnFwd attnD0) (.dying stAborted)
   let d : AttnD := attnD0
   let j : AttnJob := { job0 false with record := some part0 }
   let f : Frag := { frag0 with st := .killing 0 }
   s.running = true ∧ s.kv.codes = [] ∧ s.cmd n = some c ∧ c.wait = .aborting [i] till ∧ till ≤ s.nrt ∧ i ≠ n ∧ s.cmd i = some x ∧ x.op = .attnFwd d ∧ x.wait = .dying st ∧ s.job i = some j ∧ j.cmd = i ∧ j.anchored = none ∧ j.record.isSome ∧ j.todo = [] ∧ s.eng.frags = [(k, f)] ∧ f.id = k ∧ f.cmd = i ∧ f.st = .killing en ∧ enginePage f.tile en ∈ units) ∧
  (let s : State := { ringed with cmds := { on.cmds with nextId := 11, list := [{ cmdOf (.abort ⟨1, 0, 3, 0, 0⟩) (.aborting [9] 1000000001) with id := 10 }] } }
   let n : Nat := 10
   let till : Nat := 1000000001
   let ids : List Nat := [9]
   let units : List Nat := []
   let c : Cmd := { cmdOf (.abort ⟨1, 0, 3, 0, 0⟩) (.aborting [9] 1000000001) with id := 10 }
   s.running = true ∧ s.cmd n = some c ∧ c.wait = .aborting ids till ∧ s.nrt < till) :=
  .intro (by decide +kernel) <| .intro (by decide +kernel) <| .intro (by decide +kernel) <| .intro (by decide +kernel) <| .intro (by decide +kernel) <| .intro ⟨by decide +kernel, (by intro x hx _; cases hx with | head => exact .inr (.inl ⟨_, rfl⟩) | tail _ k => cases k), (by intro x hx st; cases hx with | head => nofun | tail _ k => cases k)⟩ <| .intro (by decide +kernel) <| .intro ⟨by decide +kernel, nofun⟩ <| .intro (by decide +kernel) <| by decide +kernel

end Sys2Proof.Tests
end

section
/-!
SUPPORT. Power and node reference time: which commands may start the oscillator, what powers the node on, and the obligations on time
and on power.
-/

namespace Sys2Proof.Machine

variable {s t : State}

/-! ### Outcomes -/

/-- An effect that keeps the queue and node reference time is the outcome itself. -/
theorem State.did_of_keeps (hp : t.pending = s.pending) (hn : t.nrt = s.nrt) : s.did t = .next t := by
  simp [State.did, ← hp, ← hn]

/-- Every command but the two that power the node on leaves node reference time to `did`. -/
theorem exec_did (c : Instr) (hon : ∀ mv, c ≠ .powerOn mv) (hre : c ≠ .overvoltageReclose) (s : State) : ∃ u, exec c s = s.did u := by
  cases c
  case powerOn mv => exact absurd rfl (hon mv)
  case overvoltageReclose => exact absurd rfl hre
  all_goals exact ⟨_, rfl⟩

theorem exec_keeps_nrt {c : Instr} (hon : ∀ mv, c ≠ .powerOn mv) (hre : c ≠ .overvoltageReclose) (h : exec c s = .next t) :
    t.nrt = s.nrt := by
  obtain ⟨u, hu⟩ := exec_did c hon hre s
  rw [hu] at h
  rw [State.did_next h]

theorem exec_powerOn (mv : Nat) (s : State) : exec (.powerOn mv) s = s.didPower (s.powerOn mv) := rfl
theorem exec_overvoltageReclose (s : State) : exec .overvoltageReclose s = s.didPower s.overReclose := rfl
theorem exec_enAssert (s : State) : exec .enAssert s = s.did s.enAssert := rfl
theorem exec_enDeassert (s : State) : exec .enDeassert s = s.did s.enDeassert := rfl

/-- Two states that agree in every group are equal. -/
theorem State.eq_of_groups {s t : State} (h : s.pending = t.pending ∧ s.nrt = t.nrt ∧ s.fresh = t.fresh ∧ s.mem = t.mem ∧ s.rf = t.rf ∧
    s.host = t.host ∧ s.cmds = t.cmds ∧ s.net = t.net ∧ s.egress = t.egress ∧ s.kv = t.kv ∧ s.eng = t.eng ∧ s.lease = t.lease ∧
    s.sec = t.sec ∧ s.fw = t.fw ∧ s.integ = t.integ ∧ s.ckpt = t.ckpt ∧ s.pw = t.pw) : s = t := by
  cases s; cases t; simpa using h

/-! ### Start of a run -/

@[simp] theorem State.goUnleavened_st (s : State) (cause detail : Nat) : (s.goUnleavened cause detail).pw.st = .unleavened := by
  simp [State.goUnleavened]

/-- A run that begins is in boot step 1 or, where the failed-start count or FORCE asks for it, in UNLEAVENED. -/
theorem State.startRun_st (s : State) : s.startRun.pw.st = .starting ∨ s.startRun.pw.st = .unleavened :=
  iteInduction (motive := fun t : State => t.pw.st = .starting ∨ t.pw.st = .unleavened)
    (fun _ => .inr (State.goUnleavened_st ..))
    fun _ => iteInduction (motive := fun t : State => t.pw.st = .starting ∨ t.pw.st = .unleavened)
      (fun _ => .inr (State.goUnleavened_st ..)) fun _ => .inl (by simp)

/-- A run that the failed-start count lets begin, and FORCE does not stop: step 1, with the count raised (R485). -/
theorem State.startRun_counted (hf : s.pw.forced = false) (hc : s.pw.fails < bitsOf s.pw.scfg.toNat 0 3) :
    s.startRun.pw.st = .starting ∧ s.startRun.pw.step = 1 ∧ s.startRun.pw.en = s.pw.en ∧ s.startRun.pw.fails = s.pw.fails + 1 ∧
      s.startRun.fresh = s.fresh ∧ s.startRun.mem = s.mem ∧ s.startRun.rf = s.rf ∧ s.startRun.sec = s.sec ∧
      s.startRun.fw = { s.fw with bootCount := (s.fw.bootCount + 1) % 2 ^ 32 } := by
  simp [State.startRun, State.failLimit, hf, Nat.not_le.mpr hc]

theorem State.tryStart_st_ne_off (h : s.pw.st ≠ .off) : s.tryStart.pw.st ≠ .off := by
  unfold State.tryStart
  split
  · obtain h | h := ((s.setPw { s.pw with startAt := s.nrt }).startRun_st) <;> simp [h]
  · exact h

/-- Power-on has no effect, or gives power to a node that had none and starts node reference time (R9). -/
theorem State.powerOn_cases (s : State) (mv : Nat) :
    s.powerOn mv = s ∨ (s.pw.st = .off ∧ (s.powerOn mv).nrt = 0 ∧ (s.powerOn mv).pw.st ≠ .off) := by
  unfold State.powerOn
  split
  · exact .inl rfl
  · rename_i h
    refine .inr ⟨not_not.mp fun ho => h (.inl ho), by simp, State.tryStart_st_ne_off (by simp)⟩

theorem State.overReclose_cases (s : State) :
    s.overReclose.nrt = s.nrt ∨ (s.pw.st = .off ∧ s.overReclose.nrt = 0 ∧ s.overReclose.pw.st ≠ .off) := by
  unfold State.overReclose
  split
  · obtain h | h := (s.setPw { s.pw with overV := false }).powerOn_cases 52000
    · exact .inl (by rw [h]; rfl)
    · exact .inr h
  · exact .inl rfl

/-! ### Power applied, tripped and released -/

/-- A switch that closes on an input within range, with EN deasserted: STANDBY, and node reference time zero. -/
theorem State.powerOn_standby {mv : Nat} (hoff : s.pw.st = .off) (hlo : 36000 ≤ mv) (hhi : mv ≤ 56000) (hov : s.pw.overV = false)
    (hen : s.pw.en = false) :
    s.powerOn mv = { s with
      nrt := 0
      pw := { s.pw with st := .standby, latched := false, vin := mv, enAt := 0, stepAt := 0, lowerAt := 0, raiseAt := 0, tlowerAt := 0, locateTill := 0 } } := by
  simp [State.powerOn, State.tryStart, hoff, hov, hen, Nat.not_lt.mpr hlo, Nat.not_lt.mpr hhi]

theorem State.overReclose_latched (hoff : s.pw.st = .off) (hov : s.pw.overV = true) :
    s.overReclose = (s.setPw { s.pw with overV := false }).powerOn 52000 := if_pos ⟨hoff, hov⟩

/-- EN of a cool node in STANDBY begins a run. -/
theorem State.enAssert_starts (hst : s.pw.st = .standby) (hen : s.pw.en = false) (hcool : stage1 s.pw.temps = false) :
    s.enAssert = ({ s with pw := { s.pw with en := true, enAt := s.nrt, startAt := s.nrt } } : State).startRun := by
  simp [State.enAssert, State.tryStart, State.setPw, hst, hen, hcool]

/-- An orderly stop loses what the core rails hold; the boot count is in flash, and EN is an input (R478, R486). -/
theorem State.orderlyStop_lost (s : State) :
    s.orderlyStop.mem = [] ∧ s.orderlyStop.kv = .blank ∧ s.orderlyStop.lease = .blank ∧ s.orderlyStop.cmds = .blank ∧
      s.orderlyStop.fw.bootCount = s.fw.bootCount ∧ s.orderlyStop.pw.en = s.pw.en := by
  have hlanes (s : State) (q : Nat) : (s.recordLanes q).fw.bootCount = s.fw.bootCount := by
    unfold State.recordLanes
    dsimp only
    split <;> simp
  refine ⟨rfl, rfl, rfl, rfl, ?_, ?_⟩
  · refine (State.foldl_keeps (·.fw.bootCount) _ (fun s q => ?_) _ _).trans ?_
    · simp only [State.ite_fw]; split <;> simp [hlanes]
    · simp
  · refine (State.foldl_keeps (·.pw.en) _ (fun s q => ?_) _ _).trans ?_ <;> simp

/-- The release of EN is an orderly stop to STANDBY, unless the node is there or has no power. -/
theorem State.enDeassert_stops (hoff : s.pw.st ≠ .off) (hst : s.pw.st ≠ .standby) :
    ∃ u : State, u.pw.en = false ∧ u.fw = s.fw ∧ s.enDeassert = u.orderlyStop.setPw { u.orderlyStop.pw with
      st := .standby, step := if u.orderlyStop.pw.log.any (·.isOpen) then u.orderlyStop.pw.step else 0 } := by
  cases hen : s.pw.en
  · exact ⟨s, hen, rfl, by simp [State.enDeassert, hen, hoff, hst]⟩
  · exact ⟨s.setPw { s.pw with en := false, enAt := s.nrt }, rfl, rfl, by simp [State.enDeassert, hen, hoff, hst]⟩

/-! ### Ticks -/

theorem State.tick_off (h : s.pw.st = .off) : s.tick = s := by simp [State.tick, h]
theorem State.tick_pending (s : State) : s.tick.pending = s.pending := by
  unfold State.tick; split <;> rfl
theorem State.tick_nrt (s : State) : s.tick.nrt = s.nrt + (if s.pw.st = .off then 0 else 1) := by
  unfold State.tick; split <;> simp

end Sys2Proof.Machine

open Sys2Proof Sys2Proof.Machine

/-- Settles O2: a step on an empty queue is the tick. -/
theorem anEmptyQueueTicks : Obligations.AnEmptyQueueTicks := by
  refine ⟨fun s hq hoff => ?_, fun s hq hon => ⟨s.tick, step_nil hq, ?_, ?_⟩⟩
  · rw [step_nil hq, State.tick_off hoff]
  · rw [State.tick_pending, hq]
  · rw [State.tick_nrt, if_neg hon]

/-- Settles O4: `did` holds node reference time in every command but POWER_ON and OVERVOLTAGE_RECLOSE, and those start it from zero only
in a node that had no power. -/
theorem nodeReferenceTimeRunsFreely : Obligations.NodeReferenceTimeRunsFreely := by
  refine ⟨fun s t c rest hq h => ?_, fun s t hq h => ?_⟩
  · rw [step_cons hq] at h
    by_cases hon : ∃ mv, c = .powerOn mv
    · obtain ⟨mv, rfl⟩ := hon
      rw [exec_powerOn, State.didPower_eq] at h
      cases h
      obtain hk | hk := State.powerOn_cases { s with pending := rest } mv
      · exact .inl (by simp [hk])
      · obtain ⟨hoff, h0, hst⟩ := hk
        exact .inr ⟨h0, hoff, hst⟩
    · by_cases hre : c = .overvoltageReclose
      · subst hre
        rw [exec_overvoltageReclose, State.didPower_eq] at h
        cases h
        obtain hk | ⟨hoff, h0, hst⟩ := State.overReclose_cases { s with pending := rest }
        · exact .inl hk
        · exact .inr ⟨h0, hoff, hst⟩
      · exact .inl (exec_keeps_nrt (s := { s with pending := rest }) (fun mv e => hon ⟨mv, e⟩) hre h)
  · rw [step_nil hq] at h
    cases h
    exact s.tick_nrt

/-- Settles O12, event by event: the start is `startRun_counted`, the release of EN an orderly stop. -/
theorem powerComesAndGoes : Obligations.PowerComesAndGoes := by
  refine ⟨fun s mv hoff hlo hhi hov hen => ?_, fun s hoff hov hen => ?_, fun s cause => ?_, fun s hst hen hcool hf hc => ?_,
    fun s hoff hst => ?_⟩
  · rw [exec_powerOn, State.powerOn_standby hoff hlo hhi hov hen]
    exact ⟨_, rfl, rfl, rfl, rfl, rfl⟩
  · rw [exec_overvoltageReclose, State.overReclose_latched hoff hov,
      State.powerOn_standby (by exact hoff) (by decide) (by decide) rfl (by exact hen)]
    exact ⟨_, rfl, rfl, rfl, rfl, rfl⟩
  · refine ⟨_, rfl, ?_⟩
    and_intros <;> rfl
  · rw [exec_enAssert, State.enAssert_starts hst hen hcool]
    generalize hu : ({ s with pw := { s.pw with en := true, enAt := s.nrt, startAt := s.nrt } } : State) = u
    have hfu : u.pw.forced = false := by rw [← hu]; exact hf
    have hcu : u.pw.fails < bitsOf u.pw.scfg.toNat 0 3 := by rw [← hu]; exact hc
    obtain ⟨hst', hstep, hen', hfails, hfresh, hmem, hrf, hsec, hfw⟩ := State.startRun_counted hfu hcu
    rw [State.did_of_keeps (by simp [← hu]) (by simp [← hu])]
    subst hu
    refine ⟨_, rfl, hst', hstep, hen', hfails, by rw [hfw], hmem, State.eq_of_groups ?_⟩
    simp [hfresh, hmem, hrf, hsec, hfw]
  · obtain ⟨u, hen, hfw, hu⟩ := State.enDeassert_stops hoff hst
    obtain ⟨hmem, hkv, hlease, hcmds, hboot, hen'⟩ := u.orderlyStop_lost
    rw [exec_enDeassert, hu]
    exact ⟨_, rfl, rfl, hen'.trans hen, hmem, hkv, hlease, hcmds, rfl, rfl, hboot.trans (by rw [hfw])⟩

end

section
/-!
SUPPORT. Register accesses (R4 to R7, R25, R26, R32, R33, R35): what the write and the read of any register do, the pair rule, and the
obligation on them.
-/

namespace Sys2Proof.Machine

variable {s : State} {ag : Agent} {pg off : Nat}

/-! ### Addresses and words -/

@[simp] theorem w32_toNat (v : Word) : w32 v.toNat = v := by simp [w32]

theorem page_of_addr (h : off < 4096) : (pg * 4096 + off) / 4096 = pg := by omega
theorem offset_of_addr (h : off < 4096) : (pg * 4096 + off) % 4096 = off := by omega
theorem low_of_addr (h : off < 4096) (h4 : 4 ≤ off) : (pg * 4096 + off - 4) % 4096 = off - 4 := by omega

theorem State.mayWrite_elim (h : s.mayWrite ag pg off = true) :
    off < 4096 ∧ s.agentUp ag = true ∧ s.accessBad ag (pg * 4096 + off) 4 true = none ∧ s.lockedOut ag pg off = false := by
  simpa [State.mayWrite, and_assoc] using h

theorem State.mayRead_elim (h : s.mayRead ag pg off = true) :
    off < 4096 ∧ s.agentUp ag = true ∧ s.accessBad ag (pg * 4096 + off) 4 false = none := by
  simpa [State.mayRead, and_assoc] using h

/-- An access of another length or alignment is refused, at the latest for that (R4, Table 19-5). -/
theorem State.accessBad_unaligned {addr bytes : Nat} (w : Bool) (h : bytes ≠ 4 ∨ addr % 4 ≠ 0) :
    s.accessBad ag addr bytes w = some 2 ∨ s.accessBad ag addr bytes w = some 3 :=
  iteInduction (motive := fun u : Option Nat => u = some 2 ∨ u = some 3) (fun _ => .inr rfl) fun _ => .inl (if_pos h)

/-! ### Fields and their classes -/

/-- The bits of the fields of class `a` of a register. -/
abbrev classBits (t : PgType) (off : Nat) (a : Acc) : Word := w32 (accMask (regFields t off) a)

/-- What the fields of a register hold once `v` is written over `old`, shadowed fields apart (Table 2-9). -/
def writtenValue (t : PgType) (off : Nat) (old v : Word) : Word :=
  ((old &&& ~~~(classBits t off .rwq ||| classBits t off .rwl)) ||| (v &&& (classBits t off .rwq ||| classBits t off .rwl))) &&&
    ~~~(v &&& classBits t off .w1c)

/-- The part of a write that takes effect at once. -/
def State.writeNow (s : State) (t : PgType) (pg off : Nat) (v : Word) : State :=
  if classBits t off .rwq ||| classBits t off .rwl ||| classBits t off .w1c = 0 then s
  else s.setRegI pg off (s.selIdx pg off) (writtenValue t off (s.regI pg off (s.selIdx pg off)) v)

/-- The part of a write that the shadow holds until the commit (R33). -/
def State.writeShadow (s : State) (t : PgType) (pg off i : Nat) (v : Word) : State :=
  if classBits t off .rws = 0 then s
  else
    let old := AL.getD (regKeyAt pg off i) (s.regI pg off i) s.rf.shadow
    { s with rf := { s.rf with
      shadow := AL.put (regKeyAt pg off i) ((old &&& ~~~classBits t off .rws) ||| (v &&& classBits t off .rws)) s.rf.shadow } }

/-- A write that would change no RW-Q field of a busy block, of a value that the register takes, is applied. -/
theorem State.applyFields_some {t : PgType} {n : Nat} {v : Word} (hp : pageType pg = some (t, n))
    (hq : s.quiet pg = true ∨ s.regI pg off (s.selIdx pg off) &&& classBits t off .rwq = v &&& classBits t off .rwq)
    (hv : s.valueBad pg t off v = false) :
    s.applyFields pg off v = some ((s.writeNow t pg off v).writeShadow t pg off (s.selIdx pg off) v) := by
  have hok : ¬((s.regI pg off (s.selIdx pg off) &&& classBits t off .rwq ≠ v &&& classBits t off .rwq ∧ (!s.quiet pg) = true) ∨
      s.valueBad pg t off v = true) := by
    rintro (⟨hne, hb⟩ | hb)
    · obtain hq | hq := hq
      · simp [hq] at hb
      · exact hne hq
    · simp [hv] at hb
  unfold State.applyFields
  simp only [hp]
  exact if_neg hok

theorem State.applyFields_none {t : PgType} {n : Nat} {v : Word} (hp : pageType pg = some (t, n)) (hb : s.quiet pg = false)
    (hne : s.regI pg off (s.selIdx pg off) &&& classBits t off .rwq ≠ v &&& classBits t off .rwq) : s.applyFields pg off v = none := by
  unfold State.applyFields
  simp only [hp]
  exact if_pos (.inl ⟨hne, by simp [hb]⟩)

section WriteNow
variable (s : State) (t : PgType) (pg off : Nat) (v : Word)

theorem writtenValue_of_no_bits (h : classBits t off .rwq ||| classBits t off .rwl ||| classBits t off .w1c = 0) (old : Word) :
    writtenValue t off old v = old := by
  obtain ⟨h, hc⟩ := BitVec.or_eq_zero_iff.mp h
  simp only [writtenValue, h, hc, BitVec.and_zero, BitVec.or_zero, BitVec.not_zero, BitVec.and_allOnes]

theorem State.writeNow_value :
    (s.writeNow t pg off v).regI pg off (s.selIdx pg off) = writtenValue t off (s.regI pg off (s.selIdx pg off)) v := by
  unfold State.writeNow
  split
  · rw [writtenValue_of_no_bits t off v ‹_›]
  · simp [State.regI, State.setRegI]

theorem State.writeNow_others {k : Nat × Nat × Nat} (hk : k ≠ regKeyAt pg off (s.selIdx pg off)) :
    AL.get k (s.writeNow t pg off v).rf.vals = AL.get k s.rf.vals := by
  unfold State.writeNow
  split
  · rfl
  · exact AL.get_put_ne hk _ _

theorem State.writeNow_frame :
    s.writeNow t pg off v = { s with rf := { s.rf with vals := (s.writeNow t pg off v).rf.vals } } := by
  unfold State.writeNow; split <;> rfl

theorem State.writeShadow_frame (i : Nat) :
    s.writeShadow t pg off i v = { s with rf := { s.rf with shadow := (s.writeShadow t pg off i v).rf.shadow } } := by
  unfold State.writeShadow; split <;> rfl

@[simp] theorem State.writeShadow_vals (i : Nat) : (s.writeShadow t pg off i v).rf.vals = s.rf.vals := by
  rw [State.writeShadow_frame]

theorem State.writeShadow_none (i : Nat) (h : classBits t off .rws = 0) : s.writeShadow t pg off i v = s := if_pos h

theorem State.writeShadow_others (i : Nat) {k : Nat × Nat × Nat} (hk : k ≠ regKeyAt pg off i) :
    AL.get k (s.writeShadow t pg off i v).rf.shadow = AL.get k s.rf.shadow := by
  unfold State.writeShadow
  split
  · rfl
  · exact AL.get_put_ne hk _ _

/-- The shadowed fields hold what was written. -/
theorem State.writeShadow_value (i : Nat) {w : Word} (h : classBits t off .rws ≠ 0)
    (hw : AL.get (regKeyAt pg off i) (s.writeShadow t pg off i v).rf.shadow = some w) :
    w &&& classBits t off .rws = v &&& classBits t off .rws := by
  rw [State.writeShadow, if_neg h, AL.get_put, Option.some_inj] at hw
  rw [← hw, BitVec.and_or_distrib_right, BitVec.and_assoc, BitVec.and_assoc]
  simp

end WriteNow

/-! ### Registers that only hold fields -/

/-- The page types of which some register acts beyond its fields when it is written. -/
def actingTypes : List PgType := [.node, .xlat, .ttlb, .hlnk, .mbox, .dbel, .mchn, .scrb, .bnch]

theorem State.act_plain {t : PgType} {n : Nat} (hoff : 0x100 ≤ off) (hp : pageType pg = some (t, n)) (ht : actingTypes.contains t = false)
    (hc : clearRange t off = none) (v : Word) : s.act ag pg off v = s.orRefuse pg (s.applyFields pg off v) := by
  unfold State.act
  dsimp only
  rw [if_neg (Nat.not_lt.mpr hoff)]
  simp only [hp, hc]
  cases t <;> simp [actingTypes] at ht ⊢

theorem State.valueBad_plain {t : PgType} (hoff : 0x100 ≤ off) (ht : actingTypes.contains t = false) (v : Word) :
    s.valueBad pg t off v = false := by
  have h18 : off ≠ 0x18 := by omega
  cases t <;> simp [State.valueBad, actingTypes, h18] at ht ⊢

/-! ### Accesses -/

theorem exec_registerWrite (ag : Agent) (addr bytes v : Nat) (s : State) :
    exec (.registerWrite ag addr bytes v) s = s.did (s.storeReg ag addr bytes v) := rfl
theorem exec_regPairHiWrite (ag : Agent) (addr v : Nat) (s : State) :
    exec (.regPairHiWrite ag addr v) s = s.did (s.storeHi ag addr v) := rfl
theorem exec_regLoRead (ag : Agent) (p : RegSpan) (tag : Nat) (s : State) :
    exec (.regLoRead ag p tag) s = s.did (s.loadReg ag p.addr p.bytes tag) := rfl

/-- A write that is not to the high half of a pair goes through `regWrite`. -/
theorem State.storeReg_single {addr : Nat} (hl : addr % 4096 < 4 ∨ isLow (addr / 4096) (addr % 4096 - 4) = false) (v : Nat) :
    s.storeReg ag addr 4 v = s.regWrite ag addr 4 (fun s => s.act ag (addr / 4096) (addr % 4096) (w32 v)) := by
  refine if_neg ?_
  rintro ⟨-, h4, hlow⟩
  obtain h | h := hl
  · omega
  · simp [h] at hlow

theorem State.storeReg_high {addr : Nat} (h4 : 4 ≤ addr % 4096) (hl : isLow (addr / 4096) (addr % 4096 - 4) = true) (v : Nat) :
    s.storeReg ag addr 4 v = s.storeHi ag addr v := if_pos ⟨rfl, h4, hl⟩

/-- An allowed write of a register that is not the high half of a pair. -/
theorem State.storeReg_applied (h : s.mayWrite ag pg off = true) (hl : isLow pg (off - 4) = false) (v : Word) :
    s.storeReg ag (pg * 4096 + off) 4 v.toNat = s.act ag pg off v := by
  obtain ⟨hoff, hup, hok, hfree⟩ := State.mayWrite_elim h
  rw [State.storeReg_single (.inr (by rwa [page_of_addr hoff, offset_of_addr hoff]))]
  simp [State.regWrite, hup, hok, page_of_addr hoff, offset_of_addr hoff, hfree]

/-- A write that its agent may not make is captured (R4, R25, R26). -/
theorem State.storeReg_refused {addr bytes u : Nat} (hup : s.agentUp ag = true) (hbad : s.accessBad ag addr bytes true = some u) (v : Nat) :
    s.storeReg ag addr bytes v = s.writeRefused ag u addr := by
  unfold State.storeReg
  split
  · rename_i h
    rw [h.1] at hbad
    simp [State.storeHi, hup, hbad]
  · simp [State.regWrite, hup, hbad]

/-- A write under another agent's lock is discarded (R35). -/
theorem State.regWrite_locked {addr bytes : Nat} (hup : s.agentUp ag = true) (hok : s.accessBad ag addr bytes true = none)
    (hlock : s.lockedOut ag (addr / 4096) (addr % 4096) = true) (f : State → State) :
    s.regWrite ag addr bytes f = s.cfgRej (addr / 4096) := by
  simp [State.regWrite, hup, hok, hlock]

theorem State.regRead_answered (h : s.mayRead ag pg off = true) (tag : Nat) (f : State → State × Word) :
    s.regRead ag (pg * 4096 + off) 4 tag f = (f s).1.readAnswer ag tag (f s).2 := by
  obtain ⟨-, hup, hok⟩ := State.mayRead_elim h
  simp [State.regRead, hup, hok]

theorem State.regRead_refused {addr bytes u : Nat} (hup : s.agentUp ag = true) (hbad : s.accessBad ag addr bytes false = some u)
    (tag : Nat) (f : State → State × Word) : s.regRead ag addr bytes tag f = s.readRefused ag tag bytes u addr := by
  simp [State.regRead, hup, hbad]

/-! ### Pairs (R5, R6) -/

/-- The low half that an agent holds at `addr` is gone. -/
def State.dropHeld (s : State) (ag : Agent) (addr : Nat) : State :=
  { s with rf := { s.rf with held := AL.del (Agent.name ag, addr) s.rf.held } }

theorem State.dropHeld_lockedOut (s : State) (ag a : Agent) (addr pg off : Nat) :
    (s.dropHeld ag addr).lockedOut a pg off = s.lockedOut a pg off := rfl

section HighHalf
variable (hoff : off < 4096) (h4 : 4 ≤ off) (hl : isLow pg (off - 4) = true) (hup : s.agentUp ag = true)
  (hok : s.accessBad ag (pg * 4096 + off) 4 true = none)
include hoff h4 hl hup hok

theorem State.storeHi_locked (hlock : s.lockedOut ag pg off = true) (v : Nat) :
    s.storeHi ag (pg * 4096 + off) v = (s.dropHeld ag (pg * 4096 + off - 4)).cfgRej pg := by
  rw [← s.dropHeld_lockedOut ag ag (pg * 4096 + off - 4)] at hlock
  unfold State.dropHeld at *
  simp [State.storeHi, hup, hok, page_of_addr hoff, offset_of_addr hoff, low_of_addr hoff h4, hl, hlock]

/-- The high half is written, and with it the low half that the agent holds, if it holds one. -/
theorem State.storeHi_free (hfree : s.lockedOut ag pg off = false) (v : Word) {t : State}
    (ht : (s.dropHeld ag (pg * 4096 + off - 4)).applyFields pg off v = some t) :
    s.storeHi ag (pg * 4096 + off) v.toNat = (AL.get (Agent.name ag, pg * 4096 + off - 4) s.rf.held).elim t
      fun w => (t.applyFields pg (off - 4) w).getD ((s.dropHeld ag (pg * 4096 + off - 4)).cfgRej pg) := by
  rw [← s.dropHeld_lockedOut ag ag (pg * 4096 + off - 4)] at hfree
  unfold State.dropHeld at *
  simp only [State.storeHi, hup, hok, page_of_addr hoff, offset_of_addr hoff, low_of_addr hoff h4, hl, hfree, w32_toNat, ht]
  cases AL.get (Agent.name ag, pg * 4096 + off - 4) s.rf.held with
  | none => rfl
  | some w => cases hu : t.applyFields pg (off - 4) w <;> simp [hu]

end HighHalf

/-- The two halves of the shape registers of XLAT are one RW-L field each, which a write replaces whole. -/
theorem State.applyFields_shapeHalf (s : State) {off : Nat} (h : off = 0x110 ∨ off = 0x114) (v : Word) :
    s.applyFields pgXlat off v = some (s.setReg pgXlat off v) := by
  have hp : pageType pgXlat = some (.xlat, 0) := by decide
  have hq : classBits .xlat off .rwq = 0 := by obtain rfl | rfl := h <;> decide
  have hl : classBits .xlat off .rwl = BitVec.allOnes 32 := by obtain rfl | rfl := h <;> decide
  have hc : classBits .xlat off .w1c = 0 := by obtain rfl | rfl := h <;> decide
  have hs : classBits .xlat off .rws = 0 := by obtain rfl | rfl := h <;> decide
  have hi : s.selIdx pgXlat off = 0 := by simp [State.selIdx, hp, selOf]
  rw [State.applyFields_some hp (.inr (by simp [hq])) rfl, State.writeShadow_none _ _ _ _ _ _ hs, State.writeNow, hq, hl, hc, hi]
  simp [writtenValue, hq, hl, hc, State.setReg, BitVec.and_allOnes, -BitVec.reduceNot, -BitVec.reduceAllOnes]

theorem regKeyAt_xlat (off : Nat) : regKeyAt pgXlat off 0 = (pgXlat, off, 0) := rfl

theorem State.reg_setReg_xlat (s : State) (off : Nat) (w : Word) : (s.setReg pgXlat off w).reg pgXlat off = w := AL.getD_put ..

theorem State.setReg_xlat_vals_ne (s : State) {off : Nat} {k : Nat × Nat × Nat} (hk : k ≠ (pgXlat, off, 0)) (w : Word) :
    AL.get k (s.setReg pgXlat off w).rf.vals = AL.get k s.rf.vals := AL.get_put_ne hk _ _

theorem State.reg_setReg_xlat_ne (s : State) {a b : Nat} (h : a ≠ b) (w : Word) :
    (s.setReg pgXlat b w).reg pgXlat a = s.reg pgXlat a := by
  simp [State.reg, State.regI, AL.getD, regKeyAt_xlat, State.setReg_xlat_vals_ne, h]

/-- SHAPE_DATA_LO of XLAT is held for its agent until the high half is written (R6). -/
theorem State.act_shapeLow (s : State) (ag : Agent) (v : Word) :
    s.act ag pgXlat 0x110 v = { s with rf := { s.rf with held := AL.put (Agent.name ag, pgXlat * 4096 + 0x110) v s.rf.held } } := rfl

end Sys2Proof.Machine

open Sys2Proof Sys2Proof.Machine

/-- Settles O19. A plain write is `applyFields_some` or `applyFields_none`, the pair rule is `storeHi_free` and `storeHi_locked`,
a read is `regRead_answered`. -/
theorem anyRegisterIsWrittenAndRead : Obligations.AnyRegisterIsWrittenAndRead := by
  refine ⟨?written, ?busy, ?locked, ?captured, ?lowHeld, ?pair, ?highAlone, ?high, ?pairLocked, ?lowRead, ?highRead, ?readRefused,
    fun s ag addr bytes w h => State.accessBad_unaligned w h⟩
  case written =>
    intro s ag pg off v ty n hw hoff hp ht hc hl hq
    rw [exec_registerWrite, State.storeReg_applied hw hl, State.act_plain hoff hp ht hc,
      State.applyFields_some hp hq (State.valueBad_plain hoff ht v), State.orRefuse, State.did_of_keeps
        (by rw [State.writeShadow_frame, State.writeNow_frame]) (by rw [State.writeShadow_frame, State.writeNow_frame])]
    have hsh : (s.writeNow ty pg off v).rf.shadow = s.rf.shadow := by rw [State.writeNow_frame]
    refine ⟨_, rfl, ?_, fun k hk => ⟨?_, ?_⟩, fun h0 => ?_, fun w h0 => State.writeShadow_value _ _ _ _ _ _ h0, ?_⟩
    · rw [State.regI, State.writeShadow_vals]
      exact State.writeNow_value s ty pg off v
    · rw [State.writeShadow_vals, State.writeNow_others _ _ _ _ _ hk]
    · rw [State.writeShadow_others _ _ _ _ _ _ hk, hsh]
    · rw [State.writeShadow_none _ _ _ _ _ _ h0, hsh]
    · rw [State.writeShadow_frame, State.writeNow_frame]
  case busy =>
    intro s ag pg off v ty n hw hoff hp ht hc hl hb hne
    rw [exec_registerWrite, State.storeReg_applied hw hl, State.act_plain hoff hp ht hc, State.applyFields_none hp hb hne]
    exact State.did_of_keeps (s.cfgRej_pending pg) (s.cfgRej_nrt pg)
  case locked =>
    intro s ag addr v hup hok hlock hl
    rw [exec_registerWrite, State.storeReg_single hl, State.regWrite_locked hup hok hlock]
    exact State.did_of_keeps (s.cfgRej_pending _) (s.cfgRej_nrt _)
  case captured =>
    intro s l addr bytes v u hup hbad
    rw [exec_registerWrite, State.storeReg_refused hup hbad]
    exact ⟨_, State.did_of_keeps (t := s.access l u addr) (by simp) (by simp), rfl, State.eq_of_groups (by simp)⟩
  case lowHeld =>
    intro s ag v hw
    rw [exec_registerWrite, State.storeReg_applied hw (by decide), State.act_shapeLow]
    exact State.did_of_keeps rfl rfl
  case pair =>
    intro s ag v w hw hheld
    obtain ⟨hoff, hup, hok, hfree⟩ := State.mayWrite_elim hw
    rw [exec_regPairHiWrite, State.storeHi_free hoff (by decide) (by decide) hup hok hfree v
      (State.applyFields_shapeHalf _ (.inr rfl) v), Nat.add_sub_assoc (by decide), hheld, Option.elim_some,
      State.applyFields_shapeHalf _ (.inl rfl) w, Option.getD_some]
    refine ⟨_, State.did_of_keeps rfl rfl, ?_, ?_, rfl, fun k hlo hhi => ?_, rfl⟩
    · exact State.reg_setReg_xlat ..
    · exact (State.reg_setReg_xlat_ne _ (by decide) w).trans (State.reg_setReg_xlat ..)
    · exact (State.setReg_xlat_vals_ne _ hlo w).trans (State.setReg_xlat_vals_ne _ hhi v)
  case highAlone =>
    intro s ag v hw hnone
    obtain ⟨hoff, hup, hok, hfree⟩ := State.mayWrite_elim hw
    rw [exec_regPairHiWrite, State.storeHi_free hoff (by decide) (by decide) hup hok hfree v
      (State.applyFields_shapeHalf _ (.inr rfl) v), Nat.add_sub_assoc (by decide), hnone, Option.elim_none]
    refine ⟨_, State.did_of_keeps rfl rfl, ?_, ?_, rfl⟩
    · exact State.reg_setReg_xlat_ne _ (by decide) v
    · exact State.reg_setReg_xlat ..
  case high =>
    intro s ag addr v h4 hl
    rw [exec_registerWrite, exec_regPairHiWrite, State.storeReg_high h4 hl]
  case pairLocked =>
    intro s ag pg off v hoff h4 hl hup hok hlock
    rw [exec_regPairHiWrite, State.storeHi_locked hoff h4 hl hup hok hlock]
    exact ⟨_, State.did_of_keeps (by simp [State.dropHeld]) (by simp [State.dropHeld]), rfl⟩
  case lowRead =>
    intro s l pg off tag hr hl
    have hoff := (State.mayRead_elim hr).1
    rw [exec_regLoRead, State.loadReg, State.regRead_answered hr, page_of_addr hoff, offset_of_addr hoff, if_pos hl]
    exact State.did_of_keeps (by simp [State.readAnswer]) (by simp [State.readAnswer])
  case highRead =>
    intro s l pg off tag w hr hl hw
    have hoff := (State.mayRead_elim hr).1
    rw [exec_regLoRead, State.loadReg, State.regRead_answered hr, page_of_addr hoff, offset_of_addr hoff, if_neg (by simp [hl]),
      Agent.name, hw]
    exact State.did_of_keeps (by simp [State.readAnswer]) (by simp [State.readAnswer])
  case readRefused =>
    intro s l addr bytes tag u hup hbad
    rw [exec_regLoRead, State.loadReg, State.regRead_refused hup hbad]
    exact State.did_of_keeps (by simp) (by simp)
end

section
/-!
SUPPORT. Watchdogs of the firmware cores' pages (R36, R40, Log 33): what the watchdog of such a page does, the pages that its errors and
interrupts leave fenced, and the obligation on faults of units.
-/

namespace Sys2Proof.Machine

variable (s : State)

/-! ### Fenced pages: no register, interrupt, error log or host transaction changes them -/

@[simp] theorem State.setReg_fenced (pg off : Nat) (w : Word) : (s.setReg pg off w).rf.fenced = s.rf.fenced := rfl
@[simp] theorem State.setFld_fenced (pg off lo n v : Nat) : (s.setFld pg off lo n v).rf.fenced = s.rf.fenced := rfl
@[simp] theorem State.bump_fenced (pg off n : Nat) : (s.bump pg off n).rf.fenced = s.rf.fenced := rfl
@[simp] theorem State.bump64_fenced (pg lo n : Nat) : (s.bump64 pg lo n).rf.fenced = s.rf.fenced := rfl

@[simp] theorem State.emitFlit_fenced (l : Link) (b : FlitBody) : (s.emitFlit l b).rf.fenced = s.rf.fenced := by
  unfold State.emitFlit
  dsimp only
  split <;> simp

@[simp] theorem State.drainWaiting_fenced (l : Link) (n : Nat) : (s.drainWaiting l n).rf.fenced = s.rf.fenced := by
  induction n generalizing s with
  | zero => rfl
  | succ n ih =>
    unfold State.drainWaiting
    dsimp only
    split
    · rfl
    · split <;> simp [ih]

@[simp] theorem State.hostSend_fenced (t : HostTxn) : (s.hostSend t).rf.fenced = s.rf.fenced := by
  unfold State.hostSend
  split <;> simp

@[simp] theorem State.raiseIrq_fenced (pg : Nat) : (s.raiseIrq pg).rf.fenced = s.rf.fenced := by
  unfold State.raiseIrq
  dsimp only
  split <;> split <;> simp

@[simp] theorem State.setIrq_fenced (pg bits : Nat) : (s.setIrq pg bits).rf.fenced = s.rf.fenced := by
  unfold State.setIrq
  dsimp only
  split <;> simp

@[simp] theorem State.logErr_fenced (pg code unit detail : Nat) : (s.logErr pg code unit detail).rf.fenced = s.rf.fenced := by
  unfold State.logErr
  dsimp only
  split <;> simp

/-! ### The watchdog of a firmware core's page -/

/-- The pages of the firmware cores are the seven from SECC to the last CCTL (Table 2-1, R36). -/
theorem corePage_bounds {pg : Nat} (h : (corePage pg).isSome = true) : 0x100 ≤ pg ∧ pg ≤ 0x106 := by
  unfold corePage at h
  split_ifs at h
  case neg => cases h
  all_goals omega

/-- The page of a firmware core fences nothing (Log 33). -/
theorem State.fenceUnit_corePage {pg : Nat} (h : (corePage pg).isSome = true) : s.fenceUnit pg = s := by
  obtain ⟨hlo, hhi⟩ := corePage_bounds h
  interval_cases pg <;> rfl

/-- So its watchdog records that it has fired, and leaves every page as fenced as it was. -/
theorem State.watchdog_corePage_fenced {pg : Nat} (h : (corePage pg).isSome = true) : (s.watchdog pg).rf.fenced = s.rf.fenced := by
  unfold State.watchdog
  split
  · rfl
  · rw [State.fenceUnit_corePage _ h, State.logErr_fenced, State.setIrq_fenced, State.setFld_fenced]

theorem exec_watchdogFire (pg : Nat) : exec (.watchdogFire pg) s = s.inService (·.watchdog pg) := rfl

theorem exec_watchdogFire_corePage {s t : State} {pg : Nat} (h : (corePage pg).isSome = true)
    (he : exec (.watchdogFire pg) s = .next t) : t.pageFenced pg = s.pageFenced pg := by
  rw [exec_watchdogFire] at he
  obtain ⟨-, rfl⟩ | ⟨-, rfl⟩ := State.inService_next he
  · simp only [State.pageFenced, State.watchdog_corePage_fenced s h]
  · rfl

/-- An ACTIVE node whose security core runs and is busy with a request, its registers as reset leaves them: the watchdog of the SECC
page is enabled (Table 2-16). -/
def secCoreBusy : State := { State.reset with
  pw := { PowerState.blank with st := .active }
  fw := { FwState.blank with cores := [(0, { CoreRec.blank with up := true, busy := true })] } }

end Sys2Proof.Machine

open Sys2Proof Sys2Proof.Machine

/-- Refutes O37 in its first clause: the SECC page is a busy block whose watchdog is enabled, and a fired watchdog does not fence the
page of a firmware core (R40 as Log 33 reads it). -/
theorem not_faultsOfUnitsFenceThem : ¬ Obligations.FaultsOfUnitsFenceThem := by
  intro h
  obtain ⟨hwatchdog, -⟩ := h
  obtain ⟨t, he, hfenced, -⟩ := hwatchdog secCoreBusy pgSecc (by decide) (by decide) (by decide) (by decide) (by decide) (by decide) (by decide)
  have hkept : t.pageFenced pgSecc = secCoreBusy.pageFenced pgSecc := exec_watchdogFire_corePage (by decide) he
  have hfree : secCoreBusy.pageFenced pgSecc = false := by decide
  rw [hkept, hfree] at hfenced
  cases hfenced
end

section
/-!
SUPPORT. Fields of byte strings (R8) and the layout of a completion record (R44, Table 2-20).
-/

namespace Sys2Proof

@[simp] theorem length_leBytes (n v : Nat) : (leBytes n v).length = n := by
  induction n generalizing v with
  | zero => rfl
  | succ n ih => simp [leBytes, ih]

theorem leVal_leBytes {n v : Nat} (h : v < 256 ^ n) : leVal (leBytes n v) = v := by
  induction n generalizing v with
  | zero => simp [leBytes, leVal, Nat.lt_one_iff.mp h]
  | succ n ih =>
    have hd : v / 256 < 256 ^ n := Nat.div_lt_of_lt_mul (by rwa [← Nat.pow_succ'])
    simp only [leBytes, leVal, ih hd, BitVec.toNat_ofNat]
    exact Nat.mod_add_div v 256

theorem leVal_append (a b : List Byte) : leVal (a ++ b) = leVal a + 256 ^ a.length * leVal b := by
  induction a with
  | nil => simp [leVal]
  | cons x a ih => simp [leVal, ih, Nat.pow_succ]; ring

namespace Machine

theorem fieldAt_append_left {a : List Byte} {o n : Nat} (h : o + n ≤ a.length) (b : List Byte) : fieldAt (a ++ b) o n = fieldAt a o n := by
  rw [fieldAt, fieldAt, List.drop_append_of_le_length (by omega), List.take_append_of_le_length (by simp; omega)]

theorem fieldAt_append_right {a : List Byte} {o : Nat} (h : a.length ≤ o) (b : List Byte) (n : Nat) :
    fieldAt (a ++ b) o n = fieldAt b (o - a.length) n := by
  rw [fieldAt, fieldAt, List.drop_append, List.drop_eq_nil_of_le h, List.nil_append]

theorem fieldAt_leBytes {n v : Nat} (h : v < 256 ^ n) : fieldAt (leBytes n v) 0 n = v := by
  rw [fieldAt, List.drop_zero, List.take_of_length_le (by simp), leVal_leBytes h]

/-- A field is its first bytes and the rest. -/
theorem fieldAt_add {b : List Byte} {o m : Nat} (h : o + m ≤ b.length) (n : Nat) :
    fieldAt b o (m + n) = fieldAt b o m + 256 ^ m * fieldAt b (o + m) n := by
  have hm : ((b.drop o).take m).length = m := by simp; omega
  rw [fieldAt, fieldAt, fieldAt, List.take_add, leVal_append, hm, List.drop_drop]

section Record
variable (c : Completion) (phase : Bool) (time : Nat)

theorem length_recordBytes : (recordBytes c phase time).length = 32 := by simp [recordBytes]

theorem context_phase_lt {x : Nat} (h : x < 4096) : x + b2n phase * 2 ^ 15 < 65536 := by
  cases phase <;> simp [b2n] <;> omega

/-- CONTEXT, the zeros above it, and PHASE. -/
theorem context_phase_fields {x : Nat} (h : x < 4096) :
    bitsOf (x + b2n phase * 2 ^ 15) 0 12 = x ∧ bitsOf (x + b2n phase * 2 ^ 15) 12 3 = 0 ∧ bitsOf (x + b2n phase * 2 ^ 15) 15 1 = b2n phase := by
  cases phase <;> simp [b2n, bitsOf] <;> omega

/-- COV_EXPECT over COV_GOT. -/
theorem coverage_fields {g : Nat} (e : Nat) (hg : g < 65536) (he : e < 65536) :
    bitsOf (g + 65536 * e) 16 16 = e ∧ bitsOf (g + 65536 * e) 0 16 = g := by
  simp [bitsOf]; omega

/-- What each run of bytes of a record holds; COV_GOT and COV_EXPECT are two runs of one word. -/
theorem fieldAt_recordBytes (hst : c.status < 256) (hop : c.opcode < 256) (hcx : c.context < 4096) (h0 : c.c0 < 2 ^ 32) (h1 : c.c1 < 2 ^ 32)
    (hE : c.covE < 65536) (hG : c.covG < 65536) (ht : time < 2 ^ 64) :
    fieldAt (recordBytes c phase time) 0 4 = c.tag.toNat ∧ fieldAt (recordBytes c phase time) 4 1 = c.status ∧
    fieldAt (recordBytes c phase time) 5 1 = c.opcode ∧ fieldAt (recordBytes c phase time) 6 2 = c.context + b2n phase * 2 ^ 15 ∧
    fieldAt (recordBytes c phase time) 8 4 = c.c0 ∧ fieldAt (recordBytes c phase time) 12 4 = c.c1 ∧
    fieldAt (recordBytes c phase time) 16 2 = c.covG ∧ fieldAt (recordBytes c phase time) 18 2 = c.covE ∧
    fieldAt (recordBytes c phase time) 20 4 = min c.clip 0xFFFFFFFF ∧ fieldAt (recordBytes c phase time) 24 8 = time := by
  have htag := c.tag.isLt
  have hctx := context_phase_lt phase hcx
  have hclip : min c.clip 0xFFFFFFFF < 2 ^ 32 := by omega
  simp only [recordBytes, List.append_assoc, Nat.reducePow, zero_add, length_leBytes, Std.le_refl, fieldAt_append_left, fieldAt_append_right,
    tsub_self, Nat.reduceLeDiff, Nat.reduceSub, Nat.one_le_ofNat, Nat.add_one_sub_one]
  simp (disch := omega) only [fieldAt_leBytes, and_self]

end Record

end Machine
end Sys2Proof

open Sys2Proof Sys2Proof.Machine

/-- Settles O7: each field is what `fieldAt_recordBytes` finds between the bytes before it and those after it. -/
theorem completionRecordIsLaidOut : Obligations.CompletionRecordIsLaidOut := by
  intro c phase time hst hop hcx h0 h1 hE hG ht
  obtain ⟨htag, hstatus, hopcode, hctx, hc0, hc1, hgot, hexpect, hclip, htime⟩ := fieldAt_recordBytes c phase time hst hop hcx h0 h1 hE hG ht
  obtain ⟨hcontext, hzero, hphase⟩ := context_phase_fields phase hcx
  obtain ⟨hcovE, hcovG⟩ := coverage_fields c.covE hG hE
  have hcov : fieldAt (recordBytes c phase time) 16 4 = c.covG + 65536 * c.covE := by
    rw [fieldAt_add (m := 2) (by simp [length_recordBytes]) 2, hgot, hexpect]; rfl
  rw [hctx, hcov]
  exact ⟨length_recordBytes c phase time, htag, hstatus, hopcode, hcontext, hzero, hphase, hc0, hc1, hcovE, hcovG, hclip, htime⟩
end

section
/-!
SUPPORT. The map of control space as the page header's rules use it: the pages of tiles (Table 2-1), where a register's value is held
(R145, R475), and writes of single registers by their offset.
-/

namespace Sys2Proof.Machine

variable {s : State} {ag : Agent} {pg off : Nat}

/-! ### Pages of tiles -/

theorem pageTile_eq_some {t : Nat} (h : pageTile pg = some t) : 0x1000 ≤ pg ∧ pg < 0x1000 + 24 * 0x40 ∧ t = (pg - 0x1000) / 0x40 := by
  unfold pageTile at h
  split at h
  · simp_all
  · cases h

theorem pageType_of_tile (hlo : 0x1000 ≤ pg) (hhi : pg < 0x1000 + 24 * 0x40) : pageType pg = tilePageType (pg % 0x40) := by
  unfold pageType
  simp only [show pg ≠ 0 by omega, show pg ≠ 0x100 by omega, show pg ≠ 0x101 by omega, show pg ≠ 0x102 by omega, show ¬ pg ≤ 0x106 by omega,
    show pg ≠ 0x107 by omega, show ¬ pg ≤ 0x207 by omega, show pg ≠ 0x208 by omega, show ¬ pg ≤ 0x210 by omega, show pg ≠ 0x211 by omega,
    show pg ≠ 0x300 by omega, show pg ≠ 0x301 by omega, show pg ≠ 0x302 by omega, show ¬ pg ≤ 0x407 by omega, show pg ≠ 0x500 by omega,
    hlo, hhi, if_false, if_true, and_false, and_true]

theorem pageType_pgTile {t p : Nat} (ht : t < 24) (hp : p < 0x40) : pageType (pgTile t p) = tilePageType p := by
  have hpg : pgTile t p % 0x40 = p := by simp only [pgTile]; omega
  rw [pageType_of_tile (by simp only [pgTile]; omega) (by simp only [pgTile]; omega), hpg]

theorem pageTile_pgTile {t p : Nat} (ht : t < 24) (hp : p < 0x40) : pageTile (pgTile t p) = some t := by
  rw [pageTile, if_pos (by simp only [pgTile]; omega)]
  simp only [pgTile]
  congr 1
  omega

/-- Only page 7 of a tile has the type of a scheduler. -/
theorem pageType_tsch {n : Nat} (h : pageType pg = some (.tsch, n)) : ∃ t, t < 24 ∧ pg = pgTsch t := by
  have hr : 0x1000 ≤ pg ∧ pg < 0x1000 + 24 * 0x40 := by
    by_contra hr
    revert h
    unfold pageType
    iterate 15 refine iteInduction (motive := fun o : Option (PgType × Nat) => o = some (.tsch, n) → False) (fun _ => by simp) fun _ => ?_
    simp [if_neg hr]
  obtain ⟨hlo, hhi⟩ := hr
  have hp : ∀ p < 0x40, (tilePageType p).all (fun x => x.1 != .tsch || p == 7) = true := by decide
  have h7 := hp (pg % 0x40) (Nat.mod_lt _ (by decide))
  rw [← pageType_of_tile hlo hhi, h] at h7
  refine ⟨(pg - 0x1000) / 0x40, by omega, ?_⟩
  simp only [pgTsch, pgTile]
  simp at h7
  omega

/-- The page of an attention engine or a near-bank unit is the page of its engine in its tile. -/
theorem enginePage_of_pageType {t e : Nat} (ht : pageTile pg = some t) :
    (pageType pg = some (.aten, e) → enginePage t e = pg) ∧ (pageType pg = some (.nbun, e) → enginePage t (2 + e) = pg) := by
  obtain ⟨hlo, hhi, rfl⟩ := pageTile_eq_some ht
  have hp : ∀ p < 0x40, (tilePageType p).all (fun x => (x.1 != .aten || (p == 1 + x.2 && decide (x.2 < 2))) &&
    (x.1 != .nbun || (p == 8 + x.2 && decide (x.2 < 16)))) = true := by decide
  have hpg := hp (pg % 0x40) (Nat.mod_lt _ (by decide))
  rw [← pageType_of_tile hlo hhi] at hpg
  constructor <;> intro h <;> simp [h] at hpg
  · rw [enginePage, if_pos (by omega), pgAten, pgTile]
    omega
  · rw [enginePage, if_neg (by omega), pgNbun]
    simp only [pgTile]
    omega

/-! ### Where a register is held -/

theorem regKeyAt_snd (pg off i : Nat) : (regKeyAt pg off i).2 = (off, i) := by
  unfold regKeyAt
  split
  · split <;> rfl
  · split <;> rfl
  · rfl

/-- A register outside the tables that the node holds once is held under its own page. -/
theorem regKeyAt_own (h : off ≠ 0x134 ∧ off ≠ 0x13C ∧ off ≠ 0x144) (pg i : Nat) : regKeyAt pg off i = (pg, off, i) := by
  unfold regKeyAt
  split <;> simp [h]

/-- A register that is held elsewhere is held where the second bank, or the second tile, has it too. -/
theorem regKeyAt_cases (pg off i : Nat) : regKeyAt pg off i = (pg, off, i) ∨ regKeyAt (pgBnch 1) off i = regKeyAt pg off i ∨
    regKeyAt (pgStrt 1) off i = regKeyAt pg off i := by
  have hb : regKeyAt (pgBnch 1) off i = if off = 0x134 ∨ off = 0x13C ∨ off = 0x144 then (pgBnch 0, off, i) else (pgBnch 1, off, i) := rfl
  have hs : regKeyAt (pgStrt 1) off i = if off = 0x134 then (pgStrt 0, off, i) else (pgStrt 1, off, i) := rfl
  rw [hb, hs]
  unfold regKeyAt
  split
  · split <;> simp
  · split <;> simp
  · exact .inl rfl

theorem State.reg_setReg (s : State) (pg off : Nat) (w : Word) : (s.setReg pg off w).reg pg off = w := AL.getD_put ..

theorem State.setReg_vals_ne {k : Nat × Nat × Nat} (hk : k ≠ regKeyAt pg off 0) (w : Word) :
    AL.get k (s.setReg pg off w).rf.vals = AL.get k s.rf.vals := AL.get_put_ne hk _ _

theorem State.regI_setReg_ne {p o i : Nat} (hk : regKeyAt p o i ≠ regKeyAt pg off 0) (w : Word) :
    (s.setReg pg off w).regI p o i = s.regI p o i := AL.getD_put_ne hk _ _ _

/-- A register of another page, or of another offset, is another register. -/
theorem State.regI_setReg_other (h : off ≠ 0x134 ∧ off ≠ 0x13C ∧ off ≠ 0x144) {p o : Nat} (ho : p ≠ pg ∨ o ≠ off) (i : Nat) (w : Word) :
    (s.setReg pg off w).regI p o i = s.regI p o i := by
  refine State.regI_setReg_ne (fun hk => ?_) w
  have h2 := congrArg Prod.snd hk
  simp only [regKeyAt_snd, Prod.mk.injEq] at h2
  obtain ⟨rfl, rfl⟩ := h2
  rw [regKeyAt_own h, regKeyAt_own h] at hk
  simp_all

/-! ### Registers of the header, and registers that clear -/

theorem State.accessBad_nowhere {addr : Nat} (h : s.pageThere (addr / 4096) = false) (bytes : Nat) (w : Bool) :
    s.accessBad ag addr bytes w ≠ none :=
  iteInduction (motive := fun u : Option Nat => u ≠ none) (fun _ => by simp) fun _ =>
    iteInduction (motive := fun u : Option Nat => u ≠ none) (fun _ => by simp) fun _ => by simp [h]

theorem State.mayWrite_page (h : s.mayWrite ag pg off = true) : ∃ t n, pageType pg = some (t, n) := by
  obtain ⟨hoff, -, hok, -⟩ := State.mayWrite_elim h
  have hpg : s.pageThere pg = true := by
    by_contra hn
    exact State.accessBad_nowhere (by simpa [page_of_addr hoff] using hn) _ _ hok
  simp only [State.pageThere, Bool.and_eq_true, Option.isSome_iff_exists, Prod.exists] at hpg
  exact hpg.1

/-- No register of the header but ERR_LOG1 and ERR_LOG2 is half of a pair. -/
theorem isLow_header (hoff : off < 0x100) (h : off ≠ 0x34) (pg : Nat) : isLow pg off = false := by
  have hl : ∀ t : PgType, (lowHalves t).all (fun o => decide (0x100 ≤ o)) = true := by intro t; cases t <;> decide
  unfold isLow
  rw [beq_eq_false_iff_ne.mpr h, Bool.false_or]
  split
  · rfl
  · rename_i t n hp
    rw [List.contains_eq_mem, decide_eq_false_iff_not]
    intro hm
    have := List.all_eq_true.mp (hl t) off hm
    simp at this
    omega

/-- The registers before those that clear counters are no low halves, and none of them is in the header. -/
theorem clearRange_reg {t : PgType} {a b : Nat} {keep : List Nat} (h : clearRange t off = some (a, b, keep)) :
    0x100 ≤ off ∧ (lowHalves t).contains (off - 4) = false := by
  unfold clearRange at h
  cases t <;> simp only [reduceCtorEq] at h <;> split_ifs at h <;> subst_vars <;> decide

/-- An allowed write of a register that is not the high half of a pair. -/
theorem State.poke_applied (h : s.mayWrite ag pg off = true) (hl : isLow pg (off - 4) = false) (v : Nat) :
    s.poke ag pg off v = s.act ag pg off (w32 v) := by
  obtain ⟨hoff, hup, hok, hfree⟩ := State.mayWrite_elim h
  rw [State.poke, State.storeReg_single (.inr (by rwa [page_of_addr hoff, offset_of_addr hoff]))]
  simp [State.regWrite, hup, hok, page_of_addr hoff, offset_of_addr hoff, hfree]

end Sys2Proof.Machine
end

section
/-!
SUPPORT. What writes of the page header do (R29 to R36, R38, R78): PG_CTL, SOFT_RESET, PG_LOCK, SHADOW_CTL, ERR_LOG0 and the registers
that clear counters.
-/

namespace Sys2Proof.Machine

variable {s : State} {ag : Agent} {pg off : Nat}

/-! ### The commands -/

theorem exec_pgCtlEnable (ag : Agent) (pg : Nat) (on : Bool) (s : State) : exec (.pgCtlEnable ag pg on) s = s.did (s.setEnable ag pg on) := rfl
theorem exec_pgCtlFreeze (ag : Agent) (pg : Nat) (s : State) : exec (.pgCtlFreeze ag pg) s = s.did (s.setFreeze ag pg) := rfl
theorem exec_softReset (ag : Agent) (pg : Nat) (pass : Bool) (s : State) : exec (.softReset ag pg pass) s = s.did (s.resetPage ag pg pass) := rfl
theorem exec_pgLockWrite (ag : Agent) (pg v : Nat) (s : State) : exec (.pgLockWrite ag pg v) s = s.did (s.poke ag pg 0x48 v) := rfl
theorem exec_shadowCommit (ag : Agent) (pg : Nat) (s : State) : exec (.shadowCommit ag pg) s = s.did (s.poke ag pg 0x4C 1) := rfl
theorem exec_errLogClear (ag : Agent) (pg : Nat) (s : State) : exec (.errLogClear ag pg) s = s.did (s.poke ag pg 0x30 (2 ^ 31)) := rfl
theorem exec_counterClear (ag : Agent) (pg off : Nat) (s : State) : exec (.counterClear ag pg off) s = s.did (s.poke ag pg off 1) := rfl

/-- The type of XPRT is that of its page alone. -/
theorem pageType_xprt {n : Nat} : pageType pg = some (.xprt, n) → pg = pgXprt := by
  have ht : ∀ p < 0x40, (tilePageType p).all (fun x => x.1 != .xprt) = true := by decide
  unfold pageType
  iterate 7 refine iteInduction (motive := fun o : Option (PgType × Nat) => o = some (.xprt, n) → pg = pgXprt) (fun _ => by simp) fun _ => ?_
  refine iteInduction (motive := fun o : Option (PgType × Nat) => o = some (.xprt, n) → pg = pgXprt) (fun h _ => h) fun _ => ?_
  iterate 7 refine iteInduction (motive := fun o : Option (PgType × Nat) => o = some (.xprt, n) → pg = pgXprt) (fun _ => by simp) fun _ => ?_
  refine iteInduction (motive := fun o : Option (PgType × Nat) => o = some (.xprt, n) → pg = pgXprt) (fun _ h => ?_) fun _ => by simp
  have hx := ht (pg % 0x40) (Nat.mod_lt _ (by decide))
  simp [h] at hx

/-! ### Registers of the header that act (Table 2-2) -/

theorem State.act_pgCtl (s : State) (ag : Agent) (pg : Nat) (v : Word) :
    s.act ag pg 0x18 v = if bitOf v.toNat 2 then s.softReset pg true else s.pgCtl pg v := rfl
theorem State.act_errLog0 (s : State) (ag : Agent) (pg : Nat) (v : Word) :
    s.act ag pg 0x30 v = if bitOf v.toNat 31 then s.errLogClear pg else s := rfl
theorem State.act_pgLock (s : State) (ag : Agent) (pg : Nat) (v : Word) : s.act ag pg 0x48 v = s.lockWrite ag pg v.toNat := rfl
theorem State.act_shadowCtl (s : State) (ag : Agent) (pg : Nat) (v : Word) :
    s.act ag pg 0x4C v = if bitOf v.toNat 0 then s.commitPage pg else s := rfl

/-! ### ENABLE and FREEZE (R29) -/

theorem bitsOf_one (w : Word) (i : Nat) : bitsOf w.toNat i 1 = (w.getLsbD i).toNat := by
  rw [bitsOf, BitVec.getLsbD, Nat.testBit_eq_decide_div_mod_eq]
  have := Nat.mod_two_eq_zero_or_one (w.toNat / 2 ^ i)
  obtain h | h := this <;> simp [h]

theorem State.fld_lt (s : State) (pg off lo : Nat) : s.fld pg off lo 1 < 2 := Nat.mod_lt _ (by decide)

/-- The word that a write of PG_CTL with ENABLE `e` and FREEZE `f` leaves. -/
def ctlWord (old : Word) (e f : Nat) : Word := (old &&& ~~~3) ||| (w32 (e + 2 * f) &&& 3)

theorem ctlWord_fields (old : Word) {e f : Nat} (he : e < 2) (hf : f < 2) :
    bitsOf (ctlWord old e f).toNat 0 1 = e ∧ bitsOf (ctlWord old e f).toNat 1 1 = f := by
  rw [bitsOf_one, bitsOf_one]
  simp only [ctlWord, BitVec.getLsbD_or, BitVec.getLsbD_and, BitVec.getLsbD_not]
  interval_cases e <;> interval_cases f <;> simp [w32]

/-- A write of PG_CTL with neither SOFT_RESET nor ABORT, to a block that passed its self-check. -/
theorem State.act_ctl {t : PgType} {n e f : Nat} (hp : pageType pg = some (t, n)) (hok : s.rf.failed.contains pg = false)
    (he : e < 2) (hf : f < 2) (hx : t = .xprt → e = 1 → s.fld pgXprt 0x100 0 16 ≠ 0) :
    s.act ag pg 0x18 (w32 (e + 2 * f)) = s.setReg pg 0x18 (ctlWord (s.reg pg 0x18) e f) := by
  have hn : (w32 (e + 2 * f)).toNat = e + 2 * f := by simp [w32]; omega
  have h2 : bitOf (e + 2 * f) 2 = false := by simp [bitOf]; omega
  have h3 : bitOf (e + 2 * f) 3 = false := by simp [bitOf]; omega
  have h0 : bitOf (e + 2 * f) 0 = true → e = 1 := by simp [bitOf]; omega
  have hi : s.selIdx pg 0x18 = 0 := by
    simp only [State.selIdx, hp]
    cases t <;> rfl
  have hq : classBits t 0x18 .rwq = 0 := rfl
  have hl : classBits t 0x18 .rwl = 3 := rfl
  have hc : classBits t 0x18 .w1c = 0 := rfl
  have hs : classBits t 0x18 .rws = 0 := rfl
  have hv : s.valueBad pg t 0x18 (w32 (e + 2 * f)) = false := by
    cases t <;> simp [State.valueBad, hn]
    exact fun hb => hx rfl (h0 hb)
  have hnew : s.applyFields pg 0x18 (w32 (e + 2 * f)) = some (s.setReg pg 0x18 (ctlWord (s.reg pg 0x18) e f)) := by
    rw [State.applyFields_some hp (.inr (by simp [hq])) hv, State.writeShadow_none _ _ _ _ _ _ hs, State.writeNow, hq, hl, hc, hi]
    simp [writtenValue, hq, hl, hc, ctlWord, State.setReg, State.reg, -BitVec.reduceNot, -BitVec.reduceAllOnes]
  rw [State.act_pgCtl, hn, h2, if_neg Bool.false_ne_true, State.pgCtl, hok, if_neg Bool.false_ne_true, State.applyThen, hnew, hn, h3]
  rfl

/-- What such a write leaves: the two bits as given, and no other register or block changed. -/
theorem State.setCtl_outcome (hw : s.mayWrite ag pg 0x18 = true) (hok : s.rf.failed.contains pg = false) {e f : Nat} (he : e < 2) (hf : f < 2)
    (hx : pg = pgXprt → e = 1 → s.fld pgXprt 0x100 0 16 ≠ 0) :
    ∃ t, s.did (s.poke ag pg 0x18 (e + 2 * f)) = .next t ∧ t.fld pg 0x18 0 1 = e ∧ t.fld pg 0x18 1 1 = f ∧
      t = { s with rf := { s.rf with vals := AL.put (pg, 0x18, 0) (t.reg pg 0x18) s.rf.vals } } := by
  obtain ⟨t, n, hp⟩ := State.mayWrite_page hw
  have hxt : t = .xprt → e = 1 → s.fld pgXprt 0x100 0 16 ≠ 0 := by
    rintro rfl
    exact hx (pageType_xprt hp)
  have hreg : (s.setReg pg 0x18 (ctlWord (s.reg pg 0x18) e f)).reg pg 0x18 = ctlWord (s.reg pg 0x18) e f := State.reg_setReg ..
  obtain ⟨h0, h1⟩ := ctlWord_fields (s.reg pg 0x18) he hf
  rw [State.poke_applied hw (isLow_header (by decide) (by decide) pg), State.act_ctl hp hok he hf hxt]
  refine ⟨_, State.did_of_keeps rfl rfl, ?_, ?_, ?_⟩
  · rw [State.fld, hreg, h0]
  · rw [State.fld, hreg, h1]
  · rw [hreg, ← regKeyAt_own (by decide) pg 0]
    rfl

/-! ### PG_LOCK (R34 to R36) -/

theorem State.lockWord_setReg (s : State) (pg : Nat) (w : Word) : (s.setReg pg 0x48 w).lockWord pg = w := by
  have h : AL.get (pg, 0x48, 0) (s.setReg pg 0x48 w).rf.vals = some w := by
    rw [← regKeyAt_own (by decide) pg 0]
    exact AL.get_put ..
  simp [State.lockWord, h]

/-- The host takes a page that no agent holds and no core has from reset. -/
theorem State.lockWrite_take (l : Link) (hfree : s.lockOwner pg = none) (hcore : corePage pg = none) :
    s.lockWrite (.host l) pg 1 = s.setReg pg 0x48 1 := by
  simp [State.lockWrite, Agent.lockWord, hfree, hcore]

/-- The host gives back a page that it holds. -/
theorem State.lockWrite_release (l : Link) (hown : s.lockOwner pg = some (.host .a)) : s.lockWrite (.host l) pg 0 = s.setReg pg 0x48 0 := by
  simp [State.lockWrite, State.owns, hown, Agent.same]

/-! ### ERR_LOG0 (R38) -/

/-- A cleared capture is four registers at 0, and no other register changed. -/
theorem State.errLogClear_regI (s : State) (pg : Nat) {p o : Nat} (i : Nat)
    (h : p ≠ pg ∨ (o ≠ 0x30 ∧ o ≠ 0x34 ∧ o ≠ 0x38 ∧ o ≠ 0x3C)) : (s.errLogClear pg).regI p o i = s.regI p o i := by
  rw [State.errLogClear, State.regI_setReg_other (by decide) (by tauto), State.regI_setReg_other (by decide) (by tauto),
    State.regI_setReg_other (by decide) (by tauto), State.regI_setReg_other (by decide) (by tauto)]

theorem State.reg_setReg_ne (s : State) (pg : Nat) {a b : Nat} (hb : b ≠ 0x134 ∧ b ≠ 0x13C ∧ b ≠ 0x144) (h : a ≠ b) (w : Word) :
    (s.setReg pg b w).reg pg a = s.reg pg a := State.regI_setReg_other hb (.inr h) 0 w

theorem State.errLogClear_reg (s : State) (pg : Nat) : (s.errLogClear pg).reg pg 0x30 = 0 ∧ (s.errLogClear pg).reg pg 0x34 = 0 ∧
    (s.errLogClear pg).reg pg 0x38 = 0 ∧ (s.errLogClear pg).reg pg 0x3C = 0 := by
  simp [State.errLogClear, State.reg_setReg, State.reg_setReg_ne]

end Sys2Proof.Machine
end

section
/-!
SUPPORT. Tables of which only some keys are kept; SOFT_RESET (R30, R23), SHADOW_CTL.COMMIT (R33, R278) and the registers that clear
counters (R78).
-/

namespace Sys2Proof.Machine

variable {s : State} {ag : Agent} {pg off : Nat}

/-- A table of which the keys that `p` picks are kept. -/
theorem AL.get_filter {κ α : Type} [DecidableEq κ] (p : κ → Bool) (k : κ) (t : AL κ α) :
    AL.get k (t.filter (fun x => p x.1)) = if p k then AL.get k t else none := by
  induction t with
  | nil => simp
  | cons x t ih =>
    obtain ⟨j, v⟩ := x
    cases hp : p j <;> by_cases hk : j = k
    · subst hk; simp [hp, ih]
    · simp [hp, ih, AL.get, hk]
    · subst hk; simp [hp, AL.get]
    · simp [hp, ih, AL.get, hk]

/-! ### SOFT_RESET (R30, R23) -/

/-- The registers that a soft reset of a page leaves: those of other pages, PG_LOCK, those that the node holds once for many pages
(Log 60), and the island bits of the NODE page (R23). -/
def outlivesReset (pg : Nat) (k : Nat × Nat × Nat) : Bool :=
  k.1 != pg || k.2.1 == 0x48 || (regKeyAt (pgBnch 1) k.2.1 k.2.2 == k || regKeyAt (pgStrt 1) k.2.1 k.2.2 == k) ||
    (k.1 == pgNode && (k.2.1 == 0x140 || k.2.1 == 0x144))

/-- A list of pages in which a page stands or not, as its self-check failed or passed. -/
def afterCheck (pg : Nat) (pass : Bool) (l : List Nat) : List Nat :=
  if pass then l.filter (· != pg) else if l.contains pg then l else l ++ [pg]

theorem contains_afterCheck (pg : Nat) (pass : Bool) (l : List Nat) (p : Nat) :
    (afterCheck pg pass l).contains p = if p = pg then !pass else l.contains p := by
  unfold afterCheck
  cases pass <;> by_cases hp : p = pg <;> by_cases hc : pg ∈ l <;> simp [hp, hc]

/-- The self-check of a block whose STATE lets it be reset. -/
theorem State.softReset_quiet (hq : s.quiet pg = true) (pass : Bool) :
    s.softReset pg pass = { s.resetHeld pg with rf := { (s.resetHeld pg).rf with
      vals := AL.put (pg, 0x18, 0) 0 ((s.resetHeld pg).rf.vals.filter (fun p => outlivesReset pg p.1))
      shadow := (s.resetHeld pg).rf.shadow.filter (fun p => p.1.1 != pg)
      fenced := afterCheck pg pass (s.resetHeld pg).rf.fenced
      failed := afterCheck pg pass (s.resetHeld pg).rf.failed } } := by
  rw [State.softReset, hq, ← regKeyAt_own (by decide : 0x18 ≠ 0x134 ∧ 0x18 ≠ 0x13C ∧ 0x18 ≠ 0x144) pg 0]
  rfl

theorem State.softReset_vals (hq : s.quiet pg = true) (pass : Bool) {k : Nat × Nat × Nat} (hk : k ≠ (pg, 0x18, 0)) :
    AL.get k (s.softReset pg pass).rf.vals = if outlivesReset pg k then AL.get k s.rf.vals else none := by
  rw [State.softReset_quiet hq]
  simp only [State.resetHeld_frame]
  rw [AL.get_put_ne hk, AL.get_filter]

theorem State.softReset_ctl (hq : s.quiet pg = true) (pass : Bool) : (s.softReset pg pass).reg pg 0x18 = 0 := by
  rw [State.softReset_quiet hq, State.reg, State.regI, regKeyAt_own (by decide)]
  exact AL.getD_put ..

theorem State.softReset_regI_keeps (hq : s.quiet pg = true) (pass : Bool) {p o i : Nat} (hk : regKeyAt p o i ≠ (pg, 0x18, 0))
    (h : outlivesReset pg (regKeyAt p o i) = true) : (s.softReset pg pass).regI p o i = s.regI p o i := by
  rw [State.regI, AL.getD, State.softReset_vals hq pass hk, if_pos h]
  rfl

theorem outlivesReset_lock (pg : Nat) : outlivesReset pg (regKeyAt pg 0x48 0) = true := by
  simp [outlivesReset, regKeyAt_own]

/-- A register of another page is held under that page, or where the reset leaves it. -/
theorem outlivesReset_other {p : Nat} (h : p ≠ pg) (o i : Nat) : outlivesReset pg (regKeyAt p o i) = true := by
  have h2 : (regKeyAt p o i).2 = (o, i) := regKeyAt_snd p o i
  unfold outlivesReset
  rw [h2]
  obtain hk | hk | hk := regKeyAt_cases p o i <;> simp [hk, h]

theorem regKeyAt_ne_ctl {p : Nat} (h : p ≠ pg) (o i : Nat) : regKeyAt p o i ≠ (pg, 0x18, 0) := by
  intro hk
  have h2 := congrArg Prod.snd hk
  simp only [regKeyAt_snd, Prod.mk.injEq] at h2
  obtain ⟨rfl, rfl⟩ := h2
  rw [regKeyAt_own (by decide)] at hk
  exact h (congrArg Prod.fst hk)

theorem State.softReset_fences (hq : s.quiet pg = true) (pass : Bool) (p : Nat) :
    (s.softReset pg pass).pageFenced p = (if p = pg then !pass else s.pageFenced p) ∧
    (s.softReset pg pass).rf.failed.contains p = if p = pg then !pass else s.rf.failed.contains p := by
  rw [State.pageFenced, State.pageFenced, State.softReset_quiet hq]
  simp only [contains_afterCheck, State.resetHeld_frame, and_self]

/-! What a page holds outside its registers goes with it (Log 60). -/

theorem State.resetHeld_rings (s : State) : (s.resetHeld pgDbel).host.rings = [] := rfl

theorem State.resetHeld_hot (s : State) {x : Nat} (hx : x < 24) : AL.getD x [] (s.resetHeld (pgScrb x)).integ.hot = [] := by
  have hp : pageType (pgScrb x) = some (.scrb, 0) := pageType_pgTile hx (by decide)
  have ht : pageTile (pgScrb x) = some x := pageTile_pgTile hx (by decide)
  simp [State.resetHeld, hp, ht, AL.getD]

theorem State.resetHeld_lanes (s : State) {ch : Nat} (hch : ch < 384) (n : Nat) : AL.has (ch, n) (s.resetHeld (pgMchn ch)).integ.lanes = false := by
  have hp : pageType (pgMchn ch) = some (.mchn, ch % 16) := by
    rw [pgMchn, pageType_pgTile (by omega) (by omega)]
    have := (by decide : ∀ c < 16, tilePageType (24 + c) = some (.mchn, c))
    exact this _ (Nat.mod_lt _ (by decide))
  have ht : pageTile (pgMchn ch) = some (ch / 16) := pageTile_pgTile (by omega) (by omega)
  have hc : ch / 16 * 16 + ch % 16 = ch := Nat.div_add_mod' ch 16
  simp only [State.resetHeld, hp, ht, State.setInteg_integ, hc, AL.has]
  rw [AL.get_filter (fun k : Nat × Nat => k.1 != ch)]
  simp

theorem State.regWrite_applied (h : s.mayWrite ag pg off = true) (f : State → State) : s.regWrite ag (pg * 4096 + off) 4 f = f s := by
  obtain ⟨hoff, hup, hok, hfree⟩ := State.mayWrite_elim h
  simp [State.regWrite, hup, hok, page_of_addr hoff, offset_of_addr hoff, hfree]

theorem State.resetPage_applied (h : s.mayWrite ag pg 0x18 = true) (pass : Bool) : s.resetPage ag pg pass = s.softReset pg pass :=
  State.regWrite_applied h _

/-! ### SHADOW_CTL.COMMIT (R33, R278) -/

/-- What a commit makes of the value of a register whose pending value is `w`. -/
def committed (k : Nat × Nat × Nat) (old w : Word) : Word := (old &&& ~~~ shadowMask k.1 k.2.1) ||| (w &&& shadowMask k.1 k.2.1)

/-- One pending value of a page. -/
def commitOne (pg : Nat) (v : AL (Nat × Nat × Nat) Word) (p : (Nat × Nat × Nat) × Word) : AL (Nat × Nat × Nat) Word :=
  if p.1.1 = pg then AL.put p.1 (committed p.1 (AL.getD p.1 (regReset p.1.1 p.1.2.1) v) p.2) v else v

theorem State.commitShadow_eq (s : State) (pg : Nat) : s.commitShadow pg = { s with rf := { s.rf with
    vals := s.rf.shadow.foldl (commitOne pg) s.rf.vals, shadow := s.rf.shadow.filter (fun p => p.1.1 != pg) } } := rfl

theorem committed_committed (k : Nat × Nat × Nat) (old w : Word) : committed k (committed k old w) w = committed k old w := by
  simp only [committed]
  generalize shadowMask k.1 k.2.1 = m
  ext i hi
  simp only [BitVec.getElem_or, BitVec.getElem_and, BitVec.getElem_not]
  cases m[i] <;> simp

section Commit
variable {v : AL (Nat × Nat × Nat) Word} {k : Nat × Nat × Nat} {w : Word}

theorem get_commitOne_ne {p : (Nat × Nat × Nat) × Word} (h : p.1 ≠ k) : AL.get k (commitOne pg v p) = AL.get k v := by
  unfold commitOne
  split
  · exact AL.get_put_ne (Ne.symm h) _ _
  · rfl

theorem getD_commitOne (hk : k.1 = pg) (w : Word) :
    AL.getD k (regReset k.1 k.2.1) (commitOne pg v (k, w)) = committed k (AL.getD k (regReset k.1 k.2.1) v) w := by
  rw [commitOne, if_pos hk, AL.getD_put]

/-- A commit of a page changes no register of another. -/
theorem get_commit_other (h : k.1 ≠ pg) (l : AL (Nat × Nat × Nat) Word) (v : AL (Nat × Nat × Nat) Word) :
    AL.get k (l.foldl (commitOne pg) v) = AL.get k v := by
  induction l generalizing v with
  | nil => rfl
  | cons p l ih =>
    rw [List.foldl_cons, ih]
    by_cases hp : p.1 = k
    · rw [commitOne, if_neg (by rwa [hp])]
    · exact get_commitOne_ne hp

/-- Once a register has its only pending value, the rest of a commit leaves it so. -/
theorem getD_commit_again (hk : k.1 = pg) (l : AL (Nat × Nat × Nat) Word) (hw : ∀ w', (k, w') ∈ l → w' = w) {old : Word}
    (hv : AL.getD k (regReset k.1 k.2.1) v = committed k old w) :
    AL.getD k (regReset k.1 k.2.1) (l.foldl (commitOne pg) v) = committed k old w := by
  induction l generalizing v with
  | nil => exact hv
  | cons p l ih =>
    refine ih (fun w' h => hw w' (.tail _ h)) ?_
    obtain ⟨j, w'⟩ := p
    by_cases hj : j = k
    · subst hj
      rw [getD_commitOne hk, hv, hw w' (.head _), committed_committed]
    · rw [AL.getD, get_commitOne_ne hj]
      exact hv

/-- A register with one pending value takes it. -/
theorem getD_commit (hk : k.1 = pg) (l : AL (Nat × Nat × Nat) Word) (hm : (k, w) ∈ l) (hw : ∀ w', (k, w') ∈ l → w' = w) :
    AL.getD k (regReset k.1 k.2.1) (l.foldl (commitOne pg) v) = committed k (AL.getD k (regReset k.1 k.2.1) v) w := by
  induction l generalizing v with
  | nil => cases hm
  | cons p l ih =>
    obtain ⟨j, w'⟩ := p
    have hl : ∀ u, (k, u) ∈ l → u = w := fun u h => hw u (.tail _ h)
    by_cases hj : j = k
    · subst hj
      rw [List.foldl_cons]
      obtain rfl := hw w' (.head _)
      exact getD_commit_again hk l hl (getD_commitOne hk w')
    · have ht : (k, w) ∈ l := by
        obtain h | h := List.mem_cons.mp hm
        · exact absurd (congrArg Prod.fst h).symm hj
        · exact h
      rw [List.foldl_cons, ih ht hl, AL.getD, get_commitOne_ne hj]
      rfl

end Commit

end Sys2Proof.Machine
end

section
/-!
SUPPORT. The accounts that a commit brings up to date first (R278), the registers that clear counters (R78), and what SOFT_RESET and
COMMIT leave of the state.
-/

namespace Sys2Proof.Machine

variable {s t : State} {ag : Agent} {pg off tile e : Nat}

/-! ### Credit (R278) -/

theorem State.syncCredit_eq (s : State) (tile e : Nat) : s.syncCredit tile e =
    { s with rf := { s.rf with vals := (s.syncCredit tile e).rf.vals }
             eng := { s.eng with credits := AL.put (tile, e) ⟨s.creditNow tile e, s.nrt⟩ s.eng.credits } } := by
  unfold State.syncCredit
  dsimp only
  split <;> rfl

/-- The account of an engine may write its BUSY counter and no other register. -/
theorem State.syncCredit_vals {k : Nat × Nat × Nat} (h0 : k ≠ (enginePage tile e, 0x110, 0)) (h1 : k ≠ (enginePage tile e, 0x114, 0)) :
    AL.get k (s.syncCredit tile e).rf.vals = AL.get k s.rf.vals := by
  unfold State.syncCredit
  dsimp only
  split
  · rfl
  · rw [State.bump64, State.setReg_vals_ne (by rwa [regKeyAt_own (by decide)]), State.setReg_vals_ne (by rwa [regKeyAt_own (by decide)])]
    rfl

/-- What the accounts of some engines being brought up to date leaves of the state: all but registers and credits. -/
def State.sameButAccounts (s t : State) : Prop :=
  t = { s with rf := { s.rf with vals := t.rf.vals }, eng := { s.eng with credits := t.eng.credits } }

/-- The credit of an engine is the same where its account and the registers of its TSCH are. -/
theorem State.creditNow_congr (h : State.sameButAccounts s t) (hv : ∀ k, k.1 = pgTsch tile → AL.get k t.rf.vals = AL.get k s.rf.vals)
    (hc : AL.get (tile, e) t.eng.credits = AL.get (tile, e) s.eng.credits) : t.creditNow tile e = s.creditNow tile e := by
  have hf (lo n : Nat) : t.fld (pgTsch tile) 0x140 lo n = s.fld (pgTsch tile) 0x140 lo n := by
    simp only [State.fld, State.reg, State.regI, AL.getD]
    rw [regKeyAt_own (by decide), hv _ rfl]
  unfold State.creditNow State.lcCap State.lcBurst
  rw [hf, hf, AL.getD, AL.getD, hc, h]
  rfl

theorem enginePage_ne_tsch (he : e < 18) : enginePage tile e ≠ pgTsch tile := by
  unfold enginePage
  split
  · simp only [pgAten, pgTsch, pgTile]
    omega
  · simp only [pgNbun, pgTsch, pgTile]
    omega

/-- After the accounts of the first `n` engines of a tile: those are as of now, the others and the registers of TSCH as they were. -/
structure State.SyncedTo (s : State) (tile n : Nat) (t : State) : Prop where
  same : State.sameButAccounts s t
  vals : ∀ k, k.1 = pgTsch tile → AL.get k t.rf.vals = AL.get k s.rf.vals
  done : ∀ e, e < n → AL.get (tile, e) t.eng.credits = some ⟨s.creditNow tile e, s.nrt⟩
  rest : ∀ e, n ≤ e → AL.get (tile, e) t.eng.credits = AL.get (tile, e) s.eng.credits

theorem State.SyncedTo.next {n : Nat} (hn : n < 18) (h : s.SyncedTo tile n t) : s.SyncedTo tile (n + 1) (t.syncCredit tile n) := by
  obtain ⟨hs, hv, hd, hr⟩ := h
  have hcr : (t.syncCredit tile n).eng.credits = AL.put (tile, n) ⟨t.creditNow tile n, t.nrt⟩ t.eng.credits := by rw [State.syncCredit_eq]
  have hnow : (⟨t.creditNow tile n, t.nrt⟩ : CreditRec) = ⟨s.creditNow tile n, s.nrt⟩ := by
    rw [State.creditNow_congr hs hv (hr n (Nat.le_refl n)), hs]
  refine ⟨?_, fun k hk => ?_, fun e he => ?_, fun e he => ?_⟩
  · unfold State.sameButAccounts at hs ⊢
    rw [hcr, State.syncCredit_eq]
    rw [hs]
  · have hp := enginePage_ne_tsch (tile := tile) hn
    rw [State.syncCredit_vals (by rintro rfl; exact hp hk) (by rintro rfl; exact hp hk), hv k hk]
  · rw [hcr, hnow]
    obtain rfl | hne := eq_or_ne e n
    · exact AL.get_put ..
    · rw [AL.get_put_ne (by simpa using hne), hd e (by omega)]
  · rw [hcr, AL.get_put_ne (by simp; omega), hr e (by omega)]

/-- A tile's accounts, brought up to date engine by engine. -/
theorem State.syncTile_synced (s : State) (tile : Nat) : s.SyncedTo tile 18 (s.syncTile tile) := by
  have hn : ∀ n, n ≤ 18 → s.SyncedTo tile n ((List.range n).foldl (fun s e => s.syncCredit tile e) s) := by
    intro n
    induction n with
    | zero => exact fun _ => ⟨rfl, fun _ _ => rfl, fun _ h => absurd h (Nat.not_lt_zero _), fun _ _ => rfl⟩
    | succ n ih =>
      intro h
      rw [List.range_succ, List.foldl_append]
      exact (ih (by omega)).next h
  exact hn 18 (Nat.le_refl _)

/-! ### What a commit leaves (R33) -/

theorem State.commitPage_tsch (htile : tile < 24) : s.commitPage (pgTsch tile) = (s.syncTile tile).commitShadow (pgTsch tile) := by
  have hp : pageType (pgTsch tile) = some (.tsch, 0) := pageType_pgTile htile (by decide)
  have ht : pageTile (pgTsch tile) = some tile := pageTile_pgTile htile (by decide)
  rw [State.commitPage, hp, ht]

theorem State.commitPage_other (h : ∀ tile, tile < 24 → pg ≠ pgTsch tile) : s.commitPage pg = s.commitShadow pg := by
  unfold State.commitPage
  split
  · rename_i hp _
    obtain ⟨x, hx, rfl⟩ := pageType_tsch hp
    exact absurd rfl (h x hx)
  · rfl

/-- A write of COMMIT. -/
theorem State.poke_commit (h : s.mayWrite ag pg 0x4C = true) : s.poke ag pg 0x4C 1 = s.commitPage pg := by
  rw [State.poke_applied h (isLow_header (by decide) (by decide) pg), State.act_shadowCtl]
  rfl

/-- A register whose only pending value is `w` takes the bits of its RW-S fields. -/
theorem State.commitShadow_value {i : Nat} {w : Word} (hm : ((pg, off, i), w) ∈ s.rf.shadow)
    (hw : ∀ w', ((pg, off, i), w') ∈ s.rf.shadow → w' = w) :
    AL.getD (pg, off, i) (regReset pg off) (s.commitShadow pg).rf.vals =
      (AL.getD (pg, off, i) (regReset pg off) s.rf.vals &&& ~~~ shadowMask pg off) ||| (w &&& shadowMask pg off) :=
  getD_commit rfl _ hm hw

/-! ### Registers that clear (R78) -/

theorem State.act_clear {a b : Nat} {keep : List Nat} (hr : (pageType pg).bind (fun x => clearRange x.1 off) = some (a, b, keep)) :
    s.act ag pg off (w32 1) = (s.syncEngine pg).clearCounters pg off := by
  obtain ⟨⟨t, n⟩, hp, hc⟩ := Option.bind_eq_some_iff.mp hr
  have hoff : ¬ off < 0x100 := by have := (clearRange_reg hc).1; omega
  have h1 : bitOf (w32 1).toNat 0 = true := by decide
  unfold State.act
  rw [if_neg hoff, hp]
  exact (if_pos (by rw [hc]; rfl)).trans (if_pos h1)

theorem State.poke_clear {a b : Nat} {keep : List Nat} (h : s.mayWrite ag pg off = true)
    (hr : (pageType pg).bind (fun x => clearRange x.1 off) = some (a, b, keep)) :
    s.poke ag pg off 1 = (s.syncEngine pg).clearCounters pg off := by
  obtain ⟨⟨t, n⟩, hp, hc⟩ := Option.bind_eq_some_iff.mp hr
  obtain ⟨hoff, hlow⟩ := clearRange_reg hc
  rw [State.poke_applied h ?_, State.act_clear hr]
  unfold isLow
  rw [hp, beq_eq_false_iff_ne.mpr (by omega), Bool.false_or]
  exact hlow

/-- The registers that a clear of the counters of a page from `a` to `b` leaves. -/
def outlivesClear (pg a b : Nat) (keep : List Nat) (k : Nat × Nat × Nat) : Bool :=
  !(k.1 == pg && decide (a ≤ k.2.1 ∧ k.2.1 ≤ b) && !keep.contains k.2.1)

theorem State.clearCounters_eq {a b : Nat} {keep : List Nat} (hr : (pageType pg).bind (fun x => clearRange x.1 off) = some (a, b, keep))
    (s : State) : s.clearCounters pg off = { s with rf := { s.rf with vals := s.rf.vals.filter (fun p => outlivesClear pg a b keep p.1) } } := by
  rw [State.clearCounters, hr]
  rfl

theorem State.get_clearCounters {a b : Nat} {keep : List Nat} (hr : (pageType pg).bind (fun x => clearRange x.1 off) = some (a, b, keep))
    (s : State) (k : Nat × Nat × Nat) : AL.get k (s.clearCounters pg off).rf.vals =
      if outlivesClear pg a b keep k then AL.get k s.rf.vals else none := by
  rw [State.clearCounters_eq hr, ← AL.get_filter]

/-- The account of the engine of a page: nothing but credits and BUSY, which the page's CLR clears. -/
theorem State.syncEngine_same (s : State) (pg : Nat) : State.sameButAccounts s (s.syncEngine pg) := by
  unfold State.syncEngine
  split
  · rw [State.sameButAccounts, State.syncCredit_eq]
  · rw [State.sameButAccounts, State.syncCredit_eq]
  · rfl

theorem State.syncEngine_vals {a b : Nat} {keep : List Nat} (hr : (pageType pg).bind (fun x => clearRange x.1 off) = some (a, b, keep))
    {k : Nat × Nat × Nat} (hk : k.1 ≠ pg ∨ k.2.1 < a ∨ b < k.2.1 ∨ k.2.1 ∈ keep) :
    AL.get k (s.syncEngine pg).rf.vals = AL.get k s.rf.vals := by
  obtain ⟨⟨t, n⟩, hp, hc⟩ := Option.bind_eq_some_iff.mp hr
  unfold State.syncEngine
  split
  case h_1 e tile hpe ht =>
    obtain rfl : t = .aten := by simp_all
    have hpg := (enginePage_of_pageType ht).1 hpe
    simp only [clearRange] at hc
    split_ifs at hc
    cases hc
    refine State.syncCredit_vals ?_ ?_ <;> rw [hpg] <;> rintro rfl <;> simp at hk
  case h_2 e tile hpe ht =>
    obtain rfl : t = .nbun := by simp_all
    have hpg := (enginePage_of_pageType ht).2 hpe
    simp only [clearRange] at hc
    split_ifs at hc
    cases hc
    refine State.syncCredit_vals ?_ ?_ <;> rw [hpg] <;> rintro rfl <;> simp at hk
  case h_3 => rfl

end Sys2Proof.Machine
end

section
/-!
SUPPORT. What the commands of the page header leave: SOFT_RESET, PG_LOCK, SHADOW_CTL.COMMIT and the two kinds of clear.
-/

namespace Sys2Proof.Machine

variable {s : State} {ag : Agent} {pg off : Nat}

/-- A register of a page that a soft reset returns to its reset value: it does not outlive the reset. -/
theorem State.softReset_resets {i : Nat} (hq : s.quiet pg = true) (pass : Bool) (h0 : regKeyAt (pgBnch 1) off i ≠ (pg, off, i))
    (h1 : regKeyAt (pgStrt 1) off i ≠ (pg, off, i)) (hlock : off ≠ 0x48) (hctl : off ≠ 0x18)
    (hisl : pg = pgNode → off ≠ 0x140 ∧ off ≠ 0x144) : AL.get (pg, off, i) (s.softReset pg pass).rf.vals = none := by
  rw [State.softReset_vals hq pass (by simp [hctl]), if_neg]
  simp only [outlivesReset, bne_self_eq_false, Bool.false_or, Bool.or_eq_true, Bool.and_eq_true, beq_iff_eq, h0, h1, hlock, or_false, false_or,
    not_and, not_or]
  exact hisl

theorem State.softReset_same (hq : s.quiet pg = true) (pass : Bool) :
    s.softReset pg pass = { s.resetHeld pg with rf := (s.softReset pg pass).rf } := by rw [State.softReset_quiet hq]

theorem State.softReset_outcome (hw : s.mayWrite ag pg 0x18 = true) (hq : s.quiet pg = true) (pass : Bool) :
    ∃ t, exec (.softReset ag pg pass) s = .next t ∧ t.reg pg 0x18 = 0 ∧ t.pageFenced pg = !pass ∧
      t.rf.failed.contains pg = !pass ∧ t.regI pg 0x48 0 = s.regI pg 0x48 0 ∧
      (∀ off i, regKeyAt (pgBnch 1) off i ≠ (pg, off, i) → regKeyAt (pgStrt 1) off i ≠ (pg, off, i) → off ≠ 0x48 → off ≠ 0x18 →
        (pg = pgNode → off ≠ 0x140 ∧ off ≠ 0x144) → AL.get (pg, off, i) t.rf.vals = none) ∧
      (∀ p off i, p ≠ pg → t.regI p off i = s.regI p off i) ∧ (∀ p, p ≠ pg → t.pageFenced p = s.pageFenced p) ∧
      (pg = pgDbel → t.host.rings = []) ∧ (∀ x, x < 24 → pg = pgScrb x → AL.getD x [] t.integ.hot = []) ∧
      (∀ ch n, ch < 384 → pg = pgMchn ch → AL.has (ch, n) t.integ.lanes = false) ∧
      t = { s.resetHeld pg with rf := t.rf } := by
  have hfence := State.softReset_fences hq pass
  have hsame := State.softReset_same hq pass
  refine ⟨s.softReset pg pass, ?_, State.softReset_ctl hq pass, (hfence pg).1.trans (if_pos rfl), (hfence pg).2.trans (if_pos rfl),
    State.softReset_regI_keeps hq pass (by simp [regKeyAt_own]) (outlivesReset_lock pg),
    fun off i => State.softReset_resets hq pass,
    fun p off i hp => State.softReset_regI_keeps hq pass (regKeyAt_ne_ctl hp off i) (outlivesReset_other hp off i),
    fun p hp => (hfence p).1.trans (if_neg hp), ?_, ?_, ?_, hsame⟩
  · rw [exec_softReset, State.resetPage_applied hw]
    exact State.did_of_keeps (by simp) (by simp)
  · rintro rfl
    rw [hsame]
    exact State.resetHeld_rings s
  · rintro x hx rfl
    rw [hsame]
    exact State.resetHeld_hot s hx
  · rintro ch n hch rfl
    rw [hsame]
    exact State.resetHeld_lanes s hch n

/-! ### PG_LOCK (R34 to R36) -/

theorem State.poke_pgLock (hw : s.mayWrite ag pg 0x48 = true) {v : Nat} (hv : v < 2 ^ 32) : s.poke ag pg 0x48 v = s.lockWrite ag pg v := by
  rw [State.poke_applied hw (isLow_header (by decide) (by decide) pg), State.act_pgLock]
  simp only [w32, BitVec.toNat_ofNat, Nat.mod_eq_of_lt hv]

theorem State.lockTake_outcome (l : Link) (hw : s.mayWrite (.host l) pg 0x48 = true) (hfree : s.lockOwner pg = none)
    (hcore : corePage pg = none) :
    ∃ t, exec (.pgLockWrite (.host l) pg 1) s = .next t ∧ t.lockOwner pg = some (.host .a) ∧ t = s.setReg pg 0x48 1 := by
  refine ⟨_, ?_, ?_, rfl⟩
  · rw [exec_pgLockWrite, State.poke_pgLock hw (by decide), State.lockWrite_take l hfree hcore]
    rfl
  · rw [State.lockOwner, State.lockWord_setReg]
    rfl

theorem State.lockRelease_outcome (l : Link) (hw : s.mayWrite (.host l) pg 0x48 = true) (hown : s.lockOwner pg = some (.host .a)) :
    ∃ t, exec (.pgLockWrite (.host l) pg 0) s = .next t ∧ t.lockOwner pg = none ∧ t = s.setReg pg 0x48 0 := by
  refine ⟨_, ?_, ?_, rfl⟩
  · rw [exec_pgLockWrite, State.poke_pgLock hw (by decide), State.lockWrite_release l hown]
    rfl
  · rw [State.lockOwner, State.lockWord_setReg]
    rfl

/-! ### SHADOW_CTL.COMMIT (R33, R278) -/

theorem State.commitTsch_outcome {tile : Nat} (htile : tile < 24) (hw : s.mayWrite ag (pgTsch tile) 0x4C = true) :
    ∃ t, exec (.shadowCommit ag (pgTsch tile)) s = .next t ∧ t.rf.shadow = s.rf.shadow.filter (fun p => p.1.1 != pgTsch tile) ∧
      (∀ off i w, ((pgTsch tile, off, i), w) ∈ s.rf.shadow → (∀ w', ((pgTsch tile, off, i), w') ∈ s.rf.shadow → w' = w) →
        AL.getD (pgTsch tile, off, i) (regReset (pgTsch tile) off) t.rf.vals =
          (AL.getD (pgTsch tile, off, i) (regReset (pgTsch tile) off) s.rf.vals &&& ~~~ shadowMask (pgTsch tile) off) |||
            (w &&& shadowMask (pgTsch tile) off)) ∧
      (∀ e, e < 18 → AL.get (tile, e) t.eng.credits = some ⟨s.creditNow tile e, s.nrt⟩) ∧
      t = { s with rf := { s.rf with vals := t.rf.vals, shadow := t.rf.shadow }, eng := { s.eng with credits := t.eng.credits } } := by
  have hexec : exec (.shadowCommit ag (pgTsch tile)) s = .next ((s.syncTile tile).commitShadow (pgTsch tile)) := by
    rw [exec_shadowCommit, State.poke_commit hw, State.commitPage_tsch htile]
    exact State.did_of_keeps (by simp) (by simp)
  have hsync := s.syncTile_synced tile
  generalize s.syncTile tile = u at hexec hsync
  obtain ⟨hsame, hvals, hcredits, -⟩ := hsync
  unfold State.sameButAccounts at hsame
  have hshadow : u.rf.shadow = s.rf.shadow := by rw [hsame]
  refine ⟨u.commitShadow (pgTsch tile), hexec, ?_, fun off i w hm hw => ?_, hcredits, ?_⟩
  · rw [State.commitShadow_eq, hshadow]
  · rw [← hshadow] at hm hw
    rw [State.commitShadow_value hm hw, AL.getD, hvals (pgTsch tile, off, i) rfl]
    rfl
  · rw [State.commitShadow_eq]
    rw [hsame]

theorem State.commitOther_outcome (hw : s.mayWrite ag pg 0x4C = true) (hp : ∀ tile, tile < 24 → pg ≠ pgTsch tile) :
    ∃ t, exec (.shadowCommit ag pg) s = .next t ∧ t.rf.shadow = s.rf.shadow.filter (fun p => p.1.1 != pg) ∧
      (∀ off i w, ((pg, off, i), w) ∈ s.rf.shadow → (∀ w', ((pg, off, i), w') ∈ s.rf.shadow → w' = w) →
        AL.getD (pg, off, i) (regReset pg off) t.rf.vals =
          (AL.getD (pg, off, i) (regReset pg off) s.rf.vals &&& ~~~ shadowMask pg off) ||| (w &&& shadowMask pg off)) ∧
      (∀ k, k.1 ≠ pg → AL.get k t.rf.vals = AL.get k s.rf.vals) ∧
      t = { s with rf := { s.rf with vals := t.rf.vals, shadow := t.rf.shadow } } := by
  refine ⟨s.commitShadow pg, ?_, rfl, fun off i w => State.commitShadow_value, fun k hk => ?_, rfl⟩
  · rw [exec_shadowCommit, State.poke_commit hw, State.commitPage_other hp]
    exact State.did_of_keeps (by simp) (by simp)
  · exact get_commit_other hk _ _

/-! ### Clears (R38, R78) -/

theorem State.errLogClear_outcome (hw : s.mayWrite ag pg 0x30 = true) :
    ∃ t, exec (.errLogClear ag pg) s = .next t ∧ t.reg pg 0x30 = 0 ∧ t.reg pg 0x34 = 0 ∧ t.reg pg 0x38 = 0 ∧ t.reg pg 0x3C = 0 ∧
      (∀ p off i, (p ≠ pg ∨ (off ≠ 0x30 ∧ off ≠ 0x34 ∧ off ≠ 0x38 ∧ off ≠ 0x3C)) → t.regI p off i = s.regI p off i) ∧
      t = { s with rf := { s.rf with vals := t.rf.vals } } := by
  obtain ⟨h0, h1, h2, h3⟩ := s.errLogClear_reg pg
  refine ⟨s.errLogClear pg, ?_, h0, h1, h2, h3, fun p off i => s.errLogClear_regI pg i, rfl⟩
  rw [exec_errLogClear, State.poke_applied hw (isLow_header (by decide) (by decide) pg), State.act_errLog0]
  rfl

theorem State.counterClear_outcome {a b : Nat} {keep : List Nat} (hw : s.mayWrite ag pg off = true)
    (hr : (pageType pg).bind (fun x => clearRange x.1 off) = some (a, b, keep)) :
    ∃ t, exec (.counterClear ag pg off) s = .next t ∧
      (∀ o i, a ≤ o → o ≤ b → o ∉ keep → AL.get (pg, o, i) t.rf.vals = none) ∧
      (∀ k, (k.1 ≠ pg ∨ k.2.1 < a ∨ b < k.2.1 ∨ k.2.1 ∈ keep) → AL.get k t.rf.vals = AL.get k s.rf.vals) ∧
      t = { s with rf := { s.rf with vals := t.rf.vals }, eng := { s.eng with credits := t.eng.credits } } := by
  refine ⟨(s.syncEngine pg).clearCounters pg off, ?_, fun o i ha hb hk => ?_, fun k hk => ?_, ?_⟩
  · rw [exec_counterClear, State.poke_clear hw hr]
    exact State.did_of_keeps (by simp) (by simp)
  · rw [State.get_clearCounters hr, if_neg]
    simp [outlivesClear, ha, hb, hk]
  · rw [State.get_clearCounters hr, State.syncEngine_vals hr hk, if_pos]
    simp only [outlivesClear, Bool.not_eq_true', Bool.and_eq_false_iff, beq_eq_false_iff_ne, decide_eq_false_iff_not, Bool.not_eq_false',
      List.contains_eq_mem, decide_eq_true_eq]
    grind
  · have hsame := s.syncEngine_same pg
    unfold State.sameButAccounts at hsame
    rw [State.clearCounters_eq hr]
    rw [hsame]

end Sys2Proof.Machine
end

section
/-!
SUPPORT. What the end of an outbound operation, of a fill and of a checkpoint job leave of the clock and of the admitted commands while
no command is admitted; and PG_CTL ABORT of XPRT (R31).
-/

namespace Sys2Proof.Machine

variable {s : State} {ag : Agent}

/-- What a command of the page header returns to the machine's schedule: the queue, node reference time and the admitted commands. -/
def State.desk (s : State) : List Instr × Nat × CmdState := (s.pending, s.nrt, s.cmds)

theorem State.desk_congr {t : State} (hp : t.pending = s.pending) (hn : t.nrt = s.nrt) (hc : t.cmds = s.cmds) : t.desk = s.desk := by
  rw [State.desk, State.desk, hp, hn, hc]

theorem State.pending_of_desk {t : State} (h : t.desk = s.desk) : t.pending = s.pending := congrArg (fun d : List Instr × Nat × CmdState => d.1) h

theorem State.nrt_of_desk {t : State} (h : t.desk = s.desk) : t.nrt = s.nrt := congrArg (fun d : List Instr × Nat × CmdState => d.2.1) h

theorem State.cmds_of_desk {t : State} (h : t.desk = s.desk) : t.cmds = s.cmds := congrArg (fun d : List Instr × Nat × CmdState => d.2.2) h

/-- A fold that carries a state and answers, none of whose steps changes what `π` reads. -/
theorem State.foldl_fst_keeps {α β γ : Type} (π : State → γ) (g : State × β → α → State × β) (h : ∀ x a, π (g x a).1 = π x.1) (l : List α)
    (x : State × β) : π (l.foldl g x).1 = π x.1 := by
  induction l generalizing x with
  | nil => rfl
  | cons a l ih => rw [List.foldl_cons, ih, h]

/-! ### Outbound operations -/

@[simp] theorem State.dropOutbound_desk (o : Outbound) : (s.dropOutbound o).desk = s.desk := by
  unfold State.dropOutbound
  dsimp only
  repeat' split
  all_goals rfl

theorem State.foldl_dropOutbound_desk (l : List Outbound) (s : State) : (l.foldl (fun s o => s.dropOutbound o) s).desk = s.desk :=
  State.foldl_keeps State.desk _ (fun s o => s.dropOutbound_desk o) l s

@[simp] theorem State.pumpOutbound_desk (s : State) : s.pumpOutbound.desk = s.desk := by
  have hlow (a b : State) : (a.poolLow b).desk = b.desk := by
    unfold State.poolLow
    split
    · exact State.desk_congr (by simp) (by simp) (by simp)
    · rfl
  unfold State.pumpOutbound
  dsimp only
  have hnet (a : State) (n : NetState) : (a.setNet n).desk = a.desk := rfl
  rw [hlow, hnet]
  refine State.foldl_fst_keeps State.desk _ (fun x o => ?_) s.net.outbound (s, [])
  split
  · rfl
  · split
    · rfl
    · exact State.desk_congr (by simp) (by simp) (by simp)

/-! ### Fills -/

theorem State.finishId_none (h : s.cmds.list = []) (i : Nat) (r : Result) : s.finishId i r = s := by
  simp [State.finishId, State.cmd, h]

@[simp] theorem State.dropFill_desk (d v : Nat) : (s.dropFill d v).desk = s.desk := State.foldl_dropOutbound_desk _ _

@[simp] theorem State.failFill_desk (d v : Nat) : (s.failFill d v).desk = s.desk := by
  unfold State.failFill
  split
  · rfl
  · have hc := State.cmds_of_desk (s.dropFill_desk d v)
    refine State.desk_congr ?_ ?_ ?_ <;> dsimp only <;> split <;> simp [hc]

theorem State.fillLost_desk (h : s.cmds.list = []) (d v : Nat) : (s.fillLost d v).desk = s.desk := by
  unfold State.fillLost
  rw [h]
  split
  · rfl
  · exact s.failFill_desk d v

/-! ### Reads of frames -/

@[simp] theorem State.readList_desk (ws : List Nat) (cls : Nat) : (s.readList ws cls).1.desk = s.desk := by
  refine State.foldl_fst_keeps State.desk _ (fun x w => ?_) ws (s, [])
  split
  · rfl
  all_goals exact State.desk_congr (by simp) (by simp) (by simp)

@[simp] theorem State.readAll_desk (fs : List Nat) (cls : Nat) : (s.readAll fs cls).1.desk = s.desk := by
  refine State.foldl_fst_keeps State.desk _ (fun x f => ?_) fs (s, false)
  exact State.readList_desk _ _

/-! ### Checkpoint jobs -/

theorem State.unpinJob_desk (j : Job) : (s.unpinJob j).desk = s.desk := by
  refine State.foldl_keeps State.desk _ (fun s p => ?_) _ _
  split
  · rfl
  · exact State.desk_congr (by simp) (by simp) (by simp)

theorem State.startExport_desk {kind : JobKind} {cmd d q idx offset : Nat} {recipient : List Byte} {full : Bool} {x : State × Job}
    (h : s.startExport kind cmd d q idx offset recipient full = .ok x) : x.1.desk = s.desk := by
  unfold State.startExport at h
  split at h
  case h_2 => cases h
  case h_1 r e _ _ =>
    extract_lets sh s1 l o at h
    have h1 : s1.desk = s.desk := State.readAll_desk _ _
    split at h
    · cases h
    · rename_i id set _ s2 writes n j _ s3 s4 s5 s6 s7 s8 _
      obtain rfl := Except.ok.inj h
      have h2 : s2.desk = s1.desk := State.desk_congr (by simp [s2]) (by simp [s2]) (by simp [s2])
      have h3 : s3.desk = s2.desk := State.desk_congr (by simp [s3]) (by simp [s3]) (by simp [s3])
      have h4 : s4.desk = s3.desk := State.desk_congr (by simp [s4]) (by simp [s4]) (by simp [s4])
      have h5 : s5.desk = s4.desk :=
        State.desk_congr (by simp [s5, State.putJobRec]) (by simp [s5, State.putJobRec]) (by simp [s5, State.putJobRec])
      have h6 : s6.desk = s5.desk := State.desk_congr (by simp [s6]) (by simp [s6]) (by simp [s6])
      have h7 : s7.desk = s6.desk := State.desk_congr (by simp [s7]) (by simp [s7]) (by simp [s7])
      have h8 : s8.desk = s7.desk := State.foldl_keeps State.desk _
        (fun s w => State.desk_congr (by simp) (by simp) (by simp)) _ _
      rw [State.pumpOutbound_desk, ← h1, ← h2, ← h3, ← h4, ← h5, ← h6, ← h7, ← h8]
      exact State.desk_congr (by simp) (by simp) (by simp)

theorem State.nextOverflow_desk (d : Nat) (o : Overflow) (qs : List Nat) (s : State) : (s.nextOverflow d o qs).desk = s.desk := by
  induction qs with
  | nil => rfl
  | cons q qs ih =>
    unfold State.nextOverflow
    split
    · exact ih
    · split
      · exact ih
      · split
        · exact ih
        · rename_i h
          exact State.startExport_desk h

theorem State.destroySeq_desk (d q : Nat) (r : SeqRec) : (s.destroySeq d q r).1.desk = s.desk := by
  have hpages : (s.dropPages d r (s.shape d r.shapeId)).1.desk = s.desk := by
    refine State.foldl_fst_keeps State.desk _ (fun x vp => ?_) _ _
    dsimp only
    split
    · split <;> exact State.desk_congr (by simp) (by simp) (by simp)
    · exact State.desk_congr (by simp) (by simp) (by simp)
  rw [← hpages]
  unfold State.destroySeq
  dsimp only
  refine State.desk_congr ?_ ?_ ?_ <;> split <;> simp [State.refund]

theorem State.sweepSets_desk (s : State) : s.sweepSets.desk = s.desk := rfl

theorem State.closeJob_desk (j : Job) : (s.closeJob j).desk = s.desk := by
  unfold State.closeJob
  extract_lets a _ b
  have hb : b.desk = s.desk := (State.unpinJob_desk j).trans (State.foldl_dropOutbound_desk _ _)
  rw [← hb]
  split
  · split
    · exact State.nextOverflow_desk _ _ _ _
    · rfl
  · rfl
  · split
    · split <;> rfl
    · rfl
  · split
    · rw [State.sweepSets_desk, State.destroySeq_desk]
    · rfl

theorem State.failJob_desk (h : s.cmds.list = []) (i status : Nat) : (s.failJob i status).desk = s.desk := by
  unfold State.failJob
  split
  · rfl
  · rename_i j _
    have hj := s.closeJob_desk j
    have hc : (s.closeJob j).cmds.list = [] := by rw [State.cmds_of_desk hj, h]
    split <;> simp only [State.finishId_none hc, hj]

theorem State.endOut_desk (h : s.cmds.list = []) (status : Nat) (o : Outbound) : (s.endOut status o).desk = s.desk := by
  have ho := s.dropOutbound_desk o
  have hc : (s.dropOutbound o).cmds.list = [] := by rw [State.cmds_of_desk ho, h]
  unfold State.endOut
  dsimp only
  split
  · rw [State.finishId_none hc, ite_self, ho]
  · rw [State.fillLost_desk hc, ho]
  · rw [State.failJob_desk hc, ho]

theorem State.foldl_endOut_desk (status : Nat) (l : List Outbound) (s : State) (h : s.cmds.list = []) :
    (l.foldl (fun s o => s.endOut status o) s).desk = s.desk := by
  induction l generalizing s with
  | nil => rfl
  | cons o l ih =>
    have ho := State.endOut_desk h status o
    rw [List.foldl_cons, ih _ (by rw [State.cmds_of_desk ho, h]), ho]

/-! ### PG_CTL ABORT of XPRT (R31) -/

theorem fragIn_xprt (f : Frag) : fragIn pgXprt f = false := rfl

theorem State.abortOther_xprt_desk (h : s.cmds.list = []) : (s.abortOther pgXprt).desk = s.desk := by
  have hl : s.eng.frags.filter (fun (x : Nat × Frag) => fragIn pgXprt x.2 && (s.cmd x.2.cmd).isNone) = [] := by
    simp [fragIn_xprt]
  unfold State.abortOther
  rw [hl]
  exact State.foldl_endOut_desk stAborted s.net.outbound s h

theorem State.settleAborts_none (h : s.cmds.list = []) : s.settleAborts = s := by
  rw [State.settleAborts, h]
  rfl

theorem State.finish_only {c : Cmd} (h : s.cmds.list = [c]) (r : Result) : (s.finish c r).cmds.list = [] := by
  simp [State.finish, State.dropCmd, h]

/-- Every admitted command has work in XPRT (Log 75), so an ABORT of it ends the only one. -/
theorem State.pageAbort_xprt {c : Cmd} {d : WaitCountD} (h : s.cmds.list = [c]) (hop : c.op = .waitCount d) (hsp : c.wait.space = .none) :
    s.pageAbort pgXprt [] = (s.finish c { status := stAborted, c0 := c.c0, c1 := c.c1 }).abortOther pgXprt := by
  have hheld : s.holdsCmd pgXprt c = true := by
    unfold State.holdsCmd
    simp [show pageType pgXprt = some (.xprt, 0) from rfl, show pageTile pgXprt = none from rfl]
  have hcmd : s.cmd c.id = some c := by simp [State.cmd, h]
  have habort : s.abortCmd c stAborted true = s.finish c { status := stAborted, c0 := c.c0, c1 := c.c1 } := by
    simp only [State.abortCmd, hop, State.finishHeld, hsp]
    rfl
  have hempty := State.abortOther_xprt_desk (State.finish_only h { status := stAborted, c0 := c.c0, c1 := c.c1 })
  unfold State.pageAbort
  simp only [h, List.filter_cons, hheld, List.filter_nil, List.foldl_cons, List.foldl_nil, hcmd, List.any_nil, if_true,
    Bool.false_eq_true, if_false, habort]
  exact State.settleAborts_none (by rw [State.cmds_of_desk hempty, State.finish_only h])

theorem State.abortXprt_outcome {c : Cmd} {d : WaitCountD} (hw : s.mayWrite ag pgXprt 0x18 = true) (h : s.cmds.list = [c])
    (hop : c.op = .waitCount d) (hsp : c.wait.space = .none) :
    exec (.pgCtlAbort ag pgXprt []) s = .next ((s.finish c { status := stAborted, c0 := c.c0, c1 := c.c1 }).abortOther pgXprt) := by
  have hblock : s.abortBlock pgXprt [] = s.pageAbort pgXprt [] := by
    have hheld : s.fw.held.filter (fun h => (pgXprt == pgMbox || corePage pgXprt == some h.m.core) && !s.underWay h) = [] := by
      have hcore : corePage pgXprt = none := rfl
      simp [hcore, show (pgXprt == pgMbox) = false from rfl]
    rw [State.abortBlock, hheld]
    rfl
  have hdesk := State.abortOther_xprt_desk (State.finish_only h { status := stAborted, c0 := c.c0, c1 := c.c1 })
  show s.did (s.abortPage ag pgXprt []) = _
  rw [State.abortPage, State.regWrite_applied hw, hblock, State.pageAbort_xprt h hop hsp]
  refine State.did_of_keeps ?_ ?_
  · simp only [State.pending_of_desk hdesk, State.finish_frame]
  · simp only [State.nrt_of_desk hdesk, State.finish_frame]

end Sys2Proof.Machine
end

section

open Sys2Proof Sys2Proof.Machine

/-- Settles O18: each write of the header is applied once its access is allowed, and acts as the lemma of its register says. -/
theorem thePageHeaderActs : Obligations.ThePageHeaderActs := by
  unfold Obligations.ThePageHeaderActs
  refine ⟨fun s ag page on hw hok hx => ?_, fun s ag page hw hok hx => ?_, fun s ag page pass hw hq => State.softReset_outcome hw hq pass,
    fun s ag c d => State.abortXprt_outcome, fun s l page => State.lockTake_outcome l, fun s l page => State.lockRelease_outcome l,
    fun s ag tile => State.commitTsch_outcome, fun s ag page => State.commitOther_outcome, fun s ag page => State.errLogClear_outcome,
    fun s ag page off a b keep => State.counterClear_outcome⟩
  · rw [exec_pgCtlEnable]
    refine State.setCtl_outcome hw hok (by cases on <;> decide) (s.fld_lt page 0x18 1) fun hpg hon => hx hpg ?_
    cases on
    · cases hon
    · rfl
  · obtain ⟨t, ht, h0, h1, hsame⟩ := State.setCtl_outcome hw hok (s.fld_lt page 0x18 0) (f := 1) (by decide) fun hpg _ => hx hpg
    exact ⟨t, by rw [exec_pgCtlFreeze, State.setFreeze, Nat.add_comm]; exact ht, h1, h0, hsame⟩

end

section
/-!
SUPPORT. What a command does that is admitted and runs at once: its number is new, it runs in the state that admission leaves, and its
outcome ends it or lets it wait (R289, R469).
-/

namespace Sys2Proof.Machine

variable {s t : State} {q : Req} {op : Op}

/-! ### The number of a command -/

theorem lt_foldl_max_of_mem {i : Nat} {l : List Nat} (h : i ∈ l) (n : Nat) : i < l.foldl (fun n i => max n (i + 1)) n := by
  have hn : ∀ (l : List Nat) (n : Nat), n ≤ l.foldl (fun n i => max n (i + 1)) n := by
    intro l
    induction l with
    | nil => exact fun n => Nat.le_refl n
    | cons j l ih => exact fun n => Nat.le_trans (Nat.le_max_left ..) (ih _)
  induction l generalizing n with
  | nil => cases h
  | cons j l ih =>
    obtain rfl | h := List.mem_cons.mp h
    · exact Nat.lt_of_lt_of_le (Nat.lt_of_lt_of_le (Nat.lt_succ_self i) (Nat.le_max_right ..)) (hn l _)
    · exact ih h _

/-- No admitted command, and no command of a checkpoint job, has the number of the next one. -/
theorem State.lt_cmdNumber (s : State) {i : Nat} (h : (∃ c ∈ s.cmds.list, c.id = i) ∨ (∃ p ∈ s.ckpt.jobs, p.2.cmd = i)) :
    i < s.cmdNumber := by
  refine lt_foldl_max_of_mem ?_ _
  obtain ⟨c, hc, rfl⟩ | ⟨p, hp, rfl⟩ := h
  · exact List.mem_append_left _ (List.mem_append_left _ (List.mem_append_left _ (List.mem_map_of_mem hc)))
  · exact List.mem_append_left _ (List.mem_append_left _ (List.mem_append_right _ (List.mem_map_of_mem (f := fun p : Nat × Job => p.2.cmd) hp)))

theorem State.newCmd_id_ne {c : Cmd} (h : c ∈ s.cmds.list) (q : Req) (op : Op) (fb : Bool) : c.id ≠ (s.newCmd q op fb).id :=
  Nat.ne_of_lt (s.lt_cmdNumber (.inl ⟨c, h, rfl⟩))

/-! ### Admission -/

theorem State.admits_elim (h : s.admits q op = true) : s.running = true ∧ s.admission q.src q.hdr op = .accept false ∧
    s.mustTurn q.hdr.domain op = false ∧ s.lcRefused q.hdr op = false ∧ (gateUnits (s.newCmd q op false)).all s.unitAdmits = true := by
  simp only [State.admits, Bool.and_eq_true, beq_iff_eq, Bool.not_eq_true'] at h
  obtain ⟨⟨⟨⟨hrun, hadm⟩, hturn⟩, hlc⟩, hunits⟩ := h
  refine ⟨hrun, hadm, hturn, ?_, hunits⟩
  unfold State.lcRefused
  split
  · rfl
  · cases hc : AL.get q.hdr.context s.cmds.ctxs <;> cases hl : q.hdr.lc <;> simp_all

theorem State.admitted_cmds (s : State) (q : Req) (op : Op) : (s.admitted q op).cmds =
    { s.cmds with nextId := (s.newCmd q op false).id + 1, list := s.cmds.list ++ [s.newCmd q op false] } := by
  unfold State.admitted State.taken
  dsimp only
  split <;> simp

theorem State.find_new (hl : t.cmds.list = s.cmds.list ++ [s.newCmd q op false]) :
    t.cmd (s.newCmd q op false).id = some (s.newCmd q op false) := by
  have hnone : s.cmds.list.find? (fun x => x.id == (s.newCmd q op false).id) = none := by
    rw [List.find?_eq_none]
    exact fun c hc => by simpa using State.newCmd_id_ne hc q op false
  rw [State.cmd, hl, List.find?_append, hnone]
  simp

theorem State.admitted_cmd (s : State) (q : Req) (op : Op) : (s.admitted q op).cmd (s.newCmd q op false).id = some (s.newCmd q op false) :=
  State.find_new (by rw [State.admitted_cmds])

theorem State.jobOfCmd_new (hj : t.ckpt = s.ckpt) : t.jobOfCmd (s.newCmd q op false).id = none := by
  rw [State.jobOfCmd, hj, Option.map_eq_none_iff, List.find?_eq_none]
  exact fun p hp => by simpa using (Nat.ne_of_lt (s.lt_cmdNumber (.inr ⟨p, hp, rfl⟩)) : p.2.cmd ≠ (s.newCmd q op false).id)

/-- An admitted command runs in the state that its admission leaves. -/
theorem State.command_runs (h : s.admits q op = true) : s.command q op = (s.admitted q op).run (s.newCmd q op false) none false := by
  obtain ⟨-, hadm, hturn, hlc, -⟩ := State.admits_elim h
  rw [State.command_accepted hadm, State.enter_run hlc hturn]
  rfl

theorem State.newCmd_wait (h : s.admits q op = true) : (s.newCmd q op false).wait = .none := by
  obtain ⟨-, -, hturn, -, -⟩ := State.admits_elim h
  simp [State.newCmd, hturn]

/-! ### The outcome of a command that no record and no unit stops -/

/-- A new command that waits for nothing ends with its result. -/
theorem State.applyRes_done {op : Op} {e : State} {r : Result} (h : s.admits q op = true)
    (hcmd : e.cmd (s.newCmd q op false).id = some (s.newCmd q op false)) (hck : e.ckpt = s.ckpt) :
    State.applyRes (s.newCmd q op false).id (.done e r) = e.finish (s.newCmd q op false) r := by
  have hr (b : Bool) : (if b then r else { r with c0 := r.c0 + (s.newCmd q op false).c0 }) = r := by split <;> rfl
  unfold State.applyRes
  simp only [hcmd, State.jobOfCmd_new hck]
  rw [hr, State.finishHeld, State.newCmd_wait h]
  rfl

theorem State.applyRes_wait {e : State} {w : Wait} {n : Nat} (h : s.admits q op = true)
    (hcmd : e.cmd (s.newCmd q op false).id = some (s.newCmd q op false)) (hfx : effectsAtOnce op = false) :
    State.applyRes (s.newCmd q op false).id (.wait e w n) = e.setCmd { s.newCmd q op false with wait := w, c0 := n } := by
  have hop : (s.newCmd q op false).op = op := rfl
  have hw : sinceFirst (s.newCmd q op false).wait w = w := by rw [State.newCmd_wait h]; rfl
  have h0 : (s.newCmd q op false).c0 + n = n := Nat.zero_add n
  have he : (s.newCmd q op false).effected = false := rfl
  unfold State.applyRes
  simp only [hcmd, hop, hfx, hw, h0, Bool.false_and, Bool.or_false]
  rw [State.newCmd_wait h]
  rfl

/-! ### NOP, FENCE and ABORT need no record and no unit -/

theorem State.closedUnit_none {e : State} {c : Cmd} (h : gateUnits c = []) : e.closedUnit c = none := by
  unfold State.closedUnit
  rw [h]
  split <;> rfl

theorem State.runOp_nop {e : State} {c : Cmd} (h : c.op = .nop) : e.runOp c none false = .done e { status := stOk } := by
  unfold State.runOp
  rw [State.closedUnit_none (by simp [gateUnits, h])]
  simp [h, Op.needs]

theorem State.runOp_fence {e : State} {c : Cmd} (h : c.op = .fence) : e.runOp c none false = e.doFence c := by
  unfold State.runOp
  rw [State.closedUnit_none (by simp [gateUnits, h])]
  simp [h, Op.needs]

theorem State.runOp_abort {e : State} {c : Cmd} {a : AbortD} (h : c.op = .abort a) : e.runOp c none false = e.doAbort c a := by
  unfold State.runOp
  rw [State.closedUnit_none (by simp [gateUnits, h])]
  simp [h, Op.needs]

theorem exec_nop (q : Req) (s : State) : exec (.nop q) s = s.inService (·.command q .nop) := rfl
theorem exec_fence (q : Req) (s : State) : exec (.fence q) s = s.inService (·.command q .fence) := rfl
theorem exec_abort (q : Req) (a : AbortD) (s : State) : exec (.abort q a) s = s.inService (·.command q (.abort a)) := rfl
theorem exec_quiesceTimeout (n : Nat) (units : List Nat) (s : State) :
    exec (.quiesceTimeout n units) s = s.inService (·.quiesce n units) := rfl

theorem State.inService_keeps {f : State → State} (hrun : s.running = true) (hf : f s = t) (hp : t.pending = s.pending) (hn : t.nrt = s.nrt) :
    s.inService f = .next t := by
  rw [State.inService_on hrun, hf, ← hp, ← hn]

theorem State.admitted_pending (s : State) (q : Req) (op : Op) : (s.admitted q op).pending = s.pending := by simp [State.admitted]
theorem State.admitted_nrt (s : State) (q : Req) (op : Op) : (s.admitted q op).nrt = s.nrt := by simp [State.admitted]
theorem State.admitted_ckpt (s : State) (q : Req) (op : Op) : (s.admitted q op).ckpt = s.ckpt := by simp [State.admitted]

/-- An admitted command that its operation ends at once with a result. -/
theorem State.inService_ends {e : State} {r : Result} (h : s.admits q op = true)
    (hrun : (s.admitted q op).runOp (s.newCmd q op false) none false = .done e r)
    (hcmd : e.cmd (s.newCmd q op false).id = some (s.newCmd q op false)) (hp : e.pending = s.pending) (hn : e.nrt = s.nrt)
    (hck : e.ckpt = s.ckpt) : s.inService (·.command q op) = .next (e.finish (s.newCmd q op false) r) := by
  refine State.inService_keeps (State.admits_elim h).1 ?_ (by simp [hp]) (by simp [hn])
  rw [State.command_runs h, State.run, hrun, State.applyRes_done h hcmd hck]

/-- An admitted command that its operation lets wait. -/
theorem State.inService_waits {e : State} {w : Wait} {n : Nat} (h : s.admits q op = true) (hfx : effectsAtOnce op = false)
    (hrun : (s.admitted q op).runOp (s.newCmd q op false) none false = .wait e w n)
    (hcmd : e.cmd (s.newCmd q op false).id = some (s.newCmd q op false)) (hp : e.pending = s.pending) (hn : e.nrt = s.nrt) :
    s.inService (·.command q op) = .next (e.setCmd { s.newCmd q op false with wait := w, c0 := n }) := by
  refine State.inService_keeps (State.admits_elim h).1 ?_ (by simp [hp]) (by simp [hn])
  rw [State.command_runs h, State.run, hrun, State.applyRes_wait h hcmd hfx]

/-! ### FENCE (R289) -/

theorem State.find_setCmd {c d : Cmd} (h : s.cmd c.id = some d) : (s.setCmd c).cmd c.id = some c := by
  simp only [State.cmd, State.setCmd] at h ⊢
  generalize s.cmds.list = l at h ⊢
  induction l with
  | nil => cases h
  | cons x l ih =>
    by_cases hx : x.id = c.id
    · simp [hx]
    · simp only [List.find?_cons, hx, beq_eq_false_iff_ne.mpr, ne_eq, not_false_eq_true, List.map_cons, if_false] at h ⊢
      exact ih h

theorem State.fence_waits_outcome {e : State} (h : s.admits q .fence = true) (he : e = s.admitted q .fence)
    (hids : e.fenceIds (s.newCmd q .fence false) ≠ []) :
    ∃ t, exec (.fence q) s = .next t ∧
      t.cmd (s.newCmd q .fence false).id = some { s.newCmd q .fence false with
        wait := .fence (e.fenceIds (s.newCmd q .fence false))
        c0 := (e.fenceIds (s.newCmd q .fence false)).length } ∧
      t = { e with cmds := t.cmds } := by
  subst he
  have hcmd := s.admitted_cmd q .fence
  have hrun : (s.admitted q .fence).runOp (s.newCmd q .fence false) none false = .wait (s.admitted q .fence)
      (.fence ((s.admitted q .fence).fenceIds (s.newCmd q .fence false))) ((s.admitted q .fence).fenceIds (s.newCmd q .fence false)).length := by
    rw [State.runOp_fence rfl, State.doFence]
    simp [hids]
  exact ⟨_, (exec_fence q s).trans (State.inService_waits h rfl hrun hcmd (s.admitted_pending q _) (s.admitted_nrt q _)),
    State.find_setCmd hcmd, rfl⟩

theorem State.fence_ends_outcome {e : State} (h : s.admits q .fence = true) (he : e = s.admitted q .fence)
    (hids : e.fenceIds (s.newCmd q .fence false) = []) :
    exec (.fence q) s = .next (e.finish (s.newCmd q .fence false) { status := stOk }) := by
  subst he
  rw [exec_fence]
  refine State.inService_ends h ?_ (s.admitted_cmd q _) (s.admitted_pending q _) (s.admitted_nrt q _) (s.admitted_ckpt q _)
  rw [State.runOp_fence rfl, State.doFence]
  simp [hids]

/-! ### A refused ABORT (R293, R294) -/

theorem State.abort_refused_outcome {e : State} {a : AbortD} {x : Result} (h : s.admits q (.abort a) = true)
    (he : e = s.admitted q (.abort a)) (hx : e.abortRefusal q.hdr q.src a = some x) :
    exec (.abort q a) s = .next (e.finish (s.newCmd q (.abort a) false) x) := by
  subst he
  rw [exec_abort]
  refine State.inService_ends h ?_ (s.admitted_cmd q _) (s.admitted_pending q _) (s.admitted_nrt q _) (s.admitted_ckpt q _)
  have hx' : (s.admitted q (.abort a)).abortRefusal (s.newCmd q (.abort a) false).hdr (s.newCmd q (.abort a) false).src a = some x := hx
  rw [State.runOp_abort rfl, State.doAbort, hx']

end Sys2Proof.Machine
end

section
/-!
SUPPORT. A completion of a ring (R45, R355, R469, Tables 2-20 and 19-7): the record at CQ_TAIL, the state block after the area, and the
ring's own counters; and NOP.
-/

namespace Sys2Proof.Machine

variable {s t u : State} {n : Nat}

/-! ### Rings, and the registers of DBEL that configure them -/

theorem State.ring_setRing (s : State) (n : Nat) (r : Ring) : (s.setRing n r).ring n = r := AL.getD_put ..

theorem State.ring_setRing_ne {m : Nat} (h : m ≠ n) (r : Ring) : (s.setRing n r).ring m = s.ring m := AL.getD_put_ne h ..

theorem State.ring_congr (h : t.host.rings = s.host.rings) (m : Nat) : t.ring m = s.ring m := by rw [State.ring, State.ring, h]

/-- The two states configure every ring alike: the registers of DBEL are the same. -/
def State.dbelSame (s t : State) : Prop := ∀ off i, t.regI pgDbel off i = s.regI pgDbel off i

theorem State.dbelSame.of_rf (h : t.rf = s.rf) : State.dbelSame s t := fun _ _ => by rw [State.regI, State.regI, h]

theorem State.dbelSame.trans (h : State.dbelSame s t) (hu : State.dbelSame t u) : State.dbelSame s u := fun off i => (hu off i).trans (h off i)

theorem State.dbelSame.rcfg (h : State.dbelSame s t) (n off lo w : Nat) : t.rcfg n off lo w = s.rcfg n off lo w := by
  rw [State.rcfg, State.rcfg, State.fldI, State.fldI, h]

theorem State.dbelSame.cq (h : State.dbelSame s t) (n : Nat) : t.cqBase n = s.cqBase n ∧ t.cqSize n = s.cqSize n := by
  rw [State.cqBase, State.cqBase, State.cqSize, State.cqSize, h.rcfg, h.rcfg]
  exact ⟨rfl, rfl⟩

theorem State.bump64_dbelSame (s : State) (l : Link) (n : Nat) : State.dbelSame s (s.bump64 (pgHlnk l) 0x128 n) := by
  intro off i
  have hpg : pgDbel ≠ pgHlnk l := by cases l <;> decide
  rw [State.bump64, State.regI_setReg_other (by decide) (.inl hpg), State.regI_setReg_other (by decide) (.inl hpg)]

theorem State.emitFlit_dbelSame (s : State) (l : Link) (b : FlitBody) : State.dbelSame s (s.emitFlit l b) := by
  unfold State.emitFlit
  dsimp only
  split
  · exact (State.dbelSame.of_rf (State.setLink_rf ..)).trans (State.bump64_dbelSame _ l _)
  · exact State.dbelSame.of_rf (State.setLink_rf ..)

theorem State.drainWaiting_dbelSame (s : State) (l : Link) (n : Nat) : State.dbelSame s (s.drainWaiting l n) := by
  induction n generalizing s with
  | zero => exact .of_rf rfl
  | succ n ih =>
    unfold State.drainWaiting
    dsimp only
    split
    · exact .of_rf rfl
    · split
      · exact ((State.dbelSame.of_rf (State.setLink_rf ..)).trans (State.emitFlit_dbelSame _ l _)).trans (ih _)
      · exact .of_rf rfl

/-- A transaction toward a host moves no register of DBEL. -/
theorem State.hostSend_dbelSame (s : State) (x : HostTxn) : State.dbelSame s (s.hostSend x) := by
  unfold State.hostSend
  split
  · exact .of_rf rfl
  · exact (State.dbelSame.of_rf (State.setLink_rf ..)).trans (State.drainWaiting_dbelSame _ _ _)

/-! ### The record at CQ_TAIL (R45) -/

/-- A ring whose next record goes one slot further, with the other phase when the area is full. -/
def stepTail (r : Ring) (size : Nat) : Ring :=
  { r with cqTail := if r.cqTail + 1 = size then 0 else r.cqTail + 1, phase := if r.cqTail + 1 = size then !r.phase else r.phase }

/-- A push to the copy of a ring's area in host memory, if it has one: no byte, ring or register of DBEL moves. -/
theorem State.mirror_outcome (u : State) (p : Prop) [Decidable p] (x : HostTxn) : (if p then u.hostSend x else u).mem = u.mem ∧
    (∀ m, (if p then u.hostSend x else u).ring m = u.ring m) ∧ State.dbelSame u (if p then u.hostSend x else u) := by
  split
  · exact ⟨State.hostSend_mem .., State.ring_congr (State.hostSend_rings ..), u.hostSend_dbelSame x⟩
  · exact ⟨rfl, fun _ => rfl, fun _ _ => rfl⟩

theorem State.writeRecord_outcome (s : State) {c : Completion} {time : Nat} (hst : (s.ring n).st = .running) :
    (s.writeRecord n c time).mem =
      s.mem.writeN (ringAddr (s.cqBase n + (s.ring n).cqTail * 32)) (recordBytes c (s.ring n).phase time) ∧
    (s.writeRecord n c time).ring n = stepTail (s.ring n) (s.cqSize n) ∧
    (∀ m, m ≠ n → (s.writeRecord n c time).ring m = s.ring m) ∧ State.dbelSame s (s.writeRecord n c time) := by
  obtain ⟨u, hu⟩ : ∃ u, u = (s.ringWrite (s.cqBase n + (s.ring n).cqTail * 32) (recordBytes c (s.ring n).phase time)).setRing n
    (stepTail (s.ring n) (s.cqSize n)) := ⟨_, rfl⟩
  have hwrite : s.writeRecord n c time = if u.ringMirror n = true then
      u.hostSend (.push (u.rcfg n 0x124 0 16) ((s.ring n).cqTail * 32) (recordBytes c (s.ring n).phase time)) else u := by
    have hlost : (s.ring n).st ≠ .lost := by rw [hst]; decide
    have hcq (d : List Byte) : (s.ringWrite (s.cqBase n + (s.ring n).cqTail * 32) d).cqSize n = s.cqSize n := rfl
    unfold State.writeRecord
    simp only [if_neg hlost, hcq, beq_iff_eq, hu]
    rfl
  have hmem : u.mem = s.mem.writeN (ringAddr (s.cqBase n + (s.ring n).cqTail * 32)) (recordBytes c (s.ring n).phase time) := by simp [hu]
  have hring : u.ring n = stepTail (s.ring n) (s.cqSize n) := by rw [hu, State.ring_setRing]
  have hne (m : Nat) (hm : m ≠ n) : u.ring m = s.ring m := by
    rw [hu, State.ring_setRing_ne hm, State.ring_congr (s := s) (by simp)]
  have hdbel : State.dbelSame s u := State.dbelSame.of_rf (by simp [hu])
  obtain ⟨hm, hr, hd⟩ := u.mirror_outcome (u.ringMirror n = true)
    (.push (u.rcfg n 0x124 0 16) ((s.ring n).cqTail * 32) (recordBytes c (s.ring n).phase time))
  rw [hwrite, hm, hr]
  exact ⟨hmem, hring, fun m h => (hr m).trans (hne m h), hdbel.trans hd⟩

/-! ### The state block after the area (Table 19-7) -/

theorem State.length_stateBlock (s : State) (r : Ring) : (s.stateBlock r).length = 64 := by simp [State.stateBlock]

theorem State.postBlock_outcome (s : State) (hst : (s.ring n).st = .running) :
    (s.postBlock n).mem = s.mem.writeN (ringAddr (s.cqBase n + s.cqSize n * 32)) (s.stateBlock (s.ring n)) ∧
    (∀ m, (s.postBlock n).ring m = s.ring m) ∧ State.dbelSame s (s.postBlock n) := by
  obtain ⟨u, hu⟩ : ∃ u, u = s.ringWrite (s.cqBase n + s.cqSize n * 32) (s.stateBlock (s.ring n)) := ⟨_, rfl⟩
  have hpost : s.postBlock n = if u.ringMirror n = true then
      u.hostSend (.push (u.rcfg n 0x124 0 16) (u.cqSize n * 32) (s.stateBlock (s.ring n))) else u := by
    have hlost : (s.ring n).st ≠ .lost := by rw [hst]; decide
    unfold State.postBlock
    simp only [if_neg hlost, hu]
  have hmem : u.mem = s.mem.writeN (ringAddr (s.cqBase n + s.cqSize n * 32)) (s.stateBlock (s.ring n)) := by simp [hu]
  have hring (m : Nat) : u.ring m = s.ring m := State.ring_congr (by simp [hu]) m
  have hdbel : State.dbelSame s u := State.dbelSame.of_rf (by simp [hu])
  obtain ⟨hm, hr, hd⟩ := u.mirror_outcome (u.ringMirror n = true)
    (.push (u.rcfg n 0x124 0 16) (u.cqSize n * 32) (s.stateBlock (s.ring n)))
  rw [hpost, hm]
  exact ⟨hmem, fun m => (hr m).trans (hring m), hdbel.trans hd⟩

/-! ### Interrupt moderation (R469) -/

/-- A ring less what its interrupt moderation keeps. -/
def ringCore (r : Ring) : Ring := { r with unsig := 0, unsigAt := 0, rvec := 0 }

theorem State.stateBlock_core (s : State) (r : Ring) : s.stateBlock (ringCore r) = s.stateBlock r := rfl

theorem State.ringIrq_outcome (s : State) (n : Nat) :
    ringCore ((s.ringIrq n).ring n) = ringCore (s.ring n) ∧ ∀ m, m ≠ n → (s.ringIrq n).ring m = s.ring m := by
  have hmsg (s : State) (r : Ring) : ((s.setRing n r).ringMsg n).ring n = { r with unsig := 0 } ∧
      ∀ m, m ≠ n → ((s.setRing n r).ringMsg n).ring m = s.ring m := by
    unfold State.ringMsg
    refine ⟨(State.ring_congr (State.hostSend_rings _ _) n).trans ?_, fun m hm => (State.ring_congr (State.hostSend_rings _ _) m).trans ?_⟩
    · rw [State.ring_setRing, State.ring_setRing]
    · rw [State.ring_setRing_ne hm, State.ring_setRing_ne hm]
  unfold State.ringIrq
  dsimp only
  split
  · exact ⟨rfl, fun _ _ => rfl⟩
  · split
    · obtain ⟨h, hne⟩ := hmsg s { s.ring n with
        unsig := (s.ring n).unsig + 1
        unsigAt := if (s.ring n).unsig = 0 then s.nrt else (s.ring n).unsigAt
        rvec := s.regI pgDbel 0x120 n }
      exact ⟨by rw [h]; rfl, hne⟩
    · exact ⟨by rw [State.ring_setRing]; rfl, fun m hm => State.ring_setRing_ne hm _⟩

end Sys2Proof.Machine
end

section
/-!
SUPPORT. NOP of a ring, with and without its record, and NOP of a connection (R45, R355, R469, R501, Tables 2-20 and 19-7).
-/

namespace Sys2Proof.Machine

variable {s t u : State} {q : Req} {n : Nat}

/-! ### The ring area (Tables 10-1 and 19-5) -/

/-- Records are 32 bytes at offsets of 32, and no quarter of the window ends within one. -/
theorem ringAddr_next {a b : Nat} (ha : 0x08000000 ≤ a) (hal : a % 32 = 0) (hb : a + 32 ≤ b) : ringAddr a + 32 ≤ ringAddr b := by
  simp only [ringAddr, benchAddr]
  omega

theorem State.ringAddr_record_block (s : State) (n : Nat) {k : Nat} (hk : k < s.cqSize n) :
    ringAddr (s.cqBase n + k * 32) + 32 ≤ ringAddr (s.cqBase n + s.cqSize n * 32) := by
  have hbase : 0x08000000 ≤ s.cqBase n ∧ s.cqBase n % 32 = 0 := by
    simp only [State.cqBase]
    omega
  exact ringAddr_next (by omega) (by omega) (by omega)

/-! ### A completion of a running ring with ST_OK -/

/-- The counters of a ring after a command of it that ended with ST_OK. -/
def oneDone (r : Ring) : Ring := { r with done := r.done + 1, inflight := r.inflight - 1 }

/-- What a completion with ST_OK does to the counters of a running ring, between the record and the state block. -/
theorem State.countDone_ring (hst : (s.ring n).st = .running) {c : Completion} (hc : c.status = stOk) :
    ({ s.ring n with
      done := (s.ring n).done + 1
      fail := if 0x10 ≤ c.status then (s.ring n).fail + 1 else (s.ring n).fail
      inflight := (s.ring n).inflight - 1
      st := if (s.ring n).st = .draining ∧ (s.ring n).inflight - 1 = 0 then .disabled else (s.ring n).st } : Ring) = oneDone (s.ring n) := by
  have hfail : ¬ 0x10 ≤ stOk := by decide
  simp [oneDone, hst, hc, hfail]

/-- The counters of a ring, and its state block after them. -/
theorem State.countDone_outcome (s : State) (hst : (s.ring n).st = .running) :
    ((s.setRing n (oneDone (s.ring n))).postBlock n).mem =
      s.mem.writeN (ringAddr (s.cqBase n + s.cqSize n * 32)) (s.stateBlock (oneDone (s.ring n))) ∧
    ((s.setRing n (oneDone (s.ring n))).postBlock n).ring n = oneDone (s.ring n) ∧
    (∀ m, m ≠ n → ((s.setRing n (oneDone (s.ring n))).postBlock n).ring m = s.ring m) := by
  have hring := s.ring_setRing n (oneDone (s.ring n))
  obtain ⟨hmem, hrings, -⟩ := (s.setRing n (oneDone (s.ring n))).postBlock_outcome (n := n) (by rw [hring]; exact hst)
  rw [hring] at hmem
  exact ⟨hmem, (hrings n).trans hring, fun m hm => (hrings m).trans (State.ring_setRing_ne hm _)⟩

theorem State.ringComplete_suppressed (s : State) (hst : (s.ring n).st = .running) {c : Completion} (hc : c.status = stOk) :
    s.ringComplete n c true = (s.setRing n (oneDone (s.ring n))).postBlock n := by
  unfold State.ringComplete
  simp only [if_true, State.countDone_ring hst hc]

/-- A completion with its record: the record, the counters and the block are written, the ring's interrupt moderation counts it. -/
theorem State.ringComplete_outcome (s : State) (hst : (s.ring n).st = .running) {c : Completion} (hc : c.status = stOk) :
    (s.ringComplete n c false).mem =
      (s.mem.writeN (ringAddr (s.cqBase n + (s.ring n).cqTail * 32)) (recordBytes c (s.ring n).phase s.nrt)).writeN
        (ringAddr (s.cqBase n + s.cqSize n * 32)) (s.stateBlock (oneDone (stepTail (s.ring n) (s.cqSize n)))) ∧
    ringCore ((s.ringComplete n c false).ring n) = ringCore (oneDone (stepTail (s.ring n) (s.cqSize n))) ∧
    (∀ m, m ≠ n → (s.ringComplete n c false).ring m = s.ring m) := by
  obtain ⟨hm, hr, hne, hd⟩ := s.writeRecord_outcome (c := c) (time := s.nrt) hst
  have hnrt : (s.writeRecord n c s.nrt).nrt = s.nrt := by simp
  generalize hu : s.writeRecord n c s.nrt = u at hm hr hne hd hnrt
  have hur : (u.ring n).st = .running := by rw [hr]; exact hst
  obtain ⟨hm2, hr2, hne2⟩ := u.countDone_outcome hur
  have hcomplete : s.ringComplete n c false = ((u.setRing n (oneDone (u.ring n))).postBlock n).ringIrq n := by
    unfold State.ringComplete
    simp only [Bool.false_eq_true, if_false, hu, State.countDone_ring hur hc]
  have hirq : (((u.setRing n (oneDone (u.ring n))).postBlock n).ringIrq n).mem = ((u.setRing n (oneDone (u.ring n))).postBlock n).mem := by
    simp
  obtain ⟨hcore, hne3⟩ := ((u.setRing n (oneDone (u.ring n))).postBlock n).ringIrq_outcome n
  obtain ⟨hbase, hsize⟩ := hd.cq n
  have hblk (r : Ring) : u.stateBlock r = s.stateBlock r := by rw [State.stateBlock, hnrt]; rfl
  rw [hcomplete]
  refine ⟨?_, ?_, fun m h => (hne3 m h).trans ((hne2 m h).trans (hne m h))⟩
  · rw [hirq, hm2, hbase, hsize, hblk, hm, hr]
  · rw [hcore, hr2, hr]

/-! ### NOP of a ring -/

/-- The completion record of a NOP. -/
def nopRecord (h : Hdr) : Completion := ⟨h.tag, stOk, 0x32, h.context, 0, 0, 0, 0, 0⟩

theorem State.dropCmd_admitted_cmds (s : State) (q : Req) (op : Op) :
    ((s.admitted q op).dropCmd (s.newCmd q op false).id).cmds.list = s.cmds.list := by
  have hold : s.cmds.list.filter (fun x => x.id != (s.newCmd q op false).id) = s.cmds.list := by
    rw [List.filter_eq_self]
    exact fun c hc => by simpa using State.newCmd_id_ne hc q op false
  simp [State.dropCmd, State.admitted_cmds, List.filter_append, hold]

/-- Admission of a descriptor of a ring counts it among those in flight, and changes nothing else but the commands. -/
theorem State.admitted_ring (op : Op) (hsrc : q.src = .ring n) :
    s.admitted q op = { s.setRing n { s.ring n with inflight := (s.ring n).inflight + 1 } with cmds := (s.admitted q op).cmds } := by
  unfold State.admitted State.taken
  simp only [hsrc, isRing, Bool.true_or, if_true]
  rfl

theorem State.oneDone_counted (r : Ring) : oneDone { r with inflight := r.inflight + 1 } = { r with done := r.done + 1 } := by
  simp [oneDone]

/-- The state in which a NOP of a ring completes: the descriptor counts as in flight. -/
theorem State.nop_ends (h : s.admits q .nop = true) (hsrc : q.src = .ring n) :
    ∃ u : State, exec (.nop q) s = .next (u.ringComplete n (nopRecord q.hdr) q.hdr.suppressOk) ∧
      u = { s.setRing n { s.ring n with inflight := (s.ring n).inflight + 1 } with cmds := u.cmds } ∧ u.cmds.list = s.cmds.list := by
  refine ⟨(s.admitted q .nop).dropCmd (s.newCmd q .nop false).id, ?_, ?_, s.dropCmd_admitted_cmds q .nop⟩
  · rw [exec_nop, State.inService_ends h (State.runOp_nop rfl) (s.admitted_cmd q _) (s.admitted_pending q _) (s.admitted_nrt q _)
      (s.admitted_ckpt q _)]
    unfold State.finish State.deliver
    dsimp only
    have hs : (s.newCmd q .nop false).src = .ring n := hsrc
    have hsup : ((s.newCmd q .nop false).hdr.suppressOk && (completionOf (s.newCmd q .nop false).hdr (s.newCmd q .nop false).op.code
        { status := stOk }).status == stOk) = q.hdr.suppressOk := Bool.and_true _
    rw [hs, hsup]
    rfl
  · exact (congrArg (fun e => e.dropCmd (s.newCmd q .nop false).id) (State.admitted_ring .nop hsrc)).trans rfl

theorem State.nopRing_outcome (h : s.admits q .nop = true) (hsrc : q.src = .ring n) (hsup : q.hdr.suppressOk = false)
    (hst : (s.ring n).st = .running) (htail : (s.ring n).cqTail < s.cqSize n) (hwf : s.mem.wf = true) :
    ∃ t, exec (.nop q) s = .next t ∧ t.cmds.list = s.cmds.list ∧
      t.mem.readN (ringAddr (s.cqBase n + (s.ring n).cqTail * 32)) 32 =
        recordBytes ⟨q.hdr.tag, stOk, 0x32, q.hdr.context, 0, 0, 0, 0, 0⟩ (s.ring n).phase s.nrt ∧
      (t.ring n).done = (s.ring n).done + 1 ∧ (t.ring n).fail = (s.ring n).fail ∧ (t.ring n).inflight = (s.ring n).inflight ∧
      (t.ring n).cqTail = (if (s.ring n).cqTail + 1 = s.cqSize n then 0 else (s.ring n).cqTail + 1) ∧
      (t.ring n).phase = (if (s.ring n).cqTail + 1 = s.cqSize n then !(s.ring n).phase else (s.ring n).phase) ∧
      t.mem.readN (ringAddr (s.cqBase n + s.cqSize n * 32)) 64 = t.stateBlock (t.ring n) ∧
      (∀ m, m ≠ n → t.ring m = s.ring m) ∧
      (∀ a, (a < ringAddr (s.cqBase n + (s.ring n).cqTail * 32) ∨ ringAddr (s.cqBase n + (s.ring n).cqTail * 32) + 32 ≤ a) →
        (a < ringAddr (s.cqBase n + s.cqSize n * 32) ∨ ringAddr (s.cqBase n + s.cqSize n * 32) + 64 ≤ a) → t.mem.read a = s.mem.read a) ∧
      t = { s with mem := t.mem, rf := t.rf, host := t.host, cmds := t.cmds } := by
  obtain ⟨u, hexec, hu, hlist⟩ := State.nop_ends h hsrc
  rw [hsup] at hexec
  have hring : u.ring n = { s.ring n with inflight := (s.ring n).inflight + 1 } := by rw [hu]; exact State.ring_setRing ..
  have hne (m : Nat) (hm : m ≠ n) : u.ring m = s.ring m := by rw [hu]; exact State.ring_setRing_ne hm _
  have hdbel : State.dbelSame s u := State.dbelSame.of_rf (by rw [hu]; rfl)
  have hum : u.mem = s.mem := by rw [hu]; rfl
  have hun : u.nrt = s.nrt := by rw [hu]; rfl
  obtain ⟨hbase, hsize⟩ := hdbel.cq n
  obtain ⟨hmem, hcore, hothers⟩ := u.ringComplete_outcome (n := n) (c := nopRecord q.hdr) (by rw [hring]; exact hst) rfl
  rw [hbase, hsize, hring, hum, hun] at hmem
  rw [hsize, hring] at hcore
  generalize ht : u.ringComplete n (nopRecord q.hdr) false = t at hexec hmem hcore hothers
  have hlow := s.ringAddr_record_block n htail
  have hrec := length_recordBytes (nopRecord q.hdr) (s.ring n).phase s.nrt
  have hblk := u.length_stateBlock (oneDone (stepTail { s.ring n with inflight := (s.ring n).inflight + 1 } (s.cqSize n)))
  have hwf' := Mem.wf_writeN (ringAddr (s.cqBase n + (s.ring n).cqTail * 32)) (recordBytes (nopRecord q.hdr) (s.ring n).phase s.nrt) hwf
  have htn : t.nrt = s.nrt := by rw [← ht, ← hun]; simp
  refine ⟨t, hexec, ?_, ?_, (congrArg Ring.done hcore :), (congrArg Ring.fail hcore :), (congrArg Ring.inflight hcore :), (congrArg Ring.cqTail hcore :),
    (congrArg Ring.phase hcore :), ?_, fun m hm => (hothers m hm).trans (hne m hm), fun a ha hb => ?_, ?_⟩
  · rw [← ht]
    simp [hlist]
  · rw [hmem, Mem.readN_congr fun i hi => Mem.read_writeN_out _ (.inl (by omega)) hwf']
    have hread := Mem.readN_writeN (ringAddr (s.cqBase n + (s.ring n).cqTail * 32)) (recordBytes (nopRecord q.hdr) (s.ring n).phase s.nrt) hwf
    rwa [hrec] at hread
  · have hread := Mem.readN_writeN (ringAddr (s.cqBase n + s.cqSize n * 32))
      (u.stateBlock (oneDone (stepTail { s.ring n with inflight := (s.ring n).inflight + 1 } (s.cqSize n)))) hwf'
    rw [hblk, ← hmem] at hread
    rw [hread, ← State.stateBlock_core, ← hcore, State.stateBlock_core, State.stateBlock, State.stateBlock, hun, htn]
  · rw [hmem, Mem.read_writeN_out _ (by rw [hblk]; exact hb) hwf', Mem.read_writeN_out _ (by rw [hrec]; exact ha) hwf]
  · refine State.eq_of_groups ?_
    rw [← ht, hu]
    simp

theorem State.nopSuppressed_outcome (h : s.admits q .nop = true) (hsrc : q.src = .ring n) (hsup : q.hdr.suppressOk = true)
    (hst : (s.ring n).st = .running) (hwf : s.mem.wf = true) :
    ∃ t, exec (.nop q) s = .next t ∧ t.cmds.list = s.cmds.list ∧ (t.ring n).done = (s.ring n).done + 1 ∧
      (t.ring n).cqTail = (s.ring n).cqTail ∧ (t.ring n).inflight = (s.ring n).inflight ∧
      (∀ a, (a < ringAddr (s.cqBase n + s.cqSize n * 32) ∨ ringAddr (s.cqBase n + s.cqSize n * 32) + 64 ≤ a) → t.mem.read a = s.mem.read a) ∧
      t = { s with mem := t.mem, rf := t.rf, host := t.host, cmds := t.cmds } := by
  obtain ⟨u, hexec, hu, hlist⟩ := State.nop_ends h hsrc
  have hring : u.ring n = { s.ring n with inflight := (s.ring n).inflight + 1 } := by rw [hu]; exact State.ring_setRing ..
  have hur : (u.ring n).st = .running := by rw [hring]; exact hst
  have hum : u.mem = s.mem := by rw [hu]; rfl
  obtain ⟨hbase, hsize⟩ := (State.dbelSame.of_rf (s := s) (t := u) (by rw [hu]; rfl)).cq n
  obtain ⟨hmem, hdone, -⟩ := u.countDone_outcome hur
  rw [hbase, hsize, hum] at hmem
  replace hdone := hdone.trans ((congrArg oneDone hring).trans (State.oneDone_counted _))
  rw [hsup, u.ringComplete_suppressed hur rfl] at hexec
  refine ⟨_, hexec, by simp [hlist], (congrArg Ring.done hdone :), (congrArg Ring.cqTail hdone :), (congrArg Ring.inflight hdone :), fun a ha => ?_,
    State.eq_of_groups (by rw [hu]; simp)⟩
  rw [hmem, Mem.read_writeN_out _ (by rw [State.length_stateBlock]; exact ha) hwf]

/-! ### NOP of a connection (Table 13-8) -/

theorem State.conn_index {k : Nat} {c : Conn} (h : s.conn k = some c) : ¬ 2 ^ 24 ≤ k ∧ c.index = k % 2 ^ 18 := by
  unfold State.conn at h
  split at h
  · cases h
  · rename_i hk
    obtain ⟨d, -, rfl⟩ := Option.map_eq_some_iff.mp h
    exact ⟨hk, rfl⟩

/-- A connection as it was last set. -/
theorem State.conn_setConn {k : Nat} {c : Conn} (hk : ¬ 2 ^ 24 ≤ k) (hi : c.index = k % 2 ^ 18) (s : State) : (s.setConn c).conn k = some c := by
  have hget : AL.get (k % 2 ^ 18) (s.setConn c).net.conns = some c := by
    rw [← hi]
    exact AL.get_put ..
  rw [State.conn, if_neg hk, hget, ← hi]
  rfl

/-- A connection whose request `m` has been taken off. -/
def withoutReq (c : Conn) (m : Nat) : Conn := { c with inMsgs := c.inMsgs.filter (fun y => !(y.lane == .request && y.msgId == m)) }

/-- A connection whose request `m` is answered: the request goes, and the response waits to be sent. -/
def afterAnswer (c : Conn) (m : Nat) (x : OutMsg) : Conn :=
  { withoutReq c m with
    nextMsg := AL.put .response ((AL.getD .response 0 c.nextMsg + 1) % 2 ^ 24) c.nextMsg
    genMsg := AL.put .response (AL.getD .response 0 c.genMsg + 1) c.genMsg
    msgs := c.msgs ++ [x] }

/-- The response of a command that carries only its completion. -/
def completionMsg (c : Conn) (m : Nat) (epoch : Word) (r : Completion) (time : Nat) : OutMsg :=
  ⟨.response, AL.getD .response 0 c.nextMsg, epoch, respHeader m 0 32 true ++ recordBytes r false time, 0, [], 0, time⟩

theorem State.respond_freeReq {k m : Nat} {c : Conn} (hc : s.conn k = some c) (hf : s.nodeFenced = false) (epoch : Word) (r : Completion) :
    ∃ t : State, (s.freeReq k m).respond k m epoch r true [] = t.setConn (afterAnswer c m (completionMsg c m epoch r s.nrt)) ∧
      t = { s with net := t.net } := by
  obtain ⟨hk, hi⟩ := State.conn_index hc
  have hfree : s.freeReq k m = s.setConn (withoutReq c m) := by
    rw [State.freeReq, hc]
    rfl
  have hfence (d : Conn) : (s.setConn d).nodeFenced = false := hf
  refine ⟨s.setConn (withoutReq c m), ?_, rfl⟩
  rw [hfree]
  unfold State.respond
  rw [hfence, if_neg Bool.false_ne_true, State.conn_setConn (c := withoutReq c m) hk hi]
  dsimp only
  rw [List.append_nil]
  rfl

/-- Admission of a request of a connection counts it against its domain's rate, and changes nothing else but the commands. -/
theorem State.admitted_conn {k m : Nat} (op : Op) (hsrc : q.src = .conn k m) :
    s.admitted q op = { s with rf := (s.admitted q op).rf, cmds := (s.admitted q op).cmds, egress := (s.admitted q op).egress } := by
  refine State.eq_of_groups ?_
  unfold State.admitted State.taken
  simp only [hsrc, State.countIn]
  split <;> simp

theorem State.nopConn_outcome {k m : Nat} {c : Conn} (h : s.admits q .nop = true) (hsrc : q.src = .conn k m) (hsup : q.hdr.suppressOk = false)
    (hf : s.nodeFenced = false) (hc : s.conn k = some c) :
    ∃ t d, exec (.nop q) s = .next t ∧ t.cmds.list = s.cmds.list ∧ t.conn k = some d ∧
      d.msgs = c.msgs ++ [⟨.response, AL.getD .response 0 c.nextMsg, q.hdr.epoch, respHeader m 0 32 true ++
        recordBytes ⟨q.hdr.tag, stOk, 0x32, q.hdr.context, 0, 0, 0, 0, 0⟩ false s.nrt, 0, [], 0, s.nrt⟩] ∧
      d.inMsgs = c.inMsgs.filter (fun x => !(x.lane == .request && x.msgId == m)) ∧
      t = { s with rf := t.rf, cmds := t.cmds, net := t.net, egress := t.egress } := by
  obtain ⟨hk, hi⟩ := State.conn_index hc
  obtain ⟨u, hu⟩ : ∃ u, u = (s.admitted q .nop).dropCmd (s.newCmd q .nop false).id := ⟨_, rfl⟩
  have hlist : u.cmds.list = s.cmds.list := by rw [hu, s.dropCmd_admitted_cmds q .nop]
  have husame : u = { s with rf := u.rf, cmds := u.cmds, egress := u.egress } := by
    rw [hu]
    exact (congrArg (fun e => e.dropCmd (s.newCmd q .nop false).id) (State.admitted_conn .nop hsrc)).trans rfl
  have hnrt : u.nrt = s.nrt := by rw [husame]
  have huc : u.conn k = some c := by rw [husame]; exact hc
  have huf : u.nodeFenced = false := by rw [husame]; exact hf
  obtain ⟨t, ht, hsame⟩ := State.respond_freeReq (m := m) huc huf q.hdr.epoch (nopRecord q.hdr)
  obtain ⟨d, hd⟩ : ∃ d, d = afterAnswer c m (completionMsg c m q.hdr.epoch (nopRecord q.hdr) s.nrt) := ⟨_, rfl⟩
  refine ⟨t.setConn d, d, ?_, ?_, State.conn_setConn hk (by rw [hd]; exact hi) t, by rw [hd]; rfl, by rw [hd]; rfl, ?_⟩
  · rw [exec_nop, State.inService_ends h (State.runOp_nop rfl) (s.admitted_cmd q _) (s.admitted_pending q _) (s.admitted_nrt q _)
      (s.admitted_ckpt q _)]
    unfold State.finish State.deliver
    dsimp only
    have hs : (s.newCmd q .nop false).src = .conn k m := hsrc
    have hsup' : ((s.newCmd q .nop false).hdr.suppressOk && (completionOf (s.newCmd q .nop false).hdr (s.newCmd q .nop false).op.code
        { status := stOk }).status == stOk) = false := (Bool.and_true _).trans hsup
    rw [hs, hsup', ← hu, hd, ← hnrt, ← ht]
    rfl
  · rw [← hlist, hsame]
    rfl
  · refine State.eq_of_groups ?_
    rw [hsame, husame]
    simp

end Sys2Proof.Machine
end

section
/-!
SUPPORT. ABORT (R291 to R293, Table 12-7): the commands that it covers end one by one, and it ends when none of them is left.
-/

namespace Sys2Proof.Machine

variable {s t u e : State} {q : Req} {a : AbortD}

/-! ### Commands by their numbers -/

theorem State.cmd_id {i : Nat} {c : Cmd} (h : s.cmd i = some c) : c.id = i := by simpa using List.find?_some h

theorem State.cmd_of_mem (hn : (s.cmds.list.map (·.id)).Nodup) {c : Cmd} (hc : c ∈ s.cmds.list) : s.cmd c.id = some c := by
  rw [State.cmd, List.find?_eq_some_iff_append]
  obtain ⟨l, r, hl⟩ := List.append_of_mem hc
  refine ⟨by simp, l, r, hl, fun y hy => ?_⟩
  rw [hl, List.map_append, List.map_cons, List.nodup_append] at hn
  obtain ⟨-, -, hne⟩ := hn
  simpa using hne _ (List.mem_map_of_mem hy) _ (.head _)

theorem State.cmd_none {i : Nat} (h : ∀ c ∈ s.cmds.list, c.id ≠ i) : s.cmd i = none := by
  rw [State.cmd, List.find?_eq_none]
  exact fun c hc => by simpa using h c hc

/-! ### One command ended -/

/-- The commands that end at once when they are aborted: they hold no fragment and no outbound operation. -/
def endsAtOnce (op : Op) : Prop := (∃ d, op = .append d) ∨ (∃ d, op = .pageRead d) ∨ (∃ d, op = .waitCount d) ∨ op = .fence

theorem State.abortCmd_atOnce {c : Cmd} (h : endsAtOnce c.op) (s : State) (status : Nat) (now : Bool) :
    s.abortCmd c status now = s.finishHeld c { status := status, c0 := c.c0, c1 := c.c1 } := by
  unfold State.abortCmd
  obtain ⟨d, h⟩ | ⟨d, h⟩ | ⟨d, h⟩ | h := h <;> rw [h]

theorem State.finishHeld_list (s : State) (c : Cmd) (r : Result) : (s.finishHeld c r).cmds.list = s.cmds.list.filter (·.id != c.id) := by
  unfold State.finishHeld State.finish
  simp [State.dropCmd]

/-- The parts of the state that the ends of commands change. -/
def State.endsOnly (s t : State) : Prop :=
  t = { s with mem := t.mem, rf := t.rf, host := t.host, cmds := t.cmds, net := t.net, kv := t.kv }

theorem State.endsOnly.trans (h : State.endsOnly s t) (hu : State.endsOnly t u) : State.endsOnly s u := by
  unfold State.endsOnly at *
  rw [hu, h]

theorem State.finishHeld_endsOnly (s : State) (c : Cmd) (r : Result) : State.endsOnly s (s.finishHeld c r) :=
  State.eq_of_groups (by simp)

/-! ### The commands that an ABORT covers -/

/-- Ends each of some commands, whatever the step `g` is, as long as it ends an admitted command at once. -/
theorem State.foldl_ends (g : State → Cmd → State) (l : List Cmd) (s : State) (hs : (s.cmds.list.map (·.id)).Nodup)
    (hl : (l.map (·.id)).Nodup) (hmem : ∀ x ∈ l, x ∈ s.cmds.list)
    (hg : ∀ (u : State) (x : Cmd), x ∈ l → u.cmd x.id = some x → ∃ r, g u x = u.finishHeld x r) :
    (l.foldl g s).cmds.list = s.cmds.list.filter (fun x => !(l.map (·.id)).contains x.id) ∧ State.endsOnly s (l.foldl g s) := by
  induction l generalizing s with
  | nil => simp [State.endsOnly]
  | cons x l ih =>
    obtain ⟨r, hx⟩ := hg s x (.head _) (State.cmd_of_mem hs (hmem x (.head _)))
    have hlist := s.finishHeld_list x r
    rw [List.map_cons, List.nodup_cons] at hl
    obtain ⟨hxl, hl⟩ := hl
    have hrest : ∀ y ∈ l, y ∈ (s.finishHeld x r).cmds.list := fun y hy => by
      rw [hlist, List.mem_filter]
      have hne : y.id ≠ x.id := fun h => hxl (h ▸ List.mem_map_of_mem hy)
      exact ⟨hmem y (.tail _ hy), by simpa using hne⟩
    have hnodup : ((s.finishHeld x r).cmds.list.map (·.id)).Nodup := by
      rw [hlist]
      exact hs.sublist (List.filter_sublist.map _)
    obtain ⟨hrec, hsame⟩ := ih (s.finishHeld x r) hnodup hl hrest fun u y hy => hg u y (.tail _ hy)
    rw [List.foldl_cons, hx]
    refine ⟨?_, (s.finishHeld_endsOnly x r).trans hsame⟩
    rw [hrec, hlist, List.filter_filter]
    refine List.filter_congr fun y _ => ?_
    by_cases hyx : y.id = x.id <;> simp [hyx]

theorem State.abortMerge_small (h : a.scope ≤ 1) (s : State) : s.abortMerge a = s := by
  unfold State.abortMerge
  split
  · omega
  · omega
  · rfl

/-- The commands that an ABORT covers: among those admitted before it. -/
theorem State.covered_eq (s : State) (q : Req) (a : AbortD) :
    (s.admitted q (.abort a)).cmds.list.filter (fun x => x.id != (s.newCmd q (.abort a) false).id && (s.admitted q (.abort a)).covers a x) =
      s.cmds.list.filter (fun x => (s.admitted q (.abort a)).covers a x) := by
  have hnew : (s.admitted q (.abort a)).covers a (s.newCmd q (.abort a) false) = false := rfl
  rw [State.admitted_cmds, List.filter_append, List.filter_cons, hnew, Bool.and_false, if_neg Bool.false_ne_true, List.filter_nil, List.append_nil]
  refine List.filter_congr fun x hx => ?_
  rw [bne_iff_ne.mpr (State.newCmd_id_ne hx q _ false), Bool.true_and]

/-- The outcome of an ABORT that has ended what it could of the commands `mine`: it waits for those that are left. -/
def State.abortOutcome (v : State) (mine : List Cmd) (till : Nat) : OpRes :=
  if ((mine.map (·.id)).filter (fun i => (v.cmd i).isSome)).isEmpty then .done v { status := stOk, c0 := mine.length }
  else .wait v (.aborting ((mine.map (·.id)).filter (fun i => (v.cmd i).isSome)) till) mine.length

/-- What an ABORT of one command or of a context does once it is accepted: it aborts, one after another, the commands that it covers. -/
theorem State.doAbort_accepted {c : Cmd} (hscope : a.scope ≤ 1) (hok : s.abortRefusal c.hdr c.src a = none) {mine : List Cmd}
    (hmine : s.cmds.list.filter (fun x => x.id != c.id && s.covers a x) = mine) (hlive : ∀ x ∈ mine, ∀ st, x.wait ≠ .dying st) :
    ∃ g : State → Cmd → State, (∀ u, ∀ x ∈ mine, u.cmd x.id = some x → g u x = u.abortCmd x stAborted false) ∧
      s.doAbort c a = (mine.foldl g s).abortOutcome mine ((mine.foldl g s).nrt + usTicks (abortBoundUs a.scope)) := by
  have h2 : ¬ a.scope = 2 := by omega
  have h2' : ¬ 2 ≤ a.scope := by omega
  unfold State.doAbort State.abortOutcome
  rw [hok]
  dsimp only
  rw [hmine, if_neg h2, State.abortMerge_small hscope, if_neg h2', List.countP_eq_length.mpr ?live]
  case live =>
    intro x hx
    split
    · rename_i h
      exact absurd h (hlive x hx _)
    · rfl
  refine ⟨_, fun u x hx hu => ?_, rfl⟩
  split
  · rename_i h
    exact absurd h (hlive x hx _)
  · rw [hu]

theorem State.abortSettles_outcome (h : s.admits q (.abort a) = true) (he : e = s.admitted q (.abort a)) (hscope : a.scope ≤ 1)
    (hok : e.abortRefusal q.hdr q.src a = none) (hn : (e.cmds.list.map (·.id)).Nodup)
    (hops : ∀ x ∈ s.cmds.list, e.covers a x = true → endsAtOnce x.op) (hlive : ∀ x ∈ s.cmds.list, ∀ st, x.wait ≠ .dying st) :
    ∃ u : State, exec (.abort q a) s = .next (u.finish (s.newCmd q (.abort a) false)
        { status := stOk, c0 := s.cmds.list.countP (fun x => e.covers a x) }) ∧
      (∀ x ∈ s.cmds.list, u.cmd x.id = if e.covers a x then none else some x) ∧
      u = { e with mem := u.mem, rf := u.rf, host := u.host, cmds := u.cmds, net := u.net, kv := u.kv } := by
  have hcov := s.covered_eq q a
  have hold : ∀ x ∈ s.cmds.list, x ∈ e.cmds.list := fun x hx => by
    rw [he, State.admitted_cmds]
    exact List.mem_append_left _ hx
  have hnew : s.newCmd q (.abort a) false ∈ e.cmds.list := by
    rw [he, State.admitted_cmds]
    exact List.mem_append_right _ (.head _)
  rw [← he] at hcov
  obtain ⟨mine, hmine⟩ : ∃ mine, mine = s.cmds.list.filter (fun x => e.covers a x) := ⟨_, rfl⟩
  have hmem : ∀ x ∈ mine, x ∈ s.cmds.list ∧ e.covers a x = true := fun x hx => by rwa [hmine, List.mem_filter] at hx
  have hids : (mine.map (·.id)).Nodup := by
    rw [hmine, ← hcov]
    exact hn.sublist (List.filter_sublist.map _)
  obtain ⟨g, hg, hdo⟩ := State.doAbort_accepted (c := s.newCmd q (.abort a) false) hscope hok (hcov.trans hmine.symm)
    fun x hx => hlive x (hmem x hx).1
  obtain ⟨hlist, hsame⟩ := State.foldl_ends g mine e hn hids (fun x hx => hold x (hmem x hx).1) fun w x hx hw =>
    ⟨_, (hg w x hx hw).trans (State.abortCmd_atOnce (hops x (hmem x hx).1 (hmem x hx).2) w _ _)⟩
  generalize mine.foldl g e = v at hdo hlist hsame
  have hleft : ∀ x ∈ e.cmds.list, v.cmd x.id = if x ∈ mine then none else some x := by
    intro x hx
    by_cases hxm : x ∈ mine
    · rw [if_pos hxm]
      refine State.cmd_none fun y hy hyx => ?_
      rw [hlist, List.mem_filter, hyx] at hy
      simp [List.mem_map_of_mem (f := fun x : Cmd => x.id) hxm] at hy
    · rw [if_neg hxm]
      refine State.cmd_of_mem ?_ ?_
      · rw [hlist]
        exact hn.sublist (List.filter_sublist.map _)
      · rw [hlist, List.mem_filter]
        refine ⟨hx, ?_⟩
        simp only [Bool.not_eq_true', List.contains_eq_mem, decide_eq_false_iff_not, List.mem_map, not_exists, not_and]
        exact fun y hy hyx => hxm (List.inj_on_of_nodup_map hn hx (hold y (hmem y hy).1) hyx.symm ▸ hy)
  have hnone : (mine.map (·.id)).filter (fun i => (v.cmd i).isSome) = [] := by
    simp only [List.filter_eq_nil_iff, List.mem_map, forall_exists_index, and_imp, forall_apply_eq_imp_iff₂]
    intro x hx
    simp [hleft x (hold x (hmem x hx).1), hx]
  refine ⟨v, ?_, fun x hx => ?_, hsame⟩
  · have hrun : e.runOp (s.newCmd q (.abort a) false) none false = .done v { status := stOk, c0 := mine.length } := by
      rw [State.runOp_abort rfl, hdo, State.abortOutcome, hnone]
      rfl
    have hcount : mine.length = s.cmds.list.countP (fun x => e.covers a x) := by rw [hmine, List.countP_eq_length_filter]
    have hnm : s.newCmd q (.abort a) false ∉ mine := fun hx => State.newCmd_id_ne (hmem _ hx).1 q _ false rfl
    rw [he] at hrun
    unfold State.endsOnly at hsame
    rw [exec_abort, ← hcount]
    refine State.inService_ends h hrun ((hleft _ hnew).trans (if_neg hnm)) ?_ ?_ ?_ <;> rw [hsame, he] <;> simp [State.admitted]
  · rw [hleft x (hold x hx)]
    have : x ∈ mine ↔ e.covers a x = true := by rw [hmine, List.mem_filter]; simp [hx]
    simp only [this]

end Sys2Proof.Machine
end

section
/-!
SUPPORT. ABORT of a command whose fragment runs in an engine (R292, R293, Table 12-7): it waits for the engine, and at its bound the
engine that still holds the fragment is fenced.
-/

namespace Sys2Proof.Machine

variable {s t u e : State} {q : Req} {a : AbortD}

/-! ### The one fragment of a command -/

theorem State.unpinTodo_none {i : Nat} {j : AttnJob} (hj : s.job i = some j) (htodo : j.todo = []) :
    s.unpinTodo i = s.putJob { j with todo := [] } := by
  unfold State.unpinTodo
  rw [hj]
  simp only [htodo, List.foldl_nil, hj]

/-- A state with one fragment, of a command whose job has dispatched all it has. -/
structure State.LastFrag (s : State) (i : Nat) (j : AttnJob) (f : Frag) : Prop where
  job : s.job i = some j
  key : j.cmd = i
  todo : j.todo = []
  frags : s.eng.frags = [(f.id, f)]
  owner : f.cmd = i

section LastFrag
variable {i en : Nat} {j : AttnJob} {f : Frag}

theorem State.LastFrag.putJob (h : s.LastFrag i j f) : (s.putJob { j with todo := [] }).LastFrag i { j with todo := [] } f := by
  obtain ⟨-, hkey, -, hfrags, howner⟩ := h
  refine ⟨?_, hkey, rfl, hfrags, howner⟩
  rw [← hkey]
  exact AL.get_put ..

theorem State.LastFrag.frag (h : s.LastFrag i j f) : s.frag f.id = some f := by
  rw [State.frag, h.frags]
  simp [AL.get]

theorem State.LastFrag.mine (h : s.LastFrag i j f) : s.eng.frags.filter (fun p => p.2.cmd == i) = [(f.id, f)] := by
  rw [h.frags]
  simp [h.owner]

/-- The fragment runs: its engine is told to stop. -/
theorem State.LastFrag.dropFrags_running (h : s.LastFrag i j f) (hst : f.st = .running en) :
    s.dropFrags i false = (s.putJob { j with todo := [] }).putFrag { f with st := .killing en } := by
  unfold State.dropFrags
  rw [State.unpinTodo_none h.job h.todo, h.mine, List.foldl_cons, List.foldl_nil]
  simp only [h.putJob.frag, hst]
  simp

/-- The fragment is taken off, though its engine has not stopped. -/
theorem State.LastFrag.dropFrags_now (h : s.LastFrag i j f) (hst : f.st = .killing en) :
    s.dropFrags i true = ((s.putJob { j with todo := [] }).unpinPages f).removeFrag f := by
  unfold State.dropFrags
  rw [State.unpinTodo_none h.job h.todo, h.mine, List.foldl_cons, List.foldl_nil]
  simp only [h.putJob.frag, hst]
  simp

/-- A command whose fragment runs dies when it is aborted. -/
theorem State.LastFrag.abortCmd_running {x : Cmd} {d : AttnD} (h : s.LastFrag x.id j f) (hop : x.op = .attnFwd d) (hst : f.st = .running en)
    (status : Nat) : s.abortCmd x status false =
      ((s.putJob { j with todo := [] }).putFrag { f with st := .killing en }).setCmd { x with wait := .dying status } := by
  have hfrags : ((s.putJob { j with todo := [] }).putFrag { f with st := .killing en }).hasFrags x.id = true := by
    simp [State.hasFrags, State.putFrag, State.putJob, h.frags, AL.put, h.owner]
  unfold State.abortCmd
  rw [hop]
  dsimp only
  rw [h.dropFrags_running hst, hfrags, if_pos rfl]

end LastFrag

/-! ### The ABORT waits (R293) -/

theorem State.find_setCmd_ne {c : Cmd} {i : Nat} (h : i ≠ c.id) (s : State) : (s.setCmd c).cmd i = s.cmd i := by
  simp only [State.cmd, State.setCmd]
  generalize s.cmds.list = l
  induction l with
  | nil => rfl
  | cons x l ih =>
    by_cases hx : x.id = c.id
    · have hxi : (x.id == i) = false := beq_eq_false_iff_ne.mpr (hx ▸ h.symm)
      have hci : (c.id == i) = false := beq_eq_false_iff_ne.mpr h.symm
      rw [List.map_cons, if_pos hx, List.find?_cons, List.find?_cons, hxi, hci]
      exact ih
    · rw [List.map_cons, if_neg hx, List.find?_cons, List.find?_cons, ih]

theorem State.abortWaits_outcome {x : Cmd} {d : AttnD} {j : AttnJob} {i en : Nat} {f : Frag} (h : s.admits q (.abort a) = true)
    (he : e = s.admitted q (.abort a)) (hscope : a.scope ≤ 1) (hok : e.abortRefusal q.hdr q.src a = none) (hlist : s.cmds.list = [x])
    (hcov : e.covers a x = true) (hop : x.op = .attnFwd d) (hlive : ∀ st, x.wait ≠ .dying st) (hjob : s.job x.id = some j)
    (hkey : j.cmd = x.id) (htodo : j.todo = []) (hfrags : s.eng.frags = [(i, f)]) (hid : f.id = i) (howner : f.cmd = x.id)
    (hst : f.st = .running en) :
    ∃ t, exec (.abort q a) s = .next t ∧ t.frag i = some { f with st := .killing en } ∧
      t.cmd x.id = some { x with wait := .dying stAborted } ∧
      t.cmd (s.newCmd q (.abort a) false).id = some { s.newCmd q (.abort a) false with
        wait := .aborting [x.id] (s.nrt + usTicks (if a.scope = 0 then 20 else 200))
        c0 := 1 } ∧
      t = { e with cmds := t.cmds, eng := t.eng } := by
  subst hid
  have hxn : x.id ≠ (s.newCmd q (.abort a) false).id := State.newCmd_id_ne (by rw [hlist]; exact .head _) q _ false
  have heng : e.eng = s.eng := by simp [he, State.admitted]
  have hlast : e.LastFrag x.id j f := by
    refine ⟨?_, hkey, htodo, ?_, howner⟩
    · rw [State.job, heng]
      exact hjob
    · rw [heng, hfrags]
  have hmine : e.cmds.list.filter (fun y => y.id != (s.newCmd q (.abort a) false).id && e.covers a y) = [x] := by
    have hc := s.covered_eq q a
    rw [← he] at hc
    rw [hc, hlist, List.filter_cons, if_pos hcov, List.filter_nil]
  have hx : e.cmd x.id = some x := by
    rw [State.cmd, he, State.admitted_cmds, hlist]
    simp
  have hnew : e.cmd (s.newCmd q (.abort a) false).id = some (s.newCmd q (.abort a) false) := by rw [he]; exact s.admitted_cmd q _
  obtain ⟨g, hg, hdo⟩ := State.doAbort_accepted (c := s.newCmd q (.abort a) false) hscope hok hmine fun y hy => by
    rw [List.mem_singleton.mp hy]
    exact hlive
  obtain ⟨v, hv⟩ : ∃ v, v = ((e.putJob { j with todo := [] }).putFrag { f with st := .killing en }).setCmd { x with wait := .dying stAborted } :=
    ⟨_, rfl⟩
  rw [List.foldl_cons, List.foldl_nil, hg e x (.head _) hx, hlast.abortCmd_running hop hst, ← hv] at hdo
  have hvx : v.cmd x.id = some { x with wait := .dying stAborted } := by
    rw [hv]
    exact State.find_setCmd (c := { x with wait := .dying stAborted }) hx
  have hvn : v.cmd (s.newCmd q (.abort a) false).id = some (s.newCmd q (.abort a) false) := by
    rw [hv]
    refine (State.find_setCmd_ne ?_ _).trans hnew
    exact Ne.symm hxn
  have hvs : v = { e with cmds := v.cmds, eng := v.eng } := by rw [hv]; rfl
  have hnrt : v.nrt = s.nrt := by rw [hvs, he, State.admitted_nrt]
  have hbound : abortBoundUs a.scope = if a.scope = 0 then 20 else 200 := by
    obtain h0 | h1 : a.scope = 0 ∨ a.scope = 1 := by omega
    · rw [h0]; rfl
    · rw [h1]; rfl
  have hrun : (s.admitted q (.abort a)).runOp (s.newCmd q (.abort a) false) none false =
      .wait v (.aborting [x.id] (s.nrt + usTicks (if a.scope = 0 then 20 else 200))) 1 := by
    rw [State.runOp_abort rfl, ← he, hdo, State.abortOutcome, hnrt, hbound]
    simp [hvx]
  refine ⟨_, (exec_abort q a s).trans (State.inService_waits h rfl hrun hvn ?_ hnrt), ?_, ?_, State.find_setCmd hvn, ?_⟩
  · rw [hvs, he, State.admitted_pending]
  · rw [hv]
    exact AL.get_put ..
  · refine (State.find_setCmd_ne ?_ _).trans hvx
    exact hxn
  · refine State.eq_of_groups ?_
    rw [hvs]
    simp

end Sys2Proof.Machine
end

section
/-!
SUPPORT. QUIESCE_TIMEOUT (R292, R293, Table 12-7): the engine that still holds a fragment of an aborted command is fenced, the command
and the ABORT that waits for it end.
-/

namespace Sys2Proof.Machine

variable {s t u v : State} {i n en : Nat} {f : Frag} {j : AttnJob}

/-! ### No completion moves a fence -/

theorem State.setRing_fenced (s : State) (n : Nat) (r : Ring) : (s.setRing n r).rf.fenced = s.rf.fenced := rfl

theorem State.ite_hostSend_fenced (s : State) (p : Prop) [Decidable p] (x : HostTxn) : (if p then s.hostSend x else s).rf.fenced = s.rf.fenced := by
  split <;> simp

theorem State.ringComplete_fenced (s : State) (n : Nat) (c : Completion) (sup : Bool) : (s.ringComplete n c sup).rf.fenced = s.rf.fenced := by
  have hrec (s : State) (time : Nat) : (s.writeRecord n c time).rf.fenced = s.rf.fenced := by
    unfold State.writeRecord
    dsimp only
    rw [State.ite_hostSend_fenced, State.setRing_fenced]
    split <;> rfl
  have hpost (s : State) : (s.postBlock n).rf.fenced = s.rf.fenced := by
    unfold State.postBlock
    dsimp only
    rw [State.ite_hostSend_fenced]
    split <;> rfl
  have hirq (s : State) : (s.ringIrq n).rf.fenced = s.rf.fenced := by
    unfold State.ringIrq State.ringMsg
    dsimp only
    split
    · rfl
    · split <;> simp
  unfold State.ringComplete
  dsimp only
  cases sup
  · simp only [Bool.false_eq_true, if_false, hirq, hpost, State.setRing_fenced, hrec]
  · simp only [if_true, hpost, State.setRing_fenced]

theorem State.finish_fenced (s : State) (c : Cmd) (r : Result) : (s.finish c r).rf.fenced = s.rf.fenced := by
  unfold State.finish State.deliver
  dsimp only
  simp only [State.skipAfter_frame]
  split
  · rw [State.ringComplete_fenced]
    split <;> rfl
  · split <;> simp

/-! ### The last fragment leaves its engine -/

theorem State.pumpQueue_empty (t q n : Nat) (s : State) (h : s.eng.frags = []) :
    (s.pumpQueue t q n).eng.frags = [] ∧ (s.pumpQueue t q n).eng.jobs = s.eng.jobs := by
  induction n generalizing s with
  | zero => exact ⟨h, rfl⟩
  | succ n ih =>
    have hfrag (i : Nat) : s.frag i = none := by rw [State.frag, h]; rfl
    have hnone {β : Type} (l : List Nat) : l.findSome? (fun _ => (none : Option β)) = none := List.findSome?_eq_none_iff.mpr fun _ _ => rfl
    unfold State.pumpQueue
    dsimp only
    split
    · exact ⟨h, rfl⟩
    · exact ih (s.putQueue t q _) h
    · simp only [hfrag, Option.bind_none, hnone, Option.map_none, and_true]
      exact h

theorem State.freeEngine_eng (s : State) (f : Frag) : (s.freeEngine f).eng.frags = s.eng.frags ∧ (s.freeEngine f).eng.jobs = s.eng.jobs := by
  unfold State.freeEngine
  split
  · exact ⟨rfl, rfl⟩
  · rename_i e _
    have hsync := s.syncCredit_eq f.tile e
    generalize s.syncCredit f.tile e = u at hsync
    rw [hsync]
    exact ⟨rfl, rfl⟩

theorem State.removeFrag_last (h : s.eng.frags = [(f.id, f)]) :
    (s.removeFrag f).eng.frags = [] ∧ (s.removeFrag f).eng.jobs = s.eng.jobs := by
  obtain ⟨hf, hj⟩ := s.freeEngine_eng f
  unfold State.removeFrag
  dsimp only
  generalize s.freeEngine f = u at hf hj
  have hdel : AL.del f.id u.eng.frags = [] := by
    rw [hf, h]
    simp [AL.del]
  unfold State.pump
  rw [← hj]
  exact State.pumpQueue_empty _ _ _ _ hdel

/-! ### The command ends (R292) -/

/-- A command whose fragment does not leave its engine ends all the same at the bound, and its job and its fragment with it. -/
theorem State.LastFrag.abortCmd_now {x : Cmd} {d : AttnD} (h : s.LastFrag x.id j f) (hst : f.st = .killing en) (hx : s.cmd x.id = some x)
    (hop : x.op = .attnFwd d) (hanch : j.anchored = none) (hrec : j.record.isSome = true) (status : Nat) :
    ∃ (v : State) (r : Result), s.abortCmd x status true = v.finish x r ∧ v.job x.id = none ∧ v.eng.frags = [] ∧
      v = { s with rf := v.rf, host := v.host, kv := v.kv, eng := v.eng } := by
  have hput := h.putJob
  obtain ⟨u, hu⟩ : ∃ u, u = (s.putJob { j with todo := [] }).unpinPages f := ⟨_, rfl⟩
  have hueng : u.eng = (s.putJob { j with todo := [] }).eng := by simp [hu]
  obtain ⟨hfrags, hjobs⟩ := State.removeFrag_last (s := u) (f := f) (by rw [hueng]; exact hput.frags)
  obtain ⟨w, hw⟩ : ∃ w, w = u.removeFrag f := ⟨_, rfl⟩
  rw [← hw] at hfrags hjobs
  have hwjob : w.job x.id = some { j with todo := [] } := by
    rw [State.job, hjobs, hueng]
    exact hput.job
  have hwcmd : w.cmd x.id = some x := by
    rw [State.cmd, hw]
    simp only [State.removeFrag_frame, hu, State.unpinPages_frame]
    exact hx
  have hdead : w.hasFrags x.id = false := by rw [State.hasFrags, hfrags]; rfl
  have hleft : w.fragsLeft { j with todo := [] } = false := by rw [State.fragsLeft, hfrags]; rfl
  have hdrop : w.dropJob x.id = w.setEng { w.eng with jobs := AL.del x.id w.eng.jobs } := by
    rw [State.dropJob, hwjob]
    dsimp only
    rw [hleft, if_neg Bool.false_ne_true]
  have hend : ∃ r, w.endDying x status = (w.dropJob x.id).finish x r := by
    unfold State.endDying
    rw [hwjob]
    simp only [hanch, hrec, if_true, hwcmd, hwjob]
    exact ⟨_, rfl⟩
  obtain ⟨r, hr⟩ := hend
  refine ⟨w.dropJob x.id, r, ?_, ?_, ?_, ?_⟩
  · unfold State.abortCmd
    rw [hop]
    dsimp only
    rw [h.dropFrags_now hst, ← hu, ← hw, hdead, if_neg Bool.false_ne_true, hr]
  · rw [hdrop]
    exact AL.get_del ..
  · rw [hdrop]
    exact hfrags
  · refine State.eq_of_groups ?_
    rw [hdrop, hw, hu]
    simp [State.putJob]

/-! ### The ABORT ends (R293) -/

/-- An ABORT none of whose commands is left. -/
theorem State.settleAbort_ends {c : Cmd} {till : Nat} (hc : v.cmd n = some c) (hw : c.wait = .aborting [i] till) (hi : v.cmd i = none) :
    ∃ (w : State) (r : Result), v.settleAbort n = w.finish c r ∧ w.cmds.list = v.cmds.list ∧ w.eng.frags = v.eng.frags ∧
      w.eng.jobs = v.eng.jobs ∧ w = { v with cmds := w.cmds, net := w.net, eng := w.eng } := by
  unfold State.settleAbort
  simp only [hc, hw, List.any_cons, List.any_nil, hi, Option.isSome_none, Bool.or_false, Bool.false_eq_true, if_false]
  split
  · split
    · rename_i a _ ha
      refine ⟨_, _, rfl, ?_⟩
      unfold State.abortMerge
      rw [ha]
      exact ⟨rfl, rfl, rfl, rfl⟩
    · exact ⟨_, _, rfl, rfl, rfl, rfl, rfl⟩
  · exact ⟨_, _, rfl, rfl, rfl, rfl, rfl⟩

/-! ### The bound -/

theorem State.fencePage_fenced (s : State) (pg : Nat) : (s.fencePage pg).pageFenced pg = true := by
  unfold State.fencePage State.pageFenced
  split
  · assumption
  · simp

/-- At the bound of an ABORT whose one command has its fragment in an engine that does not stop: the command ends, the engine is fenced. -/
theorem State.endAtBound_stuck {x : Cmd} {units : List Nat} (hfrags : s.eng.frags = [(f.id, f)]) (howner : f.cmd = i)
    (hst : f.st = .killing en) (hunits : enginePage f.tile en ∈ units) (hx : s.cmd i = some x) :
    s.endAtBound [i] units = ((s.abortCmd x stHwFault true).fencePage (enginePage f.tile en), 1) := by
  have heng : f.engine = some en := by rw [Frag.engine, hst]
  have hheld : s.eng.frags.filter (fun p => [i].contains p.2.cmd && p.2.engine.isSome) = [(f.id, f)] := by
    rw [hfrags]
    simp [howner, heng]
  have hpages : [enginePage f.tile en].eraseDups = [enginePage f.tile en] := rfl
  unfold State.endAtBound
  rw [hheld]
  simp [heng, hunits, hx, howner, hpages]

theorem State.setCmd_none {c : Cmd} (h : s.cmd i = none) : (s.setCmd c).cmd i = none := by
  rw [State.cmd, List.find?_eq_none] at h ⊢
  simp only [State.setCmd, List.mem_map, forall_exists_index, and_imp]
  rintro y z hz rfl
  split
  · rename_i hid
    rw [← hid]
    exact h z hz
  · exact h z hz

theorem State.cmd_finish_self (s : State) (c : Cmd) (r : Result) : (s.finish c r).cmd c.id = none := by
  refine State.cmd_none fun y hy => ?_
  unfold State.finish at hy
  simp only [State.skipAfter_frame, State.deliver_frame, State.dropCmd, List.mem_filter, bne_iff_ne] at hy
  exact hy.2

theorem State.cmd_finish_ne {c : Cmd} (h : i ≠ c.id) (s : State) (r : Result) : (s.finish c r).cmd i = s.cmd i := by
  unfold State.finish State.cmd
  simp only [State.skipAfter_frame, State.deliver_frame, State.dropCmd, List.find?_filter]
  congr 1
  funext y
  by_cases hy : y.id = i
  · simp [hy, h]
  · simp [hy]

theorem State.quiesce_bound {ids units : List Nat} {till : Nat} {c : Cmd} (hc : s.cmd n = some c) (hw : c.wait = .aborting ids till)
    (htill : till ≤ s.nrt) : s.quiesce n units =
      ((s.endAtBound ids units).1.setCmd { c with c1 := c.c1 + (s.endAtBound ids units).2 }).settleAbort n := by
  unfold State.quiesce
  simp only [hc, hw, if_neg (Nat.not_lt.mpr htill)]

/-- The parts of the state that the end of an ABORT at its bound changes. -/
def State.boundOnly (s t : State) : Prop :=
  t = { s with mem := t.mem, rf := t.rf, host := t.host, cmds := t.cmds, net := t.net, kv := t.kv, eng := t.eng }

theorem State.quiesce_outcome {till k : Nat} {units : List Nat} {c x : Cmd} {d : AttnD} (hrun : s.running = true) (hc : s.cmd n = some c)
    (hw : c.wait = .aborting [i] till) (htill : till ≤ s.nrt) (hin : i ≠ n) (hx : s.cmd i = some x) (hop : x.op = .attnFwd d)
    (hjob : s.job i = some j) (hkey : j.cmd = i) (hanch : j.anchored = none) (hrec : j.record.isSome = true)
    (htodo : j.todo = []) (hfrags : s.eng.frags = [(k, f)]) (hid : f.id = k) (howner : f.cmd = i) (hst : f.st = .killing en)
    (hunits : enginePage f.tile en ∈ units) :
    ∃ t, exec (.quiesceTimeout n units) s = .next t ∧ t.pageFenced (enginePage f.tile en) = true ∧ t.cmd i = none ∧ t.cmd n = none ∧
      t.job i = none ∧ t.frag k = none ∧
      t = { s with mem := t.mem, rf := t.rf, host := t.host, cmds := t.cmds, net := t.net, kv := t.kv, eng := t.eng } := by
  subst hid
  obtain rfl := State.cmd_id hx
  obtain rfl := State.cmd_id hc
  obtain ⟨v, r, habort, hvjob, hvfrags, hvs⟩ :=
    State.LastFrag.abortCmd_now ⟨hjob, hkey, htodo, hfrags, howner⟩ hst hx hop hanch hrec stHwFault
  obtain ⟨p, hp⟩ : ∃ p, p = (v.finish x r).fencePage (enginePage f.tile en) := ⟨_, rfl⟩
  obtain ⟨c', hc', hid, hw'⟩ : ∃ c' : Cmd, c' = { c with c1 := c.c1 + 1 } ∧ c'.id = c.id ∧ c'.wait = .aborting [x.id] till := ⟨_, rfl, rfl, hw⟩
  obtain ⟨b, hb⟩ : ∃ b, b = p.setCmd c' := ⟨_, rfl⟩
  have hvcmd (m : Nat) : v.cmd m = s.cmd m := by rw [hvs]; rfl
  have hpcmd (m : Nat) : p.cmd m = (v.finish x r).cmd m := by simp only [State.cmd, hp, State.fencePage_cmds]
  have hbx : b.cmd x.id = none := by
    rw [hb]
    exact State.setCmd_none (by rw [hpcmd, State.cmd_finish_self])
  have hbc : b.cmd c.id = some c' := by
    rw [hb, ← hid]
    refine State.find_setCmd (d := c) ?_
    rw [hid, hpcmd, State.cmd_finish_ne (Ne.symm hin), hvcmd, hc]
  obtain ⟨w, r', hsettle, hwl, hwf, hwj, hws⟩ := State.settleAbort_ends hbc hw' hbx
  have hquiesce : s.quiesce c.id units = w.finish c' r' := by
    rw [State.quiesce_bound hc hw htill, State.endAtBound_stuck hfrags howner hst hunits hx, habort, ← hp, ← hc', ← hb, hsettle]
  have hbeng : b.eng = v.eng := by simp [hb, hp]
  have hsame : s.boundOnly (w.finish c' r') := State.eq_of_groups (by rw [hws, hb, hp, hvs]; simp)
  refine ⟨w.finish c' r', (exec_quiesceTimeout c.id units s).trans (State.inService_keeps hrun hquiesce ?_ ?_), ?_, ?_, ?_, ?_, ?_, hsame⟩
  · exact (congrArg State.pending hsame :)
  · exact (congrArg State.nrt hsame :)
  · rw [State.pageFenced, State.finish_fenced, hws, hb, State.setCmd_rf, hp]
    exact State.fencePage_fenced _ _
  · rw [State.cmd_finish_ne (by rw [hid]; exact hin), State.cmd, hwl]
    exact hbx
  · rw [← hid]
    exact State.cmd_finish_self ..
  · simp only [State.job, State.finish_frame, hwj, hbeng]
    exact hvjob
  · simp only [State.frag, State.finish_frame, hwf, hbeng, hvfrags]
    rfl

theorem State.quiesce_early {till : Nat} {ids units : List Nat} {c : Cmd} (hrun : s.running = true) (hc : s.cmd n = some c)
    (hw : c.wait = .aborting ids till) (htill : s.nrt < till) : exec (.quiesceTimeout n units) s = .next s := by
  rw [exec_quiesceTimeout]
  refine State.inService_keeps hrun ?_ rfl rfl
  unfold State.quiesce
  simp only [hc, hw, if_pos htill]

end Sys2Proof.Machine
end

section

open Sys2Proof Sys2Proof.Machine

/-- Settles O51: an admitted NOP, FENCE or ABORT runs in the state that its admission leaves, and each clause is the outcome of its
operation there; the two clauses on QUIESCE_TIMEOUT are those of the bound. -/
theorem controlCommandsAct : Obligations.ControlCommandsAct := by
  unfold Obligations.ControlCommandsAct
  exact ⟨fun s q n => State.nopRing_outcome, fun s q n => State.nopSuppressed_outcome, fun s q k m c => State.nopConn_outcome,
    fun s e q => State.fence_waits_outcome, fun s e q => State.fence_ends_outcome, fun s e q a => State.abortSettles_outcome,
    fun s e q a x => State.abort_refused_outcome, fun s e q a x d j i en f => State.abortWaits_outcome,
    fun s i n till k en st units c x d j f hrun _ hc hw htill hin hx hop _ => State.quiesce_outcome hrun hc hw htill hin hx hop,
    fun s n till ids units c => State.quiesce_early⟩

end

section
/-!
SUPPORT. The two 4-bit elements of a byte (R51).
-/

namespace Sys2Proof

/-- The byte of two 4-bit elements once element `e` has become `c`. -/
def withNibble (e c b : Nat) : Nat := if e % 2 = 0 then b / 16 * 16 + c % 16 else b % 16 + c % 16 * 16

theorem withNibble_halves {c b : Nat} (e : Nat) (hc : c < 16) (hb : b < 256) : withNibble e c b < 256 ∧
    withNibble e c b % 16 = (if e % 2 = 0 then c else b % 16) ∧ withNibble e c b / 16 = (if e % 2 = 0 then b / 16 else c) := by
  unfold withNibble
  split <;> omega

theorem read_putElem_half {m : Mem} (hm : m.wf = true) {c : Nat} (e : Nat) (hc : c < 16) :
    ((putElem true e c m).read (e / 2)).toNat = withNibble e c (m.read (e / 2)).toNat := by
  have hlt := (withNibble_halves e hc (m.read (e / 2)).isLt).1
  have hput : putElem true e c m = m.write (e / 2) (BitVec.ofNat 8 (withNibble e c (m.read (e / 2)).toNat)) := rfl
  rw [hput, Mem.read_write _ _ hm, BitVec.toNat_ofNat, Nat.mod_eq_of_lt hlt]

theorem read_putElem_half_ne {m : Mem} (hm : m.wf = true) {e a : Nat} (ha : a ≠ e / 2) (c : Nat) :
    (putElem true e c m).read a = m.read a := Mem.read_write_ne ha _ hm

/-- An element is the half of its byte that its parity names. -/
theorem getElem_half (f : Nat) (m : Mem) :
    getElem true f m = if f % 2 = 0 then (m.read (f / 2)).toNat % 16 else (m.read (f / 2)).toNat / 16 := by
  have := (m.read (f / 2)).isLt
  simp only [getElem, if_true]
  split <;> omega

end Sys2Proof

open Sys2Proof

/-- Settles O10: the byte of element `e` is `withNibble`, and another element lies in another byte or in the other half. -/
theorem lowerElementTakesLowBits : Obligations.LowerElementTakesLowBits := by
  intro m e c hm hc
  have hread := read_putElem_half hm e hc
  obtain ⟨-, hlow, hhigh⟩ := withNibble_halves e hc (m.read (e / 2)).isLt
  rw [← hread] at hlow hhigh
  refine ⟨hlow, hhigh, ?_, fun f hf => ?_, fun a ha => read_putElem_half_ne hm ha c⟩
  · rw [getElem_half, hlow, hhigh]
    split <;> rfl
  · rw [getElem_half, getElem_half]
    by_cases hbyte : f / 2 = e / 2
    · rw [hbyte, hlow, hhigh]
      split_ifs <;> omega
    · rw [read_putElem_half_ne hm hbyte]

end

section
/-!
SUPPORT. A fetch whose victim is a line with a write-back under way that holds no pin (R104, R105, R227, R230): the end of that write-back
releases a pin all the same, and where nothing holds its frame the frame goes.
-/

namespace Sys2Proof.Machine

variable {s : State}

theorem exec_benchFetchLands (f : Nat) (s : State) : exec (.benchFetchLands f) s = s.inService (fun s => (s.landFetch f).lookAll) := rfl

/-- With no command admitted and no attention job there is nothing to look at again. -/
theorem State.lookAll_idle (hc : s.cmds.list = []) (hj : s.eng.jobs = []) : s.lookAll = s := by
  simp [State.lookAll, hc, hj]

/-- What a fetch that lands in an idle node leaves. -/
theorem State.benchFetchLands_idle {f : Nat} {t : State} (hrun : s.running = true) (hc : (s.landFetch f).cmds.list = [])
    (hj : (s.landFetch f).eng.jobs = []) (he : exec (.benchFetchLands f) s = .next t) : t.kv = (s.landFetch f).kv := by
  rw [exec_benchFetchLands, State.inService_on hrun, State.lookAll_idle hc hj] at he
  cases he
  rfl

/-! ### The fetches that wait -/

theorem State.encode_fetches (s : State) (a : Nat) (host poison : Bool) : (s.encode a host poison).kv.fetches = s.kv.fetches := by
  unfold State.encode
  dsimp only
  split
  · exact State.foldl_keeps (·.kv.fetches) _ (by intros; rfl) _ _
  · rfl

theorem State.rewrote_fetches (s : State) (a n : Nat) : (s.rewrote a n).kv.fetches = s.kv.fetches := by
  unfold State.rewrote
  split
  · rfl
  · exact State.encode_fetches ..

theorem State.mapPtes_fetches (s : State) (f : Nat) (g : Pte → Pte) : (s.mapPtes f g).kv.fetches = s.kv.fetches :=
  State.foldl_keeps (·.kv.fetches) _ (by intros; rfl) _ _

theorem State.evict_fetches (s : State) (l : Line) : (s.evict l).kv.fetches = s.kv.fetches := by
  unfold State.evict
  dsimp only
  split
  · exact State.mapPtes_fetches ..
  · rfl

theorem State.fillLine_fetches (s : State) (l : Line) : (s.fillLine l).kv.fetches = s.kv.fetches := State.rewrote_fetches ..

/-- The state in which the fetch of a frame lands: it waits no more. -/
def State.withoutFetch (s : State) (f : Nat) : State := { s with kv := { s.kv with fetches := s.kv.fetches.filter (fun g => g != f) } }

/-- Where the line of a fetch is a victim's, the fetches that still wait are those that the write-back of the victim leaves. -/
theorem State.landFetch_victim_fetches {f : Nat} {x : Frame} {v : Line} (hcodes : s.kv.codes = []) (hf : s.kv.fetches.contains f = true)
    (hx : s.frame f = some x) (hv : (s.withoutFetch f).chooseLine (frameTile f) (frameSet f) 0 x.cur.domain = .victim v) :
    (s.landFetch f).kv.fetches = ((s.withoutFetch f).writeBack v).kv.fetches := by
  have hstart : s.setKv { s.kv with fetches := s.kv.fetches.filter (· != f) } = s.withoutFetch f := rfl
  have hfx : (s.withoutFetch f).frame f = some x := hx
  simp only [State.landFetch, hf, hstart, hfx, State.readFrame_nil (s := s.withoutFetch f) hcodes, State.takeLine, hv]
  exact (State.mapPtes_fetches ..).trans ((State.fillLine_fetches ..).trans (State.evict_fetches ..))

/-! ### The counterexample -/

/-- A SEALED page with SHARE 1. -/
def heldPage : Page := { Page.blank with st := .sealed, share := 1 }

/-- A RETIRED page with SHARE 0. -/
def unheldPage : Page := { Page.blank with st := .retired }

/-- The line of frame 576 in way 0 of its set, with its first quarter being written back. -/
def lineInWriteback : Line := { newLine 0 0 0 576 0 .copy 0 0 with dirty := 1, wb := some (1, false) }

/-- An ACTIVE node whose frames 0 and 576, of the same set, wait for their fetches. The one line of the set is being written back, and
its frame 576 stands with SHARE 0 and, against R104 and R105, without a pin. -/
def unpinnedWriteback : State := { State.reset with
  pw := { PowerState.blank with st := .active }
  kv := { KvState.blank with
    frames := [(0, ⟨0, heldPage, heldPage, none, 0, 0, 0, 0⟩), (576, ⟨576, unheldPage, unheldPage, none, 0, 0, 0, 0⟩)]
    lines := [lineInWriteback]
    fetches := [0, 576] } }

/-- The fetch of frame 0 takes the line as its victim. -/
theorem unpinnedWriteback_victim :
    (unpinnedWriteback.withoutFetch 0).chooseLine (frameTile 0) (frameSet 0) 0 heldPage.domain = .victim lineInWriteback := by
  decide

/-- The end of the write-back frees frame 576 (R105), whose fetch waits no more. -/
theorem unpinnedWriteback_writeBack_fetches : ((unpinnedWriteback.withoutFetch 0).writeBack lineInWriteback).kv.fetches = [] := by
  decide

theorem unpinnedWriteback_landFetch_fetches : (unpinnedWriteback.landFetch 0).kv.fetches = [] :=
  (State.landFetch_victim_fetches rfl (by decide) rfl unpinnedWriteback_victim).trans unpinnedWriteback_writeBack_fetches

end Sys2Proof.Machine

open Sys2Proof Sys2Proof.Machine

/-- Refutes O38 in its clause on a fetch that lands: the fetch of frame 0 takes frame 576 out of the fetches with it. The clause
speaks of every state, also of one where a write-back under way holds no pin (R104), and there its end can free the frame of the victim. -/
theorem not_linesAndPackedPages : ¬ Obligations.LinesAndPackedPages := by
  intro h
  obtain ⟨-, -, -, -, -, -, -, -, hlands, -⟩ := h
  obtain ⟨u, he, hfetches, -, -, hu⟩ := hlands unpinnedWriteback _ 0 _ (by decide) rfl (by decide) rfl rfl
  have hidle : u.lookAll = u :=
    State.lookAll_idle (by rw [congrArg State.cmds hu]; rfl) (by rw [congrArg State.eng hu]; rfl)
  have hkv := State.benchFetchLands_idle (by decide) (by decide) (by decide) he
  rw [hidle] at hkv
  have hleft : u.kv.fetches = [] := (congrArg KvState.fetches hkv).trans unpinnedWriteback_landFetch_fetches
  rw [hleft] at hfetches
  exact absurd hfetches (by decide)

end

section
/-!
SUPPORT. XLAT.CTL, TTLB.CTL and SHAPE_CMD (R81, R116, R118).
-/

namespace Sys2Proof.Machine

variable {s : State} {ag : Agent}

theorem exec_invalAll (ag : Agent) (s : State) : exec (.invalAll ag) s = s.did (s.poke ag pgXlat 0x100 s.invalWord) := rfl
theorem exec_ttlbInval (ag : Agent) (tile : Nat) (s : State) :
    exec (.ttlbInval ag tile) s = s.did (onTile tile (·.poke ag (pgTtlb tile) 0x100 1) s) := rfl
theorem exec_shapeRead (ag : Agent) (s : State) : exec (.shapeRead ag) s = s.did (s.poke ag pgXlat 0x118 2) := rfl
theorem exec_shapeWrite (ag : Agent) (s : State) : exec (.shapeWrite ag) s = s.did (s.poke ag pgXlat 0x118 1) := rfl

theorem State.act_xlatCtl (s : State) (ag : Agent) (v : Word) :
    s.act ag pgXlat 0x100 v = s.applyThen pgXlat 0x100 v (fun t => if bitOf v.toNat 1 then t.invalAll else t) := rfl
theorem State.act_shapeRead (s : State) (ag : Agent) : s.act ag pgXlat 0x118 (w32 2) = s.shapeLoad := rfl
theorem State.act_shapeWrite (s : State) (ag : Agent) : s.act ag pgXlat 0x118 (w32 1) = s.shapeStore := rfl

theorem State.act_ttlbCtl (s : State) (ag : Agent) {tile : Nat} (h : tile < 24) :
    s.act ag (pgTtlb tile) 0x100 (w32 1) = s.invalTtlb tile := by
  have hp : pageType (pgTtlb tile) = some (.ttlb, 0) := pageType_pgTile h (by decide)
  have ht : pageTile (pgTtlb tile) = some tile := pageTile_pgTile h (by decide)
  unfold State.act
  simp only [hp, ht]
  rfl

/-! ### XLAT.CTL -/

theorem State.invalWord_bits (s : State) : w32 s.invalWord &&& 1 = s.reg pgXlat 0x100 &&& 1 ∧ bitOf (w32 s.invalWord).toNat 1 = true := by
  have hn : (w32 s.invalWord).toNat = 2 + (s.reg pgXlat 0x100).toNat % 2 := by
    simp [w32, State.invalWord, State.fld, bitsOf]
    omega
  refine ⟨BitVec.eq_of_toNat_eq ?_, ?_⟩
  · simp only [BitVec.toNat_and, hn]
    simp [Nat.and_one_is_mod]
  · rw [hn, bitOf]
    simp

/-- INVAL_ALL with WCACHE_EN as it stands leaves the register as it is. -/
theorem writtenValue_invalWord (s : State) : writtenValue .xlat 0x100 (s.reg pgXlat 0x100) (w32 s.invalWord) = s.reg pgXlat 0x100 := by
  have hq : classBits .xlat 0x100 .rwq ||| classBits .xlat 0x100 .rwl = 1 := by decide
  have hc : classBits .xlat 0x100 .w1c = 0 := by decide
  have h1 : (~~~(1 : Word) ||| 1) = BitVec.allOnes 32 := by decide
  have h0 (w : Word) : ~~~(w &&& 0) = BitVec.allOnes 32 := by rw [show w &&& 0 = 0#32 from BitVec.and_zero, BitVec.not_zero]
  rw [writtenValue, hq, hc, s.invalWord_bits.1, ← BitVec.and_or_distrib_left, h0, h1, BitVec.and_allOnes, BitVec.and_allOnes]

/-- The write of INVAL_ALL drops what the TTLBs and the walk cache hold, and changes the value of no register. -/
theorem State.act_invalAll (s : State) (ag : Agent) : s.act ag pgXlat 0x100 (w32 s.invalWord) = (s.setReg pgXlat 0x100 (s.reg pgXlat 0x100)).invalAll := by
  have hp : pageType pgXlat = some (.xlat, 0) := by decide
  have hq : classBits .xlat 0x100 .rwq = 1 := by decide
  have hset : ¬ classBits .xlat 0x100 .rwq ||| classBits .xlat 0x100 .rwl ||| classBits .xlat 0x100 .w1c = 0 := by decide
  have hs : classBits .xlat 0x100 .rws = 0 := by decide
  have hi : s.selIdx pgXlat 0x100 = 0 := by simp [State.selIdx, hp, selOf]
  have hnew : s.applyFields pgXlat 0x100 (w32 s.invalWord) = some (s.setReg pgXlat 0x100 (s.reg pgXlat 0x100)) := by
    rw [State.applyFields_some hp (.inr (by rw [hq, hi]; exact s.invalWord_bits.1.symm)) rfl, State.writeShadow_none _ _ _ _ _ _ hs, State.writeNow,
      if_neg hset, hi]
    exact congrArg (fun w => some (s.setReg pgXlat 0x100 w)) (writtenValue_invalWord s)
  rw [State.act_xlatCtl, State.applyThen, hnew, s.invalWord_bits.2]
  rfl

/-- A register that is written with its own value reads as before. -/
theorem State.getD_setReg_same (s : State) (off : Nat) (k : Nat × Nat × Nat) :
    AL.getD k (regReset k.1 k.2.1) (s.setReg pgXlat off (s.reg pgXlat off)).rf.vals = AL.getD k (regReset k.1 k.2.1) s.rf.vals := by
  by_cases hk : k = (pgXlat, off, 0)
  · subst hk
    exact AL.getD_put ..
  · rw [AL.getD, State.setReg_xlat_vals_ne _ hk, AL.getD]

/-! ### SHAPE_CMD -/

theorem State.shapeLoad_outcome (s : State) :
    s.shapeLoad.reg pgXlat 0x110 = w32 (s.shapeW (s.fld pgXlat 0x10C 16 10) (s.fld pgXlat 0x10C 0 6)).toNat ∧
    s.shapeLoad.reg pgXlat 0x114 = w32 ((s.shapeW (s.fld pgXlat 0x10C 16 10) (s.fld pgXlat 0x10C 0 6)).toNat / 2 ^ 32) ∧
    (∀ k, k ≠ (pgXlat, 0x110, 0) → k ≠ (pgXlat, 0x114, 0) → AL.get k s.shapeLoad.rf.vals = AL.get k s.rf.vals) ∧
    s.shapeLoad = { s with rf := { s.rf with vals := s.shapeLoad.rf.vals } } := by
  refine ⟨?_, State.reg_setReg_xlat .., fun k hlo hhi => ?_, rfl⟩
  · exact (State.reg_setReg_xlat_ne _ (by decide) _).trans (State.reg_setReg_xlat ..)
  · exact (State.setReg_xlat_vals_ne _ hhi _).trans (State.setReg_xlat_vals_ne _ hlo _)

theorem State.shapeStore_valid {w : DWord} (hw : w = BitVec.ofNat 64 ((s.reg pgXlat 0x110).toNat + (s.reg pgXlat 0x114).toNat * 2 ^ 32))
    (hfree : s.shapeUsed (s.fld pgXlat 0x10C 16 10) (s.fld pgXlat 0x10C 0 6) = false) (hv : bitOf w.toNat 63 = true) (hok : shapeOk w = true) :
    s.shapeStore = { s with kv := { s.kv with
      shapes := AL.put (s.fld pgXlat 0x10C 16 10, s.fld pgXlat 0x10C 0 6) w s.kv.shapes } } := by
  subst hw
  simp only [State.shapeStore, State.shapeSel, hfree, hv, hok]
  rfl

theorem State.shapeStore_used (h : s.shapeUsed (s.fld pgXlat 0x10C 16 10) (s.fld pgXlat 0x10C 0 6) = true) :
    s.shapeStore = (s.cfgRej pgXlat).setIrq pgXlat 4 := if_pos (.inl h)

end Sys2Proof.Machine

open Sys2Proof Sys2Proof.Machine

/-- Settles O20: each write is applied once its access is allowed, and acts as the lemma of its register says. -/
theorem translationCommandsAct : Obligations.TranslationCommandsAct := by
  refine ⟨?all, ?tile, ?load, ?store, ?refused⟩
  case all =>
    intro s ag hw
    rw [exec_invalAll, State.poke_applied hw (by decide), State.act_invalAll]
    exact ⟨_, State.did_of_keeps rfl rfl, rfl, fun k => s.getD_setReg_same 0x100 k, rfl⟩
  case tile =>
    intro s ag tile ht hw
    rw [exec_ttlbInval, onTile, if_pos ht, State.poke_applied hw (isLow_header (by decide) (by decide) _), State.act_ttlbCtl s ag ht]
    exact State.did_of_keeps rfl rfl
  case load =>
    intro s ag hw
    rw [exec_shapeRead, State.poke_applied hw (by decide), State.act_shapeRead]
    exact ⟨_, State.did_of_keeps rfl rfl, s.shapeLoad_outcome⟩
  case store =>
    intro s ag w hw hval hfree hv hok
    rw [exec_shapeWrite, State.poke_applied hw (by decide), State.act_shapeWrite, State.shapeStore_valid hval hfree hv hok]
    exact State.did_of_keeps rfl rfl
  case refused =>
    intro s ag hw hused
    rw [exec_shapeWrite, State.poke_applied hw (by decide), State.act_shapeWrite, State.shapeStore_used hused]
    exact State.did_of_keeps (by simp) (by simp)

end

section
/-!
SUPPORT. A demand fill whose object lies in a key set that has lost its key (R429, Table 16-14): it fails, whatever its content.
-/

namespace Sys2Proof.Machine

variable {s : State}

theorem exec_demandFillLands (d v : Nat) (content : Option Page) (s : State) :
    exec (.demandFillLands d v content) s = s.inService (·.fillArrives d v content) := rfl

/-- Content is not taken in while the key of its object's set is lost. -/
theorem State.landFill_keyLost {d v : Nat} {f : Fill} (hf : s.fillOf d v = some f) (hst : (s.pte d v).st = .ckpt) (hfill : (s.pte d v).fill = true)
    (hloc : (s.pte d v).loc = f.obj) (hlost : s.keyLost d f.obj = true) (p : Page) : s.landFill d v p = none := by
  simp [State.landFill, hf, hst, hfill, hloc, hlost]

/-- In an idle node, content that is not taken in leaves what the failed fill leaves. -/
theorem State.fillArrives_refused {d v : Nat} {p : Page} (hland : s.landFill d v p = none) (hc : s.cmds.list = []) (hj : s.eng.jobs = []) :
    s.fillArrives d v (some p) = s.fillLost d v := by
  have hcmds : (s.fillLost d v).cmds.list = [] := by rw [State.cmds_of_desk (State.fillLost_desk hc d v), hc]
  have heng : (s.fillLost d v).eng.jobs = [] := by
    unfold State.fillLost
    rw [hc]
    split <;> simp [hj]
  simp only [State.fillArrives, State.fillLands, hland, Option.getD_none]
  exact State.lookAll_idle hcmds heng

/-! ### The counterexample -/

/-- A page of domain 5 as a checkpoint object holds it. -/
def storedPage : Page := { Page.blank with st := .sealed, domain := 5, fSealed := true }

/-- The frame that waits for it. -/
def fillingPage : Page := { Page.blank with st := .filling, domain := 5 }

/-- An ACTIVE node that fills VPN 256 of domain 5 from object 7 into frame 0. The object lies in a key set whose key is lost. -/
def keyLostFill : State := { State.reset with
  pw := { PowerState.blank with st := .active }
  kv := { KvState.blank with
    ptes := [((5, 256), { Pte.invalid with st := .ckpt, fill := true, fSealed := true, loc := 7 })]
    frames := [(0, ⟨0, fillingPage, fillingPage, none, 0, 0, 0, 0⟩)]
    fills := [⟨5, 256, 0, 0, false, 7⟩] }
  sec := { SecState.blank with keySets := [(1, ⟨5, [], [7], [], none, true⟩)] } }

theorem keyLostFill_fillArrives : keyLostFill.fillArrives 5 256 (some storedPage) = keyLostFill.fillLost 5 256 :=
  State.fillArrives_refused (State.landFill_keyLost rfl (by decide) (by decide) (by decide) (by decide) _) rfl rfl

/-- The failed fill returns its frame. -/
theorem keyLostFill_frame : (keyLostFill.fillLost 5 256).frame 0 = none := by decide

end Sys2Proof.Machine

open Sys2Proof Sys2Proof.Machine

/-- Refutes O39 in its first clause: nothing there says that the key of the object's set is still there, and content whose key is lost
fails as a fill does (Table 16-14). -/
theorem not_fillsLandOrFail : ¬ Obligations.FillsLandOrFail := by
  intro h
  obtain ⟨hlands, -⟩ := h
  obtain ⟨u, y, he, hframe, -, -, -, -, -, -, -, -, -, -, -, -, -, -, -, -, -, hu⟩ := hlands keyLostFill 5 256 storedPage _ _ (by decide) rfl rfl rfl
    (by decide) (by decide) (by decide) rfl (by decide) (by decide)
  have hidle : u.lookAll = u :=
    State.lookAll_idle (by rw [congrArg State.cmds hu]; rfl) (by rw [congrArg State.eng hu]; rfl)
  rw [exec_demandFillLands, State.inService_on (by decide), keyLostFill_fillArrives, hidle] at he
  injection he with he
  have hkv := congrArg State.kv he
  have hgone : u.frame 0 = none := (congrArg (fun kv : KvState => AL.get 0 kv.frames) hkv).symm.trans keyLostFill_frame
  rw [hgone] at hframe
  cases hframe

end

section
/-!
SUPPORT. The manifest of a saved sequence is placed while two keys of the frame table carry the record of one frame (R104, R424): the pin that
one page releases overwrites the other page's record.
-/

namespace Sys2Proof.Machine

variable {s : State}

theorem exec_exportManifestPlaced (i : Nat) (s : State) : exec (.exportManifestPlaced i) s = s.inService (·.manifestPlaced i) := rfl

/-- A job for the store whose manifest is placed leaves the KV store as its last step leaves it. -/
theorem State.manifestPlaced_kv {i : Nat} {j : Job} (hj : s.jobRec i = some j) (hk : j.kind = .store) (hops : s.jobOps i = [])
    (hm : j.manifest = []) (hp : j.placed = false) : (s.manifestPlaced i).kv = (s.exportPlaced j).kv := by
  simp only [State.manifestPlaced, hj, hk, hops, hm, hp]
  exact (State.finishId_frame ..).2.2.2.2.1

/-! ### The counterexample -/

/-- A SEALED page of domain 5 with SHARE 1, of a VPN. -/
def exportedPage (vpn : Nat) : Page := { Page.blank with st := .sealed, share := 1, domain := 5, vpn := vpn }

/-- The record of frame 7 with one pin, and one of the pages. -/
def pinnedRecord (vpn : Nat) : Frame := ⟨7, exportedPage vpn, exportedPage vpn, none, 1, 0, 0, 0⟩

/-- A job that saves pages 256 and 257 of sequence 1 whose manifest has been placed, with the pin of each page still held. -/
def placedExport : Job := ⟨1, .store, 9, 5, 1, 9, 44, [], [⟨256, 5, false, 0, 0, false⟩, ⟨257, 7, false, 0, 1, false⟩], 0, false, [], 2, 3, false, 0, 0⟩

/-- The command of that job, from ring 1. -/
def exportingCmd : Cmd := ⟨9, .ring 1, ⟨0, false, false, 0, 5, 0, 0⟩, .ckptExport ⟨1, 9, 0, []⟩, [], 0, .exporting, true, 0, 0, 0, [], false, []⟩

/-- Sequence 1 as the job knows it. -/
def exportedSeq : SeqRec := ⟨.active, 2, 1, 1, 8, 1, 0, 256, 0, [(0, 0)], 0, 0, 0, 512, 0, 0, 0, 0, 0, [0], [], 0⟩

/-- An ACTIVE node where keys 5 and 7 of the frame table both carry a record of frame 7, of page 256 and of page 257. -/
def sharedNumber : State := { State.reset with
  pw := { PowerState.blank with st := .active }
  cmds := { State.reset.cmds with list := [exportingCmd] }
  kv := { KvState.blank with
    seqs := [((5, 1), exportedSeq)]
    ptes := [((5, 257), { Pte.invalid with st := .rack, r := true, fSealed := true, loc := 7 })]
    frames := [(5, pinnedRecord 256), (7, pinnedRecord 257)] }
  ckpt := { CkptState.blank with jobs := [(1, placedExport)] } }

/-- Frame 7 then shows page 256. -/
theorem sharedNumber_exportPlaced_page : ((sharedNumber.exportPlaced placedExport).page 7).vpn = 256 := by decide

end Sys2Proof.Machine

open Sys2Proof Sys2Proof.Machine

/-- Refutes O50 in its clause on a manifest that is placed. The clause speaks of every state, also of one where a key of the frame table
carries the record of another frame; there the release of a pin is written to that other frame, whose page is lost. -/
theorem not_sequencesAreSavedAndMoved : ¬ Obligations.SequencesAreSavedAndMoved := by
  intro h
  obtain ⟨-, -, -, hplaced, -⟩ := h
  obtain ⟨u, he, -, -, hpages, -⟩ := hplaced sharedNumber 1 placedExport exportingCmd exportedSeq (by decide) rfl rfl rfl (by decide) rfl rfl
    (by decide) rfl (by decide) (by decide)
  have hpage := hpages ⟨257, 7, false, 0, 1, false⟩ (List.mem_cons_of_mem _ List.mem_cons_self) (.inr (by decide)) (by decide) (by decide) (.inr (by decide))
  rw [exec_exportManifestPlaced, State.inService_on (by decide)] at he
  injection he with he
  have hkv := congrArg State.kv he
  have hfinish : ∀ c r, (u.finish c r).kv = u.kv := fun c r => (State.finish_frame _ c r).2.2.2.2.1
  rw [hfinish] at hkv
  have hsame : (sharedNumber.exportPlaced placedExport).kv = u.kv :=
    (State.manifestPlaced_kv rfl rfl (by decide) rfl rfl).symm.trans hkv
  have hkept : (u.page 7).vpn = 257 := congrArg Page.vpn hpage
  have hlost : (u.page 7).vpn = 256 :=
    (congrArg (fun kv : KvState => ((AL.get 7 kv.frames).elim Page.blank (·.cur)).vpn) hsame).symm.trans sharedNumber_exportPlaced_page
  rw [hkept] at hlost
  exact absurd hlost (by decide)

end

section
/-!
SUPPORT. What the operations on frames, lines and the pool leave as it was, of all but the registers, the host interface and the tables
of the KV store: the sequence records, the entries where nothing names a page, the charge of a placement.
-/

namespace Sys2Proof.Machine

variable (s : State)

/-- A state without its registers, host interface and KV store but for sequence records and entries. -/
def State.mapped (s : State) : State := { s with
  rf := State.reset.rf, host := State.reset.host, kv := { KvState.blank with seqs := s.kv.seqs, ptes := s.kv.ptes } }

/-- The same without entries and pending write-backs. -/
def State.recorded (s : State) : State := { s with
  rf := State.reset.rf, host := State.reset.host, kv := { KvState.blank with seqs := s.kv.seqs }, integ := { s.integ with pend := [] } }

variable {s} in
theorem State.recorded_of_mapped {t : State} (h : t.mapped = s.mapped) : t.recorded = s.recorded := by
  have hr := congrArg State.recorded h
  exact hr

/-! ### Registers and tables -/

@[simp] theorem State.setIrq_mapped (pg bits : Nat) : (s.setIrq pg bits).mapped = s.mapped := by simp [State.mapped]
@[simp] theorem State.logErr_mapped (pg code unit detail : Nat) : (s.logErr pg code unit detail).mapped = s.mapped := by simp [State.mapped]

variable {s} in
theorem State.setKv_mapped {k : KvState} (hs : k.seqs = s.kv.seqs) (hp : k.ptes = s.kv.ptes) : (s.setKv k).mapped = s.mapped := by
  simp [State.mapped, State.setKv, hs, hp]

variable {s} in
theorem State.setKv_recorded {k : KvState} (hs : k.seqs = s.kv.seqs) : (s.setKv k).recorded = s.recorded := by
  simp [State.recorded, State.setKv, hs]

@[simp] theorem State.refund_mapped (d n : Nat) : (s.refund d n).mapped = s.mapped := rfl
@[simp] theorem State.dropChunk_mapped (ch k : Nat) : (s.dropChunk ch k).mapped = s.mapped := rfl

@[simp] theorem State.putChunk_mapped (ch k : Nat) (u : ChunkUse) : (s.putChunk ch k u).mapped = s.mapped := by
  unfold State.putChunk
  dsimp only
  split
  · exact State.setIrq_mapped ..
  · rfl

@[simp] theorem State.freeMeta_mapped (ch half n : Nat) : (s.freeMeta ch half n).mapped = s.mapped := by
  refine State.foldl_keeps State.mapped _ (fun s i => ?_) _ s
  dsimp only
  repeat' split
  all_goals simp

@[simp] theorem State.freeCrumb_mapped (ch loc : Nat) : (s.freeCrumb ch loc).mapped = s.mapped := by
  unfold State.freeCrumb
  dsimp only
  repeat' split
  · rfl
  · exact State.foldl_keeps State.mapped _ (by intros; rfl) _ _
  · rfl

/-! ### Frames -/

@[simp] theorem State.updPage_mapped (f : Nat) (g : Page → Page) : (s.updPage f g).mapped = s.mapped := by
  unfold State.updPage
  split <;> rfl

@[simp] theorem State.freeFrame_mapped (f : Nat) : (s.freeFrame f).mapped = s.mapped := by
  unfold State.freeFrame
  split
  · rfl
  · have hlines := State.foldl_keeps State.mapped (fun s l => State.dropLine s l) (by intros; rfl) (s.frameLines f) s
    refine (State.setKv_mapped (by rfl) (by rfl)).trans ((State.refund_mapped ..).trans ((State.freeMeta_mapped ..).trans ?_))
    split <;> simp [apply_ite State.mapped, hlines]

@[simp] theorem State.settleFrame_mapped (f : Nat) : (s.settleFrame f).mapped = s.mapped := by
  unfold State.settleFrame State.setFState
  repeat' split
  all_goals simp

@[simp] theorem State.lowerShare_mapped (f : Nat) : (s.lowerShare f).mapped = s.mapped := by simp [State.lowerShare]

/-! ### Entries, pins and write-backs -/

@[simp] theorem State.setPte_recorded (d v : Nat) (p : Pte) : (s.setPte d v p).recorded = s.recorded := rfl
@[simp] theorem State.setLine_recorded (l : Line) : (s.setLine l).recorded = s.recorded := rfl
@[simp] theorem State.dropLine_recorded (l : Line) : (s.dropLine l).recorded = s.recorded := rfl
@[simp] theorem State.putFrame_recorded (x : Frame) : (s.putFrame x).recorded = s.recorded := rfl
@[simp] theorem State.dropChunk_recorded (ch k : Nat) : (s.dropChunk ch k).recorded = s.recorded := rfl
@[simp] theorem State.bump_recorded (pg off n : Nat) : (s.bump pg off n).recorded = s.recorded := rfl
@[simp] theorem State.cleared_recorded (a n : Nat) : (s.cleared a n).recorded = s.recorded := rfl
@[simp] theorem State.updFrame_recorded (f : Nat) (g : Frame → Frame) : (s.updFrame f g).recorded = s.recorded := rfl
@[simp] theorem State.putChunk_recorded (ch k : Nat) (u : ChunkUse) : (s.putChunk ch k u).recorded = s.recorded :=
  State.recorded_of_mapped (by simp)
@[simp] theorem State.updPage_recorded (f : Nat) (g : Page → Page) : (s.updPage f g).recorded = s.recorded := State.recorded_of_mapped (by simp)
@[simp] theorem State.settleFrame_recorded (f : Nat) : (s.settleFrame f).recorded = s.recorded := State.recorded_of_mapped (by simp)
@[simp] theorem State.logErr_recorded (pg code unit detail : Nat) : (s.logErr pg code unit detail).recorded = s.recorded :=
  State.recorded_of_mapped (by simp)

@[simp] theorem State.mapPtes_recorded (f : Nat) (g : Pte → Pte) : (s.mapPtes f g).recorded = s.recorded :=
  State.foldl_keeps State.recorded _ (by intros; rfl) _ _

@[simp] theorem State.recoverPoisoned_recorded (f : Nat) : (s.recoverPoisoned f).recorded = s.recorded := by
  unfold State.recoverPoisoned
  repeat' split
  · rfl
  · rw [State.settleFrame_recorded, State.updPage_recorded, State.foldl_keeps State.recorded (fun s k => State.dropEntry s k) (by intros; rfl)]
    exact State.foldl_keeps State.recorded _ (by simp) _ _
  · rfl

@[simp] theorem State.unpin_recorded (f : Nat) (old : Bool) : (s.unpin f old).recorded = s.recorded := by
  unfold State.unpin
  split
  · rfl
  · refine (State.recoverPoisoned_recorded ..).trans ((State.settleFrame_recorded ..).trans ?_)
    have hdrop := State.foldl_keeps State.recorded (fun (s : State) (l : Line) => if l.use = LineUse.source then s.dropLine l else s)
      (fun s l => by split <;> rfl)
    dsimp only
    split <;> simp [apply_ite State.recorded, hdrop]

@[simp] theorem State.unpinForm_recorded (f : Nat) (packed : Bool) : (s.unpinForm f packed).recorded = s.recorded := State.unpin_recorded ..

@[simp] theorem State.dropPack_recorded (f : Nat) : (s.dropPack f).recorded = s.recorded := by
  unfold State.dropPack
  dsimp only
  split
  · exact State.unpinForm_recorded ..
  · rfl

@[simp] theorem State.poisonFrame_recorded (f : Nat) : (s.poisonFrame f).recorded = s.recorded := by
  unfold State.poisonFrame
  repeat' split
  · rfl
  · rw [State.recoverPoisoned_recorded, State.mapPtes_recorded, State.foldl_keeps State.recorded _ (fun s l => by split <;> rfl),
      State.updPage_recorded, State.dropPack_recorded]
  · rfl

@[simp] theorem State.backLost_recorded (l : Line) (parts : List (Nat × Nat × Nat)) : (s.backLost l parts).recorded = s.recorded := by
  simp only [State.backLost, State.poisonFrame_recorded, State.logErr_recorded]
  exact State.setKv_recorded rfl

@[simp] theorem State.encode_recorded (a : Nat) (host poison : Bool) : (s.encode a host poison).recorded = s.recorded := by
  unfold State.encode
  dsimp only
  split
  · exact State.foldl_keeps State.recorded _ (by intros; rfl) _ _
  · rfl

@[simp] theorem State.rewrote_recorded (a n : Nat) : (s.rewrote a n).recorded = s.recorded := by
  unfold State.rewrote
  split
  · rfl
  · exact (State.encode_recorded ..).trans (State.cleared_recorded ..)

@[simp] theorem State.copyBack_recorded (l : Line) (q : Nat) (rec' : Bool) : (s.copyBack l q rec').recorded = s.recorded := by
  unfold State.copyBack
  dsimp only
  have hparts := State.foldl_keeps State.recorded (fun (s : State) (x : Nat × Nat × Nat) => s.rewrote x.2.1 x.2.2) (by simp)
  simp [apply_ite State.recorded, hparts]

@[simp] theorem State.writeBack_recorded (l : Line) : (s.writeBack l).recorded = s.recorded := by
  unfold State.writeBack
  dsimp only
  repeat' split
  all_goals simp

@[simp] theorem State.releaseHold_recorded (f : Nat) : (s.releaseHold f).recorded = s.recorded := by
  unfold State.releaseHold
  dsimp only
  repeat' split
  all_goals simp

/-! ### Placement of metadata -/

@[simp] theorem State.setIrq_rused (pg bits d : Nat) : (s.setIrq pg bits).rused d = s.rused d := by simp [State.rused]

@[simp] theorem State.putChunk_rused (ch k : Nat) (u : ChunkUse) (d : Nat) : (s.putChunk ch k u).rused d = s.rused d := by
  unfold State.putChunk
  dsimp only
  split
  · exact State.setIrq_rused ..
  · rfl

variable {s} in
/-- What a placement of metadata keeps: the charges, and all that `recorded` shows. -/
theorem State.allocMeta_keeps {ch owner n h : Nat} {t : State} (ha : s.allocMeta ch owner n = some (t, h)) :
    t.recorded = s.recorded ∧ ∀ d, t.rused d = s.rused d := by
  unfold State.allocMeta at ha
  dsimp only at ha
  split_ifs at ha with hn
  · split at ha
    · cases ha
    · cases ha
      refine ⟨?_, fun d => ?_⟩
      · exact (State.cleared_recorded ..).trans (State.foldl_keeps State.recorded _ (by simp) _ _)
      · exact State.foldl_keeps (State.rused · d) _ (by simp) _ _
  · split at ha
    · cases ha
      exact ⟨(State.cleared_recorded ..).trans (State.putChunk_recorded ..), fun d => State.putChunk_rused ..⟩
    · split at ha
      · cases ha
      · cases ha
        exact ⟨(State.cleared_recorded ..).trans (State.putChunk_recorded ..), fun d => State.putChunk_rused ..⟩

variable {s} in
theorem State.placeRecord_keeps {d q ctx bytes : Nat} {t : State} (h : s.placeRecord d q ctx bytes = some t) :
    t.recorded = s.recorded ∧ ∀ d, t.rused d = s.rused d := by
  unfold State.placeRecord at h
  dsimp only at h
  split at h
  · cases h
  next u c k hu =>
    cases h
    obtain ⟨c', -, hc⟩ := List.exists_of_findSome?_eq_some hu
    obtain ⟨⟨v, k'⟩, ha, hv⟩ := Option.map_eq_some_iff.mp hc
    cases hv
    obtain ⟨hrec, hused⟩ := State.allocMeta_keeps ha
    exact ⟨hrec, hused⟩

/-! ### Reservations -/

@[simp] theorem State.noLine_recorded (tile : Nat) : (s.noLine tile).recorded = s.recorded := State.recorded_of_mapped (State.setIrq_mapped ..)
@[simp] theorem State.charge_recorded (d n : Nat) : (s.charge d n).recorded = s.recorded := rfl

/-- What the first channel that answers leaves, where every channel leaves so. -/
theorem State.findSome?_recorded {β : Type} {f : Nat → Option (State × β)} (hf : ∀ c x, f c = some x → x.1.recorded = s.recorded) {l : List Nat}
    {x : State × β} (h : l.findSome? f = some x) : x.1.recorded = s.recorded := by
  obtain ⟨c, -, hc⟩ := List.exists_of_findSome?_eq_some h
  exact hf c x hc

variable {s}

theorem State.allocCrumb_recorded {ch domain n : Nat} {x : State × Nat} (h : s.allocCrumb ch domain n = some x) : x.1.recorded = s.recorded := by
  unfold State.allocCrumb at h
  dsimp only at h
  split at h
  · cases h
    rfl
  · split at h
    · cases h
    · cases h
      refine (State.cleared_recorded ..).trans ((State.setKv_recorded (by rfl)).trans ?_)
      exact State.foldl_keeps State.recorded _ (by simp) _ _

theorem State.allocFrame_recorded {ch domain vpn slot : Nat} {x : State × Got} (h : s.allocFrame ch domain vpn slot = some x) :
    x.1.recorded = s.recorded := by
  unfold State.allocFrame at h
  split at h
  · cases h
  next u k ha =>
    have hu := (State.allocMeta_keeps ha).1
    dsimp only at h
    split at h
    · obtain ⟨k, -, rfl⟩ := Option.map_eq_some_iff.mp h
      simp [hu]
    · obtain ⟨y, hy, rfl⟩ := Option.map_eq_some_iff.mp h
      simp [State.allocCrumb_recorded hy, hu]

theorem State.allocTable_recorded {d vpn level ch : Nat} {part : Option Nat} {t : State} (h : s.allocTable d vpn level ch part = some t) :
    t.recorded = s.recorded := by
  unfold State.allocTable at h
  obtain ⟨c, -, hc⟩ := List.exists_of_findSome?_eq_some h
  obtain ⟨y, hy, rfl⟩ := Option.map_eq_some_iff.mp hc
  exact (State.setKv_recorded (by rfl)).trans (State.allocMeta_keeps hy).1

theorem State.placeTables_recorded {d vpn ch : Nat} {part : Option Nat} {t : State} (h : s.placeTables d part vpn ch = some t) :
    t.recorded = s.recorded := by
  unfold State.placeTables at h
  generalize s.missingTables d vpn = l at h
  induction l generalizing s with
  | nil => cases h; rfl
  | cons k l ih =>
    rw [List.foldl_cons, Option.bind_some] at h
    cases ha : s.allocTable d vpn k ch part with
    | none =>
      rw [ha, List.foldl_fixed' (by simp)] at h
      cases h
    | some u =>
      rw [ha] at h
      exact (ih h).trans (State.allocTable_recorded ha)

theorem State.placeOne_recorded {d : Nat} {part : Option Nat} {w : Want} {x : State × List Got} (h : s.placeOne d part w = some x) :
    x.1.recorded = s.recorded := by
  unfold State.placeOne at h
  split at h
  · split at h
    · cases h
    next u g hu =>
      obtain ⟨v, hv, rfl⟩ := Option.map_eq_some_iff.mp h
      exact (State.placeTables_recorded hv).trans (s.findSome?_recorded (fun c x => State.allocFrame_recorded) hu)
  · obtain ⟨v, hv, rfl⟩ := Option.map_eq_some_iff.mp h
    exact State.placeTables_recorded hv

theorem State.reserve_recorded {d : Nat} {part : Option Nat} {ws : List Want} {x : State × List Got} (h : s.reserve d part ws = .ok x) :
    x.1.recorded = s.recorded := by
  unfold State.reserve at h
  dsimp only at h
  split at h
  · cases h
  · split at h
    · cases h
      refine (State.charge_recorded ..).trans (State.foldl_fst_keeps State.recorded _ (fun a w => ?_) ws (s, [], 0))
      split
      next hw => exact State.placeOne_recorded hw
      · rfl
    · cases h

/-! ### Lines -/

@[simp] theorem State.fillLine_recorded (s : State) (l : Line) : (s.fillLine l).recorded = s.recorded := by simp [State.fillLine]

@[simp] theorem State.evict_recorded (s : State) (l : Line) : (s.evict l).recorded = s.recorded := by
  unfold State.evict
  dsimp only
  split <;> simp

theorem State.takeLine_recorded {tile set frame form part domain : Nat} {use : LineUse} {t : State}
    (h : s.takeLine tile set frame form use part domain = some t) : t.recorded = s.recorded := by
  unfold State.takeLine at h
  split at h <;> cases h <;> simp

/-! ### Demand fills that start -/

/-- What an attempt to start a fill leaves. -/
def FillRes.left : FillRes → State
  | .runs s | .fails s | .noSpace s _ => s

theorem State.desk_of_recorded {t : State} (h : t.recorded = s.recorded) : t.desk = s.desk := by
  have hd := congrArg State.desk h
  exact hd

@[simp] theorem State.queueNodeOp_desk (who : Initiator) (d idx : Nat) (e : PeerEntry) (opcode offset length : Nat) (data : List Byte) :
    (s.queueNodeOp who d idx e opcode offset length data).desk = s.desk := State.desk_congr (by simp) (by simp) (by simp)

@[simp] theorem State.startFill_desk (s : State) (d part v start : Nat) : (s.startFill d part v start).left.desk = s.desk := by
  have hfail : (s.fillFailed d v).desk = s.desk := State.desk_congr (by simp) (by simp) (by simp)
  unfold State.startFill
  dsimp only
  split
  · rfl
  split
  · rfl
  split
  · exact hfail
  split
  · exact hfail
  split
  · rfl
  next hgot =>
    have hroom := State.desk_of_recorded (State.reserve_recorded hgot)
    split
    · exact hroom
    · refine (State.queueNodeOp_desk ..).trans (Eq.trans ?_ hroom)
      split
      next hline =>
        have hdesk := State.desk_of_recorded (State.takeLine_recorded hline)
        exact hdesk
      next g _ _ _ =>
        have hdesk (u : State) := State.desk_of_recorded (State.noLine_recorded u (frameTile g.frame))
        exact hdesk _

@[simp] theorem State.fillAll_desk {fill : State → Nat → Nat → FillRes} (hf : ∀ t v k, (fill t v k).left.desk = t.desk) (s : State)
    (vs : List (Nat × Nat)) : (s.fillAll fill vs).1.desk = s.desk := by
  refine State.foldl_fst_keeps State.desk _ (fun x v => ?_) vs (s, none)
  have hx := hf x.1 v.1 v.2
  split
  · rfl
  · split
    all_goals
      rename_i heq
      rw [heq] at hx
      exact hx

theorem State.prefetch_desk (s : State) (d part q : Nat) (r : SeqRec) (sh : Shape) : (s.prefetch d part q r sh).1.desk = s.desk :=
  State.fillAll_desk (fun t v k => t.startFill_desk d part v k) s _

end Sys2Proof.Machine
end

section
/-!
SUPPORT. SEQ_CREATE, SEQ_PARK, SEQ_RESUME and SEQ_DESTROY (R110 to R114), and the obligation on sequences.
-/

namespace Sys2Proof.Machine

variable {s t e : State} {q : Req}

/-! ### What a sequence's command leaves of the admitted state -/

/-- A state without its registers, host interface, KV store and pending write-backs. -/
def State.outside (s : State) : State := { s with
  rf := State.reset.rf, host := State.reset.host, kv := KvState.blank, integ := { s.integ with pend := [] } }

theorem State.outside_of_recorded (h : t.recorded = s.recorded) : t.outside = s.outside := by
  have ho := congrArg State.outside h
  exact ho

theorem State.seqs_of_recorded (h : t.recorded = s.recorded) : t.kv.seqs = s.kv.seqs := by
  have hs := congrArg (fun u : State => u.kv.seqs) h
  exact hs

theorem State.nrt_of_recorded (h : t.recorded = s.recorded) : t.nrt = s.nrt := by
  have hn := congrArg State.nrt h
  exact hn

theorem State.eq_of_outside (h : t.outside = s.outside) :
    t = { s with rf := t.rf, host := t.host, kv := t.kv, integ := { s.integ with pend := t.integ.pend } } := by
  cases s; cases t
  simp only [State.outside, State.mk.injEq] at h
  obtain ⟨hp, hn, hf, hm, -, -, hc, hnet, heg, -, heng, hl, hs, hfw, hi, hck, hpw⟩ := h
  subst_vars
  rename_i i j _ _
  cases i; cases j
  simp_all

/-- An admitted command whose operation ends at once and leaves all else of the machine as its admission did. -/
theorem State.inService_ends_outside {op : Op} {r : Result} (h : s.admits q op = true)
    (hrun : (s.admitted q op).runOp (s.newCmd q op false) none false = .done t r) (ht : t.outside = (s.admitted q op).outside) :
    s.inService (·.command q op) = .next (t.finish (s.newCmd q op false) r) := by
  have hk := State.eq_of_outside ht
  refine State.inService_ends h hrun ?_ ?_ ?_ ?_
  · rw [State.cmd, congrArg State.cmds hk]
    exact State.admitted_cmd s q op
  · rw [congrArg State.pending hk, ← State.admitted_pending s q op]
  · rw [congrArg State.nrt hk, ← State.admitted_nrt s q op]
  · rw [congrArg State.ckpt hk, ← State.admitted_ckpt s q op]

/-- A new command that goes on after it has taken effect (Log 74). -/
theorem State.applyRes_goesOn {op : Op} {w : Wait} {n : Nat} (h : s.admits q op = true)
    (hcmd : e.cmd (s.newCmd q op false).id = some (s.newCmd q op false)) (hfx : effectsAtOnce op = true) (hw : begun w = true) :
    State.applyRes (s.newCmd q op false).id (.wait e w n) = e.setCmd { s.newCmd q op false with wait := w, c0 := n, effected := true } := by
  have hop : (s.newCmd q op false).op = op := rfl
  have hs : sinceFirst (s.newCmd q op false).wait w = w := by rw [State.newCmd_wait h]; rfl
  have h0 : (s.newCmd q op false).c0 + n = n := Nat.zero_add n
  unfold State.applyRes
  simp only [hcmd, hop, hfx, hs, h0, hw, Bool.true_and, Bool.or_true]
  rw [State.newCmd_wait h]
  rfl

/-- An admitted command that goes on so, where its operation leaves the queue, the clock and the admitted commands. -/
theorem State.inService_goesOn {op : Op} {w : Wait} {n : Nat} (h : s.admits q op = true) (hfx : effectsAtOnce op = true) (hw : begun w = true)
    (hrun : (s.admitted q op).runOp (s.newCmd q op false) none false = .wait t w n) (ht : t.desk = (s.admitted q op).desk) :
    s.inService (·.command q op) = .next (t.setCmd { s.newCmd q op false with wait := w, c0 := n, effected := true }) ∧
      (t.setCmd { s.newCmd q op false with wait := w, c0 := n, effected := true }).cmd (s.newCmd q op false).id =
        some { s.newCmd q op false with wait := w, c0 := n, effected := true } := by
  have hcmd : t.cmd (s.newCmd q op false).id = some (s.newCmd q op false) := by
    rw [State.cmd, State.cmds_of_desk ht]
    exact State.admitted_cmd s q op
  refine ⟨State.inService_keeps (State.admits_elim h).1 ?_ ?_ ?_, State.find_setCmd hcmd⟩
  · rw [State.command_runs h, State.run, hrun, State.applyRes_goesOn h hcmd hfx hw]
  · exact (State.pending_of_desk ht).trans (s.admitted_pending q op)
  · exact (State.nrt_of_desk ht).trans (s.admitted_nrt q op)

/-! ### Operations on sequences need no unit -/

theorem exec_seqCreate (q : Req) (a : SeqCreateD) (s : State) : exec (.seqCreate q a) s = s.inService (·.command q (.seqCreate a)) := rfl
theorem exec_seqPark (q : Req) (k : Nat) (s : State) : exec (.seqPark q k) s = s.inService (·.command q (.seqPark k)) := rfl
theorem exec_seqResume (q : Req) (k : Nat) (s : State) : exec (.seqResume q k) s = s.inService (·.command q (.seqResume k)) := rfl
theorem exec_seqDestroy (q : Req) (k : Nat) (s : State) : exec (.seqDestroy q k) s = s.inService (·.command q (.seqDestroy k)) := rfl

/-- A run that no lost record stops. -/
theorem State.any_recordLost {d : Nat} {op : Op} (h : e.hasRecords d op = true) :
    (op.needs d).any (fun k => e.recordLost k.1 k.2) = false := by
  rw [List.any_eq_false]
  intro k hk
  have := List.all_eq_true.mp h k hk
  simpa using this

theorem State.hasRecords_absent {k d : Nat} (h : e.seqRec d k = none) : e.hasRecords d (.seqPark k) = true := by
  have hget : AL.get (d, k) e.kv.seqs = none := h
  simp only [State.hasRecords, Op.needs, State.recordLost, List.all_cons, List.all_nil, hget]
  split
  next hs => cases hs
  · rfl

theorem State.hasRecords_of_intact {d : Nat} {op : Op} (h : e.intact d op = true) : e.hasRecords d op = true :=
  (Bool.and_eq_true_iff.mp h).2

theorem State.runOp_seqCreate {c : Cmd} {a : SeqCreateD} (h : c.op = .seqCreate a) : e.runOp c none false = e.doSeqCreate c.hdr c.src a := by
  unfold State.runOp
  rw [State.closedUnit_none (by simp [gateUnits, h])]
  simp [h, Op.needs]

theorem State.runOp_seqPark {c : Cmd} {k : Nat} (h : c.op = .seqPark k) (hrec : e.hasRecords c.hdr.domain (.seqPark k) = true) :
    e.runOp c none false = e.doSeqPark c.hdr k := by
  unfold State.runOp
  rw [State.closedUnit_none (by simp [gateUnits, h])]
  simp [h, State.any_recordLost hrec]

theorem State.runOp_seqResume {c : Cmd} {k : Nat} (h : c.op = .seqResume k) (hrec : e.hasRecords c.hdr.domain (.seqResume k) = true) :
    e.runOp c none false = e.doSeqResume c k := by
  unfold State.runOp
  rw [State.closedUnit_none (by simp [gateUnits, h])]
  simp [h, State.any_recordLost hrec]

theorem State.runOp_seqDestroy {c : Cmd} {k : Nat} (h : c.op = .seqDestroy k) : e.runOp c none false = e.doSeqDestroy c.hdr k := by
  unfold State.runOp
  rw [State.closedUnit_none (by simp [gateUnits, h])]
  simp [h, Op.needs]

/-! ### Records -/

theorem State.bumpChange_of {d k : Nat} {r : SeqRec} (h : e.seqRec d k = some r) :
    e.bumpChange d k = e.putSeq d k { r with changeSeq := (r.changeSeq + 1) % 2 ^ 64 } := by
  simp only [State.bumpChange, h]

@[simp] theorem State.seqRec_putSeq (e : State) (d k : Nat) (r : SeqRec) : (e.putSeq d k r).seqRec d k = some r := AL.get_put ..

theorem AL.put_put {κ α : Type} [DecidableEq κ] (k : κ) (v w : α) (l : AL κ α) : AL.put k v (AL.put k w l) = AL.put k v l := by
  induction l with
  | nil => simp [AL.put]
  | cons p l ih =>
    by_cases hk : p.1 = k
    · simp [AL.put, hk]
    · simp [AL.put, hk, ih]

theorem State.putSeq_putSeq (e : State) (d k : Nat) (r r' : SeqRec) : (e.putSeq d k r).putSeq d k r' = e.putSeq d k r' :=
  congrArg (fun l => e.setKv { e.kv with seqs := l }) (AL.put_put (d, k) r' r e.kv.seqs)

/-- A record that is written and counted. -/
theorem State.bumpChange_putSeq (e : State) (d k : Nat) (r : SeqRec) :
    (e.putSeq d k r).bumpChange d k = e.putSeq d k { r with changeSeq := (r.changeSeq + 1) % 2 ^ 64 } :=
  (State.bumpChange_of (e.seqRec_putSeq d k r)).trans (e.putSeq_putSeq d k r _)

@[simp] theorem State.putSeq_outside (e : State) (d k : Nat) (r : SeqRec) : (e.putSeq d k r).outside = e.outside := rfl

/-- What a record that is written changes of a state that keeps the sequence records of another. -/
theorem State.putSeq_keeps {d k : Nat} (r : SeqRec) (h : t.recorded = e.recorded) : (t.putSeq d k r).seqRec d k = some r ∧
    (∀ j, j ≠ (d, k) → AL.get j (t.putSeq d k r).kv.seqs = AL.get j e.kv.seqs) ∧ (t.putSeq d k r).outside = e.outside := by
  refine ⟨t.seqRec_putSeq d k r, fun j hj => ?_, (t.putSeq_outside d k r).trans (State.outside_of_recorded h)⟩
  rw [← State.seqs_of_recorded h]
  exact AL.get_put_ne hj _ _

/-! ### SEQ_CREATE -/

theorem State.doSeqCreate_places {h : Hdr} {src : Source} {a : SeqCreateD} {n : Nat} (href : e.createRefusal h.domain src a = none)
    (hn : n = recordSize a.layers a.kvHeads (histOf a.histN) (e.shape h.domain a.shapeId)) (hq : e.rused h.domain + n / 256 ≤ e.rquota h.domain)
    (hp : e.placeRecord h.domain a.seq h.context n = some t) :
    e.doSeqCreate h src a = .done ((t.charge h.domain (n / 256)).putSeq h.domain a.seq (newSeq a (histOf a.histN) n)) { status := stOk, c0 := n } := by
  subst hn
  simp only [State.doSeqCreate, href, hp, if_neg (Nat.not_lt.mpr hq)]

theorem State.doSeqCreate_noCapacity {h : Hdr} {src : Source} {a : SeqCreateD} (href : e.createRefusal h.domain src a = none)
    (hq : e.rquota h.domain < e.rused h.domain + recordSize a.layers a.kvHeads (histOf a.histN) (e.shape h.domain a.shapeId) / 256) :
    e.doSeqCreate h src a = .done e { status := stNoCapacity } := by
  simp only [State.doSeqCreate, href, if_pos hq]

/-! ### SEQ_PARK -/

/-- The frames of entries that name one, of which `p` holds, counted over the entries. -/
theorem length_filter_located (p : Nat → Bool) (l : List Pte) :
    ((l.filterMap (fun (x : Pte) => if x.st = .bench ∨ x.st = .rack then some x.loc else none)).filter p).length =
      l.countP (fun x => (x.st == .bench || x.st == .rack) && p x.loc) := by
  induction l with
  | nil => rfl
  | cons x l ih =>
    by_cases hx : x.st = .bench ∨ x.st = .rack
    · have hb : (x.st == .bench || x.st == .rack) = true := by simpa using hx
      by_cases hp : p x.loc = true
      · simp [hx, hb, hp, ih]
      · simp [hx, hb, hp, ih]
    · have hb : (x.st == .bench || x.st == .rack) = false := by simpa using hx
      simp [hx, hb, ih]

/-- The open pages of a sequence that hold a line. -/
def State.heldFrames (e : State) (d : Nat) (r : SeqRec) (sh : Shape) : List Nat :=
  (((e.openPoints d r sh).map (fun p => e.pte d (vpnOf r sh p.layer p.hg p.k))).filterMap
    (fun (p : Pte) => if p.st = .bench ∨ p.st = .rack then some p.loc else none)).filter (fun f => (e.frameLine f 0).any (fun l => l.use == .opened))

/-- The state in which the holds of a sequence's open pages are released. -/
def State.unheld (e : State) (d : Nat) (r : SeqRec) : State := (e.heldFrames d r (e.shape d r.shapeId)).foldl (fun s f => s.releaseHold f) e

theorem State.unheld_recorded (e : State) (d : Nat) (r : SeqRec) : (e.unheld d r).recorded = e.recorded :=
  State.foldl_keeps State.recorded _ (by simp) _ _

theorem State.doSeqPark_active {h : Hdr} {k : Nat} {r : SeqRec} (hr : e.seqRec h.domain k = some r) (hst : r.st = .active) :
    e.doSeqPark h k = .done (((e.unheld h.domain r).putSeq h.domain k { r with st := .parked, parkTime := BitVec.ofNat 64 e.nrt }).bumpChange
        h.domain k)
      { status := stOk, c0 := (e.heldFrames h.domain r (e.shape h.domain r.shapeId)).length } := by
  rw [← State.nrt_of_recorded (e.unheld_recorded h.domain r)]
  simp only [State.doSeqPark, hr, lifeRefusal, hst]
  rfl

theorem State.doSeqPark_absent {h : Hdr} {k : Nat} (hr : e.seqRec h.domain k = none) : e.doSeqPark h k = .done e badDescriptor := by
  simp only [State.doSeqPark, hr]

/-! ### SEQ_RESUME -/

theorem State.doSeqResume_parked {c : Cmd} {k : Nat} {r : SeqRec} (hr : e.seqRec c.hdr.domain k = some r) (hst : r.st = .parked)
    (hc : c.effected = false) (hflag : c.hdr.flag 0 = false) :
    e.doSeqResume c k = .done ((e.putSeq c.hdr.domain k { r with st := .active }).bumpChange c.hdr.domain k) { status := stOk } := by
  simp [State.doSeqResume, hr, lifeRefusal, hst, hc, hflag]

theorem State.doSeqResume_fetches {c : Cmd} {k : Nat} {r : SeqRec} {vs : List Nat} (hr : e.seqRec c.hdr.domain k = some r) (hst : r.st = .active)
    (hc : c.effected = false) (hflag : c.hdr.flag 0 = true)
    (hp : e.prefetch c.hdr.domain (e.partOf c.hdr.context) k r (e.shape c.hdr.domain r.shapeId) = (t, none, vs)) (hvs : vs ≠ []) :
    e.doSeqResume c k = .wait t (.fills ((vs.filter (fun v => (t.pte c.hdr.domain v).fill)).map (fun v => (c.hdr.domain, v))) e.nrt)
      (vs.filter (fun v => (t.pte c.hdr.domain v).fill)).length := by
  simp [State.doSeqResume, State.resumeFills, hr, lifeRefusal, hst, hc, hflag, hp, hvs]

/-! ### SEQ_DESTROY -/

/-- One step of `dropPages`: an entry goes, and the share of its frame (R114). -/
def State.dropPage (d : Nat) (acc : State × Nat × Nat) (vp : Nat × Pte) : State × Nat × Nat :=
  let s := acc.1.setPte d vp.1 .invalid
  if vp.2.st = .bench ∨ vp.2.st = .rack then
    let s := s.lowerShare vp.2.loc
    if (s.frame vp.2.loc).isNone then (s, acc.2.1 + 1, acc.2.2) else (s, acc.2.1, acc.2.2 + 1)
  else (s, acc.2)

theorem State.dropPages_eq (e : State) (d : Nat) (r : SeqRec) (sh : Shape) :
    e.dropPages d r sh = (e.seqPtes d r sh).foldl (State.dropPage d) (e, 0, 0) := rfl

/-- The state of a step: the entry goes, and where it named a page the share of its frame is lowered. -/
theorem State.dropPage_fst (d : Nat) (acc : State × Nat × Nat) (vp : Nat × Pte) : (State.dropPage d acc vp).1 =
    if vp.2.st = .bench ∨ vp.2.st = .rack then (acc.1.setPte d vp.1 .invalid).lowerShare vp.2.loc else acc.1.setPte d vp.1 .invalid := by
  unfold State.dropPage
  dsimp only
  split
  · split <;> rfl
  · rfl

theorem State.dropPage_recorded (d : Nat) (acc : State × Nat × Nat) (vp : Nat × Pte) : (State.dropPage d acc vp).1.recorded = acc.1.recorded := by
  rw [State.dropPage_fst]
  split
  · have hl := State.recorded_of_mapped ((acc.1.setPte d vp.1 .invalid).lowerShare_mapped vp.2.loc)
    exact hl
  · rfl

theorem State.dropPage_integ (d : Nat) (acc : State × Nat × Nat) (vp : Nat × Pte) : (State.dropPage d acc vp).1.integ = acc.1.integ := by
  rw [State.dropPage_fst]
  split <;> simp

theorem State.ptes_of_mapped (h : t.mapped = s.mapped) : t.kv.ptes = s.kv.ptes := by
  have hp := congrArg (fun u : State => u.kv.ptes) h
  exact hp

theorem State.dropPage_ptes (d : Nat) (acc : State × Nat × Nat) (vp : Nat × Pte) :
    (State.dropPage d acc vp).1.kv.ptes = AL.del (d, vp.1) acc.1.kv.ptes := by
  rw [State.dropPage_fst]
  split
  · exact State.ptes_of_mapped (State.lowerShare_mapped ..)
  · rfl

/-- The entry of a step is invalid after it, and an invalid entry stays so. -/
theorem State.dropPage_pte (d : Nat) (acc : State × Nat × Nat) (vp : Nat × Pte) {v : Nat} (h : v = vp.1 ∨ acc.1.pte d v = .invalid) :
    (State.dropPage d acc vp).1.pte d v = .invalid := by
  rw [State.pte, State.dropPage_ptes, AL.getD]
  by_cases hv : v = vp.1
  · rw [hv, AL.get_del]
    rfl
  · rw [AL.get_del_ne (by simpa using hv)]
    exact h.resolve_left hv

theorem State.dropPage_count (d : Nat) (acc : State × Nat × Nat) (vp : Nat × Pte) :
    (State.dropPage d acc vp).2.1 + (State.dropPage d acc vp).2.2 =
      acc.2.1 + acc.2.2 + if (vp.2.st == .bench || vp.2.st == .rack) = true then 1 else 0 := by
  unfold State.dropPage
  dsimp only
  by_cases hp : vp.2.st = .bench ∨ vp.2.st = .rack
  · have hb : (vp.2.st == .bench || vp.2.st == .rack) = true := by simpa using hp
    rw [if_pos hp, if_pos hb]
    split <;> dsimp only <;> omega
  · have hb : ¬ (vp.2.st == .bench || vp.2.st == .rack) = true := by simpa using hp
    rw [if_neg hp, if_neg hb]
    rfl

/-- Every entry of the list goes, and an invalid entry stays so. -/
theorem State.foldl_dropPage_pte (d : Nat) (l : List (Nat × Pte)) (acc : State × Nat × Nat) {v : Nat}
    (h : v ∈ l.map (·.1) ∨ acc.1.pte d v = .invalid) : (l.foldl (State.dropPage d) acc).1.pte d v = .invalid := by
  induction l generalizing acc with
  | nil => exact h.resolve_left (by simp)
  | cons x l ih =>
    rw [List.map_cons, List.mem_cons, or_assoc] at h
    refine ih _ ?_
    rcases h with hx | hl | hinv
    · exact .inr (State.dropPage_pte d acc x (.inl hx))
    · exact .inl hl
    · exact .inr (State.dropPage_pte d acc x (.inr hinv))

/-- The counts take each entry that names a page once. -/
theorem State.foldl_dropPage_count (d : Nat) (l : List (Nat × Pte)) (acc : State × Nat × Nat) :
    (l.foldl (State.dropPage d) acc).2.1 + (l.foldl (State.dropPage d) acc).2.2 =
      acc.2.1 + acc.2.2 + l.countP (fun x => x.2.st == .bench || x.2.st == .rack) := by
  induction l generalizing acc with
  | nil => rfl
  | cons x l ih => rw [List.foldl_cons, ih, State.dropPage_count, List.countP_cons]; omega

/-- The state in which a sequence's record and its place are gone. -/
def State.withoutRecord (s : State) (d k : Nat) (r : SeqRec) : State :=
  let s := (match AL.get (d, k) s.kv.seqLoc with
    | some (c, half) => s.freeMeta c half (r.recordBytes / 2048)
    | none => s).refund d (r.recordBytes / 256)
  s.setKv { s.kv with seqs := AL.del (d, k) s.kv.seqs, seqLoc := AL.del (d, k) s.kv.seqLoc }

theorem State.destroySeq_eq (e : State) (d k : Nat) (r : SeqRec) :
    e.destroySeq d k r = ((e.dropPages d r (e.shape d r.shapeId)).1.withoutRecord d k r, (e.dropPages d r (e.shape d r.shapeId)).2) := rfl

theorem State.withoutRecord_keeps (s : State) (d k : Nat) (r : SeqRec) : (s.withoutRecord d k r).outside = s.outside ∧
    (s.withoutRecord d k r).integ = s.integ ∧ (s.withoutRecord d k r).kv.ptes = s.kv.ptes ∧
    (s.withoutRecord d k r).kv.seqs = AL.del (d, k) s.kv.seqs := by
  unfold State.withoutRecord
  dsimp only
  split
  next c half _ =>
    have hm := s.freeMeta_mapped c half (r.recordBytes / 2048)
    have hrec := State.recorded_of_mapped hm
    have ho := State.outside_of_recorded hrec
    have hi : (s.freeMeta c half (r.recordBytes / 2048)).integ = s.integ := by simp
    have hp := State.ptes_of_mapped hm
    exact ⟨ho, hi, hp, congrArg (AL.del (d, k)) (State.seqs_of_recorded hrec)⟩
  · exact ⟨rfl, rfl, rfl, rfl⟩

theorem State.doSeqDestroy_of {h : Hdr} {k : Nat} {r : SeqRec} (hr : e.seqRec h.domain k = some r)
    (hst : r.st = .active ∨ r.st = .parked ∨ r.st = .moved) : e.doSeqDestroy h k =
    .done (e.destroySeq h.domain k r).1 { status := stOk, c0 := (e.destroySeq h.domain k r).2.1, c1 := (e.destroySeq h.domain k r).2.2 } := by
  rcases hst with hst | hst | hst <;> simp [State.doSeqDestroy, hr, lifeRefusal, hst]

theorem State.doSeqDestroy_absent {h : Hdr} {k : Nat} (hr : e.seqRec h.domain k = none) : e.doSeqDestroy h k = .done e badDescriptor := by
  simp only [State.doSeqDestroy, hr]

/-- What SEQ_DESTROY leaves. -/
theorem State.destroySeq_keeps (e : State) (d k : Nat) (r : SeqRec) : (e.destroySeq d k r).1.outside = e.outside ∧
    (e.destroySeq d k r).1.integ = e.integ ∧ (e.destroySeq d k r).1.kv.seqs = AL.del (d, k) e.kv.seqs := by
  obtain ⟨ho, hi, -, hs⟩ := (e.dropPages d r (e.shape d r.shapeId)).1.withoutRecord_keeps d k r
  have hrec : (e.dropPages d r (e.shape d r.shapeId)).1.recorded = e.recorded := by
    rw [State.dropPages_eq]
    exact State.foldl_fst_keeps State.recorded _ (State.dropPage_recorded d) _ (e, 0, 0)
  have hinteg : (e.dropPages d r (e.shape d r.shapeId)).1.integ = e.integ := by
    rw [State.dropPages_eq]
    exact State.foldl_fst_keeps State.integ _ (State.dropPage_integ d) _ (e, 0, 0)
  rw [State.destroySeq_eq]
  exact ⟨ho.trans (State.outside_of_recorded hrec), hi.trans hinteg, hs.trans (congrArg (AL.del (d, k)) (State.seqs_of_recorded hrec))⟩

theorem State.destroySeq_pte (e : State) (d k : Nat) (r : SeqRec) {x : Nat × Pte} (hx : x ∈ e.seqPtes d r (e.shape d r.shapeId)) :
    (e.destroySeq d k r).1.pte d x.1 = .invalid := by
  obtain ⟨-, -, hp, -⟩ := (e.dropPages d r (e.shape d r.shapeId)).1.withoutRecord_keeps d k r
  rw [State.destroySeq_eq, State.pte, hp]
  exact State.foldl_dropPage_pte d _ (e, 0, 0) (.inl (List.mem_map_of_mem hx))

theorem State.destroySeq_count (e : State) (d k : Nat) (r : SeqRec) : (e.destroySeq d k r).2.1 + (e.destroySeq d k r).2.2 =
    (e.seqPtes d r (e.shape d r.shapeId)).countP (fun x => x.2.st == .bench || x.2.st == .rack) :=
  (State.foldl_dropPage_count d _ (e, 0, 0)).trans (Nat.zero_add _)

end Sys2Proof.Machine

open Sys2Proof Sys2Proof.Machine

/-- Settles O42: each command runs its operation in the state of its admission, and the lemmas of the operation say what it leaves. -/
theorem sequencesLive : Obligations.SequencesLive := by
  refine ⟨?create, ?noCapacity, ?park, ?resume, ?fetch, ?destroy, ?parkAbsent, ?destroyAbsent⟩
  case create =>
    intro s e v q a n h he href hn hq hp
    subst he
    obtain ⟨hrec, hused⟩ := State.placeRecord_keeps hp
    have hcharged : (v.charge q.hdr.domain (n / 256)).recorded = (s.admitted q (.seqCreate a)).recorded := hrec
    obtain ⟨hseq, hothers, ho⟩ := State.putSeq_keeps (d := q.hdr.domain) (k := a.seq) (newSeq a (histOf a.histN) n) hcharged
    have hrun := (State.runOp_seqCreate (c := s.newCmd q (.seqCreate a) false) rfl).trans (State.doSeqCreate_places (h := q.hdr) href hn hq hp)
    rw [exec_seqCreate]
    refine ⟨_, State.inService_ends_outside h hrun ho, hseq, ?_, hothers, State.eq_of_outside ho⟩
    exact (AL.getD_put ..).trans (congrArg (· + n / 256) (hused _))
  case noCapacity =>
    intro s e q a h he href hq
    subst he
    rw [exec_seqCreate]
    exact State.inService_ends_outside h ((State.runOp_seqCreate rfl).trans (State.doSeqCreate_noCapacity href hq)) rfl
  case park =>
    intro s e q k n r sh h he hint hr hsh hst hn
    subst he hsh
    obtain ⟨hseq, hothers, ho⟩ := State.putSeq_keeps (d := q.hdr.domain) (k := k)
      { r with st := .parked, parkTime := BitVec.ofNat 64 s.nrt, changeSeq := (r.changeSeq + 1) % 2 ^ 64 }
      ((s.admitted q (.seqPark k)).unheld_recorded q.hdr.domain r)
    have hrun := (State.runOp_seqPark (c := s.newCmd q (.seqPark k) false) rfl (State.hasRecords_of_intact hint)).trans
      (State.doSeqPark_active (h := q.hdr) hr hst)
    rw [State.bumpChange_putSeq, State.admitted_nrt] at hrun
    have hlen : ((s.admitted q (.seqPark k)).heldFrames q.hdr.domain r ((s.admitted q (.seqPark k)).shape q.hdr.domain r.shapeId)).length = n :=
      (length_filter_located _ _).trans hn.symm
    rw [exec_seqPark, ← hlen]
    exact ⟨_, State.inService_ends_outside h hrun ho, hseq, hothers, State.eq_of_outside ho⟩
  case resume =>
    intro s e q k r h he hhas hr hst hflag
    subst he
    have hrun := (State.runOp_seqResume (c := s.newCmd q (.seqResume k) false) rfl hhas).trans (State.doSeqResume_parked hr hst rfl hflag)
    rw [State.bumpChange_putSeq] at hrun
    rw [exec_seqResume]
    exact ⟨_, State.inService_ends_outside h hrun (State.putSeq_outside ..), State.seqRec_putSeq .., rfl⟩
  case fetch =>
    intro s e u q k r vs ws h he hhas hr hst hflag hp hvs hws
    subst he hws
    have hdesk : u.desk = (s.admitted q (.seqResume k)).desk := by
      have := State.prefetch_desk (s.admitted q (.seqResume k)) q.hdr.domain ((s.admitted q (.seqResume k)).partOf q.hdr.context) k r
        ((s.admitted q (.seqResume k)).shape q.hdr.domain r.shapeId)
      rwa [hp] at this
    have hrun := (State.runOp_seqResume (c := s.newCmd q (.seqResume k) false) rfl hhas).trans (State.doSeqResume_fetches hr hst rfl hflag hp hvs)
    rw [State.admitted_nrt] at hrun
    obtain ⟨he, hfound⟩ := State.inService_goesOn h rfl rfl hrun hdesk
    exact ⟨_, he, hfound, rfl⟩
  case destroy =>
    intro s e q k r sh h he hr hsh hst
    subst he hsh
    obtain ⟨ho, hinteg, hseqs⟩ := (s.admitted q (.seqDestroy k)).destroySeq_keeps q.hdr.domain k r
    have hall := State.eq_of_outside ho
    rw [hinteg] at hall
    rw [exec_seqDestroy]
    refine ⟨_, _, _, State.inService_ends_outside h ((State.runOp_seqDestroy rfl).trans (State.doSeqDestroy_of hr hst)) ho, ?_,
      fun x hx => State.destroySeq_pte _ _ _ _ hx, State.destroySeq_count .., fun j hj => ?_, hall⟩
    · exact (congrArg (AL.get _) hseqs).trans (AL.get_del ..)
    · exact (congrArg (AL.get j) hseqs).trans (AL.get_del_ne hj _)
  case parkAbsent =>
    intro s e q k he h hr
    subst he
    rw [exec_seqPark]
    exact State.inService_ends_outside h
      ((State.runOp_seqPark rfl (State.hasRecords_absent hr)).trans (State.doSeqPark_absent hr)) rfl
  case destroyAbsent =>
    intro s e q k he h hr
    subst he
    rw [exec_seqDestroy]
    exact State.inService_ends_outside h ((State.runOp_seqDestroy rfl).trans (State.doSeqDestroy_absent hr)) rfl

end

section
/-!
SUPPORT. A SEAL whose copy of a shared page takes its line from a page that a second entry of one VPN names (R227): the entry that
counts becomes RACK with the other, and the command seals one page more than its sequence has open.
-/

namespace Sys2Proof.Machine

theorem exec_sealOp (q : Req) (k : Nat) (s : State) : exec (.sealOp q k) s = s.inService (·.command q (.sealOp k)) := rfl

/-- Whether the pages of a command are ready to be written. -/
def Prep.isReady : Prep → Bool
  | .ready _ _ _ => true
  | _ => false

theorem Prep.exists_of_isReady {p : Prep} (h : p.isReady = true) : ∃ v ts gs, p = .ready v ts gs := by
  cases p with
  | ready v ts gs => exact ⟨v, ts, gs, rfl⟩
  | refuse | short | await => cases h

/-- COUNT0 of the newest message of a connection, read as a completion response (Table 13-8). -/
def State.replyCount (s : State) (k : Nat) : Nat := ((s.conn k).bind (·.msgs.getLast?)).elim 0 (fun m => leVal ((m.bytes.drop 24).take 4))

/-! ### The counterexample -/

/-- An OPEN page of sequence 1 that two entries share. -/
def sharedOpenPage : Page := { Page.blank with st := .opened, share := 2, domain := 5, shapeId := 2, seq := 1, vpn := 256, filled := 10 }

/-- A sequence of two layers, with ten positions in each. -/
def twoLayers : SeqRec := ⟨.active, 2, 2, 1, 8, 1, 0, 256, 0, [(0, 0)], 0, 0, 0, 4096, 0, 0, 0, 0, 0, [10, 10], [], 0⟩

/-- An open connection of domain 5 in a composition. -/
def sealingConn : Conn :=
  ⟨2, 1, 77, 5, 0, 1, 0, 0, 0, 0, 0, 0, [], [], 0, [], [], [], [], [], 0, [], 0, 0, 0, 0, 8000, 0, 0, 0, 0, false, [], false, false, none, 0, true, false, 0, [],
    0⟩

/-- An ACTIVE node whose sequence 1 has a shared open page in layer 0. VPN 512, that of layer 1, has two entries, of which the first is
invalid and the second names frame 576. Frame 576 has the one line of domain 5 in the set of frame 0. -/
def doubleEntry : State := { State.reset with
  rf := { RegFile.blank with vals := [((pgBnch 0, 0x13C, 5), 1000)] }
  pw := { PowerState.blank with st := .active }
  cmds := { CmdState.blank with ctxs := [(3, ⟨5, 0, false, 1, 8, 16⟩)] }
  sec := { SecState.blank with domains := [(5, ⟨.active, 0, 0, none⟩)] }
  net := { State.reset.net with conns := [(2, sealingConn)] }
  kv := { KvState.blank with
    shapes := [((5, 2), 0x8000020000000000)]
    seqs := [((5, 1), twoLayers)]
    tables := [((5, 0, 1), (0, 0)), ((5, 0, 2), (0, 1))]
    ptes := [((5, 256), { Pte.invalid with st := .bench, shared := true, r := true, a := true, loc := 1 }),
      ((5, 512), Pte.invalid), ((5, 512), { Pte.invalid with st := .bench, r := true, loc := 576 })]
    frames := [(1, ⟨1, sharedOpenPage, sharedOpenPage, none, 0, 0, 0, 0⟩)]
    lines := [newLine 0 0 0 576 0 .copy 0 5] } }

/-- A request of context 3 on that connection. -/
def sealRequest : Req := ⟨.conn 2 0, ⟨3, false, false, 0, 5, 0, 0⟩, []⟩

/-- The node once it has taken in the SEAL of sequence 1, and the command. -/
def sealAdmitted : State := doubleEntry.admitted sealRequest (.sealOp 1)
def sealCmd : Cmd := doubleEntry.newCmd sealRequest (.sealOp 1) false

/-- One page is open. -/
theorem sealAdmitted_openPoints : sealAdmitted.openPoints 5 twoLayers (sealAdmitted.shape 5 2) = [⟨0, 0, 0⟩] := by decide

theorem sealAdmitted_open : sealAdmitted.openPoints 5 twoLayers (sealAdmitted.shape 5 2) ≠ [] := by
  rw [sealAdmitted_openPoints]
  exact List.cons_ne_nil _ _

theorem sealAdmitted_isReady : (sealAdmitted.prepare (fun s v k => s.startFill 5 (sealAdmitted.partOf 3) v k) sealCmd 1 twoLayers
    (sealAdmitted.shape 5 2) (sealAdmitted.openPoints 5 twoLayers (sealAdmitted.shape 5 2))).isReady = true := by decide

/-- The command answers that it has sealed two. -/
theorem doubleEntry_replyCount : (doubleEntry.command sealRequest (.sealOp 1)).replyCount 2 = 2 := by decide

theorem exec_doubleEntry : exec (.sealOp sealRequest 1) doubleEntry = .next (doubleEntry.command sealRequest (.sealOp 1)) := by
  rw [exec_sealOp]
  exact State.inService_keeps (by decide) rfl (by decide) (by decide)

/-- A completion that counts one page is answered so, whatever the command has left of the store. -/
theorem sealAdmitted_finish_replyCount (n : Nat) (f : RegFile) (h : HostState) (k : KvState) (i : IntegState) :
    (({ sealAdmitted with fresh := n, rf := f, host := h, kv := k, integ := i } : State).finish sealCmd { status := stOk, c0 := 1 }).replyCount 2 = 1 := rfl

end Sys2Proof.Machine

open Sys2Proof Sys2Proof.Machine

/-- Refutes O43 in its clause on SEAL. The clause speaks of every state, also of one where a VPN has two entries; there the eviction of the
line that a copy takes makes the first of them valid, and the SEAL counts the page that it shows. -/
theorem not_pagesAreWrittenReadAndForked : ¬ Obligations.PagesAreWrittenReadAndForked := by
  intro h
  obtain ⟨-, -, hseal, -⟩ := h
  obtain ⟨v, ts, gs, hready⟩ := Prep.exists_of_isReady sealAdmitted_isReady
  obtain ⟨u, r', he, -, -, -, -, -, hu⟩ := hseal doubleEntry sealAdmitted v sealRequest 1 twoLayers (sealAdmitted.shape 5 2) ts gs
    (by decide) rfl (by decide) rfl rfl rfl rfl rfl sealAdmitted_open (by decide) hready
  have hlen : (sealAdmitted.openPoints sealRequest.hdr.domain twoLayers (sealAdmitted.shape 5 2)).length = 1 :=
    congrArg List.length sealAdmitted_openPoints
  have hone : (u.finish sealCmd { status := stOk, c0 := 1 }).replyCount 2 = 1 := by
    rw [hu]
    exact sealAdmitted_finish_replyCount ..
  rw [exec_doubleEntry, hlen] at he
  injection he with he
  have htwo := doubleEntry_replyCount
  rw [he] at htwo
  exact absurd (htwo.symm.trans hone) (by decide)

end

section
/-!
SUPPORT. Searches of the starter table (R124 to R129, Tables 5-3 to 5-5): a probe finds the lowest way that matches, and changes nothing
but registers and the host interface; PREFIX_LOOKUP and PREFIX_STEP.
-/

namespace Sys2Proof.Machine

variable {s t e : State} {q : Req}

/-! ### Units that an admission leaves as they were -/

/-- A unit takes work or not by its PG_CTL and its fence. -/
theorem State.unitAdmits_congr {pg : Nat} (hv : AL.get (regKeyAt pg 0x18 0) t.rf.vals = AL.get (regKeyAt pg 0x18 0) s.rf.vals)
    (hf : t.rf.fenced = s.rf.fenced) : t.unitAdmits pg = s.unitAdmits pg := by
  have hhas : AL.has (regKeyAt pg 0x18 0) t.rf.vals = AL.has (regKeyAt pg 0x18 0) s.rf.vals := congrArg Option.isSome hv
  have hreg : t.reg pg 0x18 = s.reg pg 0x18 := congrArg (fun o : Option Word => o.getD (regReset pg 0x18)) hv
  unfold State.unitAdmits
  rw [hhas]
  simp only [State.pageAdmits, State.fld, State.pageFenced, hreg, hf]

theorem State.admitted_unitAdmits (s : State) (q : Req) (op : Op) (pg : Nat) : (s.admitted q op).unitAdmits pg = s.unitAdmits pg := by
  have hpolice (u : State) (d n : Nat) : (u.policeTake d n).unitAdmits pg = u.unitAdmits pg := by
    unfold State.policeTake
    split
    · have hne {o : Nat} (ho : o ≠ 0x18) : regKeyAt pg 0x18 0 ≠ regKeyAt pgIngp o 0 := fun h => by
        have h2 := congrArg Prod.snd h
        simp only [regKeyAt_snd, Prod.mk.injEq] at h2
        exact ho h2.1.symm
      refine State.unitAdmits_congr ?_ rfl
      exact (State.setReg_vals_ne (hne (by decide)) _).trans (State.setReg_vals_ne (hne (by decide)) _)
    · rfl
  have hcount : (s.countIn q.src).unitAdmits pg = s.unitAdmits pg := State.unitAdmits_congr (by simp) (by simp)
  unfold State.admitted State.taken
  dsimp only
  split
  · exact hcount
  · exact (hpolice ..).trans hcount

theorem State.admitted_kv (s : State) (q : Req) (op : Op) : (s.admitted q op).kv = s.kv := by simp [State.admitted]

/-- The units of an admitted command's first step still take work when it runs. -/
theorem State.closedUnit_admitted {op : Op} (h : s.admits q op = true) : (s.admitted q op).closedUnit (s.newCmd q op false) = none := by
  obtain ⟨-, -, -, -, hunits⟩ := State.admits_elim h
  unfold State.closedUnit
  rw [State.newCmd_wait h]
  refine List.find?_eq_none.mpr fun pg hpg => ?_
  rw [State.admitted_unitAdmits, List.all_eq_true.mp hunits pg hpg]
  exact Bool.false_ne_true

/-- An admitted command whose operation ends at once and leaves the queue, the clock, the admitted commands and the checkpoint jobs. -/
theorem State.inService_ends_desk {op : Op} {r : Result} (h : s.admits q op = true)
    (hrun : (s.admitted q op).runOp (s.newCmd q op false) none false = .done t r) (hd : t.desk = (s.admitted q op).desk)
    (hck : t.ckpt = (s.admitted q op).ckpt) : s.inService (·.command q op) = .next (t.finish (s.newCmd q op false) r) := by
  refine State.inService_ends h hrun ?_ ((State.pending_of_desk hd).trans (s.admitted_pending q op))
    ((State.nrt_of_desk hd).trans (s.admitted_nrt q op)) (hck.trans (s.admitted_ckpt q op))
  rw [State.cmd, State.cmds_of_desk hd]
  exact State.admitted_cmd s q op

/-! ### What a search changes -/

/-- A state without its registers and host interface. -/
def State.unreported (s : State) : State := { s with rf := State.reset.rf, host := State.reset.host }

@[simp] theorem State.bump_unreported (s : State) (pg off n : Nat) : (s.bump pg off n).unreported = s.unreported := rfl
@[simp] theorem State.bump64_unreported (s : State) (pg off n : Nat) : (s.bump64 pg off n).unreported = s.unreported := rfl
@[simp] theorem State.setIrq_unreported (s : State) (pg b : Nat) : (s.setIrq pg b).unreported = s.unreported := by
  simp [State.unreported]

theorem State.eq_of_unreported (h : t.unreported = s.unreported) : t = { s with rf := t.rf, host := t.host } := by
  cases s; cases t
  simp only [State.unreported, State.mk.injEq] at h ⊢
  simp_all

theorem State.kv_of_unreported (h : t.unreported = s.unreported) : t.kv = s.kv := by
  have hk := congrArg State.kv h
  exact hk

/-! ### What a search reads lies in the KV store -/

theorem State.entry_congr (h : t.kv = s.kv) (tag way : Nat) : t.entry tag way = s.entry tag way := by simp only [State.entry, h]
theorem State.frame_congr (h : t.kv = s.kv) (f : Nat) : t.frame f = s.frame f := by simp only [State.frame, h]

theorem State.verified_congr (h : t.kv = s.kv) (keyHi : DWord) (x : StEntry) : t.verified keyHi x = s.verified keyHi x := by
  simp only [State.verified, State.frame_congr h]

theorem State.matchRecord_congr (h : t.kv = s.kv) (f : Nat) : t.matchRecord f = s.matchRecord f := by
  simp only [State.matchRecord, State.page, State.frame_congr h]

/-! ### Probes -/

/-- Whether way `i` holds a candidate whose page record passes (R125, R126). -/
def State.matchAt (s : State) (d shapeId : Nat) (keyLo keyHi : DWord) (i : Nat) : Bool :=
  (s.entry (matchTag d keyLo) i).any (fun x => isCandidate d shapeId keyLo x && s.verified keyHi x)

/-- The lowest matching way from `w` upwards. -/
def State.firstMatch (s : State) (d shapeId : Nat) (keyLo keyHi : DWord) (w : Nat) : Option Nat :=
  (List.range 8).find? (fun i => decide (w ≤ i) && s.matchAt d shapeId keyLo keyHi i)

variable {d shapeId w i : Nat} {keyLo keyHi : DWord} {x : StEntry}

theorem State.firstMatch_congr (h : t.kv = s.kv) (d shapeId : Nat) (keyLo keyHi : DWord) (w : Nat) :
    t.firstMatch d shapeId keyLo keyHi w = s.firstMatch d shapeId keyLo keyHi w := by
  simp only [State.firstMatch, State.matchAt, State.entry_congr h, State.verified_congr h]

theorem State.firstMatch_zero (s : State) (d shapeId : Nat) (keyLo keyHi : DWord) :
    s.firstMatch d shapeId keyLo keyHi 0 = (List.range 8).find? (fun i => (s.entry (matchTag d keyLo) i).any (fun x =>
      isCandidate d shapeId keyLo x && s.verified keyHi x)) := by
  simp only [State.firstMatch, State.matchAt, Nat.zero_le, decide_true, Bool.true_and]

theorem State.firstMatch_lt (h : s.firstMatch d shapeId keyLo keyHi w = some i) : i < 8 :=
  List.mem_range.mp (List.mem_of_find?_eq_some h)

/-- A matching entry is one of the domain that is searched. -/
theorem State.firstMatch_domain (h : s.firstMatch d shapeId keyLo keyHi w = some i) (hx : s.entry (matchTag d keyLo) i = some x) :
    x.domain = d := by
  have hm := List.find?_some h
  simp only [State.matchAt, hx, Option.any_some, isCandidate, Bool.and_eq_true, beq_iff_eq] at hm
  obtain ⟨-, ⟨⟨⟨-, hd⟩, -⟩, -⟩, -⟩ := hm
  exact hd

theorem State.readCands_nil (h : s.kv.codes = []) (tag : Nat) (keyHi : DWord) (l : List (Nat × StEntry)) : s.readCands tag keyHi l = s := by
  unfold State.readCands
  generalize false = b
  induction l generalizing b with
  | nil => rfl
  | cons c l ih => cases b <;> simpa [State.readRecord_nil s h] using ih _

/-- What follows the longest run without a member that passes begins with the first that passes. -/
theorem head?_drop_takeWhile_not {α : Type} (p : α → Bool) (l : List α) :
    (l.drop (l.takeWhile (fun a => !p a)).length).head? = l.find? p := by
  induction l with
  | nil => rfl
  | cons a l ih => cases ha : p a <;> simp [ha, ih]

/-- The candidates of a set from way `w` upwards, in the order of the ways. -/
def State.candidates (s : State) (d shapeId : Nat) (keyLo : DWord) (w : Nat) : List (Nat × StEntry) :=
  ((List.range 8).filterMap (fun i => (s.entry (matchTag d keyLo) i).map (fun x => (i, x)))).filter
    (fun p => decide (w ≤ p.1) && isCandidate d shapeId keyLo p.2)

theorem State.find?_candidates (s : State) (d shapeId : Nat) (keyLo keyHi : DWord) (w : Nat) :
    (s.candidates d shapeId keyLo w).find? (fun p => s.verified keyHi p.2) =
      (s.firstMatch d shapeId keyLo keyHi w).bind (fun i => (s.entry (matchTag d keyLo) i).map (fun x => (i, x))) := by
  rw [State.candidates, List.find?_filter, List.find?_filterMap]
  congr 2
  funext i
  cases hx : s.entry (matchTag d keyLo) i <;> simp [State.matchAt, hx, Bool.and_assoc]

/-- A probe answers the first candidate that passes, and leaves all but registers and the host interface (R125, R126). -/
theorem State.probe_spec (h : s.kv.codes = []) (d shapeId : Nat) (keyLo keyHi : DWord) (w : Nat) :
    (s.probe d shapeId keyLo keyHi w).1.unreported = s.unreported ∧
    (s.probe d shapeId keyLo keyHi w).2.hit = (s.candidates d shapeId keyLo w).find? (fun p => s.verified keyHi p.2) := by
  have hreads (n : Nat) : (((s.bump64 (pgStrt (tagBank (matchTag d keyLo))) 0x104 1).bump (pgStrt (tagBank (matchTag d keyLo))) 0x110 n).readCands
      (matchTag d keyLo) keyHi (s.candidates d shapeId keyLo w)) =
      (s.bump64 (pgStrt (tagBank (matchTag d keyLo))) 0x104 1).bump (pgStrt (tagBank (matchTag d keyLo))) 0x110 n :=
    State.readCands_nil (by simpa using h) ..
  rw [← head?_drop_takeWhile_not]
  unfold State.probe
  dsimp only
  rw [← State.candidates.eq_def, hreads]
  generalize hu : (s.bump64 (pgStrt (tagBank (matchTag d keyLo))) 0x104 1).bump (pgStrt (tagBank (matchTag d keyLo))) 0x110 _ = u
  have huns : u.unreported = s.unreported := by simp [← hu]
  simp only [State.verified_congr (State.kv_of_unreported huns)]
  have hbad (b : Bool) (pg n : Nat) : (if b then u else (u.bump pg 0x114 n).setIrq pg 1).unreported = s.unreported := by
    cases b <;> simp [huns]
  split
  next hrest => exact ⟨hbad .., by rw [hrest]; rfl⟩
  next c cs hrest => exact ⟨hbad .., by rw [hrest]; rfl⟩

theorem State.probe_unreported (h : s.kv.codes = []) (d shapeId : Nat) (keyLo keyHi : DWord) (w : Nat) :
    (s.probe d shapeId keyLo keyHi w).1.unreported = s.unreported := (State.probe_spec h ..).1

theorem State.probe_kv (h : s.kv.codes = []) (d shapeId : Nat) (keyLo keyHi : DWord) (w : Nat) :
    (s.probe d shapeId keyLo keyHi w).1.kv = s.kv := State.kv_of_unreported (State.probe_unreported h ..)

theorem State.probe_finds (h : s.kv.codes = []) (hf : s.firstMatch d shapeId keyLo keyHi w = some i)
    (hx : s.entry (matchTag d keyLo) i = some x) : (s.probe d shapeId keyLo keyHi w).2.hit = some (i, x) := by
  rw [(State.probe_spec h ..).2, State.find?_candidates, hf, Option.bind_some, hx, Option.map_some]

theorem State.probe_misses (h : s.kv.codes = []) (hf : s.firstMatch d shapeId keyLo keyHi w = none) :
    (s.probe d shapeId keyLo keyHi w).2.hit = none := by
  rw [(State.probe_spec h ..).2, State.find?_candidates, hf, Option.bind_none]

/-! ### What a search answers (Tables 5-3 to 5-5) -/

/-- The counts of a search that has found way `i` of domain `d` in a phase: WAY and PHASE of the cursor, and HIT and PUBLIC (Tables 5-3
and 5-4). -/
def foundCounts (phase i d n m : Nat) : Prop := n % 8 = i ∧ n / 16 % 2 = phase % 2 ∧ m % 2 = 1 ∧ m / 4 = b2n (d == 0)

theorem cursorOf_way (more : Bool) (phase : Nat) (pubEn : Bool) (hi : i < 8) : cursorOf more phase pubEn i % 8 = i := by
  cases more <;> cases pubEn <;> simp [cursorOf, b2n] <;> omega

theorem cursorOf_phase (more : Bool) (phase : Nat) (pubEn : Bool) (way : Nat) : cursorOf more phase pubEn way / 16 % 2 = phase % 2 := by
  cases more <;> cases pubEn <;> simp [cursorOf, b2n] <;> omega

theorem cursorOf_last_lt (phase : Nat) (pubEn : Bool) (way : Nat) : cursorOf false phase pubEn way < 2 ^ 31 := by
  cases pubEn <;> simp [cursorOf, b2n] <;> omega

theorem foundCounts_of_cursor (more multi : Bool) (phase : Nat) (pubEn : Bool) (d : Nat) (hi : i < 8) :
    foundCounts phase i d (cursorOf more phase pubEn i) (1 + 2 * b2n multi + 4 * b2n (d == 0)) := by
  refine ⟨cursorOf_way more phase pubEn hi, cursorOf_phase more phase pubEn i, ?_, ?_⟩ <;>
    cases multi <;> cases d == 0 <;> decide

variable {caller phase addr : Nat} {pubEn : Bool}

/-- A search that finds an entry in the phase in which it begins. -/
theorem State.search_finds (h : s.kv.codes = []) (hd : d = if phase = 0 then caller else 0)
    (hf : s.firstMatch d shapeId keyLo keyHi w = some i) (hx : s.entry (matchTag d keyLo) i = some x) :
    ∃ t n m, s.search caller shapeId keyLo keyHi phase w pubEn addr =
        (t, { status := stOk, c0 := n, c1 := m, addr := addr, out := s.matchRecord x.frame }) ∧
      foundCounts phase i d n m ∧ t.unreported = s.unreported := by
  have hhit := State.probe_finds h hf hx
  have hfirst : (if phase = 0 then s.probe caller shapeId keyLo keyHi w else s.probe 0 shapeId keyLo keyHi w) = s.probe d shapeId keyLo keyHi w := by
    rw [hd]
    split <;> rfl
  unfold State.search
  simp only [hfirst, hhit, State.firstMatch_domain hf hx, State.matchRecord_congr (State.probe_kv h d shapeId keyLo keyHi w)]
  exact ⟨_, _, _, rfl, foundCounts_of_cursor _ _ _ _ _ (State.firstMatch_lt hf), State.probe_unreported h ..⟩

/-- A search that finds no entry in the caller's domain and one in the public one. -/
theorem State.search_finds_public (h : s.kv.codes = []) (hpub : pubEn = true) (hmiss : s.firstMatch caller shapeId keyLo keyHi w = none)
    (hf : s.firstMatch 0 shapeId keyLo keyHi 0 = some i) (hx : s.entry (matchTag 0 keyLo) i = some x) :
    ∃ t n m, s.search caller shapeId keyLo keyHi 0 w pubEn addr =
        (t, { status := stOk, c0 := n, c1 := m, addr := addr, out := s.matchRecord x.frame }) ∧
      foundCounts 1 i 0 n m ∧ t.unreported = s.unreported := by
  subst hpub
  have hnone := State.probe_misses h hmiss
  have hkv := State.probe_kv h caller shapeId keyLo keyHi w
  have hcodes : (s.probe caller shapeId keyLo keyHi w).1.kv.codes = [] := by rw [hkv, h]
  have hhit := State.probe_finds hcodes ((State.firstMatch_congr hkv ..).trans hf) ((State.entry_congr hkv ..).trans hx)
  unfold State.search
  simp only [if_true, hnone, decide_true, Bool.true_and, hhit, State.firstMatch_domain hf hx,
    State.matchRecord_congr ((State.probe_kv hcodes 0 shapeId keyLo keyHi 0).trans hkv)]
  exact ⟨_, _, _, rfl, foundCounts_of_cursor _ _ _ _ _ (State.firstMatch_lt hf), (State.probe_unreported hcodes ..).trans (State.probe_unreported h ..)⟩

/-- A search of the caller's domain alone that finds nothing. -/
theorem State.search_misses (h : s.kv.codes = []) (hpub : pubEn = false) (hmiss : s.firstMatch caller shapeId keyLo keyHi w = none) :
    ∃ t last, s.search caller shapeId keyLo keyHi 0 w pubEn addr = (t, { status := stOk, c0 := cursorOf false 0 false last }) ∧
      t.unreported = s.unreported := by
  subst hpub
  unfold State.search
  simp only [if_true, State.probe_misses h hmiss, decide_true, Bool.and_false]
  exact ⟨_, _, rfl, State.probe_unreported h ..⟩

/-! ### PREFIX_LOOKUP and PREFIX_STEP -/

theorem exec_prefixLookup (q : Req) (a : LookupD) (s : State) : exec (.prefixLookup q a) s = s.inService (·.command q (.prefixLookup a)) := rfl
theorem exec_prefixStep (q : Req) (a : LookupD) (s : State) : exec (.prefixStep q a) s = s.inService (·.command q (.prefixStep a)) := rfl

theorem State.runOp_prefixLookup {c : Cmd} {a : LookupD} (h : c.op = .prefixLookup a) (hunit : e.closedUnit c = none) :
    e.runOp c none false = e.doLookup c.hdr c.src a false := by
  unfold State.runOp
  rw [hunit]
  simp [h, Op.needs]

theorem State.runOp_prefixStep {c : Cmd} {a : LookupD} (h : c.op = .prefixStep a) (hunit : e.closedUnit c = none) :
    e.runOp c none false = e.doLookup c.hdr c.src a true := by
  unfold State.runOp
  rw [hunit]
  simp [h, Op.needs]

variable {hdr : Hdr} {src : Source} {a : LookupD}

theorem State.doLookup_first (hv : shapeValid (e.shapeW hdr.domain a.shapeId) = true) (ho : e.outputRefused src hdr.domain a.resultAddr 32 = none) :
    e.doLookup hdr src a false = .done (e.search hdr.domain a.shapeId a.keyLo a.keyHi 0 0 (hdr.flag 0) a.resultAddr).1
      (e.search hdr.domain a.shapeId a.keyLo a.keyHi 0 0 (hdr.flag 0) a.resultAddr).2 := by
  simp [State.doLookup, firstFail, hv, ho]

theorem State.doLookup_step (hv : shapeValid (e.shapeW hdr.domain a.shapeId) = true) (ho : e.outputRefused src hdr.domain a.resultAddr 32 = none)
    (hmore : bitOf a.cursor 31 = true) :
    e.doLookup hdr src a true = .done
      (e.search hdr.domain a.shapeId a.keyLo a.keyHi (bitsOf a.cursor 4 1) (a.cursor % 8 + 1) (bitOf a.cursor 3) a.resultAddr).1
      (e.search hdr.domain a.shapeId a.keyLo a.keyHi (bitsOf a.cursor 4 1) (a.cursor % 8 + 1) (bitOf a.cursor 3) a.resultAddr).2 := by
  have hway : bitsOf a.cursor 0 3 = a.cursor % 8 := by simp [bitsOf]
  simp [State.doLookup, firstFail, hv, ho, hmore, hway]

theorem State.desk_of_unreported (h : t.unreported = s.unreported) : t.desk = s.desk := by
  have hd := congrArg State.desk h
  exact hd

/-- An admitted command that a search ends. -/
theorem State.inService_searched {op : Op} {r : Result} (h : s.admits q op = true)
    (hrun : (s.admitted q op).runOp (s.newCmd q op false) none false = .done t r) (ht : t.unreported = (s.admitted q op).unreported) :
    s.inService (·.command q op) = .next (t.finish (s.newCmd q op false) r) := by
  have hck := congrArg State.ckpt ht
  exact State.inService_ends_desk h hrun (State.desk_of_unreported ht) hck

theorem State.prefixLookup_outcome {r : Result} (h : s.admits q (.prefixLookup a) = true) (he : e = s.admitted q (.prefixLookup a))
    (hv : shapeValid (e.shapeW q.hdr.domain a.shapeId) = true) (ho : e.outputRefused q.src q.hdr.domain a.resultAddr 32 = none)
    (hsearch : e.search q.hdr.domain a.shapeId a.keyLo a.keyHi 0 0 (q.hdr.flag 0) a.resultAddr = (t, r))
    (ht : t.unreported = e.unreported) : exec (.prefixLookup q a) s = .next (t.finish (s.newCmd q (.prefixLookup a) false) r) := by
  subst he
  have hrun := State.doLookup_first hv ho
  rw [hsearch] at hrun
  exact (exec_prefixLookup q a s).trans
    (State.inService_searched h ((State.runOp_prefixLookup rfl (State.closedUnit_admitted h)).trans hrun) ht)

theorem State.prefixStep_outcome {r : Result} (h : s.admits q (.prefixStep a) = true) (he : e = s.admitted q (.prefixStep a))
    (hv : shapeValid (e.shapeW q.hdr.domain a.shapeId) = true) (ho : e.outputRefused q.src q.hdr.domain a.resultAddr 32 = none)
    (hmore : bitOf a.cursor 31 = true)
    (hsearch : e.search q.hdr.domain a.shapeId a.keyLo a.keyHi (bitsOf a.cursor 4 1) (a.cursor % 8 + 1) (bitOf a.cursor 3) a.resultAddr = (t, r))
    (ht : t.unreported = e.unreported) : exec (.prefixStep q a) s = .next (t.finish (s.newCmd q (.prefixStep a) false) r) := by
  subst he
  have hrun := State.doLookup_step hv ho hmore
  rw [hsearch] at hrun
  exact (exec_prefixStep q a s).trans
    (State.inService_searched h ((State.runOp_prefixStep rfl (State.closedUnit_admitted h)).trans hrun) ht)

end Sys2Proof.Machine
end

section
/-!
SUPPORT. Updates of the starter table (R130 to R133, Tables 5-6 and 5-7): the frame that a command's VPN names, the page record that takes or
gives back a share, and PREFIX_INSERT and PREFIX_REMOVE.
-/

namespace Sys2Proof.Machine

variable {s t e : State} {q : Req}

/-! ### Translations -/

/-- A state without its registers, its free-value counter and what it caches of translations. -/
def State.uncached (s : State) : State := { s with
  fresh := 0, rf := State.reset.rf, kv := { s.kv with ttlb := [], walkCache := [] } }

/-- `t` differs from `s` in counters and caches of translations alone, and has the quotas of the starter table. -/
def State.countsOnly (s t : State) : Prop := t.uncached = s.uncached ∧ ∀ d, t.strtQuota d = s.strtQuota d

theorem State.countsOnly.trans {u : State} (h : s.countsOnly t) (hu : t.countsOnly u) : s.countsOnly u :=
  ⟨hu.1.trans h.1, fun d => (hu.2 d).trans (h.2 d)⟩

theorem State.countsOnly.frames (h : s.countsOnly t) : t.kv.frames = s.kv.frames := by
  have hk := congrArg (fun u : State => u.kv.frames) h.1
  exact hk

theorem State.countsOnly.starter (h : s.countsOnly t) : t.kv.starter = s.kv.starter := by
  have hk := congrArg (fun u : State => u.kv.starter) h.1
  exact hk

/-- A register that no quota is held in leaves the quotas of the starter table. -/
theorem State.setReg_strtQuota {off : Nat} (h : off ≠ 0x134 ∧ off ≠ 0x13C ∧ off ≠ 0x144) (s : State) (pg : Nat) (w : Word) (d : Nat) :
    (s.setReg pg off w).strtQuota d = s.strtQuota d := by
  rw [State.strtQuota, State.fldI, State.regI_setReg_other h (.inr (Ne.symm h.1))]
  rfl

theorem State.bump64_countsOnly {off : Nat} (h : off ≠ 0x134 ∧ off ≠ 0x13C ∧ off ≠ 0x144)
    (h4 : off + 4 ≠ 0x134 ∧ off + 4 ≠ 0x13C ∧ off + 4 ≠ 0x144) (s : State) (pg n : Nat) : s.countsOnly (s.bump64 pg off n) :=
  ⟨rfl, fun d => (State.setReg_strtQuota h4 _ _ _ d).trans (State.setReg_strtQuota h _ _ _ d)⟩

/-- A translation that answers an entry without POISON changes no more than counters and caches (R96, R116). -/
theorem State.translate_countsOnly {d v : Nat} (hp : (s.translate false d v).2.poison = false) : s.countsOnly (s.translate false d v).1 := by
  have hfault (c : Bool) (u : State) : u.countsOnly (if c then u else u.bump pgXlat 0x124 1) := by
    cases c
    · exact ⟨rfl, State.setReg_strtQuota (by decide) u _ _⟩
    · exact ⟨rfl, fun d => rfl⟩
  have hfill (u : State) (l : AL (Nat × Nat) Pte) (wc : List (Nat × Nat)) :
      u.countsOnly (u.setKv { u.kv with ttlb := l, walkCache := wc }).nextFresh := ⟨rfl, fun d => rfl⟩
  have hhit (pg : Nat) : s.countsOnly (s.bump64 pg 0x104 1) := State.bump64_countsOnly (by decide) (by decide) ..
  have hmiss (pg : Nat) : s.countsOnly ((s.bump64 pg 0x10C 1).bump64 pgXlat 0x11C 1) :=
    (State.bump64_countsOnly (by decide) (by decide) ..).trans (State.bump64_countsOnly (by decide) (by decide) ..)
  revert hp
  unfold State.translate
  dsimp only
  split
  · exact fun _ => (hhit _).trans (hfault ..)
  · split
    · exact fun hlost => nomatch hlost
    · split
      · exact fun _ => (hmiss _).trans (hfault ..)
      · exact fun _ => ((hmiss _).trans (hfill ..)).trans (hfault ..)

/-- A walk that names a frame has met no lost table (R252, Table 4-7). -/
theorem State.walkFrame_countsOnly {v : State} {d k n f : Nat} (h : s.walkFrame d k n = (v, .ok f)) : s.countsOnly v := by
  unfold State.walkFrame at h
  split at h
  · cases h
  · dsimp only at h
    split at h
    · cases h
    · split at h
      · cases h
      · cases h
      · cases h
      · split at h
        next => cases h
        next hp =>
          cases h
          exact State.translate_countsOnly (by simpa using hp)

/-! ### Page records -/

theorem State.frame_updFrame (s : State) (f : Nat) (g : Frame → Frame) : (s.updFrame f g).frame f = (s.frame f).map g := by
  have hupd : (s.updFrame f g).frame f = AL.get f (AL.upd f g s.kv.frames) := rfl
  rw [hupd, State.frame, AL.upd]
  cases hf : AL.get f s.kv.frames with
  | none => exact hf
  | some x => exact AL.get_put ..

/-- A change of a page reaches the record that the node works on, in Bench or in Rack (R230). -/
theorem State.page_updPage {f : Nat} (h : (s.frame f).isSome = true) (g : Page → Page) :
    ((s.updPage f g).frame f).isSome = true ∧ (s.updPage f g).page f = g (s.page f) := by
  obtain ⟨x, hx⟩ := Option.isSome_iff_exists.mp h
  unfold State.updPage
  split
  next l hl =>
    have hget : ((s.updFrame f (fun x => { x with cur := g x.cur })).setLine { l with dirtyRec := true, wb := l.wb.map (fun w => (w.1, false)) }).frame f =
        some { x with cur := g x.cur } := by
      have hupd := s.frame_updFrame f (fun x => { x with cur := g x.cur })
      rw [hx] at hupd
      exact hupd
    simp only [State.page, hget, hx]
    exact ⟨rfl, rfl⟩
  next hl =>
    simp only [State.page, State.frame_updFrame, hx]
    exact ⟨rfl, rfl⟩

theorem State.updPage_starter (s : State) (f : Nat) (g : Page → Page) : (s.updPage f g).kv.starter = s.kv.starter := by
  unfold State.updPage
  split <;> rfl

/-- A frame that still has a share stays as it is (R105). -/
theorem State.settleFrame_shared {f : Nat} (h : (s.page f).share ≠ 0) : s.settleFrame f = s := by
  unfold State.settleFrame
  split
  · rfl
  next x hx =>
    have hshare : x.cur.share ≠ 0 := by simpa [State.page, hx] using h
    rw [if_pos hshare, ite_self]

/-- A share and a key go back while the frame has another share (R106, R133). -/
theorem State.releaseKey_of_shared {f : Nat} (h : (s.frame f).isSome = true) (hs : 1 < (s.page f).share) :
    s.releaseKey f = (s.updPage f (fun p => { p with fKeyed := false, keyHi := 0 })).updPage f (fun p => { p with share := p.share - 1 }) ∧
    (s.releaseKey f).page f = { s.page f with share := (s.page f).share - 1, fKeyed := false, keyHi := 0 } := by
  obtain ⟨hsome, hkey⟩ := State.page_updPage h (fun p => { p with fKeyed := false, keyHi := 0 })
  obtain ⟨-, hlow⟩ := State.page_updPage hsome (fun p => { p with share := p.share - 1 })
  rw [hkey] at hlow
  have heq : s.releaseKey f = (s.updPage f (fun p => { p with fKeyed := false, keyHi := 0 })).updPage f (fun p => { p with share := p.share - 1 }) := by
    rw [State.releaseKey, State.lowerShare, State.settleFrame_shared]
    rw [hlow]
    exact Nat.sub_ne_zero_of_lt hs
  exact ⟨heq, (congrArg (fun u : State => u.page f) heq).trans hlow⟩

theorem State.page_congr (h : t.kv.frames = s.kv.frames) (f : Nat) : t.page f = s.page f := by simp only [State.page, State.frame, h]

/-! ### Entries -/

theorem State.updated_put (s : State) (tag w : Nat) (x : StEntry) (way : Nat) : (s.updated tag (some (w, x)) way).entry tag w = some x ∧
    (s.updated tag (some (w, x)) way).kv.frames = s.kv.frames := ⟨AL.get_put .., rfl⟩

theorem State.updated_del (s : State) (tag w : Nat) : (s.updated tag none w).entry tag w = none ∧
    (s.updated tag none w).kv.frames = s.kv.frames := ⟨AL.get_del .., rfl⟩

/-! ### What an update changes -/

/-- A state without its registers, its free-value counter and its KV store. -/
def State.unstored (s : State) : State := { s with fresh := 0, rf := State.reset.rf, kv := KvState.blank }

theorem State.eq_of_unstored (h : t.unstored = s.unstored) : t = { s with fresh := t.fresh, rf := t.rf, kv := t.kv } := by
  cases s; cases t
  simp only [State.unstored, State.mk.injEq] at h ⊢
  simp_all

@[simp] theorem State.updPage_unstored (s : State) (f : Nat) (g : Page → Page) : (s.updPage f g).unstored = s.unstored := by
  unfold State.updPage
  split <;> rfl

@[simp] theorem State.updated_unstored (s : State) (tag : Nat) (x : Option (Nat × StEntry)) (way : Nat) :
    (s.updated tag x way).unstored = s.unstored := by
  cases x <;> rfl

theorem State.desk_of_unstored (h : t.unstored = s.unstored) : t.desk = s.desk := by
  have hd := congrArg State.desk h
  exact hd

theorem State.countsOnly.unstored (h : s.countsOnly t) : t.unstored = s.unstored := by
  have hu := congrArg State.unstored h.1
  exact hu

/-! ### PREFIX_INSERT -/

theorem State.freeWay_congr (h : t.kv.starter = s.kv.starter) (tag : Nat) : t.freeWay tag = s.freeWay tag := by
  simp only [State.freeWay, State.entry, h]

/-- The refusals of Table 5-7 do not depend on counters and caches. -/
theorem State.countsOnly.insertRefusal (h : s.countsOnly t) (d tag f : Nat) : t.insertRefusal d tag f = s.insertRefusal d tag f := by
  have hused : t.entriesOf d = s.entriesOf d := by rw [State.entriesOf, State.entriesOf, h.starter]
  unfold State.insertRefusal
  rw [State.page_congr h.frames, h.2, hused, State.freeWay_congr h.starter]

/-- A frame that is not refused exists: a page that is not there is neither SEALING nor SEALED nor POISONED. -/
theorem State.frame_of_insertRefusal {d tag f : Nat} (h : s.insertRefusal d tag f = none) : (s.frame f).isSome = true := by
  cases hf : s.frame f with
  | some x => rfl
  | none =>
    have hblank : s.page f = Page.blank := by rw [State.page, hf]; rfl
    rw [State.insertRefusal, hblank] at h
    cases h

variable {hdr : Hdr} {src : Source} {a : PrefixD} {f w : Nat} {v : State}

/-- An insert that nothing refuses (R132, Table 5-7). -/
theorem State.doInsert_spec (hpub : publicRefused src hdr.domain = false) (hwalk : e.walkFrame hdr.domain a.seq a.vpn = (v, .ok f))
    (href : e.insertRefusal hdr.domain (matchTag hdr.domain a.keyLo) f = none) (hw : e.freeWay (matchTag hdr.domain a.keyLo) = some w) :
    ∃ u : State, e.doInsert hdr src a = .done u { status := stOk } ∧
      u.entry (matchTag hdr.domain a.keyLo) w =
        some ⟨tagHi (matchTag hdr.domain a.keyLo), hdr.domain, (e.page f).shapeId, f, a.keyLo⟩ ∧
      u.page f = { e.page f with share := (e.page f).share + 1, fKeyed := true, keyHi := a.keyHi } ∧
      u.unstored = e.unstored := by
  have hcounts := State.walkFrame_countsOnly hwalk
  have hrefv := (hcounts.insertRefusal ..).trans href
  obtain ⟨hshared, hshare⟩ := State.page_updPage (State.frame_of_insertRefusal hrefv) (fun p => { p with share := p.share + 1 })
  obtain ⟨-, hkey⟩ := State.page_updPage hshared (fun p => { p with fKeyed := true, keyHi := a.keyHi })
  rw [hshare, State.page_congr hcounts.frames] at hkey
  rw [State.doInsert, hpub, hwalk]
  simp only [Bool.false_eq_true, if_false, hrefv]
  generalize hk : (v.raiseShare f).updPage f (fun p => { p with fKeyed := true, keyHi := a.keyHi }) = k
  have hkpage : k.page f = { e.page f with share := (e.page f).share + 1, fKeyed := true, keyHi := a.keyHi } := by
    rw [← hk]; exact hkey
  have hkstarter : k.kv.starter = e.kv.starter := by
    rw [← hk, State.raiseShare, State.updPage_starter, State.updPage_starter, hcounts.starter]
  rw [State.freeWay_congr hkstarter, hw, Option.map_some, hkpage]
  obtain ⟨hentry, hframes⟩ := k.updated_put (matchTag hdr.domain a.keyLo) w
    ⟨tagHi (matchTag hdr.domain a.keyLo), hdr.domain, (e.page f).shapeId, f, a.keyLo⟩ 0
  refine ⟨_, rfl, hentry, (State.page_congr hframes f).trans hkpage, ?_⟩
  rw [State.updated_unstored, ← hk, State.raiseShare, State.updPage_unstored, State.updPage_unstored, hcounts.unstored]

/-! ### PREFIX_REMOVE -/

/-- A remove of an entry whose frame has another share (R133). -/
theorem State.doRemove_spec (hpub : publicRefused src hdr.domain = false) (hwalk : e.walkFrame hdr.domain a.seq a.vpn = (v, .ok f))
    (hw : (List.range 8).find? (fun w => (e.entry (matchTag hdr.domain a.keyLo) w).any (fun y =>
      y.domain == hdr.domain && y.fp == a.keyLo && y.frame == f)) = some w) (hf : (e.frame f).isSome = true) (hs : 1 < (e.page f).share) :
    ∃ u : State, e.doRemove hdr src a = .done u { status := stOk } ∧ u.entry (matchTag hdr.domain a.keyLo) w = none ∧
      u.page f = { e.page f with share := (e.page f).share - 1, fKeyed := false, keyHi := 0 } ∧ u.unstored = e.unstored := by
  have hcounts := State.walkFrame_countsOnly hwalk
  obtain ⟨hentry, hframes⟩ := v.updated_del (matchTag hdr.domain a.keyLo) w
  have hframes := hframes.trans hcounts.frames
  have hpage := State.page_congr hframes f
  have hsome : ((v.updated (matchTag hdr.domain a.keyLo) none w).frame f).isSome = true := by
    rw [State.frame, hframes]
    exact hf
  obtain ⟨heq, hrel⟩ := State.releaseKey_of_shared hsome (by rw [hpage]; exact hs)
  rw [State.doRemove, hpub, hwalk]
  simp only [Bool.false_eq_true, if_false, State.entry, hcounts.starter] at hw ⊢
  rw [hw]
  refine ⟨_, rfl, ?_, by rw [hrel, hpage], ?_⟩
  · rw [heq, State.updPage_starter, State.updPage_starter]
    exact hentry
  · rw [heq, State.updPage_unstored, State.updPage_unstored, State.updated_unstored, hcounts.unstored]

/-! ### The commands -/

theorem exec_prefixInsert (q : Req) (a : PrefixD) (s : State) : exec (.prefixInsert q a) s = s.inService (·.command q (.prefixInsert a)) := rfl
theorem exec_prefixRemove (q : Req) (a : PrefixD) (s : State) : exec (.prefixRemove q a) s = s.inService (·.command q (.prefixRemove a)) := rfl

theorem State.runOp_prefixInsert {c : Cmd} (h : c.op = .prefixInsert a) (hunit : e.closedUnit c = none)
    (hrec : e.hasRecords c.hdr.domain (.prefixInsert a) = true) : e.runOp c none false = e.doInsert c.hdr c.src a := by
  unfold State.runOp
  rw [hunit]
  simp [h, State.any_recordLost hrec]

theorem State.runOp_prefixRemove {c : Cmd} (h : c.op = .prefixRemove a) (hunit : e.closedUnit c = none)
    (hrec : e.hasRecords c.hdr.domain (.prefixRemove a) = true) : e.runOp c none false = e.doRemove c.hdr c.src a := by
  unfold State.runOp
  rw [hunit]
  simp [h, State.any_recordLost hrec]

/-- An admitted command that an update of the starter table ends. -/
theorem State.inService_updated {op : Op} {r : Result} (h : s.admits q op = true)
    (hrun : (s.admitted q op).runOp (s.newCmd q op false) none false = .done t r) (ht : t.unstored = (s.admitted q op).unstored) :
    s.inService (·.command q op) = .next (t.finish (s.newCmd q op false) r) := by
  have hck := congrArg State.ckpt ht
  exact State.inService_ends_desk h hrun (State.desk_of_unstored ht) hck

end Sys2Proof.Machine
end

section

open Sys2Proof Sys2Proof.Machine

/-- Settles O45: an admitted command of the starter table runs in the state of its admission; a search answers what its probes find, and an
update leaves the entry and the page record that the lemma of its operation says. -/
theorem starterEntriesAreFoundAndKept : Obligations.StarterEntriesAreFoundAndKept := by
  unfold Obligations.StarterEntriesAreFoundAndKept
  refine ⟨?lookup, ?lookupPublic, ?lookupNothing, ?step, ?insert, ?remove⟩
  case lookup =>
    intro s e q a w x h he hcodes hv ho hf hx
    rw [← State.admitted_kv s q (.prefixLookup a), ← he] at hcodes
    rw [← State.firstMatch_zero] at hf
    obtain ⟨t, n, m, hsearch, ⟨hway, -, hmatch, hpub⟩, ht⟩ := State.search_finds (phase := 0) hcodes rfl hf hx
    exact ⟨t, n, m, State.prefixLookup_outcome h he hv ho hsearch ht, hway, hmatch, hpub, State.eq_of_unreported ht⟩
  case lookupPublic =>
    intro s e q a w x h he hcodes hv hflag ho hmiss hf hx
    rw [← State.admitted_kv s q (.prefixLookup a), ← he] at hcodes
    rw [← State.firstMatch_zero] at hmiss hf
    obtain ⟨t, n, m, hsearch, ⟨hway, hphase, hmatch, hpub⟩, ht⟩ := State.search_finds_public hcodes hflag hmiss hf hx
    exact ⟨t, n, m, State.prefixLookup_outcome h he hv ho hsearch ht, hway, hphase, hmatch, hpub, State.eq_of_unreported ht⟩
  case lookupNothing =>
    intro s e q a h he hcodes hv hflag ho hmiss
    rw [← State.admitted_kv s q (.prefixLookup a), ← he] at hcodes
    rw [← State.firstMatch_zero] at hmiss
    obtain ⟨t, last, hsearch, ht⟩ := State.search_misses hcodes hflag hmiss
    exact ⟨t, _, State.prefixLookup_outcome h he hv ho hsearch ht, cursorOf_last_lt 0 false last, State.eq_of_unreported ht⟩
  case step =>
    intro s e q a w d x h he hcodes hv hmore ho hd hf hx
    rw [← State.admitted_kv s q (.prefixStep a), ← he] at hcodes
    obtain ⟨t, n, m, hsearch, ⟨hway, -, hmatch, hpub⟩, ht⟩ := State.search_finds hcodes hd hf hx
    exact ⟨t, n, m, State.prefixStep_outcome h he hv ho hmore hsearch ht, hway, hmatch, hpub, State.eq_of_unreported ht⟩
  case insert =>
    intro s e v q a f w h he hrec hpub hwalk href hw
    subst he
    obtain ⟨u, hrun, hentry, hpage, hu⟩ := State.doInsert_spec hpub hwalk href hw
    refine ⟨u, ?_, hentry, hpage, State.eq_of_unstored hu⟩
    rw [exec_prefixInsert]
    exact State.inService_updated h ((State.runOp_prefixInsert rfl (State.closedUnit_admitted h) hrec).trans hrun) hu
  case remove =>
    intro s e v q a f w x h he hrec hpub hwalk hw hf hs
    subst he
    have hcur : (s.admitted q (.prefixRemove a)).page f = x.cur := by rw [State.page, hf]; rfl
    rw [← hcur] at hs ⊢
    obtain ⟨u, hrun, hentry, hpage, hu⟩ := State.doRemove_spec hpub hwalk hw (by rw [hf]; rfl) hs
    have hhost : u.host = (s.admitted q (.prefixRemove a)).host := by
      have hk := congrArg State.host hu
      exact hk
    refine ⟨u, ?_, hentry, hpage, ?_⟩
    · rw [exec_prefixRemove]
      exact State.inService_updated h ((State.runOp_prefixRemove rfl (State.closedUnit_admitted h) hrec).trans hrun) hu
    · rw [hhost]
      exact State.eq_of_unstored hu

end

section
/-!
SUPPORT. Registers past the page header under interrupts and error logs (R37, R38): neither moves any but the flit counters of the host
links' pages.
-/

namespace Sys2Proof.Machine

variable {p o : Nat}

theorem State.reg_congr {s t : State} (h : t.rf = s.rf) (p o : Nat) : t.reg p o = s.reg p o := by simp only [State.reg, State.regI, h]

/-- A counter after a count. -/
theorem State.reg_bump (s : State) (pg off n : Nat) : (s.bump pg off n).reg pg off = satAdd32 (s.reg pg off) n := State.reg_setReg ..

/-- A register of the header is no register past it. -/
theorem State.reg_setReg_header (s : State) {pg off : Nat} (hoff : off < 0x100) (ho : 0x100 ≤ o) (w : Word) :
    (s.setReg pg off w).reg p o = s.reg p o :=
  State.regI_setReg_other (by omega) (.inr (by omega)) 0 w

section
variable (hp : ∀ l, p ≠ pgHlnk l)
include hp

theorem State.emitFlit_reg (s : State) (l : Link) (b : FlitBody) : (s.emitFlit l b).reg p o = s.reg p o := by
  have hlink (r : LinkRec) : (s.setLink l r).reg p o = s.reg p o := State.reg_congr (State.setLink_rf ..) p o
  unfold State.emitFlit
  dsimp only
  split
  · rw [State.bump64, State.reg, State.regI_setReg_other (by decide) (.inl (hp l)), State.regI_setReg_other (by decide) (.inl (hp l))]
    exact hlink _
  · exact hlink _

theorem State.drainWaiting_reg (s : State) (l : Link) (n : Nat) : (s.drainWaiting l n).reg p o = s.reg p o := by
  induction n generalizing s with
  | zero => rfl
  | succ n ih =>
    unfold State.drainWaiting
    dsimp only
    split
    · rfl
    · split
      · rw [ih, State.emitFlit_reg hp]
        exact State.reg_congr (State.setLink_rf ..) p o
      · rfl

theorem State.raiseIrq_reg (s : State) (pg : Nat) : (s.raiseIrq pg).reg p o = s.reg p o := by
  have hsend (s : State) (x : HostTxn) : (s.hostSend x).reg p o = s.reg p o := by
    unfold State.hostSend
    split
    · rfl
    · rw [State.drainWaiting_reg hp]
      exact State.reg_congr (State.setLink_rf ..) p o
  unfold State.raiseIrq
  dsimp only
  split
  · split
    · exact hsend ..
    · rfl
  · split
    · exact hsend ..
    · rfl

theorem State.setIrq_reg (ho : 0x100 ≤ o) (s : State) (pg bits : Nat) : (s.setIrq pg bits).reg p o = s.reg p o := by
  unfold State.setIrq
  dsimp only
  split
  · rw [State.raiseIrq_reg hp, State.reg_setReg_header s (by decide) ho]
  · rw [State.reg_setReg_header s (by decide) ho]

theorem State.logErr_reg (ho : 0x100 ≤ o) (s : State) (pg code unit detail : Nat) : (s.logErr pg code unit detail).reg p o = s.reg p o := by
  have hset (s : State) {off : Nat} (hoff : off < 0x100) (w : Word) : (s.setReg pg off w).reg p o = s.reg p o :=
    State.reg_setReg_header s hoff ho w
  unfold State.logErr State.setFld State.bump
  dsimp only
  split
  · rw [hset _ (by decide), hset _ (by decide)]
  · rw [State.setIrq_reg hp ho, hset _ (by decide), hset _ (by decide), hset _ (by decide), hset _ (by decide), hset _ (by decide)]

end

end Sys2Proof.Machine
end

section
/-!
SUPPORT. Merging (R177 to R183, R502): the answer to a partial, what a home merge unit decides on it, and what stays as it is while a
closed context is forwarded.
-/

namespace Sys2Proof.Machine

variable {s t u : State}

/-! ### The answer to a partial (R502, Table 13-8) -/

/-- The PARTIAL_STATUS message for request `id`. -/
def partialAnswer (id : Nat) (r : PartialRec) (status hint time : Nat) : List Byte :=
  respHeader id 2 32 true ++ recordBytes ⟨r.tag, status, 0, 0, hint, 0, 0, 0, 0⟩ false time

/-- A connection on which a message waits behind those that waited there. -/
def queuedOn (c : Conn) (lane : Lane) (epoch : Word) (bytes : List Byte) (time : Nat) : Conn :=
  { c with
    nextMsg := AL.put lane ((AL.getD lane 0 c.nextMsg + 1) % 2 ^ 24) c.nextMsg
    genMsg := AL.put lane (AL.getD lane 0 c.genMsg + 1) c.genMsg
    msgs := c.msgs ++ [⟨lane, AL.getD lane 0 c.nextMsg, epoch, bytes, 0, [], 0, time⟩] }

theorem State.conn_sendMsg {cn : Nat} {k : Conn} (hcn : ¬ 2 ^ 24 ≤ cn) (hi : k.index = cn % 2 ^ 18) (s : State) (lane : Lane) (epoch : Word)
    (bytes : List Byte) : (s.sendMsg k lane epoch bytes).conn cn = some (queuedOn k lane epoch bytes s.nrt) :=
  State.conn_setConn (c := queuedOn k lane epoch bytes s.nrt) hcn hi s

theorem State.answerPartial_queues {cn : Nat} {k : Conn} (hf : s.nodeFenced = false) (hc : s.conn cn = some k) (id : Nat) (r : PartialRec)
    (status hint : Nat) : ∃ k' m, (s.answerPartial cn id r status hint).conn cn = some k' ∧ k'.msgs = k.msgs ++ [m] ∧ m.lane = .response ∧
      m.bytes = partialAnswer id r status hint s.nrt := by
  obtain ⟨hcn, hi⟩ := State.conn_index hc
  have hsend : s.answerPartial cn id r status hint = s.sendMsg k .response r.epoch (partialAnswer id r status hint s.nrt) := by
    rw [State.answerPartial, hf, hc]
    rfl
  exact ⟨_, _, by rw [hsend, State.conn_sendMsg hcn hi], rfl, rfl, rfl⟩

theorem State.answerPartial_net (s : State) (cn id : Nat) (r : PartialRec) (status hint : Nat) :
    s.answerPartial cn id r status hint = { s with net := (s.answerPartial cn id r status hint).net } :=
  State.eq_of_groups (by simp)

/-! ### Pages of merge units -/

theorem pgMrgu_ne_pgHlnk (n : Nat) (l : Link) : pgMrgu n ≠ pgHlnk l := by
  cases l <;> simp only [pgMrgu, pgTile, pgHlnk] <;> omega

/-- A refused partial is counted in MISMATCH (R181). -/
theorem State.mismatch_counts (s : State) (n unit : Nat) (r : PartialRec) :
    (s.mismatch (pgMrgu n) unit r).reg (pgMrgu n) 0x128 = satAdd32 (s.reg (pgMrgu n) 0x128) 1 := by
  rw [State.mismatch, State.logErr_reg (pgMrgu_ne_pgHlnk n) (by decide), State.setIrq_reg (pgMrgu_ne_pgHlnk n) (by decide), State.reg_bump]

/-! ### What the home merge unit decides (R180, R181, R183) -/

@[simp] theorem State.mctx_putMctx (s : State) (k : MergeKey) (c : MergeCtx) : (s.putMctx k c).mctx k = some c := AL.get_put ..

theorem State.mctx_putMctx_ne {j k : MergeKey} (h : j ≠ k) (s : State) (c : MergeCtx) : (s.putMctx k c).mctx j = s.mctx j :=
  AL.get_put_ne h ..

theorem State.mctx_congr (h : t.eng.merge = s.eng.merge) (k : MergeKey) : t.mctx k = s.mctx k := by rw [State.mctx, State.mctx, h]

/-- The context that the first partial of a query opens (R178 to R180). -/
def State.opensFor (s : State) (r : PartialRec) (ns : List Nat) : MergeCtx :=
  let c := newMctx .opened ns r.rows r.dv r.sum s.nrt 0
  { c with deadline := s.nrt + usTicks (s.holdUs (ctxPage c)) }

theorem State.takePartial_opens {r : PartialRec} {ns : List Nat} (hc : s.mctx r.key = none) (hform : r.formBad = false)
    (hfree : s.freeContexts (contextsFor r.rows r.dv) = some ns) :
    s.takePartial r = ⟨s.putMctx r.key (mergeInto (s.opensFor r ns) r), stOk, 0, none⟩ := by
  simp only [State.takePartial, hc, hform, hfree]
  rfl

theorem State.takePartial_malformed {r : PartialRec} (hc : s.mctx r.key = none) (hform : r.formBad = true) :
    s.takePartial r = ⟨s.mismatch s.firstMrgu 0xFFFF r, stBadDescriptor, 0, none⟩ := by
  simp only [State.takePartial, hc, hform, if_true]

theorem State.takePartial_late {r : PartialRec} {c : MergeCtx} (hc : s.mctx r.key = some c) (hform : r.formBad = false) (hst : c.st = .closed) :
    s.takePartial r = ⟨s.bump (ctxPage c) 0x120 1, stTimeout, 0, none⟩ := by
  simp [State.takePartial, hc, hform, hst]

theorem State.takePartial_merges {r : PartialRec} {c : MergeCtx} (hc : s.mctx r.key = some c) (hform : r.formBad = false) (hst : c.st ≠ .closed)
    (hexp : c.expect = none ∨ c.expect = some r.expect) (hnew : r.contrib ∉ c.arrived) (hrows : r.rows = c.rows) (hdv : r.dv = c.dv)
    (hsum : r.sum = c.sum) :
    s.takePartial r = ⟨s.putMctx r.key (mergeInto c r), stOk, 0, if (mergeInto c r).isComplete then some r.key else none⟩ := by
  obtain hexp | hexp := hexp <;> simp [State.takePartial, hc, hform, hst, hexp, hnew, hrows, hdv, hsum]

/-- All that a merge unit can do with a partial: no context changes and none is complete, or the partial's own context, which is not
closed, takes it. -/
theorem State.takePartial_cases (s : State) (r : PartialRec) :
    ((s.takePartial r).s.eng = s.eng ∧ (s.takePartial r).full = none) ∨
    ((∀ x, s.mctx r.key = some x → x.st ≠ .closed) ∧ ∃ c, (s.takePartial r).s = s.putMctx r.key c ∧
      c.st ≠ .closed ∧ ∀ k, (s.takePartial r).full = some k → k = r.key) := by
  cases hc : s.mctx r.key with
  | none =>
    simp only [State.takePartial, hc]
    split
    · exact .inl ⟨by simp, rfl⟩
    · split
      · exact .inl ⟨by simp, rfl⟩
      · exact .inr ⟨nofun, _, rfl, nofun, nofun⟩
  | some c =>
    simp only [State.takePartial, hc]
    split_ifs with hform hst hbad hfull
    · exact .inl ⟨by simp, rfl⟩
    · exact .inl ⟨by simp, rfl⟩
    · exact .inl ⟨by simp, rfl⟩
    · exact .inr ⟨by simpa using hst, _, rfl, hst, by simp⟩
    · exact .inr ⟨by simpa using hst, _, rfl, hst, nofun⟩

@[simp] theorem State.takePartial_frame (s : State) (r : PartialRec) :
    (s.takePartial r).s.pending = s.pending ∧ (s.takePartial r).s.nrt = s.nrt := by
  unfold State.takePartial
  dsimp only
  repeat' split
  all_goals simp

/-! ### Closed contexts stay as they are -/

/-- `t` has the queue and the time of `s`, and every context that is closed in `s`. -/
structure State.ClosedKept (s t : State) : Prop where
  pending : t.pending = s.pending
  nrt : t.nrt = s.nrt
  closed : ∀ k x, s.mctx k = some x → x.st = .closed → t.mctx k = some x

theorem State.ClosedKept.trans (h : s.ClosedKept t) (hu : t.ClosedKept u) : s.ClosedKept u :=
  ⟨hu.pending.trans h.pending, hu.nrt.trans h.nrt, fun k x hk hx => hu.closed k x (h.closed k x hk hx) hx⟩

theorem State.ClosedKept.of_merge (hp : t.pending = s.pending) (hn : t.nrt = s.nrt) (hm : t.eng.merge = s.eng.merge) : s.ClosedKept t :=
  ⟨hp, hn, fun k _ hk _ => (State.mctx_congr hm k).trans hk⟩

theorem State.ClosedKept.refl (s : State) : s.ClosedKept s := .of_merge rfl rfl rfl

/-- The context of `k`, if there is one, is not closed. -/
def State.live (s : State) (k : MergeKey) : Prop := ∀ x, s.mctx k = some x → x.st ≠ .closed

theorem State.live_putMctx {k : MergeKey} {c : MergeCtx} (hc : c.st ≠ .closed) (s : State) : (s.putMctx k c).live k := by
  intro x hx
  rw [State.mctx_putMctx, Option.some_inj] at hx
  exact hx ▸ hc

theorem State.live_congr {k : MergeKey} (h : t.eng.merge = s.eng.merge) (hs : s.live k) : t.live k := fun x hx =>
  hs x ((State.mctx_congr h k).symm.trans hx)

theorem State.putMctx_closedKept {k : MergeKey} (h : s.live k) (c : MergeCtx) : s.ClosedKept (s.putMctx k c) := by
  refine ⟨rfl, rfl, fun j x hj hx => ?_⟩
  have hjk : j ≠ k := fun e => h x (e ▸ hj) hx
  rw [State.mctx_putMctx_ne hjk, hj]

theorem State.takePartial_closedKept (s : State) (r : PartialRec) :
    s.ClosedKept (s.takePartial r).s ∧ ∀ k, (s.takePartial r).full = some k → (s.takePartial r).s.live k := by
  obtain ⟨hp, hn⟩ := s.takePartial_frame r
  obtain ⟨heng, hfull⟩ | ⟨hlive, c, hs, hc, hfull⟩ := s.takePartial_cases r
  · exact ⟨.of_merge hp hn (by rw [heng]), by simp [hfull]⟩
  · rw [hs]
    refine ⟨State.putMctx_closedKept hlive c, fun k hk => ?_⟩
    rw [hfull k hk]
    exact State.live_putMctx hc s

/-! ### Ends of commands and of jobs leave the contexts -/

@[simp] theorem State.putJob_merge (s : State) (j : AttnJob) : (s.putJob j).eng.merge = s.eng.merge := rfl

@[simp] theorem State.dropJob_merge (s : State) (i : Nat) : (s.dropJob i).eng.merge = s.eng.merge := by
  unfold State.dropJob
  split
  · rfl
  · split <;> rfl

@[simp] theorem State.endAttn_merge (s : State) (c : Cmd) (j : AttnJob) (status : Nat) : (s.endAttn c j status).eng.merge = s.eng.merge := by
  simp [State.endAttn]

@[simp] theorem State.decided_merge (s : State) (cmd status hint : Nat) : (s.decided cmd status hint).eng.merge = s.eng.merge := by
  unfold State.decided
  split
  · split
    · rfl
    · split_ifs <;> simp
  · rfl

/-! ### A partial leaves (R155, R183, R502) -/

theorem State.sendPartial_closedKept (s : State) (c : Cmd) (d : AttnD) (j : AttnJob) (r : PartialRec) : s.ClosedKept (s.sendPartial c d j r) := by
  unfold State.sendPartial
  split
  · exact .of_merge (by simp) (by simp) (by simp)
  · exact .of_merge (by simp) (by simp) (by simp)

theorem State.decided_closedKept (hv : s.ClosedKept u) (r : PartialRec) (cmd status hint : Nat) :
    s.ClosedKept ((u.takePartial r).s.decided cmd status hint) ∧
      ∀ k, (u.takePartial r).full = some k → ((u.takePartial r).s.decided cmd status hint).live k := by
  obtain ⟨hkept, hlive⟩ := u.takePartial_closedKept r
  have hend : (u.takePartial r).s.ClosedKept ((u.takePartial r).s.decided cmd status hint) :=
    .of_merge (by simp) (by simp) (State.decided_merge ..)
  exact ⟨hv.trans (hkept.trans hend), fun k hk => State.live_congr (State.decided_merge ..) (hlive k hk)⟩

theorem State.emitPartial_closedKept (s : State) (c : Cmd) (d : AttnD) (j : AttnJob) (r : PartialRec) :
    s.ClosedKept (s.emitPartial c d j r).1 ∧ ∀ k, (s.emitPartial c d j r).2 = some k → (s.emitPartial c d j r).1.live k := by
  unfold State.emitPartial
  split
  · exact ⟨.of_merge (by simp) (by simp) (by simp), nofun⟩
  · split
    · dsimp only
      exact State.decided_closedKept (.of_merge (by rfl) (by rfl) (by rfl)) r c.id _ _
    · exact ⟨s.sendPartial_closedKept c d j r, nofun⟩

/-! ### Forwarding (R182, Table 7-4) -/

/-- A context that closes now. -/
def State.closing (s : State) (c : MergeCtx) : MergeCtx :=
  { c with st := .closed, closedAt := s.nrt, linger := s.lingerUs (ctxPage c) }

/-- All that forwarding does with a context: it closes it, and where the context has an anchor it counts the result and sends it on, which
can complete a context one level up. -/
theorem State.forwardCtx_cases {k : MergeKey} {c : MergeCtx} (hc : s.mctx k = some c) (n : Nat) :
    State.forwardCtx (n + 1) s k = s.putMctx k (s.closing c) ∨
    ∃ (off : Nat) (a : Cmd) (d : AttnD) (j : AttnJob) (r : PartialRec) (out : State × Option MergeKey),
      out = ((s.putMctx k (s.closing c)).bump (ctxPage c) off 1).emitPartial a d j r ∧
      ((out.2 = none ∧ State.forwardCtx (n + 1) s k = out.1) ∨
        ∃ k', out.2 = some k' ∧ State.forwardCtx (n + 1) s k = State.forwardCtx n out.1 k') := by
  simp only [State.forwardCtx, hc]
  split
  next a j _ _ =>
    split
    next => exact .inl rfl
    next d _ =>
      split
      next k' hk => exact .inr ⟨_, a, d, _, _, _, rfl, .inr ⟨k', hk, rfl⟩⟩
      next hk => exact .inr ⟨_, a, d, _, _, _, rfl, .inl ⟨hk, rfl⟩⟩
  next => exact .inl rfl

/-- A context that is forwarded closes, and stays so while its result travels up the tree, as long as forwarding from a level above keeps
what is closed. -/
theorem State.forwardCtx_closes_of {n : Nat} (hup : ∀ (s : State) k, s.live k → s.ClosedKept (State.forwardCtx n s k)) {k : MergeKey}
    {c : MergeCtx} (hc : s.mctx k = some c) : (s.putMctx k (s.closing c)).ClosedKept (State.forwardCtx (n + 1) s k) := by
  obtain h | ⟨off, a, d, j, r, out, hout, h⟩ := State.forwardCtx_cases hc n
  · exact h ▸ .refl _
  · obtain ⟨hkept, hlive⟩ := ((s.putMctx k (s.closing c)).bump (ctxPage c) off 1).emitPartial_closedKept a d j r
    rw [← hout] at hkept hlive
    have hcount : (s.putMctx k (s.closing c)).ClosedKept ((s.putMctx k (s.closing c)).bump (ctxPage c) off 1) := .of_merge rfl rfl rfl
    have hsent := hcount.trans hkept
    obtain ⟨-, h⟩ | ⟨k', hk', h⟩ := h
    · exact h ▸ hsent
    · exact h ▸ hsent.trans (hup _ k' (hlive k' hk'))

theorem State.forwardCtx_closedKept {n : Nat} {k : MergeKey} (h : s.live k) : s.ClosedKept (State.forwardCtx n s k) := by
  induction n generalizing s k with
  | zero => exact .refl s
  | succ n ih =>
    cases hc : s.mctx k with
    | none =>
      have hnone : State.forwardCtx (n + 1) s k = s := by simp only [State.forwardCtx, hc]
      rw [hnone]
      exact .refl s
    | some c => exact (State.putMctx_closedKept h _).trans (State.forwardCtx_closes_of (fun _ _ => ih) hc)

theorem State.forwardCtx_closes {n : Nat} {k : MergeKey} {c : MergeCtx} (hc : s.mctx k = some c) :
    (s.putMctx k (s.closing c)).ClosedKept (State.forwardCtx (n + 1) s k) :=
  State.forwardCtx_closes_of (fun _ _ => State.forwardCtx_closedKept) hc

/-! ### The commands -/

theorem exec_partialReceive (cn id : Nat) (r : PartialRec) (s : State) :
    exec (.partialReceive cn id r) s = s.inService (·.partialIn cn id r) := rfl
theorem exec_mergeDeadline (k : MergeKey) (s : State) : exec (.mergeDeadline k) s = s.inService (·.mergeDeadline k) := rfl
theorem exec_lingerExpire (k : MergeKey) (s : State) : exec (.lingerExpire k) s = s.inService (·.lingerExpire k) := rfl
theorem exec_partialStatusReceive (cn id status hint : Nat) (s : State) :
    exec (.partialStatusReceive cn id status hint) s = s.inService (·.partialStatus cn id status hint) := rfl
theorem exec_partialResend (i : Nat) (s : State) : exec (.partialResend i) s = s.inService (·.partialAgain i) := rfl

/-! ### PARTIAL_RECEIVE -/

/-- A partial that the home merge unit has decided on, with no context complete: what is left is the answer. -/
theorem State.partialReceive_answers {cn id status hint : Nat} {r : PartialRec} {k : Conn} (hrun : s.running = true)
    (ht : s.takePartial r = ⟨u, status, hint, none⟩) (hf : u.nodeFenced = false) (hc : u.conn cn = some k) (hp : u.pending = s.pending)
    (hn : u.nrt = s.nrt) : ∃ t k' m, exec (.partialReceive cn id r) s = .next t ∧ t = { u with net := t.net } ∧ t.conn cn = some k' ∧
      k'.msgs = k.msgs ++ [m] ∧ m.lane = .response ∧ m.bytes = partialAnswer id r status hint s.nrt := by
  obtain ⟨k', m, hk', hmsgs, hlane, hbytes⟩ := State.answerPartial_queues hf hc id r status hint
  have hin : s.partialIn cn id r = u.answerPartial cn id r status hint := by rw [State.partialIn, ht]
  refine ⟨_, k', m, ?_, State.answerPartial_net .., hk', hmsgs, hlane, by rw [hbytes, hn]⟩
  rw [exec_partialReceive]
  exact State.inService_keeps hrun hin (by simp [hp]) (by simp [hn])

/-- The same for a partial that completes its context: the context is forwarded after the answer. -/
theorem State.partialReceive_forwards {cn id status hint : Nat} {r : PartialRec} {k : Conn} (hrun : s.running = true)
    (ht : s.takePartial r = ⟨u, status, hint, some r.key⟩) (hf : u.nodeFenced = false) (hc : u.conn cn = some k) (hp : u.pending = s.pending)
    (hn : u.nrt = s.nrt) : ∃ (t : State) (k' : Conn) (m : OutMsg), exec (.partialReceive cn id r) s = .next (t.forwardCtx levels r.key) ∧
      t = { u with net := t.net } ∧ t.conn cn = some k' ∧
      k'.msgs = k.msgs ++ [m] ∧ m.lane = .response ∧ m.bytes = partialAnswer id r status hint s.nrt := by
  obtain ⟨k', m, hk', hmsgs, hlane, hbytes⟩ := State.answerPartial_queues hf hc id r status hint
  have hin : s.partialIn cn id r = State.forwardCtx levels (u.answerPartial cn id r status hint) r.key := by rw [State.partialIn, ht]
  have hlive : (u.answerPartial cn id r status hint).live r.key := by
    have h := (s.takePartial_closedKept r).2 r.key (by rw [ht])
    rw [ht] at h
    exact State.live_congr (by simp) h
  obtain ⟨hpend, hnrt, -⟩ := State.forwardCtx_closedKept (n := levels) hlive
  refine ⟨_, k', m, ?_, State.answerPartial_net .., hk', hmsgs, hlane, by rw [hbytes, hn]⟩
  rw [exec_partialReceive]
  exact State.inService_keeps hrun hin (by simp [hpend, hp]) (by simp [hnrt, hn])

/-! ### MERGE_DEADLINE and LINGER_EXPIRE (Table 7-4) -/

/-- The node without a context. -/
def State.freeMctx (s : State) (k : MergeKey) : State := s.setEng { s.eng with merge := AL.del k s.eng.merge }

theorem State.mergeDeadline_opened {k : MergeKey} {c : MergeCtx} (hc : s.mctx k = some c) (hdue : c.deadline ≤ s.nrt) (hst : c.st = .opened) :
    s.mergeDeadline k = ((s.freeMctx k).bump (ctxPage c) 0x11C 1).setIrq (ctxPage c) 2 := by
  simp only [State.mergeDeadline, hc, if_neg (Nat.not_lt.mpr hdue), hst]
  rfl

theorem State.mergeDeadline_anchored {k : MergeKey} {c : MergeCtx} (hc : s.mctx k = some c) (hdue : c.deadline ≤ s.nrt)
    (hst : c.st = .anchored) : s.mergeDeadline k = s.forwardCtx levels k := by
  simp only [State.mergeDeadline, hc, if_neg (Nat.not_lt.mpr hdue), hst]

/-- An OPEN context at its deadline is gone, and counted in its merge unit's page. -/
theorem State.freeMctx_counted (s : State) (k : MergeKey) (c : MergeCtx) :
    (((s.freeMctx k).bump (ctxPage c) 0x11C 1).setIrq (ctxPage c) 2).reg (ctxPage c) 0x11C = satAdd32 (s.reg (ctxPage c) 0x11C) 1 := by
  rw [ctxPage, State.setIrq_reg (pgMrgu_ne_pgHlnk _) (by decide), State.reg_bump]
  rfl

theorem State.lingerExpire_due {k : MergeKey} {c : MergeCtx} (hc : s.mctx k = some c) (hst : c.st = .closed)
    (hdue : c.closedAt + usTicks c.linger ≤ s.nrt) : s.lingerExpire k = s.freeMctx k := by
  simp only [State.lingerExpire, hc]
  exact if_pos ⟨hst, hdue⟩

/-! ### PARTIAL_STATUS_RECEIVE and PARTIAL_RESEND (R183, R502) -/

theorem State.decided_of {i : Nat} {c : Cmd} {j : AttnJob} {r : PartialRec} (hc : s.cmd i = some c) (hj : s.job i = some j)
    (hr : j.record = some r) (status hint : Nat) : s.decided i status hint =
      if status = stOk then s.endAttn c j r.status
      else if status = stBusy then s.putJob { j with resendAt := s.nrt + usTicks hint }
      else s.endAttn c j status := by
  simp only [State.decided, hc, hj, hr]

theorem State.partialAgain_expires {i : Nat} {c : Cmd} {d : AttnD} {j : AttnJob} {r : PartialRec} (hc : s.cmd i = some c)
    (hj : s.job i = some j) (hd : attnOf c.op = some d) (hr : j.record = some r) (hdue : j.firstSend + usTicks d.deadlineUs ≤ s.nrt) :
    s.partialAgain i = s.endAttn c j stTimeout := by
  simp only [State.partialAgain, hc, hj, hd, hr, if_pos hdue]

/-- The job of a command whose partial has gone again to connection `k`. -/
def resentJob (j : AttnJob) (r : PartialRec) (k : Conn) : AttnJob :=
  { j with record := some r, resendAt := 0, sentOn := k.index, sentMsg := AL.getD .response 0 k.nextMsg }

theorem State.partialAgain_resends {i : Nat} {c : Cmd} {d : AttnD} {j : AttnJob} {r : PartialRec} {k : Conn} (hc : s.cmd i = some c)
    (hj : s.job i = some j) (hd : attnOf c.op = some d) (hr : j.record = some r) (hearly : s.nrt < j.firstSend + usTicks d.deadlineUs)
    (hwaits : j.resendAt ≠ 0) (hdue : j.resendAt ≤ s.nrt) (hring : d.mergeConn ≠ 0xFFFFFF) (hhere : d.mergeConn ≠ 0xFFFFFE)
    (hk : s.connOf d.mergeConn = some k) :
    s.partialAgain i = ((s.putJob (resentJob j r k)).setCmd { c with wait := .sent }).sendMsg k .response r.epoch (partialMsg r) := by
  simp only [State.partialAgain, hc, hj, hd, hr, Nat.not_le.mpr hearly, hwaits, Nat.not_lt.mpr hdue, State.emitPartial, hring, hhere,
    State.sendPartial, hk, resentJob]
  simp

theorem State.connOf_index {id : Nat} {k : Conn} (h : s.connOf id = some k) : k.index < 2 ^ 18 := by
  unfold State.connOf at h
  split at h
  · cases h
  next c hc =>
    split at h
    · cases h
      rw [(State.conn_index hc).2]
      exact Nat.mod_lt _ (by decide)
    · cases h

end Sys2Proof.Machine
end

section

open Sys2Proof Sys2Proof.Machine

/-- Settles O41, event by event: what the home merge unit decides on a partial is a lemma of `takePartial`, the answer is the message that
`answerPartial` queues, and forwarding closes the context that it is given and keeps it closed. -/
theorem partialsMergeInContexts : Obligations.PartialsMergeInContexts := by
  unfold Obligations.PartialsMergeInContexts
  refine ⟨?opens, ?merges, ?completes, ?late, ?malformed, ?freed, ?closes, ?lingers, ?decided, ?expires, ?resends⟩
  case opens =>
    intro s cn id r ns k hrun hc hform hfree hf hk
    obtain ⟨t, k', m, hexec, ht, hk', hmsgs, hlane, hbytes⟩ :=
      State.partialReceive_answers (id := id) hrun (State.takePartial_opens hc hform hfree) hf hk rfl rfl
    refine ⟨t, mergeInto (s.opensFor r ns) r, k', m, hexec, ?_, rfl, rfl, rfl, rfl, rfl, ?_, hk', hmsgs, hlane, hbytes, ?_⟩
    · rw [ht]
      exact State.mctx_putMctx ..
    · rw [Nat.mul_comm 100, Nat.mul_comm 100]
      rfl
    · rw [ht]
      rfl
  case merges =>
    intro s cn id r c k hrun hc hform hst hexp hnew hrows hdv hsum hpart hf hk
    have htake := State.takePartial_merges hc hform hst hexp hnew hrows hdv hsum
    rw [hpart] at htake
    obtain ⟨t, k', m, hexec, ht, hk', hmsgs, -, hbytes⟩ := State.partialReceive_answers (id := id) hrun htake hf hk rfl rfl
    refine ⟨t, k', m, hexec, ?_, hk', hmsgs, hbytes, ?_⟩
    · rw [ht]
      exact State.mctx_putMctx ..
    · rw [ht]
      rfl
  case completes =>
    intro s cn id r c k hrun hc hform hst hexp hnew hrows hdv hsum hfull hf hk
    have htake := State.takePartial_merges hc hform (by rw [hst]; decide) hexp hnew hrows hdv hsum
    rw [hfull] at htake
    obtain ⟨u, k', m, hexec, hu, hk', hmsgs, -, hbytes⟩ := State.partialReceive_forwards (id := id) hrun htake hf hk rfl rfl
    refine ⟨u, k', m, hexec, ?_, hk', hmsgs, hbytes, ?_⟩
    · rw [hu]
      exact State.mctx_putMctx ..
    · rw [hu]
      rfl
  case late =>
    intro s cn id r c k hrun hc hform hst hf hk
    obtain ⟨t, k', m, hexec, ht, hk', hmsgs, -, hbytes⟩ :=
      State.partialReceive_answers (id := id) hrun (State.takePartial_late hc hform hst) hf hk rfl rfl
    refine ⟨t, k', m, hexec, ?_, hk', hmsgs, hbytes, ?_⟩
    · rw [ht]
      exact State.reg_bump ..
    · rw [ht]
      rfl
  case malformed =>
    intro s cn id r k hrun hc hform hf hk
    have hsame : s.mismatch s.firstMrgu 0xFFFF r =
        { s with rf := (s.mismatch s.firstMrgu 0xFFFF r).rf, host := (s.mismatch s.firstMrgu 0xFFFF r).host } := State.eq_of_groups (by simp)
    obtain ⟨t, k', m, hexec, ht, hk', hmsgs, -, hbytes⟩ :=
      State.partialReceive_answers (id := id) (k := k) hrun (State.takePartial_malformed hc hform) (by rw [hsame]; exact hf)
        (by rw [hsame]; exact hk) (by simp) (by simp)
    refine ⟨t, k', m, hexec, ?_, hk', hmsgs, hbytes, ?_⟩
    · rw [ht]
      exact State.mismatch_counts ..
    · refine State.eq_of_groups ?_
      rw [ht]
      simp
  case freed =>
    intro s k c hrun hc hdue hst
    refine ⟨((s.freeMctx k).bump (ctxPage c) 0x11C 1).setIrq (ctxPage c) 2, ?_, ?_, s.freeMctx_counted k c, State.eq_of_groups ?_⟩
    · rw [exec_mergeDeadline]
      exact State.inService_keeps hrun (State.mergeDeadline_opened hc hdue hst) (by simp [State.freeMctx]) (by simp [State.freeMctx])
    · simp [State.freeMctx]
    · simp [State.freeMctx]
  case closes =>
    intro s k c hrun hc hdue hst
    obtain ⟨hp, hn, hkeep⟩ := State.forwardCtx_closes (n := 3) hc
    refine ⟨s.forwardCtx levels k, s.closing c, ?_, rfl, hkeep k _ (State.mctx_putMctx ..) rfl, rfl, rfl, rfl⟩
    rw [exec_mergeDeadline]
    exact State.inService_keeps hrun (State.mergeDeadline_anchored hc hdue hst) hp hn
  case lingers =>
    intro s k c hrun hc hst hdue
    rw [Nat.mul_comm] at hdue
    rw [exec_lingerExpire]
    exact State.inService_keeps hrun (State.lingerExpire_due hc hst hdue) rfl rfl
  case decided =>
    intro s cn id st n i c j r hrun hfind hj hc hr
    have hdec : s.partialStatus cn id st n = s.decided i st n := by simp only [State.partialStatus, hfind]
    rw [exec_partialStatusReceive, Nat.mul_comm 100]
    exact State.inService_keeps hrun (hdec.trans (State.decided_of hc hj hr st n)) (by split_ifs <;> simp) (by split_ifs <;> simp)
  case expires =>
    intro s i c d j r hrun hc hj hd hr hdue
    rw [Nat.mul_comm] at hdue
    rw [exec_partialResend]
    exact State.inService_keeps hrun (State.partialAgain_expires hc hj hd hr hdue) (by simp) (by simp)
  case resends =>
    intro s i c d j r k hrun hc hj hi hd hr hearly hwaits hdue hring hhere hk
    rw [Nat.mul_comm] at hearly
    have hidx := State.connOf_index hk
    obtain ⟨u, hu⟩ : ∃ u : State, u = (s.putJob (resentJob j r k)).setCmd { c with wait := .sent } := ⟨_, rfl⟩
    have hqueued := State.conn_sendMsg (by omega) (Nat.mod_eq_of_lt hidx).symm u .response r.epoch (partialMsg r)
    refine ⟨_, _, _, resentJob j r k, ?_, hqueued, rfl, rfl, rfl, ?_, rfl, rfl, rfl, rfl, ?_⟩
    · rw [exec_partialResend]
      refine State.inService_keeps hrun (t := u.sendMsg k .response r.epoch (partialMsg r)) ?_ (by simp [hu]) (by simp [hu])
      rw [State.partialAgain_resends hc hj hd hr hearly hwaits hdue hring hhere hk, hu]
    · rw [State.job, hu, ← hi]
      exact AL.get_put ..
    · rw [hu]
      rfl

end

section
/-!
SUPPORT. Bytes of memory in codewords: a part of a range that is read, ranges side by side, and memory in which whole codewords have been
written one after another.
-/

namespace Sys2Proof

theorem Mem.drop_readN (j a n : Nat) (m : Mem) : (m.readN a n).drop j = m.readN (a + j) (n - j) := by
  induction j generalizing a n with
  | zero => rfl
  | succ j ih =>
    cases n with
    | zero => simp [Mem.readN]
    | succ n => rw [Mem.readN, List.drop_succ_cons, ih, Nat.add_right_comm, Nat.add_assoc, Nat.add_sub_add_right]

theorem Mem.take_readN {j n : Nat} (h : j ≤ n) (a : Nat) (m : Mem) : (m.readN a n).take j = m.readN a j := by
  induction j generalizing a n with
  | zero => rfl
  | succ j ih =>
    cases n with
    | zero => omega
    | succ n => rw [Mem.readN, List.take_succ_cons, ih (by omega), Mem.readN]

theorem Mem.readN_add (a i j : Nat) (m : Mem) : m.readN a (i + j) = m.readN a i ++ m.readN (a + i) j := by
  induction i generalizing a with
  | zero => simp [Mem.readN]
  | succ i ih => rw [Nat.succ_add, Mem.readN, ih, Mem.readN, List.cons_append, Nat.add_assoc, Nat.add_comm 1 i]

/-- Codewords read side by side are the range that they cover. -/
theorem Mem.flatMap_readN (a k c : Nat) (m : Mem) : (List.range c).flatMap (fun i => m.readN (a + i * k) k) = m.readN a (c * k) := by
  induction c with
  | zero => simp [Mem.readN]
  | succ c ih => simp [List.range_succ, ih, Nat.succ_mul, Mem.readN_add]

section Words
variable {p : Nat → List Byte} (hp : ∀ w, (p w).length = 64) {ws : List Nat} (hal : ∀ w ∈ ws, 64 ∣ w)
include hp hal

/-- Codewords written one after another leave the bytes of every other codeword. -/
theorem Mem.read_foldl_words_out {b : Nat} (hb : b / 64 * 64 ∉ ws) {m : Mem} (h : m.wf = true) :
    (ws.foldl (fun m w => m.writeN w (p w)) m).read b = m.read b := by
  induction ws generalizing m with
  | nil => rfl
  | cons w ws ih =>
    obtain ⟨hne, hout⟩ := not_or.mp (mt List.mem_cons.mpr hb)
    have hw := hal w List.mem_cons_self
    rw [List.foldl_cons, ih (fun x hx => hal x (List.mem_cons_of_mem _ hx)) hout (Mem.wf_writeN _ _ h)]
    exact Mem.read_writeN_out _ (by rw [hp]; omega) h

/-- Each of them reads as it was written. -/
theorem Mem.readN_foldl_words {w : Nat} (hw : w ∈ ws) {m : Mem} (h : m.wf = true) :
    (ws.foldl (fun m w => m.writeN w (p w)) m).readN w 64 = p w := by
  induction ws generalizing m with
  | nil => cases hw
  | cons x ws ih =>
    have hal' : ∀ y ∈ ws, 64 ∣ y := fun y hy => hal y (List.mem_cons_of_mem _ hy)
    by_cases hin : w ∈ ws
    · exact ih hal' hin (Mem.wf_writeN _ _ h)
    · obtain rfl : w = x := (List.mem_cons.mp hw).resolve_right hin
      have hlast := Mem.readN_writeN w (p w) h
      rw [hp] at hlast
      rw [List.foldl_cons]
      refine (Mem.readN_congr fun i hi => ?_).trans hlast
      have hw64 := hal w hw
      exact Mem.read_foldl_words_out hp hal' (by rwa [show (w + i) / 64 * 64 = w by omega]) (Mem.wf_writeN _ _ h)

end Words

end Sys2Proof
end

section
/-!
SUPPORT. Bulk-window addresses (Table 19-5): the channel or tile and the byte that an assigned address names, and what a 4 KiB unit shares.
-/

namespace Sys2Proof.Machine

/-- The device field of an assigned address is 0 for Rack and 1 for Bench, and names a channel or a tile. -/
theorem bulkAssigned_cases {a : Nat} (h : bulkAssigned a = true) :
    a < 2 ^ 48 ∧ (bitsOf a 44 4 = 0 ∧ bitsOf a 31 13 < 384 ∨ bitsOf a 44 4 = 1 ∧ bitsOf a 31 13 < 24) := by
  rw [bulkAssigned, Bool.and_eq_true, decide_eq_true_eq] at h
  refine ⟨h.1, ?_⟩
  obtain ⟨-, h⟩ := h
  split_ifs at h with h0 h1
  · exact .inl ⟨h0, of_decide_eq_true h⟩
  · exact .inr ⟨h1, of_decide_eq_true h⟩

theorem bulkAssigned_rack {a : Nat} (h : bulkAssigned a = true) (hb : isBench a = false) : a < 384 * 2 ^ 31 := by
  obtain ⟨hlt, hdev⟩ := bulkAssigned_cases h
  simp only [isBench, bitOf, bitsOf, beq_eq_false_iff_ne] at hb hdev
  omega

theorem bulkAssigned_bench {a : Nat} (h : bulkAssigned a = true) (hb : isBench a = true) : 2 ^ 44 ≤ a ∧ a < 2 ^ 44 + 24 * 2 ^ 31 := by
  obtain ⟨hlt, hdev⟩ := bulkAssigned_cases h
  simp only [isBench, bitOf, bitsOf, beq_iff_eq] at hb hdev
  omega

theorem isBench_rack {a : Nat} (h : a < 384 * 2 ^ 31) : isBench a = false := by
  simp only [isBench, bitOf, beq_eq_false_iff_ne]
  omega

theorem wordSize_rack {a : Nat} (h : a < 384 * 2 ^ 31) : wordSize a = 64 := if_pos (by omega)

theorem rackAddr_place {a : Nat} (h : a < 384 * 2 ^ 31) : rackAddr (placeIdx a) (placeByte a) = a := by
  simp only [rackAddr, placeIdx, placeByte, bitsOf]
  omega

theorem benchAddr_place {a : Nat} (hlo : 2 ^ 44 ≤ a) (hhi : a < 2 ^ 44 + 24 * 2 ^ 31) : benchAddr (placeIdx a) (placeByte a) = a := by
  simp only [benchAddr, placeIdx, placeByte, bitsOf]
  omega

/-- Addresses of one 4 KiB unit lie in one 64 KiB chunk of one channel or tile. -/
theorem place_page {a b : Nat} (h : a / 4096 = b / 4096) :
    placeIdx b = placeIdx a ∧ placeByte b / 65536 = placeByte a / 65536 := by
  simp only [placeIdx, placeByte, bitsOf]
  omega

theorem sameBuffer_page {a b : Nat} (h : a / 4096 = b / 4096) (c : Nat) : sameBuffer c b = sameBuffer c a := by
  have hbench : isBench b = isBench a := by
    simp only [isBench, bitOf]
    rw [show b / 2 ^ 44 = a / 2 ^ 44 by omega]
  rw [sameBuffer, sameBuffer, hbench, (place_page h).1]

end Sys2Proof.Machine
end

section
/-!
SUPPORT. What a byte of the bulk window holds (R241): it is a matter of what its place is used for, of memory at that byte, and, in a free
chunk, of what was written there since a domain returned it (R385).
-/

namespace Sys2Proof.Machine

variable {s t u : State}

/-- Every place of Rack and Bench is used for the same in both states, and every page and table is the same: they may differ in memory, in
what free chunks have had written, in how codewords are stored, and in what no reader of the window sees. -/
def State.sameUses (s t : State) : Prop :=
  t.eng = s.eng ∧ t.sec = s.sec ∧ t.kv = { s.kv with codes := t.kv.codes, stale := t.kv.stale }

theorem State.sameUses.refl (s : State) : s.sameUses s := ⟨rfl, rfl, rfl⟩

theorem State.sameUses.trans (h : s.sameUses t) (h' : t.sameUses u) : s.sameUses u := by
  obtain ⟨he, hs, hk⟩ := h
  obtain ⟨he', hs', hk'⟩ := h'
  refine ⟨he'.trans he, hs'.trans hs, ?_⟩
  rw [hk', hk]

/-- A state with the same uses, with what it has of them written out. -/
theorem State.sameUses.eq (h : s.sameUses t) :
    t = { t with eng := s.eng, sec := s.sec, kv := { s.kv with codes := t.kv.codes, stale := t.kv.stale } } := by
  obtain ⟨he, hs, hk⟩ := h
  rw [← he, ← hs, ← hk]

theorem State.sameUses.chunks_eq (h : s.sameUses t) : t.kv.chunks = s.kv.chunks := by rw [h.eq]
theorem State.sameUses.metaHalf_eq (h : s.sameUses t) (ch half : Nat) : metaHalf t ch half = metaHalf s ch half := by rw [h.eq]; rfl
theorem State.sameUses.crumbAt_eq (h : s.sameUses t) (ch b : Nat) : crumbAt t ch b = crumbAt s ch b := by rw [h.eq]; rfl
theorem State.sameUses.frame_eq (h : s.sameUses t) (f : Nat) : t.frame f = s.frame f := by rw [h.eq]; rfl
theorem State.sameUses.lineAt_eq (h : s.sameUses t) (tile b : Nat) : t.lineAt tile b = s.lineAt tile b := by rw [h.eq]; rfl
theorem State.sameUses.shape_eq (h : s.sameUses t) (d i : Nat) : t.shape d i = s.shape d i := by rw [h.eq]; rfl

/-! ### Rack -/

/-- Byte `j` of a list, alone; none past its end. -/
def byteAt (l : List Byte) (j : Nat) : List Byte := (l.drop j).take 1

theorem byteAt_readN {j n : Nat} (h : j < n) (a : Nat) (m : Mem) : byteAt (m.readN a n) j = [m.read (a + j)] := by
  rw [byteAt, Mem.drop_readN, Mem.take_readN (by omega)]
  rfl

theorem rackWord_free {ch w : Nat} (h : AL.get (ch, w / 65536) s.kv.chunks = none) : rackWord s ch w = plainWord s ch w := by
  simp only [rackWord, h]

theorem rackBytes_one (s : State) (ch b : Nat) : rackBytes s ch b 1 = byteAt (rackWord s ch (b / 64 * 64)) (b % 64) := by
  have hc : ceilDiv (b % 64 + 1) 64 = 1 := by
    simp only [ceilDiv]
    omega
  simp [rackBytes, byteAt, hc]

/-- A byte of Rack is as before where a free chunk's reads as before, and any other's lies in memory that was not written. -/
theorem State.sameUses.rackByte (h : s.sameUses t) {ch w j : Nat} (hj : j < 64)
    (hplain : byteAt (plainWord t ch w) j = byteAt (plainWord s ch w) j)
    (hmem : AL.get (ch, w / 65536) s.kv.chunks = none ∨ t.mem.read (rackAddr ch w + j) = s.mem.read (rackAddr ch w + j)) :
    byteAt (rackWord t ch w) j = byteAt (rackWord s ch w) j := by
  simp only [rackWord, h.chunks_eq, h.metaHalf_eq, h.crumbAt_eq, h.frame_eq]
  cases huse : AL.get (ch, w / 65536) s.kv.chunks with
  | none => exact hplain
  | some use =>
    have hread : byteAt (t.mem.readN (rackAddr ch w) 64) j = byteAt (s.mem.readN (rackAddr ch w) 64) j := by
      rw [byteAt_readN hj, byteAt_readN hj, hmem.resolve_left (by simp [huse])]
    cases use with
    | payload f =>
      dsimp only
      split
      · rfl
      · exact hread
    | metadata owner used => rfl
    | run owner => rfl
    | crumb region =>
      dsimp only
      split
      · rfl
      · exact hread
    | region index => exact hread
    | block domain handle => exact hread
    | test => exact hplain

/-- The codeword reads what memory holds: no former owner's key is in the way (R385). -/
def State.inClear (s : State) (ch w : Nat) : Prop :=
  ∀ x, AL.get (ch, w / 65536) s.kv.stale = some x → x.live.contains (w % 65536 / 64) = true

theorem plainWord_inClear {ch w : Nat} (h : s.inClear ch w) : plainWord s ch w = s.mem.readN (rackAddr ch w) 64 := by
  unfold plainWord
  cases hx : AL.get (ch, w / 65536) s.kv.stale with
  | none => rfl
  | some x => simp only [h x hx, if_true]

@[simp] theorem length_plainWord (s : State) (ch w : Nat) : (plainWord s ch w).length = 64 := by
  unfold plainWord
  split
  · split
    · exact Mem.length_readN ..
    · simp
  · exact Mem.length_readN ..

/-- A byte of a plain codeword is as before where neither memory at it nor what was written in its chunk has changed. -/
theorem byteAt_plainWord {ch w j : Nat} (hj : j < 64) (hstale : AL.get (ch, w / 65536) t.kv.stale = AL.get (ch, w / 65536) s.kv.stale)
    (hmem : t.mem.read (rackAddr ch w + j) = s.mem.read (rackAddr ch w + j)) :
    byteAt (plainWord t ch w) j = byteAt (plainWord s ch w) j := by
  have hread : byteAt (t.mem.readN (rackAddr ch w) 64) j = byteAt (s.mem.readN (rackAddr ch w) 64) j := by
    rw [byteAt_readN hj, byteAt_readN hj, hmem]
  simp only [plainWord, hstale]
  split
  · split
    · exact hread
    · rfl
  · exact hread

/-! ### The bulk window -/

theorem bulkBytes_rack {a : Nat} (h : isBench a = false) (n : Nat) : s.bulkBytes a n = rackBytes s (placeIdx a) (placeByte a) n := by
  simp [State.bulkBytes, h]

/-- The bytes of a test line lie in memory at their own address. -/
theorem State.lineAt_addr {tile b : Nat} {l : Line} (h : s.lineAt tile b = some l) :
    benchAddr l.tile ((l.set * 16 + l.way) * 69632 + b % 69632) = benchAddr tile b := by
  unfold State.lineAt at h
  dsimp only at h
  split at h
  · have hp := List.find?_some h
    simp only [Bool.and_eq_true, beq_iff_eq] at hp
    obtain ⟨⟨rfl, hset⟩, hway⟩ := hp
    rw [hset, hway, benchAddr, benchAddr]
    omega
  · cases h

theorem State.sameUses.lineByte (h : s.sameUses t) (l : Line) (o : Nat)
    (hmem : t.mem.read (benchAddr l.tile ((l.set * 16 + l.way) * 69632 + o)) = s.mem.read (benchAddr l.tile ((l.set * 16 + l.way) * 69632 + o))) :
    t.lineBytes l o 1 = s.lineBytes l o 1 := by
  simp only [State.lineBytes, h.1, h.frame_eq, h.shape_eq, Mem.readN, hmem]

/-- A byte of Bench is as before where memory at it is. -/
theorem State.sameUses.benchByte (h : s.sameUses t) {b : Nat} (ha : bulkAssigned b = true) (hb : isBench b = true)
    (hmem : t.mem.read b = s.mem.read b) : t.bulkBytes b 1 = s.bulkBytes b 1 := by
  obtain ⟨hlo, hhi⟩ := bulkAssigned_bench ha hb
  simp only [State.bulkBytes, hb, if_true, h.lineAt_eq]
  cases hl : s.lineAt (placeIdx b) (placeByte b) with
  | none => simp only [Mem.readN, hmem]
  | some l =>
    refine h.lineByte l _ ?_
    rwa [State.lineAt_addr hl, benchAddr_place hlo hhi]

theorem rackAddr_byte {b : Nat} (h : b < 384 * 2 ^ 31) : rackAddr (placeIdx b) (placeByte b / 64 * 64) + placeByte b % 64 = b := by
  simp only [rackAddr, placeIdx, placeByte, bitsOf]
  omega

/-- A byte of Rack that the window reads is as before under the conditions of `rackByte`. -/
theorem State.sameUses.rackWindowByte (h : s.sameUses t) {b : Nat} (ha : bulkAssigned b = true) (hb : isBench b = false)
    (hplain : byteAt (plainWord t (placeIdx b) (placeByte b / 64 * 64)) (placeByte b % 64) =
      byteAt (plainWord s (placeIdx b) (placeByte b / 64 * 64)) (placeByte b % 64))
    (hmem : AL.get (placeIdx b, placeByte b / 65536) s.kv.chunks = none ∨ t.mem.read b = s.mem.read b) :
    t.bulkBytes b 1 = s.bulkBytes b 1 := by
  rw [bulkBytes_rack hb, bulkBytes_rack hb, rackBytes_one, rackBytes_one]
  refine h.rackByte (Nat.mod_lt _ (by decide)) hplain ?_
  rwa [rackAddr_byte (bulkAssigned_rack ha hb), show placeByte b / 64 * 64 / 65536 = placeByte b / 65536 by omega]

/-- A byte of the window is as before where memory at it is, and its chunk has had nothing written. -/
theorem State.sameUses.bulkByte (h : s.sameUses t) {b : Nat} (ha : bulkAssigned b = true) (hmem : t.mem.read b = s.mem.read b)
    (hstale : isBench b = false → AL.get (placeIdx b, placeByte b / 65536) t.kv.stale = AL.get (placeIdx b, placeByte b / 65536) s.kv.stale) :
    t.bulkBytes b 1 = s.bulkBytes b 1 := by
  cases hb : isBench b with
  | true => exact h.benchByte ha hb hmem
  | false =>
    refine h.rackWindowByte ha hb (byteAt_plainWord (Nat.mod_lt _ (by decide)) ?_ ?_) (.inr hmem)
    · rw [show placeByte b / 64 * 64 / 65536 = placeByte b / 65536 by omega]
      exact hstale hb
    · rwa [rackAddr_byte (bulkAssigned_rack ha hb)]

end Sys2Proof.Machine
end

section
/-!
SUPPORT. A write of a free chunk first settles the codewords that it touches (R385): those that a former owner's key still enciphers are
written whole with what they read as, so that no byte reads differently, and from then on they read what memory holds.
-/

namespace Sys2Proof.Machine

variable {s : State} {a n : Nat}

/-- The codewords of a range are those that it touches. -/
theorem mem_wordsOf (ha : a < 384 * 2 ^ 31) (hn : 1 ≤ n) {w : Nat} : w ∈ wordsOf a n ↔ 64 ∣ w ∧ a < w + 64 ∧ w < a + n := by
  simp only [wordsOf, wordSize_rack ha, if_neg (Nat.one_le_iff_ne_zero.mp hn), List.mem_map, List.mem_range]
  refine ⟨fun ⟨i, hi, hw⟩ => by omega, fun ⟨hdvd, hlo, hhi⟩ => ⟨w / 64 - a / 64, by omega, by omega⟩⟩

/-- The codewords of a range that a former owner's key still enciphers. -/
def enciphered (x : Stale) (a n : Nat) : List Nat := (wordsOf a n).filter (fun w => !x.live.contains (placeByte w % 65536 / 64))

theorem mem_enciphered {x : Stale} {w : Nat} : w ∈ enciphered x a n ↔ w ∈ wordsOf a n ∧ x.live.contains (placeByte w % 65536 / 64) = false := by
  simp only [enciphered, List.mem_filter, Bool.not_eq_true']

theorem State.settled_fresh (h : AL.get (placeIdx a, placeByte a / 65536) s.kv.stale = none) (n : Nat) : s.settled a n = s := by
  simp only [State.settled, h]

theorem State.settled_stale {x : Stale} (h : AL.get (placeIdx a, placeByte a / 65536) s.kv.stale = some x) (n : Nat) :
    s.settled a n = { s with
      mem := (enciphered x a n).foldl (fun m w => m.writeN w (plainWord s (placeIdx a) (placeByte w / 64 * 64))) s.mem
      kv := { s.kv with
        stale := AL.put (placeIdx a, placeByte a / 65536)
          { x with live := x.live ++ (enciphered x a n).map (fun w => placeByte w % 65536 / 64) } s.kv.stale } } := by
  simp only [State.settled, h]
  rfl

/-- The entry of the chunk, if a domain has returned it, and the codewords written since. -/
theorem State.settled_cases (s : State) (a n : Nat) :
    (AL.get (placeIdx a, placeByte a / 65536) s.kv.stale = none ∧ s.settled a n = s) ∨
    ∃ x, AL.get (placeIdx a, placeByte a / 65536) s.kv.stale = some x ∧
      AL.get (placeIdx a, placeByte a / 65536) (s.settled a n).kv.stale =
        some { x with live := x.live ++ (enciphered x a n).map (fun w => placeByte w % 65536 / 64) } := by
  cases hx : AL.get (placeIdx a, placeByte a / 65536) s.kv.stale with
  | none => exact .inl ⟨rfl, State.settled_fresh hx n⟩
  | some x => exact .inr ⟨x, rfl, by rw [State.settled_stale hx]; exact AL.get_put ..⟩

theorem State.settled_sameUses (s : State) (a n : Nat) : s.sameUses (s.settled a n) := by
  cases hx : AL.get (placeIdx a, placeByte a / 65536) s.kv.stale with
  | none => rw [State.settled_fresh hx]; exact .refl s
  | some x => rw [State.settled_stale hx]; exact ⟨rfl, rfl, rfl⟩

@[simp] theorem State.settled_frame (s : State) (a n : Nat) :
    (s.settled a n).pending = s.pending ∧ (s.settled a n).nrt = s.nrt ∧ (s.settled a n).fresh = s.fresh ∧ (s.settled a n).rf = s.rf ∧
      (s.settled a n).host = s.host ∧ (s.settled a n).cmds = s.cmds ∧ (s.settled a n).net = s.net ∧ (s.settled a n).egress = s.egress ∧
      (s.settled a n).eng = s.eng ∧ (s.settled a n).lease = s.lease ∧ (s.settled a n).sec = s.sec ∧ (s.settled a n).fw = s.fw ∧
      (s.settled a n).integ = s.integ ∧ (s.settled a n).ckpt = s.ckpt ∧ (s.settled a n).pw = s.pw := by
  cases hx : AL.get (placeIdx a, placeByte a / 65536) s.kv.stale with
  | none => simp [State.settled_fresh hx]
  | some x => simp [State.settled_stale hx]

theorem State.settled_stale_ne {k : Nat × Nat} (hk : k ≠ (placeIdx a, placeByte a / 65536)) :
    AL.get k (s.settled a n).kv.stale = AL.get k s.kv.stale := by
  cases hx : AL.get (placeIdx a, placeByte a / 65536) s.kv.stale with
  | none => rw [State.settled_fresh hx]
  | some x => rw [State.settled_stale hx]; exact AL.get_put_ne hk ..

section Range
variable (ha : a < 384 * 2 ^ 31) (hn : 1 ≤ n) (hpage : a / 4096 = (a + n - 1) / 4096)
include ha hn

theorem dvd_of_mem_enciphered {x : Stale} : ∀ w ∈ enciphered x a n, 64 ∣ w :=
  fun _ hw => ((mem_wordsOf ha hn).mp (mem_enciphered.mp hw).1).1

/-- Memory is as before outside the enciphered codewords of the range. -/
theorem State.settled_read (hwf : s.mem.wf = true) {b : Nat}
    (hb : ∀ x, AL.get (placeIdx a, placeByte a / 65536) s.kv.stale = some x → b / 64 * 64 ∉ enciphered x a n) :
    (s.settled a n).mem.read b = s.mem.read b := by
  cases hx : AL.get (placeIdx a, placeByte a / 65536) s.kv.stale with
  | none => rw [State.settled_fresh hx]
  | some x =>
    rw [State.settled_stale hx]
    exact Mem.read_foldl_words_out (fun _ => length_plainWord ..) (dvd_of_mem_enciphered ha hn) (hb x hx) hwf

theorem State.settled_readN (hwf : s.mem.wf = true) {w : Nat} (hw : 64 ∣ w)
    (hout : ∀ x, AL.get (placeIdx a, placeByte a / 65536) s.kv.stale = some x → w ∉ enciphered x a n) :
    (s.settled a n).mem.readN w 64 = s.mem.readN w 64 :=
  Mem.readN_congr fun i hi => State.settled_read ha hn hwf (by rwa [show (w + i) / 64 * 64 = w by omega])

theorem State.settled_readN_enciphered (hwf : s.mem.wf = true) {x : Stale}
    (hx : AL.get (placeIdx a, placeByte a / 65536) s.kv.stale = some x) {w : Nat} (hw : w ∈ enciphered x a n) :
    (s.settled a n).mem.readN w 64 = plainWord s (placeIdx a) (placeByte w / 64 * 64) := by
  rw [State.settled_stale hx]
  exact Mem.readN_foldl_words (fun _ => length_plainWord ..) (dvd_of_mem_enciphered ha hn) hw hwf

include hpage

/-- The codewords of a range that lies in a 4 KiB unit lie in its chunk. -/
theorem place_of_mem_wordsOf {w : Nat} (hw : w ∈ wordsOf a n) :
    w < 384 * 2 ^ 31 ∧ placeIdx w = placeIdx a ∧ placeByte w / 65536 = placeByte a / 65536 := by
  obtain ⟨hdvd, hlo, hhi⟩ := (mem_wordsOf ha hn).mp hw
  have hsame : a / 4096 = w / 4096 := by omega
  exact ⟨by omega, place_page hsame⟩

/-- Every codeword of the range reads what memory holds. -/
theorem State.settled_inClear {w : Nat} (hw : w ∈ wordsOf a n) : (s.settled a n).inClear (placeIdx a) (placeByte w) := by
  intro y hy
  rw [(place_of_mem_wordsOf ha hn hpage hw).2.2] at hy
  obtain ⟨hnone, hsame⟩ | ⟨x, -, hput⟩ := s.settled_cases a n
  · rw [hsame, hnone] at hy
    cases hy
  · obtain rfl := Option.some.inj (hput.symm.trans hy)
    cases hlive : x.live.contains (placeByte w % 65536 / 64) with
    | true => exact List.contains_iff_mem.mpr (List.mem_append_left _ (List.contains_iff_mem.mp hlive))
    | false =>
      have hmem : placeByte w % 65536 / 64 ∈ (enciphered x a n).map (fun w => placeByte w % 65536 / 64) :=
        List.mem_map_of_mem (mem_enciphered.mpr ⟨hw, hlive⟩)
      exact List.contains_iff_mem.mpr (List.mem_append_right _ hmem)

/-- No codeword of the chunk reads otherwise than before. -/
theorem State.settled_plainWord (hwf : s.mem.wf = true) {w : Nat} (hw : w < 384 * 2 ^ 31) (hdvd : 64 ∣ w)
    (hchunk : (placeIdx w, placeByte w / 65536) = (placeIdx a, placeByte a / 65536)) :
    plainWord (s.settled a n) (placeIdx w) (placeByte w) = plainWord s (placeIdx w) (placeByte w) := by
  obtain ⟨hidx, hbyte⟩ := Prod.mk.inj hchunk
  obtain ⟨hnone, hsame⟩ | ⟨x, hx, hput⟩ := s.settled_cases a n
  · rw [hsame]
  by_cases hin : w ∈ enciphered x a n
  · have halign : placeByte w / 64 * 64 = placeByte w := by
      simp only [placeByte]
      omega
    rw [hidx, plainWord_inClear (State.settled_inClear ha hn hpage (mem_enciphered.mp hin).1), ← hidx, rackAddr_place hw,
      State.settled_readN_enciphered ha hn hwf hx hin, halign, hidx]
  · have hread : (s.settled a n).mem.readN w 64 = s.mem.readN w 64 :=
      State.settled_readN ha hn hwf hdvd fun y hy => by rwa [Option.some.inj (hy.symm.trans hx)]
    have hlive : (x.live ++ (enciphered x a n).map (fun w => placeByte w % 65536 / 64)).contains (placeByte w % 65536 / 64) =
        x.live.contains (placeByte w % 65536 / 64) := by
      rw [List.contains_append, Bool.or_eq_left_iff_imp]
      intro hmap
      obtain ⟨v, hv, hsame⟩ := List.mem_map.mp (List.contains_iff_mem.mp hmap)
      obtain ⟨hvlt, hvidx, hvbyte⟩ := place_of_mem_wordsOf ha hn hpage (mem_enciphered.mp hv).1
      have hvdvd := dvd_of_mem_enciphered ha hn v hv
      refine absurd ?_ hin
      convert hv using 1
      simp only [placeIdx, placeByte, bitsOf] at hidx hbyte hvidx hvbyte hsame
      omega
    unfold plainWord
    rw [hidx, hbyte, hput, hx]
    dsimp only
    rw [hlive, ← hidx, rackAddr_place hw, hread]

/-- No byte of the window reads otherwise than before. -/
theorem State.settled_bulkByte (hwf : s.mem.wf = true) (hfree : AL.get (placeIdx a, placeByte a / 65536) s.kv.chunks = none) {b : Nat}
    (hb : bulkAssigned b = true) : (s.settled a n).bulkBytes b 1 = s.bulkBytes b 1 := by
  have hsame := s.settled_sameUses a n
  by_cases hin : isBench b = false ∧ (placeIdx b, placeByte b / 65536) = (placeIdx a, placeByte a / 65536)
  · obtain ⟨hrack, hchunk⟩ := hin
    have hlt := bulkAssigned_rack hb hrack
    have hword : placeIdx (b / 64 * 64) = placeIdx b ∧ placeByte (b / 64 * 64) = placeByte b / 64 * 64 ∧
        placeByte (b / 64 * 64) / 65536 = placeByte b / 65536 := by
      simp only [placeIdx, placeByte, bitsOf]
      omega
    obtain ⟨hidx, hbyte, hk⟩ := hword
    refine hsame.rackWindowByte hb hrack ?_ (.inl (hchunk ▸ hfree))
    rw [← hidx, ← hbyte]
    rw [State.settled_plainWord ha hn hpage hwf (by omega) (Nat.dvd_mul_left ..) (by rw [hk, hidx, hchunk])]
  · refine hsame.bulkByte hb (State.settled_read ha hn hwf fun x hx hmem => hin ?_) fun hrack => State.settled_stale_ne fun hk => hin ⟨hrack, hk⟩
    obtain ⟨-, hlo, hhi⟩ := (mem_wordsOf ha hn).mp (mem_enciphered.mp hmem).1
    have hunit : a / 4096 = b / 4096 := by omega
    exact ⟨isBench_rack (by omega), by rw [(place_page hunit).1, (place_page hunit).2]⟩

end Range

end Sys2Proof.Machine
end

section
/-!
SUPPORT. The merge buffer under a write of the window (R257, R258): a range touches at most two codewords in part, so a buffer with room for
two entries takes them without writing an older codeword back, and every place keeps its use.
-/

namespace Sys2Proof.Machine

variable {s t u : State} {a n : Nat}

/-- How many entries the merge buffer of an address holds. -/
def State.merging (s : State) (a : Nat) : Nat := (s.integ.pend.filter (fun e => sameBuffer e.addr a)).length

theorem State.merging_congr (h : t.integ.pend = s.integ.pend) (a : Nat) : t.merging a = s.merging a := by rw [State.merging, h, State.merging]

/-- One buffer serves a 4 KiB unit. -/
theorem State.merging_page (s : State) {b : Nat} (h : a / 4096 = b / 4096) : s.merging b = s.merging a := by
  simp only [State.merging, sameBuffer_page h]

/-- The same uses, with nothing more or less written in any free chunk. -/
def State.recoded (s t : State) : Prop := s.sameUses t ∧ t.kv.stale = s.kv.stale

theorem State.recoded.refl (s : State) : s.recoded s := ⟨.refl s, rfl⟩

theorem State.recoded.trans (h : s.recoded t) (h' : t.recoded u) : s.recoded u := ⟨h.1.trans h'.1, h'.2.trans h.2⟩

theorem State.recoded.of_eq (he : t.eng = s.eng) (hs : t.sec = s.sec) (hk : t.kv = s.kv) : s.recoded t :=
  ⟨⟨he, hs, by rw [hk]⟩, by rw [hk]⟩

theorem State.recoded.bulkByte (h : s.recoded t) {b : Nat} (ha : bulkAssigned b = true) (hmem : t.mem.read b = s.mem.read b) :
    t.bulkBytes b 1 = s.bulkBytes b 1 :=
  h.1.bulkByte ha hmem fun _ => by rw [h.2]

theorem State.hostBursts_recoded (s : State) (a n : Nat) : s.recoded (s.hostBursts a n) := .of_eq (by simp) (by simp) (by simp)

/-! ### Codewords through the encoder -/

theorem State.encode_pend (s : State) (a : Nat) (host poison : Bool) :
    (s.encode a host poison).integ.pend = s.integ.pend.filter (·.addr != a) := by
  unfold State.encode
  dsimp only
  split
  · exact congrArg IntegState.pend (State.foldl_keeps (·.integ) _ (fun _ _ => by rfl) _ _)
  · rfl

theorem State.encode_kv (s : State) (a : Nat) (host poison : Bool) : ∃ c, (s.encode a host poison).kv = { s.kv with codes := c } := by
  unfold State.encode
  dsimp only
  split
  · exact ⟨_, State.foldl_keeps (·.kv) _ (fun _ _ => by rfl) _ _⟩
  · exact ⟨_, rfl⟩

theorem State.encode_recoded (s : State) (a : Nat) (host poison : Bool) : s.recoded (s.encode a host poison) := by
  obtain ⟨c, hc⟩ := s.encode_kv a host poison
  exact ⟨⟨by simp, by simp, by rw [hc]⟩, by rw [hc]⟩

/-- A codeword that is encoded whole takes no entry. -/
theorem State.encoded_merging (s : State) (b : Nat) (host : Bool) (a : Nat) : (s.encoded b host).merging a ≤ s.merging a := by
  rw [State.merging, State.encoded, State.encode_pend]
  exact (List.filter_sublist.filter _).length_le

/-! ### Parts of codewords -/

/-- With room in its buffer, a part of a codeword takes at most one entry more. -/
theorem State.narrowWrite_room (hrack : isBench a = false) (hroom : s.merging a < 64) (n writer : Nat) :
    s.recoded (s.narrowWrite a n writer) ∧ (s.narrowWrite a n writer).merging a ≤ s.merging a + 1 := by
  have hkeeps (i : IntegState) : s.recoded (s.setInteg i) := .of_eq rfl rfl rfl
  unfold State.narrowWrite
  dsimp only
  split
  · split
    · exact ⟨State.encode_recoded .., Nat.le_succ_of_le (State.encoded_merging ..)⟩
    · refine ⟨hkeeps _, ?_⟩
      have hmap (p : PendWrite → PendWrite) (hp : ∀ e, (p e).addr = e.addr) (l : List PendWrite) :
          ((l.map p).filter (fun e => sameBuffer e.addr a)).length = (l.filter (fun e => sameBuffer e.addr a)).length := by
        rw [List.filter_map, List.length_map]
        simp only [Function.comp_def, hp]
      rw [State.merging, State.setInteg_integ, hmap _ (fun e => by split <;> rfl)]
      exact Nat.le_succ _
  · rw [if_neg (by rw [hrack]; exact Nat.not_le.mpr hroom)]
    refine ⟨hkeeps _, ?_⟩
    rw [State.merging, State.setInteg_integ, List.filter_append, List.length_append]
    exact Nat.add_le_add_left (List.length_filter_le ..) _

/-- What a write of `n` bytes at `a` does with the codeword at `b` that it touches. -/
def State.noteWord (s : State) (a n writer b : Nat) : State :=
  if min (a + n) (b + 64) - max a b = 64 then s.encoded b (writer == 0)
  else s.narrowWrite (max a b) (min (a + n) (b + 64) - max a b) writer

theorem State.noteWrite_words (ha : a < 384 * 2 ^ 31) (hn : 1 ≤ n) (s : State) (writer : Nat) :
    s.noteWrite a n writer =
      (List.range ((a + n - 1) / 64 + 1 - a / 64)).foldl (fun s i => s.noteWord a n writer ((a / 64 + i) * 64)) s := by
  simp only [State.noteWrite, if_neg (Nat.one_le_iff_ne_zero.mp hn), wordSize_rack ha, State.noteWord]

section Unit
variable (ha : a < 384 * 2 ^ 31) (hn : 1 ≤ n) (hpage : a / 4096 = (a + n - 1) / 4096)
include ha hn hpage

/-- A codeword that the range touches takes at most one entry, and none when it is covered. -/
theorem State.noteWord_room {b : Nat} (hhi : b < a + n) (hroom : s.merging a < 64) (writer : Nat) :
    s.recoded (s.noteWord a n writer b) ∧ (s.noteWord a n writer b).merging a ≤ s.merging a + 1 ∧
      (a ≤ b → b + 64 ≤ a + n → (s.noteWord a n writer b).merging a ≤ s.merging a) := by
  unfold State.noteWord
  split
  · exact ⟨State.encode_recoded .., Nat.le_succ_of_le (State.encoded_merging ..), fun _ _ => State.encoded_merging ..⟩
  · have hunit : a / 4096 = max a b / 4096 := by omega
    rw [← s.merging_page hunit] at hroom ⊢
    rw [← State.merging_page _ hunit]
    obtain ⟨huses, hmore⟩ := State.narrowWrite_room (isBench_rack (by omega)) hroom (min (a + n) (b + 64) - max a b) writer
    exact ⟨huses, hmore, fun h h' => by omega⟩

/-- With room for two entries, no older codeword is written back: every place keeps its use. -/
theorem State.noteWrite_recoded (hroom : s.merging a < 63) (writer : Nat) : s.recoded (s.noteWrite a n writer) := by
  rw [State.noteWrite_words ha hn]
  -- the first codeword may take an entry, those between take none, and after the last there is none to come
  have hupto : ∀ m ≤ (a + n - 1) / 64 + 1 - a / 64,
      s.recoded ((List.range m).foldl (fun s i => s.noteWord a n writer ((a / 64 + i) * 64)) s) ∧
      (m < (a + n - 1) / 64 + 1 - a / 64 →
        ((List.range m).foldl (fun s i => s.noteWord a n writer ((a / 64 + i) * 64)) s).merging a < if m = 0 then 63 else 64) := by
    intro m
    induction m with
    | zero => exact fun _ => ⟨.refl s, fun _ => hroom⟩
    | succ m ih =>
      intro hm
      obtain ⟨huses, hbefore⟩ := ih (Nat.le_of_succ_le hm)
      rw [List.range_succ, List.foldl_append, List.foldl_cons, List.foldl_nil]
      generalize (List.range m).foldl (fun s i => s.noteWord a n writer ((a / 64 + i) * 64)) s = t at huses hbefore ⊢
      have hbefore := hbefore hm
      obtain ⟨hword, hmore, hcovered⟩ :=
        State.noteWord_room (s := t) ha hn hpage (b := (a / 64 + m) * 64) (by omega) (by split at hbefore <;> omega) writer
      refine ⟨huses.trans hword, fun hnext => ?_⟩
      rw [if_neg (Nat.succ_ne_zero m)]
      split at hbefore
      · omega
      · exact (hcovered (by omega) (by omega)).trans_lt hbefore
  exact (hupto _ le_rfl).1

end Unit

end Sys2Proof.Machine
end

section
/-!
SUPPORT. The windows of the host, case by case (R241, R242, R400, R463, Table 19-5): what a read that is answered, denied or refused
sends, what a write of a free chunk leaves in it, and the interrupt of a write of metadata.
-/

namespace Sys2Proof.Machine

variable {s t u : State} {l : Link} {a n tag : Nat}

/-! ### The commands -/

theorem State.inPower_keeps {f : State → State} (hon : s.powerGood = true) (hf : f s = t) (hp : t.pending = s.pending) (hn : t.nrt = s.nrt) :
    s.inPower f = .next t := by
  rw [State.inPower, if_pos hon, hf, State.did_of_keeps hp hn]

theorem exec_bulkRead (l : Link) (tag a n : Nat) (ring ue : Bool) (s : State) : exec (.bulkRead l tag a n ring ue) s =
    s.inPower (fun s => if s.linkTalks l then if ring then s.ringWindowRead l tag a n else s.bulkRead l tag a n ue else s) := rfl
theorem exec_bulkWrite (l : Link) (a : Nat) (d : List Byte) (s : State) :
    exec (.bulkWrite l a d) s = s.inPower (fun s => if s.linkTalks l then s.bulkWrite l a d else s) := rfl
theorem exec_ringWindowWrite (l : Link) (a : Nat) (d : List Byte) (s : State) :
    exec (.ringWindowWrite l a d) s = s.inPower (fun s => if s.linkTalks l then s.ringWindowPut l a d else s) := rfl

/-- A read of the bulk window on a link that carries flits. -/
theorem State.bulkRead_next {ue : Bool} (hon : s.powerGood = true) (hlink : s.linkTalks l = true) (h : s.bulkRead l tag a n ue = t)
    (hp : t.pending = s.pending) (hn : t.nrt = s.nrt) : exec (.bulkRead l tag a n false ue) s = .next t := by
  rw [exec_bulkRead]
  refine State.inPower_keeps hon ?_ hp hn
  simp only [hlink, if_true, Bool.false_eq_true, if_false, h]

/-- The same for a write. -/
theorem State.bulkWrite_next {d : List Byte} (hon : s.powerGood = true) (hlink : s.linkTalks l = true) (h : s.bulkWrite l a d = t)
    (hp : t.pending = s.pending) (hn : t.nrt = s.nrt) : exec (.bulkWrite l a d) s = .next t := by
  rw [exec_bulkWrite]
  refine State.inPower_keeps hon ?_ hp hn
  simp only [hlink, if_true, h]

/-- An access that nothing forbids stays in a 4 KiB unit of an assigned place (Table 19-5). -/
theorem State.bulkBad_none {w : Bool} (h : s.bulkBad l a n w = none) :
    1 ≤ n ∧ a / 4096 = (a + n - 1) / 4096 ∧ bulkAssigned a = true := by
  unfold State.bulkBad at h
  split_ifs at h with hsession hmode hrange hplace
  all_goals
    simp only [not_or, not_not, Bool.not_eq_true', Bool.not_eq_false] at hrange hplace
    exact ⟨Nat.not_lt.mp hrange.1, hrange.2.2, hplace⟩

/-! ### Reads -/

theorem State.wordOutcome_congr (h : t.kv = s.kv) (w : Nat) : t.wordOutcome w = s.wordOutcome w := by
  simp only [State.wordOutcome, h]

theorem State.readList_clean {ws : List Nat} (h : ∀ w ∈ ws, s.wordOutcome w = .clean) (cls : Nat) : s.readList ws cls = (s, []) := by
  unfold State.readList
  induction ws with
  | nil => rfl
  | cons w ws ih =>
    rw [List.foldl_cons, h w List.mem_cons_self]
    exact ih fun x hx => h x (List.mem_cons_of_mem _ hx)

/-- A read of memory that belongs to nobody, every codeword of which is as encoded. -/
theorem State.bulkRead_nobody (hok : s.bulkBad l a n false = none) (hfree : s.bulkOwner a = .nobody)
    (hclean : ∀ w ∈ wordsOf a n, s.wordOutcome w = .clean) (tag : Nat) :
    s.bulkRead l tag a n false = (s.hostBursts a n).hostCpl l tag true (s.bulkBytes a n) := by
  have hwords : (s.hostBursts a n).readWords a n 1 = (s.hostBursts a n, []) :=
    State.readList_clean (fun w hw => (State.wordOutcome_congr (by simp) w).trans (hclean w hw)) 1
  simp [State.bulkRead, hok, hfree, hwords]

theorem State.bulkRead_denied {d : Nat} (hok : s.bulkBad l a n false = none) (howner : s.bulkOwner a = .domain d) (hgrant : s.grantOf d = none)
    (tag : Nat) (ue : Bool) :
    s.bulkRead l tag a n ue = (s.bump pgSecc 0x128 1).hostCpl l tag true (List.replicate n 0) := by
  simp only [State.bulkRead, hok, howner, hgrant]

theorem State.bulkRead_refused {unit : Nat} (hbad : s.bulkBad l a n false = some unit) (tag : Nat) (ue : Bool) :
    s.bulkRead l tag a n ue = (s.access l unit a).hostCpl l tag false (List.replicate n 0xFF) := by
  simp only [State.bulkRead, hbad, State.readError]

theorem State.ringWindowRead_ok (hok : s.ringWindowBad l a n false = none) (tag : Nat) :
    s.ringWindowRead l tag a n = s.hostCpl l tag true (s.ringRead a n) := by
  simp only [State.ringWindowRead, hok]

/-! ### Writes -/

theorem State.ringWindowPut_ok {d : List Byte} (hok : s.ringWindowBad l a d.length true = none) :
    s.ringWindowPut l a d = s.ringWrite a d := by
  simp only [State.ringWindowPut, hok]

/-- A write of a free chunk of Rack settles its codewords and goes through the encoder. -/
theorem State.bulkWrite_free {d : List Byte} (hok : s.bulkBad l a d.length true = none) (hrack : isBench a = false)
    (hfree : AL.get (placeIdx a, placeByte a / 65536) s.kv.chunks = none) :
    s.bulkWrite l a d = ((s.hostBursts a d.length).settled a d.length).putBytes a d 0 := by
  simp [State.bulkWrite, State.isMetadata, State.bulkOwner, State.chunkOwner, State.bulkPut, hok, hrack, hfree]

theorem State.bulkWrite_metadata {d : List Byte} (hok : s.bulkBad l a d.length true = none) (hmeta : s.isMetadata a = true) :
    s.bulkWrite l a d =
      (s.setIrq pgXlat 2).logErr pgXlat 2 (Link.num l) (placeIdx a * 2 ^ 19 + placeByte a / 4096) := by
  simp only [State.bulkWrite, hok, hmeta, if_true]

/-- Codewords of free memory that no former owner's key enciphers read what memory holds. -/
theorem rackBytes_inClear {ch b n : Nat} (hfree : ∀ i < ceilDiv (b % 64 + n) 64, AL.get (ch, (b / 64 + i) * 64 / 65536) s.kv.chunks = none)
    (hclear : ∀ i < ceilDiv (b % 64 + n) 64, s.inClear ch ((b / 64 + i) * 64)) :
    rackBytes s ch b n = s.mem.readN (rackAddr ch b) n := by
  have hwords : (List.range (ceilDiv (b % 64 + n) 64)).flatMap (fun i => rackWord s ch ((b / 64 + i) * 64)) =
      (List.range (ceilDiv (b % 64 + n) 64)).flatMap (fun i => s.mem.readN (rackAddr ch (b / 64 * 64) + i * 64) 64) := by
    refine List.flatMap_congr fun i hi => ?_
    have hi := List.mem_range.mp hi
    rw [rackWord_free (hfree i hi), plainWord_inClear (hclear i hi), rackAddr, rackAddr, Nat.add_mul, Nat.add_assoc]
  have hlen : b % 64 + n ≤ ceilDiv (b % 64 + n) 64 * 64 := by
    simp only [ceilDiv]
    omega
  have haddr : rackAddr ch (b / 64 * 64) + b % 64 = rackAddr ch b := by
    rw [rackAddr, rackAddr]
    omega
  simp only [rackBytes, hwords]
  rw [Mem.flatMap_readN, Mem.drop_readN, Mem.take_readN (by omega), haddr]

section Write
variable {d : List Byte} (ha : a < 384 * 2 ^ 31) (hn : 1 ≤ d.length) (hpage : a / 4096 = (a + d.length - 1) / 4096)
  (hroom : s.merging a < 63)
include ha hn hpage hroom

theorem State.putBytes_recoded (writer : Nat) : s.recoded (s.putBytes a d writer) :=
  .trans (t := { s with mem := s.mem.writeN a d }) (.of_eq rfl rfl rfl)
    (State.noteWrite_recoded (s := { s with mem := s.mem.writeN a d }) ha hn hpage hroom writer)

/-- No byte of the window outside the range reads otherwise than before. -/
theorem State.putBytes_bulkByte (hwf : s.mem.wf = true) {b : Nat} (hb : bulkAssigned b = true) (hout : b < a ∨ a + d.length ≤ b)
    (writer : Nat) : (s.putBytes a d writer).bulkBytes b 1 = s.bulkBytes b 1 := by
  refine (State.putBytes_recoded ha hn hpage hroom writer).bulkByte hb ?_
  rw [State.putBytes_mem]
  exact Mem.read_writeN_out d hout hwf

/-- The range reads as written where its codewords read what memory holds. -/
theorem State.putBytes_bulkBytes (hwf : s.mem.wf = true) (hfree : AL.get (placeIdx a, placeByte a / 65536) s.kv.chunks = none)
    (hclear : ∀ w ∈ wordsOf a d.length, s.inClear (placeIdx a) (placeByte w)) (writer : Nat) :
    (s.putBytes a d writer).bulkBytes a d.length = d := by
  obtain ⟨huses, hstale⟩ := State.putBytes_recoded ha hn hpage hroom writer
  -- codeword `i` of the range, as the window and as the channel count it
  have hword : ∀ i < ceilDiv (placeByte a % 64 + d.length) 64,
      (a / 64 + i) * 64 ∈ wordsOf a d.length ∧ placeByte ((a / 64 + i) * 64) = (placeByte a / 64 + i) * 64 := by
    intro i hi
    rw [mem_wordsOf ha hn]
    simp only [ceilDiv, placeByte] at hi ⊢
    omega
  rw [bulkBytes_rack (isBench_rack ha), rackBytes_inClear, State.putBytes_mem, rackAddr_place ha]
  · exact Mem.readN_writeN a d hwf
  · intro i hi
    obtain ⟨hmem, hbyte⟩ := hword i hi
    rw [← hbyte, (place_of_mem_wordsOf ha hn hpage hmem).2.2, huses.chunks_eq, hfree]
  · intro i hi x hx
    obtain ⟨hmem, hbyte⟩ := hword i hi
    rw [← hbyte] at hx ⊢
    rw [hstale] at hx
    exact hclear _ hmem x hx

/-- A write of a free chunk whose codewords are settled first: the range reads as written, and every other byte as before. -/
theorem State.settled_putBytes (hwf : s.mem.wf = true) (hfree : AL.get (placeIdx a, placeByte a / 65536) s.kv.chunks = none) (writer : Nat) :
    ((s.settled a d.length).putBytes a d writer).bulkBytes a d.length = d ∧
      ∀ b, bulkAssigned b = true → b < a ∨ a + d.length ≤ b →
        ((s.settled a d.length).putBytes a d writer).bulkBytes b 1 = s.bulkBytes b 1 := by
  have hsettled : (s.settled a d.length).mem.wf = true := State.wf_settled hwf ..
  have hstill : (s.settled a d.length).merging a < 63 := by rwa [State.merging_congr (s := s) (by simp)]
  refine ⟨State.putBytes_bulkBytes ha hn hpage hstill hsettled ?_ (fun w hw => State.settled_inClear ha hn hpage hw) writer, fun b hb hout => ?_⟩
  · rw [(s.settled_sameUses a _).chunks_eq, hfree]
  · rw [State.putBytes_bulkByte ha hn hpage hstill hsettled hb hout, State.settled_bulkByte ha hn hpage hwf hfree hb]

end Write

/-! ### A write of metadata -/

section Stat
variable {pg : Nat} (hp : ∀ l, pg ≠ pgHlnk l)
include hp

theorem State.setIrq_stat (s : State) (bits : Nat) :
    (s.setIrq pg bits).reg pg 0x20 = s.reg pg 0x20 ||| (BitVec.ofNat 32 bits &&& BitVec.ofNat 32 (irqBits pg)) := by
  unfold State.setIrq
  dsimp only
  split
  · rw [State.raiseIrq_reg hp, State.reg_setReg]
  · rw [State.reg_setReg]

/-- An interrupt bit that is set stays set when an error is logged. -/
theorem State.logErr_stat (s : State) (code unit detail : Nat) {i : Nat} (h : (s.reg pg 0x20).getLsbD i = true) :
    ((s.logErr pg code unit detail).reg pg 0x20).getLsbD i = true := by
  have hset (s : State) {off : Nat} (ho : 0x20 < off ∧ off < 0x100) (w : Word) : (s.setReg pg off w).reg pg 0x20 = s.reg pg 0x20 :=
    State.reg_setReg_ne s pg (by omega) (by omega) w
  unfold State.logErr State.setFld State.bump
  dsimp only
  split
  · rwa [hset _ (by decide), hset _ (by decide)]
  · rw [State.setIrq_stat hp, hset _ (by decide), hset _ (by decide), hset _ (by decide), hset _ (by decide), hset _ (by decide),
      BitVec.getLsbD_or, h, Bool.true_or]

end Stat

/-- The interrupt of a refused write of metadata is set in XLAT, and stays set under the capture of the error (R95). -/
theorem State.metadataWrite_stat (s : State) (code unit detail : Nat) :
    bitOf (((s.setIrq pgXlat 2).logErr pgXlat code unit detail).reg pgXlat 0x20).toNat 1 = true := by
  have hp : ∀ l, pgXlat ≠ pgHlnk l := fun l => by cases l <;> decide
  have hbits : (BitVec.ofNat 32 2 &&& BitVec.ofNat 32 (irqBits pgXlat)).getLsbD 1 = true := by decide
  have hset : (((s.setIrq pgXlat 2).logErr pgXlat code unit detail).reg pgXlat 0x20).getLsbD 1 = true :=
    State.logErr_stat hp _ code unit detail (by rw [State.setIrq_stat hp, BitVec.getLsbD_or, hbits, Bool.or_true])
  rw [BitVec.getLsbD, Nat.testBit_eq_decide_div_mod_eq] at hset
  exact hset

end Sys2Proof.Machine
end

section

open Sys2Proof Sys2Proof.Machine

/-- Settles O26, access by access: a read answers what its case says, and a write of a free chunk settles the codewords that it touches, writes
them, and finds room in its merge buffer. -/
theorem windowsReadAndWriteMemory : Obligations.WindowsReadAndWriteMemory := by
  unfold Obligations.WindowsReadAndWriteMemory
  refine ⟨?nobody, ?denied, ?refused, ?ringRead, ?free, ?metadata, ?ringWrite⟩
  case nobody =>
    intro s l tag a n hon hlink hok hfree hclean
    exact State.bulkRead_next hon hlink (State.bulkRead_nobody hok hfree hclean tag) (by simp) (by simp)
  case denied =>
    intro s l tag a n d ue hon hlink hok howner hgrant
    exact State.bulkRead_next hon hlink (State.bulkRead_denied hok howner hgrant tag ue) (by simp) (by simp)
  case refused =>
    intro s l tag a n unit ue hon hlink hbad
    exact State.bulkRead_next hon hlink (State.bulkRead_refused hbad tag ue) (by simp) (by simp)
  case ringRead =>
    intro s l tag a n ue hon hlink hok
    rw [exec_bulkRead]
    refine State.inPower_keeps hon ?_ (by simp) (by simp)
    simp only [hlink, if_true]
    exact State.ringWindowRead_ok hok tag
  case free =>
    intro s l a d hon hlink hok hrack hfree hwf
    obtain ⟨hn, hpage, hassigned⟩ := State.bulkBad_none hok
    have ha := bulkAssigned_rack hassigned hrack
    have hcount := State.hostBursts_recoded s a d.length
    have hmem : (s.hostBursts a d.length).mem = s.mem := by simp
    refine ⟨_, State.bulkWrite_next hon hlink (State.bulkWrite_free hok hrack hfree) (by simp) (by simp), fun hroom => ?_, State.eq_of_groups (by simp)⟩
    have hstill : (s.hostBursts a d.length).merging a < 63 := by rwa [State.merging_congr (s := s) (by simp)]
    obtain ⟨hin, hout⟩ := State.settled_putBytes ha hn hpage hstill (hmem ▸ hwf) (hcount.1.chunks_eq ▸ hfree) 0
    exact ⟨hin, fun b hb hb' => (hout b hb hb').trans (hcount.bulkByte hb (by rw [hmem]))⟩
  case metadata =>
    intro s l a d hon hlink hok hmeta
    exact ⟨_, State.bulkWrite_next hon hlink (State.bulkWrite_metadata hok hmeta) (by simp) (by simp), State.eq_of_groups (by simp),
      State.metadataWrite_stat ..⟩
  case ringWrite =>
    intro s l a d hon hlink hok hwf
    refine ⟨s.ringWrite a d, ?_, State.ringRead_ringWrite hwf a d, fun b hb => Mem.read_writeN_out d hb hwf, rfl⟩
    rw [exec_ringWindowWrite]
    refine State.inPower_keeps hon ?_ rfl rfl
    simp only [hlink, if_true]
    exact State.ringWindowPut_ok hok

end

section
/-!
SUPPORT. Hot frames (R263) and single-bit fields: what a push into SCRB.HOT and a read of it leave, and what a register's bit reads once it
has been set.
-/

namespace Sys2Proof.Machine

variable {s : State} {t f : Nat}

/-! ### Fields of one bit -/

/-- A one-bit field that is set, with the rest of its word as it was. -/
theorem setBits_one (w : Word) {i : Nat} (hi : i < 32) : setBits w i 1 1 = w ||| BitVec.twoPow 32 i := by
  have hpow : 2 ^ i < 2 ^ 32 := Nat.pow_lt_pow_right (by decide) hi
  rw [setBits, bitsOf_one]
  cases hb : w.getLsbD i
  · have hadd : w + BitVec.twoPow 32 i = w ||| BitVec.twoPow 32 i :=
      BitVec.add_eq_or_of_and_eq_zero _ _ (by simp [BitVec.and_twoPow, hb])
    rw [← hadd]
    refine BitVec.eq_of_toNat_eq ?_
    simp [BitVec.toNat_add, BitVec.toNat_twoPow]
  · have hle : 2 ^ i ≤ w.toNat := Nat.ge_two_pow_of_testBit hb
    have hsame : w.toNat - true.toNat * 2 ^ i + 1 % 2 ^ 1 * 2 ^ i = w.toNat := by
      rw [show true.toNat = 1 from rfl, show 1 % 2 ^ 1 = 1 from rfl]
      omega
    rw [hsame, BitVec.ofNat_toNat, BitVec.setWidth_eq]
    refine BitVec.eq_of_getLsbD_eq fun j hj => ?_
    by_cases hji : i = j
    · subst hji
      simp [hb]
    · simp [BitVec.getLsbD_twoPow, hji]

/-- The bit reads 1, and every other bit of its register as before. -/
theorem State.fld_setFld_one (s : State) (pg off : Nat) {i : Nat} (hi : i < 32) (j : Nat) :
    (s.setFld pg off i 1 1).fld pg off j 1 = if j = i then 1 else s.fld pg off j 1 := by
  rw [State.fld, State.fld, State.setFld, State.reg_setReg, setBits_one _ hi, bitsOf_one, bitsOf_one, BitVec.getLsbD_or, BitVec.getLsbD_twoPow]
  by_cases hj : j = i
  · simp [hj, hi]
  · simp [hj, Ne.symm hj]

/-! ### SCRB.HOT -/

theorem pgScrb_ne_pgHlnk (t : Nat) (l : Link) : pgScrb t ≠ pgHlnk l := by
  cases l <;> simp only [pgScrb, pgTile, pgHlnk] <;> omega

theorem State.pushHot_room (h : (AL.getD t [] s.integ.hot).length < 16) (f : Nat) : s.pushHot t f =
    (s.setIrq (pgScrb t) 1).setInteg { s.integ with hot := AL.put t (AL.getD t [] s.integ.hot ++ [f]) s.integ.hot } := by
  simp only [State.pushHot, if_neg (Nat.not_le.mpr h), State.setIrq_integ]

theorem State.pushHot_full (h : (AL.getD t [] s.integ.hot).length = 16) (f : Nat) :
    s.pushHot t f = (s.setIrq (pgScrb t) 1).setFld (pgScrb t) 0x118 31 1 1 := by
  simp only [State.pushHot, if_pos h.ge]

/-- A push reaches the queue of its own tile only. -/
theorem State.pushHot_others {u : Nat} (hu : u ≠ t) (s : State) (f : Nat) :
    AL.getD u [] (s.pushHot t f).integ.hot = AL.getD u [] s.integ.hot := by
  unfold State.pushHot
  dsimp only
  split
  · simp
  · simp [AL.getD_put_ne hu]

theorem exec_hotRead (ag : Agent) (tile tag : Nat) (s : State) :
    exec (.hotRead ag tile tag) s = s.did (onTile tile (·.hotRead ag tile tag) s) := rfl

/-- The host's read of a queue that holds a frame. -/
theorem exec_hotRead_oldest {l : Link} {tile f : Nat} {r : List Nat} (ht : tile < 24) (hr : s.mayRead (.host l) (pgScrb tile) 0x114 = true)
    (hq : AL.getD tile [] s.integ.hot = f :: r) (tag : Nat) :
    exec (.hotRead (.host l) tile tag) s = .next ((s.setInteg { s.integ with hot := AL.put tile r s.integ.hot }).hostCpl l tag true
      (leBytes 4 (packBits [(31, 1, 1), (0, 28, f)]).toNat)) := by
  rw [exec_hotRead, onTile, if_pos ht, State.hotRead, State.regRead_answered hr, hq]
  exact State.did_of_keeps (by simp [State.readAnswer]) (by simp [State.readAnswer])

end Sys2Proof.Machine
end

section

open Sys2Proof Sys2Proof.Machine

/-- Settles O8: a push is `pushHot_room` or `pushHot_full`, a read by the host `exec_hotRead_oldest`. -/
theorem hotFifoHoldsSixteen : Obligations.HotFifoHoldsSixteen := by
  unfold Obligations.HotFifoHoldsSixteen
  refine ⟨?room, ?full, fun s t u f hu => State.pushHot_others hu s f, ?read⟩
  case room =>
    intro s t f h
    have hq : AL.getD t [] (s.pushHot t f).integ.hot = AL.getD t [] s.integ.hot ++ [f] := by
      rw [State.pushHot_room h]
      exact AL.getD_put ..
    refine ⟨hq, ?_, ?_⟩
    · rw [hq, List.length_append, List.length_singleton]
      omega
    · rw [State.pushHot_room h, State.fld, State.reg_congr (State.setInteg_rf ..), State.setIrq_reg (pgScrb_ne_pgHlnk t) (by decide), State.fld]
  case full =>
    intro s t f h
    rw [State.pushHot_full h]
    exact ⟨by simp, State.fld_setFld_one _ _ _ (by decide) 31⟩
  case read =>
    intro s l tile tag f r ht hr hq
    exact ⟨_, exec_hotRead_oldest ht hr hq tag, by simp, rfl⟩

end

section
/-!
SUPPORT. Memory after cells have been removed: the bytes of a range that has been zeroed, and those outside it.
-/

namespace Sys2Proof

theorem Mem.read_absent {b : Nat} {m : Mem} (h : ∀ c ∈ m, c.1 ≠ b) : m.read b = 0 := by
  induction m with
  | nil => rfl
  | cons c t ih =>
    have hrest : Mem.read b t = 0 := ih fun d hd => h d (List.mem_cons_of_mem _ hd)
    simp [Mem.read, h c List.mem_cons_self, hrest]

/-- A byte whose cell is kept, if it has one, reads as before. -/
theorem Mem.read_filter {b : Nat} {p : Host.Cell → Bool} {m : Mem} (hp : ∀ c ∈ m, c.1 = b → p c = true) (h : m.wf = true) :
    Mem.read b (m.filter p) = m.read b := by
  induction m with
  | nil => rfl
  | cons c t ih =>
    have hrest := ih (fun d hd => hp d (List.mem_cons_of_mem _ hd)) (Mem.wf_tail h)
    cases hc : p c
    · have hne : c.1 ≠ b := fun he => by simp [hp c List.mem_cons_self he] at hc
      rw [List.filter_cons_of_neg (by simp [hc]), hrest]
      by_cases hlt : b < c.1
      · rw [Mem.read_low fun d hd => hlt.trans (Mem.wf_lt h d hd)]
        simp [Mem.read, hne, hlt]
      · simp [Mem.read, hne, hlt]
    · rw [List.filter_cons_of_pos hc]
      simp only [Mem.read, hrest]

theorem Mem.read_zero_in {a n b : Nat} (hlo : a ≤ b) (hhi : b < a + n) (m : Mem) : (m.zero a n).read b = 0 := by
  refine Mem.read_absent fun c hc => ?_
  have hkept := (List.mem_filter.mp hc).2
  simp only [Bool.or_eq_true, decide_eq_true_eq] at hkept
  omega

theorem Mem.read_zero_out {a n b : Nat} (h : b < a ∨ a + n ≤ b) {m : Mem} (hwf : m.wf = true) : (m.zero a n).read b = m.read b :=
  Mem.read_filter (fun c _ hc => by simpa [hc] using h) hwf

end Sys2Proof
end

section
/-!
SUPPORT. The test registers of the checkers (R265, R266, Tables 11-5, 11-7): FLIP_CTL and BFLIP_CTL with ARM, and MCHN.TEST, which takes a
free chunk out of the pool and gives it back rewritten.
-/

namespace Sys2Proof.Machine

variable {s : State} {ag : Agent} {pg off : Nat} {v : Word}

/-! ### The commands -/

theorem exec_flipArm (ag : Agent) (pg : Nat) (s : State) : exec (.flipArm ag pg) s =
    s.did (if hasTest pg then s.poke ag pg (flipCtl (benchTest pg)) (s.armWord pg) else s) := rfl
theorem exec_testAlloc (ag : Agent) (pg : Nat) (s : State) :
    exec (.testAlloc ag pg) s = s.did (if hasTest pg then s.poke ag pg (testReg pg) (2 ^ 16) else s) := rfl
theorem exec_testRelease (ag : Agent) (pg : Nat) (s : State) :
    exec (.testRelease ag pg) s = s.did (if hasTest pg then s.poke ag pg (testReg pg) (2 ^ 17) else s) := rfl
theorem exec_lreqRead (ag : Agent) (tag : Nat) (s : State) : exec (.lreqRead ag tag) s = s.did (s.lreqRead ag tag) := rfl

/-! ### FLIP_CTL and BFLIP_CTL -/

/-- A page of type `t` holds the flip mask's control register at `off`. -/
def flipsAt (t : PgType) (off : Nat) : Prop := t = .mchn ∧ off = 0x188 ∨ t = .scrb ∧ off = 0x164

theorem hasTest_flipsAt (h : hasTest pg = true) : ∃ t n, pageType pg = some (t, n) ∧ flipsAt t (flipCtl (benchTest pg)) := by
  unfold hasTest at h
  split at h
  · exact ⟨_, _, ‹_›, .inr ⟨rfl, by simp [benchTest, flipCtl, *]⟩⟩
  · exact ⟨_, _, ‹_›, .inl ⟨rfl, by simp [benchTest, flipCtl, *]⟩⟩
  · cases h

section Flips
variable {t : PgType} {n : Nat} (hp : pageType pg = some (t, n)) (ht : flipsAt t off)
include hp ht

theorem isLow_flips : isLow pg (off - 4) = false := by
  obtain ⟨rfl, rfl⟩ | ⟨rfl, rfl⟩ := ht <;> simp [isLow, hp, lowHalves]

theorem State.act_flips (s : State) (ag : Agent) (v : Word) :
    s.act ag pg off v = s.applyThen pg off v (fun u => if bitOf v.toNat 0 then u.flipArm pg else u) := by
  obtain ⟨rfl, rfl⟩ | ⟨rfl, rfl⟩ := ht <;> (unfold State.act; simp only [hp]; rfl)

theorem State.flipArm_eq (s : State) : s.flipArm pg = s.setFld pg off 2 1 1 := by
  obtain ⟨rfl, rfl⟩ | ⟨rfl, rfl⟩ := ht <;> simp only [State.flipArm, hp]

/-- MATCH is the one field that a write sets. -/
theorem State.applyFields_flips (s : State) (v : Word) :
    s.applyFields pg off v = some (s.setReg pg off ((s.reg pg off &&& ~~~2) ||| (v &&& 2))) := by
  have hi : s.selIdx pg off = 0 := by obtain ⟨rfl, rfl⟩ | ⟨rfl, rfl⟩ := ht <;> simp [State.selIdx, hp, selOf]
  have hq : classBits t off .rwq = 0 := by obtain ⟨rfl, rfl⟩ | ⟨rfl, rfl⟩ := ht <;> decide
  have hl : classBits t off .rwl = 2 := by obtain ⟨rfl, rfl⟩ | ⟨rfl, rfl⟩ := ht <;> decide
  have hc : classBits t off .w1c = 0 := by obtain ⟨rfl, rfl⟩ | ⟨rfl, rfl⟩ := ht <;> decide
  have hs : classBits t off .rws = 0 := by obtain ⟨rfl, rfl⟩ | ⟨rfl, rfl⟩ := ht <;> decide
  have hv : s.valueBad pg t off v = false := by obtain ⟨rfl, rfl⟩ | ⟨rfl, rfl⟩ := ht <;> rfl
  rw [State.applyFields_some hp (.inr (by simp [hq])) hv, State.writeShadow_none _ _ _ _ _ _ hs, State.writeNow, hq, hl, hc, hi]
  simp [writtenValue, hq, hl, hc, State.setReg, State.reg, -BitVec.reduceNot, -BitVec.reduceAllOnes]

/-- ARM with MATCH as it stands. -/
theorem State.act_arm (s : State) (ag : Agent) {m : Nat} (hm : m < 2) : s.act ag pg off (w32 (1 + 2 * m)) =
    (s.setReg pg off ((s.reg pg off &&& ~~~2) ||| (w32 (1 + 2 * m) &&& 2))).setFld pg off 2 1 1 := by
  have harm : bitOf (w32 (1 + 2 * m)).toNat 0 = true := by interval_cases m <;> decide
  rw [State.act_flips hp ht, State.applyThen, State.applyFields_flips hp ht, harm]
  exact State.flipArm_eq hp ht _

/-- The mask is armed, MATCH reads as it did, and no other register has changed. -/
theorem State.act_arm_outcome (s : State) (ag : Agent) :
    ∃ u, s.act ag pg off (w32 (1 + 2 * s.fld pg off 1 1)) = u ∧ u.fld pg off 2 1 = 1 ∧ u.fld pg off 1 1 = s.fld pg off 1 1 ∧
      (∀ k, k ≠ (pg, off, 0) → AL.get k u.rf.vals = AL.get k s.rf.vals) ∧ u = { s with rf := { s.rf with vals := u.rf.vals } } := by
  have hm : s.fld pg off 1 1 < 2 := s.fld_lt pg off 1
  have hkey : regKeyAt pg off 0 = (pg, off, 0) := regKeyAt_own (by obtain ⟨-, rfl⟩ | ⟨-, rfl⟩ := ht <;> decide) pg 0
  refine ⟨_, State.act_arm hp ht s ag hm, State.fld_setFld_one _ _ _ (by decide) 2, ?_, fun k hk => ?_, rfl⟩
  · rw [State.fld_setFld_one _ _ _ (by decide) 1, if_neg (by decide), State.fld, State.reg_setReg, bitsOf_one]
    generalize s.fld pg off 1 1 = m at hm
    interval_cases m <;> simp [w32]
  · rw [← hkey] at hk
    rw [State.setFld, State.setReg_vals_ne hk, State.setReg_vals_ne hk]

end Flips

/-! ### MCHN.TEST -/

theorem tilePageType_mchn {c : Nat} (hc : c < 16) : tilePageType (24 + c) = some (.mchn, c) := by
  interval_cases c <;> rfl

theorem pgMchn_tile (tile : Nat) {c : Nat} (hc : c < 16) : pgMchn (tile * 16 + c) = pgTile tile (24 + c) := by
  simp only [pgMchn, pgTile]
  omega

section Test
variable {tile c k : Nat} (ht : tile < 24) (hc : c < 16)
include ht hc

theorem pageType_mchn : pageType (pgMchn (tile * 16 + c)) = some (.mchn, c) := by
  rw [pgMchn_tile tile hc, pageType_pgTile ht (by omega), tilePageType_mchn hc]

theorem pageTile_mchn : pageTile (pgMchn (tile * 16 + c)) = some tile := by
  rw [pgMchn_tile tile hc, pageTile_pgTile ht (by omega)]

theorem State.act_mchnTest (s : State) (ag : Agent) :
    s.act ag (pgMchn (tile * 16 + c)) 0x18C (w32 (2 ^ 16)) = s.testAlloc (pgMchn (tile * 16 + c)) ∧
      s.act ag (pgMchn (tile * 16 + c)) 0x18C (w32 (2 ^ 17)) = s.testRelease (pgMchn (tile * 16 + c)) := by
  unfold State.act
  simp only [pageType_mchn ht hc]
  exact ⟨rfl, rfl⟩

/-- The command's write of MCHN.TEST, where it is allowed. -/
theorem State.poke_mchnTest (hw : s.mayWrite ag (pgMchn (tile * 16 + c)) 0x18C = true) (v : Nat) :
    (if hasTest (pgMchn (tile * 16 + c)) then s.poke ag (pgMchn (tile * 16 + c)) (testReg (pgMchn (tile * 16 + c))) v else s) =
      s.act ag (pgMchn (tile * 16 + c)) 0x18C (w32 v) := by
  have hp := pageType_mchn ht hc
  have hhas : hasTest (pgMchn (tile * 16 + c)) = true := by simp [hasTest, hp]
  have hreg : testReg (pgMchn (tile * 16 + c)) = 0x18C := by simp [testReg, benchTest, hp]
  rw [if_pos hhas, hreg, State.poke_applied hw (by simp [isLow, hp, lowHalves])]

theorem State.testAlloc_mchn (hfree : s.fld (pgMchn (tile * 16 + c)) 0x18C 31 1 = 0) (hf : s.pageFenced (pgMchn (tile * 16 + c)) = false)
    (hk : s.newChunk (tile * 16 + c) = some k) : s.testAlloc (pgMchn (tile * 16 + c)) =
      (s.putChunk (tile * 16 + c) k .test).setReg (pgMchn (tile * 16 + c)) 0x18C (BitVec.ofNat 32 (2 ^ 31 + k)) := by
  simp [State.testAlloc, pageType_mchn ht hc, pageTile_mchn ht hc, hfree, hf, hk]

end Test

theorem State.putChunk_kv (s : State) (ch k : Nat) (u : ChunkUse) :
    (s.putChunk ch k u).kv = { s.kv with chunks := AL.put (ch, k) u s.kv.chunks } := by
  unfold State.putChunk
  dsimp only
  split <;> simp

/-- A range of memory whose bytes are zero and whose codewords are as encoded (R265). -/
def State.wiped (s : State) (a n : Nat) : State := { s with
  mem := s.mem.zero a n
  kv := { s.kv with codes := s.kv.codes.filter (fun x => x.1 < a || a + n ≤ x.1) }
  integ := { s.integ with pend := s.integ.pend.filter (fun e => e.addr < a || a + n ≤ e.addr) } }

theorem State.wiped_wordOutcome (s : State) {a n b : Nat} (hlo : a ≤ b) (hhi : b < a + n) : (s.wiped a n).wordOutcome b = .clean := by
  have hnone : AL.get b (s.wiped a n).kv.codes = none :=
    (AL.get_filter (fun x => x < a || a + n ≤ x) b s.kv.codes).trans (if_neg (by simp; omega))
  simp only [State.wordOutcome, hnone]

/-- Chunk `k` of channel `ch` once it has been rewritten and is free again. -/
def State.returned (s : State) (ch k : Nat) : State := ((s.wiped (rackAddr ch (k * 65536)) 65536).zeroRack ch k).giveChunk ch k

theorem State.testRelease_mchn {tile c : Nat} (ht : tile < 24) (hc : c < 16) (hheld : s.fld (pgMchn (tile * 16 + c)) 0x18C 31 1 = 1) :
    s.testRelease (pgMchn (tile * 16 + c)) =
      (s.returned (tile * 16 + c) (s.fld (pgMchn (tile * 16 + c)) 0x18C 0 15)).setReg (pgMchn (tile * 16 + c)) 0x18C 0 := by
  simp only [State.testRelease, pageType_mchn ht hc, pageTile_mchn ht hc, hheld, Nat.one_ne_zero, if_false]
  rfl

/-- No former owner's key enciphers what a chunk that is rewritten as zero holds (R385). -/
theorem State.zeroRack_stale {ch k : Nat} {x : Stale} (h : AL.get (ch, k) (s.zeroRack ch k).kv.stale = some x) : x.live = List.range 1024 := by
  unfold State.zeroRack at h
  dsimp only at h
  split at h
  · rename_i hnone
    rw [hnone] at h
    cases h
  · rw [State.setKv_kv, AL.get_put, Option.some_inj] at h
    rw [← h]

section Returned
variable (s : State) (ch k : Nat)

/-- All that the return of a chunk changes. -/
theorem State.returned_eq : s.returned ch k = { s with
    mem := (s.mem.zero (rackAddr ch (k * 65536)) 65536).zero (rackAddr ch (k * 65536)) 65536
    kv := { s.kv with
      chunks := AL.del (ch, k) s.kv.chunks
      codes := (s.wiped (rackAddr ch (k * 65536)) 65536).kv.codes
      stale := ((s.wiped (rackAddr ch (k * 65536)) 65536).zeroRack ch k).kv.stale }
    integ := (s.wiped (rackAddr ch (k * 65536)) 65536).integ } := by
  unfold State.returned State.giveChunk State.zeroRack
  dsimp only
  split <;> rfl

theorem State.returned_read_out (hwf : s.mem.wf = true) {a : Nat} (h : a < rackAddr ch (k * 65536) ∨ rackAddr ch (k * 65536) + 65536 ≤ a) :
    (s.returned ch k).mem.read a = s.mem.read a := by
  rw [State.returned_eq, Mem.read_zero_out h (Mem.wf_zero _ _ hwf), Mem.read_zero_out h hwf]

theorem State.returned_wordOutcome {a : Nat} (hlo : rackAddr ch (k * 65536) ≤ a) (hhi : a < rackAddr ch (k * 65536) + 65536) :
    (s.returned ch k).wordOutcome a = .clean := by
  rw [State.returned_eq]
  exact s.wiped_wordOutcome hlo hhi

/-- A byte of it reads zero in the bulk window. -/
theorem State.returned_bulkBytes (hch : ch < 384) (hk : k < 32768) {a : Nat} (hlo : rackAddr ch (k * 65536) ≤ a)
    (hhi : a < rackAddr ch (k * 65536) + 65536) : (s.returned ch k).bulkBytes a 1 = [0] := by
  have hrack : a < 384 * 2 ^ 31 := by simp only [rackAddr] at hlo hhi; omega
  have hplace : placeIdx a = ch ∧ placeByte a / 64 * 64 / 65536 = k := by
    simp only [rackAddr, placeIdx, placeByte, bitsOf] at hlo hhi ⊢
    omega
  obtain ⟨hidx, hchunk⟩ := hplace
  have hfree : AL.get (placeIdx a, placeByte a / 64 * 64 / 65536) (s.returned ch k).kv.chunks = none := by
    rw [hidx, hchunk, State.returned_eq]
    exact AL.get_del ..
  have hclear : (s.returned ch k).inClear (placeIdx a) (placeByte a / 64 * 64) := by
    intro x hx
    rw [hidx, hchunk, State.returned_eq] at hx
    rw [State.zeroRack_stale hx]
    simp only [List.contains_eq_mem, List.mem_range, decide_eq_true_eq]
    omega
  rw [bulkBytes_rack (isBench_rack hrack), rackBytes_one, rackWord_free hfree, plainWord_inClear hclear,
    byteAt_readN (Nat.mod_lt _ (by decide)), rackAddr_byte hrack, State.returned_eq, Mem.read_zero_in hlo hhi]

end Returned

end Sys2Proof.Machine
end

section

open Sys2Proof Sys2Proof.Machine

/-- Settles O21, access by access: ARM is `act_arm_outcome`, the two writes of MCHN.TEST are `testAlloc_mchn` and `testRelease_mchn`, and
the reads that act are answered from the state that they leave. -/
theorem testRegistersAndActingReads : Obligations.TestRegistersAndActingReads := by
  unfold Obligations.TestRegistersAndActingReads
  refine ⟨?arm, ?alloc, ?release, ?hot, ?serial⟩
  case arm =>
    intro s ag page hhas hw
    obtain ⟨t, n, hp, ht⟩ := hasTest_flipsAt hhas
    obtain ⟨u, hact, harm, hmatch, hothers, heq⟩ := State.act_arm_outcome hp ht s ag
    rw [exec_flipArm, if_pos hhas, State.poke_applied hw (isLow_flips hp ht), State.armWord, hact]
    exact ⟨u, State.did_of_keeps (by rw [heq]) (by rw [heq]), harm, hmatch, hothers, heq⟩
  case alloc =>
    intro s ag tile c k ht hc hw hfree hf hk
    rw [exec_testAlloc, State.poke_mchnTest ht hc hw, (State.act_mchnTest ht hc s ag).1, State.testAlloc_mchn ht hc hfree hf hk]
    have hkv := s.putChunk_kv (tile * 16 + c) k .test
    refine ⟨_, State.did_of_keeps (by simp) (by simp), State.reg_setReg .., ?_, fun x hx => ?_, State.eq_of_groups (by simp [hkv])⟩
    · rw [State.setReg_kv, hkv]
      exact AL.get_put ..
    · rw [State.setReg_kv, hkv]
      exact AL.get_put_ne hx ..
  case release =>
    intro s ag tile c k ht hc hw hwf hheld hk
    have hlt : k < 32768 := hk ▸ Nat.mod_lt _ (by decide)
    rw [exec_testRelease, State.poke_mchnTest ht hc hw, (State.act_mchnTest ht hc s ag).2, State.testRelease_mchn ht hc hheld, hk]
    have heq := s.returned_eq (tile * 16 + c) k
    refine ⟨_, State.did_of_keeps (by rw [heq]; rfl) (by rw [heq]; rfl), State.reg_setReg .., by rw [heq]; rfl, fun a hlo hhi => ⟨?_, ?_⟩,
      fun a ha => ?_, by rw [heq]; rfl⟩
    · exact s.returned_bulkBytes _ _ (by omega) hlt hlo hhi
    · exact s.returned_wordOutcome _ _ hlo hhi
    · exact s.returned_read_out _ _ hwf ha
  case hot =>
    intro s l tile tag f r ht hr hq
    refine ⟨_, exec_hotRead_oldest ht hr hq tag, by simp, fun x hx => ?_, rfl⟩
    rw [State.hostCpl_integ]
    exact AL.getD_put_ne hx ..
  case serial =>
    intro s l tag hr
    rw [exec_lreqRead, State.lreqRead, State.regRead_answered hr]
    exact ⟨_, State.did_of_keeps (by simp [State.leaseReq, State.readAnswer]) (by simp [State.leaseReq, State.readAnswer]),
      by simp [State.leaseReq, State.readAnswer], by simp [State.leaseReq, State.readAnswer],
      by simp [State.leaseReq, State.readAnswer, State.setLease]⟩

end

section
/-!
SUPPORT. A scrub read of a tile that the node does not have changes nothing (R267, Log 22).
-/

namespace Sys2Proof.Machine

theorem exec_scrubRead (tile : Nat) (x : ScrubTarget) (o : ScrubOutcome) (s : State) :
    exec (.scrubRead tile x o) s = s.inService (onTile tile (·.scrub tile x o)) := rfl

theorem exec_scrubRead_noTile {tile : Nat} (h : 24 ≤ tile) (x : ScrubTarget) (o : ScrubOutcome) (s : State) :
    exec (.scrubRead tile x o) s = .next s := by
  have hkept : ∀ u : State, onTile tile (·.scrub tile x o) u = u := fun u => if_neg (Nat.not_lt.mpr h)
  rw [exec_scrubRead, State.inService, hkept, ite_self]
  exact State.did_of_keeps rfl rfl

/-! ### The counterexample -/

/-- An ACTIVE node whose register file lists, beyond its 24 tiles, SCRB.CTL of a tile 24 with the scrub of Rack enabled. -/
def strayScrub : State := { State.reset with
  pw := { PowerState.blank with st := .active }
  rf := { RegFile.blank with vals := [((pgScrb 24, 0x100, 0), 1)] } }

end Sys2Proof.Machine
end

section

open Sys2Proof Sys2Proof.Machine

/-- Refutes O35 in its clause on a clean scrub read, which puts no bound on the tile: the node has no tile 24, so the read of a codeword of
channel 384 notes no place (Log 22), also where the register file says that its scrub unit runs. -/
theorem not_codewordsAreWrittenAndScrubbed : ¬ Obligations.CodewordsAreWrittenAndScrubbed := by
  intro h
  obtain ⟨-, -, -, -, -, hclean, -⟩ := h
  have he := hclean strayScrub 24 384 0 [] (by decide) (by decide) (by decide) rfl List.not_mem_nil
  rw [exec_scrubRead_noTile (Nat.le_refl 24)] at he
  injection he with he
  have hseen : strayScrub.integ.seen = AL.put (24, 0) [wordBase (rackAddr 384 0)] strayScrub.integ.seen :=
    congrArg (fun t : State => t.integ.seen) he
  exact absurd hseen (by decide)

end

section
/-!
SUPPORT. A write-back whose place in Rack, as the page record names it, is the Bench line that it copies: Rack's codewords are written first
(R255), and with them goes the marker that the write-back should have met (R260, Table 11-3).
-/

namespace Sys2Proof.Machine

theorem exec_writebackComplete (tile set way : Nat) (s : State) : exec (.writebackComplete tile set way) s =
    s.inService (onTile tile (fun s => (s.writebackDone tile set way).lookAll)) := rfl

/-- What a write-back that ends in an idle node leaves in the KV store. -/
theorem State.writebackComplete_idle {s t : State} {tile set way : Nat} (hrun : s.running = true) (ht : tile < 24)
    (hc : (s.writebackDone tile set way).cmds.list = []) (hj : (s.writebackDone tile set way).eng.jobs = [])
    (he : exec (.writebackComplete tile set way) s = .next t) : t.kv = (s.writebackDone tile set way).kv := by
  rw [exec_writebackComplete, State.inService_on hrun, onTile, if_pos ht, State.lookAll_idle hc hj] at he
  cases he
  rfl

/-! ### The counterexample -/

/-- A SEALED page with SHARE 1 whose LOC, past the end of its channel, is the place of the payload in line 0 of tile 0's Bench. -/
def strayPage : Page := { Page.blank with st := .sealed, share := 1, loc := 2 ^ 32 + 1 }

/-- That line, which holds the page, with its first quarter being written back. -/
def strayLine : Line := { newLine 0 0 0 0 0 .copy 0 0 with dirty := 1, wb := some (1, false) }

/-- An ACTIVE node that writes the page back, under its pin; the first codeword of the payload is the poison marker. -/
def strayCopy : State := { State.reset with
  pw := { PowerState.blank with st := .active }
  kv := { KvState.blank with
    frames := [(0, ⟨0, strayPage, strayPage, none, 1, 0, 0, 0⟩)]
    lines := [strayLine]
    codes := [(2 ^ 44 + 4096, .poison)] } }

/-- The write-back leaves no codeword that is not as encoded. -/
theorem strayCopy_codes : (strayCopy.writebackDone 0 0 0).kv.codes = [] := by decide

end Sys2Proof.Machine
end

section

open Sys2Proof Sys2Proof.Machine

/-- Refutes O36 in its clause on a write-back of lost content. The clause speaks of every state, also of one where LOC of the page lies
outside its channel; there the copy overwrites the lost codeword before it is looked for, and no codeword is poisoned. -/
theorem not_lostContentIsContained : ¬ Obligations.LostContentIsContained := by
  intro h
  obtain ⟨-, -, -, -, -, hback, -⟩ := h
  obtain ⟨u, y, he, hpoison, -, -, -, hu⟩ := hback strayCopy 0 0 0 0 0 1 strayLine _ (by decide) (by decide) rfl rfl (by decide) (by decide)
    (by decide) (by decide) rfl rfl rfl (.inr rfl) rfl (by decide) (by decide)
  have hidle : u.lookAll = u :=
    State.lookAll_idle (by rw [congrArg State.cmds hu]; rfl) (by rw [congrArg State.eng hu]; rfl)
  have hkv := State.writebackComplete_idle (by decide) (by decide) (by decide) (by decide) he
  rw [hidle] at hkv
  have hcodes : u.kv.codes = [] := (congrArg KvState.codes hkv).trans strayCopy_codes
  rw [State.wordOutcome_nil u hcodes] at hpoison
  cases hpoison

end

section
/-!
SUPPORT. A mailbox request (R435 to R438): the state in which a core runs the request that it hears, and what the answer to it, or its
being kept, leaves of the state.
-/

namespace Sys2Proof.Machine

variable {s v : State} {m : MReq} {x : Msg}

/-! ### A core hears a request -/

theorem State.takes_of_hears (h : s.hears m x = true) :
    s.message m x = (s.setCore m.core { s.core m.core with busy := true }).takeMsg ⟨m, x, false, 0, 0⟩ := by
  simp only [State.hears, Bool.and_eq_true, Bool.or_eq_true, Bool.not_eq_true', beq_iff_eq, decide_eq_true_eq] at h
  obtain ⟨⟨⟨⟨⟨⟨⟨⟨⟨hon, hlink⟩, hopen⟩, hcore⟩, hidle⟩, hunit⟩, hfree⟩, hup⟩, hok⟩, -⟩ := h
  have hsession : ¬ (m.core ≠ 0 ∧ (!(s.link m.link).sessionOpen) = true) := by
    rintro ⟨hne, hshut⟩
    rw [hopen.resolve_left hne] at hshut
    cases hshut
  have hrest : ¬ (6 < m.core ∨ (s.core m.core).busy ∨ s.heldByOther (.host m.link) pgMbox ∨ !s.unitAdmits pgMbox) := by
    simp [hidle, hfree, hunit, hcore]
  unfold State.message
  rw [if_neg (by simp [hon, hlink]), if_neg hsession, if_neg hrest]
  generalize hr : ({ s.core m.core with busy := true } : CoreRec) = r
  have hbusy : (s.setCore m.core r).core m.core = r := AL.getD_put ..
  have hok' : (s.setCore m.core r).msgRefusal m x = none := by
    rw [← hok]
    unfold State.msgRefusal
    rw [hbusy, ← hr]
    rfl
  have hup' : ¬ (!((s.setCore m.core r).core m.core).up) = true := by rw [hbusy, ← hr]; simp [hup]
  dsimp only
  rw [if_neg hup', hok']

theorem State.hears_core (h : s.hears m x = true) : m.core ≤ 6 := by
  simp only [State.hears, Bool.and_eq_true, decide_eq_true_eq] at h
  obtain ⟨⟨⟨⟨⟨⟨⟨-, hcore⟩, -⟩, -⟩, -⟩, -⟩, -⟩, -⟩ := h
  exact hcore

theorem State.hears_wf (h : s.hears m x = true) : s.mem.wf = true := by
  simp only [State.hears, Bool.and_eq_true] at h
  exact h.2

/-- A trace point leaves the state, takes a free value, or writes an entry (R441). -/
theorem State.passTrace_cases (s : State) (c : Nat) :
    s.passTrace c = s ∨ s.passTrace c = s.nextFresh ∨ ∃ p, s.passTrace c = s.logLine c 3 p := by
  unfold State.passTrace
  dsimp only
  split
  · exact .inl rfl
  · split
    · exact .inr (.inr ⟨_, rfl⟩)
    · exact .inr (.inl rfl)

theorem State.logLine_fw (s : State) (c level event : Nat) :
    (s.logLine c level event).fw = (s.setCore c { s.core c with logged := (s.core c).logged + 1 }).fw := by
  simp [State.logLine, State.core]

theorem State.logLine_wf (h : s.mem.wf = true) (c level event : Nat) : (s.logLine c level event).mem.wf = true := by
  simp [State.logLine, Mem.wf_writeN _ _ h]

/-- A core record that is put is there, and the others are as they were. -/
theorem State.core_setCore (s : State) (c : Nat) (r : CoreRec) : (s.setCore c r).core c = r := AL.getD_put ..
theorem State.core_setCore_ne {c d : Nat} (h : d ≠ c) (s : State) (r : CoreRec) : (s.setCore c r).core d = s.core d := AL.getD_put_ne h ..

/-- A trace point that a core passes leaves it as busy as it was, and every core up that was. -/
theorem State.passTrace_core (s : State) (c : Nat) :
    ((s.passTrace c).core c).busy = (s.core c).busy ∧ ∀ d, ((s.passTrace c).core d).up = (s.core d).up := by
  obtain he | he | ⟨p, he⟩ := s.passTrace_cases c
  · rw [he]
    exact ⟨rfl, fun _ => rfl⟩
  · rw [he]
    exact ⟨rfl, fun _ => rfl⟩
  · have hcore (d : Nat) : (s.passTrace c).core d = (s.setCore c { s.core c with logged := (s.core c).logged + 1 }).core d := by
      rw [he, State.core, State.logLine_fw]
      rfl
    refine ⟨by rw [hcore, State.core_setCore], fun d => ?_⟩
    rw [hcore]
    obtain rfl | hne := eq_or_ne d c
    · rw [State.core_setCore]
    · rw [State.core_setCore_ne hne]

/-- Of the firmware, hearing a request changes the core records alone; beside it, the log and the free values (R441). -/
theorem State.heard_eq (s : State) (m : MReq) : s.heard m =
    { s with fresh := (s.heard m).fresh, mem := (s.heard m).mem, fw := { s.fw with cores := (s.heard m).fw.cores } } := by
  refine State.eq_of_groups ?_
  simp only [State.heard, State.passTrace_frame, State.setCore_pending, State.setCore_nrt, State.setCore_rf, State.setCore_host,
    State.setCore_cmds, State.setCore_net, State.setCore_egress, State.setCore_kv, State.setCore_eng, State.setCore_lease,
    State.setCore_sec, State.setCore_integ, State.setCore_ckpt, State.setCore_pw, and_true, true_and]
  obtain he | he | ⟨p, he⟩ := (s.setCore m.core { s.core m.core with busy := true }).passTrace_cases m.core
  · rw [he]
    rfl
  · rw [he]
    rfl
  · rw [he, State.logLine_fw]
    rfl

theorem State.heard_wf (h : s.mem.wf = true) (m : MReq) : (s.heard m).mem.wf = true := by
  unfold State.heard
  obtain he | he | ⟨p, he⟩ := (s.setCore m.core { s.core m.core with busy := true }).passTrace_cases m.core
  · rwa [he, State.setCore_mem]
  · rwa [he, State.nextFresh_mem, State.setCore_mem]
  · rw [he]
    exact State.logLine_wf (by rwa [State.setCore_mem]) ..

/-- The core that hears a request is busy with it; the cores that are up stay up. -/
theorem State.heard_busy (s : State) (m : MReq) : ((s.heard m).core m.core).busy = true := by
  rw [State.heard, (State.passTrace_core _ _).1, State.core_setCore]

theorem State.heard_up (s : State) (m : MReq) (c : Nat) : ((s.heard m).core c).up = (s.core c).up := by
  rw [State.heard, (State.passTrace_core _ _).2]
  obtain rfl | hne := eq_or_ne c m.core
  · rw [State.core_setCore]
  · rw [State.core_setCore_ne hne]

/-! ### The answer -/

theorem State.mbxAnswer_eq (s : State) (m : MReq) (typ status detail : Nat) (body : List Byte) :
    s.mbxAnswer m typ status detail body =
      { s with mem := (s.mbxAnswer m typ status detail body).mem, rf := (s.mbxAnswer m typ status detail body).rf
               host := (s.mbxAnswer m typ status detail body).host
               fw := { s.fw with cores := (s.mbxAnswer m typ status detail body).fw.cores } } :=
  State.eq_of_groups (by simp [State.mbxAnswer])

theorem State.mbxAnswer_answered (hwf : s.mem.wf = true) (hc : m.core ≤ 6) (typ status detail : Nat) (body : List Byte) :
    (s.mbxAnswer m typ status detail body).answered m typ status detail body := by
  have hp : ∀ l, pgMbox ≠ pgHlnk l := fun l => by cases l <;> decide
  have hbits : ∀ c, c ≤ 6 → (BitVec.ofNat 32 (2 ^ c) &&& BitVec.ofNat 32 (irqBits pgMbox)).getLsbD c = true := by decide
  have hcore : (s.mbxAnswer m typ status detail body).core m.core = { s.core m.core with busy := false, respSeq := m.seq } := by
    simp only [State.mbxAnswer, State.core, State.setIrq_fw, State.setCore_fw, AL.getD_put]
  have hset : ((s.mbxAnswer m typ status detail body).reg pgMbox 0x20).getLsbD m.core = true := by
    rw [State.mbxAnswer, State.setIrq_stat hp, BitVec.getLsbD_or, hbits _ hc, Bool.or_true]
  have hbuffer : (s.mbxAnswer m typ status detail body).respBuffer m.core = s.respBuffer m.core := by
    simp only [State.mbxAnswer, State.respBuffer, State.logBase, State.logTile, State.tileFenced, State.pageFenced, State.setIrq_fenced]
    rfl
  refine ⟨by rw [hcore], by rw [hcore], ?_, ?_⟩
  · rw [BitVec.getLsbD, Nat.testBit_eq_decide_div_mod_eq] at hset
    exact hset
  · rw [hbuffer]
    generalize hb : leBytes 2 typ ++ leBytes 1 m.minor ++ leBytes 1 m.major ++ leBytes 4 (16 + body.length) ++ leBytes 4 m.seq.toNat ++
      leBytes 1 status ++ leBytes 1 detail ++ leBytes 2 0 ++ body = b
    have hlen : 16 + body.length = b.length := by simp [← hb, leBytes]; omega
    have hmem : (s.mbxAnswer m typ status detail body).mem = s.mem.writeN (s.respBuffer m.core) b := by
      simp only [State.mbxAnswer, State.setIrq_mem, State.setCore_mem, hb]
    rw [hlen, hmem]
    exact Mem.readN_writeN _ _ hwf

/-! ### The outcome of a request -/

/-- A request that is heard, and that its run answers in `v`. -/
theorem State.hears_answered {status detail : Nat} {body : List Byte} (h : s.hears m x = true)
    (hrun : (s.heard m).runMsg m x false 0 = .answer v status detail body) (hmem : v.mem = (s.heard m).mem)
    (hp : v.pending = (s.heard m).pending) (hn : v.nrt = (s.heard m).nrt) :
    ∃ t, s.did (s.message m x) = .next t ∧ t.answered m (msgType x) status detail body ∧
      t = { v with mem := t.mem, rf := t.rf, host := t.host, fw := { v.fw with cores := t.fw.cores } } := by
  have htakes : s.message m x = v.mbxAnswer m (msgType x) status detail body := by
    rw [State.takes_of_hears h, State.takeMsg]
    change (match (s.heard m).runMsg m x false 0 with | .answer s st dt b => _ | .hold s n => _) = _
    rw [hrun]
  have hwf : v.mem.wf = true := hmem ▸ State.heard_wf (State.hears_wf h) m
  rw [State.heard_eq] at hp hn
  rw [htakes]
  exact ⟨_, State.did_of_keeps (by simp [hp]) (by simp [hn]), State.mbxAnswer_answered hwf (State.hears_core h) .., State.mbxAnswer_eq ..⟩

/-- A request that is heard, and that its run keeps in `v`: it is among the waiting ones, with 200 µs to its bound (R290). -/
theorem State.hears_kept {n : Nat} (h : s.hears m x = true) (hrun : (s.heard m).runMsg m x false 0 = .hold v n)
    (hp : v.pending = (s.heard m).pending) (hn : v.nrt = (s.heard m).nrt) :
    s.did (s.message m x) = .next (v.setFw { v.fw with held := v.fw.held ++ [⟨m, x, true, n, s.nrt + 20000⟩] }) := by
  rw [State.heard_eq] at hp hn
  have htakes : s.message m x = v.setFw { v.fw with held := v.fw.held ++ [⟨m, x, true, n, s.nrt + 20000⟩] } := by
    rw [State.takes_of_hears h, State.takeMsg]
    change (match (s.heard m).runMsg m x false 0 with | .answer s st dt b => _ | .hold s n => _) = _
    rw [hrun, ← hn]
    rfl
  rw [htakes]
  exact State.did_of_keeps hp hn

end Sys2Proof.Machine
end

section
/-!
SUPPORT. What the messages on images, contexts and the evacuation come to (R274 to R277, R445 to R449, R453): the state that the run of each
leaves, and its answer.
-/

namespace Sys2Proof.Machine

variable {s : State} {k i : Nat}

/-! ### Images (R446 to R449) -/

/-- The record of an image kind with image `i` staged in the slot that is not active (R446). -/
def stagedKind (x : ImgKind) (i : ImageInfo) : ImgKind :=
  { x with slots := AL.put (1 - x.active) (i.version, i.arb) x.slots, staged := true }

/-- The record of an image kind whose other slot has become the active one (Table 18-7 step 2). -/
def switchedKind (x : ImgKind) : ImgKind := { x with active := 1 - x.active, staged := false }

theorem State.kind_setKind (s : State) (k : Nat) (x : ImgKind) : (s.setKind k x).kind k = x := AL.getD_put ..

theorem State.fwStage_stages {info : ImageInfo} (hk : k ≤ 3) (hact : s.fw.activation = none) (hok : info.ok = true)
    (harb : (s.kind k).fuse ≤ info.arb) :
    s.fwStage k info = .answer (s.setKind k (stagedKind (s.kind k) info)) stOk 0 (leBytes 4 info.version ++ leBytes 4 info.arb) := by
  have hgood : ¬ (!info.ok || decide (info.arb < (s.kind k).fuse)) = true := by simp [hok, harb]
  rw [State.fwStage, if_neg (Nat.not_lt.mpr hk), hact]
  exact if_neg hgood

theorem State.fwActivate_starts (m : MReq) (hk : k ≤ 3) (hact : s.fw.activation = none) (hev : s.fw.evac = none)
    (hstaged : (s.kind k).staged = true) (hslot : slotOk (s.kind k) (1 - (s.kind k).active) = true) (hrun : s.running = true)
    (hcalm : s.emergency = false) : s.fwActivate m k = .hold (s.activate k (some m)) 0 := by
  have hst : s.pw.st ≠ .unleavened := by
    intro hst
    rw [State.running, hst] at hrun
    cases hrun
  rw [State.fwActivate, if_neg (Nat.not_lt.mpr hk), hact, hev]
  simp only [Option.isSome_none, Bool.or_self, Bool.false_eq_true, if_false, hstaged, hslot, Bool.and_self, Bool.not_true, hst, hcalm]

/-- What the engines hold beside their credit accounts. -/
def State.engLessCredits (s : State) : EngState := { s.eng with credits := [] }

theorem State.syncNode_engLessCredits (s : State) : s.syncNode.engLessCredits = s.engLessCredits := by
  have hone (s : State) (t e : Nat) : (s.syncCredit t e).engLessCredits = s.engLessCredits := by
    rw [State.engLessCredits, State.syncCredit_eq]
    rfl
  have htile (s : State) (t : Nat) : (s.syncTile t).engLessCredits = s.engLessCredits := by
    unfold State.syncTile
    exact State.foldl_keeps State.engLessCredits _ (fun u e => hone u t e) _ s
  unfold State.syncNode
  exact State.foldl_keeps State.engLessCredits _ htile _ s

/-- The credit accounts of the engines are all that the change of the clock, at the fall of PMC, touches of the engines (R278, Table 18-9). -/
theorem State.syncClamp_eng (s : State) (c : Nat) : (s.syncClamp c).eng = { s.eng with credits := (s.syncClamp c).eng.credits } := by
  unfold State.syncClamp
  split
  · have hnode := s.syncNode_engLessCredits
    generalize s.syncNode = u at hnode
    exact congrArg (fun e : EngState => { e with credits := u.eng.credits }) hnode
  · rfl

/-- The record of a core that has stopped (Table 18-7 step 3). -/
def State.stoppedCore (s : State) (c : Nat) : CoreRec := { s.core c with up := false, downAt := s.nrt }

/-- A core that is up stops: UP falls, and beside it only registers, host links and credit accounts change. -/
theorem State.coreDown_fw {c : Nat} (h : (s.core c).up = true) : (s.coreDown c).fw = (s.setCore c (s.stoppedCore c)).fw := by
  simp [State.coreDown, h, State.stoppedCore]

theorem State.coreDown_eq {c : Nat} (h : (s.core c).up = true) :
    s.coreDown c = { s with rf := (s.coreDown c).rf, host := (s.coreDown c).host
                            eng := { s.eng with credits := (s.coreDown c).eng.credits }, fw := (s.coreDown c).fw } := by
  have heng : (s.coreDown c).eng = (s.syncClamp c).eng := by
    simp [State.coreDown, h]
  refine State.eq_of_groups ?_
  simp only [State.coreDown_frame, true_and, and_true]
  rw [heng]
  exact s.syncClamp_eng c

theorem headD_coresOf (k : Nat) : (coresOf k).headD 0 = k := by
  unfold coresOf
  split
  · next h => exact h.symm
  · rfl

section Activate
variable (r : Option MReq) (h : (s.core k).up = true)
include h

/-- Steps 2 and 3 of an activation: the kind's slots change places, and its first core stops. -/
theorem State.activate_fw : (s.activate k r).fw = { s.fw with
    cores := AL.put k (s.stoppedCore k) s.fw.cores, kinds := AL.put k (switchedKind (s.kind k)) s.fw.kinds
    activation := some ⟨k, r, coresOf k, (s.kind k).active, s.nrt⟩ } := by
  unfold State.activate
  rw [headD_coresOf]
  exact State.coreDown_fw h

theorem State.activate_eq : s.activate k r =
    { s with rf := (s.activate k r).rf, host := (s.activate k r).host
             eng := { s.eng with credits := (s.activate k r).eng.credits }, fw := (s.activate k r).fw } := by
  unfold State.activate
  rw [headD_coresOf]
  exact State.coreDown_eq h

theorem State.activate_kind : (s.activate k r).kind k = switchedKind (s.kind k) := by
  rw [State.kind, State.activate_fw r h]
  exact AL.getD_put ..

theorem State.activate_core : (s.activate k r).core k = s.stoppedCore k := by
  rw [State.core, State.activate_fw r h]
  exact AL.getD_put ..

end Activate

/-! ### Evacuation (R453) -/

theorem State.evacuate_begins {d : EvacD} (m : MReq) (hmode : d.mode ≤ 1) (hst : s.lease.st = .leased) (hev : s.fw.evac = none) :
    s.evacuate m d = .hold (s.setFw { s.fw with evac := some ⟨m, d, s.seqOrder, none, 0, 0, []⟩ }) 0 := by
  simp [State.evacuate, hmode, hst, hev]

/-! ### Contexts (R274 to R277) -/

theorem State.ctxCreate_makes {c : Ctx} (hok : ctxFieldsOk i c = true) (hnew : AL.get i s.cmds.ctxs = none)
    (hdom : s.domActive c.domain = true) : s.ctxCreate i c = .answer (s.putCtx i c) stOk 0 [] := by
  simp [State.ctxCreate, hok, AL.has, hnew, hdom, done]

theorem State.ctxModify_changes {c old : Ctx} (hok : ctxFieldsOk i c = true) (hold : AL.get i s.cmds.ctxs = some old)
    (hdom : c.domain = old.domain) : s.ctxModify i c = .answer (s.putCtx i c) stOk 0 [] := by
  simp [State.ctxModify, hok, hold, hdom, done]

/-- A context message whose run puts entry `i` and answers. -/
theorem State.hears_putCtx {m : MReq} {x : Msg} {c : Ctx} (h : s.hears m x = true)
    (hrun : (s.heard m).runMsg m x false 0 = .answer ((s.heard m).putCtx i c) stOk 0 []) :
    ∃ t, s.did (s.message m x) = .next t ∧ AL.get i t.cmds.ctxs = some c ∧ (∀ k, k ≠ i → AL.get k t.cmds.ctxs = AL.get k s.cmds.ctxs) ∧
      t.answered m (msgType x) stOk 0 [] ∧
      t = { s with
        fresh := t.fresh, mem := t.mem, rf := t.rf, host := t.host, cmds := { s.cmds with ctxs := t.cmds.ctxs }
        fw := { s.fw with cores := t.fw.cores } } := by
  obtain ⟨t, hexec, hans, ht⟩ := State.hears_answered h hrun rfl rfl rfl
  rw [s.heard_eq m] at ht
  have hctxs : t.cmds.ctxs = AL.put i c s.cmds.ctxs := by rw [ht]; rfl
  refine ⟨t, hexec, ?_, fun k hk => ?_, hans, ?_⟩
  · rw [hctxs, AL.get_put]
  · rw [hctxs, AL.get_put_ne hk]
  · rw [ht]
    rfl

/-- A context that no command uses goes at once, and no command is counted. -/
theorem State.ctxDestroy_drops {c : Ctx} (hc : AL.get i s.cmds.ctxs = some c) (hidle : ∀ x ∈ s.cmds.list, x.hdr.context ≠ i) :
    s.ctxDestroy i false 0 = .answer (s.dropCtx i) stOk 0 (leBytes 4 0) := by
  have hnone (p : Cmd → Bool) : s.cmds.list.filter (fun x => x.hdr.context == i && p x) = [] :=
    List.filter_eq_nil_iff.mpr fun x hx => by simp [hidle x hx]
  have hany : s.cmds.list.any (fun x => x.hdr.context == i) = false := by simpa using hidle
  unfold State.ctxDestroy
  rw [hc]
  dsimp only
  simp only [hnone, List.foldl_nil, hany, Bool.false_eq_true, if_false, List.length_nil]

/-- Of the commands' tables, a context that goes takes its own entry alone. -/
theorem State.dropCtx_cmds (s : State) (i : Nat) : (s.dropCtx i).cmds = { s.cmds with ctxs := AL.del i s.cmds.ctxs } := by
  have hfrags (l : List (Nat × Frag)) (s : State) :
      (l.foldl (fun (s : State) p => ((s.unpinPages p.2).removeFrag p.2).settleOver p.2.cmd) s).cmds = s.cmds :=
    State.foldl_cmds _ (fun s p => by simp) l s
  have hgrads (l : List ((Nat × Nat × Nat) × GradPage)) (s : State) : (l.foldl (fun (s : State) g => s.dropGrad g.1) s).cmds = s.cmds :=
    State.foldl_cmds _ (fun s g => by simp) l s
  simp only [State.dropCtx, State.setEng_cmds, hgrads, hfrags]

theorem State.dropCtx_eq (s : State) (i : Nat) : s.dropCtx i =
    { s with rf := (s.dropCtx i).rf, host := (s.dropCtx i).host, cmds := { s.cmds with ctxs := AL.del i s.cmds.ctxs }
             kv := (s.dropCtx i).kv, eng := (s.dropCtx i).eng } :=
  State.eq_of_groups (by simp [State.dropCtx_cmds])

end Sys2Proof.Machine
end

section

open Sys2Proof Sys2Proof.Machine

/-- Settles O29, message by message: a message that is heard runs in the state `heard`, what its run comes to is the lemma of its own, and
the answer, or its being kept, adds what `hears_answered` and `hears_kept` say. -/
theorem imagesContextsAndEvacuation : Obligations.ImagesContextsAndEvacuation := by
  unfold Obligations.ImagesContextsAndEvacuation
  refine ⟨?stage, ?activate, ?evacuate, ?create, ?modify, ?destroy⟩
  case stage =>
    intro s m k a n i h hk hact hok harb
    have hheard := s.heard_eq m
    have hkind : (s.heard m).kind k = s.kind k := by rw [hheard]; rfl
    have hrun := State.fwStage_stages (s := s.heard m) hk (by rw [hheard]; exact hact) hok (hkind ▸ harb)
    obtain ⟨t, hexec, hans, ht⟩ := State.hears_answered h hrun rfl rfl rfl
    have ht' : t.kind k = stagedKind (s.kind k) i := by
      rw [ht, ← hkind]
      exact State.kind_setKind ..
    refine ⟨t, hexec, by rw [ht']; rfl, by rw [ht']; rfl, ?_, hans, ?_⟩
    · rw [ht']
      exact AL.get_put ..
    · rw [ht, hheard]
      rfl
  case activate =>
    intro s m k h hk hact hev hstaged hslot hon hcalm hup
    have hheard := s.heard_eq m
    have hkind : (s.heard m).kind k = s.kind k := by rw [hheard]; rfl
    have hrun := State.fwActivate_starts (s := s.heard m) m hk (by rw [hheard]; exact hact) (by rw [hheard]; exact hev) (hkind ▸ hstaged)
      (hkind ▸ hslot) (by rw [hheard]; exact hon) (by rw [hheard]; exact hcalm)
    have hup' : ((s.heard m).core k).up = true := (s.heard_up m k).trans hup
    have hnrt : (s.heard m).nrt = s.nrt := by rw [hheard]
    have hactive := State.activate_kind (some m) hup'
    have hcore := State.activate_core (some m) hup'
    have hfw := State.activate_fw (some m) hup'
    have hframe := State.activate_eq (some m) hup'
    rw [hkind] at hactive hfw
    rw [hnrt] at hfw
    refine ⟨_, State.hears_kept h hrun (by simp) (by simp), ?_⟩
    generalize (s.heard m).activate k (some m) = v at hactive hcore hfw hframe
    refine ⟨congrArg ImgKind.active hactive, congrArg ImgKind.staged hactive, congrArg FwState.activation hfw, congrArg CoreRec.up hcore,
      (congrArg CoreRec.downAt hcore).trans hnrt, ?_, ?_⟩
    · rw [State.setFw_fw, hfw, hheard]
    · rw [hframe, hheard]
      rfl
  case evacuate =>
    intro s m d h hmode hst hev
    have hheard := s.heard_eq m
    have hrun := State.evacuate_begins (s := s.heard m) m hmode (by rw [hheard]; exact hst) (by rw [hheard]; exact hev)
    have hbusy := s.heard_busy m
    refine ⟨_, State.hears_kept h hrun rfl rfl, ?_⟩
    generalize s.heard m = u at hheard hbusy
    refine ⟨?_, ?_, hbusy, ?_⟩
    · rw [hheard]
      rfl
    · rw [hheard]
      rfl
    · rw [hheard]
      rfl
  case create =>
    intro s m i c h hok hnew hdom
    have hheard := s.heard_eq m
    exact State.hears_putCtx h (State.ctxCreate_makes hok (by rw [hheard]; exact hnew) (by rw [hheard]; exact hdom))
  case modify =>
    intro s m i c old h hok hold hdom
    have hheard := s.heard_eq m
    exact State.hears_putCtx h (State.ctxModify_changes hok (by rw [hheard]; exact hold) hdom)
  case destroy =>
    intro s m i c h hc hidle
    have hheard := s.heard_eq m
    have hcmds : (s.heard m).cmds = s.cmds := by rw [hheard]
    have hrun := State.ctxDestroy_drops (s := s.heard m) (hcmds ▸ hc) (hcmds ▸ hidle)
    obtain ⟨t, hexec, hans, ht⟩ := State.hears_answered h hrun (by simp) (by simp) (by simp)
    rw [State.dropCtx_eq, hheard] at ht
    have hctxs : t.cmds.ctxs = AL.del i s.cmds.ctxs := by rw [ht]
    refine ⟨t, hexec, ?_, fun k hk => ?_, hans, ?_⟩
    · rw [hctxs, AL.get_del]
    · rw [hctxs, AL.get_del_ne hk]
    · rw [ht]

end

section
/-!
SUPPORT. The queue of commands and the state after reset: what every step does to the queue, and the obligations on both.
-/

namespace Sys2Proof.Machine

variable {s : State}

/-- Every step ends in a next state whose queue lacks the command at the front (Log 1). -/
theorem step_next (s : State) : ∃ t, step s = .next t ∧ t.pending = s.pending.tail := by
  cases hq : s.pending with
  | nil => exact ⟨s.tick, step_nil hq, by rw [State.tick_pending, hq, List.tail_nil]⟩
  | cons c rest =>
    obtain ⟨t, ht, hp⟩ := exec_next c { s with pending := rest }
    exact ⟨t, by rw [step_cons hq, ht], hp⟩

theorem run_succ {t : State} (h : step s = .next t) (n : Nat) : core.run (n + 1) s = core.run n t := by
  have hstep : core.step s = .next t := h
  simp only [Host.Core.run, hstep]

end Sys2Proof.Machine

open Sys2Proof Sys2Proof.Machine

/-- Settles O1: `step` takes the front command by definition. -/
theorem aStepRunsTheFrontCommand : Obligations.AStepRunsTheFrontCommand := by
  intro c rest s hq
  exact step_cons hq

/-- Settles O3, by induction on the number of steps: each one takes the command at the front. -/
theorem theQueueDrainsInOrder : Obligations.TheQueueDrainsInOrder := by
  intro n
  induction n with
  | zero => exact fun s => ⟨s, rfl, rfl⟩
  | succ n ih =>
    intro s
    obtain ⟨u, hu, hup⟩ := step_next s
    obtain ⟨t, ht, htp⟩ := ih u
    exact ⟨t, (run_succ hu n).trans ht, by rw [htp, hup, List.drop_tail]⟩

/-- Settles O6: the state after reset is a constant of the model. -/
theorem resetStartsEmpty : Obligations.ResetStartsEmpty := by
  refine ⟨rfl, rfl, Mem.wf_reset, rfl, rfl, rfl, rfl, rfl, rfl, rfl, fun _ => rfl⟩

end

section
/-!
SUPPORT. Egress (R301, R362 to R371): registers that other registers' writes leave alone, tables whose entries all change in one way,
the rebase of virtual time, and the obligations on the scheduler and on the pacer.
-/

namespace Sys2Proof

variable {κ α : Type} [DecidableEq κ]

/-- An entry of a table all of whose values are changed by their keys. -/
theorem AL.get_map (f : κ → α → α) (k : κ) (t : AL κ α) : AL.get k (t.map fun p => (p.1, f p.1 p.2)) = (AL.get k t).map (f k) := by
  induction t with
  | nil => rfl
  | cons p t ih =>
    by_cases h : p.1 = k
    · subst h
      simp [AL.get]
    · simp [AL.get, h, ih]

theorem AL.mem_of_get {k : κ} {v : α} {t : AL κ α} (h : AL.get k t = some v) : (k, v) ∈ t := by
  induction t with
  | nil => cases h
  | cons p t ih =>
    by_cases hk : p.1 = k
    · simp only [AL.get, hk, if_true, Option.some.injEq] at h
      exact List.mem_cons.mpr (.inl (by rw [← hk, ← h]))
    · rw [AL.get, if_neg hk] at h
      exact List.mem_cons_of_mem _ (ih h)

end Sys2Proof

namespace Sys2Proof.Machine

variable {s t : State} {p b : Nat}

/-! ### Registers at other offsets -/

/-- A register at another offset is another register, on whatever page. -/
theorem State.regI_setReg_off {o off : Nat} (h : o ≠ off) (s : State) (pg q i : Nat) (w : Word) :
    (s.setReg pg off w).regI q o i = s.regI q o i :=
  State.regI_setReg_ne (fun hk => h (congrArg (·.1) ((regKeyAt_snd q o i).symm.trans ((congrArg Prod.snd hk).trans (regKeyAt_snd pg off 0))))) w

theorem State.regI_bump_off {o off : Nat} (h : o ≠ off) (s : State) (pg q i n : Nat) : (s.bump pg off n).regI q o i = s.regI q o i :=
  State.regI_setReg_off h ..

theorem State.regI_bump64_off {o off : Nat} (h : o ≠ off) (h4 : o ≠ off + 4) (s : State) (pg q i n : Nat) :
    (s.bump64 pg off n).regI q o i = s.regI q o i :=
  (State.regI_setReg_off h4 ..).trans (State.regI_setReg_off h ..)

/-! ### Commands -/

theorem exec_egressSelect (hp : p < 8) (hb : b < 2) (s : State) :
    exec (.egressSelect p b) s = s.inService (·.egressSelect p b) := by
  change s.inService (onSublink p b (·.egressSelect p b)) = _
  unfold onSublink
  simp only [hp, hb, and_self, if_true]

theorem exec_egressSelect_running (hrun : s.running = true) (hp : p < 8) (hb : b < 2) :
    exec (.egressSelect p b) s = .next (s.egressSelect p b) := by
  rw [exec_egressSelect hp hb]
  exact State.inService_keeps hrun rfl (by simp) (by simp)

/-! ### Virtual time (R369) -/

/-- A queue whose tags are `v` lower. -/
def lowered (v : Nat) (q : EgQueue) : EgQueue := { q with
  fLast := q.fLast - v
  pkts := q.pkts.map (fun k => { k with start := k.start - v, finish := k.finish - v }) }

theorem State.rebase_low (h : (s.egSub p b).v ≤ 2 ^ 31) : s.rebase p b = s := if_pos h

theorem State.rebase_high (h : 2 ^ 31 < (s.egSub p b).v) : s.rebase p b =
    { s with egress := { s.egress with
      queues := s.egress.queues.map fun x => (x.1, if x.1.1 = p ∧ x.1.2.1 = b then lowered (s.egSub p b).v x.2 else x.2)
      subs := AL.put (p, b) { s.egSub p b with v := 0 } s.egress.subs } } := by
  have hmap : s.egress.queues.map (fun x => (x.1, if x.1.1 = p ∧ x.1.2.1 = b then lowered (s.egSub p b).v x.2 else x.2)) =
      s.egress.queues.map (fun x => if x.1.1 == p && x.1.2.1 == b then (x.1, lowered (s.egSub p b).v x.2) else (x.1, x.2)) := by
    refine List.map_congr_left fun x _ => ?_
    by_cases hx : x.1.1 = p ∧ x.1.2.1 = b <;> simp [hx]
  rw [State.rebase, hmap]
  dsimp only
  rw [if_neg (not_le.mpr h)]
  rfl

theorem State.rebase_egSub (h : 2 ^ 31 < (s.egSub p b).v) : (s.rebase p b).egSub p b = { s.egSub p b with v := 0 } := by
  rw [State.rebase_high h]
  exact AL.getD_put ..

/-- Virtual time that has been rebased is low. -/
theorem State.rebase_rebase (s : State) (p b : Nat) : (s.rebase p b).rebase p b = s.rebase p b := by
  by_cases h : (s.egSub p b).v ≤ 2 ^ 31
  · rw [State.rebase_low h, State.rebase_low h]
  · refine State.rebase_low ?_
    rw [State.rebase_egSub (not_le.mp h)]
    exact Nat.zero_le _

theorem State.rebase_queue (h : 2 ^ 31 < (s.egSub p b).v) (k : Nat × Nat × Nat) : AL.get k (s.rebase p b).egress.queues =
    (AL.get k s.egress.queues).map fun x => if k.1 = p ∧ k.2.1 = b then lowered (s.egSub p b).v x else x := by
  rw [State.rebase_high h]
  exact AL.get_map (fun (k : Nat × Nat × Nat) x => if k.1 = p ∧ k.2.1 = b then lowered (s.egSub p b).v x else x) ..

theorem State.rebase_eq (s : State) (p b : Nat) : s.rebase p b = { s with egress := (s.rebase p b).egress } := by
  by_cases h : (s.egSub p b).v ≤ 2 ^ 31
  · rw [State.rebase_low h]
  · rw [State.rebase_high (not_le.mp h)]

theorem State.rebase_rf (s : State) (p b : Nat) : (s.rebase p b).rf = s.rf := by rw [State.rebase_eq]

/-- The scheduler selects as from the state in which virtual time has been rebased. -/
theorem State.egressSelect_rebase (s : State) (p b : Nat) (hup : s.fld (pgPort p) 0x104 (4 + b) 1 = 1)
    (hadm : s.unitAdmits (pgPort p) = true) : (s.rebase p b).egressSelect p b = s.egressSelect p b := by
  have hgate (u : State) (hrf : u.rf = s.rf) :
      ¬ (u.fld (pgPort p) 0x104 (4 + b) 1 = 0 ∨ (!u.unitAdmits (pgPort p)) = true) := by
    have hfld : u.fld (pgPort p) 0x104 (4 + b) 1 = 1 := by rw [State.fld, State.reg, State.regI, hrf]; exact hup
    have hunit : u.unitAdmits (pgPort p) = true := by
      simp only [State.unitAdmits, State.pageAdmits, State.pageFenced, State.fld, State.reg, State.regI, hrf] at hadm ⊢
      exact hadm
    simp [hfld, hunit]
  unfold State.egressSelect
  rw [if_neg (hgate _ rfl), if_neg (hgate _ (State.rebase_rf ..)), State.rebase_rebase]

end Sys2Proof.Machine
end

section

open Sys2Proof Sys2Proof.Machine

/-- Settles O9: above 2^31 `rebase` is a map over the queues, which the scheduler does first and which changes nothing when done again. -/
theorem virtualTimeIsRebased : Obligations.VirtualTimeIsRebased := by
  refine ⟨fun s p b h => ⟨State.rebase_egSub h, fun q x hx => ?_, fun o c q hne => ⟨?_, ?_⟩, State.rebase_eq s p b⟩,
    fun s p b h => State.rebase_low h, fun s p b hrun hp hb hup hadm => ⟨s.egressSelect p b, exec_egressSelect_running hrun hp hb, ?_⟩⟩
  · have hsub (a v : Nat) : (if a < v then 0 else a - v) = a - v := by split <;> omega
    rw [State.rebase_queue h, hx]
    simp only [hsub]
    simp [lowered]
  · have hoc : ¬ (o = p ∧ c = b) := fun e => hne (by rw [e.1, e.2])
    rw [State.rebase_queue h]
    simp [hoc]
  · rw [State.rebase_high h]
    exact AL.getD_put_ne hne ..
  · have hrun' : (s.rebase p b).running = true := by rw [State.rebase_eq]; exact hrun
    rw [exec_egressSelect_running hrun' hp hb, State.egressSelect_rebase s p b hup hadm]

end

section
/-!
SUPPORT. What leaves by a port (R301, R362 to R371): the frame that a selection or an answer sends, the packet that the pacer queues, and
what a microsecond's refill does to the queues and the policed domains.
-/

namespace Sys2Proof.Machine

variable {s t : State} {p b : Nat}

/-! ### A frame on the wire -/

theorem State.transmit_eq (s : State) (p b n : Nat) (h : NetHead) (f : WireFrame) : s.transmit p b n h f =
    { s with rf := (s.transmit p b n h f).rf, egress := { s.egress with wire := s.egress.wire ++ [(p, b, h, f)] } } := rfl

theorem State.vlanTag_congr (h : ∀ o, o = 0x100 ∨ o = 0x10C → t.reg (pgPort p) o = s.reg (pgPort p) o) : t.vlanTag p = s.vlanTag p := by
  rw [State.vlanTag, State.vlanTag, State.fld, State.fld, State.fld, h 0x100 (.inl rfl), h 0x10C (.inr rfl)]
  rfl

/-! ### Requests for the node's addresses (Table 13-9) -/

theorem exec_neighbour (hp : p < 8) (hb : b < 2) (v : Option Nat) (kind dst src : Nat) (d : List Byte) (s : State) :
    exec (.arpNsEchoRequest p ⟨b, v⟩ kind dst src d) s =
      s.inService (fun s => if s.unitAdmits (pgPort p) then s.neighbour p b v kind dst src d else s) := by
  change s.inService (onSublink p b (fun s => if s.unitAdmits (pgPort p) then s.neighbour p b v kind dst src d else s)) = _
  unfold onSublink
  simp only [hp, hb, and_self, if_true]

/-- The counter of frames leaves the settings of the port. -/
theorem State.vidOk_counted (s : State) (p : Nat) (v : Option Nat) (n : Nat) : (s.bump64 (pgPort p) 0x140 n).vidOk p v = s.vidOk p v := by
  simp only [State.vidOk, State.fld, State.reg, State.regI_bump64_off (off := 0x140) (o := 0x100) (by decide) (by decide),
    State.regI_bump64_off (off := 0x140) (o := 0x10C) (by decide) (by decide)]

theorem State.vlanTag_counted (s : State) (p n : Nat) : (s.bump64 (pgPort p) 0x140 n).vlanTag p = s.vlanTag p :=
  State.vlanTag_congr fun o ho => by
    rcases ho with rfl | rfl <;> exact State.regI_bump64_off (by decide) (by decide) ..

theorem State.ownAddress_counted (s : State) (p b kind dst n : Nat) :
    (s.bump64 (pgPort p) 0x140 n).ownAddress p b kind dst = s.ownAddress p b kind dst := by
  have hword (i : Nat) (hi : i ∈ List.range 4) : (s.bump64 (pgPort p) 0x140 n).regI (pgPort p) (0x114 + 4 * i) b = s.regI (pgPort p) (0x114 + 4 * i) b := by
    have hi := List.mem_range.mp hi
    exact State.regI_bump64_off (by omega) (by omega) ..
  have h6 : (List.range 4).foldl (fun a i => a * 2 ^ 32 + ((s.bump64 (pgPort p) 0x140 n).regI (pgPort p) (0x114 + 4 * i) b).toNat) 0 =
      (List.range 4).foldl (fun a i => a * 2 ^ 32 + (s.regI (pgPort p) (0x114 + 4 * i) b).toNat) 0 :=
    List.foldl_ext _ _ _ fun a i hi => by rw [hword i hi]
  simp only [State.ownAddress, State.fld, State.reg, h6, State.regI_bump64_off (off := 0x140) (o := 0x100) (by decide) (by decide),
    State.regI_bump64_off (off := 0x140) (o := 0x124) (by decide) (by decide)]

theorem State.neighbour_answers {v : Option Nat} {kind dst : Nat} (hvid : s.vidOk p v = true) (hown : s.ownAddress p b kind dst = true)
    (src : Nat) (d : List Byte) : ∃ f, s.neighbour p b v kind dst src d = { s with
      rf := f
      egress := { s.egress with wire := s.egress.wire ++
        [(p, b, ⟨s.vlanTag p, none, src, none⟩, .answer kind src (if kind < 2 then leBytes 6 ((Config.macAddr p).toNat + b) else d))] } } := by
  rw [State.neighbour, State.vidOk_counted, State.ownAddress_counted, hvid, hown, State.vlanTag_counted]
  exact ⟨_, State.transmit_eq ..⟩

theorem State.neighbour_ignores {v : Option Nat} {kind dst : Nat} (h : s.vidOk p v = false ∨ s.ownAddress p b kind dst = false)
    (src : Nat) (d : List Byte) : s.neighbour p b v kind dst src d = s.bump64 (pgPort p) 0x140 1 := by
  rw [State.neighbour, State.vidOk_counted, State.ownAddress_counted]
  rcases h with h | h <;> simp [h]

/-! ### The scheduler's choice (R365, R369, R370) -/

theorem State.egressSelect_ctl (hup : s.fld (pgPort p) 0x104 (4 + b) 1 = 1) (hadm : s.unitAdmits (pgPort p) = true)
    (hv : (s.egSub p b).v ≤ 2 ^ 31) {c : Nat} {k : CtlPkt} {rest : List (Nat × CtlPkt)} (hctl : s.net.ctl = (c, k) :: rest)
    (hsub : s.ctlSub c k = (p, b)) (hcredit : 0 ≤ (s.egSub p b).ctl) :
    s.egressSelect p b = ((({ s with net := { s.net with ctl := rest } } : State).ctlSent c k).putEgSub p b
      { s.egSub p b with ctl := (s.egSub p b).ctl - s.ctlBytes c k }).transmit p b (s.ctlBytes c k) (s.porisTo p b (s.ctlEnd c k).addr 2)
      (.ctl c (s.ctlHead c k).bytes (s.ctlBody c k) k) := by
  have hgate : ¬ (s.fld (pgPort p) 0x104 (4 + b) 1 = 0 ∨ (!s.unitAdmits (pgPort p)) = true) := by simp [hup, hadm]
  have hfind : s.net.ctl.findIdx? (fun (c, k) => s.ctlSub c k == (p, b)) = some 0 := by simp [hctl, List.findIdx?_cons, hsub]
  unfold State.egressSelect
  rw [if_neg hgate, State.rebase_low hv]
  dsimp only
  rw [if_pos hcredit, hfind]
  simp only [hctl, List.getElem?_cons_zero, List.eraseIdx_cons_zero]
  rfl

theorem pgPort_ne_pgEgrs (p : Nat) : pgPort p ≠ pgEgrs p := by
  unfold pgPort pgEgrs
  omega

/-- How a datagram is addressed depends on registers that the counters of the egress page are not. -/
theorem State.porisTo_egressCounted {off : Nat} (ho : off = 0x12C ∨ off = 0x130) (s : State) (p b addr lane : Nat) :
    (s.bump (pgEgrs p) off 1).porisTo p b addr lane = s.porisTo p b addr lane := by
  have hport (o i : Nat) : (s.bump (pgEgrs p) off 1).regI (pgPort p) o i = s.regI (pgPort p) o i :=
    State.regI_setReg_other (by omega) (.inl (pgPort_ne_pgEgrs p)) ..
  have hxprt : (s.bump (pgEgrs p) off 1).regI pgXprt 0x100 0 = s.regI pgXprt 0x100 0 := State.regI_bump_off (by omega) ..
  simp only [State.porisTo, State.nextHop, State.fld, State.reg, hxprt, hport, State.vlanTag_congr fun o _ => hport o 0]

/-- A queue after its head has left. -/
def headGone (x : EgQueue) (credit : Int) : EgQueue := { x with pkts := x.pkts.drop 1, credit := credit }

/-- The counters of the choices of step 2 and of demoted queues (Table 15-3). -/
def State.choiceCounted (s : State) (p : Nat) (lc demoted : Bool) : State :=
  if lc then s.bump (pgEgrs p) 0x12C 1 else if demoted then s.bump (pgEgrs p) 0x130 1 else s

theorem State.choiceCounted_eq (s : State) (p : Nat) (lc demoted : Bool) :
    s.choiceCounted p lc demoted = { s with rf := (s.choiceCounted p lc demoted).rf } := by
  cases lc <;> cases demoted <;> rfl

theorem State.porisTo_choiceCounted (s : State) (p b addr lane : Nat) (lc demoted : Bool) :
    (s.choiceCounted p lc demoted).porisTo p b addr lane = s.porisTo p b addr lane := by
  cases lc with
  | true => exact State.porisTo_egressCounted (.inl rfl) ..
  | false => cases demoted with
    | true => exact State.porisTo_egressCounted (.inr rfl) ..
    | false => rfl

/-- What the head of a queue that the cap of R425 does not hold takes with it. -/
theorem State.sendHead_outcome {q : Nat} (hq : q % 4 ≠ 3) (s : State) (k : EgPkt) (lc demoted : Bool) :
    (s.sendHead p b q k lc demoted).egress.wire = s.egress.wire ++ [(p, b, s.porisTo p b k.peerAddr (laneNum k.lane), .data k)] ∧
      (s.sendHead p b q k lc demoted).egQueue p b q = headGone (s.egQueue p b q)
        (if s.qShaped p q then (s.egQueue p b q).credit - k.bytes else (s.egQueue p b q).credit) ∧
      ((s.sendHead p b q k lc demoted).egSub p b).v = max (s.egSub p b).v k.start ∧
      s.sendHead p b q k lc demoted = { s with rf := (s.sendHead p b q k lc demoted).rf, egress := (s.sendHead p b q k lc demoted).egress } := by
  have hcap (u : State) : u.capped q k = false := by simp [State.capped, hq]
  generalize hx : headGone (s.egQueue p b q) (if s.qShaped p q then (s.egQueue p b q).credit - k.bytes else (s.egQueue p b q).credit) = x
  generalize hy : ({ s.egSub p b with v := max (s.egSub p b).v k.start, lc := if lc then (s.egSub p b).lc - k.bytes else (s.egSub p b).lc } : SubState) = y
  have hv : y.v = max (s.egSub p b).v k.start := by rw [← hy]
  have hsend : s.sendHead p b q k lc demoted =
      (((s.putEgQueue p b q x).putEgSub p b y).choiceCounted p lc demoted).transmit p b k.bytes (s.porisTo p b k.peerAddr (laneNum k.lane)) (.data k) := by
    have haddr : (((s.putEgQueue p b q x).putEgSub p b y).choiceCounted p lc demoted).porisTo p b k.peerAddr (laneNum k.lane) =
      s.porisTo p b k.peerAddr (laneNum k.lane) := State.porisTo_choiceCounted ..
    rw [← haddr, State.sendHead, ← hx, ← hy]
    dsimp only
    rw [hcap, if_neg Bool.false_ne_true]
    rfl
  obtain ⟨f, hf⟩ : ∃ f, ((s.putEgQueue p b q x).putEgSub p b y).choiceCounted p lc demoted = { (s.putEgQueue p b q x).putEgSub p b y with rf := f } :=
    ⟨_, State.choiceCounted_eq ..⟩
  rw [hsend, hf, ← hv]
  exact ⟨rfl, AL.getD_put .., congrArg SubState.v (AL.getD_put ..), State.eq_of_groups (by simp)⟩

theorem bestHead_one (x : Nat × EgPkt) : bestHead [x] = some x := rfl

/-- A sublink with one queue that may send and no control packet: its head leaves, at step 2 or at step 3. -/
theorem State.egressSelect_head (hup : s.fld (pgPort p) 0x104 (4 + b) 1 = 1) (hadm : s.unitAdmits (pgPort p) = true)
    (hv : (s.egSub p b).v ≤ 2 ^ 31) (hctl : s.net.ctl = []) (hf : s.nodeFenced = false) {q : Nat} {x : EgQueue} {k : EgPkt} {rest : List EgPkt}
    (hq : s.egress.queues = [((p, b, q), x)]) (hx : x.pkts = k :: rest) (hcredit : 0 ≤ x.credit) (hnode : q % 4 ≠ 3) :
    ∃ lc demoted, s.egressSelect p b = s.sendHead p b q k lc demoted := by
  have hgate : ¬ (s.fld (pgPort p) 0x104 (4 + b) 1 = 0 ∨ (!s.unitAdmits (pgPort p)) = true) := by simp [hup, hadm]
  have hcap : s.capped q k = false := by simp [State.capped, hnode]
  have hheads : s.egress.queues.filterMap (fun (k, q) =>
      if k.1 == p && k.2.1 == b && !(s.qShaped p k.2.2 && decide (q.credit < 0)) then
        (q.pkts.head?).bind (fun x => if s.capped k.2.2 x && decide (s.egress.node < 0) then none else some (k.2.2, x))
      else none) = [(q, k)] := by
    rw [hq]
    simp [hx, hcap, hcredit]
  unfold State.egressSelect
  rw [if_neg hgate, State.rebase_low hv]
  dsimp only
  simp only [hctl, List.findIdx?_nil, ite_self, hf, Bool.false_eq_true, if_false, hheads, bestHead_one]
  by_cases hlc : 0 ≤ (s.egSub p b).lc ∧ s.fld (pgEgrs p) 0x11C 0 8 ≠ 0 ∧ s.qLc p q = true
  · exact ⟨true, false, by simp [hlc, bestHead_one]⟩
  · refine ⟨false, s.qLc p q, ?_⟩
    by_cases hq' : s.qLc p q = true
    · have hno : ¬ (0 ≤ (s.egSub p b).lc ∧ s.fld (pgEgrs p) 0x11C 0 8 ≠ 0) := fun h => hlc ⟨h.1, h.2, hq'⟩
      rw [if_neg hno]
    · have hnone : bestHead (List.filter (fun x => s.qLc p x.1) [(q, k)]) = none := by simp [hq', bestHead]
      rw [hnone, ite_self]

/-! ### The pacer (R362, R363, R368) -/

theorem length_beBytes (n v : Nat) : (beBytes n v).length = n := by simp [beBytes]

theorem length_sealBytes (c : Conn) (cls psn : Nat) (head payload : List Byte) : (sealBytes c cls psn head payload).length = payload.length + 16 := by
  simp [sealBytes]

/-- The header is 32 bytes; DCONN, PSN and MSG_ID stand at 4, 8 and 12 (Table 13-1). -/
theorem PorisHead.bytes_layout (h : PorisHead) : h.bytes.length = 32 ∧ (h.bytes.drop 4).take 3 = beBytes 3 h.dconn ∧
    (h.bytes.drop 8).take 4 = beBytes 4 h.psn ∧ (h.bytes.drop 12).take 3 = beBytes 3 h.msgId := by
  have hskip (a b : List Byte) (n : Nat) (ha : a.length ≤ n) : (a ++ b).drop n = b.drop (n - a.length) := by
    rw [List.drop_append, List.drop_eq_nil_of_le ha, List.nil_append]
  have hhead (a b : List Byte) (n : Nat) (ha : a.length = n) : (a ++ b).take n = a := by rw [← ha, List.take_left]
  refine ⟨by simp [PorisHead.bytes, length_beBytes], ?_, ?_, ?_⟩ <;>
  · simp only [PorisHead.bytes, List.append_assoc]
    simp only [hskip, length_beBytes, Nat.reduceLeDiff, Nat.reduceSub, List.drop_zero]
    exact hhead _ _ _ (length_beBytes ..)

theorem offsetsOf_short {n : Nat} (h : n ≤ 4096) : offsetsOf n = [0] := by
  have hone : max 1 (ceilDiv n 4096) = 1 := by
    unfold ceilDiv
    omega
  rw [offsetsOf, hone]
  rfl

theorem keyUpdate_none {c : Conn} (hpsn : c.psnTx < 2 ^ 30 - 1) (hmsg : ∀ p ∈ c.genMsg, p.2 < 2 ^ 22 - 1) : keyUpdate c = c := by
  refine if_neg ?_
  rw [Bool.or_eq_true, not_or, decide_eq_true_eq, List.any_eq_true]
  refine ⟨not_le.mpr hpsn, fun ⟨x, hx, he⟩ => ?_⟩
  have := hmsg x hx
  simp only [Bool.and_eq_true, decide_eq_true_eq] at he
  omega

/-- A message of one packet that has been sent. -/
def sentWhole (c : Conn) (m : OutMsg) : Conn := { c with msgs := [{ m with next := 4096 }] }

theorem State.pacerRelease_response {i : Nat} {c : Conn} {m : OutMsg} {pt : Path} (hc : s.conn i = some c) (hresend : c.resend = [])
    (hmsgs : c.msgs = [m]) (hnext : m.next = 0) (hheld : m.heldTill ≤ s.nrt) (hpaths : c.paths = [pt]) (hup : pt.up = true)
    (hpaced : c.pacedAt ≤ s.nrt) (hf : s.nodeFenced = false) (hpsn : c.psnTx < 2 ^ 30 - 1) (hgen : ∀ p ∈ c.genMsg, p.2 < 2 ^ 22 - 1)
    (hlane : m.lane = .response) (hlen : m.bytes.length ≤ 4096) (hq : (s.egQueue pt.port pt.sub (c.domain * 4 + 1)).pkts = [])
    (hadm : s.unitAdmits (pgEgrs pt.port) = true) :
    ∃ (h : PorisHead) (n t0 : Nat), h.dconn = c.peerConn ∧ h.psn = c.psnTx ∧ h.msgId = m.msgId ∧
      s.pacerRelease i = (s.setConn { sentWhole c m with
          psnTx := c.psnTx + 1
          unacked := c.unacked ++ [⟨c.psnTx, .response, m.msgId, 0, m.bytes.length, 0, s.nrt, false, 0⟩]
          pacedAt := t0 }).enqueue pt.port pt.sub (c.domain * 4 + 1)
        ⟨connId c, .response, m.msgId, 0, 0, c.psnTx, c.genTx, false, m.bytes, n, 0, 0, h.bytes, sealBytes (sentWhole c m) 0 c.psnTx h.bytes m.bytes,
          pt.peerAddr⟩ := by
  have hpkt : Conn.nextPkt c s.nrt = some (.response, m.msgId, 0, false) := by
    simp [Conn.nextPkt, hresend, hmsgs, hheld, offsetsOf_short hlen, hnext, hlane]
  have hpath : Conn.bestPath c = some 0 := by simp [Conn.bestPath, hpaths, hup]
  have hmsg : c.msgs.find? (fun x => x.lane == .response && x.msgId == m.msgId) = some m := by simp [hmsgs, hlane]
  have htake : keyUpdate (Conn.takePkt c .response m.msgId 0 false) = sentWhole c m := by
    have htaken : Conn.takePkt c .response m.msgId 0 false = sentWhole c m := by simp [Conn.takePkt, sentWhole, hmsgs, hlane]
    rw [htaken]
    exact keyUpdate_none hpsn hgen
  have hroom : ¬ s.qLimit pt.port ≤ 0 := by
    unfold State.qLimit
    omega
  have hkind : s.egKind c .response m.msgId = 1 := rfl
  have hbody : (m.bytes.drop 0).take 4096 = m.bytes := List.take_of_length_le hlen
  unfold State.pacerRelease
  simp only [hc, hf, not_lt.mpr hpaced, Bool.false_eq_true, or_self, if_false, hpkt, hpath, hmsg, hpaths, List.getElem?_cons_zero, hkind, hq,
    List.foldl_nil, hroom, hadm, Bool.not_true, htake, hbody]
  exact ⟨_, _, _, rfl, rfl, rfl, rfl⟩

theorem State.enqueue_outcome (s : State) (p b q : Nat) (k : EgPkt) : ∃ st fin,
    ((s.enqueue p b q k).egQueue p b q).pkts = (s.egQueue p b q).pkts ++ [{ k with start := st, finish := fin }] ∧
      s.enqueue p b q k = { s with egress := (s.enqueue p b q k).egress } :=
  ⟨_, _, congrArg EgQueue.pkts (AL.getD_put ..), rfl⟩

/-! ### The refill (R366, R367) -/

theorem State.commitShadow_nil (h : s.rf.shadow = []) (pg : Nat) : s.commitShadow pg = s := by
  unfold State.commitShadow
  simp only [h, List.foldl_nil, List.filter_nil]
  rw [← h]

/-- A state in which a refill has left the settings, the policed domains and what is on the wire as they were. -/
def State.settingsKept (s t : State) : Prop :=
  t.rf.shadow = s.rf.shadow ∧ (∀ pg o i, o ≠ 0x138 → t.regI pg o i = s.regI pg o i) ∧ t.egress.doms = s.egress.doms ∧
    t.egress.wire = s.egress.wire ∧ t = { s with rf := t.rf, egress := t.egress }

theorem State.settingsKept.refl (s : State) : State.settingsKept s s := ⟨rfl, fun _ _ _ _ => rfl, rfl, rfl, rfl⟩

theorem State.settingsKept.trans {u : State} (h : State.settingsKept s t) (hu : State.settingsKept t u) : State.settingsKept s u := by
  obtain ⟨hshadow, hreg, hdoms, hwire, hrest⟩ := h
  obtain ⟨hshadow', hreg', hdoms', hwire', hrest'⟩ := hu
  refine ⟨hshadow'.trans hshadow, fun pg o i ho => (hreg' pg o i ho).trans (hreg pg o i ho), hdoms'.trans hdoms, hwire'.trans hwire, ?_⟩
  rw [hrest', hrest]

theorem State.refillSub_kept (s : State) (p b : Nat) :
    State.settingsKept s (s.refillSub p b) ∧ (s.refillSub p b).egress.queues = s.egress.queues := by
  obtain ⟨u, hu, hsub⟩ : ∃ u, (u = s ∨ u = s.bump (pgEgrs p) 0x138 1) ∧ ∃ x, s.refillSub p b = u.putEgSub p b x := by
    refine ⟨if (s.egSub p b).ctl < 0 then s.bump (pgEgrs p) 0x138 1 else s, ?_, _, rfl⟩
    split
    · exact .inr rfl
    · exact .inl rfl
  obtain ⟨x, hx⟩ := hsub
  rw [hx]
  rcases hu with rfl | rfl
  · exact ⟨⟨rfl, fun _ _ _ _ => rfl, rfl, rfl, rfl⟩, rfl⟩
  · exact ⟨⟨rfl, fun pg o i ho => State.regI_bump_off ho .., rfl, rfl, rfl⟩, rfl⟩

theorem State.refillSubs_kept (l : List Nat) (s : State) (p : Nat) : State.settingsKept s (l.foldl (fun (s : State) b => s.refillSub p b) s) ∧
    (l.foldl (fun (s : State) b => s.refillSub p b) s).egress.queues = s.egress.queues := by
  induction l generalizing s with
  | nil => exact ⟨.refl s, rfl⟩
  | cons b l ih =>
    obtain ⟨hone, hq⟩ := s.refillSub_kept p b
    obtain ⟨hrest, hq'⟩ := ih (s.refillSub p b)
    exact ⟨hone.trans hrest, hq'.trans hq⟩

/-- What a refill makes of a queue: a shaped one gains its rate. -/
def State.gained (s : State) (k : Nat × Nat × Nat) (x : EgQueue) : EgQueue :=
  if s.qShaped k.1 k.2.2 then
    { x with credit := min (refill (!x.pkts.isEmpty) (s.qRate k.1 k.2.2) (s.qHicred k.1 k.2.2) x.credit) (s.qHicred k.1 k.2.2) }
  else x

theorem State.settingsKept.gained (h : State.settingsKept s t) (k : Nat × Nat × Nat) (x : EgQueue) : t.gained k x = s.gained k x := by
  obtain ⟨-, hreg, -⟩ := h
  have hshaped (p q : Nat) : t.qShaped p q = s.qShaped p q := by simp only [State.qShaped, State.fldI, hreg _ 0x104 _ (by decide)]
  have hrate (p q : Nat) : t.qRate p q = s.qRate p q := by simp only [State.qRate, State.fldI, hreg _ 0x108 _ (by decide)]
  have hcred (p q : Nat) : t.qHicred p q = s.qHicred p q := by simp only [State.qHicred, State.fldI, hreg _ 0x10C _ (by decide)]
  rw [State.gained, hshaped, hrate, hcred, State.gained]

theorem State.refillPort_outcome (h : s.rf.shadow = []) (p : Nat) : State.settingsKept s (s.refillPort p) ∧
    (s.refillPort p).egress.queues = s.egress.queues.map (fun x => (x.1, if x.1.1 = p then s.gained x.1 x.2 else x.2)) := by
  have hmap : s.egress.queues.map (fun (k, q) =>
      let q := if k.1 != p || s.qWeight p k.2.2 == s.qWeight p k.2.2 then q else retag (s.qWeight p k.2.2) q
      if k.1 != p || !s.qShaped p k.2.2 then (k, q)
      else
        let c := if ((s.egress.queues.filter (fun (k, _) => k.1 == p && s.qShaped p k.2.2)).map (fun (k, _) => k.2.2)).contains k.2.2 then q.credit else 0
        (k, { q with credit := min (refill (!q.pkts.isEmpty) (s.qRate p k.2.2) (s.qHicred p k.2.2) c) (s.qHicred p k.2.2) })) =
      s.egress.queues.map (fun x => (x.1, if x.1.1 = p then s.gained x.1 x.2 else x.2)) := by
    refine List.map_congr_left fun x hx => ?_
    obtain ⟨⟨o, c, q⟩, y⟩ := x
    by_cases ho : o = p
    · subst ho
      by_cases hs : s.qShaped o q = true
      · have hwas : ((s.egress.queues.filter (fun x => x.1.1 == o && s.qShaped o x.1.2.2)).map (fun x => x.1.2.2)).contains q = true := by
          refine List.contains_iff_mem.mpr (List.mem_map.mpr ⟨((o, c, q), y), List.mem_filter.mpr ⟨hx, ?_⟩, rfl⟩)
          simp [hs]
        simp only [State.gained, hs, bne_self_eq_false, Bool.not_true, Bool.false_or, beq_self_eq_true, if_true, Bool.false_eq_true, if_false]
        rw [if_pos hwas]
      · simp [State.gained, hs]
    · simp [ho]
  have hkept := State.refillSubs_kept (if s.subRate p = 4000 then [0, 1] else [0]) (s.setEgress { s.egress with
    queues := s.egress.queues.map (fun x => (x.1, if x.1.1 = p then s.gained x.1 x.2 else x.2)) }) p
  have hport : s.refillPort p = (if s.subRate p = 4000 then [0, 1] else [0]).foldl (fun (s : State) b => s.refillSub p b) (s.setEgress { s.egress with
      queues := s.egress.queues.map (fun x => (x.1, if x.1.1 = p then s.gained x.1 x.2 else x.2)) }) := by
    rw [← hmap, State.refillPort]
    simp only [State.commitShadow_nil h]
    rfl
  rw [hport]
  exact ⟨.trans ⟨rfl, fun _ _ _ _ => rfl, rfl, rfl, rfl⟩ hkept.1, hkept.2⟩

theorem State.refillPorts_outcome {l : List Nat} (hl : l.Nodup) (h : s.rf.shadow = []) :
    State.settingsKept s (l.foldl (fun (s : State) p => s.refillPort p) s) ∧
      ∀ k, AL.get k (l.foldl (fun (s : State) p => s.refillPort p) s).egress.queues =
        (AL.get k s.egress.queues).map fun x => if k.1 ∈ l then s.gained k x else x := by
  induction l generalizing s with
  | nil => exact ⟨.refl s, fun k => by simp⟩
  | cons p l ih =>
    obtain ⟨hp, hl⟩ := List.nodup_cons.mp hl
    obtain ⟨hone, hq⟩ := State.refillPort_outcome h p
    obtain ⟨hrest, hget⟩ := ih hl (hone.1.trans h)
    refine ⟨hone.trans hrest, fun k => ?_⟩
    rw [List.foldl_cons, hget k, hq, AL.get_map (fun (k : Nat × Nat × Nat) x => if k.1 = p then s.gained k x else x), Option.map_map]
    refine Option.map_congr fun x _ => ?_
    by_cases hk : k.1 = p
    · simp [hk, hp]
    · simp [hk, hone.gained]

/-- What a microsecond's refill does, where no setting is pending. -/
theorem State.creditRefill_outcome (h : s.rf.shadow = []) :
    (∀ k, AL.get k s.creditRefill.egress.queues = (AL.get k s.egress.queues).map fun x => if k.1 < 8 then s.gained k x else x) ∧
      (∀ d c, d < 1024 → s.dPoliced d = true → AL.get d s.egress.doms = some c →
        AL.get d s.creditRefill.egress.doms = some (refill true (s.dRate d) (s.dBurst d) c)) ∧
      s.creditRefill.egress.wire = s.egress.wire ∧ s.creditRefill = { s with rf := s.creditRefill.rf, egress := s.creditRefill.egress } := by
  obtain ⟨hkept, hget⟩ := State.refillPorts_outcome (l := List.range 8) List.nodup_range h
  unfold State.creditRefill
  generalize (List.range 8).foldl (fun (s : State) p => s.refillPort p) s = u at hkept hget
  obtain ⟨hshadow, hreg, hdoms, hwire, hrest⟩ := hkept
  have hpol (d : Nat) : u.dPoliced d = s.dPoliced d := by simp only [State.dPoliced, State.fldI, hreg _ 0x104 _ (by decide)]
  have hrate (d : Nat) : u.dRate d = s.dRate d := by simp only [State.dRate, State.fldI, hreg _ 0x104 _ (by decide)]
  have hburst (d : Nat) : u.dBurst d = s.dBurst d := by simp only [State.dBurst, hreg _ 0x108 _ (by decide)]
  dsimp only
  rw [State.commitShadow_nil (hshadow.trans h)]
  generalize hnow : (List.range 1024).filter u.dPoliced = now
  refine ⟨fun k => ?_, fun d c hd hp hc => ?_, hwire, by rw [hrest]; rfl⟩
  · refine (hget k).trans ?_
    simp only [List.mem_range]
  · have hwas : ((u.egress.doms.filter (fun (p : Nat × Int) => u.dPoliced p.1)).map (·.1)).contains d = true := by
      refine List.contains_iff_mem.mpr (List.mem_map.mpr ⟨(d, c), List.mem_filter.mpr ⟨?_, ?_⟩, rfl⟩)
      · rw [hdoms]
        exact AL.mem_of_get hc
      · rw [hpol, hp]
    have hin : d ∈ now := hnow ▸ List.mem_filter.mpr ⟨List.mem_range.mpr hd, by rw [hpol, hp]⟩
    have htable (f : Nat → Int) (l : List Nat) (hdl : d ∈ l) : AL.get d (l.map fun d => (d, f d)) = some (f d) := by
      induction l with
      | nil => cases hdl
      | cons e l ih =>
        by_cases he : e = d
        · simp [AL.get, he]
        · rw [List.map_cons, AL.get, if_neg he]
          exact ih ((List.mem_cons.mp hdl).resolve_left fun h => he h.symm)
    refine (htable _ _ hin).trans ?_
    rw [hwas, if_pos rfl, hrate, hburst, hdoms, AL.getD, hc]
    rfl

end Sys2Proof.Machine
end

section

open Sys2Proof Sys2Proof.Machine

/-- Settles O34: the pacer by `pacerRelease_response`, the scheduler by what it chooses (`egressSelect_ctl`, `egressSelect_head`), the refill
by `creditRefill_outcome`, and requests for an address by `neighbour_answers` and `neighbour_ignores`. -/
theorem egressSendsInOrder : Obligations.EgressSendsInOrder := by
  unfold Obligations.EgressSendsInOrder
  refine ⟨?pacer, ?control, ?head, ?refill, ?answered, ?ignored, ?closed⟩
  case pacer =>
    intro s i c m pt hrun hc hresend hmsgs hnext hheld hpaths hup hpaced hf hpsn hgen hlane hlen hq hadm
    obtain ⟨h, n, t0, hdconn, hhpsn, hmsg, heq⟩ :=
      State.pacerRelease_response hc hresend hmsgs hnext hheld hpaths hup hpaced hf hpsn hgen hlane hlen hq hadm
    obtain ⟨hlow, hindex⟩ := State.conn_index hc
    obtain ⟨hhead, hdc, hps, hms⟩ := h.bytes_layout
    generalize hd : ({ sentWhole c m with
      psnTx := c.psnTx + 1
      unacked := c.unacked ++ [⟨c.psnTx, .response, m.msgId, 0, m.bytes.length, 0, s.nrt, false, 0⟩]
      pacedAt := t0 } : Conn) = d at heq
    generalize hk : (⟨connId c, .response, m.msgId, 0, 0, c.psnTx, c.genTx, false, m.bytes, n, 0, 0, h.bytes,
      sealBytes (sentWhole c m) 0 c.psnTx h.bytes m.bytes, pt.peerAddr⟩ : EgPkt) = k at heq
    obtain ⟨st, fin, hpkts, hrest⟩ := (s.setConn d).enqueue_outcome pt.port pt.sub (c.domain * 4 + 1) k
    have hconn : (s.setConn d).conn i = some d := State.conn_setConn hlow (by rw [← hd]; exact hindex) s
    refine ⟨_, d, { k with start := st, finish := fin }, State.inService_keeps (f := (·.pacerRelease i)) hrun heq (by simp) (by simp), ?_, by rw [← hd], by rw [← hd], ?_,
      by rw [← hk], by rw [← hk], by rw [← hk], by rw [← hk], by rw [← hk]; exact hhead, by rw [← hk]; exact length_sealBytes .., by rw [← hk],
      by rw [← hk, ← hdconn]; exact hdc, by rw [← hk, ← hhpsn]; exact hps, by rw [← hk, ← hmsg]; exact hms, ?_⟩
    · rw [hrest]
      exact hconn
    · rw [hpkts]
      exact congrArg (· ++ _) hq
    · rw [hrest]
      rfl
  case control =>
    intro s p b c k rest hrun hp hb hup hadm hctl hsub hcredit hv
    rw [exec_egressSelect_running hrun hp hb, State.egressSelect_ctl hup hadm hv hctl hsub hcredit]
    obtain ⟨l, hl⟩ : ∃ l, ({ s with net := { s.net with ctl := rest } } : State).ctlSent c k = { s with net := { s.net with ctl := rest, conns := l } } := by
      unfold State.ctlSent
      split
      · split <;> exact ⟨_, rfl⟩
      · exact ⟨_, rfl⟩
    rw [hl]
    refine ⟨_, rfl, rfl, rfl, congrArg SubState.ctl (AL.getD_put ..), rfl, rfl, State.eq_of_groups (by simp)⟩
  case head =>
    intro s p b q x k rest hrun hp hb hup hadm hctl hv hf hq hx hcredit hnode
    obtain ⟨lc, demoted, hsel⟩ := State.egressSelect_head hup hadm hv hctl hf hq hx hcredit hnode
    obtain ⟨hwire, hqueue, hvt, hrest⟩ := State.sendHead_outcome (p := p) (b := b) hnode s k lc demoted
    have hold : s.egQueue p b q = x := by simp [State.egQueue, hq, AL.getD, AL.get]
    rw [hold] at hqueue
    refine ⟨_, exec_egressSelect_running hrun hp hb, ?_⟩
    rw [hsel]
    exact ⟨hwire, by rw [hqueue, headGone, hx]; rfl, by rw [hqueue]; rfl, hvt, hrest⟩
  case refill =>
    intro s hrun hshadow
    obtain ⟨hqueues, hdoms, hwire, hrest⟩ := State.creditRefill_outcome hshadow
    refine ⟨_, State.inService_keeps (f := (·.creditRefill)) hrun rfl (by simp) (by simp), fun p b q x hp hx hs => ?_, fun p b q hs => ?_, hdoms,
      hwire, hrest⟩
    · rw [hqueues, hx, Option.map_some, if_pos hp, State.gained, if_pos hs]
    · have hsame (x : EgQueue) : (if p < 8 then s.gained (p, b, q) x else x) = x := by simp [State.gained, hs]
      rw [hqueues]
      simp only [hsame, Option.map_id']
  case answered =>
    intro s p b kind dst src v d hrun hadm hp hb hvid hown
    rw [exec_neighbour hp hb]
    obtain ⟨f, hf⟩ := State.neighbour_answers hvid hown src d
    exact ⟨_, State.inService_keeps hrun ((if_pos hadm).trans hf) rfl rfl, rfl, rfl⟩
  case ignored =>
    intro s p b kind dst src v d hrun hadm hp hb hno
    rw [exec_neighbour hp hb]
    exact ⟨_, State.inService_keeps hrun ((if_pos hadm).trans (State.neighbour_ignores hno src d)) rfl rfl, rfl⟩
  case closed =>
    intro s p b kind dst src v d hrun hadm
    refine State.inService_keeps hrun ?_ rfl rfl
    simp [onFrame, onSublink, hadm]

end

section
/-!
SUPPORT. The check of epochs (R418): which ones admission accepts, and how a command of a ring with another one is turned away.
-/

namespace Sys2Proof.Machine

variable {s : State} {q : Req} {op : Op} {n : Nat} {d : DomainRec} {c : Ctx}

theorem State.epochOk_unleased (h : s.lease.st = .unleased) (e : Word) : s.epochOk false e = true ↔ e = 0 := by
  simp [State.epochOk, h]

theorem State.epochOk_leased (h : s.lease.st ≠ .unleased) (e : Word) :
    s.epochOk false e = true ↔ e = s.lease.cur ∨ (s.lease.prev = some e ∧ s.nrt < s.lease.graceTill) := by
  unfold State.epochOk
  rw [if_neg (by decide)]
  split
  · exact absurd ‹_› h
  · cases s.lease.prev with
    | none => simp
    | some p => simp [eq_comm (a := p)]

theorem State.connEpochOk_bound {c : Conn} {k : Nat} (hst : s.lease.st = .leased) (hc : c.composition ≠ 0xFFFF)
    (hcomp : s.lease.comp = some (c.composition, k)) (e : Word) : s.connEpochOk c e = s.epochOk false e := by
  simp [State.connEpochOk, hc, hcomp, hst]

/-- A ring's descriptor that passes steps 1 to 3 of Table 2-19 and has another epoch fails step 4. -/
theorem State.admission_otherEpoch (hsrc : q.src = .ring n) (hop : ∀ o, op ≠ .bad o) (hflags : q.hdr.flags &&& op.flagMask = q.hdr.flags)
    (hfence : s.nodeFenced = false) (hd : AL.get q.hdr.domain s.sec.domains = some d) (hact : d.st = .active)
    (hc : AL.get q.hdr.context s.cmds.ctxs = some c) (hcd : c.domain = q.hdr.domain) (hring : s.ringDomain n = q.hdr.domain)
    (hep : s.epochOk false q.hdr.epoch = false) :
    s.admission q.src q.hdr op = .refuse s.epochRefusal.1 s.epochRefusal.2 false := by
  have h14 : s.admit14 q.src q.hdr op = .refuse s.epochRefusal.1 s.epochRefusal.2 := by
    unfold State.admit14
    simp only [hsrc, hd, hact, hc, hcd, hring, hep, hfence]
    rw [if_neg]
    · simp
    · simp [hflags]
  unfold State.admission
  simp only [h14]

theorem State.epochRefusal_eq (s : State) : s.epochRefusal =
    (if s.fld pgNode 0x21C 31 1 = 1 then stReroute else stStaleEpoch,
      if s.fld pgNode 0x21C 31 1 = 1 then s.fld pgNode 0x21C 0 16 else s.lease.cur.toNat) := by
  unfold State.epochRefusal
  split <;> rfl

/-- A NOP of a ring that is turned away completes in the ring with no effect. -/
theorem State.turnAway_nop {st c0 : Nat} (hsrc : q.src = .ring n) (hst : (st == stOk) = false) :
    s.turnAway q .nop st c0 false = (s.countIn q.src).ringComplete n ⟨q.hdr.tag, st, 0x32, q.hdr.context, c0, 0, 0, 0, 0⟩ false := by
  have hcpl : completionOf q.hdr Op.nop.code { status := st, c0 := c0 } = ⟨q.hdr.tag, st, 0x32, q.hdr.context, c0, 0, 0, 0, 0⟩ := by
    simp [completionOf, okStatus, Op.code]
  unfold State.turnAway State.deliver
  dsimp only
  rw [hcpl, hsrc]
  simp only [hst, Bool.and_false]
  rfl

end Sys2Proof.Machine
end

section
open Sys2Proof Sys2Proof.Machine

/-- Settles O11: which epochs are accepted is read off the check, and a descriptor that fails it alone is turned away with the epoch's
refusal, which for a NOP of a ring is one record. -/
theorem epochsAreAccepted : Obligations.EpochsAreAccepted := by
  unfold Obligations.EpochsAreAccepted
  refine ⟨fun s e h => State.epochOk_unleased h e, fun s e h => State.epochOk_leased h e, fun s c e k hst hc hcomp => ?_,
    fun s q op n len d c m ue hsrc hop hflags hfence hd hact hc hcd hring hep => ?_,
    fun s q n d c hrun hsrc hflags hfence hd hact hc hcd hring hep => ?_⟩
  · rw [State.connEpochOk_bound hst hc hcomp]
    exact State.epochOk_leased (by simp [hst]) e
  · unfold State.submit
    rw [State.admission_otherEpoch hsrc hop hflags hfence hd hact hc hcd hring hep, State.epochRefusal_eq]
  · have hadm := State.admission_otherEpoch (op := .nop) hsrc (by simp) (by simp [hflags]) hfence hd hact hc hcd hring hep
    have hst : ((if s.fld pgNode 0x21C 31 1 = 1 then stReroute else stStaleEpoch) == stOk) = false := by split <;> rfl
    rw [exec_nop]
    refine State.inService_keeps (f := fun x => x.command q .nop) hrun ?_ ?_ ?_
    · unfold State.command State.submit
      rw [hadm, State.epochRefusal_eq]
      exact State.turnAway_nop hsrc hst
    · simp
    · simp

end

section
/-!
SUPPORT. What the read of a region changes (R345): the registers, the interrupts, the KV store's frames and codes, and the counts of
errors, never the bytes read.
-/

namespace Sys2Proof.Machine

variable {s t : State}

/-- A state without what a read of Rack or Bench may change: the pseudo-random numbers, the registers, the host interface, the KV store,
the lane log and the records of errors. -/
def State.unread (s : State) : State := { s with
  fresh := 0, rf := State.reset.rf, host := State.reset.host, kv := KvState.blank, fw := { s.fw with laneLog := [] },
  integ := State.reset.integ }

theorem State.eq_of_unread (h : t.unread = s.unread) : t = { s with
    fresh := t.fresh, rf := t.rf, host := t.host, kv := t.kv, fw := { s.fw with laneLog := t.fw.laneLog }, integ := t.integ } := by
  cases s; cases t
  simp only [State.unread, State.mk.injEq] at h
  obtain ⟨hp, hn, -, hm, -, -, hc, hnet, heg, -, heng, hl, hs, hfw, -, hck, hpw⟩ := h
  subst_vars
  rename_i f g _ _
  cases f; cases g
  simp_all

theorem State.unread_congr (hp : t.pending = s.pending) (hn : t.nrt = s.nrt) (hm : t.mem = s.mem) (hc : t.cmds = s.cmds)
    (hnet : t.net = s.net) (heg : t.egress = s.egress) (heng : t.eng = s.eng) (hl : t.lease = s.lease) (hs : t.sec = s.sec)
    (hfw : { t.fw with laneLog := [] } = { s.fw with laneLog := [] }) (hck : t.ckpt = s.ckpt) (hpw : t.pw = s.pw) :
    t.unread = s.unread := by
  simp only [State.unread, State.mk.injEq]
  exact ⟨hp, hn, trivial, hm, trivial, trivial, hc, hnet, heg, trivial, heng, hl, hs, hfw, trivial, hck, hpw⟩

/-! ### One codeword -/

@[simp] theorem State.lostWord_unread (s : State) (a cls : Nat) (marker : Bool) : (s.lostWord a cls marker).unread = s.unread :=
  State.unread_congr (by simp) (by simp) (by simp) (by simp) (by simp) (by simp) (by simp) (by simp) (by simp) (by simp) (by simp) (by simp)

@[simp] theorem State.bump_unread (s : State) (pg off n : Nat) : (s.bump pg off n).unread = s.unread := rfl

theorem State.countLane_unread (s : State) (ch lane : Nat) : (s.countLane ch lane).unread = s.unread := by
  refine State.unread_congr (by simp) (by simp) (by simp) (by simp) (by simp) (by simp) (by simp) (by simp) (by simp) ?_ (by simp) (by simp)
  unfold State.countLane
  dsimp only
  repeat' split
  all_goals simp

@[simp] theorem State.corrected_unread (s : State) (a : Nat) (lanes : List Nat) : (s.corrected a lanes).unread = s.unread := by
  have hlanes (ch : Nat) (u : State) : (lanes.foldl (fun s l => s.countLane ch l) u).unread = u.unread :=
    State.foldl_keeps State.unread _ (fun x l => x.countLane_unread ch l) lanes u
  have hframe (u : State) (f : Nat) : (u.frameCe f).unread = u.unread :=
    State.unread_congr (by simp) (by simp) (by simp) (by simp) (by simp) (by simp) (by simp) (by simp) (by simp) (by simp) (by simp) (by simp)
  have herr (u : State) (pg : Nat) : (u.corrErr pg).unread = u.unread :=
    State.unread_congr (by simp) (by simp) (by simp) (by simp) (by simp) (by simp) (by simp) (by simp) (by simp) (by simp) (by simp) (by simp)
  unfold State.corrected
  dsimp only
  repeat' split
  all_goals simp only [hlanes, hframe, herr, State.bump_unread]

/-! ### A list of codewords, and a region -/

@[simp] theorem State.readList_unread (s : State) (ws : List Nat) (cls : Nat) : (s.readList ws cls).1.unread = s.unread := by
  refine State.foldl_fst_keeps State.unread _ (fun x w => ?_) ws (s, [])
  split
  · rfl
  all_goals simp

@[simp] theorem State.regionRead_unread (s : State) (g : Region) (o n : Nat) : (s.regionRead g o n).1.unread = s.unread := by
  unfold State.regionRead
  refine State.foldl_fst_keeps State.unread _ (fun x p => ?_) (regionSpans g o n) (s, false)
  exact State.readList_unread x.1 (wordsOf p.1 p.2) 1

theorem State.regionRead_bytes (s : State) (g : Region) (o n : Nat) :
    (s.regionRead g o n).2.1 = (regionSpans g o n).flatMap (fun p => s.mem.readN p.1 p.2) := rfl

theorem State.mem_of_unread (h : t.unread = s.unread) : t.mem = s.mem := (congrArg State.mem h :)
theorem State.net_of_unread (h : t.unread = s.unread) : t.net = s.net := (congrArg State.net h :)
theorem State.ckpt_of_unread (h : t.unread = s.unread) : t.ckpt = s.ckpt := (congrArg State.ckpt h :)
theorem State.desk_of_unread (h : t.unread = s.unread) : t.desk = s.desk :=
  State.desk_congr (congrArg State.pending h :) (congrArg State.nrt h :) (congrArg State.cmds h :)

theorem State.regionWord_congr (h : t.mem = s.mem) (g : Region) (o : Nat) : t.regionWord g o = s.regionWord g o := by
  simp only [State.regionWord, h]

end Sys2Proof.Machine
end

section
/-!
SUPPORT. WAIT_COUNT and WAIT_WORD (R354 to R359): what each finds when it runs, what its watch holds, and how it ends.
-/

namespace Sys2Proof.Machine

variable {s e : State} {q : Req} {n i : Nat} {g : Region}

theorem exec_waitCount (q : Req) (d : WaitCountD) (s : State) : exec (.waitCount q d) s = s.inService (·.command q (.waitCount d)) := rfl
theorem exec_waitWord (q : Req) (d : WaitWordD) (s : State) : exec (.waitWord q d) s = s.inService (·.command q (.waitWord d)) := rfl
theorem exec_waitCountMet (id : Nat) (s : State) : exec (.waitCountMet id) s = s.inService (·.waitCountMet id) := rfl
theorem exec_waitWordMet (id : Nat) (s : State) : exec (.waitWordMet id) s = s.inService (·.waitWordMet id) := rfl
theorem exec_waitTimeout (id : Nat) (s : State) : exec (.waitTimeout id) s = s.inService (·.waitTimeout id) := rfl

/-! ### An operation that lets its command wait, or ends it, having changed no command -/

theorem State.inService_waits_desk {op : Op} {t : State} {w : Wait} {k : Nat} (h : s.admits q op = true) (hfx : effectsAtOnce op = false)
    (hrun : (s.admitted q op).runOp (s.newCmd q op false) none false = .wait t w k) (hd : t.desk = (s.admitted q op).desk) :
    s.inService (·.command q op) = .next (t.setCmd { s.newCmd q op false with wait := w, c0 := k }) ∧
      (t.setCmd { s.newCmd q op false with wait := w, c0 := k }).cmd (s.newCmd q op false).id =
        some { s.newCmd q op false with wait := w, c0 := k } := by
  have hcmd : t.cmd (s.newCmd q op false).id = some (s.newCmd q op false) := by
    rw [State.cmd, State.cmds_of_desk hd]
    exact State.admitted_cmd s q op
  exact ⟨State.inService_waits h hfx hrun hcmd ((State.pending_of_desk hd).trans (s.admitted_pending q op))
    ((State.nrt_of_desk hd).trans (s.admitted_nrt q op)), State.find_setCmd (c := { s.newCmd q op false with wait := w, c0 := k }) hcmd⟩

/-! ### WAIT_COUNT -/

theorem State.runOp_waitCount {d : WaitCountD} (hsrc : q.src = .ring n) :
    e.runOp (s.newCmd q (.waitCount d) false) none false = e.doWaitCount q.hdr (.ring n) d := by
  unfold State.runOp
  rw [State.closedUnit_none rfl, ← hsrc]
  rfl

theorem State.doWaitCount_ordered {h : Hdr} {d : WaitCountD} (hok : e.watchOk n d = false) :
    e.doWaitCount h (.ring n) d = .done e { status := stWaitOrder } := by
  simp [State.doWaitCount, hok]

/-- The count that a WAIT_COUNT waits for. -/
theorem State.doWaitCount_watches {h : Hdr} {d : WaitCountD} {x : DWord} (hok : e.watchOk n d = true)
    (hx : x = (if h.flag 1 then (e.ring d.watch).done + BitVec.ofNat 64 d.target else BitVec.ofNat 64 d.target)) :
    e.doWaitCount h (.ring n) d = (e.countResult h d x (e.ring d.watch).fail).elim
      (.wait e (.count x (e.ring d.watch).fail (if d.timeoutUs = 0 then 0 else e.nrt + usTicks d.timeoutUs)) 0) (.done e ·) := by
  simp only [State.doWaitCount, hok, Bool.not_true, Bool.false_eq_true, if_false, ← hx]
  cases e.countResult h d x (e.ring d.watch).fail <;> rfl

theorem State.countResult_short {h : Hdr} {d : WaitCountD} {x f : DWord} (hx : (e.ring d.watch).done.toNat < x.toNat) :
    e.countResult h d x f = none := by simp [State.countResult, hx]

theorem State.countResult_reached {h : Hdr} {d : WaitCountD} {x f : DWord} (hx : x.toNat ≤ (e.ring d.watch).done.toNat)
    (hf : h.flag 0 = false) : e.countResult h d x f = some { status := stOk, c0 := (e.ring d.watch).done.toNat % 2 ^ 32 } := by
  simp [State.countResult, Nat.not_lt.mpr hx, hf]

theorem State.countResult_failed {h : Hdr} {d : WaitCountD} {x f : DWord} (hx : x.toNat ≤ (e.ring d.watch).done.toNat)
    (hf : h.flag 0 = true) (hfail : f.toNat < (e.ring d.watch).fail.toNat) : e.countResult h d x f =
      some { status := stAborted, c0 := (e.ring d.watch).done.toNat % 2 ^ 32, c1 := ((e.ring d.watch).fail - f).toNat % 2 ^ 32 } := by
  simp [State.countResult, Nat.not_lt.mpr hx, hf, hfail]

/-- A WAIT_COUNT that waits and has its result ends with it. -/
theorem State.waitCountMet_outcome {id till : Nat} {c : Cmd} {d : WaitCountD} {x f : DWord} {r : Result} (hrun : s.running = true)
    (hc : s.cmd id = some c) (hop : c.op = .waitCount d) (hw : c.wait = .count x f till) (hr : s.countResult c.hdr d x f = some r) :
    exec (.waitCountMet id) s = .next (s.finish c r) := by
  rw [exec_waitCountMet]
  refine State.inService_keeps (f := fun x => x.waitCountMet id) hrun ?_ (by simp) (by simp)
  simp only [State.waitCountMet, hc, hop, hw, hr]

/-! ### WAIT_WORD -/

theorem State.runOp_waitWord {d : WaitWordD} (hsrc : q.src = .ring n) :
    e.runOp (s.newCmd q (.waitWord d) false) none false = e.doWaitWord q.hdr (.ring n) d := by
  unfold State.runOp
  rw [State.closedUnit_none rfl, ← hsrc]
  rfl

/-- A WAIT_WORD of a ring whose fields and region are in order, and whose word is read without loss. -/
theorem State.doWaitWord_reads {h : Hdr} {d : WaitWordD} (hcond : d.cond ≤ 3) (hoff : d.offset % 8 = 0) (ht0 : d.timeoutUs ≠ 0)
    (htm : d.timeoutUs ≤ e.waitMax) (hchk : e.targetCheck h.domain none 0 d.handle d.offset 8 = stOk)
    (hg : e.byHandle d.handle = some (i, g)) (hread : (e.regionRead g d.offset 8).2.2 = false) :
    e.doWaitWord h (.ring n) d =
      if wordMeets d (e.regionWord g d.offset) = true then
        .done (e.regionRead g d.offset 8).1 (wordResult stOk (e.regionWord g d.offset))
      else .wait ((e.regionRead g d.offset 8).1.setRegion i { g with drain := g.drain + 1 })
        (.word ((e.regionRead g d.offset 8).1.nrt + usTicks d.timeoutUs) none) 0 := by
  have hfields : ¬ (3 < d.cond ∨ d.offset % 8 ≠ 0 ∨ d.timeoutUs = 0 ∨ e.waitMax < d.timeoutUs ∨
      ((none : Option Nat).isSome ∧ d.skip ≠ 0)) := by
    simp [hoff, ht0]
    omega
  simp only [State.doWaitWord]
  rw [if_neg hfields, if_neg (by simp [hchk]), hg]
  simp only [hread, Bool.false_eq_true, if_false]

theorem State.releaseWatch_eq {h : Nat} (hg : s.byHandle h = some (i, g)) : s.releaseWatch h =
    s.setRegion i { g with drain := g.drain - 1, drained := if g.st = .revoking then g.drained + 1 else g.drained } := by
  simp only [State.releaseWatch, hg]

@[simp] theorem State.region_setRegion (s : State) (i : Nat) (g : Region) : (s.setRegion i g).region i = some g := by
  simp [State.region, AL.get_put]

theorem State.waitWordMet_eq {id till : Nat} {c : Cmd} {d : WaitWordD} {w : DWord} (hc : s.cmd id = some c) (hop : c.op = .waitWord d)
    (hw : c.wait = .word till (some w)) : s.waitWordMet id = (s.releaseWatch d.handle).finish c (wordResult stOk w) := by
  simp only [State.waitWordMet, hc, hop, hw, State.endWord]

theorem State.waitTimeout_word {id till : Nat} {c : Cmd} {d : WaitWordD} (hc : s.cmd id = some c) (hop : c.op = .waitWord d)
    (hw : c.wait = .word till none) (ht : till ≤ s.nrt) (hg : s.byHandle d.handle = some (i, g)) :
    s.waitTimeout id = ((s.bump pgXprt 0x1B0 1).releaseWatch d.handle).finish c (wordResult stTimeout (s.regionWord g d.offset)) := by
  simp only [State.waitTimeout, hc, hop, hw, hg, Nat.not_lt.mpr ht, if_false, Option.isSome_none, Bool.false_eq_true, State.endWord]

theorem State.waitTimeout_count {id till : Nat} {c : Cmd} {d : WaitCountD} {x f : DWord} (hc : s.cmd id = some c)
    (hop : c.op = .waitCount d) (hw : c.wait = .count x f till) (h0 : till ≠ 0) (ht : till ≤ s.nrt)
    (hnone : s.countResult c.hdr d x f = none) : s.waitTimeout id =
      (s.bump pgXprt 0x1B0 1).finish c { status := stTimeout, c0 := (s.ring d.watch).done.toNat % 2 ^ 32 } := by
  simp only [State.waitTimeout, hc, hop, hw, hnone, h0, Nat.not_lt.mpr ht, false_or, if_false]

end Sys2Proof.Machine
end

section
open Sys2Proof Sys2Proof.Machine

/-- Settles O48: a wait reads its queue or its word once, ends or watches, and each of its ends releases what it held and finishes it. -/
theorem waitsEndOrTimeOut : Obligations.WaitsEndOrTimeOut := by
  unfold Obligations.WaitsEndOrTimeOut
  refine ⟨fun s e q d n r h he hsrc hok hr => ?_, fun s e q d n x h he hsrc hok hx hlt => ?_, fun s e q d n h he hsrc hok => ?_,
    fun s id till c d x f hrun hc hop hw hf hx => State.waitCountMet_outcome hrun hc hop hw (State.countResult_reached hx hf),
    fun s id till c d x f hrun hc hop hw hf hx hfail =>
      State.waitCountMet_outcome hrun hc hop hw (State.countResult_failed hx hf hfail),
    fun s e q d n i g h he hsrc hcond hoff ht0 htm hchk hg hmeets hread => ?_,
    fun s e u q d n i g h he hsrc hcond hoff ht0 htm hchk hg hmeets hu hread => ?_,
    fun s id till i c d w g hrun hc hop hw hg => ?_, fun s id till i c d g hrun hc hop hw ht hg => ?_,
    fun s id till c d x f hrun hc hop hw h0 ht hnone => ?_⟩
  · subst he
    refine State.inService_ends_desk h ?_ rfl rfl
    rw [State.runOp_waitCount hsrc, State.doWaitCount_watches hok rfl, hr, Option.elim]
  · subst he
    have hwait := State.inService_waits_desk h rfl (t := s.admitted q (.waitCount d)) (k := 0)
      (w := .count x ((s.admitted q (.waitCount d)).ring d.watch).fail (if d.timeoutUs = 0 then 0 else s.nrt + 100 * d.timeoutUs))
      (by rw [State.runOp_waitCount hsrc, State.doWaitCount_watches hok hx, State.countResult_short hlt, Option.elim, State.admitted_nrt, usTicks,
            Nat.mul_comm]) rfl
    exact ⟨_, hwait.1, hwait.2, rfl⟩
  · subst he
    exact State.inService_ends_desk h (by rw [State.runOp_waitCount hsrc, State.doWaitCount_ordered hok]) rfl rfl
  · subst he
    have hkeep := (s.admitted q (.waitWord d)).regionRead_unread g d.offset 8
    refine State.inService_ends_desk h ?_ (State.desk_of_unread hkeep) (State.ckpt_of_unread hkeep)
    rw [State.runOp_waitWord hsrc, State.doWaitWord_reads hcond hoff ht0 htm hchk hg hread, if_pos hmeets]
    rfl
  · subst he hu
    have hdesk := State.desk_of_unread ((s.admitted q (.waitWord d)).regionRead_unread g d.offset 8)
    have hwait := State.inService_waits_desk h rfl (k := 0) (w := .word (s.nrt + 100 * d.timeoutUs) none)
      (t := ((s.admitted q (.waitWord d)).regionRead g d.offset 8).1.setRegion i { g with drain := g.drain + 1 })
      (by rw [State.runOp_waitWord hsrc, State.doWaitWord_reads hcond hoff ht0 htm hchk hg hread, if_neg (by simp [hmeets]),
            State.nrt_of_desk hdesk, State.admitted_nrt, usTicks, Nat.mul_comm])
      hdesk
    exact ⟨_, hwait.1, hwait.2, State.region_setRegion .., rfl⟩
  · refine ⟨s.releaseWatch d.handle, ?_, by rw [State.releaseWatch_eq hg]; simp, by rw [State.releaseWatch_eq hg]; rfl⟩
    rw [exec_waitWordMet]
    exact State.inService_keeps (f := fun x => x.waitWordMet id) hrun (State.waitWordMet_eq hc hop hw) (by simp) (by simp)
  · have hgb : (s.bump pgXprt 0x1B0 1).byHandle d.handle = some (i, g) := hg
    refine ⟨(s.bump pgXprt 0x1B0 1).releaseWatch d.handle, ?_, ?_, by rw [State.releaseWatch_eq hgb]; simp, ?_⟩
    · rw [exec_waitTimeout]
      exact State.inService_keeps (f := fun x => x.waitTimeout id) hrun (State.waitTimeout_word hc hop hw ht hg) (by simp) (by simp)
    · rw [State.releaseWatch_eq hgb]
      exact State.reg_bump ..
    · rw [State.releaseWatch_eq hgb]
      rfl
  · refine ⟨s.bump pgXprt 0x1B0 1, ?_, State.reg_bump .., rfl⟩
    rw [exec_waitTimeout]
    exact State.inService_keeps (f := fun x => x.waitTimeout id) hrun (State.waitTimeout_count hc hop hw h0 ht hnone) (by simp) (by simp)

end

section
/-!
SUPPORT. Outbound operations (R340 to R344, R360, R361): what the pump changes, how a remote operation of a ring goes out, and how its
response ends it.
-/

namespace Sys2Proof.Machine

variable {s e : State} {q : Req} {n : Nat} {op : Op} {k : Conn} {d : RmaD}

/-! ### The pump -/

/-- A state without its registers, host interface and connections. -/
def State.unsent (s : State) : State := { s with rf := State.reset.rf, host := State.reset.host, net := .blank }

theorem State.eq_of_unsent {t : State} (h : t.unsent = s.unsent) : t = { s with rf := t.rf, host := t.host, net := t.net } := by
  cases s; cases t
  simp only [State.unsent, State.mk.injEq] at h ⊢
  simp_all

@[simp] theorem State.sendMsg_unsent (s : State) (c : Conn) (lane : Lane) (epoch : Word) (bytes : List Byte) :
    (s.sendMsg c lane epoch bytes).unsent = s.unsent := rfl

/-- What an outbound operation keeps of itself when it is sent. -/
def outSpec (o : Outbound) : Initiator × Nat × Nat × Option (Nat × Nat) × List Byte × Bool :=
  (o.who, o.conn, o.slots, o.peer, o.body, o.abandoned)

/-- The pump sends what it can and changes no operation otherwise: the list stays as it was but for `sent` and `msgId`. -/
theorem State.pumpOutbound_outcome (s : State) : s.pumpOutbound.unsent = s.unsent ∧
    s.pumpOutbound.net.outbound.map outSpec = s.net.outbound.map outSpec := by
  have hlow (a b : State) : (a.poolLow b).unsent = b.unsent ∧ (a.poolLow b).net = b.net := by
    unfold State.poolLow
    split
    · exact ⟨by simp [State.unsent], by simp⟩
    · exact ⟨rfl, rfl⟩
  unfold State.pumpOutbound
  dsimp only
  rw [(hlow _ _).1, (hlow _ _).2]
  refine ⟨?_, ?_⟩
  · refine State.foldl_fst_keeps State.unsent _ (fun x o => ?_) s.net.outbound (s, [])
    split
    · rfl
    · split <;> rfl
  · have hfold (g : State × List Outbound → Outbound → State × List Outbound)
        (hg : ∀ x o, (g x o).2.map outSpec = x.2.map outSpec ++ [outSpec o]) (l : List Outbound) (x : State × List Outbound) :
        (l.foldl g x).2.map outSpec = x.2.map outSpec ++ l.map outSpec := by
      induction l generalizing x with
      | nil => simp
      | cons o l ih => rw [List.foldl_cons, ih, hg, List.map_cons, List.append_assoc, List.singleton_append]
    refine (hfold _ (fun x o => ?_) s.net.outbound (s, [])).trans (List.nil_append _)
    split
    · exact List.map_append
    · split
      · exact List.map_append
      · exact List.map_append

@[simp] theorem State.pumpOutbound_unsent (s : State) : s.pumpOutbound.unsent = s.unsent := s.pumpOutbound_outcome.1

/-- An outbound operation that stands before the pump stands after it too. -/
theorem State.pumpOutbound_mem {o : Outbound} (h : o ∈ s.net.outbound) :
    ∃ p ∈ s.pumpOutbound.net.outbound, p.who = o.who ∧ p.conn = o.conn ∧ p.slots = o.slots ∧ p.body = o.body := by
  have hmem : outSpec o ∈ s.pumpOutbound.net.outbound.map outSpec := by
    rw [s.pumpOutbound_outcome.2]
    exact List.mem_map_of_mem h
  obtain ⟨p, hp, hspec⟩ := List.mem_map.mp hmem
  simp only [outSpec, Prod.mk.injEq] at hspec
  obtain ⟨hw, hc, hs, -, hb, -⟩ := hspec
  exact ⟨p, hp, hw, hc, hs, hb⟩

/-! ### Remote operations of a ring -/

/-- The request message of a remote operation (Table 14-4), and the data of a write. -/
def State.rmaMessage (e : State) (q : Req) (op : Op) (k : Conn) (d : RmaD) : List Byte :=
  rmaDesc op.code q.hdr.context q.hdr.domain q.hdr.lc q.hdr.tag (if k.composition = 0xFFFF then 0 else q.hdr.epoch) d.handle d.offset d.length
    d.operand d.compare ++ (match op with | .rmaWrite _ => e.ringRead d.localAddr d.length | _ => [])

/-- The outbound operation that a remote operation of a ring becomes. -/
def State.rmaOutbound (e : State) (q : Req) (op : Op) (id : Nat) (k : Conn) (d : RmaD) : Outbound :=
  ⟨.cmd id, connId k, false, 0, match op with | .rmaRead _ => respSlots d.length | _ => 0, none, e.rmaMessage q op k d, false⟩

/-- A remote operation as a ring's command carries it. -/
def rmaOf (op : Op) : Option RmaD :=
  match op with
  | .rmaRead d | .rmaWrite d | .rmaAdd d | .rmaCas d | .rmaFlush d => some d
  | _ => none

theorem op_of_rmaOf (h : rmaOf op = some d) :
    op = .rmaRead d ∨ op = .rmaWrite d ∨ op = .rmaAdd d ∨ op = .rmaCas d ∨ op = .rmaFlush d := by
  unfold rmaOf at h
  split at h <;> simp_all

/-- Whether an operation moves data of the ring's area (R341, R342). -/
def usesArea (op : Op) : Bool :=
  match op with
  | .rmaRead _ | .rmaWrite _ => true
  | _ => false

theorem State.runOp_rma (hop : rmaOf op = some d) (hsrc : q.src = .ring n) :
    e.runOp (s.newCmd q op false) none false = e.sendRma (s.newCmd q op false) d := by
  have hs (op : Op) : (s.newCmd q op false).src = .ring n := hsrc
  obtain rfl | rfl | rfl | rfl | rfl := op_of_rmaOf hop
  all_goals
    unfold State.runOp
    rw [State.closedUnit_none rfl]
    simp only [hs]
    rfl

theorem State.sendRma_waits (hop : rmaOf op = some d) (hok : rmaFieldsOk op d = true) (hk : e.connOf d.conn = some k)
    (hd : k.domain = q.hdr.domain) (harea : usesArea op = true → e.inDataArea q.hdr.domain d.localAddr d.length = true) :
    e.sendRma (s.newCmd q op false) d =
      .wait (e.queueOutbound (e.rmaOutbound q op (s.newCmd q op false).id k d)).pumpOutbound .remote 0 := by
  have hh : (s.newCmd q op false).hdr = q.hdr := rfl
  have ho : (s.newCmd q op false).op = op := rfl
  have hdom : (k.domain != q.hdr.domain) = false := by simp [hd]
  unfold State.sendRma
  simp only [hh, ho, hok, hk, hdom, Bool.not_true, Bool.false_eq_true, if_false]
  obtain rfl | rfl | rfl | rfl | rfl := op_of_rmaOf hop
  · simp [harea rfl, State.rmaOutbound, State.rmaMessage]
  · simp [harea rfl, State.rmaOutbound, State.rmaMessage]
  · simp [State.rmaOutbound, State.rmaMessage]
  · simp [State.rmaOutbound, State.rmaMessage]
  · simp [State.rmaOutbound, State.rmaMessage]

theorem State.sendRma_refused (hok : rmaFieldsOk op d = true) (hk : ∀ k, e.connOf d.conn = some k → k.domain ≠ q.hdr.domain) :
    e.sendRma (s.newCmd q op false) d = .done e { status := stAccess } := by
  have hh : (s.newCmd q op false).hdr = q.hdr := rfl
  have ho : (s.newCmd q op false).op = op := rfl
  unfold State.sendRma
  simp only [hh, ho, hok, Bool.not_true, Bool.false_eq_true, if_false]
  cases hc : e.connOf d.conn with
  | none => rfl
  | some k =>
    have hne : (k.domain != q.hdr.domain) = true := by simpa using hk k hc
    simp only [hne, Bool.true_or, if_true]

/-- A remote operation of a ring waits for its response and stands among the outbound operations. -/
theorem State.rma_outcome (h : s.admits q op = true) (hop : rmaOf op = some d) (hsrc : q.src = .ring n) (hok : rmaFieldsOk op d = true)
    (hk : (s.admitted q op).connOf d.conn = some k) (hd : k.domain = q.hdr.domain)
    (harea : usesArea op = true → (s.admitted q op).inDataArea q.hdr.domain d.localAddr d.length = true)
    {slots : Nat} (hslots : ((s.admitted q op).rmaOutbound q op (s.newCmd q op false).id k d).slots = slots) {body : List Byte}
    (hbody : (s.admitted q op).rmaMessage q op k d = body) :
    ∃ t o, s.inService (·.command q op) = .next t ∧
      t.cmd (s.newCmd q op false).id = some { s.newCmd q op false with wait := .remote } ∧ o ∈ t.net.outbound ∧
      o.who = .cmd (s.newCmd q op false).id ∧ o.conn = connId k ∧
      o.slots = slots ∧ o.body = body ∧
      t = { s.admitted q op with rf := t.rf, host := t.host, cmds := t.cmds, net := t.net } := by
  subst hslots hbody
  generalize he : s.admitted q op = e at hk harea ⊢
  have hfx : effectsAtOnce op = false := by
    obtain rfl | rfl | rfl | rfl | rfl := op_of_rmaOf hop
    all_goals rfl
  generalize ho : e.rmaOutbound q op (s.newCmd q op false).id k d = o
  have hq : o ∈ (e.queueOutbound o).net.outbound := by
    rw [← ho]
    exact List.mem_append_right _ (List.mem_singleton.mpr rfl)
  obtain ⟨p, hp, hwho, hconn, hslots, hbody⟩ := State.pumpOutbound_mem hq
  have hkeep : (e.queueOutbound o).pumpOutbound.unsent = e.unsent := by
    rw [State.pumpOutbound_unsent, ← ho]
    rfl
  have hdesk : (e.queueOutbound o).pumpOutbound.desk = e.desk := by
    rw [State.pumpOutbound_desk, ← ho]
    rfl
  obtain ⟨hexec, hcmd⟩ := State.inService_waits_desk h hfx (t := (e.queueOutbound o).pumpOutbound) (w := .remote) (k := 0)
    (by rw [he, State.runOp_rma hop hsrc, State.sendRma_waits hop hok hk hd harea, ho]) (by rw [he]; exact hdesk)
  have heq := State.eq_of_unsent hkeep
  refine ⟨_, p, hexec, hcmd, hp, hwho.trans (by rw [← ho]; rfl), hconn.trans (by rw [← ho]; rfl), hslots, hbody.trans (by rw [← ho]; rfl), ?_⟩
  rw [State.setCmd, heq]

/-! ### The response -/

theorem State.dropOutbound_alone {o : Outbound} (hp : o.peer = none) : s.dropOutbound o = { s with net := { s.net with
    outbound := s.net.outbound.erase o
    respReserved := if o.sent then s.net.respReserved - o.slots else s.net.respReserved } } := by
  unfold State.dropOutbound
  simp only [hp]
  rfl

theorem exec_rmaResponse (cn id st c0 c1 : Nat) (data : List Byte) (s : State) :
    exec (.rmaResponse cn id st c0 c1 data) s = s.inService (·.answerArrives cn id st c0 c1 data) := rfl

end Sys2Proof.Machine
end

section
open Sys2Proof Sys2Proof.Machine

/-- Settles O46: each operation goes out as `rma_outcome` says, and a response drops its operation before it ends the command. -/
theorem remoteOperationsAreSent : Obligations.RemoteOperationsAreSent := by
  unfold Obligations.RemoteOperationsAreSent
  refine ⟨fun s e q d c n k h he hc hsrc hok hk hd harea => ?_, fun s e q d c n k h he hc hsrc hok hk hd harea => ?_,
    fun s e q d c n k h he hc hsrc hok hk hd => ?_, fun s e q d c n k h he hc hsrc hok hk hd => ?_,
    fun s e q d c n k h he hc hsrc hok hk hd => ?_, fun s e q d n h he hsrc hok hk => ?_,
    fun s cn id st c0 c1 data k o c hrun hcn ho hab hp hwho hc => ?_, fun s cn id st c0 c1 data k o hrun hcn ho hab hp => ?_⟩
  · subst he hc
    exact State.rma_outcome h rfl hsrc hok hk hd (fun _ => harea) rfl (List.append_nil _)
  · subst he hc
    exact State.rma_outcome h rfl hsrc hok hk hd (fun _ => harea) rfl rfl
  · subst he hc
    exact State.rma_outcome h rfl hsrc hok hk hd nofun rfl (List.append_nil _)
  · subst he hc
    exact State.rma_outcome h rfl hsrc hok hk hd nofun rfl (List.append_nil _)
  · subst he hc
    exact State.rma_outcome h rfl hsrc hok hk hd nofun rfl (List.append_nil _)
  · subst he
    exact State.inService_ends_desk h ((State.runOp_rma rfl hsrc).trans (State.sendRma_refused hok hk)) rfl rfl
  · refine ⟨s.dropOutbound o, ?_, ?_, ?_, ?_⟩
    · rw [exec_rmaResponse]
      refine State.inService_keeps (f := fun x => x.answerArrives cn id st c0 c1 data) hrun ?_
        ((State.pending_of_desk (State.pumpOutbound_desk _)).trans (by simp))
        ((State.nrt_of_desk (State.pumpOutbound_desk _)).trans (by simp))
      have hcmd : (s.dropOutbound o).cmd c.id = some c := by
        rw [State.dropOutbound_alone hp]
        exact hc
      simp only [State.answerArrives, hcn, State.rmaAnswered, ho, hp, hab, Bool.false_eq_true, if_false, hwho, hcmd]
      cases c.op <;> simp
    · rw [State.dropOutbound_alone hp]
    · rw [State.dropOutbound_alone hp]
    · rw [State.dropOutbound_alone hp]
  · refine ⟨s.dropOutbound o, ?_, ?_, ?_⟩
    · rw [exec_rmaResponse]
      refine State.inService_keeps (f := fun x => x.answerArrives cn id st c0 c1 data) hrun ?_
        ((State.pending_of_desk (State.pumpOutbound_desk _)).trans (by simp))
        ((State.nrt_of_desk (State.pumpOutbound_desk _)).trans (by simp))
      simp only [State.answerArrives, hcn, State.rmaAnswered, ho, hp, hab, if_true]
    · rw [State.dropOutbound_alone hp]
    · rw [State.dropOutbound_alone hp]

end

section
/-!
SUPPORT. The start bits and the locate bit of the NODE page (Tables 20-3 and 20-9), and what an orderly stop keeps (R486).
-/

namespace Sys2Proof.Machine

variable {s : State}

theorem exec_restart (ag : Agent) (s : State) : exec (.restart ag) s = s.did (s.poke ag pgNode 0x268 1) := rfl
theorem exec_clearFails (ag : Agent) (s : State) : exec (.clearFails ag) s = s.did (s.poke ag pgNode 0x268 2) := rfl
theorem exec_forceUnleavened (ag : Agent) (s : State) : exec (.forceUnleavened ag) s = s.did (s.poke ag pgNode 0x268 4) := rfl
theorem exec_locate (ag : Agent) (s : State) : exec (.locate ag) s = s.did (s.poke ag pgNode 0x278 1) := rfl

/-- A write of the start bits: FORCE, CLEAR_FAILS and RESTART in this order. -/
theorem State.act_start (s : State) (ag : Agent) (v : Word) : s.act ag pgNode 0x268 v =
    (let t := if bitOf v.toNat 2 then s.forceUnleavened else s
     let u := if bitOf v.toNat 1 then t.clearFails else t
     if bitOf v.toNat 0 then u.restart else u) := rfl

theorem State.act_restart (s : State) (ag : Agent) : s.act ag pgNode 0x268 (w32 1) = s.restart := by
  rw [State.act_start, show bitOf (w32 1).toNat 2 = false from rfl, show bitOf (w32 1).toNat 1 = false from rfl,
    show bitOf (w32 1).toNat 0 = true from rfl]
  simp only [Bool.false_eq_true, if_true, if_false]
theorem State.act_clearFails (s : State) (ag : Agent) : s.act ag pgNode 0x268 (w32 2) = s.clearFails := rfl
theorem State.act_force (s : State) (ag : Agent) : s.act ag pgNode 0x268 (w32 4) = s.forceUnleavened := rfl
theorem State.act_locate (s : State) (ag : Agent) : s.act ag pgNode 0x278 (w32 1) = s.locateOn := rfl

/-- The state that an orderly stop takes the rails off: the audit head and the lanes of the running cores are in flash (R486). -/
def State.parted (s : State) : State :=
  (List.range 4).foldl (fun (s : State) q => if (s.core (3 + q)).up then s.recordLanes q else s) (if (s.core 0).up then s.flushHead else s)

theorem State.orderlyStop_eq (s : State) : s.orderlyStop = s.parted.railsOff := rfl

theorem State.parted_kept (s : State) : s.parted.pending = s.pending ∧ s.parted.nrt = s.nrt ∧ s.parted.pw = s.pw ∧
    ((s.core 0).up = true → s.parted.sec.flushed = (s.sec.auditSeq - 1, s.sec.auditHead)) := by
  have hlanes {α : Type} (π : State → α) (h : ∀ (u : State) q, π (u.recordLanes q) = π u) (u : State) :
      π ((List.range 4).foldl (fun (s : State) q => if (s.core (3 + q)).up then s.recordLanes q else s) u) = π u := by
    refine State.foldl_keeps π _ (fun x q => ?_) _ u
    split
    · exact h x q
    · rfl
  unfold State.parted
  rw [hlanes State.pending (by simp), hlanes State.nrt (by simp), hlanes State.pw (by simp), hlanes State.sec (by simp)]
  split
  · exact ⟨by simp, by simp, by simp, fun _ => rfl⟩
  · exact ⟨rfl, rfl, rfl, fun h => absurd h ‹_›⟩

/-- What goes with the rails, and what stays: the flash, the fuses and the clock (R478). -/
theorem State.railsOff_outcome (s : State) : s.railsOff.pending = s.pending ∧ s.railsOff.nrt = s.nrt ∧ s.railsOff.net = .blank ∧
    s.railsOff.eng = .blank ∧ s.railsOff.ckpt = .blank ∧ s.railsOff.host.rings = [] ∧ s.railsOff.pw.fails = s.pw.fails ∧
    s.railsOff.pw.log = s.pw.log ∧ s.railsOff.sec.flushed = s.sec.flushed := ⟨rfl, rfl, rfl, rfl, rfl, rfl, rfl, rfl, rfl⟩

/-- A node that an orderly stop leaves starts again after 1 s (R485). -/
theorem State.restart_eq (h : s.awake = true) : s.restart = { s.orderlyStop with pw := { s.orderlyStop.pw with
    st := .starting, step := 0, startAt := s.orderlyStop.nrt, retryAt := some (s.orderlyStop.nrt + 100000000) } } := if_pos h

end Sys2Proof.Machine
end

section
open Sys2Proof Sys2Proof.Machine

/-- Settles O17: each write acts on its bit alone, RESTART by an orderly stop. -/
theorem nodeBitsActOnTheStart : Obligations.NodeBitsActOnTheStart := by
  unfold Obligations.NodeBitsActOnTheStart
  refine ⟨fun s ag hw hup => ?_, fun s ag hw hup => ?_, fun s ag hw => ?_, fun s ag hw => ?_, fun s ag hw => ?_⟩
  · obtain ⟨hmem, hkv, hlease, hcmds, hboot, -⟩ := s.orderlyStop_lost
    obtain ⟨hp, hn, hnet, heng, hck, hrings, hfails, hlog, hflush⟩ := s.parted.railsOff_outcome
    obtain ⟨hpp, hnp, hpwp, hflushp⟩ := s.parted_kept
    rw [← State.orderlyStop_eq] at hp hn hnet heng hck hrings hfails hlog hflush
    rw [hpp] at hp
    rw [hnp] at hn
    rw [hpwp] at hfails hlog
    have hgo : s.poke ag pgNode 0x268 1 = s.restart := (State.poke_applied hw (by decide) 1).trans (s.act_restart ag)
    rw [exec_restart, hgo, State.restart_eq hup]
    generalize s.orderlyStop = u at *
    exact ⟨_, State.did_of_keeps hp hn, rfl, rfl, by rw [hn], hmem, hkv, hlease, hcmds, hnet, heng, hck, hrings, hfails, hlog, hboot, hn, hp,
      fun hcore => hflush.trans (hflushp hcore)⟩
  · have hgo : s.poke ag pgNode 0x268 1 = s.cfgRej pgNode := by
      rw [State.poke_applied hw (by decide), State.act_restart, State.restart, if_neg (by simp [hup])]
    rw [exec_restart, State.did_of_keeps (by rw [hgo]; simp) (by rw [hgo]; simp), hgo]
  · rw [exec_clearFails, State.poke_applied hw (by decide), State.act_clearFails]
    exact State.did_of_keeps rfl rfl
  · rw [exec_forceUnleavened, State.poke_applied hw (by decide), State.act_force]
    exact State.did_of_keeps rfl rfl
  · rw [exec_locate, State.poke_applied hw (by decide), State.act_locate]
    exact State.did_of_keeps rfl rfl

end

section
/-!
SUPPORT. The steps of a start (Table 20-4, R484, R485): what the work of a step leaves as it was, how a step that passes goes on, and how a
start that fails is repeated.
-/

namespace Sys2Proof.Machine

variable {s t : State}

theorem exec_bootStepDone (o : BootOutcome) (s : State) : exec (.bootStepDone o) s = s.did (s.bootStepDone o) := rfl
theorem exec_bootStepTimeout (s : State) : exec .bootStepTimeout s = s.did s.bootStepLate := rfl
theorem exec_startRetry (s : State) : exec .startRetry s = s.did s.startRetry := rfl
theorem exec_imageWindowExpire (s : State) : exec .imageWindowExpire s = s.did s.imageWindowEnds := rfl

/-! ### What the work of a step leaves -/

/-- What no work of a step from 2 to 7 changes. -/
def State.bootKept (s : State) : List Instr × Nat × CmdState × KvState × LeaseState × PowerState :=
  (s.pending, s.nrt, s.cmds, s.kv, s.lease, s.pw)

theorem State.bootKept_congr (hp : t.pending = s.pending) (hn : t.nrt = s.nrt) (hc : t.cmds = s.cmds) (hk : t.kv = s.kv) (hl : t.lease = s.lease)
    (hpw : t.pw = s.pw) : t.bootKept = s.bootKept := by simp only [State.bootKept, hp, hn, hc, hk, hl, hpw]

theorem State.of_bootKept (h : t.bootKept = s.bootKept) : t.pending = s.pending ∧ t.nrt = s.nrt ∧ t.cmds = s.cmds ∧ t.kv = s.kv ∧
    t.lease = s.lease ∧ t.pw = s.pw := by simpa only [State.bootKept, Prod.mk.injEq] using h

/-- The images that a start has to choose from. -/
def State.images (s : State) : List (Nat × ImgKind) × List (Nat × ImageInfo) := (s.fw.kinds, s.fw.hostImgs)

theorem State.substituted_congr (h : t.images = s.images) (c : Nat) : t.substituted c = s.substituted c := by
  simp only [State.images, Prod.mk.injEq] at h
  simp only [State.substituted, State.kind, h]

theorem State.coreBoots_outcome (s : State) (c : Nat) : (s.coreBoots c).bootKept = s.bootKept ∧ (s.coreBoots c).rf.fenced = s.rf.fenced ∧
    (s.coreBoots c).images = s.images ∧ (s.substituted c = false → (s.coreBoots c).mem = s.mem) := by
  refine ⟨State.bootKept_congr (by simp) (by simp) (by simp) (by simp) (by simp) (by simp), ?_, ?_, fun h => ?_⟩
  · unfold State.coreBoots
    dsimp only
    split <;> simp [State.setCore]
  · unfold State.coreBoots
    dsimp only
    split <;> simp [State.images, State.setCore, State.logLine]
  · unfold State.coreBoots
    dsimp only
    rw [h]
    simp [State.setCore]

theorem State.core_congr (h : t.fw = s.fw) (c : Nat) : t.core c = s.core c := by rw [State.core, State.core, h]

/-- A line of its log leaves a core UP or not as it was, and no other core changes. -/
theorem State.logLine_core (s : State) (c level event : Nat) : ((s.logLine c level event).core c).up = (s.core c).up ∧
    ∀ d, d ≠ c → (s.logLine c level event).core d = s.core d := by
  have hnext (u : State) (d : Nat) : u.nextFresh.core d = u.core d := State.core_congr (State.nextFresh_fw u) d
  unfold State.logLine
  dsimp only
  generalize s.mem.writeN _ _ = m
  refine ⟨?_, fun d hd => ?_⟩
  · rw [hnext, State.core_setCore]
  · rw [hnext, State.core_setCore_ne hd]
    rfl

/-- A core that boots is UP, and no other core changes. -/
theorem State.coreBoots_core (s : State) (c : Nat) : ((s.coreBoots c).core c).up = true ∧ ∀ d, d ≠ c → (s.coreBoots c).core d = s.core d := by
  unfold State.coreBoots
  dsimp only
  generalize s.bootImage c = i
  have hirq (u : State) (d : Nat) : (u.setIrq pgMbox (2 ^ (8 + c))).core d = u.core d := State.core_congr (State.setIrq_fw ..) d
  split
  · refine ⟨?_, fun d hd => ?_⟩
    · rw [(State.logLine_core ..).1, hirq, State.core_setCore]
    · rw [(State.logLine_core ..).2 d hd, hirq, State.core_setCore_ne hd]
  · refine ⟨?_, fun d hd => ?_⟩
    · rw [hirq, State.core_setCore]
    · rw [hirq, State.core_setCore_ne hd]

/-! ### The work of a step -/

/-- The cores of the quadrants that have a tile left (R487). -/
def State.bootQuads (s : State) : State := (List.range 4).foldl (fun (s : State) q =>
  if (List.range 6).all (fun i => s.tileFenced (6 * q + i)) then s else s.coreBoots (3 + q)) s

theorem State.tileFenced_congr (h : t.rf.fenced = s.rf.fenced) (n : Nat) : t.tileFenced n = s.tileFenced n := by
  rw [State.tileFenced, State.tileFenced, State.pageFenced, State.pageFenced, h]

theorem State.bootQuads_keeps {α : Type} (π : State → α) (h : ∀ (u : State) q, π (u.coreBoots q) = π u) (s : State) :
    π s.bootQuads = π s := by
  refine State.foldl_keeps π _ (fun u q => ?_) _ s
  split
  · rfl
  · exact h u _

/-- The images stay, so none that boots is substituted if none was to be. -/
theorem State.bootQuads_mem (h : ∀ c, s.substituted c = false) : s.bootQuads.mem = s.mem := by
  have hstep (l : List Nat) (u : State) (hu : u.images = s.images) :
      (l.foldl (fun (s : State) q => if (List.range 6).all (fun i => s.tileFenced (6 * q + i)) then s else s.coreBoots (3 + q)) u).mem =
        u.mem := by
    induction l generalizing u with
    | nil => rfl
    | cons q l ih =>
      rw [List.foldl_cons]
      split
      · exact ih u hu
      · obtain ⟨-, -, himg, hmem⟩ := u.coreBoots_outcome (3 + q)
        rw [ih _ (himg.trans hu), hmem ((State.substituted_congr hu _).trans (h _))]
  exact hstep _ s rfl

theorem State.bootQuads_core {c : Nat} (hc : c < 3) (s : State) : s.bootQuads.core c = s.core c := by
  refine State.foldl_keeps (·.core c) _ (fun u q => ?_) _ s
  split
  · rfl
  · exact (u.coreBoots_core (3 + q)).2 c (by omega)

theorem State.stepWork_seven (s : State) (lanes : List (Nat × Nat)) : s.stepWork 7 lanes = (s.coreBoots 2).bootQuads := rfl

/-- No page of a channel is the page that stands for a tile. -/
theorem pgTile_zero_ne_pgMchn (n ch : Nat) : pgTile n 0 ≠ pgMchn ch := by
  unfold pgMchn pgTile
  omega

theorem State.tileFenced_fencePage {pg : Nat} (h : ∀ n, pgTile n 0 ≠ pg) (s : State) (n : Nat) :
    (s.fencePage pg).tileFenced n = s.tileFenced n := by
  unfold State.tileFenced State.pageFenced State.fencePage
  split
  · rfl
  · simp [h n]

theorem State.repairLanes_tiles (s : State) (failed : List (Nat × Nat)) (n : Nat) :
    (s.repairLanes failed).tileFenced n = s.tileFenced n := by
  have hlane (u : State) (x : Nat × Nat) (b : Bool) : (u.repairLane x b).tileFenced n = u.tileFenced n := by
    refine State.tileFenced_congr ?_ n
    unfold State.repairLane
    dsimp only
    repeat' split
    all_goals simp
  unfold State.repairLanes
  dsimp only
  rw [State.foldl_keeps (·.tileFenced n) _ (fun u ch => u.tileFenced_fencePage (fun m => pgTile_zero_ne_pgMchn m ch) n)]
  exact State.foldl_keeps (·.tileFenced n) _ (fun u x => hlane u x _) _ _

/-- What the work of a step from 2 to 7 leaves as it was. -/
theorem State.stepWork_outcome {n : Nat} (h2 : 2 ≤ n) (h7 : n ≤ 7) (lanes : List (Nat × Nat)) :
    (s.stepWork n lanes).bootKept = s.bootKept ∧ (∀ i, (s.stepWork n lanes).tileFenced i = s.tileFenced i) ∧
      ((∀ c, s.substituted c = false) → (s.stepWork n lanes).mem = s.mem) := by
  have hcore (c : Nat) : (s.coreBoots c).bootKept = s.bootKept ∧ (∀ i, (s.coreBoots c).tileFenced i = s.tileFenced i) ∧
      ((∀ c, s.substituted c = false) → (s.coreBoots c).mem = s.mem) := by
    obtain ⟨hk, hf, -, hm⟩ := s.coreBoots_outcome c
    exact ⟨hk, State.tileFenced_congr hf, fun h => hm (h c)⟩
  obtain rfl | rfl | rfl | rfl | rfl | rfl : n = 2 ∨ n = 3 ∨ n = 4 ∨ n = 5 ∨ n = 6 ∨ n = 7 := by omega
  · exact hcore 0
  · exact hcore 1
  · exact ⟨State.bootKept_congr (t := s.repairLanes lanes) (by simp) (by simp) (by simp) (by simp) (by simp) (by simp),
      s.repairLanes_tiles lanes, fun _ => (State.repairLanes_frame s lanes).2.2.2.1⟩
  · exact ⟨rfl, fun _ => rfl, fun _ => rfl⟩
  · refine ⟨State.bootKept_congr (t := s.genesis) (by simp) (by simp) (by simp) (by simp) (by simp) (by simp),
      State.tileFenced_congr (t := s.genesis) ?_, fun _ => ?_⟩
    · unfold State.genesis State.audit
      dsimp only
      split <;> simp
    · exact State.genesis_frame s |>.2.2.2.1
  · rw [State.stepWork_seven]
    obtain ⟨hk, hf, himg, hm⟩ := s.coreBoots_outcome 2
    refine ⟨(State.bootQuads_keeps _ (fun u q => (u.coreBoots_outcome q).1) _).trans hk,
      State.tileFenced_congr ((State.bootQuads_keeps (·.rf.fenced) (fun u q => (u.coreBoots_outcome q).2.1) _).trans hf), fun h => ?_⟩
    rw [State.bootQuads_mem (fun c => (State.substituted_congr himg c).trans (h c)), hm (h 2)]

/-! ### A step that passes -/

/-- A step that passes with no unit bad does its work and goes on, or makes the node ACTIVE. -/
theorem State.bootStepDone_passes {o : BootOutcome} (hst : s.pw.st = .starting) (hr : s.pw.retryAt = none) (hok : o.ok = true)
    (hbad : bootBad o s.pw.step = []) (h2 : 2 ≤ s.pw.step) (h7 : s.pw.step ≤ 7) (hmin : s.minTiles ≤ s.usableTiles)
    (hcorner : [0, 6, 12, 18].all s.tileFenced = false) {u : State} (hu : s.stepWork s.pw.step o.badLanes = u) :
    s.bootStepDone o = if 7 ≤ s.pw.step then u.becomeOn else u.setPw { u.pw with step := s.pw.step + 1, stepAt := u.nrt } := by
  obtain ⟨hkept, htiles, -⟩ := State.stepWork_outcome (s := s) h2 h7 o.badLanes
  rw [hu] at hkept htiles
  obtain ⟨-, -, -, -, -, hpw⟩ := State.of_bootKept hkept
  have hmin' : ¬ u.usableTiles < u.minTiles := by
    have h1 : u.usableTiles = s.usableTiles := by simp only [State.usableTiles, htiles]
    have h2 : u.minTiles = s.minTiles := by rw [State.minTiles, State.minTiles, hpw]
    omega
  have hcorner' : ¬ [0, 6, 12, 18].all u.tileFenced = true := by
    rw [funext htiles, hcorner]
    exact Bool.false_ne_true
  have h1 : ¬ (s.pw.step = 1 ∧ s.bootHost = true ∧ (s.pw.imgTill.any fun t => decide (s.nrt < t)) = true) := fun h => by omega
  unfold State.bootStepDone
  dsimp only
  rw [if_neg (by simp [hst, hr]), if_neg h1, if_neg (by simp [hok]), hbad, List.foldl_nil, hu, if_neg (by simp [hpw, hst]), if_neg hmin',
    if_neg hcorner']

/-- A node whose clock is full when the last step passes is ACTIVE, with the failed-start count cleared (Table 20-3, R485). -/
theorem State.becomeOn_active (h : s.pw.mhz = 1200) :
    s.becomeOn.pw.st = .active ∧ s.becomeOn.pw.step = 8 ∧ s.becomeOn.pw.fails = 0 := by
  unfold State.becomeOn State.setClock
  simp [h]

/-! ### A start that fails -/

theorem State.startFails_outcome (s : State) (code detail : Nat) : (s.startFails code detail).pending = s.pending ∧
    (s.startFails code detail).nrt = s.nrt ∧ (s.startFails code detail).mem = [] ∧ (s.startFails code detail).kv = .blank ∧
    (s.startFails code detail).fw.bootCount = s.fw.bootCount ∧
    (s.startFails code detail).pw = { s.railsOff.pw with
      log := closeLog s.pw.log s.pw.step code detail, retryAt := some (s.nrt + 100000000) } :=
  ⟨rfl, rfl, rfl, rfl, rfl, rfl⟩

theorem State.bootStepDone_fails {o : BootOutcome} (hst : s.pw.st = .starting) (hr : s.pw.retryAt = none) (hok : o.ok = false)
    (hcode : o.code < 2 ∨ 6 < o.code ∨ o.code = 3) (hhost : s.pw.step = 1 → s.bootHost = false) :
    s.bootStepDone o = s.startFails o.code o.detail := by
  have h1 : ¬ (s.pw.step = 1 ∧ s.bootHost = true ∧ (s.pw.imgTill.any fun t => decide (s.nrt < t)) = true) := fun h => by
    simp [hhost h.1] at h
  unfold State.bootStepDone
  dsimp only
  rw [if_neg (by simp [hst, hr]), if_neg h1, if_pos (by simp [hok]), if_neg (by omega)]

theorem State.bootStepLate_fails (hst : s.pw.st = .starting) (hr : s.pw.retryAt = none) (hem : s.emergency = false)
    (hlate : s.pw.stepAt + stepBoundMs s.bootHost s.pw.step * 100000 ≤ s.nrt) (hcore : stepCore s.pw.step = none) :
    s.bootStepLate = s.startFails 0x10 s.pw.step := by
  unfold State.bootStepLate
  rw [if_neg (by simp [hst, hr, hem]), if_neg (by simp only [msTicks]; omega), hcore]

/-- The window of the host images closes: both links drop what they received. -/
theorem State.imageWindowEnds_drops {w : Nat} (hst : s.pw.st = .starting) (hstep : s.pw.step = 1) (hw : s.pw.imgTill = some w) (hle : w ≤ s.nrt) :
    s.imageWindowEnds = { s with host := { s.host with
      a := { s.host.a with imgKind := 0xFF, imgBytes := [] }, b := { s.host.b with imgKind := 0xFF, imgBytes := [] } } } := by
  unfold State.imageWindowEnds
  simp only [hw]
  rw [if_pos ⟨hst, hstep, hle⟩]
  rfl

end Sys2Proof.Machine
end

section
open Sys2Proof Sys2Proof.Machine

/-- Settles O13: a step that passes is `bootStepDone_passes` over what its work leaves, a failed start is `startFails`, and the retry begins a
counted run. -/
theorem theStartGoesStepByStep : Obligations.TheStartGoesStepByStep := by
  unfold Obligations.TheStartGoesStepByStep
  refine ⟨fun s o hst hr hok hbad h2 h6 hmin hcorner => ?_, fun s o hst hr hok hbad h7 hmhz hmin hcorner => ?_,
    fun s o hst hr hok hcode hhost => ?_, fun s hst hr hem hlate hcore => ?_, fun s r hst hr hle hforced hfails => ?_,
    fun s w hst hstep hw hle => ?_⟩
  · generalize hu : s.stepWork s.pw.step o.badLanes = u
    have hgo := State.bootStepDone_passes hst hr hok hbad h2 (by omega) hmin hcorner hu
    obtain ⟨hkept, -, hmem⟩ := State.stepWork_outcome (s := s) h2 (by omega) o.badLanes
    rw [hu] at hkept hmem
    obtain ⟨hp, hn, hc, hk, hl, hpw⟩ := State.of_bootKept hkept
    rw [if_neg (by omega)] at hgo
    rw [exec_bootStepDone, hgo]
    exact ⟨_, State.did_of_keeps hp hn, (congrArg PowerState.st hpw).trans hst, rfl, hn, hmem, hk, hl, hc⟩
  · rw [h7.symm] at hbad
    have hu : s.stepWork s.pw.step o.badLanes = (s.coreBoots 2).bootQuads := by rw [h7, State.stepWork_seven]
    obtain ⟨hkept, -, hmem⟩ := State.stepWork_outcome (s := s) (n := s.pw.step) (by omega) (by omega) o.badLanes
    rw [hu] at hkept hmem
    have hcore : ((s.coreBoots 2).bootQuads.core 2).up = true := by
      rw [State.bootQuads_core (by decide)]
      exact (s.coreBoots_core 2).1
    generalize (s.coreBoots 2).bootQuads = u at hu hkept hmem hcore
    have hgo := State.bootStepDone_passes hst hr hok hbad (by omega) (by omega) hmin hcorner hu
    obtain ⟨hp, hn, hc, hk, hl, hpw⟩ := State.of_bootKept hkept
    rw [if_pos (by omega)] at hgo
    obtain ⟨hact, hstep, hfails⟩ := State.becomeOn_active (s := u) (by rw [hpw, hmhz])
    rw [exec_bootStepDone, hgo]
    exact ⟨_, State.did_of_keeps (by simp [hp]) (by simp [hn]), hact, hstep, hfails,
      (congrArg CoreRec.up (State.core_congr (by simp) 2)).trans hcore, fun h => by simp [hmem h], by simp [hk], by simp [hl], by simp [hc]⟩
  · obtain ⟨hp, hn, hmem, hkv, hboot, hpw⟩ := s.startFails_outcome o.code o.detail
    rw [exec_bootStepDone, State.bootStepDone_fails hst hr hok hcode hhost]
    generalize s.startFails o.code o.detail = t at *
    exact ⟨t, State.did_of_keeps hp hn, by rw [hpw]; exact hst, by rw [hpw], hmem, hkv, by rw [hpw]; rfl, hboot, by rw [hpw]⟩
  · obtain ⟨hp, hn, hmem, hkv, -, hpw⟩ := s.startFails_outcome 0x10 s.pw.step
    rw [exec_bootStepTimeout, State.bootStepLate_fails hst hr hem hlate hcore]
    generalize s.startFails 0x10 s.pw.step = t at *
    exact ⟨t, State.did_of_keeps hp hn, by rw [hpw]; exact hst, by rw [hpw], hmem, hkv, by rw [hpw]⟩
  · obtain ⟨hst', hstep, -, hcount, hfresh, hmem, hrf, hsec, hfw⟩ := State.startRun_counted hforced hfails
    have hgo : s.startRetry = s.startRun := by simp only [State.startRetry, hr, hst, hle, and_self, if_true]
    have hretry : s.startRun.pw.retryAt = none := by simp [State.startRun, State.failLimit, hforced, Nat.not_le.mpr hfails]
    rw [exec_startRetry, hgo]
    refine ⟨_, State.did_of_keeps (by simp) (by simp), hst', hstep, hretry, hcount, by rw [hfw], State.eq_of_groups ?_⟩
    simp [hfresh, hmem, hrf, hsec, hfw]
  · have hgo := State.imageWindowEnds_drops hst hstep hw hle
    rw [exec_imageWindowExpire, hgo]
    exact ⟨_, State.did_of_keeps rfl rfl, fun l => by cases l <;> exact ⟨rfl, rfl⟩, rfl⟩

end

section
/-!
SUPPORT. Supply and temperature (R480, R482, R483): what a change of the island clock touches, and how an emergency begins and ends.
-/

namespace Sys2Proof.Machine

variable {s t u : State}

theorem exec_powerSample (pin vin iin : Nat) (s : State) : exec (.powerSample pin vin iin) s = s.did (s.powerSample pin vin iin) := rfl
theorem exec_brownOut (mv ma : Nat) (s : State) : exec (.brownOut mv ma) s = s.did (s.brownOut mv ma) := rfl
theorem exec_powerEmergencyEnd (s : State) : exec .powerEmergencyEnd s = s.did s.brownEnd := rfl
theorem exec_thermalSample (l r i : Nat) (s : State) : exec (.thermalSample l r i) s = s.did (s.thermalSample l r i) := rfl
theorem exec_thermalEmergencyEnd (s : State) : exec .thermalEmergencyEnd s = s.did s.hotEnd := rfl
theorem exec_locateEnd (s : State) : exec .locateEnd s = s.did s.locateEnd := rfl

/-! ### The clock -/

/-- A state without its registers, host interface, engine credits and power state: what supply and temperature never change. -/
def State.unpowered (s : State) : State := { s with
  rf := State.reset.rf, host := State.reset.host, eng := s.engLessCredits, pw := State.reset.pw }

theorem State.eq_of_unpowered (h : t.unpowered = s.unpowered) :
    t = { s with rf := t.rf, host := t.host, eng := { s.eng with credits := t.eng.credits }, pw := t.pw } := by
  have heng := congrArg (fun u : State => ({ u.eng with credits := t.eng.credits } : EngState)) h
  simp only [State.unpowered, State.mk.injEq] at h
  obtain ⟨hp, hn, hf, hm, -, -, hc, hnet, heg, hk, -, hl, hs, hfw, hi, hck, -⟩ := h
  exact State.eq_of_groups ⟨hp, hn, hf, hm, rfl, rfl, hc, hnet, heg, hk, heng, hl, hs, hfw, hi, hck, rfl⟩

theorem State.did_of_unpowered (h : t.unpowered = s.unpowered) : s.did t = .next t :=
  State.did_of_keeps (congrArg State.pending h :) (congrArg State.nrt h :)

@[simp] theorem State.setPw_unpowered (s : State) (p : PowerState) : (s.setPw p).unpowered = s.unpowered := rfl
@[simp] theorem State.bump_unpowered (s : State) (pg off n : Nat) : (s.bump pg off n).unpowered = s.unpowered := rfl
@[simp] theorem State.setIrq_unpowered (s : State) (pg b : Nat) : (s.setIrq pg b).unpowered = s.unpowered := by
  simp [State.unpowered, State.engLessCredits]

@[simp] theorem State.syncNode_unpowered (s : State) : s.syncNode.unpowered = s.unpowered := by
  simp only [State.unpowered, State.syncNode_engLessCredits, State.syncNode_frame]

/-- ACTIVE and CAPPED follow the clock; the power state is otherwise as it was, but for the clock itself (Table 20-3). -/
theorem State.setClock_outcome (s : State) (mhz : Nat) : (s.setClock mhz).unpowered = s.unpowered ∧
    (s.setClock mhz).pw = { s.pw with mhz := mhz, st :=
      if s.pw.st = .active ∧ mhz < 1200 then .capped else if s.pw.st = .capped ∧ 1200 ≤ mhz then .active else s.pw.st } := by
  have hsync : (if mhz = s.pw.mhz then s else s.syncNode).unpowered = s.unpowered ∧ (if mhz = s.pw.mhz then s else s.syncNode).pw = s.pw := by
    split <;> simp
  obtain ⟨hk, hpw⟩ := hsync
  unfold State.setClock
  generalize (if mhz = s.pw.mhz then s else s.syncNode) = u at *
  simp only [State.setPw_pw, hpw]
  split
  · simp [hk]
  · split <;> simp [hk]

@[simp] theorem State.setClock_unpowered (s : State) (mhz : Nat) : (s.setClock mhz).unpowered = s.unpowered := (s.setClock_outcome mhz).1

/-! ### Emergencies -/

@[simp] theorem State.emergencyBegins_unpowered (s : State) : s.emergencyBegins.unpowered = s.unpowered := by
  simp [State.emergencyBegins]

theorem State.emergencyBegins_pw (s : State) : s.emergencyBegins.pw =
    { s.pw with mhz := 400, st := if s.pw.st = .active then .capped else s.pw.st } := by
  simp [State.emergencyBegins, (State.setClock_outcome _ _).2]

/-- The bound of a start that an emergency met is longer by the emergency (R483). -/
theorem State.extendStep_outcome (s : State) (at' : Nat) : s.extendStep at' = { s with pw := { s.pw with
    stepAt := if s.pw.st = .starting then s.pw.stepAt + (s.nrt - max at' s.pw.stepAt) else s.pw.stepAt } } := by
  unfold State.extendStep
  split <;> rfl

/-! ### Samples -/

/-- A sample as it is stored: the last 100, the input, and since when it is within limits and well below the cap. -/
def State.sampled (s : State) (pin vin iin : Nat) : State := { s with pw := { s.pw with
  samples := (pin :: s.pw.samples).take 100
  vin := vin
  iin := iin
  goodSince := if decide (37000 ≤ vin ∧ iin ≤ 36000) then some (s.pw.goodSince.getD s.nrt) else none
  belowSince := if decide (average ((pin :: s.pw.samples).take 100) * 100 ≤ s.capW * 95) then some (s.pw.belowSince.getD s.nrt) else none } }

theorem State.powerSample_awake {pin vin iin : Nat} (hup : s.awake = true) : s.powerSample pin vin iin =
    if 1400 < average (((pin :: s.pw.samples).take 100).take 10) ∨ s.capW + 150 < average ((pin :: s.pw.samples).take 100) then
      ((s.sampled pin vin iin).setPw { (s.sampled pin vin iin).pw with lowerAt := s.nrt }).setClock 400
    else if s.capW < average ((pin :: s.pw.samples).take 100) then
      if s.pw.lowerAt + 10000 ≤ s.nrt then
        ((s.sampled pin vin iin).setPw { (s.sampled pin vin iin).pw with lowerAt := s.nrt }).setClock (max 400 (s.pw.mhz - 50))
      else s.sampled pin vin iin
    else if (s.sampled pin vin iin).pw.belowSince.any (fun t => decide (t + msTicks 10 ≤ s.nrt)) ∧ s.pw.raiseAt + msTicks 1 ≤ s.nrt ∧
        !s.emergency ∧ s.pw.tlowerAt = 0 ∧ s.pw.mhz < 1200 then
      ((s.sampled pin vin iin).setPw { (s.sampled pin vin iin).pw with raiseAt := s.nrt }).setClock (min 1200 (s.pw.mhz + 50))
    else s.sampled pin vin iin := by
  have hoff : s.pw.st ≠ .off := by
    intro h
    simp [State.awake, State.running, h] at hup
  unfold State.powerSample
  dsimp only
  rw [if_neg hoff]
  generalize hu : s.setPw _ = u
  have hup' : u.awake = true := by
    rw [← hu]
    exact hup
  rw [hup', Bool.not_true, if_neg Bool.false_ne_true]
  subst hu
  rfl

/-! ### Thermal samples -/

/-- A sample that does not end the run: since when the sensors are cool, and the pause of the thermal steps. -/
def State.sensed (s : State) (l r i : Nat) : State := { s with pw := { s.pw with
  coolSince := if decide (l ≤ 100 ∧ r ≤ 90 ∧ i ≤ 47) then some (s.pw.coolSince.getD s.nrt) else none
  tlowerAt := if coolEnough (l, r, i) then 0 else s.pw.tlowerAt } }

theorem State.powerGood_elim (h : s.powerGood = true) : s.pw.st ≠ .off ∧ s.pw.st ≠ .standby := by
  simpa [State.powerGood] using h

/-- A sensor above stage 3 takes the rails off and holds the trip (Table 20-6). -/
theorem State.thermalSample_trips {l r i : Nat} (h : s.powerGood = true) (hhot : 115 < l ∨ 105 < r) :
    s.thermalSample l r i = (s.setPw { s.pw with temps := (l, r, i) }).railsOff.setPw
      { (s.setPw { s.pw with temps := (l, r, i) }).railsOff.pw with
        st := .standby, trips := min (2 ^ 32 - 1) (s.pw.trips + 1), tripHeld := some (if 115 < l then 0 else 1) } := by
  obtain ⟨hoff, hsb⟩ := State.powerGood_elim h
  unfold State.thermalSample
  dsimp only
  rw [if_neg hoff, if_neg (by exact hsb), if_pos hhot]
  rfl

/-- The temperatures as stored, with the interrupt where one crosses its stage 1 edge (Table 20-6). -/
def State.crossed (s : State) (l r i : Nat) : State :=
  let c := (s.pw.temps.1 ≤ 95 && 95 < l) || (s.pw.temps.2.1 ≤ 85 && 85 < r) || (s.pw.temps.2.2 ≤ 47 && 47 < i)
  if c then (s.setPw { s.pw with temps := (l, r, i) }).setIrq pgPmgt 8 else s.setPw { s.pw with temps := (l, r, i) }

theorem State.crossed_outcome (s : State) (l r i : Nat) : (s.crossed l r i).unpowered = s.unpowered ∧
    (s.crossed l r i).pw = { s.pw with temps := (l, r, i) } ∧ (s.crossed l r i).nrt = s.nrt := by
  unfold State.crossed
  dsimp only
  split <;> simp

theorem State.crossed_low {l r i : Nat} (hl : l ≤ 95) (hr : r ≤ 85) (hi : i ≤ 47) :
    s.crossed l r i = s.setPw { s.pw with temps := (l, r, i) } := by
  have hc : ((s.pw.temps.1 ≤ 95 && 95 < l) || (s.pw.temps.2.1 ≤ 85 && 85 < r) || (s.pw.temps.2.2 ≤ 47 && 47 < i)) = false := by
    simp [Nat.not_lt.mpr hl, Nat.not_lt.mpr hr, Nat.not_lt.mpr hi]
  unfold State.crossed
  dsimp only
  rw [hc, if_neg Bool.false_ne_true]

/-- Below stage 3 an emergency begins above stage 2, and the clock falls a step above stage 1. -/
theorem State.thermalSample_runs {l r i : Nat} (h : s.powerGood = true) (hl : l ≤ 115) (hr : r ≤ 105) {u : State} (hu : s.crossed l r i = u) :
    s.thermalSample l r i =
      if stage2 (l, r, i) ∧ !(u.sensed l r i).pw.hot then
        ((u.sensed l r i).setPw { (u.sensed l r i).pw with hot := true, hotAt := u.nrt, tlowerAt := u.nrt }).emergencyBegins
      else if stage1 (l, r, i) ∧ ((u.sensed l r i).pw.tlowerAt = 0 ∨ (u.sensed l r i).pw.tlowerAt + msTicks 1 ≤ u.nrt) then
        ((u.sensed l r i).setPw { (u.sensed l r i).pw with tlowerAt := u.nrt }).setClock (max 400 (u.pw.mhz - 50))
      else u.sensed l r i := by
  obtain ⟨hoff, hsb⟩ := State.powerGood_elim h
  unfold State.thermalSample
  dsimp only
  rw [if_neg hoff, if_neg (by exact hsb), if_neg (by omega)]
  subst hu
  rfl

end Sys2Proof.Machine
end

section
open Sys2Proof Sys2Proof.Machine

/-- Settles O14: every sample and every emergency goes through the change of the clock, which touches the power state, the engines' credits
and the interrupts alone. -/
theorem supplyAndTemperatureSetTheClock : Obligations.SupplyAndTemperatureSetTheClock := by
  unfold Obligations.SupplyAndTemperatureSetTheClock
  refine ⟨fun s pin vin iin hup h => ?_, fun s pin vin iin hup hfast hslow hcap hpause => ?_, fun s mv ma hgood hlim hb => ?_,
    fun s g hb hg hle => ?_, fun s l r i hgood hhot => ?_, fun s l r i hgood hl hr hhot hcold => ?_, fun s l r i hgood hl hr hi => ?_,
    fun s g hh hg hle => ?_, fun s h0 hle => ?_⟩
  · have hgo : s.powerSample pin vin iin =
        ((s.sampled pin vin iin).setPw { (s.sampled pin vin iin).pw with lowerAt := s.nrt }).setClock 400 := by
      rw [State.powerSample_awake hup, if_pos h]
    obtain ⟨hk, hpw⟩ := ((s.sampled pin vin iin).setPw { (s.sampled pin vin iin).pw with lowerAt := s.nrt }).setClock_outcome 400
    rw [exec_powerSample, hgo]
    generalize State.setClock _ 400 = t at hk hpw
    refine ⟨t, State.did_of_unpowered hk, by rw [hpw], by rw [hpw]; rfl, by rw [hpw]; rfl, by rw [hpw]; rfl, by rw [hpw]; rfl,
      fun hst => ?_, fun hst => ?_, State.eq_of_unpowered hk⟩
    · rw [hpw]
      exact if_pos ⟨hst, by decide⟩
    · rw [hpw]
      exact (if_neg fun h => hst h.1).trans (if_neg fun h => absurd h.2 (by decide))
  · have hgo : s.powerSample pin vin iin =
        ((s.sampled pin vin iin).setPw { (s.sampled pin vin iin).pw with lowerAt := s.nrt }).setClock (max 400 (s.pw.mhz - 50)) := by
      rw [State.powerSample_awake hup, if_neg (by omega), if_pos hcap, if_pos hpause]
    obtain ⟨hk, hpw⟩ := ((s.sampled pin vin iin).setPw { (s.sampled pin vin iin).pw with lowerAt := s.nrt }).setClock_outcome
      (max 400 (s.pw.mhz - 50))
    rw [exec_powerSample, hgo]
    generalize State.setClock _ (max 400 (s.pw.mhz - 50)) = t at hk hpw
    exact ⟨t, State.did_of_unpowered hk, by rw [hpw], by rw [hpw]; rfl, State.eq_of_unpowered hk⟩
  · obtain ⟨hoff, hsb⟩ := State.powerGood_elim hgood
    generalize hp : ({ s.pw with vin := mv, iin := ma, brown := true, brownAt := s.nrt, goodSince := none } : PowerState) = p
    have hgo : s.brownOut mv ma = (s.setPw p).emergencyBegins := by
      unfold State.brownOut
      rw [if_neg (by simp only [hoff, hsb, false_or]; omega)]
      simp only [hb, Bool.false_eq_true, if_false, hp]
    have hk := (s.setPw p).emergencyBegins_unpowered
    have hpw := (s.setPw p).emergencyBegins_pw
    rw [exec_brownOut, hgo]
    generalize (s.setPw p).emergencyBegins = t at hk hpw
    subst hp
    exact ⟨t, State.did_of_unpowered hk, by rw [State.emergency, hpw]; rfl, by rw [hpw]; rfl, by rw [hpw], by rw [hpw]; rfl, by rw [hpw]; rfl,
      State.eq_of_unpowered hk⟩
  · have hgo : s.brownEnd = if s.pw.hot then s.setPw { s.pw with brown := false }
        else (s.setPw { s.pw with brown := false }).extendStep s.pw.brownAt := by
      have hend : g + msTicks 10 ≤ s.nrt := by simpa [msTicks] using hle
      unfold State.brownEnd
      rw [if_pos ⟨hb, by rw [hg, Option.any_some, decide_eq_true hend]⟩]
      rfl
    rw [exec_powerEmergencyEnd, hgo]
    cases hh : s.pw.hot
    · rw [if_neg Bool.false_ne_true, State.extendStep_outcome]
      refine ⟨_, State.did_of_keeps rfl rfl, rfl, hh, rfl, fun hst _ hle' => ?_, rfl⟩
      have hmax : max s.pw.brownAt s.pw.stepAt = s.pw.brownAt := Nat.max_eq_left hle'
      exact (if_pos hst).trans (congrArg (fun n => s.pw.stepAt + (s.nrt - n)) hmax)
    · rw [if_pos rfl]
      exact ⟨_, State.did_of_keeps rfl rfl, rfl, hh, rfl, fun _ h => (nomatch h), rfl⟩
  · rw [exec_thermalSample, State.thermalSample_trips hgood hhot]
    exact ⟨_, State.did_of_keeps rfl rfl, rfl, rfl, rfl, rfl, rfl, rfl, rfl, rfl, rfl, rfl⟩
  · obtain ⟨hku, hpwu, hnu⟩ := s.crossed_outcome l r i
    have hrun := State.thermalSample_runs hgood hl hr (u := s.crossed l r i) rfl
    generalize s.crossed l r i = u at hku hpwu hnu hrun
    have h2 : stage2 (l, r, i) = true := by simpa [stage2, above] using hhot
    have hh : (u.sensed l r i).pw.hot = false := (congrArg PowerState.hot hpwu).trans hcold
    rw [if_pos ⟨h2, by rw [hh]; rfl⟩] at hrun
    generalize hp : ({ (u.sensed l r i).pw with hot := true, hotAt := u.nrt, tlowerAt := u.nrt } : PowerState) = p at hrun
    have hk := ((u.sensed l r i).setPw p).emergencyBegins_unpowered
    have hpw := ((u.sensed l r i).setPw p).emergencyBegins_pw
    rw [exec_thermalSample, hrun]
    generalize ((u.sensed l r i).setPw p).emergencyBegins = t at hk hpw
    have hks : t.unpowered = s.unpowered := hk.trans hku
    subst hp
    exact ⟨t, State.did_of_unpowered hks, by rw [State.emergency, hpw]; exact Bool.or_true _, by rw [hpw]; exact hnu, by rw [hpw],
      by rw [hpw]; exact congrArg PowerState.temps hpwu, State.eq_of_unpowered hks⟩
  · have hrun := State.thermalSample_runs hgood (by omega) (by omega) (State.crossed_low (s := s) hl hr hi)
    have h1 : stage1 (l, r, i) = false := by simp [stage1, above]; omega
    have h2 : stage2 (l, r, i) = false := by simp [stage2, above]; omega
    rw [h1, h2, if_neg (fun h => nomatch h.1), if_neg (fun h => nomatch h.1)] at hrun
    rw [exec_thermalSample, hrun]
    refine ⟨_, State.did_of_keeps rfl rfl, rfl, rfl, if_pos ?_, rfl⟩
    simp
    omega
  · have hgo : s.hotEnd = if s.pw.brown then s.setPw { s.pw with hot := false }
        else (s.setPw { s.pw with hot := false }).extendStep s.pw.hotAt := by
      have hend : g + msTicks 1000 ≤ s.nrt := by simpa [msTicks] using hle
      unfold State.hotEnd
      rw [if_pos ⟨hh, by rw [hg, Option.any_some, decide_eq_true hend]⟩]
      rfl
    rw [exec_thermalEmergencyEnd, hgo]
    cases hb : s.pw.brown
    · rw [if_neg Bool.false_ne_true, State.extendStep_outcome]
      exact ⟨_, State.did_of_keeps rfl rfl, rfl, by rw [State.emergency]; exact (Bool.or_false _).trans hb, rfl, rfl⟩
    · rw [if_pos rfl]
      exact ⟨_, State.did_of_keeps rfl rfl, rfl, by rw [State.emergency]; exact (Bool.or_false _).trans hb, rfl, rfl⟩
  · have hgo : s.locateEnd = { s with pw := { s.pw with locateTill := 0 } } := if_pos ⟨h0, hle⟩
    rw [exec_locateEnd, hgo]
    exact ⟨_, State.did_of_keeps rfl rfl, rfl⟩

end

section
/-!
SUPPORT. The host links (R459 to R461, R471, R473): what interrupts, logs and audit entries leave of a link, the end of a session, and a
link that goes down and trains again.
-/

namespace Sys2Proof

/-- A key that an entry has is found. -/
theorem AL.get_ne_none {κ α : Type} [DecidableEq κ] {p : κ × α} {t : AL κ α} (h : p ∈ t) : AL.get p.1 t ≠ none := by
  induction t with
  | nil => cases h
  | cons x t ih =>
    by_cases hk : x.1 = p.1
    · simp [AL.get, hk]
    · obtain rfl | h := List.mem_cons.mp h
      · exact absurd rfl hk
      · simpa [AL.get, hk] using ih h

end Sys2Proof

namespace Sys2Proof.Machine

variable {s t : State} {l m : Link}

/-! ### What a flit or an interrupt leaves of the host interface -/

/-- A link's record without its replay buffer, its waiting transactions and the credit they take. -/
def LinkRec.still (r : LinkRec) : LinkRec := { r with replay := [], stalled := [], waiting := [], pCred := 0, fseqTx := 0 }

/-- The host interface without what its links wait to send. -/
def State.posture (s : State) : HostState := { s.host with a := LinkRec.still s.host.a, b := LinkRec.still s.host.b }

theorem State.posture_congr (h : t.host = s.host) : t.posture = s.posture := by rw [State.posture, State.posture, h]

theorem State.link_of_posture (h : t.posture = s.posture) (l : Link) : LinkRec.still (t.link l) = LinkRec.still (s.link l) := by
  cases l
  · exact (congrArg HostState.a h :)
  · exact (congrArg HostState.b h :)

theorem State.active_of_posture (h : t.posture = s.posture) : t.host.active = s.host.active := (congrArg HostState.active h :)
theorem State.rings_of_posture (h : t.posture = s.posture) : t.host.rings = s.host.rings := (congrArg HostState.rings h :)
theorem State.session_of_posture (h : t.posture = s.posture) (l : Link) : (t.link l).session = (s.link l).session :=
  (congrArg LinkRec.session (State.link_of_posture h l) :)

theorem State.sessionOpen_of_posture (h : t.posture = s.posture) (l : Link) : (t.link l).sessionOpen = (s.link l).sessionOpen := by
  rw [LinkRec.sessionOpen, LinkRec.sessionOpen, State.session_of_posture h]

theorem State.setLink_posture {r : LinkRec} (h : LinkRec.still r = LinkRec.still (s.link l)) : (s.setLink l r).posture = s.posture := by
  cases l
  · exact congrArg (fun x => ({ s.posture with a := x } : HostState)) h
  · exact congrArg (fun x => ({ s.posture with b := x } : HostState)) h

@[simp] theorem State.bump_posture (s : State) (pg off n : Nat) : (s.bump pg off n).posture = s.posture := rfl
@[simp] theorem State.bump64_posture (s : State) (pg lo n : Nat) : (s.bump64 pg lo n).posture = s.posture := rfl
@[simp] theorem State.setReg_posture (s : State) (pg off : Nat) (w : Word) : (s.setReg pg off w).posture = s.posture := rfl

@[simp] theorem State.emitFlit_posture (s : State) (l : Link) (b : FlitBody) : (s.emitFlit l b).posture = s.posture := by
  unfold State.emitFlit
  dsimp only
  split
  · exact State.setLink_posture rfl
  · exact State.setLink_posture rfl

@[simp] theorem State.drainWaiting_posture (s : State) (l : Link) (n : Nat) : (s.drainWaiting l n).posture = s.posture := by
  induction n generalizing s with
  | zero => rfl
  | succ n ih =>
    unfold State.drainWaiting
    dsimp only
    split
    · rfl
    · split
      · rw [ih, State.emitFlit_posture]
        exact State.setLink_posture rfl
      · rfl

@[simp] theorem State.hostSend_posture (s : State) (x : HostTxn) : (s.hostSend x).posture = s.posture := by
  unfold State.hostSend
  split
  · rfl
  · rw [State.drainWaiting_posture]
    exact State.setLink_posture rfl

@[simp] theorem State.raiseIrq_posture (s : State) (pg : Nat) : (s.raiseIrq pg).posture = s.posture := by
  have hsend (u : State) (hu : u.posture = s.posture) (p : Prop) [Decidable p] (x : HostTxn) :
      (if p then u.hostSend x else u).posture = s.posture := by
    split
    · rw [State.hostSend_posture, hu]
    · exact hu
  unfold State.raiseIrq
  dsimp only
  split
  · apply hsend
    rfl
  · apply hsend
    rfl

@[simp] theorem State.setIrq_posture (s : State) (pg bits : Nat) : (s.setIrq pg bits).posture = s.posture := by
  unfold State.setIrq
  dsimp only
  split
  · rw [State.raiseIrq_posture]
    rfl
  · rfl

@[simp] theorem State.logErr_posture (s : State) (pg code unit detail : Nat) : (s.logErr pg code unit detail).posture = s.posture := by
  unfold State.logErr
  dsimp only
  split
  · rfl
  · rw [State.setIrq_posture]
    rfl

@[simp] theorem State.audit_posture (s : State) (typ : Nat) (domain : Option Nat) (agent arg : Nat) :
    (s.audit typ domain agent arg).posture = s.posture := by
  unfold State.audit
  dsimp only
  split
  · rw [State.setIrq_posture]
    rfl
  · rfl

@[simp] theorem State.closeGrant_posture (s : State) (g agent : Nat) : (s.closeGrant g agent).posture = s.posture := by
  unfold State.closeGrant
  split
  · rfl
  · rw [State.audit_posture]
    rfl

@[simp] theorem State.closeGrants_posture (s : State) (agent : Nat) : (s.closeGrants agent).posture = s.posture :=
  State.foldl_keeps State.posture (fun (u : State) (p : Nat × Grant) => u.closeGrant p.1 agent) (fun u p => u.closeGrant_posture p.1 agent) _ s

@[simp] theorem State.lsResult_posture (s : State) (l : Link) (n : Nat) (id : Word) : (s.lsResult l n id).posture = s.posture :=
  State.emitFlit_posture ..

/-! ### What a flit leaves of the other link -/

theorem Link.eq_or_other (l m : Link) : m = l ∨ m = l.other := by cases l <;> cases m <;> simp [Link.other]

theorem State.emitFlit_other (s : State) (l : Link) (b : FlitBody) : (s.emitFlit l b).link l.other = s.link l.other := by
  have hb (u : State) (pg lo n : Nat) (m : Link) : (u.bump64 pg lo n).link m = u.link m := by cases m <;> rfl
  unfold State.emitFlit
  dsimp only
  split
  · rw [hb, State.link_setLink_other]
  · rw [State.link_setLink_other]

/-! ### The grants go with a session -/

theorem State.audit_grants (s : State) (typ : Nat) (domain : Option Nat) (agent arg : Nat) :
    (s.audit typ domain agent arg).sec.grants = s.sec.grants := by
  unfold State.audit
  dsimp only
  split
  · rw [State.setIrq_sec]
    rfl
  · rfl

theorem State.closeGrant_grants (s : State) (g agent : Nat) : (s.closeGrant g agent).sec.grants = AL.del g s.sec.grants := by
  unfold State.closeGrant
  split
  next h =>
    refine (List.filter_eq_self.mpr fun p hp => ?_).symm
    exact decide_eq_true fun hk => AL.get_ne_none hp (hk ▸ h)
  · rw [State.audit_grants]
    rfl

/-- Closing a list of grants leaves those whose number is not in the list. -/
theorem State.foldl_closeGrant_grants (l : List (Nat × Grant)) (agent : Nat) (s : State) :
    (l.foldl (fun (s : State) (p : Nat × Grant) => s.closeGrant p.1 agent) s).sec.grants =
      s.sec.grants.filter (fun x => l.all (fun p => decide (x.1 ≠ p.1))) := by
  induction l generalizing s with
  | nil => simp
  | cons p l ih => rw [List.foldl_cons, ih, State.closeGrant_grants, AL.del, List.filter_filter]; simp [Bool.and_comm]

theorem State.closeGrants_grants (s : State) (agent : Nat) : (s.closeGrants agent).sec.grants = [] := by
  rw [State.closeGrants, State.foldl_closeGrant_grants, List.filter_eq_nil_iff]
  intro x hx hall
  exact of_decide_eq_true (List.all_eq_true.mp hall x hx) rfl

/-! ### The end of a session (R383, R461) -/

/-- A link after its session has ended. -/
def LinkRec.ended (r : LinkRec) : LinkRec :=
  { r with session := .none, ls := if r.sessionOpen = true ∧ r.ls = .up then .init else r.ls }

theorem State.becomeActive_outcome (s : State) (l : Link) : (s.becomeActive l).host.active = some l ∧
    (s.becomeActive l).host.activeWant = none ∧ (s.becomeActive l).host.rings = s.host.rings ∧
    ∀ m, LinkRec.still ((s.becomeActive l).link m) = LinkRec.still (s.link m) := by
  have hp : (s.becomeActive l).posture = ({ s.posture with active := some l, activeWant := none } : HostState) := by
    unfold State.becomeActive
    rw [State.drainWaiting_posture, State.setIrq_posture]
    rfl
  refine ⟨(congrArg HostState.active hp :), (congrArg HostState.activeWant hp :), (congrArg HostState.rings hp :), fun m => ?_⟩
  cases m
  · exact (congrArg HostState.a hp :)
  · exact (congrArg HostState.b hp :)

/-- The link that loses the active role is no longer active; the records of both links are as they were but for what waits. -/
theorem State.loseActive_outcome (s : State) (l : Link) : (s.loseActive l).host.active ≠ some l ∧
    (s.loseActive l).host.rings = s.host.rings ∧ ∀ m, LinkRec.still ((s.loseActive l).link m) = LinkRec.still (s.link m) := by
  have hne : some l.other ≠ some l := by cases l <;> decide
  unfold State.loseActive
  split
  next h => exact ⟨h, rfl, fun _ => rfl⟩
  · dsimp only
    generalize LinkRec.unsent (s.link l) = u
    generalize hs1 : s.setLink l _ = s1
    have h1 : s1.posture = s.posture := by
      rw [← hs1]
      exact State.setLink_posture rfl
    generalize hs2 : ({ s1 with host := { s1.host with active := none, activeWant := none } } : State) = s2
    have h2 (m : Link) : LinkRec.still (s2.link m) = LinkRec.still (s.link m) := by
      rw [← hs2]
      cases m
      · exact (congrArg HostState.a h1 :)
      · exact (congrArg HostState.b h1 :)
    have hr2 : s2.host.rings = s.host.rings := by
      rw [← hs2]
      exact (congrArg HostState.rings h1 :)
    split
    · generalize hs3 : s2.setLink l.other _ = s3
      have h3 : s3.posture = s2.posture := by
        rw [← hs3]
        exact State.setLink_posture rfl
      obtain ⟨hact, -, hr, hl⟩ := s3.becomeActive_outcome l.other
      exact ⟨by rw [hact]; exact hne, hr.trans ((State.rings_of_posture h3).trans hr2),
        fun m => (hl m).trans ((State.link_of_posture h3 m).trans (h2 m))⟩
    · exact ⟨by rw [← hs2]; exact nofun, hr2, h2⟩

theorem State.dropHostLocks_host (s : State) : s.dropHostLocks.host = s.host := by
  unfold State.dropHostLocks
  split <;> rfl

/-- The end of a session changes its link's phase, and takes the active role from it. -/
theorem State.endSession_outcome (s : State) (l : Link) : LinkRec.still ((s.endSession l).link l) = LinkRec.still (LinkRec.ended (s.link l)) ∧
    LinkRec.still ((s.endSession l).link l.other) = LinkRec.still (s.link l.other) ∧ (s.endSession l).host.rings = s.host.rings ∧
    ((s.link l).sessionOpen = true → (s.endSession l).host.active ≠ some l) := by
  unfold State.endSession
  dsimp only
  split
  next hopen =>
    generalize hu : s.setLink l _ = u
    have hself : u.link l = LinkRec.ended (s.link l) := by
      rw [← hu, State.link_setLink, LinkRec.ended, hopen]
      simp
    have hother : u.link l.other = s.link l.other := by rw [← hu, State.link_setLink_other]
    have hr : u.host.rings = s.host.rings := by rw [← hu, State.setLink_rings]
    obtain ⟨hact, hrings, hl⟩ := u.loseActive_outcome l
    have hp : (((u.loseActive l).setIrq (pgHlnk l) 4).dropHostLocks).posture = (u.loseActive l).posture :=
      (State.posture_congr (State.dropHostLocks_host _)).trans (State.setIrq_posture ..)
    exact ⟨(State.link_of_posture hp l).trans ((hl l).trans (by rw [hself])),
      (State.link_of_posture hp _).trans ((hl _).trans (by rw [hother])), (State.rings_of_posture hp).trans (hrings.trans hr),
      fun _ => by rw [State.active_of_posture hp]; exact hact⟩
  next hclosed =>
    refine ⟨?_, by rw [State.link_setLink_other], State.setLink_rings .., fun h => absurd h hclosed⟩
    rw [State.link_setLink, LinkRec.ended]
    simp [hclosed]

/-! ### A link goes down and trains -/

theorem State.linkGoesDown_outcome (s : State) (l : Link) : LinkRec.still ((s.linkGoesDown l).link l) = LinkRec.still { s.link l with
      ls := .down, session := .none, lanes := 0, failCnt := 0, ackRx := false, fseqRx := 0, trainAt := s.nrt, imgKind := 0xFF, imgBytes := [] } ∧
    LinkRec.still ((s.linkGoesDown l).link l.other) = LinkRec.still (s.link l.other) ∧ (s.linkGoesDown l).host.rings = s.host.rings := by
  obtain ⟨hself, hother, hr, -⟩ := s.endSession_outcome l
  have hn : (s.endSession l).nrt = s.nrt := by simp
  unfold State.linkGoesDown
  dsimp only
  generalize s.endSession l = u at *
  have hbase : LinkRec.still { u.link l with
      ls := .down, lanes := 0, replay := [], stalled := [], waiting := [], failCnt := 0, pCred := 0, ackRx := false, fseqTx := 0, fseqRx := 0
      trainAt := u.nrt, imgKind := 0xFF, imgBytes := [] } = LinkRec.still { s.link l with
      ls := .down, session := .none, lanes := 0, failCnt := 0, ackRx := false, fseqRx := 0, trainAt := s.nrt, imgKind := 0xFF, imgBytes := [] } := by
    rw [hn]
    exact congrArg (fun r : LinkRec => ({ r with
      ls := .down, lanes := 0, failCnt := 0, ackRx := false, fseqRx := 0, trainAt := s.nrt, imgKind := 0xFF, imgBytes := [] } : LinkRec)) hself
  generalize hR : ({ u.link l with
      ls := .down, lanes := 0, replay := [], stalled := [], waiting := [], failCnt := 0, pCred := 0, ackRx := false, fseqTx := 0, fseqRx := 0
      trainAt := u.nrt, imgKind := 0xFF, imgBytes := [] } : LinkRec) = R at hbase ⊢
  generalize hv : u.setLink l R = v
  have hv1 : v.link l = R := by rw [← hv, State.link_setLink]
  have hv2 : v.link l.other = u.link l.other := by rw [← hv, State.link_setLink_other]
  have hvr : v.host.rings = u.host.rings := by rw [← hv, State.setLink_rings]
  split
  · exact ⟨by rw [hv1]; exact hbase, by rw [hv2]; exact hother, hvr.trans hr⟩
  · have hp : (v.setIrq (pgHlnk l) 2).posture = v.posture := State.setIrq_posture ..
    exact ⟨(State.link_of_posture hp l).trans (by rw [hv1]; exact hbase), (State.link_of_posture hp _).trans (by rw [hv2]; exact hother),
      (State.rings_of_posture hp).trans (hvr.trans hr)⟩

/-- A link that is DOWN, whose reset is released and held long enough, trains from now (R461, R473). -/
theorem State.tryTrain_starts (hd : (s.link l).ls = .down) (hg : s.powerGood = true) (hr : (s.link l).rstreq = false)
    (hold : (s.link l).rstAt + 100000 ≤ s.nrt) (hat : (s.link l).trainAt ≤ s.nrt) :
    s.tryTrain l = s.setLink l { s.link l with ls := .training, trainAt := s.nrt } :=
  if_pos ⟨hd, hg, hr, hold, hat⟩

/-- A link that goes down with its reset released trains again at once. -/
theorem State.retrains (hg : s.powerGood = true) (hr : (s.link l).rstreq = false) (hold : (s.link l).rstAt + 100000 ≤ s.nrt) :
    (((s.linkGoesDown l).tryTrain l).link l).ls = .training ∧ (((s.linkGoesDown l).tryTrain l).link l).session = .none ∧
      (((s.linkGoesDown l).tryTrain l).link l).trainAt = s.nrt ∧ ((s.linkGoesDown l).tryTrain l).host.rings = s.host.rings := by
  obtain ⟨hself, -, hrings⟩ := s.linkGoesDown_outcome l
  have hn : (s.linkGoesDown l).nrt = s.nrt := by simp
  have hpw : (s.linkGoesDown l).pw = s.pw := by simp
  have hg' : (s.linkGoesDown l).powerGood = true := by rw [State.powerGood, hpw]; exact hg
  generalize s.linkGoesDown l = u at *
  have hls : (u.link l).ls = .down := (congrArg LinkRec.ls hself :)
  have hses : (u.link l).session = .none := (congrArg LinkRec.session hself :)
  have hrq : (u.link l).rstreq = false := (congrArg LinkRec.rstreq hself :).trans hr
  have hat : (u.link l).rstAt = (s.link l).rstAt := (congrArg LinkRec.rstAt hself :)
  have hta : (u.link l).trainAt = s.nrt := (congrArg LinkRec.trainAt hself :)
  rw [State.tryTrain_starts hls hg' hrq (by rw [hat, hn]; exact hold) (by rw [hta, hn]), State.link_setLink]
  exact ⟨rfl, hses, hn, (State.setLink_rings ..).trans hrings⟩

/-! ### What the end of a session brings -/

/-- The audit entry and the grants of ended sessions leave the links as they are. -/
theorem State.sessionsAfter_posture (old s : State) : (State.sessionsAfter old s).posture = s.posture := by
  refine State.foldl_keeps State.posture _ (fun u l => ?_) _ s
  split
  · rw [State.closeGrants_posture, State.audit_posture]
  · rfl

/-- A state without its registers, host interface and security state. -/
def State.unlinked (s : State) : State := { s with rf := State.reset.rf, host := State.reset.host, sec := State.reset.sec }

theorem State.eq_of_unlinked (h : t.unlinked = s.unlinked) : t = { s with rf := t.rf, host := t.host, sec := t.sec } := by
  simp only [State.unlinked, State.mk.injEq] at h
  obtain ⟨hp, hn, hf, hm, -, -, hc, hnet, heg, hk, heng, hl, -, hfw, hi, hck, hpw⟩ := h
  exact State.eq_of_groups ⟨hp, hn, hf, hm, rfl, rfl, hc, hnet, heg, hk, heng, hl, rfl, hfw, hi, hck, hpw⟩

theorem State.sessionsAfter_unlinked (old s : State) : (State.sessionsAfter old s).unlinked = s.unlinked := by
  refine State.foldl_keeps State.unlinked _ (fun u l => ?_) _ s
  split
  · simp [State.unlinked]
  · rfl

/-- Where no session has ended nothing follows. -/
theorem State.sessionsAfter_same {old : State} (h : ∀ l, (old.link l).sessionOpen = true → (s.link l).sessionOpen = true) :
    State.sessionsAfter old s = s := by
  have hone (l : Link) : ¬ ((old.link l).sessionOpen && !(s.link l).sessionOpen) = true := by
    cases ho : (old.link l).sessionOpen
    · simp
    · simp [h l ho]
  unfold State.sessionsAfter
  rw [List.foldl_cons, if_neg (hone .a), List.foldl_cons, if_neg (hone .b), List.foldl_nil]

end Sys2Proof.Machine
end

section
/-!
SUPPORT. The commands of the host links (R461, R473, R474), and the obligation on their states.
-/

namespace Sys2Proof.Machine

variable {s t : State} {l : Link}

/-- An event of a link, with what the end of a session brings, in a node with good power. -/
theorem State.onLink_outcome {f : State → State} {u : State} (hg : s.powerGood = true) (hf : f s = u) (hp : u.pending = s.pending)
    (hn : u.nrt = s.nrt) : s.onLink f = .next (State.sessionsAfter s u) := by
  have hk := State.sessionsAfter_unlinked s u
  rw [State.onLink, State.inPower, if_pos hg, hf]
  exact State.did_of_keeps ((congrArg State.pending hk :).trans hp) ((congrArg State.nrt hk :).trans hn)

theorem exec_linkDown (l : Link) (cause : Nat) (s : State) : exec (.linkDown l cause) s = s.onLink (·.linkFalls l cause) := rfl
theorem exec_flitTimeout (l : Link) (s : State) : exec (.flitTimeout l) s = s.onLink (·.flitSilence l) := rfl
theorem exec_linkTrained (l : Link) (s : State) : exec (.linkTrained l) s = s.onLink (fun s => (s.linkInit l).openWindow) := rfl
theorem exec_linkTrainTimeout (l : Link) (lane : Nat) (s : State) : exec (.linkTrainTimeout l lane) s = s.onLink (·.trainFailed l lane) := rfl
theorem exec_rstreqAssert (l : Link) (s : State) : exec (.rstreqAssert l) s = s.did (State.sessionsAfter s (s.rstAsserted l)) := rfl
theorem exec_rstreqRelease (l : Link) (s : State) : exec (.rstreqRelease l) s = s.did (s.rstReleased l) := rfl
theorem exec_retrain (ag : Agent) (l : Link) (s : State) : exec (.retrain ag l) s = s.did (s.poke ag (pgHlnk l) 0x100 1) := rfl
theorem exec_activeReq (ag : Agent) (l : Link) (s : State) : exec (.activeReq ag l) s = s.did (s.poke ag (pgHlnk l) 0x100 2) := rfl

theorem State.act_retrain (s : State) (ag : Agent) (l : Link) :
    s.act ag (pgHlnk l) 0x100 (w32 1) = State.sessionsAfter s (s.doRetrain l) := by cases l <;> rfl
theorem State.act_activeReq (s : State) (ag : Agent) (l : Link) : s.act ag (pgHlnk l) 0x100 (w32 2) = s.doActiveReq l := by cases l <;> rfl

theorem State.powerGood_of_mayWrite {ag : Agent} {pg off : Nat} (h : s.mayWrite ag pg off = true) : s.powerGood = true := by
  obtain ⟨-, hup, -, -⟩ := State.mayWrite_elim h
  unfold State.agentUp at hup
  exact (Bool.and_eq_true_iff.mp hup).1

/-! ### Down and training -/

theorem State.linkGoesDown_unlinked (s : State) (l : Link) : (s.linkGoesDown l).unlinked = s.unlinked := by simp [State.unlinked]
theorem State.tryTrain_unlinked (s : State) (l : Link) : (s.tryTrain l).unlinked = s.unlinked := by simp [State.unlinked]

/-- What a link that goes down and trains again shows, whatever the end of its session brings. -/
theorem State.retrains_outcome (hg : s.powerGood = true) (hr : (s.link l).rstreq = false) (hold : (s.link l).rstAt + 100000 ≤ s.nrt)
    {old : State} (ht : t = State.sessionsAfter old ((s.linkGoesDown l).tryTrain l)) :
    (t.link l).ls = .training ∧ (t.link l).session = .none ∧ (t.link l).trainAt = s.nrt ∧ t.host.rings = s.host.rings ∧
      t.unlinked = s.unlinked := by
  obtain ⟨hls, hses, hat, hrings⟩ := State.retrains hg hr hold
  have hp := State.sessionsAfter_posture old ((s.linkGoesDown l).tryTrain l)
  have hk := (State.sessionsAfter_unlinked old ((s.linkGoesDown l).tryTrain l)).trans
    ((State.tryTrain_unlinked ..).trans (s.linkGoesDown_unlinked l))
  rw [← ht] at hp hk
  have hl := State.link_of_posture hp l
  exact ⟨(congrArg LinkRec.ls hl :).trans hls, (congrArg LinkRec.session hl :).trans hses, (congrArg LinkRec.trainAt hl :).trans hat,
    (State.rings_of_posture hp).trans hrings, hk⟩

/-! ### Training that ends -/

theorem State.regI_setLink (s : State) (l : Link) (r : LinkRec) (pg off i : Nat) : (s.setLink l r).regI pg off i = s.regI pg off i := by
  cases l <;> rfl

/-- Flits count in the link's own counter of flits, and in no other register. -/
theorem State.emitFlit_regAt {o : Nat} (h : o ≠ 0x128) (h4 : o ≠ 0x12C) (s : State) (l : Link) (b : FlitBody) (q i : Nat) :
    (s.emitFlit l b).regI q o i = s.regI q o i := by
  unfold State.emitFlit
  dsimp only
  split
  · rw [State.regI_bump64_off h h4, State.regI_setLink]
  · rw [State.regI_setLink]

theorem State.drainWaiting_regAt {o : Nat} (h : o ≠ 0x128) (h4 : o ≠ 0x12C) (s : State) (l : Link) (n q i : Nat) :
    (s.drainWaiting l n).regI q o i = s.regI q o i := by
  induction n generalizing s with
  | zero => rfl
  | succ n ih =>
    unfold State.drainWaiting
    dsimp only
    split
    · rfl
    · split
      · rw [ih, State.emitFlit_regAt h h4, State.regI_setLink]
      · rfl

theorem State.setIrq_regAt {o : Nat} (h20 : o ≠ 0x20) (h : o ≠ 0x128) (h4 : o ≠ 0x12C) (s : State) (pg bits q i : Nat) :
    (s.setIrq pg bits).regI q o i = s.regI q o i := by
  have hsend (u : State) (p : Prop) [Decidable p] (x : HostTxn) : (if p then u.hostSend x else u).regI q o i = u.regI q o i := by
    split
    · unfold State.hostSend
      split
      · rfl
      · rw [State.drainWaiting_regAt h h4, State.regI_setLink]
    · rfl
  have hraise (u : State) : (u.raiseIrq pg).regI q o i = u.regI q o i := by
    unfold State.raiseIrq
    dsimp only
    split
    · apply hsend
    · exact hsend _ _ _
  unfold State.setIrq
  dsimp only
  split
  · rw [hraise, State.regI_setReg_off h20]
  · rw [State.regI_setReg_off h20]

/-- The window for host images changes the power state alone. -/
theorem State.openWindow_outcome (s : State) : s.openWindow = { s with pw := s.openWindow.pw } := by
  unfold State.openWindow
  split <;> rfl

theorem State.linkInit_trained (h : (s.link l).ls = .training) : s.linkInit l =
    ((s.setLink l { s.link l with ls := .init, lanes := 0xFF, lastRx := s.nrt }).bump (pgHlnk l) 0x130 1).setIrq (pgHlnk l) 1 := if_pos h

theorem State.trainFailed_down (h : (s.link l).ls = .training) (lane : Nat) : s.trainFailed l lane =
    (s.setLink l { s.link l with ls := .down, lanes := 0, trainAt := s.nrt + 10000000 }).logErr (pgHlnk l) 3 lane 0 := if_pos h

theorem State.setLink_unreported (s : State) (l : Link) (r : LinkRec) : (s.setLink l r).unreported = s.unreported := by cases l <;> rfl

theorem State.logErr_unreported (s : State) (pg code unit detail : Nat) : (s.logErr pg code unit detail).unreported = s.unreported := by
  have hset (u : State) (p o : Nat) (w : Word) : (u.setReg p o w).unreported = u.unreported := rfl
  unfold State.logErr State.setFld
  dsimp only
  split
  · rw [hset, State.bump_unreported]
  · rw [State.setIrq_unreported, hset, hset, hset, hset, State.bump_unreported]

/-- A trained link counts its training; its record is in INIT with all lanes. -/
theorem State.linkInit_outcome (h : (s.link l).ls = .training) :
    (s.linkInit l).posture = (s.setLink l { s.link l with ls := .init, lanes := 0xFF, lastRx := s.nrt }).posture ∧
    (s.linkInit l).reg (pgHlnk l) 0x130 = satAdd32 (s.reg (pgHlnk l) 0x130) 1 ∧ (s.linkInit l).unreported = s.unreported := by
  rw [State.linkInit_trained h]
  generalize hu : s.setLink l _ = u
  refine ⟨State.setIrq_posture .., ?_, ?_⟩
  · have h0 : u.reg (pgHlnk l) 0x130 = s.reg (pgHlnk l) 0x130 := by
      rw [← hu]
      exact State.regI_setLink ..
    have h1 : ((u.bump (pgHlnk l) 0x130 1).setIrq (pgHlnk l) 1).reg (pgHlnk l) 0x130 = (u.bump (pgHlnk l) 0x130 1).reg (pgHlnk l) 0x130 :=
      State.setIrq_regAt (by decide) (by decide) (by decide) ..
    rw [h1, State.reg_bump, h0]
  · rw [State.setIrq_unreported, State.bump_unreported, ← hu, State.setLink_unreported]

theorem State.trainFailed_outcome (h : (s.link l).ls = .training) (lane : Nat) :
    (s.trainFailed l lane).posture = (s.setLink l { s.link l with ls := .down, lanes := 0, trainAt := s.nrt + 10000000 }).posture ∧
    (s.trainFailed l lane).unreported = s.unreported := by
  rw [State.trainFailed_down h]
  exact ⟨State.logErr_posture .., (State.logErr_unreported ..).trans (State.setLink_unreported ..)⟩

theorem State.linkRec_of_setLink {r : LinkRec} (hp : t.posture = (s.setLink l r).posture) : LinkRec.still (t.link l) = LinkRec.still r := by
  have hl := State.link_of_posture hp l
  rwa [State.link_setLink] at hl

/-- A link whose record is changed but for its session keeps every session open. -/
theorem State.sessionsAfter_setLink {r : LinkRec} (hr : r.session = (s.link l).session) (hp : t.posture = (s.setLink l r).posture) :
    State.sessionsAfter s t = t := by
  refine State.sessionsAfter_same fun m hm => ?_
  rw [State.sessionOpen_of_posture hp]
  obtain rfl | rfl := Link.eq_or_other l m
  · rw [State.link_setLink, LinkRec.sessionOpen, hr]
    exact hm
  · rw [State.link_setLink_other]
    exact hm

/-! ### The active role -/

theorem State.doActiveReq_takes (ho : (s.link l).sessionOpen = true) (ha : s.host.active = none) : s.doActiveReq l = s.becomeActive l := by
  simp [State.doActiveReq, ho, ha]

/-- A move of the role that waits is made when the old link has nothing to be acknowledged (R471). -/
theorem State.finishMove_moves {w o : Link} (hw : s.host.activeWant = some w) (ha : s.host.active = some o) (hr : (s.link o).replay = [])
    (hs : (s.link o).stalled = []) (ho : (s.link w).sessionOpen = true) : ∃ u : State, s.finishMove = u.becomeActive w ∧
      u = { s with host := u.host } := by
  have hset (u : State) (m : Link) (r : LinkRec) : u.setLink m r = { u with host := (u.setLink m r).host } := by cases m <;> rfl
  unfold State.finishMove
  simp only [hw, ha, hr, hs, ho, List.isEmpty_nil, and_self, if_true]
  refine ⟨_, rfl, ?_⟩
  rw [hset, hset]

theorem State.doActiveReq_moves (ho : (s.link l).sessionOpen = true) (ha : s.host.active = some l.other)
    (hr : (s.link l.other).replay = []) (hs : (s.link l.other).stalled = []) : ∃ u : State, s.doActiveReq l = u.becomeActive l ∧
      u = { s with host := u.host } := by
  have hne : l.other ≠ l := by cases l <;> decide
  have hgo : s.doActiveReq l = State.finishMove { s with host := { s.host with activeWant := some l } } := by
    simp [State.doActiveReq, ho, ha, hne]
  have hlink (m : Link) : ({ s with host := { s.host with activeWant := some l } } : State).link m = s.link m := by cases m <;> rfl
  obtain ⟨u, hu, hk⟩ := State.finishMove_moves (s := { s with host := { s.host with activeWant := some l } }) rfl ha
    (by rw [hlink]; exact hr) (by rw [hlink]; exact hs) (by rw [hlink]; exact ho)
  exact ⟨u, hgo.trans hu, hk⟩

end Sys2Proof.Machine
end

section
open Sys2Proof Sys2Proof.Machine

/-- Settles O22: every way down goes through `linkGoesDown`, training ends in `linkInit` or `trainFailed`, and the role moves by
`becomeActive`. -/
theorem linksGoDownAndTrain : Obligations.LinksGoDownAndTrain := by
  unfold Obligations.LinksGoDownAndTrain
  refine ⟨fun s l cause hg hls hr hold => ?_, fun s ag l hw hr hold => ?_, fun s l hg hls hsil hr hold => ?_, fun s l hg hls => ?_,
    fun s l lane hg hls => ?_, fun s l => ?_, fun s l hg hls => ?_, fun s ag l hw ho ha => ?_, fun s ag l hw ho ha hrep hst => ?_⟩
  · have hfall : s.linkFalls l cause = ((if cause = 1 then s.logErr (pgHlnk l) 1 0 (s.link l).failSeq else s).linkGoesDown l).tryTrain l :=
      if_neg hls
    have hu : (if cause = 1 then s.logErr (pgHlnk l) 1 0 (s.link l).failSeq else s).posture = s.posture ∧
        (if cause = 1 then s.logErr (pgHlnk l) 1 0 (s.link l).failSeq else s).unlinked = s.unlinked := by
      split
      · exact ⟨by simp, by simp [State.unlinked]⟩
      · exact ⟨rfl, rfl⟩
    generalize (if cause = 1 then s.logErr (pgHlnk l) 1 0 (s.link l).failSeq else s) = u at hfall hu
    obtain ⟨hp, hk⟩ := hu
    have hlink := State.link_of_posture hp l
    have hrst : (u.link l).rstAt = (s.link l).rstAt := (congrArg LinkRec.rstAt hlink :)
    have hn : u.nrt = s.nrt := (congrArg State.nrt hk :)
    have hpw : u.pw = s.pw := (congrArg State.pw hk :)
    obtain ⟨htls, hses, hat, hrings, htk⟩ := State.retrains_outcome (s := u) (old := s) (by rw [State.powerGood, hpw]; exact hg)
      ((congrArg LinkRec.rstreq hlink :).trans hr) (by rw [hn, hrst]; exact hold) rfl
    have hup : u.pending = s.pending := (congrArg State.pending hk :)
    rw [exec_linkDown, State.onLink_outcome hg hfall (by simpa using hup) (by simpa using hn)]
    exact ⟨_, rfl, htls, hses, hat.trans hn, hrings.trans (State.rings_of_posture hp), State.eq_of_unlinked (htk.trans hk)⟩
  · have hgo : s.poke ag (pgHlnk l) 0x100 1 = State.sessionsAfter s ((s.linkGoesDown l).tryTrain l) :=
      (State.poke_applied hw (by cases l <;> decide) 1).trans (s.act_retrain ag l)
    obtain ⟨hls, hses, -, hrings, hk⟩ := State.retrains_outcome (State.powerGood_of_mayWrite hw) hr hold hgo
    rw [exec_retrain]
    generalize s.poke ag (pgHlnk l) 0x100 1 = t at hls hses hrings hk
    exact ⟨t, State.did_of_keeps (congrArg State.pending hk :) (congrArg State.nrt hk :), hls, hses, hrings, State.eq_of_unlinked hk⟩
  · have hgo : s.flitSilence l = (s.linkGoesDown l).tryTrain l := if_pos ⟨hls, hsil⟩
    obtain ⟨htls, hses, -, -, hk⟩ := State.retrains_outcome (old := s) hg hr hold rfl
    rw [exec_flitTimeout, State.onLink_outcome hg hgo (by simp) (by simp)]
    exact ⟨_, rfl, htls, hses, State.eq_of_unlinked hk⟩
  · obtain ⟨hp, hreg, hk⟩ := State.linkInit_outcome hls
    generalize hR : ({ s.link l with ls := .init, lanes := 0xFF, lastRx := s.nrt } : LinkRec) = R at hp
    have hw := (s.linkInit l).openWindow_outcome
    have hpw : (s.linkInit l).openWindow.posture = (s.setLink l R).posture := by
      rw [hw]
      exact hp
    have hl := State.linkRec_of_setLink hpw
    generalize hv : s.linkInit l = v at *
    have heq := State.eq_of_unreported hk
    rw [exec_linkTrained, State.onLink_outcome (u := v.openWindow) hg (by rw [hv]) (by rw [hw, heq]) (by rw [hw, heq]),
      State.sessionsAfter_setLink (by rw [← hR]) hpw]
    rw [← hR] at hl
    refine ⟨_, rfl, (congrArg LinkRec.ls hl :), (congrArg LinkRec.lanes hl :), by rw [hw]; exact hreg, ?_⟩
    rw [hw, heq]
  · obtain ⟨hp, hk⟩ := State.trainFailed_outcome hls lane
    generalize hR : ({ s.link l with ls := .down, lanes := 0, trainAt := s.nrt + 10000000 } : LinkRec) = R at hp
    have hl := State.linkRec_of_setLink hp
    generalize ht : s.trainFailed l lane = t at hp hk hl
    rw [exec_linkTrainTimeout, State.onLink_outcome (u := t) hg ht (congrArg State.pending hk :) (congrArg State.nrt hk :),
      State.sessionsAfter_setLink (by rw [← hR]) hp]
    rw [← hR] at hl
    exact ⟨_, rfl, (congrArg LinkRec.ls hl :), (congrArg LinkRec.lanes hl :), (congrArg LinkRec.trainAt hl :), State.eq_of_unreported hk⟩
  · obtain ⟨hself, -, -⟩ := s.linkGoesDown_outcome l
    have hn : (s.linkGoesDown l).nrt = s.nrt := by simp
    have hk : (State.sessionsAfter s (s.rstAsserted l)).unlinked = s.unlinked :=
      (State.sessionsAfter_unlinked ..).trans (by simp [State.unlinked])
    have hp := State.sessionsAfter_posture s (s.rstAsserted l)
    have hl := State.linkRec_of_setLink hp
    rw [exec_rstreqAssert]
    exact ⟨_, State.did_of_keeps (congrArg State.pending hk :) (congrArg State.nrt hk :),
      (congrArg LinkRec.ls hl :).trans (congrArg LinkRec.ls hself :), (congrArg LinkRec.session hl :).trans (congrArg LinkRec.session hself :),
      (congrArg LinkRec.rstreq hl :), (congrArg LinkRec.rstAt hl :).trans hn, State.eq_of_unlinked hk⟩
  · generalize hu : s.setLink l { s.link l with rstreq := false, trainAt := max s.nrt ((s.link l).rstAt + 100000) } = u
    have hgo : s.rstReleased l = u.tryTrain l := by rw [← hu]; rfl
    have hul : u.link l = { s.link l with rstreq := false, trainAt := max s.nrt ((s.link l).rstAt + 100000) } := by
      rw [← hu, State.link_setLink]
    have hus : u = { s with host := u.host } := by rw [← hu]; cases l <;> rfl
    have hset (r : LinkRec) : u.setLink l r = { s with host := (u.setLink l r).host } := by rw [hus]; cases l <;> rfl
    have hun : u.nrt = s.nrt := by rw [hus]
    have hug : u.powerGood = true := by rw [hus]; exact hg
    rw [exec_rstreqRelease, hgo]
    by_cases hold : (s.link l).rstAt + 100000 ≤ s.nrt
    · rw [State.tryTrain_starts (by rw [hul]; exact hls) hug (by rw [hul]) (by rw [hul, hun]; exact hold)
        (by rw [hul, hun]; exact Nat.max_le.mpr ⟨Nat.le_refl _, hold⟩), hset]
      refine ⟨_, State.did_of_keeps rfl rfl, ?_, ?_, rfl⟩
      · exact (congrArg LinkRec.rstreq (State.link_setLink u l _)).trans (by rw [hul])
      · rw [if_pos hold]
        exact (congrArg LinkRec.ls (State.link_setLink u l _) :)
    · have hno : u.tryTrain l = u := by
        refine if_neg fun h => hold ?_
        rw [hul, hun] at h
        exact h.2.2.2.1
      rw [hno, hus]
      refine ⟨_, State.did_of_keeps rfl rfl, ?_, ?_, rfl⟩
      · exact (congrArg LinkRec.rstreq hul :)
      · rw [if_neg hold]
        exact (congrArg LinkRec.ls hul :).trans hls
  · have hgo : s.poke ag (pgHlnk l) 0x100 2 = s.becomeActive l :=
      (State.poke_applied hw (by cases l <;> decide) 2).trans ((s.act_activeReq ag l).trans (State.doActiveReq_takes ho ha))
    obtain ⟨hact, hwant, -, -⟩ := s.becomeActive_outcome l
    rw [exec_activeReq, hgo]
    refine ⟨_, State.did_of_keeps (by simp) (by simp), hact, hwant, State.eq_of_groups (by simp)⟩
  · obtain ⟨u, hu, hk⟩ := State.doActiveReq_moves ho ha hrep hst
    have hgo : s.poke ag (pgHlnk l) 0x100 2 = u.becomeActive l :=
      (State.poke_applied hw (by cases l <;> decide) 2).trans ((s.act_activeReq ag l).trans hu)
    obtain ⟨hact, hwant, -, -⟩ := u.becomeActive_outcome l
    rw [exec_activeReq, hgo]
    refine ⟨_, State.did_of_keeps (by rw [hk]; simp) (by rw [hk]; simp), hact, hwant, State.eq_of_groups ?_⟩
    rw [hk]
    simp

end

section
/-!
SUPPORT. Flits and host images (R444, R459, R460, Table 19-6), and the obligation on them.
-/

namespace Sys2Proof.Machine

variable {s t : State} {l : Link}

theorem exec_flitAckCredit (l : Link) (a : Option Nat) (c n : Nat) (s : State) :
    exec (.flitAckCredit l a c n) s = s.onLink (·.flitAck l a c n) := rfl
theorem exec_retryReq (l : Link) (f : Nat) (s : State) : exec (.retryReq l f) s = s.onLink (·.retry l (f % 4096)) := rfl
theorem exec_imageFlit (l : Link) (k : Nat) (last absent : Bool) (o : Nat) (d : List Byte) (i : ImageInfo) (s : State) :
    exec (.imageFlit l k last absent o d i) s =
      s.inPower (fun s => if s.linkTalks l then s.imageFlit l k last absent o d i else s) := rfl

theorem State.link_bump64 (s : State) (pg o n : Nat) (m : Link) : (s.bump64 pg o n).link m = s.link m := by cases m <;> rfl
theorem State.link_bump (s : State) (pg o n : Nat) (m : Link) : (s.bump pg o n).link m = s.link m := by cases m <;> rfl

theorem LState.talks_ne {x : LState} (h : x = .init ∨ x = .up) : ¬ (x = .down ∨ x = .training) := by
  rintro (rfl | rfl) <;> simp at h

/-! ### Acknowledgements -/

/-- A link's record after an acknowledgement of `a` and `n` units of P (R459, R460). -/
def LinkRec.acked (r : LinkRec) (now a n : Nat) : LinkRec := { r with
  lastRx := now
  replay := ackReplay (a % 4096) r.fseqTx r.replay
  failCnt := if (r.fseqTx + 8191 - a % 4096) % 4096 ≤ (r.fseqTx + 8191 - r.failSeq) % 4096 then 0 else r.failCnt
  pCred := min 65535 (r.pCred + n) }

theorem State.drainStalled_none (h : (s.link l).stalled = []) (n : Nat) : s.drainStalled l n = s := by
  cases n with
  | zero => rfl
  | succ n =>
    unfold State.drainStalled
    simp only [h]

theorem State.drainWaiting_none (h : (s.link l).waiting = []) (n : Nat) : s.drainWaiting l n = s := by
  cases n with
  | zero => rfl
  | succ n =>
    unfold State.drainWaiting
    simp only [h]

theorem State.finishMove_none (h : s.host.activeWant = none) : s.finishMove = s := by
  unfold State.finishMove
  simp only [h]

/-- With nothing waiting on the link, and no move of the role, an acknowledgement changes the link's record alone. -/
theorem State.flitAck_quiet {a n : Nat} (hls : (s.link l).ls = .init ∨ (s.link l).ls = .up) (hst : (s.link l).stalled = [])
    (hw : (s.link l).waiting = []) (hmove : s.host.activeWant = none) :
    s.flitAck l (some a) 0 n = (s.setLink l (LinkRec.acked (s.link l) s.nrt a n)).bump64 (pgHlnk l) 0x120 1 := by
  generalize hu : (s.setLink l (LinkRec.acked (s.link l) s.nrt a n)).bump64 (pgHlnk l) 0x120 1 = u
  have hul : u.link l = LinkRec.acked (s.link l) s.nrt a n := by rw [← hu, State.link_bump64, State.link_setLink]
  have hum : u.host.activeWant = none := by
    rw [← hu]
    cases l <;> exact hmove
  have hgo : s.flitAck l (some a) 0 n =
      ((u.drainStalled l ((s.link l).stalled.length + 1)).drainWaiting l
        (((u.drainStalled l ((s.link l).stalled.length + 1)).link l).waiting.length + 1)).finishMove := by
    rw [← hu]
    exact if_neg (LState.talks_ne hls)
  have hus : (u.link l).stalled = [] := by rw [hul]; exact hst
  have huw : (u.link l).waiting = [] := by rw [hul]; exact hw
  rw [hgo, State.drainStalled_none hus, State.drainWaiting_none huw, State.finishMove_none hum]

/-! ### Replays -/

/-- A request for a replay is noted in the link's record and counted, with the flits that go again. -/
theorem State.retry_noted {f cnt : Nat} (hls : (s.link l).ls = .init ∨ (s.link l).ls = .up)
    (hcnt : (if (s.link l).failCnt ≠ 0 ∧ (s.link l).failSeq = f then (s.link l).failCnt + 1 else 1) = cnt) : ∃ n, ∃ u : State,
    u = ((s.setLink l { s.link l with failSeq := f, failCnt := cnt, lastRx := s.nrt }).bump (pgHlnk l) 0x118 1).bump64 (pgHlnk l) 0x128 n ∧
    s.retry l f = if 9 ≤ cnt then ((u.logErr (pgHlnk l) 1 0 f).linkGoesDown l).tryTrain l else u := by
  refine ⟨((s.link l).replay.filter (fun p => (p.1 + 4096 - f) % 4096 < 2048)).foldl (fun n p => n + p.2.flits) 0, _, rfl, ?_⟩
  unfold State.retry
  dsimp only
  rw [if_neg (LState.talks_ne hls), hcnt]

/-! ### Images -/

theorem State.imageWindow_elim (h : s.imageWindow l = true) : s.powerGood = true ∧ s.linkTalks l = true := by
  simp only [State.imageWindow, Bool.and_eq_true, beq_iff_eq] at h
  obtain ⟨⟨⟨⟨⟨hst, -⟩, -⟩, -⟩, -⟩, hls⟩ := h
  exact ⟨by simp [State.powerGood, hst], by simp [State.linkTalks, hls]⟩

theorem State.inPower_talks {f : State → State} {u : State} (hg : s.powerGood = true) (ht : s.linkTalks l = true) (hf : f s = u)
    (hp : u.pending = s.pending) (hn : u.nrt = s.nrt) : s.inPower (fun s => if s.linkTalks l then f s else s) = .next u := by
  rw [State.inPower, if_pos hg, if_pos ht, hf]
  exact State.did_of_keeps hp hn

/-- The next fragment of the image that a link receives. -/
theorem State.imageFlit_next {kind : Nat} {d : List Byte} {i : ImageInfo} (hw : s.imageWindow l = true) (hk : kind ≤ 3)
    (hkind : (s.link l).imgKind = kind) : s.imageFlit l kind false false (s.link l).imgBytes.length d i =
      s.setLink l { s.link l with imgKind := kind, imgBytes := (s.link l).imgBytes ++ d } := by
  unfold State.imageFlit
  rw [hw, if_neg (by decide), if_neg (by omega), if_neg (by omega), if_neg Bool.false_ne_true]
  simp [hkind]

/-- The last fragment of an image that verifies: the start uses the image, and the host is told. -/
theorem State.imageFlit_last {kind : Nat} {d : List Byte} {i : ImageInfo} (hw : s.imageWindow l = true) (hk : kind ≤ 3)
    (hkind : (s.link l).imgKind = kind) (hok : i.ok = true) (harb : (s.kind kind).fuse ≤ i.arb) : ∃ u : State,
    s.imageFlit l kind true false (s.link l).imgBytes.length d i = u.emitFlit l (.image kind 0) ∧
      u.link l = { s.link l with imgKind := 0xFF, imgBytes := [] } ∧ (u.kind kind).host = true ∧ AL.get kind u.fw.hostImgs = some i ∧
      u = { s with host := u.host, fw := u.fw } := by
  unfold State.imageFlit
  rw [hw, if_neg (by decide), if_neg (by omega), if_neg (by omega), if_neg Bool.false_ne_true]
  generalize hv : s.setLink l { s.link l with imgKind := 0xFF, imgBytes := [] } = v
  have hvl : v.link l = { s.link l with imgKind := 0xFF, imgBytes := [] } := by rw [← hv, State.link_setLink]
  have hvs : v = { s with host := v.host } := by rw [← hv]; cases l <;> rfl
  have hvk : v.kind kind = s.kind kind := by rw [State.kind, State.kind, hvs]
  simp only [hkind, if_true, Nat.le_refl, decide_true, Bool.not_true, Bool.false_eq_true, if_false, hv, hok, hvk, harb, and_self]
  refine ⟨_, rfl, hvl, ?_, AL.get_put .., ?_⟩
  · simp [State.kind, State.setKind]
  · rw [hvs]
    rfl

end Sys2Proof.Machine
end

section
open Sys2Proof Sys2Proof.Machine

/-- Settles O23: an acknowledgement and a request for a replay change the record of their link, and a fragment its image. -/
theorem flitsAreAcknowledgedAndImagesTaken : Obligations.FlitsAreAcknowledgedAndImagesTaken := by
  unfold Obligations.FlitsAreAcknowledgedAndImagesTaken
  refine ⟨fun s l a n hg hls hst hw hmove => ?_, fun s l f hg hls hf hnew => ?_, fun s l f hg hls hf hcnt hseq => ?_,
    fun s l kind o d i hw hk hkind ho => ?_, fun s l kind o d i hw hk hkind ho hok harb => ?_⟩
  · have hgo := State.flitAck_quiet (a := a) (n := n) hls hst hw hmove
    generalize hR : LinkRec.acked (s.link l) s.nrt a n = R at hgo
    have hsame : State.sessionsAfter s ((s.setLink l R).bump64 (pgHlnk l) 0x120 1) = (s.setLink l R).bump64 (pgHlnk l) 0x120 1 :=
      State.sessionsAfter_setLink (r := R) (by rw [← hR]; rfl) rfl
    rw [exec_flitAckCredit, State.onLink_outcome hg hgo (by simp) (by simp), hsame]
    refine ⟨_, rfl, ?_, ?_, ?_, ?_, State.eq_of_groups (by simp)⟩
    · rw [State.link_bump64, State.link_setLink, ← hR]; rfl
    · rw [State.link_bump64, State.link_setLink, ← hR]; rfl
    · rw [State.link_bump64, State.link_setLink, ← hR]; rfl
    · rw [State.link_bump64, State.link_setLink_other]
  · have hone : (if (s.link l).failCnt ≠ 0 ∧ (s.link l).failSeq = f then (s.link l).failCnt + 1 else 1) = 1 := if_neg fun h => by
      obtain ⟨hc, hq⟩ := h
      exact hnew.elim hc fun hne => hne hq
    obtain ⟨n, u, hu, hgo⟩ := State.retry_noted hls hone
    rw [if_neg (by decide)] at hgo
    generalize hR : ({ s.link l with failSeq := f, failCnt := 1, lastRx := s.nrt } : LinkRec) = R at hu
    have hul : u.link l = R := by rw [hu, State.link_bump64, State.link_bump, State.link_setLink]
    have hreg : u.reg (pgHlnk l) 0x118 = satAdd32 (s.reg (pgHlnk l) 0x118) 1 := by
      rw [hu, State.reg, State.regI_bump64_off (by decide) (by decide)]
      refine (State.reg_bump (s.setLink l R) (pgHlnk l) 0x118 1).trans ?_
      rw [State.reg, State.regI_setLink, State.reg]
    have hsame : State.sessionsAfter s u = u := State.sessionsAfter_setLink (l := l) (r := R) (by rw [← hR]) (by rw [hu]; rfl)
    have hk : u.unreported = s.unreported := by
      rw [hu, State.bump64_unreported, State.bump_unreported, State.setLink_unreported]
    rw [exec_retryReq, Nat.mod_eq_of_lt hf, State.onLink_outcome (u := u) hg hgo (congrArg State.pending hk :) (congrArg State.nrt hk :),
      hsame]
    exact ⟨u, rfl, by rw [hul, ← hR], by rw [hul, ← hR], by rw [hul, ← hR], by rw [hul, ← hR], hreg, State.eq_of_unreported hk⟩
  · have hnine : (if (s.link l).failCnt ≠ 0 ∧ (s.link l).failSeq = f then (s.link l).failCnt + 1 else 1) = 9 := by
      simp [hcnt, hseq]
    obtain ⟨n, u, hu, hgo⟩ := State.retry_noted hls hnine
    rw [if_pos (Nat.le_refl 9)] at hgo
    have hk : u.unreported = s.unreported := by
      rw [hu, State.bump64_unreported, State.bump_unreported, State.setLink_unreported]
    have hdown := ((u.logErr (pgHlnk l) 1 0 f).linkGoesDown_outcome l).1
    have hke : (u.logErr (pgHlnk l) 1 0 f).unreported = s.unreported := (State.logErr_unreported ..).trans hk
    generalize u.logErr (pgHlnk l) 1 0 f = v at hgo hdown hke
    have hkv : ((v.linkGoesDown l).tryTrain l).unlinked = s.unlinked :=
      (State.tryTrain_unlinked ..).trans ((v.linkGoesDown_unlinked l).trans (congrArg State.unlinked hke :))
    have hls' : (((v.linkGoesDown l).tryTrain l).link l).ls = .down ∨ (((v.linkGoesDown l).tryTrain l).link l).ls = .training := by
      unfold State.tryTrain
      dsimp only
      split
      · exact .inr (congrArg LinkRec.ls (State.link_setLink ..) :)
      · exact .inl (congrArg LinkRec.ls hdown :)
    have hses : (((v.linkGoesDown l).tryTrain l).link l).session = .none := by
      have hd : ((v.linkGoesDown l).link l).session = .none := (congrArg LinkRec.session hdown :)
      unfold State.tryTrain
      dsimp only
      split
      · rw [State.link_setLink]
        exact hd
      · exact hd
    generalize (v.linkGoesDown l).tryTrain l = w at hgo hkv hls' hses
    have hp := State.link_of_posture (State.sessionsAfter_posture s w) l
    have hwp : w.pending = s.pending := (congrArg State.pending hkv :)
    rw [exec_retryReq, Nat.mod_eq_of_lt hf, State.onLink_outcome (u := w) hg hgo hwp (congrArg State.nrt hkv :)]
    refine ⟨_, rfl, ?_, (congrArg LinkRec.session hp :).trans hses, State.eq_of_unlinked ((State.sessionsAfter_unlinked s w).trans hkv)⟩
    rw [show ((State.sessionsAfter s w).link l).ls = (w.link l).ls from (congrArg LinkRec.ls hp :)]
    exact hls'
  · subst ho
    obtain ⟨hg, ht⟩ := State.imageWindow_elim hw
    rw [exec_imageFlit, State.inPower_talks hg ht (State.imageFlit_next hw hk hkind) (by simp) (by simp)]
    refine ⟨_, rfl, by rw [State.link_setLink], by rw [State.link_setLink], by cases l <;> rfl⟩
  · subst ho
    obtain ⟨hg, ht⟩ := State.imageWindow_elim hw
    obtain ⟨u, hgo, hul, huk, hui, hus⟩ := State.imageFlit_last (d := d) hw hk hkind hok harb
    have hl := State.link_of_posture (u.emitFlit_posture l (.image kind 0)) l
    rw [hul] at hl
    rw [exec_imageFlit, State.inPower_talks hg ht hgo (by rw [hus]; simp) (by rw [hus]; simp)]
    refine ⟨_, rfl, ?_, ?_, (congrArg LinkRec.imgKind hl :), (congrArg LinkRec.imgBytes hl :), State.eq_of_groups ?_⟩
    · rw [State.kind, State.emitFlit_fw]
      exact huk
    · rw [State.emitFlit_fw]
      exact hui
    · rw [hus]
      simp

end

section
/-!
SUPPORT. Host sessions (R381 to R383, Table 16-4): the challenge, the number of a session, its opening, its refusal and its end.
-/

namespace Sys2Proof.Machine

variable {s t : State} {l : Link}

theorem exec_lsHello (l : Link) (n m : BitVec 128) (s : State) : exec (.lsHello l n m) s = s.inPower (·.lsHello l (n ++ m)) := rfl
theorem exec_lsChallengeDeferred (l : Link) (s : State) : exec (.lsChallengeDeferred l) s = s.inAwake (·.lsDeferred l) := rfl
theorem exec_lsProof (l : Link) (p : OperatorProof) (s : State) : exec (.lsProof l p) s = s.inAwake (·.lsProof l p) := rfl
theorem exec_lsEnd (l : Link) (s : State) : exec (.lsEnd l) s = s.inPower (·.lsEnd l) := rfl

theorem State.powerGood_of_awake (h : s.awake = true) : s.powerGood = true := by
  simp only [State.awake, State.running, State.powerGood] at h ⊢
  cases hst : s.pw.st <;> simp [hst] at h ⊢

theorem State.inAwake_keeps {f : State → State} {u : State} (hup : s.awake = true) (hf : f s = u) (hp : u.pending = s.pending)
    (hn : u.nrt = s.nrt) : s.inAwake f = .next u := by
  rw [State.inAwake, if_pos hup, hf]
  exact State.did_of_keeps hp hn

/-! ### The challenge -/

/-- A challenge takes a fresh nonce and changes the session of its link alone. -/
theorem State.challenge_outcome (s : State) (l : Link) (n : BitVec 256) :
    ((s.challenge l n).link l).session = .challenged n (Config.randomKey s.fresh) ∧ (s.challenge l n).fresh = s.fresh + 1 ∧
      (s.challenge l n).link l.other = s.link l.other ∧
      s.challenge l n = { s with fresh := (s.challenge l n).fresh, rf := (s.challenge l n).rf, host := (s.challenge l n).host } := by
  unfold State.challenge
  dsimp only
  generalize FlitBody.session 2 _ = b
  generalize hu : s.nextFresh.setLink l _ = u
  have hul : u.link l = { s.nextFresh.link l with session := .challenged n (Config.randomKey s.fresh) } := by
    rw [← hu, State.link_setLink]
  have huo : u.link l.other = s.link l.other := by
    rw [← hu, State.link_setLink_other]
    cases l <;> rfl
  have hus : u = { s with fresh := s.fresh + 1, host := u.host } := by
    rw [← hu]
    cases l <;> rfl
  refine ⟨(State.session_of_posture (u.emitFlit_posture l b) l).trans (by rw [hul]), ?_, (u.emitFlit_other l b).trans huo,
    State.eq_of_groups ?_⟩
  · rw [State.emitFlit_fresh, hus]
  · rw [hus]
    simp

/-! ### The number of a session -/

theorem word_add_ne {a b : Nat} (w : Word) (ha : a < 2 ^ 32) (hb : b < 2 ^ 32) (h : a ≠ b) :
    w + BitVec.ofNat 32 a ≠ w + BitVec.ofNat 32 b := fun he => h (by
  have hn := congrArg BitVec.toNat ((BitVec.add_right_inj w).mp he)
  rwa [BitVec.toNat_ofNat, BitVec.toNat_ofNat, Nat.mod_eq_of_lt ha, Nat.mod_eq_of_lt hb] at hn)

/-- The number is the first of the words from `w` on that is not zero and not issued, if there is one among the first `n + 1`. -/
theorem newSessionId_good (issued : List Word) (w : Word) (n : Nat)
    (h : ∃ k ≤ n, w + BitVec.ofNat 32 k ≠ 0 ∧ w + BitVec.ofNat 32 k ∉ issued) :
    newSessionId issued w n ≠ 0 ∧ newSessionId issued w n ∉ issued := by
  induction n generalizing w with
  | zero =>
    obtain ⟨k, hk, h0, hi⟩ := h
    obtain rfl := Nat.le_zero.mp hk
    rw [show w + BitVec.ofNat 32 0 = w from BitVec.add_zero w] at h0 hi
    exact ⟨h0, hi⟩
  | succ n ih =>
    rw [newSessionId]
    split
    next hbad =>
      obtain ⟨k, hk, h0, hi⟩ := h
      obtain _ | k := k
      · rw [show w + BitVec.ofNat 32 0 = w from BitVec.add_zero w] at h0 hi
        exact absurd hbad (not_or.mpr ⟨h0, by simpa using hi⟩)
      · have hshift : w + BitVec.ofNat 32 (k + 1) = w + 1 + BitVec.ofNat 32 k := by
          rw [BitVec.add_assoc, BitVec.ofNat_add, BitVec.add_comm (BitVec.ofNat 32 k)]
          rfl
        rw [hshift] at h0 hi
        exact ih (w + 1) ⟨k, by omega, h0, hi⟩
    next hgood => simpa using hgood

/-- Among as many words in a row as there are numbers issued, and two more, one is not zero and not issued. -/
theorem exists_free_word (issued : List Word) (w : Word) (hlen : issued.length + 2 < 2 ^ 32) :
    ∃ k ≤ issued.length + 2, w + BitVec.ofNat 32 k ≠ 0 ∧ w + BitVec.ofNat 32 k ∉ issued := by
  by_contra hno
  have hall : ∀ x ∈ (List.range (issued.length + 2)).map (fun k => w + BitVec.ofNat 32 k), x ∈ 0 :: issued := by
    intro x hx
    obtain ⟨k, hk, rfl⟩ := List.mem_map.mp hx
    rw [List.mem_range] at hk
    by_contra hx
    rw [List.mem_cons, not_or] at hx
    exact hno ⟨k, by omega, hx⟩
  have hnodup : ((List.range (issued.length + 2)).map (fun k => w + BitVec.ofNat 32 k)).Nodup := by
    refine List.Nodup.map_on (fun a ha b hb hab => ?_) List.nodup_range
    rw [List.mem_range] at ha hb
    exact not_not.mp fun hne => word_add_ne w (by omega) (by omega) hne hab
  have hle := (List.subperm_of_subset hnodup hall).length_le
  simp at hle

/-! ### Opening and refusal -/

@[simp] theorem State.emitFlit_unreported (s : State) (l : Link) (b : FlitBody) : (s.emitFlit l b).unreported = s.unreported := by
  simp [State.unreported]

/-- An audit entry changes the registers, the host interface and the log alone: no key, number or grant. -/
theorem State.audit_sec (s : State) (typ : Nat) (domain : Option Nat) (agent arg : Nat) :
    (s.audit typ domain agent arg).sec.opk = s.sec.opk ∧ (s.audit typ domain agent arg).sec.sessions = s.sec.sessions := by
  unfold State.audit
  dsimp only
  split
  · rw [State.setIrq_sec]
    exact ⟨rfl, rfl⟩
  · exact ⟨rfl, rfl⟩

/-- The first session makes its link active. -/
theorem State.takeActive_outcome (s : State) (l : Link) (n : Nat) : ((s.takeActive l).drainWaiting l n).host.active = some l ∧
    LinkRec.still (((s.takeActive l).drainWaiting l n).link l) = LinkRec.still (s.link l) ∧
    ((s.takeActive l).drainWaiting l n).unreported = s.unreported := by
  have hp : ((s.takeActive l).drainWaiting l n).posture = ({ s.posture with active := some l, activeWant := none } : HostState) :=
    State.drainWaiting_posture ..
  refine ⟨(congrArg HostState.active hp :), ?_, ?_⟩
  · cases l
    · exact (congrArg HostState.a hp :)
    · exact (congrArg HostState.b hp :)
  · simp [State.unreported, State.takeActive]

/-- A session opens under a number of its own: its link is UP, and is active if none was. -/
theorem State.openSession_outcome (s : State) (l : Link) {id : Word}
    (hid : newSessionId s.sec.sessions (Config.random s.fresh) (s.sec.sessions.length + 2) = id) :
    ((s.openSession l).link l).session = .opened id ∧ ((s.openSession l).link l).ls = .up ∧
      (s.openSession l).sec.sessions = s.sec.sessions ++ [id] ∧ (s.openSession l).sec.opk = s.sec.opk ∧
      (s.openSession l).host.active = some (s.host.active.getD l) ∧
      s.openSession l = { s with
        fresh := (s.openSession l).fresh, rf := (s.openSession l).rf, host := (s.openSession l).host, sec := (s.openSession l).sec } := by
  unfold State.openSession
  rw [hid]
  dsimp only
  generalize hu : State.setLink _ l _ = u
  have hul : u.link l = { s.link l with session := .opened id, ls := .up } := by
    rw [← hu, State.link_setLink]
    cases l <;> rfl
  have hus : u = { s with fresh := s.fresh + 1, host := u.host, sec := { s.sec with sessions := s.sec.sessions ++ [id] } } := by
    rw [← hu]
    cases l <;> rfl
  have hua : u.host.active = s.host.active := by
    rw [← hu]
    cases l <;> rfl
  generalize ha : (u.audit 2 none (Link.num l) _).lsResult l 0 id = v
  have hp : v.posture = u.posture := by
    rw [← ha, State.lsResult_posture, State.audit_posture]
  have hsec : v.sec.opk = u.sec.opk ∧ v.sec.sessions = u.sec.sessions := by
    rw [← ha, State.lsResult, State.emitFlit_sec]
    exact State.audit_sec ..
  have hvk : v.unlinked = u.unlinked := by
    rw [← ha]
    simp [State.unlinked, State.lsResult]
  have hends (w : State) (hact : w.host.active = some (v.host.active.getD l)) (hl : LinkRec.still (w.link l) = LinkRec.still (v.link l))
      (hk : w.unreported = v.unreported) : (w.link l).session = .opened id ∧ (w.link l).ls = .up ∧ w.sec.sessions = s.sec.sessions ++ [id] ∧
      w.sec.opk = s.sec.opk ∧ w.host.active = some (s.host.active.getD l) ∧
      w = { s with fresh := w.fresh, rf := w.rf, host := w.host, sec := w.sec } := by
    have hlu := hl.trans (State.link_of_posture hp l)
    rw [hul] at hlu
    have hws : w.sec = v.sec := (congrArg State.sec hk :)
    have hwu : w.unlinked = u.unlinked := (congrArg State.unlinked hk :).trans hvk
    have hwk := State.eq_of_unlinked hwu
    exact ⟨(congrArg LinkRec.session hlu :), (congrArg LinkRec.ls hlu :), by rw [hws, hsec.2, hus], by rw [hws, hsec.1, hus],
      by rw [hact, State.active_of_posture hp, hua], by rw [hwk, hus]⟩
  split
  next m hm => exact hends v (by rw [hm, Option.getD_some]) rfl rfl
  next hm =>
    obtain ⟨hact, hl, hk⟩ := v.takeActive_outcome l ((v.link l).waiting.length + 1)
    exact hends _ (by rw [hact, hm, Option.getD_none]) hl hk

/-- A proof that does not verify ends the exchange for 100 ms, and is counted. -/
theorem State.refuseProof_outcome (s : State) (l : Link) (n : Nat) :
    ((s.refuseProof l n).link l).session = .none ∧ ((s.refuseProof l n).link l).refusedTill = s.nrt + 10000000 ∧
      (s.refuseProof l n).reg pgSecc 0x12C = satAdd32 (s.reg pgSecc 0x12C) 1 ∧ (s.refuseProof l n).unreported = s.unreported := by
  unfold State.refuseProof
  dsimp only
  generalize hu : s.setLink l _ = u
  have hul : u.link l = { s.link l with session := .none, refusedTill := s.nrt + 10000000 } := by
    rw [← hu, State.link_setLink]
    rfl
  have hur : u.reg pgSecc 0x12C = s.reg pgSecc 0x12C := by
    rw [← hu]
    exact State.regI_setLink ..
  have huk : u.unreported = s.unreported := by rw [← hu, State.setLink_unreported]
  have hp : (((u.bump pgSecc 0x12C 1).setIrq pgSecc 8).lsResult l n 0).posture = u.posture :=
    (State.lsResult_posture ..).trans (State.setIrq_posture ..)
  have hl := State.link_of_posture hp l
  rw [hul] at hl
  refine ⟨(congrArg LinkRec.session hl :), (congrArg LinkRec.refusedTill hl :), ?_, ?_⟩
  · have h1 : (((u.bump pgSecc 0x12C 1).setIrq pgSecc 8).lsResult l n 0).reg pgSecc 0x12C = ((u.bump pgSecc 0x12C 1).setIrq pgSecc 8).reg pgSecc 0x12C :=
      State.emitFlit_reg (by intro m; cases m <;> decide) ..
    rw [h1, State.setIrq_reg (by intro m; cases m <;> decide) (by decide), State.reg_bump, hur]
  · rw [State.lsResult, State.emitFlit_unreported, State.setIrq_unreported, State.bump_unreported, huk]

/-! ### The end -/

/-- The grants are closed with the first session that ends, and stay closed. -/
theorem State.sessionsAfter_grants {old : State} (hopen : (old.link l).sessionOpen = true) (hend : (s.link l).sessionOpen = false) :
    (State.sessionsAfter old s).sec.grants = [] := by
  have hstep (u : State) (m : Link) (h : m = l ∧ u.posture = s.posture ∨ u.sec.grants = []) :
      (if (old.link m).sessionOpen && !(u.link m).sessionOpen then
        (u.audit 2 none (Link.num m) (Link.num m + (sessionId (old.link m)).toNat * 2 ^ 32)).closeGrants (Link.num m)
      else u).sec.grants = [] := by
    split
    · exact State.closeGrants_grants ..
    next hno =>
      obtain ⟨rfl, hp⟩ | h := h
      · rw [State.sessionOpen_of_posture hp, hopen, hend] at hno
        exact absurd rfl hno
      · exact h
  unfold State.sessionsAfter
  rw [List.foldl_cons, List.foldl_cons, List.foldl_nil]
  cases l with
  | a => exact hstep _ _ (.inr (hstep _ _ (.inl ⟨rfl, rfl⟩)))
  | b =>
    refine hstep _ _ (.inl ⟨rfl, ?_⟩)
    split
    · rw [State.closeGrants_posture, State.audit_posture]
    · rfl

/-- The end of the session of one link closes every grant. -/
theorem State.lsEnd_outcome (hopen : (s.link l).sessionOpen = true) : ((s.lsEnd l).link l).session = .none ∧
    (s.lsEnd l).host.active ≠ some l ∧ (s.lsEnd l).sec.grants = [] ∧ (s.lsEnd l).host.rings = s.host.rings ∧
    (s.lsEnd l).unlinked = s.unlinked := by
  obtain ⟨hself, hother, hrings, hact⟩ := s.endSession_outcome l
  have hk : (s.endSession l).unlinked = s.unlinked := by simp [State.unlinked]
  have hp := State.sessionsAfter_posture s (s.endSession l)
  unfold State.lsEnd
  generalize s.endSession l = u at *
  have hses : (u.link l).session = .none := (congrArg LinkRec.session hself :)
  refine ⟨(State.session_of_posture hp l).trans hses, by rw [State.active_of_posture hp]; exact hact hopen, ?_,
    (State.rings_of_posture hp).trans hrings, (State.sessionsAfter_unlinked s u).trans hk⟩
  exact State.sessionsAfter_grants hopen (by rw [LinkRec.sessionOpen, hses])

end Sys2Proof.Machine
end

section
open Sys2Proof Sys2Proof.Machine

/-- Settles O24: HELLO and the deferred challenge are `challenge`, a verified proof opens a session, a refused one closes the exchange, and
the end of a session takes the role and the grants. -/
theorem hostSessionsOpenAndClose : Obligations.HostSessionsOpenAndClose := by
  unfold Obligations.HostSessionsOpenAndClose
  refine ⟨fun s l n m ht ho hsec hup hr => ?_, fun s l n till hup hsec hw hle => ?_, fun s l n k opk slot hup hsec hch hslot hlen => ?_,
    fun s l n k opk hup hsec hch hopk => ?_, fun s l n k opk hup hsec hch => ?_, fun s l hg ho => ?_⟩
  · have hgo : s.lsHello l (n ++ m) = s.challenge l (n ++ m) := by
      simp [State.lsHello, ht, ho, hsec, hup, Nat.not_lt.mpr hr]
    obtain ⟨hses, hfresh, hother, hk⟩ := s.challenge_outcome l (n ++ m)
    generalize s.challenge l (n ++ m) = t at *
    rw [exec_lsHello, State.inPower, if_pos (State.powerGood_of_awake hup), hgo]
    exact ⟨t, State.did_of_keeps (by rw [hk]) (by rw [hk]), hses, hfresh, hother, hk⟩
  · have hgo : s.lsDeferred l = s.challenge l n := by
      simp [State.lsDeferred, hw, hle, hsec]
    obtain ⟨hses, hfresh, hother, hk⟩ := s.challenge_outcome l n
    generalize s.challenge l n = t at *
    rw [exec_lsChallengeDeferred, State.inAwake_keeps hup hgo (by rw [hk]) (by rw [hk])]
    exact ⟨t, rfl, hses, hfresh, hother, hk⟩
  · have hne : s.sec.opk.isEmpty = false := by
      cases h : s.sec.opk with
      | nil => rw [h] at hslot; cases hslot
      | cons => rfl
    have hany : s.sec.opk.any (fun (e : Nat × (BitVec 384 × Bool)) => e.2.1 == Config.sha384 opk && !e.2.2) = true :=
      List.any_eq_true.mpr ⟨_, AL.mem_of_get hslot, by simp⟩
    have hgo : s.lsProof l ⟨opk, true⟩ = s.openSession l := by
      simp only [State.lsProof, hch, hsec, hne, hany, Bool.not_true, Bool.false_eq_true, if_false, if_true]
    generalize hid : newSessionId s.sec.sessions (Config.random s.fresh) (s.sec.sessions.length + 2) = id
    obtain ⟨h0, hnew⟩ := newSessionId_good _ _ _ (exists_free_word s.sec.sessions (Config.random s.fresh) hlen)
    obtain ⟨hses, hls, hlist, -, hact, hk⟩ := s.openSession_outcome l hid
    rw [hid] at h0 hnew
    generalize s.openSession l = t at *
    rw [exec_lsProof, State.inAwake_keeps hup hgo (by rw [hk]) (by rw [hk])]
    exact ⟨t, id, rfl, hses, hls, h0, hnew, hlist, hact, hk⟩
  · generalize hv : (s.setSec { s.sec with opk := [(0, (Config.sha384 opk, false))] }).audit 3 none (Link.num l) 0 = v
    have hgo : s.lsProof l ⟨opk, true⟩ = v.openSession l := by
      simp only [State.lsProof, hch, hsec, hopk, List.isEmpty_nil, Bool.not_true, Bool.false_eq_true, if_false, if_true, hv]
    obtain ⟨hses, -, -, hkeys, -, hk⟩ := v.openSession_outcome l rfl
    have hvk : v = { s with rf := v.rf, host := v.host, sec := v.sec } := State.eq_of_groups (by rw [← hv]; simp)
    have hvo : v.sec.opk = [(0, (Config.sha384 opk, false))] := by
      rw [← hv]
      exact (State.audit_sec ..).1
    generalize v.openSession l = t at *
    have htk : t = { s with fresh := t.fresh, rf := t.rf, host := t.host, sec := t.sec } := by rw [hk, hvk]
    rw [exec_lsProof, State.inAwake_keeps hup hgo (by rw [htk]) (by rw [htk])]
    exact ⟨t, rfl, by rw [LinkRec.sessionOpen, hses], hkeys.trans hvo, htk⟩
  · have hgo : ∃ r, s.lsProof l ⟨opk, false⟩ = s.refuseProof l r := by
      unfold State.lsProof
      simp only [hch, hsec, Bool.not_true, Bool.false_eq_true, if_false]
      split
      · exact ⟨2, rfl⟩
      · split
        · exact ⟨1, rfl⟩
        · exact ⟨2, rfl⟩
    obtain ⟨r, hgo⟩ := hgo
    obtain ⟨hses, hrefused, hreg, hk⟩ := s.refuseProof_outcome l r
    generalize s.refuseProof l r = t at *
    rw [exec_lsProof, State.inAwake_keeps (u := t) hup hgo (congrArg State.pending hk :) (congrArg State.nrt hk :)]
    exact ⟨t, rfl, hses, hrefused, hreg, State.eq_of_unreported hk⟩
  · obtain ⟨hses, hact, hgrants, hrings, hk⟩ := State.lsEnd_outcome ho
    rw [exec_lsEnd, State.inPower, if_pos hg]
    generalize s.lsEnd l = t at *
    exact ⟨t, State.did_of_keeps (congrArg State.pending hk :) (congrArg State.nrt hk :), hses, hact, hgrants, hrings, State.eq_of_unlinked hk⟩

end

section
/-!
SUPPORT. The firmware cores (R402, R409, R445, R447 to R449, Table 18-7): a core that starts and one that stops, and the end of an activation.
-/

namespace Sys2Proof.Machine

variable {s t u : State}

theorem exec_coreReachesUp (c : Nat) (s : State) : exec (.coreReachesUp c) s = s.did (s.coreUp c) := rfl
theorem exec_coreLockstepRestart (c : Nat) (s : State) : exec (.coreLockstepRestart c) s = s.inAwake (·.lockstep c) := rfl
theorem exec_activationStartTimeout (k : Nat) (s : State) : exec (.activationStartTimeout k) s = s.inAwake (·.activationLate k) := rfl
theorem exec_deferredActivationResume (k : Nat) (s : State) : exec (.deferredActivationResume k) s = s.inAwake (·.deferredResume k) := rfl
theorem exec_antiRollbackRaise (k : Nat) (s : State) : exec (.antiRollbackRaise k) s = s.inAwake (·.raiseFuse k) := rfl
theorem exec_reportResign (s : State) : exec .reportResign s = s.inAwake (·.reportResign) := rfl
theorem exec_auditHeadFlush (s : State) : exec .auditHeadFlush s = s.inAwake (·.auditHeadFlush) := rfl

theorem State.awake_of_running (h : s.running = true) : s.awake = true := by rw [State.awake, h, Bool.true_or]

theorem State.not_unleavened (h : s.running = true) : s.pw.st ≠ .unleavened := by
  intro hst
  rw [State.running, hst] at h
  cases h

theorem State.kind_congr (h : t.fw = s.fw) (k : Nat) : t.kind k = s.kind k := by rw [State.kind, State.kind, h]

/-- The interrupt that MBOX gives for an activation that nobody waits for: bit 15 of its status (ACT_DONE). -/
theorem State.setIrq_actDone (s : State) : bitOf ((s.setIrq pgMbox (2 ^ 15)).reg pgMbox 0x20).toNat 15 = true := by
  have hp : ∀ l, pgMbox ≠ pgHlnk l := fun l => by cases l <;> decide
  have hset : ((s.setIrq pgMbox (2 ^ 15)).reg pgMbox 0x20).getLsbD 15 = true := by
    rw [State.setIrq_stat hp, BitVec.getLsbD_or, show (BitVec.ofNat 32 (2 ^ 15) &&& BitVec.ofNat 32 (irqBits pgMbox)).getLsbD 15 = true by decide,
      Bool.or_true]
  rw [BitVec.getLsbD, Nat.testBit_eq_decide_div_mod_eq] at hset
  exact hset

/-- An audit entry is put in the log of SECC; beside it, its full log gives an interrupt. -/
theorem State.audit_outcome (s : State) (typ : Nat) (domain : Option Nat) (agent arg0 : Nat) : (s.audit typ domain agent arg0).fw = s.fw ∧
    s.audit typ domain agent arg0 = { s with
      rf := (s.audit typ domain agent arg0).rf, host := (s.audit typ domain agent arg0).host, sec := (s.audit typ domain agent arg0).sec } :=
  ⟨by simp, State.eq_of_groups (by simp)⟩

/-! ### A core starts -/

/-- The record of a core that starts (R448). -/
def State.startedCore (s : State) (c : Nat) : CoreRec := { s.core c with
  up := true, restarts := min 255 ((s.core c).restarts + 1), version := (s.bootImage c).1, arb := (s.bootImage c).2, runAt := s.nrt, trace := 0,
  logged := 0 }

/-- The first part of a start, in which the core takes up its record and its interrupt is given. -/
def State.startCore (s : State) (c : Nat) : State :=
  let t := ((s.syncClamp c).setCore c (s.startedCore c)).setIrq pgMbox (2 ^ (8 + c))
  if c = 0 then t.setSec { t.sec with trngBad := false } else t

theorem State.startCore_outcome (s : State) (c : Nat) : (s.startCore c).fw = { s.fw with cores := AL.put c (s.startedCore c) s.fw.cores } ∧
    (c = 0 → (s.startCore c).sec.trngBad = false) ∧
    s.startCore c = { s with rf := (s.startCore c).rf, host := (s.startCore c).host, sec := (s.startCore c).sec, fw := (s.startCore c).fw
                             eng := { s.eng with credits := (s.startCore c).eng.credits } } := by
  have hfw : (((s.syncClamp c).setCore c (s.startedCore c)).setIrq pgMbox (2 ^ (8 + c))).fw =
      { s.fw with cores := AL.put c (s.startedCore c) s.fw.cores } := by
    rw [State.setIrq_fw, State.setCore, State.setFw_fw]
    simp
  have hclamp := s.syncClamp_eng c
  unfold State.startCore
  dsimp only
  split
  · refine ⟨hfw, fun _ => rfl, State.eq_of_groups ?_⟩
    simpa using hclamp
  · next hc =>
    refine ⟨hfw, fun h => absurd h hc, State.eq_of_groups ?_⟩
    simpa using hclamp

/-- The lanes that a starting quadrant core records, and its attention bit (R270, R271). -/
def State.startLanes (s : State) (c : Nat) : State := if 3 ≤ c then (s.recordLanes (c - 3)).setIrq (pgCctl (c - 3)) 1 else s

theorem State.startLanes_outcome (s : State) (c : Nat) : (s.startLanes c).fw = { s.fw with laneLog := (s.startLanes c).fw.laneLog } ∧
    s.startLanes c = { s with rf := (s.startLanes c).rf, host := (s.startLanes c).host, fw := (s.startLanes c).fw } := by
  unfold State.startLanes
  split
  · refine ⟨?_, State.eq_of_groups (by simp)⟩
    rw [State.setIrq_fw, State.recordLanes]
    dsimp only
    split
    · rfl
    · rw [State.setIrq_fw]
      rfl
  · exact ⟨rfl, rfl⟩

/-- The state of a core that has started, while an activation in which it has no part, or none, is under way. -/
theorem State.startLanes_startCore (s : State) (c : Nat) (hu : (s.startCore c).startLanes c = u) :
    u.core c = s.startedCore c ∧ (∀ k, u.kind k = s.kind k) ∧ u.fw.activation = s.fw.activation ∧ u.fw.held = s.fw.held ∧
      (c = 0 → u.sec.trngBad = false) ∧
      u = { s with rf := u.rf, host := u.host, sec := u.sec, fw := u.fw, eng := { s.eng with credits := u.eng.credits } } := by
  obtain ⟨hfw, htrng, hk⟩ := s.startCore_outcome c
  obtain ⟨hfw', hk'⟩ := (s.startCore c).startLanes_outcome c
  generalize s.startCore c = v at *
  rw [hu] at hfw' hk'
  rw [hfw] at hfw'
  refine ⟨?_, fun k => ?_, by rw [hfw'], by rw [hfw'], fun hc => ?_, ?_⟩
  · rw [State.core, hfw']
    exact AL.getD_put ..
  · rw [State.kind, hfw']
    rfl
  · rw [hk']
    exact htrng hc
  · rw [hk']
    conv_lhs => rw [hk]

/-- An activation goes on when its first core starts (Table 18-7 steps 4 to 7). -/
def State.activationGoesOn (s : State) (c : Nat) : State :=
  match s.fw.activation with
  | none => s
  | some a => match a.cores with
    | [] => s
    | x :: rest =>
      if x ≠ c then s
      else if rest.isEmpty then (s.audit 0x30 none 2 (c + (s.kind a.kind).fuse * 2 ^ 32)).endActivation a stOk 1
      else (s.setFw { s.fw with activation := some { a with cores := rest } }).coreDown (rest.headD 0)

/-- With no request that waits, a core that starts has none to answer and none to take up. -/
theorem State.coreUp_starts {c : Nat} (hdown : (s.core c).up = false) (hc : c ≤ 6) (hon : s.running = true) (hheld : s.fw.held = []) :
    s.coreUp c = (((s.startCore c).startLanes c).activationGoesOn c).heldStep := by
  have hgo : ¬ ((s.core c).up ∨ 6 < c ∨ !s.awake ∨ (s.pw.st = .unleavened ∧ 1 < c)) := by
    simp [hdown, State.awake_of_running hon, State.not_unleavened hon, Nat.not_lt.mpr hc]
  have hcut : (s.startCore c).answerCut c = s.startCore c := by
    rw [State.answerCut, (s.startCore_outcome c).1]
    dsimp only
    rw [hheld]
    rfl
  rw [State.coreUp, if_neg hgo]
  change ((((s.startCore c).answerCut c).startLanes c).activationGoesOn c).heldStep = _
  rw [hcut]

theorem State.heldStep_none (h : s.fw.held = []) : s.heldStep = s := by rw [State.heldStep, h, List.foldl_nil]

/-! ### An activation ends -/

/-- An activation that nobody waits for ends with its kind's last result and the interrupt ACT_DONE. -/
theorem State.endActivation_unasked {a : Activation} (status last : Nat) (hreq : a.req = none) (ht : s.endActivation a status last = t) :
    t.fw.activation = none ∧ t.kind a.kind = { s.kind a.kind with last := last } ∧ (∀ c, t.core c = s.core c) ∧ t.fw.held = s.fw.held ∧
      bitOf (t.reg pgMbox 0x20).toNat 15 = true ∧ t = { s with rf := t.rf, host := t.host, fw := t.fw } := by
  subst ht
  unfold State.endActivation
  dsimp only
  rw [hreq]
  dsimp only
  refine ⟨by rw [State.setIrq_fw]; rfl, ?_, fun c => ?_, by rw [State.setIrq_fw]; rfl, State.setIrq_actDone _, State.eq_of_groups (by simp)⟩
  · rw [State.kind_congr (State.setIrq_fw ..)]
    exact State.kind_setKind ..
  · rw [State.core_congr (State.setIrq_fw ..)]
    rfl

/-- A core that does not stop because it is down leaves the state. -/
theorem State.coreDown_down {c : Nat} (h : (s.core c).up = false) : s.coreDown c = s := by rw [State.coreDown, h]; rfl

/-- A core that goes down changes the core records alone among the firmware's fields. -/
theorem State.coreDown_keeps (s : State) (c : Nat) : (s.coreDown c).fw = { s.fw with cores := (s.coreDown c).fw.cores } ∧
    s.coreDown c = { s with rf := (s.coreDown c).rf, host := (s.coreDown c).host, fw := (s.coreDown c).fw
                            eng := { s.eng with credits := (s.coreDown c).eng.credits } } := by
  cases hup : (s.core c).up
  · rw [State.coreDown_down hup]
    exact ⟨rfl, rfl⟩
  · refine ⟨?_, State.coreDown_eq hup⟩
    rw [State.coreDown_fw hup]
    rfl

/-- Steps 2 and 3 of an activation, whether its first core is up or not. -/
theorem State.activate_begins (s : State) (k : Nat) (r : Option MReq) (ht : s.activate k r = t) :
    t.fw.deferred = s.fw.deferred ∧ t.kind k = switchedKind (s.kind k) ∧ t.fw.activation = some ⟨k, r, coresOf k, (s.kind k).active, s.nrt⟩ ∧
      t = { s with rf := t.rf, host := t.host, fw := t.fw, eng := { s.eng with credits := t.eng.credits } } := by
  unfold State.activate at ht
  dsimp only at ht
  generalize hv : (s.setKind k { s.kind k with active := 1 - (s.kind k).active, staged := false }).setFw _ = v at ht
  obtain ⟨hfw, hk⟩ := v.coreDown_keeps ((coresOf k).headD 0)
  rw [ht] at hfw hk
  subst hv
  refine ⟨by rw [hfw]; rfl, ?_, by rw [hfw]; rfl, hk⟩
  rw [State.kind, hfw]
  exact AL.getD_put ..

end Sys2Proof.Machine
end

section

open Sys2Proof Sys2Proof.Machine

/-- Settles O30, event by event. -/
theorem firmwareCoresStopAndStart : Obligations.FirmwareCoresStopAndStart := by
  unfold Obligations.FirmwareCoresStopAndStart
  refine ⟨?starts, ?ends, ?lockstep, ?late, ?resumes, ?expires, ?raises, ?resigns, ?flushes⟩
  case starts =>
    intro s c hdown hc hon hact hheld
    rw [exec_coreReachesUp, State.coreUp_starts hdown hc hon hheld]
    obtain ⟨hcore, -, hact', hheld', htrng, hk⟩ := State.startLanes_startCore s c rfl
    generalize (s.startCore c).startLanes c = u at *
    have hgo : u.activationGoesOn c = u := by rw [State.activationGoesOn, hact', hact]
    rw [hgo, State.heldStep_none (hheld'.trans hheld)]
    exact ⟨u, State.did_of_keeps (by rw [hk]) (by rw [hk]), by rw [hcore]; rfl, by rw [hcore]; rfl, by rw [hcore]; rfl, by rw [hcore]; rfl,
      by rw [hcore]; rfl, by rw [hcore]; rfl, htrng, hk⟩
  case ends =>
    intro s c a hdown hc hon hact hcores hreq hheld
    rw [exec_coreReachesUp, State.coreUp_starts hdown hc hon hheld]
    obtain ⟨hcore, hkind, hact', hheld', -, hk⟩ := State.startLanes_startCore s c rfl
    generalize (s.startCore c).startLanes c = u at *
    generalize hv : u.audit 0x30 none 2 (c + (u.kind a.kind).fuse * 2 ^ 32) = v
    obtain ⟨hvf, hvk⟩ := u.audit_outcome 0x30 none 2 (c + (u.kind a.kind).fuse * 2 ^ 32)
    rw [hv] at hvf hvk
    have hgo : u.activationGoesOn c = v.endActivation a stOk 1 := by
      rw [State.activationGoesOn, hact', hact]
      dsimp only
      rw [hcores]
      dsimp only
      rw [if_neg (not_not_intro rfl), if_pos List.isEmpty_nil, hv]
    obtain ⟨hnone, hlast, hcores', hheld'', hbit, hk'⟩ := v.endActivation_unasked stOk 1 hreq rfl
    rw [hgo]
    generalize v.endActivation a stOk 1 = t at *
    have htk : t = { s with rf := t.rf, host := t.host, sec := t.sec, fw := t.fw, eng := { s.eng with credits := t.eng.credits } } := by
      rw [hk', hvk]
      conv_lhs => rw [hk]
    rw [State.heldStep_none (by rw [hheld'', hvf, hheld', hheld])]
    refine ⟨t, State.did_of_keeps (by rw [htk]) (by rw [htk]), ?_, hnone, by rw [hlast], hbit, htk⟩
    rw [hcores', State.core_congr hvf, hcore]
    rfl
  case lockstep =>
    intro s c hup hc hcore
    have hgo : s.lockstep c = s.coreDown c := by rw [State.lockstep, if_neg (Nat.not_lt.mpr hc)]
    have hfw := State.coreDown_fw hcore
    obtain ⟨hcores, hk⟩ := s.coreDown_keeps c
    generalize s.coreDown c = t at *
    rw [exec_coreLockstepRestart, State.inAwake_keeps hup hgo (by rw [hk]) (by rw [hk])]
    refine ⟨t, rfl, ?_, fun d hd => ?_, by rw [← hcores]; exact hk⟩
    · rw [State.core_congr hfw, State.core_setCore]
      rfl
    · rw [State.core_congr hfw, State.core_setCore_ne hd]
  case late =>
    intro s k c a hup hact hkind hreq hcores hdown hlate
    generalize hv : (s.setKind k { s.kind k with active := a.old }).logErr pgMbox 2 c (AL.getD (s.kind k).active (0, 0) (s.kind k).slots).1 = v
    have hvf : v.fw = (s.setKind k { s.kind k with active := a.old }).fw := hv ▸ State.logErr_fw ..
    have hvk : v = { s with rf := v.rf, host := v.host, fw := v.fw } := hv ▸ State.eq_of_groups (by simp)
    have hgo : s.activationLate k = v.endActivation a stHwFault 5 := by
      have hnot : ¬ (a.kind ≠ k ∨ (s.core c).up = true ∨ s.nrt < (s.core c).downAt + msTicks 300) := by
        rw [hdown, show msTicks 300 = 30000000 from rfl]
        simpa [hkind] using hlate
      simp only [State.activationLate, hact, hcores, List.headD_cons, if_neg hnot, hv]
    obtain ⟨hnone, hlast, -, -, -, hk⟩ := v.endActivation_unasked stHwFault 5 hreq rfl
    generalize v.endActivation a stHwFault 5 = t at *
    have hvkind : v.kind k = { s.kind k with active := a.old } := by
      rw [State.kind_congr hvf]
      exact State.kind_setKind ..
    rw [hkind, hvkind] at hlast
    have htk : t = { s with rf := t.rf, host := t.host, fw := t.fw } := by rw [hk, hvk]
    rw [exec_activationStartTimeout, State.inAwake_keeps hup hgo (by rw [htk]) (by rw [htk])]
    exact ⟨t, rfl, hnone, by rw [hlast], by rw [hlast], htk⟩
  case resumes =>
    intro s k t0 hup hdef hintime hcalm hact hev
    have hgo : s.deferredResume k = (s.setFw { s.fw with deferred := [] }).activate k none := by
      have hnot : ¬ t0 + msTicks 60000 < s.nrt := Nat.not_lt.mpr hintime
      simp [State.deferredResume, hdef, hnot, hcalm, hact, hev]
    obtain ⟨hdef', hkind, hact', hk⟩ := State.activate_begins (s.setFw { s.fw with deferred := [] }) k none rfl
    generalize (s.setFw { s.fw with deferred := [] }).activate k none = t at *
    rw [exec_deferredActivationResume, State.inAwake_keeps hup hgo (by rw [hk]; rfl) (by rw [hk]; rfl)]
    exact ⟨t, rfl, hdef', by rw [hkind]; rfl, hact', hk⟩
  case expires =>
    intro s k t0 hup hdef hlate
    generalize hv : (s.setFw { s.fw with deferred := [] }).setKind k { s.kind k with last := 3 } = v
    have hgo : s.deferredResume k = v.setIrq pgMbox (2 ^ 15) := by
      have hyes : t0 + msTicks 60000 < s.nrt := hlate
      simp [State.deferredResume, hdef, hyes, ← hv]
    have hfw : (v.setIrq pgMbox (2 ^ 15)).fw = v.fw := State.setIrq_fw ..
    have hbit := v.setIrq_actDone
    have hk : v.setIrq pgMbox (2 ^ 15) = { v with rf := (v.setIrq pgMbox (2 ^ 15)).rf, host := (v.setIrq pgMbox (2 ^ 15)).host } :=
      State.eq_of_groups (by simp)
    generalize v.setIrq pgMbox (2 ^ 15) = t at *
    have hkind : t.kind k = { s.kind k with last := 3 } := by
      rw [State.kind_congr hfw, ← hv]
      exact State.kind_setKind ..
    subst hv
    rw [exec_deferredActivationResume, State.inAwake_keeps hup hgo (by rw [hk]; rfl) (by rw [hk]; rfl)]
    refine ⟨t, rfl, by rw [hfw]; rfl, by rw [hkind], by rw [hkind], hbit, ?_⟩
    rw [hk]
    rfl
  case raises =>
    intro s k hup hran hlow
    generalize hx : ({ s.kind k with fuse := (s.core ((coresOf k).headD 0)).arb } : ImgKind) = x
    generalize hn : (coresOf k).headD 0 + (s.core ((coresOf k).headD 0)).arb * 2 ^ 32 = n
    have hgo : s.raiseFuse k = (s.setKind k x).audit 0x30 none 2 n := by
      have hyes : (coresOf k).all (fun c => (s.core c).up && decide ((s.core c).runAt + msTicks 60000 ≤ s.nrt)) = true ∧
          (s.kind k).fuse < (s.core ((coresOf k).headD 0)).arb := by
        refine ⟨List.all_eq_true.mpr fun c hc => ?_, hlow⟩
        obtain ⟨hcup, hcran⟩ := hran c hc
        rw [hcup, Bool.true_and, decide_eq_true_eq]
        exact hcran
      rw [State.raiseFuse, if_pos hyes, hx, hn]
    obtain ⟨hfw, hk⟩ := (s.setKind k x).audit_outcome 0x30 none 2 n
    generalize (s.setKind k x).audit 0x30 none 2 n = t at *
    rw [exec_antiRollbackRaise, State.inAwake_keeps hup hgo (by rw [hk]; rfl) (by rw [hk]; rfl)]
    refine ⟨t, rfl, ?_, ?_⟩
    · rw [State.kind_congr hfw]
      exact State.kind_setKind ..
    · rw [hfw, hk]
      rfl
  case resigns =>
    intro s hup hsec
    have hgo : s.reportResign = s.setSec { s.sec with report := s.reportBytes 0, reportAt := s.nrt, reportHead := s.sec.auditHead } := by
      rw [State.reportResign, if_pos hsec]
    exact (exec_reportResign s).trans (State.inAwake_keeps hup hgo rfl rfl)
  case flushes =>
    intro s hup hhead hdue
    have hyes : s.sec.auditHead ≠ s.sec.flushed.2 ∧ (s.sec.flushedAt = 0 ∨ s.sec.flushedAt + msTicks 1000 ≤ s.nrt) := ⟨hhead, .inr hdue⟩
    have hgo : s.auditHeadFlush = s.flushHead := by rw [State.auditHeadFlush, if_pos hyes]
    exact (exec_auditHeadFlush s).trans (State.inAwake_keeps hup hgo rfl rfl)

end

section
/-!
SUPPORT. Mailbox messages (R435 to R438): the state in which an answered request ends, and what of the state the report and the answer of a
core do not see.
-/

namespace Sys2Proof.Machine

variable {s t u v : State} {m : MReq} {x : Msg}

/-! ### The core that hears -/

theorem State.core_of_cores (h : t.fw.cores = s.fw.cores) (c : Nat) : t.core c = s.core c := by rw [State.core, State.core, h]

theorem State.core_logLine (s : State) (c level event d : Nat) :
    (s.logLine c level event).core d = (s.setCore c { s.core c with logged := (s.core c).logged + 1 }).core d := by
  rw [State.core, State.logLine_fw]
  rfl

/-- A core that hears a request keeps its record beside BUSY and its log, and the other cores theirs (R441). -/
theorem State.heard_core (s : State) (m : MReq) : (∃ n, (s.heard m).core m.core = { s.core m.core with busy := true, logged := n }) ∧
    ∀ d, d ≠ m.core → (s.heard m).core d = s.core d := by
  unfold State.heard
  generalize hb : s.setCore m.core { s.core m.core with busy := true } = b
  have hcore : b.core m.core = { s.core m.core with busy := true } := hb ▸ State.core_setCore ..
  have hother (d : Nat) (hd : d ≠ m.core) : b.core d = s.core d := hb ▸ State.core_setCore_ne hd ..
  obtain he | he | ⟨p, he⟩ := b.passTrace_cases m.core
  · rw [he]
    exact ⟨⟨_, hcore⟩, hother⟩
  · have hnext (d : Nat) : b.nextFresh.core d = b.core d := State.core_congr (State.nextFresh_fw b) d
    rw [he]
    exact ⟨⟨_, (hnext _).trans hcore⟩, fun d hd => (hnext d).trans (hother d hd)⟩
  · rw [he]
    refine ⟨⟨(b.core m.core).logged + 1, ?_⟩, fun d hd => ?_⟩
    · rw [State.core_logLine, State.core_setCore, hcore]
    · rw [State.core_logLine, State.core_setCore_ne hd, hother d hd]

theorem State.heard_version (s : State) (m : MReq) (c : Nat) : ((s.heard m).core c).version = (s.core c).version := by
  obtain ⟨⟨n, hn⟩, hother⟩ := s.heard_core m
  obtain rfl | hc := eq_or_ne c m.core
  · rw [hn]
  · rw [hother c hc]

/-- The report of R385 is the same while a core hears a request. -/
theorem State.heard_reportBytes (s : State) (m : MReq) (nonce : BitVec 256) : (s.heard m).reportBytes nonce = s.reportBytes nonce := by
  have hk := s.heard_eq m
  have hver := s.heard_version m
  generalize s.heard m = u at hk hver
  have hmeas : u.measured = s.measured := by
    funext k
    rw [State.measured, State.measured, hver, State.kind, State.kind, hk]
  have hseen : u.degraded = s.degraded ∧ u.opkState = s.opkState ∧ u.kind = s.kind := by
    rw [hk]
    exact ⟨rfl, rfl, rfl⟩
  have hrest : u.sec = s.sec ∧ u.fw.kinds = s.fw.kinds ∧ u.fw.bootCount = s.fw.bootCount ∧ u.lease = s.lease ∧ u.nrt = s.nrt ∧ u.pw = s.pw := by
    rw [hk]
    exact ⟨rfl, rfl, rfl, rfl, rfl, rfl⟩
  clear hk hver
  obtain ⟨hdeg, hopk, hkind⟩ := hseen
  obtain ⟨hsec, hkinds, hboot, hlease, hnrt, hpw⟩ := hrest
  unfold State.reportBytes
  rw [hmeas, hdeg, hopk, hkind, hsec, hkinds, hboot, hlease, hnrt, hpw]

/-! ### The answer -/

theorem State.mbxAnswer_core (s : State) (m : MReq) (typ status detail : Nat) (body : List Byte) :
    (s.mbxAnswer m typ status detail body).core m.core = { s.core m.core with busy := false, respSeq := m.seq } := by
  simp only [State.mbxAnswer, State.core, State.setIrq_fw, State.setCore_fw, AL.getD_put]

/-- An answer touches no register beside the interrupt's and the counters of flits. -/
theorem State.mbxAnswer_regAt {o : Nat} (h20 : o ≠ 0x20) (h : o ≠ 0x128) (h4 : o ≠ 0x12C) (s : State) (m : MReq) (typ status detail : Nat)
    (body : List Byte) (q i : Nat) : (s.mbxAnswer m typ status detail body).regI q o i = s.regI q o i := by
  unfold State.mbxAnswer
  dsimp only
  rw [State.setIrq_regAt h20 h h4]
  rfl

/-- What an answered request ends in, when its run came to the state `v` (R436, R437). -/
structure State.AnsweredFrom (v t : State) (m : MReq) (typ status detail : Nat) (body : List Byte) : Prop where
  answered : t.answered m typ status detail body
  core : t.core m.core = { v.core m.core with busy := false, respSeq := m.seq }
  regs : ∀ q o i, o ≠ 0x20 → o ≠ 0x128 → o ≠ 0x12C → t.regI q o i = v.regI q o i
  rest : t = { v with mem := t.mem, rf := t.rf, host := t.host, fw := { v.fw with cores := t.fw.cores } }

/-- A request that is heard, and that its run answers in `v`, with the whole of what it leaves. -/
theorem State.hears_answers {status detail : Nat} {body : List Byte} (h : s.hears m x = true)
    (hrun : (s.heard m).runMsg m x false 0 = .answer v status detail body) (hwf : v.mem.wf = true)
    (hp : v.pending = s.pending) (hn : v.nrt = s.nrt) :
    ∃ t, s.did (s.message m x) = .next t ∧ v.AnsweredFrom t m (msgType x) status detail body := by
  have htakes : s.message m x = v.mbxAnswer m (msgType x) status detail body := by
    rw [State.takes_of_hears h, State.takeMsg]
    change (match (s.heard m).runMsg m x false 0 with | .answer s st dt b => _ | .hold s n => _) = _
    rw [hrun]
  rw [htakes]
  exact ⟨_, State.did_of_keeps (by simp [hp]) (by simp [hn]), State.mbxAnswer_answered hwf (State.hears_core h) .., State.mbxAnswer_core ..,
    fun q o i h20 h h4 => State.mbxAnswer_regAt h20 h h4 .., State.mbxAnswer_eq ..⟩

/-- A request whose run changes nothing is answered, and nothing but the answer and what hearing it takes is changed. -/
theorem State.hears_report {status detail : Nat} {body : List Byte} (h : s.hears m x = true)
    (hrun : (s.heard m).runMsg m x false 0 = .answer (s.heard m) status detail body) :
    ∃ t, s.did (s.message m x) = .next t ∧ t.answered m (msgType x) status detail body ∧
      t = { s with fresh := t.fresh, mem := t.mem, rf := t.rf, host := t.host, fw := { s.fw with cores := t.fw.cores } } := by
  obtain ⟨t, hexec, hans, -, -, ht⟩ := State.hears_answers h hrun (State.heard_wf (State.hears_wf h) m) (by rw [s.heard_eq])
    (by rw [s.heard_eq])
  refine ⟨t, hexec, hans, ?_⟩
  rw [ht, s.heard_eq m]

/-- DEBUG of SECC takes a bit, with an audit entry (R402). -/
theorem State.setDebug_outcome (s : State) (bit agent : Nat) : (s.setDebug bit agent).sec.debug = s.sec.debug ||| 2 ^ bit ∧
    (s.setDebug bit agent).fw = s.fw ∧
    s.setDebug bit agent = { s with
      rf := (s.setDebug bit agent).rf, host := (s.setDebug bit agent).host, sec := (s.setDebug bit agent).sec } := by
  unfold State.setDebug
  dsimp only
  refine ⟨?_, by simp, State.eq_of_groups (by simp)⟩
  rw [State.audit]
  dsimp only
  split
  · rw [State.setIrq_sec, State.bump_sec]
    rfl
  · rfl

end Sys2Proof.Machine
end

section

open Sys2Proof Sys2Proof.Machine

/-- Settles O27, message by message: each runs in the state `heard`, and `hears_answers` says what its answer adds. -/
theorem messagesAskAndSet : Obligations.MessagesAskAndSet := by
  unfold Obligations.MessagesAskAndSet
  refine ⟨?hello, ?trace, ?attest, ?cap, ?noCap, ?quad, ?lanes, ?image, ?meters⟩
  case hello =>
    intro s m lo hi h hlo hhi
    obtain ⟨⟨n, hcore⟩, -⟩ := s.heard_core m
    have hrun : (s.heard m).runMsg m (.hello lo hi) false 0 =
        .answer ((s.heard m).setCore m.core { (s.heard m).core m.core with helloOk := true, major := 1, minor := 0 }) stOk 0
          (leBytes 1 1 ++ leBytes 1 0 ++ leBytes 2 0 ++ leBytes 4 ((s.heard m).core m.core).version ++
            leBytes 4 ((s.heard m).core m.core).arb) := if_pos ⟨hlo, hhi⟩
    obtain ⟨t, hexec, hans, ht, -, hk⟩ := State.hears_answers h hrun (State.heard_wf (State.hears_wf h) m) (by rw [s.heard_eq]; rfl)
      (by rw [s.heard_eq]; rfl)
    rw [hcore] at hans
    rw [State.core_setCore] at ht
    refine ⟨t, hexec, by rw [ht], by rw [ht], by rw [ht], hans, ?_⟩
    rw [hk, s.heard_eq m]
    rfl
  case trace =>
    intro s m first n e h he hn hlast
    obtain ⟨⟨k, hcore⟩, -⟩ := s.heard_core m
    generalize hr : (if e = 1 then (s.core m.core).trace ||| BitVec.ofNat 256 ((2 ^ n - 1) * 2 ^ first)
      else (s.core m.core).trace &&& ~~~BitVec.ofNat 256 ((2 ^ n - 1) * 2 ^ first)) = mask
    generalize hu : (s.heard m).setCore m.core { (s.heard m).core m.core with trace := mask } = u
    generalize hv : (if e = 1 then u.setDebug 0 (Link.num m.link) else u) = v
    have hrun : (s.heard m).runMsg m (.traceSet first n e) false 0 = .answer v stOk 0 (leBytes 32 mask.toNat) := by
      have hgood : ¬ (1 < e ∨ n = 0 ∨ 256 < first + n) := by omega
      change (s.heard m).traceSet m first n e = _
      rw [State.traceSet, if_neg hgood]
      simp only [hcore] at hu ⊢
      rw [hr, hu, hv]
    have hus : u = { s with fresh := u.fresh, mem := u.mem, fw := { s.fw with cores := u.fw.cores } } := by
      rw [← hu, s.heard_eq m]
      rfl
    have hvu : v.fw = u.fw ∧ v = { u with rf := v.rf, host := v.host, sec := v.sec } ∧ (e = 1 → v.sec.debug = u.sec.debug ||| 1) ∧
        (e = 0 → v.sec = u.sec) := by
      obtain ⟨hdebug, hfw, hk⟩ := u.setDebug_outcome 0 (Link.num m.link)
      rw [← hv]
      split
      next h1 => exact ⟨hfw, hk, fun _ => hdebug, fun h0 => by omega⟩
      next h1 => exact ⟨rfl, rfl, fun h => absurd h h1, fun _ => rfl⟩
    obtain ⟨hfw, hk, hon, hoff⟩ := hvu
    have hmem : v.mem = (s.heard m).mem := by
      rw [hk, ← hu]
      rfl
    obtain ⟨t, hexec, hans, ht, -, htk⟩ := State.hears_answers h hrun (hmem ▸ State.heard_wf (State.hears_wf h) m) (by rw [hk, hus])
      (by rw [hk, hus])
    have htrace : (t.core m.core).trace = mask := by
      rw [ht, State.core_congr hfw, ← hu, State.core_setCore]
    have hts : t.sec = v.sec := by rw [htk]
    have hsec : u.sec = s.sec := by rw [hus]
    refine ⟨t, hexec, htrace, fun h1 => ?_, fun h0 => ?_, by rw [htrace]; exact hans, ?_⟩
    · rw [hts, hon h1, hsec]
    · rw [hts, hoff h0, hsec]
    · rw [htk, hk]
      dsimp only
      rw [hus]
  case attest =>
    intro s m nonce h
    refine State.hears_report h ?_
    change MsgRes.answer _ _ _ ((s.heard m).reportBytes nonce ++ leBytes 2 (Config.certChain ((s.heard m).core 0).version).length ++
      Config.certChain ((s.heard m).core 0).version) = _
    rw [s.heard_reportBytes, s.heard_version]
  case cap =>
    intro s m w h hlo hhi
    have hrun : (s.heard m).runMsg m (.powerCap w) false 0 =
        .answer ((s.heard m).setReg pgPmgt 0x104 (BitVec.ofNat 32 w)) stOk 0 (leBytes 2 w) := if_neg (by omega)
    obtain ⟨t, hexec, hans, -, hregs, hk⟩ := State.hears_answers h hrun (State.heard_wf (State.hears_wf h) m) (by rw [s.heard_eq]; rfl)
      (by rw [s.heard_eq]; rfl)
    have hreg : t.reg pgPmgt 0x104 = BitVec.ofNat 32 w :=
      (hregs pgPmgt 0x104 0 (by decide) (by decide) (by decide)).trans (State.reg_setReg ..)
    refine ⟨t, hexec, hreg, hans, ?_⟩
    rw [hk, s.heard_eq m]
    rfl
  case noCap =>
    intro s m w h hout
    have hrun : (s.heard m).runMsg m (.powerCap w) false 0 = badField (s.heard m) := if_pos hout
    obtain ⟨t, hexec, hans, -, hregs, -⟩ := State.hears_answers h hrun (State.heard_wf (State.hears_wf h) m) (by rw [s.heard_eq])
      (by rw [s.heard_eq])
    have hrf : (s.heard m).rf = s.rf := by rw [s.heard_eq]
    refine ⟨t, hexec, (hregs pgPmgt 0x104 0 (by decide) (by decide) (by decide)).trans ?_, hans⟩
    rw [State.regI, hrf]
    rfl
  case quad =>
    intro s m h
    have hrun : (s.heard m).runMsg m .quadStatus false 0 = .answer (s.heard m) stOk 0
        (leBytes 1 ((List.range 6).foldl (fun n i => if s.tileFenced (6 * (m.core - 3) + i) then n + 2 ^ i else n) 0) ++
          leBytes 1 (min 255 (s.lanesPending (m.core - 3))) ++ leBytes 2 0 ++ leBytes 4 (s.handledOf (m.core - 3))) := by
      have hk := s.heard_eq m
      generalize s.heard m = u at *
      have hq : u.tileFenced = s.tileFenced ∧ u.lanesPending = s.lanesPending ∧ u.handledOf = s.handledOf := by
        rw [hk]
        exact ⟨rfl, rfl, rfl⟩
      obtain ⟨hfence, hlanes, herr⟩ := hq
      change u.quadStatus m.core = _
      rw [State.quadStatus, hfence, hlanes, herr]
    obtain ⟨t, hexec, hans, hk⟩ := State.hears_report h hrun
    exact ⟨t, _, hexec, rfl, hans, hk⟩
  case lanes =>
    intro s m clear ch lane h hq
    generalize hl : (if clear then s.fw.laneLog.filter (fun x => x != (ch, lane)) else s.fw.laneLog) = l
    generalize hv : (s.heard m).setFw { (s.heard m).fw with laneLog := l } = v
    have hrun : (s.heard m).runMsg m (.laneLog clear ch lane) false 0 = .answer v stOk 0
        (leBytes 2 (v.fw.laneLog.filter (fun x => x.1 / 96 == m.core - 3)).length ++ leBytes 2 0 ++
          (v.fw.laneLog.filter (fun x => x.1 / 96 == m.core - 3)).flatMap (fun x => leBytes 2 x.1 ++ leBytes 2 x.2)) := by
      have hlog : (s.heard m).fw.laneLog = s.fw.laneLog := by rw [s.heard_eq]
      change (s.heard m).laneLogOp m.core clear ch lane = _
      have hgo : (if clear then (s.heard m).setFw { (s.heard m).fw with
          laneLog := (s.heard m).fw.laneLog.filter (fun x => x != (ch, lane) || x.1 / 96 != m.core - 3) } else s.heard m) = v := by
        have hfilter : s.fw.laneLog.filter (fun x => x != (ch, lane) || x.1 / 96 != m.core - 3) =
            s.fw.laneLog.filter (fun x => x != (ch, lane)) := by
          refine List.filter_congr fun x _ => ?_
          by_cases hx : x = (ch, lane)
          · simp [hx, hq]
          · simp [hx]
        rw [hlog, hfilter, ← hv, ← hl]
        cases clear
        · rw [if_neg (by decide), if_neg (by decide), ← hlog]
          rfl
        · rfl
      rw [State.laneLogOp]
      dsimp only
      rw [hgo]
    have hvk : v = { s with fresh := v.fresh, mem := v.mem, fw := { s.fw with cores := v.fw.cores, laneLog := l } } := by
      rw [← hv, s.heard_eq]
      rfl
    have hmem : v.mem = (s.heard m).mem := by rw [← hv]; rfl
    obtain ⟨t, hexec, hans, -, -, hk⟩ := State.hears_answers h hrun (hmem ▸ State.heard_wf (State.hears_wf h) m) (by rw [hvk]) (by rw [hvk])
    have hlog : t.fw.laneLog = v.fw.laneLog := by rw [hk]
    have hlogl : v.fw.laneLog = l := by rw [hvk]
    refine ⟨t, hexec, hlog.trans hlogl, by rw [hlog]; exact hans, ?_⟩
    rw [hk]
    dsimp only
    rw [hvk]
  case image =>
    intro s m k h hk
    refine State.hears_report h ?_
    have hkind : (s.heard m).kind k = s.kind k := by
      rw [s.heard_eq]
      rfl
    change (s.heard m).fwStatus k = _
    rw [State.fwStatus, if_neg (Nat.not_lt.mpr hk), hkind]
  case meters =>
    intro s m c nonce x body h hx hbody
    generalize hy : ({ x with snapSeq := x.snapSeq + 1, snapped := c != s.heldComp } : MeterSet) = y
    generalize hv : (s.heard m).setFw { (s.heard m).fw with meters := AL.put c y (s.heard m).fw.meters } = v
    have hrun : (s.heard m).runMsg m (.meterSnapshot c nonce) false 0 = .answer v stOk 0 (body ++ leBytes 96 (Config.signature 0 body).toNat) := by
      have hk := s.heard_eq m
      generalize s.heard m = u at *
      have hu : u.fw.meters = s.fw.meters ∧ u.heldComp = s.heldComp ∧ u.fw.bootCount = s.fw.bootCount ∧ u.nrt = s.nrt := by
        rw [hk]
        exact ⟨rfl, rfl, rfl, rfl⟩
      obtain ⟨hmeters, hcomp, hboot, hnrt⟩ := hu
      change u.meterSnapshot c nonce = _
      rw [State.meterSnapshot, hmeters, hx]
      dsimp only
      rw [← hboot, ← hnrt] at hbody
      rw [hcomp, hy, ← hbody, ← hmeters, hv]
    have hvk : v = { s with fresh := v.fresh, mem := v.mem, fw := { s.fw with cores := v.fw.cores, meters := AL.put c y s.fw.meters } } := by
      rw [← hv, s.heard_eq]
      rfl
    have hmem : v.mem = (s.heard m).mem := by rw [← hv]; rfl
    obtain ⟨t, hexec, hans, -, -, hk⟩ := State.hears_answers h hrun (hmem ▸ State.heard_wf (State.hears_wf h) m) (by rw [hvk]) (by rw [hvk])
    have hmeters : t.fw.meters = AL.put c y s.fw.meters := by rw [hk, hvk]
    refine ⟨t, hexec, hans, by rw [hmeters, AL.get_put], ?_⟩
    rw [hk]
    dsimp only
    rw [hvk]

end

section
/-!
SUPPORT. Messages that put or take away a record of security (R382, R386, R389, R393, R400, R403): the record is put or taken in the tables of
SECC, with an entry of the audit log, and the request is answered.
-/

namespace Sys2Proof.Machine

variable {s v u : State} {m : MReq} {x : Msg}

/-- The tables of SECC beside its log. -/
def SecState.unaudited (r : SecState) : SecState := { r with audit := [], auditSeq := 0, auditHead := 0 }

/-- An entry of the log leaves the other tables of SECC. -/
theorem State.audit_unaudited (s : State) (typ : Nat) (domain : Option Nat) (agent arg : Nat) :
    SecState.unaudited (s.audit typ domain agent arg).sec = SecState.unaudited s.sec := by
  unfold State.audit
  dsimp only
  split
  · rw [State.setIrq_sec]
    rfl
  · rfl

/-- A request that is heard, and whose run changes the tables of SECC, registers and the host's side alone. -/
theorem State.hears_records {status detail : Nat} {body : List Byte} (h : s.hears m x = true)
    (hrun : (s.heard m).runMsg m x false 0 = .answer v status detail body)
    (hv : v = { s.heard m with rf := v.rf, host := v.host, sec := v.sec }) :
    ∃ t, s.did (s.message m x) = .next t ∧ t.sec = v.sec ∧ t.answered m (msgType x) status detail body ∧
      t = { s with fresh := t.fresh, mem := t.mem, rf := t.rf, host := t.host, sec := t.sec, fw := { s.fw with cores := t.fw.cores } } := by
  have hmem : v.mem = (s.heard m).mem := by rw [hv]
  obtain ⟨t, hexec, hans, -, -, ht⟩ := State.hears_answers h hrun (hmem ▸ State.heard_wf (State.hears_wf h) m) (by rw [hv, s.heard_eq])
    (by rw [hv, s.heard_eq])
  refine ⟨t, hexec, by rw [ht], hans, ?_⟩
  rw [ht, hv]
  dsimp only
  rw [s.heard_eq m]

/-- A request whose run puts the tables `r` with an audit entry: what holds of `r` beside the log is so in the end. -/
theorem State.hears_audited {r : SecState} {typ arg status : Nat} {domain : Option Nat} {body : List Byte} (h : s.hears m x = true)
    (hrun : (s.heard m).runMsg m x false 0 = .answer (((s.heard m).setSec r).audit typ domain (Link.num m.link) arg) status 0 body) :
    ∃ t, s.did (s.message m x) = .next t ∧ SecState.unaudited t.sec = SecState.unaudited r ∧ t.answered m (msgType x) status 0 body ∧
      t = { s with fresh := t.fresh, mem := t.mem, rf := t.rf, host := t.host, sec := t.sec, fw := { s.fw with cores := t.fw.cores } } := by
  obtain ⟨t, hexec, hsec, hans, hk⟩ := State.hears_records h hrun (State.eq_of_groups (by simp))
  exact ⟨t, hexec, (congrArg SecState.unaudited hsec).trans (State.audit_unaudited ..), hans, hk⟩

theorem State.domActive_of {d : Nat} {r : DomainRec} (h : AL.get d s.sec.domains = some r) (hst : r.st = .active) : s.domActive d = true := by
  rw [State.domActive, h, Option.any_some, hst]
  rfl

/-- Hearing a request leaves the tables of SECC and the parts of the state that quotas stand in. -/
theorem State.heard_parts (s : State) (m : MReq) : (s.heard m).sec = s.sec ∧ (s.heard m).rf = s.rf ∧ (s.heard m).kv = s.kv ∧
    (s.heard m).cmds = s.cmds ∧ (s.heard m).nrt = s.nrt := by
  rw [s.heard_eq m]
  exact ⟨rfl, rfl, rfl, rfl, rfl⟩

/-- The state in which a domain's block may be put: its handle is free and its quotas allow it (R393). -/
structure State.BlockFits (s : State) (d : ProjD) : Prop where
  free : AL.get (d.domain, d.handle) s.sec.projs = none
  active : s.domActive d.domain = true
  room : s.sec.projs.countP (fun p => p.1.1 == d.domain) < (AL.get d.domain s.sec.domains).elim 0 (·.projs)
  quota : s.rused d.domain + ceilDiv (d.layers * d.heads * d.dn * d.latentWidth * 2) 65536 * 256 ≤ s.rquota d.domain

theorem State.BlockFits.heard {d : ProjD} (h : s.BlockFits d) (m : MReq) : (s.heard m).BlockFits d := by
  obtain ⟨hsec, hrf, hkv, -, -⟩ := s.heard_parts m
  obtain ⟨hfree, hact, hroom, hquota⟩ := h
  refine ⟨by rw [hsec]; exact hfree, ?_, by rw [hsec]; exact hroom, ?_⟩
  · rw [State.domActive, hsec]
    exact hact
  · rw [State.rused, hkv, State.rquota, State.regI, hrf]
    exact hquota

/-- The units that a block takes of its domain's quota, in chunks of 64 KiB. -/
def blockSize (d : ProjD) : Nat := ceilDiv (d.layers * d.heads * d.dn * d.latentWidth * 2) 65536

section Fits
variable {d : ProjD} (h : s.BlockFits d)
include h

/-- A block that fits, and that came with the status that it binds to nothing, takes its handle alone. -/
theorem State.projInstall_unbound (hst : d.status = stNotBound) (m : MReq) : s.projInstall m d =
    .answer ((s.setSec { s.sec with projs := AL.put (d.domain, d.handle) ⟨false, 0, 0, 0, 0, [], 0, [], false⟩ s.sec.projs }).audit 0x22
      (some d.domain) (Link.num m.link) (d.handle + 2 ^ 16)) stNotBound 0 (leBytes 2 d.handle) := by
  obtain ⟨hfree, hact, hroom, hquota⟩ := h
  have hnew : ¬ (d.status = stBadDescriptor ∨ (AL.get (d.domain, d.handle) s.sec.projs).isSome = true) := by
    rw [hst, hfree]
    decide
  rw [State.projInstall, if_neg hnew, hact, if_neg (by decide), if_neg (not_or.mpr ⟨Nat.not_le.mpr hroom, Nat.not_lt.mpr hquota⟩), if_pos hst]

end Fits

end Sys2Proof.Machine
end

section
/-!
SUPPORT. The end of a domain (R387, R388, Table 16-5): what dropping its pages, contexts and blocks leaves of the state, and that none of the
frames of a domain without pins gets one.
-/

namespace Sys2Proof.Machine

variable {s t : State} {d : Nat}

theorem AL.mem_put {κ α : Type} [DecidableEq κ] {k : κ} {v : α} {p : κ × α} {l : AL κ α} (h : p ∈ AL.put k v l) : p = (k, v) ∨ p ∈ l := by
  induction l with
  | nil => exact .inl (List.mem_singleton.mp h)
  | cons x l ih =>
    rw [AL.put] at h
    split at h
    · rcases List.mem_cons.mp h with h | h
      · exact .inl h
      · exact .inr (List.mem_cons_of_mem _ h)
    · rcases List.mem_cons.mp h with h | h
      · exact .inr (h ▸ List.mem_cons_self)
      · exact (ih h).imp_right (List.mem_cons_of_mem _)

theorem AL.mem_del {κ α : Type} [DecidableEq κ] {k : κ} {p : κ × α} {l : AL κ α} (h : p ∈ AL.del k l) : p ∈ l ∧ p.1 ≠ k := by
  obtain ⟨hm, hk⟩ := List.mem_filter.mp h
  exact ⟨hm, of_decide_eq_true hk⟩

/-! ### Frames without pins -/

/-- No frame of a domain is pinned (R388). -/
def State.Unpinned (d : Nat) (s : State) : Prop := ∀ p ∈ s.kv.frames, p.2.cur.domain = d → p.2.pinCur = 0 ∧ p.2.pinOld = 0

theorem State.Unpinned.congr (h : s.Unpinned d) (hf : t.kv.frames = s.kv.frames) : t.Unpinned d := by
  rw [State.Unpinned, hf]
  exact h

theorem State.domPinned_of_unpinned (h : s.Unpinned d) : s.domPinned d = false := by
  refine List.any_eq_false.mpr fun p hp hc => ?_
  rw [Bool.and_eq_true, beq_iff_eq, decide_eq_true_eq] at hc
  obtain ⟨hd, hpin⟩ := hc
  obtain ⟨h0, h1⟩ := h p hp hd
  omega

theorem State.Unpinned.updFrame {g : Frame → Frame} (h : s.Unpinned d)
    (hg : ∀ x, (g x).cur.domain = x.cur.domain ∧ (g x).pinCur = x.pinCur ∧ (g x).pinOld = x.pinOld) (f : Nat) : (s.updFrame f g).Unpinned d := by
  intro p hp hd
  have hp' : p ∈ AL.upd f g s.kv.frames := hp
  rw [AL.upd] at hp'
  split at hp'
  · exact h p hp' hd
  next x hx =>
    rcases AL.mem_put hp' with rfl | hold
    · obtain ⟨hdom, hcur, hpold⟩ := hg x
      dsimp only at hd ⊢
      rw [hcur, hpold]
      exact h _ (AL.mem_of_get hx) (hdom ▸ hd)
    · exact h p hold hd

theorem State.Unpinned.updPage {g : Page → Page} (h : s.Unpinned d) (hg : ∀ x, (g x).domain = x.domain) (f : Nat) :
    (s.updPage f g).Unpinned d := by
  unfold State.updPage
  split
  · exact (h.updFrame (g := fun x => { x with cur := g x.cur }) (fun x => ⟨hg _, rfl, rfl⟩) f).congr rfl
  · exact h.updFrame (g := fun x => { x with cur := g x.cur, rack := g x.cur }) (fun x => ⟨hg _, rfl, rfl⟩) f

theorem State.putChunk_frames (s : State) (ch k : Nat) (u : ChunkUse) : (s.putChunk ch k u).kv.frames = s.kv.frames := by
  rw [State.putChunk_kv]

theorem State.freeMeta_frames (s : State) (ch half n : Nat) : (s.freeMeta ch half n).kv.frames = s.kv.frames := by
  refine State.foldl_keeps (·.kv.frames) _ (fun u i => ?_) _ s
  dsimp only
  repeat' split
  · rfl
  · exact State.putChunk_frames ..
  · rfl
  · rfl

theorem State.freeCrumb_frames (s : State) (ch loc : Nat) : (s.freeCrumb ch loc).kv.frames = s.kv.frames := by
  unfold State.freeCrumb
  dsimp only
  repeat' split
  · rfl
  · exact State.foldl_keeps (·.kv.frames) _ (by intros; rfl) _ _
  · rfl

theorem State.Unpinned.freeFrame (h : s.Unpinned d) (f : Nat) : (s.freeFrame f).Unpinned d := by
  intro p hp hd
  rw [State.freeFrame] at hp
  split at hp
  · exact h p hp hd
  next x hx =>
    refine h p ?_ hd
    have hlines : ((s.frameLines f).foldl (fun s l => State.dropLine s l) s).kv.frames = s.kv.frames :=
      State.foldl_keeps (·.kv.frames) _ (by intros; rfl) _ _
    have hmem := (AL.mem_del hp).1
    change p ∈ (State.freeMeta _ _ _ _).kv.frames at hmem
    rw [State.freeMeta_frames] at hmem
    split at hmem <;> split at hmem
    · rwa [← hlines, ← State.freeCrumb_frames]
    · rwa [← hlines]
    · rwa [← hlines, ← State.freeCrumb_frames]
    · rwa [← hlines]

theorem State.Unpinned.settleFrame (h : s.Unpinned d) (f : Nat) : (s.settleFrame f).Unpinned d := by
  unfold State.settleFrame
  repeat' split
  · exact h
  · exact h
  · exact h
  · exact h.freeFrame f
  · exact h
  · unfold State.setFState
    exact h.updPage (by intro; rfl) f

theorem State.Unpinned.lowerShare (h : s.Unpinned d) (f : Nat) : (s.lowerShare f).Unpinned d := by
  unfold State.lowerShare
  exact (h.updPage (by intro; rfl) f).settleFrame f

theorem State.Unpinned.releaseKey (h : s.Unpinned d) (f : Nat) : (s.releaseKey f).Unpinned d := by
  unfold State.releaseKey
  exact (h.updPage (by intro; rfl) f).lowerShare f

theorem State.Unpinned.dropEntry (h : s.Unpinned d) (k : Nat × Nat × Nat) : (s.dropEntry k).Unpinned d := h.congr rfl

theorem State.Unpinned.foldl {α : Type} {g : State → α → State} (hg : ∀ (u : State) x, u.Unpinned d → (g u x).Unpinned d) (l : List α)
    (h : s.Unpinned d) : (l.foldl g s).Unpinned d := by
  induction l generalizing s with
  | nil => exact h
  | cons x l ih => exact ih (hg s x h)

theorem State.Unpinned.dropPages (h : s.Unpinned d) (e : Nat) (r : SeqRec) (sh : Shape) : (s.dropPages e r sh).1.Unpinned d := by
  have hone (acc : State × Nat × Nat) (vp : Nat × Pte) (ha : acc.1.Unpinned d) : (State.dropPage e acc vp).1.Unpinned d := by
    have hpte : (acc.1.setPte e vp.1 .invalid).Unpinned d := ha.congr rfl
    rw [State.dropPage_fst]
    split
    · exact hpte.lowerShare _
    · exact hpte
  have hall (l : List (Nat × Pte)) (acc : State × Nat × Nat) (ha : acc.1.Unpinned d) : (l.foldl (State.dropPage e) acc).1.Unpinned d := by
    induction l generalizing acc with
    | nil => exact ha
    | cons x l ih => exact ih _ (hone acc x ha)
  rw [State.dropPages_eq]
  exact hall _ _ h

theorem State.Unpinned.destroySeq (h : s.Unpinned d) (e q : Nat) (r : SeqRec) : (s.destroySeq e q r).1.Unpinned d := by
  rw [State.destroySeq_eq]
  refine (h.dropPages e r (s.shape e r.shapeId)).congr ?_
  dsimp only
  unfold State.withoutRecord
  dsimp only
  split
  · exact State.freeMeta_frames ..
  · rfl

/-! ### Step 4 of Table 16-5 -/

/-- A state without its registers, host interface and KV store. -/
def State.unpaged (s : State) : State := { s with rf := State.reset.rf, host := State.reset.host, kv := KvState.blank }

theorem State.eq_of_unpaged (h : t.unpaged = s.unpaged) : t = { s with rf := t.rf, host := t.host, kv := t.kv } := by
  cases s; cases t
  simp only [State.unpaged, State.mk.injEq] at h
  simp_all

@[simp] theorem State.dropEntry_unpaged (s : State) (k : Nat × Nat × Nat) : (s.dropEntry k).unpaged = s.unpaged := by simp [State.unpaged]
@[simp] theorem State.releaseKey_unpaged (s : State) (f : Nat) : (s.releaseKey f).unpaged = s.unpaged := by simp [State.unpaged]
@[simp] theorem State.destroySeq_unpaged (s : State) (e q : Nat) (r : SeqRec) : (s.destroySeq e q r).1.unpaged = s.unpaged := by
  obtain ⟨hout, hinteg, -⟩ := s.destroySeq_keeps e q r
  have hk := State.eq_of_outside hout
  generalize (s.destroySeq e q r).1 = t at *
  have ht : t = { s with rf := t.rf, host := t.host, kv := t.kv } := by
    rw [hinteg] at hk
    exact hk
  rw [ht]
  rfl

theorem State.releaseKey_seqs (s : State) (f : Nat) : (s.releaseKey f).kv.seqs = s.kv.seqs := by
  refine State.seqs_of_recorded ?_
  rw [State.releaseKey, State.recorded_of_mapped (State.lowerShare_mapped ..), State.updPage_recorded]

/-- One sequence of a list is destroyed, if it is there. -/
def State.dropSeq (d : Nat) (s : State) (p : (Nat × Nat) × SeqRec) : State :=
  match s.seqRec d p.1.2 with
  | some r => (s.destroySeq d p.1.2 r).1
  | none => s

theorem State.dropSeq_outcome (hp : s.Unpinned d) (y : (Nat × Nat) × SeqRec) : (s.dropSeq d y).unpaged = s.unpaged ∧ (s.dropSeq d y).Unpinned d ∧
    ∀ p ∈ (s.dropSeq d y).kv.seqs, p ∈ s.kv.seqs ∧ p.1 ≠ (d, y.1.2) := by
  unfold State.dropSeq
  split
  next r hr =>
    refine ⟨State.destroySeq_unpaged .., hp.destroySeq d y.1.2 r, fun p h => ?_⟩
    rw [(State.destroySeq_keeps ..).2.2] at h
    exact AL.mem_del h
  next hr => exact ⟨rfl, hp, fun p h => ⟨h, fun hne => AL.get_ne_none h (hne ▸ hr)⟩⟩

/-- The sequences of a list that are there are destroyed; no other sequence is, and none comes. -/
theorem State.foldl_dropSeq (l : List ((Nat × Nat) × SeqRec)) (hp : s.Unpinned d) : (l.foldl (State.dropSeq d) s).unpaged = s.unpaged ∧
    (l.foldl (State.dropSeq d) s).Unpinned d ∧ ∀ p ∈ (l.foldl (State.dropSeq d) s).kv.seqs, p ∈ s.kv.seqs ∧ ∀ x ∈ l, p.1 ≠ (d, x.1.2) := by
  induction l generalizing s with
  | nil => exact ⟨rfl, hp, fun p h => ⟨h, fun x hx => nomatch hx⟩⟩
  | cons y l ih =>
    obtain ⟨hk, hp, hone⟩ := State.dropSeq_outcome hp y
    obtain ⟨hk', hpin, hseqs⟩ := ih hp
    refine ⟨hk'.trans hk, hpin, fun p h => ?_⟩
    obtain ⟨hmid, hl⟩ := hseqs p h
    obtain ⟨hold, hne⟩ := hone p hmid
    exact ⟨hold, List.forall_mem_cons.mpr ⟨hne, hl⟩⟩

/-- The entries of the starter store that a domain holds go. -/
def State.dropStarter (s : State) (d : Nat) : State :=
  (s.kv.starter.filter (fun p => p.2.domain == d)).foldl (fun (s : State) p => (s.dropEntry p.1).releaseKey p.2.frame) s

/-- The keyed frames of a domain are released. -/
def State.releaseKeys (s : State) (d : Nat) : State :=
  (s.kv.frames.filter (fun p => p.2.cur.domain == d && p.2.cur.fKeyed)).foldl (fun (s : State) p => s.releaseKey p.1) s

theorem State.destroyPages_eq (s : State) (d : Nat) : s.destroyPages d =
    (((s.dropStarter d).kv.seqs.filter (fun p => p.1.1 == d)).foldl (State.dropSeq d) (s.dropStarter d)).releaseKeys d := rfl

theorem State.dropStarter_outcome (s : State) (d : Nat) (hp : s.Unpinned d) : (s.dropStarter d).unpaged = s.unpaged ∧ (s.dropStarter d).Unpinned d := by
  unfold State.dropStarter
  exact ⟨State.foldl_keeps State.unpaged _ (by simp) _ s, hp.foldl (fun _ x hv => (hv.dropEntry x.1).releaseKey x.2.frame) _⟩

theorem State.releaseKeys_outcome (s : State) (d : Nat) (hp : s.Unpinned d) : (s.releaseKeys d).unpaged = s.unpaged ∧ (s.releaseKeys d).Unpinned d ∧
    (s.releaseKeys d).kv.seqs = s.kv.seqs := by
  unfold State.releaseKeys
  generalize s.kv.frames.filter (fun p => p.2.cur.domain == d && p.2.cur.fKeyed) = l
  exact ⟨State.foldl_keeps State.unpaged _ (by simp) l s, hp.foldl (fun _ x hv => hv.releaseKey x.1) l,
    State.foldl_keeps (fun u => u.kv.seqs) (fun (u : State) (x : Nat × Frame) => u.releaseKey x.1) (fun u x => State.releaseKey_seqs u x.1) l s⟩

theorem State.destroyPages_outcome (s : State) (d : Nat) (hp : s.Unpinned d) : (s.destroyPages d).unpaged = s.unpaged ∧
    (s.destroyPages d).Unpinned d ∧ ∀ p ∈ (s.destroyPages d).kv.seqs, p.1.1 ≠ d := by
  obtain ⟨huk, hup⟩ := s.dropStarter_outcome d hp
  rw [State.destroyPages_eq]
  generalize s.dropStarter d = u at *
  obtain ⟨hvk, hvp, hseqs⟩ := State.foldl_dropSeq (u.kv.seqs.filter (fun p => p.1.1 == d)) hup
  generalize (u.kv.seqs.filter (fun p => p.1.1 == d)).foldl (State.dropSeq d) u = v at *
  obtain ⟨hwk, hwp, hkeep⟩ := v.releaseKeys_outcome d hvp
  refine ⟨hwk.trans (hvk.trans huk), hwp, fun p h hd => ?_⟩
  rw [hkeep] at h
  obtain ⟨hold, hl⟩ := hseqs p h
  exact hl p (List.mem_filter.mpr ⟨hold, beq_iff_eq.mpr hd⟩) (Prod.ext hd rfl)

/-! ### Steps 5 to 7 of Table 16-5 -/

@[simp] theorem State.dropCtx_seqs (s : State) (i : Nat) : (s.dropCtx i).kv.seqs = s.kv.seqs := by
  have hfrag (u : State) (p : Nat × Frag) : (((u.unpinPages p.2).removeFrag p.2).settleOver p.2.cmd).kv.seqs = u.kv.seqs := by
    have hkv : (((u.unpinPages p.2).removeFrag p.2).settleOver p.2.cmd).kv = (u.unpinPages p.2).kv := by simp
    rw [hkv]
    exact State.seqs_of_recorded (State.foldl_keeps State.recorded _ (by simp) _ u)
  have hgrad (u : State) (k : Nat × Nat × Nat) : (u.dropGrad k).kv.seqs = u.kv.seqs := by
    unfold State.dropGrad
    dsimp only
    repeat' split
    all_goals rfl
  have hgrads (l : List ((Nat × Nat × Nat) × GradPage)) (u : State) :
      (l.foldl (fun (u : State) g => u.dropGrad g.1) u).kv.seqs = u.kv.seqs := State.foldl_keeps (·.kv.seqs) _ (fun u g => hgrad u g.1) l u
  unfold State.dropCtx
  dsimp only
  rw [State.setEng_kv, hgrads]
  exact State.foldl_keeps (·.kv.seqs) _ hfrag _ s

/-- The contexts of a list go, and beside them the KV store, the engines, registers and the host's side alone change. -/
theorem State.foldl_dropCtx (l : List (Nat × Ctx)) (s : State) : let t := l.foldl (fun (s : State) p => s.dropCtx p.1) s
    (∀ p ∈ t.cmds.ctxs, p ∈ s.cmds.ctxs ∧ ∀ x ∈ l, p.1 ≠ x.1) ∧ t.kv.seqs = s.kv.seqs ∧
      t = { s with rf := t.rf, host := t.host, cmds := { s.cmds with ctxs := t.cmds.ctxs }, kv := t.kv, eng := t.eng } := by
  induction l generalizing s with
  | nil => exact ⟨fun p h => ⟨h, fun x hx => nomatch hx⟩, rfl, rfl⟩
  | cons y l ih =>
    obtain ⟨hctx, hseqs, hk⟩ := ih (s.dropCtx y.1)
    rw [List.foldl_cons]
    dsimp only
    generalize List.foldl _ (s.dropCtx y.1) l = t at *
    refine ⟨fun p h => ?_, hseqs.trans (State.dropCtx_seqs ..), ?_⟩
    · obtain ⟨hold, hl⟩ := hctx p h
      rw [State.dropCtx_cmds] at hold
      obtain ⟨hold, hne⟩ := AL.mem_del hold
      exact ⟨hold, List.forall_mem_cons.mpr ⟨hne, hl⟩⟩
    · rw [hk, State.dropCtx_eq]

/-- What the block of a domain takes with it: the KV store and the domain's own entry. -/
theorem State.freeProj_outcome (s : State) (d h : Nat) : (s.freeProj d h).kv.seqs = s.kv.seqs ∧
    (s.freeProj d h).sec = { s.sec with projs := AL.del (d, h) s.sec.projs } ∧
    s.freeProj d h = { s with kv := (s.freeProj d h).kv, sec := (s.freeProj d h).sec } := by
  refine ⟨?_, ?_, State.eq_of_groups (by simp)⟩
  · unfold State.freeProj
    split
    · rfl
    next p _ =>
      exact State.foldl_keeps (·.kv.seqs) (fun (s : State) (c : Nat × Nat) => s.dropChunk c.1 c.2) (by intros; rfl) p.chunks s
  · unfold State.freeProj
    split
    next h0 =>
      have hdel : AL.del (d, h) s.sec.projs = s.sec.projs :=
        List.filter_eq_self.mpr fun p hp => decide_eq_true fun hk => AL.get_ne_none hp (hk ▸ h0)
      rw [hdel]
    next p _ =>
      have hsec : (p.chunks.foldl (fun (s : State) (c : Nat × Nat) => s.dropChunk c.1 c.2) s).sec = s.sec :=
        State.foldl_keeps State.sec _ (by intros; rfl) _ s
      change ({ (p.chunks.foldl (fun (s : State) (c : Nat × Nat) => s.dropChunk c.1 c.2) s).sec with projs := _ } : SecState) = _
      rw [hsec]

/-- The tables of SECC without the blocks. -/
def SecState.unblocked (r : SecState) : SecState := { r with projs := [] }

theorem State.foldl_freeProj (l : List ((Nat × Nat) × Proj)) (s : State) : let t := l.foldl (fun (s : State) p => s.freeProj d p.1.2) s
    t.kv.seqs = s.kv.seqs ∧ SecState.unblocked t.sec = SecState.unblocked s.sec ∧ t = { s with kv := t.kv, sec := t.sec } := by
  induction l generalizing s with
  | nil => exact ⟨rfl, rfl, rfl⟩
  | cons y l ih =>
    obtain ⟨hseqs, hsec, hk⟩ := ih (s.freeProj d y.1.2)
    obtain ⟨hseqs', hsec', hk'⟩ := s.freeProj_outcome d y.1.2
    rw [List.foldl_cons]
    dsimp only
    generalize List.foldl _ (s.freeProj d y.1.2) l = t at *
    refine ⟨hseqs.trans hseqs', hsec.trans ?_, ?_⟩
    · rw [hsec']
      rfl
    · rw [hk, hk']

end Sys2Proof.Machine
end

section
/-!
SUPPORT. Messages on domains and blocks (R384, R387, R393 to R395): the chunks that a record and a block take, the quotas that a domain is made
with, and the steps of its end.
-/

namespace Sys2Proof.Machine

variable {s t u : State}

/-! ### What a placement leaves -/

theorem State.allocMeta_eq {ch owner n h : Nat} (ha : s.allocMeta ch owner n = some (t, h)) :
    t = { s with rf := t.rf, host := t.host, kv := t.kv, integ := { s.integ with pend := t.integ.pend } } :=
  State.eq_of_outside (State.outside_of_recorded (State.allocMeta_keeps ha).1)

theorem State.blockChunks_recorded {d h n : Nat} {l r : List (Nat × Nat)} (hb : State.blockChunks d h n s l = some (t, r)) :
    t.recorded = s.recorded := by
  induction n generalizing s l with
  | zero =>
    rw [State.blockChunks] at hb
    cases hb
    rfl
  | succ n ih =>
    rw [State.blockChunks] at hb
    split at hb
    · cases hb
    · exact (ih hb).trans ((State.cleared_recorded ..).trans (State.putChunk_recorded ..))

theorem Mem.wf_foldl_writeN {α : Type} (f : α → Nat) (g : α → List Byte) (l : List α) {m : Mem} (h : m.wf = true) :
    (l.foldl (fun (m : Mem) x => m.writeN (f x) (g x)) m).wf = true := by
  induction l generalizing m with
  | nil => exact h
  | cons x l ih => exact ih (Mem.wf_writeN _ _ h)

/-! ### Quotas (Table 16-6) -/

theorem State.regI_setRegI (s : State) (pg off i : Nat) (w : Word) : (s.setRegI pg off i w).regI pg off i = w := AL.getD_put ..

theorem State.regI_setRegI_ne {p o i pg off j : Nat} (h : regKeyAt p o i ≠ regKeyAt pg off j) (s : State) (w : Word) :
    (s.setRegI pg off j w).regI p o i = s.regI p o i := AL.getD_put_ne h ..

theorem State.regI_setRegI_off {o off : Nat} (h : o ≠ off) (s : State) (pg p i j : Nat) (w : Word) :
    (s.setRegI pg off j w).regI p o i = s.regI p o i :=
  State.regI_setRegI_ne (fun hk => h (congrArg (·.1) ((regKeyAt_snd p o i).symm.trans ((congrArg Prod.snd hk).trans (regKeyAt_snd pg off j))))) ..

theorem State.setQuotas_regI (s : State) (d rq bq sq rg : Nat) :
    (s.setQuotas d rq bq sq rg).regI (pgBnch 0) 0x13C d = BitVec.ofNat 32 rq ∧
    (s.setQuotas d rq bq sq rg).regI (pgBnch 0) 0x134 d = BitVec.ofNat 32 bq ∧
    (s.setQuotas d rq bq sq rg).regI (pgStrt 0) 0x134 d = BitVec.ofNat 32 sq ∧
    (s.setQuotas d rq bq sq rg).regI pgXprt 0x18C d = BitVec.ofNat 32 rg := by
  have hbench : regKeyAt (pgBnch 0) 0x134 d ≠ regKeyAt (pgStrt 0) 0x134 d := by
    have hb : pageType (pgBnch 0) = some (.bnch, 0) := by decide
    have hs : pageType (pgStrt 0) = some (.strt, 0) := by decide
    simp [regKeyAt, hb, hs, show pgBnch 0 ≠ pgStrt 0 by decide]
  unfold State.setQuotas
  refine ⟨?_, ?_, ?_, State.regI_setRegI ..⟩
  · rw [State.regI_setRegI_off (by decide), State.regI_setRegI_off (by decide), State.regI_setRegI_off (by decide), State.regI_setRegI]
  · rw [State.regI_setRegI_off (by decide), State.regI_setRegI_ne hbench, State.regI_setRegI]
  · rw [State.regI_setRegI_off (by decide), State.regI_setRegI]

/-- An entry of the log touches no register beside the count of lost entries, the interrupt's and the counters of flits. -/
theorem State.audit_regAt {o : Nat} (h138 : o ≠ 0x138) (h20 : o ≠ 0x20) (h : o ≠ 0x128) (h4 : o ≠ 0x12C) (s : State) (typ : Nat)
    (domain : Option Nat) (agent arg q i : Nat) : (s.audit typ domain agent arg).regI q o i = s.regI q o i := by
  unfold State.audit
  dsimp only
  split
  · rw [State.setIrq_regAt h20 h h4, State.regI_bump_off h138]
    rfl
  · rfl

/-! ### A domain is made (R384) -/

/-- The state in which a new domain has its record, its quotas and its first chunk. -/
def State.withDomain (s : State) (d : DomainD) (x : Nat × Nat) : State :=
  let t := (s.charge d.domain 8).setQuotas d.domain d.rquota d.bquota d.squota d.regions
  t.setSec { t.sec with domains := AL.put d.domain ⟨.active, d.creds, d.projs, some x⟩ t.sec.domains }

theorem State.withDomain_outcome (s : State) (d : DomainD) (x : Nat × Nat) :
    (s.withDomain d x).sec.domains = AL.put d.domain ⟨.active, d.creds, d.projs, some x⟩ s.sec.domains ∧
    ((s.withDomain d x).regI (pgBnch 0) 0x13C d.domain = BitVec.ofNat 32 d.rquota ∧
      (s.withDomain d x).regI (pgBnch 0) 0x134 d.domain = BitVec.ofNat 32 d.bquota ∧
      (s.withDomain d x).regI (pgStrt 0) 0x134 d.domain = BitVec.ofNat 32 d.squota ∧
      (s.withDomain d x).regI pgXprt 0x18C d.domain = BitVec.ofNat 32 d.regions) ∧
    s.withDomain d x = { s with rf := (s.withDomain d x).rf, kv := (s.withDomain d x).kv, sec := (s.withDomain d x).sec } := by
  refine ⟨by simp [State.withDomain], ?_, State.eq_of_groups (by simp [State.withDomain])⟩
  have hrf : (s.withDomain d x).rf = ((s.charge d.domain 8).setQuotas d.domain d.rquota d.bquota d.squota d.regions).rf := by
    simp [State.withDomain]
  have hregs := (s.charge d.domain 8).setQuotas_regI d.domain d.rquota d.bquota d.squota d.regions
  generalize (s.charge d.domain 8).setQuotas d.domain d.rquota d.bquota d.squota d.regions = q at *
  simpa only [State.regI, hrf] using hregs

theorem State.domainCreate_makes {d : DomainD} {x : Nat × Nat} (m : MReq) (h0 : d.domain ≠ 0) (hd : d.domain ≤ 1023) (hp : d.projs ≤ 64)
    (hnew : AL.get d.domain s.sec.domains = none)
    (hplace : (s.walkChannels (d.domain * 97 % 384) none).findSome? (fun c => (s.allocMeta c d.domain 1).map (fun r => (r.1, c, r.2))) =
      some (u, x)) :
    s.domainCreate m d = done ((u.withDomain d x).audit 0x20 (some d.domain) (Link.num m.link) 1) ∧
      u = { s with rf := u.rf, host := u.host, kv := u.kv, integ := { s.integ with pend := u.integ.pend } } := by
  refine ⟨?_, ?_⟩
  · rw [State.domainCreate, if_neg (by omega), hnew, if_neg (by decide), hplace]
    rfl
  · obtain ⟨c, -, hc⟩ := List.exists_of_findSome?_eq_some hplace
    obtain ⟨⟨v, h⟩, ha, hv⟩ := Option.map_eq_some_iff.mp hc
    cases hv
    exact State.allocMeta_eq ha

/-! ### A block is put (R393 to R395) -/

/-- The state in which a block that binds has its chunks, its units and its data. -/
def State.withBlock (s : State) (d : ProjD) (l : List (Nat × Nat)) : State :=
  let mem := (l.zip (chunks 65536 d.plain)).foldl (fun (m : Mem) x => m.writeN (rackAddr x.1.1 (x.1.2 * 65536)) x.2) s.mem
  let s := ({ s with mem := mem } : State).charge d.domain (blockSize d * 256)
  let p : Proj := ⟨true, d.layers, d.heads, d.dn, d.latentWidth, l, blockSize d * 256, d.plain, false⟩
  s.setSec { s.sec with projs := AL.put (d.domain, d.handle) p s.sec.projs }

theorem State.withBlock_outcome (s : State) (d : ProjD) (l : List (Nat × Nat)) : (s.mem.wf = true → (s.withBlock d l).mem.wf = true) ∧
    AL.get (d.domain, d.handle) (s.withBlock d l).sec.projs =
      some ⟨true, d.layers, d.heads, d.dn, d.latentWidth, l, blockSize d * 256, d.plain, false⟩ ∧
    s.withBlock d l = { s with mem := (s.withBlock d l).mem, kv := (s.withBlock d l).kv, sec := (s.withBlock d l).sec } := by
  refine ⟨fun h => Mem.wf_foldl_writeN (fun (x : (Nat × Nat) × List Byte) => rackAddr x.1.1 (x.1.2 * 65536)) (·.2) _ h, AL.get_put .., ?_⟩
  unfold State.withBlock
  dsimp only
  generalize List.foldl _ s.mem _ = mem
  rfl

theorem State.projInstall_bound {d : ProjD} {l : List (Nat × Nat)} (h : s.BlockFits d) (hst : d.status = stOk)
    (hb : State.blockChunks d.domain d.handle (blockSize d) s [] = some (u, l)) (m : MReq) : s.projInstall m d =
      .answer ((u.withBlock d l).audit 0x22 (some d.domain) (Link.num m.link) (d.handle + 2 ^ 16)) stOk 0 (leBytes 2 d.handle) := by
  obtain ⟨hfree, hact, hroom, hquota⟩ := h
  have hnew : ¬ (d.status = stBadDescriptor ∨ (AL.get (d.domain, d.handle) s.sec.projs).isSome = true) := by
    rw [hst, hfree]
    decide
  rw [blockSize] at hb
  rw [State.projInstall, if_neg hnew, hact, if_neg (by decide), if_neg (not_or.mpr ⟨Nat.not_le.mpr hroom, Nat.not_lt.mpr hquota⟩),
    if_neg (by rw [hst]; decide), if_neg (by rw [hst]; decide), hb]
  rfl

/-! ### A domain ends (Table 16-5) -/

/-- The state in which a domain is being destroyed. -/
def State.destroying (s : State) (d : Nat) (r : DomainRec) : State :=
  s.setSec { s.sec with domains := AL.put d { r with st := .destroying } s.sec.domains }

/-- With no work, connection, region, peer or merge left, a domain's end begins with its state alone. -/
theorem State.destroyBegin_alone {d : Nat} {r : DomainRec} (hcmds : s.cmds.list = []) (hconns : s.net.conns = []) (hregions : s.net.regions = [])
    (hpeers : s.net.peers = []) (hmerge : s.eng.merge = []) : s.destroyBegin d r = s.destroying d r := by
  have hc : (s.destroying d r).cmds.list = [] := hcmds
  have hn : (s.destroying d r).net = s.net := rfl
  have he : (s.destroying d r).eng = s.eng := rfl
  unfold State.destroyBegin
  rw [show s.setSec { s.sec with domains := AL.put d { r with st := .destroying } s.sec.domains } = s.destroying d r from rfl]
  generalize s.destroying d r = u at *
  simp [State.abortNotices, State.abortMerge, hc, hn, he, hconns, hregions, hpeers, hmerge]

/-- The tables of SECC and of the KV store that a domain's end clears (steps 5 to 7). -/
def State.clearDomain (s : State) (d : Nat) : State :=
  let s := s.setSec { s.sec with
    creds := s.sec.creds.filter (fun (p : Nat × Cred) => p.2.domain != d)
    keySets := s.sec.keySets.filter (fun (p : Nat × KeySet) => p.2.domain != d) }
  let s := s.setKv { s.kv with
    lines := s.kv.lines.filter (fun (l : Line) => l.domain != d)
    shapes := s.kv.shapes.filter (fun (p : (Nat × Nat) × DWord) => p.1.1 != d)
    tables := s.kv.tables.filter (fun (p : (Nat × Nat × Nat) × (Nat × Nat)) => p.1.1 != d)
    ttlb := s.kv.ttlb.filter (fun (p : (Nat × Nat) × Pte) => p.1.1 != d)
    walkCache := s.kv.walkCache.filter (fun (p : Nat × Nat) => p.1 != d)
    chunks := s.kv.chunks.filter (fun (p : (Nat × Nat) × ChunkUse) => match p.2 with
      | .metadata o _ => o != d
      | .run o => o != d
      | _ => true)
    rused := AL.del d s.kv.rused }
  (s.setQuotas d 0 0 0 0).setSec { s.sec with domains := AL.del d s.sec.domains }

theorem State.clearDomain_outcome (s : State) (d : Nat) : (s.clearDomain d).sec.domains = AL.del d s.sec.domains ∧
    (s.clearDomain d).sec.creds = s.sec.creds.filter (fun p => p.2.domain != d) ∧
    (s.clearDomain d).sec.keySets = s.sec.keySets.filter (fun p => p.2.domain != d) ∧ (s.clearDomain d).kv.seqs = s.kv.seqs ∧
    (s.clearDomain d).kv.shapes = s.kv.shapes.filter (fun p => p.1.1 != d) ∧
    s.clearDomain d = { s with rf := (s.clearDomain d).rf, kv := (s.clearDomain d).kv, sec := (s.clearDomain d).sec } :=
  ⟨by simp [State.clearDomain], by simp [State.clearDomain], by simp [State.clearDomain], by simp [State.clearDomain],
    by simp [State.clearDomain], State.eq_of_groups (by simp [State.clearDomain])⟩

/-- The contexts of a domain go (step 5). -/
def State.dropCtxs (s : State) (d : Nat) : State :=
  (s.cmds.ctxs.filter (fun (p : Nat × Ctx) => p.2.domain == d)).foldl (fun (s : State) p => s.dropCtx p.1) s

/-- The blocks of a domain go (step 6). -/
def State.freeProjs (s : State) (d : Nat) : State :=
  (s.sec.projs.filter (fun (p : (Nat × Nat) × Proj) => p.1.1 == d)).foldl (fun (s : State) p => s.freeProj d p.1.2) s

theorem State.destroyEnd_eq (s : State) (d agent : Nat) :
    s.destroyEnd d agent = ((((s.dropCtxs d).freeProjs d).clearDomain d).audit 0x20 (some d) agent 0).setIrq pgSecc 1 := rfl

theorem State.dropCtxs_outcome (s : State) (d : Nat) : (∀ p ∈ (s.dropCtxs d).cmds.ctxs, p.2.domain ≠ d) ∧ (s.dropCtxs d).kv.seqs = s.kv.seqs ∧
    s.dropCtxs d = { s with rf := (s.dropCtxs d).rf, host := (s.dropCtxs d).host, cmds := { s.cmds with ctxs := (s.dropCtxs d).cmds.ctxs }
                            kv := (s.dropCtxs d).kv, eng := (s.dropCtxs d).eng } := by
  obtain ⟨hctxs, hseqs, hk⟩ := State.foldl_dropCtx (s.cmds.ctxs.filter (fun p => p.2.domain == d)) s
  refine ⟨fun p hp hd => ?_, hseqs, hk⟩
  obtain ⟨hold, hne⟩ := hctxs p hp
  exact hne p (List.mem_filter.mpr ⟨hold, beq_iff_eq.mpr hd⟩) rfl

/-- What a domain's end leaves: nothing of the domain in the tables of SECC, of the commands or of the KV store. -/
theorem State.destroyEnd_outcome (s : State) (d agent : Nat) (ht : s.destroyEnd d agent = t) :
    t.sec.domains = AL.del d s.sec.domains ∧ (∀ p ∈ t.sec.creds, p.2.domain ≠ d) ∧ (∀ p ∈ t.sec.keySets, p.2.domain ≠ d) ∧
      t.kv.seqs = s.kv.seqs ∧ (∀ p ∈ t.cmds.ctxs, p.2.domain ≠ d) ∧ (∀ p ∈ t.kv.shapes, p.1.1 ≠ d) ∧
      t = { s with rf := t.rf, host := t.host, cmds := { s.cmds with ctxs := t.cmds.ctxs }, kv := t.kv, eng := t.eng, sec := t.sec } := by
  obtain ⟨hctxs, hseqs, hk⟩ := s.dropCtxs_outcome d
  rw [State.destroyEnd_eq] at ht
  generalize s.dropCtxs d = u at *
  obtain ⟨hseqs', hsec, hk'⟩ : (u.freeProjs d).kv.seqs = u.kv.seqs ∧ SecState.unblocked (u.freeProjs d).sec = SecState.unblocked u.sec ∧
      u.freeProjs d = { u with kv := (u.freeProjs d).kv, sec := (u.freeProjs d).sec } := State.foldl_freeProj ..
  generalize u.freeProjs d = v at *
  obtain ⟨hdom, hcreds, hkeys, hwseqs, hshapes, hwv⟩ := v.clearDomain_outcome d
  generalize v.clearDomain d = w at *
  have haud := w.audit_unaudited 0x20 (some d) agent 0
  obtain ⟨-, hak⟩ := w.audit_outcome 0x20 (some d) agent 0
  generalize w.audit 0x20 (some d) agent 0 = x at *
  have hxk : t = { x with rf := t.rf, host := t.host } := ht ▸ State.eq_of_groups (by simp)
  clear ht
  have htsec : t.sec = x.sec := by rw [hxk]
  have hxw : t = { w with rf := t.rf, host := t.host, sec := t.sec } := by
    rw [htsec, hxk]
    conv_lhs => rw [hak]
  have hus : u.sec = s.sec := by rw [hk]
  have hkv : t.kv = w.kv := by rw [hxw]
  have hcmds : t.cmds = u.cmds := by
    rw [hxw]
    dsimp only
    rw [hwv]
    dsimp only
    rw [hk']
  have hxd : x.sec.domains = w.sec.domains := (congrArg SecState.domains haud :)
  have hxc : x.sec.creds = w.sec.creds := (congrArg SecState.creds haud :)
  have hxs : x.sec.keySets = w.sec.keySets := (congrArg SecState.keySets haud :)
  have hvd : v.sec.domains = u.sec.domains := (congrArg SecState.domains hsec :)
  refine ⟨?_, fun p hp => ?_, fun p hp => ?_, ?_, fun p hp => ?_, fun p hp => ?_, ?_⟩
  · rw [htsec, hxd, hdom, hvd, hus]
  · rw [htsec, hxc, hcreds] at hp
    exact bne_iff_ne.mp (List.mem_filter.mp hp).2
  · rw [htsec, hxs, hkeys] at hp
    exact bne_iff_ne.mp (List.mem_filter.mp hp).2
  · rw [hkv, hwseqs, hseqs', hseqs]
  · rw [hcmds] at hp
    exact hctxs p hp
  · rw [hkv, hshapes] at hp
    exact bne_iff_ne.mp (List.mem_filter.mp hp).2
  · have htv : t = { v with rf := t.rf, host := t.host, kv := t.kv, sec := t.sec } := by
      rw [hkv, hxw]
      conv_lhs => rw [hwv]
    have htu : t = { u with rf := t.rf, host := t.host, kv := t.kv, sec := t.sec } := by
      rw [htv]
      conv_lhs => rw [hk']
    have heng : t.eng = u.eng := by rw [htu]
    rw [heng, hcmds, htu]
    conv_lhs => rw [hk]

end Sys2Proof.Machine
end

section
/-!
SUPPORT. How the messages on domains, credentials, blocks, grants and keys run in the state that a core hears them in.
-/

namespace Sys2Proof.Machine

variable {s : State} {m : MReq}

theorem exec_inspectExpire (g : Nat) (s : State) : exec (.inspectExpire g) s = s.inAwake (·.inspectExpire g) := rfl

/-- A request whose run ends in `v`, an entry of the log later than a state that keeps the canonical form of memory. -/
theorem State.hears_audits {v : State} {x : Msg} {typ arg status : Nat} {domain : Option Nat} {body : List Byte} (h : s.hears m x = true)
    (hrun : (s.heard m).runMsg m x false 0 = .answer (v.audit typ domain (Link.num m.link) arg) status 0 body) (hwf : v.mem.wf = true)
    (hp : v.pending = s.pending) (hn : v.nrt = s.nrt) :
    ∃ t, s.did (s.message m x) = .next t ∧ SecState.unaudited t.sec = SecState.unaudited v.sec ∧
      (∀ q o i, o ≠ 0x138 → o ≠ 0x20 → o ≠ 0x128 → o ≠ 0x12C → t.regI q o i = v.regI q o i) ∧ t.answered m (msgType x) status 0 body ∧
      t = { v with mem := t.mem, rf := t.rf, host := t.host, sec := t.sec, fw := { v.fw with cores := t.fw.cores } } := by
  obtain ⟨hfw, hk⟩ := v.audit_outcome typ domain (Link.num m.link) arg
  have hsec := v.audit_unaudited typ domain (Link.num m.link) arg
  have hregs (q o i : Nat) (h138 : o ≠ 0x138) (h20 : o ≠ 0x20) (h128 : o ≠ 0x128) (h12c : o ≠ 0x12C) :
      (v.audit typ domain (Link.num m.link) arg).regI q o i = v.regI q o i := State.audit_regAt h138 h20 h128 h12c ..
  generalize v.audit typ domain (Link.num m.link) arg = a at *
  have hmem : a.mem = v.mem := by rw [hk]
  have hpend : a.pending = v.pending := by rw [hk]
  have hnrt : a.nrt = v.nrt := by rw [hk]
  obtain ⟨t, hexec, hans, -, hregs', ht⟩ := State.hears_answers h hrun (hmem ▸ hwf) (hpend.trans hp) (hnrt.trans hn)
  have hts : t.sec = a.sec := by rw [ht]
  refine ⟨t, hexec, by rw [hts, hsec], fun q o i h138 h20 h128 h12c => ?_, hans, ?_⟩
  · rw [hregs' q o i h20 h128 h12c, hregs q o i h138 h20 h128 h12c]
  · rw [hts, ht]
    conv_lhs => rw [hk]

theorem State.projUsed_heard (s : State) (m : MReq) (d h : Nat) : (s.heard m).projUsed d h = s.projUsed d h := by
  obtain ⟨-, -, -, hcmds, -⟩ := s.heard_parts m
  rw [State.projUsed, State.projUsed, hcmds]

theorem State.Unpinned.destroying {d : Nat} (h : s.Unpinned d) (r : DomainRec) : (s.destroying d r).Unpinned d := h.congr rfl

end Sys2Proof.Machine
end

section

open Sys2Proof Sys2Proof.Machine

/-- Settles O28, message by message: each runs in the state `heard`; the record that it puts or takes is read from the tables of SECC, which the
entry of the log leaves (`audit_unaudited`). -/
theorem securityRecordsComeAndGo : Obligations.SecurityRecordsComeAndGo := by
  unfold Obligations.SecurityRecordsComeAndGo
  refine ⟨?create, ?destroy, ?credAdd, ?credRemove, ?unbound, ?bound, ?projRemove, ?inspOpen, ?inspClose, ?expire, ?excerpt, ?program, ?revoke⟩
  case create =>
    intro s m d h h0 hd hp hnew hplace
    obtain ⟨hsec, -, -, -, -⟩ := s.heard_parts m
    obtain ⟨⟨u, x⟩, hplace⟩ := Option.isSome_iff_exists.mp hplace
    obtain ⟨hrun, hu⟩ := State.domainCreate_makes (s := s.heard m) m h0 hd hp (hsec ▸ hnew) hplace
    have hus : u = { s with
        fresh := u.fresh, mem := u.mem, rf := u.rf, host := u.host, kv := u.kv, fw := { s.fw with cores := u.fw.cores }
        integ := { s.integ with pend := u.integ.pend } } := by
      rw [hu, s.heard_eq m]
    have hum : u.mem = (s.heard m).mem := by rw [hu]
    have husec : u.sec = s.sec := by rw [hus]
    obtain ⟨hws, ⟨hr, hb, hs, hg⟩, hwk⟩ := u.withDomain_outcome d x
    generalize u.withDomain d x = w at *
    have hwm : w.mem = (s.heard m).mem := by rw [hwk, hum]
    obtain ⟨t, hexec, htsec, hregs, hans, ht⟩ := State.hears_audits h hrun (hwm ▸ State.heard_wf (State.hears_wf h) m) (by rw [hwk, hus])
      (by rw [hwk, hus])
    have hdoms : t.sec.domains = AL.put d.domain ⟨.active, d.creds, d.projs, some x⟩ s.sec.domains := by
      have hd' : t.sec.domains = w.sec.domains := (congrArg SecState.domains htsec :)
      rw [hd', hws, husec]
    have hget : AL.get d.domain t.sec.domains = some ⟨.active, d.creds, d.projs, some x⟩ := by rw [hdoms, AL.get_put]
    refine ⟨t, x, hexec, hget, State.domActive_of hget rfl, fun k hk => by rw [hdoms, AL.get_put_ne hk], ?_, ?_, ?_, ?_, hans, ?_⟩
    · exact (hregs _ _ _ (by decide) (by decide) (by decide) (by decide)).trans hr
    · exact (hregs _ _ _ (by decide) (by decide) (by decide) (by decide)).trans hb
    · exact (hregs _ _ _ (by decide) (by decide) (by decide) (by decide)).trans hs
    · exact (hregs _ _ _ (by decide) (by decide) (by decide) (by decide)).trans hg
    · rw [ht, hwk]
      dsimp only
      rw [hus]
  case destroy =>
    intro s m d r h hr hact h0 hcmds hconns hregions hpeers hmerge hpins
    have hheard := s.heard_eq m
    have hwf := State.heard_wf (State.hears_wf h) m
    have hunp : (s.heard m).Unpinned d := by
      rw [hheard]
      exact hpins
    generalize hu : s.heard m = u at *
    have hbegin : u.destroyBegin d r = u.destroying d r := State.destroyBegin_alone (by rw [hheard]; exact hcmds) (by rw [hheard]; exact hconns)
      (by rw [hheard]; exact hregions) (by rw [hheard]; exact hpeers) (by rw [hheard]; exact hmerge)
    obtain ⟨hk, hpin, hseqs⟩ := (u.destroying d r).destroyPages_outcome d (hunp.destroying r)
    have hrun : u.runMsg m (.domainDestroy d) false 0 = done (((u.destroying d r).destroyPages d).destroyEnd d (Link.num m.link)) := by
      have hget : AL.get d u.sec.domains = some r := by rw [hheard]; exact hr
      have hworks : (u.destroying d r).domWorks d = false := by
        rw [State.domWorks, show (u.destroying d r).cmds = u.cmds from rfl, hheard]
        dsimp only
        rw [hcmds]
        rfl
      change u.domainDestroy m d false = _
      rw [State.domainDestroy, hget]
      dsimp only
      rw [if_neg h0, if_neg (by rw [hact]; decide)]
      simp only [Bool.false_eq_true, if_false, hbegin, hworks, State.domPinned_of_unpinned hpin]
    have hp := State.eq_of_unpaged hk
    have hdoms : ((u.destroying d r).destroyPages d).sec.domains = AL.put d { r with st := .destroying } s.sec.domains := by
      rw [hp, hheard]
      rfl
    have hps : (u.destroying d r).destroyPages d = { s with
        fresh := u.fresh, mem := u.mem, rf := ((u.destroying d r).destroyPages d).rf, host := ((u.destroying d r).destroyPages d).host
        kv := ((u.destroying d r).destroyPages d).kv, sec := ((u.destroying d r).destroyPages d).sec, fw := { s.fw with cores := u.fw.cores } } := by
      rw [hp]
      dsimp only
      rw [hheard]
      rfl
    generalize (u.destroying d r).destroyPages d = v at *
    obtain ⟨hdel, hcreds, hkeys, hvseqs, hctxs, hshapes, hwk⟩ := State.destroyEnd_outcome v d (Link.num m.link) rfl
    generalize v.destroyEnd d (Link.num m.link) = w at *
    have hwm : w.mem = u.mem := by rw [hwk, hps]
    subst hu
    obtain ⟨t, hexec, hans, -, -, ht⟩ := State.hears_answers h hrun (hwm ▸ hwf) (by rw [hwk, hps]) (by rw [hwk, hps])
    have htsec : t.sec = w.sec := by rw [ht]
    have htkv : t.kv = w.kv := by rw [ht]
    have htcmds : t.cmds = w.cmds := by rw [ht]
    have htd : t.sec.domains = AL.del d (AL.put d { r with st := .destroying } s.sec.domains) := by rw [htsec, hdel, hdoms]
    refine ⟨t, hexec, by rw [htd, AL.get_del], fun k hk => by rw [htd, AL.get_del_ne hk, AL.get_put_ne hk], by rw [htsec]; exact hcreds,
      by rw [htsec]; exact hkeys, by rw [htkv, hvseqs]; exact hseqs, by rw [htcmds]; exact hctxs, by rw [htkv]; exact hshapes, hans, ?_⟩
    rw [ht, hwk]
    dsimp only
    rw [hps]
  case credAdd =>
    intro s m id d r data h hd hnew hr hact hroom hlen
    obtain ⟨hsec, -, -, -, -⟩ := s.heard_parts m
    have hrun : (s.heard m).runMsg m (.credAdd id d 2 0 data true) false 0 =
        done (((s.heard m).setSec { (s.heard m).sec with creds := AL.put id ⟨d, 2, data⟩ (s.heard m).sec.creds }).audit 0x21 (some d)
          (Link.num m.link) (id + 2 ^ 32)) := by
      have hactive : (s.heard m).domActive d = true := State.domActive_of (hsec ▸ hr) hact
      have hfield : ¬ (((2 : Nat) ≠ 1 ∧ (2 : Nat) ≠ 2) ∨ 1023 < d) := by omega
      have hfits : ¬ ((AL.get d (s.heard m).sec.domains).elim 0 (·.creds) ≤ (s.heard m).sec.creds.countP (fun p => p.2.domain == d) ∨
          65536 ≤ (s.heard m).sec.creds.length) := by
        rw [hsec, hr, Option.elim_some]
        omega
      change (s.heard m).credAdd m id d 2 0 data true = _
      rw [State.credAdd, if_neg hfield, hsec, hnew, if_neg (by decide), hactive, if_neg (by decide), ← hsec, if_neg hfits, if_neg (by decide)]
    obtain ⟨t, hexec, htsec, hans, hk⟩ := State.hears_audited h hrun
    have hcreds : t.sec.creds = AL.put id ⟨d, 2, data⟩ s.sec.creds := by
      rw [← hsec]
      exact (congrArg SecState.creds htsec :)
    exact ⟨t, hexec, by rw [hcreds, AL.get_put], fun k hk => by rw [hcreds, AL.get_put_ne hk], hans, hk⟩
  case credRemove =>
    intro s m id c h hc
    obtain ⟨hsec, -, -, -, -⟩ := s.heard_parts m
    have hrun : (s.heard m).runMsg m (.credRemove id false) false 0 =
        .answer (((s.heard m).setSec { (s.heard m).sec with creds := AL.del id (s.heard m).sec.creds }).audit 0x21 (some c.domain)
          (Link.num m.link) id) stOk 0 (leBytes 4 0) := by
      change (s.heard m).credRemove m id false = _
      rw [State.credRemove, hsec, hc]
      simp only [Bool.false_eq_true, if_false, List.foldl_nil, List.length_nil]
    obtain ⟨t, hexec, htsec, hans, hk⟩ := State.hears_audited h hrun
    have hcreds : t.sec.creds = AL.del id s.sec.creds := by
      rw [← hsec]
      exact (congrArg SecState.creds htsec :)
    exact ⟨t, hexec, by rw [hcreds, AL.get_del], fun k hk => by rw [hcreds, AL.get_del_ne hk], hans, hk⟩
  case unbound =>
    intro s m d r h hst hnew hr hact hroom hquota
    have hfits : s.BlockFits d := ⟨hnew, State.domActive_of hr hact, by rw [hr]; exact hroom, hquota⟩
    obtain ⟨t, hexec, htsec, hans, hk⟩ := State.hears_audited h (State.projInstall_unbound (hfits.heard m) hst m)
    have hprojs : t.sec.projs = AL.put (d.domain, d.handle) ⟨false, 0, 0, 0, 0, [], 0, [], false⟩ (s.heard m).sec.projs :=
      (congrArg SecState.projs htsec :)
    refine ⟨t, hexec, ?_, hans, hk⟩
    rw [hprojs, AL.get_put]
    rfl
  case bound =>
    intro s m d r h hst hnew hr hact hroom hquota hb
    have hfits : s.BlockFits d := ⟨hnew, State.domActive_of hr hact, by rw [hr]; exact hroom, hquota⟩
    obtain ⟨⟨u, l⟩, hb⟩ := Option.isSome_iff_exists.mp hb
    have hu := State.eq_of_outside (State.outside_of_recorded (State.blockChunks_recorded hb))
    have hum : u.mem = (s.heard m).mem := by rw [hu]
    have hup : u.pending = s.pending := by rw [hu, s.heard_eq m]
    have hun : u.nrt = s.nrt := by rw [hu, s.heard_eq m]
    obtain ⟨hwf, hget, hw⟩ := u.withBlock_outcome d l
    have hrun := State.projInstall_bound (hfits.heard m) hst hb m
    generalize u.withBlock d l = w at *
    obtain ⟨t, hexec, htsec, -, hans, ht⟩ := State.hears_audits h hrun (hwf (hum ▸ State.heard_wf (State.hears_wf h) m))
      (by rw [hw]; exact hup) (by rw [hw]; exact hun)
    have hprojs : t.sec.projs = w.sec.projs := (congrArg SecState.projs htsec :)
    refine ⟨t, hexec, ?_, hans, ?_⟩
    · rw [hprojs, hget, Option.any_some, Bool.and_eq_true, Bool.and_eq_true]
      exact ⟨⟨rfl, beq_self_eq_true _⟩, beq_self_eq_true _⟩
    · rw [ht, hw]
      dsimp only
      rw [hu, s.heard_eq m]
  case projRemove =>
    intro s m d i p h hp hrem hused
    obtain ⟨hsec, -, -, -, -⟩ := s.heard_parts m
    have hrun : (s.heard m).runMsg m (.projRemove d i) false 0 =
        done (((s.heard m).freeProj d i).audit 0x22 (some d) (Link.num m.link) i) := by
      change (s.heard m).projRemove m d i false = _
      rw [State.projRemove, hsec, hp]
      dsimp only
      rw [if_neg (by simp [hrem]), State.projUsed_heard, hused, Bool.and_false, if_neg (by decide)]
    obtain ⟨-, hfsec, hf⟩ := (s.heard m).freeProj_outcome d i
    generalize (s.heard m).freeProj d i = w at *
    have hwm : w.mem = (s.heard m).mem := by rw [hf]
    obtain ⟨t, hexec, htsec, -, hans, ht⟩ := State.hears_audits h hrun (hwm ▸ State.heard_wf (State.hears_wf h) m)
      (by rw [hf, s.heard_eq m]) (by rw [hf, s.heard_eq m])
    have hprojs : t.sec.projs = AL.del (d, i) s.sec.projs := by
      have hp' : t.sec.projs = w.sec.projs := (congrArg SecState.projs htsec :)
      rw [hp', hfsec, hsec]
    refine ⟨t, hexec, by rw [hprojs, AL.get_del], fun k hk => by rw [hprojs, AL.get_del_ne hk], hans, ?_⟩
    rw [ht, hf]
    dsimp only
    rw [s.heard_eq m]
  case inspOpen =>
    intro s m d g h hd hact hg
    obtain ⟨hsec, -, -, -, hnrt⟩ := s.heard_parts m
    generalize hr : ({ s.sec with grants := AL.put g ⟨d, s.nrt, 0, []⟩ s.sec.grants, debug := s.sec.debug ||| 2 } : SecState) = r
    generalize hv : (((s.heard m).setSec r).audit 0x10 (some d) (Link.num m.link) (g + 4)).setIrq pgSecc 4 = v
    have hrun : (s.heard m).runMsg m (.inspectOpen d) false 0 = .answer v stOk 0 (leBytes 1 g) := by
      have hactive : (s.heard m).domActive d = true := by
        rw [State.domActive, hsec]
        exact hact
      change (s.heard m).inspectOpen m d = _
      rw [State.inspectOpen, if_neg (by omega), hactive, if_neg (by decide), hsec, hg]
      dsimp only
      rw [hnrt, hr, hv]
    have hvk : v = { s.heard m with rf := v.rf, host := v.host, sec := v.sec } := hv ▸ State.eq_of_groups (by simp)
    have hvs : SecState.unaudited v.sec = SecState.unaudited r := by
      rw [← hv, State.setIrq_sec]
      exact State.audit_unaudited ..
    obtain ⟨t, hexec, htsec, hans, hk⟩ := State.hears_records h hrun hvk
    have hgrants : v.sec.grants = r.grants := (congrArg SecState.grants hvs :)
    have hdebug : v.sec.debug = r.debug := (congrArg SecState.debug hvs :)
    refine ⟨t, hexec, ?_, ?_, hans, hk⟩
    · rw [htsec, hgrants, ← hr, AL.get_put]
    · rw [htsec, hdebug, ← hr]
  case inspClose =>
    intro s m g x h hx
    obtain ⟨hsec, -, -, -, -⟩ := s.heard_parts m
    have hrun : (s.heard m).runMsg m (.inspectClose g) false 0 =
        .answer ((s.heard m).closeGrant g (Link.num m.link)) stOk 0 (leBytes 8 x.read) := by
      change (s.heard m).inspectClose m g = _
      rw [State.inspectClose, hsec, hx]
    obtain ⟨t, hexec, htsec, hans, hk⟩ := State.hears_records h hrun (State.eq_of_groups (by simp))
    refine ⟨t, hexec, ?_, hans, hk⟩
    rw [htsec, State.closeGrant_grants, AL.get_del]
  case expire =>
    intro s g x hup hx hlate
    have hgo : s.inspectExpire g = s.closeGrant g 2 := by
      rw [State.inspectExpire, hx]
      have hdue : x.openedAt + msTicks (1000 * s.inspMax) ≤ s.nrt := by
        rw [msTicks]
        omega
      exact if_pos hdue
    have hgrants := s.closeGrant_grants g 2
    have hk : s.closeGrant g 2 = { s with rf := (s.closeGrant g 2).rf, host := (s.closeGrant g 2).host, sec := (s.closeGrant g 2).sec } :=
      State.eq_of_groups (by simp)
    generalize s.closeGrant g 2 = t at *
    rw [exec_inspectExpire, State.inAwake_keeps hup hgo (by rw [hk]) (by rw [hk])]
    exact ⟨t, rfl, by rw [hgrants, AL.get_del], fun k hk => by rw [hgrants, AL.get_del_ne hk], hk⟩
  case excerpt =>
    intro s m d n first nonce l h h1 hn hd hl
    obtain ⟨hsec, -, -, -, -⟩ := s.heard_parts m
    refine State.hears_report h ?_
    change (s.heard m).auditExcerpt d n first nonce = _
    rw [State.auditExcerpt, if_neg (by omega), hsec, ← hl, s.heard_reportBytes]
  case program =>
    intro s m slot key h h1 h3 hnew
    obtain ⟨hsec, -, -, -, -⟩ := s.heard_parts m
    have hrun : (s.heard m).runMsg m (.opkProgram slot key) false 0 =
        done (((s.heard m).setSec { s.sec with opk := AL.put slot (Config.sha384 key, false) s.sec.opk }).audit 3 none (Link.num m.link) slot) := by
      change (s.heard m).opkProgram m slot key = _
      rw [State.opkProgram, if_neg (by omega), hsec, AL.has, hnew, if_neg (by decide)]
    obtain ⟨t, hexec, htsec, hans, hk⟩ := State.hears_audited h hrun
    have hopk : t.sec.opk = AL.put slot (Config.sha384 key, false) s.sec.opk := (congrArg SecState.opk htsec :)
    exact ⟨t, hexec, by rw [hopk, AL.get_put], fun k hk => by rw [hopk, AL.get_put_ne hk], hans, hk⟩
  case revoke =>
    intro s m slot k key key' h hkey hne hother
    obtain ⟨hsec, -, -, -, -⟩ := s.heard_parts m
    have hrun : (s.heard m).runMsg m (.opkRevoke slot) false 0 =
        done (((s.heard m).setSec { s.sec with opk := AL.put slot (key, true) s.sec.opk }).audit 3 none (Link.num m.link) (slot + 4)) := by
      have hany : s.sec.opk.any (fun (p : Nat × (BitVec 384 × Bool)) => p.1 != slot && !p.2.2) = true :=
        List.any_eq_true.mpr ⟨_, hother, by simp [hne]⟩
      change (s.heard m).opkRevoke m slot = _
      rw [State.opkRevoke, hsec, hkey]
      exact if_pos hany
    obtain ⟨t, hexec, htsec, hans, hk⟩ := State.hears_audited h hrun
    have hopk : t.sec.opk = AL.put slot (key, true) s.sec.opk := (congrArg SecState.opk htsec :)
    exact ⟨t, hexec, by rw [hopk, AL.get_put], hans, hk⟩

end

section
/-!
SUPPORT. The bytes of a region (R338, R345): a range of it lies in spans that do not meet, what is written to them is read back, and no other
byte changes.
-/

namespace Sys2Proof.Machine

variable {s : State} {g : Region} {o n : Nat}

/-! ### A list of spans -/

/-- Two spans that do not meet. -/
def apart (p q : Nat × Nat) : Prop := p.1 + p.2 ≤ q.1 ∨ q.1 + q.2 ≤ p.1

/-- Memory after data has been laid in a list of spans. -/
def Mem.lay (l : List (Nat × Nat)) (x : Mem × List Byte) : Mem :=
  (l.foldl (fun (acc : Mem × List Byte) p => (acc.1.writeN p.1 (acc.2.take p.2), acc.2.drop p.2)) x).1

theorem Mem.lay_cons (p : Nat × Nat) (l : List (Nat × Nat)) (m : Mem) (d : List Byte) :
    Mem.lay (p :: l) (m, d) = Mem.lay l (m.writeN p.1 (d.take p.2), d.drop p.2) := rfl

theorem Mem.lay_out {l : List (Nat × Nat)} {a : Nat} (h : ∀ p ∈ l, a < p.1 ∨ p.1 + p.2 ≤ a) {m : Mem} (hwf : m.wf = true) (d : List Byte) :
    (Mem.lay l (m, d)).read a = m.read a := by
  induction l generalizing m d with
  | nil => rfl
  | cons p l ih =>
    obtain ⟨hp, hl⟩ := List.forall_mem_cons.mp h
    have hlen := List.length_take_le p.2 d
    rw [Mem.lay_cons, ih hl (Mem.wf_writeN _ _ hwf), Mem.read_writeN_out _ (by omega) hwf]

/-- Data that fills spans that do not meet is read back from them. -/
theorem Mem.lay_in {l : List (Nat × Nat)} (hl : l.Pairwise apart) {m : Mem} (hwf : m.wf = true) {d : List Byte}
    (hd : d.length = (l.map (·.2)).sum) : l.flatMap (fun p => (Mem.lay l (m, d)).readN p.1 p.2) = d := by
  induction l generalizing m d with
  | nil => exact (List.eq_nil_of_length_eq_zero hd).symm
  | cons p l ih =>
    obtain ⟨hp, hl⟩ := List.pairwise_cons.mp hl
    rw [List.map_cons, List.sum_cons] at hd
    have htake : (d.take p.2).length = p.2 := List.length_take_of_le (by omega)
    have hwf' := Mem.wf_writeN p.1 (d.take p.2) hwf
    have hown : (Mem.lay l (m.writeN p.1 (d.take p.2), d.drop p.2)).readN p.1 p.2 = d.take p.2 := by
      have hlast := Mem.readN_writeN p.1 (d.take p.2) hwf
      rw [htake] at hlast
      refine (Mem.readN_congr fun i hi => Mem.lay_out (fun q hq => ?_) hwf' _).trans hlast
      have hq := hp q hq
      rw [apart] at hq
      omega
    rw [List.flatMap_cons, Mem.lay_cons, hown, ih hl hwf' (by rw [List.length_drop]; omega), List.take_append_drop]

/-! ### The spans of a region -/

/-- The part of a region's range that lies in its chunk `c`: from `lo` to `hi`. -/
def chunkLo (o c : Nat) : Nat := max o (c * 65536)
def chunkHi (o n c : Nat) : Nat := min (o + n) ((c + 1) * 65536)

theorem regionSpans_rack (hk : g.kind ≠ 0) (hn : n ≠ 0) : regionSpans g o n =
    (List.range ((o + n - 1) / 65536 + 1 - o / 65536)).map (fun i =>
      (regionAddr g (chunkLo o (o / 65536 + i)), chunkHi o n (o / 65536 + i) - chunkLo o (o / 65536 + i))) := by
  rw [regionSpans, if_neg hn, if_neg hk]
  rfl

theorem regionSpans_area (hk : g.kind = 0) (hn : n ≠ 0) : regionSpans g o n = [(regionAddr g o, n)] := by
  rw [regionSpans, if_neg hn, if_pos hk]

theorem sum_chunks (o n k : Nat) (hk : k ≤ (o + n - 1) / 65536 + 1 - o / 65536) :
    ((List.range k).map (fun i => chunkHi o n (o / 65536 + i) - chunkLo o (o / 65536 + i))).sum =
      min (o + n) ((o / 65536 + k) * 65536) - o := by
  induction k with
  | zero =>
    rw [List.range_zero, List.map_nil, List.sum_nil]
    omega
  | succ k ih =>
    rw [List.range_succ, List.map_append, List.sum_append, ih (by omega), List.map_singleton, List.sum_singleton, chunkHi, chunkLo]
    omega

theorem regionSpans_sum (g : Region) (o n : Nat) : ((regionSpans g o n).map (·.2)).sum = n := by
  by_cases hn : n = 0
  · rw [regionSpans, if_pos hn, hn]
    rfl
  · by_cases hk : g.kind = 0
    · rw [regionSpans_area hk hn]
      exact Nat.add_zero n
    · rw [regionSpans_rack hk hn, List.map_map]
      refine (sum_chunks o n _ le_rfl).trans ?_
      omega

theorem apart_rackAddr {a b : Nat × Nat} (hab : a ≠ b) (ha : a.2 < 32768) (hb : b.2 < 32768) {x y i j : Nat} (hx : x + i ≤ 65536)
    (hy : y + j ≤ 65536) : apart (rackAddr a.1 (a.2 * 65536 + x), i) (rackAddr b.1 (b.2 * 65536 + y), j) := by
  have hne : a.1 ≠ b.1 ∨ a.2 ≠ b.2 := by
    by_contra hall
    rw [not_or, not_not, not_not] at hall
    exact hab (Prod.ext hall.1 hall.2)
  simp only [apart, rackAddr]
  omega

/-- The spans of a range within the region's chunks do not meet. -/
theorem regionSpans_apart (hnodup : g.chunks.Nodup) (hch : ∀ p ∈ g.chunks, p.2 < 32768)
    (hlen : g.kind ≠ 0 → o + n ≤ g.chunks.length * 65536) : (regionSpans g o n).Pairwise apart := by
  by_cases hn : n = 0
  · rw [regionSpans, if_pos hn]
    exact .nil
  · by_cases hk : g.kind = 0
    · rw [regionSpans_area hk hn]
      exact List.pairwise_singleton ..
    · have hlen := hlen hk
      rw [regionSpans_rack hk hn, List.pairwise_map]
      refine (List.nodup_range (n := (o + n - 1) / 65536 + 1 - o / 65536)).imp_of_mem fun {i j} hi hj hij => ?_
      rw [List.mem_range] at hi hj
      have haddr (c : Nat) (hc : c < g.chunks.length) (hlo : chunkLo o c / 65536 = c) :
          regionAddr g (chunkLo o c) = rackAddr g.chunks[c].1 (g.chunks[c].2 * 65536 + chunkLo o c % 65536) := by
        rw [regionAddr, if_neg hk, hlo, List.getElem?_eq_getElem hc]
      have hin (k : Nat) (hi : k < (o + n - 1) / 65536 + 1 - o / 65536) : o / 65536 + k < g.chunks.length := by omega
      have hlo (k : Nat) : chunkLo o (o / 65536 + k) / 65536 = o / 65536 + k := by
        rw [chunkLo]
        omega
      have hfit (c : Nat) : chunkLo o c % 65536 + (chunkHi o n c - chunkLo o c) ≤ 65536 ∨ chunkLo o c / 65536 ≠ c := by
        rw [chunkLo, chunkHi]
        omega
      rw [haddr _ (hin i hi) (hlo i), haddr _ (hin j hj) (hlo j)]
      refine apart_rackAddr (fun he => hij ?_) (hch _ (List.getElem_mem _)) (hch _ (List.getElem_mem _))
        ((hfit _).resolve_right (not_not_intro (hlo i))) ((hfit _).resolve_right (not_not_intro (hlo j)))
      have := (hnodup.getElem_inj_iff).mp he
      omega

/-- The word at an offset of 8 bytes lies in one span. -/
theorem regionSpans_word (h8 : o % 8 = 0) : ∃ a, regionSpans g o 8 = [(a, 8)] := by
  by_cases hk : g.kind = 0
  · exact ⟨_, regionSpans_area hk (by decide)⟩
  · have hone : (o + 8 - 1) / 65536 + 1 - o / 65536 = 1 := by omega
    have hsize : chunkHi o 8 (o / 65536) - chunkLo o (o / 65536) = 8 := by
      rw [chunkHi, chunkLo]
      omega
    refine ⟨regionAddr g (chunkLo o (o / 65536)), ?_⟩
    rw [regionSpans_rack hk (by decide), hone, List.range_one, List.map_singleton, Nat.add_zero, hsize]

/-! ### A write to a region -/

theorem State.unread_of_recorded {t : State} (h : t.recorded = s.recorded) : t.unread = s.unread := (congrArg State.unread h :)

theorem State.countRead_unread (s : State) (a : Nat) (w : ReadOutcome) : (s.countRead a w).1.unread = s.unread := by
  have hue (u : State) (c b : Nat) : (u.countUe c b).unread = u.unread :=
    State.unread_congr (by simp) (by simp) (by simp) (by simp) (by simp) (by simp) (by simp) (by simp) (by simp) (by simp) (by simp) (by simp)
  unfold State.countRead
  split
  · rfl
  · exact State.corrected_unread ..
  · dsimp only
    split <;> rfl
  · dsimp only
    split
    · rfl
    · exact (hue ..).trans rfl

theorem State.flushEntry_unread (s : State) (a : Nat) (ue : Bool) : (s.flushEntry a ue).unread = s.unread := by
  have henc (u : State) (a : Nat) (host poison : Bool) : (u.encode a host poison).unread = u.unread :=
    State.unread_of_recorded (State.encode_recorded ..)
  have hpoison (u : State) (f : Nat) : (u.poisonFrame f).unread = u.unread := State.unread_of_recorded (State.poisonFrame_recorded ..)
  have hlog (u : State) (pg code unit detail : Nat) : (u.logErr pg code unit detail).unread = u.unread :=
    State.unread_of_recorded (State.logErr_recorded ..)
  unfold State.flushEntry
  split
  · rfl
  next e _ =>
    have hread := s.countRead_unread a (if ue = true then .uncorrectable else s.wordOutcome a)
    generalize s.countRead a (if ue = true then .uncorrectable else s.wordOutcome a) = r at hread
    dsimp only
    split
    · rw [← hread]
      split <;> split <;> simp only [henc, hpoison, hlog]
    · exact (henc ..).trans hread

@[simp] theorem State.noteWrite_unread (s : State) (a n writer : Nat) : (s.noteWrite a n writer).unread = s.unread := by
  have henc (u : State) (a : Nat) (host : Bool) : (u.encoded a host).unread = u.unread := State.unread_of_recorded (State.encode_recorded ..)
  have hnarrow (u : State) (a n : Nat) : (u.narrowWrite a n writer).unread = u.unread := by
    unfold State.narrowWrite
    dsimp only
    split
    · split
      · exact henc ..
      · rfl
    · generalize (if isBench a = true then 32 else 64) = room
      generalize u.integ.pend.filter (fun e => sameBuffer e.addr a) = mine
      by_cases hfull : room ≤ mine.length
      · rw [if_pos hfull]
        cases mine with
        | nil => rfl
        | cons e _ => exact State.flushEntry_unread u e.addr false
      · rw [if_neg hfull]
        rfl
  unfold State.noteWrite
  split
  · rfl
  · refine State.foldl_keeps State.unread _ (fun u i => ?_) _ s
    dsimp only
    split
    · exact henc ..
    · exact hnarrow ..

/-- A state without what a read may change, and without its memory. -/
def State.unwritten (s : State) : State := { s.unread with mem := [] }

theorem State.eq_of_unwritten {t : State} (h : t.unwritten = s.unwritten) : t = { s with
    fresh := t.fresh, mem := t.mem, rf := t.rf, host := t.host, kv := t.kv, fw := { s.fw with laneLog := t.fw.laneLog }, integ := t.integ } := by
  have hk : ({ t with mem := s.mem } : State).unread = s.unread := (congrArg (fun u : State => { u with mem := s.mem }) h :)
  have ht := State.eq_of_unread hk
  exact (congrArg (fun u : State => { u with mem := t.mem }) ht :)

/-- A write to a region lays its data in the region's spans. -/
theorem State.regionWrite_outcome (s : State) (g : Region) (o : Nat) (d : List Byte) :
    (s.regionWrite g o d).mem = Mem.lay (regionSpans g o d.length) (s.mem, d) ∧ (s.regionWrite g o d).unwritten = s.unwritten := by
  have hput (u : State) (a : Nat) (b : List Byte) : (u.putBytes a b 1).unwritten = u.unwritten :=
    congrArg (fun v : State => { v with mem := [] }) (State.noteWrite_unread ({ u with mem := u.mem.writeN a b } : State) a b.length 1)
  unfold State.regionWrite
  generalize regionSpans g o d.length = l
  induction l generalizing s d with
  | nil => exact ⟨rfl, rfl⟩
  | cons p l ih =>
    obtain ⟨hm, hk⟩ := ih (s.putBytes p.1 (d.take p.2) 1) (d.drop p.2)
    rw [List.foldl_cons, Mem.lay_cons, hm, hk, State.putBytes_mem]
    exact ⟨rfl, hput ..⟩

end Sys2Proof.Machine
end

section
/-!
SUPPORT. Remote operations of a peer (R343 to R349): how an admitted one is served, what a refusal counts and tells, and when a notice is
written.
-/

namespace Sys2Proof.Machine

variable {s e t : State} {q : Req} {op : Op} {d : RmaD} {cn m i : Nat} {g : Region}

theorem exec_rmaReadServe (q : Req) (d : RmaD) (ue : Bool) (s : State) :
    exec (.rmaReadServe q d ue) s = s.inService (·.served q (.rmaRead d) ue) := rfl
theorem exec_rmaWriteServe (q : Req) (d : RmaD) (s : State) : exec (.rmaWriteServe q d) s = s.inService (·.served q (.rmaWrite d) false) := rfl
theorem exec_rmaAddServe (q : Req) (d : RmaD) (ue : Bool) (s : State) : exec (.rmaAddServe q d ue) s = s.inService (·.served q (.rmaAdd d) ue) := rfl
theorem exec_rmaCasServe (q : Req) (d : RmaD) (ue : Bool) (s : State) : exec (.rmaCasServe q d ue) s = s.inService (·.served q (.rmaCas d) ue) := rfl
theorem exec_rmaFlushServe (q : Req) (d : RmaD) (s : State) : exec (.rmaFlushServe q d) s = s.inService (·.served q (.rmaFlush d) false) := rfl
theorem exec_targetNoticeIntervalEnd (h st : Nat) (s : State) : exec (.targetNoticeIntervalEnd h st) s = s.inService (·.noticeEnd h st) := rfl

/-! ### An admitted operation of a peer runs at once -/

theorem opUnits_rma (hop : rmaOf op = some d) : opUnits op.code = 1 := by
  obtain rfl | rfl | rfl | rfl | rfl := op_of_rmaOf hop <;> rfl

theorem State.served_runs (h : s.admits q op = true) (hop : rmaOf op = some d) (ue : Bool) :
    s.served q op ue = (s.admitted q op).run (s.newCmd q op false) none ue := by
  obtain ⟨-, hadm, hturn, hlc, -⟩ := State.admits_elim h
  rw [State.served, State.submit, hadm]
  dsimp only
  rw [Option.getD_some, State.enter_run hlc hturn, State.admitted, opUnits_rma hop]

theorem State.runOp_served (hop : rmaOf op = some d) (hsrc : q.src = .conn cn m) (ue : Bool) :
    e.runOp (s.newCmd q op false) none ue = e.serve q.hdr cn op d q.data ue := by
  have hs (op : Op) : (s.newCmd q op false).src = .conn cn m := hsrc
  obtain rfl | rfl | rfl | rfl | rfl := op_of_rmaOf hop
  all_goals
    unfold State.runOp
    rw [State.closedUnit_none rfl]
    simp only [hs]
    rfl

/-- A served operation ends in the step of its admission, in the state that its service leaves. -/
theorem State.served_ends {ue : Bool} {r : Result} (h : s.admits q op = true) (hop : rmaOf op = some d) (hsrc : q.src = .conn cn m)
    (hserve : (s.admitted q op).serve q.hdr cn op d q.data ue = .done t r)
    (hcmd : t.cmd (s.newCmd q op false).id = some (s.newCmd q op false)) (hp : t.pending = (s.admitted q op).pending)
    (hn : t.nrt = (s.admitted q op).nrt) (hck : t.ckpt = (s.admitted q op).ckpt) :
    s.inService (·.served q op ue) = .next (t.finish (s.newCmd q op false) r) := by
  rw [State.admitted_pending] at hp
  rw [State.admitted_nrt] at hn
  rw [State.admitted_ckpt] at hck
  refine State.inService_keeps (State.admits_elim h).1 ?_ (by simp [hp]) (by simp [hn])
  rw [State.served_runs h hop, State.run, State.runOp_served hop hsrc, hserve, State.applyRes_done h hcmd hck]

/-- The same, where the service changed no command. -/
theorem State.served_ends_desk {ue : Bool} {r : Result} (h : s.admits q op = true) (hop : rmaOf op = some d) (hsrc : q.src = .conn cn m)
    (hserve : (s.admitted q op).serve q.hdr cn op d q.data ue = .done t r) (hd : t.desk = (s.admitted q op).desk)
    (hck : t.ckpt = (s.admitted q op).ckpt) : s.inService (·.served q op ue) = .next (t.finish (s.newCmd q op false) r) := by
  refine State.served_ends h hop hsrc hserve ?_ (State.pending_of_desk hd) (State.nrt_of_desk hd) hck
  rw [State.cmd, State.cmds_of_desk hd]
  exact State.admitted_cmd s q op

/-! ### Watches -/

/-- A command that watches no word is as it was after watches have been looked at. -/
theorem State.evalWatches_cmd {id : Nat} {c : Cmd} (hc : s.cmd id = some c) (hop : ∀ d, c.op ≠ .waitWord d) (i : Nat) (g : Region) (o n : Nat) :
    (s.evalWatches i g o n).cmd id = some c := by
  unfold State.evalWatches State.cmd at *
  dsimp only
  generalize hf : (fun (c : Cmd) => match c.op, c.wait with
    | .waitWord d, .word till none =>
      if d.handle = g.gen * 65536 + i ∧ o < d.offset + 8 ∧ d.offset < o + n ∧ wordMeets d (s.regionWord g d.offset) then
        { c with wait := .word till (some (s.regionWord g d.offset)) }
      else c
    | _, _ => c) = f
  have hid (x : Cmd) : (f x).id = x.id := by
    rw [← hf]
    dsimp only
    split
    · split <;> rfl
    · rfl
  have hsame : f c = c := by
    rw [← hf]
    dsimp only
    split
    next d _ h _ => exact absurd h (hop d)
    · rfl
  have hmap : ((s.cmds.list.map f).find? fun x => x.id == id) = (s.cmds.list.find? fun x => x.id == id).map f := by
    rw [List.find?_map]
    congr 2
    funext x
    rw [Function.comp_apply, hid]
  refine (hmap.trans ?_)
  rw [hc, Option.map_some, hsame]

/-! ### The service of an operation (Table 14-5) -/

theorem State.targetCheck_fits {dom right h o n : Nat} {k : Option Nat} (hchk : e.targetCheck dom k right h o n = stOk)
    (hg : e.byHandle h = some (i, g)) : o + n ≤ g.length := by
  rw [State.targetCheck, hg] at hchk
  dsimp only at hchk
  have haccess : stAccess ≠ stOk := by decide
  by_contra hlong
  rw [if_pos (Nat.not_le.mp hlong)] at hchk
  split_ifs at hchk
  · exact absurd hchk (by decide)
  all_goals exact absurd hchk haccess

/-- The fields of an ADD and of a CAS (Table 14-4): a word at an offset of 8 bytes. -/
theorem rmaFieldsOk_word (hop : op = .rmaAdd d ∨ op = .rmaCas d) (h : rmaFieldsOk op d = true) :
    d.length = 8 ∧ d.offset % 8 = 0 ∧ d.localAddr = 0 := by
  rcases hop with rfl | rfl <;> simp only [rmaFieldsOk, Bool.and_eq_true, beq_iff_eq] at h
  · exact ⟨h.1.1.1, h.1.1.2, h.1.2⟩
  · exact ⟨h.1.1, h.1.2, h.2⟩

section Serve
variable {h : Hdr} {data : List Byte} {ue : Bool} (hconn : d.conn = 0xFFFFFF)
include hconn

theorem State.serve_flush (hok : rmaFieldsOk (.rmaFlush d) d = true) : e.serve h cn (.rmaFlush d) d data ue = .done e { status := stOk } := by
  have hlocal : d.localAddr = 0 := by
    simp only [rmaFieldsOk, Bool.and_eq_true, beq_iff_eq] at hok
    obtain ⟨⟨⟨⟨⟨-, -⟩, hl⟩, -⟩, -⟩, -⟩ := hok
    exact hl
  unfold State.serve
  rw [if_neg (by simp [hok, hconn, hlocal])]

variable (hlocal : d.localAddr = 0)
include hlocal

theorem State.serve_writeRefused {st : Nat} (hok : rmaFieldsOk (.rmaWrite d) d = true)
    (hchk : e.targetCheck h.domain (some ((e.conn cn).elim cn connId)) 1 d.handle d.offset d.length = st) (hst : st ≠ stOk) :
    e.serve h cn (.rmaWrite d) d data ue =
      .done (e.targetRefused (Op.rmaWrite d).code ((e.conn cn).elim cn connId) d.handle st) { status := st } := by
  unfold State.serve
  rw [if_neg (by simp [hok, hconn, hlocal])]
  dsimp only
  rw [hchk, if_pos hst]

theorem State.serve_write (hok : rmaFieldsOk (.rmaWrite d) d = true)
    (hchk : e.targetCheck h.domain (some ((e.conn cn).elim cn connId)) 1 d.handle d.offset d.length = stOk)
    (hg : e.byHandle d.handle = some (i, g)) (hlen : data.length = d.length) : e.serve h cn (.rmaWrite d) d data ue =
      .done ((e.regionWrite g d.offset data).evalWatches i g d.offset d.length) { status := stOk, c0 := d.length } := by
  unfold State.serve
  rw [if_neg (by simp [hok, hconn, hlocal])]
  dsimp only
  rw [hchk, if_neg (not_not_intro rfl), hg]
  dsimp only
  rw [if_neg (not_not_intro hlen)]

theorem State.serve_read (hok : rmaFieldsOk (.rmaRead d) d = true)
    (hchk : e.targetCheck h.domain (some ((e.conn cn).elim cn connId)) 0 d.handle d.offset d.length = stOk)
    (hg : e.byHandle d.handle = some (i, g)) : e.serve h cn (.rmaRead d) d data ue =
      if ue || (e.regionRead g d.offset d.length).2.2 then
        .done ((e.regionRead g d.offset d.length).1.rmaUe i d.offset) { status := stPoisoned }
      else .done (e.regionRead g d.offset d.length).1
        { status := stOk, c0 := d.length, out := (e.regionRead g d.offset d.length).2.1 } := by
  unfold State.serve
  rw [if_neg (by simp [hok, hconn, hlocal])]
  dsimp only
  rw [hchk, if_neg (not_not_intro rfl), hg]

/-- The word that an ADD or a CAS stores, if it stores one. -/
def storedWord (op : Op) (d : RmaD) (old : DWord) : Option DWord :=
  match op with
  | .rmaCas _ => if old = d.compare then some d.operand else none
  | _ => some (old + d.operand)

theorem State.serve_word (hop : op = .rmaAdd d ∨ op = .rmaCas d) (hok : rmaFieldsOk op d = true)
    (hchk : e.targetCheck h.domain (some ((e.conn cn).elim cn connId)) 2 d.handle d.offset d.length = stOk)
    (hg : e.byHandle d.handle = some (i, g)) (hread : (e.regionRead g d.offset 8).2.2 = false) : e.serve h cn op d data false =
      .done ((storedWord op d (e.regionWord g d.offset)).elim (e.regionRead g d.offset 8).1 fun w =>
          ((e.regionRead g d.offset 8).1.regionWrite g d.offset (leBytes 8 w.toNat)).evalWatches i g d.offset 8)
        { status := stOk, c0 := (e.regionWord g d.offset).toNat % 2 ^ 32, c1 := (e.regionWord g d.offset).toNat / 2 ^ 32 } := by
  have hword : BitVec.ofNat 64 (leVal (e.regionRead g d.offset 8).2.1) = e.regionWord g d.offset := rfl
  rcases hop with rfl | rfl
  all_goals
    unfold State.serve
    rw [if_neg (by simp [hok, hconn, hlocal])]
    dsimp only
    rw [hchk, if_neg (not_not_intro rfl), hg]
    dsimp only
    rw [hread, Bool.or_false, if_neg (by decide), hword]
  · rfl
  · unfold storedWord
    by_cases hsame : e.regionWord g d.offset = d.compare
    · simp only [if_pos hsame, Option.elim_some]
    · simp only [if_neg hsame, Option.elim_none]

end Serve

/-- A word that is written is read back. -/
theorem State.regionWord_write {o : Nat} (h8 : o % 8 = 0) (hwf : s.mem.wf = true) (g : Region) (w : DWord) :
    (s.regionWrite g o (leBytes 8 w.toNat)).regionWord g o = w := by
  obtain ⟨a, ha⟩ := regionSpans_word (g := g) h8
  have hlen : (leBytes 8 w.toNat).length = 8 := by simp [leBytes]
  have hmem := (s.regionWrite_outcome g o (leBytes 8 w.toNat)).1
  have hin := Mem.lay_in (l := [(a, 8)]) (List.pairwise_singleton ..) hwf (d := leBytes 8 w.toNat) (by rw [hlen]; rfl)
  rw [hlen, ha] at hmem
  rw [State.regionWord, ha, hmem, hin, leVal_leBytes (by have := w.isLt; omega), BitVec.ofNat_toNat, BitVec.setWidth_eq]

theorem State.evalWatches_parts (s : State) (i : Nat) (g : Region) (o n : Nat) : (s.evalWatches i g o n).pending = s.pending ∧
    (s.evalWatches i g o n).nrt = s.nrt ∧ (s.evalWatches i g o n).ckpt = s.ckpt := ⟨rfl, rfl, rfl⟩

/-- What the service of an ADD or a CAS leaves: the stored word, or the word as it was. -/
theorem State.word_served {r : Result} (h : s.admits q op = true) (hop : rmaOf op = some d) (hsrc : q.src = .conn cn m) (h8 : d.offset % 8 = 0)
    (hwf : (s.admitted q op).mem.wf = true) (hserve : (s.admitted q op).serve q.hdr cn op d q.data false =
      .done ((storedWord op d ((s.admitted q op).regionWord g d.offset)).elim ((s.admitted q op).regionRead g d.offset 8).1 fun w =>
        (((s.admitted q op).regionRead g d.offset 8).1.regionWrite g d.offset (leBytes 8 w.toNat)).evalWatches i g d.offset 8) r)
    (hwait : ∀ d, op ≠ .waitWord d) :
    ∃ u : State, s.inService (·.served q op false) = .next (u.finish (s.newCmd q op false) r) ∧
      u.regionWord g d.offset = (storedWord op d ((s.admitted q op).regionWord g d.offset)).getD ((s.admitted q op).regionWord g d.offset) ∧
      (storedWord op d ((s.admitted q op).regionWord g d.offset) = none → u.mem = (s.admitted q op).mem) ∧
      u.net = (s.admitted q op).net ∧ u.eng = (s.admitted q op).eng := by
  have hr := (s.admitted q op).regionRead_unread g d.offset 8
  generalize hsame : ((s.admitted q op).regionRead g d.offset 8).1 = x at *
  have hxm := State.mem_of_unread hr
  have heng : x.eng = (s.admitted q op).eng := (congrArg State.eng hr :)
  rcases hold : storedWord op d ((s.admitted q op).regionWord g d.offset) with _ | w
  · rw [hold, Option.elim_none] at hserve
    exact ⟨x, State.served_ends_desk h hop hsrc hserve (State.desk_of_unread hr) (State.ckpt_of_unread hr), State.regionWord_congr hxm .., fun _ => hxm,
      State.net_of_unread hr, heng⟩
  · rw [hold, Option.elim_some] at hserve
    have hk := State.eq_of_unwritten (x.regionWrite_outcome g d.offset (leBytes 8 w.toNat)).2
    have hword := State.regionWord_write h8 (hxm ▸ hwf) g w
    generalize x.regionWrite g d.offset (leBytes 8 w.toNat) = y at *
    have hcmd : y.cmd (s.newCmd q op false).id = some (s.newCmd q op false) := by
      rw [State.cmd, congrArg State.cmds hk, show x.cmds = (s.admitted q op).cmds from State.cmds_of_desk (State.desk_of_unread hr)]
      exact State.admitted_cmd s q op
    have hdesk := State.desk_of_unread hr
    have hck : y.ckpt = x.ckpt := (congrArg State.ckpt hk :)
    have hnet : y.net = x.net := (congrArg State.net hk :)
    have heng' : y.eng = x.eng := (congrArg State.eng hk :)
    obtain ⟨hep, hen, hec⟩ := y.evalWatches_parts i g d.offset 8
    refine ⟨y.evalWatches i g d.offset 8, State.served_ends h hop hsrc hserve (State.evalWatches_cmd hcmd hwait ..)
      (hep.trans ((congrArg State.pending hk :).trans (State.pending_of_desk hdesk)))
      (hen.trans ((congrArg State.nrt hk :).trans (State.nrt_of_desk hdesk)))
      (hec.trans (hck.trans (State.ckpt_of_unread hr))), hword, (nomatch ·), hnet.trans (State.net_of_unread hr),
      heng'.trans heng⟩

/-! ### Refusals and notices (R348, R349) -/

theorem State.hostSend_regAt {o : Nat} (h : o ≠ 0x128) (h4 : o ≠ 0x12C) (s : State) (x : HostTxn) (q i : Nat) :
    (s.hostSend x).regI q o i = s.regI q o i := by
  unfold State.hostSend
  split
  · rfl
  · rw [State.drainWaiting_regAt h h4, State.regI_setLink]

theorem State.regI_congr (h : t.rf = s.rf) (q o i : Nat) : t.regI q o i = s.regI q o i := by rw [State.regI, State.regI, h]

/-- A record, and the interrupt of its ring, touch no register but the counters of flits. -/
theorem State.record_regAt {o : Nat} (h : o ≠ 0x128) (h4 : o ≠ 0x12C) (s : State) (n time q i : Nat) (c : Completion) :
    ((s.writeRecord n c time).ringIrq n).regI q o i = s.regI q o i := by
  have hirq (u : State) : (u.ringIrq n).regI q o i = u.regI q o i := by
    unfold State.ringIrq
    dsimp only
    split
    · rfl
    · split
      · rw [State.ringMsg, State.hostSend_regAt h h4]
        exact State.regI_congr (by simp) ..
      · exact State.regI_congr (by simp) ..
  have hsend (u : State) (p : Prop) [Decidable p] (x : HostTxn) : (if p then u.hostSend x else u).regI q o i = u.regI q o i := by
    split
    · exact State.hostSend_regAt h h4 ..
    · rfl
  rw [hirq]
  unfold State.writeRecord
  dsimp only
  rw [hsend]
  refine State.regI_congr ?_ ..
  split <;> simp

theorem State.record_mem {n : Nat} (hroom : s.noticeRoom n = true) (c : Completion) (time : Nat) : ((s.writeRecord n c time).ringIrq n).mem =
    s.mem.writeN (ringAddr (s.cqBase n + (s.ring n).cqTail * 32)) (recordBytes c (s.ring n).phase time) := by
  have hlost : (s.ring n).st ≠ .lost := by
    intro hl
    rw [State.noticeRoom, hl] at hroom
    cases hroom
  have hsend (u : State) (p : Prop) [Decidable p] (x : HostTxn) : (if p then u.hostSend x else u).mem = u.mem := by
    split
    · exact State.hostSend_mem ..
    · rfl
  rw [(State.ringIrq_frame _ n).2.2.2.1, State.writeRecord, hsend, if_neg hlost]
  simp [State.ringWrite]

theorem State.record_rest (s : State) (n time : Nat) (c : Completion) : (s.writeRecord n c time).ringIrq n =
    { s with
      mem := ((s.writeRecord n c time).ringIrq n).mem, rf := ((s.writeRecord n c time).ringIrq n).rf
      host := ((s.writeRecord n c time).ringIrq n).host } := State.eq_of_groups (by simp)

/-- A state without its memory, registers, host interface and network. -/
def State.untold (s : State) : State := { s with mem := [], rf := State.reset.rf, host := State.reset.host, net := .blank }

theorem State.eq_of_untold (h : t.untold = s.untold) : t = { s with mem := t.mem, rf := t.rf, host := t.host, net := t.net } := by
  cases s; cases t
  simp only [State.untold, State.mk.injEq] at h ⊢
  simp_all

@[simp] theorem State.record_untold (s : State) (n time : Nat) (c : Completion) : ((s.writeRecord n c time).ringIrq n).untold = s.untold := by
  simp [State.untold]

/-- A refusal is counted; of memory, only the ring of the region that is told of it may change. -/
theorem State.targetRefused_outcome (s : State) (opcode conn handle st : Nat) (ht : s.targetRefused opcode conn handle st = t) :
    t.reg pgXprt (if st = stAccess then 0x1A8 else 0x1AC) = satAdd32 (s.reg pgXprt (if st = stAccess then 0x1A8 else 0x1AC)) 1 ∧
      (∀ h g, s.byHandle handle = some (h, g) → g.notify = 0xFFFF → t.mem = s.mem) ∧ t.untold = s.untold := by
  unfold State.targetRefused at ht
  generalize (if st = stAccess then 0x1A8 else 0x1AC) = c, hc : (if st = stAccess then (0x1A8 : Nat) else 0x1AC) = c at *
  have hoff : c ≠ 0x128 ∧ c ≠ 0x12C := by
    rw [← hc]
    split <;> decide
  have hreg : (s.bump pgXprt c 1).reg pgXprt c = satAdd32 (s.reg pgXprt c) 1 := State.reg_bump ..
  have hhandle : (s.bump pgXprt c 1).byHandle handle = s.byHandle handle := rfl
  have hmem : (s.bump pgXprt c 1).mem = s.mem := rfl
  have hbump : (s.bump pgXprt c 1).untold = s.untold := rfl
  dsimp only at ht
  generalize s.bump pgXprt c 1 = u at *
  rw [hhandle] at ht
  split at ht
  next hnone =>
    subst ht
    exact ⟨hreg, fun _ _ _ _ => hmem, hbump⟩
  next i g hg =>
    generalize hv : (if g.st = .revoking then u.setRegion i { g with refused := g.refused + 1 } else u) = v at ht
    have hvu : v.reg pgXprt c = u.reg pgXprt c ∧ v.mem = u.mem ∧ v.untold = u.untold := by
      rw [← hv]
      split <;> exact ⟨rfl, rfl, rfl⟩
    obtain ⟨hvr, hvm, hvk⟩ := hvu
    split at ht
    next hquiet =>
      subst ht
      exact ⟨hvr.trans hreg, fun _ _ _ _ => hvm.trans hmem, hvk.trans hbump⟩
    next hloud =>
      have hother (h : Nat) (g' : Region) (hh : s.byHandle handle = some (h, g')) (hn : g'.notify = 0xFFFF) : t.mem = s.mem := by
        rw [hg, Option.some_inj, Prod.mk.injEq] at hh
        exact absurd (hh.2 ▸ hn) hloud
      split at ht
      · subst ht
        exact ⟨hvr.trans hreg, hother, hvk.trans hbump⟩
      · generalize hw : (if v.noticeRoom g.notify = true then
          (v.writeRecord g.notify ⟨BitVec.ofNat 32 handle, st, opcode, g.context, conn, 1, 0, 0, 0⟩ v.nrt).ringIrq g.notify else v) = w at ht
        have hwv : w.reg pgXprt c = v.reg pgXprt c ∧ w.untold = v.untold := by
          rw [← hw]
          split
          · exact ⟨State.record_regAt hoff.1 hoff.2 .., State.record_untold ..⟩
          · exact ⟨rfl, rfl⟩
        subst ht
        exact ⟨hwv.1.trans (hvr.trans hreg), hother, hwv.2.trans (hvk.trans hbump)⟩

/-- A notice after its interval has ended: what it told is no longer counted. -/
def nextNotice (n : Notice) (told : Bool) (till : Nat) : Notice := { n with count := if told then 0 else n.count, till := till }

/-- The notice of refusals that are to be told: written where the ring has room, else kept (R349). -/
theorem State.noticeEnd_tells {h st : Nat} {n : Notice} {u : State} (hn : AL.get (h, st) s.net.notices = some n) (hdue : n.till ≤ s.nrt)
    (hcount : n.count ≠ 0) (hg : s.byHandle h = some (i, g)) (hu : (if s.noticeRoom g.notify = true then
      (s.writeRecord g.notify ⟨BitVec.ofNat 32 h, st, n.opcode, g.context, n.conn, n.count, 0, 0, 0⟩ n.first).ringIrq g.notify else s) = u) :
    s.noticeEnd h st = u.setNet { u.net with
      notices := AL.put (h, st) (nextNotice n (s.noticeRoom g.notify) (u.nrt + 100 * max 1 (u.fld pgXprt 0x184 0 16))) u.net.notices } := by
  rw [State.noticeEnd, hn]
  dsimp only
  rw [if_neg (Nat.not_lt.mpr hdue), if_neg hcount, hg]
  dsimp only
  rw [hu, usTicks, Nat.mul_comm]
  rfl

end Sys2Proof.Machine
end

section

open Sys2Proof Sys2Proof.Machine

/-- Settles O47, operation by operation: `served_ends` says how an admitted operation of a peer ends, the `serve_…` lemmas what its service
comes to, and `regionWrite_outcome` and `lay_in` what a write leaves in the region's spans. -/
theorem peerOperationsAreServed : Obligations.PeerOperationsAreServed := by
  unfold Obligations.PeerOperationsAreServed
  refine ⟨?write, ?read, ?lost, ?add, ?cas, ?flush, ?refused, ?quiet, ?full, ?tells⟩
  case write =>
    intro s e q d cn m i g h he hsrc hok hconn hlocal hlen hchk hg hnodup hchunks hrack hwf
    subst he
    obtain ⟨hmem, hk⟩ := (s.admitted q (.rmaWrite d)).regionWrite_outcome g d.offset q.data
    have hcmd : ((s.admitted q (.rmaWrite d)).regionWrite g d.offset q.data).cmd (s.newCmd q (.rmaWrite d) false).id =
        some (s.newCmd q (.rmaWrite d) false) := by
      rw [State.cmd, congrArg State.cmds (State.eq_of_unwritten hk)]
      exact State.admitted_cmd s q (.rmaWrite d)
    have heval := State.evalWatches_cmd hcmd (fun _ hd => nomatch hd) i g d.offset d.length
    have hserve := State.serve_write (h := q.hdr) (ue := false) hconn hlocal hok hchk hg hlen
    have hw := State.eq_of_unwritten hk
    have hfits := State.targetCheck_fits hchk hg
    have hapart : (regionSpans g d.offset q.data.length).Pairwise apart := by
      refine regionSpans_apart hnodup hchunks fun hkind => ?_
      have := hrack hkind
      omega
    generalize (s.admitted q (.rmaWrite d)).regionWrite g d.offset q.data = w at *
    obtain ⟨hep, hen, hec⟩ := w.evalWatches_parts i g d.offset d.length
    refine ⟨w.evalWatches i g d.offset d.length, ?_, ?_, fun a ha => ?_, ?_⟩
    · rw [exec_rmaWriteServe]
      exact State.served_ends h rfl hsrc hserve heval (hep.trans (congrArg State.pending hw :)) (hen.trans (congrArg State.nrt hw :))
        (hec.trans (congrArg State.ckpt hw :))
    · change (regionSpans g d.offset d.length).flatMap (fun p => w.mem.readN p.1 p.2) = q.data
      rw [hmem, ← hlen]
      exact Mem.lay_in hapart hwf (regionSpans_sum ..).symm
    · change w.mem.read a = _
      rw [hmem, hlen]
      exact Mem.lay_out ha hwf _
    · have hcmds (c : CmdState) : ({ w with cmds := c } : State) = { s.admitted q (.rmaWrite d) with
          fresh := w.fresh, mem := w.mem, rf := w.rf, host := w.host, cmds := c, kv := w.kv
          fw := { (s.admitted q (.rmaWrite d)).fw with laneLog := w.fw.laneLog }, integ := w.integ } := by
        conv_lhs => rw [hw]
      exact hcmds _
  case read =>
    intro s e q d cn m i g h he hsrc hok hconn hlocal hchk hg hread
    subst he
    have hk := (s.admitted q (.rmaRead d)).regionRead_unread g d.offset d.length
    have hserve := State.serve_read (h := q.hdr) (data := q.data) (ue := false) hconn hlocal hok hchk hg
    rw [hread, Bool.or_false, if_neg (by decide), State.regionRead_bytes] at hserve
    exact ⟨_, (exec_rmaReadServe ..).trans (State.served_ends_desk h rfl hsrc hserve (State.desk_of_unread hk) (State.ckpt_of_unread hk)),
      State.eq_of_unread hk⟩
  case lost =>
    intro s e q d cn m i g h he hsrc hok hconn hlocal hchk hg
    subst he
    have hk := (s.admitted q (.rmaRead d)).regionRead_unread g d.offset d.length
    have hserve := State.serve_read (h := q.hdr) (data := q.data) (ue := true) hconn hlocal hok hchk hg
    rw [Bool.true_or, if_pos rfl] at hserve
    generalize ((s.admitted q (.rmaRead d)).regionRead g d.offset d.length).1 = r at hk hserve
    have hlog : (r.rmaUe i d.offset).unread = r.unread := State.unread_of_recorded (State.logErr_recorded ..)
    have hu := hlog.trans hk
    generalize r.rmaUe i d.offset = u at *
    exact ⟨u, (exec_rmaReadServe ..).trans (State.served_ends_desk h rfl hsrc hserve (State.desk_of_unread hu) (State.ckpt_of_unread hu)),
      State.mem_of_unread hu, State.net_of_unread hu, State.cmds_of_desk (State.desk_of_unread hu)⟩
  case add =>
    intro s e q d cn m i g h he hsrc hok hconn hchk hg hread hwf
    subst he
    obtain ⟨hlen, h8, hlocal⟩ := rmaFieldsOk_word (.inl rfl) hok
    rw [← hlen] at hchk
    have hserve := State.serve_word (h := q.hdr) (data := q.data) hconn hlocal (.inl rfl) hok hchk hg hread
    obtain ⟨u, hexec, hword, -, hnet, heng⟩ := State.word_served h rfl hsrc h8 hwf hserve (fun _ hd => nomatch hd)
    exact ⟨u, hexec, hword, hnet, heng⟩
  case cas =>
    intro s e q d cn m i g h he hsrc hok hconn hchk hg hread hwf
    subst he
    obtain ⟨hlen, h8, hlocal⟩ := rmaFieldsOk_word (.inr rfl) hok
    rw [← hlen] at hchk
    have hserve := State.serve_word (h := q.hdr) (data := q.data) hconn hlocal (.inr rfl) hok hchk hg hread
    obtain ⟨u, hexec, hword, hkeep, hnet, heng⟩ := State.word_served h rfl hsrc h8 hwf hserve (fun _ hd => nomatch hd)
    refine ⟨u, hexec, ?_, fun hne => hkeep (if_neg hne), hnet, heng⟩
    rw [hword, storedWord]
    split <;> rfl
  case flush =>
    intro s e q d cn m h he hsrc hok hconn
    subst he
    exact (exec_rmaFlushServe ..).trans (State.served_ends_desk h rfl hsrc (State.serve_flush hconn hok) rfl rfl)
  case refused =>
    intro s e q d cn m st h he hsrc hok hconn hlocal hchk hst
    subst he
    have hserve := State.serve_writeRefused (h := q.hdr) (data := q.data) (ue := false) hconn hlocal hok hchk hst
    obtain ⟨hreg, hmem, hk⟩ := State.targetRefused_outcome _ _ _ _ _ rfl
    have hu := State.eq_of_untold hk
    refine ⟨_, (exec_rmaWriteServe ..).trans (State.served_ends_desk h rfl hsrc hserve ?_ (congrArg State.ckpt hu :)), hreg, hmem, hu⟩
    exact State.desk_congr (congrArg State.pending hu :) (congrArg State.nrt hu :) (congrArg State.cmds hu :)
  case quiet =>
    intro s h st n hon hn hdue hcount
    have hgo : s.noticeEnd h st = s.setNet { s.net with notices := AL.del (h, st) s.net.notices } := by
      rw [State.noticeEnd, hn]
      dsimp only
      rw [if_neg (Nat.not_lt.mpr hdue), if_pos hcount]
    exact (exec_targetNoticeIntervalEnd ..).trans (State.inService_keeps (f := fun x => x.noticeEnd h st) hon hgo rfl rfl)
  case full =>
    intro s h st i n g hon hn hdue hcount hg hroom
    have hgo := State.noticeEnd_tells hn hdue hcount hg (u := s) (by rw [hroom]; rfl)
    rw [hroom] at hgo
    exact (exec_targetNoticeIntervalEnd ..).trans (State.inService_keeps (f := fun x => x.noticeEnd h st) hon hgo rfl rfl)
  case tells =>
    intro s h st i n g hon hn hdue hcount hg hroom hwf
    have hgo := State.noticeEnd_tells hn hdue hcount hg (u := _) (if_pos hroom)
    have hmem := State.record_mem hroom ⟨BitVec.ofNat 32 h, st, n.opcode, g.context, n.conn, n.count, 0, 0, 0⟩ n.first
    have hreg := State.record_regAt (o := 0x184) (by decide) (by decide) s g.notify n.first pgXprt 0
      ⟨BitVec.ofNat 32 h, st, n.opcode, g.context, n.conn, n.count, 0, 0, 0⟩
    have hk := State.record_rest s g.notify n.first ⟨BitVec.ofNat 32 h, st, n.opcode, g.context, n.conn, n.count, 0, 0, 0⟩
    rw [hroom] at hgo
    generalize (s.writeRecord g.notify ⟨BitVec.ofNat 32 h, st, n.opcode, g.context, n.conn, n.count, 0, 0, 0⟩ n.first).ringIrq g.notify = u at *
    have hfld : u.fld pgXprt 0x184 0 16 = s.fld pgXprt 0x184 0 16 := congrArg (fun w : Word => bitsOf w.toNat 0 16) hreg
    have hnrt : u.nrt = s.nrt := by rw [hk]
    have hnet : u.net = s.net := by rw [hk]
    rw [hfld, hnrt, hnet] at hgo
    refine ⟨_, (exec_targetNoticeIntervalEnd ..).trans (State.inService_keeps (f := fun x => x.noticeEnd h st) hon hgo (by rw [hk]; rfl) hnrt), ?_,
      rfl, ?_⟩
    · rw [State.setNet_mem, hmem]
      have hread := Mem.readN_writeN (ringAddr (s.cqBase g.notify + (s.ring g.notify).cqTail * 32))
        (recordBytes ⟨BitVec.ofNat 32 h, st, n.opcode, g.context, n.conn, n.count, 0, 0, 0⟩ (s.ring g.notify).phase n.first) hwf
      rwa [length_recordBytes] at hread
    · rw [hk]
      rfl

end

section
/-!
SUPPORT. Regions (R337 to R339, R350 to R353): what a registration makes, what a revoke begins, and what the drained region leaves.
-/

namespace Sys2Proof.Machine

variable {s e t u v : State} {q : Req} {i : Nat} {g : Region}

theorem exec_regionRegister (q : Req) (a : RegisterD) (s : State) :
    exec (.regionRegister q a) s = s.inService (·.command q (.regionRegister a)) := rfl
theorem exec_regionRevoke (q : Req) (a : RevokeD) (s : State) : exec (.regionRevoke q a) s = s.inService (·.command q (.regionRevoke a)) := rfl
theorem exec_regionDrained (r : RegionRef) (s : State) : exec (.regionDrained r) s = s.inService (·.drained r) := rfl

theorem State.runOp_register (a : RegisterD) :
    e.runOp (s.newCmd q (.regionRegister a) false) none false = e.doRegister q.hdr q.src a := by
  unfold State.runOp
  rw [State.closedUnit_none rfl]
  simp only [State.newCmd, Op.needs, List.any_nil, Bool.false_and, Bool.false_eq_true, reduceIte]

theorem State.runOp_revoke (a : RevokeD) :
    e.runOp (s.newCmd q (.regionRevoke a) false) none false = e.doRevoke (s.newCmd q (.regionRevoke a) false) a := by
  unfold State.runOp
  rw [State.closedUnit_none rfl]
  rfl

/-! ### Registration (R337 to R339) -/

/-- The region that a registration makes at index `i` (Table 14-1). -/
def State.newRegion (e : State) (h : Hdr) (a : RegisterD) (i : Nat) : Region := { blankRegion (e.regionGen i) with
  st := .active, kind := a.kind, domain := h.domain, rights := a.rights, bindConn := a.bindConn, base := a.base, length := a.length
  notify := a.notifyRing, context := h.context }

section Register
variable {h : Hdr} {src : Source} {a : RegisterD} (hok : e.registerRefusal h.domain src a = none)
include hok

theorem State.doRegister_peer {k : Conn} (hkind : a.kind = 2) (hk : e.peerConnOf src a.bindConn = some k) : e.doRegister h src a =
    .done (e.setPeer h.domain a.peerIndex ⟨.active, connId k, a.peerHandle, a.length, a.rights, 0, 0, 0⟩)
      { status := stOk, c0 := a.peerIndex, c1 := a.length % 2 ^ 32 } := by
  unfold State.doRegister
  simp only [hok, hkind, hk, if_true]

theorem State.doRegister_full (hkind : a.kind ≠ 2)
    (hfull : 65536 ≤ e.regionCount ∨ (e.regI pgXprt 0x18C h.domain).toNat % 2 ^ 17 ≤ e.regionsOf h.domain) :
    e.doRegister h src a = .done e { status := stNoCapacity, c0 := 1 } := by
  unfold State.doRegister
  obtain ⟨i, hi⟩ : ∃ i, i = firstFree ((e.net.regions.filter (fun p => p.2.st != .free)).map (fun p => p.1)) := ⟨_, rfl⟩
  simp only [hok, if_neg hkind, if_pos hfull, ← hi]

variable (hcount : e.regionCount < 65536) (hquota : e.regionsOf h.domain < (e.regI pgXprt 0x18C h.domain).toNat % 2 ^ 17)
  (hi : i = firstFree ((e.net.regions.filter (fun p => p.2.st != .free)).map (fun p => p.1)))
include hcount hquota hi

theorem State.doRegister_area (hkind : a.kind = 0) : e.doRegister h src a = .done (e.setRegion i (e.newRegion h a i))
    { status := stOk, c0 := e.regionGen i * 65536 + i, c1 := a.length % 2 ^ 32 } := by
  unfold State.doRegister
  simp only [hok, hkind, ← hi, if_neg (not_or.mpr ⟨Nat.not_le.mpr hcount, Nat.not_le.mpr hquota⟩), reduceIte, OfNat.zero_ne_ofNat]
  simp only [State.newRegion, blankRegion, hkind]

theorem State.doRegister_rack {l : List (Nat × Nat)} (hkind : a.kind = 1)
    (hl : e.regionChunks h.domain (e.partOf h.context) i (ceilDiv a.length 65536) = some (v, l)) : e.doRegister h src a =
      .done (((l.foldl (fun (s : State) c => s.zeroRack c.1 c.2) v).charge h.domain (256 * l.length)).setRegion i
        { e.newRegion h a i with chunks := l }) { status := stOk, c0 := e.regionGen i * 65536 + i, c1 := a.length % 2 ^ 32 } := by
  unfold State.doRegister
  simp only [hok, hkind, ← hi, hl, if_neg (not_or.mpr ⟨Nat.not_le.mpr hcount, Nat.not_le.mpr hquota⟩), reduceIte, OfNat.one_ne_ofNat, one_ne_zero]
  simp only [State.newRegion, blankRegion, hkind]

end Register

/-- The chunks that a Rack region takes (R338) are placed, and nothing is charged yet. -/
theorem State.regionChunks_keeps {d part index n : Nat} {l : List (Nat × Nat)} (h : e.regionChunks d part index n = some (v, l)) :
    v.recorded = e.recorded ∧ ∀ d, v.rused d = e.rused d := by
  have hfold (ks : List Nat) (o : Option (State × List (Nat × Nat))) (ho : ∀ x ∈ o, x.1.recorded = e.recorded ∧ ∀ d, x.1.rused d = e.rused d) :
      ∀ x ∈ ks.foldl (fun (o : Option (State × List (Nat × Nat))) k => match o with
        | none => none
        | some (s, l) => match (s.walkChannels ((index + k) % 384) (some part)).findSome? (fun c => (s.newChunk c).map (fun j => (c, j))) with
          | none => none
          | some (c, j) => some ((s.putChunk c j (.region index)).cleared (rackAddr c (j * 65536)) 65536, l ++ [(c, j)])) o,
        x.1.recorded = e.recorded ∧ ∀ d, x.1.rused d = e.rused d := by
    induction ks generalizing o with
    | nil => exact ho
    | cons k ks ih =>
      refine ih _ fun x hx => ?_
      rcases o with _ | ⟨s, l⟩
      · cases hx
      · obtain ⟨hrec, hused⟩ := ho _ rfl
        dsimp only at hx
        split at hx
        · cases hx
        · cases hx
          exact ⟨(State.cleared_recorded ..).trans ((State.putChunk_recorded ..).trans hrec), fun d => (State.putChunk_rused ..).trans (hused d)⟩
  unfold State.regionChunks at h
  split at h
  · cases h
  · exact hfold _ _ (fun x hx => by cases hx; exact ⟨rfl, fun _ => rfl⟩) (v, l) h

theorem State.zeroRack_rused (s : State) (ch k d : Nat) : (s.zeroRack ch k).rused d = s.rused d := by
  unfold State.zeroRack
  dsimp only
  split <;> rfl

theorem State.zeroRack_mem (s : State) (ch k : Nat) : (s.zeroRack ch k).mem = s.mem.zero (rackAddr ch (k * 65536)) 65536 := by
  unfold State.zeroRack
  dsimp only
  split <;> rfl

theorem State.zeroRack_chunks (s : State) (ch k : Nat) : (s.zeroRack ch k).kv.chunks = s.kv.chunks := by
  unfold State.zeroRack
  dsimp only
  split <;> rfl

/-- The bytes of a list of chunks are zero, and those that were zero stay so. -/
theorem State.foldl_zeroRack_read (l : List (Nat × Nat)) (hwf : s.mem.wf = true) {b : Nat}
    (hb : (∃ c ∈ l, ∃ j < 65536, b = rackAddr c.1 (c.2 * 65536 + j)) ∨ s.mem.read b = 0) :
    (l.foldl (fun (s : State) c => s.zeroRack c.1 c.2) s).mem.read b = 0 := by
  induction l generalizing s with
  | nil => exact hb.resolve_left (fun ⟨c, hc, _⟩ => by cases hc)
  | cons x l ih =>
    have hx : s.mem.read b = 0 ∨ (∃ j < 65536, b = rackAddr x.1 (x.2 * 65536 + j)) → (s.zeroRack x.1 x.2).mem.read b = 0 := by
      rw [State.zeroRack_mem]
      rintro (h0 | ⟨j, hj, hbj⟩)
      · by_cases hin : b < rackAddr x.1 (x.2 * 65536) ∨ rackAddr x.1 (x.2 * 65536) + 65536 ≤ b
        · rwa [Mem.read_zero_out hin hwf]
        · exact Mem.read_zero_in (by omega) (by omega) _
      · rw [rackAddr] at hbj
        exact Mem.read_zero_in (by rw [rackAddr]; omega) (by rw [rackAddr]; omega) _
    refine ih (State.wf_zeroRack hwf ..) ?_
    rcases hb with ⟨c, hc, hj⟩ | h0
    · rcases List.mem_cons.mp hc with rfl | hc
      · exact .inr (hx (.inr hj))
      · exact .inl ⟨c, hc, hj⟩
    · exact .inr (hx (.inl h0))

/-- A state without what a placement of chunks and its zeroing change. -/
def State.unplaced (s : State) : State := { s.outside with mem := [] }

theorem State.eq_of_unplaced (h : t.unplaced = s.unplaced) :
    t = { s with mem := t.mem, rf := t.rf, host := t.host, kv := t.kv, integ := { s.integ with pend := t.integ.pend } } := by
  have hk := State.eq_of_outside (s := s) (t := { t with mem := s.mem }) (congrArg (fun u : State => ({ u with mem := s.mem } : State)) h :)
  exact (congrArg (fun u : State => ({ u with mem := t.mem } : State)) hk :)

theorem State.zeroRack_unplaced (s : State) (ch k : Nat) : (s.zeroRack ch k).unplaced = s.unplaced := by
  unfold State.zeroRack
  dsimp only
  split <;> rfl

/-- What the placing of a Rack region's chunks, their zeroing and their charge leave as it was. -/
theorem State.rackPlaced_unplaced {d part index n m : Nat} {l : List (Nat × Nat)} (h : e.regionChunks d part index n = some (v, l)) :
    ((l.foldl (fun (s : State) c => s.zeroRack c.1 c.2) v).charge d m).unplaced = e.unplaced := by
  have hv : v.unplaced = e.unplaced :=
    congrArg (fun u : State => ({ u with mem := [] } : State)) (State.outside_of_recorded (State.regionChunks_keeps h).1)
  exact (State.foldl_keeps State.unplaced (fun (s : State) c => s.zeroRack c.1 c.2) (fun u c => State.zeroRack_unplaced ..) l v).trans hv

theorem State.rackPlaced_rused {d part index n m : Nat} {l : List (Nat × Nat)} (h : e.regionChunks d part index n = some (v, l)) :
    ((l.foldl (fun (s : State) c => s.zeroRack c.1 c.2) v).charge d m).rused d = e.rused d + m := by
  have hw : (l.foldl (fun (s : State) c => s.zeroRack c.1 c.2) v).rused d = e.rused d :=
    (State.foldl_keeps (fun u : State => u.rused d) (fun (s : State) c => s.zeroRack c.1 c.2) (fun u c => State.zeroRack_rused ..) l v).trans
      ((State.regionChunks_keeps h).2 d)
  generalize l.foldl (fun (s : State) c => s.zeroRack c.1 c.2) v = w at *
  exact (AL.getD_put ..).trans (by rw [hw])

/-! ### The end of a region (R351 to R353) -/

/-- One chunk of a region that ends: its bytes zero, the chunk free (R352). -/
def State.clearChunk (s : State) (c : Nat × Nat) : State := (s.zeroRack c.1 c.2).giveChunk c.1 c.2

theorem State.foldl_clearChunk (l : List (Nat × Nat)) (s : State) : (∀ c ∈ l, AL.get c (l.foldl State.clearChunk s).kv.chunks = none) ∧
    (∀ c, AL.get c s.kv.chunks = none → AL.get c (l.foldl State.clearChunk s).kv.chunks = none) ∧
    (∀ d, (l.foldl State.clearChunk s).rused d = s.rused d) := by
  have hchunks (s : State) (x : Nat × Nat) : (s.clearChunk x).kv.chunks = AL.del x s.kv.chunks := congrArg (AL.del x) (State.zeroRack_chunks ..)
  induction l generalizing s with
  | nil => exact ⟨fun c hc => (List.not_mem_nil hc).elim, fun c h => h, fun d => rfl⟩
  | cons x l ih =>
    obtain ⟨hl, hold, hused⟩ := ih (s.clearChunk x)
    refine ⟨fun c hc => ?_, fun c hc => hold c ?_, fun d => (hused d).trans (State.zeroRack_rused ..)⟩
    · rcases List.mem_cons.mp hc with rfl | hc
      · exact hold c (by rw [hchunks, AL.get_del])
      · exact hl c hc
    · rw [hchunks]
      by_cases hx : c = x
      · rw [hx, AL.get_del]
      · rw [AL.get_del_ne hx, hc]

/-- The drained region is FREE under the next generation, its chunks free and no longer charged. -/
theorem State.freeRegion_outcome (s : State) (i : Nat) (g : Region) :
    (s.freeRegion i g).region i = some (blankRegion (if g.gen = 65535 then 1 else g.gen + 1)) ∧
    (∀ c ∈ g.chunks, AL.get c (s.freeRegion i g).kv.chunks = none) ∧
    (s.freeRegion i g).rused g.domain = s.rused g.domain - 256 * g.chunks.length ∧
    s.freeRegion i g = { s with mem := (s.freeRegion i g).mem, kv := (s.freeRegion i g).kv, net := (s.freeRegion i g).net } := by
  obtain ⟨hl, -, hused⟩ := State.foldl_clearChunk g.chunks s
  have hk : g.chunks.foldl State.clearChunk s = { s with
      mem := (g.chunks.foldl State.clearChunk s).mem, kv := (g.chunks.foldl State.clearChunk s).kv } := by
    have hnone := State.foldl_keeps (fun u : State => ({ u with mem := [], kv := KvState.blank } : State)) State.clearChunk (fun u c => by
      have hone : u.clearChunk c = { u with mem := (u.clearChunk c).mem, kv := (u.clearChunk c).kv } :=
        State.eq_of_groups (by simp [State.clearChunk])
      rw [hone]) g.chunks s
    generalize g.chunks.foldl State.clearChunk s = w at hnone ⊢
    exact (congrArg (fun u : State => ({ u with mem := w.mem, kv := w.kv } : State)) hnone :)
  have heq : s.freeRegion i g = ((g.chunks.foldl State.clearChunk s).refund g.domain (256 * g.chunks.length)).setRegion i
      (blankRegion (if g.gen = 65535 then 1 else g.gen + 1)) := rfl
  rw [heq]
  generalize g.chunks.foldl State.clearChunk s = w at *
  refine ⟨State.region_setRegion .., hl, ?_, ?_⟩
  · refine Eq.trans (b := w.rused g.domain - 256 * g.chunks.length) ?_ (by rw [hused])
    exact AL.getD_put ..
  · have hx (n : Nat) (b : Region) : (w.refund g.domain n).setRegion i b = { w with
        kv := ((w.refund g.domain n).setRegion i b).kv, net := ((w.refund g.domain n).setRegion i b).net } := rfl
    have hx := hx (256 * g.chunks.length) (blankRegion (if g.gen = 65535 then 1 else g.gen + 1))
    generalize (w.refund g.domain (256 * g.chunks.length)).setRegion i _ = x at *
    rw [hx]
    conv_lhs => rw [hk]

/-- A state without what the answers to commands change. -/
def State.unanswered (s : State) : State := { s with
  mem := [], rf := State.reset.rf, host := State.reset.host, cmds := State.reset.cmds, net := .blank }

theorem State.eq_of_unanswered (h : t.unanswered = s.unanswered) :
    t = { s with mem := t.mem, rf := t.rf, host := t.host, cmds := t.cmds, net := t.net } := by
  cases s; cases t
  simp only [State.unanswered, State.mk.injEq] at h ⊢
  simp_all

@[simp] theorem State.finish_unanswered (s : State) (c : Cmd) (r : Result) : (s.finish c r).unanswered = s.unanswered := by
  simp [State.unanswered]

/-- A command that ends is gone, and none comes. -/
theorem State.finish_cmd (s : State) (c : Cmd) (r : Result) {id : Nat} (h : id = c.id ∨ s.cmd id = none) : (s.finish c r).cmd id = none := by
  have hlist : (s.finish c r).cmds.list = s.cmds.list.filter (fun x => x.id != c.id) := by simp [State.finish, State.dropCmd]
  rw [State.cmd, hlist, List.find?_eq_none]
  intro x hx hid
  obtain ⟨hmem, hne⟩ := List.mem_filter.mp hx
  rcases h with rfl | h
  · exact absurd hid (by simpa using hne)
  · rw [State.cmd, List.find?_eq_none] at h
    exact h x hmem hid

theorem State.foldl_finish_cmd (f : Cmd × Nat → Result) (l : List (Cmd × Nat)) (s : State) {id : Nat}
    (h : (∃ x ∈ l, x.1.id = id) ∨ s.cmd id = none) : (l.foldl (fun (s : State) x => s.finish x.1 (f x)) s).cmd id = none := by
  induction l generalizing s with
  | nil => exact h.resolve_left (fun ⟨x, hx, _⟩ => (List.not_mem_nil hx).elim)
  | cons y l ih =>
    refine ih _ ?_
    rcases h with ⟨x, hx, hid⟩ | h
    · rcases List.mem_cons.mp hx with rfl | hx
      · exact .inr (State.finish_cmd _ _ _ (.inl hid.symm))
      · exact .inl ⟨x, hx, hid⟩
    · exact .inr (State.finish_cmd _ _ _ (.inr h))

/-- The revokes of a region end when it has drained (R351). -/
theorem State.endRevokes_outcome (s : State) (ref : RegionRef) (drained refused : Nat) :
    (∀ c ∈ s.revokesOf ref, (s.endRevokes ref drained refused).cmd c.id = none) ∧ (s.endRevokes ref drained refused).unanswered = s.unanswered := by
  refine ⟨fun c hc => ?_, State.foldl_keeps State.unanswered _ (fun u x => State.finish_unanswered ..) _ s⟩
  refine State.foldl_finish_cmd (fun x => { status := stOk, c0 := if x.2 = 0 then drained else 0, c1 := refused }) _ s (.inl ?_)
  obtain ⟨k, hk, hget⟩ := List.mem_iff_getElem.mp hc
  exact ⟨(c, k), List.mem_zipIdx_iff_getElem?.mpr (List.getElem?_eq_some_iff.mpr ⟨hk, hget⟩), rfl⟩

/-- All that the end of a drained region leaves. -/
theorem State.drained_region {h : Nat} (hg : s.byHandle h = some (i, g)) (hst : g.st = .revoking) (hdrain : g.drain = 0)
    (ht : s.drained (.handle h) = t) : t.region i = some (blankRegion (if g.gen = 65535 then 1 else g.gen + 1)) ∧
      (∀ c ∈ s.revokesOf (.handle h), t.cmd c.id = none) ∧ (∀ c ∈ g.chunks, AL.get c t.kv.chunks = none) ∧
      t.rused g.domain = s.rused g.domain - 256 * g.chunks.length ∧
      t = { s with mem := t.mem, rf := t.rf, host := t.host, cmds := t.cmds, net := t.net, kv := t.kv } := by
  have hgo : s.drained (.handle h) = (s.endRevokes (.handle h) g.drained g.refused).freeRegion i g := by
    rw [State.drained, hg]
    exact if_pos ⟨hst, hdrain⟩
  obtain ⟨hcmd, hk⟩ := s.endRevokes_outcome (.handle h) g.drained g.refused
  have hk := State.eq_of_unanswered hk
  rw [hgo] at ht
  generalize s.endRevokes (.handle h) g.drained g.refused = w at *
  obtain ⟨hregion, hchunks, hused, hfree⟩ := w.freeRegion_outcome i g
  rw [ht] at hregion hchunks hused hfree
  have hcmds : t.cmds = w.cmds := by rw [hfree]
  have hwused : w.rused g.domain = s.rused g.domain := by rw [State.rused, State.rused, hk]
  refine ⟨hregion, fun c hc => ?_, hchunks, by rw [hused, hwused], ?_⟩
  · rw [State.cmd, hcmds]
    exact hcmd c hc
  · rw [hcmds, hfree]
    conv_lhs => rw [hk]

/-! ### Revoke (R350) -/

/-- The region that is being revoked. -/
def revokingRegion (g : Region) : Region := { g with st := .revoking, drained := 0, refused := 0 }

theorem State.byHandle_elim {h : Nat} (hg : s.byHandle h = some (i, g)) : i = h % 65536 ∧ g.gen * 65536 + i = h ∧ g.gen = h / 65536 := by
  unfold State.byHandle at hg
  split at hg
  · split at hg
    next _ hcond =>
      cases hg
      simp only [Bool.and_eq_true, beq_iff_eq] at hcond
      exact ⟨rfl, by omega, hcond.2⟩
    · cases hg
  · cases hg

theorem State.byHandle_setRegion {h : Nat} (hg : s.byHandle h = some (i, g)) {x : Region} (hgen : x.gen = g.gen) (hst : x.st ≠ .free) :
    (s.setRegion i x).byHandle h = some (i, x) := by
  obtain ⟨hi, -, hh⟩ := State.byHandle_elim hg
  have hreg : (s.setRegion i x).region (h % 65536) = some x := by rw [← hi, State.region_setRegion]
  rw [State.byHandle, hreg]
  dsimp only
  rw [hgen, ← hh, hi, if_pos (by simpa using hst)]

/-- With no watch of the region's words, its revoke changes its state alone. -/
theorem State.startRevoke_alone {h : Nat} (hg : s.byHandle h = some (i, g))
    (hw : ∀ x ∈ s.cmds.list, ∀ d, x.op = .waitWord d → d.handle ≠ h) : s.startRevoke i g = s.setRegion i (revokingRegion g) := by
  obtain ⟨-, hh, -⟩ := State.byHandle_elim hg
  unfold State.startRevoke
  dsimp only
  rw [hh, show s.setRegion i { g with st := .revoking, drained := 0, refused := 0 } = s.setRegion i (revokingRegion g) from rfl]
  have hcmds : (s.setRegion i (revokingRegion g)).cmds.list = s.cmds.list := rfl
  generalize s.setRegion i (revokingRegion g) = v at *
  rw [hcmds, List.filter_eq_nil_iff.mpr, List.foldl_nil]
  intro x hx hcond
  rw [Bool.and_eq_true] at hcond
  split at hcond
  next d hop => exact hw x hx d hop (by simpa using hcond.2)
  · exact absurd hcond.2 (by decide)

/-- The state in which a revoke waits: the region REVOKING, the command at its drain. -/
def State.revoking (e : State) (c : Cmd) (i : Nat) (g : Region) : State := (e.setRegion i (revokingRegion g)).setCmd { c with wait := .drain }

theorem State.byHandle_revoking {h : Nat} (c : Cmd) (hg : e.byHandle h = some (i, g)) :
    (e.revoking c i g).byHandle h = some (i, revokingRegion g) :=
  State.byHandle_setRegion (x := revokingRegion g) hg rfl (fun h => by cases h)

theorem State.doRevoke_active {a : RevokeD} {c : Cmd} (hflag : c.hdr.flag 0 = false) (hpeer : a.peerIndex = 0) (hg : e.byHandle a.handle = some (i, g))
    (hd : g.domain = c.hdr.domain) (hst : g.st = .active) (hw : ∀ x ∈ e.cmds.list, ∀ d, x.op = .waitWord d → d.handle ≠ a.handle) :
    e.doRevoke c a = .wait ((e.revoking c i g).drained (.handle a.handle))
      (if (((e.revoking c i g).drained (.handle a.handle)).cmd c.id).isSome then .drain else .none) 0 := by
  unfold State.doRevoke
  dsimp only
  rw [hflag, if_neg (by decide), if_neg (not_not_intro hpeer), hg]
  dsimp only
  rw [if_neg (not_not_intro hd), hst]
  dsimp only
  rw [State.startRevoke_alone hg hw]
  change (if (((e.revoking c i g).drained (.handle a.handle)).cmd c.id).isSome then _ else _) = _
  split <;> rfl

theorem State.doRevoke_unknown {a : RevokeD} {c : Cmd} (hflag : c.hdr.flag 0 = false) (hpeer : a.peerIndex = 0) (hg : e.byHandle a.handle = none) :
    e.doRevoke c a = .done e { status := stRegionRevoked } := by
  unfold State.doRevoke
  dsimp only
  rw [hflag, if_neg (by decide), if_neg (not_not_intro hpeer), hg]

/-- A region with something under way has not drained. -/
theorem State.drained_waits {h : Nat} (hg : s.byHandle h = some (i, g)) (hdrain : g.drain ≠ 0) : s.drained (.handle h) = s := by
  rw [State.drained, hg]
  exact if_neg fun hd => hdrain hd.2

/-- A revoke of a region with something under way waits (R351). -/
theorem State.revokes_wait {a : RevokeD} (h : s.admits q (.regionRevoke a) = true) (he : e = s.admitted q (.regionRevoke a))
    (hflag : q.hdr.flag 0 = false) (hpeer : a.peerIndex = 0) (hg : e.byHandle a.handle = some (i, g)) (hd : g.domain = q.hdr.domain)
    (hst : g.st = .active) (hdrain : g.drain ≠ 0) (hw : ∀ x ∈ e.cmds.list, ∀ d, x.op = .waitWord d → d.handle ≠ a.handle) :
    ∃ t, exec (.regionRevoke q a) s = .next t ∧
      t.cmd (s.newCmd q (.regionRevoke a) false).id = some { s.newCmd q (.regionRevoke a) false with wait := .drain } ∧
      t.region i = some (revokingRegion g) ∧ t = { e with cmds := t.cmds, net := { e.net with regions := t.net.regions } } := by
  have hrun := State.doRevoke_active (c := s.newCmd q (.regionRevoke a) false) hflag hpeer hg hd hst hw
  have hcmd : (e.revoking (s.newCmd q (.regionRevoke a) false) i g).cmd (s.newCmd q (.regionRevoke a) false).id =
      some { s.newCmd q (.regionRevoke a) false with wait := .drain } := by
    subst he
    exact State.find_setCmd (c := { s.newCmd q (.regionRevoke a) false with wait := .drain }) (State.admitted_cmd s q (.regionRevoke a))
  have hstays : (e.revoking (s.newCmd q (.regionRevoke a) false) i g).drained (.handle a.handle) = e.revoking (s.newCmd q (.regionRevoke a) false) i g :=
    State.drained_waits (i := i) (g := revokingRegion g) (State.byHandle_revoking _ hg) hdrain
  rw [← State.runOp_revoke a, hstays, hcmd] at hrun
  refine ⟨_, (exec_regionRevoke ..).trans (State.inService_keeps (State.admits_elim h).1 ?_ ?_ ?_),
    State.find_setCmd (c := { s.newCmd q (.regionRevoke a) false with wait := .drain }) hcmd, State.region_setRegion .., rfl⟩
  · rw [State.command_runs h, ← he, State.run, hrun, State.applyRes]
    dsimp only
    rw [hcmd]
    rfl
  · exact (congrArg State.pending he).trans (s.admitted_pending ..)
  · exact (congrArg State.nrt he).trans (s.admitted_nrt ..)

/-- A revoke of a region with nothing under way ends it at once (R351, R352). -/
theorem State.revokes_end {a : RevokeD} (h : s.admits q (.regionRevoke a) = true) (he : e = s.admitted q (.regionRevoke a))
    (hflag : q.hdr.flag 0 = false) (hpeer : a.peerIndex = 0) (hg : e.byHandle a.handle = some (i, g)) (hd : g.domain = q.hdr.domain)
    (hst : g.st = .active) (hdrain : g.drain = 0) (hw : ∀ x ∈ e.cmds.list, ∀ d, x.op = .waitWord d → d.handle ≠ a.handle) :
    ∃ t, exec (.regionRevoke q a) s = .next t ∧ t.cmd (s.newCmd q (.regionRevoke a) false).id = none ∧
      t.region i = some (blankRegion (if g.gen = 65535 then 1 else g.gen + 1)) ∧
      t.rused q.hdr.domain = e.rused q.hdr.domain - 256 * g.chunks.length ∧
      t = { e with mem := t.mem, rf := t.rf, host := t.host, cmds := t.cmds, net := t.net, kv := t.kv } := by
  have hrun := State.doRevoke_active (c := s.newCmd q (.regionRevoke a) false) hflag hpeer hg hd hst hw
  have hcmd : (e.revoking (s.newCmd q (.regionRevoke a) false) i g).cmd (s.newCmd q (.regionRevoke a) false).id =
      some { s.newCmd q (.regionRevoke a) false with wait := .drain } := by
    subst he
    exact State.find_setCmd (c := { s.newCmd q (.regionRevoke a) false with wait := .drain }) (State.admitted_cmd s q (.regionRevoke a))
  have hrevoke : { s.newCmd q (.regionRevoke a) false with wait := .drain } ∈
      (e.revoking (s.newCmd q (.regionRevoke a) false) i g).revokesOf (.handle a.handle) := by
    refine List.mem_filter.mpr ⟨List.mem_of_find?_eq_some hcmd, ?_⟩
    simp [State.newCmd, hflag]
  have hkeeps : e.revoking (s.newCmd q (.regionRevoke a) false) i g = { e with
      cmds := (e.revoking (s.newCmd q (.regionRevoke a) false) i g).cmds, net := (e.revoking (s.newCmd q (.regionRevoke a) false) i g).net } := rfl
  have hbyh : (e.revoking (s.newCmd q (.regionRevoke a) false) i g).byHandle a.handle = some (i, revokingRegion g) :=
    State.byHandle_revoking _ hg
  have hruse : (e.revoking (s.newCmd q (.regionRevoke a) false) i g).rused g.domain = e.rused g.domain := rfl
  obtain ⟨hregion, hends, -, hused, hk⟩ := State.drained_region hbyh rfl hdrain rfl
  generalize e.revoking (s.newCmd q (.regionRevoke a) false) i g = r at *
  have hend : (r.drained (.handle a.handle)).cmd (s.newCmd q (.regionRevoke a) false).id = none :=
    hends { s.newCmd q (.regionRevoke a) false with wait := .drain } hrevoke
  rw [← State.runOp_revoke a, hend] at hrun
  generalize r.drained (.handle a.handle) = t at *
  have hall : t = { e with mem := t.mem, rf := t.rf, host := t.host, cmds := t.cmds, net := t.net, kv := t.kv } := by
    rw [hk, hkeeps]
  refine ⟨t, (exec_regionRevoke ..).trans (State.inService_keeps (State.admits_elim h).1 ?_ ?_ ?_), hend, hregion, ?_, hall⟩
  · rw [State.command_runs h, ← he, State.run, hrun, State.applyRes, hend]
  · rw [hall, he]
    exact s.admitted_pending ..
  · rw [hall, he]
    exact s.admitted_nrt ..
  · rw [← hd, ← hruse]
    exact hused

/-- The end of a drained peer entry (R353). -/
theorem State.drained_peer {d : Nat} {p : PeerEntry} (hp : s.peer d i = some p) (hst : p.st = .revoking) (hdrain : p.drain = 0)
    (ht : s.drained (.peer d i) = t) : t.peer d i = some { p with st := .revoked } ∧ (∀ c ∈ s.revokesOf (.peer d i), t.cmd c.id = none) ∧
      t = { s with mem := t.mem, rf := t.rf, host := t.host, cmds := t.cmds, net := t.net } := by
  have hgo : s.drained (.peer d i) = (s.endRevokes (.peer d i) p.drained p.refused).setPeer d i { p with st := .revoked } := by
    rw [State.drained, hp]
    exact if_pos ⟨hst, hdrain⟩
  obtain ⟨hcmd, hk⟩ := s.endRevokes_outcome (.peer d i) p.drained p.refused
  have hk := State.eq_of_unanswered hk
  rw [hgo] at ht
  subst ht
  generalize s.endRevokes (.peer d i) p.drained p.refused = w at *
  refine ⟨AL.get_put .., hcmd, ?_⟩
  exact (congrArg (fun u : State => ({ u with net := (w.setPeer d i { p with st := .revoked }).net } : State)) hk :)

end Sys2Proof.Machine
end

section
open Sys2Proof Sys2Proof.Machine

/-- Settles O49: what a registration makes is its operation's result (the `doRegister_…` lemmas); a revoke waits or ends at once as something
is under way in its region or not, and `drained_region` says all that the end of a region leaves. -/
theorem regionsComeAndGo : Obligations.RegionsComeAndGo := by
  unfold Obligations.RegionsComeAndGo
  refine ⟨fun s e q a i h he hok hkind hcount hquota hi => ?_, fun s e v q a i l h he hok hkind hcount hquota hi hl hwf => ?_,
    fun s e q a k h he hok hkind hk => ?_, fun s e q a h he hok hkind hfull => ?_,
    fun s e q a i g h he hflag hpeer hg hd hst hdrain hw => State.revokes_wait h he hflag hpeer hg hd hst hdrain hw,
    fun s e q a i g h he hflag hpeer hg hd hst hdrain hw => State.revokes_end h he hflag hpeer hg hd hst hdrain hw,
    fun s e q a h he hflag hpeer hg => ?_, fun s h i g hrun hg hst hdrain => ?_, fun s d i p hrun hp hst hdrain => ?_⟩
  · subst he
    refine ⟨(s.admitted q (.regionRegister a)).setRegion i ((s.admitted q (.regionRegister a)).newRegion q.hdr a i),
      (s.admitted q (.regionRegister a)).newRegion q.hdr a i, (exec_regionRegister ..).trans (State.inService_ends_desk h ?_ rfl rfl), State.region_setRegion .., rfl, rfl, hkind, rfl, rfl, rfl, rfl,
      rfl, rfl, rfl, rfl⟩
    rw [State.runOp_register, State.doRegister_area hok hcount hquota hi hkind]
  · have hplaced := State.rackPlaced_unplaced (m := 256 * l.length) hl
    have hused := State.rackPlaced_rused (m := 256 * l.length) hl
    have hzero (c : Nat × Nat) (hc : c ∈ l) (b : Nat) (hb : b < 65536) :
        (l.foldl (fun (s : State) c => s.zeroRack c.1 c.2) v).mem.read (rackAddr c.1 (c.2 * 65536 + b)) = 0 :=
      State.foldl_zeroRack_read l (by rwa [congrArg State.mem (State.eq_of_outside (State.outside_of_recorded (State.regionChunks_keeps hl).1))])
        (.inl ⟨c, hc, b, hb, rfl⟩)
    have hrun := (State.runOp_register (s := s) (q := q) a).trans (State.doRegister_rack hok hcount hquota hi hkind hl)
    have hzero : ∀ c ∈ l, ∀ b < 65536, ((l.foldl (fun (s : State) c => s.zeroRack c.1 c.2) v).charge q.hdr.domain (256 * l.length)).mem.read
      (rackAddr c.1 (c.2 * 65536 + b)) = 0 := hzero
    generalize (l.foldl (fun (s : State) c => s.zeroRack c.1 c.2) v).charge q.hdr.domain (256 * l.length) = w at *
    have hw := State.eq_of_unplaced hplaced
    subst he
    refine ⟨w.setRegion i { (s.admitted q (.regionRegister a)).newRegion q.hdr a i with chunks := l }, _,
      (exec_regionRegister ..).trans (State.inService_ends_desk h hrun ?_ (congrArg State.ckpt hw :)), State.region_setRegion .., rfl, rfl, hkind, rfl, rfl, rfl,
      rfl, rfl, rfl, hzero, hused, ?_⟩
    · exact State.desk_congr (congrArg State.pending hw :) (congrArg State.nrt hw :) (congrArg State.cmds hw :)
    · have hset (n : List (Nat × Region)) : ({ w with net := { w.net with regions := n } } : State) = { s.admitted q (.regionRegister a) with
          mem := w.mem, rf := w.rf, host := w.host, kv := w.kv, net := { (s.admitted q (.regionRegister a)).net with regions := n }
          integ := { (s.admitted q (.regionRegister a)).integ with pend := w.integ.pend } } := by
        conv_lhs => rw [hw]
      exact hset _
  · subst he
    refine ⟨(s.admitted q (.regionRegister a)).setPeer q.hdr.domain a.peerIndex ⟨.active, connId k, a.peerHandle, a.length, a.rights, 0, 0, 0⟩,
      (exec_regionRegister ..).trans (State.inService_ends_desk h ?_ rfl rfl), AL.get_put .., rfl⟩
    rw [State.runOp_register, State.doRegister_peer hok hkind hk]
  · subst he
    refine (exec_regionRegister ..).trans (State.inService_ends_desk h ?_ rfl rfl)
    rw [State.runOp_register, State.doRegister_full hok hkind hfull]
  · subst he
    refine (exec_regionRevoke ..).trans (State.inService_ends_desk h ?_ rfl rfl)
    rw [State.runOp_revoke, State.doRevoke_unknown hflag hpeer hg]
  · obtain ⟨hregion, hends, hchunks, hused, hk⟩ := State.drained_region hg hst hdrain rfl
    exact ⟨_, (exec_regionDrained ..).trans (State.inService_keeps (f := (·.drained (.handle h))) hrun rfl (congrArg State.pending hk :)
      (congrArg State.nrt hk :)), hregion, hends, hchunks, hused, hk⟩
  · obtain ⟨hpeer, hends, hk⟩ := State.drained_peer hp hst hdrain rfl
    exact ⟨_, (exec_regionDrained ..).trans (State.inService_keeps (f := (·.drained (.peer d i))) hrun rfl (congrArg State.pending hk :)
      (congrArg State.nrt hk :)), hpeer, hends, hk⟩

end

section
/-!
SUPPORT. Paths and ends of connections (R312, R313, R317, R328, R330, R331): what changes a connection's paths, a field of one bit, and the
steps of a connection's timers.
-/

namespace Sys2Proof.Machine

variable {s t u : State} {i path : Nat} {c d : Conn}

/-! ### Connections -/

theorem State.conn_congr (h : t.net.conns = s.net.conns) (i : Nat) : t.conn i = s.conn i := by rw [State.conn, State.conn, h]

/-- A connection set under the index of one that stands. -/
theorem State.conn_set (hc : s.conn i = some c) (hi : d.index = c.index) (u : State) : (u.setConn d).conn i = some d := by
  obtain ⟨hk, hci⟩ := State.conn_index hc
  exact State.conn_setConn hk (hi.trans hci) u

theorem State.conn_unique {j : Nat} (hc : s.conn i = some c) (hd : s.conn j = some d) (h : d.index = c.index) : d = c := by
  obtain ⟨hi, hci⟩ := State.conn_index hc
  obtain ⟨hj, hdj⟩ := State.conn_index hd
  rw [State.conn, if_neg hi, ← hci] at hc
  rw [State.conn, if_neg hj, ← hdj, h] at hd
  exact Option.some.inj (hd.symm.trans hc)

theorem State.conn_setConn_ne (hc : u.conn i = some c) (h : d.index ≠ c.index) (v : State) (hv : v = u := by rfl) : (v.setConn d).conn i = some c := by
  subst hv
  obtain ⟨hi, hci⟩ := State.conn_index hc
  rw [State.conn, if_neg hi, ← hci] at hc ⊢
  exact (congrArg _ (AL.get_put_ne (Ne.symm h) ..)).trans hc

/-- A freed connection is no more. -/
theorem State.conn_freeConn (hc : s.conn i = some c) (u : State) : (u.freeConn c).conn i = none := by
  obtain ⟨hk, hci⟩ := State.conn_index hc
  rw [State.conn, if_neg hk, ← hci]
  exact congrArg (Option.map _) (AL.get_del _ _)

/-- With nothing out and no job, the end of a connection ends nothing else. -/
theorem State.connGone_alone (hout : s.net.outbound = []) (hjobs : s.eng.jobs = []) (c : Conn) : s.connGone c = s := by
  simp only [State.connGone, hout, hjobs, List.filter_nil, List.foldl_nil]

theorem State.noteGone_open {old : State} (h : s.conn i = some d) : State.noteGone old s i = s := by
  rw [State.noteGone, h]
  cases old.conn i <;> rfl

/-! ### The paths of a connection -/

/-- Paths of which one is changed. -/
def setPath (i : Nat) (f : Path → Path) (l : List Path) : List Path := l.zipIdx.map (fun x => if x.2 = i then f x.1 else x.1)

theorem getElem?_setPath (i j : Nat) (f : Path → Path) (l : List Path) : (setPath i f l)[j]? = (l[j]?).map (fun q => if j = i then f q else q) := by
  rw [setPath, List.getElem?_map, List.getElem?_zipIdx, Option.map_map, Nat.zero_add]
  rfl

theorem addPath_index (c : Conn) (port sub addr udp now : Nat) : (addPath c port sub addr udp now).index = c.index := by
  unfold addPath
  split
  · rfl
  · split <;> rfl

theorem downPath_eq (c : Conn) (i now : Nat) : (downPath c i now).1 = { c with
    paths := setPath i (fun q => { q with up := false, probeAt := now }) c.paths
    unacked := c.unacked.filter (fun p => !(p.path == i))
    resend := c.resend ++ (c.unacked.filter (fun p => p.path == i)).map (fun p => (p.lane, p.msgId, p.offset)) } := rfl

/-- A path after some of its connection's paths went down. -/
theorem downPaths_up (l : List Nat) (c : Conn) (now : Nat) {j : Nat} {q : Path} (hq : (l.foldl (fun c i => (downPath c i now).1) c).paths[j]? = some q) :
    ∃ p, c.paths[j]? = some p ∧ q.port = p.port ∧ q.sub = p.sub ∧ (q.up = true → p.up = true ∧ j ∉ l) := by
  induction l generalizing c with
  | nil => exact ⟨q, hq, rfl, rfl, fun h => ⟨h, List.not_mem_nil⟩⟩
  | cons i l ih =>
    obtain ⟨p, hp, hport, hsub, hup⟩ := ih _ hq
    change (downPath c i now).1.paths[j]? = some p at hp
    rw [downPath_eq, getElem?_setPath, Option.map_eq_some_iff] at hp
    obtain ⟨r, hr, rfl⟩ := hp
    by_cases hji : j = i
    · rw [if_pos hji] at hport hsub hup
      exact ⟨r, hr, hport, hsub, fun h => absurd (hup h).1 Bool.false_ne_true⟩
    · rw [if_neg hji] at hport hsub hup
      exact ⟨r, hr, hport, hsub, fun h => ⟨(hup h).1, by simp [hji, (hup h).2]⟩⟩

/-! ### Fields of one bit -/

theorem pgPort_ne_pgHlnk {p : Nat} (hp : p < 8) (l : Link) : pgPort p ≠ pgHlnk l := by
  cases l <;> simp only [pgPort, pgHlnk] <;> omega

/-- A one-bit field that is cleared, with the rest of its word as it was. -/
theorem setBits_zero (w : Word) {i : Nat} (hi : i < 32) : setBits w i 1 0 = w &&& ~~~BitVec.twoPow 32 i := by
  rw [setBits, bitsOf_one, Nat.zero_mod, Nat.zero_mul, Nat.add_zero]
  cases hb : w.getLsbD i
  · have hoff (j : Nat) (hj : j < 32) : (w &&& ~~~BitVec.twoPow 32 i).getLsbD j = w.getLsbD j := by
      by_cases hji : i = j
      · subst hji
        simp [hb]
      · simp [hj, Ne.symm hji]
    rw [BitVec.eq_of_getLsbD_eq hoff]
    simp
  · have hpow : 2 ^ i < 2 ^ 32 := Nat.pow_lt_pow_right (by decide) hi
    have hle : 2 ^ i ≤ w.toNat := Nat.ge_two_pow_of_testBit hb
    have hsum : (w &&& ~~~BitVec.twoPow 32 i) + BitVec.twoPow 32 i = w := by
      rw [BitVec.add_eq_or_of_and_eq_zero _ _ (by simp [BitVec.and_assoc])]
      refine BitVec.eq_of_getLsbD_eq fun j hj => ?_
      by_cases hji : i = j
      · subst hji
        simp [hb, hj]
      · simp [hj, Ne.symm hji]
    rw [BitVec.eq_sub_iff_add_eq.mpr hsum]
    refine BitVec.eq_of_toNat_eq ?_
    have htwo : (BitVec.twoPow 32 i).toNat = 2 ^ i := by rw [BitVec.toNat_twoPow, Nat.mod_eq_of_lt hpow]
    rw [BitVec.toNat_sub_of_le (by rwa [BitVec.le_def, htwo]), htwo, show true.toNat = 1 from rfl, Nat.one_mul, BitVec.toNat_ofNat]
    exact Nat.mod_eq_of_lt (by have := w.isLt; omega)

theorem State.fld_setFld_zero (s : State) (pg off : Nat) {i : Nat} (hi : i < 32) (j : Nat) :
    (s.setFld pg off i 1 0).fld pg off j 1 = if j = i then 0 else s.fld pg off j 1 := by
  rw [State.fld, State.fld, State.setFld, State.reg_setReg, setBits_zero _ hi, bitsOf_one, bitsOf_one, BitVec.getLsbD_and, BitVec.getLsbD_not,
    BitVec.getLsbD_twoPow]
  by_cases hj : j = i
  · simp [hj, hi]
  · cases hw : (s.reg pg off).getLsbD j
    · simp [hj]
    · simp [hj, Ne.symm hj, BitVec.lt_of_getLsbD hw]

/-! ### The steps -/

theorem exec_pathProbe (i path : Nat) (src : Path) (s : State) : exec (.pathProbe i path src) s = s.inService (·.probeIn i path src) := rfl
theorem exec_pathReply (i path : Nat) (s : State) : exec (.pathReply i path) s = s.inService (·.probeAnswered i path) := rfl
theorem exec_probeTimer (i path : Nat) (s : State) : exec (.probeTimer i path) s = s.inService (·.probeTick i path) := rfl
theorem exec_rtoExpire (i psn : Nat) (s : State) : exec (.rtoExpire i psn) s = s.inService (·.timedOut i psn) := rfl
theorem exec_close (i : Nat) (s : State) : exec (.close i) s = s.inService (fun s => (s.closeIn i).tryCloseAck i) := rfl
theorem exec_closeAck (i : Nat) (s : State) : exec (.closeAck i) s = s.inService (·.closeAcked i) := rfl
theorem exec_connFetchDone (i : Nat) (s : State) :
    exec (.connFetchDone i) s = s.inService (fun s => ((s.connFetched i).deliverMsgs i).admitConn i) := rfl
theorem exec_sublinkLinkLoss {p b : Nat} (hp : p < 8) (hb : b < 2) (s : State) :
    exec (.sublinkLinkLoss p b) s = s.inService (·.sublinkLost p b) := by
  change s.inService (onSublink p b (·.sublinkLost p b)) = _
  unfold onSublink
  simp only [hp, hb, and_self, if_true]
theorem exec_portLinkUp {p b : Nat} (hp : p < 8) (hb : b < 2) (s : State) : exec (.portLinkUp p b) s = s.inService (·.sublinkUp p b) := by
  change s.inService (onSublink p b (·.sublinkUp p b)) = _
  unfold onSublink
  simp only [hp, hb, and_self, if_true]

/-- The connection after an answer to a probe of one of its paths. -/
def raisedPath (c : Conn) (path now : Nat) : Conn := { c with paths := setPath path (fun q => { q with up := true, probes := 0, probeAt := now }) c.paths }

theorem getElem?_raisedPath (c : Conn) (path now j : Nat) : (raisedPath c path now).paths[j]? =
    (c.paths[j]?).map (fun q => if j = path then { q with up := true, probes := 0, probeAt := now } else q) :=
  getElem?_setPath path j (fun q => { q with up := true, probes := 0, probeAt := now }) c.paths

theorem State.probeAnswered_eq (hc : s.conn i = some c) : s.probeAnswered i path = s.setConn (raisedPath c path s.nrt) := by
  rw [State.probeAnswered, hc]
  rfl

/-- The connection after a probe was sent on one of its paths. -/
def probed (c : Conn) (path now : Nat) : Conn := { c with paths := setPath path (fun q => { q with probes := q.probes + 1, probeAt := now }) c.paths }

theorem getElem?_probed (c : Conn) (path now j : Nat) : (probed c path now).paths[j]? =
    (c.paths[j]?).map (fun q => if j = path then { q with probes := q.probes + 1, probeAt := now } else q) :=
  getElem?_setPath path j (fun q => { q with probes := q.probes + 1, probeAt := now }) c.paths

theorem State.probeTick_eq {q : Path} (hc : s.conn i = some c) (hq : c.paths[path]? = some q) (hup : q.up = true) (hat : q.probeAt + s.probeUs ≤ s.nrt)
    (hidle : q.probes < 3 → ∀ k ∈ c.unacked, k.path ≠ path) : ∃ n, s.probeTick i path =
      ((s.setConn (probed (if 3 ≤ q.probes then (downPath c path s.nrt).1 else c) path s.nrt)).sendCtl i (.probe path)).bump pgXprt 0x134 n := by
  have hgo : ¬ (s.nrt < q.probeAt + s.probeUs ∨ (q.up = false ∧ s.linkUp q.port q.sub = false) ∨
      (q.up = true ∧ q.probes < 3 ∧ c.unacked.any (fun k => k.path == path) = true)) := by
    rintro (h | ⟨h, -⟩ | ⟨-, hlt, h⟩)
    · omega
    · exact absurd (hup.symm.trans h) (by decide)
    · obtain ⟨k, hk, hkp⟩ := List.any_eq_true.mp h
      exact hidle hlt k hk (by simpa using hkp)
  unfold State.probeTick
  simp only [hc, hq, if_neg hgo]
  simp only [hup, Bool.true_and, decide_eq_true_eq]
  by_cases h3 : 3 ≤ q.probes
  · exact ⟨_, by rw [if_pos h3, if_pos h3]; rfl⟩
  · exact ⟨_, by rw [if_neg h3, if_neg h3]; rfl⟩

/-- A connection after a packet's timeout, before the packet is sent again: its RATE halved. -/
def State.slowed (s : State) (c : Conn) : Conn := { c with backoff := c.backoff + 1, rate := max s.minRate (c.rate / 2) }

theorem State.rtoExpired_resends {psn : Nat} {p : SentPkt} (hc : s.conn i = some c)
    (hp : c.unacked.find? (fun x => x.psn == psn && decide (x.sentAt + s.rto c ≤ s.nrt)) = some p) (hack : c.closeAck = none)
    (htries : c.closeTries < s.retxMax) (hback : c.backoff + 1 < s.retxMax) :
    ∃ d n, (s.rtoExpired i psn).1 = (s.setConn d).bump pgXprt 0x134 n ∧ d.index = c.index ∧ d.backoff = c.backoff + 1 ∧ d.rate = max s.minRate (c.rate / 2) ∧
      (∀ x ∈ d.unacked, x.psn ≠ psn) ∧ (p.lane, p.msgId, p.offset) ∈ d.resend := by
  have hown : b2n (p.lane == .control && c.closeAck == some p.msgId) = 0 := by simp [hack, b2n]
  unfold State.rtoExpired
  simp only [hc, hp, hown, Nat.add_zero, if_neg (Nat.not_le.mpr htries), if_neg (Nat.not_le.mpr hback)]
  refine ⟨(downPath (resendPkts (s.slowed c) (fun x => x.psn == psn)).1 p.path s.nrt).1, _, rfl, rfl, rfl, rfl, fun x hx => ?_, ?_⟩
  · have hx := (List.mem_filter.mp (show x ∈ List.filter _ (c.unacked.filter (fun x => !(x.psn == psn))) from hx)).1
    simpa using (List.mem_filter.mp hx).2
  · have hmem : p ∈ c.unacked.filter (fun x => x.psn == psn) := by
      refine List.mem_filter.mpr ⟨List.mem_of_find?_eq_some hp, ?_⟩
      have := List.find?_some hp
      rw [Bool.and_eq_true] at this
      exact this.1
    exact List.mem_append_left _ (List.mem_append_right _ (List.mem_map_of_mem (f := fun p : SentPkt => (p.lane, p.msgId, p.offset)) hmem))

theorem State.rtoExpired_dies {psn : Nat} {p : SentPkt} (hc : s.conn i = some c)
    (hp : c.unacked.find? (fun x => x.psn == psn && decide (x.sentAt + s.rto c ≤ s.nrt)) = some p) (hack : c.closeAck = none)
    (htries : c.closeTries < s.retxMax) (hback : s.retxMax ≤ c.backoff + 1) :
    (s.rtoExpired i psn).1 = (((s.freeConn c).bump pgXprt 0x14C 1).setIrq pgXprt 8) := by
  have hown : b2n (p.lane == .control && c.closeAck == some p.msgId) = 0 := by simp [hack, b2n]
  unfold State.rtoExpired
  simp only [hc, hp, hown, Nat.add_zero, if_neg (Nat.not_le.mpr htries), if_pos hback]
  rfl

/-- The connection whose CLOSE_ACK waits to be sent. -/
def ackedClose (c : Conn) (time : Nat) : Conn :=
  queuedOn { c with closing := true, closeAck := some (AL.getD Lane.control 0 c.nextMsg) } .control 0 (leBytes 4 3) time

theorem State.close_acknowledges (hc : s.conn i = some c) (hown : c.ownClose = false) (hack : c.closeAck = none) (hmsgs : c.msgs = [])
    (hin : ∀ m ∈ c.inMsgs, m.lane = .request → m.complete = false) (hcmds : ∀ k ∈ s.cmds.list, ∀ m, k.src ≠ .conn c.index m) :
    (s.closeIn i).tryCloseAck i = (s.setConn { c with closing := true }).setConn (ackedClose c s.nrt) := by
  have hbusy : s.cmds.list.any (fun k => match k.src with | .conn x _ => x == c.index | .ring _ => false) = false := by
    refine List.any_eq_false.mpr fun k hk h => ?_
    split at h
    next x m hsrc => exact hcmds k hk m (by rw [hsrc, beq_iff_eq.mp h])
    · cases h
  have hwaits : c.inMsgs.any (fun m => m.lane == .request && m.complete) = false := by
    refine List.any_eq_false.mpr fun m hm h => ?_
    rw [Bool.and_eq_true, beq_iff_eq] at h
    exact absurd ((hin m hm h.1).symm.trans h.2) (by decide)
  have hset : (s.setConn { c with closing := true }).conn i = some { c with closing := true } :=
    State.conn_set (d := { c with closing := true }) hc rfl s
  have hlist : (s.setConn { c with closing := true }).cmds.list = s.cmds.list := rfl
  rw [State.closeIn, hc]
  unfold State.tryCloseAck
  dsimp only
  rw [hset]
  dsimp only
  refine if_pos ?_
  rw [hlist, hown, hack, hmsgs]
  simp only [Bool.and_eq_true, Bool.not_eq_true', Option.isNone_none, List.isEmpty_nil, and_true, true_and]
  exact ⟨hbusy, hwaits⟩

/-! ### The fetch of a connection's state (R317) -/

/-- The connection whose state has been fetched. -/
def fetched (c : Conn) (now : Nat) : Conn := { c with cached := true, fetching := false, usedAt := now }

/-- The fetch that a waiting packet starts. -/
def State.fetchFor (s : State) (p : DataPkt) : State := match s.conn p.index with
  | none => s
  | some c => if c.cached || c.fetching || decide (64 ≤ s.fetches p.port) then s else s.setConn { c with fetching := true }

theorem State.startFetches_cached (hc : s.conn i = some c) (hcached : c.cached = true) : s.startFetches.conn i = some c ∧
    s.startFetches = { s with net := { s.net with conns := s.startFetches.net.conns } } := by
  have hfold (l : List DataPkt) (u : State) (hu : u.conn i = some c) (hk : u = { s with net := { s.net with conns := u.net.conns } }) :
      (l.foldl State.fetchFor u).conn i = some c ∧
        l.foldl State.fetchFor u = { s with net := { s.net with conns := (l.foldl State.fetchFor u).net.conns } } := by
    induction l generalizing u with
    | nil => exact ⟨hu, hk⟩
    | cons p l ih =>
      refine ih (u.fetchFor p) ?_ ?_
      · unfold State.fetchFor
        split
        · exact hu
        next d hd =>
          split
          · exact hu
          · next hgo =>
            refine State.conn_setConn_ne hu (fun h => hgo ?_) _
            have h : d.index = c.index := h
            rw [State.conn_unique hu hd h, hcached]
            rfl
      · unfold State.fetchFor
        split
        · exact hk
        · split
          · exact hk
          · exact (congrArg (fun w : State => ({ w with net := { w.net with conns := AL.put _ _ u.net.conns } } : State)) hk :)
  exact hfold s.net.parked s hc rfl

/-- The least recently used connection leaves a full cache. -/
def State.evictCached (s : State) : State :=
  let cachedNow := s.net.conns.filter (fun k => k.2.cached)
  if cachedNow.length < 8192 then s
  else match cachedNow with
    | [] => s
    | k :: ks =>
      let v := ks.foldl (fun b x => if x.2.usedAt < b.2.usedAt then x else b) k
      s.setConn { v.2 with cached := false }

theorem State.evictCached_eq (s : State) : s.evictCached = { s with net := { s.net with conns := s.evictCached.net.conns } } := by
  unfold State.evictCached
  dsimp only
  split
  · rfl
  · split <;> rfl

theorem State.connFetched_alone (hc : s.conn i = some c) (hf : c.fetching = true) (hp : ∀ p ∈ s.net.parked, p.index ≠ c.index) :
    (s.connFetched i).conn i = some (fetched c s.nrt) ∧
    s.connFetched i = { s with net := { s.net with conns := (s.connFetched i).net.conns } } := by
  have hparked : s.net.parked.filter (fun p => p.index != c.index) = s.net.parked :=
    List.filter_eq_self.mpr fun p h => by simpa using hp p h
  have hwait : s.net.parked.filter (fun p => p.index == c.index) = [] :=
    List.filter_eq_nil_iff.mpr fun p h => by simpa using hp p h
  have hevict := s.evictCached_eq
  have hgo : s.connFetched i = (s.evictCached.setConn (fetched c s.nrt)).startFetches := by
    have hall (e : State) (he : e = { s with net := { s.net with conns := e.net.conns } }) :
        ((e.net.parked.filter (fun p => p.index == c.index)).foldl (fun (s : State) (p : DataPkt) => match s.conn p.index with
          | none => s
          | some c => s.dataCached c p) ({ e.setConn (fetched c e.nrt) with
            net := { (e.setConn (fetched c e.nrt)).net with parked := e.net.parked.filter (fun p => p.index != c.index) } })).startFetches =
          (e.setConn (fetched c s.nrt)).startFetches := by
      have hpk : e.net.parked = s.net.parked := (congrArg (fun u : State => u.net.parked) he :)
      have hn : e.nrt = s.nrt := (congrArg State.nrt he :)
      rw [hn, hpk, hwait, hparked, ← hpk]
      rfl
    rw [← hall _ hevict]
    unfold State.connFetched
    simp only [hc, hf]
    rfl
  obtain ⟨hconn, hk⟩ := State.startFetches_cached (c := fetched c s.nrt) (State.conn_set (d := fetched c s.nrt) hc rfl s.evictCached) rfl
  rw [hgo]
  refine ⟨hconn, hk.trans ?_⟩
  exact (congrArg (fun u : State => ({ u with net := { u.net with
    conns := (s.evictCached.setConn (fetched c s.nrt)).startFetches.net.conns } } : State)) hevict :)

/-! ### A connection with no message whole -/

section Idle
variable (hc : s.conn i = some c) (hin : ∀ m ∈ c.inMsgs, m.complete = false)
include hc hin

theorem State.deliverMsgs_idle : s.deliverMsgs i = s := by
  have hnone : c.inMsgs.filter (fun m => m.complete && m.lane != .request) = [] :=
    List.filter_eq_nil_iff.mpr fun m hm => by simp [hin m hm]
  simp only [State.deliverMsgs, hc, hnone, List.foldl_nil]

theorem State.admitConn_idle (hskip : c.skipped = []) (hheld : c.held = []) : s.admitConn i = s.setConn c := by
  have hsettle : Conn.settleN c = c := by
    cases c
    simp only at hskip
    subst hskip
    rfl
  have hreq : Conn.request c c.nextReq = none := List.find?_eq_none.mpr fun m hm => by simp [hin m hm]
  have hnone : (if s.xprtAdmits && s.unitAdmits pgIngp then Conn.request c c.nextReq else none) = none := by rw [hreq, ite_self]
  have hstays (n : Nat) : State.releaseHeld i (n + 1) s = s := by
    rw [State.releaseHeld, hc]
    dsimp only
    rw [hheld]
  unfold State.admitConn
  rw [hc, Option.elim, hheld]
  dsimp only [List.length_nil]
  rw [Nat.zero_add, hstays, State.admitNext, hc]
  dsimp only
  rw [hsettle, hnone]

end Idle

/-! ### The link of a sublink (R330, R331) -/

/-- The paths of a connection that go down with a sublink. -/
def downWith (p b : Nat) (c : Conn) : List Nat := (c.paths.zipIdx.filter (fun q => q.1.port == p && q.1.sub == b && q.1.up)).map (·.2)

theorem mem_downWith {p b j : Nat} {q : Path} (hq : c.paths[j]? = some q) (hp : q.port = p) (hb : q.sub = b) (hup : q.up = true) : j ∈ downWith p b c := by
  refine List.mem_map.mpr ⟨(q, j), List.mem_filter.mpr ⟨?_, by simp [hp, hb, hup]⟩, rfl⟩
  exact List.mem_zipIdx_iff_getElem?.mpr hq

/-- The connections, each with its paths over the sublink down. -/
def State.downConns (s : State) (p b : Nat) : AL Nat Conn :=
  s.net.conns.map (fun x => (x.1, (downWith p b x.2).foldl (fun c i => (downPath c i s.nrt).1) x.2))

theorem State.sublinkLost_eq {p b : Nat} (hup : s.linkUp p b = true) : ∃ re n, s.sublinkLost p b =
    ((((({ s with net := { s.net with conns := s.downConns p b } } : State).setFld (pgPort p) 0x104 (4 + b) 1 0).setFld (pgPort p) 0x104 (2 + b) 1 0).bump
      pgXprt 0x134 re).logErr (pgPort p) 2 b n).setIrq (pgPort p) 1 := by
  unfold State.sublinkLost
  rw [hup]
  exact ⟨_, _, rfl⟩

/-- No path of a connection over a sublink without link is up. -/
theorem State.downConns_down {p b : Nat} (ht : t.net.conns = s.downConns p b) (hd : t.conn i = some d) :
    ∀ q ∈ d.paths, q.port = p → q.sub = b → q.up = false := by
  intro q hq hqp hqb
  obtain ⟨hi, -⟩ := State.conn_index hd
  rw [State.conn, if_neg hi, ht, State.downConns,
    AL.get_map (fun _ c => (downWith p b c).foldl (fun c i => (downPath c i s.nrt).1) c), Option.map_map, Option.map_eq_some_iff] at hd
  obtain ⟨c, -, rfl⟩ := hd
  obtain ⟨j, hj⟩ := List.mem_iff_getElem?.mp hq
  obtain ⟨x, hx, hport, hsub, hup⟩ := downPaths_up (downWith p b c) c s.nrt hj
  refine Bool.eq_false_iff.mpr fun h => ?_
  exact (hup h).2 (mem_downWith hx (hport.symm.trans hqp) (hsub.symm.trans hqb) (hup h).1)

/-- The connections, each with its paths over the sublink probed from now on. -/
def State.wokenConns (s : State) (p b : Nat) : AL Nat Conn := s.net.conns.map (fun x => (x.1, { x.2 with
  paths := x.2.paths.map (fun q => if q.port = p ∧ q.sub = b ∧ q.up = false then { q with probeAt := 0, probes := 0 } else q) }))

theorem State.sublinkUp_eq (s : State) (p b : Nat) : s.sublinkUp p b =
    ({ (s.setFld (pgPort p) 0x104 (4 + b) 1 1).setFld (pgPort p) 0x104 (2 + b) 1 1 with
      net := { s.net with conns := s.wokenConns p b } } : State).setIrq (pgPort p) 1 := rfl

theorem pgXprt_ne_pgHlnk (l : Link) : pgXprt ≠ pgHlnk l := by cases l <;> decide

/-- What the loss of a sublink's link leaves. -/
theorem State.sublinkLost_outcome {p b : Nat} (hp : p < 8) (hb : b < 2) (hup : s.linkUp p b = true) (ht : s.sublinkLost p b = t) :
    t.net.conns = s.downConns p b ∧ t.linkUp p b = false ∧ t = { s with rf := t.rf, host := t.host, net := { s.net with conns := t.net.conns } } := by
  obtain ⟨re, n, hgo⟩ := State.sublinkLost_eq hup
  rw [hgo] at ht
  have hnet : t.net = { s.net with conns := s.downConns p b } := by
    rw [← ht]
    simp
  have hbit : t.fld (pgPort p) 0x104 (4 + b) 1 = 0 := by
    rw [State.fld, ← ht, State.setIrq_reg (pgPort_ne_pgHlnk hp) (by decide), State.logErr_reg (pgPort_ne_pgHlnk hp) (by decide), State.reg,
      State.regI_bump_off (by decide), ← State.reg, ← State.fld, State.fld_setFld_zero _ _ _ (by omega), if_neg (by omega),
      State.fld_setFld_zero _ _ _ (by omega), if_pos rfl]
  refine ⟨congrArg NetState.conns hnet, by rw [State.linkUp, hbit]; rfl, ?_⟩
  rw [hnet]
  exact State.eq_of_groups (by rw [← ht]; simp)

/-- What the return of a sublink's link leaves. -/
theorem State.sublinkUp_outcome {p b : Nat} (hp : p < 8) (hb : b < 2) (ht : s.sublinkUp p b = t) :
    t.linkUp p b = true ∧ t = { s with rf := t.rf, host := t.host, net := { s.net with conns := t.net.conns } } := by
  rw [State.sublinkUp_eq] at ht
  have hnet : t.net = { s.net with conns := s.wokenConns p b } := by
    rw [← ht]
    simp
  have hbit : t.fld (pgPort p) 0x104 (4 + b) 1 = 1 := by
    rw [State.fld, ← ht, State.setIrq_reg (pgPort_ne_pgHlnk hp) (by decide)]
    change State.fld ((s.setFld (pgPort p) 0x104 (4 + b) 1 1).setFld (pgPort p) 0x104 (2 + b) 1 1) (pgPort p) 0x104 (4 + b) 1 = 1
    rw [State.fld_setFld_one _ _ _ (by omega), if_neg (by omega), State.fld_setFld_one _ _ _ (by omega), if_pos rfl]
  refine ⟨by rw [State.linkUp, hbit]; rfl, ?_⟩
  rw [hnet]
  exact State.eq_of_groups (by rw [← ht]; simp)

end Sys2Proof.Machine
end

section
open Sys2Proof Sys2Proof.Machine

/-- Settles O33: each step sets one connection (`probeAnswered_eq`, `probeTick_eq`, `rtoExpired_resends`, `close_acknowledges`), frees one, or
changes the paths over one sublink in all of them. -/
theorem pathsAndEndsOfConnections : Obligations.PathsAndEndsOfConnections := by
  unfold Obligations.PathsAndEndsOfConnections
  refine ⟨fun s i path src c hrun hc => ?_, fun s i path c hrun hc hlt => ?_, fun s i path c q hrun hc hq hup hlt hat hidle => ?_,
    fun s i path c q hrun hc hq hup hge hat => ?_, fun s i psn c p hrun hc hp hack htries hback => ?_,
    fun s i psn c p hrun hc hp hack htries hback hout hjobs => ?_, fun s i c hrun hc hown hack hmsgs hin hcmds => ?_,
    fun s i c hrun hc hown hout hjobs => ?_, fun s i c hrun hc hf hin hskip hheld hp => ?_, fun s p b hrun hp hb hup => ?_, fun s p b hrun hp hb => ?_⟩
  case refine_1 =>
    have hgo : s.probeIn i path src = (s.setConn { addPath c src.port src.sub src.peerAddr src.udpPort s.nrt with usedAt := s.nrt }).sendCtl i
        (.probeReply path (pathOf (addPath c src.port src.sub src.peerAddr src.udpPort s.nrt) src.port src.sub src.peerAddr src.udpPort)) := by
      rw [State.probeIn, hc]
    exact ⟨_, (exec_pathProbe ..).trans (State.inService_keeps hrun hgo rfl rfl),
      State.conn_set (d := { addPath c src.port src.sub src.peerAddr src.udpPort s.nrt with usedAt := s.nrt }) hc (addPath_index ..) s, rfl, rfl⟩
  case refine_2 =>
    refine ⟨_, _, (exec_pathReply ..).trans (State.inService_keeps hrun (State.probeAnswered_eq hc) rfl rfl),
      State.conn_set (d := raisedPath c path s.nrt) hc rfl s, ?_, fun j hj => ?_, rfl⟩
    · rw [getElem?_raisedPath, List.getElem?_eq_getElem hlt]
      simp
    · rw [getElem?_raisedPath]
      simp [hj]
  case refine_3 =>
    obtain ⟨n, hgo⟩ := State.probeTick_eq hc hq hup hat fun _ => hidle
    rw [if_neg (Nat.not_le.mpr hlt)] at hgo
    refine ⟨_, _, (exec_probeTimer ..).trans (State.inService_keeps hrun hgo rfl rfl), State.conn_set (d := probed c path s.nrt) hc rfl s, ?_, rfl, rfl⟩
    rw [getElem?_probed, hq]
    simp
  case refine_4 =>
    obtain ⟨n, hgo⟩ := State.probeTick_eq hc hq hup hat fun h => absurd hge (Nat.not_le.mpr h)
    rw [if_pos hge] at hgo
    refine ⟨_, _, (exec_probeTimer ..).trans (State.inService_keeps hrun hgo rfl rfl),
      State.conn_set (d := probed (downPath c path s.nrt).1 path s.nrt) hc rfl s, ?_, fun k hk => ?_, rfl⟩
    · rw [getElem?_probed, downPath_eq, getElem?_setPath, hq]
      simp
    · simpa using (List.mem_filter.mp (show k ∈ c.unacked.filter (fun p => !(p.path == path)) from hk)).2
  case refine_5 =>
    obtain ⟨d, n, hgo, hidx, hrest⟩ := State.rtoExpired_resends hc hp hack htries hback
    have hset := State.conn_set (d := d) hc hidx s
    have hend : s.timedOut i psn = (s.setConn d).bump pgXprt 0x134 n := by
      rw [State.timedOut, hgo]
      exact State.noteGone_open hset
    obtain ⟨hbackoff, hrate, hunacked, hresend⟩ := hrest
    exact ⟨_, d, (exec_rtoExpire ..).trans (State.inService_keeps hrun hend rfl rfl), hset, hbackoff, hrate, hunacked, hresend, rfl⟩
  case refine_6 =>
    have hgo := State.rtoExpired_dies hc hp hack htries hback
    have hk : ((s.freeConn c).bump pgXprt 0x14C 1).setIrq pgXprt 8 = { s with
        rf := (((s.freeConn c).bump pgXprt 0x14C 1).setIrq pgXprt 8).rf, host := (((s.freeConn c).bump pgXprt 0x14C 1).setIrq pgXprt 8).host
        net := (s.freeConn c).net } := State.eq_of_groups (by simp [State.freeConn])
    have hcount : (((s.freeConn c).bump pgXprt 0x14C 1).setIrq pgXprt 8).reg pgXprt 0x14C = satAdd32 (s.reg pgXprt 0x14C) 1 := by
      rw [State.setIrq_reg pgXprt_ne_pgHlnk (by decide), State.reg_bump]
      rfl
    generalize ((s.freeConn c).bump pgXprt 0x14C 1).setIrq pgXprt 8 = t at *
    have hnet : t.net = (s.freeConn c).net := (congrArg State.net hk :)
    have hnone : t.conn i = none := (State.conn_congr (congrArg NetState.conns hnet) i).trans (State.conn_freeConn hc s)
    have hend : s.timedOut i psn = t := by
      rw [State.timedOut, hgo, State.noteGone, hc, hnone]
      exact State.connGone_alone ((congrArg NetState.outbound hnet).trans hout) ((congrArg (fun u : State => u.eng.jobs) hk :).trans hjobs) c
    refine ⟨t, (exec_rtoExpire ..).trans (State.inService_keeps hrun hend (congrArg State.pending hk :) (congrArg State.nrt hk :)), hnone, hcount, ?_⟩
    rw [hnet]
    exact hk
  case refine_7 =>
    have hgo := State.close_acknowledges hc hown hack hmsgs hin hcmds
    refine ⟨_, _, (exec_close ..).trans (State.inService_keeps (f := fun s => (s.closeIn i).tryCloseAck i) hrun hgo rfl rfl),
      State.conn_set (d := ackedClose c s.nrt) hc rfl _, rfl, rfl, ?_, rfl⟩
    change (c.msgs ++ _).map _ = _
    rw [hmsgs]
    rfl
  case refine_8 =>
    have hgo : s.closeAcked i = s.freeConn c := by
      rw [State.closeAcked, hc]
      dsimp only
      rw [if_pos hown]
      exact State.connGone_alone (s := s.freeConn c) hout hjobs c
    exact ⟨_, (exec_closeAck ..).trans (State.inService_keeps hrun hgo rfl rfl), State.conn_freeConn hc s, AL.get_put .., rfl⟩
  case refine_9 =>
    obtain ⟨hset, hk⟩ := State.connFetched_alone hc hf hp
    generalize hu : s.connFetched i = u at hset hk
    have hgo : ((s.connFetched i).deliverMsgs i).admitConn i = u.setConn (fetched c s.nrt) := by
      rw [hu, State.deliverMsgs_idle hset (by simp [fetched, hin]), State.admitConn_idle hset (by simp [fetched, hin]) hskip hheld]
    refine ⟨_, (exec_connFetchDone ..).trans (State.inService_keeps (f := fun s => ((s.connFetched i).deliverMsgs i).admitConn i) hrun hgo
      (congrArg State.pending hk :) (congrArg State.nrt hk :)), State.conn_set (d := fetched c s.nrt) hc rfl _, ?_⟩
    exact (congrArg (fun w : State => ({ w with net := { w.net with conns := (u.setConn (fetched c s.nrt)).net.conns } } : State)) hk :)
  case refine_10 =>
    obtain ⟨hconns, hdown, hk⟩ := State.sublinkLost_outcome hp hb hup rfl
    exact ⟨_, (exec_sublinkLinkLoss hp hb s).trans (State.inService_keeps (f := (·.sublinkLost p b)) hrun rfl (congrArg State.pending hk :)
      (congrArg State.nrt hk :)), hdown, fun i d hd => State.downConns_down hconns hd, hk⟩
  case refine_11 =>
    obtain ⟨hup, hk⟩ := State.sublinkUp_outcome (s := s) hp hb rfl
    exact ⟨_, (exec_portLinkUp hp hb s).trans (State.inService_keeps (f := (·.sublinkUp p b)) hrun rfl (congrArg State.pending hk :)
      (congrArg State.nrt hk :)), hup, hk⟩

end

section
/-!
SUPPORT. Handshakes (R307 to R314): how each step of one runs, and the packets in which the answer to an HS_INIT leaves.
-/

namespace Sys2Proof.Machine

variable {s t u : State} {k : Nat}

theorem exec_hsInit {p b : Nat} (hp : p < 8) (hb : b < 2) (h : HsInitD) :
    exec (.hsInit p b h) s = s.inService (fun s => if s.unitAdmits (pgPort p) then s.hsInit p b h else s) := by
  change s.inService (onSublink p b fun s => if s.unitAdmits (pgPort p) then s.hsInit p b h else s) = _
  unfold onSublink
  simp only [hp, hb, and_self, if_true]

theorem exec_hsFinish (k : Nat) (p : PeerProof) (s : State) : exec (.hsFinish k p) s = s.inService (·.hsFinish k p) := rfl
theorem exec_hsTimeout (k : Nat) (s : State) : exec (.hsTimeout k) s = s.inService (·.hsTimeout k) := rfl

/-- A step on a frame that its port takes. -/
theorem State.inService_frame {pg : Nat} {f : State → State} (hrun : s.running = true) (hadm : s.unitAdmits pg = true) (hf : f s = t)
    (hp : t.pending = s.pending) (hn : t.nrt = s.nrt) : s.inService (fun s => if s.unitAdmits pg then f s else s) = .next t :=
  State.inService_keeps hrun (by rw [hadm, if_pos rfl, hf]) hp hn

/-! ### HS_INIT (R307, R310) -/

/-- Control packets of no connection, sent one after another. -/
theorem State.foldl_sendCtl (f : Nat → CtlPkt) (l : List Nat) (s : State) :
    l.foldl (fun (s : State) i => s.sendCtl 0 (f i)) s = { s with net := { s.net with ctl := s.net.ctl ++ l.map (fun i => (0, f i)) } } := by
  induction l generalizing s with
  | nil => simp
  | cons i l ih =>
    rw [List.foldl_cons, ih]
    simp [State.sendCtl]

/-- The handshake that an HS_INIT begins. -/
def State.halfOpen (s : State) (e : NetEnd) (h : HsInitD) (b : List Byte) : HalfOpen :=
  ⟨s.net.nextHs, s.freeConnIndex, h.sconn, h.domain, h.composition, h.credType, h.credId, e, Config.sha384 (HsInitD.bytes h ++ b),
    Config.ecdh (Config.randomKey (s.fresh + 1)) h.ephC, s.nrt⟩

theorem State.hsInit_replies {p b : Nat} {h : HsInitD} (hok : s.hsRefusal h = none) {y : List Byte} (hy : y = s.hsReplyBytes h
    (AL.getD s.freeConnIndex 0 s.net.gens * 2 ^ 18 + s.freeConnIndex) (Config.randomKey s.fresh) (Config.randomKey (s.fresh + 1))) :
    s.hsInit p b h = { s with
      fresh := s.fresh + 2
      net := { s.net with
        nextHs := s.net.nextHs + 1
        half := s.net.half ++ [s.halfOpen ⟨p, b, h.peerAddr, h.udpPort⟩ h y]
        ctl := s.net.ctl ++ (List.range ((y.length - 1) / 4096 + 1)).map (fun i =>
          (0, .hsReply ⟨p, b, h.peerAddr, h.udpPort⟩ ((y.length - 1) / 4096) (i * 4096) ((y.drop (i * 4096)).take 4096))) } } := by
  unfold State.hsInit
  dsimp only
  rw [hok]
  dsimp only
  rw [← hy, State.sendHsReply, State.foldl_sendCtl]
  rfl

theorem State.hsInit_refuses {p b r n : Nat} {h : HsInitD} (hno : s.hsRefusal h = some (r, n)) :
    s.hsInit p b h = s.hsReject ⟨p, b, h.peerAddr, h.udpPort⟩ r n := by
  unfold State.hsInit
  rw [hno]

/-! ### HS_FINISH (R308, R309) -/

theorem State.evictConn_eq (s : State) : s.evictConn = { s with net := { s.net with conns := s.evictConn.net.conns } } := by
  unfold State.evictConn
  dsimp only
  split
  · rfl
  · split <;> rfl

/-- The node when a handshake has ended. -/
def State.hsEnded (s : State) (k : Nat) : State := s.setNet { s.net with half := s.net.half.filter (fun x => x.key != k) }

/-- The node without the state it had lost under a connection's index (R318). -/
def State.forgetLost (s : State) (i : Nat) : State := s.setNet { s.net with lost := s.net.lost.filter (fun x => x % 2 ^ 18 != i) }

/-- TOKEN and CONFIRM of HS_DONE (Table 13-3). -/
def State.doneBytes (s : State) (h : HalfOpen) (b : List Byte) : List Byte :=
  leBytes 16 (BitVec.setWidth 128 (Config.randomKey (AL.getD h.conn 0 s.net.gens * 2 ^ 18 + h.conn))).toNat ++
    leBytes 48 (confirmOf (s.prkOf h) h.th (beBytes 2 b.length ++ b)).toNat

section Finish
variable {h : HalfOpen} {b : List Byte} (hh : s.net.half.find? (fun x => x.key == k) = some h) (hadm : s.xprtAdmits = true)
  (hsec : s.secUp = true) (hfence : s.nodeFenced = false)
include hh hadm hsec hfence

theorem State.hsFinish_opens (hcred : s.credOk h = true) : s.hsFinish k ⟨b, true⟩ =
    (((s.hsEnded k).evictConn.setConn (newConn h (s.prkOf h) (AL.getD h.conn 0 s.net.gens) s.nrt)).forgetLost h.conn).sendCtl h.conn
      (.hsDone h.peer (s.doneBytes h b)) := by
  unfold State.hsFinish
  rw [hh]
  dsimp only
  change (if !s.xprtAdmits then _ else if !s.secUp then _ else if s.nodeFenced then _ else if !(true && s.credOk h) then _ else _) = _
  rw [hadm, hsec, hfence, hcred]
  rfl

theorem State.hsFinish_rejects : s.hsFinish k ⟨b, false⟩ = (s.hsEnded k).hsReject h.peer 2 0 := by
  unfold State.hsFinish
  rw [hh]
  dsimp only
  change (if !s.xprtAdmits then _ else if !s.secUp then _ else if s.nodeFenced then _ else if !(false && s.credOk h) then _ else _) = _
  rw [hadm, hsec, hfence]
  rfl

end Finish

end Sys2Proof.Machine
end

section
open Sys2Proof Sys2Proof.Machine

/-- Settles O31, by the outcome of each step of a handshake (`hsInit_replies`, `hsInit_refuses`, `hsFinish_opens`, `hsFinish_rejects`). -/
theorem handshakesOpenConnections : Obligations.HandshakesOpenConnections := by
  unfold Obligations.HandshakesOpenConnections
  refine ⟨fun s p b h hrun hadm hp hb hok => ?init, fun s p b h r n hrun hadm hp hb hno => ?refused, fun s k h b hrun hh hadm hsec hfence hcred hi => ?finish,
    fun s k h b hrun hh hadm hsec hfence => ?fails, fun s k hrun => ?timeout⟩
  case init =>
    obtain ⟨y, hy⟩ : ∃ y, y = s.hsReplyBytes h (AL.getD s.freeConnIndex 0 s.net.gens * 2 ^ 18 + s.freeConnIndex) (Config.randomKey s.fresh)
      (Config.randomKey (s.fresh + 1)) := ⟨_, rfl⟩
    have hgo := State.hsInit_replies (p := p) (b := b) hok hy
    exact ⟨_, s.halfOpen ⟨p, b, h.peerAddr, h.udpPort⟩ h y, y, (exec_hsInit hp hb h).trans (State.inService_frame (f := (·.hsInit p b h)) hrun hadm hgo rfl rfl),
      rfl, rfl, rfl, rfl, rfl, rfl, rfl, hy, rfl, rfl, rfl, rfl, rfl⟩
  case refused =>
    refine ⟨_, (exec_hsInit hp hb h).trans (State.inService_frame (f := (·.hsInit p b h)) hrun hadm (State.hsInit_refuses hno) rfl rfl), rfl,
      (State.reg_congr (s := s.bump pgXprt 0x148 1) rfl ..).trans (State.reg_bump ..), rfl⟩
  case finish =>
    have hgo := State.hsFinish_opens (b := b) hh hadm hsec hfence hcred
    have hevict := (s.hsEnded k).evictConn_eq
    generalize (s.hsEnded k).evictConn = e at *
    have hn : e.nrt = s.nrt := (congrArg State.nrt hevict :)
    have hctl : e.net.ctl = s.net.ctl := (congrArg (fun u : State => u.net.ctl) hevict :)
    have hhalf : e.net.half = s.net.half.filter (fun x => x.key != k) := (congrArg (fun u : State => u.net.half) hevict :)
    refine ⟨_, s.doneBytes h b, (exec_hsFinish ..).trans (State.inService_keeps hrun hgo (congrArg State.pending hevict :) hn),
      State.conn_setConn (c := newConn h (s.prkOf h) (AL.getD h.conn 0 s.net.gens) s.nrt) ?_ ?_ e, ?_, hhalf, ?_, ?_⟩
    · omega
    · exact (Nat.mod_eq_of_lt hi).symm
    · exact List.drop_left' (length_leBytes ..)
    · exact congrArg (· ++ [(h.conn, CtlPkt.hsDone h.peer (s.doneBytes h b))]) hctl
    · have hkeep (x : NetState) : ({ e with net := x } : State) = { s with net := x } := (congrArg (fun u : State => ({ u with net := x } : State)) hevict :)
      exact hkeep _
  case fails =>
    have hgo := State.hsFinish_rejects (b := b) hh hadm hsec hfence
    exact ⟨_, (exec_hsFinish ..).trans (State.inService_keeps hrun hgo rfl rfl), rfl, rfl, rfl, rfl⟩
  case timeout =>
    exact ⟨_, (exec_hsTimeout ..).trans (State.inService_keeps (f := (·.hsTimeout k)) hrun rfl rfl rfl), rfl, rfl⟩

end

section
/-!
SUPPORT. DATA packets and acknowledgements (R306, R319, R321, R322, R325, R327, R328, Table 13-7).
-/

namespace Sys2Proof.Machine

variable {s t u : State} {i : Nat} {c d : Conn} {p : DataPkt}

theorem exec_data {p : DataPkt} (hp : p.port < 8) (hb : p.sub < 2) (s : State) :
    exec (.data p) s = s.inService (fun s => if s.unitAdmits (pgPort p.port) then s.packet p else s) := by
  change s.inService (onSublink p.port p.sub fun s => if s.unitAdmits (pgPort p.port) then s.packet p else s) = _
  unfold onSublink
  simp only [hp, hb, and_self, if_true]

theorem exec_ack (i path base : Nat) (l : List (Nat × Nat)) (ce : Nat) (echo : Bool) (s : State) :
    exec (.ack i path base l ce echo) s = s.inService (·.acked i base l echo) := rfl
theorem exec_ackDelay (i : Nat) (s : State) : exec (.ackDelay i) s = s.inService (·.ackDelayed i) := rfl
theorem exec_recvBusy (i id n : Nat) (l : Lane) (s : State) : exec (.recvBusy i id l n) s = s.inService (·.recvBusyIn i id l n) := rfl
theorem exec_recvBusyRetry (i id : Nat) (l : Lane) (s : State) : exec (.recvBusyRetry i id l) s = s.inService (·.recvBusyAgain i id l) := rfl
theorem exec_reasmTimeout (i id : Nat) (l : Lane) (s : State) : exec (.reasmTimeout i id l) s = s.inService (·.reasmExpired i id l) := rfl
theorem exec_abandon (i id r : Nat) (l : Lane) (s : State) : exec (.abandon i id l r) s = s.inService (·.abandonIn i id l r) := rfl

/-! ### A packet at its port (Table 13-7, steps 1 and 2) -/

/-- The state in which the port has counted a packet. -/
def State.framed (s : State) (p : DataPkt) : State :=
  if p.ce then (s.bump64 (pgPort p.port) 0x140 1).bump (pgPort p.port) 0x158 1 else s.bump64 (pgPort p.port) 0x140 1

theorem State.framed_eq (s : State) (p : DataPkt) : s.framed p = { s with rf := (s.framed p).rf } := by
  unfold State.framed
  split <;> rfl

/-- The registers that a packet's count leaves. -/
theorem State.framed_reg (s : State) (p : DataPkt) (pg : Nat) {o : Nat} (h : o ≠ 0x140 ∧ o ≠ 0x144 ∧ o ≠ 0x158) : (s.framed p).reg pg o = s.reg pg o := by
  obtain ⟨h0, h4, h8⟩ := h
  unfold State.framed
  split
  · exact (State.regI_bump_off h8 ..).trans (State.regI_bump64_off h0 h4 ..)
  · exact State.regI_bump64_off h0 h4 ..

theorem State.framed_fld (s : State) (p : DataPkt) (pg lo n : Nat) {o : Nat} (h : o ≠ 0x140 ∧ o ≠ 0x144 ∧ o ≠ 0x158) :
    (s.framed p).fld pg o lo n = s.fld pg o lo n := by rw [State.fld, State.framed_reg s p pg h, State.fld]

theorem State.framed_vidOk (s : State) (p : DataPkt) : (s.framed p).vidOk p.port p.vid = s.vidOk p.port p.vid := by
  rw [State.vidOk, State.vidOk, State.framed_fld _ _ _ _ _ (by decide), State.framed_fld _ _ _ _ _ (by decide)]

theorem State.framed_frameBad (s : State) (p : DataPkt) : (s.framed p).frameBad p = s.frameBad p := by
  rw [State.frameBad, State.frameBad, State.mtu, State.mtu, State.framed_fld _ _ _ _ _ (by decide), State.framed_fld _ _ _ _ _ (by decide)]

section Port
variable (hvid : s.vidOk p.port p.vid = true)
include hvid

theorem State.dataIn_drops (hbad : s.frameBad p = true) : s.dataIn p = (s.framed p).bump (pgPort p.port) 0x15C 1 := by
  change (if !(s.framed p).vidOk p.port p.vid then _ else if (s.framed p).frameBad p then _ else _) = _
  rw [State.framed_vidOk, hvid, State.framed_frameBad, hbad]
  rfl

variable (hok : s.frameBad p = false) (hc : s.conn p.index = some c) (hgen : c.gen = p.gen) (hcached : c.cached = true)
include hok hc hgen hcached

theorem State.dataIn_cached : s.dataIn p = (s.framed p).dataCached c p := by
  have hconn : (s.framed p).conn p.index = some c := (State.conn_congr (congrArg (fun u : State => u.net.conns) (s.framed_eq p)) _).trans hc
  change (if !(s.framed p).vidOk p.port p.vid then _ else if (s.framed p).frameBad p then _ else match (s.framed p).conn p.index with
    | none => _
    | some c => _) = _
  rw [State.framed_vidOk, hvid, State.framed_frameBad, hok, hconn]
  dsimp only
  rw [if_neg (by decide), if_neg (by decide), if_neg (not_not_intro hgen)]
  exact if_pos hcached

end Port

/-! ### The first packet of a request (steps 3 to 7) -/

/-- The message of which the first packet of several has come. -/
def begunMsg (p : DataPkt) (now : Nat) : InMsg := ⟨.request, p.msgId, p.npkt, p.epoch, 1, none, [(0, p.payload)], now, false⟩

theorem placePkt_first (now : Nat) (hin : c.inMsgs = []) (hlane : p.lane = 0) (hlast : p.last = false) (hoff : p.offset = 0) (hn : 1 ≤ p.npkt) :
    placePkt now c p = { c with inMsgs := [begunMsg p now] } := by
  have hpow : 2 ^ 2 ≤ 2 ^ (p.npkt + 1) := Nat.pow_le_pow_right (by decide) (by omega)
  have hbit : (0 : BitVec 256) ||| 1#256 <<< 0 = 1 := by decide
  have hpart : decide ((1 : BitVec 256).toNat = 2 ^ (p.npkt + 1) - 1) = false := by
    refine decide_eq_false fun h => ?_
    have h1 : (1 : BitVec 256).toNat = 1 := by decide
    omega
  unfold placePkt
  dsimp only
  rw [hin, hlane, hlast, hoff, List.find?_nil, Option.getD_none]
  dsimp only
  rw [Nat.zero_div, hbit, hpart, if_neg (by decide)]
  rfl

/-- What the receipt of the next DATA packet leaves of its connection (R327). -/
theorem State.ackPsn_next (s : State) (hkey : p.keyGen = some c.genRx) (hpsn : p.psn = c.rxBase) (hlow : p.lowPsn ≤ p.psn) (habove : c.rxAbove = []) :
    ∃ d ctl, s.ackPsn c p = { s.setConn d with net := { (s.setConn d).net with ctl := ctl } } ∧
      d = { c with rxBase := p.psn + 1, rxAbove := [], rxSince := d.rxSince, rxOldest := d.rxOldest, ceSince := d.ceSince, rxPath := d.rxPath, usedAt := d.usedAt } := by
  have hnew : ¬ (p.psn < c.rxBase ∨ c.rxAbove.contains p.psn = true) := by
    rw [habove]
    simp [hpsn]
  have hbase : advanceBase (max c.rxBase p.lowPsn) [p.psn] ([p.psn].length + 1) = p.psn + 1 := by
    rw [← hpsn, max_eq_left hlow]
    simp [advanceBase]
  unfold State.ackPsn
  dsimp only
  rw [if_neg (not_not_intro hkey), if_neg hnew, habove, hbase]
  have hgone : [p.psn].filter (fun x => decide (p.psn + 1 ≤ x)) = [] := by simp
  rw [hgone]
  split
  · exact ⟨_, _, rfl, rfl⟩
  · exact ⟨_, _, rfl, rfl⟩

theorem State.poolLow_eq (s t : State) : ∃ rf host, s.poolLow t = { t with rf := rf, host := host } := by
  unfold State.poolLow
  split
  · exact ⟨(t.setIrq pgXprt 2).rf, (t.setIrq pgXprt 2).host, State.eq_of_groups (by simp)⟩
  · exact ⟨_, _, rfl⟩

section First
variable (hfirst : p.first = true) (hlast : p.last = false) (hoff : p.offset = 0) (hn : 1 ≤ p.npkt) (hn255 : p.npkt ≤ 255)
  (hlen : p.payload.length = 4096) (hin : c.inMsgs = []) (hcomp : c.composition = 0xFFFF → p.epoch = 0)
include hfirst hlast hoff hn hn255 hlen hin hcomp

theorem pktRules_first : pktRules c p = true := by
  have hnot : ¬ 0 = p.npkt * 4096 := by omega
  have hepoch : (c.composition != 0xFFFF || p.epoch == 0) = true := by
    by_cases h : c.composition = 0xFFFF
    · simp [hcomp h]
    · simp [h]
  unfold pktRules
  rw [hoff, hlast, hfirst, hlen, hin, hepoch]
  simp [hnot, hn255]

variable (hlane : p.lane = 0)
include hlane

/-- The first packet of a request of several is placed (R321), and its PSN counts as received (R327). -/
theorem State.dataPlaced_first (s : State) (hskip : c.skipped = []) (hclosing : c.closing = false) (hep : s.connEpochOk c p.epoch = true)
    (hid : p.msgId = c.nextReq) (hslots : p.npkt + 1 ≤ s.reqFree) (hreasm : s.reasmUse < 8192) : s.dataPlaced c p =
      s.poolLow ((s.setConn { c with inMsgs := [begunMsg p s.nrt] }).ackPsn { c with inMsgs := [begunMsg p s.nrt] } p) := by
  have hwindow : ¬ 8192 ≤ (p.msgId + 2 ^ 24 - c.nextReq) % 2 ^ 24 := by
    rw [hid, Nat.add_sub_cancel_left]
    decide
  unfold State.dataPlaced
  simp only [pktRules_first hfirst hlast hoff hn hn255 hlen hin hcomp, hskip, hlane, hclosing, hep, hin, hoff, laneOf, placePkt_first s.nrt hin hlane hlast hoff hn,
    hwindow, Nat.not_lt.mpr hslots, Nat.not_le.mpr hreasm, if_true, List.any_nil, List.contains_nil, Bool.not_true, Bool.not_false, Bool.true_and, Bool.and_false,
    Bool.false_eq_true, if_false, decide_false, and_false]

end First

theorem State.dataCached_current (hkey : p.keyGen = some c.genRx) (hpath : addPath c p.port p.sub p.peerAddr p.udpPort s.nrt = c) :
    s.dataCached c p = s.dataPlaced c p := by
  rw [State.dataCached, hkey, Option.bind_some, State.rxGeneration, if_pos rfl]
  dsimp only
  rw [hpath]

theorem State.packet_idle (hi : s.dataIn p = u) (hc : u.conn p.index = some c) (hin : ∀ m ∈ c.inMsgs, m.complete = false) (hskip : c.skipped = [])
    (hheld : c.held = []) : s.packet p = u.setConn c := by
  rw [State.packet, hi, State.deliverMsgs_idle hc hin, State.admitConn_idle hc hin hskip hheld]

/-- A packet that is counted and dropped changes no connection. -/
theorem State.packet_counted {g : State} {pg off : Nat} (hc : s.conn p.index = some c) (hg : g = { s with rf := g.rf }) (hi : s.dataIn p = g.bump pg off 1)
    (hin : c.inMsgs = []) (hskip : c.skipped = []) (hheld : c.held = []) :
    s.packet p = (g.bump pg off 1).setConn c ∧ ((g.bump pg off 1).setConn c).conn p.index = some c ∧
    (g.bump pg off 1).setConn c = { s with
      rf := ((g.bump pg off 1).setConn c).rf, net := { s.net with conns := ((g.bump pg off 1).setConn c).net.conns } } ∧
    ((g.bump pg off 1).setConn c).reg pg off = satAdd32 (g.reg pg off) 1 := by
  have hconn : (g.bump pg off 1).conn p.index = some c := (State.conn_congr (congrArg (fun u : State => u.net.conns) hg :) _).trans hc
  refine ⟨State.packet_idle hi hconn (by simp [hin]) hskip hheld, State.conn_set (d := c) hc rfl _, ?_,
    (State.reg_congr (s := g.bump pg off 1) rfl ..).trans (State.reg_bump ..)⟩
  have hkeep (r : RegFile) (x : AL Nat Conn) : ({ g with rf := r, net := { g.net with conns := x } } : State) =
      { s with rf := r, net := { s.net with conns := x } } := (congrArg (fun u : State => ({ u with rf := r, net := { u.net with conns := x } } : State)) hg :)
  exact hkeep _ _

/-! ### Messages that stop, go on and are given up (R322, R325) -/

/-- The connection on which a message is stopped until a time. -/
def heldBack (c : Conn) (l : Lane) (id till : Nat) : Conn := { c with
  msgs := c.msgs.map (fun m => if m.lane = l ∧ m.msgId = id then { m with heldTill := till } else m)
  resend := c.resend.filter (fun r => !(r.1 == l && r.2.1 == id)) }

theorem heldBack_held {l : Lane} {id till : Nat} {m : OutMsg} (hm : m ∈ (heldBack c l id till).msgs) (hl : m.lane = l) (hid : m.msgId = id) : m.heldTill = till := by
  obtain ⟨x, -, rfl⟩ := List.mem_map.mp hm
  by_cases h : x.lane = l ∧ x.msgId = id
  · rw [if_pos h]
  · rw [if_neg h] at hl hid
    exact absurd ⟨hl, hid⟩ h

/-- The offsets of a message that were sent and are not acknowledged. -/
def unsentOffsets (m : OutMsg) : List Nat := (offsetsOf m.bytes.length).filter (fun o => !m.acked.contains o && decide (o < m.next))

/-- The connection on which a message that was stopped is sent again. -/
def sentAgain (c : Conn) (l : Lane) (id : Nat) (m : OutMsg) : Conn := { c with
  unacked := c.unacked.filter (fun p => !(p.lane == l && p.msgId == id))
  msgs := c.msgs.map (fun x => if x.lane = l ∧ x.msgId = id then { x with heldTill := 0 } else x)
  resend := c.resend ++ (unsentOffsets m).map (fun o => (l, id, o)), backoff := 0 }

/-- The connection without a message that it was receiving. -/
def withoutMsg (c : Conn) (l : Lane) (id : Nat) : Conn := { c with
  inMsgs := c.inMsgs.filter (fun m => !(m.lane == l && m.msgId == id)), skipped := c.skipped ++ [(l, id)] }

/-! ### Acknowledgements (R328) -/

/-- A connection without its RTT and its RATE. -/
def unrated (c : Conn) : Conn := { c with rate := 0, srtt := 0, rttvar := 0, rateAt := 0, rateCut := false }

theorem rttSample_unrated (c : Conn) (r : Nat) : unrated (rttSample c r) = unrated c := by
  unfold rttSample
  split <;> rfl

theorem foldl_rttSample_unrated (f : SentPkt → Nat) (l : List SentPkt) (c : Conn) : unrated (l.foldl (fun c p => rttSample c (f p)) c) = unrated c := by
  induction l generalizing c with
  | nil => rfl
  | cons p l ih => exact (ih _).trans (rttSample_unrated ..)

theorem State.rateAck_unrated (s : State) (c : Conn) (echo : Bool) : unrated (s.rateAck c echo) = unrated c := by
  unfold State.rateAck
  dsimp only
  (repeat' split) <;> rfl

/-- What is left of a connection when an ACK has moved its RATE and what it misses is sent again. -/
theorem State.rateAck_resent {e : Conn} {base : Nat} {l : List SentPkt} {m : List OutMsg} (s : State) (he : unrated e = unrated c)
    (hl : ∀ q ∈ l, base ≤ q.psn) (n : Nat) (echo : Bool) (w : SentPkt → Bool)
    (hd : (resendPkts (s.rateAck { e with unacked := l, msgs := m, backoff := 0, usedAt := n } echo) w).1 = d) :
    d.index = c.index ∧ d.inMsgs = c.inMsgs ∧ d.closing = c.closing ∧ d.closeAck = c.closeAck ∧ ∀ q ∈ d.unacked, base ≤ q.psn := by
  have hr := s.rateAck_unrated { e with unacked := l, msgs := m, backoff := 0, usedAt := n } echo
  generalize s.rateAck { e with unacked := l, msgs := m, backoff := 0, usedAt := n } echo = r at *
  subst hd
  refine ⟨(congrArg Conn.index hr :).trans (congrArg Conn.index he :), (congrArg Conn.inMsgs hr :).trans (congrArg Conn.inMsgs he :),
    (congrArg Conn.closing hr :).trans (congrArg Conn.closing he :), (congrArg Conn.closeAck hr :).trans (congrArg Conn.closeAck he :), fun q hq => ?_⟩
  have hunacked : r.unacked = l := (congrArg Conn.unacked hr :)
  exact hl q (hunacked ▸ (List.mem_filter.mp hq).1)

/-- What an ACK of all below `base` leaves of its connection. -/
theorem State.ackIn_below (s : State) (c : Conn) (base : Nat) (echo : Bool) : ∃ d n, s.ackIn c base [] echo = (s.setConn d).bump pgXprt 0x134 n ∧
    d.index = c.index ∧ d.inMsgs = c.inMsgs ∧ d.closing = c.closing ∧ d.closeAck = c.closeAck ∧ ∀ q ∈ d.unacked, base ≤ q.psn := by
  refine ⟨_, _, rfl, s.rateAck_resent (foldl_rttSample_unrated (fun p => s.nrt - p.sentAt) _ c) (fun q hq => ?_) _ _ _ rfl⟩
  obtain ⟨p, hp, rfl⟩ := List.mem_map.mp hq
  simpa using (List.mem_filter.mp hp).2

end Sys2Proof.Machine
end

section
open Sys2Proof Sys2Proof.Machine

/-- Settles O32: `dataPlaced_first` and `ackPsn_next` place and count the packet, the others change one connection. -/
theorem packetsArePlacedAndAcknowledged : Obligations.PacketsArePlacedAndAcknowledged := by
  unfold Obligations.PacketsArePlacedAndAcknowledged
  refine ⟨?placed, ?unverified, ?bad, ?ack, ?delay, ?busy, ?again, ?expired, ?abandoned⟩
  case placed =>
    intro s p c hrun hadm hp hb hvid hok hlane hfirst hlast hoff hn hn255 hlen hc hgen hcached hkey hpath hin hskip hheld hclosing hcomp hep hid hpsn hlow
      habove hslots hreasm
    have hdata := State.dataIn_cached hvid hok hc hgen hcached
    have hg := s.framed_eq p
    generalize s.framed p = g at *
    have hep : g.connEpochOk c p.epoch = true := by
      rw [hg]
      exact hep
    have hslots : p.npkt + 1 ≤ g.reqFree := by
      rw [hg]
      exact hslots
    have hreasm : g.reasmUse < 8192 := by
      rw [hg]
      exact hreasm
    have hnrt : g.nrt = s.nrt := (congrArg State.nrt hg :)
    rw [State.dataCached_current hkey (by rw [hnrt]; exact hpath),
      State.dataPlaced_first hfirst hlast hoff hn hn255 hlen hin hcomp hlane g hskip hclosing hep hid hslots hreasm] at hdata
    obtain ⟨d, ctl, hack, hd⟩ := State.ackPsn_next (c := { c with inMsgs := [begunMsg p g.nrt] }) (p := p)
      (g.setConn { c with inMsgs := [begunMsg p g.nrt] }) hkey hpsn hlow habove
    obtain ⟨rf, host, hlowered⟩ := g.poolLow_eq ((g.setConn { c with inMsgs := [begunMsg p g.nrt] }).ackPsn { c with inMsgs := [begunMsg p g.nrt] } p)
    rw [hlowered, hack] at hdata
    have hmsgs : d.inMsgs = [begunMsg p g.nrt] := by rw [hd]
    have hidle := State.packet_idle hdata (State.conn_set (d := d) hc (by rw [hd]) _ :) (by simp [hmsgs, begunMsg]) (by rw [hd]; exact hskip) (by rw [hd]; exact hheld)
    refine ⟨_, d, begunMsg p g.nrt, (exec_data hp hb s).trans (State.inService_frame (f := (·.packet p)) hrun hadm hidle ?_ hnrt),
      State.conn_set (d := d) hc (by rw [hd]) _, hmsgs, rfl, rfl, rfl, rfl, rfl, rfl, by rw [hd], by rw [hd], ?_⟩
    · exact (congrArg State.pending hg :)
    · have hkeep (x : NetState) : ({ g with rf := rf, host := host, net := x } : State) = { s with rf := rf, host := host, net := x } :=
        (congrArg (fun u : State => ({ u with rf := rf, host := host, net := x } : State)) hg :)
      exact hkeep _
  case unverified =>
    intro s p c hrun hadm hp hb hvid hok hc hgen hcached hkey hin hskip hheld
    have hdata := State.dataIn_cached hvid hok hc hgen hcached
    rw [State.dataCached, hkey] at hdata
    obtain ⟨hgo, hconn, hk, hreg⟩ := State.packet_counted hc (s.framed_eq p) hdata hin hskip hheld
    refine ⟨_, (exec_data hp hb s).trans (State.inService_frame (f := (·.packet p)) hrun hadm hgo (congrArg State.pending hk :) (congrArg State.nrt hk :)),
      ?_, hconn, hk⟩
    rw [hreg, State.framed_reg _ _ _ (by decide)]
  case bad =>
    intro s p c hrun hadm hp hb hvid hbad hc hin hskip hheld
    obtain ⟨hgo, hconn, hk, hreg⟩ := State.packet_counted hc (s.framed_eq p) (State.dataIn_drops hvid hbad) hin hskip hheld
    refine ⟨_, (exec_data hp hb s).trans (State.inService_frame (f := (·.packet p)) hrun hadm hgo (congrArg State.pending hk :) (congrArg State.nrt hk :)),
      ?_, hconn, hk⟩
    rw [hreg, State.framed_reg _ _ _ (by decide)]
  case ack =>
    intro s i path base c hrun hc hack
    obtain ⟨d, n, hgo, hidx, hin, hclosing, hack', hbase⟩ := s.ackIn_below c base false
    have hset := State.conn_set (d := d) hc hidx s
    have hend : s.acked i base [] false = (s.setConn d).bump pgXprt 0x134 n := by
      have hset : ((s.setConn d).bump pgXprt 0x134 n).conn i = some d := hset
      have hfree : ((s.setConn d).bump pgXprt 0x134 n).tryFree i = (s.setConn d).bump pgXprt 0x134 n := by
        rw [State.tryFree, hset]
        dsimp only
        rw [hack', hack]
      rw [State.acked, hc]
      dsimp only
      rw [hgo, hfree]
      exact State.noteGone_open hset
    exact ⟨_, d, (exec_ack ..).trans (State.inService_keeps hrun hend rfl rfl), hset, hbase, hin, hclosing, rfl⟩
  case delay =>
    intro s i c hrun hc hsince hold
    have hgo : s.ackDelayed i = s.sendAck c := by
      rw [State.ackDelayed, hc]
      exact if_pos ⟨hsince, hold⟩
    exact ⟨_, (exec_ackDelay ..).trans (State.inService_keeps hrun hgo rfl rfl),
      State.conn_set (d := { c with rxSince := 0, ceSince := 0, rxOldest := 0 }) hc rfl s, rfl, rfl⟩
  case busy =>
    intro s i id n l c hrun hc
    have hgo : s.recvBusyIn i id l n = s.setConn (heldBack c l id (s.nrt + usTicks n)) := by
      rw [State.recvBusyIn, hc]
      rfl
    refine ⟨_, _, (exec_recvBusy ..).trans (State.inService_keeps hrun hgo rfl rfl), State.conn_set (d := heldBack c l id _) hc rfl s, fun m hm hl hid => ?_,
      fun r hr => ?_, rfl⟩
    · rw [heldBack_held hm hl hid, usTicks, Nat.mul_comm]
    · simpa [imp_iff_not_or] using (List.mem_filter.mp hr).2
  case again =>
    intro s i id l c m hrun hc hm hheld htill
    have hgo : s.recvBusyAgain i id l = (s.setConn (sentAgain c l id m)).bump pgXprt 0x134 (unsentOffsets m).length := by
      have hgo : ¬ (m.heldTill = 0 ∨ s.nrt < m.heldTill) := by omega
      rw [State.recvBusyAgain, hc]
      dsimp only
      rw [hm]
      exact if_neg hgo
    refine ⟨_, _, (exec_recvBusyRetry ..).trans (State.inService_keeps hrun hgo rfl rfl), State.conn_set (d := sentAgain c l id m) hc rfl s, fun r hr => ?_, rfl,
      rfl, rfl⟩
    simpa [imp_iff_not_or] using (List.mem_filter.mp hr).2
  case expired =>
    intro s i id l c m hrun hc hm hl hid hpart hlast
    have hidle : c.inMsgs.any (fun m => m.lane == l && m.msgId == id && !m.complete && decide (m.lastAt + s.reasmMs ≤ s.nrt)) = true :=
      List.any_eq_true.mpr ⟨m, hm, by simp [hl, hid, hpart, hlast]⟩
    have hgo : s.reasmExpired i id l = s.abandonMsg c l id 1 := by
      rw [State.reasmExpired, hc]
      exact if_pos hidle
    refine ⟨_, _, (exec_reasmTimeout ..).trans (State.inService_keeps hrun hgo rfl rfl), State.conn_set (d := withoutMsg c l id) hc rfl _, fun x hx => ?_, rfl,
      (State.reg_congr (s := s.bump pgXprt 0x144 1) rfl ..).trans (State.reg_bump ..), rfl⟩
    simpa [imp_iff_not_or] using (List.mem_filter.mp hx).2
  case abandoned =>
    intro s i id r l c hrun hc hlane
    have hgo : s.abandonIn i id l r = s.setConn (dropMsg c l id) := by
      rw [State.abandonIn, hc]
      rcases hlane with rfl | ⟨rfl, hr⟩
      · rfl
      · dsimp only
        split
        · rfl
        · next h4 =>
          have hnone : (s.setConn (dropMsg c .request id)).outboundOf (connId c) id = none := hr.resolve_left h4
          rw [State.rmaAnswered, hnone]
    exact ⟨_, (exec_abandon ..).trans (State.inService_keeps hrun hgo rfl rfl), State.conn_set (d := dropMsg c l id) hc rfl s, rfl⟩

end

section
/-!
SUPPORT. Submission rings (R466, R468 to R470, R505): the writes of RCFG and the doorbells, and rings that a fenced quarter loses.
-/

namespace Sys2Proof.Machine

variable {s t u : State} {n : Nat} {ag : Agent}

theorem exec_ringCreate (ag : Agent) (v : Nat) (s : State) : exec (.ringCreate ag v) s = s.did (s.poke ag pgDbel 0x10C (2 ^ 31 + v % 2 ^ 31)) := rfl
theorem exec_ringDisable (ag : Agent) (v : Nat) (s : State) : exec (.ringDisable ag v) s = s.did (s.poke ag pgDbel 0x10C (v % 2 ^ 31)) := rfl
theorem exec_sqDb (ag : Agent) (v : Nat) (s : State) : exec (.sqDb ag v) s = s.did (s.poke ag pgDbel 0x100 v) := rfl
theorem exec_cqDb (ag : Agent) (v : Nat) (s : State) : exec (.cqDb ag v) s = s.did (s.poke ag pgDbel 0x104 v) := rfl
theorem exec_cqIrqDelay (n : Nat) (s : State) : exec (.cqIrqDelay n) s = s.inService (·.cqDelay n) := rfl
theorem exec_ringLost {q : Nat} (hq : q < 4) (s : State) : exec (.ringLost q) s = s.inService (·.loseRings q) := by
  change s.inService (fun s => if q < 4 then s.loseRings q else s) = _
  simp only [hq, if_true]
theorem exec_ringFetch (n : Nat) (s : State) : exec (.ringFetch n) s = s.inService (·.ringFetch n) := rfl

theorem State.act_rcfg (s : State) (ag : Agent) (v : Word) : s.act ag pgDbel 0x10C v = s.ringCfg v := rfl
theorem State.act_sqDb (s : State) (ag : Agent) (v : Word) : s.act ag pgDbel 0x100 v = s.sqDoorbell v.toNat := rfl
theorem State.act_cqDb (s : State) (ag : Agent) (v : Word) : s.act ag pgDbel 0x104 v = s.cqDoorbell v.toNat := rfl

/-! ### RCFG (R466, R470) -/

/-- A write of a register's fields changes the register file alone. -/
theorem State.applyFields_rf {pg off : Nat} {v : Word} (h : s.applyFields pg off v = some u) : u = { s with rf := u.rf } := by
  unfold State.applyFields at h
  split at h
  · exact Option.some.inj h ▸ rfl
  · dsimp only at h
    split at h
    · cases h
    · rw [← Option.some.inj h]
      (repeat' split) <;> rfl

theorem State.ringCfg_starts {v : Word} (hst : (s.ring (s.fld pgDbel 0x108 0 12)).st = .disabled) (hv : s.applyFields pgDbel 0x10C v = some u)
    (hen : bitOf v.toNat 31 = true) (hok : u.ringRefused (s.fld pgDbel 0x108 0 12) (u.domActive (u.ringDomain (s.fld pgDbel 0x108 0 12))) = false) :
    s.ringCfg v = u.ringStart (s.fld pgDbel 0x108 0 12) := by
  unfold State.ringCfg
  dsimp only
  rw [hv]
  dsimp only
  rw [hen, hst]
  dsimp only
  rw [hok]
  rfl

theorem State.ringCfg_stops {v : Word} (hv : s.applyFields pgDbel 0x10C v = some u) (hen : bitOf v.toNat 31 = false) :
    s.ringCfg v = u.ringStop (s.fld pgDbel 0x108 0 12) := by
  unfold State.ringCfg
  dsimp only
  rw [hv]
  dsimp only
  rw [hen]
  rfl

theorem bitOf_enable {v : Nat} (hv : v < 2 ^ 31) : bitOf (w32 (2 ^ 31 + v)).toNat 31 = true ∧ bitOf (w32 v).toNat 31 = false := by
  have hon : (w32 (2 ^ 31 + v)).toNat = 2 ^ 31 + v := by
    rw [w32, BitVec.toNat_ofNat]
    omega
  have hoff : (w32 v).toNat = v := by
    rw [w32, BitVec.toNat_ofNat]
    omega
  rw [hon, hoff, bitOf, bitOf]
  exact ⟨by rw [show (2 ^ 31 + v) / 2 ^ 31 = 1 by omega]; rfl, by rw [show v / 2 ^ 31 = 0 by omega]; rfl⟩

/-! ### Doorbells (R468, R469) -/

/-- Ring and index of a doorbell's value. -/
theorem doorbell_fields {n i : Nat} (hn : n < 4096) (hi : i < 65536) : (w32 (n * 65536 + i)).toNat = n * 65536 + i ∧
    bitsOf (n * 65536 + i) 16 12 = n ∧ bitsOf (n * 65536 + i) 0 16 = i := by
  refine ⟨?_, ?_, ?_⟩
  · rw [w32, BitVec.toNat_ofNat]
    omega
  · rw [bitsOf]
    omega
  · rw [bitsOf]
    omega

theorem State.sqDoorbell_eq {n i : Nat} (hn : n < 4096) (hi : i < 65536) (s : State) : s.sqDoorbell (n * 65536 + i) =
    if (s.ring n).st = .disabled ∨ (s.ring n).st = .lost ∨ s.sqSize n ≤ i then s.dbRej n (n * 65536 + i) else s.setRing n { s.ring n with tail := i } := by
  obtain ⟨-, hring, hidx⟩ := doorbell_fields hn hi
  unfold State.sqDoorbell
  dsimp only
  rw [hring, hidx]

theorem State.cqDoorbell_eq {n i : Nat} (hn : n < 4096) (hi : i < 65536) (s : State) : s.cqDoorbell (n * 65536 + i) =
    if (s.ring n).st = .disabled ∨ (s.ring n).st = .lost ∨ s.cqSize n ≤ i ∨
      ((s.ring n).cqTail + s.cqSize n - (s.ring n).cqHead) % s.cqSize n < (i + s.cqSize n - (s.ring n).cqHead) % s.cqSize n then s.dbRej n (n * 65536 + i)
    else s.setRing n { s.ring n with cqHead := i } := by
  obtain ⟨-, hring, hidx⟩ := doorbell_fields hn hi
  unfold State.cqDoorbell
  dsimp only
  rw [hring, hidx]

/-- A doorbell that an agent rings. -/
theorem State.sqDb_runs {n i : Nat} (hw : s.mayWrite ag pgDbel 0x100 = true) (hn : n < 4096) (hi : i < 65536) :
    s.poke ag pgDbel 0x100 (n * 65536 + i) = s.sqDoorbell (n * 65536 + i) := by
  rw [State.poke_applied hw rfl, State.act_sqDb, (doorbell_fields hn hi).1]

theorem State.cqDb_runs {n i : Nat} (hw : s.mayWrite ag pgDbel 0x104 = true) (hn : n < 4096) (hi : i < 65536) :
    s.poke ag pgDbel 0x104 (n * 65536 + i) = s.cqDoorbell (n * 65536 + i) := by
  rw [State.poke_applied hw rfl, State.act_cqDb, (doorbell_fields hn hi).1]

/-! ### RING_FETCH (R468) -/

theorem State.ringFetch_takes {b : List Byte} (hmay : s.ringMayFetch n = true) (hwhole : s.ringWhole n = some b) (hholds : s.ringHolds n = false) :
    s.ringFetch n = (s.takeHead n b).getD (s.setRing n { s.ring n with blocked := true }) := by
  unfold State.ringFetch
  rw [hmay, hwhole]
  dsimp only
  rw [hholds]
  rfl

/-! ### Rings that are lost (R505) -/

/-- The rings of a fenced quarter. -/
def State.ringsOf (s : State) (q : Nat) : List Nat :=
  (s.host.rings.filter (fun p => p.2.st != .disabled && p.2.st != .lost &&
    (s.ringAreas p.1).any (fun a => areaQuarter a == some q || quarterOf a.1 == q))).map (fun p => p.1)

theorem State.foldl_lost (l : List Nat) (s : State) : (∀ n, (n ∈ l ∨ (s.ring n).st = .lost) →
      ((l.foldl (fun (s : State) n => s.setRing n { s.ring n with st := .lost }) s).ring n).st = .lost) ∧
    l.foldl (fun (s : State) n => s.setRing n { s.ring n with st := .lost }) s = { s with
      host := (l.foldl (fun (s : State) n => s.setRing n { s.ring n with st := .lost }) s).host } := by
  induction l generalizing s with
  | nil => exact ⟨fun n h => h.resolve_left (List.not_mem_nil), rfl⟩
  | cons m l ih =>
    obtain ⟨hlost, hk⟩ := ih (s.setRing m { s.ring m with st := .lost })
    refine ⟨fun n hn => hlost n ?_, hk⟩
    by_cases hnm : n = m
    · subst hnm
      exact .inr (by rw [State.ring_setRing])
    · rw [State.ring_setRing_ne hnm]
      exact hn.imp_left fun h => (List.mem_cons.mp h).resolve_left hnm

/-- The rings of a list, lost. -/
def State.lostRings (l : List Nat) (s : State) : State := l.foldl (fun (s : State) n => s.setRing n { s.ring n with st := .lost }) s

/-- The loss of each of them, logged. -/
def State.logLost (l : List Nat) (q : Nat) (s : State) : State := l.foldl (fun (s : State) n => s.logErr pgDbel 2 n q) s

theorem State.logLost_keeps (l : List Nat) (q : Nat) (s : State) : (State.logLost l q s).host.rings = s.host.rings ∧
    ({ State.logLost l q s with rf := s.rf, host := s.host } : State) = s := by
  refine ⟨State.foldl_keeps (fun u : State => u.host.rings) (fun (s : State) n => s.logErr pgDbel 2 n q) (by simp) l s, ?_⟩
  refine State.foldl_keeps (fun u : State => ({ u with rf := s.rf, host := s.host } : State)) (fun (s : State) n => s.logErr pgDbel 2 n q) (fun u n => ?_) l s
  exact State.eq_of_groups (by simp)

theorem State.loseRings_alone {q : Nat} {r : Ring} (hf : s.tileFenced (6 * q) = true) (hmem : (n, r) ∈ s.host.rings) (hst : r.st = .running)
    (hq : areaQuarter (s.cqBase n, s.cqSize n * 32 + 64) = some q) (hcmds : s.cmds.list = []) (ht : s.loseRings q = t) :
    (t.ring n).st = .lost ∧ t = { s with rf := t.rf, host := t.host } := by
  have hin : n ∈ s.ringsOf q := by
    refine List.mem_map.mpr ⟨(n, r), List.mem_filter.mpr ⟨hmem, ?_⟩, rfl⟩
    simp [hst, State.ringAreas, hq]
  have hne : (s.ringsOf q).isEmpty = false := by simpa using List.ne_nil_of_mem hin
  obtain ⟨hlost, hk⟩ := State.foldl_lost (s.ringsOf q) s
  have hlost : ((State.lostRings (s.ringsOf q) s).ring n).st = .lost := hlost n (.inl hin)
  have hk : State.lostRings (s.ringsOf q) s = { s with host := (State.lostRings (s.ringsOf q) s).host } := hk
  have hnone : (State.lostRings (s.ringsOf q) s).cmds.list = [] := (congrArg (fun u : State => u.cmds.list) hk :).trans hcmds
  have hgo : s.loseRings q = (State.logLost (s.ringsOf q) q ((State.lostRings (s.ringsOf q) s).setIrq pgDbel 2)).settleAborts := by
    unfold State.loseRings
    rw [hf]
    change (if (s.ringsOf q).isEmpty = true then s else
      (State.logLost (s.ringsOf q) q ((((State.lostRings (s.ringsOf q) s).cmds.list.filter _).foldl _ (State.lostRings (s.ringsOf q) s)).setIrq pgDbel 2)).settleAborts) = _
    rw [hne, if_neg (by decide), hnone]
    rfl
  generalize State.lostRings (s.ringsOf q) s = v at *
  have hirq : v.setIrq pgDbel 2 = { v with rf := (v.setIrq pgDbel 2).rf, host := (v.setIrq pgDbel 2).host } := State.eq_of_groups (by simp)
  have hrings : (v.setIrq pgDbel 2).host.rings = v.host.rings := State.setIrq_rings ..
  generalize v.setIrq pgDbel 2 = w at *
  obtain ⟨hlogged, hrest⟩ := State.logLost_keeps (s.ringsOf q) q w
  generalize State.logLost (s.ringsOf q) q w = x at *
  have hx : x = { s with rf := x.rf, host := x.host } := by
    have hwx : x = { w with rf := x.rf, host := x.host } := (congrArg (fun u : State => ({ u with rf := x.rf, host := x.host } : State)) hrest :)
    rw [hwx, hirq, hk]
  rw [hgo, State.settleAborts_none ((congrArg (fun u : State => u.cmds.list) hx :).trans hcmds)] at ht
  subst ht
  refine ⟨?_, hx⟩
  rw [State.ring_congr (hlogged.trans hrings)]
  exact hlost

end Sys2Proof.Machine
end

section
open Sys2Proof Sys2Proof.Machine

/-- Settles O25, write by write (`act_rcfg`, `sqDoorbell_eq`, `cqDoorbell_eq`) and step by step. -/
theorem ringsRunAndStop : Obligations.RingsRunAndStop := by
  unfold Obligations.RingsRunAndStop
  refine ⟨?create, ?disable, ?tail, ?badTail, ?head, ?delay, ?lost, ?fetch, ?holds, ?skips⟩
  case create =>
    intro s u ag v hw hst hv hok hwf
    have hgo : s.poke ag pgDbel 0x10C (2 ^ 31 + v % 2 ^ 31) = u.ringStart (s.fld pgDbel 0x108 0 12) := by
      rw [State.poke_applied hw rfl, State.act_rcfg]
      exact State.ringCfg_starts hst hv (bitOf_enable (Nat.mod_lt _ (by decide))).1 hok
    have hu := State.applyFields_rf hv
    rw [exec_ringCreate, hgo]
    generalize s.fld pgDbel 0x108 0 12 = n at *
    refine ⟨u.ringStart n, State.did_of_keeps (congrArg State.pending hu :) (congrArg State.nrt hu :), State.ring_setRing .., fun m hm => ?_, fun i hi => ?_, ?_⟩
    · rw [State.ringStart, State.ring_setRing_ne hm]
      exact State.ring_congr (congrArg (fun u : State => u.host.rings) hu :) m
    · exact Mem.read_zero_in (by omega) (by omega) _
    · have hkeep (m : Mem) (h : HostState) : ({ u with mem := m, host := h } : State) = { s with mem := m, rf := u.rf, host := h } :=
        (congrArg (fun u : State => ({ u with mem := m, host := h } : State)) hu :)
      exact hkeep _ _
  case disable =>
    intro s u ag v hw hst hv
    have hu := State.applyFields_rf hv
    have hring (m : Nat) : u.ring m = s.ring m := State.ring_congr (congrArg (fun u : State => u.host.rings) hu :) m
    have hgo : s.poke ag pgDbel 0x10C (v % 2 ^ 31) = u.setRing (s.fld pgDbel 0x108 0 12) { u.ring (s.fld pgDbel 0x108 0 12) with
        st := if (u.ring (s.fld pgDbel 0x108 0 12)).inflight = 0 then .disabled else .draining } := by
      rw [State.poke_applied hw rfl, State.act_rcfg, State.ringCfg_stops hv (bitOf_enable (Nat.mod_lt _ (by decide))).2]
      unfold State.ringStop
      dsimp only
      rw [hring, hst]
    rw [exec_ringDisable, hgo]
    generalize s.fld pgDbel 0x108 0 12 = n at *
    refine ⟨_, State.did_of_keeps (congrArg State.pending hu :) (congrArg State.nrt hu :), by rw [State.ring_setRing, hring], fun m hm => ?_, ?_⟩
    · rw [State.ring_setRing_ne hm, hring]
    · have hkeep (h : HostState) : ({ u with host := h } : State) = { s with rf := u.rf, host := h } := (congrArg (fun u : State => ({ u with host := h } : State)) hu :)
      exact hkeep _
  case tail =>
    intro s ag n i hw hn hi hlt hdis hlost
    rw [exec_sqDb, State.sqDb_runs hw hn hi, State.sqDoorbell_eq hn hi, if_neg (not_or.mpr ⟨hdis, not_or.mpr ⟨hlost, by omega⟩⟩)]
    exact State.did_of_keeps rfl rfl
  case badTail =>
    intro s ag n i hw hn hi hbad
    rw [exec_sqDb, State.sqDb_runs hw hn hi, State.sqDoorbell_eq hn hi, if_pos (by tauto), State.dbRej]
    exact State.did_of_keeps (by simp) (by simp)
  case head =>
    intro s ag n i hw hn hi hlt hle hdis hlost
    rw [exec_cqDb, State.cqDb_runs hw hn hi, State.cqDoorbell_eq hn hi, 
      if_neg (not_or.mpr ⟨hdis, not_or.mpr ⟨hlost, not_or.mpr ⟨by omega, by omega⟩⟩⟩)]
    exact State.did_of_keeps rfl rfl
  case delay =>
    intro s n hrun hunsig hat
    have hgo : s.cqDelay n = (s.setRing n { s.ring n with unsig := 0 }).hostSend (.msg (bitsOf (s.ring n).rvec.toNat 16 11)) := by
      rw [State.cqDelay]
      exact if_pos ⟨hunsig, by rwa [usTicks, Nat.mul_comm]⟩
    refine ⟨_, (exec_cqIrqDelay ..).trans (State.inService_keeps hrun hgo (by simp) (by simp)), ?_, rfl⟩
    rw [State.ring_congr (State.hostSend_rings ..), State.ring_setRing]
  case lost =>
    intro s q n r hrun hq hf hmem hst harea hcmds
    obtain ⟨hlost, hk⟩ := State.loseRings_alone hf hmem hst harea hcmds rfl
    exact ⟨_, (exec_ringLost hq s).trans (State.inService_keeps (f := (·.loseRings q)) hrun rfl (congrArg State.pending hk :) (congrArg State.nrt hk :)), hlost, hk⟩
  case fetch =>
    intro s u n b hrun hmay hwhole hholds hskip hsub
    rw [exec_ringFetch, State.inService_on hrun, State.ringFetch_takes hmay hwhole hholds, State.takeHead]
    dsimp only
    rw [if_neg (by omega), hsub, Option.getD_some]
  case holds =>
    intro s n b hrun hmay hwhole hholds
    have hgo : s.ringFetch n = s.setRing n { s.ring n with blocked := true } := by
      unfold State.ringFetch
      rw [hmay, hwhole, hholds]
      rfl
    exact (exec_ringFetch ..).trans (State.inService_keeps hrun hgo rfl rfl)
  case skips =>
    intro s n b hrun hmay hwhole hholds hskip
    refine ⟨_, ?_, rfl⟩
    rw [exec_ringFetch, State.inService_on hrun, State.ringFetch_takes hmay hwhole hholds, State.takeHead]
    dsimp only
    rw [if_pos hskip, Option.getD_some]

end

section
/-!
SUPPORT. What the end of commands, jobs, merge contexts and outbound operations leaves of the egress, the lease and the power state (R414).
-/

namespace Sys2Proof.Machine

variable {s t : State}

/-- Egress, lease and power. -/
def State.tenure (s : State) : EgressState × LeaseState × PowerState := (s.egress, s.lease, s.pw)

theorem State.tenure_iff : t.tenure = s.tenure ↔ t.egress = s.egress ∧ t.lease = s.lease ∧ t.pw = s.pw := by
  simp [State.tenure]

theorem State.tenure_congr (he : t.egress = s.egress) (hl : t.lease = s.lease) (hp : t.pw = s.pw) : t.tenure = s.tenure := by
  rw [State.tenure, State.tenure, he, hl, hp]

@[simp] theorem State.setCmd_tenure (c : Cmd) : (s.setCmd c).tenure = s.tenure := rfl

@[simp] theorem State.putMctx_tenure (k : MergeKey) (c : MergeCtx) : (s.putMctx k c).tenure = s.tenure := rfl

@[simp] theorem State.putJob_tenure (j : AttnJob) : (s.putJob j).tenure = s.tenure := rfl

@[simp] theorem State.setEng_tenure (e : EngState) : (s.setEng e).tenure = s.tenure := rfl

@[simp] theorem State.setNet_tenure (n : NetState) : (s.setNet n).tenure = s.tenure := rfl

@[simp] theorem State.sweepSets_tenure (s : State) : s.sweepSets.tenure = s.tenure := rfl

/-! ### Merge contexts and partials -/

@[simp] theorem State.sendPartial_tenure (c : Cmd) (d : AttnD) (j : AttnJob) (r : PartialRec) : (s.sendPartial c d j r).tenure = s.tenure := by
  unfold State.sendPartial
  split <;> simp [State.tenure]

@[simp] theorem State.decided_tenure (i st h : Nat) : (s.decided i st h).tenure = s.tenure := by simp [State.tenure]

@[simp] theorem State.takePartial_tenure (r : PartialRec) : (s.takePartial r).s.tenure = s.tenure := by
  unfold State.takePartial
  dsimp only
  (repeat' split) <;> simp [State.tenure]

@[simp] theorem State.emitPartial_tenure (c : Cmd) (d : AttnD) (j : AttnJob) (r : PartialRec) : (s.emitPartial c d j r).1.tenure = s.tenure := by
  unfold State.emitPartial
  split
  · simp [State.tenure]
  · split
    · dsimp only
      rw [State.decided_tenure, State.takePartial_tenure]
      simp [State.tenure]
    · exact State.sendPartial_tenure ..

@[simp] theorem State.forwardCtx_tenure (n : Nat) (s : State) (k : MergeKey) : (State.forwardCtx n s k).tenure = s.tenure := by
  induction n generalizing s k with
  | zero => rfl
  | succ n ih =>
    cases hc : s.mctx k with
    | none => simp [State.forwardCtx, hc]
    | some c =>
      have hclose (off : Nat) : ((s.putMctx k (s.closing c)).bump (ctxPage c) off 1).tenure = s.tenure := by simp [State.tenure]
      obtain h | ⟨off, a, d, j, r, out, hout, ⟨-, h⟩ | ⟨k', -, h⟩⟩ := State.forwardCtx_cases hc n
      · rw [h]
        rfl
      · rw [h, hout, State.emitPartial_tenure, hclose]
      · rw [h, ih, hout, State.emitPartial_tenure, hclose]

@[simp] theorem State.localPart_tenure (k : MergeKey) (a : PartAcc) : (s.localPart k a).tenure = s.tenure := by
  unfold State.localPart
  split
  · rfl
  · split
    · rfl
    · extract_lets _ c t
      have ht : t.tenure = s.tenure := rfl
      split
      · rw [State.forwardCtx_tenure, ht]
      · exact ht

@[simp] theorem State.attnDone_tenure (i : Nat) : (s.attnDone i).tenure = s.tenure := by
  unfold State.attnDone
  dsimp only
  split
  · split
    · rfl
    · split
      · simp
      · split <;> simp
  · rfl

@[simp] theorem State.attnEnd_tenure (i st : Nat) : (s.attnEnd i st).tenure = s.tenure := by
  unfold State.attnEnd
  split
  · rfl
  · rw [State.attnDone_tenure]
    rfl

@[simp] theorem State.killCtx_tenure (k : MergeKey) (st : Nat) : (s.killCtx k st).tenure = s.tenure := by
  unfold State.killCtx
  (repeat' split) <;> simp

/-! ### Commands -/

@[simp] theorem State.finish_tenure (c : Cmd) (r : Result) : (s.finish c r).tenure = s.tenure := by simp [State.tenure]

@[simp] theorem State.finishId_tenure (i : Nat) (r : Result) : (s.finishId i r).tenure = s.tenure := by simp [State.tenure]

@[simp] theorem State.endAttn_tenure (c : Cmd) (j : AttnJob) (st : Nat) : (s.endAttn c j st).tenure = s.tenure := by simp [State.tenure]

@[simp] theorem State.dropFrags_tenure (i : Nat) (now : Bool) : (s.dropFrags i now).tenure = s.tenure := by simp [State.tenure]

@[simp] theorem State.endDying_tenure (c : Cmd) (st : Nat) : (s.endDying c st).tenure = s.tenure := by
  unfold State.endDying
  split
  · simp
  · dsimp only
    (repeat' split) <;> simp

@[simp] theorem State.dropOutbound_tenure (o : Outbound) : (s.dropOutbound o).tenure = s.tenure := by
  unfold State.dropOutbound
  dsimp only
  (repeat' split) <;> rfl

@[simp] theorem State.pumpOutbound_tenure (s : State) : s.pumpOutbound.tenure = s.tenure := by
  have hlow (a b : State) : (a.poolLow b).tenure = b.tenure := by
    unfold State.poolLow
    split <;> simp [State.tenure]
  unfold State.pumpOutbound
  dsimp only
  rw [hlow]
  refine State.foldl_fst_keeps State.tenure _ (fun x o => ?_) s.net.outbound (s, [])
  (repeat' split) <;> simp [State.tenure]

/-! ### Fills and checkpoint jobs -/

@[simp] theorem State.failFill_tenure (d v : Nat) : (s.failFill d v).tenure = s.tenure := by simp [State.tenure]

@[simp] theorem State.readAll_tenure (fs : List Nat) (cls : Nat) : (s.readAll fs cls).1.tenure = s.tenure := by
  refine State.foldl_fst_keeps State.tenure _ (fun x f => ?_) fs (s, false)
  refine State.foldl_fst_keeps State.tenure _ (fun y w => ?_) _ _
  split <;> simp [State.tenure]

theorem State.startExport_tenure {kind : JobKind} {cmd d q idx offset : Nat} {recipient : List Byte} {full : Bool} {x : State × Job}
    (h : s.startExport kind cmd d q idx offset recipient full = .ok x) : x.1.tenure = s.tenure := by
  unfold State.startExport at h
  split at h
  case h_2 => cases h
  case h_1 r e _ _ =>
    extract_lets sh s1 l o at h
    split at h
    · cases h
    · rename_i id set _ s2 writes n j _ s3 s4 s5 s6 s7 s8 _
      obtain rfl := Except.ok.inj h
      have h5 : s5.tenure = s1.tenure := by simp [s5, s4, s3, s2, State.tenure, State.putJobRec]
      have h8 : s8.tenure = s7.tenure := State.foldl_keeps State.tenure _ (fun s w => by simp [State.tenure]) _ _
      have h7 : s7.tenure = s5.tenure := by simp [s7, s6, State.tenure]
      have hend : (s8.storeFlush id d idx).tenure = s8.tenure := by simp [State.tenure]
      rw [State.pumpOutbound_tenure, hend, h8, h7, h5]
      exact State.readAll_tenure ..

@[simp] theorem State.nextOverflow_tenure (d : Nat) (o : Overflow) (qs : List Nat) (s : State) : (s.nextOverflow d o qs).tenure = s.tenure := by
  induction qs with
  | nil => rfl
  | cons q qs ih =>
    unfold State.nextOverflow
    split
    · exact ih
    · split
      · exact ih
      · split
        · exact ih
        · rename_i h
          exact State.startExport_tenure h

@[simp] theorem State.destroySeq_tenure (d q : Nat) (r : SeqRec) : (s.destroySeq d q r).1.tenure = s.tenure := by
  have h := State.eq_of_outside (State.destroySeq_keeps s d q r).1
  generalize (s.destroySeq d q r).1 = t at h
  rw [h]
  rfl

@[simp] theorem State.unpinJob_tenure (j : Job) : (s.unpinJob j).tenure = s.tenure := by
  refine State.foldl_keeps State.tenure _ (fun s p => ?_) _ _
  split <;> simp [State.tenure]

@[simp] theorem State.closeJob_tenure (j : Job) : (s.closeJob j).tenure = s.tenure := by
  have hops : ((s.jobOps j.id).foldl (fun s o => s.dropOutbound o) (s.dropJobRec j.id)).tenure = s.tenure :=
    State.foldl_keeps State.tenure _ (fun s o => s.dropOutbound_tenure o) _ _
  unfold State.closeJob
  extract_lets a _ b
  have hb : b.tenure = s.tenure := (State.unpinJob_tenure j).trans hops
  rw [← hb]
  split
  · split
    · exact State.nextOverflow_tenure _ _ _ _
    · rfl
  · rfl
  · (repeat' split) <;> rfl
  · split
    · rw [State.sweepSets_tenure, State.destroySeq_tenure]
    · rfl

@[simp] theorem State.failJob_tenure (i st : Nat) : (s.failJob i st).tenure = s.tenure := by
  unfold State.failJob
  split
  · rfl
  · extract_lets t
    have ht : t.tenure = s.tenure := s.closeJob_tenure _
    split
    · exact ht
    · rw [State.finishId_tenure, ht]
    · rw [State.finishId_tenure, ht]

@[simp] theorem State.endWord_tenure (c : Cmd) (d : WaitWordD) (r : Result) : (s.endWord c d r).tenure = s.tenure := by simp [State.tenure]

@[simp] theorem State.finishHeld_tenure (c : Cmd) (r : Result) : (s.finishHeld c r).tenure = s.tenure := by simp [State.tenure]

@[simp] theorem State.abortCmd_tenure (c : Cmd) (st : Nat) (now : Bool) : (s.abortCmd c st now).tenure = s.tenure := by
  have hops (l : List Outbound) : (l.foldl (fun (s : State) o => if o.sent then s.setNet { s.net with outbound := s.net.outbound.map (fun x =>
      if x.who = .cmd c.id then { x with abandoned := true } else x) } else s.dropOutbound o) s).tenure = s.tenure := by
    refine State.foldl_keeps State.tenure _ (fun s o => ?_) _ _
    split
    · rfl
    · exact State.dropOutbound_tenure o
  unfold State.abortCmd
  dsimp only
  split
  · rfl
  · split <;> simp
  · split <;> simp
  · split <;> simp
  · simp [hops]
  · simp [hops]
  · simp [hops]
  · simp [hops]
  · simp [hops]
  · split <;> simp
  · split <;> simp
  · split <;> simp
  · exact State.finishHeld_tenure ..

/-! ### The fence of the node (R414) -/

@[simp] theorem State.endCut_tenure (c : Cmd) (st : Nat) : (s.endCut c st).tenure = s.tenure := by
  unfold State.endCut
  (repeat' split) <;> simp

@[simp] theorem State.cutCmd_tenure (c : Cmd) (st : Nat) : (s.cutCmd c st).tenure = s.tenure := by
  unfold State.cutCmd
  split <;> simp

@[simp] theorem State.abortMerge_tenure (a : AbortD) : (s.abortMerge a).tenure = s.tenure := by
  unfold State.abortMerge
  split
  · exact State.foldl_keeps State.tenure _ (fun _ _ => State.killCtx_tenure ..) _ _
  · rfl
  · rfl

@[simp] theorem State.settleAbort_tenure (i : Nat) : (s.settleAbort i).tenure = s.tenure := by
  unfold State.settleAbort
  split
  · rfl
  · split
    · split
      · rfl
      · dsimp only
        rw [State.finish_tenure]
        split
        · split
          · exact State.abortMerge_tenure _
          · rfl
        · rfl
    · rfl

@[simp] theorem State.settleAborts_tenure (s : State) : s.settleAborts.tenure = s.tenure := by
  unfold State.settleAborts
  exact State.foldl_keeps State.tenure _ (fun _ _ => State.settleAbort_tenure _) _ _

/-- The node is FENCED: the first thing that fencing it does. -/
def State.fencing (s : State) (cause : Nat) : State :=
  (({ s with lease := { s.lease with st := .fenced, cause := cause } } : State).bump pgNode 0x23C 1).setIrq pgNode 4

/-- Every admitted command ends, and the merge contexts are freed. -/
def State.cutAll (s : State) : State :=
  let t := s.cmds.list.foldl (fun (s : State) c => match s.cmd c.id with | some c => s.cutCmd c stAborted | none => s) s
  t.setEng { t.eng with merge := [] }

/-- Every fill fails. -/
def State.failFills (s : State) : State := s.kv.fills.foldl (fun (s : State) f => s.failFill f.domain f.vpn) s

/-- Every checkpoint job fails, and no overflow goes on. -/
def State.failJobs (s : State) : State :=
  s.ckpt.jobs.foldl (fun (s : State) (p : Nat × Job) => s.failJob p.1 stAborted) (s.setCkpt { s.ckpt with overflow := [] })

/-- Every operation of the node is dropped. -/
def State.dropAllOutbound (s : State) : State := s.net.outbound.foldl (fun (s : State) o => s.dropOutbound o) s

theorem State.fenceNode_eq (hf : s.nodeFenced = false) (cause : Nat) :
    s.fenceNode cause = (s.fencing cause).cutAll.failFills.failJobs.dropAllOutbound.settleAborts := by
  unfold State.fenceNode
  exact if_neg (by simp [hf])

@[simp] theorem State.cutAll_tenure (s : State) : s.cutAll.tenure = s.tenure := by
  refine State.foldl_keeps State.tenure _ (fun s c => ?_) s.cmds.list s
  split <;> simp

@[simp] theorem State.failFills_tenure (s : State) : s.failFills.tenure = s.tenure :=
  State.foldl_keeps State.tenure _ (fun _ _ => State.failFill_tenure ..) _ _

@[simp] theorem State.failJobs_tenure (s : State) : s.failJobs.tenure = s.tenure :=
  State.foldl_keeps State.tenure _ (fun _ _ => State.failJob_tenure ..) _ _

@[simp] theorem State.dropAllOutbound_tenure (s : State) : s.dropAllOutbound.tenure = s.tenure :=
  State.foldl_keeps State.tenure _ (fun _ _ => State.dropOutbound_tenure _) _ _

/-- The fence sets the state and the cause of the lease, and leaves the rest of it, the egress and the power state as they are. -/
theorem State.fenceNode_tenure (hf : s.nodeFenced = false) (cause : Nat) :
    (s.fenceNode cause).tenure = (s.egress, { s.lease with st := .fenced, cause := cause }, s.pw) := by
  rw [State.fenceNode_eq hf]
  simp only [State.settleAborts_tenure, State.dropAllOutbound_tenure, State.failJobs_tenure, State.failFills_tenure, State.cutAll_tenure]
  simp [State.fencing, State.tenure]

theorem State.fenceNode_lease (hf : s.nodeFenced = false) (cause : Nat) : (s.fenceNode cause).egress = s.egress ∧
    (s.fenceNode cause).lease = { s.lease with st := .fenced, cause := cause } ∧ (s.fenceNode cause).pw = s.pw := by
  simpa [State.tenure] using State.fenceNode_tenure hf cause

end Sys2Proof.Machine
end

section
/-!
SUPPORT. The timers of the lease (R412, R414, R418).
-/

namespace Sys2Proof.Machine

variable {s t : State}

theorem exec_leaseExpire (s : State) : exec .leaseExpire s = s.inService (·.leaseExpire) := rfl
theorem exec_leaseLow (s : State) : exec .leaseLow s = s.inService (·.leaseLow) := rfl
theorem exec_graceEnd (s : State) : exec .graceEnd s = s.inService (·.graceEnd) := rfl

theorem State.not_fenced_of_leased (h : s.lease.st = .leased) : s.nodeFenced = false := by rw [State.nodeFenced, h]; rfl

theorem State.nodeFenced_of_lease (h : s.lease.st = .fenced) : s.nodeFenced = true := by rw [State.nodeFenced, h]; rfl

theorem State.leaseExpire_of (hl : s.lease.st = .leased) (he : s.lease.expiry ≤ s.nrt) :
    s.leaseExpire = (s.logErr pgNode 4 0 (s.lease.held.getD 0).toNat).fenceNode 1 := if_pos ⟨hl, he⟩

theorem State.leaseLow_of (hl : s.lease.st = .leased) (hs : s.lease.lowSent = false)
    (he : s.lease.expiry < s.nrt + 100000 * s.fld pgNode 0x204 16 10) :
    s.leaseLow = (s.setLease { s.lease with lowSent := true }).setIrq pgNode 8 := by
  rw [Nat.mul_comm] at he
  exact if_pos ⟨hl, hs, he⟩

theorem State.graceEnd_of {e : Word} (hp : s.lease.prev = some e) (hg : s.lease.graceTill ≤ s.nrt) :
    s.graceEnd = (s.setLease { s.lease with prev := none, graceTill := 0 }).setIrq pgNode 2 := if_pos ⟨by rw [hp]; rfl, hg⟩

/-- An interrupt of the NODE page that `setIrq` raises stands in its status. -/
theorem State.setIrq_node_bit (s : State) {bits n : Nat} (h : (BitVec.ofNat 32 bits &&& BitVec.ofNat 32 (irqBits pgNode)).getLsbD n = true) :
    bitOf ((s.setIrq pgNode bits).reg pgNode 0x20).toNat n = true := by
  have hset : ((s.setIrq pgNode bits).reg pgNode 0x20).getLsbD n = true := by
    rw [State.setIrq_stat (fun l => by cases l <;> decide), BitVec.getLsbD_or, h, Bool.or_true]
  rw [BitVec.getLsbD, Nat.testBit_eq_decide_div_mod_eq] at hset
  exact hset

/-- What a fence touches of the node, once its queue and its clock are put back. -/
theorem State.fenced_frame {u : State} (he : u.egress = s.egress) (hp : u.pw = s.pw) :
    ({ u with pending := s.pending, nrt := s.nrt } : State) = { s with
      fresh := u.fresh, mem := u.mem, rf := u.rf, host := u.host, cmds := u.cmds, net := u.net, kv := u.kv, eng := u.eng
      lease := u.lease, sec := u.sec, fw := u.fw, integ := u.integ, ckpt := u.ckpt } := by
  rw [← he, ← hp]

end Sys2Proof.Machine
end

section
open Sys2Proof Sys2Proof.Machine

/-- Settles O15: a lapse is the fence with cause 1, which leaves egress and power alone; the other two set their interrupt of the NODE page. -/
theorem leaseTimersEnd : Obligations.LeaseTimersEnd := by
  unfold Obligations.LeaseTimersEnd
  refine ⟨fun s hrun hl he => ?_, fun s hrun hl hs he => ?_, fun s e hrun hp hg => ?_⟩
  · obtain ⟨heg0, hlease0, hpw0⟩ : (s.logErr pgNode 4 0 (s.lease.held.getD 0).toNat).egress = s.egress ∧
        (s.logErr pgNode 4 0 (s.lease.held.getD 0).toNat).lease = s.lease ∧ (s.logErr pgNode 4 0 (s.lease.held.getD 0).toNat).pw = s.pw := by
      simp
    obtain ⟨heg, hlease, hpw⟩ := State.fenceNode_lease (State.not_fenced_of_leased (hlease0.symm ▸ hl)) 1
    rw [exec_leaseExpire, State.inService_on hrun, State.leaseExpire_of hl he]
    generalize (s.logErr pgNode 4 0 (s.lease.held.getD 0).toNat).fenceNode 1 = u at *
    rw [hlease0] at hlease
    exact ⟨_, rfl, State.nodeFenced_of_lease (congrArg LeaseState.st hlease), hlease, State.fenced_frame (heg.trans heg0) (hpw.trans hpw0)⟩
  · rw [exec_leaseLow, State.inService_keeps hrun (State.leaseLow_of hl hs he) (by simp [State.setLease]) (by simp [State.setLease])]
    exact ⟨_, rfl, by simp [State.setLease], State.setIrq_node_bit _ (by decide), State.eq_of_groups (by simp [State.setLease])⟩
  · rw [exec_graceEnd, State.inService_keeps hrun (State.graceEnd_of hp hg) (by simp [State.setLease]) (by simp [State.setLease])]
    exact ⟨_, rfl, by simp [State.setLease], State.setIrq_node_bit _ (by decide), State.eq_of_groups (by simp [State.setLease])⟩

end

section
/-!
SUPPORT. GO of the NODE page: renewals, grants, releases and the two ways out of FENCED (R412, R416, R417, R420).
-/

namespace Sys2Proof.Machine

variable {s t : State}

theorem exec_renew (ag : Agent) (s : State) : exec (.renew ag) s = s.did (s.poke ag pgNode 0x220 1) := rfl
theorem exec_grant (ag : Agent) (s : State) : exec (.grant ag) s = s.did (s.poke ag pgNode 0x220 2) := rfl
theorem exec_forcedFence (ag : Agent) (s : State) : exec (.forcedFence ag) s = s.did (s.poke ag pgNode 0x220 4) := rfl
theorem exec_release (ag : Agent) (s : State) : exec (.release ag) s = s.did (s.poke ag pgNode 0x220 8) := rfl
theorem exec_rejoinDiscard (ag : Agent) (s : State) : exec (.rejoinDiscard ag) s = s.did (s.poke ag pgNode 0x220 0x10) := rfl
theorem exec_rejoinReinstate (ag : Agent) (s : State) : exec (.rejoinReinstate ag) s = s.did (s.poke ag pgNode 0x220 0x20) := rfl

/-- A write of GO acts on its bits. -/
theorem State.poke_go {ag : Agent} (hw : s.mayWrite ag pgNode 0x220 = true) (v : Nat) : s.poke ag pgNode 0x220 v = s.go (w32 v).toNat :=
  State.poke_applied hw (by decide) v

theorem State.go_renew (s : State) : s.go (w32 1).toNat = s.orRefuse pgNode s.renew := rfl
theorem State.go_grant (s : State) : s.go (w32 2).toNat = s.goGrant := rfl
theorem State.go_fence (s : State) : s.go (w32 4).toNat = s.goFence := rfl
theorem State.go_release (s : State) : s.go (w32 8).toNat = s.orRefuse pgNode s.releaseSlot := rfl
theorem State.go_discard (s : State) : s.go (w32 0x10).toNat = s.orRefuse pgNode s.rejoinDiscard := rfl
theorem State.go_reinstate (s : State) : s.go (w32 0x20).toNat = s.orRefuse pgNode s.rejoinKeep := rfl

theorem msTicks_eq (n : Nat) : msTicks n = 100000 * n := Nat.mul_comm ..

/-! ### RENEW and GRANT (R412, R417) -/

theorem State.extend_eq (s : State) (n : Word) (i t0 : Nat) : s.extend n (i, t0) = { s with lease := { s.lease with
    held := some n, heldIdx := i, expiry := max s.lease.expiry (t0 + 100000 * s.leaseMs), lowSent := false } } := by
  rw [← msTicks_eq]
  rfl

theorem State.renew_of {i t0 : Nat} (hl : s.lease.st = .leased) (hs : s.serialAt (s.reg pgNode 0x20C) = some (i, t0)) :
    s.renew = some (s.extend (s.reg pgNode 0x20C) (i, t0)) := by
  unfold State.renew
  rw [if_neg (not_not_intro hl), hs]
  rfl

/-- The connections that close with a change of the composition are the network's. -/
theorem State.closeBound_outcome (s : State) (f : Nat → Bool) : s.closeBound f = { s with net := (s.closeBound f).net } := by
  have hkeep (u : State) (i : Nat) : { u.startClose i with net := .blank } = { u with net := .blank } := State.eq_of_groups (by simp)
  have h : { s.closeBound f with net := .blank } = { s with net := .blank } :=
    State.foldl_keeps (fun u : State => { u with net := .blank }) _ (fun u p => hkeep u p.1) _ s
  generalize s.closeBound f = t at *
  exact (congrArg (fun u : State => { u with net := t.net }) h :)

theorem State.closeBound_lease (s : State) (f : Nat → Bool) : (s.closeBound f).lease = s.lease := by
  rw [State.closeBound_outcome]

/-- The lease that a grant leaves: the composition and the slot that the registers give, and `epochs` the epochs that it makes of the lease
that the serial extended. -/
def State.grantLease (s : State) (i t0 : Nat) (epochs : LeaseState → LeaseState) : LeaseState :=
  let l := epochs (s.extend (s.reg pgNode 0x20C) (i, t0)).lease
  { l with
    st := .leased, comp := some (s.fld pgNode 0x210 16 10, s.fld pgNode 0x210 0 16), rejoined := false
    last := (s.reg pgNode 0x214 :: l.last.filter (· != s.reg pgNode 0x214)).take 2 }

/-- The epochs of a node that is granted a slot from UNLEASED. -/
def firstEpoch (e : Word) (l : LeaseState) : LeaseState := { l with cur := e, prev := none, graceTill := 0 }

/-- The epochs of a node whose epoch changes: the old one stands until the grace window ends. -/
def nextEpoch (e : Word) (till : Nat) (l : LeaseState) : LeaseState := { l with cur := e, prev := some l.cur, graceTill := till }

theorem State.grant_unleased {i t0 : Nat} (hl : s.lease.st = .unleased) (hs : s.serialAt (s.reg pgNode 0x20C) = some (i, t0))
    (hok : (s.lease.rejoined && s.lease.last.contains (s.reg pgNode 0x214)) = false) :
    s.grant = some ((s.setLease (s.grantLease i t0 (firstEpoch (s.reg pgNode 0x214)))).closeBound (fun c => c != s.fld pgNode 0x210 16 10)) := by
  unfold State.grant
  simp only [hl, hok, hs, Bool.not_false, Bool.not_true, Bool.false_eq_true, if_false, if_true]
  rfl

theorem State.grant_leased {i t0 : Nat} (hl : s.lease.st = .leased) (hs : s.serialAt (s.reg pgNode 0x20C) = some (i, t0))
    (hc : s.lease.comp = some (s.fld pgNode 0x210 16 10, s.fld pgNode 0x210 0 16)) (he : s.reg pgNode 0x214 ≠ s.lease.cur) :
    s.grant = some ((s.setLease (s.grantLease i t0 (nextEpoch (s.reg pgNode 0x214)
      (s.nrt + 100000 * min (s.fld pgNode 0x218 0 11) (2 * s.leaseMs))))).closeBound (fun c => c != s.fld pgNode 0x210 16 10)) := by
  have hcur : s.reg pgNode 0x214 ≠ (s.extend (s.reg pgNode 0x20C) (i, t0)).lease.cur := he
  unfold State.grant
  simp only [hl, hc, hs, beq_self_eq_true, Bool.not_true, Bool.false_eq_true, if_false, reduceCtorEq, if_neg hcur]
  rw [← msTicks_eq]
  rfl

/-- What `openMeter` sets is the meter sets of the firmware. -/
theorem State.openMeter_outcome {c : Nat} (h : s.openMeter c = some t) : t = { s with fw := t.fw } := by
  unfold State.openMeter at h
  dsimp only at h
  split at h
  · cases h
    rfl
  · split at h
    · cases h
      rfl
    · split at h
      · cases h
      · cases h
        rfl

/-- A grant that gives the lease `l` and closes connections, whatever the meters are, and what it leaves. -/
theorem State.goGrant_outcome {l : LeaseState} {f : Nat → Bool} (hrun : s.running = true)
    (hm : (s.openMeter (s.fld pgNode 0x210 16 10)).isSome = true)
    (hg : ∀ fw, ({ s with fw := fw } : State).grant = some ((({ s with fw := fw } : State).setLease l).closeBound f)) :
    s.goGrant.lease = l ∧ s.goGrant = { s with net := s.goGrant.net, lease := s.goGrant.lease, fw := s.goGrant.fw } := by
  obtain ⟨t, ht⟩ := Option.isSome_iff_exists.mp hm
  obtain ⟨fw, rfl⟩ : ∃ fw, t = { s with fw := fw } := ⟨t.fw, State.openMeter_outcome ht⟩
  have hgo : s.goGrant = (({ s with fw := fw } : State).setLease l).closeBound f := by
    unfold State.goGrant
    rw [hrun, show s.grant = some ((s.setLease l).closeBound f) from hg s.fw]
    simp only [ht, hg fw, Bool.not_true, Bool.false_eq_true, if_false]
    rfl
  have hout := (({ s with fw := fw } : State).setLease l).closeBound_outcome f
  rw [hgo]
  generalize (({ s with fw := fw } : State).setLease l).closeBound f = u at *
  rw [hout]
  exact ⟨rfl, rfl⟩

/-! ### RELEASE, FENCE and REINSTATE (R420, R414, R416) -/

/-- The lease of a node that holds no slot. -/
def vacantLease (l : LeaseState) : LeaseState :=
  { l with st := .unleased, comp := none, prev := none, graceTill := 0, held := none, heldIdx := 0, expiry := 0, cur := 0 }

theorem State.releaseSlot_of {c k : Nat} (hl : s.lease.st = .leased) (hc : s.lease.comp = some (c, k)) :
    s.releaseSlot = some ((s.setLease (vacantLease s.lease)).closeBound (fun x => x == c)) := by
  unfold State.releaseSlot
  rw [hl, hc]
  rfl

theorem State.goFence_of (h : s.nodeFenced = false) : s.goFence = s.fenceNode 2 := if_neg (by simp [h])

theorem State.rejoinKeep_of (h : s.nodeFenced = true) : s.rejoinKeep = some s.unfence := if_pos h

/-! ### DISCARD (R416) -/

/-- A state without its registers, host interface, KV store and engines. -/
def State.unserved (s : State) : State := { s.unpaged with eng := .blank }

theorem State.unserved_of_unpaged (h : t.unpaged = s.unpaged) : t.unserved = s.unserved := congrArg (fun u : State => { u with eng := .blank }) h

theorem State.eq_of_unserved (h : t.unserved = s.unserved) : t = { s with rf := t.rf, host := t.host, kv := t.kv, eng := t.eng } := by
  cases s; cases t
  simp only [State.unserved, State.unpaged, State.mk.injEq] at h
  simp_all

/-- Every sequence is destroyed. -/
def State.destroySeqs (s : State) : State := s.kv.seqs.foldl (fun (s : State) p => (s.destroySeq p.1.1 p.1.2 p.2).1) s

/-- Every gradient page is dropped. -/
def State.dropGrads (s : State) : State := s.eng.grads.foldl (fun (s : State) g => s.dropGrad g.1) s

/-- The merge contexts and the headroom go. -/
def State.clearMerge (s : State) : State := s.setEng { s.eng with merge := [], headroom := [] }

/-- The connections that are bound to a composition are lost. -/
def State.loseBound (s : State) : State :=
  (s.net.conns.filter (fun (p : Nat × Conn) => p.2.composition != 0xFFFF)).foldl (fun (s : State) p =>
    let s := s.setNet { s.net with lost := s.net.lost ++ [connId p.2] }
    s.endConn p.2) s

theorem State.rejoinDiscard_of (h : s.nodeFenced = true) :
    s.rejoinDiscard = some s.destroySeqs.dropGrads.clearMerge.loseBound.sweepSets.unfence := by
  unfold State.rejoinDiscard
  exact if_neg (by simp [h])

theorem State.foldl_destroySeq (l : List ((Nat × Nat) × SeqRec)) (s : State) :
    (l.foldl (fun (s : State) p => (s.destroySeq p.1.1 p.1.2 p.2).1) s).unpaged = s.unpaged ∧
      ∀ p ∈ (l.foldl (fun (s : State) p => (s.destroySeq p.1.1 p.1.2 p.2).1) s).kv.seqs, p ∈ s.kv.seqs ∧ p ∉ l := by
  induction l generalizing s with
  | nil => exact ⟨rfl, fun p h => ⟨h, List.not_mem_nil⟩⟩
  | cons y l ih =>
    obtain ⟨hk, hseqs⟩ := ih (s.destroySeq y.1.1 y.1.2 y.2).1
    refine ⟨hk.trans (State.destroySeq_unpaged ..), fun p h => ?_⟩
    obtain ⟨hold, hl⟩ := hseqs p h
    rw [(State.destroySeq_keeps ..).2.2] at hold
    obtain ⟨hold, hne⟩ := AL.mem_del hold
    refine ⟨hold, fun hmem => ?_⟩
    obtain rfl | hmem := List.mem_cons.mp hmem
    · exact hne rfl
    · exact hl hmem

theorem State.destroySeqs_outcome (s : State) : s.destroySeqs.unserved = s.unserved ∧ s.destroySeqs.kv.seqs = [] := by
  obtain ⟨hk, hseqs⟩ := State.foldl_destroySeq s.kv.seqs s
  exact ⟨State.unserved_of_unpaged hk, List.eq_nil_iff_forall_not_mem.mpr fun p h => (hseqs p h).2 (hseqs p h).1⟩

theorem State.dropGrad_outcome (s : State) (k : Nat × Nat × Nat) : (s.dropGrad k).unserved = s.unserved ∧ (s.dropGrad k).kv.seqs = s.kv.seqs := by
  unfold State.dropGrad
  dsimp only
  split
  · exact ⟨rfl, rfl⟩
  · split <;> exact ⟨rfl, rfl⟩

theorem State.dropGrads_outcome (s : State) : s.dropGrads.unserved = s.unserved ∧ s.dropGrads.kv.seqs = s.kv.seqs :=
  ⟨State.foldl_keeps State.unserved _ (fun _ _ => (State.dropGrad_outcome ..).1) _ s,
    State.foldl_keeps (·.kv.seqs) _ (fun _ _ => (State.dropGrad_outcome ..).2) _ s⟩

theorem State.loseBound_none (h : ∀ p ∈ s.net.conns, p.2.composition = 0xFFFF) : s.loseBound = s := by
  have hnone : s.net.conns.filter (fun (p : Nat × Conn) => p.2.composition != 0xFFFF) = [] :=
    List.filter_eq_nil_iff.mpr fun p hp => by simp [h p hp]
  unfold State.loseBound
  rw [hnone]
  rfl

/-- What a node that discards keeps, where no connection is bound to a composition. -/
theorem State.discarded_outcome (h : ∀ p ∈ s.net.conns, p.2.composition = 0xFFFF) :
    s.destroySeqs.dropGrads.clearMerge.loseBound = s.destroySeqs.dropGrads.clearMerge ∧
      s.destroySeqs.dropGrads.clearMerge.unserved = s.unserved ∧ s.destroySeqs.dropGrads.clearMerge.kv.seqs = [] := by
  obtain ⟨hk, hseqs⟩ := s.destroySeqs_outcome
  obtain ⟨hk', hseqs'⟩ := s.destroySeqs.dropGrads_outcome
  have hall : s.destroySeqs.dropGrads.clearMerge.unserved = s.unserved := hk'.trans hk
  have hnet : s.destroySeqs.dropGrads.clearMerge.net = s.net := (congrArg State.net hall :)
  exact ⟨State.loseBound_none (by rwa [hnet]), hall, hseqs'.trans hseqs⟩

end Sys2Proof.Machine
end

section
open Sys2Proof Sys2Proof.Machine

/-- Settles O16: a write of GO acts on its one bit, and each action sets the lease; DISCARD empties the store and the engines first. -/
theorem goActsOnTheLease : Obligations.GoActsOnTheLease := by
  unfold Obligations.GoActsOnTheLease
  refine ⟨fun s ag i t0 hw hl hs => ?_, fun s ag i t0 hw hrun hl hs hok hm => ?_, fun s ag i t0 hw hrun hl hc hs he hm => ?_,
    fun s ag hw hf => ?_, fun s ag c k hw hl hc => ?_, fun s ag hw hf => ?_, fun s ag hw hf hconns => ?_⟩
  · rw [exec_renew, State.poke_go hw, State.go_renew, State.renew_of hl hs, ← State.extend_eq]
    exact State.did_of_keeps rfl rfl
  · obtain ⟨hlease, hout⟩ := State.goGrant_outcome (l := s.grantLease i t0 (firstEpoch (s.reg pgNode 0x214)))
      (f := fun c => c != s.fld pgNode 0x210 16 10) hrun hm
      fun fw => State.grant_unleased (s := { s with fw := fw }) hl hs hok
    rw [exec_grant, State.poke_go hw, State.go_grant]
    generalize s.goGrant = u at *
    have hnext : s.did u = .next u := State.did_of_keeps (by rw [hout]) (by rw [hout])
    exact ⟨u, hnext, by rw [hlease]; rfl, by rw [hlease]; rfl, by rw [hlease]; rfl, by rw [hlease]; rfl, by rw [hlease]; rfl,
      by rw [hlease, State.grantLease, State.extend_eq]; rfl, hout⟩
  · obtain ⟨hlease, hout⟩ := State.goGrant_outcome (l := s.grantLease i t0 (nextEpoch (s.reg pgNode 0x214)
      (s.nrt + 100000 * min (s.fld pgNode 0x218 0 11) (2 * s.leaseMs)))) (f := fun c => c != s.fld pgNode 0x210 16 10) hrun hm
      fun fw => State.grant_leased (s := { s with fw := fw }) hl hs hc he
    rw [exec_grant, State.poke_go hw, State.go_grant]
    generalize s.goGrant = u at *
    have hnext : s.did u = .next u := State.did_of_keeps (by rw [hout]) (by rw [hout])
    exact ⟨u, hnext, by rw [hlease]; rfl, by rw [hlease, hc]; rfl, by rw [hlease]; rfl, by rw [hlease]; rfl, by rw [hlease]; rfl, hout⟩
  · obtain ⟨heg, hlease, hpw⟩ := State.fenceNode_lease hf 2
    rw [exec_forcedFence, State.poke_go hw, State.go_fence, State.goFence_of hf]
    generalize s.fenceNode 2 = u at *
    exact ⟨_, rfl, State.nodeFenced_of_lease (congrArg LeaseState.st hlease), hlease, State.fenced_frame heg hpw⟩
  · have hout := (s.setLease (vacantLease s.lease)).closeBound_outcome (fun x => x == c)
    rw [exec_release, State.poke_go hw, State.go_release, State.releaseSlot_of hl hc]
    generalize (s.setLease (vacantLease s.lease)).closeBound (fun x => x == c) = u at *
    rw [hout]
    exact ⟨_, State.did_of_keeps rfl rfl, rfl, rfl⟩
  · rw [exec_rejoinReinstate, State.poke_go hw, State.go_reinstate, State.rejoinKeep_of hf]
    exact State.did_of_keeps rfl rfl
  · obtain ⟨hlost, hk, hseqs⟩ := State.discarded_outcome hconns
    have hmerge : s.destroySeqs.dropGrads.clearMerge.eng.merge = [] ∧ s.destroySeqs.dropGrads.clearMerge.eng.headroom = [] := ⟨rfl, rfl⟩
    rw [exec_rejoinDiscard, State.poke_go hw, State.go_discard, State.rejoinDiscard_of hf, hlost]
    generalize s.destroySeqs.dropGrads.clearMerge = u at *
    rw [State.eq_of_unserved hk]
    exact ⟨_, State.did_of_keeps rfl rfl, rfl, hseqs, hmerge.1, hmerge.2, rfl⟩

end

section
/-!
SUPPORT. The state that the result of an operation, of a message, or of the taking of lines leaves.
-/

namespace Sys2Proof.Machine

variable {s t : State}

theorem State.mem_of_recorded (h : t.recorded = s.recorded) : t.mem = s.mem := by
  have hm := congrArg State.mem h
  exact hm

/-- The state of a pair that a function answers. -/
theorem State.mem_of_fst {α : Type} {x : State × α} {a : α} (hx : x = (t, a)) (h : x.1.mem = s.mem) : t.mem = s.mem := by
  rw [← h, hx]

theorem State.getD_wf {o : Option State} (h : s.mem.wf = true) (ho : ∀ t, o = some t → t.mem.wf = true) : (o.getD s).mem.wf = true := by
  cases o with
  | none => exact h
  | some t => exact ho t rfl

@[simp] theorem FillRes.left_runs (s : State) : (FillRes.runs s).left = s := rfl
@[simp] theorem FillRes.left_fails (s : State) : (FillRes.fails s).left = s := rfl
@[simp] theorem FillRes.left_noSpace (s : State) (n : Nat) : (FillRes.noSpace s n).left = s := rfl

/-- The state that the result of an operation leaves. -/
def OpRes.left : OpRes → State
  | .done s _ | .wait s _ _ => s

@[simp] theorem OpRes.left_done (s : State) (r : Result) : (OpRes.done s r).left = s := rfl
@[simp] theorem OpRes.left_wait (s : State) (w : Wait) (n : Nat) : (OpRes.wait s w n).left = s := rfl

/-- The state that a message leaves. -/
def MsgRes.left : MsgRes → State
  | .answer s _ _ _ | .hold s _ => s

@[simp] theorem MsgRes.left_answer (s : State) (st d : Nat) (b : List Byte) : (MsgRes.answer s st d b).left = s := rfl
@[simp] theorem MsgRes.left_hold (s : State) (n : Nat) : (MsgRes.hold s n).left = s := rfl

/-- The state that the preparation of an APPEND or a SEAL leaves. -/
def Prep.left : Prep → State
  | .refuse s _ | .short s _ | .await s _ | .ready s _ _ => s

@[simp] theorem Prep.left_refuse (s : State) (r : Result) : (Prep.refuse s r).left = s := rfl
@[simp] theorem Prep.left_short (s : State) (r : Result) : (Prep.short s r).left = s := rfl
@[simp] theorem Prep.left_await (s : State) (w : Wait) : (Prep.await s w).left = s := rfl
@[simp] theorem Prep.left_ready (s : State) (ts : List (Point × Task)) (gs : List Got) : (Prep.ready s ts gs).left = s := rfl

/-- The state that the taking of lines leaves. -/
def Lines.left : Lines → State
  | .taken s | .wait s _ _ => s

@[simp] theorem Lines.left_taken (s : State) : (Lines.taken s).left = s := rfl
@[simp] theorem Lines.left_wait (s : State) (t : Nat) (b : Bool) : (Lines.wait s t b).left = s := rfl

theorem State.mem_of_lines {x y : Lines} (hx : x = y) (h : x.left.mem = s.mem) : y.left.mem = s.mem := by
  rw [← hx, h]

theorem State.mem_of_lines_wait {x : Lines} {n : Nat} {b : Bool} (hx : x = .wait t n b) (h : x.left.mem = s.mem) : t.mem = s.mem := by
  rw [← h, hx, Lines.left_wait]

theorem State.mem_of_done {x : OpRes} {r : Result} (hx : x = .done t r) (h : x.left.mem = s.mem) : t.mem = s.mem := by
  rw [← h, hx, OpRes.left_done]

theorem State.mem_of_wait {x : OpRes} {w : Wait} {n : Nat} (hx : x = .wait t w n) (h : x.left.mem = s.mem) : t.mem = s.mem := by
  rw [← h, hx, OpRes.left_wait]

theorem State.mem_of_prep {x y : Prep} (hx : x = y) (h : x.left.mem = s.mem) : y.left.mem = s.mem := by
  rw [← hx, h]

end Sys2Proof.Machine
end

section
/-!
SUPPORT. Memory through the reads of pages, the ends of commands, exports and aborts.
-/

namespace Sys2Proof.Machine

variable {s t : State}

theorem State.takeLine_mem {tile set frame form : Nat} {use : LineUse} {part domain : Nat} (ht : s.takeLine tile set frame form use part domain = some t) :
    t.mem = s.mem := State.mem_of_recorded (State.takeLine_recorded ht)

/-- A line is taken, or its lack is noted. -/
theorem State.takeLine_else_mem (s : State) (tile set frame form : Nat) (use : LineUse) (part domain : Nat) :
    (match s.takeLine tile set frame form use part domain with
      | some s => s
      | none => s.noLine tile).mem = s.mem := by
  split
  next hl => exact State.takeLine_mem hl
  · simp

theorem State.takeLine_pair_mem (s : State) (tile set frame form : Nat) (use : LineUse) (part domain : Nat) :
    (match s.takeLine tile set frame form use part domain with
      | some s => (s, true)
      | none => (s.noLine tile, false)).1.mem = s.mem := by
  split
  next hl => exact State.takeLine_mem hl
  · simp

@[simp] theorem State.readList_mem (ws : List Nat) (cls : Nat) : (s.readList ws cls).1.mem = s.mem :=
  State.mem_of_unread (State.readList_unread ..)

@[simp] theorem State.readFrame_mem (f : Nat) (bench : Bool) (cls : Nat) : (s.readFrame f bench cls).1.mem = s.mem := by
  simp [State.readFrame]

@[simp] theorem State.landFetch_mem (f : Nat) : (s.landFetch f).mem = s.mem := by
  unfold State.landFetch
  dsimp only
  split
  · rfl
  · split
    · rfl
    · split
      · simp
      · split
        · simp
        · next hl => simp [State.takeLine_mem hl]

@[simp] theorem State.tagArrival_mem (f : Frag) : (s.tagArrival f).1.mem = s.mem := by
  simp [State.tagArrival]

@[simp] theorem State.arrive_mem (f : Frag) : (s.arrive f).mem = s.mem := by
  unfold State.arrive
  dsimp only
  (repeat' split) <;> simp

@[simp] theorem State.releaseFrags_mem (i : Nat) : (s.releaseFrags i).mem = s.mem := by
  unfold State.releaseFrags
  split
  · rfl
  · next job _ =>
    have hfold := State.foldl_fst_keeps State.mem (fun (acc : State × List FragPlan) p =>
      if !acc.2.isEmpty || !acc.1.fragSlot job.hdr.context || !acc.1.unitAdmits (pgTsch p.tile) then (acc.1, acc.2 ++ [p])
      else ((acc.1.setEng { acc.1.eng with nextFrag := acc.1.eng.nextFrag + 1 }).arrive (acc.1.newFrag job p), acc.2))
      (fun x p => by split <;> simp) job.todo (s, [])
    dsimp only
    split
    · exact hfold
    · exact hfold

@[simp] theorem State.postBlock_wf (n : Nat) (h : s.mem.wf = true) : (s.postBlock n).mem.wf = true := by
  unfold State.postBlock
  dsimp only
  (repeat' split) <;> simp [Mem.wf_writeN, h]

@[simp] theorem State.ringComplete_wf (n : Nat) (c : Completion) (suppressed : Bool) (h : s.mem.wf = true) :
    (s.ringComplete n c suppressed).mem.wf = true := by
  unfold State.ringComplete
  (repeat' split) <;> simp [State.wf_writeRecord, h]

@[simp] theorem State.deliver_wf (src : Source) (h : Hdr) (opcode : Nat) (r : Result) (hs : s.mem.wf = true) :
    (s.deliver src h opcode r).mem.wf = true := by
  unfold State.deliver
  dsimp only
  split
  · refine State.ringComplete_wf _ _ _ ?_
    split
    · exact hs
    · exact State.wf_ringWrite hs ..
  · split <;> simp [hs]

@[simp] theorem State.finish_wf (c : Cmd) (r : Result) (h : s.mem.wf = true) : (s.finish c r).mem.wf = true := by
  simp [State.finish, h]

@[simp] theorem State.endAttn_wf (c : Cmd) (j : AttnJob) (status : Nat) (h : s.mem.wf = true) :
    (s.endAttn c j status).mem.wf = true := by
  simp [State.endAttn, h]

@[simp] theorem State.sendPartial_wf (c : Cmd) (d : AttnD) (j : AttnJob) (r : PartialRec) (h : s.mem.wf = true) :
    (s.sendPartial c d j r).mem.wf = true := by
  unfold State.sendPartial
  (repeat' split) <;> simp [h]

@[simp] theorem State.decided_wf (cmd status hintUs : Nat) (h : s.mem.wf = true) :
    (s.decided cmd status hintUs).mem.wf = true := by
  unfold State.decided
  (repeat' split) <;> simp [h]

@[simp] theorem State.takePartial_mem (r : PartialRec) : (s.takePartial r).s.mem = s.mem := by
  unfold State.takePartial
  dsimp only
  (repeat' split) <;> simp

@[simp] theorem State.emitPartial_wf (c : Cmd) (d : AttnD) (j : AttnJob) (r : PartialRec) (h : s.mem.wf = true) :
    (s.emitPartial c d j r).1.mem.wf = true := by
  unfold State.emitPartial
  (repeat' split) <;> simp [h]

@[simp] theorem State.forwardCtx_wf (n : Nat) (s : State) (k : MergeKey) (h : s.mem.wf = true) :
    (State.forwardCtx n s k).mem.wf = true := by
  induction n generalizing s k with
  | zero => exact h
  | succ n ih =>
    cases hc : s.mctx k with
    | none => simp [State.forwardCtx, hc, h]
    | some c =>
      obtain hf | ⟨off, a, d, j, r, out, hout, ⟨-, hf⟩ | ⟨k', -, hf⟩⟩ := State.forwardCtx_cases hc n
      · rw [hf]
        exact h
      · rw [hf, hout]
        exact State.emitPartial_wf _ _ _ _ h
      · rw [hf]
        refine ih _ _ ?_
        rw [hout]
        exact State.emitPartial_wf _ _ _ _ h

@[simp] theorem State.localPart_wf (k : MergeKey) (a : PartAcc) (h : s.mem.wf = true) : (s.localPart k a).mem.wf = true := by
  unfold State.localPart
  dsimp only
  (repeat' split) <;> simp [h]

@[simp] theorem State.attnDone_wf (cmd : Nat) (h : s.mem.wf = true) : (s.attnDone cmd).mem.wf = true := by
  unfold State.attnDone
  dsimp only
  (repeat' split) <;> simp [h]

@[simp] theorem State.attnEnd_wf (cmd status : Nat) (h : s.mem.wf = true) : (s.attnEnd cmd status).mem.wf = true := by
  unfold State.attnEnd
  (repeat' split) <;> simp [h]

@[simp] theorem State.killCtx_wf (k : MergeKey) (status : Nat) (h : s.mem.wf = true) : (s.killCtx k status).mem.wf = true := by
  unfold State.killCtx
  (repeat' split) <;> simp [h]

@[simp] theorem State.endDying_wf (c : Cmd) (status : Nat) (h : s.mem.wf = true) : (s.endDying c status).mem.wf = true := by
  unfold State.endDying
  dsimp only
  (repeat' split) <;> simp [h]

@[simp] theorem State.abortMerge_wf (a : AbortD) (h : s.mem.wf = true) : (s.abortMerge a).mem.wf = true := by
  unfold State.abortMerge
  split
  · exact State.foldl_wf _ (fun s p hs => State.killCtx_wf _ _ hs) _ _ h
  · exact h
  · exact h

@[simp] theorem State.settleAbort_wf (id : Nat) (h : s.mem.wf = true) : (s.settleAbort id).mem.wf = true := by
  unfold State.settleAbort
  (repeat' split) <;> simp [h]

@[simp] theorem State.settleAborts_wf (h : s.mem.wf = true) : s.settleAborts.mem.wf = true := by
  unfold State.settleAborts
  exact State.foldl_wf _ (fun s x h => by simp [h]) _ _ h

@[simp] theorem State.settleDying_wf (i : Nat) (h : s.mem.wf = true) : (s.settleDying i).mem.wf = true := by
  unfold State.settleDying
  (repeat' split) <;> simp [h]

@[simp] theorem State.settleFence_wf (c : Cmd) (h : s.mem.wf = true) : (s.settleFence c).mem.wf = true := by
  unfold State.settleFence
  (repeat' split) <;> simp [h]

@[simp] theorem State.finishHeld_wf (c : Cmd) (r : Result) (h : s.mem.wf = true) : (s.finishHeld c r).mem.wf = true := by
  simp [State.finishHeld, h]

@[simp] theorem State.dropPages_mem (d : Nat) (r : SeqRec) (sh : Shape) : (s.dropPages d r sh).1.mem = s.mem := by
  unfold State.dropPages
  exact State.foldl_fst_keeps State.mem _ (fun x a => by dsimp only; (repeat' split) <;> simp) _ _

@[simp] theorem State.destroySeq_mem (d q : Nat) (r : SeqRec) : (s.destroySeq d q r).1.mem = s.mem := by
  unfold State.destroySeq
  dsimp only
  (repeat' split) <;> simp

@[simp] theorem State.sweepSets_mem : s.sweepSets.mem = s.mem := by
  simp [State.sweepSets]

@[simp] theorem State.poolLow_mem (s t : State) : (s.poolLow t).mem = t.mem := by
  unfold State.poolLow
  split
  · simp
  · rfl

@[simp] theorem State.pumpOutbound_mem_eq (s : State) : s.pumpOutbound.mem = s.mem := by
  have hm := congrArg State.mem s.pumpOutbound_outcome.1
  exact hm

@[simp] theorem State.readAll_mem (fs : List Nat) (cls : Nat) : (s.readAll fs cls).1.mem = s.mem := by
  unfold State.readAll
  exact State.foldl_fst_keeps State.mem _ (fun x a => by simp) _ _

theorem State.startExport_mem {kind : JobKind} {cmd d q idx offset : Nat} {recipient : List Byte} {full : Bool} {t : State}
    {x : Job} (hx : s.startExport kind cmd d q idx offset recipient full = .ok (t, x)) :
    t.mem = s.mem := by
  unfold State.startExport at hx
  split at hx
  case h_2 => cases hx
  case h_1 r e _ _ =>
    extract_lets sh s1 l o at hx
    have h1 : s1.mem = s.mem := State.readAll_mem _ _
    split at hx
    · cases hx
    · rename_i id set _ s2 writes n j _ s3 s4 s5 s6 s7 s8 _
      obtain ⟨rfl, rfl⟩ := Prod.mk.inj (Except.ok.inj hx)
      have h8 : s8.mem = s7.mem := State.foldl_keeps State.mem _ (fun s w => by simp) _ _
      have h7 : s7.mem = s1.mem := by simp [s7, s6, s5, s4, s3, s2, State.putJobRec]
      have hend : (s8.storeFlush id d idx).mem = s8.mem := by simp
      rw [State.pumpOutbound_mem_eq, hend, h8, h7, h1]

@[simp] theorem State.nextOverflow_mem (s : State) (d : Nat) (o : Overflow) (qs : List Nat) :
    (s.nextOverflow d o qs).mem = s.mem := by
  induction qs with
  | nil => rfl
  | cons q qs ih =>
    unfold State.nextOverflow
    split
    · exact ih
    split
    · exact ih
    split
    · exact ih
    next hx =>
      have hm := State.startExport_mem hx
      exact hm

@[simp] theorem State.dropOutbound_mem (o : Outbound) : (s.dropOutbound o).mem = s.mem := by
  unfold State.dropOutbound
  dsimp only
  (repeat' split) <;> simp

@[simp] theorem State.unpinJob_mem (j : Job) : (s.unpinJob j).mem = s.mem := by
  simp [State.unpinJob]

@[simp] theorem State.closeJob_mem (j : Job) : (s.closeJob j).mem = s.mem := by
  unfold State.closeJob
  dsimp only
  (repeat' split) <;> simp

theorem State.applyRes_wf (id : Nat) {x : OpRes} (h : x.left.mem.wf = true) : (State.applyRes id x).mem.wf = true := by
  cases x with
  | done s r =>
    unfold State.applyRes
    (repeat' split) <;> simp_all
  | wait s w n =>
    unfold State.applyRes
    (repeat' split) <;> simp_all

@[simp] theorem State.doFence_mem (c : Cmd) : (s.doFence c).left.mem = s.mem := by
  unfold State.doFence
  dsimp only
  (repeat' split) <;> simp

@[simp] theorem State.finishId_wf (id : Nat) (r : Result) (h : s.mem.wf = true) : (s.finishId id r).mem.wf = true := by
  unfold State.finishId
  (repeat' split) <;> simp [h]

@[simp] theorem State.failJob_wf (id status : Nat) (h : s.mem.wf = true) : (s.failJob id status).mem.wf = true := by
  unfold State.failJob
  (repeat' split) <;> simp [h]

@[simp] theorem State.releaseWatch_mem (handle : Nat) : (s.releaseWatch handle).mem = s.mem := by
  unfold State.releaseWatch
  (repeat' split) <;> simp

@[simp] theorem State.endWord_wf (c : Cmd) (d : WaitWordD) (r : Result) (h : s.mem.wf = true) :
    (s.endWord c d r).mem.wf = true := by
  simp [State.endWord, h]

@[simp] theorem State.abortCmd_wf (c : Cmd) (status : Nat) (now : Bool) (h : s.mem.wf = true) :
    (s.abortCmd c status now).mem.wf = true := by
  unfold State.abortCmd
  dsimp only
  (repeat' split) <;> simp [h]

@[simp] theorem State.doAbort_wf (c : Cmd) (a : AbortD) (h : s.mem.wf = true) : (s.doAbort c a).left.mem.wf = true := by
  unfold State.doAbort
  split
  · exact h
  · extract_lets mine n s1 s2 s3 left till target _ s4
    have h1 : s1.mem.wf = true := by
      refine State.foldl_wf _ (fun s x hs => ?_) _ _ h
      (repeat' split) <;> simp [hs]
    have h2 : s2.mem.wf = true := by
      simp only [s2]
      split <;> simp [h1]
    have h3 : s3.mem.wf = true := State.abortMerge_wf _ h2
    split
    · exact h3
    · have h4 : s4.mem.wf = true := by
        simp only [s4]
        split <;> exact h3
      exact h4

end Sys2Proof.Machine
end

section
/-!
SUPPORT. Memory through allocation, fills, migrations, sequences and regions.
-/

namespace Sys2Proof.Machine

variable {s t : State}

theorem State.allocMeta_mem {ch owner n : Nat} {t : State} {x : Nat} (hx : s.allocMeta ch owner n = some (t, x)) :
    t.mem = s.mem :=
  State.mem_of_recorded (State.allocMeta_keeps hx).1

theorem State.allocTable_mem {d vpn level ch : Nat} {part : Option Nat} {t : State}
    (ht : s.allocTable d vpn level ch part = some t) :
    t.mem = s.mem :=
  State.mem_of_recorded (State.allocTable_recorded ht)

theorem State.placeTables_mem {d : Nat} {part : Option Nat} {vpn ch : Nat} {t : State}
    (ht : s.placeTables d part vpn ch = some t) :
    t.mem = s.mem :=
  State.mem_of_recorded (State.placeTables_recorded ht)

theorem State.allocCrumb_mem {ch domain slotBytes : Nat} {t : State} {x : Nat} (hx : s.allocCrumb ch domain slotBytes = some
    (t, x)) :
    t.mem = s.mem :=
  State.mem_of_recorded (State.allocCrumb_recorded hx)

theorem State.allocFrame_mem {ch domain vpn slot : Nat} {t : State} {x : Got} (hx : s.allocFrame ch domain vpn slot = some
    (t, x)) :
    t.mem = s.mem :=
  State.mem_of_recorded (State.allocFrame_recorded hx)

theorem State.placeOne_mem {d : Nat} {part : Option Nat} {w : Want} {t : State} {x : List Got}
    (hx : s.placeOne d part w = some (t, x)) :
    t.mem = s.mem :=
  State.mem_of_recorded (State.placeOne_recorded hx)

theorem State.reserve_mem {d : Nat} {part : Option Nat} {ws : List Want} {t : State} {x : List Got}
    (hx : s.reserve d part ws = .ok (t, x)) :
    t.mem = s.mem :=
  State.mem_of_recorded (State.reserve_recorded hx)

@[simp] theorem State.startFill_mem (d part v start : Nat) : (s.startFill d part v start).left.mem = s.mem := by
  unfold State.startFill
  dsimp only
  split
  · rfl
  split
  · rfl
  split
  · simp
  split
  · simp
  split
  · rfl
  next hgot =>
    have hroom := State.reserve_mem hgot
    split
    · exact hroom
    · split
      next hline => simp [State.takeLine_mem hline, hroom]
      · simp [hroom]

@[simp] theorem State.fillAll_mem (vs : List (Nat × Nat)) {fill : State → Nat → Nat → FillRes} (hfill : ∀ s v k,
    (fill s v k).left.mem = s.mem) :
    (s.fillAll fill vs).1.mem = s.mem := by
  refine State.foldl_fst_keeps State.mem _ (fun x v => ?_) vs (s, none)
  have hx := hfill x.1 v.1 v.2
  split
  · rfl
  · split
    all_goals
      rename_i heq
      rw [heq] at hx
      exact hx

theorem State.placeRecord_mem {d q ctx bytes : Nat} {t : State} (ht : s.placeRecord d q ctx bytes = some t) : t.mem = s.mem :=
  State.mem_of_recorded (State.placeRecord_keeps ht).1

theorem State.importMap_mem {d ctx : Nat} {a : ImportD} {m : Manifest} {r : SeqRec} {t : State}
    (ht : s.importMap d ctx a m r = some t) :
    t.mem = s.mem := by
  unfold State.importMap at ht
  dsimp only at ht
  split at ht
  · cases ht
  · split at ht
    · cases ht
    next hrec =>
      split at ht
      · cases ht
      next hgot =>
        cases ht
        have hmem := State.reserve_mem hgot
        exact (State.foldl_keeps State.mem _ (by simp) _ _).trans (by simp [hmem, State.placeRecord_mem hrec])

@[simp] theorem State.doImport_mem (c : Cmd) (a : ImportD) (m : Manifest) : (s.doImport c a m).left.mem = s.mem := by
  unfold State.doImport
  dsimp only
  split
  · simp
  split
  · rfl
  split
  · rfl
  split
  · rfl
  next u hmap =>
    have hm := State.importMap_mem hmap
    split
    · rfl
    · (repeat' split) <;> simp [State.putJobRec, hm]

@[simp] theorem State.doExport_mem (c : Cmd) (a : ExportD) : (s.doExport c a).left.mem = s.mem := by
  unfold State.doExport
  split
  · rfl
  · split
    · rfl
    next hx => simp [State.startExport_mem hx]

@[simp] theorem State.sendMoves_mem (j : Job) (k : Conn) (r : SeqRec) (l : List (Nat × Pte)) :
    (s.sendMoves j k r l).left.mem = s.mem := by
  unfold State.sendMoves
  dsimp only
  split <;> simp

@[simp] theorem State.awaitFills_mem (d part : Nat) (vs : List (Nat × Nat)) : (s.awaitFills d part vs).left.mem = s.mem := by
  unfold State.awaitFills
  dsimp only
  (repeat' split) <;> simp

@[simp] theorem State.goMigrate_mem (c : Cmd) (j : Job) (conn : Nat) : (s.goMigrate c j conn).left.mem = s.mem := by
  unfold State.goMigrate
  dsimp only
  (repeat' split) <;> simp

@[simp] theorem State.doMigrate_mem (c : Cmd) (a : MigrateD) : (s.doMigrate c a).left.mem = s.mem := by
  unfold State.doMigrate
  dsimp only
  (repeat' split) <;> simp

@[simp] theorem State.doSeqDestroy_mem (h : Hdr) (q : Nat) : (s.doSeqDestroy h q).left.mem = s.mem := by
  unfold State.doSeqDestroy
  dsimp only
  (repeat' split) <;> simp

@[simp] theorem State.prefetch_mem (d part q : Nat) (r : SeqRec) (sh : Shape) : (s.prefetch d part q r sh).1.mem = s.mem := by
  simp [State.prefetch]

@[simp] theorem State.resumeFills_mem (c : Cmd) (q : Nat) : (s.resumeFills c q).left.mem = s.mem := by
  unfold State.resumeFills
  dsimp only
  (repeat' split) <;> simp

@[simp] theorem State.doSeqResume_mem (c : Cmd) (q : Nat) : (s.doSeqResume c q).left.mem = s.mem := by
  unfold State.doSeqResume
  dsimp only
  (repeat' split) <;> simp

@[simp] theorem State.doSeqPark_mem (h : Hdr) (q : Nat) : (s.doSeqPark h q).left.mem = s.mem := by
  unfold State.doSeqPark
  dsimp only
  (repeat' split) <;> simp

@[simp] theorem State.doSeqCreate_mem (h : Hdr) (src : Source) (a : SeqCreateD) : (s.doSeqCreate h src a).left.mem = s.mem := by
  unfold State.doSeqCreate
  dsimp only
  split
  · rfl
  split
  · rfl
  split
  · rfl
  next hx => simp [State.placeRecord_mem hx]

@[simp] theorem State.startRevoke_wf (i : Nat) (g : Region) (h : s.mem.wf = true) : (s.startRevoke i g).mem.wf = true := by
  unfold State.startRevoke
  exact State.foldl_wf _ (fun s x h => by (repeat' split) <;> simp [h]) _ _ h

@[simp] theorem State.endRevokes_wf (ref : RegionRef) (drained refused : Nat) (h : s.mem.wf = true) :
    (s.endRevokes ref drained refused).mem.wf = true := by
  unfold State.endRevokes
  exact State.foldl_wf _ (fun s x h => by (repeat' split) <;> simp [h]) _ _ h

@[simp] theorem State.drained_wf (ref : RegionRef) (h : s.mem.wf = true) : (s.drained ref).mem.wf = true := by
  unfold State.drained
  (repeat' split) <;> simp [State.wf_freeRegion, h]

@[simp] theorem State.doRevoke_wf (c : Cmd) (a : RevokeD) (h : s.mem.wf = true) : (s.doRevoke c a).left.mem.wf = true := by
  unfold State.doRevoke
  dsimp only
  (repeat' split) <;> simp [h]

theorem State.regionChunks_mem {d part index n : Nat} {t : State} {x : List (Nat × Nat)}
    (hx : s.regionChunks d part index n = some (t, x)) :
    t.mem = s.mem :=
  State.mem_of_recorded (State.regionChunks_keeps hx).1

@[simp] theorem State.doRegister_wf (h : Hdr) (src : Source) (a : RegisterD) (hs : s.mem.wf = true) :
    (s.doRegister h src a).left.mem.wf = true := by
  unfold State.doRegister
  dsimp only
  split
  · exact hs
  split
  · split
    · exact hs
    · exact hs
  split
  · exact hs
  split
  · exact hs
  split
  · exact hs
  next hl =>
    refine State.foldl_wf _ (fun s c hs => State.wf_zeroRack hs c.1 c.2) _ _ ?_
    rw [State.regionChunks_mem hl]
    exact hs

end Sys2Proof.Machine
end

section
/-!
SUPPORT. Memory through the operations of descriptors: waits, the starter table, compaction, copies, reads, gradients, attention
and appends.
-/

namespace Sys2Proof.Machine

variable {s t : State}

@[simp] theorem State.readWords_mem (a n cls : Nat) : (s.readWords a n cls).1.mem = s.mem := by
  simp [State.readWords]

@[simp] theorem State.regionRead_mem (g : Region) (o n : Nat) : (s.regionRead g o n).1.mem = s.mem := by
  unfold State.regionRead
  exact State.foldl_fst_keeps State.mem _ (fun x a => by simp) _ _

@[simp] theorem State.doWaitWord_mem (h : Hdr) (src : Source) (d : WaitWordD) : (s.doWaitWord h src d).left.mem = s.mem := by
  unfold State.doWaitWord
  dsimp only
  (repeat' split) <;> simp

@[simp] theorem State.doWaitCount_mem (h : Hdr) (src : Source) (d : WaitCountD) : (s.doWaitCount h src d).left.mem = s.mem := by
  unfold State.doWaitCount
  dsimp only
  (repeat' split) <;> simp

@[simp] theorem State.translate_mem (alloc : Bool) (d v : Nat) : (s.translate alloc d v).1.mem = s.mem := by
  unfold State.translate
  dsimp only
  (repeat' split) <;> simp

@[simp] theorem State.walkFrame_mem (d q v : Nat) : (s.walkFrame d q v).1.mem = s.mem := by
  unfold State.walkFrame
  dsimp only
  (repeat' split) <;> simp

@[simp] theorem State.doRemove_mem (h : Hdr) (src : Source) (a : PrefixD) : (s.doRemove h src a).left.mem = s.mem := by
  unfold State.doRemove
  dsimp only
  split
  · rfl
  split
  next hw => exact State.mem_of_fst hw (State.walkFrame_mem ..)
  next hw =>
    have hm := State.mem_of_fst hw (State.walkFrame_mem ..)
    (repeat' split) <;> simp [hm]

@[simp] theorem State.doInsert_mem (h : Hdr) (src : Source) (a : PrefixD) : (s.doInsert h src a).left.mem = s.mem := by
  unfold State.doInsert
  dsimp only
  split
  · rfl
  split
  next hw => exact State.mem_of_fst hw (State.walkFrame_mem ..)
  next hw =>
    have hm := State.mem_of_fst hw (State.walkFrame_mem ..)
    split <;> simp [hm]

@[simp] theorem State.readRecord_mem (f : Nat) : (s.readRecord f).1.mem = s.mem := by
  simp [State.readRecord]

@[simp] theorem State.readCands_mem (t : Nat) (keyHi : DWord) (l : List (Nat × StEntry)) :
    (s.readCands t keyHi l).mem = s.mem := by
  unfold State.readCands
  refine State.foldl_fst_keeps State.mem _ (fun x c => ?_) l (s, false)
  dsimp only
  (repeat' split) <;> simp

@[simp] theorem State.probe_mem (d shapeId : Nat) (keyLo keyHi : DWord) (w : Nat) :
    (s.probe d shapeId keyLo keyHi w).1.mem = s.mem := by
  unfold State.probe
  dsimp only
  (repeat' split) <;> simp

@[simp] theorem State.search_mem (caller shapeId : Nat) (keyLo keyHi : DWord) (phase w : Nat) (pubEn : Bool) (addr : Nat) :
    (s.search caller shapeId keyLo keyHi phase w pubEn addr).1.mem = s.mem := by
  unfold State.search
  dsimp only
  (repeat' split) <;> simp

@[simp] theorem State.doLookup_mem (h : Hdr) (src : Source) (a : LookupD) (step : Bool) :
    (s.doLookup h src a step).left.mem = s.mem := by
  unfold State.doLookup
  dsimp only
  (repeat' split) <;> simp

@[simp] theorem State.decodePage_mem (f : Nat) : (s.decodePage f).1.mem = s.mem := by
  unfold State.decodePage
  dsimp only
  (repeat' split) <;> simp

@[simp] theorem Batch.page_mem (b : Batch) (d q : Nat) (sh : Shape) (gs : List Got) (x : Nat × Nat × List Nat × Nat) :
    (b.page d q sh gs x).s.mem = b.s.mem := by
  unfold Batch.page
  dsimp only
  (repeat' split) <;> simp

@[simp] theorem State.compactOnce_mem (c : Cmd) (a : CompactD) (pts : List (Nat × Nat × Nat)) (c0 c1 : Nat) :
    (s.compactOnce c a pts c0 c1).1.mem = s.mem := by
  unfold State.compactOnce
  dsimp only
  split
  · rfl
  split
  · rfl
  next r _ _ u gs hgot =>
    have hm := State.reserve_mem hgot
    have hbatch (l : List (Nat × Nat × List Nat × Nat)) (b : Batch) :
        (l.foldl (fun (e : Batch) x => e.page c.hdr.domain a.seq (s.shape c.hdr.domain r.shapeId) gs x) b).s.mem = b.s.mem := by
      induction l generalizing b with
      | nil => rfl
      | cons x l ih => rw [List.foldl_cons, ih, Batch.page_mem]
    (repeat' split) <;> simp [hbatch, hm]

@[simp] theorem State.compactRun_mem (c : Cmd) (a : CompactD) (pts : List (Nat × Nat × Nat)) :
    (s.compactRun c a pts).left.mem = s.mem := by
  unfold State.compactRun
  split
  next hx => exact State.mem_of_fst hx (State.compactOnce_mem ..)
  next hx =>
    have hm := State.mem_of_fst hx (State.compactOnce_mem ..)
    exact hm

@[simp] theorem State.doCompact_mem (c : Cmd) (a : CompactD) : (s.doCompact c a).left.mem = s.mem := by
  unfold State.doCompact
  (repeat' split) <;> simp

@[simp] theorem State.forkCommit_mem (h : Hdr) (a : ForkD) (r r' : SeqRec) (sh : Shape) (ps : List ForkPage) (gs : List Got)
    (ht : t.mem = s.mem) : (s.forkCommit t h a r r' sh ps gs).left.mem = s.mem := by
  unfold State.forkCommit
  dsimp only
  split
  · have hshare (l : List ForkPage) : (l.foldl (fun (s : State) (x : ForkPage) => match x.way with
        | .share _ => s.setPte a.srcDomain (vpnOf r sh x.pt.layer x.pt.hg x.pt.k)
            { s.pte a.srcDomain (vpnOf r sh x.pt.layer x.pt.hg x.pt.k) with shared := true }
        | .copy => s) s).mem = s.mem := State.foldl_keeps State.mem _ (fun s x => by split <;> simp) _ _
    split
    · exact hshare _
    · exact hshare _
  · simp [ht]

@[simp] theorem State.openLines_mem (d part : Nat) (raised : Bool) (gs : List Got) :
    (s.openLines d part raised gs).left.mem = s.mem := by
  unfold State.openLines
  refine List.foldlRecOn (motive := fun acc : Lines => acc.left.mem = s.mem) gs _ rfl fun acc hacc g _ => ?_
  split
  · exact hacc
  · dsimp only
    have hs : _ = s.mem := hacc
    (repeat' split) <;> simp_all

@[simp] theorem State.readCopies_mem (ps : List ForkPage) : (s.readCopies ps).1.mem = s.mem := by
  unfold State.readCopies
  exact State.foldl_fst_keeps State.mem _ (fun x a => by dsimp only; (repeat' split) <;> simp) _ _

@[simp] theorem State.forkPages_mem (c : Cmd) (a : ForkD) (r : SeqRec) (sh : Shape) (ps : List ForkPage) :
    (s.forkPages c a r sh ps).left.mem = s.mem := by
  unfold State.forkPages
  have hread : (if c.wait.space.frames.isEmpty then s.readCopies ps else (s, false)).1.mem = s.mem := by split <;> simp
  generalize (if c.wait.space.frames.isEmpty then s.readCopies ps else (s, false)) = x at hread
  obtain ⟨u, lost⟩ := x
  dsimp only at hread ⊢
  split
  · exact hread
  split
  · exact hread
  next hgot =>
    have hres := State.reserve_mem hgot
    split
    · exact hread
    split
    · exact hread
    split
    next hl => exact (State.mem_of_lines hl (State.openLines_mem ..)).trans (hres.trans hread)
    next hl =>
      have hl := State.mem_of_lines hl (State.openLines_mem ..)
      split
      · exact hread
      next hx => rw [State.forkCommit_mem _ _ _ _ _ _ _ ((State.placeRecord_mem hx).trans (hl.trans hres)), hread]

@[simp] theorem State.walkRead_mem (d q : Nat) (r : SeqRec) (sh : Shape) (ps : List Point) :
    (s.walkRead d q r sh ps).1.mem = s.mem := by
  unfold State.walkRead
  dsimp only
  have hwalk (l : List Point) : (l.foldl (fun (acc : State × List (Point × Pte)) p =>
      ((acc.1.translate false d (vpnOf r sh p.layer p.hg p.k)).1, acc.2 ++ [(p, (acc.1.translate false d (vpnOf r sh p.layer p.hg p.k)).2)]))
      (s, [])).1.mem = s.mem := State.foldl_fst_keeps State.mem _ (by simp) _ _
  (repeat' split) <;> exact hwalk _

@[simp] theorem State.doFork_mem (c : Cmd) (a : ForkD) : (s.doFork c a).left.mem = s.mem := by
  unfold State.doFork
  split
  · rfl
  · rfl
  · dsimp only
    split
    next hw => exact State.mem_of_fst hw (State.walkRead_mem ..)
    next hw => exact (State.awaitFills_mem ..).trans (State.mem_of_fst hw (State.walkRead_mem ..))
    next hw => exact (State.forkPages_mem ..).trans (State.mem_of_fst hw (State.walkRead_mem ..))

@[simp] theorem State.readPages_mem (h : Hdr) (d : PageReadD) (status : Nat) : (s.readPages h d status).left.mem = s.mem := by
  unfold State.readPages
  split
  · rfl
  · dsimp only
    split
    next hw => exact State.mem_of_fst hw (State.walkRead_mem ..)
    next hw => exact (State.awaitFills_mem ..).trans (State.mem_of_fst hw (State.walkRead_mem ..))
    next hw =>
      have hm := State.mem_of_fst hw (State.walkRead_mem ..)
      split <;> simp [hm]

@[simp] theorem State.doPageRead_mem (h : Hdr) (src : Source) (d : PageReadD) : (s.doPageRead h src d).left.mem = s.mem := by
  unfold State.doPageRead
  (repeat' split) <;> simp

@[simp] theorem State.readGrad_mem (k : Nat × Nat × Nat) (g : GradPage) : (s.readGrad k g).1.mem = s.mem := by
  simp [State.readGrad]

@[simp] theorem State.readGrads_mem (l : List ((Nat × Nat × Nat) × GradPage)) : (s.readGrads l).mem = s.mem := by
  simp [State.readGrads]

@[simp] theorem State.doGradDrain_mem (c : Cmd) (d : DrainD) : (s.doGradDrain c d).left.mem = s.mem := by
  unfold State.doGradDrain
  dsimp only
  (repeat' split) <;> simp

@[simp] theorem keepWaiting_mem (id : Nat) : (keepWaiting s id).left.mem = s.mem := by
  simp [keepWaiting]

@[simp] theorem State.dispatchPlans_wf (j : AttnJob) (plans : List FragPlan) (h : s.mem.wf = true) :
    (s.dispatchPlans j plans).left.mem.wf = true := by
  unfold State.dispatchPlans
  dsimp only
  (repeat' split) <;> simp [h]

@[simp] theorem State.planPages_mem (lc : Bool) (part : Nat) (r : SeqRec) (sh : Shape) (l : List (Point × Pte))
    (redo : List Redo) :
    (s.planPages lc part r sh l redo).1.mem = s.mem := by
  unfold State.planPages
  exact State.foldl_fst_keeps State.mem _ (fun x a => by dsimp only; (repeat' split) <;> simp) _ _

theorem State.newGrad_mem {ctx part domain q vpn : Nat} {r : SeqRec} {sh : Shape} {pt : Point} {f : Nat} {t : State}
    (ht : s.newGrad ctx part domain q vpn r sh pt f = some t) :
    t.mem = s.mem := by
  unfold State.newGrad at ht
  dsimp only at ht
  split at ht
  · cases ht
  · split at ht
    · cases ht
    next hl =>
      cases ht
      have hm := State.takeLine_mem hl
      exact hm

@[simp] theorem State.reserveGrads_mem (h : Hdr) (d : AttnD) (r : SeqRec) (sh : Shape) (l : List (Point × Pte)) :
    (s.reserveGrads h d r sh l).1.mem = s.mem := by
  unfold State.reserveGrads
  dsimp only
  have hnew (l : List (Point × Pte)) : (l.foldl (fun (acc : State × List Nat) x =>
      match acc.1.newGrad h.context (s.partOf h.context) h.domain d.seq (vpnOf r sh x.1.layer x.1.hg x.1.k) r sh x.1 x.2.loc with
      | some s => (s, acc.2)
      | none => (acc.1, acc.2 ++ [frameTile x.2.loc])) (s, [])).1.mem = s.mem := by
    refine State.foldl_fst_keeps State.mem _ (fun x p => ?_) _ _
    split
    next hx => exact State.newGrad_mem hx
    · rfl
  split
  · simp
  · exact hnew _

@[simp] theorem State.attnSettle_wf (cmd : Nat) (h : s.mem.wf = true) : (s.attnSettle cmd).mem.wf = true := by
  unfold State.attnSettle
  (repeat' split) <;> simp [h]

@[simp] theorem State.attnFail_wf (cmd status : Nat) (h : s.mem.wf = true) : (s.attnFail cmd status).mem.wf = true := by
  unfold State.attnFail
  (repeat' split) <;> simp [h]

@[simp] theorem State.attnWalk_wf (j : AttnJob) (h : s.mem.wf = true) : (s.attnWalk j).left.mem.wf = true := by
  unfold State.attnWalk
  dsimp only
  split
  · simp [h]
  split
  · simp [h]
  split
  · exact h
  split
  · simp [h]
  have hres (u : State) (sh : Shape) (r : SeqRec) (b : Bool) (l : List (Point × Pte)) :
      (if b then u.reserveGrads j.hdr j.d r sh l else (u, none)).1.mem = u.mem := by split <;> simp
  split
  next hx => simp [State.mem_of_fst hx (hres ..), h]
  split
  next hw => simp [State.mem_of_fst hw (State.walkRead_mem ..), h]
  next hw =>
    have hm := State.mem_of_fst hw (State.walkRead_mem ..)
    split
    next ha => simp [State.mem_of_done ha (State.awaitFills_mem ..), hm, h]
    next ha => simp [State.mem_of_wait ha (State.awaitFills_mem ..), hm, h]
  next hw =>
    have hm := State.mem_of_fst hw (State.walkRead_mem ..)
    split
    · simp [hm, h]
    · split
      next hx => simp [State.mem_of_fst hx (hres ..), hm, h]
      next hx => exact State.dispatchPlans_wf _ _ (by simp [State.mem_of_fst hx (hres ..), hm, h])

@[simp] theorem State.doAttn_wf (c : Cmd) (bwd : Bool) (d : AttnD) (h : s.mem.wf = true) :
    (s.doAttn c bwd d).left.mem.wf = true := by
  unfold State.doAttn
  dsimp only
  (repeat' split) <;> simp [h]

@[simp] theorem State.doFallback_mem (c : Cmd) (d : AttnD) : (s.doFallback c d).left.mem = s.mem := by
  unfold State.doFallback
  dsimp only
  (repeat' split) <;> simp

@[simp] theorem State.sealAll_mem (d q : Nat) (sh : Shape) : (s.sealAll d q sh).1.mem = s.mem := by
  unfold State.sealAll
  dsimp only
  (repeat' split) <;> simp

@[simp] theorem State.awaitLine_mem (c : Cmd) (t : Nat) (raised : Bool) (x : Space) :
    (s.awaitLine c t raised x).1.mem = s.mem := by
  unfold State.awaitLine
  dsimp only
  (repeat' split) <;> simp

@[simp] theorem State.readTasks_mem (ts : List (Point × Task)) : (s.readTasks ts).1.mem = s.mem := by
  unfold State.readTasks
  exact State.foldl_fst_keeps State.mem _ (fun x a => by dsimp only; (repeat' split) <;> simp) _ _

@[simp] theorem State.tasks_mem (d : Nat) (r : SeqRec) (sh : Shape) (ps : List Point) : (s.tasks d r sh ps).1.mem = s.mem := by
  unfold State.tasks
  exact State.foldl_fst_keeps State.mem _ (fun x a => by simp) _ _

@[simp] theorem State.prepare_mem (c : Cmd) (q : Nat) (r : SeqRec) (sh : Shape) (ps : List Point)
    {fill : State → Nat → Nat → FillRes} (hfill : ∀ s v k, (fill s v k).left.mem = s.mem) :
    (s.prepare fill c q r sh ps).left.mem = s.mem := by
  have htasks : (s.tasks c.hdr.domain r sh ps).1.mem = s.mem := State.tasks_mem ..
  unfold State.prepare
  dsimp only
  generalize s.tasks c.hdr.domain r sh ps = x at htasks ⊢
  obtain ⟨u, ts⟩ := x
  dsimp only at htasks ⊢
  split
  · exact htasks
  split
  · have hfetch (l : List (Point × Task)) : (l.foldl (fun (s : State) (pt : Point × Task) => match pt.2 with
        | .fetch f => s.startFetch f | _ => s) u).mem = s.mem :=
      (State.foldl_keeps State.mem _ (fun s pt => by split <;> simp) _ _).trans htasks
    split
    · split <;> exact (State.fillAll_mem _ hfill).trans (hfetch _)
    · exact (State.fillAll_mem _ hfill).trans (hfetch _)
  have hread : (if c.wait.space.frames.isEmpty then u.readTasks ts else (u, false)).1.mem = s.mem := by split <;> simp [htasks]
  generalize (if c.wait.space.frames.isEmpty then u.readTasks ts else (u, false)) = y at hread ⊢
  obtain ⟨v, lost⟩ := y
  dsimp only at hread ⊢
  split
  · exact hread
  split
  · exact hread
  next hgot =>
    have hres := (State.reserve_mem hgot).trans hread
    split
    · exact hres
    · split
      next hl => exact (State.mem_of_lines hl (State.openLines_mem ..)).trans hres
      next hl => simp [State.mem_of_lines_wait hl (State.openLines_mem ..), hres]

@[simp] theorem State.doSeal_mem (c : Cmd) (q : Nat) {fill : State → Nat → Nat → FillRes} (hfill : ∀ s v k,
    (fill s v k).left.mem = s.mem) :
    (s.doSeal fill c q).left.mem = s.mem := by
  unfold State.doSeal
  dsimp only
  split
  · rfl
  split
  · rfl
  split
  · rfl
  split
  · rfl
  split
  · simp
  split
  · rfl
  split
  next hp => exact State.mem_of_prep hp (State.prepare_mem _ _ _ _ _ hfill)
  next hp => exact State.mem_of_prep hp (State.prepare_mem _ _ _ _ _ hfill)
  next hp => exact State.mem_of_prep hp (State.prepare_mem _ _ _ _ _ hfill)
  next hp =>
    have hm := State.mem_of_prep hp (State.prepare_mem _ _ _ _ _ hfill)
    simpa using hm

@[simp] theorem State.startOverflow_mem (d q : Nat) (x : Result) : (s.startOverflow d q x).mem = s.mem := by
  unfold State.startOverflow
  (repeat' split) <;> simp

@[simp] theorem State.appendWrite_mem (d q : Nat) (r : SeqRec) (sh : Shape) (sealAfter : Bool) (a : AppendD)
    (seeds : List Nat) (words : List Word) :
    (s.appendWrite d q r sh sealAfter a seeds words).1.mem = s.mem := by
  unfold State.appendWrite
  dsimp only
  (repeat' split) <;> simp

@[simp] theorem State.doAppend_mem (c : Cmd) (a : AppendD) {fill : State → Nat → Nat → FillRes}
    {short : State → Nat → Nat → Result → State} (hfill : ∀ s v k, (fill s v k).left.mem = s.mem) (hshort : ∀ s d q x, (short s d q x).mem = s.mem) :
    (s.doAppend fill short c a).left.mem = s.mem := by
  unfold State.doAppend
  dsimp only
  split
  · rfl
  split
  · rfl
  split
  · rfl
  split
  · rfl
  split
  · rfl
  split
  · rfl
  split
  next hp => exact State.mem_of_prep hp (State.prepare_mem _ _ _ _ _ hfill)
  next hp => exact (hshort ..).trans (State.mem_of_prep hp (State.prepare_mem _ _ _ _ _ hfill))
  next hp => exact State.mem_of_prep hp (State.prepare_mem _ _ _ _ _ hfill)
  next hp =>
    have hm := State.mem_of_prep hp (State.prepare_mem _ _ _ _ _ hfill)
    simpa using hm

@[simp] theorem State.evalWatches_mem (i : Nat) (g : Region) (o n : Nat) : (s.evalWatches i g o n).mem = s.mem := by
  simp [State.evalWatches]

@[simp] theorem State.targetRefused_wf (opcode conn handle status : Nat) (h : s.mem.wf = true) :
    (s.targetRefused opcode conn handle status).mem.wf = true := by
  unfold State.targetRefused
  dsimp only
  (repeat' split) <;> simp [State.wf_writeRecord, h]

@[simp] theorem State.serve_wf (h : Hdr) (conn : Nat) (op : Op) (d : RmaD) (data : List Byte) (ue : Bool) (hs : s.mem.wf = true) :
    (s.serve h conn op d data ue).left.mem.wf = true := by
  unfold State.serve
  dsimp only
  (repeat' split) <;> simp [State.wf_regionWrite, hs]

@[simp] theorem State.sendRma_mem (c : Cmd) (d : RmaD) : (s.sendRma c d).left.mem = s.mem := by
  unfold State.sendRma
  dsimp only
  (repeat' split) <;> simp

@[simp] theorem State.runOp_wf (c : Cmd) (m : Option Manifest) (ue : Bool) (h : s.mem.wf = true) :
    (s.runOp c m ue).left.mem.wf = true := by
  unfold State.runOp
  dsimp only
  (repeat' split) <;> simp [h]

@[simp] theorem State.tryVictim_wf (c : Cmd) (h : s.mem.wf = true) : (s.tryVictim c).mem.wf = true := by
  have hrun := s.runOp_wf c none false h
  unfold State.tryVictim
  split
  next hx =>
    rw [hx] at hrun
    split
    · exact h
    · exact State.applyRes_wf _ hrun
  next hx =>
    rw [hx] at hrun
    split
    · exact h
    · exact State.applyRes_wf _ hrun
  · exact State.applyRes_wf _ hrun

@[simp] theorem State.afterFills_wf (c : Cmd) (ps : List (Nat × Nat)) (h : s.mem.wf = true) : (s.afterFills c ps).mem.wf = true :=
  State.applyRes_wf _ (State.runOp_wf _ _ _ h)

@[simp] theorem State.run_wf (c : Cmd) (m : Option Manifest) (ue : Bool) (h : s.mem.wf = true) : (s.run c m ue).mem.wf = true :=
  State.applyRes_wf _ (State.runOp_wf _ _ _ h)

@[simp] theorem State.lookAgain_wf (id : Nat) (h : s.mem.wf = true) : (s.lookAgain id).mem.wf = true := by
  unfold State.lookAgain
  (repeat' split) <;> simp [h]

@[simp] theorem State.lookAll_wf (h : s.mem.wf = true) : s.lookAll.mem.wf = true := by
  unfold State.lookAll
  exact State.foldl_wf _ (fun s p h => by simp [h]) _ _ (State.foldl_wf _ (fun s i h => by simp [h]) _ _ h)

end Sys2Proof.Machine
end

section
/-!
SUPPORT. Memory through the messages of the mailbox and the firmware that answers them.
-/

namespace Sys2Proof.Machine

variable {s t : State}

@[simp] theorem State.laneLogOp_mem (c : Nat) (clear : Bool) (channel lane : Nat) :
    (s.laneLogOp c clear channel lane).left.mem = s.mem := by
  simp [State.laneLogOp]

@[simp] theorem State.quadStatus_mem (c : Nat) : (s.quadStatus c).left.mem = s.mem := by
  simp [State.quadStatus]

@[simp] theorem fails_mem (status : Nat) : (fails s status).left.mem = s.mem := by
  simp [fails]

@[simp] theorem badField_mem : (badField s).left.mem = s.mem := by
  simp [badField]

@[simp] theorem State.ctxDestroy_wf (i : Nat) (begun : Bool) (n : Nat) (h : s.mem.wf = true) :
    (s.ctxDestroy i begun n).left.mem.wf = true := by
  unfold State.ctxDestroy
  split
  · split <;> simp [h]
  · extract_lets mine u k
    have hu : u.mem.wf = true := by
      simp only [u]
      split
      · exact h
      · exact State.foldl_wf _ (fun s c hs => by split <;> simp [hs]) _ _ h
    split <;> simp [hu]

@[simp] theorem done_mem : (done s).left.mem = s.mem := by
  simp [done]

@[simp] theorem State.ctxModify_mem (i : Nat) (c : Ctx) : (s.ctxModify i c).left.mem = s.mem := by
  unfold State.ctxModify
  (repeat' split) <;> simp

@[simp] theorem State.ctxCreate_mem (i : Nat) (c : Ctx) : (s.ctxCreate i c).left.mem = s.mem := by
  unfold State.ctxCreate
  (repeat' split) <;> simp

@[simp] theorem State.powerCap_mem (w : Nat) : (s.powerCap w).left.mem = s.mem := by
  unfold State.powerCap
  (repeat' split) <;> simp

@[simp] theorem State.evacuate_mem (m : MReq) (d : EvacD) : (s.evacuate m d).left.mem = s.mem := by
  unfold State.evacuate
  (repeat' split) <;> simp

@[simp] theorem State.meterSnapshot_mem (comp : Nat) (nonce : BitVec 256) : (s.meterSnapshot comp nonce).left.mem = s.mem := by
  unfold State.meterSnapshot
  (repeat' split) <;> simp

@[simp] theorem State.fwStatus_mem (kind : Nat) : (s.fwStatus kind).left.mem = s.mem := by
  unfold State.fwStatus
  (repeat' split) <;> simp

@[simp] theorem State.fwActivate_mem (m : MReq) (kind : Nat) : (s.fwActivate m kind).left.mem = s.mem := by
  unfold State.fwActivate
  dsimp only
  (repeat' split) <;> simp

@[simp] theorem State.fwStage_mem (kind : Nat) (info : ImageInfo) : (s.fwStage kind info).left.mem = s.mem := by
  unfold State.fwStage
  dsimp only
  (repeat' split) <;> simp

@[simp] theorem State.opkRevoke_mem (m : MReq) (slot : Nat) : (s.opkRevoke m slot).left.mem = s.mem := by
  unfold State.opkRevoke
  (repeat' split) <;> simp

@[simp] theorem State.opkProgram_mem (m : MReq) (slot : Nat) (key : List Byte) : (s.opkProgram m slot key).left.mem = s.mem := by
  unfold State.opkProgram
  (repeat' split) <;> simp

@[simp] theorem State.auditExcerpt_mem (d n first : Nat) (nonce : BitVec 256) :
    (s.auditExcerpt d n first nonce).left.mem = s.mem := by
  unfold State.auditExcerpt
  (repeat' split) <;> simp

@[simp] theorem State.inspectClose_mem (m : MReq) (g : Nat) : (s.inspectClose m g).left.mem = s.mem := by
  unfold State.inspectClose
  (repeat' split) <;> simp

@[simp] theorem State.inspectOpen_mem (m : MReq) (d : Nat) : (s.inspectOpen m d).left.mem = s.mem := by
  unfold State.inspectOpen
  (repeat' split) <;> simp

@[simp] theorem State.projRemove_mem (m : MReq) (d handle : Nat) (begun : Bool) :
    (s.projRemove m d handle begun).left.mem = s.mem := by
  unfold State.projRemove
  (repeat' split) <;> simp

theorem State.blockChunks_mem {d handle n : Nat} {l : List (Nat × Nat)} {t : State} {x : List (Nat × Nat)}
    (hx : State.blockChunks d handle n s l = some (t, x)) :
    t.mem = s.mem :=
  State.mem_of_recorded (State.blockChunks_recorded hx)

@[simp] theorem State.projInstall_wf (m : MReq) (d : ProjD) (h : s.mem.wf = true) : (s.projInstall m d).left.mem.wf = true := by
  unfold State.projInstall
  dsimp only
  split
  · exact h
  split
  · exact h
  split
  · exact h
  split
  · simp [h]
  split
  · exact h
  split
  · exact h
  next hb =>
    simp [Mem.wf_foldl_writeN, State.blockChunks_mem hb, h]

@[simp] theorem State.credRemove_mem (m : MReq) (id : Nat) (close : Bool) : (s.credRemove m id close).left.mem = s.mem := by
  unfold State.credRemove
  (repeat' split) <;> simp

@[simp] theorem State.credAdd_mem (m : MReq) (id d typ purpose : Nat) (data : List Byte) (ok : Bool) :
    (s.credAdd m id d typ purpose data ok).left.mem = s.mem := by
  unfold State.credAdd
  (repeat' split) <;> simp

@[simp] theorem State.destroyEnd_mem (d agent : Nat) : (s.destroyEnd d agent).mem = s.mem := by
  simp [State.destroyEnd]

@[simp] theorem State.destroyPages_mem (d : Nat) : (s.destroyPages d).mem = s.mem := by
  have hseq (u : State) (x : (Nat × Nat) × SeqRec) : (u.dropSeq d x).mem = u.mem := by
    unfold State.dropSeq
    split <;> simp
  rw [State.destroyPages_eq]
  refine (State.foldl_keeps State.mem _ (by simp) _ _).trans ((State.foldl_keeps State.mem _ hseq _ _).trans ?_)
  exact State.foldl_keeps State.mem _ (by simp) _ _

@[simp] theorem State.destroyBegin_wf (d : Nat) (r : DomainRec) (h : s.mem.wf = true) : (s.destroyBegin d r).mem.wf = true := by
  unfold State.destroyBegin
  extract_lets _ s1 s2 s3 s4 s5
  have h2 : s2.mem.wf = true := State.foldl_wf _ (fun s c hs => by (repeat' split) <;> simp [hs]) _ _ h
  have h3 : s3.mem.wf = true := State.abortMerge_wf _ (by simp [h2])
  have h4 : s4.mem.wf = true := State.foldl_wf _ (fun s c hs => by simp [hs]) _ _ h3
  have h5 : s5.mem.wf = true := State.foldl_wf _ (fun s c hs => by split <;> simp [hs]) _ _ h4
  exact State.foldl_wf _ (fun s c hs => by split <;> simp [hs]) _ _ h5

@[simp] theorem State.domainDestroy_wf (m : MReq) (d : Nat) (begun : Bool) (h : s.mem.wf = true) :
    (s.domainDestroy m d begun).left.mem.wf = true := by
  unfold State.domainDestroy
  dsimp only
  (repeat' split) <;> simp [h]

@[simp] theorem State.domainCreate_mem (m : MReq) (d : DomainD) : (s.domainCreate m d).left.mem = s.mem := by
  unfold State.domainCreate
  split
  · simp
  split
  · simp
  split
  · simp
  next hx =>
    obtain ⟨c, -, hc⟩ := List.exists_of_findSome?_eq_some hx
    obtain ⟨y, hy, hv⟩ := Option.map_eq_some_iff.mp hc
    cases hv
    simp [State.allocMeta_mem hy]

@[simp] theorem State.traceSet_mem (m : MReq) (first n enable : Nat) : (s.traceSet m first n enable).left.mem = s.mem := by
  unfold State.traceSet
  (repeat' split) <;> simp

@[simp] theorem State.runMsg_wf (m : MReq) (x : Msg) (begun : Bool) (n : Nat) (h : s.mem.wf = true) :
    (s.runMsg m x begun n).left.mem.wf = true := by
  unfold State.runMsg
  (repeat' split) <;> simp [h]

@[simp] theorem State.passTrace_wf (c : Nat) (h : s.mem.wf = true) : (s.passTrace c).mem.wf = true := by
  unfold State.passTrace
  dsimp only
  (repeat' split) <;> simp [State.logLine_wf, h]

@[simp] theorem State.takeMsg_wf (h : HeldMsg) (hs : s.mem.wf = true) : (s.takeMsg h).mem.wf = true := by
  have hpass : (if h.begun then s else s.passTrace h.m.core).mem.wf = true := by split <;> simp [hs]
  unfold State.takeMsg
  generalize (if h.begun then s else s.passTrace h.m.core) = u at hpass ⊢
  have hrun := State.runMsg_wf h.m h.msg h.begun h.count hpass
  dsimp only
  split
  next hx =>
    rw [hx] at hrun
    exact State.wf_mbxAnswer hrun ..
  next hx =>
    rw [hx] at hrun
    exact hrun

@[simp] theorem State.heldStep_wf (h : s.mem.wf = true) : s.heldStep.mem.wf = true := by
  unfold State.heldStep
  refine State.foldl_wf _ (fun s m hs => ?_) _ _ h
  dsimp only
  split
  · exact hs
  · split
    · exact State.wf_mbxAnswer (by exact hs) ..
    · exact State.takeMsg_wf _ (by exact hs)

@[simp] theorem State.endHeld_wf (m : MReq) (typ status : Nat) (body : List Byte) (h : s.mem.wf = true) :
    (s.endHeld m typ status body).mem.wf = true := by
  simp [State.endHeld, State.wf_mbxAnswer, h]

@[simp] theorem State.endActivation_wf (a : Activation) (status last : Nat) (h : s.mem.wf = true) :
    (s.endActivation a status last).mem.wf = true := by
  unfold State.endActivation
  (repeat' split) <;> simp [h]

@[simp] theorem State.answerCut_wf (c : Nat) (h : s.mem.wf = true) : (s.answerCut c).mem.wf = true := by
  unfold State.answerCut
  exact State.foldl_wf _ (fun s x h => by (repeat' split) <;> simp [h]) _ _ h

@[simp] theorem State.coreUp_wf (c : Nat) (h : s.mem.wf = true) : (s.coreUp c).mem.wf = true := by
  unfold State.coreUp
  split
  · exact h
  · extract_lets r i s1 _ s2 s3 _ s4
    have h1 : s1.mem.wf = true := by simp [s1, h]
    have h2 : s2.mem.wf = true := by
      simp only [s2]
      split <;> simp [h1]
    have h3 : s3.mem.wf = true := by
      simp only [s3]
      split <;> simp [h2]
    have h4 : s4.mem.wf = true := by
      simp only [s4]
      split
      · exact h3
      split
      · exact h3
      split
      · exact h3
      split <;> simp [h3]
    exact State.heldStep_wf h4

@[simp] theorem State.endAtBound_wf (ids units : List Nat) (h : s.mem.wf = true) : (s.endAtBound ids units).1.mem.wf = true := by
  unfold State.endAtBound
  dsimp only
  refine (congrArg Mem.wf (State.foldl_keeps State.mem _ (by simp) _ _)).trans ?_
  refine State.foldl_wf _ (fun s i hs => ?_) _ _ h
  split <;> simp [hs]

end Sys2Proof.Machine
end

section
/-!
SUPPORT. Memory through the supply, the start, egress and the connections.
-/

namespace Sys2Proof.Machine

variable {s t : State}

@[simp] theorem State.quiesce_wf (id : Nat) (units : List Nat) (h : s.mem.wf = true) : (s.quiesce id units).mem.wf = true := by
  unfold State.quiesce
  (repeat' split) <;> simp [h]

@[simp] theorem State.failWait_wf (c : Cmd) (status n : Nat) (h : s.mem.wf = true) : (s.failWait c status n).mem.wf = true := by
  unfold State.failWait
  (repeat' split) <;> simp [h]

@[simp] theorem State.victimTimeout_wf (id : Nat) (h : s.mem.wf = true) : (s.victimTimeout id).mem.wf = true := by
  unfold State.victimTimeout
  (repeat' split) <;> simp [h]

theorem State.placeForm_mem {f : Nat} {packed : Bool} {t : State} (ht : s.placeForm f packed = some t) : t.mem = s.mem := by
  unfold State.placeForm at ht
  dsimp only at ht
  split at ht
  · cases ht
    rfl
  split at ht
  · obtain ⟨x, hx, rfl⟩ := Option.map_eq_some_iff.mp ht
    simp [State.allocCrumb_mem hx]
  split at ht
  · cases ht
  · obtain ⟨x, hx, rfl⟩ := Option.map_eq_some_iff.mp ht
    simp

theorem State.landContent_mem {d v q part f : Nat} {content : Page} {t : State}
    (ht : s.landContent d v q part f content = some t) :
    t.mem = s.mem := by
  obtain ⟨u, hu, rfl⟩ := Option.map_eq_some_iff.mp ht
  have hm := State.placeForm_mem hu
  have hset (w : State) (p : Pte) : (w.setPte d v p).mem = w.mem := by simp
  have hline (x : State × Bool) (b : Bool) : (if b then x else
      match x.1.takeLine (frameTile f) (frameSet f) f 0 .opened part d with
      | some s => (s, true)
      | none => (x.1.noLine (frameTile f), false)).1.mem = x.1.mem := by
    split
    · rfl
    split
    next hl => exact State.takeLine_mem hl
    · simp
  dsimp only
  rw [hset]
  refine (hline _ _).trans ?_
  split <;> simp [hm]

@[simp] theorem State.migrationIn_mem (conn msgId : Nat) (o : MigObj) : (s.migrationIn conn msgId o).mem = s.mem := by
  unfold State.migrationIn
  split
  · rfl
  split
  · dsimp only
    split
    · simp
    split
    · simp
    split
    · simp
    split
    · simp
    next hx =>
      obtain ⟨c, -, hc⟩ := List.exists_of_findSome?_eq_some hx
      obtain ⟨y, hy, hv⟩ := Option.map_eq_some_iff.mp hc
      cases hv
      simp [State.allocMeta_mem hy]
  · split
    · simp
    split
    · simp
    split
    · simp
    dsimp only
    split
    · simp
    next hgot =>
      have hm := State.reserve_mem hgot
      split
      · simp [hm]
      · split
        next hland =>
          have hput := (State.landContent_mem hland).trans (State.takeLine_else_mem ..)
          simp [hput, hm]
        next hland =>
          have hback (w : State) (f : Nat) : ((w.freeFrame f).answerObject conn msgId stNoCapacity).mem = w.mem := by simp
          exact (hback _ _).trans ((State.takeLine_else_mem ..).trans (by simp [hm]))

@[simp] theorem State.railsOff_wf (_h : s.mem.wf = true) : s.railsOff.mem.wf = true := by
  rfl

@[simp] theorem State.thermalSample_wf (logic rack inlet : Nat) (h : s.mem.wf = true) :
    (s.thermalSample logic rack inlet).mem.wf = true := by
  unfold State.thermalSample
  dsimp only
  (repeat' split) <;> simp [h]

@[simp] theorem State.powerSample_mem (pin vin iin : Nat) : (s.powerSample pin vin iin).mem = s.mem := by
  simp [State.powerSample]

@[simp] theorem State.coreBoots_wf (c : Nat) (h : s.mem.wf = true) : (s.coreBoots c).mem.wf = true := by
  unfold State.coreBoots
  (repeat' split) <;> simp [State.logLine_wf, h]

@[simp] theorem State.goUnleavened_wf (cause detail : Nat) (h : s.mem.wf = true) :
    (s.goUnleavened cause detail).mem.wf = true := by
  simp [State.goUnleavened, h]

@[simp] theorem State.startRun_wf (h : s.mem.wf = true) : s.startRun.mem.wf = true := by
  unfold State.startRun
  dsimp only
  (repeat' split) <;> simp [h]

@[simp] theorem State.startRetry_wf (h : s.mem.wf = true) : s.startRetry.mem.wf = true := by
  unfold State.startRetry
  (repeat' split) <;> simp [h]

@[simp] theorem State.startFails_wf (code detail : Nat) (h : s.mem.wf = true) : (s.startFails code detail).mem.wf = true := by
  simp [State.startFails, h]

@[simp] theorem State.bootStepLate_wf (h : s.mem.wf = true) : s.bootStepLate.mem.wf = true := by
  unfold State.bootStepLate
  (repeat' split) <;> simp [h]

@[simp] theorem State.loadImages_wf (h : s.mem.wf = true) : s.loadImages.mem.wf = true := by
  have hlog : ([0, 1, 2, 3].foldl (fun (s : State) k =>
      let x := s.kind k
      if x.host ∨ slotOk x x.active then s
      else (s.logErr pgMbox 1 k (if slotOk x (1 - x.active) then 0 else 2))) s).mem.wf = true := by
    refine State.foldl_wf _ (fun s k hs => ?_) _ _ h
    dsimp only
    split <;> simp [hs]
  unfold State.loadImages
  dsimp only
  split
  · exact State.goUnleavened_wf _ _ hlog
  · exact hlog

@[simp] theorem State.stepWork_wf (n : Nat) (lanes : List (Nat × Nat)) (h : s.mem.wf = true) :
    (s.stepWork n lanes).mem.wf = true := by
  unfold State.stepWork
  split
  · simp [h]
  split
  · simp [h]
  split
  · simp [h]
  split
  · simp [h]
  split
  · simp [h]
  split
  · exact State.foldl_wf _ (fun s q hs => by split <;> simp [hs]) _ _ (by simp [h])
  · exact h

@[simp] theorem State.bootStepDone_wf (o : BootOutcome) (h : s.mem.wf = true) : (s.bootStepDone o).mem.wf = true := by
  have hwork (n : Nat) (lanes : List (Nat × Nat)) (l : List Nat) :
      ((l.foldl (fun (s : State) t => s.fencePage (pgTile t 0)) s).stepWork n lanes).mem.wf = true :=
    State.stepWork_wf _ _ (State.foldl_wf _ (fun s t hs => by simp [hs]) _ _ h)
  unfold State.bootStepDone
  dsimp only
  split
  · exact h
  split
  · exact h
  split
  · split <;> simp [h]
  split
  · exact hwork ..
  split
  · exact State.startFails_wf _ _ (hwork ..)
  split
  · exact State.startFails_wf _ _ (hwork ..)
  split
  · simp [hwork]
  · exact hwork ..

@[simp] theorem State.orderlyStop_wf (h : s.mem.wf = true) : s.orderlyStop.mem.wf = true := by
  simp [State.orderlyStop, h]

@[simp] theorem State.enDeassert_wf (h : s.mem.wf = true) : s.enDeassert.mem.wf = true := by
  unfold State.enDeassert
  dsimp only
  (repeat' split) <;> simp [h]

@[simp] theorem State.tryStart_wf (h : s.mem.wf = true) : s.tryStart.mem.wf = true := by
  unfold State.tryStart
  (repeat' split) <;> simp [h]

@[simp] theorem State.enAssert_wf (h : s.mem.wf = true) : s.enAssert.mem.wf = true := by
  unfold State.enAssert
  (repeat' split) <;> simp [h]

@[simp] theorem State.powerOn_wf (mv : Nat) (h : s.mem.wf = true) : (s.powerOn mv).mem.wf = true := by
  unfold State.powerOn
  (repeat' split) <;> simp [h]

@[simp] theorem State.overReclose_wf (h : s.mem.wf = true) : s.overReclose.mem.wf = true := by
  unfold State.overReclose
  (repeat' split) <;> simp [h]

@[simp] theorem State.inputTrip_wf (cause : Nat) (h : s.mem.wf = true) : (s.inputTrip cause).mem.wf = true := by
  simp [State.inputTrip, h]

@[simp] theorem State.rebase_mem (p b : Nat) : (s.rebase p b).mem = s.mem := by
  simp [State.rebase]

@[simp] theorem State.egressSelect_mem (p b : Nat) : (s.egressSelect p b).mem = s.mem := by
  unfold State.egressSelect
  dsimp only
  (repeat' split) <;> simp

@[simp] theorem State.dataPlaced_mem (c : Conn) (p : DataPkt) : (s.dataPlaced c p).mem = s.mem := by
  simp [State.dataPlaced]

@[simp] theorem State.dataCached_mem (c : Conn) (p : DataPkt) : (s.dataCached c p).mem = s.mem := by
  unfold State.dataCached
  (repeat' split) <;> simp

@[simp] theorem State.startFetches_mem : s.startFetches.mem = s.mem := by
  unfold State.startFetches
  exact State.foldl_keeps State.mem _ (fun s x => by (repeat' split) <;> simp) _ _

@[simp] theorem State.connFetched_mem (conn : Nat) : (s.connFetched conn).mem = s.mem := by
  unfold State.connFetched
  split
  · rfl
  split
  · rfl
  extract_lets cachedNow s1 s2 wait _ s3
  have h1 : s1.mem = s.mem := by
    simp only [s1]
    split
    · rfl
    · generalize cachedNow = l
      cases l <;> rfl
  have h3 : s3.mem = s.mem := h1
  refine State.startFetches_mem.trans ((State.foldl_keeps State.mem _ (fun s p => ?_) _ _).trans h3)
  split <;> simp

@[simp] theorem State.freeConn_mem (c : Conn) : (s.freeConn c).mem = s.mem := by
  simp [State.freeConn]

@[simp] theorem State.dropFill_mem (d v : Nat) : (s.dropFill d v).mem = s.mem := by
  simp [State.dropFill]

@[simp] theorem State.failFill_mem (d v : Nat) : (s.failFill d v).mem = s.mem := by
  unfold State.failFill
  (repeat' split) <;> simp

@[simp] theorem State.fillLost_wf (d v : Nat) (h : s.mem.wf = true) : (s.fillLost d v).mem.wf = true := by
  unfold State.fillLost
  split
  · exact h
  · refine State.foldl_wf _ (fun s c hs => ?_) _ _ (by simp [h])
    split <;> simp [hs]

@[simp] theorem State.endOut_wf (status : Nat) (o : Outbound) (h : s.mem.wf = true) : (s.endOut status o).mem.wf = true := by
  unfold State.endOut
  (repeat' split) <;> simp [h]

@[simp] theorem State.connGone_wf (c : Conn) (h : s.mem.wf = true) : (s.connGone c).mem.wf = true := by
  unfold State.connGone
  exact State.foldl_wf _ (fun s p hs => by simp [hs]) _ _ (State.foldl_wf _ (fun s o hs => by simp [hs]) _ _ h)

@[simp] theorem State.endConn_wf (c : Conn) (h : s.mem.wf = true) : (s.endConn c).mem.wf = true := by
  simp [State.endConn, h]

@[simp] theorem State.closeAcked_wf (i : Nat) (h : s.mem.wf = true) : (s.closeAcked i).mem.wf = true := by
  unfold State.closeAcked
  (repeat' split) <;> simp [h]

@[simp] theorem State.control_wf (c : Conn) (m : InMsg) (h : s.mem.wf = true) : (s.control c m).mem.wf = true := by
  unfold State.control
  dsimp only
  (repeat' split) <;> simp [h]

@[simp] theorem State.partialStatus_wf (conn msgId status hintUs : Nat) (h : s.mem.wf = true) :
    (s.partialStatus conn msgId status hintUs).mem.wf = true := by
  unfold State.partialStatus
  (repeat' split) <;> simp [h]

@[simp] theorem State.partialIn_wf (conn msgId : Nat) (r : PartialRec) (h : s.mem.wf = true) :
    (s.partialIn conn msgId r).mem.wf = true := by
  unfold State.partialIn
  dsimp only
  (repeat' split) <;> simp [h]

@[simp] theorem State.jobProgress_mem (id : Nat) : (s.jobProgress id).mem = s.mem := by
  unfold State.jobProgress
  (repeat' split) <;> simp

@[simp] theorem State.peerRevoked_wf (d i : Nat) (e : PeerEntry) (h : s.mem.wf = true) : (s.peerRevoked d i e).mem.wf = true := by
  unfold State.peerRevoked
  (repeat' split) <;> simp [h]

@[simp] theorem State.rmaAnswered_wf (conn msgId status c0 c1 : Nat) (data : List Byte) (h : s.mem.wf = true) :
    (s.rmaAnswered conn msgId status c0 c1 data).mem.wf = true := by
  unfold State.rmaAnswered
  dsimp only
  (repeat' split) <;> simp [h]

@[simp] theorem State.response_wf (c : Conn) (m : InMsg) (h : s.mem.wf = true) : (s.response c m).mem.wf = true := by
  unfold State.response
  dsimp only
  (repeat' split) <;> simp [h]

@[simp] theorem State.deliverMsgs_wf (conn : Nat) (h : s.mem.wf = true) : (s.deliverMsgs conn).mem.wf = true := by
  unfold State.deliverMsgs
  split
  · exact h
  · refine State.foldl_wf _ (fun s m hs => ?_) _ _ h
    split
    · exact hs
    · split <;> simp [hs]

@[simp] theorem State.enter_wf (q : Req) (op : Op) (len : Nat) (fallback : Bool) (m : Option Manifest) (ue : Bool)
    (h : s.mem.wf = true) :
    (s.enter q op len fallback m ue).mem.wf = true := by
  unfold State.enter
  (repeat' split) <;> simp [h]

@[simp] theorem State.turnAway_wf (q : Req) (op : Op) (status c0 : Nat) (policed : Bool) (h : s.mem.wf = true) :
    (s.turnAway q op status c0 policed).mem.wf = true := by
  simp [State.turnAway, h]

theorem State.submit_wf {q : Req} {op : Op} {len : Nat} {m : Option Manifest} {ue : Bool} {t : State} (h : s.mem.wf = true)
    (ht : s.submit q op len m ue = some t) :
    t.mem.wf = true := by
  unfold State.submit at ht
  (repeat' split at ht) <;> cases ht <;> simp [h]

@[simp] theorem State.releaseHeld_wf (conn n : Nat) (s : State) (h : s.mem.wf = true) :
    (State.releaseHeld conn n s).mem.wf = true := by
  induction n generalizing s with
  | zero => exact h
  | succ n ih =>
    unfold State.releaseHeld
    split
    · exact h
    split
    · exact h
    split
    · exact ih _ h
    dsimp only
    split
    · exact h
    next hx => exact ih _ (State.submit_wf (by exact h) hx)

@[simp] theorem State.admitMsg_wf (c : Conn) (m : InMsg) (h : s.mem.wf = true) : (s.admitMsg c m).mem.wf = true := by
  have hhold : (s.setConn { c with held := c.held ++ [m.msgId] }).mem.wf = true := h
  unfold State.admitMsg
  dsimp only
  refine State.wf_ite (State.wf_ite hhold (State.turnAway_wf _ _ _ _ _ h)) ?_
  split
  next hx => exact State.submit_wf h hx
  · exact State.wf_ite hhold (State.turnAway_wf _ _ _ _ _ h)

@[simp] theorem State.admitNext_wf (conn n : Nat) (s : State) (h : s.mem.wf = true) :
    (State.admitNext conn n s).mem.wf = true := by
  induction n generalizing s with
  | zero => exact h
  | succ n ih =>
    unfold State.admitNext
    split
    · exact h
    dsimp only
    split
    · exact h
    · exact ih _ (State.admitMsg_wf _ _ h)

@[simp] theorem State.admitConn_wf (conn : Nat) (h : s.mem.wf = true) : (s.admitConn conn).mem.wf = true := by
  simp [State.admitConn, h]

@[simp] theorem State.tryCloseAck_mem (conn : Nat) : (s.tryCloseAck conn).mem = s.mem := by
  unfold State.tryCloseAck
  (repeat' split) <;> simp

@[simp] theorem State.rtoExpired_mem (conn psn : Nat) : (s.rtoExpired conn psn).1.mem = s.mem := by
  unfold State.rtoExpired
  dsimp only
  (repeat' split) <;> simp

@[simp] theorem State.noteGone_wf (old : State) (i : Nat) (h : s.mem.wf = true) : (State.noteGone old s i).mem.wf = true := by
  unfold State.noteGone
  split <;> simp [h]

@[simp] theorem State.timedOut_wf (conn psn : Nat) (h : s.mem.wf = true) : (s.timedOut conn psn).mem.wf = true := by
  simp [State.timedOut, h]

@[simp] theorem State.partialAgain_wf (cmd : Nat) (h : s.mem.wf = true) : (s.partialAgain cmd).mem.wf = true := by
  unfold State.partialAgain
  dsimp only
  (repeat' split) <;> simp [h]

@[simp] theorem State.abandonIn_wf (conn msgId : Nat) (lane : Lane) (reason : Nat) (h : s.mem.wf = true) :
    (s.abandonIn conn msgId lane reason).mem.wf = true := by
  unfold State.abandonIn
  dsimp only
  (repeat' split) <;> simp [h]

@[simp] theorem State.recvBusyAgain_mem (conn msgId : Nat) (lane : Lane) : (s.recvBusyAgain conn msgId lane).mem = s.mem := by
  unfold State.recvBusyAgain
  (repeat' split) <;> simp

@[simp] theorem State.ackIn_mem (c : Conn) (base : Nat) (ranges : List (Nat × Nat)) (echo : Bool) :
    (s.ackIn c base ranges echo).mem = s.mem := by
  simp [State.ackIn]

@[simp] theorem State.tryFree_mem (conn : Nat) : (s.tryFree conn).mem = s.mem := by
  unfold State.tryFree
  (repeat' split) <;> simp

@[simp] theorem State.acked_wf (conn base : Nat) (ranges : List (Nat × Nat)) (echo : Bool) (h : s.mem.wf = true) :
    (s.acked conn base ranges echo).mem.wf = true := by
  unfold State.acked
  (repeat' split) <;> simp [h]

@[simp] theorem State.dataIn_mem (p : DataPkt) : (s.dataIn p).mem = s.mem := by
  unfold State.dataIn
  dsimp only
  (repeat' split) <;> simp

@[simp] theorem State.packet_wf (p : DataPkt) (h : s.mem.wf = true) : (s.packet p).mem.wf = true := by
  simp [State.packet, h]

@[simp] theorem State.message_wf (m : MReq) (x : Msg) (h : s.mem.wf = true) : (s.message m x).mem.wf = true := by
  unfold State.message
  dsimp only
  (repeat' split) <;> simp [State.wf_mbxAnswer, h]

end Sys2Proof.Machine
end

section
/-!
SUPPORT. Memory through host sessions, transfers of the host, rings and register writes.
-/

namespace Sys2Proof.Machine

variable {s t : State}

@[simp] theorem State.activationLate_wf (kind : Nat) (h : s.mem.wf = true) : (s.activationLate kind).mem.wf = true := by
  unfold State.activationLate
  dsimp only
  (repeat' split) <;> simp [h]

@[simp] theorem State.sessionsAfter_mem (old s : State) : (State.sessionsAfter old s).mem = s.mem := by
  unfold State.sessionsAfter
  exact State.foldl_keeps State.mem _ (fun s l => by split <;> simp) _ _

@[simp] theorem State.lsEnd_mem (l : Link) : (s.lsEnd l).mem = s.mem := by
  simp [State.lsEnd]

@[simp] theorem State.ringWindowPut_wf (l : Link) (addr : Nat) (d : List Byte) (h : s.mem.wf = true) :
    (s.ringWindowPut l addr d).mem.wf = true := by
  unfold State.ringWindowPut
  (repeat' split) <;> simp [Mem.wf_writeN, h]

@[simp] theorem State.pokeBlock_mem (dm h ch k o : Nat) (d : List Byte) : (s.pokeBlock dm h ch k o d).mem = s.mem := by
  unfold State.pokeBlock
  (repeat' split) <;> simp

@[simp] theorem State.crumbPut_wf (ch b : Nat) (d : List Byte) (k : Nat) (h : s.mem.wf = true) :
    (s.crumbPut ch b d k).mem.wf = true := by
  induction k generalizing s b d with
  | zero => exact h
  | succ k ih =>
    unfold State.crumbPut
    split
    · exact h
    split
    · exact ih _ _ (by simp [h])
    · exact ih _ _ (Mem.wf_writeN _ _ h)

@[simp] theorem State.bulkPut_wf (l : Link) (a : Nat) (d : List Byte) (h : s.mem.wf = true) :
    (s.bulkPut l a d).mem.wf = true := by
  unfold State.bulkPut
  dsimp only
  (repeat' split) <;> simp [State.wf_settled, State.wf_putBytes, h]

@[simp] theorem State.bulkWrite_wf (l : Link) (a : Nat) (d : List Byte) (h : s.mem.wf = true) :
    (s.bulkWrite l a d).mem.wf = true := by
  unfold State.bulkWrite
  (repeat' split) <;> simp [h]

@[simp] theorem State.bulkRead_mem (l : Link) (tag a n : Nat) (ue : Bool) : (s.bulkRead l tag a n ue).mem = s.mem := by
  unfold State.bulkRead
  (repeat' split) <;> simp

@[simp] theorem State.endCut_wf (c : Cmd) (status : Nat) (h : s.mem.wf = true) : (s.endCut c status).mem.wf = true := by
  unfold State.endCut
  (repeat' split) <;> simp [h]

@[simp] theorem State.cutCmd_wf (c : Cmd) (status : Nat) (h : s.mem.wf = true) : (s.cutCmd c status).mem.wf = true := by
  unfold State.cutCmd
  (repeat' split) <;> simp [h]

@[simp] theorem State.loseRings_wf (q : Nat) (h : s.mem.wf = true) : (s.loseRings q).mem.wf = true := by
  unfold State.loseRings
  split
  · exact h
  dsimp only
  split
  · exact h
  · refine State.settleAborts_wf (State.foldl_wf _ (fun s n hs => by simp [hs]) _ _ ?_)
    simp only [State.setIrq_mem]
    refine State.foldl_wf _ (fun s c hs => ?_) _ _ (State.foldl_wf _ (fun s n hs => by exact hs) _ _ h)
    split <;> simp [hs]

@[simp] theorem State.releaseDrained_mem (t : Nat) : (s.releaseDrained t).mem = s.mem := by
  unfold State.releaseDrained
  extract_lets s1
  have h1 : s1.mem = s.mem := by
    refine State.foldl_keeps State.mem _ (fun s l => ?_) _ _
    (repeat' split) <;> simp
  split <;> simp [h1]

@[simp] theorem State.markDraining_mem (t p mask : Nat) : (s.markDraining t p mask).mem = s.mem := by
  simp [State.markDraining]

theorem State.applyFields_mem {pg off : Nat} {v : Word} {t : State} (ht : s.applyFields pg off v = some t) : t.mem = s.mem := by
  unfold State.applyFields at ht
  split at ht
  · cases ht
    rfl
  dsimp only at ht
  split at ht
  · cases ht
  · cases ht
    (repeat' split) <;> rfl

@[simp] theorem State.ringCfg_wf (v : Word) (h : s.mem.wf = true) : (s.ringCfg v).mem.wf = true := by
  unfold State.ringCfg
  dsimp only
  split
  · simp [h]
  next hx =>
    have ht := (congrArg Mem.wf (State.applyFields_mem hx)).trans h
    split
    · split
      · exact h
      · split
        · simp [h]
        · exact State.wf_ringStart ht _
      · simp [h]
    · simp [ht]

@[simp] theorem State.doorbell_wf (l : Link) (c : Nat) (seq : Word) (h : s.mem.wf = true) :
    (s.doorbell l c seq).mem.wf = true := by
  unfold State.doorbell
  dsimp only
  (repeat' split) <;> simp [State.wf_mbxAnswer, h]

theorem State.orRefuse_mem {o : Option State} (h : ∀ t, o = some t → t.mem = s.mem) (pg : Nat) :
    (s.orRefuse pg o).mem = s.mem := by
  cases o with
  | none => simp [State.orRefuse]
  | some t => exact h t rfl

theorem State.orRefuse_wf {o : Option State} (h : s.mem.wf = true) (ho : ∀ t, o = some t → t.mem.wf = true) (pg : Nat) :
    (s.orRefuse pg o).mem.wf = true := by
  cases o with
  | none => simp [State.orRefuse, h]
  | some t => exact ho t rfl

theorem State.applyThen_wf {f : State → State} (pg off : Nat) (v : Word) (h : s.mem.wf = true)
    (hf : ∀ s, s.mem.wf = true → (f s).mem.wf = true) : (s.applyThen pg off v f).mem.wf = true := by
  refine State.orRefuse_wf h (fun t ht => ?_) pg
  obtain ⟨u, hu, rfl⟩ := Option.map_eq_some_iff.mp ht
  exact hf u ((congrArg Mem.wf (State.applyFields_mem hu)).trans h)

@[simp] theorem State.restart_wf (h : s.mem.wf = true) : s.restart.mem.wf = true := by
  unfold State.restart
  (repeat' split) <;> simp [h]

theorem State.rejoinKeep_mem {t : State} (ht : s.rejoinKeep = some t) : t.mem = s.mem := by
  unfold State.rejoinKeep at ht
  (repeat' split at ht) <;> cases ht <;> simp

theorem State.rejoinDiscard_wf {t : State} (h : s.mem.wf = true) (ht : s.rejoinDiscard = some t) : t.mem.wf = true := by
  have hlost : s.destroySeqs.dropGrads.clearMerge.loseBound.mem.wf = true := by
    have hseqs : s.destroySeqs.mem.wf = true := State.foldl_wf _ (fun s p hs => by simp [hs]) _ _ h
    have hgrads : s.destroySeqs.dropGrads.mem.wf = true := State.foldl_wf _ (fun s p hs => by simp [hs]) _ _ hseqs
    exact State.foldl_wf _ (fun s p hs => State.endConn_wf _ (by exact hs)) _ _ hgrads
  cases hf : s.nodeFenced with
  | false => simp [State.rejoinDiscard, hf] at ht
  | true =>
    rw [State.rejoinDiscard_of hf] at ht
    cases ht
    exact hlost

theorem State.releaseSlot_mem {t : State} (ht : s.releaseSlot = some t) : t.mem = s.mem := by
  unfold State.releaseSlot at ht
  (repeat' split at ht) <;> cases ht <;> simp

@[simp] theorem State.fenceNode_wf (cause : Nat) (h : s.mem.wf = true) : (s.fenceNode cause).mem.wf = true := by
  cases hf : s.nodeFenced with
  | true => simpa [State.fenceNode, hf] using h
  | false =>
    have hfence : (s.fencing cause).mem.wf = true := by simp [State.fencing, h]
    have hcut : (s.fencing cause).cutAll.mem.wf = true := State.foldl_wf _ (fun s c hs => by split <;> simp [hs]) _ _ hfence
    have hfills : (s.fencing cause).cutAll.failFills.mem.wf = true := State.foldl_wf _ (fun s f hs => by simp [hs]) _ _ hcut
    have hjobs : (s.fencing cause).cutAll.failFills.failJobs.mem.wf = true := State.foldl_wf _ (fun s p hs => by simp [hs]) _ _ hfills
    rw [State.fenceNode_eq hf]
    exact State.settleAborts_wf (State.foldl_wf _ (fun s o hs => by simp [hs]) _ _ hjobs)

@[simp] theorem State.goFence_wf (h : s.mem.wf = true) : s.goFence.mem.wf = true := by
  unfold State.goFence
  (repeat' split) <;> simp [h]

theorem State.openMeter_mem {comp : Nat} {t : State} (ht : s.openMeter comp = some t) : t.mem = s.mem := by
  unfold State.openMeter at ht
  (repeat' split at ht) <;> cases ht <;> simp

theorem State.grant_mem {t : State} (ht : s.grant = some t) : t.mem = s.mem := by
  unfold State.grant at ht
  dsimp only at ht
  (repeat' split at ht) <;> cases ht <;> simp

@[simp] theorem State.goGrant_mem : s.goGrant.mem = s.mem := by
  unfold State.goGrant
  split
  · simp
  split
  · simp
  split
  · simp
  next hm =>
    have hm := State.openMeter_mem hm
    exact (State.orRefuse_mem (fun u hu => State.grant_mem hu) _).trans hm

theorem State.renew_mem {t : State} (ht : s.renew = some t) : t.mem = s.mem := by
  unfold State.renew at ht
  dsimp only at ht
  split at ht
  · cases ht
  · obtain ⟨p, -, rfl⟩ := Option.map_eq_some_iff.mp ht
    rfl

@[simp] theorem State.go_wf (v : Nat) (h : s.mem.wf = true) : (s.go v).mem.wf = true := by
  unfold State.go
  extract_lets s1 s2 s3 s4
  have h1 : s1.mem.wf = true := by
    simp only [s1]
    split
    · rw [State.orRefuse_mem fun t ht => State.renew_mem ht]
      exact h
    · exact h
  have h2 : s2.mem.wf = true := by
    simp only [s2]
    split <;> simp [h1]
  have h3 : s3.mem.wf = true := by
    simp only [s3]
    split <;> simp [h2]
  have h4 : s4.mem.wf = true := by
    simp only [s4]
    split
    · rw [State.orRefuse_mem fun t ht => State.releaseSlot_mem ht]
      exact h3
    · exact h3
  split
  · exact State.orRefuse_wf h4 (fun t ht => State.rejoinDiscard_wf h4 ht) _
  split
  · rw [State.orRefuse_mem fun t ht => State.rejoinKeep_mem ht]
    exact h4
  · split <;> simp [h4]

/-- What an ABORT of a page does with merge contexts of tile `k`. -/
def State.killTile (s : State) (k : Nat) : State :=
  (s.eng.merge.filter (fun (p : MergeKey × MergeCtx) => p.2.numbers.any (fun n => n % 24 == k))).foldl (fun (s : State) p => s.killCtx p.1 stAborted) s

/-- What it does with the packs of tile `k`. -/
def State.repackTile (s : State) (k : Nat) : State :=
  (s.kv.packing.filter (fun (p : Nat × CrumbPage) => frameTile p.1 == k)).foldl (fun (s : State) p =>
    let s := s.dropPack p.1
    s.setKv { s.kv with packQ := p.1 :: s.kv.packQ }) s

/-- What it does with the write-backs under way of some lines. -/
def State.cutBacks (s : State) (which : Line → Bool) : State :=
  (s.kv.lines.filter (fun (l : Line) => l.wb.isSome && which l)).foldl
    (fun (s : State) l => (s.setLine { l with wb := none }).unpinForm l.frame (l.form == 1)) s

/-- What it does with the fills of a channel, or of all. -/
def State.cutFills (s : State) (ch : Option Nat) : State :=
  let mine (f : Nat) : Bool := ch.all (· == frameChannel f)
  let s := (s.kv.fills.filter (fun f => mine f.frame)).foldl (fun (s : State) f => s.fillLost f.domain f.vpn) s
  s.setKv { s.kv with fetches := s.kv.fetches.filter (fun f => !mine f) }

/-- What it does with fragments whose commands have ended. -/
def State.cutLate (s : State) (pg : Nat) : State :=
  (s.eng.frags.filter (fun (x : Nat × Frag) => fragIn pg x.2 && (s.cmd x.2.cmd).isNone)).foldl
    (fun (s : State) x => ((s.unpinPages x.2).removeFrag x.2).settleOver x.2.cmd) s

theorem State.killTile_wf (h : s.mem.wf = true) (k : Nat) :
    (s.killTile k).mem.wf = true := State.foldl_wf _ (fun s p hs => by simp [hs]) _ _ h

theorem State.repackTile_wf (h : s.mem.wf = true) (k : Nat) :
    (s.repackTile k).mem.wf = true := State.foldl_wf _ (fun s p hs => by simp [hs]) _ _ h

theorem State.cutBacks_wf (h : s.mem.wf = true) (which : Line → Bool) : (s.cutBacks which).mem.wf = true :=
  State.foldl_wf _ (fun s p hs => by simp [hs]) _ _ h

theorem State.cutFills_wf (h : s.mem.wf = true) (ch : Option Nat) : (s.cutFills ch).mem.wf = true :=
  State.foldl_wf _ (fun s p hs => by simp [hs]) _ _ h

theorem State.cutLate_wf (h : s.mem.wf = true) (pg : Nat) :
    (s.cutLate pg).mem.wf = true := State.foldl_wf _ (fun s p hs => by simp [hs]) _ _ h

theorem State.abortOther_eq (s : State) (pg : Nat) : s.abortOther pg = (let u := s.cutLate pg
    match pageType pg, pageTile pg with
    | some (.tile, _), some t =>
      (List.range 16).foldl (fun (s : State) n => s.cutFills (some (t * 16 + n))) (((u.killTile t).repackTile t).cutBacks (fun l => l.tile == t))
    | some (.mrgu, _), some t => u.killTile t
    | some (.crmb, _), some t => u.repackTile t
    | some (.bnch, _), some t => u.cutBacks (fun l => l.tile == t)
    | some (.mchn, n), some t => (u.cutFills (some (t * 16 + n))).cutBacks (fun l => frameChannel l.frame == t * 16 + n)
    | some (.xlat, _), none => u.cutFills none
    | some (.port, n), none => u.setNet { u.net with ctl := u.net.ctl.filter (fun x => (u.ctlSub x.1 x.2).1 != n) }
    | some (.egrs, n), none => u.setEgress { u.egress with queues := u.egress.queues.map (fun (k, q) => if k.1 == n then (k, { q with pkts := [] }) else (k, q)) }
    | some (.hlnk, i), none =>
      let l : Link := if i = 0 then .a else .b
      u.setLink l { u.link l with waiting := [], stalled := [] }
    | some (.xprt, _), none =>
      let v := u.net.outbound.foldl (fun (s : State) o => s.endOut stAborted o) u
      v.setNet { v.net with conns := v.net.conns.map (fun (p : Nat × Conn) => (p.1, { p.2 with msgs := [], resend := [], unacked := [] })) }
    | _, _ => u) := rfl

@[simp] theorem State.abortOther_wf (pg : Nat) (h : s.mem.wf = true) : (s.abortOther pg).mem.wf = true := by
  have hu := State.cutLate_wf h pg
  rw [State.abortOther_eq]
  generalize s.cutLate pg = u at hu ⊢
  dsimp only
  split
  · exact State.foldl_wf _ (fun s n hs => State.cutFills_wf hs _) _ _ (State.cutBacks_wf (State.repackTile_wf (State.killTile_wf hu _) _) _)
  · exact State.killTile_wf hu _
  · exact State.repackTile_wf hu _
  · exact State.cutBacks_wf hu _
  · exact State.cutBacks_wf (State.cutFills_wf hu _) _
  · exact State.cutFills_wf hu _
  · exact hu
  · exact hu
  · simpa using hu
  · exact State.foldl_wf _ (fun s o hs => by simp [hs]) u.net.outbound u hu
  · exact hu

@[simp] theorem State.pageAbort_wf (pg : Nat) (stuck : List Nat) (h : s.mem.wf = true) :
    (s.pageAbort pg stuck).mem.wf = true := by
  unfold State.pageAbort
  extract_lets units cs bad s1 s2
  have h1 : s1.mem.wf = true := State.foldl_wf _ (fun s c hs => by split <;> simp [hs]) _ _ h
  have h2 : s2.mem.wf = true := State.foldl_wf _ (fun s u hs => by simp [hs]) _ _ (by simp [h1])
  exact State.settleAborts_wf h2

@[simp] theorem State.abortBlock_wf (pg : Nat) (stuck : List Nat) (h : s.mem.wf = true) : (s.abortBlock pg stuck).mem.wf = true :=
  State.foldl_wf _ (fun s m hs => by simp [hs]) _ _ (State.pageAbort_wf _ _ h)

@[simp] theorem State.pgCtl_wf (pg : Nat) (v : Word) (h : s.mem.wf = true) : (s.pgCtl pg v).mem.wf = true :=
  State.applyThen_wf _ _ _ h fun t ht => by split <;> simp [ht]

@[simp] theorem State.act_wf (ag : Agent) (pg off : Nat) (v : Word) (h : s.mem.wf = true) :
    (s.act ag pg off v).mem.wf = true := by
  have hput (pg off : Nat) (v : Word) : (s.orRefuse pg (s.applyFields pg off v)).mem.wf = true := by
    rw [State.orRefuse_mem fun t ht => State.applyFields_mem ht]
    exact h
  have hthen {f : State → State} (hf : ∀ t, (f t).mem = t.mem) (off : Nat) : (s.applyThen pg off v f).mem.wf = true :=
    State.applyThen_wf _ _ _ h fun t ht => (congrArg Mem.wf (hf t)).trans ht
  unfold State.act
  extract_lets n plain tile _ unleavened cleared loaded _ allocated
  have hplain : (plain s).mem.wf = true := hput pg off v
  have hcleared : cleared.mem.wf = true := State.wf_ite (by simp [unleavened, h]) (State.wf_ite (by simp [h]) h)
  have hloaded : loaded.mem.wf = true := State.wf_ite (by simp [h]) h
  have hallocated : allocated.mem.wf = true := State.wf_ite (by simp [h]) h
  clear_value plain cleared loaded allocated
  split
  · refine State.wf_ite (State.wf_ite (by simp [h]) (by simp [h])) ?_
    refine State.wf_ite (by simp [hplain]) (State.wf_ite (by simp [hput]) ?_)
    refine State.wf_ite (by simp [h]) (State.wf_ite (State.wf_ite (by simp [h]) h) ?_)
    exact State.wf_ite (by simp [h]) (State.wf_ite (State.wf_ite (by simp [h]) h) hplain)
  split
  · exact h
  next ty i _ =>
    extract_lets l relinked
    have hrelinked : relinked.mem.wf = true := State.wf_ite (by simp [h]) h
    clear_value relinked
    refine State.wf_ite (State.wf_ite (by simp [h]) h) ?_
    cases ty
    case node =>
      refine State.wf_ite (by simp [h]) (State.wf_ite (State.wf_ite (by simp [h]) h) (State.wf_ite ?_ (State.wf_ite (State.wf_ite (by simp [h]) h) hplain)))
      exact State.wf_ite (State.restart_wf hcleared) hcleared
    case xlat =>
      refine State.wf_ite (hthen (fun t => by split <;> simp) _) (State.wf_ite ?_ (State.wf_ite h hplain))
      exact State.wf_ite (by simp [hloaded]) hloaded
    case ttlb => exact State.wf_ite (State.wf_ite (by simp [h]) h) hplain
    case hlnk => exact State.wf_ite (State.wf_ite (by simp [hrelinked]) hrelinked) hplain
    case mbox =>
      cases ag
      case host l => exact State.wf_ite (by simp [h]) hplain
      all_goals exact hplain
    case dbel => exact State.wf_ite (by simp [h]) (State.wf_ite (by simp [h]) (State.wf_ite (State.ringCfg_wf _ h) hplain))
    case mchn =>
      refine State.wf_ite (hthen (fun t => by split <;> simp) _) (State.wf_ite ?_ hplain)
      exact State.wf_ite (State.wf_testRelease hallocated _) hallocated
    case scrb =>
      refine State.wf_ite (hthen (fun t => by split <;> simp) _) (State.wf_ite ?_ hplain)
      exact State.wf_ite (State.wf_testRelease hallocated _) hallocated
    case bnch => exact State.wf_ite (hthen (fun t => by simp) _) hplain
    all_goals exact hplain

theorem State.regWrite_mem (ag : Agent) (addr bytes : Nat) {f : State → State} (hf : ∀ s, (f s).mem = s.mem) :
    (s.regWrite ag addr bytes f).mem = s.mem := by
  unfold State.regWrite
  (repeat' split) <;> simp [hf]

theorem State.regWrite_wf (ag : Agent) (addr bytes : Nat) {f : State → State} (h : s.mem.wf = true)
    (hf : ∀ s, s.mem.wf = true → (f s).mem.wf = true) : (s.regWrite ag addr bytes f).mem.wf = true := by
  unfold State.regWrite
  (repeat' split) <;> simp [h, hf]

@[simp] theorem State.storeHi_mem (ag : Agent) (addr value : Nat) : (s.storeHi ag addr value).mem = s.mem := by
  unfold State.storeHi
  extract_lets pg lo key low _ u
  clear_value low
  split
  · rfl
  split
  · simp
  have hu : u.mem = s.mem := rfl
  split
  · exact hu
  split
  · simp [hu]
  split
  · simp [hu]
  next hx =>
    have hx := (State.applyFields_mem hx).trans hu
    split
    · exact hx
    · split
      · simp [hu]
      next hy => exact (State.applyFields_mem hy).trans hx

@[simp] theorem State.storeReg_wf (ag : Agent) (addr bytes value : Nat) (h : s.mem.wf = true) :
    (s.storeReg ag addr bytes value).mem.wf = true := by
  unfold State.storeReg
  split
  · simp [h]
  · exact State.regWrite_wf _ _ _ h fun t ht => State.act_wf _ _ _ _ ht

@[simp] theorem State.poke_wf (ag : Agent) (pg off value : Nat) (h : s.mem.wf = true) :
    (s.poke ag pg off value).mem.wf = true := by
  simp [State.poke, h]

@[simp] theorem State.leaseExpire_wf (h : s.mem.wf = true) : s.leaseExpire.mem.wf = true := by
  unfold State.leaseExpire
  (repeat' split) <;> simp [h]

@[simp] theorem State.leaseReq_mem : (s.leaseReq).1.mem = s.mem := by
  simp [State.leaseReq]

theorem State.regRead_mem (ag : Agent) (addr bytes tag : Nat) {f : State → State × Word} (hf : ∀ s, (f s).1.mem = s.mem) :
    (s.regRead ag addr bytes tag f).mem = s.mem := by
  unfold State.regRead
  (repeat' split) <;> simp [hf]

@[simp] theorem State.lreqRead_mem (ag : Agent) (tag : Nat) : (s.lreqRead ag tag).mem = s.mem :=
  State.regRead_mem _ _ _ _ fun _ => rfl

@[simp] theorem State.hotRead_mem (ag : Agent) (t tag : Nat) : (s.hotRead ag t tag).mem = s.mem :=
  State.regRead_mem _ _ _ _ fun u => by split <;> rfl

@[simp] theorem State.abortPage_wf (ag : Agent) (pg : Nat) (stuck : List Nat) (h : s.mem.wf = true) :
    (s.abortPage ag pg stuck).mem.wf = true :=
  State.regWrite_wf _ _ _ h fun t ht => by simp [ht]

@[simp] theorem State.resetPage_mem (ag : Agent) (pg : Nat) (pass : Bool) : (s.resetPage ag pg pass).mem = s.mem :=
  State.regWrite_mem _ _ _ (by simp)

@[simp] theorem State.setFreeze_wf (ag : Agent) (pg : Nat) (h : s.mem.wf = true) : (s.setFreeze ag pg).mem.wf = true := by
  simp [State.setFreeze, h]

@[simp] theorem State.setEnable_wf (ag : Agent) (pg : Nat) (on : Bool) (h : s.mem.wf = true) :
    (s.setEnable ag pg on).mem.wf = true := by
  simp [State.setEnable, h]

@[simp] theorem State.loadReg_mem (ag : Agent) (addr bytes tag : Nat) : (s.loadReg ag addr bytes tag).mem = s.mem :=
  State.regRead_mem _ _ _ _ fun u => by (repeat' split) <;> rfl

end Sys2Proof.Machine
end

section
/-!
SUPPORT. Memory through faults, fences, scrubbing and the fragments on the engines.
-/

namespace Sys2Proof.Machine

variable {s t : State}

@[simp] theorem State.rewalk_wf (t i : Nat) (h : s.mem.wf = true) : (s.rewalk t i).mem.wf = true := by
  unfold State.rewalk
  dsimp only
  (repeat' split) <;> simp [h]

@[simp] theorem State.fenceTile_wf (t : Nat) (h : s.mem.wf = true) : (s.fenceTile t).mem.wf = true := by
  unfold State.fenceTile
  split
  · exact h
  extract_lets s1 cmds s2 s3 s4
  have h2 : s2.mem.wf = true := State.foldl_wf _ (fun s i hs => by simp [hs]) _ _ (by simp [s1, h])
  have h3 : s3.mem.wf = true := State.foldl_wf _ (fun s p hs => by split <;> simp [hs]) _ _ h2
  have h4 : s4.mem.wf = true := State.foldl_wf _ (fun s p hs => by simp [hs]) _ _ h3
  exact State.foldl_wf _ (fun s p hs => by simp [hs]) _ _ h4

@[simp] theorem State.fenceQuad_wf (q : Nat) (h : s.mem.wf = true) : (s.fenceQuad q).mem.wf = true := by
  unfold State.fenceQuad
  exact State.foldl_wf _ (fun s x h => by simp [h]) _ _ h

@[simp] theorem State.railFault_wf (r : Rail) (h : s.mem.wf = true) : (s.railFault r).mem.wf = true := by
  unfold State.railFault
  (repeat' split) <;> simp [h]

@[simp] theorem State.benchFill_mem (f part : Nat) : (s.benchFill f part).mem = s.mem := by
  unfold State.benchFill
  split
  · rfl
  split
  · rfl
  dsimp only
  split
  · simp
  split
  · simp
  next hl => simp [State.takeLine_mem hl]

@[simp] theorem State.fenceEngine_mem (t e : Nat) : (s.fenceEngine t e).mem = s.mem := by
  unfold State.fenceEngine
  dsimp only
  (repeat' split) <;> simp

@[simp] theorem State.fenceUnit_wf (pg : Nat) (h : s.mem.wf = true) : (s.fenceUnit pg).mem.wf = true := by
  unfold State.fenceUnit
  (repeat' split) <;> simp [h]

@[simp] theorem State.controlMismatch_wf (u : CtlUnit) (h : s.mem.wf = true) : (s.controlMismatch u).mem.wf = true := by
  unfold State.controlMismatch
  (repeat' split) <;> simp [h]

@[simp] theorem State.islandLost_wf (i : Island) (h : s.mem.wf = true) : (s.islandLost i).mem.wf = true := by
  unfold State.islandLost
  (repeat' split) <;> simp [h]

@[simp] theorem State.bridgeTimeout_wf (x : BridgeLoss) (h : s.mem.wf = true) : (s.bridgeTimeout x).mem.wf = true := by
  simp [State.bridgeTimeout, h]

@[simp] theorem State.busBite_wf (t requester beats : Nat) (h : s.mem.wf = true) :
    (s.busBite t requester beats).mem.wf = true := by
  unfold State.busBite
  (repeat' split) <;> simp [h]

@[simp] theorem State.watchdog_wf (pg : Nat) (h : s.mem.wf = true) : (s.watchdog pg).mem.wf = true := by
  unfold State.watchdog
  (repeat' split) <;> simp [h]

@[simp] theorem State.loseCmds_wf (t : Option Nat) (ids : List Nat) (h : s.mem.wf = true) : (s.loseCmds t ids).mem.wf = true := by
  unfold State.loseCmds
  refine State.settleAborts_wf (State.foldl_wf _ (fun s i hs => ?_) _ _ h)
  (repeat' split) <;> simp [hs]

@[simp] theorem State.loseCtx_wf (k : MergeKey) (n : Nat) (h : s.mem.wf = true) : (s.loseCtx k n).mem.wf = true := by
  unfold State.loseCtx
  (repeat' split) <;> simp [h]

@[simp] theorem State.loseCached_wf (k : MergeKey) (h : s.mem.wf = true) : (s.loseCached k).mem.wf = true := by
  simp [State.loseCached, h]

@[simp] theorem State.loseConn_wf (i unit : Nat) (h : s.mem.wf = true) : (s.loseConn i unit).mem.wf = true := by
  unfold State.loseConn
  (repeat' split) <;> simp [h]

@[simp] theorem State.loseSram_wf (e : SramEntry) (h : s.mem.wf = true) : (s.loseSram e).mem.wf = true := by
  unfold State.loseSram
  (repeat' split) <;> simp [h]

@[simp] theorem State.scrubSram_wf (t : Nat) (e : SramEntry) (index : Nat) (o : ScrubOutcome) (h : s.mem.wf = true) :
    (s.scrubSram t e index o).mem.wf = true := by
  unfold State.scrubSram
  (repeat' split) <;> simp [h]

@[simp] theorem State.loseAudit_mem (seq : Nat) : (s.loseAudit seq).mem = s.mem := by
  simp [State.loseAudit]

@[simp] theorem State.loseKeySet_mem (set : Nat) : (s.loseKeySet set).mem = s.mem := by
  unfold State.loseKeySet
  (repeat' split) <;> simp

@[simp] theorem State.loseBench_wf (t b : Nat) (h : s.mem.wf = true) : (s.loseBench t b).mem.wf = true := by
  unfold State.loseBench
  (repeat' split) <;> simp [h]

@[simp] theorem State.scrubLost_wf (t code unit detail a : Nat) (h : s.mem.wf = true) :
    (s.scrubLost t code unit detail a).mem.wf = true := by
  unfold State.scrubLost
  dsimp only
  (repeat' split) <;> simp [State.wf_zeroChunk, h]

@[simp] theorem State.scrubWord_wf (t a : Nat) (o : ScrubOutcome) (h : s.mem.wf = true) : (s.scrubWord t a o).mem.wf = true := by
  unfold State.scrubWord
  dsimp only
  (repeat' split) <;> simp [h]

@[simp] theorem State.scrubAt_wf (t : Nat) (target : ScrubTarget) (o : ScrubOutcome) (h : s.mem.wf = true) :
    (s.scrubAt t target o).mem.wf = true := by
  unfold State.scrubAt
  (repeat' split) <;> simp [h]

@[simp] theorem State.scrub_wf (t : Nat) (target : ScrubTarget) (o : ScrubOutcome) (h : s.mem.wf = true) :
    (s.scrub t target o).mem.wf = true := by
  unfold State.scrub
  (repeat' split) <;> simp [h]

@[simp] theorem State.writebackDone_mem (t set way : Nat) : (s.writebackDone t set way).mem = s.mem := by
  unfold State.writebackDone
  dsimp only
  (repeat' split) <;> simp

@[simp] theorem State.releasePin_mem (f : Nat) (old : Bool) : (s.releasePin f old).mem = s.mem := by
  unfold State.releasePin
  (repeat' split) <;> simp

@[simp] theorem State.packCommit_wf (f : Nat) (h : s.mem.wf = true) : (s.packCommit f).mem.wf = true := by
  unfold State.packCommit
  split
  case h_2 => exact h
  next c x _ _ =>
    split
    · simp [h]
    extract_lets fr ch sh
    split
    · exact h
    next u loc hx =>
      have hm := (congrArg Mem.wf (State.allocCrumb_mem hx)).trans h
      extract_lets _ s1 q srcLine part s2 s3
      have h3 : s3.mem.wf = true := by simpa [s3, s2, s1] using hm
      split
      next v b hy =>
        have hv : v.mem.wf = true := (congrArg Mem.wf (State.mem_of_fst hy (State.takeLine_pair_mem ..))).trans h3
        dsimp only
        split <;> simpa using hv

@[simp] theorem State.packStart_mem (t : Nat) : (s.packStart t).mem = s.mem := by
  unfold State.packStart
  (repeat' split) <;> simp

@[simp] theorem State.mergeDeadline_wf (k : MergeKey) (h : s.mem.wf = true) : (s.mergeDeadline k).mem.wf = true := by
  unfold State.mergeDeadline
  (repeat' split) <;> simp [h]

@[simp] theorem State.promotionLands_mem (f : Nat) : (s.promotionLands f).mem = s.mem := by
  unfold State.promotionLands
  (repeat' split) <;> simp

@[simp] theorem State.releaseTile_wf (cmd t : Nat) (h : s.mem.wf = true) : (s.releaseTile cmd t).mem.wf = true := by
  unfold State.releaseTile
  (repeat' split) <;> simp [h]

@[simp] theorem State.commitGrads_mem (j : AttnJob) (sh : Shape) (f : Frag) (fp : FragPage) (p : Page) (sums : List
    ((Nat × Nat × Nat) × List Word)) :
    (s.commitGrads j sh f fp p sums).1.mem = s.mem := by
  obtain ⟨note, hn, hnote⟩ : ∃ note, State.noteWrite = note ∧ ∀ u a n w, (note u a n w).mem = u.mem :=
    ⟨_, rfl, by simp⟩
  unfold State.commitGrads
  rw [hn]
  dsimp only
  split
  · rfl
  next g _ =>
    have hread : (s.readGrad _ g).1.mem = s.mem := State.readGrad_mem (j.hdr.context, j.d.seq, fp.vpn) g
    split
    · exact hread
    · split <;> simp [hnote]

@[simp] theorem State.usePage_mem (j : AttnJob) (f : Frag) (e : Nat) (fp : FragPage) (x : Frame) :
    (s.usePage j f e fp x).mem = s.mem := by
  unfold State.usePage
  dsimp only
  (repeat' split) <;> simp

@[simp] theorem State.runPage_mem (j : AttnJob) (f : Frag) (e : Nat) (fp : FragPage) (x : Frame) :
    (s.runPage j f e fp x).mem = s.mem := by
  simp [State.runPage]

@[simp] theorem State.residueFault_mem (h : Hdr) (f : Frag) (e : Nat) : (s.residueFault h f e).mem = s.mem := by
  unfold State.residueFault
  dsimp only
  (repeat' split) <;> simp

@[simp] theorem State.pageDone_mem (i : Nat) (residueOk : Bool) : (s.pageDone i residueOk).mem = s.mem := by
  unfold State.pageDone
  (repeat' split) <;> simp

@[simp] theorem State.fragKilled_wf (i : Nat) (h : s.mem.wf = true) : (s.fragKilled i).mem.wf = true := by
  unfold State.fragKilled
  (repeat' split) <;> simp [h]

@[simp] theorem State.fillTimeout_wf (id : Nat) (h : s.mem.wf = true) : (s.fillTimeout id).mem.wf = true := by
  unfold State.fillTimeout
  (repeat' split) <;> simp [h]

theorem State.landFill_mem {d v : Nat} {content : Page} {t : State} (ht : s.landFill d v content = some t) : t.mem = s.mem := by
  unfold State.landFill at ht
  split at ht
  · cases ht
    rfl
  dsimp only at ht
  split at ht
  · split at ht
    · cases ht
    · rw [State.landContent_mem ht]
      simp
  · cases ht
    simp

@[simp] theorem State.fillLands_wf (d v : Nat) (content : Page) (h : s.mem.wf = true) :
    (s.fillLands d v content).mem.wf = true := by
  unfold State.fillLands
  cases hx : s.landFill d v content with
  | none => simp [h]
  | some t => exact (congrArg Mem.wf (State.landFill_mem hx)).trans h

@[simp] theorem State.fillArrives_wf (d v : Nat) (content : Option Page) (h : s.mem.wf = true) :
    (s.fillArrives d v content).mem.wf = true := by
  unfold State.fillArrives
  (repeat' split) <;> simp [h]

theorem State.takeHead_wf {n : Nat} {b : List Byte} {t : State} (h : s.mem.wf = true) (ht : s.takeHead n b = some t) :
    t.mem.wf = true := by
  unfold State.takeHead at ht
  dsimp only at ht
  split at ht
  · cases ht
    simp [h]
  · exact State.submit_wf (by simp [h]) ht

@[simp] theorem State.ringFetch_wf (n : Nat) (h : s.mem.wf = true) : (s.ringFetch n).mem.wf = true := by
  unfold State.ringFetch
  split
  · exact h
  split
  · exact h
  dsimp only
  split
  · exact h
  · exact State.getD_wf (by exact h) fun t ht => State.takeHead_wf h ht

end Sys2Proof.Machine
end

section
/-!
SUPPORT. Memory through the events that end an operation, and through the work of a tick.
-/

namespace Sys2Proof.Machine

variable {s t : State}

@[simp] theorem State.command_wf (q : Req) (op : Op) (h : s.mem.wf = true) : (s.command q op).mem.wf = true :=
  State.getD_wf h fun _ ht => State.submit_wf h ht

@[simp] theorem State.importFrom_wf (q : Req) (d : ImportD) (m : Manifest) (h : s.mem.wf = true) :
    (s.importFrom q d m).mem.wf = true := by
  unfold State.importFrom
  split
  · simp [h]
  · exact State.getD_wf h fun _ ht => State.submit_wf h ht

@[simp] theorem State.overflowRelease_mem (id : Nat) : (s.overflowRelease id).mem = s.mem := by
  unfold State.overflowRelease
  (repeat' split) <;> simp

@[simp] theorem State.exportPlaced_mem (j : Job) : (s.exportPlaced j).mem = s.mem := by
  unfold State.exportPlaced
  dsimp only
  (repeat' split) <;> simp

@[simp] theorem State.manifestPlaced_wf (id : Nat) (h : s.mem.wf = true) : (s.manifestPlaced id).mem.wf = true := by
  unfold State.manifestPlaced
  (repeat' split) <;> simp [h]

@[simp] theorem State.migrateAck_wf (id vpn : Nat) (h : s.mem.wf = true) : (s.migrateAck id vpn).mem.wf = true := by
  unfold State.migrateAck
  dsimp only
  (repeat' split) <;> simp [h]

@[simp] theorem State.waitWordMet_wf (id : Nat) (h : s.mem.wf = true) : (s.waitWordMet id).mem.wf = true := by
  unfold State.waitWordMet
  (repeat' split) <;> simp [h]

@[simp] theorem State.waitTimeout_wf (id : Nat) (h : s.mem.wf = true) : (s.waitTimeout id).mem.wf = true := by
  unfold State.waitTimeout
  (repeat' split) <;> simp [h]

@[simp] theorem State.waitCountMet_wf (id : Nat) (h : s.mem.wf = true) : (s.waitCountMet id).mem.wf = true := by
  unfold State.waitCountMet
  (repeat' split) <;> simp [h]

@[simp] theorem State.answerArrives_wf (conn msgId status c0 c1 : Nat) (data : List Byte) (h : s.mem.wf = true) :
    (s.answerArrives conn msgId status c0 c1 data).mem.wf = true := by
  unfold State.answerArrives
  (repeat' split) <;> simp [h]

@[simp] theorem State.noticeEnd_wf (handle status : Nat) (h : s.mem.wf = true) : (s.noticeEnd handle status).mem.wf = true := by
  unfold State.noticeEnd
  dsimp only
  (repeat' split) <;> simp [State.wf_writeRecord, h]

@[simp] theorem State.served_wf (q : Req) (op : Op) (ue : Bool) (h : s.mem.wf = true) : (s.served q op ue).mem.wf = true :=
  State.getD_wf h fun _ ht => State.submit_wf h ht

@[simp] theorem State.nextBatch_wf (id : Nat) (h : s.mem.wf = true) : (s.nextBatch id).mem.wf = true := by
  unfold State.nextBatch
  split
  · exact h
  split
  · exact State.applyRes_wf _ (by simp [h])
  · exact h

@[simp] theorem State.ownCommand_wf (d : Nat) (op : Op) (h : s.mem.wf = true) : (s.ownCommand d op).mem.wf = true := by
  simp [State.ownCommand, h]

@[simp] theorem State.evacStart_wf (e : Evac) (d q : Nat) (h : s.mem.wf = true) : (s.evacStart e d q).mem.wf = true := by
  unfold State.evacStart
  dsimp only
  (repeat' split) <;> simp [h]

@[simp] theorem State.evacEnd_wf (e : Evac) (h : s.mem.wf = true) : (s.evacEnd e).mem.wf = true := by
  unfold State.evacEnd
  extract_lets s1 s2 s3 s4 f
  have h2 : s2.mem.wf = true := State.foldl_wf _ (fun s p hs => by simp [hs]) _ _ (by simp [s1, h])
  have h3 : s3.mem.wf = true := State.getD_wf h2 fun t ht => (congrArg Mem.wf (State.releaseSlot_mem ht)).trans h2
  exact State.endHeld_wf _ _ _ _ h3

@[simp] theorem State.evacStep_wf (h : s.mem.wf = true) : s.evacStep.mem.wf = true := by
  unfold State.evacStep
  dsimp only
  (repeat' split) <;> simp [h]

@[simp] theorem State.serveFirmware_wf (h : s.mem.wf = true) : s.serveFirmware.mem.wf = true := by
  simp [State.serveFirmware, h]

@[simp] theorem State.serveConn_wf (i : Nat) (h : s.mem.wf = true) : (s.serveConn i).mem.wf = true := by
  have hadm : ((s.deliverMsgs i).admitConn i).mem.wf = true := State.admitConn_wf _ (State.deliverMsgs_wf _ h)
  exact State.noteGone_wf _ _ (by simp [hadm])

@[simp] theorem State.serveConns_wf (h : s.mem.wf = true) : s.serveConns.mem.wf = true := by
  unfold State.serveConns
  exact State.foldl_wf _ (fun s x h => by simp [h]) _ _ h

@[simp] theorem State.serveJobs_mem : s.serveJobs.mem = s.mem := by
  simp [State.serveJobs]

@[simp] theorem State.drainTiles_mem : s.drainTiles.mem = s.mem := by
  simp [State.drainTiles]

@[simp] theorem State.work_wf (h : s.mem.wf = true) : s.work.mem.wf = true := by
  unfold State.work
  split
  · have hconns := State.lookAll_wf (State.serveConns_wf h)
    have hjobs : s.serveConns.lookAll.pumpOutbound.serveJobs.settleAborts.mem.wf = true := by simp [hconns]
    simp [hjobs]
  · exact h

@[simp] theorem State.tick_wf (h : s.mem.wf = true) : s.tick.mem.wf = true := by
  unfold State.tick
  dsimp only
  (repeat' split) <;> simp [h]

end Sys2Proof.Machine
end

section
/-!
SUPPORT. Every command, and the tick of an empty queue, keep the canonical form of memory.
-/

namespace Sys2Proof.Machine

variable {s t : State}

/-- The outcome leaves memory in its canonical form. -/
def CanonicalNext (r : Ran) : Prop := ∀ t, r = .next t → t.mem.wf = true

theorem State.did_canonical (h : t.mem.wf = true) : CanonicalNext (s.did t) := by
  rintro u ⟨⟩
  exact h

theorem State.didPower_canonical (h : t.mem.wf = true) : CanonicalNext (s.didPower t) := by
  rintro u ⟨⟩
  exact h

section
variable {f : State → State} (h : s.mem.wf = true) (hf : ∀ u, u.mem.wf = true → (f u).mem.wf = true)
include h hf

theorem State.inService_canonical : CanonicalNext (s.inService f) := State.did_canonical (State.wf_ite (hf s h) h)
theorem State.inAwake_canonical : CanonicalNext (s.inAwake f) := State.did_canonical (State.wf_ite (hf s h) h)
theorem State.inPower_canonical : CanonicalNext (s.inPower f) := State.did_canonical (State.wf_ite (hf s h) h)

theorem State.onLink_canonical : CanonicalNext (s.onLink f) :=
  State.inPower_canonical h fun u hu => by simp [hf u hu]

@[simp] theorem onTile_wf (n : Nat) : (onTile n f s).mem.wf = true := State.wf_ite (hf s h) h
@[simp] theorem onSublink_wf (port sub : Nat) : (onSublink port sub f s).mem.wf = true := State.wf_ite (hf s h) h

theorem onFrame_wf (port sub : Nat) : (onFrame port sub f s).mem.wf = true :=
  onSublink_wf h (fun u hu => State.wf_ite (hf u hu) hu) port sub

end

/-- Every command keeps the canonical form of memory: its meaning is a function that does, run where Table 20-2 lets its unit run. -/
theorem exec_canonical (c : Instr) (h : s.mem.wf = true) : CanonicalNext (exec c s) := by
  unfold exec
  cases c
  case append | sealOp | attnFwd | attnBwd | gradDrain | pageRead | fork | compact | compactBatch | prefixLookup |
        prefixStep | prefixInsert | prefixRemove | rmaRead | rmaWrite | rmaAdd | rmaCas | rmaFlush | rmaReadServe |
        rmaWriteServe | rmaAddServe | rmaCasServe | rmaFlushServe | targetNoticeIntervalEnd | rmaResponse | waitCount |
        waitCountMet | waitWord | waitWordMet | waitTimeout | regionRegister | regionRevoke | regionDrained | seqCreate |
        seqPark | seqResume | seqDestroy | seqMigrate | migratePageAck | ckptExport | exportManifestPlaced | overflowRelease
        | ckptImport | abort | fence | nop | ringFetch | demandFillLands | demandFillFails | fillTimeout | contextSaveDone |
        fragmentKill | fragmentPageDone | fragmentComplete | promotionLands | partialReceive | mergeDeadline | lingerExpire
        | partialStatusReceive | partialResend | crumbPackCommit | pinRelease | mergeBufferFlush | watchdogFire |
        busWatchdogBite | bridgeTimeout | controlMismatch | railFault | leaseExpire | leaseLow | graceEnd | cqIrqDelay |
        hsFinish | hsTimeout | ack | ackDelay | recvBusy | recvBusyRetry | abandon | pathProbe | pathReply | probeTimer |
        rtoExpire | reasmTimeout | close | closeAck | connFetchDone | pacerRelease | creditRefill | incomingMigration |
        victimWaitTimeout | quiesceTimeout | contextRestoreDone | benchFetchLands =>
    exact State.inService_canonical h fun u hu => by simp [hu]
  case windowClose | preemptStop | tilePartialRelease | crumbPackStart | benchAgeSweep | writebackComplete | scrubRead |
        scrubPassLate =>
    exact State.inService_canonical h fun u hu => onTile_wf hu (fun v hv => by simp [hv]) _
  case sublinkLinkLoss | egressSelect | portLinkUp =>
    exact State.inService_canonical h fun u hu => onSublink_wf hu (fun v hv => by simp [hv]) _ _
  case hsInit | data | arpNsEchoRequest =>
    exact State.inService_canonical h fun u hu => onFrame_wf hu (fun v hv => by simp [hv]) _ _
  case ringLost =>
    exact State.inService_canonical h fun u hu => State.wf_ite (by simp [hu]) hu
  case coreLockstepRestart | lsChallengeDeferred | lsProof | inspectExpire | activationStartTimeout |
        deferredActivationResume | antiRollbackRaise | reportResign | auditHeadFlush =>
    exact State.inAwake_canonical h fun u hu => by simp [hu]
  case bucketLeakTick | trngFail | lsHello | lsEnd =>
    exact State.inPower_canonical h fun u hu => by simp [hu]
  case bulkRead =>
    exact State.inPower_canonical h fun u hu => State.wf_ite (State.wf_ite (by simp [hu]) (by simp [hu])) hu
  case bulkWrite | ringWindowWrite | imageFlit =>
    exact State.inPower_canonical h fun u hu => State.wf_ite (by simp [hu]) hu
  case retryReq | flitAckCredit | flitTimeout | linkDown | linkTrained | linkTrainTimeout =>
    exact State.onLink_canonical h fun u hu => by simp [hu]
  case hello | traceSet | attest | domainCreate | domainDestroy | credAdd | credRemove | projInstall | projRemove |
        inspectOpen | inspectClose | auditExcerpt | opkProgram | opkRevoke | fwStage | fwActivate | fwStatus | meterSnapshot
        | evacuate | powerCap | ctxCreate | ctxModify | ctxDestroy | quadStatus | laneLog =>
    exact State.did_canonical (by simp [h])
  case pgLockWrite | shadowCommit | errLogClear | counterClear | invalAll | shapeRead | shapeWrite | renew | grant |
        forcedFence | release | rejoinDiscard | rejoinReinstate | restart | clearFails | forceUnleavened | locate |
        activeReq | retrain | ringCreate | ringDisable | sqDb | cqDb =>
    exact State.did_canonical (by simp [h])
  case flipArm | testAlloc | testRelease =>
    exact State.did_canonical (State.wf_ite (by simp [h]) h)
  case ttlbInval | hotRead =>
    exact State.did_canonical (onTile_wf h (fun v hv => by simp [hv]) _)
  case registerWrite | regPairHiWrite | regLoRead | pgCtlEnable | pgCtlFreeze | softReset | pgCtlAbort | lreqRead |
        locateEnd | rstreqAssert | rstreqRelease | inputTrip | enAssert | enDeassert | bootStepDone | bootStepTimeout |
        startRetry | imageWindowExpire | powerSample | brownOut | powerEmergencyEnd | thermalSample | thermalEmergencyEnd |
        coreReachesUp =>
    exact State.did_canonical (by simp [h])
  case powerOn | overvoltageReclose =>
    exact State.didPower_canonical (by simp [h])

end Sys2Proof.Machine
end

section
open Sys2Proof Sys2Proof.Machine

/-- Settles O5: the tick of an empty queue keeps the canonical form of memory, and so does every command. -/
theorem memoryStaysCanonical : Obligations.MemoryStaysCanonical := by
  intro s t h hstep
  cases hq : s.pending with
  | nil =>
    rw [step_nil hq] at hstep
    cases hstep
    exact State.tick_wf h
  | cons c rest =>
    rw [step_cons hq] at hstep
    exact exec_canonical c (s := { s with pending := rest }) h t hstep

end
